-- ==== Sys2Proof/Word.lean ====
section
/-! DEFINITION. Bytes, words and their plainest arithmetic (R8: little-endian throughout), and the sorted
association lists that hold sparse state. -/

namespace Sys2Proof

abbrev Byte := BitVec 8
abbrev Bytes := List Byte

/-- The little-endian integer of a byte string (R8). -/
def leNat : Bytes → Nat
  | [] => 0
  | b :: r => b.toNat + 256 * leNat r

/-- `n` bytes of an integer, least significant byte first (R8); excess high bits are dropped. -/
def leBytes : Nat → Nat → Bytes
  | 0, _ => []
  | n + 1, v => BitVec.ofNat 8 v :: leBytes n (v / 256)

/-- The big-endian integer of a byte string (R109, R199). -/
def beNat (b : Bytes) : Nat := leNat b.reverse

/-- `n` bytes of an integer, most significant byte first. -/
def beBytes (n v : Nat) : Bytes := (leBytes n v).reverse

/-- Exactly `n` bytes: the string cut off, or padded with zero bytes. -/
def fixLen (n : Nat) (b : Bytes) : Bytes := (b ++ List.replicate n 0).take n

/-- The `n` bytes from offset `o`, padded with zero bytes past the end. -/
def slice (b : Bytes) (o n : Nat) : Bytes := fixLen n (b.drop o)

/-- The little-endian field of `n` bytes at offset `o`. -/
def fieldLE (b : Bytes) (o n : Nat) : Nat := leNat (slice b o n)

/-- Byte-wise XOR of two strings; the shorter one bounds the result. -/
def xorBytes (a b : Bytes) : Bytes := List.zipWith (· ^^^ ·) a b

/-- Quotient rounded up; 0 divides to 0. -/
def ceilDiv (a b : Nat) : Nat := (a + b - 1) / b

/-- A `w`-bit counter that saturates (its width is that of its register field). -/
def satAdd {w : Nat} (a : BitVec w) (n : Nat) : BitVec w :=
  if a.toNat + n < 2 ^ w then BitVec.ofNat w (a.toNat + n) else BitVec.allOnes w

/-- A count limited to `m`. -/
def satNat (m n : Nat) : Nat := if n ≤ m then n else m

/-- A Bool as a bit. -/
def bit (b : Bool) : Nat := if b then 1 else 0

/-! ### Sparse tables

A table maps a number to a value. A number that is not listed holds the default of its table. Entries stand in strictly rising
order of their numbers, and writing the default removes an entry. -/

abbrev Tbl (α : Type) := List (Nat × α)

/-- The value at `i`, `d` where the table lists none. -/
def tget {α : Type} (d : α) : Tbl α → Nat → α
  | [], _ => d
  | (k, v) :: r, i => if i = k then v else tget d r i

/-- The entry at `i`, if one is listed (a table without a default). -/
def tfind {α : Type} : Tbl α → Nat → Option α
  | [], _ => none
  | (k, v) :: r, i => if i = k then some v else tfind r i

/-- Insert or replace the entry at `i`, keeping the order. -/
def tput {α : Type} : Tbl α → Nat → α → Tbl α
  | [], i, v => [(i, v)]
  | (k, u) :: r, i, v =>
    if i < k then (i, v) :: (k, u) :: r
    else if i = k then (i, v) :: r
    else (k, u) :: tput r i v

/-- Remove the entry at `i`. -/
def tdel {α : Type} : Tbl α → Nat → Tbl α
  | [], _ => []
  | (k, u) :: r, i => if i = k then tdel r i else (k, u) :: tdel r i

/-- Write `v` at `i` in a table whose default is `d`: writing the default removes the entry. -/
def tset {α : Type} [DecidableEq α] (d : α) (t : Tbl α) (i : Nat) (v : α) : Tbl α :=
  if v = d then tdel t i else tput t i v

/-- Remove every entry from `lo` up to but not including `hi`. -/
def tclear {α : Type} (t : Tbl α) (lo hi : Nat) : Tbl α := t.filter fun e => e.1 < lo || hi ≤ e.1

/-- The numbers rise strictly and no entry holds the default. -/
def twf {α : Type} [DecidableEq α] (d : α) : Tbl α → Bool
  | [] => true
  | [(_, v)] => v ≠ d
  | (k, v) :: (k', v') :: r => v ≠ d && k < k' && twf d ((k', v') :: r)

end Sys2Proof
end

