-- ==== Sys2Proof/Basic.lean ====
section
/-! DEFINITION. The small operand types of the commands: who accesses a register, what a DMA read returns, how a
dictionary request is headed. -/

namespace Sys2Proof

/-- The masters of register and memory accesses (R12, R13, R70): bench core c, island core c, the island's DMA, PCIe
function f over its BAR (0 the PF, n + 1 the VF of lease n). -/
inductive Master where
  | core (c : Nat)
  | island (c : Nat)
  | dma
  | fn (f : Nat)
  deriving DecidableEq, Repr

/-- The outcome of a DMA read (R85): success, or unsupported request, completer abort, poisoned data. -/
inductive Dma where
  | ok | ur | ca | poisoned
  deriving DecidableEq, Repr

/-- What the queue engine reads from host memory for one entry (R82): the entry's bytes, the gather list's elements,
the input, each with the outcome of its reads. -/
structure Fetch where
  entry     : Bytes
  entryDma  : Dma := .ok
  gather    : List Bytes := []
  gatherDma : Dma := .ok
  input     : Bytes := []
  inputDma  : Dma := .ok
  deriving DecidableEq, Repr

/-- ECC errors found in the tick that ends (R141, R166, R194, R419): in engine q's operand or polynomial memory, or in
its context store, corrected or not, and in island SRAM. -/
inductive Ecc where
  | corrected (q : Nat) (store : Bool)
  | uncorrectable (q : Nat) (store : Bool)
  | islandCorrected
  | islandUncorrectable
  deriving DecidableEq, Repr

/-- What SFDP declares of a host flash device (R244): density as log2, the dummy clocks of each mode it declares. -/
structure Sfdp where
  present : Bool
  dens    : Nat
  octal   : Option Nat
  quad    : Option Nat
  single  : Nat
  deriving DecidableEq, Repr

/-- What the gate reads of one region: its descriptor and its bytes. -/
structure RegData where
  desc : Bytes
  data : Bytes
  deriving DecidableEq, Repr

/-- What a card answers: response data with a status word, a character that failed its parity, or a block that failed its error-detection code
(in both, `lastSent`: the last byte of the command had gone out). -/
inductive CardAnswer
  | status (data : Bytes) (sw : Nat)
  | parity (lastSent : Bool)
  | edc (lastSent : Bool)
  | timeout (lastSent : Bool)
  | pulled (lastSent : Bool)
  /-- under T=1, an S(WTX request) with its multiplier: the answer is still to come (R329) -/
  | wtx (mult : Nat)
  deriving DecidableEq, Repr

/-- What an officer asks for when a key-loading ceremony begins (R224). -/
structure KeyLoadReq where
  lease  : Nat
  target : Nat
  parent : Nat
  type   : Nat
  len    : Nat
  attr   : BitVec 16
  /-- components -/
  c      : Nat
  /-- the key is generated on the device and written out to cards -/
  gen    : Bool
  deriving DecidableEq, Repr

/-- What a link that trains comes up with (R66): its rate, 1 to 5 for 2.5, 5, 8, 16 and 32 GT/s, and its width in lanes. -/
structure LinkSpeed where
  rate  : Nat
  width : Nat
  deriving DecidableEq, Repr

/-- What a NEGOTIATE_ALGORITHMS offers beside its signature algorithms (R369): SHA-384, DMTF measurements, DHE secp384r1, AEAD AES-256-GCM. -/
structure SpdmOffer where
  sha  : Bool
  meas : Bool
  dhe  : Bool
  aead : Bool
  deriving DecidableEq, Repr

/-- An attempt of the field side at a tag password (R344): the bytes presented, and whether the field goes between the decrement and the compare. -/
structure TagAttempt where
  pw  : Bytes
  cut : Bool
  deriving DecidableEq, Repr

/-- The header of a Mbokai request (R354), by the endpoint it arrives on. -/
structure Req where
  ep    : Nat
  ver   : BitVec 8
  tag   : BitVec 8
  index : Nat
  sub   : Nat
  /-- the STATUS field, 0 in a well-formed request -/
  status : BitVec 8 := 0
  /-- LEN agrees with the message -/
  lenOk : Bool := true
  /-- the OP field where it is a reserved one, 0 or 0x0B upwards: the request then stands in any row -/
  badOp : Option (BitVec 8) := none
  /-- on the I3C/SMBus endpoint, it comes over SMBus (R353) -/
  smbus : Bool := false
  deriving DecidableEq, Repr

/-- What a TAP instruction asks of the gallery (R388-R391). Cores 0 to 63 are bench cores, 64 and 65 the island's; core register i is D0 to D7,
A0 to A7, W0 to W3, PC, SR. -/
inductive TapOp where
  | idcode
  | bypass
  | rights
  | halt (c : Nat)
  | resume (c : Nat)
  | step (c : Nat)
  | readCore (c i : Nat)
  | writeCore (c i v : Nat)
  | readMemory (addr n : Nat)
  | readRegister (addr n : Nat)
  | readFlash (off n : Nat)
  /-- an instruction under another right, of which `n` bytes shift out -/
  | other (right n : Nat)
  deriving DecidableEq, Repr

/-- How the line's ECC comes out. -/
inductive LineEcc where
  | clean | corrected | uncorrectable
  deriving DecidableEq, Repr

/-- What a write cannot give and the world supplies: the card's answer to a SEND, and whether the last byte of a command under way had gone
out when a port is switched off (log 2). -/
structure Env where
  ans : Option CardAnswer := none
  lastSent : Bool := true
  deriving DecidableEq, Repr

end Sys2Proof
end

