-- ==== Sys2Proof/Syntax.lean ====
section
/-! DEFINITION. The commands of the block: one constructor for each row of the spec's command table, in the table's order, with its operands.
Leases, benches, engines, cores, slots and ports are named by their numbers; what the world supplies with a command (an answer, the data of a
read, a measurement) is an operand (log 2). Each docstring names the rule of the row. -/

namespace Sys2Proof

/-- The commands. -/
inductive Instr where
  /-- REGISTER_WRITE (R11). Write to a control register that has no row of its own, applied according to the field access codes, with
      lock-write events for locked fields. -/
  | registerWrite (m : Master) (addr : Nat) (data : Bytes) (e : Env)
  /-- DECODE_ACCESS (R15). Access to a reserved block, a reserved offset or an absent bench block; returns bus error DECODE and raises
      the island decode event. -/
  | decodeAccess (m : Master) (addr : Nat) (write : Bool)
  /-- TICK (R43). Expiry of a 4,096-fc tick; DSP_TICK advances and every engine and core begins the next tick. -/
  | tick (ecc : List Ecc)
  /-- FAULT_NOTIFY (R432). In the tick after a record opens, the PF MSI-X and the I3C IBI or SMBus ALERT are sent as routed. -/
  | faultNotify
  /-- FAULT_PULSE_END (R431). The 40-tk FAULT_N pulse expires, and the pin returns to FLT_PIN.LOW. -/
  | faultPulseEnd
  /-- SHADOW_CAPTURE (R51). At the end of frame tick 253 before a pending swap, every shadow table and the policy word are captured
      and CAPTURED is set. -/
  | shadowCapture
  /-- FRAME_SWAP (R51). At the frame boundary, the captured tables and policy become active together, and PEND, CAPTURED and RPL_PEND
      clear. -/
  | frameSwap
  /-- DSP_GO (R50). A write of DSP_CTL.GO sets PEND and schedules a swap at the next or the following frame boundary. -/
  | dspGo
  /-- DSP_CANCEL (R50). A write of DSP_CTL.CANCEL withdraws a pending swap that is not yet captured and carries no re-placement. -/
  | dspCancel
  /-- SHADOW_TABLE_WRITE (R49). Write to a shadow table or the policy register, checked for reserved values, OTHER and absent leases
      or cores, and refused with RANGE. -/
  | shadowTableWrite (off : Nat) (val : BitVec 64)
  /-- BEN_QUARANTINE_WRITE (R34). A write of BEN_CTL_n.QUARANTINE quarantines the bench, with software as the cause. -/
  | benQuarantineWrite (n : Nat)
  /-- BEN_RETURN (R36). A write of BEN_CTL_n.RETURN returns a wiped, quarantined bench to service, READY and empty. -/
  | benReturn (n : Nat)
  /-- BENCH_QUARANTINE (R35). At the boundary after a bench quarantine, engines and cores stop, executing commands complete
      QUARANTINED, staged commands are returned and the wipe starts. -/
  | benchQuarantine (n : Nat)
  /-- BENCH_WIPE_DONE (R35). The 1,536-tk bench wipe ends and WIPE_DONE is set. -/
  | benchWipeDone (n : Nat)
  /-- LEASE_QUARANTINE (R37). At the boundary after a lease quarantine, the lease's executing commands complete QUARANTINED, its
      queues go QUARANTINED and its slots act as IDLE. -/
  | leaseQuarantine (k : Nat)
  /-- REPLACEMENT_SEARCH (R38). The dispatcher searches candidate benches in three passes for each lease of a quarantined bench, and
      writes the new tables into the shadows. -/
  | replacementSearch (n : Nat)
  /-- WAKE_ADMISSION (R63). The power manager admits up to two waiting benches per tick in FIFO order, and starts their ramp. -/
  | wakeAdmission
  /-- BENCH_RAMP_END (R442). Six ticks after admission the bench becomes READY, or returns to OFF with PWR_FAIL set if its rails are
      not good. -/
  | benchRampEnd (n : Nat) (railsGood : Bool)
  /-- BENCH_IDLE_OFF (R440). A READY bench idle for PWR_IDLE_b frames is gated OFF at the frame boundary. -/
  | benchIdleOff (n : Nat)
  /-- PWR_OFF_WRITE (R443). A write of PWR_CTL.OFF gates the named benches OFF at the next frame boundary if they are idle. -/
  | pwrOffWrite (mask : BitVec 16)
  /-- PWR_WAKE_WRITE (R443). A write of PWR_WAKE raises wake requests for the named benches. -/
  | pwrWakeWrite (mask : BitVec 16)
  /-- DOORBELL_WRITE (R80). The host writes a producer count to HQ_DB_q; it is accepted or refused, and a refusal puts the queue in
      ERROR. -/
  | doorbellWrite (k q : Nat) (v : BitVec 32)
  /-- CQ_DOORBELL_WRITE (R87). The host writes a consumer count to HQ_CQDB_q; a backwards or overrunning value is discarded. -/
  | cqDoorbellWrite (k q : Nat) (v : BitVec 32)
  /-- ENTRY_FETCH (R82). The queue engine reads one entry by DMA, checks it, reads its gather list and input, and reserves output and
      completion space. -/
  | entryFetch (k q : Nat) (f : Fetch)
  /-- YARD_LINE_FILL (R206). One yard cache line is filled in 1 tk to make a referenced slot resident. -/
  | yardLineFill (n slot : Nat)
  /-- COMMAND_STAGED (R30). A command becomes staged once its input, output reservation and yard residency are all complete. -/
  | commandStaged (h : Nat)
  /-- COMPLETION_WRITE (R87). A completion is written to the CQ ring after the command's last execution tick, together with its
      output. -/
  | completionWrite (h : Nat)
  /-- IRQ_AGE_EXPIRY (R89). The CQ's unannounced age reaches IAGE and its MSI-X message is sent. -/
  | irqAgeExpiry (k q : Nat)
  /-- QUEUE_ENABLE (R72). A write of HQ_QCTL_q.ENABLE checks the configuration, sets CERR and creates the queue with the chosen
      format. -/
  | queueEnable (k q : Nat)
  /-- QUEUE_RESET (R91). A write of HQ_QCTL_q.RESET puts the queue in RESETTING and discards staged commands that have not begun. -/
  | queueReset (k q : Nat)
  /-- QUEUE_RESET_DONE (R91). When nothing of the queue remains in the device, its counts clear and it becomes DISABLED. -/
  | queueResetDone (k q : Nat)
  /-- HQ_QCFG_WRITE (R70). A write of HQ_QCFG_q takes effect only while the queue is DISABLED, and is discarded otherwise. -/
  | hqQcfgWrite (k q : Nat) (v : BitVec 64)
  /-- BAR_DECODE_ACCESS (R70). An access to an undefined BAR offset reads 0 or is discarded, and raises the host-interface decode
      event. -/
  | barDecodeAccess (fn off : Nat) (write : Bool)
  /-- VF_FLR (R69). A function level reset of a VF resets every queue of its lease within 100 ms. -/
  | vfFlr (k : Nat)
  /-- PF_FLR (R69). A function level reset of the PF disables all VFs and acts as an FLR of each. -/
  | pfFlr
  /-- SRIOV_NUMVFS_WRITE (R68). The PF sets NumVFs, enabling the VFs that serve leases 0 to NumVFs − 1. -/
  | sriovNumvfsWrite (n : Nat)
  /-- PCIE_LINK_CHANGE (R420). The PCIe link goes down, or trains at a lower rate or width. -/
  | pcieLinkChange (up : Bool) (speed : LinkSpeed)
  /-- PCIE_PERST (R489). PCIE_PERST_N goes low; the link is down and the device acts as under an FLR of the PF. -/
  | pciePerst
  /-- NOP (R105). Engine-free haul command that does nothing, used to carry FENCE or BATCH_END. -/
  | nop (h : Nat)
  /-- DIGEST (R107). Hashes the message with the algorithm selected by ALG on the digest engine. -/
  | digest (h : Nat)
  /-- MAC_GEN (R107). Computes an HMAC or KMAC with a yard HMAC key. -/
  | macGen (h : Nat)
  /-- MAC_VERIFY (R107). Computes an HMAC or KMAC and compares it with the tag in constant time. -/
  | macVerify (h : Nat)
  /-- CBC_ENC (R108). AES-CBC encryption on the wedge. -/
  | cbcEnc (h : Nat)
  /-- CBC_DEC (R108). AES-CBC decryption on the wedge. -/
  | cbcDec (h : Nat)
  /-- CTR (R108). AES-CTR on the wedge, with a counter wrap check. -/
  | ctr (h : Nat)
  /-- GCM_ENC (R108). AES-GCM encryption with a supplied IV. -/
  | gcmEnc (h : Nat)
  /-- GCM_ENC_RIV (R108). AES-GCM encryption with a random IV drawn by the device. -/
  | gcmEncRiv (h : Nat)
  /-- GCM_DEC (R174). AES-GCM decryption into a held wedge buffer, released only if the tag matches. -/
  | gcmDec (h : Nat)
  /-- CMAC_GEN (R108). Computes an AES-CMAC. -/
  | cmacGen (h : Nat)
  /-- CMAC_VERIFY (R108). Computes an AES-CMAC and compares it with the tag. -/
  | cmacVerify (h : Nat)
  /-- RSA_PRIV (R109). Blinded RSA private operation with the PUB fault check. -/
  | rsaPriv (h : Nat) (bad : Bool)
  /-- RSA_PUB (R109). RSA public operation with a yard or inline modulus. -/
  | rsaPub (h : Nat)
  /-- ED_SIGN (R109). Pure Ed25519 signing with the INV check. -/
  | edSign (h : Nat) (bad : Bool)
  /-- ED_VERIFY (R109). Ed25519 verification in a fixed count. -/
  | edVerify (h : Nat)
  /-- ECDSA_SIGN (R109). Hedged ECDSA signing on P-256 or P-384 over a supplied hash. -/
  | ecdsaSign (h : Nat) (bad : Bool)
  /-- ECDSA_VERIFY (R109). ECDSA verification on P-256 or P-384. -/
  | ecdsaVerify (h : Nat)
  /-- X25519 (R109). X25519 key agreement into a new SECRET slot. -/
  | x25519 (h : Nat) (bad : Bool)
  /-- ECDH (R109). ECDH on P-256 or P-384 into a new SECRET slot. -/
  | ecdh (h : Nat) (bad : Bool)
  /-- KEYGEN_EC (R109). Generates an Ed25519, X25519, P-256 or P-384 key into a slot and outputs its public key. -/
  | keygenEc (h : Nat) (bad : Bool)
  /-- MLDSA_KEYGEN (R153). Generates an ML-DSA-65 seed-form key and outputs its public key. -/
  | mldsaKeygen (h : Nat)
  /-- MLDSA_SIGN (R149). Hedged ML-DSA-65 signing in attempts of 8 tk, with verification before release. -/
  | mldsaSign (h : Nat) (bad : Bool)
  /-- MLDSA_VERIFY (R152). ML-DSA-65 verification in 16 tk. -/
  | mldsaVerify (h : Nat)
  /-- MLKEM_KEYGEN (R154). Generates an ML-KEM-768 seed-form key and outputs the encapsulation key. -/
  | mlkemKeygen (h : Nat)
  /-- MLKEM_ENCAPS (R154). ML-KEM-768 encapsulation into a new SECRET slot. -/
  | mlkemEncaps (h : Nat)
  /-- MLKEM_DECAPS (R155). ML-KEM-768 decapsulation with implicit rejection into a new SECRET slot. -/
  | mlkemDecaps (h : Nat)
  /-- HYB_SIGN (R114). Ed25519 and ML-DSA-65 signing as parallel cutter and splitter parts. -/
  | hybSign (h : Nat) (inv vbr : Bool)
  /-- HYB_VERIFY (R113). Ed25519 and ML-DSA-65 verification whose status depends on both parts. -/
  | hybVerify (h : Nat)
  /-- KEY_GEN (R116). Generates an AES or HMAC key into a slot. -/
  | keyGen (h : Nat)
  /-- KEY_WRAP (R215). Wraps a slot into a blob under an AES-256 wrapping key. -/
  | keyWrap (h : Nat)
  /-- KEY_UNWRAP (R217). Unwraps a blob into new slots after checking its header and integrity. -/
  | keyUnwrap (h : Nat)
  /-- KEY_DERIVE (R116). Derives a new slot from a parent with KMAC256. -/
  | keyDerive (h : Nat)
  /-- KEY_PUB (R116). Outputs the public key of a slot. -/
  | keyPub (h : Nat) (bad : Bool)
  /-- KEY_INVAL (R208). Invalidates a slot, incrementing its GEN and orphaning its descendants. -/
  | keyInval (h : Nat)
  /-- KEY_INFO (R116). Returns a slot's 32-byte header. -/
  | keyInfo (h : Nat)
  /-- RNG_GET (R117). Returns N random bytes from the bench expander. -/
  | rngGet (h : Nat)
  /-- PRG_CALL (R118). Calls the lease program on a bench core with input and an argument, and returns its output. -/
  | prgCall (h : Nat)
  /-- HOST_CALL_DELIVERY (R308). At a tick boundary, a PRG_CALL's input is copied, the call registers are set and the core enters
      vector 9. -/
  | hostCallDelivery (h : Nat)
  /-- CUT_JCTL_GO (R128). A write of CUT_JCTL.GO submits a cutter job, or ends it at once with PAGE. -/
  | cutJctlGo (core odd count : Nat)
  /-- CUT_LOAD (R130). Cutter step LOAD: loads w limbs from a lease page into a cell. -/
  | cutLoad (q k : Nat)
  /-- CUT_STORE (R130). Cutter step STORE: stores a cell to a lease page, ending the job with SECRET_OUT if the cell is secret. -/
  | cutStore (q k : Nat)
  /-- YLOAD (R126). Cutter step that loads a key component through the yard port after the reference checks. -/
  | yload (q k : Nat)
  /-- YSTORE (R130). Cutter step that writes a cell as a new yard slot. -/
  | ystore (q k : Nat)
  /-- MADD (R130). Cutter modular addition. -/
  | madd (q k : Nat)
  /-- MSUB (R130). Cutter modular subtraction. -/
  | msub (q k : Nat)
  /-- MMUL (R130). Cutter Montgomery multiplication. -/
  | mmul (q k : Nat)
  /-- MPREP (R130). Cutter long step that computes 2^(128w) mod M. -/
  | mprep (q k : Nat)
  /-- MINV (R130). Cutter long step that computes a modular inverse. -/
  | minv (q k : Nat)
  /-- MEXP (R130). Cutter long step that performs a modular exponentiation, optionally blinded. -/
  | mexp (q k : Nat)
  /-- PMUL (R130). Cutter long step that performs a blinded scalar multiplication on a curve. -/
  | pmul (q k : Nat)
  /-- CUT_PADD (R130). Cutter step PADD: affine point addition. -/
  | cutPadd (q k : Nat)
  /-- RELEASE_PUB (R130). Cutter long step that checks an RSA result with exponent 65,537 and releases it as public. -/
  | releasePub (q k : Nat)
  /-- RELEASE_PT (R130). Cutter step that checks a point is on the curve and not the identity, and releases it as public. -/
  | releasePt (q k : Nat)
  /-- CUT_NATIVE (R130). Cutter step NATIVE: runs a catalogue cutter opcode inside a job. -/
  | cutNative (q k : Nat) (bad : Bool)
  /-- CUT_CTL_CLR (R139). A write of CUT_CTL.CLR requests clearing of both cutter records of CLR_LEASE. -/
  | cutCtlClr (q k : Nat)
  /-- SPL_CTL_CLR (R145). A write of SPL_CTL.CLR requests clearing of a lease's splitter records. -/
  | splCtlClr (q k : Nat)
  /-- WDG_CTL_CLR (R177). A write of WDG_CTL.CLR requests clearing of a lease's wedge records. -/
  | wdgCtlClr (q k : Nat)
  /-- DIG_CTL_CLR (R182). A write of DIG_CTL.CLR requests clearing of a lease's digest contexts and record. -/
  | digCtlClr (q k : Nat)
  /-- ENGINE_RECORD_CLEAR (R139). At the next tick boundary at which no quantum of the lease runs, its records are cleared and any
      running job ends with STATUS 0x0A. -/
  | engineRecordClear (q : Nat)
  /-- SPL_JCTL_GO (R158). A write of SPL_JCTL.GO submits a splitter job. -/
  | splJctlGo (core count : Nat)
  /-- PLOAD (R160). Splitter request that loads a polynomial from a page. -/
  | pload (q k : Nat)
  /-- PSTORE (R160). Splitter request that stores a polynomial to a page. -/
  | pstore (q k : Nat)
  /-- PNTT (R160). Splitter forward NTT. -/
  | pntt (q k : Nat)
  /-- PINTT (R160). Splitter inverse NTT. -/
  | pintt (q k : Nat)
  /-- PMULT (R160). Splitter multiplication in NTT form. -/
  | pmult (q k : Nat)
  /-- SPL_PADD (R160). Splitter request PADD: polynomial addition mod q. -/
  | splPadd (q k : Nat)
  /-- PSUB (R160). Splitter polynomial subtraction mod q. -/
  | psub (q k : Nat)
  /-- SPL_NATIVE (R160). Splitter request NATIVE: runs a catalogue splitter opcode inside a job. -/
  | splNative (q k : Nat) (bad : Bool)
  /-- WDG_JCTL_GO (R187). A write of WDG_JCTL.GO submits a wedge job. -/
  | wdgJctlGo (core count : Nat)
  /-- WDG_REQUEST (R188). Wedge job request that runs one catalogue wedge opcode, with optional CHAIN write-back. -/
  | wdgRequest (q k : Nat)
  /-- DIG_JCTL_GO (R187). A write of DIG_JCTL.GO submits a digest job. -/
  | digJctlGo (core count : Nat)
  /-- DIG_OPEN (R189). Digest request OPEN: sets up a context, optionally keyed, with a declared length. -/
  | digOpen (n k : Nat)
  /-- DIG_FEED (R184). Digest request FEED: absorbs data into a context and finalises it when the declared length is reached. -/
  | digFeed (n k : Nat)
  /-- DIG_CMP (R189). Digest request CMP: compares a context's result in constant time and sets EQ. -/
  | digCmp (n k : Nat)
  /-- DIG_CLOSE (R189). Digest request CLOSE: clears a context and makes it FREE. -/
  | digClose (n k : Nat)
  /-- DIG_OWN_WRITE (R182). A write of DIG_OWN assigns digest contexts to leases and clears each context that changes owner. -/
  | digOwnWrite (n : Nat) (v : BitVec 64)
  /-- HELD_RANGE_ACCESS (R174). An access to a GCM wedge buffer that is held returns HELD or is discarded, and raises wedge event 29.
      -/
  | heldRangeAccess (m : Master) (addr : Nat) (write : Bool)
  /-- YARD_LOAD_GO (R213). A write of YRD_LDCTL.GO on the lease or island load port starts a clear key load. -/
  | yardLoadGo (k n : Nat) (ctl : BitVec 64)
  /-- YARD_LOAD_DONE (R213). Within 2 tk of GO the load ends with its status, and the source bytes are zeroed. -/
  | yardLoadDone (k : Nat)
  /-- PENDING_CHECK (R214). Island firmware takes up a PENDING curve or RSA slot and checks it on the island cutter. -/
  | pendingCheck (slot : Nat)
  /-- PENDING_CLEAR (R214). In the tick after the check ends, PENDING clears, or the slot is invalidated if it failed. -/
  | pendingClear (slot : Nat)
  /-- SWEEPER_FRAME (R210). In each frame the sweeper examines 4,096 slots from POS and sweeps the orphans it finds. -/
  | sweeperFrame
  /-- LEASE_SCRUB (R209). A scrub request increments the lease's epoch, re-derives its root and tombstones its persistent slots. -/
  | leaseScrub (r : Req) (value : Bytes)
  /-- YARD_RANGE_WRITE (R196). A write of a lease's yard range base and count, refused if the ranges would overlap or a loaded slot
      would be removed. -/
  | yardRangeWrite (r : Req) (value : Bytes)
  /-- PERSIST_RECORD_APPEND (R218). Island firmware appends a yard store record, body then commit, after a persistent slot changes. -/
  | persistRecordAppend
  /-- YARD_STORE_COMPACTION (R219). When the yard store log reaches its end, the live records are copied into the other half. -/
  | yardStoreCompaction
  /-- QUORUM_WRITE (R220). A write of a lease's quorum configuration, checked for ranges and revoking the lease's grant. -/
  | quorumWrite (r : Req) (value : Bytes)
  /-- GRANT_START (R221). A start of grant collection for a lease, with SCOPE, USES and FRAMES. -/
  | grantStart (r : Req) (value : Bytes)
  /-- CUSTODIAN_COUNTED (R321). A card's AUTH signature verification ends OK and the custodian counts towards M. -/
  | custodianCounted (p : Nat) (fresh : List Nat)
  /-- GRANT_WINDOW_EXPIRY (R221). The collection window ends before M custodians count, and nothing forms. -/
  | grantWindowExpiry
  /-- GRANT_EXPIRY (R222). A grant's FRAMES count expires at a frame boundary and the grant ends. -/
  | grantExpiry (k : Nat)
  /-- GRANT_REVOKE (R222). A revoke written by the lease or the PF ends the lease's grant. -/
  | grantRevoke (r : Req) (value : Bytes)
  /-- CEREMONY_START (R350). A write of the ceremony scope mask starts officer collection and binds the endpoint. -/
  | ceremonyStart (r : Req) (value : Bytes)
  /-- CEREMONY_CLOSE (R225). The officer's close command closes the ceremony, and leases in scope resume at the next frame boundary.
      -/
  | ceremonyClose (r : Req) (value : Bytes)
  /-- CEREMONY_TIMEOUT (R225). 458,752 frames pass with no officer action and the ceremony closes. -/
  | ceremonyTimeout
  /-- KEY_LOADING_CEREMONY (R224). The officer loads or generates a key as the XOR of custodian card components. -/
  | keyLoadingCeremony (ep : Nat) (q : Option KeyLoadReq)
  /-- RNG_WARMUP_END (R235). The 320-tk warm-up ends, with its known-answer tests, and the start tests of the sources begin. -/
  | rngWarmupEnd (katOk : Bool)
  /-- RNG_TEST_END (R235). At r + 64 the sources that passed are admitted and the start-up seeds are conditioned, or the start fails.
      -/
  | rngTestEnd
  /-- RNG_READY (R235). Every expander's queue is full, and READY becomes 1 for all of them in the same tick. -/
  | rngReady
  /-- RNG_SOURCE_EXCLUDED (R228). A source fails the repetition-count or adaptive-proportion test and is excluded. -/
  | rngSourceExcluded (idx : Nat) (apt : Bool)
  /-- RNG_RETEST_WRITE (R229). A write of RNG_RETEST starts a 1,024-sample retest of excluded sources. -/
  | rngRetestWrite (v : BitVec 16)
  /-- RNG_RETEST_END (R229). A retest run ends and the source is readmitted. -/
  | rngRetestEnd (idx : Nat)
  /-- RNG_RESTART_WRITE (R237). A write of RNG_CTL.RESTART in FAILED begins a restart. -/
  | rngRestartWrite
  /-- RNG_AUTO_RESTART (R237). With AUTO set, a restart begins at the first frame boundary after a failure, and AUTOLEFT decrements.
      -/
  | rngAutoRestart
  /-- SEED_CONDITIONED (R230). The crusher completes a seed from 2,048 raw bits and gives it to a waiting expander or pools it. -/
  | seedConditioned
  /-- EXPANDER_RESEED (R233). An expander reseeds with a seed from the crusher, and REQS, STRETCH and BLOCKED clear. -/
  | expanderReseed (e : Nat)
  /-- EXPANDER_STRETCH (R233). An expander reaches 2^16 requests without a reseed and sets STRETCH. -/
  | expanderStretch (e : Nat)
  /-- EXPANDER_BLOCKED (R233). An expander reaches 2^24 requests without a reseed, sets BLOCKED and clears READY. -/
  | expanderBlocked (e : Nat)
  /-- RNG_MASK_WRITE (R238). A write of RNG_MASK that would leave HEALTHY below 4 is refused. -/
  | rngMaskWrite (v : BitVec 16)
  /-- RNG_PORT_READ (R239). A read of RNG_PORT draws fresh bytes, or takes the random-port fault vector. -/
  | rngPortRead (c n : Nat)
  /-- RNG_PORT_WRITE (R239). A write to RNG_PORT is discarded and raises event 21. -/
  | rngPortWrite (c : Nat)
  /-- HOST_REBOOT_REQUEST (R252). PLT_HRST_N has been low for 100 µs while the host is released, and a gate pass starts. -/
  | hostRebootRequest
  /-- BMC_PORT_DISCONNECT (R243). The gate waits for BMF_CS_N high, for at most 400 tk, then disconnects the BMC port. -/
  | bmcPortDisconnect (csHigh : Bool)
  /-- MANIFEST_REVERIFY (R253). The manifest's dual signature is verified again in 41 tk. -/
  | manifestReverify (readOk : Bool)
  /-- PORT_DISCOVERY (R244). The host flash ports are reset, read for SFDP and put into their mode. -/
  | portDiscovery (a b : Sfdp)
  /-- REGION_MEASURE (R254). One manifest region is read, hashed and judged in its fixed number of ticks. -/
  | regionMeasure (x : RegData)
  /-- GATE_RECOVERY (R259). Failing RECOVERABLE regions are checked on port B, restored on port A and measured again. -/
  | gateRecovery (backups regions : List RegData)
  /-- LEDGER_RECORD_WRITE (R264). The record is dual-signed, programmed into its slot, read back and committed. -/
  | ledgerRecordWrite (first second : Bool)
  /-- RELEASE_SEQUENCE (R257). After the commit, flash A is reset, HFA_SEL becomes 1 and PLT_RST_N is released. -/
  | releaseSequence
  /-- FLG_HOLD (R272). A write of FLG_CTL.HOLD starts the hold of step 1. -/
  | flgHold
  /-- FLG_RELEASE (R257). A write of FLG_CTL.RELEASE starts the release sequence if PASSC is set, and is refused otherwise. -/
  | flgRelease
  /-- FLG_BMCB_WRITE (R243). A write of FLG_CTL.BMCB connects or disconnects the BMC pass-through. -/
  | flgBmcbWrite (v : Bool)
  /-- OPERATOR_RELEASE (R258). An operator release written to 0x3001 releases a HOLD-policy pass that is waiting. -/
  | operatorRelease (r : Req) (value : Bytes)
  /-- RECOVERY_REQUEST (R258). A recovery request written to 0x3002 starts a pass under the RECOVER policy for a HELD host. -/
  | recoveryRequest (r : Req) (value : Bytes)
  /-- PORT_B_OWNER_WRITE (R243). A write of entry 0x3003 gives port B to the gate or the BMC. -/
  | portBOwnerWrite (r : Req) (value : Bytes)
  /-- ACKSEQ_WRITE (R266). A write of ACKSEQ, which can end a LEDGER_FULL wait. -/
  | ackseqWrite (r : Req) (value : Bytes)
  /-- RECORD_SELECTOR_WRITE (R268). A role writes its SEQ selector, choosing the record its 0x3020 object exports. -/
  | recordSelectorWrite (r : Req) (value : Bytes)
  /-- TAG_COMMIT_RETRY (R271). A wired tag commit refused with TAG_BUSY is retried at a frame boundary. -/
  | tagCommitRetry
  /-- SPDM_GET_VERSION (R369). SPDM GET_VERSION request, answered with versions 1.2 and 1.3. -/
  | spdmGetVersion (c : Nat)
  /-- SPDM_GET_CAPABILITIES (R369). SPDM GET_CAPABILITIES request. -/
  | spdmGetCapabilities (c ver : Nat)
  /-- SPDM_NEGOTIATE_ALGORITHMS (R369). SPDM NEGOTIATE_ALGORITHMS request. -/
  | spdmNegotiateAlgorithms (c : Nat) (ed p384 : Bool) (offer : SpdmOffer)
  /-- SPDM_GET_DIGESTS (R369). SPDM GET_DIGESTS request for certificate slot 0. -/
  | spdmGetDigests (c : Nat)
  /-- SPDM_GET_CERTIFICATE (R387). SPDM GET_CERTIFICATE request, served from the chain of the negotiated algorithm. -/
  | spdmGetCertificate (c slot off len : Nat)
  /-- SPDM_CHALLENGE (R370). SPDM CHALLENGE request, answered with a signed response and a parallel ML-DSA-65 half. -/
  | spdmChallenge (c slot : Nat) (transcript : Bytes) (failed : Bool)
  /-- SPDM_GET_MEASUREMENTS (R269). SPDM GET_MEASUREMENTS request, answered Busy while a pass runs. -/
  | spdmGetMeasurements (c index : Nat) (sign : Bool) (sess : Option Nat) (transcript : Bytes) (failed : Bool)
  /-- SPDM_KEY_EXCHANGE (R369). SPDM KEY_EXCHANGE request; a fifth session is refused with Busy. -/
  | spdmKeyExchange (c : Nat) (exchange transcript : Bytes) (failed : Bool)
  /-- SPDM_FINISH (R369). SPDM FINISH request, completing a secured session. -/
  | spdmFinish (c idx : Nat) (good : Bool)
  /-- SPDM_HEARTBEAT (R369). SPDM HEARTBEAT request within a session. -/
  | spdmHeartbeat (c idx : Nat)
  /-- SPDM_KEY_UPDATE (R369). SPDM KEY_UPDATE request within a session. -/
  | spdmKeyUpdate (c idx op tag : Nat)
  /-- SPDM_END_SESSION (R369). SPDM END_SESSION request. -/
  | spdmEndSession (c idx : Nat)
  /-- SPDM_VENDOR_DEFINED_REQUEST (R370). Vendor-defined request returning the ML-DSA-65 half of the most recent signed response. -/
  | spdmVendorDefinedRequest (c : Nat) (sess : Option Nat) (payload : Bytes)
  /-- IDE_KM_KEY_PROG (R371). IDE_KM programs the link IDE stream keys over a secured session. -/
  | ideKmKeyProg (idx : Nat) (keys : Bytes)
  /-- TRV_NOP (R283). Triven NOP, 1 bc. -/
  | trvNop (c : Nat)
  /-- MOV (R283). Triven data register move. -/
  | mov (c : Nat) (x y : BitVec 3)
  /-- ADD (R283). Triven 8-bit add. -/
  | add (c : Nat) (x y : BitVec 3)
  /-- SUB (R283). Triven 8-bit subtract. -/
  | sub (c : Nat) (x y : BitVec 3)
  /-- ADC (R283). Triven add with carry in D7. -/
  | adc (c : Nat) (x y : BitVec 3)
  /-- SBC (R283). Triven subtract with borrow in D7. -/
  | sbc (c : Nat) (x y : BitVec 3)
  /-- AND (R283). Triven bitwise AND. -/
  | and (c : Nat) (x y : BitVec 3)
  /-- OR (R283). Triven bitwise OR. -/
  | or (c : Nat) (x y : BitVec 3)
  /-- XOR (R283). Triven bitwise XOR. -/
  | xor (c : Nat) (x y : BitVec 3)
  /-- NOT (R283). Triven bitwise NOT. -/
  | not (c : Nat) (x : BitVec 3)
  /-- SHL (R283). Triven shift left. -/
  | shl (c : Nat) (x y : BitVec 3)
  /-- SHR (R283). Triven logical shift right. -/
  | shr (c : Nat) (x y : BitVec 3)
  /-- MUL (R283). Triven 8 × 8 unsigned multiply. -/
  | mul (c : Nat) (x y : BitVec 3)
  /-- CEQ (R283). Triven compare equal into a register. -/
  | ceq (c : Nat) (x y : BitVec 3)
  /-- CLTU (R283). Triven unsigned less-than into a register. -/
  | cltu (c : Nat) (x y : BitVec 3)
  /-- CLTS (R283). Triven signed less-than into a register. -/
  | clts (c : Nat) (x y : BitVec 3)
  /-- CNZ (R283). Triven non-zero test into a register. -/
  | cnz (c : Nat) (x : BitVec 3)
  /-- MASK (R289). Triven conversion of a condition into 0x00 or 0xFF. -/
  | mask (c : Nat) (x : BitVec 3)
  /-- MOVA (R283). Triven address register move. -/
  | mova (c : Nat) (x y : BitVec 3)
  /-- ADDA (R283). Triven address add of a data register. -/
  | adda (c : Nat) (x y : BitVec 3)
  /-- SUBA (R283). Triven address subtract of a data register. -/
  | suba (c : Nat) (x y : BitVec 3)
  /-- SETAL (R283). Triven set of an address low byte. -/
  | setal (c : Nat) (x y : BitVec 3)
  /-- SETAH (R283). Triven set of an address high byte. -/
  | setah (c : Nat) (x y : BitVec 3)
  /-- GETAL (R283). Triven get of an address low byte. -/
  | getal (c : Nat) (x y : BitVec 3)
  /-- GETAH (R283). Triven get of an address high byte. -/
  | getah (c : Nat) (x y : BitVec 3)
  /-- LD (R283). Triven byte load through a window. -/
  | ld (c : Nat) (x y : BitVec 3)
  /-- ST (R283). Triven byte store through a window. -/
  | st (c : Nat) (x y : BitVec 3)
  /-- LD_POSTINC (R283). Triven byte load with post-increment. -/
  | ldPostinc (c : Nat) (x y : BitVec 3)
  /-- ST_POSTINC (R283). Triven byte store with post-increment. -/
  | stPostinc (c : Nat) (x y : BitVec 3)
  /-- PUSH (R283). Triven push of a data register. -/
  | push (c : Nat) (x : BitVec 3)
  /-- POP (R283). Triven pop into a data register. -/
  | pop (c : Nat) (x : BitVec 3)
  /-- PUSHA (R283). Triven push of an address register. -/
  | pusha (c : Nat) (x : BitVec 3)
  /-- POPA (R283). Triven pop into an address register. -/
  | popa (c : Nat) (x : BitVec 3)
  /-- WCLR (R283). Triven clear of a wide accumulator. -/
  | wclr (c : Nat) (x : BitVec 2)
  /-- WMOV (R283). Triven wide accumulator move. -/
  | wmov (c : Nat) (x y : BitVec 2)
  /-- WADD (R283). Triven 512-bit add. -/
  | wadd (c : Nat) (x y : BitVec 2)
  /-- WSUB (R283). Triven 512-bit subtract. -/
  | wsub (c : Nat) (x y : BitVec 2)
  /-- WXOR (R283). Triven wide XOR. -/
  | wxor (c : Nat) (x y : BitVec 2)
  /-- WAND (R283). Triven wide AND. -/
  | wand (c : Nat) (x y : BitVec 2)
  /-- WSHL8 (R283). Triven wide shift left by one lane. -/
  | wshl8 (c : Nat) (x : BitVec 2)
  /-- WSHR8 (R283). Triven wide shift right by one lane. -/
  | wshr8 (c : Nat) (x : BitVec 2)
  /-- JMP (R283). Triven jump to an address register. -/
  | jmp (c : Nat) (y : BitVec 3)
  /-- JSR (R283). Triven subroutine call through an address register. -/
  | jsr (c : Nat) (y : BitVec 3)
  /-- RTS (R283). Triven return from subroutine. -/
  | rts (c : Nat)
  /-- RTE (R303). Triven return from a vector, restoring SR and PC. -/
  | rte (c : Nat)
  /-- TRAP (R305). Triven TRAP #0–31: entry to vector 8 with the trap number. -/
  | trap (c : Nat) (n : BitVec 6)
  /-- HOSTRET (R308). TRAP #32: ends the host call being served, naming the output, or is refused. -/
  | hostret (c : Nat)
  /-- ISLAND_SERVICE_REQUEST (R306). TRAP #48–63: passes D0–D3 to island firmware as a service request. -/
  | islandServiceRequest (c : Nat) (n : BitVec 4)
  /-- ISLAND_SERVICE_COMPLETE (R306). Island firmware writes FNC_ISV_c, ISVB clears and vector 22 becomes pending. -/
  | islandServiceComplete (c : Nat)
  /-- WAITT (R283). Triven idle until bc 0 of the next tick. -/
  | waitt (c : Nat)
  /-- GETSR (R283). Triven read of SR. -/
  | getsr (c : Nat) (x : BitVec 3)
  /-- SETSR (R283). Triven privileged write of SR.IE. -/
  | setsr (c : Nat) (y : BitVec 3)
  /-- GETID (R283). Triven read of the core index and bench number. -/
  | getid (c : Nat) (x y : BitVec 3)
  /-- GETTK (R283). Triven read of the current frame tick. -/
  | gettk (c : Nat) (x : BitVec 3)
  /-- MOVI (R283). Triven immediate load. -/
  | movi (c : Nat) (r : BitVec 3) (imm : BitVec 8)
  /-- ADDI (R283). Triven immediate add. -/
  | addi (c : Nat) (r : BitVec 3) (imm : BitVec 8)
  /-- ANDI (R283). Triven immediate AND. -/
  | andi (c : Nat) (r : BitVec 3) (imm : BitVec 8)
  /-- XORI (R283). Triven immediate XOR. -/
  | xori (c : Nat) (r : BitVec 3) (imm : BitVec 8)
  /-- CEQI (R283). Triven immediate compare equal. -/
  | ceqi (c : Nat) (r : BitVec 3) (imm : BitVec 8)
  /-- CLTUI (R283). Triven immediate unsigned less-than. -/
  | cltui (c : Nat) (r : BitVec 3) (imm : BitVec 8)
  /-- BZ (R282). Triven short branch if a register is zero. -/
  | bz (c : Nat) (r : BitVec 3) (disp : BitVec 8)
  /-- BNZ (R282). Triven short branch if a register is not zero. -/
  | bnz (c : Nat) (r : BitVec 3) (disp : BitVec 8)
  /-- BRA (R282). Triven unconditional branch. -/
  | bra (c : Nat) (disp : BitVec 13)
  /-- MOVIA (R283). Triven 16-bit immediate into an address register. -/
  | movia (c : Nat) (x : BitVec 3) (imm : BitVec 16)
  /-- ADDIA (R283). Triven 16-bit immediate add to an address register. -/
  | addia (c : Nat) (x : BitVec 3) (imm : BitVec 16)
  /-- LDX (R283). Triven indexed byte load. -/
  | ldx (c : Nat) (x y : BitVec 3) (imm : BitVec 16)
  /-- STX (R283). Triven indexed byte store. -/
  | stx (c : Nat) (x y : BitVec 3) (imm : BitVec 16)
  /-- JMPL (R283). Triven absolute jump. -/
  | jmpl (c : Nat) (addr : BitVec 16)
  /-- JSRL (R283). Triven absolute subroutine call. -/
  | jsrl (c : Nat) (addr : BitVec 16)
  /-- BZL (R282). Triven long branch if zero. -/
  | bzl (c : Nat) (x : BitVec 3) (disp : BitVec 16)
  /-- BNZL (R282). Triven long branch if not zero. -/
  | bnzl (c : Nat) (x : BitVec 3) (disp : BitVec 16)
  /-- WGETB (R283). Triven read of a wide accumulator lane. -/
  | wgetb (c : Nat) (x : BitVec 3) (y : BitVec 2) (j : BitVec 6)
  /-- WPUTB (R283). Triven write of a wide accumulator lane. -/
  | wputb (c : Nat) (y : BitVec 2) (x : BitVec 3) (j : BitVec 6)
  /-- WCEQ (R283). Triven compare of two wide accumulators. -/
  | wceq (c : Nat) (x : BitVec 3) (y z : BitVec 2)
  /-- MOVB (R284). Triven resumable block move. -/
  | movb (c : Nat) (x y dc : BitVec 3)
  /-- CMPB (R284). Triven resumable constant-time block compare. -/
  | cmpb (c : Nat) (x y dc dd : BitVec 3)
  /-- FILLB (R284). Triven resumable block fill. -/
  | fillb (c : Nat) (x y dc : BitVec 3)
  /-- WMACB (R284). Triven resumable wide multiply-accumulate. -/
  | wmacb (c : Nat) (x ws : BitVec 2) (y dc : BitVec 3)
  /-- XIN (R284). Triven resumable transfer of bytes into a wide accumulator. -/
  | xin (c : Nat) (x : BitVec 2) (y dc : BitVec 3) (inc : Bool)
  /-- XOUT (R284). Triven resumable transfer of bytes out of a wide accumulator. -/
  | xout (c : Nat) (y : BitVec 3) (x : BitVec 2) (dc : BitVec 3) (inc : Bool)
  /-- ILLEGAL_INSTRUCTION (R281). An illegal encoding costs 1 bc and takes the illegal-instruction vector. -/
  | illegalInstruction (c : Nat)
  /-- INTERRUPT_ENTRY (R307). At a tick boundary, an enabled pending maskable vector is taken. -/
  | interruptEntry (c : Nat)
  /-- FNC_CTL_WRITE (R313). The once-only write of FNC_CTL_c sets EN and WLOCK; later writes are refused. -/
  | fncCtlWrite (c : Nat) (v : BitVec 32)
  /-- FNC_WIN_WRITE (R311). A supervisor write of a window descriptor, refused if invalid or after WLOCK. -/
  | fncWinWrite (c idx : Nat) (v : BitVec 64)
  /-- FNC_FEN_WRITE (R313). A write of a fence entry, refused if the entry is locked. -/
  | fncFenWrite (c idx : Nat) (v : BitVec 32)
  /-- PROGRAM_LOAD (R295). A write of a lease's program image entry starts a load, or an empty write unloads. -/
  | programLoad (r : Req) (d : Bytes)
  /-- PROGRAM_VERIFY_DONE (R295). The 41-tk dual verification of a program image ends, and the image is committed to the program store
      or refused. -/
  | programVerifyDone (k : Nat) (stored : Bool)
  /-- PROGRAM_PAGE_COPY (R296). The dispatcher copies a committed program into the lease's program pages and requests a swap. -/
  | programPageCopy (k : Nat)
  /-- PROGRAM_KEY_WRITE (R294). A write of a lease's program key unloads its program. -/
  | programKeyWrite (r : Req) (value : Bytes)
  /-- PROGRAM_MINSVN_WRITE (R294). A write of a lease's MINSVN, refused if lower than the current value. -/
  | programMinsvnWrite (r : Req) (value : Bytes)
  /-- CARD_INSERTED (R325). CRD_PRES is stable for 10 ms and a card insertion is recognised. -/
  | cardInserted
  /-- CARD_REMOVED (R330). CRD_PRES falls; the card is deactivated and an exchange in progress ends PULLED. -/
  | cardRemoved (lastSent : Bool)
  /-- CRD_ACT (R325). A write of CRD_CTL.ACT activates an inserted card at the lowest enabled class. -/
  | crdAct
  /-- CRD_DEACT (R330). A write of CRD_CTL.DEACT deactivates the card. -/
  | crdDeact (lastSent : Bool)
  /-- CRD_SEND (R323). A write of CRD_CTL.SEND sends CRD_LEN.TX bytes as one APDU. -/
  | crdSend (ans : Option CardAnswer)
  /-- ATR_RECEIVED (R326). The card's ATR arrives and is judged; an invalid ATR leads to a warm reset. -/
  | atrReceived (atr : Bytes) (late : Bool)
  /-- ATR_TIMEOUT (R325). No ATR starts within 40,000 clocks, and the next class is tried. -/
  | atrTimeout
  /-- PPS_RESPONSE (R327). The card's PPS response arrives and the etu is set, or the card is deactivated. -/
  | ppsResponse (resp : Bytes)
  /-- PPS_TIMEOUT (R327). No PPS response within 9,600 etu, and the card is reset cold. -/
  | ppsTimeout
  /-- WWT_TIMEOUT (R328). A T=0 exchange exceeds the work waiting time and ends TIMEOUT. -/
  | wwtTimeout (lastSent : Bool)
  /-- T1_BWT_TIMEOUT (R329). A T=1 block waiting or character waiting time expires. -/
  | t1BwtTimeout (lastSent : Bool)
  /-- APDU_EXCHANGE_TIMEOUT (R329). A T=1 APDU exchange reaches 30 s and ends TIMEOUT. -/
  | apduExchangeTimeout (lastSent : Bool)
  /-- CARD_SELECT (R323). The device sends SELECT of the custodian application. -/
  | cardSelect (p : Nat) (ans : Option CardAnswer)
  /-- GET_CRED (R321). The device reads the card credential and checks it against the configuration. -/
  | getCred (p : Nat) (ans : Option CardAnswer)
  /-- AUTH (R321). The device sends a challenge and an ephemeral key, and starts verifying the card's signature. -/
  | auth (p : Nat) (ans : Option CardAnswer)
  /-- READ_OBJ (R323). The device reads a protected object (a component or the ceremony record) from the card. -/
  | readObj (p obj : Nat) (ans : Option CardAnswer)
  /-- WRITE_OBJ (R332). The device writes a protected object after committing a PREPARED journal record. -/
  | writeObj (p obj : Nat) (ans : Option CardAnswer)
  /-- CHECK_OBJ (R333). The device reads an object's check value, which resolves an UNCONFIRMED entry. -/
  | checkObj (p obj : Nat) (ans : Option CardAnswer)
  /-- GET_RESPONSE (R324). Under T=0, the device fetches a pending response after SW 0x61xx. -/
  | getResponse (ans : Option CardAnswer)
  /-- LPCD_PING (R336). A low-power card detection ping measures the antenna amplitude each period. -/
  | lpcdPing (amp : Nat)
  /-- WUPA (R336). The reader sends WUPA after detuning, up to 3 times. -/
  | wupa (answered : Bool)
  /-- REQA (R337). The reader sends REQA to find the next non-halted card. -/
  | reqa (answered : Bool)
  /-- ANTICOLLISION (R337). The reader sends an anticollision frame at a cascade level and resolves collisions bit by bit. -/
  | anticollision (answer : List Bool) (coll : Option Nat)
  /-- READER_SELECT (R337). The reader sends SELECT with NVB 0x70 and the full UID. -/
  | readerSelect (sak : Byte)
  /-- RATS (R335). The reader sends RATS and chooses the bit rate. -/
  | rats (ta1 : Byte) (fwi : Nat)
  /-- HLTA (R337). The reader halts the served card. -/
  | hlta
  /-- CTL_SEND (R346). A write of CTL_CTL.SEND sends an APDU to the selected card. -/
  | ctlSend (ans : Option CardAnswer)
  /-- CTL_HALT (R346). A write of CTL_CTL.HALT halts the selected card and continues under R337. -/
  | ctlHalt
  /-- CTL_OFF (R346). A write of CTL_CTL.OFF switches the field off. -/
  | ctlOff (lastSent : Bool)
  /-- CTL_LPCD_ENABLE (R336). A write of CTL_CTL.LPCD starts or stops low-power detection. -/
  | ctlLpcdEnable (on : Bool)
  /-- TAG_FIELD_ON (R338). An outside reader's field powers the tag, which enters IDLE. -/
  | tagFieldOn
  /-- TAG_FIELD_OFF (R338). The field is lost and the tag goes OFF, clearing its staging buffer. -/
  | tagFieldOff
  /-- TAG_WAKE (R343). The tag receives REQA or WUPA, answers ATQA and stops any wired commit. -/
  | tagWake (wupa : Bool) (rows : Nat)
  /-- TAG_SELECT (R342). The field side selects the tag application. -/
  | tagSelect
  /-- TAG_READ (R342). The field side reads a tag area from the served copy. -/
  | tagRead (area off le : Nat)
  /-- TAG_VERIFY (R344). The field side presents a password; the attempts counter is decremented before the compare. -/
  | tagVerify (p2 : Nat) (attempt : TagAttempt)
  /-- NOTE_WRITE (R342). The field side stages bytes of the technician note. -/
  | noteWrite (off : Nat) (data : Bytes)
  /-- NOTE_COMMIT (R342). The field side commits the staged note under the two-copy rule. -/
  | noteCommit (len : Nat)
  /-- TAG_WCMT_GO (R343). A write of TAG_WCMT.GO starts a wired commit, or is refused TAG_BUSY. -/
  | tagWcmtGo (area len : Nat)
  /-- TAG_COMMIT_DONE (R341). A tag commit finishes its rows and its header, and the new copy is served. -/
  | tagCommitDone
  /-- OFFICER_QUORUM_WRITE (R320). A write of the device officer quorum in entry 0x8000. -/
  | officerQuorumWrite (r : Req) (value : Bytes)
  /-- TAG_PASSWORD_WRITE (R344). An officer writes a tag password, and its verifier is stored. -/
  | tagPasswordWrite (r : Req) (value : Bytes)
  /-- ATTEMPTS_RESET (R344). An officer resets a tag attempts counter to 8 by a wired commit. -/
  | attemptsReset (r : Req) (value : Bytes)
  /-- HELLO (R357). Mbokai version negotiation for the endpoint. -/
  | hello (r : Req) (offers : Bytes)
  /-- READ (R355). Mbokai read of an entry's value. -/
  | read (r : Req)
  /-- WRITE (R355). Mbokai write of an entry that has no row of its own. -/
  | write (r : Req) (value : Bytes)
  /-- SEG_READ (R362). Mbokai segmented read of a DOMAIN object with a generation check. -/
  | segRead (r : Req) (off len gen : Nat)
  /-- SEG_WRITE_START (R363). Opens a segmented write session. -/
  | segWriteStart (r : Req) (total : Nat)
  /-- SEG_WRITE (R363). Delivers bytes of a segmented write at the expected offset. -/
  | segWrite (r : Req) (off : Nat) (d : Bytes)
  /-- SEG_WRITE_END (R363). Checks and applies the whole DOMAIN object at once. -/
  | segWriteEnd (r : Req) (fresh : List Nat) (stored : Bool)
  /-- SEG_ABORT (R363). Discards the endpoint's open write session. -/
  | segAbort (r : Req)
  /-- INFO (R355). Mbokai 2.0 query of an entry's type, length, rights and persistence. -/
  | info (r : Req)
  /-- ENUM (R355). Mbokai 2.1 enumeration of the entries readable by the role. -/
  | enum (r : Req) (first count : Nat)
  /-- SEG_SESSION_TIMEOUT (R363). A write session with no segment for 15,259 frames is discarded. -/
  | segSessionTimeout (ep : Nat)
  /-- SET_ENDPOINT_ID (R357). MCTP Set Endpoint ID, which discards the endpoint's version, sessions and officer binding. -/
  | setEndpointId (ep eid : Nat)
  /-- GET_ENDPOINT_ID (R353). MCTP Get Endpoint ID control request. -/
  | getEndpointId (ep : Nat)
  /-- GET_MCTP_VERSION_SUPPORT (R353). MCTP Get MCTP Version Support control request. -/
  | getMctpVersionSupport (ep : Nat)
  /-- GET_MESSAGE_TYPE_SUPPORT (R353). MCTP Get Message Type Support control request. -/
  | getMessageTypeSupport (ep : Nat)
  /-- GET_VENDOR_DEFINED_MSG_SUPPORT (R353). MCTP Get Vendor Defined Message Support control request. -/
  | getVendorDefinedMsgSupport (ep : Nat)
  /-- SLOT_PLAN_WRITE (R366). A write of an engine, core, page or policy plan, checked as shadow registers are and against R293. -/
  | slotPlanWrite (r : Req) (d : Bytes)
  /-- DICT_APPLY (R366). A write of apply makes the dispatcher copy the stored plans into the shadows and write GO. -/
  | dictApply (r : Req) (value : Bytes)
  /-- RTC_WRITE (R411). A write of the RTC takes effect at a tick boundary and stages an RTC_SET entry. -/
  | rtcWrite (r : Req) (value : Bytes)
  /-- LEASE_RELEASE (R92). A release of a quarantined lease aborts its commands and returns its queues to service. -/
  | leaseRelease (r : Req) (value : Bytes)
  /-- STAGING_QUOTA_WRITE (R25). A write of a lease's staging quota, refused if the device total would exceed 256. -/
  | stagingQuotaWrite (r : Req) (value : Bytes)
  /-- SEVERITY_WRITE (R424). A write of an event source's severity and pin flag, refused below the floor. -/
  | severityWrite (r : Req) (value : Bytes)
  /-- TOKEN_WRITE (R377). A life-cycle token is compared with its fused digest, and a match starts the transition. -/
  | tokenWrite (r : Req) (token : Bytes)
  /-- LIFECYCLE_REQUEST (R379). A dual-signed life-cycle request is checked in order before its signatures are verified. -/
  | lifecycleRequest (r : Req) (d : Bytes)
  /-- LIFECYCLE_VERIFY_DONE (R379). The 41-tk verification of a life-cycle request ends, accepting or refusing it. -/
  | lifecycleVerifyDone
  /-- LCS_CTL_GO (R392). A write of LCS_CTL.GO blows the counter fuse and the target pair, or is ignored with an event. -/
  | lcsCtlGo (to_ : BitVec 3) (count : BitVec 8)
  /-- GALLERY_CERT_WRITE (R388). A gallery certificate is checked and installed, or an empty write revokes it. -/
  | galleryCertWrite (r : Req) (d : Bytes)
  /-- GALLERY_RIGHTS_LAPSE (R388). The RTC passes NOT_AFTER and the certificate's rights lapse. -/
  | galleryRightsLapse
  /-- GALLERY_CONSENT_WRITE (R390). A lease writes its gallery consent. -/
  | galleryConsentWrite (r : Req) (value : Bytes)
  /-- GAL_GRANT_WRITE (R391). Firmware writes GAL_GRANT, and GAL_RIGHTS is masked by state and variant. -/
  | galGrantWrite (v : BitVec 64)
  /-- TAP_INSTRUCTION (R391). A TAP instruction on the gallery port, allowed only under a right in force except IDCODE and BYPASS. -/
  | tapInstruction (op : TapOp)
  /-- IDENTITY_RECORD_WRITE (R393). HOST writes identity records and certificate chains once in TESTED. -/
  | identityRecordWrite (r : Req) (d : Bytes)
  /-- TAMPER_SAMPLE (R398). A tamper source is sampled or its comparator changes; detections are counted and the source re-arms when
      clear. -/
  | tamperSample (idx : Nat) (v : Bool) (ms : Nat)
  /-- VAULT_POWER_ON (R402). The vault domain powers on with no valid state; bedrock, RTC and responses reset and VLOST is set. -/
  | vaultPowerOn
  /-- STAGING_LOG_MOVE (R404). Island firmware appends unsaved staging entries to the tamper log and marks them SAVED. -/
  | stagingLogMove
  /-- UNLOCK_REQUEST (R410). A dual-signed unlock is checked, an UNLOCK entry is appended, UNLATCH is written and the device resets.
      -/
  | unlockRequest (r : Req) (d : Bytes) (fresh : List Nat)
  /-- OFFICER_UNLOCK_START (R409). A write starts an officer-quorum collection for an unlock. -/
  | officerUnlockStart (r : Req) (value : Bytes)
  /-- TMP_UNLATCH (R415). A write of TMP_CTL.UNLATCH clears the latch only if an UNLOCK commit has been programmed. -/
  | tmpUnlatch
  /-- TMP_OVFCLR (R415). A write of TMP_CTL.OVFCLR clears TMP_OVF. -/
  | tmpOvfclr
  /-- TMP_SAVED_WRITE (R415). A write of TMP_SAVED marks staging entries up to that VSEQ as SAVED. -/
  | tmpSavedWrite (v : BitVec 32)
  /-- TMP_SLOG_READ (R415). A read of TMP_SLOGA byte 0 latches the 16 bytes of a staging entry for the reader. -/
  | tmpSlogRead (m : Master) (k : Nat)
  /-- TAMPER_RESPONSE_WRITE (R399). A write of a source's response, held in the vault domain and recorded as RESP_CHANGE. -/
  | tamperResponseWrite (r : Req) (value : Bytes)
  /-- TAMPER_WINDOW_WRITE (R398). A write of a switch or voltage window, N and W. -/
  | tamperWindowWrite (r : Req) (value : Bytes)
  /-- FLT_ACK_GO (R428). An acknowledgement with ALSO closes the open record, or is refused STALE or NONE. -/
  | fltAckGo (also : BitVec 16)
  /-- FLT_INJ_GO (R433). A write of FLT_INJ.GO injects an event under gallery right 9, or is ignored. -/
  | fltInjGo (event : BitVec 11)
  /-- FLT_Q_READ (R433). A read of FLT_Q byte 0 removes the oldest event queue entry. -/
  | fltQRead
  /-- EVENT_QUEUE_DRAIN (R430). Island firmware drains event queue entries into the event log each tick. -/
  | eventQueueDrain (n : Nat)
  /-- MODE_CHANGE (R434). At a tick boundary the mode becomes the first row whose condition holds, with the effects of R435. -/
  | modeChange
  /-- DIE_TEMP_HIGH (R421). The die temperature passes +105 °C and power event 4 is raised. -/
  | dieTempHigh (high : Bool)
  /-- CLOCK_MONITOR_FAULT (R439). A monitored clock domain leaves its window and its CLK_MON bit is set. -/
  | clockMonitorFault (d : Nat)
  /-- MAIN_POWER_RESET (R435). PLT_PWROK rises with SYS_RST_N high and a main-power reset starts the wipe. -/
  | mainPowerReset
  /-- PLT_PWROK_FALL (R435). Main power is lost; the benches go OFF and the host is held. -/
  | pltPwrokFall
  /-- SYS_RST_RISE (R474). SYS_RST_N rises, the straps are sampled and the island starts on auxiliary power. -/
  | sysRstRise (straps : BitVec 2)
  /-- SYS_RST_FALL (R474). SYS_RST_N falls, and the device enters VAULT. -/
  | sysRstFall
  /-- SUPPLY_MONITOR_RESET (R473). VCORE or VIO3 falls below 90 % of nominal, and the internal monitor holds the device in reset. -/
  | supplyMonitorReset (low vio3 : Bool)
  /-- RESET_WIPE_END (R45). The 1,536-tk reset wipe ends and the boot ROM begins. -/
  | resetWipeEnd
  /-- ISLAND_START (R404). Island firmware's start work: staging log move, transition completion, store restores, ledger scan, program
      checks and the first gate pass. -/
  | islandStart
  /-- PFL_SEQUENCE_WRITE (R452). A write of PFL_KEY, PFL_CMD or PFL_ADDR that advances or breaks the flash command sequence. -/
  | pflSequenceWrite (off : Nat) (v : BitVec 32)
  /-- PROGRAM (R456). Package flash PROGRAM of a 32-byte unit, refused if the unit is not erased. -/
  | program (data : Vector (BitVec 32) 8)
  /-- ERASE_SECTOR (R453). Package flash erase of a 4 KiB sector. -/
  | eraseSector (o : Nat)
  /-- ERASE_CHIP (R457). Package flash erase of the whole die, allowed only when SCRAPPED is pending. -/
  | eraseChip (o : Nat)
  /-- FLASH_OP_END (R455). A program or erase ends, RES and ERR report it, and any queued command starts. -/
  | flashOpEnd
  /-- PFL_SWAP_GO (R461). A write of PFL_SWAP.GO programs the swap pair with counter + 1. -/
  | pflSwapGo
  /-- SWAP_PAIR_WRITE_END (R461). The swap pair write ends and SWPEND is set for the next reset. -/
  | swapPairWriteEnd
  /-- FLASH_READ (R451). A read of the package flash window fetches a line with wait states, or returns BANK_BUSY. -/
  | flashRead (m : Master) (o n : Nat) (fetch : Bool) (e : LineEcc)
  /-- TAG_SELECTION (R338). An outside reader's anticollision, SELECT and RATS frames reach the tag, which answers SAK and ATS, enters
      ACTIVE and fixes its served copies for field reads. -/
  | tagSelection
  /-- TAG_HALT (R338). An outside reader halts or deselects the tag, which leaves ACTIVE for HALT and clears its note staging buffer.
      -/
  | tagHalt
  /-- VFL_BAND_CHANGE (R450). The VFL supply crosses between its high and low bands, so the controller changes its operating point and
      minimum wait states, clamping WS with an event where needed. -/
  | vflBandChange (high : Bool)
  /-- POISONED_TLP_RECEIVED (R420). A TLP arrives on the link poisoned, failing IDE integrity, or with a correctable link error, and
      raises its host-interface event. -/
  | poisonedTlpReceived (idx : Nat)
  deriving DecidableEq, Repr

end Sys2Proof
end

