-- ==== Sys2Proof/Config.lean ====
section
/-! DEFINITION. What the spec leaves open, as constants without a body: the values of the cryptographic primitives
whose standards the spec names but does not contain (log 4), and the free values (log 5). Nothing in Lean can
evaluate them, so a statement holds whatever they are. -/

namespace Sys2Proof.Config

/-! ### Free values (log 5) -/

/-- A byte that a noise source delivers, or another value that nothing determines, by the number of free values drawn before (R227). -/
opaque rngByte : Nat → Byte

/-- The raw bit that a noise source delivers as its n-th sample since the first start (R227). -/
opaque noiseBit (source n : Nat) : Bool

/-- A byte of a flash unit, sector or SRAM cell that the spec calls undefined, by the same number (R460). -/
opaque freeByte : Nat → Byte

/-- How the ECC of a flash line comes out that a power loss has left undefined, modulo 3: clean, corrected, uncorrectable; by line and model tick
(R460). -/
opaque lineOutcome (line tick : Nat) : Nat

/-! ### Digests and MACs (FIPS 180-4, FIPS 202, FIPS 198-1, SP 800-185) -/

/-- Digest of a message under ALG 1-8 of R106, with the output length asked of a SHAKE. -/
opaque digestRaw (alg outLen : Nat) (msg : Bytes) : Bytes

/-- MAC of a message under ALG 1-8 of R106: key, customisation string, output length. -/
opaque macRaw (alg outLen : Nat) (key custom msg : Bytes) : Bytes

/-- KEY_DERIVE's output of `n` bytes: KMAC256 as the pseudorandom function of SP 800-108 (R116). -/
opaque deriveRaw (n : Nat) (parent context : Bytes) : Bytes

/-! ### AES (FIPS 197, SP 800-38A, 38B, 38D, 38F) -/

/-- One AES block under a 16- or 32-byte key. -/
opaque aesBlockRaw (key block : Bytes) : Bytes
opaque cbcEncRaw (key iv data : Bytes) : Bytes
opaque cbcDecRaw (key iv data : Bytes) : Bytes
opaque ctrRaw (key ctr data : Bytes) : Bytes
/-- GCM encryption or decryption of the text (the two are one key stream). -/
opaque gcmTextRaw (key iv text : Bytes) : Bytes
/-- The GCM tag over AAD and ciphertext. -/
opaque gcmTagRaw (key iv aad ct : Bytes) : Bytes
opaque cmacRaw (key msg : Bytes) : Bytes
/-- AES key wrap, and its inverse with the integrity check (SP 800-38F). -/
opaque kwWrapRaw (key data : Bytes) : Bytes
opaque kwUnwrap (key blob : Bytes) : Option Bytes

/-! ### CTR_DRBG with AES-256 and the derivation function (SP 800-90A, R231) -/

/-- The working state after instantiation from entropy, nonce and personalisation string. -/
opaque drbgInit (seed nonce pers : Bytes) : Bytes
/-- The working state after a reseed, from the last state, the requests of 1 KiB made since, and the entropy. -/
opaque drbgReseed (state : Bytes) (reqs : Nat) (seed : Bytes) : Bytes
/-- Byte i of what a working state's requests of 1 KiB generate. -/
opaque drbgByte (state : Bytes) (i : Nat) : Byte

/-! ### Curves (RFC 8032, RFC 7748, FIPS 186-5). Curve numbers are those of R129: 1 Edwards25519, 2 Curve25519,
3 P-256, 4 P-384. Points are coordinate strings of the spec's length. -/

/-- The public key of a private one. -/
opaque pubOfRaw (curve : Nat) (priv : Bytes) : Bytes
opaque edSignRaw (seed msg : Bytes) : Bytes
opaque edVerify (pk msg sig : Bytes) : Bool
opaque ecdsaVerify (curve : Nat) (pk hash sig : Bytes) : Bool
/-- Key agreement; none for an invalid peer point or an all-zero result (R109). -/
opaque agree (curve : Nat) (priv peer : Bytes) : Option Bytes
/-- Scalar multiplication on integers; none for an invalid base point (R130). -/
opaque pointMul (curve k p : Nat) : Option Nat
/-- The fixed base of a curve, as the integer of its cell. -/
opaque pointBase (curve : Nat) : Nat
opaque pointAdd (curve p q : Nat) : Nat
/-- On the curve and not the identity (R130 RELEASE_PT). -/
opaque pointOk (curve p : Nat) : Bool
/-- What the operand memory holds for the identity of a curve that gives it no affine coordinates: R130 and R133 name no value (log 119). -/
opaque identityPoint (curve : Nat) : Nat
/-- The clamped scalar and the prefix that RFC 8032 derives from a seed (R126). -/
opaque edScalar (seed : Bytes) : Nat
opaque edPrefix (seed : Bytes) : Nat
/-- The decoded coordinates of an Ed25519 public key (R126). -/
opaque edDecode (pk : Bytes) : Nat
/-- The y coordinate of a P-384 point from x and the parity of y (R206). -/
opaque p384Y (x : Bytes) (odd : Bool) : Bytes
/-- The order of a curve's group (R135, R213). -/
opaque groupOrder (curve : Nat) : Nat

/-! ### Lattices (FIPS 203, FIPS 204) -/

opaque mldsaPubRaw (xi : Bytes) : Bytes
opaque mldsaSignRaw (xi ctx msg rnd : Bytes) : Bytes
opaque mldsaVerify (pk ctx msg sig : Bytes) : Bool
/-- The number of attempts of a signing, before the limit of 256 (R111, R156). -/
opaque mldsaAttemptsRaw (xi ctx msg rnd : Bytes) : Nat
opaque mlkemPubRaw (dz : Bytes) : Bytes
/-- FIPS 203's input check of an encapsulation key. -/
opaque mlkemEkOk (ek : Bytes) : Bool
opaque mlkemEncCtRaw (ek m : Bytes) : Bytes
opaque mlkemEncKeyRaw (ek m : Bytes) : Bytes
opaque mlkemDecKeyRaw (dz ct : Bytes) : Bytes
/-- The transforms of R146: the modulus, then the 256 coefficients. -/
opaque nttRaw (q : Nat) (p : List Nat) : List Nat
opaque inttRaw (q : Nat) (p : List Nat) : List Nat
opaque pmulNttRaw (q : Nat) (a b : List Nat) : List Nat

/-! ### Others -/

/-- The seed of an identity layer's key, from the UDS, the customisation string and the context of R385; kind 0 Ed25519, 1 P-384, 2 ML-DSA-65. -/
opaque layerSeed (uds label context : Bytes) (kind : Nat) : Bytes

/-- The signed part of the X.509 alias certificate of a chain (1 Ed25519, 2 P-384), from the alias key, the issuing DeviceID key and FWDIG, and the
certificate with its signature: the coding is its standard's (R387). -/
opaque aliasTbs (alg : Nat) (aliasPub devicePub fwDigest : Bytes) : Bytes
opaque aliasCert (alg : Nat) (tbs sig : Bytes) : Bytes
/-- The code of a value type in INFO and ENUM, and of a persistence class in INFO (R355 names the fields and gives no codes). -/
opaque typeCode : Nat → Byte
opaque persistCode : Nat → Byte
/-- The PCI vendor ID of the configuration space (R353). -/
opaque vendorId : BitVec 16
/-- A record of the life-cycle journal as entry 0x9021 exports it (R381 names its fields and gives no layout). -/
opaque lcsRecord (kind from_ to_ counter : Nat) (digest lnonce : Bytes) : Bytes
/-- The secrets of an SPDM session, from the exchange (R369). -/
opaque sessionKey (exchange : Bytes) : Bytes

/-- Byte i of the commit of a store copy, from its body, where the spec gives no layout (R250, R295). -/
opaque commitByte (body : Bytes) (i : Nat) : Byte
/-- Byte i of the boot copy that the device was shipped with, by its FWDIG, and the version that a firmware image reports (R462, R463). -/
opaque imageByte (digest : Bytes) (i : Nat) : Byte
opaque imageVersion (image : Bytes) : BitVec 32
/-- The generator of the mesh patterns takes a step, and the bits in which a disturbed mesh changes a pattern, bit 0 apart (R397: no polynomial). -/
opaque meshNext : BitVec 16 → BitVec 16
opaque meshFault : BitVec 16 → BitVec 16
/-- A byte of the boot ROM, whose contents the spec does not give (R10). -/
opaque romByte : Nat → Byte
/-- What the TAP's IDCODE register shifts out (R389 names the instruction and gives no code). -/
opaque idcode : Bytes

end Sys2Proof.Config
end

