-- ==== Sys2Proof/Machine/TrivenCode.lean ====
section
/-! DEFINITION. The Triven encodings: the instruction that a core's halfwords spell (R281-R284). -/

namespace Sys2Proof.Machine
open Sys2Proof

/-- A Triven instruction with its operands, as R283 and R284 list them. -/
inductive Triven where
  | trvNop
  | mov (x y : BitVec 3)
  | add (x y : BitVec 3)
  | sub (x y : BitVec 3)
  | adc (x y : BitVec 3)
  | sbc (x y : BitVec 3)
  | and (x y : BitVec 3)
  | or (x y : BitVec 3)
  | xor (x y : BitVec 3)
  | not (x : BitVec 3)
  | shl (x y : BitVec 3)
  | shr (x y : BitVec 3)
  | mul (x y : BitVec 3)
  | ceq (x y : BitVec 3)
  | cltu (x y : BitVec 3)
  | clts (x y : BitVec 3)
  | cnz (x : BitVec 3)
  | mask (x : BitVec 3)
  | mova (x y : BitVec 3)
  | adda (x y : BitVec 3)
  | suba (x y : BitVec 3)
  | setal (x y : BitVec 3)
  | setah (x y : BitVec 3)
  | getal (x y : BitVec 3)
  | getah (x y : BitVec 3)
  | ld (x y : BitVec 3)
  | st (x y : BitVec 3)
  | ldPostinc (x y : BitVec 3)
  | stPostinc (x y : BitVec 3)
  | push (x : BitVec 3)
  | pop (x : BitVec 3)
  | pusha (x : BitVec 3)
  | popa (x : BitVec 3)
  | wclr (x : BitVec 2)
  | wmov (x y : BitVec 2)
  | wadd (x y : BitVec 2)
  | wsub (x y : BitVec 2)
  | wxor (x y : BitVec 2)
  | wand (x y : BitVec 2)
  | wshl8 (x : BitVec 2)
  | wshr8 (x : BitVec 2)
  | jmp (y : BitVec 3)
  | jsr (y : BitVec 3)
  | rts
  | rte
  | trap (n : BitVec 6)
  | waitt
  | getsr (x : BitVec 3)
  | setsr (y : BitVec 3)
  | getid (x y : BitVec 3)
  | gettk (x : BitVec 3)
  | movi (r : BitVec 3) (imm : BitVec 8)
  | addi (r : BitVec 3) (imm : BitVec 8)
  | andi (r : BitVec 3) (imm : BitVec 8)
  | xori (r : BitVec 3) (imm : BitVec 8)
  | ceqi (r : BitVec 3) (imm : BitVec 8)
  | cltui (r : BitVec 3) (imm : BitVec 8)
  | bz (r : BitVec 3) (disp : BitVec 8)
  | bnz (r : BitVec 3) (disp : BitVec 8)
  | bra (disp : BitVec 13)
  | movia (x : BitVec 3) (imm : BitVec 16)
  | addia (x : BitVec 3) (imm : BitVec 16)
  | ldx (x y : BitVec 3) (imm : BitVec 16)
  | stx (x y : BitVec 3) (imm : BitVec 16)
  | jmpl (addr : BitVec 16)
  | jsrl (addr : BitVec 16)
  | bzl (x : BitVec 3) (disp : BitVec 16)
  | bnzl (x : BitVec 3) (disp : BitVec 16)
  | wgetb (x : BitVec 3) (y : BitVec 2) (j : BitVec 6)
  | wputb (y : BitVec 2) (x : BitVec 3) (j : BitVec 6)
  | wceq (x : BitVec 3) (y z : BitVec 2)
  | movb (x y dc : BitVec 3)
  | cmpb (x y dc dd : BitVec 3)
  | fillb (x y dc : BitVec 3)
  | wmacb (x ws : BitVec 2) (y dc : BitVec 3)
  | xin (x : BitVec 2) (y dc : BitVec 3) (inc : Bool)
  | xout (y : BitVec 3) (x : BitVec 2) (dc : BitVec 3) (inc : Bool)
  deriving DecidableEq, Repr

/-- The fields X and Y of h0, c and d of h1. -/
def fieldX (h : BitVec 16) : BitVec 3 := h.extractLsb' 4 3
def fieldY (h : BitVec 16) : BitVec 3 := h.extractLsb' 0 3

/-- A field that must be 0. -/
def zeroField (x : BitVec 3) (i : Triven) : Option Triven := if x = 0 then some i else none

/-- A field that names a wide accumulator: its high bit is reserved. -/
def wideField (x : BitVec 3) (f : BitVec 2 → Option Triven) : Option Triven := if x.getLsbD 2 then none else f (x.setWidth 2)

/-- Short R, data and conditions: op 0x00 to 0x14. -/
def decodeData (op : Nat) (x y : BitVec 3) : Option Triven :=
  if op = 0x00 then (if x = 0 then zeroField y .trvNop else none)
  else if op = 0x01 then some (.mov x y)
  else if op = 0x02 then some (.add x y)
  else if op = 0x03 then some (.sub x y)
  else if op = 0x04 then (if x = 7 || y = 7 then none else some (.adc x y))
  else if op = 0x05 then (if x = 7 || y = 7 then none else some (.sbc x y))
  else if op = 0x06 then some (.and x y)
  else if op = 0x07 then some (.or x y)
  else if op = 0x08 then some (.xor x y)
  else if op = 0x09 then zeroField y (.not x)
  else if op = 0x0A then some (.shl x y)
  else if op = 0x0B then some (.shr x y)
  else if op = 0x0C then (if x = y then none else some (.mul x y))
  else if op = 0x10 then some (.ceq x y)
  else if op = 0x11 then some (.cltu x y)
  else if op = 0x12 then some (.clts x y)
  else if op = 0x13 then zeroField y (.cnz x)
  else if op = 0x14 then zeroField y (.mask x)
  else none

/-- Short R, address, memory and wide: op 0x20 to 0x47. -/
def decodeAddr (op : Nat) (x y : BitVec 3) : Option Triven :=
  if op = 0x20 then some (.mova x y)
  else if op = 0x21 then some (.adda x y)
  else if op = 0x22 then some (.suba x y)
  else if op = 0x23 then some (.setal x y)
  else if op = 0x24 then some (.setah x y)
  else if op = 0x25 then some (.getal x y)
  else if op = 0x26 then some (.getah x y)
  else if op = 0x30 then some (.ld x y)
  else if op = 0x31 then some (.st x y)
  else if op = 0x32 then some (.ldPostinc x y)
  else if op = 0x33 then some (.stPostinc x y)
  else if op = 0x34 then zeroField y (.push x)
  else if op = 0x35 then zeroField y (.pop x)
  else if op = 0x36 then zeroField y (.pusha x)
  else if op = 0x37 then zeroField y (.popa x)
  else if op = 0x40 then wideField x fun x => zeroField y (.wclr x)
  else if op = 0x41 then wideField x fun x => wideField y fun y => some (.wmov x y)
  else if op = 0x42 then wideField x fun x => wideField y fun y => some (.wadd x y)
  else if op = 0x43 then wideField x fun x => wideField y fun y => some (.wsub x y)
  else if op = 0x44 then wideField x fun x => wideField y fun y => some (.wxor x y)
  else if op = 0x45 then wideField x fun x => wideField y fun y => some (.wand x y)
  else if op = 0x46 then wideField x fun x => zeroField y (.wshl8 x)
  else if op = 0x47 then wideField x fun x => zeroField y (.wshr8 x)
  else none

/-- Short R, control: op 0x50 to 0x59. TRAP #n takes n from both fields. -/
def decodeControl (op : Nat) (x y : BitVec 3) : Option Triven :=
  if op = 0x50 then zeroField x (.jmp y)
  else if op = 0x51 then zeroField x (.jsr y)
  else if op = 0x52 then (if x = 0 then zeroField y .rts else none)
  else if op = 0x53 then (if x = 0 then zeroField y .rte else none)
  else if op = 0x54 then some (.trap (x ++ y))
  else if op = 0x55 then (if x = 0 then zeroField y .waitt else none)
  else if op = 0x56 then zeroField y (.getsr x)
  else if op = 0x57 then zeroField x (.setsr y)
  else if op = 0x58 then some (.getid x y)
  else if op = 0x59 then zeroField y (.gettk x)
  else none

/-- Short I: op 0x10 to 0x17. -/
def decodeImm (op : Nat) (r : BitVec 3) (imm : BitVec 8) : Option Triven :=
  if op = 0x10 then some (.movi r imm)
  else if op = 0x11 then some (.addi r imm)
  else if op = 0x12 then some (.andi r imm)
  else if op = 0x13 then some (.xori r imm)
  else if op = 0x14 then some (.ceqi r imm)
  else if op = 0x15 then some (.cltui r imm)
  else if op = 0x16 then some (.bz r imm)
  else if op = 0x17 then some (.bnz r imm)
  else none

/-- Long, not resumable: an odd address or displacement is illegal (R282). -/
def decodeLong (op : Nat) (x y : BitVec 3) (h1 : BitVec 16) : Option Triven :=
  let even := fun (i : Triven) => if h1.getLsbD 0 then none else some i
  let lane := fun (i : Triven) => if h1.toNat < 64 then some i else none
  if op = 0x00 then zeroField y (.movia x h1)
  else if op = 0x01 then zeroField y (.addia x h1)
  else if op = 0x02 then some (.ldx x y h1)
  else if op = 0x03 then some (.stx x y h1)
  else if op = 0x04 then (if x = 0 && y = 0 then even (.jmpl h1) else none)
  else if op = 0x05 then (if x = 0 && y = 0 then even (.jsrl h1) else none)
  else if op = 0x06 then (if y = 0 then even (.bzl x h1) else none)
  else if op = 0x07 then (if y = 0 then even (.bnzl x h1) else none)
  else if op = 0x08 then wideField y fun y => lane (.wgetb x y (h1.setWidth 6))
  else if op = 0x09 then wideField y fun y => lane (.wputb y x (h1.setWidth 6))
  else if op = 0x0A then wideField y fun y => if h1.toNat < 4 then some (.wceq x y (h1.setWidth 2)) else none
  else none

/-- Long, resumable (R284). -/
def decodeResumable (op : Nat) (x y : BitVec 3) (h1 : BitVec 16) : Option Triven :=
  let dc := fieldY h1
  let plain := h1.toNat < 8
  let inc := h1.getLsbD 8
  let port := h1.toNat % 256 < 8 && h1.toNat < 512
  if op = 0x10 then (if plain && x ≠ y then some (.movb x y dc) else none)
  else if op = 0x11 then (if h1.toNat < 128 && !h1.getLsbD 3 && x ≠ y && fieldX h1 ≠ dc then some (.cmpb x y dc (fieldX h1)) else none)
  else if op = 0x12 then (if plain then some (.fillb x y dc) else none)
  else if op = 0x13 then wideField x fun x =>
    let ws := h1.extractLsb' 4 2
    if h1.toNat < 64 && !h1.getLsbD 3 && x ≠ ws then some (.wmacb x ws y dc) else none
  else if op = 0x14 then wideField x fun x => if port then some (.xin x y dc inc) else none
  else if op = 0x15 then wideField x fun x => if port then some (.xout y x dc inc) else none
  else none

/-- h0 begins an instruction of two halfwords. -/
def isLong (h0 : BitVec 16) : Bool := 0xE000 ≤ h0.toNat

/-- The instruction that h0, and h1 in the long format, spell; none for an illegal one: a reserved bit that is not 0, an op that is not
listed, or a register combination that the instruction forbids (R281). -/
def trivenDecode (h0 h1 : BitVec 16) : Option Triven :=
  let n := h0.toNat
  let x := fieldX h0
  let y := fieldY h0
  let spare := h0.getLsbD 7 || h0.getLsbD 3
  if n < 0x8000 then
    let op := n / 256
    if spare then none
    else if op < 0x20 then decodeData op x y
    else if op < 0x50 then decodeAddr op x y
    else decodeControl op x y
  else if n < 0xC000 then decodeImm (n / 2 ^ 11) (h0.extractLsb' 8 3) (h0.setWidth 8)
  else if n < 0xE000 then some (.bra (h0.setWidth 13))
  else
    let op := n / 256 % 32
    if spare then none
    else if op < 0x10 then decodeLong op x y h1
    else decodeResumable op x y h1

/-! ### The words of an instruction -/

def shortR (op : Nat) (x y : Nat) : List (BitVec 16) := [BitVec.ofNat 16 (256 * op + 16 * x + y)]
def shortI (op : Nat) (r : BitVec 3) (imm : BitVec 8) : List (BitVec 16) := [BitVec.ofNat 16 (2048 * op + 256 * r.toNat + imm.toNat)]
def longW (op x y h1 : Nat) : List (BitVec 16) := [BitVec.ofNat 16 (0xE000 + 256 * op + 16 * x + y), BitVec.ofNat 16 h1]

/-- The halfwords of an instruction, from the tables of R281 to R284. -/
def trivenWords (i : Triven) : List (BitVec 16) :=
  match i with
  | .trvNop => shortR 0x00 0 0
  | .mov x y => shortR 0x01 x.toNat y.toNat
  | .add x y => shortR 0x02 x.toNat y.toNat
  | .sub x y => shortR 0x03 x.toNat y.toNat
  | .adc x y => shortR 0x04 x.toNat y.toNat
  | .sbc x y => shortR 0x05 x.toNat y.toNat
  | .and x y => shortR 0x06 x.toNat y.toNat
  | .or x y => shortR 0x07 x.toNat y.toNat
  | .xor x y => shortR 0x08 x.toNat y.toNat
  | .not x => shortR 0x09 x.toNat 0
  | .shl x y => shortR 0x0A x.toNat y.toNat
  | .shr x y => shortR 0x0B x.toNat y.toNat
  | .mul x y => shortR 0x0C x.toNat y.toNat
  | .ceq x y => shortR 0x10 x.toNat y.toNat
  | .cltu x y => shortR 0x11 x.toNat y.toNat
  | .clts x y => shortR 0x12 x.toNat y.toNat
  | .cnz x => shortR 0x13 x.toNat 0
  | .mask x => shortR 0x14 x.toNat 0
  | .mova x y => shortR 0x20 x.toNat y.toNat
  | .adda x y => shortR 0x21 x.toNat y.toNat
  | .suba x y => shortR 0x22 x.toNat y.toNat
  | .setal x y => shortR 0x23 x.toNat y.toNat
  | .setah x y => shortR 0x24 x.toNat y.toNat
  | .getal x y => shortR 0x25 x.toNat y.toNat
  | .getah x y => shortR 0x26 x.toNat y.toNat
  | .ld x y => shortR 0x30 x.toNat y.toNat
  | .st x y => shortR 0x31 x.toNat y.toNat
  | .ldPostinc x y => shortR 0x32 x.toNat y.toNat
  | .stPostinc x y => shortR 0x33 x.toNat y.toNat
  | .push x => shortR 0x34 x.toNat 0
  | .pop x => shortR 0x35 x.toNat 0
  | .pusha x => shortR 0x36 x.toNat 0
  | .popa x => shortR 0x37 x.toNat 0
  | .wclr x => shortR 0x40 x.toNat 0
  | .wmov x y => shortR 0x41 x.toNat y.toNat
  | .wadd x y => shortR 0x42 x.toNat y.toNat
  | .wsub x y => shortR 0x43 x.toNat y.toNat
  | .wxor x y => shortR 0x44 x.toNat y.toNat
  | .wand x y => shortR 0x45 x.toNat y.toNat
  | .wshl8 x => shortR 0x46 x.toNat 0
  | .wshr8 x => shortR 0x47 x.toNat 0
  | .jmp y => shortR 0x50 0 y.toNat
  | .jsr y => shortR 0x51 0 y.toNat
  | .rts => shortR 0x52 0 0
  | .rte => shortR 0x53 0 0
  | .trap n => shortR 0x54 (n.toNat / 8) (n.toNat % 8)
  | .waitt => shortR 0x55 0 0
  | .getsr x => shortR 0x56 x.toNat 0
  | .setsr y => shortR 0x57 0 y.toNat
  | .getid x y => shortR 0x58 x.toNat y.toNat
  | .gettk x => shortR 0x59 x.toNat 0
  | .movi r v => shortI 0x10 r v
  | .addi r v => shortI 0x11 r v
  | .andi r v => shortI 0x12 r v
  | .xori r v => shortI 0x13 r v
  | .ceqi r v => shortI 0x14 r v
  | .cltui r v => shortI 0x15 r v
  | .bz r v => shortI 0x16 r v
  | .bnz r v => shortI 0x17 r v
  | .bra v => [BitVec.ofNat 16 (0xC000 + v.toNat)]
  | .movia x v => longW 0x00 x.toNat 0 v.toNat
  | .addia x v => longW 0x01 x.toNat 0 v.toNat
  | .ldx x y v => longW 0x02 x.toNat y.toNat v.toNat
  | .stx x y v => longW 0x03 x.toNat y.toNat v.toNat
  | .jmpl v => longW 0x04 0 0 v.toNat
  | .jsrl v => longW 0x05 0 0 v.toNat
  | .bzl x v => longW 0x06 x.toNat 0 v.toNat
  | .bnzl x v => longW 0x07 x.toNat 0 v.toNat
  | .wgetb x y j => longW 0x08 x.toNat y.toNat j.toNat
  | .wputb y x j => longW 0x09 x.toNat y.toNat j.toNat
  | .wceq x y z => longW 0x0A x.toNat y.toNat z.toNat
  | .movb x y c => longW 0x10 x.toNat y.toNat c.toNat
  | .cmpb x y c d => longW 0x11 x.toNat y.toNat (c.toNat + 16 * d.toNat)
  | .fillb x y c => longW 0x12 x.toNat y.toNat c.toNat
  | .wmacb x ws y c => longW 0x13 x.toNat y.toNat (c.toNat + 16 * ws.toNat)
  | .xin x y c inc => longW 0x14 x.toNat y.toNat (c.toNat + 256 * inc.toNat)
  | .xout y x c inc => longW 0x15 x.toNat y.toNat (c.toNat + 256 * inc.toNat)

/-- Operands that the instruction allows: no register in two conflicting roles, an even target or displacement (R282-R284). -/
def trivenOk (i : Triven) : Bool :=
  match i with
  | .adc x y => x ≠ 7 && y ≠ 7
  | .sbc x y => x ≠ 7 && y ≠ 7
  | .mul x y => x ≠ y
  | .jmpl v => !v.getLsbD 0
  | .jsrl v => !v.getLsbD 0
  | .bzl _ v => !v.getLsbD 0
  | .bnzl _ v => !v.getLsbD 0
  | .movb x y _ => x ≠ y
  | .cmpb x y c d => x ≠ y && d ≠ c
  | .wmacb x ws _ _ => x ≠ ws
  | _ => true

end Sys2Proof.Machine
end

