-- ==== Sys2Proof/Machine/DeviceState.lean ====
section
/-! DEFINITION. State of the device as a whole: identity, power and modes, the dispatcher, benches, Triven cores,
leases, events and faults, and the vault domain. -/

namespace Sys2Proof.Machine
open Sys2Proof

/-! ### Identity (R1, R2, R365) -/

/-- The three variants of R1. -/
inductive Variant where
  | sv6480 | sv6440 | sv6420
  deriving DecidableEq, Repr

/-- R2's variant code. -/
def Variant.code : Variant → Nat
  | .sv6480 => 0x6480 | .sv6440 => 0x6440 | .sv6420 => 0x6420

/-- R1: benches, and lease and slot counts. -/
def Variant.benches : Variant → Nat
  | .sv6480 => 16 | .sv6440 => 8 | .sv6420 => 4
def Variant.leases : Variant → Nat
  | .sv6480 => 64 | .sv6440 => 32 | .sv6420 => 16
def Variant.slots : Variant → Nat
  | .sv6480 => 65536 | .sv6440 => 32768 | .sv6420 => 16384

/-- The steppings of R2. -/
inductive Stepping where
  | a0 | b0 | b1
  deriving DecidableEq, Repr

def Stepping.code : Stepping → Nat
  | .a0 => 0x00 | .b0 => 0x10 | .b1 => 0x11

structure Ident where
  variant   : Variant := .sv6480
  stepping  : Stepping := .b1
  /-- the 128-bit unit identifier -/
  unit      : Bytes := List.replicate 16 0
  fwVersion : BitVec 32 := 0
  fwDigest  : Bytes := []
  romDigest : Bytes := []
  /-- Ed25519 and ML-DSA-65 vendor public keys -/
  vendorEd  : Bytes := []
  vendorMl  : Bytes := []
  /-- 7-byte UID of the tag -/
  tagUid    : Bytes := List.replicate 7 0
  deriving DecidableEq, Repr

/-! ### Power, reset and modes (R434, R45, R474) -/

/-- The operating modes of R434. -/
inductive Mode where
  | vault | standby | guard | service | ceremony | lockdown | recovery | gallery
  deriving DecidableEq, Repr

/-- R434's mode codes, as PWR_STAT.MODE reads them. -/
def Mode.code : Mode → Nat
  | .vault => 0 | .standby => 1 | .guard => 2 | .service => 3
  | .ceremony => 4 | .lockdown => 5 | .recovery => 6 | .gallery => 7

/-- How far a start has come (R45, R463, R404). -/
inductive Stage where
  | off          -- no VCORE
  | wipe         -- the 1,536-tk reset wipe runs
  | rom          -- boot ROM is to run
  | romRecovery  -- no image verified: firmware recovery
  | udsFailed    -- the unique device secret does not match its check
  | island       -- island firmware's start work is to run
  | running      -- the start work is done
  deriving DecidableEq, Repr

structure Pw where
  /-- ticks since the model's reset, the model's own time base (log 9) -/
  now       : Nat := 0
  /-- free values drawn so far, the model's own (log 5) -/
  free      : Nat := 0
  stage     : Stage := .wipe
  /-- time passed since the model's reset, in units of 1/100,000,000 of an RTC period, the model's own (log 9) -/
  mono      : Nat := 0
  /-- model tick at which the wipe ends -/
  wipeEnd   : Nat := 1536
  /-- model tick from which the boot ROM's signatures are made (R385) -/
  romUntil  : Nat := 0
  mode      : Mode := .guard
  /-- lease work runs (it resumes at a frame boundary, R435) -/
  leaseWork : Bool := false
  vio3      : Bool := true
  sysRst    : Bool := true
  pwrok     : Bool := true
  hrst      : Bool := true
  perst     : Bool := true
  mgtStraps : BitVec 2 := 0
  vflHigh   : Bool := true
  pwrokAt   : Nat := 0
  /-- model tick at which FCLK last began to change between its two frequencies (R396, R436) -/
  fclkAt    : Nat := 0
  supplyHold : Bool := false
  dieHot    : Bool := false
  /-- a recovery of R259 outside a host-reboot pass is in progress -/
  recovery  : Bool := false
  /-- accumulated fraction of an RTC period (log 9) -/
  rtcFrac   : Nat := 0
  deriving DecidableEq, Repr

/-! ### Dispatcher (R44-R54) -/

/-- A re-placement decided by REPLACEMENT_SEARCH and awaiting its swap (R38-R41). -/
structure Move where
  lease : Nat
  src   : Nat
  dst   : Nat          -- 0xFF after pass 3
  pass  : Nat
  ticks : Nat
  short : Nat
  cores : Nat
  pages : Nat
  /-- the pages of dst it takes (R40) -/
  placed : List Nat := []
  deriving DecidableEq, Repr

structure Replacement where
  bench    : Nat
  /-- DSP_TICK of the quarantine -/
  at_      : Nat
  /-- frame at whose first tick the swap takes effect (F of R39) -/
  frame    : Nat
  searched : Bool := false
  moves    : List Move := []
  deriving DecidableEq, Repr

structure Dsp where
  tick     : BitVec 64 := 0
  pend     : Bool := false
  captured : Bool := false
  rplPend  : Bool := false
  /-- frame at whose first tick the pending swap takes effect -/
  at_      : Nat := 0
  policyS  : BitVec 64 := 0
  policy   : BitVec 64 := 0
  policyC  : BitVec 64 := 0
  /-- core tables by core number; shadow, active, captured; default 0xFF -/
  coreS    : Tbl Nat := []
  core     : Tbl Nat := []
  coreC    : Tbl Nat := []
  /-- engine tables, entry i of table q at 256 q + i; default 0xFF -/
  sltS     : Tbl Nat := []
  slt      : Tbl Nat := []
  sltC     : Tbl Nat := []
  /-- page assignment, page p of bench n at 64 n + p; default 0xFF -/
  pageS    : Tbl Nat := []
  page     : Tbl Nat := []
  pageC    : Tbl Nat := []
  lent     : Tbl (BitVec 64) := []
  borrow   : Tbl (BitVec 64) := []
  /-- lease that last borrowed on each engine; default 63, so the first search starts at lease 0 (R58) -/
  lastBorrow : Tbl Nat := []
  /-- host quanta of this tick whose first-tick checks and draws are still to be made, in ascending engine number (R205, R222, R232): engine,
  command, part -/
  due      : List (Nat × Nat × Bool) := []
  /-- stored plans of entries 0x2010, 0x2011, 0x2013, and 0x2012 and 0x2014 -/
  planSlt  : Tbl Nat := []
  planCore : Tbl Nat := []
  planPage : Tbl Nat := []
  planPol  : BitVec 64 := 0
  applyPend : Bool := false
  /-- the pending apply came after the capture of the swap under way -/
  applyLate : Bool := false
  lastApply : BitVec 64 := 0
  /-- leases whose cores start afresh at the next swap (program change, R296) -/
  fresh    : List Nat := []
  repl     : List Replacement := []
  deriving DecidableEq, Repr

/-! ### Benches (R17-R22, R440-R442) -/

/-- BEN_STAT_n.STATE. -/
inductive BState where
  | off | waking | ready | quarantined
  deriving DecidableEq, Repr

def BState.code : BState → Nat
  | .off => 0 | .waking => 1 | .ready => 2 | .quarantined => 3

/-- One line of a yard cache: slot number and last use (R206). -/
structure Line where
  slot : Nat
  used : Nat
  deriving DecidableEq, Repr

structure Bench where
  lock     : Bool := false
  spare    : Bool := false
  autoRpl  : Bool := true
  /-- SPARE and AUTO_RPL as entry 0x2014 stores them -/
  stSpare  : Bool := false
  stAutoRpl : Bool := true
  cause    : BitVec 16 := 0
  causeV   : Bool := false
  wipeDone : Bool := false
  state    : BState := .off
  /-- a quarantine waits for the tick boundary: its cause and its model tick -/
  qPend    : Option (Nat × Nat) := none
  /-- model tick at which the wipe, or the ramp, ends -/
  wipeEnd  : Nat := 0
  rampEnd  : Nat := 0
  /-- model tick at which the bench became READY -/
  readyAt  : Nat := 0
  /-- entries act as IDLE until a frame boundary after a return (R52) -/
  idleUntilFrame : Bool := false
  idleFrames : Nat := 0
  offReq   : Bool := false
  /-- the bench was not idle in some tick of the current frame (R440) -/
  busy     : Bool := false
  lines    : List Line := []
  /-- tick of the last line fill, and the line fills owed in it -/
  fillAt   : Nat := 0
  deriving DecidableEq, Repr

/-! ### Triven cores (R276-R291, R300-R316) -/

/-- FNC_STAT_c.STATE as stored; PAUSED (1) is read while a core in RUN does not execute. -/
inductive CState where
  | run | stopped | reset
  deriving DecidableEq, Repr

def CState.code : CState → Nat
  | .run => 0 | .stopped => 2 | .reset => 3

/-- The call a core serves (R308): the command's handle and its page. -/
structure Serving where
  cmd  : Nat
  page : Nat
  start : Nat
  deriving DecidableEq, Repr

structure Core where
  d     : Vector (BitVec 8) 8 := Vector.replicate 8 0
  a     : Vector (BitVec 16) 8 := Vector.replicate 8 0
  w     : Vector (BitVec 512) 4 := Vector.replicate 4 0
  pc    : BitVec 16 := 0
  /-- SR.S, SR.IE, SR.RSM (R277) -/
  sup   : Bool := true
  ie    : Bool := false
  rsm   : Bool := false
  /-- bench cycle of the tick at which the next instruction begins -/
  bc    : Nat := 0
  /-- the core is at a tick boundary at which it has taken no vector yet -/
  boundary : Bool := false
  /-- a long instruction has made its setup and is under way in this run of execution -/
  long   : Option Triven := none
  /-- bytes read from RNG_PORT in this tick (R239) -/
  rngBytes : Nat := 0
  fncWritten : Bool := false
  /-- halted through the gallery (rights 0 and 2, R389), and allowed one instruction by a step -/
  halted : Bool := false
  stepOne : Bool := false
  en    : Bool := false
  wlock : Bool := false
  state : CState := .reset
  serving : Option Serving := none
  isvb  : Bool := false
  isvReq : Nat := 0
  /-- D0 to D3 as the request passed them (R306) -/
  isvArg : BitVec 32 := 0
  cause : BitVec 32 := 0
  ien   : BitVec 7 := 0
  pend  : BitVec 7 := 0
  callArg : BitVec 32 := 0
  callIo  : BitVec 64 := 0
  isv   : BitVec 64 := 0
  vrpA  : BitVec 64 := 0
  vrpB  : BitVec 64 := 0
  vcnt  : BitVec 32 := 0
  /-- FNC_WIN_k, default NONE, and FNC_FEN_k, default 0x0007_FF00 -/
  win   : Tbl (BitVec 64) := []
  /-- the windows in use until the instruction that has written one ends (R311) -/
  winUse : Option (Tbl (BitVec 64)) := none
  fen   : Tbl (BitVec 32) := []
  deriving DecidableEq, Repr

/-- A long instruction is under way. -/
def Core.inLong (x : Core) : Bool := x.long.isSome

/-- ABS over 0x00_0000_0000, 256 units, R and X (R309, R311). -/
def islandWindow : BitVec 64 := BitVec.ofNat 64 (0x03 + 0x05 * 0x100 + 0xFF * 0x100000000)

/-- ABS over the active boot block, 256 units from 0x4000_0000, R and X: the window in which firmware starts (R463, log 153). -/
def bootWindow : BitVec 64 := BitVec.ofNat 64 (0x03 + 0x05 * 0x100 + 0xFF * 0x100000000 + 0x400000 * 0x10000000000)

/-- An island core after a reset: in RESET while the wipe runs, its window 0 covers boot ROM and upwards, R and X (R312, R316). -/
def islandCore : Core := { win := [(0, islandWindow)] }

/-! ### Leases (R24, R37, R201, R220-R223, R294) -/

/-- A live grant (R222). -/
structure Grant where
  scope    : Nat            -- yard reference, or 0
  uses     : Nat            -- left
  endFrame : Nat
  fromTick : Nat            -- model tick from which it is live
  deriving DecidableEq, Repr

inductive ProgState where
  | none | verifying | loaded
  deriving DecidableEq, Repr

structure Lease where
  quota    : Nat := 0
  rangeBase : Nat := 0
  rangeCount : Nat := 0
  epoch    : BitVec 16 := 1
  quarantined : Bool := false
  /-- model tick of a quarantine that waits for its boundary -/
  qPend    : Option Nat := none
  /-- a release has been applied in this tick (R92); its cores start in the next frame (R279) -/
  released : Bool := false
  coresDue : Bool := false
  quorumM  : Nat := 0
  quorumN  : Nat := 0
  creds    : List Bytes := []
  reqScope : BitVec 32 := 0
  reqUses  : Nat := 0
  reqFrames : Nat := 0
  grant    : Option Grant := none
  /-- a grant that this tick has ended: it still covers the checks of the tick (R205) -/
  ending   : Option Grant := none
  /-- in the scope of an open ceremony, or waiting for the frame boundary after it (R223, R225) -/
  paused   : Bool := false
  resumeAtFrame : Bool := false
  progEd   : Bytes := List.replicate 32 0
  progMl   : Bytes := List.replicate 48 0
  progState : ProgState := .none
  progRefusal : Nat := 0
  minSvn   : Nat := 0
  /-- committed image, the image on the pages, and the image being verified with the tick it was taken up -/
  image    : Bytes := []
  verifying : Option (Bytes × Nat) := none
  /-- the body programmed into the inactive copy of the program store, without its commit (R295); the number of the copy that holds the committed
  image, and what the other copy still holds of an older one (R447) -/
  body     : Bytes := []
  copy     : Nat := 0
  old      : Bytes := []
  /-- what the last page copy has put on the program pages (R296) -/
  copied   : Bytes := []
  /-- the committed image (or the unload) awaits the swap that makes it take effect -/
  progPend : Bool := false
  inForce  : Bytes := []
  report   : Bytes := List.replicate 16 0
  consent  : Bool := false
  qev      : BitVec 6 := 0
  deriving DecidableEq, Repr

/-! ### Events, faults and notification (R418-R433) -/

/-- A fault record (R425), with the model tick of its opening. -/
structure Rec where
  first : Nat
  sev   : Nat
  open_ : Bool := true
  latch : Bool := false
  inj   : Bool := false
  qlost : Bool := false
  lease : Nat
  bench : Nat
  also  : BitVec 16 := 0
  tick  : BitVec 64
  time  : BitVec 64
  groups : BitVec 64
  openedAt : Nat
  deriving DecidableEq, Repr

/-- An entry of the event queue, in the fields of FLT_Q. -/
structure EvEntry where
  event : Nat
  sev   : Nat
  lease : Nat
  tick  : BitVec 64
  /-- the mode entered, for power event 0 (R435); 0 otherwise -/
  mode  : Nat := 0
  deriving DecidableEq, Repr

structure Flt where
  lock    : Bool := false
  /-- counts by event number; severities and pin flags that differ from the tables of R418; the stored ones of R444 -/
  count   : Tbl (BitVec 16) := []
  sev     : Tbl (Option (BitVec 2)) := []
  pin     : Tbl Bool := []
  stSev   : Tbl (Option (BitVec 2)) := []
  stPin   : Tbl Bool := []
  /-- severity writes that take effect from the next tick: event, severity, pin -/
  sevPend : List (Nat × BitVec 2 × Bool) := []
  low     : Bool := false
  route   : BitVec 9 := 0
  /-- a write of entry 0x6004 that takes effect from the next tick (R444) -/
  routePend : Option (BitVec 9) := none
  stRoute : BitVec 9 := 0
  rec_    : Option Rec := none
  closing : Bool := false
  /-- the value that the acknowledgement of this tick carried (R428) -/
  ackAlso : BitVec 16 := 0
  queue   : List EvEntry := []
  qlost   : BitVec 14 := 0
  history : List Rec := []
  evlog   : List EvEntry := []
  ackRefusal : Nat := 0
  /-- model tick at whose end the FAULT_N pulse ends; none outside a pulse -/
  pulseEnd : Option Nat := none
  pulseFrom : Nat := 0
  /-- a notification is due for the record opened in this model tick -/
  notify  : Option Nat := none
  clkMon  : BitVec 30 := 0
  deriving DecidableEq, Repr

structure Pwr where
  lock   : Bool := false
  fail   : BitVec 16 := 0
  idle   : Tbl (BitVec 16) := []
  stIdle : Tbl (BitVec 16) := []
  /-- writes of entry 0x6300 that take effect from the next tick (R444) -/
  idlePend : List (Nat × BitVec 16) := []
  fifo   : List Nat := []
  /-- requests of this tick that entered the FIFO and have not been admitted -/
  newReq : List Nat := []
  admitted : Nat := 0
  deriving DecidableEq, Repr

/-! ### Vault domain (R396-R415, R211) -/

/-- A staging entry (R403). -/
structure Staged where
  vseq  : Nat
  time  : BitVec 64
  kind  : Nat
  source : Nat
  resp  : Nat
  saved : Bool
  vault : Bool
  /-- DATA of the tamper log entry to be (R405), and whether this entry set the latch -/
  data  : BitVec 32 := 0
  latched : Bool := false
  /-- island firmware has found the log closed to it (R406) -/
  dropped : Bool := false
  deriving DecidableEq, Repr

/-- One sensor source: detection times, disarmed, detecting, counter (R398). -/
structure Sensor where
  hits     : List Nat := []
  disarmed : Bool := false
  detecting : Bool := false
  count    : BitVec 32 := 0
  deriving DecidableEq, Repr

/-- An entry of the tamper log (R405): SEQ, the staged entry, the life-cycle code. -/
structure TamperBody where
  seq  : Nat
  body : Bytes
  kind : Nat
  vseq : Nat
  latched : Bool
  /-- its 32-byte commit, empty until it is programmed -/
  commit : Bytes := []
  deriving DecidableEq, Repr

structure Vault where
  rtc     : BitVec 47 := 0
  bedrock : Option Bytes := none
  bedGen  : BitVec 16 := 0
  /-- model tick in which bedrock was cleared while powered (R211) -/
  clearedAt : Option Nat := none
  /-- the responses and windows as entries 0x5001 to 0x5003 hold them: each start copies them into the registers (R399, R414) -/
  stResp  : Vector (BitVec 32) 2 := #v[0x5545555A, 0x00555555]
  stSw    : Vector (BitVec 32) 4 := Vector.replicate 4 0x00020064
  stVwin  : BitVec 32 := 0x000303E8
  latch   : Bool := false
  cause   : BitVec 8 := 0xFF
  vlost   : Bool := true
  lock    : Bool := false
  resp    : Vector (BitVec 32) 2 := #v[0x5545555A, 0x00555555]
  sw      : Vector (BitVec 32) 4 := Vector.replicate 4 0x00020064
  vwin    : BitVec 32 := 0x000303E8
  sensors : Tbl Sensor := []
  staging : List Staged := []
  vseq    : Nat := 1
  savedTo : BitVec 32 := 0
  ovf     : BitVec 16 := 0
  drop    : BitVec 32 := 0
  /-- tamper log in package flash, and whether an UNLOCK commit was programmed since the latch was set -/
  log     : List TamperBody := []
  unlockDone : Bool := false
  latchSeq : Nat := 0
  chal    : Bytes := List.replicate 32 0
  /-- a challenge is to be drawn as soon as the island expander can serve it (R232, R408) -/
  chalDue : Bool := false
  unlockRefusal : Nat := 0
  /-- the generator of the mesh patterns (R397) -/
  lfsr    : BitVec 16 := 1
  /-- an RTC write of this tick, which takes effect at its boundary (R411) -/
  rtcSet  : Option (BitVec 47) := none
  deriving DecidableEq, Repr

end Sys2Proof.Machine
end

