-- ==== Sys2Proof/Machine/PortState.lean ====
section
/-! DEFINITION. State of the ports: flash gate and ledger, package flash, custodian card, reader and tag, dictionary,
SPDM, life cycle, gallery, the register bus, and the block's outputs. -/

namespace Sys2Proof.Machine
open Sys2Proof

/-! ### Life cycle and gallery (R374-R393) -/

/-- The life-cycle states of R374. -/
inductive Lcs where
  | blank | tested | sealed_ | claimed | field | ret | scrapped
  deriving DecidableEq, Repr

/-- R374's codes. -/
def Lcs.code : Lcs → Nat
  | .blank => 0 | .tested => 1 | .sealed_ => 2 | .claimed => 3 | .field => 4 | .ret => 5 | .scrapped => 6

def Lcs.ofCode : Nat → Option Lcs
  | 0 => some .blank | 1 => some .tested | 2 => some .sealed_ | 3 => some .claimed | 4 => some .field
  | 5 => some .ret | 6 => some .scrapped | _ => none

def Lcs.beforeField : Lcs → Bool
  | .blank | .tested | .sealed_ | .claimed => true
  | .field | .ret | .scrapped => false

/-- Kinds of life-cycle journal records (R381, R388). -/
inductive LKind where
  | intent | done | cert
  deriving DecidableEq, Repr

structure LRec where
  kind    : LKind
  from_   : Nat
  to_      : Nat
  counter : Nat
  digest  : Bytes
  lnonce  : Bytes
  /-- the request an INTENT was made for, whose payload step 3 repeats after a power loss (R382, log 144) -/
  request : Bytes := []
  deriving DecidableEq, Repr

/-- A dual-signed object whose 41-tick verification is under way: its bytes, the tick it was taken up. -/
structure Verify where
  data : Bytes
  at_  : Nat
  deriving DecidableEq, Repr

structure LcsSt where
  /-- the state read at the last start, the fuse pairs (pair of state code c at bits 2c - 2 and 2c - 1), the counter bank -/
  state   : Lcs := .blank
  pairs   : BitVec 12 := 0
  count   : Nat := 0
  failed  : Bool := false
  /-- target of a pending transition (LCS_STAT.PEND, TARGET) -/
  pend    : Option Lcs := none
  uds     : Option Bytes := none
  /-- the fused check of the UDS -/
  udsCheck : Bytes := []
  token1  : Bytes := List.replicate 32 0
  token2  : Bytes := List.replicate 32 0
  /-- owner and manifest keys and ESTATE of the identity region, and their fused digests (R380) -/
  ownerEd : Bytes := []
  ownerMl : Bytes := []
  manEd   : Bytes := []
  manMl   : Bytes := []
  estate  : Bytes := List.replicate 16 0
  ownerFuse : Bytes := []
  manFuse : Bytes := []
  estateFuse : Bytes := []
  lnonce  : Bytes := []
  /-- tokens refused since the last main-power reset -/
  badTokens : Nat := 0
  refusal : Nat := 0
  verify  : Option Verify := none
  journal : List LRec := []
  /-- identity records 1 to 3 and X.509 certificates 4 and 5, by subindex of entry 0x9020 -/
  records : Tbl Bytes := []
  /-- the alias certificates that end the chains of subindices 4 and 5: what their DeviceID keys have signed, and the certificates (R385, R387) -/
  aliasTbs : Tbl Bytes := []
  aliasCert : Tbl Bytes := []
  deriving DecidableEq, Repr

structure Gal where
  /-- GAL_GRANT.LEASE and RIGHTS -/
  lease   : BitVec 8 := 0
  grant   : BitVec 32 := 0
  cert    : Bytes := []
  chal    : Bytes := List.replicate 32 0
  /-- a challenge is to be drawn as soon as the island expander can serve it (R232, R388) -/
  chalDue : Bool := false
  refusal : Nat := 0
  deriving DecidableEq, Repr

/-! ### Flash gate (R241-R260, R272) -/

/-- FLG_STAT.STATE. -/
inductive GState where
  | released | discover | measure | recover | record | held | releasing | holding
  deriving DecidableEq, Repr

def GState.code : GState → Nat
  | .released => 0 | .discover => 1 | .measure => 2 | .recover => 3 | .record => 4 | .held => 5 | .releasing => 6 | .holding => 7

/-- A port as discovery left it (R244, FLG_PORT_p): mode 3 is absent. -/
structure GPort where
  present : Bool := false
  dens    : BitVec 8 := 0
  dummy   : Nat := 0
  addr4   : Bool := false
  mode    : Nat := 3
  deriving DecidableEq, Repr

/-- A region's result (R255, R262). -/
structure RegRes where
  result : Nat
  svn    : Nat
  digest : Bytes
  deriving DecidableEq, Repr

/-- Where a pass stands (R253, R256, R267). -/
inductive PStep where
  | hold | verify | discover | measure | recover | operator | record | commit | release
  deriving DecidableEq, Repr

structure Pass where
  step     : PStep := .hold
  reboot   : Bool := false
  /-- the pass of a main-power start, which runs in GUARD (R252, R434) -/
  start    : Bool := false
  /-- a recovery request: the policy is taken as RECOVER (R258) -/
  forced   : Bool := false
  startAt  : Nat
  /-- model tick at which the current step, region or wait began -/
  stepAt   : Nat
  /-- the copied manifest, its signature outcome -/
  manifest : Bytes := []
  manBad   : Bool := false
  results  : List RegRes := []
  discTk   : Nat := 0
  measTk   : Nat := 0
  recTk    : Nat := 0
  recovered : Bool := false
  operator : Bool := false
  verdict  : Nat := 0
  reason   : Nat := 0
  time     : BitVec 64 := 0
  /-- event 13 has been raised for the wait of this pass -/
  waited   : Bool := false
  deriving DecidableEq, Repr

structure Flg where
  state   : GState := .released
  pass    : Option Pass := none
  /-- model tick in which the last pass ended: island work that waited is taken up then (R252) -/
  idleAt  : Nat := 0
  /-- a pass, of a host reboot or not, that would have started while a firmware update ran: it starts in the tick after the update ends (R465) -/
  passDue : Option Bool := none
  /-- HFA_SEL, PLT_RST_N released -/
  asel    : Bool := false
  plt     : Bool := false
  /-- FLG_CTL.BMCB, entry 0x3003 -/
  bmcb    : Bool := false
  owner   : Nat := 0
  /-- model tick in which a release sequence began, and that in which it set HFA_SEL (R257) -/
  relAt   : Option Nat := none
  selAt   : Option Nat := none
  /-- model tick at which step 1 began outside a pass, while the BMC port is still connected (R253, R435) -/
  holdAt  : Option Nat := none
  portA   : GPort := {}
  portB   : GPort := {}
  discTk  : Nat := 0
  measTk  : Nat := 0
  /-- verdict and REASON of the latest pass, the SEQ of its record -/
  verdict : Nat := 0
  reason  : Nat := 0
  seq     : Nat := 0
  /-- the latest pass that reached a verdict, for the SPDM measurements (R269) -/
  last    : Option Pass := none
  deriving DecidableEq, Repr

/-! ### Ledger (R261-R273) -/

/-- A slot of the ledger: what is programmed from its first byte, body and both signatures, and the 32 bytes at 8,160 (R264). -/
structure LSlot where
  record : Bytes
  commit : Bytes := []
  deriving DecidableEq, Repr

/-- A dual signature that the island's engines make outside a pass: what is signed, the hedge, and the model tick of its last tick (R138, R163). -/
structure SignJob where
  body : Bytes
  rnd  : Bytes
  due  : Nat
  deriving DecidableEq, Repr

structure Ldg where
  passc   : Bool := false
  full    : Bool := false
  newest  : Nat := 0
  ack     : Nat := 0
  lost    : Nat := 0
  ring    : Nat := 0
  /-- the programmed slots of 4,096 -/
  slots   : Tbl LSlot := []
  priorFail : Bool := false
  /-- selectors of HOST, BMC and OFFICER (entry 0x3021) -/
  sel     : Vector Nat 3 := Vector.replicate 3 0
  /-- a summary is to be built after the latest commit; one that is being signed (R270) -/
  sumDue  : Bool := false
  sumSign : Option SignJob := none
  /-- the active manifest and the committed one of the other copy; the number of the copy that is active; the body programmed into the other copy
  without its commit (R250) -/
  manifest : Bytes := []
  other   : Bytes := []
  manCopy : Nat := 0
  manBody : Bytes := []
  refusal : Nat := 0
  deriving DecidableEq, Repr

/-! ### Package flash (R446-R467) -/

/-- How far the command sequence of R452 has come. -/
inductive PSeq where
  | idle | key0 | key1 | cmd (code : Nat) | addr (code a : Nat)
  deriving DecidableEq, Repr

structure FlashOp where
  code : Nat
  addr : Nat
  data : Bytes := []
  /-- controller cycles left, and the model tick in which it began -/
  left : Nat
  startAt : Nat
  notErased : Bool := false
  /-- the physical offset, which the swap state gave at its start -/
  phys    : Nat := 0
  /-- island firmware issues it for a firmware update (R464) -/
  own : Bool := false
  deriving DecidableEq, Repr

/-- The image a boot block was shipped with (R462, R463): it verifies until a command changes the block; the ranges of the block, by offset, that hold
nothing of it; its SVN, version and FWDIG (log 16). -/
structure Image where
  good    : Bool := false
  gone    : List (Nat × Nat) := [(0, 0x40000)]
  svn     : Nat := 0
  version : BitVec 32 := 0
  digest  : Bytes := []
  deriving DecidableEq, Repr

structure Pfl where
  seq     : PSeq := .idle
  buf     : Vector (BitVec 32) 8 := Vector.replicate 8 0
  err     : Bool := false
  clamped : Bool := false
  ue      : Bool := false
  swpend  : Bool := false
  /-- physical copy at the active offsets, as read from the swap pair at the last reset -/
  active  : BitVec 1 := 0
  /-- the swap pair's valid copies -/
  pairA   : Option (BitVec 16) := some 0
  pairB   : Option (BitVec 16) := none
  /-- a swap-pair write under way: cycles left -/
  swapping : Option Nat := none
  res     : Nat := 0
  op      : Option FlashOp := none
  queued  : Option FlashOp := none
  /-- cycles of the last tick left over when the running operation ended -/
  carry   : Nat := 0
  ws      : BitVec 3 := 7
  ueAddr  : BitVec 26 := 0
  ce      : BitVec 16 := 0
  uec     : BitVec 16 := 0
  /-- die contents by physical offset (an unlisted byte is erased, log 7), and the units that have been programmed -/
  die     : List (Nat × Byte) := []
  written : Tbl Bool := []
  /-- ranges of physical offsets left undefined by a power loss (R460) -/
  undef   : List (Nat × Nat) := []
  /-- line buffer of each island core and, at 66, of the gallery, by line number + 1 -/
  lines   : Tbl Nat := []
  /-- lines whose ECC has been found other than clean, by physical line number (R459, log 80) -/
  ecc     : Tbl LineEcc := []
  /-- the two physical boot copies -/
  boot    : Vector Image 2 := #v[{ good := true, gone := [] }, {}]
  /-- firmware update (R464): bytes announced, bytes received; twin sectors still to be erased; the commands that island firmware has still to
  issue; one has ended with a status other than OK; the END that waits for them, with its version byte and whether the read-back agrees; the refusal
  code; SVN of the running image -/
  upd     : Option (Nat × Bytes) := none
  updErase : Nat := 0
  updTodo : List FlashOp := []
  updBad  : Bool := false
  updEnd  : Option (Req × Nat × Bool) := none
  refusal : Nat := 0
  svn     : Nat := 0
  deriving DecidableEq, Repr

/-! ### Custodian ports (R319-R347) -/

/-- An exchange under way on a port. -/
inductive CardCmd where
  | none | raw | select | getCred | auth | readObj (obj : Nat) | writeObj (obj : Nat) | checkObj (obj : Nat)
  deriving DecidableEq, Repr

/-- The card session of a port (R321, R322). -/
structure Sess where
  busy     : CardCmd := .none
  selected : Bool := false
  /-- identifier and public key, once GET_CRED has succeeded and the credential is accepted -/
  cred     : Bytes := []
  purpose  : Nat := 0
  lease    : Nat := 0xFF
  chal     : Bytes := []
  ephPriv  : Bytes := []
  cardEph  : Bytes := []
  sig      : Bytes := []
  /-- model tick at which the signature check began -/
  verifyAt : Option Nat := none
  authed   : Bool := false
  key      : Bytes := []
  bodies   : Nat := 0
  /-- bytes of a response that GET RESPONSE is still to fetch (R324) -/
  more     : Option Nat := none
  /-- SEQ of the PREPARED record of a WRITE_OBJ under way -/
  prepared : Nat := 0
  /-- retransmissions of the T=1 block under way (R329) -/
  tries    : Nat := 0
  /-- the header has been resent after SW 0x6Cxx, and what GET RESPONSE has fetched so far (R324) -/
  resent   : Bool := false
  got      : Bytes := []
  /-- multiplier of an S(WTX request), for the next BWT (R329) -/
  wtx      : Nat := 1
  deriving DecidableEq, Repr

/-- CRD_STAT.STATE. -/
inductive CrdState where
  | off | activating | atr | pps | ready | exchange | deactivating
  deriving DecidableEq, Repr

def CrdState.code : CrdState → Nat
  | .off => 0 | .activating => 1 | .atr => 2 | .pps => 3 | .ready => 4 | .exchange => 5 | .deactivating => 6

structure Crd where
  lock    : Bool := false
  classes : BitVec 3 := 7
  present : Bool := false
  st      : CrdState := .off
  /-- CRD_STAT.CLASS: 1 A, 2 B, 3 C -/
  cls     : Nat := 0
  /-- an invalid ATR has had its warm reset; a failed PPS has had its cold reset -/
  warm    : Bool := false
  cold    : Bool := false
  proto   : Bool := false
  fi      : Nat := 0
  di      : Nat := 1
  /-- PPS1 of a PPS request under way -/
  pps     : Nat := 0
  /-- T=1 (R329): CRC in place of LRC; IFSC; IFSD; attempts of the S(IFS request) under way; the device's N(S), and the one it expects -/
  crc     : Bool := false
  ifsc    : Nat := 32
  ifsd    : Nat := 32
  ifsTry  : Nat := 0
  ns      : Nat := 0
  nr      : Nat := 0
  /-- model ticks in which RST rises and in which a deactivation has completed (R325, R330) -/
  rstAt   : Nat := 0
  offAt   : Nat := 0
  res     : Nat := 0
  tx      : BitVec 12 := 0
  rx      : BitVec 12 := 0
  buf     : Tbl Byte := []
  sess    : Sess := {}
  deriving DecidableEq, Repr

/-- CTL_STAT.STATE. -/
inductive CtlState where
  | off | lpcd | poll | anticoll | ready | exchange
  deriving DecidableEq, Repr

def CtlState.code : CtlState → Nat
  | .off => 0 | .lpcd => 1 | .poll => 2 | .anticoll => 3 | .ready => 4 | .exchange => 5

structure Ctl where
  lock    : Bool := false
  lpcd    : Bool := false
  thresh  : BitVec 8 := 0x18
  period  : BitVec 8 := 0x1E
  st      : CtlState := .off
  card    : Bool := false
  rate    : Nat := 0
  res     : Nat := 0
  tx      : BitVec 12 := 0
  rx      : BitVec 12 := 0
  buf     : Tbl Byte := []
  /-- antenna reference, once a first ping has set it; the last measurement -/
  ref     : Option Nat := none
  lastPing : Nat := 0
  /-- WUPAs sent, REQAs without an answer, cards of this field session -/
  wupas   : Nat := 0
  reqas   : Nat := 0
  cards   : Nat := 0
  /-- cascade level (1 to 3), the bits known at it, the UID bytes of the levels before -/
  level   : Nat := 1
  bits    : List Bool := []
  uid     : Bytes := []
  sess    : Sess := {}
  deriving DecidableEq, Repr

/-- TAG_STAT.TSTATE. -/
inductive TagState where
  | off | idle | ready | active | halt
  deriving DecidableEq, Repr

def TagState.code : TagState → Nat
  | .off => 0 | .idle => 1 | .ready => 2 | .active => 3 | .halt => 4

/-- A copy of a tag area with its header (R340, R341). -/
structure TagCopy where
  valid : Bool := false
  seq   : BitVec 32 := 0
  /-- the first LEN bytes of the copy, and the bytes beyond -/
  data  : Bytes := []
  rest  : Bytes := []
  /-- CHECK of a header that was left standing over a copy that has been half-written since (R343) -/
  check : Option Bytes := none
  deriving DecidableEq, Repr

/-- All that the copy holds. -/
def TagCopy.bytes (x : TagCopy) : Bytes := x.data ++ x.rest

/-- A commit under way (R341, R343). -/
structure TagCommit where
  area  : Nat
  copy  : Nat
  data  : Bytes
  at_   : Nat
  /-- what waits for it: 0 nothing, 1 summary, 2 service area, 3 password, 4 attempts reset -/
  why   : Nat := 0
  deriving DecidableEq, Repr

structure Tag where
  st      : TagState := .off
  /-- the HALT state was entered from ACTIVE; the application is selected; functions granted -/
  app     : Bool := false
  noteOk  : Bool := false
  svcOk   : Bool := false
  stage   : Bytes := []
  /-- copy served to the field in this ACTIVE session, by area -/
  served  : Tbl Nat := []
  /-- copy c of area a at 2 a + c -/
  copies  : Tbl TagCopy := []
  notePw  : Nat := 0
  svcPw   : Nat := 0
  commit  : Option TagCommit := none
  /-- 0 OK, 1 TAG_BUSY, 2 in progress -/
  wres    : Nat := 0
  wbuf    : Tbl Byte := []
  /-- summary and service data that await a retry (R271) -/
  sumPend : Option Bytes := none
  svcPend : Option Bytes := none
  deriving DecidableEq, Repr

/-! ### Custodians (R220-R225, R319-R334) -/

/-- A collection under way (R221, R223, R409). -/
structure Collect where
  /-- 0 lease grant, 1 officer grant, 2 officer unlock -/
  purpose : Nat
  lease   : Nat
  /-- positions that have counted -/
  counted : List Nat
  endFrame : Nat
  /-- the parameters of the request: SCOPE, USES, FRAMES; or the ceremony's scope mask and endpoint -/
  scope   : Nat := 0
  uses    : Nat := 0
  frames  : Nat := 0
  endpoint : Nat := 0
  /-- the endpoint has been reset since, and gets no binding (R350) -/
  unbound : Bool := false
  deriving DecidableEq, Repr

/-- An open ceremony (R223-R225, R331). -/
structure Ceremony where
  scope  : BitVec 64
  number : Nat
  opened : BitVec 64
  /-- frame of the opening or of the last officer action -/
  lastFrame : Nat
  endpoint : Nat
  officers : List Nat := []
  /-- 16-byte operation records, all of them counted, the first ten kept -/
  ops    : List Bytes := []
  opCount : Nat := 0
  deriving DecidableEq, Repr

/-- A key-loading ceremony under way (R224, R323). -/
structure KeyLoad where
  lease  : Nat
  target : Nat
  parent : Nat
  type   : Nat
  len    : Nat
  attr   : BitVec 16
  c      : Nat
  /-- the device generates the key; components still to be written to cards -/
  gen    : Bool
  parts  : List Bytes := []
  /-- positions of the custodians whose component has been read, or has reached DONE or VERIFIED -/
  done   : List Nat := []
  /-- XOR of the components read, or the generated value -/
  value  : Bytes
  /-- SEQ of the newest journal record at its beginning -/
  since  : Nat := 0
  deriving DecidableEq, Repr

/-- A record of the custodian journal (R331). -/
structure CRec where
  seq   : Nat
  time  : BitVec 64
  /-- 1 PREPARED, 2 DONE, 3 NOT_DONE, 4 UNCONFIRMED, 5 VERIFIED, 6 FAILED, 7 SUMMARY; 0 for one that a flash command has erased -/
  kind  : Nat
  obj   : Nat := 0
  port  : Nat := 0
  lease : Nat := 0xFF
  card  : Bytes := []
  check : Bytes := []
  ref   : Nat := 0
  record : Bytes := []
  /-- its 32-byte commit, empty until it is programmed -/
  commit : Bytes := []
  deriving DecidableEq, Repr

structure Cust where
  /-- the officer quorum (R320) -/
  m        : Nat := 0
  n        : Nat := 0
  creds    : List Bytes := []
  keyLoad  : Option KeyLoad := none
  /-- number of the current or last ceremony -/
  number   : Nat := 0
  /-- endpoint bound to the ceremony (R350) -/
  bind     : Option Nat := none
  collect  : Option Collect := none
  ceremony : Option Ceremony := none
  /-- scope of a ceremony that opened in this tick: its leases pause at the tick's boundary (R223) -/
  pausing  : Option (BitVec 64) := none
  journal  : List CRec := []
  /-- half of the journal region in use (R447), and the newest SEQ at the last compaction -/
  side     : Nat := 0
  lastSeq  : Nat := 0
  /-- the need of R325 stood at the end of the last tick -/
  needed   : Bool := false
  deriving DecidableEq, Repr

/-- An open segmented write (R363). -/
structure Session where
  index : Nat
  sub   : Nat
  total : Nat
  data  : Bytes := []
  /-- frame of the last segment -/
  frame : Nat
  deriving DecidableEq, Repr

/-- A dictionary endpoint: 0 is I3C/SMBus, 1 the PF, n + 2 the VF of lease n (R349). -/
structure Ep where
  /-- the major chosen by HELLO, with its highest minor -/
  ver  : Option (Nat × Nat) := none
  eid  : Nat := 0
  sess : Option Session := none
  /-- TAGs of the requests of this tick, which stand outstanding until its boundary (R358, R359) -/
  tags : List (BitVec 8) := []
  deriving DecidableEq, Repr

structure Dic where
  lock  : Bool := false
  /-- DIC_CTL.MGTEN, PFEN, VFEN -/
  mgtEn : Bool := true
  pfEn  : Bool := true
  vfEn  : Bool := true
  reqs  : BitVec 32 := 0
  eps   : Tbl Ep := []
  /-- generation of the DOMAIN object at 256 index + subindex (R362) -/
  gens  : Tbl (BitVec 32) := []
  /-- entry 0x2020: grant collection window in frames -/
  window : Nat := 91553
  /-- the export of entry 0x5010, with the generation it was built for (R407); the one being built, its bodies and the signature of its head; a read
  has asked for it -/
  export5010 : Option (BitVec 32 × Bytes) := none
  exportDue : Bool := false
  exportSign : Option (BitVec 32 × Bytes × SignJob) := none
  /-- binding of the I3C/SMBus pins, true for SMBus, from the first transaction after the reset (R353) -/
  smbus  : Option Bool := none
  deriving DecidableEq, Repr

/-! ### SPDM (R369-R371) -/

/-- A secured session: its identifier and the transport it belongs to. -/
structure SSess where
  id    : Nat
  /-- the connection it was made on -/
  conn  : Nat
  est   : Bool
  secret : Bytes
  half  : Option (Bytes × Bytes) := none
  deriving DecidableEq, Repr

/-- One SPDM connection: 0 DOE on the PF, 1 MCTP on the PF, 2 MCTP on I3C/SMBus. -/
structure SConn where
  /-- 0 nothing, 1 version, 2 capabilities, 3 algorithms negotiated -/
  phase : Nat := 0
  ver   : Nat := 0
  /-- 1 Ed25519, 2 P-384 -/
  asym  : Nat := 0
  /-- DMTF measurements were agreed on, with SHA-384; secp384r1 and AES-256-GCM were (R369) -/
  meas  : Bool := false
  keys  : Bool := false
  /-- SHA-384 of the most recent signed message, and its ML-DSA-65 signature -/
  half  : Option (Bytes × Bytes) := none
  deriving DecidableEq, Repr

/-- A signed response in the making (R370): where it goes, its message and body, the classical signature and whether it verified, the inputs of
the ML-DSA-65 half, the session it opens, and the model tick in which the longer half ends. -/
structure Signing where
  conn : Nat
  sess : Option Nat
  code : Nat
  p1   : Nat
  msg  : Bytes
  body : Bytes
  sig  : Bytes
  good : Bool
  xi   : Bytes
  rnd  : Bytes
  session : Option SSess
  due  : Nat
  deriving DecidableEq, Repr

structure Spdm where
  conns    : Tbl SConn := []
  sessions : List SSess := []
  nextId   : Nat := 1
  /-- version of the most recent connection (entry 0x1002) -/
  ver      : Nat := 0
  /-- link IDE stream keys, as programmed by IDE_KM (R371) -/
  ide      : Option Bytes := none
  signing  : Option Signing := none
  deriving DecidableEq, Repr

/-! ### The register bus (R12) -/

/-- Who makes a register access (R13, R70): a bench core, an island core, the island's DMA, a PCIe function over its
BAR (0 the PF, n + 1 the VF of lease n). -/
inductive Bus where
  | ok (data : Bytes)
  | decode | bankBusy | held | range
  deriving DecidableEq, Repr

/-- What R12 keeps for one master: the register whose bytes a read latched, and the bytes a write has staged. -/
structure Latch where
  addr  : Nat
  bytes : Bytes
  deriving DecidableEq, Repr

/-- The default of an MSI-X table entry: masked, as the PCI Express base specification has it after reset (log 17). -/
def msixReset : BitVec 128 := BitVec.ofNat 128 (2 ^ 96)

/-- The link (R66, R68, R70): whether it is up, NumVFs, and the MSI-X table and pending bits; entry v of function f
stands at 64 f + v. -/
structure Link where
  up     : Bool := false
  /-- the rate it trained at, 1 to 5 for 2.5, 5, 8, 16 and 32 GT/s, and its lanes, 1, 2, 4 or 8; 0 while it is down -/
  rate   : Nat := 0
  width  : Nat := 0
  /-- the queue, 8 k + q, that has had the last turn of fetch (R82); the first search starts at queue 0 of lease 0 -/
  turn   : Nat := 511
  numVfs : Nat := 0
  msix   : Tbl (BitVec 128) := []
  pba    : Tbl Bool := []
  deriving DecidableEq, Repr

structure BusSt where
  /-- by master; the pair latched of the staging log (R415) stands at 1,024 + master -/
  latch  : Tbl (Option Latch) := []
  /-- staged bytes by master, register address and byte -/
  staged : Tbl (Tbl (Tbl Byte)) := []
  /-- addresses of the RWS registers written since the reset (R11) -/
  once   : List Nat := []
  deriving DecidableEq, Repr

/-! ### Outputs -/

/-- What the block sends out. The lists hold what was sent in the current tick. -/
structure Out where
  bus    : Bus := .ok []
  /-- MSI-X messages: function, vector -/
  msix   : List (Nat × Nat) := []
  /-- DMA writes to host memory: requester function, address, bytes -/
  writes : List (Nat × Nat × Bytes) := []
  /-- DMA reads of host memory: requester function, address, length -/
  reads  : List (Nat × Nat × Nat) := []
  ibi    : Bool := false
  dic    : Bytes := []
  spdm   : Bytes := []
  card   : Bytes := []
  reader : Bytes := []
  tag    : Bytes := []
  tap    : Bytes := []
  deriving DecidableEq, Repr

end Sys2Proof.Machine
end

