-- ==== Sys2Proof/Machine/WorkState.lean ====
section
/-! DEFINITION. State of the work the device does: haul queues and commands, engines and their jobs, digest contexts,
the key yard, and the random chain. -/

namespace Sys2Proof.Machine
open Sys2Proof

/-! ### Key yard (R196-R219) -/

/-- A slot (R198): header fields and value. -/
structure Slot where
  type    : Nat := 0
  len     : Nat := 0
  owner   : Nat := 0xFF
  depth   : Nat := 0
  gen     : BitVec 16 := 0
  parent  : Nat := 0
  pgen    : BitVec 16 := 0
  attr    : BitVec 16 := 0
  run     : Nat := 0
  durable : Bool := false
  pending : Bool := false
  retired : Bool := false
  yOdd    : Bool := false
  created : Nat := 0
  value   : Bytes := []
  deriving DecidableEq, Repr

/-- Progress of a PENDING slot's check (R214): the slot, the tick island firmware took it up, its end, its outcome. -/
structure PendCheck where
  slot  : Nat
  /-- it came by KEY_UNWRAP, so its public part is compared and not written -/
  unwrap : Bool
  endAt : Option Nat := none
  deriving DecidableEq, Repr

/-- A load port (R212); key = lease, 64 for the island. -/
structure LoadPort where
  src    : BitVec 64 := 0
  status : Nat := 0
  /-- 0 IDLE, 1 BUSY, 2 DONE -/
  state  : Nat := 0
  ref    : BitVec 32 := 0
  own    : Nat := 0
  ctl    : BitVec 64 := 0
  bench  : Nat := 0
  goAt   : Nat := 0
  deriving DecidableEq, Repr

/-- A record of the persistent store (R218): what it says of a slot, none for a tombstone; the bedrock generation it was written under; its 192-byte
body and its 32-byte commit, which is empty until it is programmed. -/
structure StoreRec where
  seq  : Nat
  slot : Nat
  key  : Option Slot
  bedGen : BitVec 16
  body : Bytes
  commit : Bytes := []
  /-- erased by a flash command, or a body without a commit that a start has discarded -/
  dead : Bool := false
  deriving DecidableEq, Repr

structure Yard where
  slots  : Tbl Slot := []
  /-- writes, invalidations and sweeps that take effect from the next tick (R205) -/
  next   : List (Nat × Slot) := []
  /-- reserved slots, and those whose reservation ends with this tick (R205) -/
  resv   : List Nat := []
  freed  : List Nat := []
  pos    : Nat := 0
  /-- frame whose slots have been examined last -/
  swept  : Option Nat := none
  passes : BitVec 16 := 0
  orph   : BitVec 32 := 0
  stored : Bool := false
  ports  : Tbl LoadPort := []
  checks : List PendCheck := []
  /-- slots whose change awaits a store record (R218), oldest first -/
  toStore : List (Nat × Option Slot) := []
  store  : List StoreRec := []
  storeSeq : Nat := 0
  /-- records written in the half in use, and which half that is (R447) -/
  half   : Nat := 0
  side   : Nat := 0
  deriving DecidableEq, Repr

/-! ### Haul queues and commands (R66-R118) -/

/-- HQ_QSTAT_q.STATE. -/
inductive QState where
  | disabled | active | parked | error | quarantined | dry | resetting
  deriving DecidableEq, Repr

def QState.code : QState → Nat
  | .disabled => 0 | .active => 1 | .parked => 2 | .error => 3 | .quarantined => 4 | .dry => 5 | .resetting => 6

/-- What one entry of a batch contributed when it completed (R88). -/
structure EntryRes where
  idx      : Nat
  tag      : BitVec 32
  status   : Nat
  owned    : Nat
  attempts : Nat
  wake     : Nat
  staging  : Nat
  outLen   : Nat
  deriving DecidableEq, Repr

/-- A format-3 batch whose completion is not written yet. -/
structure Batch where
  id     : Nat
  /-- number of its first entry -/
  first  : Nat
  closed : Bool := false
  count  : Nat := 0
  lastTag : BitVec 32 := 0
  res    : List EntryRes := []
  deriving DecidableEq, Repr

structure Queue where
  sqBase : BitVec 64 := 0
  cqBase : BitVec 64 := 0
  /-- HQ_CQBASE_q as the ENABLE took it (R72) -/
  cqRing : BitVec 64 := 0
  cfg    : BitVec 64 := 0
  state  : QState := .disabled
  cerr   : Nat := 0
  major  : Nat := 0
  minor  : Nat := 0
  sqHead : BitVec 32 := 0
  cqTail : BitVec 32 := 0
  db     : BitVec 32 := 0
  cqDb   : BitVec 32 := 0
  /-- accepted doorbells that still cover unread entries: value, model tick -/
  dbs    : List (BitVec 32 × Nat) := []
  /-- completions reserved for fetched entries (R84) -/
  reserved : Nat := 0
  /-- a doorbell was refused (R80), and since then fetch has met an entry that reaches beyond the last accepted count -/
  dbErr  : Bool := false
  cut    : Bool := false
  /-- fetch met a malformed entry, or a failed read of one: its TAG and status (R79, R85) -/
  malformed : Option (BitVec 32 × Nat) := none
  /-- the error completion has been written -/
  errDone : Bool := false
  unann  : Nat := 0
  age    : Nat := 0
  seq    : Nat := 0
  batchId : Nat := 0
  batches : List Batch := []
  deriving DecidableEq, Repr

/-- The classes of engine a command can need (R97, R104). -/
inductive Cls where
  | cutter | splitter | wedge | digest | core | free
  deriving DecidableEq, Repr

/-- One part of a command on one engine (R112): ordinary commands have one. -/
structure Part where
  cls    : Cls
  eng    : Option Nat := none
  ticks  : Nat := 0
  /-- execution ticks it will use in all, known after its first tick; 0 before -/
  total  : Nat := 0
  /-- its outcome, once decided, and whether a check of R98 decided it -/
  status : Option Nat := none
  checkFailed : Bool := false
  /-- model tick of its last execution tick -/
  endAt  : Option Nat := none
  drawn  : Bytes := []
  key    : Option Slot := none
  key2   : Option Slot := none
  /-- the tick of its quantum has been run by the engine (model tick) -/
  lastAt : Nat := 0
  out    : Bytes := []
  deriving DecidableEq, Repr

/-- A command in the device, from the read of its entry to its completion (R26). -/
structure Cmd where
  lease   : Nat
  queue   : Nat
  seq     : Nat
  batch   : Nat
  opcode  : Nat
  flags   : BitVec 8
  tag     : BitVec 32
  yref    : BitVec 32
  /-- entry length in units, and the inline units of it -/
  len     : Nat
  inlineUnits : Nat := 0
  u3      : Bytes
  outAddr : Nat
  outCap  : Nat
  inLen   : Nat
  input   : Bytes
  /-- footprint in blocks, and the staging blocks held; none are held while the command waits for quota (R26) -/
  foot    : Nat
  blocks  : List Nat := []
  held    : Bool := true
  /-- the outcome of the checks of R85 that follow the quota wait -/
  refuse  : Option (Nat × Nat) := none
  dbTick  : Nat
  fetchedAt : Nat
  /-- S of R61, the class chosen, P of R61, the wake ticks -/
  stagedAt : Option Nat := none
  readyAt : Option Nat := none
  wake    : Nat := 0
  staging : Nat := 0
  a       : Part
  b       : Option Part := none
  attempts : Nat := 1
  resv    : List Nat := []
  /-- status and bytes required, once the command has ended -/
  result  : Option (Nat × Nat) := none
  doneAt  : Nat := 0
  out     : Bytes := []
  /-- its queue is being reset: it writes neither output nor completion (R91) -/
  mute    : Bool := false
  /-- the call has passed its checks, and has been delivered to a core (R118, R308) -/
  admitted : Bool := false
  delivered : Bool := false
  /-- the output that a returned call names, copied with its completion: device address, length (R308) -/
  copyFrom : Option (Nat × Nat) := none
  deriving DecidableEq, Repr

/-! ### Engines and jobs (R120-R195). Engine q = 5 n + e (R46); the island's engines are those of "bench" 16, its
expander is expander 16, and island firmware takes the place of a lease under number 64. -/

/-- A job port's STATE. -/
inductive JState where
  | idle | wait | run | done
  deriving DecidableEq, Repr

def JState.code : JState → Nat
  | .idle => 0 | .wait => 1 | .run => 2 | .done => 3

/-- An operand cell with its tags (R120). -/
structure Cell where
  val    : Nat := 0
  limbs  : Nat := 1
  secret : Bool := false
  deriving DecidableEq, Repr

/-- A lease's job port and program record on one engine; key = 65 q + lease. -/
structure Job where
  jaddr  : BitVec 32 := 0
  count  : Nat := 0
  state  : JState := .idle
  status : Nat := 0
  /-- index of the last step run, as JSTAT reports it -/
  step   : Nat := 0
  fc     : BitVec 64 := 0
  n      : Nat := 0
  tk     : BitVec 32 := 0
  /-- index of the next step -/
  idx    : Nat := 0
  eligibleAt : Nat := 0
  needsRng : Bool := false
  refs   : List Nat := []
  /-- the list names a yard reference (R209) -/
  named  : Bool := false
  /-- the engine runs a quantum of this job in the current tick, with this budget of fc left -/
  granted : Bool := false
  budget : Nat := 0
  /-- fc, or whole ticks, left of the step or request under way; none between steps -/
  left   : Option Nat := none
  drawn  : Bytes := []
  key    : Option Slot := none
  /-- a status found while a long step or whole-tick request runs, reported at its end -/
  found  : Option Nat := none
  resv   : List Nat := []
  /-- the job ends at the end of this tick with this status -/
  ending : Option Nat := none
  /-- job ticks of the whole-tick request under way -/
  total  : Nat := 0
  /-- context the digest engine works on in this tick, and bytes a FEED has still to absorb -/
  ctx    : Option Nat := none
  feed   : Nat := 0
  cells  : Tbl Cell := []
  polys  : Tbl (List Nat) := []
  /-- input bytes that the request under way has taken -/
  out    : Bytes := []
  /-- output bytes that it has written -/
  wrote  : Nat := 0
  /-- writes to bench SRAM that take effect at the end of this tick: address, bytes -/
  late   : List (Nat × Bytes) := []
  /-- what this tick's STORE steps and requests have overwritten in bench SRAM, the last first (R141, R166) -/
  undo   : List (Nat × Bytes) := []
  /-- slots that a step or request which ended in this tick has written -/
  made   : List Nat := []
  deriving DecidableEq, Repr

/-- What an engine runs in the current tick. -/
inductive Quantum where
  | none
  | host (cmd : Nat) (lease : Nat) (first : Bool)
  | job (lease : Nat)
  deriving DecidableEq, Repr

structure Engine where
  lock   : Bool := false
  jobs   : Bool := true
  run    : Quantum := .none
  /-- the tick's quantum is borrowed from this lease (R58) -/
  lender : Option Nat := none
  /-- CUT_FCHK.COUNT, or SPL_FCHK.VBR -/
  fchk   : BitVec 32 := 0
  limit  : BitVec 16 := 0
  eccMem : BitVec 16 := 0
  eccCtx : BitVec 16 := 0
  sigs   : BitVec 32 := 0
  atts   : BitVec 32 := 0
  kerase : BitVec 32 := 0
  /-- the quantum of this tick lost its key (R177): the status its command ends with -/
  erased : Option Nat := none
  /-- leases whose records are to be cleared (CTL.CLR) -/
  clr    : List Nat := []
  /-- DIG_OWN bytes, default 0xFF -/
  own    : Tbl Nat := []
  deriving DecidableEq, Repr

/-- DIG_CTX_i.STATE. -/
inductive CtxState where
  | free | open_ | done | cleared
  deriving DecidableEq, Repr

def CtxState.code : CtxState → Nat
  | .free => 0 | .open_ => 1 | .done => 2 | .cleared => 3

/-- A digest context (R183, R190); key = 8 n + i. -/
structure DigCtx where
  state  : CtxState := .free
  alg    : Nat := 0
  outLen : Nat := 0
  compat : Bool := false
  hide   : Bool := false
  keyed  : Bool := false
  eq     : Bool := false
  cmpv   : Bool := false
  trunc  : Bool := false
  decl   : BitVec 32 := 0
  fed    : BitVec 32 := 0
  data   : Bytes := []
  key    : Bytes := []
  custom : Bytes := []
  result : Bytes := []
  deriving DecidableEq, Repr

/-- A held range of a GCM decryption (R174): first and past-the-end address, the bench of its wedge, its lease. -/
structure Held where
  lo    : Nat
  hi    : Nat
  bench : Nat
  lease : Nat
  deriving DecidableEq, Repr

/-! ### Random chain (R227-R240) -/

/-- RNG_STAT.STATE. -/
inductive RState where
  | warmup | test | seeding | run | failed
  deriving DecidableEq, Repr

def RState.code : RState → Nat
  | .warmup => 0 | .test => 1 | .seeding => 2 | .run => 3 | .failed => 4

/-- `len` bytes of an expander's queue: of the bytes that a working state generates, those from `pos` on (R231). -/
structure Seg where
  drbg : Bytes
  pos  : Nat
  len  : Nat
  deriving DecidableEq, Repr

structure Exp where
  ready   : Bool := false
  blocked : Bool := false
  stretch : Bool := false
  /-- the queue, and the CTR_DRBG working state as its last (re)seeding left it -/
  queue   : List Seg := []
  drbg    : Bytes := []
  reqs    : BitVec 32 := 0
  /-- instantiated, and with which nonce (DSP_TICK) -/
  inst    : Option (BitVec 64) := none
  /-- it waits for a seed -/
  asks    : Bool := true
  /-- model tick of its last (re)seeding: that tick makes no requests -/
  seedAt  : Option Nat := none
  /-- a blocked expander has reseeded: READY from the next tick (R233) -/
  readyNext : Bool := false
  deriving DecidableEq, Repr

/-- Bytes in the queue. -/
def Exp.qbytes (x : Exp) : Nat := (x.queue.map Seg.len).sum

/-- The queue has no room for another request of 1 KiB. -/
def Exp.full (x : Exp) : Bool := 31744 < x.qbytes

/-- The tests of one source (R228): its last sample and how often in a row it has come, and the first sample of the window with how often it has
come among the samples of the window so far. -/
structure SrcTest where
  last  : Bool := false
  run   : Nat := 0
  first : Bool := false
  hits  : Nat := 0
  pos   : Nat := 0
  deriving DecidableEq, Repr

/-- A test that a source has failed and whose consequences are still to come: the model tick and the sample of it. -/
structure SrcFail where
  src    : Nat
  apt    : Bool
  tick   : Nat
  sample : Nat
  deriving DecidableEq, Repr

structure Rng where
  state    : RState := .warmup
  autoLeft : Nat := 8
  lock     : Bool := false
  auto     : Bool := true
  mask     : BitVec 16 := 0
  seeds    : BitVec 64 := 0
  excl     : BitVec 16 := 0
  testing  : BitVec 16 := 0
  apt      : Tbl (BitVec 8) := []
  rct      : Tbl (BitVec 8) := []
  /-- model tick r of R235 -/
  start    : Nat := 320
  /-- the pool's seeds, the oldest first; raw bits towards the next seed, those of the current tick among them -/
  pool     : List Bytes := []
  raw      : Nat := 0
  exps     : Tbl Exp := []
  /-- the tests of each source, and the failures they have found (R228) -/
  tests    : Tbl SrcTest := []
  fails    : List SrcFail := []
  /-- model tick at which each source's retest began -/
  retest   : Tbl Nat := []
  /-- a restart is due: its model tick -/
  restartAt : Option Nat := none
  /-- total failure takes effect at the end of this tick (R236) -/
  failPend : Bool := false
  deriving DecidableEq, Repr

end Sys2Proof.Machine
end

