-- ==== Sys2Proof/Machine/State.lean ====
section
/-! DEFINITION. The state of the block: every register, table, store, queue, counter, mode and pin the spec gives it, the bytes it sends out, and
the queue of commands that wait. Plain data; a table lists only the entries that differ from their default, in rising order. -/

namespace Sys2Proof.Machine
open Sys2Proof

/-- The block. Each field's own type names the rules of its parts. -/
structure State where
  /-- variant, stepping, unit identifier, firmware and keys of the vendor (R1, R2, R365) -/
  ident   : Ident := {}
  /-- power, reset pins, mode, and the model's own time base and free-value counter (R434, R474, log 5, log 9) -/
  pw      : Pw := {}
  /-- the dispatcher: tick, tables, plans, re-placements (R44-R61) -/
  dsp     : Dsp := {}
  /-- benches 0 to 15 (R17) -/
  benches : Tbl Bench := []
  /-- Triven cores: 0 to 63 of the benches, 64 and 65 of the island (R19, R276) -/
  cores   : Tbl Core := []
  /-- leases 0 to 63 (R24) -/
  leases  : Tbl Lease := []
  /-- events, fault record, event queue, FAULT_N (R418-R432) -/
  flt     : Flt := {}
  /-- the power manager (R440-R443) -/
  pwr     : Pwr := {}
  /-- the vault domain and the tamper log (R396-R416) -/
  vault   : Vault := {}
  /-- haul queue pairs, pair q of lease k at 8 k + q (R72) -/
  queues  : Tbl Queue := []
  /-- commands read and not completed, by handle (R26), and the next handle -/
  cmds    : Tbl Cmd := []
  nextCmd : Nat := 0
  /-- engines, number 5 n + e (R46), and the job ports of leases on them, at 65 q + k (R142) -/
  engines : Tbl Engine := []
  jobs    : Tbl Job := []
  /-- digest contexts, context i of bench n at 8 n + i (R183) -/
  dig     : Tbl DigCtx := []
  /-- ranges held by GCM decryptions (R174) -/
  held    : List Held := []
  /-- the key yard and its persistent store (R196-R219) -/
  yard    : Yard := {}
  /-- the random chain (R227-R240) -/
  rng     : Rng := {}
  /-- the flash gate (R241-R260) -/
  flg     : Flg := {}
  /-- the ledger (R261-R273) -/
  ldg     : Ldg := {}
  /-- package flash (R446-R467) -/
  pfl     : Pfl := {}
  /-- the contact card port and the contactless reader (R325-R336) -/
  crd     : Crd := {}
  ctl     : Ctl := {}
  /-- the tag (R337-R346) -/
  tag     : Tag := {}
  /-- custodians and ceremonies (R220-R225, R319-R324) -/
  cust    : Cust := {}
  /-- the dictionary (R348-R368) -/
  dic     : Dic := {}
  /-- SPDM connections and sessions (R369-R371) -/
  spdm    : Spdm := {}
  /-- life cycle and identity (R374-R387) -/
  lcs     : LcsSt := {}
  /-- the gallery (R388-R393) -/
  gal     : Gal := {}
  /-- what register reads have latched and writes have staged (R12) -/
  bus     : BusSt := {}
  /-- the PCIe link, NumVFs and MSI-X (R66-R70) -/
  link    : Link := {}
  /-- what the block sends out -/
  out     : Out := {}
  /-- bench memory, staging and island SRAM by device address, in canonical form (R10, log 6) -/
  ram     : List Host.Cell := []
  /-- the commands that wait, first in, first out -/
  pending : List Instr := []
  deriving DecidableEq, Repr

/-- The reasons for which the block would stop. There are none: the spec answers every condition with a status, a bus answer or an event, and
never with a stop. Safe: no claim can rest on a fault. -/
inductive Fault where
  deriving DecidableEq, Repr

/-- The reasons for which a command has no meaning. -/
inductive Refusal where
  /-- The dispatcher raises it for a command that has no meaning yet; no arm does. Safe: it stops where the block goes on. -/
  | notModelled (mnemonic : String)
  deriving DecidableEq, Repr

/-- What a command answers. -/
abbrev Res := Host.Outcome State Fault Refusal

/-- The tag as shipped: the identity area in its first copy, of layout version 1, with the unit identifier and the UID (R340, log 88). -/
def shippedTag (i : Ident) : Tag :=
  { copies := [(2, { valid := true, seq := 1, data := [0x01] ++ fixLen 16 i.unit ++ fixLen 7 i.tagUid })] }

/-- The block right after a main-power reset of a BLANK SV-6480 of stepping B1, with the reset wipe begun (R45, R381, R435; log 10, log 14):
every field at the default its structure gives, the two island cores at theirs (R312), and the tag as shipped (R340). -/
def State.reset : State := { cores := [(64, islandCore), (65, islandCore)], tag := shippedTag {} }

end Sys2Proof.Machine
end

