-- ==== Sys2Proof/Machine/Ops.lean ====
section
/-! DEFINITION. The named operations every family uses: access to the tables of State, time, memory, events and their
actions, the lock latch, random draws, and the end of commands and jobs. -/

namespace Sys2Proof.Machine
open Sys2Proof

/-- The bytes of a text of ASCII characters. -/
def ascii (t : String) : Bytes := t.toList.map fun c => BitVec.ofNat 8 c.toNat

/-- SHA-256, SHA-384 and SHA3-256, by their codes in R106. -/
def sha256 (m : Bytes) : Bytes := fixLen 32 (Config.digestRaw 1 32 m)
def sha384 (m : Bytes) : Bytes := fixLen 48 (Config.digestRaw 2 48 m)
def sha3 (m : Bytes) : Bytes := fixLen 32 (Config.digestRaw 4 32 m)

/-- Both signatures of a dual-signed object verify (R6): Ed25519, then ML-DSA-65 with an empty context, 3,373 bytes in all. -/
def dualOk (ed ml msg sigs : Bytes) : Bool :=
  Config.edVerify ed msg (sigs.take 64) && Config.mldsaVerify ml [] msg (slice sigs 64 3309)

/-! ### Tables of State: one reader, one writer and one modifier each -/

def State.bench (s : State) (n : Nat) : Bench := tget {} s.benches n
def State.setBench (s : State) (n : Nat) (b : Bench) : State := { s with benches := tset {} s.benches n b }
def State.modBench (s : State) (n : Nat) (f : Bench → Bench) : State := s.setBench n (f (s.bench n))

def State.core (s : State) (c : Nat) : Core := tget {} s.cores c
def State.setCore (s : State) (c : Nat) (x : Core) : State := { s with cores := tset {} s.cores c x }
def State.modCore (s : State) (c : Nat) (f : Core → Core) : State := s.setCore c (f (s.core c))

def State.lease (s : State) (k : Nat) : Lease := tget {} s.leases k
def State.setLease (s : State) (k : Nat) (x : Lease) : State := { s with leases := tset {} s.leases k x }
def State.modLease (s : State) (k : Nat) (f : Lease → Lease) : State := s.setLease k (f (s.lease k))

/-- Queue pair q of lease k stands at 8 k + q. -/
def State.queue (s : State) (k q : Nat) : Queue := tget {} s.queues (8 * k + q)
def State.setQueue (s : State) (k q : Nat) (x : Queue) : State := { s with queues := tset {} s.queues (8 * k + q) x }
def State.modQueue (s : State) (k q : Nat) (f : Queue → Queue) : State := s.setQueue k q (f (s.queue k q))

def State.cmd (s : State) (h : Nat) : Option Cmd := tfind s.cmds h
def State.setCmd (s : State) (h : Nat) (c : Cmd) : State := { s with cmds := tput s.cmds h c }
def State.dropCmd (s : State) (h : Nat) : State := { s with cmds := tdel s.cmds h }

def State.engine (s : State) (q : Nat) : Engine := tget {} s.engines q
def State.setEngine (s : State) (q : Nat) (x : Engine) : State := { s with engines := tset {} s.engines q x }
def State.modEngine (s : State) (q : Nat) (f : Engine → Engine) : State := s.setEngine q (f (s.engine q))

/-- The job port of lease k (64: island firmware) on engine q stands at 65 q + k. -/
def State.job (s : State) (q k : Nat) : Job := tget {} s.jobs (65 * q + k)
def State.setJob (s : State) (q k : Nat) (x : Job) : State := { s with jobs := tset {} s.jobs (65 * q + k) x }
def State.modJob (s : State) (q k : Nat) (f : Job → Job) : State := s.setJob q k (f (s.job q k))

/-- Context i of the digest engine of bench n stands at 8 n + i. -/
def State.ctx (s : State) (n i : Nat) : DigCtx := tget {} s.dig (8 * n + i)
def State.setCtx (s : State) (n i : Nat) (x : DigCtx) : State := { s with dig := tset {} s.dig (8 * n + i) x }

def State.slot (s : State) (i : Nat) : Slot := tget {} s.yard.slots i
def State.exp (s : State) (e : Nat) : Exp := tget {} s.rng.exps e
def State.setExp (s : State) (e : Nat) (x : Exp) : State :=
  { s with rng := { s.rng with exps := tset {} s.rng.exps e x } }

/-- Apply `f` once for every number below `n`, in rising order. -/
def forN (n : Nat) (f : Nat → State → State) (s : State) : State := (List.range n).foldl (fun t i => f i t) s

/-- Apply `f` once for every element, in order. -/
def forEach {α : Type} (l : List α) (f : α → State → State) (s : State) : State := l.foldl (fun t x => f x t) s

/-! ### Time (R43-R45, R411) -/

def State.frame (s : State) : Nat := s.dsp.tick.toNat / 256
def State.ftick (s : State) : Nat := s.dsp.tick.toNat % 256

/-- The RTC as TIME64 (R361, R411). -/
def State.time64 (s : State) : BitVec 64 := s.vault.rtc.setWidth 64

/-- Main power is present and SYS_RST_N is high: the modes with main power of R434. -/
def State.mainPower (s : State) : Bool := s.pw.vio3 && s.pw.sysRst && s.pw.pwrok && !s.pw.supplyHold

/-- Island firmware runs: the start work is done, or STANDBY (R435, R436). -/
def State.islandRuns (s : State) : Bool := s.pw.vio3 && s.pw.sysRst && !s.pw.supplyHold && s.pw.stage = .running

/-- The part runs with main power and island firmware is up. -/
def State.running (s : State) : Bool := s.mainPower && s.pw.stage = .running && s.lcs.state ≠ .scrapped

/-- Numbers of benches, leases and slots of the variant (R1). -/
def State.nBench (s : State) : Nat := s.ident.variant.benches
def State.nLease (s : State) : Nat := s.ident.variant.leases
def State.nSlot (s : State) : Nat := s.ident.variant.slots

/-! ### Memory (R10): one byte memory by device address. An unlisted address reads 0 (log 6). -/

abbrev Memory := List Host.Cell

def Memory.get (m : Memory) (a : Nat) : Byte := tget 0 m a
def Memory.set (m : Memory) (a : Nat) (b : Byte) : Memory := tset 0 m a b
/-- The canonical form: addresses strictly rising, no entry equal to what an unlisted address reads as. -/
def Memory.wf (m : Memory) : Bool := twf (0 : Byte) m

def Memory.read (m : Memory) (a n : Nat) : Bytes := (List.range n).map fun i => m.get (a + i)
def Memory.write (m : Memory) : Nat → Bytes → Memory
  | _, [] => m
  | a, b :: r => (m.set a b).write (a + 1) r
def Memory.clear (m : Memory) (lo hi : Nat) : Memory := tclear m lo hi

def State.ramRead (s : State) (a n : Nat) : Bytes := Memory.read s.ram a n
def State.ramWrite (s : State) (a : Nat) (b : Bytes) : State := { s with ram := Memory.write s.ram a b }
def State.ramClear (s : State) (lo hi : Nat) : State := { s with ram := Memory.clear s.ram lo hi }

def benchBase (n : Nat) : Nat := 0x10000000 + n * 0x200000
def pageBase (n p : Nat) : Nat := benchBase n + p * 0x8000
def stagingBase : Nat := 0x20000000
def islandSram : Nat := 0x08000000

/-- The lease that holds page p of bench n in the active tables (R18). -/
def State.pageOwner (s : State) (n p : Nat) : Nat := tget 0xFF s.dsp.page (64 * n + p)

/-- The pages lease k holds on bench n, in rising order; rank r is the r-th of them (R292). -/
def State.pagesOf (s : State) (n k : Nat) : List Nat := (List.range 56).filter fun p => s.pageOwner n p = k

/-- Every byte of the range lies in pages of lease k on bench n; for the island, in island SRAM. -/
def State.inPages (s : State) (n k a len : Nat) : Bool :=
  if n = 16 then islandSram ≤ a && a + len ≤ islandSram + 0x100000
  else
    let o := a - benchBase n
    benchBase n ≤ a && o + len ≤ 56 * 0x8000 && s.pageOwner n (o / 0x8000) = k &&
      (len = 0 || (List.range ((o + len - 1) / 0x8000 - o / 0x8000 + 1)).all
        fun i => s.pageOwner n (o / 0x8000 + i) = k)

/-- The lease that holds core c (R19, R47): 0xFF for none, 64 for the island's cores 64 and 65. -/
def State.coreOwner (s : State) (c : Nat) : Nat := if 64 ≤ c then 64 else tget 0xFF s.dsp.core c

/-- The lease an event of core c is attributed to; none for an island core (R317, R419). -/
def State.coreLease (s : State) (c : Nat) : Nat := if 64 ≤ c then 0xFF else s.coreOwner c

/-- The bench of a core; 16 for an island core. -/
def coreBench (c : Nat) : Nat := if 64 ≤ c then 16 else c / 4

/-- A register with an RWS field has been written (R11). A row that stands for one write-one bit of such a register writes the register with its
other fields as they read, so it counts (log 62). -/
def wrote (addr : Nat) (s : State) : State :=
  if s.bus.once.contains addr then s else { s with bus := { s.bus with once := addr :: s.bus.once } }

/-- Device addresses of BEN_CTL_n, and of register 0 of engine q's block (R13). -/
def benCtl (n : Nat) : Nat := 0x60400000 + 0x80000 * n
def engineCtl (q : Nat) : Nat :=
  if q / 5 = 16 then 0x60200000 + 0x10000 * (if q % 5 ≤ 1 then 0 else q % 5 - 1) else benCtl (q / 5) + 0x10000 * (q % 5 + 1)

/-- The bench is closed to every master: it is quarantined and its wipe has not ended (R35). -/
def State.benchShut (s : State) (n : Nat) : Bool := (s.bench n).state = .quarantined && !(s.bench n).wipeDone

/-! ### Work that may run -/

/-- The bench's entries act (R36, R52): READY, not waiting for a quarantine or for the frame boundary after a return. -/
def State.benchLive (s : State) (n : Nat) : Bool :=
  let b := s.bench n
  n < s.nBench && b.state = .ready && b.qPend.isNone && !b.idleUntilFrame

/-- The lease's work runs: no quarantine, no pause, and a mode with lease work (R37, R102, R223). -/
def State.leaseLive (s : State) (k : Nat) : Bool :=
  let l := s.lease k
  k < s.nLease && !l.quarantined && l.qPend.isNone && !l.paused && s.pw.leaseWork

/-- The lease that owns engine q in frame tick i, 0xFF where the entry acts as IDLE. -/
def State.slotOwner (s : State) (q i : Nat) : Nat :=
  let k := tget 0xFF s.dsp.slt (256 * q + i)
  if s.benchLive (q / 5) && s.leaseLive k then k else 0xFF

/-- The lease holds an engine entry, a core or a page on bench n (R22, R28). -/
def State.holdsEntry (s : State) (n k : Nat) : Bool :=
  s.dsp.slt.any fun e => e.2 = k && e.1 / 256 / 5 = n
def State.holdsBench (s : State) (n k : Nat) : Bool :=
  s.holdsEntry n k || s.dsp.core.any (fun e => e.2 = k && e.1 / 4 = n) ||
    s.dsp.page.any (fun e => e.2 = k && e.1 / 64 = n)

/-! ### Event sources (R418-R421, R140, R165, R193, R274, R467, R416, R240, R347, R317) -/

def benchSev : List Nat :=
  [1, 0, 1, 2, 2, 2, 1, 0, 1, 0, 1, 2, 2, 2, 1, 0, 1, 0, 1, 2, 2, 2, 1, 0,
   1, 0, 1, 0, 0, 1, 2, 0, 1, 0, 0, 1, 0, 2, 1, 0, 1, 1, 1, 1, 0, 1, 1, 0]
/-- Island sources: engines and cores as their bench counterparts, with the LOCKDOWN causes of R419. -/
def islandSev : List Nat :=
  [1, 0, 1, 3, 3, 3, 1, 0, 1, 0, 1, 3, 3, 3, 1, 0, 1, 0, 1, 0, 0, 1, 3, 0, 1, 0, 0, 1, 0, 3, 1, 0,
   1, 1, 1, 1, 0, 1, 1, 0, 1, 1, 1, 1, 0, 1, 1, 0, 1, 1, 2, 1, 1, 1, 1, 1, 1, 1, 1, 3, 3, 1, 0, 3]
def hostSev : List Nat := List.replicate 64 1 ++ [1, 1, 0, 1, 1, 1, 1, 1, 0]
def gateSev : List Nat := [1, 1, 1, 0, 1, 1, 1, 1, 0, 0, 0, 1, 1, 1, 0, 0, 0, 1]
def flashSev : List Nat := [1, 1, 1, 0, 0, 1, 3, 0, 1, 0, 1, 1, 0, 1]
def tamperSev : List Nat :=
  [1, 1, 1, 1, 1, 1, 1, 1, 1, 1, 0, 1, 1, 1, 1, 1, 1, 1, 1, 1, 1, 1, 1, 1, 1, 1, 1, 1,
   3, 1, 1, 1, 1, 0, 0, 1, 1, 0, 1]
def randomSev : List Nat := [0, 0, 0, 0, 0, 0, 0, 0, 0, 0, 0, 0, 0, 0, 0, 0, 1, 1, 0, 1, 0, 0, 1, 1]
def custSev : List Nat := [0, 1, 1, 0, 1, 1, 0, 0, 1, 0, 1, 0, 0, 1, 0, 0, 1, 0, 0, 1]
def powerSev : List Nat := [0, 0, 1, 0, 1, 1, 0, 1, 0]

/-- The severity after reset of event e, and none where no source has that number (R418). -/
def srcTable (e : Nat) : Option Nat :=
  if e < 0x300 then benchSev[e % 48]?
  else if e < 0x380 then islandSev[e - 0x300]?
  else if e < 0x3E0 then hostSev[e - 0x380]?
  else if e < 0x400 then gateSev[e - 0x3E0]?
  else if e < 0x410 then flashSev[e - 0x400]?
  else if e < 0x438 then tamperSev[e - 0x410]?
  else if e < 0x450 then randomSev[e - 0x438]?
  else if e < 0x468 then custSev[e - 0x450]?
  else if e < 0x480 then powerSev[e - 0x468]?
  else none

/-- The source exists on the part (R4, R418): sources of absent benches and leases do not, nor does the clock-glitch source on B0 (R491, log 101). -/
def State.srcPresent (s : State) (e : Nat) : Bool :=
  (srcTable e).isSome && (0x300 ≤ e || e / 48 < s.nBench) && !(0x380 ≤ e && e < 0x3C0 && s.nLease ≤ e - 0x380) &&
    !(e = 0x410 + 26 && s.ident.stepping = .b0)

/-- The least severity a source accepts (R424). -/
def srcFloor (e : Nat) : Nat :=
  if e < 0x300 then (if [3, 4, 5, 11, 12, 13, 19, 20, 21, 30, 37].contains (e % 48) then 2 else 0)
  else if e = 0x300 + 50 then 2
  else if e < 0x380 then
    (if [3, 4, 5, 11, 12, 13, 22, 29, 59, 60, 63].contains (e - 0x300) then 3 else 0)
  else if e = 0x410 + 28 then 3
  else 0

/-- A tamper-group source: its severity and pin flag are held in the vault domain (R424). -/
def isTamper (e : Nat) : Bool := 0x410 ≤ e && e < 0x438

def State.sevOf (s : State) (e : Nat) : Nat :=
  match tget none s.flt.sev e with
  | some v => v.toNat
  | none => (srcTable e).getD 0

/-- BENCH of an event (R422). -/
def eventBench (e : Nat) : Nat := if e < 0x300 then e / 48 else 0xFF

/-! ### Held ranges (R174) -/

/-- Zero the held ranges that satisfy a test, then remove their marks. -/
def dropHeld (p : Held → Bool) (s : State) : State :=
  let t := (s.held.filter p).foldl (fun t x => t.ramClear x.lo x.hi) s
  { t with held := t.held.filter fun x => !p x }

/-- A held byte lies in the range (R174). -/
def State.heldIn (s : State) (a n : Nat) : Option Held := s.held.find? fun x => a < x.hi && x.lo < a + n

/-! ### The lock latch (R400) and what setting it applies -/

/-- The lease whose quantum an engine runs in this tick. -/
def Engine.lease (e : Engine) : Option Nat := match e.run with | .none => none | .host _ k _ => some k | .job k => some k

/-- The record of a job on a wedge is erased: a job under way ends with the status, and writes nothing more. -/
def Job.erased (st : Nat) (ran : Bool) (j : Job) : Job :=
  { j with drawn := [], key := none, out := [], late := [],
           ending := if j.state = .run && (j.ending.isNone || (ran && j.ending = some 0)) then some st else j.ending }

/-- Wedge q erases the records of the leases that match, which WDG_KERASE counts. A quantum of this tick that loses its key gives no output, and
its command or job ends with the catalogue status (R177, log 123). -/
def eraseWedge (q st : Nat) (p : Nat → Bool) (s : State) : State :=
  let hit := fun (e : Engine) => match e.lease with | some k => p k | none => false
  let ran := fun (k : Nat) => (s.engine q).run = .job k
  let s := s.modEngine q fun e => { e with kerase := satAdd e.kerase 1, erased := if hit e then some st else e.erased }
  { s with jobs := s.jobs.map fun e =>
      if e.1 / 65 = q && p (e.1 % 65) then (e.1, e.2.erased (st % 256) (ran (e.1 % 65))) else e }

/-- A job's record holds a key, drawn bytes or data, or the job is under way (R173). -/
def Job.holds (j : Job) : Bool := j.key.isSome || j.drawn ≠ [] || j.out ≠ [] || j.state = .run

/-- Wedge q holds a record of lease k: its job's, or that of a host command that has begun. -/
def State.wedgeHolds (s : State) (q k : Nat) : Bool :=
  (s.job q k).holds || s.cmds.any fun e => e.2.lease = k && e.2.a.eng = some q && 0 < e.2.a.ticks && e.2.result.isNone

/-- A DOMAIN object changes: its generation increases by 1 (R362). -/
def bumpGen (index sub : Nat) (s : State) : State :=
  let i := 256 * index + sub
  { s with dic := { s.dic with gens := tset 0 s.dic.gens i (tget 0 s.dic.gens i + 1) } }

/-- The 256-byte body of a record of the custodian journal (R331). -/
def CRec.bytes (r : CRec) : Bytes :=
  fixLen 64 (leBytes 4 r.seq ++ leBytes 8 r.time.toNat ++ leBytes 1 r.kind ++ leBytes 1 r.obj ++ leBytes 1 r.port ++ leBytes 1 r.lease ++
    fixLen 16 r.card ++ fixLen 8 r.check ++ leBytes 4 r.ref) ++ fixLen 192 r.record

/-- The record with its commit programmed (R331). -/
def CRec.committed (r : CRec) : CRec :=
  if r.commit = [] then { r with commit := [0x43, 0x4A, 0x52, 0x4E] ++ leBytes 4 r.seq ++ (sha3 r.bytes).take 24 } else r

/-- SEQ of the newest record. -/
def Cust.newest (c : Cust) : Nat := (c.journal.map CRec.seq).foldl max c.lastSeq

/-- Append the body of a record to the custodian journal (R331); the generation of entry 0x8020 rises. The commit of a PREPARED record follows at
once, any other at the end of the tick (R332, log 143). -/
def journal (x : CRec) (s : State) : State :=
  let r := { x with seq := s.cust.newest + 1, time := s.time64, commit := [] }
  bumpGen 0x8020 0 { s with cust := { s.cust with journal := s.cust.journal ++ [if x.kind = 1 then r.committed else r] } }

/-- Record an operation of the open ceremony: 1 load, 2 key-loading, 3 quorum write, 4 scrub, 5 component issue (R331). -/
def logOp (op lease : Nat) (ref : Nat) (check : Bytes) (s : State) : State :=
  { s with cust := { s.cust with ceremony := s.cust.ceremony.map fun c =>
      { c with opCount := satNat 255 (c.opCount + 1),
               ops := (c.ops ++ [leBytes 1 op ++ leBytes 1 lease ++ [0, 0] ++ leBytes 4 ref ++ fixLen 8 check]).take 10 } } }

/-- The 192-byte ceremony record (R331). -/
def Ceremony.record (c : Ceremony) (closed : BitVec 64) (reason : Nat) : Bytes :=
  fixLen 192 (leBytes 4 c.number ++ leBytes 8 c.opened.toNat ++ leBytes 8 closed.toNat ++ leBytes 8 c.scope.toNat ++
    leBytes 2 (c.officers.foldl (fun a i => a + 2 ^ i) 0) ++ leBytes 1 reason ++ leBytes 1 c.opCount ++ c.ops.flatten)

/-- Close the open ceremony, with reason 0 command, 1 timeout, 2 LOCKDOWN: its summary goes to the journal, a key-loading ceremony ends
without a slot, leases in scope resume at the next frame boundary (R225, R323, R331). -/
def closeCeremony (reason : Nat) (s : State) : State :=
  match s.cust.ceremony with
  | none => s
  | some c =>
    let s := journal { seq := 0, time := 0, kind := 7, ref := c.number, record := c.record s.time64 reason } s
    let leases := s.leases.map fun (e : Nat × Lease) => if e.2.paused then (e.1, { e.2 with resumeAtFrame := true }) else e
    { s with cust := { s.cust with ceremony := none, bind := none, keyLoad := none, pausing := none }, leases := leases }

/-- The gallery certificate's rights lapse (R388, R400). -/
def lapseGallery (s : State) : State :=
  let t := { s with gal := { s.gal with grant := 0, lease := 0, cert := [] } }
  if s.gal.cert = [] then t else bumpGen 0x9010 1 t

/-- The free bytes numbered from the counter on, and the state with the counter advanced (log 5). -/
def State.freeBytes (s : State) (n : Nat) : Bytes := (List.range n).map fun i => Config.rngByte (s.pw.free + i)
def State.useFree (s : State) (n : Nat) : State := { s with pw := { s.pw with free := s.pw.free + n } }

/-- The latch and its CAUSE, which keeps the first cause; a challenge is due at a setting while powered (R400, R408). -/
def latchOnly (cause : Nat) (s : State) : State :=
  if s.vault.latch then s
  else { s with vault := { s.vault with latch := true, cause := BitVec.ofNat 8 cause, unlockDone := false, latchSeq := 0,
                                        chalDue := s.pw.stage ≠ .off } }

/-- The lease's grant ends; it covers the checks of this tick, and nothing from the next on (R205, R222). -/
def Lease.endGrant (l : Lease) : Lease := { l with grant := none, ending := l.ending.or l.grant }

/-- Set the lock latch with a cause, and apply R177, R222, R225 and R388. -/
def setLatch (cause : Nat) (s : State) : State :=
  let s := latchOnly cause s
  let s := { s with leases := s.leases.map fun e => (e.1, e.2.endGrant) }
  let s := forN 17 (fun n s => if n < s.nBench || n = 16 then eraseWedge (5 * n + 3) 0x0133 (fun _ => true) s else s) s
  lapseGallery (closeCeremony 2 s)

/-! ### Raising an event (R423, R426, R427, R430, R431) -/

/-- Open a record for event e, or merge e into the open one. Events of one tick are taken in ascending number, so an
event of the opening tick below FIRST takes FIRST's place (R426). -/
def recordEvent (e sev lease : Nat) (inj : Bool) (s : State) : State :=
  let g := BitVec.ofNat 64 (2 ^ (e / 18))
  match s.flt.rec_ with
  | none =>
    let r : Rec := { first := e, sev := sev, latch := sev = 3, inj := inj, lease := lease, bench := eventBench e,
                     tick := s.dsp.tick, time := s.time64, groups := g, openedAt := s.pw.now }
    { s with flt := { s.flt with rec_ := some r, notify := some s.pw.now } }
  | some r =>
    let r := { r with also := satAdd r.also 1, groups := r.groups ||| g, sev := max r.sev sev,
                      latch := r.latch || sev = 3, inj := r.inj || inj }
    let r := if r.openedAt = s.pw.now && e < r.first
      then { r with first := e, lease := lease, bench := eventBench e } else r
    { s with flt := { s.flt with rec_ := some r } }

/-- Queue an event, or count it lost (R430). -/
def queueEvent (x : EvEntry) (s : State) : State :=
  if s.flt.queue.length < 64 then { s with flt := { s.flt with queue := s.flt.queue ++ [x] } }
  else
    { s with flt := { s.flt with qlost := satAdd s.flt.qlost 1,
                                 rec_ := s.flt.rec_.map fun r => { r with qlost := true } } }

/-- The bench is to be quarantined at the boundary after this tick: the lowest event number of the tick is the cause,
and a bench that is quarantined already keeps its cause (R34). Its wedge erases at once (R177). -/
def pendBench (n cause : Nat) (s : State) : State :=
  let b := s.bench n
  if b.state = .quarantined then s
  else match b.qPend with
    | none => eraseWedge (5 * n + 3) 0x000A (fun _ => true) (s.setBench n { b with qPend := some (cause, s.pw.now) })
    | some (c, t) => if t = s.pw.now && cause < c then s.setBench n { b with qPend := some (cause, t) } else s

/-- The lease is to be quarantined at the boundary after this tick (R37). Wedges that hold its records erase them at once (R177). -/
def pendLease (k : Nat) (s : State) : State :=
  let l := s.lease k
  if l.quarantined || l.qPend.isSome then s
  else
    forN 16 (fun n t => if t.wedgeHolds (5 * n + 3) k then eraseWedge (5 * n + 3) 0x000A (fun i => i = k) t else t)
      (s.setLease k { l with qPend := some s.pw.now })

/-- The event's count, queue entry, record, pin pulse, quarantine and latch. -/
def raise0 (e lease : Nat) (inj : Bool) (s : State) : State :=
  if !s.srcPresent e || s.pw.stage = .off then s
  else
    let sev := s.sevOf e
    let pin := tget false s.flt.pin e
    let s := { s with flt := { s.flt with count := tset 0 s.flt.count e (satAdd (tget 0 s.flt.count e) 1) } }
    let s := if 1 ≤ sev then recordEvent e sev lease inj s else s
    let s := queueEvent { event := e, sev := sev, lease := lease, tick := s.dsp.tick } s
    let s := if (sev = 3 || pin) && s.mainPower
      then { s with flt := { s.flt with pulseEnd := some (s.pw.now + 40),
                                        pulseFrom := if s.flt.pulseEnd.any (s.pw.now ≤ ·) then s.flt.pulseFrom else s.pw.now + 1 } }
      else s
    let s := if sev = 2 && eventBench e ≠ 0xFF then pendBench (eventBench e) e s else s
    let s := if sev = 2 && lease < 64 then pendLease lease s else s
    if sev = 3 then setLatch (if isTamper e then e - 0x410 else 0xFD) s else s

/-- The number of a bench engine or core event, or of its island counterpart (R419): bench n (16: island), local index. -/
def localEvent (n i : Nat) : Nat :=
  if n < 16 then 48 * n + i
  else if i < 8 then 0x300 + i
  else if 16 ≤ i && i < 40 then 0x300 + (i - 8)
  else 0x300 + (i - 8)

/-- The number of a core's event (R317): bench cores, and the two island cores 64 and 65 (R419). -/
def coreEvent (c i : Nat) : Nat := if c < 64 then 48 * (c / 4) + i else 0x300 + 32 + 8 * (c - 64) + (i - 40)

/-- An operation ends and gives up the reservation of its slots: the checks of the tick still find them reserved (R205). -/
def releaseSlots (l : List Nat) (s : State) : State :=
  { s with yard := { s.yard with freed := s.yard.freed ++ l } }

/-- A job ends with a status: DONE is visible from the next tick (R132). -/
def endJob (q k status : Nat) (s : State) : State :=
  let j := s.job q k
  let s := releaseSlots j.resv s
  s.setJob q k { j with ending := some status, granted := false, budget := 0, left := none, found := none,
                        drawn := [], key := none, resv := [] }

/-- A job that waits or runs, and that no step of this tick has ended. -/
def Job.live (j : Job) : Bool := j.ending.isNone && (j.state = .wait || j.state = .run)

/-- End a job that has not ended; one that ends in this tick keeps its own status (R132). -/
def stopJob (q k status : Nat) (s : State) : State := if (s.job q k).live then endJob q k status s else s

/-- Set the pending bit of vector 16 + i in every core of lease k on bench n (R307). -/
def pendVector (n k i : Nat) (s : State) : State :=
  let cores := if n = 16 then [64, 65] else (List.range 4).map (4 * n + ·)
  cores.foldl (fun t c => if t.coreOwner c = k then t.modCore c fun x => { x with pend := x.pend ||| BitVec.ofNat 7 (2 ^ i) } else t) s

/-- End of tick for a job: DONE with its status, cells 8 to 127 cleared (R122, R132). -/
def closeJob (key : Nat) (j : Job) (s : State) : State :=
  let q := key / 65
  let k := key % 65
  let s := j.late.foldl (fun t x => t.ramWrite x.1 x.2) s
  let j := { j with granted := false, budget := 0, cells := tclear j.cells 8 128, late := [], made := [], undo := [] }
  match j.ending with
  | none => s.setJob q k j
  | some st => pendVector (q / 5) k (q % 5) (s.setJob q k { j with ending := none, state := .done, status := st })

/-- A job under way ends at the tick boundary after model tick `t`: with this tick, or, where it has gone by, at once (R132). -/
def stopJobAfter (t q k status : Nat) (s : State) : State :=
  let u := stopJob q k status s
  if (s.job q k).live && t < s.pw.now then closeJob (65 * q + k) (u.job q k) u else u

/-- Contexts that hold something and match, of all digest engines. -/
def ctxsWhere (s : State) (p : Nat → DigCtx → Bool) : List Nat :=
  (s.dig.filter fun e => p e.1 e.2 && (e.2.state = .open_ || e.2.state = .done)).map Prod.fst

/-- Owner of context x = 8 n + i by DIG_OWN. -/
def State.ctxOwner (s : State) (x : Nat) : Nat := tget 0xFF (s.engine (5 * (x / 8) + 4)).own (x % 8)

/-- Context x is cleared to what `c` says, and a running job on it, of its owner or of island firmware, ends with CTX_CLEARED (R191). -/
def clearCtx (x : Nat) (c : DigCtx) (s : State) : State :=
  let q := 5 * (x / 8) + 4
  let stop := fun (t : State) (k : Nat) =>
    let j := t.job q k
    if k ≤ 64 && j.state = .run && j.ctx = some (x % 8) && j.ending.isNone then endJob q k 0x52 t else t
  [s.ctxOwner x, 64].foldl stop { s with dig := tset {} s.dig x c }

/-- A compatibility clear (R185) of a context that holds something: it enters CLEARED, and local event 35 is raised for the owner, on the island's
engine for none (R419). -/
def compatOne (x : Nat) (s : State) : State :=
  let c := tget {} s.dig x
  if !(c.compat && (c.state = .open_ || c.state = .done)) then s
  else raise0 (localEvent (x / 8) 35) (if x / 8 = 16 then 0xFF else s.ctxOwner x) false
    (clearCtx x { state := .cleared, compat := true } s)

/-- What an event of severity LOCKDOWN clears beside the latch's own work: a gallery certificate's rights, with event 57, and every context (R185,
R388). `held`: a certificate was installed. -/
def lockdownClears (held : Bool) (s : State) : State :=
  let s := if held then raise0 0x339 0xFF false s else s
  let s := (ctxsWhere s fun _ c => !c.compat).foldl (fun t x => clearCtx x {} t) s
  (ctxsWhere s fun _ c => c.compat).foldl (fun t x => compatOne x t) s

/-- Compatibility clears of the contexts listed. Their events may be of severity LOCKDOWN (R185). -/
def compatAll (l : List Nat) (s : State) : State :=
  let t := l.foldl (fun t x => compatOne x t) s
  if s.pw.stage ≠ .off && l.any (fun x => s.sevOf (localEvent (x / 8) 35) = 3) then lockdownClears (s.gal.cert ≠ []) t else t

/-- A compatibility clear of x; its event, at NOTIFY or higher, clears the owner's other COMPAT contexts (R185). -/
def compatClear (x : Nat) (s : State) : State :=
  let k := s.ctxOwner x
  if !(ctxsWhere s fun _ c => c.compat).contains x then s
  else
    let t := compatAll [x] s
    if x / 8 < 16 && k < 64 && 1 ≤ s.sevOf (localEvent (x / 8) 35)
    then compatAll (ctxsWhere t fun y c => c.compat && t.ctxOwner y = k) t else t

/-- Clear every context of the given owners: COMPAT contexts to CLEARED, others to FREE (R182, R185). -/
def clearContexts (p : Nat → Bool) (s : State) : State :=
  let compat := ctxsWhere s fun x c => p x && c.compat
  let native := ctxsWhere s fun x c => p x && !c.compat
  let s := native.foldl (fun t x => clearCtx x {} t) s
  compat.foldl (fun t x => compatClear x t) s

/-- Raise event e, attributed to lease k (0xFF: to none). An event of severity NOTIFY or higher that is attributed to
a lease clears its COMPAT contexts, and LOCKDOWN clears every context (R185). -/
def raiseInj (e k : Nat) (inj : Bool) (s : State) : State :=
  let present := s.srcPresent e && s.pw.stage ≠ .off
  let sev := s.sevOf e
  let held := s.gal.cert ≠ []
  let s := raise0 e k inj s
  let s := if present && 1 ≤ sev && k < 64
    then (ctxsWhere s fun x c => c.compat && s.ctxOwner x = k).foldl (fun t x => compatClear x t) s else s
  if present && sev = 3 then lockdownClears held s else s

def raise (e k : Nat) (s : State) : State := raiseInj e k false s

/-- Events that are attributed to no lease. -/
def raiseDev (e : Nat) (s : State) : State := raise e 0xFF s

/-- Island events 0x0300 + i, host-interface events 0x0380 + i, and the other groups, attributed to none. -/
def raiseIsland (i : Nat) (s : State) : State := raiseDev (0x300 + i) s
def raiseIslandOf (i k : Nat) (s : State) : State := raise (0x300 + i) k s
def raiseHost (i k : Nat) (s : State) : State := raise (0x380 + i) k s
def raiseGate (i : Nat) (s : State) : State := raiseDev (0x3E0 + i) s
def raiseFlash (i : Nat) (s : State) : State := raiseDev (0x400 + i) s
def raiseTamper (i : Nat) (s : State) : State := raiseDev (0x410 + i) s
def raiseRandom (i k : Nat) (s : State) : State := raise (0x438 + i) k s
def raiseCust (i : Nat) (s : State) : State := raiseDev (0x450 + i) s
/-- An event of the tag: silent without main power (R347). -/
def raiseTag (i : Nat) (s : State) : State := if s.mainPower then raiseCust i s else s
def raisePower (i : Nat) (s : State) : State := raiseDev (0x468 + i) s

/-! ### Random draws (R232) -/

/-- The first n bytes of a queue, and what is left of it. -/
def takeSegs (n : Nat) : List Seg → Bytes × List Seg
  | [] => ([], [])
  | x :: r =>
    let bytes := fun (k : Nat) => (List.range k).map fun i => Config.drbgByte x.drbg (x.pos + i)
    if n < x.len then (bytes n, { x with pos := x.pos + n, len := x.len - n } :: r)
    else
      let (b, t) := takeSegs (n - x.len) r
      (bytes x.len ++ b, t)

/-- Draw n bytes from expander e: whole, or not at all. -/
def draw (e n : Nat) (s : State) : Option (Bytes × State) :=
  let x := s.exp e
  if n ≤ x.qbytes then
    let (b, q) := takeSegs n x.queue
    some (b, s.setExp e { x with queue := q })
  else none

/-- Work of n ticks on the island's engines that was ready in tick t0 is done: it is taken up when neither a pass nor a firmware update holds it up
(R252, R465). -/
def State.islandDone (s : State) (t0 n : Nat) : Bool := s.flg.pass.isNone && s.pfl.upd.isNone && max t0 s.flg.idleAt + n ≤ s.pw.now

/-- No firmware update is under way any more; an operation that has started runs on, and island work that waited is taken up (R464, R465). -/
def endUpdate (s : State) : State :=
  { s with pfl := { s.pfl with upd := none, updErase := 0, updTodo := [], updBad := false, updEnd := none },
           flg := { s.flg with idleAt := s.pw.now } }

/-- Bank b runs an operation in this tick: ERASE_CHIP takes the banks in turn (R451, R455). -/
def State.bankBusy (s : State) (b : Nat) : Bool :=
  match s.pfl.op with
  | none => false
  | some o =>
    o.startAt ≤ s.pw.now && (if o.code = 0x2F then b = (32000000 - o.left) / 8000000 else b = o.addr / 0x1000000)

/-- The island expander can serve a draw of n bytes. -/
def State.islandHas (s : State) (n : Nat) : Bool := n ≤ (s.exp 16).qbytes

/-- Island firmware's draw. Its work waits until the expander can serve it, which every caller tests (R232); the free bytes stand for no draw. -/
def drawIsland (n : Nat) (s : State) : Bytes × State :=
  match draw 16 n s with
  | some r => r
  | none => (s.freeBytes n, s.useFree n)

/-- The challenges that are due are drawn, each when the expander can serve it (R232, R388, R408). -/
def drawDue (s : State) : State :=
  let s := if s.gal.chalDue then
      (match draw 16 32 s with | some (b, t) => { t with gal := { t.gal with chal := b, chalDue := false } } | none => s) else s
  if s.vault.chalDue then
    (match draw 16 32 s with | some (b, t) => { t with vault := { t.vault with chal := b, chalDue := false } } | none => s) else s

/-! ### Interrupt messages and host writes -/

/-- Send vector `vec` of a function, or set its pending bit where the vector is masked (R89). -/
def sendMsix (fn vec : Nat) (s : State) : State :=
  if (tget msixReset s.link.msix (64 * fn + vec)).getLsbD 96
  then { s with link := { s.link with pba := tset false s.link.pba (64 * fn + vec) true } }
  else { s with out := { s.out with msix := s.out.msix ++ [(fn, vec)] } }

/-- An MSI-X message of a lease's queue-event vector (R89). -/
def sendQev (k : Nat) (s : State) : State := sendMsix (k + 1) (s.lease k).qev.toNat s

/-- A DMA write for lease k with the requester ID of its VF (R67). -/
def hostWrite (k addr : Nat) (b : Bytes) (s : State) : State :=
  if b = [] then s else { s with out := { s.out with writes := s.out.writes ++ [(k + 1, addr, b)] } }

/-- A DMA read for lease k, with the requester ID of its VF (R67). -/
def hostRead (k addr n : Nat) (s : State) : State :=
  if n = 0 then s else { s with out := { s.out with reads := s.out.reads ++ [(k + 1, addr, n)] } }

/-! ### The end of a command -/

/-- A part whose record no longer holds keys or drawn bytes (R173). -/
def Part.wiped (p : Part) : Part := { p with key := none, key2 := none, drawn := [] }

/-- A part that is assigned to no engine (R56). -/
def Part.unassigned (p : Part) : Part := { p with eng := none }

/-- A command back in the state before yard residency, its staged data kept: no S, no P, no wake ticks, no engine, no call check passed (R35,
R39, R56). -/
def Cmd.unstaged (c : Cmd) : Cmd :=
  { c with stagedAt := none, readyAt := none, wake := 0, admitted := false, a := c.a.unassigned, b := c.b.map Part.unassigned }

/-- A command ends with a status (and, under OUT_SMALL, the bytes it needs), its last tick being model tick `at_`; its completion follows. No
key and no drawn byte stays in its record (R173). -/
def endCmdAt (at_ h status need : Nat) (out : Bytes) (s : State) : State :=
  match s.cmd h with
  | none => s
  | some c =>
    if c.result.isSome then s
    else
      let s := releaseSlots c.resv s
      s.setCmd h { c with result := some (status, need), out := if status = 0 then out else [],
                          doneAt := at_, resv := [], a := c.a.wiped, b := c.b.map Part.wiped }

/-- A command ends in this tick. -/
def endCmd (h status need : Nat) (out : Bytes) (s : State) : State := endCmdAt s.pw.now h status need out s

/-- Owned ticks of a command: those of its parts (R112). -/
def Cmd.owned (c : Cmd) : Nat := c.a.ticks + (c.b.map Part.ticks).getD 0

/-- The commands of the device that satisfy a test, in order of their handles. -/
def State.cmdsWhere (s : State) (p : Cmd → Bool) : List Nat := (s.cmds.filter fun e => p e.2).map Prod.fst

/-- The command is executing: it has used a tick and has not ended. -/
def Cmd.executing (c : Cmd) : Bool := c.result.isNone && (0 < c.owned || c.delivered)

/-- Home bench of a queue (HQ_QCFG.HOME). -/
def Queue.home (x : Queue) : Nat := (x.cfg.toNat / 2 ^ 12) % 16
def Queue.depth (x : Queue) : Nat := 2 ^ (x.cfg.toNat % 32)

def State.cmdHome (s : State) (c : Cmd) : Nat := (s.queue c.lease c.queue).home

end Sys2Proof.Machine
end

