-- ==== Sys2Proof/Machine/Request.lean ====
section
/-! DEFINITION. Dictionary requests: roles, the checks every request passes, and its answer (R349-R359). -/

namespace Sys2Proof.Machine
open Sys2Proof

/-- The status values of R356. -/
inductive DStat where
  | ok | pending | noVersion | noCommonVersion | malformed | noEntry | denied | type | range | busy | state
  | changed | noSession | refused | tooLarge
  deriving DecidableEq, Repr

def DStat.code : DStat → Nat
  | .ok => 0x00 | .pending => 0x01 | .noVersion => 0x02 | .noCommonVersion => 0x03 | .malformed => 0x04
  | .noEntry => 0x05 | .denied => 0x06 | .type => 0x07 | .range => 0x08 | .busy => 0x09 | .state => 0x0A
  | .changed => 0x0B | .noSession => 0x0C | .refused => 0x0D | .tooLarge => 0x0E

/-- The roles of R349; LEASE carries its lease. -/
inductive Role where
  | host | bmc | lease (k : Nat) | officer
  deriving DecidableEq, Repr

/-- The endpoint's own role (R349). -/
def ownRole (ep : Nat) : Role := if ep = 0 then .bmc else if ep = 1 then .host else .lease (ep - 2)

/-- The endpoint holds the officer binding of an open ceremony (R350). -/
def State.isOfficer (s : State) (ep : Nat) : Bool := s.cust.ceremony.isSome && s.cust.bind = some ep

/-- The request's roles include this one. -/
def State.hasRole (s : State) (ep : Nat) (r : Role) : Bool := ownRole ep = r || (r = .officer && s.isOfficer ep)

/-- The rights of an entry: which of HOST, LEASE, BMC, OFFICER. A LEASE right is that of the sub-block's own lease. -/
structure Rights where
  host : Bool := false
  lease : Bool := false
  bmc  : Bool := false
  officer : Bool := false
  /-- CUSTODIAN and FIELD, which no endpoint carries: the entry's table gives the right to all roles (R355) -/
  others : Bool := false
  deriving DecidableEq, Repr

def State.allowed (s : State) (ep : Nat) (r : Rights) : Bool :=
  (r.officer && s.isOfficer ep) ||
    match ownRole ep with
    | .host => r.host
    | .bmc => r.bmc
    | .lease _ => r.lease
    | .officer => false

/-- The lease of a sub-block index (R364). -/
def subLease (index : Nat) : Option Nat :=
  if 0x4000 ≤ index && index < 0x5000 then some ((index - 0x4000) / 0x40) else none

/-- A LEASE request names another lease's sub-block or consent, or the sub-block's lease is absent: NO_ENTRY (R352, R364, R390). -/
def State.hidden (s : State) (r : Req) : Bool :=
  match subLease r.index, ownRole r.ep with
  | none, .lease n => r.index = 0x9011 && r.sub ≠ n + 1
  | none, _ => false
  | some k, .lease n => s.nLease ≤ k || n ≠ k
  | some k, _ => s.nLease ≤ k

def State.ep (s : State) (e : Nat) : Ep := tget {} s.dic.eps e
def State.setEp (s : State) (e : Nat) (x : Ep) : State := { s with dic := { s.dic with eps := tset {} s.dic.eps e x } }

def setSession (e : Nat) (x : Option Session) (s : State) : State := s.setEp e { s.ep e with sess := x }

/-- The endpoint's session on the entry that a segment names. -/
def State.session (s : State) (r : Req) : Option Session := (s.ep r.ep).sess.filter fun x => x.index = r.index && x.sub = r.sub

/-- The endpoint's session is discarded, and with it an update (R363, R464). -/
def dropSession (e : Nat) (s : State) : State :=
  let t := setSession e none s
  if (s.ep e).sess.any fun x => x.index = 0x9030 then endUpdate t else t

/-- Discard an endpoint's chosen version, its open write session and its officer binding, also that of a collection under way (R350, R357). -/
def discardEp (e : Nat) (s : State) : State :=
  let s := dropSession e s
  let s := s.setEp e { s.ep e with ver := none, tags := [] }
  let c := s.cust
  { s with cust := { c with bind := if c.bind = some e then none else c.bind,
                            collect := c.collect.map fun x => { x with unbound := x.unbound || (x.purpose = 1 && x.endpoint = e) } } }

/-- The boot ROM serves the management endpoint: it is in firmware recovery (R463), or the unit's UDS has failed its check (R377, log 148). -/
def State.romServes (s : State) : Bool :=
  (s.pw.stage = .romRecovery || s.pw.stage = .udsFailed) && s.pw.vio3 && s.pw.sysRst && !s.pw.supplyHold

/-- What the boot ROM answers (R463, log 148). -/
def State.romAnswers (s : State) (op index : Nat) : Bool :=
  let one := fun (read write : Nat) => (op = 0x02 && index = read) || (0x05 ≤ op && op ≤ 0x08 && index = write)
  match s.pw.stage with
  | .romRecovery => one 0x1000 0x9030
  | .udsFailed => one 0x9000 0x9001
  | _ => true

/-- Messages on the endpoint are accepted (R353, R372): the enable is set, and a PCIe endpoint needs the link, a VF
endpoint its VF. -/
def State.epOpen (s : State) (e : Nat) : Bool :=
  (s.islandRuns || (e = 0 && s.romServes)) && s.lcs.state ≠ .scrapped &&
    (if e = 0 then s.dic.mgtEn
     else if e = 1 then s.dic.pfEn && s.link.up
     else s.dic.vfEn && s.link.up && e - 2 < s.link.numVfs)

/-- The endpoint's chosen version as a byte, 0 before a HELLO. -/
def State.epVersion (s : State) (e : Nat) : Nat := match (s.ep e).ver with | some (a, b) => 16 * a + b | none => 0

/-- The response message after the vendor ID (R354), with its version byte. -/
def respond (v : Nat) (r : Req) (op : Nat) (st : DStat) (payload : Bytes) (s : State) : State :=
  let msg := leBytes 1 v ++ leBytes 1 (op + 0x80) ++ [r.tag] ++ leBytes 2 r.index ++ leBytes 1 r.sub ++
    leBytes 1 st.code ++ leBytes 2 payload.length ++ payload
  { s with out := { s.out with dic := msg } }

/-- A message whose payload has n bytes reaches the dictionary: its endpoint is open, it is not above 1,036 bytes, and on the management pins it
comes over the binding of the first one since the reset (R353). -/
def State.takes (s : State) (r : Req) (n : Nat) : Bool := s.epOpen r.ep && n ≤ 1024 && (r.ep ≠ 0 || s.dic.smbus.getD r.smbus = r.smbus)

/-- The first message on the management pins selects their binding (R353). -/
def pickBus (r : Req) (s : State) : State := if r.ep = 0 then { s with dic := { s.dic with smbus := some r.smbus } } else s

/-- The header is MALFORMED (R354, R355). A payload above 256 bytes in major 1 is (log 151). -/
def malformed (r : Req) (op n major minor : Nat) : Bool :=
  r.badOp.isSome || r.status ≠ 0 || !r.lenOk || r.ver.toNat / 16 ≠ major || (major = 1 && (9 ≤ op || 256 < n)) || (minor = 0 && op = 0x0A)

/-- The OP that the answer names. -/
def opOf (r : Req) (op : Nat) : Nat := match r.badOp with | some o => o.toNat | none => op

/-- A further request finds its endpoint's requests of this tick outstanding: one in major 1; in major 2 four, or one with its TAG (R358, log 149). -/
def Ep.crowded (x : Ep) (r : Req) (major : Nat) : Bool := if major = 1 then x.tags ≠ [] else 4 ≤ x.tags.length || x.tags.contains r.tag

/-- The request is outstanding until the boundary of its tick. -/
def outstanding (r : Req) (s : State) : State := s.setEp r.ep { s.ep r.ep with tags := (s.ep r.ep).tags ++ [r.tag] }

/-- One more request is applied (R372). -/
def countReq (s : State) : State := { s with dic := { s.dic with reqs := satAdd s.dic.reqs 1 } }

/-- Every request but HELLO (R352, R354, R357), its payload of n bytes: dropped where it does not reach the dictionary; NO_VERSION before a HELLO;
MALFORMED for a faulty header; BUSY where the endpoint has its number outstanding; from the boot ROM STATE for what it does not serve, and during a
firmware update BUSY for all but its own (R465); otherwise applied by `f`, counted, and answered. -/
def request (r : Req) (op : Nat) (f : State → DStat × Bytes × State) (s : State) (n : Nat := 0) : State :=
  if !s.takes r n then s
  else
    let s := pickBus r s
    match (s.ep r.ep).ver with
    | none => respond 0 r (opOf r op) .noVersion [] s
    | some (major, minor) =>
      let v := 16 * major + minor
      if malformed r op n major minor then respond v r (opOf r op) .malformed [] s
      else if (s.ep r.ep).crowded r major then respond v r op .busy [] s
      else
        let s := outstanding r s
        if !s.romAnswers op r.index then respond v r op .state [] s
        else if s.pfl.upd.isSome && r.index ≠ 0x9030 then respond v r op .busy [] s
        else
          let (st, payload, t) := f (countReq s)
          respond v r op st payload t

/-- An officer action restarts the ceremony's count of frames (R225): a write only OFFICER may make, accepted or
answered PENDING. -/
def officerAction (r : Req) (own : Bool) (st : DStat) (s : State) : State :=
  if !own && s.isOfficer r.ep && (st = .ok || st = .pending) then
    { s with cust := { s.cust with ceremony := s.cust.ceremony.map fun c => { c with lastFrame := s.frame } } }
  else s

/-- A WRITE of an entry (R352, R355, R361): NO_ENTRY, then DENIED, then TYPE, then the entry's own rule. `len` is the
length of its type. -/
def writeEntry (r : Req) (rights : Rights) (len : Nat) (value : Bytes) (f : State → DStat × State) (s : State) : State :=
  request r 0x03 (fun s =>
    if s.hidden r then (.noEntry, [], s)
    else if !s.allowed r.ep rights then (.denied, [], s)
    else if value.length ≠ len then (.type, [], s)
    else
      let own := s.allowed r.ep { rights with officer := false }
      let (st, t) := f s
      (st, [], officerAction r own st t)) s value.length

/-- A row that stands for the SEG_WRITE_END of an object of its own: the open session on the entry has received the object (R352, R363). `refuse` is
what a role without the right leaves. -/
def endObject (r : Req) (rights : Rights) (refuse : State → State) (f : State → DStat × State) (s : State) : State :=
  request r 0x07 (fun s =>
    if s.hidden r then (.noEntry, [], s)
    else if !s.allowed r.ep rights then (.denied, [], refuse s)
    else if (s.session r).isNone then (.noSession, [], s)
    else
      let (st, t) := f (setSession r.ep none s)
      (st, [], t)) s

/-- The right of whoever may open a session on the entry, where the object's own check names the roles. -/
def anyRole : Rights := { host := true, lease := true, bmc := true, officer := true }

end Sys2Proof.Machine
end

