-- ==== Sys2Proof/Machine/Yard.lean ====
section
/-! DEFINITION. The key yard: slots, the hierarchy, references, loading, the sweeper, the persistent store, quorums and
grants (R196-R226). -/

namespace Sys2Proof.Machine
open Sys2Proof

/-! ### Types and attributes (R199, R200) -/

def aSIGN : Nat := 1
def aVERIFY : Nat := 2
def aENCRYPT : Nat := 4
def aDECRYPT : Nat := 8
def aWRAP : Nat := 16
def aUNWRAP : Nat := 32
def aDERIVE : Nat := 64
def aDUAL : Nat := 0x100
def aPERSIST : Nat := 0x200
def aSEEDFORM : Nat := 0x400
def aBEDROCK : Nat := 0x800

def tRSA : List Nat := [0x20, 0x21, 0x22]

/-- The use bits a type may carry (R199); none for a reserved code, ROOT and RSA_CONT. -/
def typeUse (t : Nat) : Option Nat :=
  if t = 0x01 then some 0x5F else if t = 0x02 then some 0x7F else if t = 0x03 then some 0x53
  else if t = 0x04 then some 0x50 else if t = 0x10 then some 0x13 else if t = 0x11 then some 0x50
  else if t = 0x12 ∨ t = 0x13 then some 0x53 else if t = 0x20 ∨ t = 0x21 ∨ t = 0x22 then some 0x1F
  else if t = 0x30 then some 0x13 else if t = 0x31 then some 0x1C else none

/-- RUN of a type: slots its key occupies (R110). -/
def typeRun (t : Nat) : Nat := if t = 0x20 then 10 else if t = 0x21 then 14 else if t = 0x22 then 19 else 1

/-- Modulus length k of an RSA type (R109). -/
def rsaLen (t : Nat) : Nat := if t = 0x20 then 256 else if t = 0x21 then 384 else 512

/-- Value length V of a type (R216), `len` being LEN of HMAC and SECRET. -/
def typeValue (t len : Nat) : Nat :=
  if t = 0x01 then 16 else if t = 0x02 then 32 else if t = 0x03 ∨ t = 0x04 then len
  else if t = 0x10 ∨ t = 0x11 then 64 else if t = 0x12 ∨ t = 0x13 then 96
  else if t = 0x20 then 896 else if t = 0x21 then 1344 else if t = 0x22 then 1792
  else if t = 0x30 then 32 else 64

/-- Length of the private part that a clear load brings (R213). -/
def typePriv (t len : Nat) : Nat :=
  if t = 0x10 ∨ t = 0x11 ∨ t = 0x12 then 32 else if t = 0x13 then 48 else typeValue t len

def isCurve (t : Nat) : Bool := t = 0x10 ∨ t = 0x11 ∨ t = 0x12 ∨ t = 0x13
def isRsa (t : Nat) : Bool := t = 0x20 ∨ t = 0x21 ∨ t = 0x22

/-- Curve number (R129) of a curve type. -/
def curveOf (t : Nat) : Nat := if t = 0x10 then 1 else if t = 0x11 then 2 else if t = 0x12 then 3 else 4

/-- LEN is what R199 requires of the type. -/
def lenOk (t len : Nat) : Bool := if t = 0x03 ∨ t = 0x04 then 16 ≤ len && len ≤ 96 else len = 0

def hasAttr (a : BitVec 16) (m : Nat) : Bool := a.toNat &&& m ≠ 0

/-- The attribute bits are allowed for the type: SEEDFORM and BEDROCK_CHILD are ignored, reserved bits and other use
bits are not (R200). -/
def attrOk (t : Nat) (a : BitVec 16) : Bool :=
  match typeUse t with
  | none => false
  | some u => a.toNat &&& (0xFFFF - (u ||| aDUAL ||| aPERSIST ||| aSEEDFORM ||| aBEDROCK)) = 0

/-! ### The hierarchy (R201-R203) -/

def State.rootSlot (s : State) (k : Nat) : Nat := s.nSlot - 64 + k

/-- Slot i is in the ordinary range of owner k (64: the island, R196). -/
def State.inRange (s : State) (k i : Nat) : Bool :=
  if k = 64 then s.nSlot - 128 ≤ i && i < s.nSlot - 64
  else (s.lease k).rangeBase ≤ i && i < (s.lease k).rangeBase + (s.lease k).rangeCount

/-- Slot i descends from bedrock through loaded parents of the recorded generations (R203); six levels at most. A clear of bedrock acts from the
next tick (R211). -/
def State.lineOk (s : State) : Nat → Nat → Bool
  | 0, _ => false
  | f + 1, i =>
    let x := s.slot i
    if x.type = 0 then false
    else if x.type = 0x3E then (s.vault.bedrock.isSome || s.vault.clearedAt = some s.pw.now) && x.pgen = s.vault.bedGen
    else (s.slot x.parent).gen = x.pgen && (s.slot x.parent).type ≠ 0 && s.lineOk f x.parent

def State.orphan (s : State) (i : Nat) : Bool := (s.slot i).type ≠ 0 && !s.lineOk 6 i

/-- Every slot of the line from i up to the root carries PERSIST, a root counting as carrying it (R200). -/
def State.persistLine (s : State) : Nat → Nat → Bool
  | 0, _ => false
  | f + 1, i =>
    let x := s.slot i
    x.type = 0x3E || (hasAttr x.attr aPERSIST && s.persistLine f x.parent)

/-- Persistent slots live on the device, orphans apart: a run counts all its slots (R203, R448). -/
def State.persistCount (s : State) : Nat :=
  ((s.yard.slots.filter fun e => e.2.type ≠ 0 && e.2.type ≠ 0x2F && hasAttr e.2.attr aPERSIST && !s.orphan e.1).map fun e => typeRun e.2.type).sum

/-- The lease holds a DUAL slot (R220). -/
def State.holdsDual (s : State) (k : Nat) : Bool :=
  s.yard.slots.any fun e => s.inRange k e.1 && e.2.type ≠ 0 && hasAttr e.2.attr aDUAL && !s.orphan e.1

/-! ### References (R204, R222) -/

def refSlot (r : BitVec 32) : Nat := r.toNat % 0x10000
def refGen (r : BitVec 32) : BitVec 16 := BitVec.ofNat 16 (r.toNat / 0x10000)
def mkRef (i : Nat) (g : BitVec 16) : BitVec 32 := BitVec.ofNat 32 (g.toNat * 0x10000 + i)

/-- The grant that the checks of this tick see: one that the tick has ended, or the lease's (R205). -/
def Lease.granted (l : Lease) : Option Grant := l.ending.or l.grant

/-- The grant of lease k is live and covers the reference (R221, R222). -/
def State.grantCovers (s : State) (k : Nat) (r : BitVec 32) : Bool :=
  match (s.lease k).granted with
  | none => false
  | some g => g.fromTick ≤ s.pw.now && s.frame < g.endFrame && 0 < g.uses && (g.scope = 0 || g.scope = r.toNat)

/-- The slot presents nothing to the lease: out of reach, EMPTY, orphan, RETIRED, PENDING or another owner's (R204). -/
def State.presentsEmpty (s : State) (k i : Nat) : Bool :=
  let x := s.slot i
  !(s.inRange k i || (k < 64 && i = s.rootSlot k)) || x.type = 0 || s.orphan i || x.retired || x.owner ≠ k

/-- Check one reference: the first row of R204 that applies. `pend` lets PENDING pass (KEY_INFO, R214). `need` is
a mask of attributes of which one must be carried; 0 asks for none. -/
def State.checkRef (s : State) (k : Nat) (r : BitVec 32) (types : List Nat) (need : Nat) (pend : Bool := false) : Nat :=
  let i := refSlot r
  let x := s.slot i
  if s.nSlot ≤ i then 0x000B
  else if r = 0 || s.presentsEmpty k i || (x.pending && !pend) then 0x0110
  else if x.gen ≠ refGen r then 0x0111
  else if x.type = 0x2F || !types.contains x.type then 0x0112
  else if need ≠ 0 && !hasAttr x.attr need then 0x0113
  else if hasAttr x.attr aDUAL && !s.grantCovers k r then 0x0114
  else 0

/-- Count the use of a DUAL slot whose check passed (R222). -/
def countUse (k : Nat) (r : BitVec 32) (s : State) : State :=
  if hasAttr (s.slot (refSlot r)).attr aDUAL then
    let use := fun (g : Grant) => { g with uses := g.uses - 1 }
    s.modLease k fun l => if l.ending.isSome then { l with ending := l.ending.map use } else { l with grant := l.grant.map use }
  else s

/-! ### Targets and writes (R197, R205, R208) -/

def runSlots (i n : Nat) : List Nat := (List.range n).map (i + ·)

/-- A slot can take a key: empty or an orphan, not retired, not reserved or being written, and not at GEN 0xFFFF. -/
def State.slotFree (s : State) (i : Nat) : Bool :=
  let x := s.slot i
  (x.type = 0 || s.orphan i) && !x.retired && x.gen ≠ 0xFFFF && !s.yard.resv.contains i &&
    !s.yard.next.any (fun e => e.1 = i && e.2.type ≠ 0)

/-- Checks of item 4 of R98 for a run of slots under a parent: YARD_QUOTA, SLOT_BUSY, YARD_QUOTA, DEPTH; 0 if all pass. -/
def State.checkTarget (s : State) (k target run parent : Nat) (persist : Bool) : Nat :=
  if !(runSlots target run).all (s.inRange k ·) then 0x0116
  else if !(runSlots target run).all (s.slotFree ·) then 0x0115
  else if persist && 15872 < s.persistCount + run then 0x0116
  else if 6 < (s.slot parent).depth + 1 then 0x0117
  else 0

/-- Reserve the slots of a passed TARGET check (R205). -/
def reserve (l : List Nat) (s : State) : State := { s with yard := { s.yard with resv := s.yard.resv ++ l } }

/-- A slot's new content takes effect from the next tick (R205). -/
def yardNext (i : Nat) (x : Slot) (s : State) : State :=
  { s with yard := { s.yard with next := s.yard.next.filter (fun e => e.1 ≠ i) ++ [(i, x)] } }

/-- A persistent slot's change waits for a store record (R218). -/
def storeLater (i : Nat) (x : Option Slot) (s : State) : State :=
  { s with yard := { s.yard with toStore := s.yard.toStore ++ [(i, x)] } }

/-- Continuation slot j of the run whose first slot is x (R198, R199). -/
def Slot.cont (x : Slot) (j : Nat) : Slot := { x with type := 0x2F, attr := 0, run := j, value := [], pending := false }

/-- A record for each slot of a persistent key, in the order of its run; a continuation slot's record has its 96 bytes of the value (R218). -/
def storeKey (i : Nat) (x : Slot) (s : State) : State :=
  (List.range (typeRun x.type - 1)).foldl (fun t j =>
    storeLater (i + j + 1) (some { x.cont (j + 1) with value := slice x.value (96 * (j + 1)) 96 }) t) (storeLater i (some x) s)

/-- The checks of PENDING slots among these fall away (R214). -/
def dropChecks (l : List Nat) (s : State) : State :=
  { s with yard := { s.yard with checks := s.yard.checks.filter fun c => !l.contains c.slot } }

/-- Write a key at `target` under the slot `parent`, which holds `p`: GEN + 1 of the first slot throughout the run, DUAL inherited, SEEDFORM set
by the device (R198, R200, R202, R208). The value of an RSA run is held whole in its first slot (log 15). Answers the new reference. -/
def writeUnder (k target parent : Nat) (p : Slot) (type len : Nat) (attr : BitVec 16) (value : Bytes) (pending yOdd : Bool)
    (s : State) : BitVec 32 × State :=
  let g := (s.slot target).gen + 1
  let a := (attr.toNat &&& (0xFFFF - aSEEDFORM - aBEDROCK)) ||| (if type = 0x30 ∨ type = 0x31 then aSEEDFORM else 0) |||
    (if hasAttr p.attr aDUAL then aDUAL else 0)
  let x : Slot := { type := type, len := len, owner := if k = 64 then 0x40 else k, depth := p.depth + 1, gen := g,
                    parent := parent, pgen := p.gen, attr := BitVec.ofNat 16 a, run := typeRun type,
                    pending := pending, yOdd := yOdd, created := s.frame, value := value }
  let run := runSlots target (typeRun type)
  let s := yardNext target x (dropChecks run (releaseSlots run s))
  let s := (List.range (typeRun type - 1)).foldl (fun t j => yardNext (target + j + 1) (x.cont (j + 1)) t) s
  let s := if hasAttr (BitVec.ofNat 16 a) aPERSIST then storeKey target x s else s
  let s := if pending then { s with yard := { s.yard with checks := s.yard.checks ++ [{ slot := target, unwrap := false }] } } else s
  (mkRef target g, s)

/-- Write a key under a parent as it stands now. -/
def writeKey (k target parent type len : Nat) (attr : BitVec 16) (value : Bytes) (pending yOdd : Bool) (s : State) :
    BitVec 32 × State :=
  writeUnder k target parent (s.slot parent) type len attr value pending yOdd s

/-- An invalidated or swept slot: EMPTY with GEN + 1, or RETIRED at 0xFFFF (R208). -/
def emptied (x : Slot) : Slot := if x.gen = 0xFFFF then { gen := 0xFFFF, retired := true } else { gen := x.gen + 1 }

/-- Cached copies of a slot are zeroed in the same tick (R206). -/
def dropLines (i : Nat) (s : State) : State :=
  { s with benches := s.benches.map fun e => (e.1, { e.2 with lines := e.2.lines.filter fun l => l.slot ≠ i }) }

/-- The store keeps the slot: it is persistent, or a continuation slot that has a record, or one due. -/
def State.keptSlot (s : State) (i : Nat) : Bool :=
  hasAttr (s.slot i).attr aPERSIST || ((s.slot i).type = 0x2F &&
    (s.yard.store.any (fun r => r.slot = i && r.key.isSome && !r.dead) || s.yard.toStore.any fun e => e.1 = i && e.2.isSome))

/-- Empty one slot from the next tick; a persistent one gets a tombstone (R208, R210, R218). -/
def emptySlot (i : Nat) (s : State) : State :=
  let t := dropLines i (yardNext i (emptied (s.slot i)) (dropChecks [i] s))
  if s.keptSlot i then storeLater i none t else t

/-- Invalidate a key, with the slots that still continue its run (R208). -/
def invalidate (i : Nat) (s : State) : State :=
  let x := s.slot i
  let mine := fun (j : Nat) => j = i || ((s.slot j).type = 0x2F && i + (s.slot j).run = j && (s.slot j).gen = x.gen)
  ((runSlots i (typeRun x.type)).filter mine).foldl (fun t j => emptySlot j t) s

/-- The header as KEY_INFO returns it (R198). -/
def Slot.header (x : Slot) : Bytes :=
  leBytes 1 x.type ++ leBytes 1 x.len ++ leBytes 1 x.owner ++ leBytes 1 x.depth ++ leBytes 2 x.gen.toNat ++
    leBytes 2 x.parent ++ leBytes 2 x.pgen.toNat ++ leBytes 2 x.attr.toNat ++ leBytes 1 x.run ++
    leBytes 1 (bit x.durable + 2 * bit x.pending + 4 * bit x.retired + 8 * bit x.yOdd) ++ leBytes 2 0 ++
    leBytes 8 x.created ++ leBytes 8 0

/-- The private part of a curve key's value, and its public part in the encoding of its standard (R199). -/
def Slot.priv (x : Slot) : Bytes := x.value.take (typePriv x.type x.len)
def Slot.pub (x : Slot) : Bytes :=
  if x.type = 0x13 then (x.value.drop 48).take 48 ++ fixLen 48 (Config.p384Y ((x.value.drop 48).take 48) x.yOdd)
  else x.value.drop (typePriv x.type x.len)

/-- Length of a curve's public key (R109). -/
def pubLen (curve : Nat) : Nat := if curve = 3 then 64 else if curve = 4 then 96 else 32

def pubOf (curve : Nat) (priv : Bytes) : Bytes := fixLen (pubLen curve) (Config.pubOfRaw curve priv)

/-- The value a curve slot holds: private part and public part; P-384 keeps x only (R199). -/
def curveValue (curve : Nat) (priv pub : Bytes) : Bytes := priv ++ pub.take (if curve = 4 then 48 else pubLen curve)

/-- The parity of y, kept in Y_ODD for P-384. -/
def yIsOdd (curve : Nat) (pub : Bytes) : Bool := curve = 4 && beNat (pub.drop 48) % 2 = 1

/-! ### RSA values (R135, R199): the components of a key, and the private operation by CRT -/

structure RsaKey where
  n : Nat
  p : Nat
  q : Nat
  dp : Nat
  dq : Nat
  qinv : Nat
  deriving DecidableEq, Repr

def rsaKey (t : Nat) (v : Bytes) : RsaKey :=
  let k := rsaLen t
  let h := k / 2
  { n := beNat (slice v 0 k), p := beNat (slice v k h), q := beNat (slice v (k + h) h),
    dp := beNat (slice v (k + 2 * h) h), dq := beNat (slice v (k + 3 * h) h), qinv := beNat (slice v (k + 4 * h) h) }

/-- a^e mod m by squaring, over at most `f` exponent bits. -/
def powModF : Nat → Nat → Nat → Nat → Nat
  | 0, _, _, m => 1 % m
  | f + 1, a, e, m =>
    let r := powModF f (a * a % m) (e / 2) m
    if e % 2 = 1 then a * r % m else r

def powMod (a e m : Nat) : Nat := powModF (e.log2 + 1) (a % m) e m

/-- Extended Euclid: the pair of a remainder and the coefficient of the first argument. -/
def euclid : Nat → Nat → Nat → Int → Int → Nat × Int
  | 0, r, _, c, _ => (r, c)
  | f + 1, r, t, c, d => if t = 0 then (r, c) else euclid f t (r % t) d (c - (r / t : Nat) * d)

/-- The inverse of a modulo m, where they have no common factor. -/
def modInv (a m : Nat) : Option Nat :=
  let (g, c) := euclid (2 * (m.log2 + 2)) (a % m) m 1 0
  if g = 1 then some (c % (m : Int)).toNat else none

/-- The private operation by the CRT: equal to x^d mod n (R135). -/
def RsaKey.private_ (r : RsaKey) (x : Nat) : Nat :=
  let a := powMod x r.dp r.p
  let b := powMod x r.dq r.q
  b + r.q * (r.qinv * ((a + r.p * (b / r.p + 1) - b) % r.p) % r.p)

/-- The value ranges that a load checks (R213). -/
def RsaKey.rangeOk (r : RsaKey) (t : Nat) : Bool :=
  2 ^ (8 * rsaLen t - 8) ≤ r.n && r.n % 2 = 1 && r.p % 2 = 1 && r.q % 2 = 1 &&
    r.dp < r.p && r.dq < r.q && r.qinv < r.p

/-- The island's check of an RSA key (R214). -/
def RsaKey.valid (r : RsaKey) : Bool :=
  r.p * r.q = r.n && 65537 * r.dp % (r.p - 1) = 1 && 65537 * r.dq % (r.q - 1) = 1 && r.qinv * r.q % r.p = 1

/-! ### Residency (R206, R207) -/

/-- The lines a reference of lease k needs: none where it is not made resident (R30). A continuation slot, whose reference is refused later, takes
none (log 134). -/
def State.linesOf (s : State) (k : Nat) (r : BitVec 32) : List Nat :=
  let i := refSlot r
  let x := s.slot i
  if r = 0 || !(s.inRange k i || i = s.rootSlot k) || x.type = 0 || x.type = 0x2F || s.orphan i then []
  else runSlots i (if isRsa x.type then typeRun x.type else 1)

/-- The slots a reference names: an RSA run counts all of its slots, a slot that cannot be made resident counts itself (R207). -/
def State.namedSlots (s : State) (k : Nat) (r : BitVec 32) : List Nat :=
  if r = 0 then [] else match s.linesOf k r with | [] => [refSlot r] | l => l

def Bench.resident (b : Bench) (i : Nat) : Bool := b.lines.any fun l => l.slot = i

/-- A job that waits or runs names its slots; a command that is not ended names those of its references. -/
def State.cmdLines (s : State) (c : Cmd) : List Nat :=
  s.linesOf c.lease c.yref ++
    (if c.opcode = 0x0601 ∨ c.opcode = 0x0500 ∨ c.opcode = 0x0501 then s.linesOf c.lease (BitVec.ofNat 32 (fieldLE c.u3 0 4))
     else [])

def State.pinned (s : State) (n i : Nat) : Bool :=
  (s.cmds.any fun e => e.2.result.isNone && e.2.stagedAt.isSome && s.cmdHome e.2 = n && (s.cmdLines e.2).contains i) ||
  (s.jobs.any fun e => e.1 / 65 / 5 = n && (e.2.state = .wait || e.2.state = .run) && e.2.refs.contains i)

/-- Slot i is wanted on bench n: by a command that is not staged, or by a waiting job. -/
def State.wanted (s : State) (n i : Nat) : Bool :=
  (s.cmds.any fun e => e.2.result.isNone && e.2.stagedAt.isNone && s.cmdHome e.2 = n && (s.cmdLines e.2).contains i) ||
  (s.jobs.any fun e => e.1 / 65 / 5 = n && e.2.state = .wait && e.2.refs.contains i)

/-- The unpinned line used least recently. -/
def leastRecent (s : State) (n : Nat) : List Line → Option Line
  | [] => none
  | l :: r =>
    match leastRecent s n r with
    | none => if s.pinned n l.slot then none else some l
    | some m => if !s.pinned n l.slot && l.used ≤ m.used then some l else some m

/-- YARD_LINE_FILL (R206, R207): one line in one tick. A full cache gives up its least recently used unpinned line; with
none to give up, the filling waits. -/
def execYardLineFill (n slot : Nat) (s : State) : Res :=
  let b := s.bench n
  if b.state = .quarantined || b.resident slot || !s.wanted n slot || b.fillAt = s.pw.now + 1 then .next s
  else if b.lines.length < 4096 then
    .next (s.setBench n { b with lines := { slot := slot, used := s.pw.now } :: b.lines, fillAt := s.pw.now + 1 })
  else
    match leastRecent s n b.lines with
    | none => .next s
    | some l => .next (s.setBench n
        { b with lines := { slot := slot, used := s.pw.now } :: b.lines.filter (· ≠ l), fillAt := s.pw.now + 1 })

/-! ### Clear loading (R212-R214) -/

def State.port (s : State) (k : Nat) : LoadPort := tget {} s.yard.ports k
def State.setPort (s : State) (k : Nat) (p : LoadPort) : State :=
  { s with yard := { s.yard with ports := tset {} s.yard.ports k p } }

/-- YRD_LDCTL takes its value: GO starts a load, or is ignored with island event 52 while BUSY (R213). -/
def yardGo (k bench : Nat) (ctl : BitVec 64) (s : State) : State :=
  let p := s.port k
  if ctl.toNat < 2 ^ 63 then s
  else if p.state = 1 then raiseIslandOf 52 (if k = 64 then 0xFF else k) s
  else s.setPort k { p with state := 1, ctl := ctl, bench := bench, goAt := s.pw.now, ref := 0 }

/-- YARD_LOAD_GO on the load port of lease k (from a core of bench n) or of the island (k = 64, n = 16). -/
def execYardLoadGo (k n : Nat) (ctl : BitVec 64) (s : State) : Res :=
  if s.running then .next (yardGo k n ctl s) else .next s

/-- The open ceremony has lease k in scope. -/
def State.inScope (s : State) (k : Nat) : Bool :=
  match s.cust.ceremony with
  | none => false
  | some c => k < 64 && c.scope.getLsbD k

/-- The 3-byte check value of R224: AES of a zero block, or SHA-256 of the value. -/
def checkValue (t : Nat) (v : Bytes) : Bytes :=
  if t = 0x01 ∨ t = 0x02 then fixLen 3 (Config.aesBlockRaw v (List.replicate 16 0)) else fixLen 3 (Config.digestRaw 1 32 v)

/-- The status of a load, by the first row of R213 that applies (0: OK). -/
def loadStatus (s : State) (k : Nat) (p : LoadPort) : Nat :=
  let own := if k = 64 then (if p.own = 0x40 then 64 else p.own) else k
  let ctl := p.ctl.toNat
  let t := ctl / 2 ^ 48 % 256
  let attr := BitVec.ofNat 16 (ctl / 2 ^ 32)
  let parent := ctl / 2 ^ 16 % 2 ^ 16
  let target := ctl % 2 ^ 16
  let len := p.src.toNat / 2 ^ 56
  let addr := p.src.toNat % 2 ^ 32
  let size := typePriv t len
  let dual := hasAttr attr aDUAL || hasAttr (s.slot parent).attr aDUAL
  let v := s.ramRead addr size
  if addr % 32 ≠ 0 || !s.inPages p.bench k addr size then 0x01
  else if ctl / 2 ^ 56 % 128 ≠ 0 || p.src.toNat / 2 ^ 32 % 2 ^ 24 ≠ 0 || (typeUse t).isNone || !lenOk t len then 0x02
  else if (s.slot parent).type = 0 || !(s.inRange own parent || (own < 64 && parent = s.rootSlot own)) || s.orphan parent
    then 0x10
  else if dual && (k ≠ 64 || s.cust.keyLoad.map KeyLoad.lease ≠ some own) then 0x14
  else if !(runSlots target (typeRun t)).all (s.inRange own ·) then 0x16
  else if !(runSlots target (typeRun t)).all (s.slotFree ·) then 0x15
  else if hasAttr attr aPERSIST && 15872 < s.persistCount + typeRun t then 0x16
  else if 6 < (s.slot parent).depth + 1 then 0x17
  else if !attrOk t attr || (hasAttr attr aPERSIST && !s.persistLine 6 parent) then 0x21
  else if (t = 0x12 ∨ t = 0x13) && !(1 ≤ beNat v && beNat v < Config.groupOrder (curveOf t)) then 0x21
  else if isRsa t && !(rsaKey t v).rangeOk t then 0x21
  else 0

/-- YARD_LOAD_DONE: within 2 tk of GO the load ends with its status; the source bytes are zeroed on every status; a curve
or RSA slot is written PENDING (R213). -/
def execYardLoadDone (k : Nat) (s : State) : Res :=
  let p := s.port k
  if p.state ≠ 1 then .next s
  else
    let st := loadStatus s k p
    let own := if k = 64 then (if p.own = 0x40 then 64 else p.own) else k
    let ctl := p.ctl.toNat
    let t := ctl / 2 ^ 48 % 256
    let len := p.src.toNat / 2 ^ 56
    let addr := p.src.toNat % 2 ^ 32
    let size := typePriv t len
    let v := s.ramRead addr size
    let s1 := s.ramClear addr (addr + size)
    if st = 0 then
      let (r, s2) := writeKey own (ctl % 2 ^ 16) (ctl / 2 ^ 16 % 2 ^ 16) t len (BitVec.ofNat 16 (ctl / 2 ^ 32)) v
        (isCurve t || isRsa t) false s1
      let s2 := if k = 64 && s.inScope own then logOp 1 own r.toNat (checkValue t v) s2 else s2
      .next (s2.setPort k { p with state := 2, status := 0, ref := r })
    else .next (s1.setPort k { p with state := 2, status := st, ref := 0 })

/-- Length of the island's check by key type (R214). -/
def checkTicks (t : Nat) : Nat :=
  if t = 0x10 ∨ t = 0x11 then 16 else if t = 0x12 then 18 else if t = 0x13 then 38
  else if t = 0x20 then 4 else if t = 0x21 then 6 else 8

/-- PENDING_CHECK: island firmware takes the slot up on the island cutter, which no gate pass holds (R214, R252). -/
def execPendingCheck (slot : Nat) (s : State) : Res :=
  if !s.running || s.flg.pass.isSome || !(s.yard.checks.any fun c => c.slot = slot && c.endAt.isNone) || !(s.slot slot).pending then .next s
  else
    .next { s with yard := { s.yard with checks := s.yard.checks.map fun c =>
      if c.slot = slot then { c with endAt := some (s.pw.now + checkTicks (s.slot slot).type) } else c } }

/-- PENDING_CLEAR: after the check has run its count, in ticks in which no pass holds the island's engines, PENDING clears from the next tick with
the public part written (after an unwrap, compared); a slot that fails is invalidated with island event 53 (R214). -/
def execPendingClear (slot : Nat) (s : State) : Res :=
  match s.yard.checks.find? (fun c => c.slot = slot) with
  | none => .next s
  | some c =>
    match c.endAt with
    | none => .next s
    | some e =>
      if s.pw.now < e || s.flg.pass.isSome then .next s
      else
        let x := s.slot slot
        let s := { s with yard := { s.yard with checks := s.yard.checks.filter fun c => c.slot ≠ slot } }
        let pub := pubOf (curveOf x.type) x.priv
        let full := curveValue (curveOf x.type) x.priv pub
        let good := if isRsa x.type then (rsaKey x.type x.value).valid
          else !c.unwrap || (full = x.value && yIsOdd (curveOf x.type) pub = x.yOdd)
        if !x.pending then .next s
        else if good then
          let y := if isRsa x.type then { x with pending := false }
            else { x with pending := false, value := full, yOdd := yIsOdd (curveOf x.type) pub }
          let t := yardNext slot y s
          .next (if hasAttr x.attr aPERSIST then storeLater slot (some y) t else t)
        else .next (raiseIslandOf 53 (if x.owner < 64 then x.owner else 0xFF) (invalidate slot s))

/-! ### Sweeper, scrub, ranges (R196, R208-R210) -/

/-- SWEEPER_FRAME: the 4,096 slots from POS are examined once in each frame, and the orphans found, each slot for itself, are swept with effect at
the frame boundary, where POS advances; a slot that this tick writes is an orphan no more (R205, R210). -/
def execSweeperFrame (s : State) : Res :=
  if !s.mainPower || s.ftick ≠ 255 || s.yard.swept = some s.frame then .next s
  else
    let pos := s.yard.pos
    let found := (s.yard.slots.filter fun e =>
      pos ≤ e.1 && e.1 < pos + 4096 && e.2.type ≠ 0 && s.orphan e.1 && !s.yard.next.any fun x => x.1 = e.1).map Prod.fst
    let t := found.foldl (fun t i => emptySlot i t) s
    let np := (pos + 4096) % s.nSlot
    .next { t with yard := { t.yard with pos := np, swept := some s.frame, orph := satAdd t.yard.orph found.length,
                                         passes := if np = 0 then satAdd t.yard.passes 1 else t.yard.passes } }

/-- The root of lease k under bedrock and its epoch (R201). -/
def rootOf (bed : Bytes) (bedGen : BitVec 16) (k : Nat) (epoch : BitVec 16) : Slot :=
  { type := 0x3E, owner := k, depth := 1, gen := epoch, parent := 0, pgen := bedGen,
    attr := BitVec.ofNat 16 (aDERIVE + aBEDROCK), run := 1,
    value := fixLen 32 (Config.macRaw 8 32 bed (ascii "SVRL-ROOT")
      (leBytes 1 k ++ leBytes 2 epoch.toNat)) }

/-- Derive the root of lease k where bedrock is present (R201). -/
def deriveRoot (k : Nat) (s : State) : State :=
  match s.vault.bedrock with
  | none => s
  | some b => yardNext (s.rootSlot k) { rootOf b s.vault.bedGen k (s.lease k).epoch with created := s.frame } s

/-- A staged command or running job of the lease names a yard reference (R209). -/
def State.namesKey (s : State) (k : Nat) : Bool :=
  let two := fun (c : Cmd) => (c.opcode = 0x0601 || c.opcode = 0x0500 || c.opcode = 0x0501) && fieldLE c.u3 0 4 ≠ 0
  (s.cmds.any fun e => e.2.lease = k && e.2.result.isNone && e.2.stagedAt.isSome && (e.2.yref ≠ 0 || two e.2)) ||
  (s.jobs.any fun e => e.1 % 65 = k && e.2.state = .run && e.2.named)

/-- Scrub lease k: a new epoch (0xFFFF is followed by 1, sweeping the range), a new root, tombstones, no grant (R209). -/
def scrub (k : Nat) (s : State) : State :=
  let l := s.lease k
  let wrap := l.epoch = 0xFFFF
  let s := s.setLease k { l.endGrant with epoch := if wrap then 1 else l.epoch + 1 }
  let mine := (s.yard.slots.filter fun e => s.inRange k e.1 && e.2.type ≠ 0).map Prod.fst
  let s := if wrap then mine.foldl (fun t i => emptySlot i t) s
    else mine.foldl (fun t i => if t.keptSlot i then storeLater i none t else t) s
  deriveRoot k s

/-- Scrub request, entry +0x13 sub 1: by HOST, or by an officer in a ceremony with the lease in scope when it holds a DUAL
slot (R209, R224, R367). -/
def scrubWrite (r : Req) (k : Nat) (value : Bytes) (s : State) : DStat × State :=
  let host := ownRole r.ep = .host
  if !host && !(s.isOfficer r.ep && s.inScope k && s.holdsDual k) then (.denied, s)
  else if 2 ≤ leNat value then (.range, s)
  else if leNat value = 0 then (.ok, s)
  else if !(s.lease k).quarantined && s.namesKey k then (.state, s)
  else (.ok, scrub k (if host then s else logOp 4 k 0 [] s))

def execLeaseScrub (r : Req) (value : Bytes) (s : State) : Res :=
  match subLease r.index with
  | some k => if r.index % 0x40 = 0x13 && r.sub = 1
    then .next (writeEntry r { host := true, officer := true } 1 value (scrubWrite r k value) s) else .next s
  | none => .next s

/-- The lease's new range lies within 0 to Y - 129, overlaps no other, and removes no slot that is not empty (R196). -/
def State.rangeOk (s : State) (k base count : Nat) : Bool :=
  base + count ≤ s.nSlot - 128 &&
  ((List.range s.nLease).all fun j => j = k || count = 0 || (s.lease j).rangeCount = 0 ||
    base + count ≤ (s.lease j).rangeBase || (s.lease j).rangeBase + (s.lease j).rangeCount ≤ base) &&
  (s.yard.slots.all fun e => e.2.type = 0 || !s.inRange k e.1 || (base ≤ e.1 && e.1 < base + count))

def rangeWrite (k sub : Nat) (value : Bytes) (s : State) : DStat × State :=
  let l := s.lease k
  let base := if sub = 1 then leNat value else l.rangeBase
  let count := if sub = 1 then l.rangeCount else leNat value
  if s.rangeOk k base count then (.ok, s.setLease k { l with rangeBase := base, rangeCount := count }) else (.range, s)

/-- YARD_RANGE_WRITE: entry +0x03 (R196, R367). -/
def execYardRangeWrite (r : Req) (value : Bytes) (s : State) : Res :=
  match subLease r.index with
  | some k => if r.index % 0x40 = 0x03 && (r.sub = 1 || r.sub = 2)
    then .next (writeEntry r { host := true } 2 value (rangeWrite k r.sub value) s) else .next s
  | none => .next s

/-! ### Persistent store (R218, R219), held as its records (log 16) -/

/-- The record has a commit. -/
def StoreRec.committed (r : StoreRec) : Bool := r.commit ≠ []

/-- The 192-byte body: the header; the value under AES-256-GCM, keyed from the root with slot and GEN, with the header as AAD. A tombstone has no
value and no tag (R218). -/
def storeBody (root : Bytes) (i : Nat) (now : Slot) (x : Option Slot) (iv : Bytes) : Bytes :=
  match x with
  | none => fixLen 192 now.header
  | some x =>
    let key := fixLen 32 (Config.macRaw 8 32 root (ascii "SVRL-STORE") (leBytes 2 i ++ leBytes 2 x.gen.toNat))
    let text := fixLen 96 x.value
    let ct := fixLen 96 (Config.gcmTextRaw key iv text)
    fixLen 192 (x.header ++ iv ++ leBytes 4 0 ++ ct ++ fixLen 16 (Config.gcmTagRaw key iv x.header ct))

/-- The 32-byte commit (R218). -/
def storeCommit (seq : Nat) (body : Bytes) : Bytes := leBytes 4 0x53544F52 ++ leBytes 4 seq ++ fixLen 24 (Config.digestRaw 4 32 body)

/-- DURABLE is set in a slot of this generation, in the slot or in the write that takes effect next. -/
def makeDurable (g : BitVec 16) (s : State) (i : Nat) : State :=
  let y := s.slot i
  if y.gen = g && y.type ≠ 0 then { s with yard := { s.yard with slots := tset {} s.yard.slots i { y with durable := true } } }
  else { s with yard := { s.yard with next := s.yard.next.map fun e =>
    if e.1 = i && e.2.gen = g then (i, { e.2 with durable := true }) else e } }

/-- The slots that a commit makes durable: a key's one slot, or the run whose last slot it is (R218). -/
def StoreRec.durable (r : StoreRec) (s : State) : List Nat :=
  match r.key with
  | none => []
  | some x =>
    if x.type ≠ 0x2F then (if typeRun x.type = 1 then [r.slot] else [])
    else
      let first := r.slot - x.run
      let t := if (s.slot first).gen = x.gen && (s.slot first).type ≠ 0 then (s.slot first).type
        else ((s.yard.next.find? fun e => e.1 = first).map fun e => e.2.type).getD 0
      if typeRun t = x.run + 1 then runSlots first (x.run + 1) else []

/-- PERSIST_RECORD_APPEND, a phase of it: the commit of the body programmed last, or else the body of the next record that waits, with an IV from the
free values (log 125). A log at its half's end waits for compaction. -/
def execPersistRecordAppend (s : State) : Res :=
  let y := s.yard
  if !s.running then .next s
  else
    match y.store.getLast?.filter fun r => !r.committed && !r.dead, y.toStore with
    | some r, _ =>
      let done := { r with commit := storeCommit r.seq r.body }
      let g := (r.key.map Slot.gen).getD 0
      .next ((r.durable s).foldl (makeDurable g) { s with yard := { y with store := y.store.dropLast ++ [done] } })
    | none, [] => .next s
    | none, (i, k) :: rest =>
      if 16384 ≤ y.half then .next s
      else
        let owner := (k.map Slot.owner).getD 0xFF
        let root := if owner < 64 then (s.slot (s.rootSlot owner)).value else []
        let rec_ : StoreRec := { seq := y.storeSeq + 1, slot := i, key := k, bedGen := s.vault.bedGen,
                                 body := storeBody root i (s.slot i) k (s.freeBytes 12) }
        .next ({ s with yard := { y with toStore := rest, store := y.store ++ [rec_], storeSeq := y.storeSeq + 1,
                                         half := y.half + 1 } }.useFree 12)

/-- The last record of each slot, where it holds a key. -/
def liveRecs (l : List StoreRec) : List StoreRec :=
  (l.filter fun r => r.committed && r.key.isSome && !(l.any fun q => q.committed && q.slot = r.slot && r.seq < q.seq))

/-- YARD_STORE_COMPACTION: the live records go to the other half when the log reaches its end (R219). -/
def execYardStoreCompaction (s : State) : Res :=
  if !s.running || s.yard.half < 16384 || (s.yard.store.getLast?.any fun r => !r.committed && !r.dead) then .next s
  else
    let live := liveRecs s.yard.store
    .next { s with yard := { s.yard with store := live, half := live.length, side := 1 - s.yard.side } }

/-- Scrub the store (R211, R219). -/
def scrubStore (s : State) : State := { s with yard := { s.yard with store := [], half := 0, toStore := [] } }

/-- A record of a key whose whole run is among the live records (R219). -/
def wholeRun (live : List StoreRec) (r : StoreRec) : Bool :=
  let has := fun (first : StoreRec) =>
    match first.key with
    | none => false
    | some x => (List.range (typeRun x.type - 1)).all fun j =>
      live.any fun q => q.slot = first.slot + j + 1 &&
        (match q.key with | some y => y.type = 0x2F && y.run = j + 1 && y.gen = x.gen | none => false)
  match r.key with
  | none => false
  | some x =>
    if x.type ≠ 0x2F then has r
    else live.any fun q => q.slot + x.run = r.slot && has q &&
      (match q.key with | some y => isRsa y.type && y.gen = x.gen && x.run < typeRun y.type | none => false)

/-- A live record's slot stands again, with its stored GEN; a PENDING one waits for its check, which writes the public part where the record has none
(R214, R219). -/
def restoreSlot (s : State) (r : StoreRec) : State :=
  match r.key with
  | none => s
  | some x =>
    let y := { x with durable := true, value := if x.type = 0x2F then [] else x.value }
    let checks := if x.pending then [{ slot := r.slot, unwrap := typePriv x.type x.len < x.value.length : PendCheck }] else []
    { s with yard := { s.yard with slots := tset {} s.yard.slots r.slot y, checks := s.yard.checks ++ checks } }

/-- Restore the store at a start (R219): scrubbed where bedrock is absent or of another generation; else bodies without a commit are discarded, the
last record of each slot stands, and orphans and partial runs are discarded and tombstoned. -/
def restoreStore (s : State) : State :=
  let live := liveRecs s.yard.store
  let done := fun (t : State) => { t with yard := { t.yard with stored := true } }
  if s.vault.bedrock.isNone || live.any (fun r => r.bedGen ≠ s.vault.bedGen) then done (scrubStore s)
  else
    let good := live.filter (wholeRun live)
    let kept := s.yard.store.map fun r => if r.committed then r else { r with dead := true }
    let t := good.foldl restoreSlot { s with yard := { s.yard with store := kept } }
    let bad := live.filter fun r => !wholeRun live r || t.orphan r.slot
    done (bad.foldl (fun t r => storeLater r.slot none (dropChecks [r.slot]
      { t with yard := { t.yard with slots := tclear t.yard.slots r.slot (r.slot + 1) } })) t)

/-! ### Quorum and grants (R220-R222) -/

/-- Set credential i of sixteen; refused where another position has its card identifier (R319). -/
def setCred (creds : List Bytes) (i : Nat) (value : Bytes) : Option (List Bytes) :=
  let all := (creds ++ List.replicate 16 (List.replicate 48 0)).take 16
  if (List.range 16).any fun j => j ≠ i && (all.getD j []).take 16 = value.take 16 && all.getD j [] ≠ List.replicate 48 0
  then none else some (all.set i value)

/-- Entry +0x10: M, N or a credential. HOST while the lease holds no DUAL slot; after that only an officer with the lease
in scope. Every accepted write revokes the grant (R220). -/
def quorumSet (r : Req) (k : Nat) (value : Bytes) (s : State) : DStat × State :=
  let l := s.lease k
  let v := leNat value
  if (s.holdsDual k || ownRole r.ep ≠ .host) && !(s.isOfficer r.ep && s.inScope k) then (.denied, s)
  else
    let note := fun (t : State) => if s.isOfficer r.ep && (s.holdsDual k || ownRole r.ep ≠ .host) then logOp 3 k 0 [] t else t
    if r.sub = 1 then
      if 1 ≤ v && v ≤ l.quorumN then (.ok, note (s.setLease k { l.endGrant with quorumM := v })) else (.range, s)
    else if r.sub = 2 then
      if 1 ≤ v && v ≤ 16 && l.quorumM ≤ v then (.ok, note (s.setLease k { l.endGrant with quorumN := v })) else (.range, s)
    else
      match setCred l.creds (r.sub - 16) value with
      | none => (.range, s)
      | some creds => (.ok, note (s.setLease k { l.endGrant with creds := creds }))

def execQuorumWrite (r : Req) (value : Bytes) (s : State) : Res :=
  match subLease r.index with
  | some k =>
    if r.index % 0x40 = 0x10 && (r.sub = 1 || r.sub = 2 || (16 ≤ r.sub && r.sub ≤ 31)) then
      .next (writeEntry r { host := true, officer := true } (if r.sub < 16 then 1 else 48) value (quorumSet r k value) s)
    else .next s
  | none => .next s

/-- The lease has a quorum configuration (R220). -/
def Lease.configured (l : Lease) : Bool := 1 ≤ l.quorumM && 1 ≤ l.quorumN

/-- Start collection (R221, R367): RANGE for USES or FRAMES out of range, BUSY while any collection runs, STATE without a
configuration. -/
def grantStart (k : Nat) (value : Bytes) (s : State) : DStat × State :=
  let l := s.lease k
  if 2 ≤ leNat value then (.range, s)
  else if leNat value = 0 then (.ok, s)
  else if !l.configured then (.state, s)
  else if l.reqUses = 0 || 65535 < l.reqUses || l.reqFrames = 0 || 16777215 < l.reqFrames then (.range, s)
  else if s.cust.collect.isSome then (.busy, s)
  else
    let c : Collect := { purpose := 0, lease := k, counted := [], endFrame := s.frame + s.dic.window, scope := l.reqScope.toNat,
                         uses := l.reqUses, frames := l.reqFrames }
    (.ok, { s with cust := { s.cust with collect := some c } })

def execGrantStart (r : Req) (value : Bytes) (s : State) : Res :=
  match subLease r.index with
  | some k => if r.index % 0x40 = 0x11 && r.sub = 4
    then .next (writeEntry r { host := true, lease := true } 1 value (grantStart k value) s) else .next s
  | none => .next s

def grantRevoke (k : Nat) (value : Bytes) (s : State) : DStat × State :=
  if 2 ≤ leNat value then (.range, s)
  else if leNat value = 0 then (.ok, s)
  else (.ok, s.modLease k Lease.endGrant)

def execGrantRevoke (r : Req) (value : Bytes) (s : State) : Res :=
  match subLease r.index with
  | some k => if r.index % 0x40 = 0x11 && r.sub = 5
    then .next (writeEntry r { host := true, lease := true } 1 value (grantRevoke k value) s) else .next s
  | none => .next s

/-- The boundary that begins frame f has been reached, or comes at the end of this tick. -/
def State.reachesFrame (s : State) (f : Nat) : Bool := 256 * f ≤ s.dsp.tick.toNat + 1

/-- GRANT_EXPIRY: the frames of the lease's grant have passed (R222). -/
def execGrantExpiry (k : Nat) (s : State) : Res :=
  match (s.lease k).grant with
  | none => .next s
  | some g => if s.reachesFrame g.endFrame then .next (s.modLease k Lease.endGrant) else .next s

/-- GRANT_WINDOW_EXPIRY: the collection window ends and nothing forms (R221); custodian event 7. -/
def execGrantWindowExpiry (s : State) : Res :=
  match s.cust.collect with
  | none => .next s
  | some c =>
    if s.reachesFrame c.endFrame then .next (raiseCust 7 { s with cust := { s.cust with collect := none } }) else .next s

end Sys2Proof.Machine
end

