-- ==== Sys2Proof/Machine/Benches.lean ====
section
/-! DEFINITION. The dispatcher and the benches: slot tables and swaps, quarantine, re-placement, power and wake
(R16-R65, R440-R443). -/

namespace Sys2Proof.Machine
open Sys2Proof

/-! ### Queues parked, dry or active (R28, R72, R93) -/

/-- The queue's home bench does not hold the lease, or its entries act as IDLE by quarantine or until the frame boundary
after a return (R28, R93). -/
def State.parkedHome (s : State) (k n : Nat) : Bool :=
  let b := s.bench n
  !s.holdsBench n k || b.state = .quarantined || b.idleUntilFrame

/-- ACTIVE, PARKED or DRY, as R72 decides for a queue of lease k homed on bench n. -/
def State.liveState (s : State) (k n : Nat) : QState :=
  if (s.lease k).quota = 0 then .dry else if s.parkedHome k n then .parked else .active

/-- Decide ACTIVE, PARKED and DRY afresh for every queue in one of these states. -/
def refreshQueues (s : State) : State :=
  { s with queues := s.queues.map fun e =>
      if e.2.state = .active ∨ e.2.state = .parked ∨ e.2.state = .dry
      then (e.1, { e.2 with state := s.liveState (e.1 / 8) e.2.home }) else e }

/-! ### Wake requests (R441, R442) -/

/-- A number among rising ones. -/
def insertUp (n : Nat) (l : List Nat) : List Nat := l.takeWhile (· < n) ++ n :: l.dropWhile (· < n)

/-- A wake request for bench n: it enters the FIFO if the bench is OFF, in ascending order among the requests of its tick that wait; for an absent
or quarantined bench, or while its PWR_FAIL bit is set, it is ignored with power event 6. -/
def wakeReq (n : Nat) (s : State) : State :=
  let b := s.bench n
  if s.nBench ≤ n || b.state = .quarantined || s.pwr.fail.getLsbD n then raisePower 6 s
  else if b.state = .off && !s.pwr.fifo.contains n then
    let old := s.pwr.fifo.take (s.pwr.fifo.length - s.pwr.newReq.length)
    let new := insertUp n s.pwr.newReq
    { s with pwr := { s.pwr with fifo := old ++ new, newReq := new } }
  else s

/-- WAKE_ADMISSION: the head of the FIFO is admitted, at most two in a tick; its ramp ends 6 tk later (R63). -/
def execWakeAdmission (s : State) : Res :=
  match s.pwr.fifo with
  | [] => .next s
  | n :: rest =>
    if 2 ≤ s.pwr.admitted || !s.mainPower then .next s
    else
      .next ({ s with pwr := { s.pwr with fifo := rest, newReq := s.pwr.newReq.filter (· ≠ n),
                                          admitted := s.pwr.admitted + 1 } }.modBench n
        fun b => { b with state := .waking, rampEnd := s.pw.now + 6 })

/-- Commands staged for the bench take P = B and their wake ticks when it becomes READY (R31, R33, R61). -/
def setReady (n : Nat) (s : State) : State :=
  { s with cmds := s.cmds.map fun e =>
      match e.2.stagedAt with
      | some t => if s.cmdHome e.2 = n && e.2.readyAt.isNone
          then (e.1, { e.2 with readyAt := some s.pw.now, wake := s.pw.now - t }) else e
      | none => e }

/-- BENCH_RAMP_END: READY after 6 tk, or OFF with PWR_FAIL and power event 2 when the rails are not good (R442). -/
def execBenchRampEnd (n : Nat) (railsGood : Bool) (s : State) : Res :=
  let b := s.bench n
  if b.state ≠ .waking || s.pw.now < b.rampEnd then .next s
  else if railsGood then
    .next (setReady n (s.setBench n { b with state := .ready, readyAt := s.pw.now }))
  else
    .next (raisePower 2 { s.setBench n { b with state := .off } with
      pwr := { s.pwr with fail := s.pwr.fail ||| BitVec.ofNat 16 (2 ^ n) } })

/-- The bench is idle in the sense of R440: no held core in the active or captured tables, no staged command homed on it,
no command assigned to its engines, no job in WAIT or RUN. -/
def State.benchIdle (s : State) (n : Nat) : Bool :=
  !(s.dsp.core.any fun e => e.1 / 4 = n && e.2 < 64) &&
  !(s.dsp.captured && s.dsp.coreC.any fun e => e.1 / 4 = n && e.2 < 64) &&
  !(s.cmds.any fun e => e.2.stagedAt.isSome && e.2.result.isNone && s.cmdHome e.2 = n) &&
  !(s.jobs.any fun e => e.1 / 65 / 5 = n && (e.2.state = .wait || e.2.state = .run))

/-- Gate a bench OFF: it keeps its contents (R440), power event 3. -/
def gateOff (n : Nat) (s : State) : State :=
  raisePower 3 (s.modBench n fun b => { b with state := .off, idleFrames := 0, offReq := false })

/-- BENCH_IDLE_OFF: at the frame boundary that ends PWR_IDLE_b idle frames (R440). -/
def execBenchIdleOff (n : Nat) (s : State) : Res :=
  let b := s.bench n
  let limit := (tget 0 s.pwr.idle n).toNat
  if b.state = .ready && s.ftick = 255 && limit ≠ 0 && limit ≤ b.idleFrames + 1 && !b.busy && s.benchIdle n
  then .next (gateOff n s) else .next s

/-- PWR_CTL.OFF: the named benches go OFF at the next frame boundary if they are idle in the frame (R443). -/
def pwrOff (mask : BitVec 16) (s : State) : State :=
  forN s.nBench (fun n t => if mask.getLsbD n then t.modBench n fun b => { b with offReq := true } else t) s

def execPwrOffWrite (mask : BitVec 16) (s : State) : Res :=
  if s.mainPower then .next (pwrOff mask (wrote 0x60090004 s)) else .next s

/-- PWR_WAKE: requests enter in ascending bench number (R441, R443). -/
def pwrWake (mask : BitVec 16) (s : State) : State :=
  forN 16 (fun n t => if mask.getLsbD n then wakeReq n t else t) s

def execPwrWakeWrite (mask : BitVec 16) (s : State) : Res :=
  if s.mainPower then .next (pwrWake mask s) else .next s

/-! ### GO, CANCEL and the shadow tables (R49, R50) -/

/-- The dispatcher's swap request (R50): this frame's boundary, or from frame tick 254 the one after. -/
def dspGo (s : State) : State :=
  if s.dsp.pend then s
  else { s with dsp := { s.dsp with pend := true, captured := false, at_ := s.frame + (if s.ftick ≤ 253 then 1 else 2) } }

def dspCancel (s : State) : State :=
  if s.dsp.pend && !s.dsp.captured && !s.dsp.rplPend then { s with dsp := { s.dsp with pend := false } } else s

def execDspGo (s : State) : Res := if s.mainPower then .next (dspGo s) else .next s
def execDspCancel (s : State) : Res := if s.mainPower then .next (dspCancel s) else .next s

/-- A byte that a table entry may hold on the variant: a present lease or IDLE (R47, R49). -/
def State.entryOk (s : State) (v : Nat) : Bool := v = 0xFF || v < s.nLease

/-- A write of a whole shadow register at a DSP offset with its new value: refused with RANGE and the island decode event,
or stored (R49). Other offsets change nothing. -/
def shadowWrite (off : Nat) (val : BitVec 64) (s : State) : State :=
  let refuse := raiseIsland 48 { s with out := { s.out with bus := .range } }
  let b := fun j => val.toNat / 256 ^ j % 256
  let ok := { s with out := { s.out with bus := .ok [] } }
  if off = 0x10 then
    if val.toNat < 2 ^ s.nLease then { ok with dsp := { s.dsp with policyS := val } } else refuse
  else if 0x800 ≤ off && off < 0x840 && off % 4 = 0 then
    let i := (off - 0x800) / 4
    if (List.range 4).all fun j => s.entryOk (b j) && (4 * i + j < 4 * s.nBench || b j = 0xFF)
    then { ok with dsp := { s.dsp with coreS := (List.range 4).foldl (fun t j => tset 0xFF t (4 * i + j) (b j)) s.dsp.coreS } }
    else refuse
  else if 0x1000 ≤ off && off < 0x1000 + 0x100 * (5 * s.nBench) && off % 4 = 0 then
    let i := (off - 0x1000) / 4
    if (List.range 4).all fun j => s.entryOk (b j)
    then { ok with dsp := { s.dsp with sltS := (List.range 4).foldl (fun t j => tset 0xFF t (4 * i + j) (b j)) s.dsp.sltS } }
    else refuse
  else s

def execShadowTableWrite (off : Nat) (val : BitVec 64) (s : State) : Res :=
  if s.mainPower then .next (shadowWrite off val s) else .next s

/-! ### Cores that start and stop (R19, R51, R276) -/

/-- The windows a core loads at its start: the image's descriptors, for the island window 0 over the boot ROM (R311). -/
def startWindows (image : Bytes) : Tbl (BitVec 64) :=
  let n := fieldLE image 34 1
  (List.range n).foldl (fun t i => tset 0 t i (BitVec.ofNat 64 (fieldLE image (2048 + 8 * i) 8))) []

/-- A wiped core at its reset vector, with the windows of the image; RESET while no program is loaded (R276, R316). -/
def freshCore (image : Bytes) : Core := { state := if image = [] then .reset else .run, win := startWindows image }

/-- A core leaves a long instruction at an element boundary with RSM set (R286). -/
def stopLong (x : Core) : Core := if x.inLong then { x with long := none, rsm := true, winUse := none } else x

/-- A PRG_CALL that a core was serving completes with PROGRAM (R118). -/
def failCall (c : Nat) (s : State) : State :=
  match (s.core c).serving with
  | none => s
  | some v => endCmd v.cmd 0x0132 0 [] s

/-- Wipe a core and put it at its reset vector for the lease that holds it. -/
def restartCore (c : Nat) (s : State) : State :=
  let s := failCall c s
  let k := s.coreOwner c
  s.setCore c (freshCore (if k < 64 then (s.lease k).inForce else []))

/-- The code of an image (R292). -/
def codeOf (image : Bytes) : Bytes := slice image (2048 + 8 * fieldLE image 34 1) (fieldLE image 32 2)

/-- The dispatcher's copy of an image into the program page of lease k on bench n, the lowest page it holds there; the rest is zeroed (R293,
R296, R297). -/
def copyProgram (n k : Nat) (image : Bytes) (s : State) : State :=
  match s.pagesOf n k with
  | [] => s
  | p :: _ => (s.ramClear (pageBase n p) (pageBase n p + 0x8000)).ramWrite (pageBase n p) (if image = [] then [] else codeOf image)

/-- The copy on the bench of core c for the lease that holds it (R297). -/
def copyFor (c : Nat) (s : State) : State :=
  if s.coreOwner c < 64 then copyProgram (c / 4) (s.coreOwner c) (s.lease (s.coreOwner c)).inForce s else s

/-- Cores that start at a frame boundary without a table change: wiped, at their reset vectors, over a program page that holds the current
image (R36, R279, R297). -/
def startCores (l : List Nat) (s : State) : State := forEach l (fun c t => copyFor c (restartCore c t)) s

/-! ### Capture and swap (R51) -/

/-- Cores whose entry changes at the pending swap, and every core of a lease whose program changes (R51, R296). -/
def State.changingCores (s : State) (next : Tbl Nat) : List Nat :=
  (List.range (4 * s.nBench)).filter fun c =>
    tget 0xFF s.dsp.core c ≠ tget 0xFF next c || s.dsp.fresh.contains (tget 0xFF next c)

/-- Bytes of a table of 0xFF defaults. -/
def tblBytes (t : Tbl Nat) (lo n : Nat) : Bytes := (List.range n).map fun i => BitVec.ofNat 8 (tget 0xFF t (lo + i))

/-- Lease k's own view of tables (R53): for each present bench its five engine tables and its four core bytes, the lease's own number kept,
every other entry 0xFE. -/
def ownView (benches : Nat) (slt core : Tbl Nat) (k : Nat) : Bytes :=
  let see := fun (v : Nat) => if v = k then BitVec.ofNat 8 k else (0xFE : Byte)
  (List.range benches).flatMap fun b =>
    (List.range 1280).map (fun i => see (tget 0xFF slt (1280 * b + i))) ++ (List.range 4).map fun i => see (tget 0xFF core (4 * b + i))

/-- The generations of the views that a change of the tables since `d` changes (R362): +0x08 subindex 1, and 2 of the captured shadow. -/
def bumpViews (d : Dsp) (s : State) : State :=
  let n := s.nBench
  if d.slt = s.dsp.slt && d.core = s.dsp.core && d.captured = s.dsp.captured && d.sltC = s.dsp.sltC && d.coreC = s.dsp.coreC then s
  else forN s.nLease (fun k t =>
    let t := if ownView n d.slt d.core k = ownView n s.dsp.slt s.dsp.core k then t else bumpGen (0x4008 + 0x40 * k) 1 t
    let old := if d.captured then ownView n d.sltC d.coreC k else []
    let new := if s.dsp.captured then ownView n s.dsp.sltC s.dsp.coreC k else []
    if old = new then t else bumpGen (0x4008 + 0x40 * k) 2 t) s

/-- SHADOW_CAPTURE at the end of frame tick 253 (R51): every shadow is captured, changing cores stop and are wiped, and every
bench that the captured shadow uses is asked to wake (R441). -/
def execShadowCapture (s : State) : Res :=
  if !s.mainPower || !s.dsp.pend || s.dsp.captured || s.dsp.at_ ≠ s.frame + 1 || s.ftick ≠ 253 then .next s
  else
    let d := { s.dsp with captured := true, policyC := s.dsp.policyS, coreC := s.dsp.coreS, sltC := s.dsp.sltS,
                          pageC := s.dsp.pageS }
    let t := { s with dsp := d }
    let t := forEach (s.changingCores d.coreC) (fun c t => (failCall c t).setCore c { state := .reset }) t
    .next (bumpViews s.dsp <| forN s.nBench (fun n t =>
      if (d.sltC.any fun e => e.1 / 256 / 5 = n) || (d.coreC.any fun e => e.1 / 4 = n) then wakeReq n t else t) t)

/-- The 16-byte report of R41. -/
def Move.report (m : Move) (frame : Nat) : Bytes :=
  leBytes 1 m.src ++ leBytes 1 m.dst ++ leBytes 1 m.pass ++ [0] ++ leBytes 4 frame ++ leBytes 2 m.ticks ++
    leBytes 2 m.short ++ leBytes 1 m.cores ++ leBytes 1 m.pages ++ leBytes 2 0

/-- Report one re-placement decision: report object, island event 49, QEV message (R41). -/
def reportMove (m : Move) (frame : Nat) (s : State) : State :=
  let s := s.modLease m.lease fun l => { l with report := m.report frame }
  sendQev m.lease (raiseIslandOf 49 m.lease s)

/-- Rehome the moved lease's queues, return their waiting commands to residency, and zero the pages it has been moved to (R39, R40). -/
def applyMove (m : Move) (s : State) : State :=
  if m.pass = 3 then s
  else
    let isMoved : Nat → Queue → Bool := fun i q => i / 8 = m.lease && q.home = m.src && q.state ≠ .disabled
    let cmds := s.cmds.map fun e =>
      if e.2.lease = m.lease && s.cmdHome e.2 = m.src && !e.2.executing && e.2.result.isNone
      then (e.1, e.2.unstaged) else e
    let queues := s.queues.map fun e =>
      if isMoved e.1 e.2 then
        (e.1, { e.2 with cfg := BitVec.ofNat 64 (e.2.cfg.toNat - 2 ^ 12 * m.src + 2 ^ 12 * m.dst),
                         state := if e.2.state = .parked then .active else e.2.state }) else e
    let s := { s with cmds := cmds, queues := queues }
    m.placed.foldl (fun t p => t.ramClear (pageBase m.dst p) (pageBase m.dst p + 0x8000)) s

/-- Clear a lease's program records on every engine, ending its jobs with a status at the boundary after model tick `t0`; what its requests held in
its pages is zeroed, what its host commands hold in staging stays (R123, R145, R174, R182, R296). -/
def clearRecords (t0 k status : Nat) (s : State) : State :=
  let s := forN 80 (fun q t =>
    (stopJobAfter t0 q k status t).modJob q k fun j => { j with cells := [], polys := [], out := [], drawn := [], key := none }) s
  let s := dropHeld (fun x => x.lease = k && x.hi ≤ stagingBase) s
  clearContexts (fun x => s.ctxOwner x = k && x / 8 < 16) s

/-- FRAME_SWAP at the frame boundary (R51): captured tables and policy become active, changing cores start at their reset
vector, re-placements of this boundary take effect with their reports, queues change state, an apply is done. A re-placement
due at a later boundary keeps a swap pending for it (R39). A page that an ordinary change gives to another lease keeps its bytes, and the command
area of a bench holds none of a command's data (log 110). -/
def execFrameSwap (s : State) : Res :=
  if !s.mainPower || !s.dsp.pend || !s.dsp.captured || s.dsp.at_ ≠ s.frame + 1 || s.ftick ≠ 255 then .next s
  else
    let f := s.dsp.at_
    let changing := s.changingCores s.dsp.coreC
    let now := s.dsp.repl.filter fun r => r.frame ≤ f
    let later := s.dsp.repl.filter fun r => f < r.frame
    let moves := now.flatMap Replacement.moves
    let fresh := s.dsp.fresh
    let late := s.dsp.applyPend && s.dsp.applyLate
    let d := { s.dsp with policy := s.dsp.policyC, core := s.dsp.coreC, slt := s.dsp.sltC, page := s.dsp.pageC,
                          captured := false, fresh := [], repl := later, rplPend := later ≠ [], pend := late || later ≠ [],
                          at_ := if late then f + 1 else match later with | [] => f | r :: _ => r.frame,
                          lastApply := if s.dsp.applyPend && !late then BitVec.ofNat 64 f else s.dsp.lastApply,
                          applyPend := late, applyLate := false }
    let t := { s with dsp := d }
    let t := forEach fresh (fun k t =>
      let st : ProgState := if (t.lease k).copied = [] then .none else .loaded
      clearRecords t.pw.now k 0x0A (t.modLease k fun l =>
        { l with inForce := l.copied, progState := if l.verifying.isSome || l.body ≠ [] then .verifying else st })) t
    let t := forEach changing restartCore t
    let t := forEach moves applyMove t
    let t := forEach changing copyFor t
    let t := forEach moves (fun m t => reportMove m f t) t
    .next (bumpViews s.dsp (refreshQueues t))

/-! ### Quarantine (R34-R37) -/

/-- QUARANTINE with software as the cause: 0xFFFF, unless an event of the tick quarantines the bench (R34). -/
def benQuarantine (n : Nat) (s : State) : State := if n < s.nBench then pendBench n 0xFFFF s else s

def execBenQuarantineWrite (n : Nat) (s : State) : Res :=
  if s.mainPower then .next (benQuarantine n (wrote (benCtl n) s)) else .next s

/-- RETURN: a wiped bench returns READY and empty; its stored entries act from the next frame boundary (R36, R52). -/
def benReturn (n : Nat) (s : State) : State :=
  let b := s.bench n
  if b.state = .quarantined && b.wipeDone then
    s.setBench n { b with state := .ready, wipeDone := false, causeV := false, cause := 0, idleUntilFrame := true,
                          readyAt := s.pw.now, idleFrames := 0, busy := true }
  else s

def execBenReturn (n : Nat) (s : State) : Res := if s.mainPower then .next (benReturn n (wrote (benCtl n) s)) else .next s

/-- Frame F of R39: the first whose capture falls at least 32 tk after the quarantine's tick. -/
def replFrame (tq : Nat) : Nat := ceilDiv (tq + 32 - 253) 256 + 1

/-- Leases that hold an engine entry, core or page on bench n in the shadow copies, ascending (R38). -/
def State.heldBy (s : State) (n : Nat) : List Nat :=
  (List.range s.nLease).filter fun k =>
    (s.dsp.sltS.any fun e => e.2 = k && e.1 / 256 / 5 = n) || (s.dsp.coreS.any fun e => e.2 = k && e.1 / 4 = n) ||
    (s.dsp.pageS.any fun e => e.2 = k && e.1 / 64 = n)

/-- Entries a lease holds on bench n in the shadow copies, summed over engines. -/
def State.heldTicks (s : State) (n k : Nat) : Nat :=
  (s.dsp.sltS.filter fun e => e.2 = k && e.1 / 256 / 5 = n).length

/-- Executing commands that satisfy a test complete with a status, keeping the ticks used (R35, R37, R102). -/
def stopCommands (p : Cmd → Bool) (status : Nat) (s : State) : State :=
  forEach (s.cmdsWhere fun c => c.executing && p c) (fun h t => endCmd h status 0 [] t) s

/-- BENCH_QUARANTINE at the boundary after the quarantine (R35): engines, cores and commands stop, the wedge erases, waiting
commands lose their residency, STATE and CAUSE are set, the wipe starts, queues park (R93), held ranges and contexts clear;
with AUTO_RPL the dispatcher asks for the re-placement swap (R39), without it each lease is reported at once (R42). -/
def execBenchQuarantine (n : Nat) (s : State) : Res :=
  let b := s.bench n
  match b.qPend with
  | none => .next s
  | some (cause, t0) =>
    let tq := s.dsp.tick.toNat - (s.pw.now - t0)
    let s := stopCommands (fun c => s.cmdHome c = n) 0x000A s
    let s := forN 4 (fun i t => t.setCore (4 * n + i) {}) s
    let s := forN 5 (fun e t => forN 64 (fun k t =>
      (stopJobAfter t0 (5 * n + e) k 0x0A (t.modJob (5 * n + e) k fun j => { j with late := [] })).modJob (5 * n + e) k fun j =>
        { j with cells := [], polys := [], out := [], drawn := [], key := none }) t) s
    let s := clearContexts (fun x => x / 8 = n) s
    let cmds := s.cmds.map fun e =>
      if s.cmdHome e.2 = n && e.2.result.isNone then (e.1, e.2.unstaged) else e
    let s := dropHeld (fun x => x.bench = n) { s with cmds := cmds }
    let s := s.ramClear (benchBase n) (benchBase n + 0x200000)
    let s := s.setBench n { b with qPend := none, state := .quarantined, cause := BitVec.ofNat 16 cause, causeV := true,
                                   wipeDone := false, wipeEnd := t0 + 1 + 1536, lines := [], idleUntilFrame := false }
    let s := { s with pwr := { s.pwr with fifo := s.pwr.fifo.filter (· ≠ n), newReq := s.pwr.newReq.filter (· ≠ n) } }
    let s := s.setExp n { asks := true }
    let s := refreshQueues s
    if b.autoRpl then
      let f := replFrame tq
      let r : Replacement := { bench := n, at_ := tq, frame := f }
      .next { s with dsp := { s.dsp with repl := s.dsp.repl ++ [r], rplPend := true, pend := true,
                                         at_ := if s.dsp.pend then s.dsp.at_ else f,
                                         captured := s.dsp.pend && s.dsp.captured } }
    else
      .next (forEach (s.heldBy n) (fun k t =>
        reportMove { lease := k, src := n, dst := 0xFF, pass := 3, ticks := 0, short := s.heldTicks n k, cores := 0, pages := 0 }
          ((tq + 1) / 256) t) s)

/-- Give a seed to expander e (R231, R233): it is instantiated with the nonce DSP_TICK and eight zero bytes, and the unit identifier and e as the
personalisation string; or reseeded, with REQS, STRETCH and BLOCKED back to 0, and READY from the next tick if it was blocked. The tick makes no
requests. -/
def giveSeed (e : Nat) (seed : Bytes) (s : State) : State :=
  let x := s.exp e
  if x.inst.isNone then
    s.setExp e { asks := false, inst := some s.dsp.tick, seedAt := some s.pw.now,
                 drbg := Config.drbgInit seed (leBytes 8 s.dsp.tick.toNat ++ List.replicate 8 0) (fixLen 16 s.ident.unit ++ leBytes 1 e) }
  else
    s.setExp e { x with asks := false, reqs := 0, stretch := false, blocked := false, seedAt := some s.pw.now,
                        readyNext := x.readyNext || x.blocked, drbg := Config.drbgReseed x.drbg x.reqs.toNat seed }

/-- BENCH_WIPE_DONE: 1,536 tk after the boundary; the bench's expander has been reinstantiated from a pool seed (R35, R237). -/
def execBenchWipeDone (n : Nat) (s : State) : Res :=
  let b := s.bench n
  if b.state ≠ .quarantined || b.wipeDone || s.pw.now < b.wipeEnd then .next s
  else
    let done := fun (t : State) => t.setBench n { b with wipeDone := true }
    if (s.exp n).inst.isSome then .next (done s)
    else
      match s.rng.pool with
      | [] => .next s
      | seed :: rest => .next (done (giveSeed n seed { s with rng := { s.rng with pool := rest } }))

/-- LEASE_QUARANTINE at the boundary after the quarantine (R37): executing commands stop, queues enter QUARANTINED, records
and contexts clear, the grant is revoked (R222), QEV is sent (R89). -/
def quarantineLease (k : Nat) (s : State) : State :=
  let l := s.lease k
  if l.qPend.isNone then s
  else
    let s := stopCommands (fun c => c.lease = k) 0x000A s
    let s := clearRecords (l.qPend.getD 0) k 0x0A s
    let s := s.modLease k fun l => { l.endGrant with qPend := none, quarantined := true }
    let queues := s.queues.map fun e =>
      if e.1 / 8 = k && (e.2.state = .active || e.2.state = .parked || e.2.state = .dry)
      then (e.1, { e.2 with state := .quarantined }) else e
    let cores := s.cores.map fun (e : Nat × Core) => if s.coreOwner e.1 = k then (e.1, stopLong e.2) else e
    sendQev k (dropHeld (fun x => x.lease = k) { s with queues := queues, cores := cores })

def execLeaseQuarantine (k : Nat) (s : State) : Res := .next (quarantineLease k s)

/-! ### Re-placement search (R38) -/

/-- Candidate order: spare benches ascending, then the others from the bench after the quarantined one, wrapping; only READY
or OFF benches that are not quarantined. -/
def State.candidates (s : State) (n : Nat) : List Nat :=
  let good := fun m => m ≠ n && ((s.bench m).state = .ready || (s.bench m).state = .off) && (s.bench m).qPend.isNone
  ((List.range s.nBench).filter fun m => (s.bench m).spare && good m) ++
    (((List.range s.nBench).map fun i => (n + 1 + i) % s.nBench).filter fun m => !(s.bench m).spare && good m)

/-- Tick positions lease k holds on engine q in the shadow. -/
def Dsp.positions (d : Dsp) (q k : Nat) : List Nat := (List.range 256).filter fun i => tget 0xFF d.sltS (256 * q + i) = k
def Dsp.idleAt (d : Dsp) (q i : Nat) : Bool := tget 0xFF d.sltS (256 * q + i) = 0xFF
def Dsp.coresOf (d : Dsp) (n k : Nat) : List Nat := (runSlots (4 * n) 4).filter fun c => tget 0xFF d.coreS c = k
def Dsp.pagesIn (d : Dsp) (n k : Nat) : List Nat := (List.range 56).filter fun p => tget 0xFF d.pageS (64 * n + p) = k

/-- Cores and pages enough for what the lease held. -/
def Dsp.roomFor (d : Dsp) (n m k : Nat) : Bool :=
  (d.coresOf n k).length ≤ (d.coresOf m 0xFF).length && (d.pagesIn n k).length ≤ (d.pagesIn m 0xFF).length

def Dsp.pass1 (d : Dsp) (n k m : Nat) : Bool :=
  d.roomFor n m k && (List.range 5).all fun e => (d.positions (5 * n + e) k).all fun i => d.idleAt (5 * m + e) i

def Dsp.pass2 (d : Dsp) (n k m : Nat) : Bool :=
  d.roomFor n m k && (List.range 5).all fun e =>
    (d.positions (5 * n + e) k).length ≤ (d.positions (5 * m + e) 0xFF).length

/-- Move lease k from bench n to bench m in the shadow: the same ticks (pass 1) or the lowest IDLE ones (pass 2), the lowest
unassigned cores and pages. -/
def Dsp.move (d : Dsp) (n k m pass : Nat) : Dsp :=
  let slt := (List.range 5).foldl (fun t e =>
    let from_ := d.positions (5 * n + e) k
    let to_ := if pass = 1 then from_ else (d.positions (5 * m + e) 0xFF).take from_.length
    let t := from_.foldl (fun t i => tset 0xFF t (256 * (5 * n + e) + i) 0xFF) t
    to_.foldl (fun t i => tset 0xFF t (256 * (5 * m + e) + i) k) t) d.sltS
  let cf := d.coresOf n k
  let ct := (d.coresOf m 0xFF).take cf.length
  let core := ct.foldl (fun t c => tset 0xFF t c k) (cf.foldl (fun t c => tset 0xFF t c 0xFF) d.coreS)
  let pf := d.pagesIn n k
  let pt := (d.pagesIn m 0xFF).take pf.length
  let page := pt.foldl (fun t p => tset 0xFF t (64 * m + p) k) (pf.foldl (fun t p => tset 0xFF t (64 * n + p) 0xFF) d.pageS)
  { d with sltS := slt, coreS := core, pageS := page }

/-- The search for one lease: pass 1, then pass 2, over the candidates in order; otherwise pass 3. -/
def searchLease (n k : Nat) (s : State) : Move × State :=
  let d := s.dsp
  let cand := s.candidates n
  let ticks := s.heldTicks n k
  let done : Nat → Nat → Move × State := fun m pass =>
    ({ lease := k, src := n, dst := m, pass := pass, ticks := ticks, short := 0, cores := (d.coresOf n k).length,
       pages := (d.pagesIn n k).length, placed := (d.pagesIn m 0xFF).take (d.pagesIn n k).length }, { s with dsp := d.move n k m pass })
  match cand.find? (d.pass1 n k) with
  | some m => done m 1
  | none =>
    match cand.find? (d.pass2 n k) with
    | some m => done m 2
    | none => ({ lease := k, src := n, dst := 0xFF, pass := 3, ticks := 0, short := ticks, cores := 0, pages := 0 }, s)

/-- REPLACEMENT_SEARCH: the dispatcher handles the leases of the bench in ascending number and writes the shadow copies,
after the capture of a host swap due at an earlier boundary (R38, R39). -/
def execReplacementSearch (n : Nat) (s : State) : Res :=
  match s.dsp.repl.find? (fun r => r.bench = n && !r.searched) with
  | none => .next s
  | some r =>
    if s.dsp.pend && !s.dsp.captured && s.dsp.at_ < r.frame then .next s
    else
      let (moves, t) := (s.heldBy n).foldl (fun (acc : List Move × State) k =>
        let (m, t) := searchLease n k acc.2
        (acc.1 ++ [m], t)) ([], s)
      .next { t with dsp := { t.dsp with repl := t.dsp.repl.map fun x =>
        if x = r then { x with searched := true, moves := moves } else x } }

end Sys2Proof.Machine
end

