-- ==== Sys2Proof/Machine/Operands.lean ====
section
/-! DEFINITION. The operand forms of the command catalogue (R95-R118): engine classes, operand fields, key references,
input lengths, new slots, published counts, randomness and output lengths, and the checks of R98. -/

namespace Sys2Proof.Machine
open Sys2Proof

/-! ### Opcode map (R104) -/

/-- Every opcode of the catalogue, KEY_PUB's class being that of its key (R116). -/
def opClass (op : Nat) : Option Cls :=
  if op = 0x0000 ∨ op = 0x0605 ∨ op = 0x0606 then some .free
  else if 0x0100 ≤ op ∧ op ≤ 0x0102 ∨ op = 0x0603 then some .digest
  else if 0x0200 ≤ op ∧ op ≤ 0x0207 ∨ op = 0x0600 ∨ op = 0x0601 ∨ op = 0x0602 ∨ op = 0x0700 then some .wedge
  else if op = 0x0300 ∨ op = 0x0301 ∨ 0x0310 ≤ op ∧ op ≤ 0x0313 ∨ op = 0x0320 ∨ op = 0x0321 ∨ op = 0x0330
    ∨ op = 0x0500 ∨ op = 0x0501 then some .cutter
  else if 0x0400 ≤ op ∧ op ≤ 0x0402 ∨ 0x0410 ≤ op ∧ op ≤ 0x0412 then some .splitter
  else if op = 0x0604 then some .free
  else if op = 0x0800 then some .core
  else none

/-- Rows that take two yard references: format 3 only (R78, R96). -/
def opFmt3 (op : Nat) : Bool := op = 0x0500 ∨ op = 0x0501 ∨ op = 0x0601

/-- Rows without an operand block, and rows that may be carried as a header alone (R95, R96). -/
def opNoUnit3 (op : Nat) : Bool :=
  op = 0x0000 ∨ op = 0x0300 ∨ op = 0x0310 ∨ op = 0x0311 ∨ op = 0x0312 ∨ op = 0x0604 ∨ op = 0x0605 ∨ op = 0x0606
def opHeaderOnly (op : Nat) : Bool := op = 0x0000 ∨ op = 0x0605

/-! ### Operand fields (R96) -/

def Cmd.opa (c : Cmd) : Nat := fieldLE c.u3 0 4
def Cmd.target (c : Cmd) : Nat := fieldLE c.u3 4 2
def Cmd.opb (c : Cmd) : Nat := fieldLE c.u3 4 4
def Cmd.opc (c : Cmd) : Nat := fieldLE c.u3 8 4
def Cmd.p0 (c : Cmd) : Nat := fieldLE c.u3 12 1
def Cmd.p1 (c : Cmd) : Nat := fieldLE c.u3 13 1
def Cmd.attr (c : Cmd) : BitVec 16 := BitVec.ofNat 16 (fieldLE c.u3 14 2)
def Cmd.refA (c : Cmd) : BitVec 32 := BitVec.ofNat 32 c.opa
/-- AAD length of the GCM rows. -/
def Cmd.aad (c : Cmd) : Nat := fieldLE c.u3 12 4

/-- Every byte of unit 3 outside the listed fields is 0. -/
def zeroBut (u3 : Bytes) (used : List (Nat × Nat)) : Bool :=
  (List.range 16).all fun i => (used.any fun f => f.1 ≤ i && i < f.1 + f.2) || fieldLE u3 i 1 = 0

/-- Digest output bytes and bytes per tick of ALG (R106). -/
def algOut (alg : Nat) : Nat := if alg = 1 ∨ alg = 4 then 32 else if alg = 2 ∨ alg = 5 then 48 else 64
def algK (alg : Nat) : Nat :=
  if alg = 1 then 4096 else if alg = 2 ∨ alg = 3 then 8192 else if alg = 4 then 7680 else if alg = 5 then 6144
  else if alg = 6 then 4096 else if alg = 7 then 9216 else 7680

/-- The type a KEYGEN_EC, KEY_GEN or KEY_DERIVE names in P0. -/
def ecType (p0 : Nat) : Nat := if p0 = 1 then 0x10 else if p0 = 2 then 0x11 else if p0 = 3 then 0x12 else 0x13

def anyType : List Nat := [0x01, 0x02, 0x03, 0x04, 0x10, 0x11, 0x12, 0x13, 0x20, 0x21, 0x22, 0x30, 0x31, 0x3E]
def pubTypes : List Nat := [0x10, 0x11, 0x12, 0x13, 0x20, 0x21, 0x22, 0x30, 0x31]

/-- The header reference's rule (R95): types, attributes of which one is needed, whether a reference of 0 may be inline.
None: the row takes no header reference. -/
def keySpec (op : Nat) : Option (List Nat × Nat × Bool) :=
  if op = 0x0101 then some ([0x03], aSIGN, false)
  else if op = 0x0102 then some ([0x03], aVERIFY, false)
  else if op = 0x0200 ∨ op = 0x0203 ∨ op = 0x0204 then some ([0x01, 0x02], aENCRYPT, false)
  else if op = 0x0201 ∨ op = 0x0205 then some ([0x01, 0x02], aDECRYPT, false)
  else if op = 0x0202 then some ([0x01, 0x02], aENCRYPT + aDECRYPT, false)
  else if op = 0x0206 then some ([0x01, 0x02], aSIGN, false)
  else if op = 0x0207 then some ([0x01, 0x02], aVERIFY, false)
  else if op = 0x0300 then some (tRSA, aSIGN + aDECRYPT, false)
  else if op = 0x0301 then some (tRSA, aVERIFY + aENCRYPT, true)
  else if op = 0x0310 ∨ op = 0x0500 then some ([0x10], aSIGN, false)
  else if op = 0x0311 ∨ op = 0x0501 then some ([0x10], aVERIFY, true)
  else if op = 0x0312 then some ([0x12, 0x13], aSIGN, false)
  else if op = 0x0313 then some ([0x12, 0x13], aVERIFY, true)
  else if op = 0x0320 then some ([0x11], aDERIVE, false)
  else if op = 0x0321 then some ([0x12, 0x13], aDERIVE, false)
  else if op = 0x0401 then some ([0x30], aSIGN, false)
  else if op = 0x0402 then some ([0x30], aVERIFY, true)
  else if op = 0x0411 then some ([0x31], aENCRYPT, true)
  else if op = 0x0412 then some ([0x31], aDECRYPT, false)
  else if op = 0x0601 then some ([0x02], aWRAP, false)
  else if op = 0x0602 then some ([0x02], aUNWRAP, false)
  else if op = 0x0603 then some (anyType, aDERIVE, false)
  else if op = 0x0604 then some (pubTypes, 0, false)
  else if op = 0x0605 then some (anyType.erase 0x3E, 0, false)
  else if op = 0x0606 then some (anyType, 0, false)
  else none

/-- The rule of reference A. -/
def keySpecA (op : Nat) : Option (List Nat × Nat × Bool) :=
  if op = 0x0500 then some ([0x30], aSIGN, false)
  else if op = 0x0501 then some ([0x30], aVERIFY, true)
  else if op = 0x0601 then some (anyType, aWRAP, false)
  else none

/-- Type of the key in a slot the header reference names; used only after the reference has passed. -/
def State.keyType (s : State) (r : BitVec 32) : Nat := (s.slot (refSlot r)).type

/-! ### Blob headers (R216, R217) -/

def blobType (b : Bytes) : Nat := fieldLE b 2 1
def blobLen (b : Bytes) : Nat := fieldLE b 3 1
def blobAttr (b : Bytes) : BitVec 16 := BitVec.ofNat 16 (fieldLE b 4 2)

/-- The blob length that MODE, TYPE and LEN imply; none where they imply none. -/
def blobSize (mode type len : Nat) : Option Nat :=
  if 1 < mode ∨ (typeUse type).isNone ∨ !lenOk type len then none
  else
    let v := typeValue type len
    some (if mode = 0 then 40 + 8 * ceilDiv v 8 else 44 + v)

/-- A header that is valid apart from its length (R217). -/
def blobHeaderOk (b : Bytes) : Bool :=
  let t := blobType b
  fieldLE b 0 1 = 1 && fieldLE b 1 1 ≤ 1 && (typeUse t).isSome && lenOk t (blobLen b) && attrOk t (blobAttr b) &&
    fieldLE b 6 1 = typeRun t && (if t = 0x13 then fieldLE b 7 1 ≤ 1 else fieldLE b 7 1 = 0) &&
    fieldLE b 8 4 = (if isRsa t then 65537 else 0) && fieldLE b 12 4 = 0

/-! ### Input lengths (item 2 of R98) -/

def mib4 : Nat := 4194304

/-- The input length is one the row permits for its operand fields; true where the field that decides it is invalid, which
item 3 reports. `t` is the type of the header key, 0 for none. -/
def lengthOk (c : Cmd) (t : Nat) : Bool :=
  let op := c.opcode
  let l := c.inLen
  let inl := c.yref = 0
  if op = 0x0100 then true
  else if op = 0x0101 then c.p0 = 0 || 8 < c.p0 || (c.p0 ≤ 6 && c.p1 ≠ 0) || c.p1 ≤ l
  else if op = 0x0102 then
    let bad := if c.p0 ≤ 6 then c.p1 ≠ 0 || c.opc < 16 || algOut c.p0 < c.opc else c.opc ≠ c.opa || c.opa < 16 || 64 < c.opa
    c.p0 = 0 || 8 < c.p0 || bad || c.p1 + c.opc ≤ l
  else if op = 0x0200 ∨ op = 0x0201 then l % 16 = 0 && l ≤ mib4
  else if op = 0x0202 ∨ op = 0x0206 then l ≤ mib4
  else if op = 0x0203 ∨ op = 0x0204 then c.aad ≤ 65536 && c.aad ≤ l && l - c.aad ≤ mib4
  else if op = 0x0205 then c.aad ≤ 65536 && c.aad + 16 ≤ l && l - c.aad - 16 ≤ 65536
  else if op = 0x0207 then c.opc < 8 || 16 < c.opc || c.opc ≤ l
  else if op = 0x0300 then l = rsaLen t
  else if op = 0x0301 then
    if inl then (c.p0 = 0 || 3 < c.p0 || l = 2 * rsaLen (0x1F + c.p0)) else l = rsaLen t
  else if op = 0x0310 then l ≤ 4096
  else if op = 0x0311 then
    let f := 64 + if inl then 32 else 0
    f ≤ l && l ≤ f + 4096
  else if op = 0x0312 then l = (if t = 0x12 then 32 else 48)
  else if op = 0x0313 then
    if inl then (c.p0 = 0 || 2 < c.p0 || l = if c.p0 = 1 then 160 else 240) else l = if t = 0x12 then 96 else 144
  else if op = 0x0320 then l = 32
  else if op = 0x0321 then l = if t = 0x12 then 64 else 96
  else if op = 0x0401 ∨ op = 0x0500 then l ≤ 4096 && c.p0 ≤ l
  else if op = 0x0402 then
    let f := 3309 + if inl then 1952 else 0
    f + c.p0 ≤ l && l ≤ f + 4096
  else if op = 0x0501 then
    let f := 64 + 3309 + (if inl then 32 else 0) + if c.opa = 0 then 1952 else 0
    f + c.p0 ≤ l && l ≤ f + 4096
  else if op = 0x0411 then l = if inl then 1184 else 0
  else if op = 0x0412 then l = 1088
  else if op = 0x0602 then
    16 ≤ l && match blobSize (fieldLE c.input 1 1) (blobType c.input) (blobLen c.input) with
      | none => true
      | some n => l = n
  else if op = 0x0603 ∨ op = 0x0800 then l ≤ 4096
  else l = 0

/-! ### New slots: type, length, attributes, parent (R202, R116) -/

structure NewSlot where
  type   : Nat
  len    : Nat
  attr   : BitVec 16
  parent : Nat
  deriving DecidableEq, Repr

/-- The slot a row creates, if it creates one; `t` is the header key's type. -/
def newSlot (s : State) (c : Cmd) (t : Nat) : Option NewSlot :=
  let op := c.opcode
  let root := s.rootSlot c.lease
  let h := refSlot c.yref
  if op = 0x0320 then some ⟨0x04, 32, c.attr, h⟩
  else if op = 0x0321 then some ⟨0x04, if t = 0x12 then 32 else 48, c.attr, h⟩
  else if op = 0x0330 then some ⟨ecType c.p0, 0, c.attr, root⟩
  else if op = 0x0400 then some ⟨0x30, 0, c.attr, root⟩
  else if op = 0x0410 then some ⟨0x31, 0, c.attr, root⟩
  else if op = 0x0411 then some ⟨0x04, 32, c.attr, if c.yref = 0 then root else h⟩
  else if op = 0x0412 then some ⟨0x04, 32, c.attr, h⟩
  else if op = 0x0600 then some ⟨c.p0, if c.p0 = 3 then c.p1 else 0, c.attr, root⟩
  else if op = 0x0602 then some ⟨blobType c.input, blobLen c.input, blobAttr c.input, h⟩
  else if op = 0x0603 then some ⟨c.p0, if 3 ≤ c.p0 then c.p1 else 0, c.attr, h⟩
  else none

/-! ### Operand fields (item 3 of R98) -/

/-- LEN of formats 2 and 3 is 3 plus the operand unit plus the inline units, or 1 for a header alone (R96). -/
def unitsOk (major : Nat) (c : Cmd) : Bool :=
  major = 1 || (c.len = 1 && opHeaderOnly c.opcode) ||
    c.len = 3 + (if opNoUnit3 c.opcode then 0 else 1) + c.inlineUnits

/-- The operand fields hold valid values and every reserved byte of unit 3 is 0 (R96, R106-R118). -/
def fieldsOk (s : State) (c : Cmd) : Bool :=
  let op := c.opcode
  let u := c.u3
  let inl := c.yref = 0
  let lenP1 := fun (hi : Bool) => if hi then 16 ≤ c.p1 && c.p1 ≤ 96 else c.p1 = 0
  if op = 0x0100 then zeroBut u [(0, 4), (12, 1)] && 1 ≤ c.p0 && c.p0 ≤ 8 &&
    (if c.p0 ≤ 6 then c.opa = 0 else 1 ≤ c.opa && c.opa ≤ 4096)
  else if op = 0x0101 then zeroBut u [(0, 4), (12, 2)] && 1 ≤ c.p0 && c.p0 ≤ 8 &&
    (if c.p0 ≤ 6 then c.opa = 0 && c.p1 = 0 else 16 ≤ c.opa && c.opa ≤ 64)
  else if op = 0x0102 then zeroBut u [(0, 4), (8, 4), (12, 2)] && 1 ≤ c.p0 && c.p0 ≤ 8 &&
    (if c.p0 ≤ 6 then c.opa = 0 && c.p1 = 0 && 16 ≤ c.opc && c.opc ≤ algOut c.p0
     else 16 ≤ c.opa && c.opa ≤ 64 && c.opc = c.opa)
  else if op = 0x0200 ∨ op = 0x0201 ∨ op = 0x0202 ∨ op = 0x0203 ∨ op = 0x0205 then true
  else if op = 0x0204 then zeroBut u [(12, 4)]
  else if op = 0x0207 then zeroBut u [(8, 4)] && 8 ≤ c.opc && c.opc ≤ 16
  else if op = 0x0301 then zeroBut u [(12, 1)] && (if inl then 1 ≤ c.p0 && c.p0 ≤ 3 else c.p0 = 0)
  else if op = 0x0313 then zeroBut u [(12, 1)] && (if inl then 1 ≤ c.p0 && c.p0 ≤ 2 else c.p0 = 0)
  else if op = 0x0320 ∨ op = 0x0321 ∨ op = 0x0400 ∨ op = 0x0410 ∨ op = 0x0411 ∨ op = 0x0412 then zeroBut u [(4, 2), (14, 2)]
  else if op = 0x0330 then zeroBut u [(4, 2), (12, 1), (14, 2)] && 1 ≤ c.p0 && c.p0 ≤ 4
  else if op = 0x0401 ∨ op = 0x0402 then zeroBut u [(12, 1)]
  else if op = 0x0500 ∨ op = 0x0501 then zeroBut u [(0, 4), (12, 1)]
  else if op = 0x0600 then zeroBut u [(4, 2), (12, 2), (14, 2)] && 1 ≤ c.p0 && c.p0 ≤ 3 && lenP1 (c.p0 = 3)
  else if op = 0x0601 then zeroBut u [(0, 4), (12, 1)] && c.p0 ≤ 1
  else if op = 0x0602 then zeroBut u [(4, 2)]
  else if op = 0x0603 then zeroBut u [(4, 2), (12, 2), (14, 2)] && 1 ≤ c.p0 && c.p0 ≤ 4 && lenP1 (3 ≤ c.p0)
  else if op = 0x0700 then zeroBut u [(0, 4)] && c.opa ≤ 4096
  else if op = 0x0800 then
    let n := s.cmdHome c
    let page := fieldLE u 1 1
    let off := fieldLE u 2 2
    zeroBut u [(0, 8)] && fieldLE u 0 1 ≤ 3 && page ≤ 55 && s.pageOwner n page = c.lease &&
      (s.pagesOf n c.lease).head? ≠ some page && off % 32 = 0 && off + c.inLen ≤ 32768
  else zeroBut u []

/-- Attribute bits of a new slot (R200). A KEY_UNWRAP header's own bits are not checked here but for PERSIST (R217). -/
def newAttrOk (s : State) (c : Cmd) (t : Nat) : Bool :=
  match newSlot s c t with
  | none => true
  | some x =>
    (c.opcode = 0x0602 || attrOk x.type x.attr) && (!hasAttr x.attr aPERSIST || s.persistLine 6 x.parent)

/-! ### The checks of R98 -/

/-- Item 1 for one reference: its status, and the state with the use of a DUAL slot counted (R222). A row that takes no header reference does
not look at the field (log 114). -/
def refCheck (k : Nat) (r : BitVec 32) (spec : Option (List Nat × Nat × Bool)) (pend : Bool) (s : State) : Nat × State :=
  match spec with
  | none => (0, s)
  | some (types, need, inl) =>
    if r = 0 && inl then (0, s)
    else
      let st := s.checkRef k r types need pend
      if st = 0 then (0, countUse k r s) else (st, s)

/-- Slots that the TARGET check covers: the RUN of the type, and one for a blob whose header is invalid, which UNWRAP_BAD ends after the 4 tk
of one slot (R98, R217, log 120). -/
def newRun (c : Cmd) (x : NewSlot) : Nat := if c.opcode = 0x0602 && !blobHeaderOk c.input then 1 else typeRun x.type

/-- The checks of a command's first tick: for part b of a hybrid command, its own reference A in place of the header's. The
slots of a passed TARGET check are the third component. -/
def r98 (c : Cmd) (partB : Bool) (s : State) : Nat × State × List Nat :=
  let k := c.lease
  let hyb := c.opcode = 0x0500 || c.opcode = 0x0501
  let pend := c.opcode = 0x0606
  let (st, s) := if partB then (0, s) else refCheck k c.yref (keySpec c.opcode) pend s
  let (st, s) := if st ≠ 0 then (st, s)
    else if hyb && !partB then (0, s) else refCheck k c.refA (keySpecA c.opcode) false s
  let t := if (keySpec c.opcode).isSome && c.yref ≠ 0 then s.keyType c.yref else 0
  if st ≠ 0 then (st, s, [])
  else if !lengthOk c t then (0x0120, s, [])
  else if !(unitsOk (s.queue k c.queue).major c && fieldsOk s c && newAttrOk s c t) then (0x0121, s, [])
  else
    match newSlot s c t with
    | none => (0, s, [])
    | some x =>
      let run := newRun c x
      let st := s.checkTarget k c.target run x.parent (hasAttr x.attr aPERSIST)
      if st = 0 then (0, s, runSlots c.target run) else (st, s, [])

/-! ### Published counts, randomness and output lengths -/

def curveIdx (t a b : Nat) : Nat := if t = 0x12 ∨ t = 0x10 then a else b

/-- Attempts of a signing (R111): at least 1, at most 256. -/
def attemptsOf (xi ctx msg rnd : Bytes) : Nat := max 1 (min 256 (Config.mldsaAttemptsRaw xi ctx msg rnd))

/-- Slots of a key of this type. -/
def keySlots (t : Nat) : Nat := typeRun t

/-- Published count c of a part (R95-R118, R172): `t` is the type of the header key, `t2` of reference A. MLDSA_SIGN's needs
the attempts n. -/
def publishedTicks (c : Cmd) (partB : Bool) (t t2 n : Nat) : Nat :=
  let op := c.opcode
  let l := c.inLen
  let g := ceilDiv (l - (if op = 0x0205 then 16 else 0)) 6144
  if op = 0x0100 then 1 + l / algK c.p0
  else if op = 0x0101 then 3 + (l - c.p1) / algK c.p0
  else if op = 0x0102 then 4 + (l - c.p1 - c.opc) / algK c.p0
  else if op = 0x0200 ∨ op = 0x0201 ∨ op = 0x0202 ∨ op = 0x0206 then 2 + ceilDiv l 6144
  else if op = 0x0203 ∨ op = 0x0204 ∨ op = 0x0205 then 3 + g
  else if op = 0x0207 then 3 + ceilDiv (l - c.opc) 6144
  else if op = 0x0300 then (if t = 0x20 then 220 else if t = 0x21 then 640 else 1440)
  else if op = 0x0301 then
    let z := if c.yref = 0 then 0x1F + c.p0 else t
    if z = 0x20 then 6 else if z = 0x21 then 12 else 20
  else if op = 0x0310 then 24
  else if op = 0x0311 then 40
  else if op = 0x0312 then (if t = 0x12 then 20 else 44)
  else if op = 0x0313 then (if c.yref = 0 then (if c.p0 = 1 then 34 else 76) else if t = 0x12 then 34 else 76)
  else if op = 0x0320 then 18
  else if op = 0x0321 then (if t = 0x12 then 20 else 42)
  else if op = 0x0330 then (if c.p0 ≤ 2 then 16 else if c.p0 = 3 then 18 else 38)
  else if op = 0x0400 then 10
  else if op = 0x0401 then 28 + 8 * n
  else if op = 0x0402 then 16
  else if op = 0x0410 then 3
  else if op = 0x0411 then 4
  else if op = 0x0412 then 5
  else if op = 0x0500 then (if partB then 28 + 8 * n else 24)
  else if op = 0x0501 then (if partB then 16 else 40)
  else if op = 0x0600 ∨ op = 0x0700 then 1
  else if op = 0x0601 then 2 + 2 * keySlots t2
  else if op = 0x0602 then (if blobHeaderOk c.input then 2 + 2 * keySlots (blobType c.input) else 4)
  else if op = 0x0603 then 3
  else if op = 0x0604 then
    (if isRsa t then 1 else if t = 0x10 ∨ t = 0x11 then 16 else if t = 0x12 then 18 else if t = 0x13 then 38
     else if t = 0x30 then 10 else 3)
  else 0

/-- Bytes drawn by a part (RNG column). -/
def rngBytes (c : Cmd) (t : Nat) : Nat :=
  let op := c.opcode
  if op = 0x0204 then 44
  else if 0x0200 ≤ op ∧ op ≤ 0x0207 then 32
  else if op = 0x0300 then rsaLen t + 16
  else if op = 0x0310 ∨ op = 0x0401 ∨ op = 0x0500 ∨ op = 0x0400 ∨ op = 0x0411 ∨ op = 0x0602 ∨ op = 0x0320 then 32
  else if op = 0x0312 then (if t = 0x12 then 64 else 96)
  else if op = 0x0321 then (if t = 0x12 then 32 else 48)
  else if op = 0x0330 then (if c.p0 ≤ 2 then 32 else if c.p0 = 3 then 40 else 56)
  else if op = 0x0410 then 64
  else if op = 0x0600 then (if c.p0 = 1 then 16 else if c.p0 = 2 then 32 else c.p1)
  else if op = 0x0601 then (if c.p0 = 1 then 44 else 32)
  else if op = 0x0604 then (if isCurve t then 32 else 0)
  else if op = 0x0700 then c.opa
  else 0

/-- The row draws randomness whatever the key (R99). KEY_PUB draws for curve types alone, RNG_GET for N above 0. -/
def opDraws (c : Cmd) (t : Nat) : Bool := 0 < rngBytes c t

/-- Bytes of a public key that KEY_PUB writes (R116). -/
def keyPubLen (t : Nat) : Nat :=
  if isCurve t then pubLen (curveOf t) else if isRsa t then rsaLen t else if t = 0x30 then 1952 else 1184

/-- Output length on OK, the capacity R85 requires; none where the key imposes no length, and where an invalid SIZE or MODE imposes none. An invalid
ALG of DIGEST or MAC_GEN, and an invalid TYPE of KEYGEN_EC, still impose one (log 136). `t`, `t2`: types the references present when they are made
resident, 0 where they present none usable. -/
def outLength (c : Cmd) (t t2 l2 : Nat) : Option Nat :=
  let op := c.opcode
  let l := c.inLen
  if op = 0x0100 ∨ op = 0x0101 then some (if c.p0 ≤ 6 then algOut c.p0 else c.opa)
  else if op = 0x0200 ∨ op = 0x0201 ∨ op = 0x0202 then some l
  else if op = 0x0203 then some (l - c.aad + 16)
  else if op = 0x0204 then some (l - c.aad + 28)
  else if op = 0x0205 then some (l - c.aad - 16)
  else if op = 0x0206 then some 16
  else if op = 0x0300 then (if isRsa t then some (rsaLen t) else none)
  else if op = 0x0301 then
    if c.yref = 0 then (if 1 ≤ c.p0 ∧ c.p0 ≤ 3 then some (rsaLen (0x1F + c.p0)) else none)
    else if isRsa t then some (rsaLen t) else none
  else if op = 0x0310 then some 64
  else if op = 0x0312 then (if t = 0x12 then some 64 else if t = 0x13 then some 96 else none)
  else if op = 0x0320 ∨ op = 0x0321 ∨ op = 0x0412 ∨ op = 0x0600 ∨ op = 0x0602 ∨ op = 0x0603 then some 4
  else if op = 0x0330 then some (4 + (if c.p0 ≤ 2 then 32 else if c.p0 = 3 then 64 else 96))
  else if op = 0x0400 then some 1956
  else if op = 0x0401 then some 3309
  else if op = 0x0410 then some 1188
  else if op = 0x0411 then some 1092
  else if op = 0x0500 then some 3373
  else if op = 0x0601 then (if t2 = 0 ∨ t2 = 0x3E then none else blobSize c.p0 t2 l2)
  else if op = 0x0604 then (if pubTypes.contains t then some (keyPubLen t) else none)
  else if op = 0x0606 then some 32
  else if op = 0x0700 then some c.opa
  else some 0

end Sys2Proof.Machine
end

