-- ==== Sys2Proof/Machine/Queues.lean ====
section
/-! DEFINITION. Haul queues and the host link: doorbells, fetch, staging, completions, queue states, and the PCIe
functions (R66-R94). -/

namespace Sys2Proof.Machine
open Sys2Proof

/-! ### Counts and tests -/

/-- The VF of lease k is enabled and the link is up (R68). -/
def State.vfOpen (s : State) (k : Nat) : Bool := s.running && s.link.up && k < s.link.numVfs && k < s.nLease

/-- a - b modulo 2^32. -/
def diff (a b : BitVec 32) : Nat := (a - b).toNat

/-- Commands of a queue pair that are in the device. -/
def State.queueCmds (s : State) (k q : Nat) : List Nat := s.cmdsWhere fun c => c.lease = k && c.queue = q

/-- Staging blocks that lease k's commands hold (R26). -/
def State.blocksUsed (s : State) (k : Nat) : Nat :=
  (s.cmds.map fun e => if e.2.lease = k then e.2.blocks.length else 0).sum

def State.entitled (s : State) (k : Nat) : Nat := 16 * (s.lease k).quota

/-- The `n` lowest free blocks of the 4,096 (R26). -/
def State.freeBlocks (s : State) (n : Nat) : List Nat :=
  let used := s.cmds.flatMap fun e => e.2.blocks
  ((List.range 4096).filter fun b => !used.contains b).take n

/-- ICNT, IAGE and IV of a queue. -/
def Queue.icnt (x : Queue) : Nat := max 1 (x.cfg.toNat / 2 ^ 24 % 256)
def Queue.iage (x : Queue) : Nat := x.cfg.toNat / 2 ^ 32 % 256
def Queue.iv (x : Queue) : Nat := x.cfg.toNat / 2 ^ 16 % 64

/-! ### Completions (R86-R90) -/

/-- The 32 bytes of a completion (R86). WAKE and ATTEMPTS saturate too (log 137). -/
def completion (tag : BitVec 32) (status owned attempts wake staging batch failIdx outLen queue flags : Nat) : Bytes :=
  leBytes 4 tag.toNat ++ leBytes 2 status ++ leBytes 2 (satNat 0xFFFF owned) ++ leBytes 2 (satNat 0xFFFF attempts) ++
    leBytes 2 (satNat 0xFFFF wake) ++ leBytes 4 (satNat 0xFFFFFFFF staging) ++ leBytes 2 batch ++ leBytes 2 failIdx ++
    leBytes 4 outLen ++ List.replicate 6 0 ++ leBytes 1 queue ++ leBytes 1 flags

/-- Send the completion queue's message, or set its pending bit; both reset the count and the age (R89). -/
def announce (k q : Nat) (s : State) : State :=
  let s := sendMsix (k + 1) (s.queue k q).iv s
  s.modQueue k q fun x => { x with unann := 0, age := 0 }

/-- Write a completion at HQ_CQTAIL mod D with its PHASE (R87), given the bytes for both phases by `f`, and announce it
when the count reaches ICNT (R89). -/
def putCompletion (k q : Nat) (f : Nat → Bytes) (s : State) : State :=
  let x := s.queue k q
  let pos := x.cqTail.toNat % x.depth
  let phase := if x.cqTail.toNat / x.depth % 2 = 0 then 1 else 0
  let s := hostWrite k (x.cqRing.toNat + 32 * pos) (f phase) s
  let s := s.setQueue k q { x with cqTail := x.cqTail + 1, unann := x.unann + 1 }
  if x.icnt ≤ x.unann + 1 then announce k q s else s

/-- The first entry of a batch whose status is not OK, by its place in the batch. -/
def firstBad : List EntryRes → Option EntryRes
  | [] => none
  | r :: l =>
    match firstBad l with
    | none => if r.status = 0 then none else some r
    | some m => if r.status ≠ 0 && r.idx < m.idx then some r else some m

/-- The completion of a batch (R86, R88): sums of OWNED, ATTEMPTS and OUTLEN, greatest WAKE and STAGING. Where the batch's STATUS is OUT_SMALL,
OUTLEN is the bytes that its entry requires; otherwise it sums the bytes written (log 102). -/
def batchCompletion (q : Nat) (b : Batch) (partial_ : Bool) (phase : Nat) : Bytes :=
  let bad := firstBad b.res
  let sum := fun (f : EntryRes → Nat) => (b.res.map f).sum
  let top := fun (f : EntryRes → Nat) => b.res.foldl (fun m r => max m (f r)) 0
  completion b.lastTag ((bad.map EntryRes.status).getD 0) (sum EntryRes.owned) (sum EntryRes.attempts) (top EntryRes.wake)
    (top EntryRes.staging) b.count ((bad.map EntryRes.idx).getD 0xFFFF)
    (match bad with
     | some r => if r.status = 0x0007 then r.outLen else sum fun r => if r.status = 0 then r.outLen else 0
     | none => sum EntryRes.outLen) q (phase + 2 * bit partial_)

/-- After the entries before a malformed entry or a refused doorbell have completed: the open batch with PARTIAL, then the
error completion, and ERROR (R80, R90). -/
def settleError (k q : Nat) (s : State) : State :=
  let x := s.queue k q
  let due := x.malformed.isSome || (x.dbErr && (x.sqHead = x.db || x.cut))
  let live := x.state = .active || x.state = .parked || x.state = .dry || x.state = .error
  if x.errDone || !due || !live || s.queueCmds k q ≠ [] then s
  else
    let open_ := if x.major = 3 then x.batches.filter fun b => !b.closed && 0 < b.count else []
    let s := forEach open_ (fun b t => putCompletion k q (batchCompletion q b true) t) s
    let (tag, st) := x.malformed.getD (0, 0x0002)
    let s := putCompletion k q (fun ph => completion tag st 0 0 0 0 0 0 0 q (ph + 4)) s
    s.modQueue k q fun x => { x with errDone := true, state := .error, batches := [] }

/-- No other command of the queue that has ended goes first: completions follow the order of the ends, and ring order among
commands that end in one tick (R87, R92). -/
def State.nextToComplete (s : State) (h : Nat) (c : Cmd) : Bool :=
  s.cmds.all fun e => e.1 = h || e.2.lease ≠ c.lease || e.2.queue ≠ c.queue || e.2.result.isNone ||
    c.doneAt < e.2.doneAt || (c.doneAt = e.2.doneAt && c.seq < e.2.seq)

/-- What a command contributes to its batch. -/
def Cmd.entryRes (c : Cmd) (first status outLen : Nat) : EntryRes :=
  { idx := c.seq - first, tag := c.tag, status := status, owned := c.owned, attempts := c.attempts, wake := c.wake,
    staging := c.staging, outLen := outLen }

/-- Write the output and the completion of a command that has ended, and free its blocks (R26, R87, R88, R91, R100). -/
def complete (h : Nat) (c : Cmd) (status need : Nat) (s : State) : State :=
  let k := c.lease
  let q := c.queue
  let s := s.dropCmd h
  if c.mute then s
  else
    let out := match c.copyFrom with | some (a, n) => s.ramRead a n | none => c.out
    let s := if status = 0 then hostWrite k c.outAddr (out.take c.outCap) s else s
    let outLen := if status = 0 then out.length else need
    let x := s.queue k q
    let s :=
      if x.major ≠ 3 then
        putCompletion k q (fun ph => completion c.tag status c.owned c.attempts c.wake c.staging 1 0 outLen q ph)
          (s.setQueue k q { x with reserved := x.reserved - 1 })
      else
        let batches := x.batches.map fun b =>
          if b.id = c.batch then { b with res := b.res ++ [c.entryRes b.first status outLen] } else b
        match batches.find? (fun b => b.id = c.batch && b.closed && b.res.length = b.count) with
        | none => s.setQueue k q { x with batches := batches }
        | some b =>
          putCompletion k q (batchCompletion q b false)
            (s.setQueue k q { x with batches := batches.filter (fun d => d.id ≠ b.id), reserved := x.reserved - 1 })
    settleError k q s

/-- The output that a returned call names has a held byte: the queue engine moves nothing from a held range, so the completion waits for the end of
the mark (R174, log 142). -/
def State.outHeld (s : State) (c : Cmd) : Bool :=
  match c.copyFrom with
  | some (a, n) => (s.heldIn a n).isSome
  | none => false

/-- COMPLETION_WRITE, in a tick after the command's last execution tick (R61, R87). -/
def execCompletionWrite (h : Nat) (s : State) : Res :=
  match s.cmd h with
  | none => .next s
  | some c =>
    match c.result with
    | none => .next s
    | some (status, need) =>
      if s.pw.now ≤ c.doneAt || !s.mainPower || !s.nextToComplete h c || s.outHeld c then .next s else .next (complete h c status need s)

/-- IRQ_AGE_EXPIRY: the unannounced age reaches IAGE (R89). -/
def execIrqAgeExpiry (k q : Nat) (s : State) : Res :=
  let x := s.queue k q
  if x.unann = 0 || x.iage = 0 || x.age < x.iage then .next s else .next (announce k q s)

/-! ### Doorbells (R80, R87) -/

/-- A queue error of lease k (R420). -/
def queueError (k : Nat) (s : State) : State := raiseHost k k s

/-- A write of HQ_DB_q (R80). The tests do not look at an earlier refusal: a later value that passes them is the last accepted value, and what it
covers is still fetched before the queue enters ERROR (log 103). -/
def writeDoorbell (k q : Nat) (v : BitVec 32) (s : State) : State :=
  let x := s.queue k q
  if x.state = .disabled || x.state = .resetting then s
  else if diff v x.db ≤ x.depth && diff v x.sqHead ≤ x.depth then
    if v = x.db then s else s.setQueue k q { x with db := v, cut := false, dbs := x.dbs ++ [(v, s.pw.now)] }
  else settleError k q (queueError k (s.setQueue k q { x with dbErr := true }))

/-- DOORBELL_WRITE (R80). -/
def execDoorbellWrite (k q : Nat) (v : BitVec 32) (s : State) : Res :=
  if s.vfOpen k && q < 8 then .next (writeDoorbell k q v s) else .next s

def writeCqDoorbell (k q : Nat) (v : BitVec 32) (s : State) : State :=
  let x := s.queue k q
  if x.state = .disabled || x.state = .resetting then s
  else if diff v x.cqDb ≤ diff x.cqTail x.cqDb then s.setQueue k q { x with cqDb := v }
  else queueError k s

/-- CQ_DOORBELL_WRITE: a value that moves backwards or past the tail is discarded with the doorbell event (R87). -/
def execCqDoorbellWrite (k q : Nat) (v : BitVec 32) (s : State) : Res :=
  if s.vfOpen k && q < 8 then .next (writeCqDoorbell k q v s) else .next s

/-! ### Fetch (R74-R85) -/

def fBATCH (f : BitVec 8) : Bool := f.getLsbD 0
def fFENCE (f : BitVec 8) : Bool := f.getLsbD 1
def fINLINE (f : BitVec 8) : Bool := f.getLsbD 2
def fGATHER (f : BitVec 8) : Bool := f.getLsbD 3

/-- The flags a format allows (R73). -/
def flagMask (major : Nat) : Nat := if major = 1 then 2 else if major = 2 then 14 else 15

/-- Operand units of the opcode in a queue of this format (R78, R96); one for an opcode that the catalogue does not have (log 104). -/
def opUnits (major op : Nat) : Nat := if major = 1 then 1 else if opNoUnit3 op then 0 else 1

/-- The header breaks R79. -/
def headerBad (x : Queue) (e : Bytes) : Bool :=
  let len := fieldLE e 2 1
  let flags := BitVec.ofNat 8 (fieldLE e 3 1)
  len = 0 || (x.major = 1 && len ≠ 4) || x.depth < len || fieldLE e 12 4 ≠ 0 || flags.toNat &&& (255 - flagMask x.major) ≠ 0 ||
    (fINLINE flags && fGATHER flags)

/-- The rest of the entry breaks R79 or R9: inline data longer than its units, or a reserved descriptor field not 0. -/
def bodyBad (x : Queue) (e : Bytes) : Bool :=
  let len := fieldLE e 2 1
  let flags := BitVec.ofNat 8 (fieldLE e 3 1)
  let inLen := if 2 ≤ len then fieldLE e 24 4 else 0
  (2 ≤ len && fieldLE e 28 4 ≠ 0) || (3 ≤ len && fieldLE e 44 4 ≠ 0) ||
    (fINLINE flags && 16 * (len - 3 - opUnits x.major (fieldLE e 0 2)) < inLen)

/-- The gather list, read element by element (R77): its status, by what is met first. -/
def gatherStatus (dma : Dma) (want : Nat) : Nat → Nat → List Bytes → Nat
  | _, 0, _ => 0x0008
  | _, _, [] => if dma = .ok then 0x0008 else 0x0003
  | sum, room + 1, e :: rest =>
    let len := fieldLE e 8 4
    let flags := fieldLE e 12 4
    if len = 0 || 2 ≤ flags then 0x0008
    else if flags = 1 then (if sum + len = want then 0 else 0x0008)
    else gatherStatus dma want (sum + len) room rest

/-- The type a reference presents when it is made resident: 0 where it is not, or presents none (R30, R85, R116). -/
def State.presented (s : State) (k : Nat) (r : BitVec 32) : Nat :=
  if s.linesOf k r = [] || s.presentsEmpty k (refSlot r) then 0 else s.keyType r

/-- Checks 1 to 3 of R85. -/
def entryRefusal (s : State) (x : Queue) (k op len foot : Nat) : Option (Nat × Nat) :=
  if (opClass op).isNone then some (0x0005, 0)
  else if x.major ≠ 3 && opFmt3 op then some (0x0004, 0)
  else if s.entitled k < foot then some (0x0006, 0)
  else if len = 0 then some (0x0005, 0)
  else none

/-- Check 4 of R85, and check 5 for the rows whose output length no key decides. -/
def inputRefusal (c : Cmd) (f : Fetch) : Option (Nat × Nat) :=
  let g := if fGATHER c.flags then gatherStatus f.gatherDma c.inLen 0 256 f.gather else 0
  if g ≠ 0 then some (g, 0)
  else if !fINLINE c.flags && 0 < c.inLen && f.inputDma ≠ .ok then some (0x0003, 0)
  else
    match outLength c 0 0 0 with
    | none => none
    | some n => if c.outCap < n then some (0x0007, n) else none

/-- Check 5 of R85 for a row whose output length a key decides, by the types that its resident slots present: the bytes required where the
capacity is below them. -/
def State.outSmall (s : State) (c : Cmd) : Option Nat :=
  let two := opFmt3 c.opcode
  match outLength c (s.presented c.lease c.yref) (if two then s.presented c.lease c.refA else 0)
      (if two then (s.slot (refSlot c.refA)).len else 0) with
  | none => none
  | some n => if c.outCap < n then some n else none

/-- HQ_SQHEAD passes an entry (R70), and the doorbells that no longer cover an unread one go. -/
def passHead (k q len : Nat) (s : State) : State :=
  s.modQueue k q fun x =>
    let h := x.sqHead + BitVec.ofNat 32 len
    { x with sqHead := h, dbs := x.dbs.filter fun d => 0 < diff d.1 h && diff d.1 h ≤ x.depth }

/-- The command takes its blocks once the free quota covers its footprint (R25, R26). One whose footprint exceeds an entitlement reduced since
its fetch goes on waiting (log 105). -/
def takeBlocks (h : Nat) (c : Cmd) (s : State) : State × Cmd :=
  if !c.held && s.blocksUsed c.lease + c.foot ≤ s.entitled c.lease then
    let c := { c with held := true, blocks := s.freeBlocks c.foot }
    (passHead c.lease c.queue c.len (s.setCmd h c), c)
  else (s, c)

/-- The command's refusal is its outcome, once it holds its blocks or needs none. -/
def refuseNow (h : Nat) (c : Cmd) (s : State) : State :=
  match c.refuse with
  | none => s
  | some (st, need) =>
    if !c.held then s
    else
      let s := endCmd h st need [] s
      if st = 0x0003 then raiseHost 65 c.lease s else s

/-- A fetch that meets a malformed entry, or fails to read one, puts the queue in ERROR (R85, R90). -/
def stopFetch (k q : Nat) (tag : BitVec 32) (status : Nat) (s : State) : State :=
  let s := s.modQueue k q fun x => { x with malformed := some (tag, status), state := .error }
  settleError k q ((if status = 0x0003 then raiseHost 65 k else queueError k) s)

/-- The command that an entry of a queue makes. Under INLINE_DATA the input descriptor's address and the pad after the inline bytes are not looked
at (log 106). -/
def newCmd (s : State) (k q : Nat) (x : Queue) (e : Bytes) (f : Fetch) : Cmd :=
  let op := fieldLE e 0 2
  let len := fieldLE e 2 1
  let flags := BitVec.ofNat 8 (fieldLE e 3 1)
  let units := opUnits x.major op
  let inLen := if 2 ≤ len then fieldLE e 24 4 else 0
  let outCap := if 3 ≤ len then fieldLE e 40 4 else 0
  let inl := fINLINE flags
  { lease := k, queue := q, seq := x.seq, batch := x.batchId, opcode := op, flags := flags,
    tag := BitVec.ofNat 32 (fieldLE e 4 4), yref := BitVec.ofNat 32 (fieldLE e 8 4), len := len,
    inlineUnits := if inl then ceilDiv inLen 16 else 0,
    u3 := if 4 ≤ len && 0 < units then slice e 48 16 else List.replicate 16 0,
    outAddr := if 3 ≤ len then fieldLE e 32 8 else 0, outCap := outCap, inLen := inLen,
    input := if inl then slice e (16 * (3 + units)) inLen else fixLen inLen f.input,
    foot := ceilDiv (16 * len) 4096 + ceilDiv inLen 4096 + ceilDiv outCap 4096, held := false,
    dbTick := ((x.dbs.find? fun d => len ≤ diff d.1 x.sqHead).map Prod.snd).getD s.pw.now, fetchedAt := s.pw.now,
    a := { cls := (opClass op).getD .free },
    b := if op = 0x0500 ∨ op = 0x0501 then some { cls := .splitter } else none,
    attempts := if op = 0x0401 ∨ op = 0x0500 then 0 else 1 }

/-- Enter a fetched entry: its batch, its place, its reserved completion (R84, R88). -/
def enterCmd (c : Cmd) (s : State) : Nat × State :=
  let x := s.queue c.lease c.queue
  let last := x.major ≠ 3 || fBATCH c.flags
  let old := x.batches.any fun b => b.id = x.batchId
  let batches := if x.major ≠ 3 then [] else
    (if old then x.batches else x.batches ++ [{ id := x.batchId, first := c.seq }]).map fun b =>
      if b.id = x.batchId then { b with count := b.count + 1, closed := last, lastTag := c.tag } else b
  let x := { x with seq := x.seq + 1, batches := batches, reserved := x.reserved + bit last,
                    batchId := if x.major = 3 && last then x.batchId + 1 else x.batchId }
  let h := s.nextCmd
  (h, { (s.setQueue c.lease c.queue x).setCmd h c with nextCmd := h + 1 })

/-- The queue has an entry to read: ACTIVE or PARKED, an unread unit below the doorbell, room for two completions, no entry of the queue that is
not staged yet, and no refused doorbell under which the next entry reaches beyond the last accepted count (R27, R80, R81, R82, R84). -/
def State.fetchable (s : State) (k q : Nat) : Bool :=
  let x := s.queue k q
  s.vfOpen k && q < 8 && (x.state = .active || x.state = .parked) && x.sqHead ≠ x.db && x.malformed.isNone && !x.cut &&
    2 ≤ x.depth - diff (x.cqTail + BitVec.ofNat 32 x.reserved) x.cqDb &&
    (s.cmds.all fun e => e.2.lease ≠ k || e.2.queue ≠ q || e.2.stagedAt.isSome || e.2.result.isSome)

/-- The queue has the turn: no other that has an entry to read stands between it and the one that had the last turn (R82; log 107). -/
def State.canFetch (s : State) (k q : Nat) : Bool :=
  s.fetchable k q && (List.range ((8 * k + q + 511 - s.link.turn) % 512)).all fun i =>
    let j := (s.link.turn + 1 + i) % 512
    !s.fetchable (j / 8) (j % 8)

/-- The read of `len` units of an entry from its unit `off` on; it may wrap to unit 0 of the ring (R81), whose base is HQ_SQBASE as it stands
(log 96). -/
def ringReads (k : Nat) (x : Queue) (off len : Nat) (s : State) : State :=
  let pos := (x.sqHead.toNat + off) % x.depth
  let n := min len (x.depth - pos)
  hostRead k x.sqBase.toNat (16 * (len - n)) (hostRead k (x.sqBase.toNat + 16 * pos) (16 * n) s)

/-- The elements of a gather list that are read: up to the first whose flags are not 0 (R77). -/
def gatherTaken : Nat → List Bytes → List Bytes
  | 0, _ => []
  | _, [] => []
  | n + 1, e :: r => if fieldLE e 12 4 ≠ 0 then [e] else e :: gatherTaken n r

/-- The reads of the gather list and of the input (R77, R82). -/
def inputReads (c : Cmd) (addr : Nat) (f : Fetch) (s : State) : State :=
  if fINLINE c.flags then s
  else if fGATHER c.flags then
    let l := gatherTaken 256 f.gather
    let s := hostRead c.lease addr (16 * l.length) s
    if gatherStatus f.gatherDma c.inLen 0 256 f.gather = 0
    then forEach l (fun e => hostRead c.lease (fieldLE e 0 8) (fieldLE e 8 4)) s else s
  else hostRead c.lease addr c.inLen s

/-- Read one entry with what its DMA reads return (R82, R85). An entry that reaches beyond the doorbell waits (R81); after a refused doorbell the
queue has then fetched what the last accepted value covers (R80). -/
def fetchEntry (k q : Nat) (f : Fetch) (s : State) : State :=
  let x := s.queue k q
  let len := fieldLE f.entry 2 1
  let e := fixLen (16 * max 1 len) f.entry
  let tag := BitVec.ofNat 32 (fieldLE e 4 4)
  let s := ringReads k x 0 1 { s with link := { s.link with turn := 8 * k + q } }
  if f.entryDma ≠ .ok then stopFetch k q tag 0x0003 s
  else if headerBad x e then stopFetch k q tag 0x0001 s
  else if diff x.db x.sqHead < len then
    if x.dbErr then settleError k q (s.setQueue k q { x with cut := true }) else s
  else if bodyBad x e then stopFetch k q tag 0x0001 (ringReads k x 1 (len - 1) s)
  else
    let c := newCmd s k q x e f
    let s := ringReads k x 1 (len - 1) s
    match entryRefusal s x k c.opcode len c.foot with
    | some (st, need) =>
      let (h, s) := enterCmd { c with held := true } s
      endCmd h st need [] (passHead k q len s)
    | none =>
      let (h, s) := enterCmd { c with refuse := inputRefusal c f } (inputReads c (if 2 ≤ len then fieldLE e 16 8 else 0) f s)
      match s.cmd h with
      | none => s
      | some c =>
        let (s, c) := takeBlocks h c s
        refuseNow h c s

/-- ENTRY_FETCH (R82). -/
def execEntryFetch (k q : Nat) (f : Fetch) (s : State) : Res :=
  if s.canFetch k q then .next (fetchEntry k q f s) else .next s

/-! ### Staging (R30, R99) -/

/-- The class that serves a command, as decided when it becomes staged (R97, R116). -/
def State.classOf (s : State) (c : Cmd) : Cls :=
  if c.opcode = 0x0604 then
    let t := s.presented c.lease c.yref
    if isCurve t || isRsa t then .cutter else if t = 0x30 ∨ t = 0x31 then .splitter else .free
  else (opClass c.opcode).getD .free

/-- The command's lines are resident on its home bench, and its queue stages (R30). -/
def State.linesHere (s : State) (c : Cmd) : Bool :=
  let x := s.queue c.lease c.queue
  (x.state = .active || x.state = .parked || x.state = .dry || x.state = .error) &&
    (s.cmdLines c).all (s.bench x.home).resident && (s.bench x.home).state ≠ .quarantined

/-- Everything the command needs is there: its lines, earlier entries of its queue under FENCE, and the expander under R99 (R30, R83, R99). -/
def State.canStage (s : State) (h : Nat) (c : Cmd) : Bool :=
  s.linesHere c &&
    (!fFENCE c.flags || s.cmds.all fun e => e.1 = h || e.2.lease ≠ c.lease || e.2.queue ≠ c.queue || c.seq < e.2.seq) &&
    (!opDraws c (s.presented c.lease c.yref) || (s.exp (s.cmdHome c)).ready) && s.blocksUsed c.lease ≤ s.entitled c.lease

/-- COMMAND_STAGED: S of R61, P where the home bench is READY, or a wake request (R30, R31, R33, R61, R97). -/
def execCommandStaged (h : Nat) (s : State) : Res :=
  match s.cmd h with
  | none => .next s
  | some c =>
    if c.result.isSome || c.stagedAt.isSome || !s.mainPower then .next s
    else
      let (s, c) := takeBlocks h c s
      if !c.held then .next s
      else if c.refuse.isSome then .next (refuseNow h c s)
      else if s.linesHere c && (s.outSmall c).isSome then .next (endCmd h 0x0007 ((s.outSmall c).getD 0) [] s)
      else if !s.canStage h c then .next s
      else
        let n := s.cmdHome c
        let cls := s.classOf c
        let up := (s.bench n).state = .ready
        let lines := s.cmdLines c
        let b := s.bench n
        let s := s.setBench n { b with lines := b.lines.map fun l => if lines.contains l.slot then { l with used := s.pw.now } else l }
        let c := { c with stagedAt := some s.pw.now, staging := s.pw.now - c.dbTick, wake := 0, a := { c.a with cls := cls },
                          readyAt := if up || cls = .free then some s.pw.now else none }
        let s := s.setCmd h c
        if up || cls = .free then .next s else .next (wakeReq n s)

/-! ### Creating and resetting a queue (R71-R73, R91) -/

/-- The checks of R72; 0 where all pass. -/
def enableCheck (k : Nat) (x : Queue) (s : State) : Nat :=
  let d := x.cfg.toNat % 32
  if s.link.numVfs ≤ k || (s.lease k).quarantined then 0x01
  else if d < 6 || 16 < d then 0x02
  else if x.sqBase.toNat % 4096 ≠ 0 || x.cqBase.toNat % 4096 ≠ 0 then 0x03
  else if s.nBench ≤ x.home then 0x04
  else if x.cfg.toNat / 256 % 8 = 0 then 0x05
  else 0

/-- The highest format set in OFFER (R73). -/
def chosenMajor (x : Queue) : Nat :=
  let o := x.cfg.toNat / 256 % 8
  if 4 ≤ o then 3 else if 2 ≤ o then 2 else 1

def enableQueue (k q : Nat) (s : State) : State :=
  let x := s.queue k q
  if x.state ≠ .disabled then s
  else
    let e := enableCheck k x s
    if e ≠ 0 then s.setQueue k q { x with cerr := e }
    else s.setQueue k q { sqBase := x.sqBase, cqBase := x.cqBase, cqRing := x.cqBase, cfg := x.cfg, state := s.liveState k x.home,
                          major := chosenMajor x, minor := 0 }

/-- QUEUE_ENABLE (R72). -/
def execQueueEnable (k q : Nat) (s : State) : Res :=
  if s.vfOpen k && q < 8 then .next (enableQueue k q s) else .next s

/-- A reset: commands that have not begun go; executing ones run on, but write nothing (R91). -/
def resetQueue (k q : Nat) (s : State) : State :=
  let x := s.queue k q
  if x.state = .disabled then s
  else
    let keep := s.cmds.filter fun e => e.2.lease ≠ k || e.2.queue ≠ q || e.2.executing
    let cmds := keep.map fun e => if e.2.lease = k && e.2.queue = q then (e.1, { e.2 with mute := true }) else e
    { s with cmds := cmds }.setQueue k q { x with state := .resetting, batches := [], reserved := 0, dbs := [],
                                                  malformed := none, dbErr := false, cut := false, errDone := false, unann := 0, age := 0 }

/-- QUEUE_RESET (R91). -/
def execQueueReset (k q : Nat) (s : State) : Res :=
  if s.vfOpen k && q < 8 then .next (resetQueue k q s) else .next s

/-- QUEUE_RESET_DONE: nothing of the queue remains; counts and MAJOR read 0 (R91). -/
def execQueueResetDone (k q : Nat) (s : State) : Res :=
  let x := s.queue k q
  if x.state ≠ .resetting || (s.queueCmds k q).any (fun h => match s.cmd h with | some c => c.result.isNone | none => false)
  then .next s
  else
    let s := { s with cmds := s.cmds.filter fun e => e.2.lease ≠ k || e.2.queue ≠ q }
    .next (s.setQueue k q { sqBase := x.sqBase, cqBase := x.cqBase, cfg := x.cfg, cerr := x.cerr })

/-- The bits of HQ_QCFG_q that are not reserved (R70). -/
def qcfgMask : Nat := 0xFFFF3FF71F

def writeQcfg (k q : Nat) (v : BitVec 64) (s : State) : State :=
  let x := s.queue k q
  if x.state ≠ .disabled then s else s.setQueue k q { x with cfg := BitVec.ofNat 64 (v.toNat &&& qcfgMask) }

/-- HQ_QCFG_WRITE (R70). -/
def execHqQcfgWrite (k q : Nat) (v : BitVec 64) (s : State) : Res :=
  if s.vfOpen k && q < 8 then .next (writeQcfg k q v s) else .next s

/-! ### PCIe functions (R66-R70, R420, R489) -/

/-- The BAR offset is defined: HQ_CAP, the MSI-X table and the PBA on every function, the rest on VFs (R70). -/
def barDefined (fn off : Nat) : Bool :=
  off < 8 || (0x2000 ≤ off && off < 0x2400) || (0x3000 ≤ off && off < 0x3008) ||
    (fn ≠ 0 && (off < 0x10 || (0x100 ≤ off && off < 0x300 && off % 0x40 < 0x28) || (0x1000 ≤ off && off < 0x1040)))

/-- BAR decode event: attributed to the VF's lease, or to none on the PF (R420). -/
def barDecode (fn : Nat) (write : Bool) (s : State) : State :=
  raiseHost 64 (if fn = 0 then 0xFF else fn - 1)
    { s with out := { s.out with bus := .ok (if write then [] else List.replicate 8 0) } }

/-- BAR_DECODE_ACCESS: an undefined offset reads 0, or the write is discarded (R70). -/
def execBarDecodeAccess (fn off : Nat) (write : Bool) (s : State) : Res :=
  if s.running && s.link.up && fn ≤ s.link.numVfs && !barDefined fn off then .next (barDecode fn write s) else .next s

/-- An FLR of the VF of lease k: its queues are reset, its dictionary endpoint forgets its version (R69, R357). MSI-X and the registers of a DISABLED
queue keep what they hold (log 92). -/
def flrVf (k : Nat) (s : State) : State :=
  discardEp (k + 2) (forN 8 (fun q t => resetQueue k q t) s)

/-- VF_FLR (R69). -/
def execVfFlr (k : Nat) (s : State) : Res :=
  if s.vfOpen k then .next (raiseHost 66 k (flrVf k s)) else .next s

/-- An FLR of the PF disables every VF and acts as an FLR of each; the link IDE keys go (R69, R357, R371). -/
def flrPf (s : State) : State :=
  let s := forN s.link.numVfs flrVf s
  let s := discardEp 1 s
  { s with link := { s.link with numVfs := 0 }, spdm := { s.spdm with ide := none } }

/-- PF_FLR (R69). -/
def execPfFlr (s : State) : Res :=
  if s.running && s.link.up then .next (raiseHost 67 0xFF (flrPf s)) else .next s

/-- SRIOV_NUMVFS_WRITE: VF n + 1 serves lease n below NumVFs; a value above TotalVFs enables nothing (R68). A VF that is no
longer enabled has no queues, and a value above TotalVFs leaves none enabled (log 108). -/
def execSriovNumvfsWrite (n : Nat) (s : State) : Res :=
  if !(s.running && s.link.up) then .next s
  else
    let m := if s.nLease < n then 0 else n
    let s := forN s.link.numVfs (fun k t => if m ≤ k then flrVf k t else t) s
    .next { s with link := { s.link with numVfs := m } }

/-- The rates and widths that the link trains at (R66). -/
def linkRates : List Nat := [1, 2, 3, 4, 5]
def linkWidths : List Nat := [1, 2, 4, 8]

/-- PCIE_LINK_CHANGE: the link goes down, or trains at a rate and width, with an event below 32 GT/s x8 (R66, R420).
A link trains only while PCIE_PERST_N is high. -/
def execPcieLinkChange (up : Bool) (speed : LinkSpeed) (s : State) : Res :=
  if !s.mainPower || (up && !(linkRates.contains speed.rate && linkWidths.contains speed.width)) then .next s
  else if up then
    let t := { s with link := { s.link with up := true, rate := speed.rate, width := speed.width }, pw := { s.pw with perst := true } }
    .next (if speed.rate = 5 && speed.width = 8 then t else raiseHost 69 0xFF t)
  else
    let t := { s with link := { s.link with up := false, rate := 0, width := 0 } }
    .next (if s.link.up then raiseHost 68 0xFF t else t)

/-- PCIE_PERST: the pin goes low; the link is down, and the device acts as under an FLR of the PF (R489). -/
def execPciePerst (s : State) : Res :=
  if !s.mainPower || !s.pw.perst then .next s
  else
    let t := flrPf { s with pw := { s.pw with perst := false }, link := { s.link with up := false, rate := 0, width := 0 } }
    .next (if s.link.up then raiseHost 68 0xFF t else t)

/-- The kind of link error that POISONED_TLP_RECEIVED reports (R420): 70 IDE integrity, 71 poisoned, 72 correctable. -/
def execPoisonedTlpReceived (i : Nat) (s : State) : Res :=
  if s.mainPower && s.link.up && 70 ≤ i && i ≤ 72 then .next (raiseHost i 0xFF s) else .next s

end Sys2Proof.Machine
end

