-- ==== Sys2Proof/Machine/Engines.lean ====
section
/-! DEFINITION. What an engine does in a tick: the choice of its quantum, the tick of a host command, and the grant of a tick to
a job (R55-R62, R97-R101, R131, R161). -/

namespace Sys2Proof.Machine
open Sys2Proof

/-! ### Engines (R46) -/

/-- Local event `i` of engine q, counted from the first event of its kind of engine (R140, R165, R193), for lease k. -/
def engineEvent (q i k : Nat) (s : State) : State := raise (localEvent (q / 5) (8 * (q % 5) + i)) (if k < 64 then k else 0xFF) s

/-- The place e of a class's engine; the even cutter for cutter work. -/
def classPlace : Cls → Nat
  | .cutter => 0 | .splitter => 2 | .wedge => 3 | .digest => 4 | .core => 5 | .free => 5

def placeClass (e : Nat) : Cls := if e ≤ 1 then .cutter else if e = 2 then .splitter else if e = 3 then .wedge else .digest

/-- The lease owns an entry of engine q in the active tables. -/
def State.hasEntry (s : State) (q k : Nat) : Bool := s.dsp.slt.any fun e => e.2 = k && e.1 / 256 = q

/-- The lease owns an entry of the class on bench n: its commands of that class are not parked (R57). -/
def State.classOpen (s : State) (n k : Nat) : Cls → Bool
  | .cutter => s.hasEntry (5 * n) k || s.hasEntry (5 * n + 1) k
  | .core => true
  | .free => true
  | c => s.hasEntry (5 * n + classPlace c) k

/-- A fault check of engine q fails: the fault-check event, attributed to none, and the engine's count (R101, R137, R151). -/
def faultCheck (q : Nat) (s : State) : State :=
  let s := engineEvent q 3 0xFF s
  if q % 5 ≤ 1 then s.modEngine q fun e => { e with fchk := satAdd e.fchk 1 }
  else if q % 5 = 2 then s.modEngine q fun e =>
    { e with fchk := BitVec.ofNat 32 (satNat 0xFFFF (e.fchk.toNat + 1)) }
  else s

/-- A yard status of R103 that refuses a reference (R140). -/
def refStatus (st : Nat) : Bool := st = 0x000B || (0x0110 ≤ st && st ≤ 0x0114)

/-! ### Parts of a command (R112) -/

def Cmd.part (c : Cmd) (b : Bool) : Part := if b then c.b.getD { cls := .splitter } else c.a
def Cmd.setPart (c : Cmd) (b : Bool) (p : Part) : Cmd := if b then { c with b := some p } else { c with a := p }

/-- A part has ended, or has run its full count. -/
def Part.over (p : Part) : Bool := p.status.isSome || (p.total ≠ 0 && p.total ≤ p.ticks)

/-- The status of a hybrid command from those of its parts: under HYB_VERIFY a failed check of R98, the cutter part's first, then a fault, then both
verdicts; under HYB_SIGN the first that is not OK (R113, R114). For others that of its one part. -/
def joinStatus (c : Cmd) : Nat :=
  let a := c.a.status.getD 0
  match c.b with
  | none => a
  | some p =>
    let b := p.status.getD 0
    if c.opcode = 0x0501 then
      if c.a.checkFailed && a ≠ 0 then a else if p.checkFailed && b ≠ 0 then b
      else if a ≠ 0 && a ≠ 0x0100 then a else if b ≠ 0 && b ≠ 0x0100 then b else if a = 0 && b = 0 then 0 else 0x0100
    else if a ≠ 0 then a else b

/-- T of R61: the tick of the last execution tick of its parts. -/
def Cmd.lastTick (c : Cmd) : Nat := max c.a.lastAt ((c.b.map Part.lastAt).getD 0)

/-- End the command once every part has ended; T, not the tick of the row that reports it, is the tick it ends in (R61). -/
def settleParts (h : Nat) (s : State) : State :=
  match s.cmd h with
  | none => s
  | some c =>
    match c.a.status, (c.b.map Part.status) with
    | some _, none => endCmdAt c.lastTick h (joinStatus c) 0 c.a.out s
    | some _, some (some _) => endCmdAt c.lastTick h (joinStatus c) 0 (c.a.out ++ (c.b.map Part.out).getD []) s
    | _, _ => s

/-- A part ends in this tick with a status and, on OK, an output. -/
def endPart (h : Nat) (b : Bool) (st : Nat) (out : Bytes) (s : State) : State :=
  match s.cmd h with
  | none => s
  | some c =>
    let p := c.part b
    settleParts h (s.setCmd h (c.setPart b { p with status := some st, out := out, endAt := some p.lastAt }.wiped))

/-- The part has failed a check of R98. -/
def markFailed (h : Nat) (b : Bool) (s : State) : State :=
  match s.cmd h with
  | none => s
  | some c => s.setCmd h (c.setPart b { c.part b with checkFailed := true })

/-- Attempts completed by the end of execution tick `t` of a signing that needs `n` (R111, R149). -/
def attemptsDone (t n : Nat) : Nat := min n ((t - 12) / 8)

/-- A signing draws its attempts in its splitter part. -/
def Cmd.signs (c : Cmd) (b : Bool) : Bool := c.opcode = 0x0401 || (c.opcode = 0x0500 && b)

/-- ctx and message of a signing command (R111). -/
def Cmd.ctxOf (c : Cmd) : Bytes := c.input.take c.p0
def Cmd.msgOf (c : Cmd) : Bytes := c.input.drop c.p0

/-- CTR's counter field would wrap (R108, R175); under CHAIN it must not reach the wrap either. -/
def ctrWraps (block : Bytes) (len : Nat) (chain : Bool) : Bool :=
  let room := 2 ^ 32 - beNat (slice block 12 4)
  if chain then room ≤ ceilDiv len 16 && len ≠ 0 else room < ceilDiv len 16

/-- The early endings of R100 that the first tick decides after its draw; 0 for none. -/
def earlyStatus (c : Cmd) (t : Nat) (v : Bytes) : Nat :=
  if c.opcode = 0x0202 && ctrWraps c.u3 c.inLen false then 0x0122
  else if c.opcode = 0x0300 && (rsaKey t v).n ≤ beNat c.input then 0x0121
  else if c.opcode = 0x0301 then
    if c.yref = 0 then
      let k := rsaLen (0x1F + c.p0)
      if beNat (slice c.input 0 k) ≤ beNat (slice c.input k k) then 0x0121 else 0
    else if (rsaKey t v).n ≤ beNat c.input then 0x0121 else 0
  else 0

/-- A part's first execution tick: R98's checks, the draw of R99, the early endings of R100, and then its count; its keys and
bytes are in its record (R173). -/
def firstTick (q h : Nat) (b : Bool) (s : State) : State :=
  match s.cmd h with
  | none => s
  | some c => if c.result.isSome || (c.part b).status.isSome then s else
    let k := c.lease
    let (st, s, slots) := r98 c b s
    if st ≠ 0 then endPart h b st [] (markFailed h b (if refStatus st then engineEvent q 1 k s else s))
    else
      let spec := !b && (keySpec c.opcode).isSome && c.yref ≠ 0
      let hasA := (b || c.opcode = 0x0601) && c.refA ≠ 0
      let key := if spec then some (s.slot (refSlot c.yref)) else none
      let keyA := if hasA then some (s.slot (refSlot c.refA)) else none
      let main := if b then keyA else key
      let t := (main.map Slot.type).getD 0
      let n := rngBytes c t
      match (if n = 0 then some ([], s) else draw (q / 5) n s) with
      | none => endPart h b 0x0130 [] (engineEvent q 2 k s)
      | some (bytes, s) =>
        let early := if b then 0 else earlyStatus c t ((main.map Slot.value).getD [])
        if early ≠ 0 then endPart h b early [] (if early = 0x0122 then engineEvent q 3 k s else s)
        else
          let tries := if c.signs b
            then attemptsOf ((main.map Slot.value).getD []) c.ctxOf c.msgOf bytes else 0
          let total := publishedTicks c b t ((keyA.map Slot.type).getD 0) tries
          let p := c.part b
          let c := c.setPart b { p with total := total, key := main, key2 := keyA, drawn := bytes }
          let s := s.setCmd h { c with resv := c.resv ++ slots }
          reserve slots s

/-- P of a GCM_DEC (R108). -/
def Cmd.plain (c : Cmd) : Nat := c.inLen - c.aad - 16

/-- The held ranges of a host GCM decryption: the first P bytes of its output reservation, the last of its blocks (R174). -/
def heldBlocks (c : Cmd) (n : Nat) : List Held :=
  let out := c.blocks.drop (c.blocks.length - ceilDiv c.outCap 4096)
  (List.range (ceilDiv c.plain 4096)).map fun i =>
    let lo := stagingBase + 4096 * out.getD i 0
    { lo := lo, hi := lo + min 4096 (c.plain - 4096 * i), bench := n, lease := c.lease }

/-- The lines that a command or a job names are used in a tick that it takes (R207, log 121). -/
def useLines (n : Nat) (l : List Nat) (s : State) : State :=
  if l = [] then s
  else s.modBench n fun b => { b with lines := b.lines.map fun x => if l.contains x.slot then { x with used := s.pw.now } else x }

/-- One execution tick of a host command's part on engine q (R55). -/
def hostTick (q h : Nat) (b : Bool) (s : State) : State :=
  match s.cmd h with
  | none => s
  | some c =>
    let p := c.part b
    let first := p.ticks = 0
    let p := { p with ticks := p.ticks + 1, lastAt := s.pw.now }
    let c := c.setPart b p
    let c := if c.signs b && !first then { c with attempts := attemptsDone p.ticks ((p.total - 28) / 8) } else c
    let s := useLines (q / 5) (s.cmdLines c) (s.setCmd h c)
    let s := if c.opcode = 0x0205 && p.ticks = 3 && 3 < p.total then { s with held := s.held ++ heldBlocks c (q / 5) } else s
    if first then { s with dsp := { s.dsp with due := s.dsp.due ++ [(q, h, b)] } } else s

/-- The first ticks of this tick on engines below `lim`: checks, reservations, uses and draws are taken in ascending engine number, among the
steps of jobs (R205, R222, R232, log 122). -/
def runFirsts (lim : Nat) (s : State) : State :=
  let l := s.dsp.due
  (l.takeWhile fun x => x.1 < lim).foldl (fun t x => firstTick x.1 x.2.1 x.2.2 t)
    { s with dsp := { s.dsp with due := l.dropWhile fun x => x.1 < lim } }

/-! ### Assignment (R29, R56) -/

/-- The first position from `i` on at which table `t` gives engine q to lease k. -/
def nextOwned (t : Tbl Nat) (q k i : Nat) : Option Nat :=
  ((List.range (256 - i)).find? fun j => tget 0xFF t (256 * q + i + j) = k).map (i + ·)

/-- The cutter of bench n that reaches an owned tick of lease k first: the active tables to the end of the frame, then the
pending shadow for the following frame; the even cutter on a tie (R29, R56). A swap that a GO in frame ticks 254 and 255 puts off to the frame after
next says nothing of the following frame (log 111). -/
def State.chooseCutter (s : State) (n k : Nat) : Option Nat :=
  let pick := fun (a b : Option Nat) =>
    match a, b with
    | some x, some y => some (if y < x then 5 * n + 1 else 5 * n)
    | some _, none => some (5 * n)
    | none, some _ => some (5 * n + 1)
    | none, none => none
  match pick (nextOwned s.dsp.slt (5 * n) k s.ftick) (nextOwned s.dsp.slt (5 * n + 1) k s.ftick) with
  | some q => some q
  | none =>
    if s.dsp.pend && s.dsp.at_ = s.frame + 1 then
      let t := if s.dsp.captured then s.dsp.sltC else s.dsp.sltS
      pick (nextOwned t (5 * n) k 0) (nextOwned t (5 * n + 1) k 0)
    else none

/-- The lease's queue lets its staged commands run (R57, R72, R91). -/
def QState.runs : QState → Bool
  | .active => true | .dry => true | .error => true | .resetting => true
  | _ => false

/-- The command may use ticks from now on: staged, its bench READY in an earlier tick, its queue and its classes open (R31). -/
def State.eligible (s : State) (c : Cmd) : Bool :=
  let n := s.cmdHome c
  c.result.isNone && c.stagedAt.isSome && (match c.readyAt with | some p => p < s.pw.now | none => false) &&
    (s.queue c.lease c.queue).state.runs && s.classOpen n c.lease c.a.cls && (c.b.isNone || s.classOpen n c.lease .splitter)

/-- Assign the eligible commands that are not assigned (R56). -/
def assignParts (s : State) : State :=
  let one := fun (t : State) (h : Nat) =>
    match t.cmd h with
    | none => t
    | some c =>
      if !t.eligible c then t
      else
        let n := t.cmdHome c
        let put := fun (p : Part) =>
          if p.eng.isSome || p.cls = .free || p.cls = .core then p
          else { p with eng := if p.cls = .cutter then t.chooseCutter n c.lease else some (5 * n + classPlace p.cls) }
        t.setCmd h { c with a := put c.a, b := c.b.map put }
  (s.cmds.map Prod.fst).foldl one s

/-! ### Jobs -/

/-- The lines a job names are resident on its bench; the island's engines read the yard itself. -/
def State.refsHere (s : State) (q : Nat) (j : Job) : Bool := q / 5 = 16 || j.refs.all (s.bench (q / 5)).resident

/-- A waiting job may begin: its tick has come, its lines are there, and its expander is READY if it draws (R128, R207, R290). -/
def State.jobReady (s : State) (q : Nat) (j : Job) : Bool :=
  j.ending.isNone && (j.state = .run ||
    (j.state = .wait && j.eligibleAt ≤ s.pw.now && s.refsHere q j &&
      (!j.needsRng || (s.exp (q / 5)).ready)))

/-- fc of a tick's budget (R122, R144). -/
def budgetFc : Nat := 3584

/-- A job takes a tick: JTK counts it, its budget is whole. -/
def jobTick (q k : Nat) (s : State) : State :=
  let s := useLines (q / 5) (s.job q k).refs s
  s.modJob q k fun j => { j with state := .run, granted := true, budget := budgetFc, tk := j.tk + 1, ctx := if j.left.isSome then j.ctx else none }

/-! ### The quantum of an engine (R55, R58) -/

/-- A candidate for a tick: its order (running first, then the tick it became eligible in, host before job, staged tick, queue,
submission), and its quantum. -/
structure Cand where
  key : List Nat
  run : Quantum
  partB : Bool := false
  deriving DecidableEq, Repr

/-- Lexicographic order of keys. -/
def keyLt : List Nat → List Nat → Bool
  | _, [] => false
  | [], _ => true
  | a :: r, b :: t => a < b || (a = b && keyLt r t)

/-- What lease k has for engine q in this tick. -/
def State.candidatesFor (s : State) (q k : Nat) : List Cand :=
  let host := s.cmds.flatMap fun e =>
    let c := e.2
    let mk := fun (b : Bool) =>
      let p := c.part b
      if c.lease = k && p.eng = some q && !p.over && s.eligible c then
        [{ key := [if 0 < p.ticks then 0 else 1, c.readyAt.getD 0 + 1, 0, c.stagedAt.getD 0, c.queue, c.seq],
           run := .host e.1 k (p.ticks = 0), partB := b : Cand }]
      else []
    mk false ++ (if c.b.isSome then mk true else [])
  let j := s.job q k
  host ++ (if s.jobReady q j then [{ key := [if j.state = .run then 0 else 1, j.eligibleAt, 1, 0, 0, 0], run := .job k }] else [])

/-- The least candidate. -/
def bestCand : List Cand → Option Cand
  | [] => none
  | c :: r =>
    match bestCand r with
    | none => some c
    | some d => if keyLt d.key c.key then some d else some c

/-- Lease k is LENDING in the active policy (R58). -/
def State.lends (s : State) (k : Nat) : Bool := k < 64 && s.dsp.policy.getLsbD k

/-- The borrower of a tick that its owner cannot use: the first other LENDING lease in service, after the last borrower, with work
on this engine (R58). -/
def State.borrower (s : State) (q owner : Nat) : Option (Nat × Cand) :=
  let start := tget 63 s.dsp.lastBorrow q + 1
  ((List.range 64).map fun i => (start + i) % 64).findSome? fun k =>
    if k ≠ owner && s.lends k && s.leaseLive k && s.classOpen (q / 5) k (placeClass (q % 5))
    then (bestCand (s.candidatesFor q k)).map fun c => (k, c) else none

/-- Run the chosen quantum. -/
def runQuantum (q : Nat) (lender : Option Nat) (c : Cand) (s : State) : State :=
  let s := s.modEngine q fun e => { e with run := c.run, lender := lender }
  match c.run with
  | .none => s
  | .host h _ _ => hostTick q h c.partB s
  | .job k => jobTick q k s

/-- The tick of a bench engine: its owner's work, else a borrowed quantum, else nothing (R55). -/
def engineTick (q : Nat) (s : State) : State :=
  let owner := s.slotOwner q s.ftick
  if owner = 0xFF then s
  else
    match bestCand (s.candidatesFor q owner) with
    | some c => runQuantum q none c s
    | none =>
      if !s.lends owner then s
      else
        match s.borrower q owner with
        | none => s
        | some (k, c) =>
          let count := fun (t : Tbl (BitVec 64)) i => tset 0 t i (satAdd (tget 0 t i) 1)
          let d := { s.dsp with lent := count s.dsp.lent owner, borrow := count s.dsp.borrow k,
                                lastBorrow := tset 63 s.dsp.lastBorrow q k }
          runQuantum q (some owner) c { s with dsp := d }

/-- The tick of an island engine: island firmware's job (R139, R163), which waits while a pass has the engines (R252). -/
def islandTick (q : Nat) (s : State) : State :=
  if s.flg.pass.isNone && s.jobReady q (s.job q 64) then runQuantum q none { key := [], run := .job 64 } s else s

/-- A waiting job that this tick finds without its lines does not become eligible before the next; one that lacks only randomness keeps its place
(R128, R207, R290). -/
def putOff (s : State) : State :=
  { s with jobs := s.jobs.map fun e =>
      if e.2.state = .wait && e.2.ending.isNone && e.2.eligibleAt ≤ s.pw.now && !s.refsHere (e.1 / 65) e.2
      then (e.1, { e.2 with eligibleAt := s.pw.now + 1 }) else e }

/-- Every engine's tick, in ascending q (R205, R222). -/
def enginesTick (s : State) : State :=
  let s := putOff s
  let s := { s with engines := s.engines.map fun (e : Nat × Engine) => (e.1, { e.2 with run := .none, lender := none }) }
  let s := if s.pw.leaseWork then forN (5 * s.nBench) engineTick (assignParts s) else s
  if s.islandRuns then forEach [80, 82, 83, 84] islandTick s else s

end Sys2Proof.Machine
end

