-- ==== Sys2Proof/Machine/Catalogue.lean ====
section
/-! DEFINITION. The command catalogue (R95-R118, R149-R155, R172, R215-R217): what each opcode computes, applied in its last execution
tick. -/

namespace Sys2Proof.Machine
open Sys2Proof

/-! ### The last tick of a part -/

/-- A part of the command with this opcode has run its full count and has no outcome yet. -/
def Cmd.ripe (c : Cmd) (op : Nat) (b : Bool) : Bool :=
  let p := c.part b
  c.opcode = op && c.result.isNone && p.status.isNone && p.total ≠ 0 && p.total ≤ p.ticks && (!b || c.b.isSome)

/-- The engine of a part; 84, the last, while it has none. -/
def State.partEngine (s : State) (h : Nat) (b : Bool) : Nat := match s.cmd h with | some c => (c.part b).eng.getD 84 | none => 84

/-- The last execution tick of a part: FAULT_CHECK when its check fails, else the outcome of `f` (R100, R101); nothing where the quantum has
lost its key (R177). -/
def finish (op h : Nat) (b bad : Bool) (f : Cmd → Part → State → Nat × Bytes × State) (s : State) : State :=
  let s := runFirsts (s.partEngine h b + 1) s
  match s.cmd h with
  | none => s
  | some c =>
    if !c.ripe op b || (s.engine (s.partEngine h b)).erased.isSome then s
    else if bad then endPart h b 0x0131 [] (faultCheck ((c.part b).eng.getD 0) s)
    else
      let (st, out, s) := f c (c.part b) s
      endPart h b st out s

/-- An engine-free command in the tick after its staging: R98's checks, then its effect (R97, R98). -/
def finishFree (op h : Nat) (f : Cmd → State → Bytes × State) (s : State) : State :=
  let s := runFirsts 85 s
  match s.cmd h with
  | none => s
  | some c =>
    let due := match c.stagedAt with | some t => t < s.pw.now | none => false
    if c.opcode ≠ op || c.result.isSome || c.a.cls ≠ .free || !due || !(s.queue c.lease c.queue).state.runs || !s.leaseLive c.lease
    then s
    else
      let (st, s, _) := r98 c false s
      if st ≠ 0 then endCmd h st 0 [] s
      else
        let (out, s) := f c s
        endCmd h 0 0 out s

/-- Value of the key in a part's record. -/
def Part.val (p : Part) : Bytes := (p.key.map Slot.value).getD []
def Part.keyType (p : Part) : Nat := (p.key.map Slot.type).getD 0

/-- A new slot of the command is written, under the header key as the record holds it, or under the root (R202). Answers the 4-byte
reference. -/
def newKey (c : Cmd) (p : Part) (type len : Nat) (value : Bytes) (pending yOdd : Bool) (s : State) : Bytes × State :=
  let (parent, ps) := match p.key with
    | some x => if c.yref ≠ 0 then (refSlot c.yref, x) else (s.rootSlot c.lease, s.slot (s.rootSlot c.lease))
    | none => (s.rootSlot c.lease, s.slot (s.rootSlot c.lease))
  let attr := if c.opcode = 0x0602 then blobAttr c.input else c.attr
  let (r, s) := writeUnder c.lease c.target parent ps type len attr value pending yOdd s
  (leBytes 4 r.toNat, s)

/-- A comparison that fails is an event of the engine, attributed to the lease (R193). -/
def compared (q k bad : Nat) (good : Bool) (s : State) : Nat × Bytes × State :=
  if good then (0, [], s) else (bad, [], engineEvent q 4 k s)

/-! ### Digest and MAC (R106, R107) -/

def digestOf (alg n : Nat) (msg : Bytes) : Bytes :=
  let n := if alg ≤ 6 then algOut alg else n
  fixLen n (Config.digestRaw alg n msg)

def macOf (alg n : Nat) (key custom msg : Bytes) : Bytes :=
  let n := if alg ≤ 6 then algOut alg else n
  fixLen n (Config.macRaw alg n key custom msg)

def fDigest (c : Cmd) (_ : Part) (s : State) : Nat × Bytes × State := (0, digestOf c.p0 c.opa c.input, s)

def fMacGen (c : Cmd) (p : Part) (s : State) : Nat × Bytes × State :=
  (0, macOf c.p0 c.opa p.val (c.input.take c.p1) (c.input.drop c.p1), s)

def fMacVerify (c : Cmd) (p : Part) (s : State) : Nat × Bytes × State :=
  let m := c.inLen - c.p1 - c.opc
  let mac := macOf c.p0 c.opa p.val (c.input.take c.p1) (slice c.input c.p1 m)
  compared (p.eng.getD 0) c.lease 0x0101 (mac.take c.opc = slice c.input (c.p1 + m) c.opc) s

/-! ### Wedge (R108, R172) -/

def cbcEnc (key iv d : Bytes) : Bytes := fixLen d.length (Config.cbcEncRaw key iv d)
def cbcDec (key iv d : Bytes) : Bytes := fixLen d.length (Config.cbcDecRaw key iv d)
def ctrText (key block d : Bytes) : Bytes := fixLen d.length (Config.ctrRaw key block d)
def gcmText (key iv d : Bytes) : Bytes := fixLen d.length (Config.gcmTextRaw key iv d)
def gcmTag (key iv aad ct : Bytes) : Bytes := fixLen 16 (Config.gcmTagRaw key iv aad ct)
def cmac (key d : Bytes) : Bytes := fixLen 16 (Config.cmacRaw key d)

def fCbcEnc (c : Cmd) (p : Part) (s : State) : Nat × Bytes × State := (0, cbcEnc p.val c.u3 c.input, s)
def fCbcDec (c : Cmd) (p : Part) (s : State) : Nat × Bytes × State := (0, cbcDec p.val c.u3 c.input, s)
def fCtr (c : Cmd) (p : Part) (s : State) : Nat × Bytes × State := (0, ctrText p.val c.u3 c.input, s)

/-- Ciphertext and tag. -/
def gcmSeal (key iv aad text : Bytes) : Bytes :=
  let ct := gcmText key iv text
  ct ++ gcmTag key iv aad ct

def fGcmEnc (c : Cmd) (p : Part) (s : State) : Nat × Bytes × State :=
  (0, gcmSeal p.val (c.u3.take 12) (c.input.take c.aad) (c.input.drop c.aad), s)

/-- The IV is the last 12 of the 44 drawn bytes (R171). -/
def fGcmEncRiv (c : Cmd) (p : Part) (s : State) : Nat × Bytes × State :=
  let iv := slice p.drawn 32 12
  (0, iv ++ gcmSeal p.val iv (c.input.take c.aad) (c.input.drop c.aad), s)

/-- GCM_DEC: the marks go; a mismatch zeroes the range first (R174). -/
def fGcmDec (c : Cmd) (p : Part) (s : State) : Nat × Bytes × State :=
  let iv := c.u3.take 12
  let ct := slice c.input c.aad c.plain
  let good := gcmTag p.val iv (c.input.take c.aad) ct = slice c.input (c.aad + c.plain) 16
  let mine := fun (x : Held) => x.bench = p.eng.getD 0 / 5 && x.lease = c.lease
  if good then (0, gcmText p.val iv ct, { s with held := s.held.filter fun x => !mine x })
  else compared (p.eng.getD 0) c.lease 0x0102 false (dropHeld mine s)

def fCmacGen (c : Cmd) (p : Part) (s : State) : Nat × Bytes × State := (0, cmac p.val c.input, s)

def fCmacVerify (c : Cmd) (p : Part) (s : State) : Nat × Bytes × State :=
  let m := c.inLen - c.opc
  compared (p.eng.getD 0) c.lease 0x0101 ((cmac p.val (c.input.take m)).take c.opc = slice c.input m c.opc) s

/-! ### Cutter (R109, R135-R137) -/

/-- The private operation under the drawn base blind, with its PUB check: the blind is invertible modulo n, and the result to the power
65,537 is the input again (R135, R137). -/
def rsaPrivate (t : Nat) (v x drawn : Bytes) : Option Bytes :=
  let r := rsaKey t v
  let y := r.private_ (beNat x)
  if Nat.gcd (beNat (drawn.take (rsaLen t)) % r.n) r.n = 1 && powMod y 65537 r.n = beNat x then some (beBytes (rsaLen t) y) else none

def fRsaPriv (c : Cmd) (p : Part) (s : State) : Nat × Bytes × State :=
  match rsaPrivate p.keyType p.val c.input p.drawn with
  | some out => (0, out, s)
  | none => (0x0131, [], faultCheck (p.eng.getD 0) s)

def fRsaPub (c : Cmd) (p : Part) (s : State) : Nat × Bytes × State :=
  let t := if c.yref = 0 then 0x1F + c.p0 else p.keyType
  let k := rsaLen t
  let n := if c.yref = 0 then beNat (slice c.input 0 k) else (rsaKey t p.val).n
  let x := if c.yref = 0 then beNat (slice c.input k k) else beNat c.input
  (0, beBytes k (powMod x 65537 n), s)

def edSign (seed msg : Bytes) : Bytes := fixLen 64 (Config.edSignRaw seed msg)

def fEdSign (c : Cmd) (p : Part) (s : State) : Nat × Bytes × State := (0, edSign (p.val.take 32) c.input, s)

/-- Public key of a verification, inline or from the slot, and the input after it. -/
def splitKey (c : Cmd) (len : Nat) (pub : Bytes) : Bytes × Bytes :=
  if c.yref = 0 then (slice c.input 0 len, c.input.drop len) else (pub, c.input)

def verdict (good : Bool) (s : State) : Nat × Bytes × State := (if good then 0 else 0x0100, [], s)

def fEdVerify (c : Cmd) (p : Part) (s : State) : Nat × Bytes × State :=
  let (pk, rest) := splitKey c 32 ((p.key.map Slot.pub).getD [])
  verdict (Config.edVerify pk (rest.drop 64) (slice rest 0 64)) s

/-- The ECDSA nonce from T: its first 40 or 56 bytes, reduced into 1 to n - 1 (R136). -/
def ecdsaNonce (curve : Nat) (d hash hedge : Bytes) : Nat :=
  let t := fun (i : Byte) => digestOf 3 0 ([i] ++ d ++ hash ++ hedge)
  beNat ((t 1 ++ t 2).take (if curve = 3 then 40 else 56)) % (Config.groupOrder curve - 1) + 1

/-- r and s of ECDSA (FIPS 186-5) of a hash under d and the hedge bytes; none where r or s is 0 (R135-R137). -/
def ecdsaSign (curve : Nat) (d hash hedge : Bytes) : Option Bytes :=
  let l := if curve = 3 then 32 else 48
  let n := Config.groupOrder curve
  let k := ecdsaNonce curve d hash hedge
  let r := (Config.pointMul curve k (Config.pointBase curve)).getD 0 % 2 ^ (8 * l) % n
  let s := (modInv k n).getD 0 * (beNat hash + r * beNat d) % n
  if r = 0 || s = 0 then none else some (beBytes l r ++ beBytes l s)

def fEcdsaSign (c : Cmd) (p : Part) (s : State) : Nat × Bytes × State :=
  let curve := curveOf p.keyType
  let l := if curve = 3 then 32 else 48
  match ecdsaSign curve (p.val.take l) c.input (p.drawn.take l) with
  | some out => (0, out, s)
  | none => (0x0131, [], faultCheck (p.eng.getD 0) s)

def fEcdsaVerify (c : Cmd) (p : Part) (s : State) : Nat × Bytes × State :=
  let curve := if c.yref = 0 then (if c.p0 = 1 then 3 else 4) else curveOf p.keyType
  let l := if curve = 3 then 32 else 48
  let (pk, rest) := splitKey c (2 * l) ((p.key.map Slot.pub).getD [])
  verdict (Config.ecdsaVerify curve pk (rest.drop (2 * l)) (slice rest 0 (2 * l))) s

/-- X25519 and ECDH: a SECRET slot with the result; OPERAND at the end for an invalid peer or an all-zero result. -/
def fAgree (c : Cmd) (p : Part) (s : State) : Nat × Bytes × State :=
  let curve := curveOf p.keyType
  let l := if curve = 4 then 48 else 32
  match Config.agree curve ((p.key.map Slot.priv).getD []) c.input with
  | none => (0x0121, [], s)
  | some v =>
    let (r, s) := newKey c p 0x04 l (fixLen l v) false false s
    (0, r, s)

/-- The new private key from the drawn bytes (R136). -/
def newPrivate (curve : Nat) (drawn : Bytes) : Bytes :=
  if curve = 3 ∨ curve = 4 then
    beBytes (if curve = 3 then 32 else 48) (beNat drawn % (Config.groupOrder curve - 1) + 1)
  else drawn

def fKeygenEc (c : Cmd) (p : Part) (s : State) : Nat × Bytes × State :=
  let t := ecType c.p0
  let priv := newPrivate c.p0 p.drawn
  let pub := pubOf c.p0 priv
  let (r, s) := newKey c p t 0 (curveValue c.p0 priv pub) false (yIsOdd c.p0 pub) s
  (0, r ++ pub, s)

/-! ### Splitter (R111, R148-R155) -/

def mldsaPub (xi : Bytes) : Bytes := fixLen 1952 (Config.mldsaPubRaw xi)
def mlkemPub (dz : Bytes) : Bytes := fixLen 1184 (Config.mlkemPubRaw dz)

def fMldsaKeygen (c : Cmd) (p : Part) (s : State) : Nat × Bytes × State :=
  let (r, s) := newKey c p 0x30 0 p.drawn false false s
  (0, r ++ mldsaPub p.drawn, s)

/-- A signing that ends without acceptance at attempt 256 (R151). -/
def limitReached (xi ctx msg rnd : Bytes) : Bool := 256 < Config.mldsaAttemptsRaw xi ctx msg rnd

/-- The candidate that a signing accepts. -/
def mldsaSig (xi ctx msg rnd : Bytes) : Bytes := fixLen 3309 (Config.mldsaSignRaw xi ctx msg rnd)

/-- The release phase of a signing on splitter q for lease k, which SPL_NSUM counts with its attempts: ATTEMPT_LIMIT with its event and count;
the signature, where it verifies against pk; else FAULT_CHECK. `bad` is a fault of the verification (R151, R164). -/
def signOutcome (q k : Nat) (bad : Bool) (xi ctx msg rnd : Bytes) (s : State) : Nat × Bytes × State :=
  let s := s.modEngine q fun e => { e with sigs := satAdd e.sigs 1, atts := satAdd e.atts (attemptsOf xi ctx msg rnd) }
  let sig := mldsaSig xi ctx msg rnd
  if limitReached xi ctx msg rnd then
    (0x0123, [], engineEvent q 4 k (s.modEngine q fun e => { e with limit := satAdd e.limit 1 }))
  else if !bad && Config.mldsaVerify (mldsaPub xi) ctx msg sig then (0, sig, s)
  else (0x0131, [], faultCheck q s)

def fMldsaSign (bad : Bool) (c : Cmd) (p : Part) (s : State) : Nat × Bytes × State :=
  signOutcome (p.eng.getD 0) c.lease bad p.val c.ctxOf c.msgOf p.drawn s

def fMldsaVerify (c : Cmd) (p : Part) (s : State) : Nat × Bytes × State :=
  let (pk, rest) := splitKey c 1952 (mldsaPub p.val)
  let m := rest.drop 3309
  verdict (Config.mldsaVerify pk (m.take c.p0) (m.drop c.p0) (slice rest 0 3309)) s

def fMlkemKeygen (c : Cmd) (p : Part) (s : State) : Nat × Bytes × State :=
  let (r, s) := newKey c p 0x31 0 p.drawn false false s
  (0, r ++ mlkemPub p.drawn, s)

def fMlkemEncaps (c : Cmd) (p : Part) (s : State) : Nat × Bytes × State :=
  let ek := if c.yref = 0 then c.input else mlkemPub p.val
  if !Config.mlkemEkOk ek then (0x0121, [], s)
  else
    let (r, s) := newKey c p 0x04 32 (fixLen 32 (Config.mlkemEncKeyRaw ek p.drawn)) false false s
    (0, r ++ fixLen 1088 (Config.mlkemEncCtRaw ek p.drawn), s)

def fMlkemDecaps (c : Cmd) (p : Part) (s : State) : Nat × Bytes × State :=
  let (r, s) := newKey c p 0x04 32 (fixLen 32 (Config.mlkemDecKeyRaw p.val c.input)) false false s
  (0, r, s)

/-! ### Hybrid (R112-R115): Ed25519 over the message part, ML-DSA over context and message -/

def fHybSignA (c : Cmd) (p : Part) (s : State) : Nat × Bytes × State := (0, edSign (p.val.take 32) c.msgOf, s)

/-- The pieces of a HYB_VERIFY input (R115): Ed25519 key, ML-DSA key, signatures, ctx and message. -/
def hybPieces (c : Cmd) : Bytes × Bytes × Bytes × Bytes × Bytes :=
  let o1 := if c.yref = 0 then 32 else 0
  let o2 := o1 + if c.opa = 0 then 1952 else 0
  (slice c.input 0 o1, slice c.input o1 (o2 - o1), slice c.input o2 64, slice c.input (o2 + 64) 3309, c.input.drop (o2 + 64 + 3309))

def fHybVerifyA (c : Cmd) (p : Part) (s : State) : Nat × Bytes × State :=
  let (pk, _, sig, _, m) := hybPieces c
  let pk := if c.yref = 0 then pk else (p.key.map Slot.pub).getD []
  verdict (Config.edVerify pk (m.drop c.p0) sig) s

def fHybVerifyB (c : Cmd) (p : Part) (s : State) : Nat × Bytes × State :=
  let (_, pk, _, sig, m) := hybPieces c
  let pk := if c.opa = 0 then pk else mldsaPub p.val
  verdict (Config.mldsaVerify pk (m.take c.p0) (m.drop c.p0) sig) s

/-! ### Yard commands (R116, R208, R215-R217) -/

def fKeyGen (c : Cmd) (p : Part) (s : State) : Nat × Bytes × State :=
  let (r, s) := newKey c p c.p0 (if c.p0 = 3 then c.p1 else 0) p.drawn false false s
  (0, r, s)

/-- The 16-byte header of a blob (R216). -/
def blobHeader (mode : Nat) (x : Slot) : Bytes :=
  leBytes 1 1 ++ leBytes 1 mode ++ leBytes 1 x.type ++ leBytes 1 x.len ++ leBytes 2 x.attr.toNat ++ leBytes 1 x.run ++
    leBytes 1 (bit (x.type = 0x13 && x.yOdd)) ++ leBytes 4 (if isRsa x.type then 65537 else 0) ++ leBytes 4 0

/-- The blob of a slot (R216): AES-KW of header, value and pad, or AES-GCM with the header as AAD. -/
def wrapBlob (mode : Nat) (wrapKey : Bytes) (x : Slot) (iv : Bytes) : Bytes :=
  let h := blobHeader mode x
  let v := typeValue x.type x.len
  let value := fixLen v x.value
  if mode = 0 then
    let d := h ++ fixLen (8 * ceilDiv v 8) value
    h ++ fixLen (d.length + 8) (Config.kwWrapRaw wrapKey d)
  else h ++ iv ++ gcmSeal wrapKey iv h value

def fKeyWrap (c : Cmd) (p : Part) (s : State) : Nat × Bytes × State :=
  (0, wrapBlob c.p0 p.val (p.key2.getD {}) (slice p.drawn 32 12), s)

/-- The value of a blob whose integrity holds. -/
def unwrapBlob (wrapKey blob : Bytes) : Option Bytes :=
  let h := slice blob 0 16
  let v := typeValue (blobType blob) (blobLen blob)
  if fieldLE blob 1 1 = 0 then
    match Config.kwUnwrap wrapKey (blob.drop 16) with
    | none => none
    | some d => if d = h ++ fixLen (8 * ceilDiv v 8) (slice d 16 v) then some (slice d 16 v) else none
  else
    let iv := slice blob 16 12
    let ct := slice blob 28 v
    if gcmTag wrapKey iv h ct = slice blob (28 + v) 16 then some (gcmText wrapKey iv ct) else none

/-- The slot's check compares the public part that the blob brought (R214). -/
def markUnwrap (i : Nat) (s : State) : State :=
  { s with yard := { s.yard with checks := s.yard.checks.map fun x => if x.slot = i then { x with unwrap := true } else x } }

def fKeyUnwrap (c : Cmd) (p : Part) (s : State) : Nat × Bytes × State :=
  if !blobHeaderOk c.input then (0x0103, [], s)
  else
    match unwrapBlob p.val c.input with
    | none => (0x0103, [], s)
    | some v =>
      let t := blobType c.input
      let pend := isCurve t || isRsa t
      let (r, s) := newKey c p t (blobLen c.input) v pend (fieldLE c.input 7 1 = 1) s
      (0, r, if pend then markUnwrap c.target s else s)

def fKeyDerive (c : Cmd) (p : Part) (s : State) : Nat × Bytes × State :=
  let len := if 3 ≤ c.p0 then c.p1 else 0
  let n := typeValue c.p0 len
  let (r, s) := newKey c p c.p0 len (fixLen n (Config.deriveRaw n p.val c.input)) false false s
  (0, r, s)

/-- The public key KEY_PUB outputs (R116). -/
def publicOf (x : Slot) : Bytes :=
  if isCurve x.type then pubOf (curveOf x.type) x.priv
  else if isRsa x.type then slice x.value 0 (rsaLen x.type)
  else if x.type = 0x30 then mldsaPub x.value
  else mlkemPub x.value

def fKeyPub (_ : Cmd) (p : Part) (s : State) : Nat × Bytes × State := (0, publicOf (p.key.getD {}), s)

/-- RNG_GET (R117). -/
def fRngGet (_ : Cmd) (p : Part) (s : State) : Nat × Bytes × State := (0, p.drawn, s)

/-! ### The rows -/

def execNop (h : Nat) (s : State) : Res := .next (finishFree 0x0000 h (fun _ s => ([], s)) s)
def execDigest (h : Nat) (s : State) : Res := .next (finish 0x0100 h false false fDigest s)
def execMacGen (h : Nat) (s : State) : Res := .next (finish 0x0101 h false false fMacGen s)
def execMacVerify (h : Nat) (s : State) : Res := .next (finish 0x0102 h false false fMacVerify s)
def execCbcEnc (h : Nat) (s : State) : Res := .next (finish 0x0200 h false false fCbcEnc s)
def execCbcDec (h : Nat) (s : State) : Res := .next (finish 0x0201 h false false fCbcDec s)
def execCtr (h : Nat) (s : State) : Res := .next (finish 0x0202 h false false fCtr s)
def execGcmEnc (h : Nat) (s : State) : Res := .next (finish 0x0203 h false false fGcmEnc s)
def execGcmEncRiv (h : Nat) (s : State) : Res := .next (finish 0x0204 h false false fGcmEncRiv s)
def execGcmDec (h : Nat) (s : State) : Res := .next (finish 0x0205 h false false fGcmDec s)
def execCmacGen (h : Nat) (s : State) : Res := .next (finish 0x0206 h false false fCmacGen s)
def execCmacVerify (h : Nat) (s : State) : Res := .next (finish 0x0207 h false false fCmacVerify s)
def execRsaPriv (h : Nat) (bad : Bool) (s : State) : Res := .next (finish 0x0300 h false bad fRsaPriv s)
def execRsaPub (h : Nat) (s : State) : Res := .next (finish 0x0301 h false false fRsaPub s)
def execEdSign (h : Nat) (bad : Bool) (s : State) : Res := .next (finish 0x0310 h false bad fEdSign s)
def execEdVerify (h : Nat) (s : State) : Res := .next (finish 0x0311 h false false fEdVerify s)
def execEcdsaSign (h : Nat) (bad : Bool) (s : State) : Res := .next (finish 0x0312 h false bad fEcdsaSign s)
def execEcdsaVerify (h : Nat) (s : State) : Res := .next (finish 0x0313 h false false fEcdsaVerify s)
def execX25519 (h : Nat) (bad : Bool) (s : State) : Res := .next (finish 0x0320 h false bad fAgree s)
def execEcdh (h : Nat) (bad : Bool) (s : State) : Res := .next (finish 0x0321 h false bad fAgree s)
def execKeygenEc (h : Nat) (bad : Bool) (s : State) : Res := .next (finish 0x0330 h false bad fKeygenEc s)
def execMldsaKeygen (h : Nat) (s : State) : Res := .next (finish 0x0400 h false false fMldsaKeygen s)
def execMldsaSign (h : Nat) (bad : Bool) (s : State) : Res := .next (finish 0x0401 h false false (fMldsaSign bad) s)
def execMldsaVerify (h : Nat) (s : State) : Res := .next (finish 0x0402 h false false fMldsaVerify s)
def execMlkemKeygen (h : Nat) (s : State) : Res := .next (finish 0x0410 h false false fMlkemKeygen s)
def execMlkemEncaps (h : Nat) (s : State) : Res := .next (finish 0x0411 h false false fMlkemEncaps s)
def execMlkemDecaps (h : Nat) (s : State) : Res := .next (finish 0x0412 h false false fMlkemDecaps s)

/-- HYB_SIGN: whichever part is in its last tick; the command ends with the later one (R112, R114). -/
def execHybSign (h : Nat) (inv vbr : Bool) (s : State) : Res :=
  .next (finish 0x0500 h true false (fMldsaSign vbr) (finish 0x0500 h false inv fHybSignA s))

/-- HYB_VERIFY (R113). -/
def execHybVerify (h : Nat) (s : State) : Res :=
  .next (finish 0x0501 h true false fHybVerifyB (finish 0x0501 h false false fHybVerifyA s))

def execKeyGen (h : Nat) (s : State) : Res := .next (finish 0x0600 h false false fKeyGen s)
def execKeyWrap (h : Nat) (s : State) : Res := .next (finish 0x0601 h false false fKeyWrap s)
def execKeyUnwrap (h : Nat) (s : State) : Res := .next (finish 0x0602 h false false fKeyUnwrap s)
def execKeyDerive (h : Nat) (s : State) : Res := .next (finish 0x0603 h false false fKeyDerive s)

/-- KEY_PUB's INV check is made for curve types alone (R101, R116, R137). -/
def State.pubChecked (s : State) (h : Nat) : Bool := match s.cmd h with | some c => isCurve c.a.keyType | none => false

/-- KEY_PUB on its engine; an engine-free one reports the check that its reference fails (R116). -/
def execKeyPub (h : Nat) (bad : Bool) (s : State) : Res :=
  .next (finishFree 0x0604 h (fun c s => (publicOf (s.slot (refSlot c.yref)), s)) (finish 0x0604 h false (bad && s.pubChecked h) fKeyPub s))

/-- KEY_INVAL (R208). -/
def execKeyInval (h : Nat) (s : State) : Res := .next (finishFree 0x0605 h (fun c s => ([], invalidate (refSlot c.yref) s)) s)

/-- KEY_INFO (R116). -/
def execKeyInfo (h : Nat) (s : State) : Res := .next (finishFree 0x0606 h (fun c s => ((s.slot (refSlot c.yref)).header, s)) s)

def execRngGet (h : Nat) (s : State) : Res := .next (finish 0x0700 h false false fRngGet s)

/-! ### PRG_CALL (R118) -/

/-- The bench core a call addresses: core CORE mod 4 for a CORE above 3, which the call's first tick reports (log 113). -/
def State.callCore (s : State) (c : Cmd) : Nat := 4 * s.cmdHome c + fieldLE c.u3 0 1 % 4

/-- A call may be looked at: eligible at this boundary, its core held by the lease and serving no other. -/
def State.callDue (s : State) (c : Cmd) : Bool :=
  c.opcode = 0x0800 && !c.delivered && s.eligible c && s.leaseLive c.lease && s.benchLive (s.cmdHome c) &&
    s.coreOwner (s.callCore c) = c.lease && (s.core (s.callCore c)).serving.isNone

/-- PRG_CALL in its first tick: INPUT_LEN, OPERAND, or PROGRAM without a loaded program, each with 1 tick (log 113); otherwise the call is ready
for delivery. -/
def execPrgCall (h : Nat) (s : State) : Res :=
  match s.cmd h with
  | none => .next s
  | some c =>
    if !s.callDue c || c.admitted then .next s
    else
      let (st, s, _) := r98 c false s
      let st := if st ≠ 0 then st else if (s.lease c.lease).inForce = [] then 0x0132 else 0
      if st ≠ 0 then .next (endCmd h st 0 [] (s.setCmd h { c with a := { c.a with ticks := 1 } }))
      else .next (s.setCmd h { c with admitted := true })

end Sys2Proof.Machine
end

