-- ==== Sys2Proof/Machine/Signing.lean ====
section
/-! DEFINITION. Signatures of the island's engines, each verified before release (R6, R138, R163), and the signed SPDM responses that wait for
them (R369, R370). -/

namespace Sys2Proof.Machine
open Sys2Proof

/-- The island cutter's signature where it verifies; else nothing is released, and the cutter's fault-check event (R138). -/
def islandCutter (good : Bool) (sig : Bytes) (s : State) : Option Bytes × State :=
  if good then (some sig, s) else (none, faultCheck 80 s)

def islandEd (seed msg : Bytes) (s : State) : Option Bytes × State :=
  let sig := edSign seed msg
  islandCutter (Config.edVerify (pubOf 1 seed) msg sig) sig s

/-- The island splitter's signature where its release phase gives one (R163, R164). -/
def islandMl (xi msg rnd : Bytes) (s : State) : Option Bytes × State :=
  match signOutcome 82 0xFF false xi [] msg rnd s with
  | (0, sig, s) => (some sig, s)
  | (_, _, s) => (none, s)

/-- Ed25519 and ML-DSA-65 signatures over a message, hedged with rnd; combined only where both halves are released (R6, R138, R163). -/
def dualWith (seed : Nat → Bytes) (msg rnd : Bytes) (s : State) : Option Bytes × State :=
  let (ed, s) := islandEd (seed 0) msg s
  let (ml, s) := islandMl (seed 2) msg rnd s
  (match ed, ml with | some e, some m => some (e ++ m) | _, _ => none, s)

/-- Island ticks of the ML-DSA-65 half, and of the two halves of a dual signature, which run in parallel (R138, R163). -/
def mlTicks (xi msg rnd : Bytes) : Nat := 28 + 8 * attemptsOf xi [] msg rnd
def dualTicks (seed : Nat → Bytes) (msg rnd : Bytes) : Nat := max 64 (mlTicks (seed 2) msg rnd)

/-- A dual signature of `body` begins with the next tick; the caller has seen that the island's expander serves the hedge. -/
def beginSign (seed : Nat → Bytes) (body : Bytes) (s : State) : SignJob × State :=
  let (rnd, s) := drawIsland 32 s
  ({ body := body, rnd := rnd, due := s.pw.now + dualTicks seed body rnd }, s)

/-- A tick of a dual signature: it goes on, one tick longer where a gate pass holds the island's engines (R252), or it ends, with nothing where a
half is not released. -/
def signStep (seed : Nat → Bytes) (j : SignJob) (s : State) : Option SignJob × Option Bytes × State :=
  if s.flg.pass.isSome then (some { j with due := j.due + 1 }, none, s)
  else if s.pw.now < j.due then (some j, none, s)
  else
    let (sig, s) := dualWith seed j.body j.rnd s
    (none, sig, s)

/-- The island's engines may begin other work than a pass (R252), with randomness for a hedge (R232). -/
def State.maySign (s : State) : Bool := s.running && s.flg.pass.isNone && s.islandHas 32

/-! ### Signed SPDM responses -/

def State.conn (s : State) (c : Nat) : SConn := tget {} s.spdm.conns c
def State.setConn (s : State) (c : Nat) (x : SConn) : State := { s with spdm := { s.spdm with conns := tset {} s.spdm.conns c x } }

/-- SPDM is served: island firmware runs, and a PF connection has its link. Dictionary enables do not matter (R372). -/
def State.spdmOpen (s : State) (c : Nat) : Bool := s.islandRuns && s.lcs.state ≠ .scrapped && c ≤ 2 && (c = 2 || s.link.up)

/-- MaxSPDMmsgSize (R369). -/
def spdmMax : Nat := 8192

/-- A response of a connection's version: its code, two parameters, the rest; ResponseTooLarge above MaxSPDMmsgSize. A response above DataTransferSize
goes in chunks, whose reassembled bytes these are (log 155). -/
def spdmSend (ver code p1 p2 : Nat) (b : Bytes) (s : State) : State :=
  let m := if spdmMax < b.length + 4 then leBytes 1 ver ++ [0x7F, 0x0D, 0] else leBytes 1 ver ++ leBytes 1 code ++ leBytes 1 p1 ++ leBytes 1 p2 ++ b
  { s with out := { s.out with spdm := m } }

/-- ERROR with its code. -/
def spdmError (c code : Nat) (s : State) : State := spdmSend (max 0x10 (s.conn c).ver) 0x7F code 0 [] s

def eUnspecified : Nat := 0x05

/-- The ML-DSA-65 half of the most recent signed response of a connection, or of a session (R370). -/
def keepHalf (c : Nat) (sess : Option Nat) (half : Bytes × Bytes) (s : State) : State :=
  match sess with
  | none => s.setConn c { s.conn c with half := some half }
  | some i => { s with spdm := { s.spdm with sessions := s.spdm.sessions.map fun e => if e.id = i then { e with half := some half } else e } }

/-- Both halves have ended: the response with its signature, or ERROR Unspecified where a half failed. -/
def releaseSigned (m : Signing) (s : State) : State :=
  let s := { s with spdm := { s.spdm with signing := none } }
  let (a, s) := islandCutter m.good m.sig s
  let (b, s) := islandMl m.xi m.msg m.rnd s
  match a, b with
  | some sig, some ml =>
    let s := match m.session with
      | some e => { s with spdm := { s.spdm with nextId := e.id + 1, sessions := s.spdm.sessions ++ [e] } }
      | none => s
    let s := keepHalf m.conn m.sess (sha384 m.msg, ml) s
    spdmSend (s.conn m.conn).ver m.code m.p1 0 (m.body ++ sig) s
  | _, _ => spdmError m.conn eUnspecified s

/-- The end of a tick: a signed response is released in the last tick of its longer half. A gate pass holds the island's engines (R252); without main
power nothing is signed, and the request stays unanswered (R436). -/
def signingTick (s : State) : State :=
  match s.spdm.signing with
  | none => s
  | some m =>
    let put := fun (x : Option Signing) => { s with spdm := { s.spdm with signing := x } }
    if !s.spdmOpen m.conn || !s.running then put none
    else if s.flg.pass.isSome then put (some { m with due := m.due + 1 })
    else if m.due ≤ s.pw.now then releaseSigned m s
    else s

end Sys2Proof.Machine
end

