-- ==== Sys2Proof/Machine/Tag.lean ====
section
/-! DEFINITION. The tag: its store, field and wired access, passwords, and the data island firmware commits to it (R270, R271, R338-R344,
R413, R429). -/

namespace Sys2Proof.Machine
open Sys2Proof

def State.modTag (s : State) (f : Tag → Tag) : State := { s with tag := f s.tag }

/-- Size of a copy of an area, by its code; 0 for no area (R340). -/
def tagSize (area : Nat) : Nat :=
  if area = 0 then 512 else if area = 1 then 256 else if area = 2 then 512 else if area = 3 then 2048 else if area = 4 then 4608 else 0

def Tag.copy (t : Tag) (area c : Nat) : TagCopy := tget {} t.copies (2 * area + c)
def Tag.setCopy (t : Tag) (area c : Nat) (x : TagCopy) : Tag := { t with copies := tset {} t.copies (2 * area + c) x }

/-- The served copy of an area: the valid one with the higher SEQ (R341). -/
def Tag.servedOf (t : Tag) (area : Nat) : Option Nat :=
  let a := t.copy area 0
  let b := t.copy area 1
  if a.valid && b.valid then some (if b.seq.toNat < a.seq.toNat then 0 else 1)
  else if a.valid then some 0 else if b.valid then some 1 else none

/-- What an area reads as: the served copy's bytes, empty where none is valid. -/
def Tag.area (t : Tag) (area : Nat) : Bytes := match t.servedOf area with | some c => (t.copy area c).data | none => []

/-- The copy a writer writes: the one that is not served. -/
def Tag.target (t : Tag) (area : Nat) : Nat := match t.servedOf area with | some 0 => 1 | _ => 0

/-- A whole commit: the copy, whose bytes beyond LEN stay, then its header with SEQ + 1 (R341). -/
def Tag.install (t : Tag) (area c : Nat) (data : Bytes) : Tag :=
  let seq := max (t.copy area 0).seq.toNat (t.copy area 1).seq.toNat + 1
  t.setCopy area c { valid := true, seq := BitVec.ofNat 32 seq, data := data, rest := (t.copy area c).bytes.drop data.length }

/-- A commit that stops after n bytes of its copy: the copy's header stays (R343). -/
def TagCopy.cut (x : TagCopy) (data : Bytes) (n : Nat) : TagCopy :=
  let b := data.take n ++ x.bytes.drop n
  let d := b.take x.data.length
  if d = x.data then { x with rest := b.drop x.data.length }
  else { x with valid := false, data := d, rest := b.drop x.data.length, check := if x.valid then some ((sha256 x.data).take 8) else x.check }

/-- The field keeps wired commits out (R343). -/
def Tag.fieldBusy (t : Tag) : Bool := t.st = .ready || t.st = .active

/-! ### Wired commits (R341, R343, R271) -/

/-- Start a wired commit, or refuse it with TAG_BUSY and event 17. One commit is under way at a time. -/
def startCommit (area : Nat) (data : Bytes) (why : Nat) (s : State) : State :=
  if s.tag.commit.isSome then s
  else if s.tag.fieldBusy then raiseTag 17 (s.modTag fun t => { t with wres := 1 })
  else
    s.modTag fun t => { t with wres := 2, commit := some { area := area, copy := t.target area, data := data, at_ := s.pw.now, why := why } }

/-- Start the summary or the service data that waits, if nothing is under way; a TAG_BUSY keeps it waiting, with its own event (R271, R274,
R416). -/
def tryPending (s : State) : State :=
  if s.tag.commit.isSome then s
  else
    match s.tag.sumPend with
    | some d =>
      let t := startCommit 4 d 1 s
      if t.tag.commit.isSome then t.modTag fun x => { x with sumPend := none } else raiseGate 16 t
    | none =>
      match s.tag.svcPend with
      | some d =>
        let t := startCommit 3 d 2 s
        if t.tag.commit.isSome then t.modTag fun x => { x with svcPend := none } else raiseTamper 37 t
      | none => s

/-- A newer summary, or newer service data, replaces one that waits. -/
def commitSummary (d : Bytes) (s : State) : State := tryPending (s.modTag fun t => { t with sumPend := some d })
def commitService (d : Bytes) (s : State) : State := tryPending (s.modTag fun t => { t with svcPend := some d })

/-! ### The service area (R413, R429) -/

/-- A fault record's 32 bytes (R425). -/
def Rec.bytes (r : Rec) : Bytes :=
  leBytes 2 r.first ++ leBytes 1 r.sev ++ leBytes 1 (bit r.open_ + 2 * bit r.latch + 4 * bit r.inj + 8 * bit r.qlost) ++
    leBytes 1 r.lease ++ leBytes 1 r.bench ++ leBytes 2 r.also.toNat ++ leBytes 8 r.tick.toNat ++ leBytes 8 r.time.toNat ++
    leBytes 8 r.groups.toNat

/-- The history of closed records, with the open one copied into it (R429). -/
def State.history (s : State) : List Rec := (s.flt.rec_.toList ++ s.flt.history).take 32

/-- The tamper summary, bytes 0 to 1,023 (R413). -/
def State.tamperSummary (s : State) : Bytes :=
  let l := (s.vault.log.reverse).take 30
  let head := ascii "SVTS" ++ [1] ++ leBytes 1 l.length ++ leBytes 1 (bit s.vault.latch) ++ leBytes 1 s.vault.cause.toNat ++
    fixLen 16 s.ident.unit ++ leBytes 4 ((s.vault.log.getLast?.map TamperBody.seq).getD 0) ++ leBytes 4 s.vault.drop.toNat ++
    leBytes 8 s.time64.toNat ++ leBytes 1 (bit s.vault.bedrock.isSome)
  fixLen 64 head ++ fixLen 960 (l.flatMap fun e =>
    leBytes 4 e.seq ++ slice e.body 8 8 ++ slice e.body 16 4 ++ (sha384 e.body).take 16)

/-- The fault history, bytes 1,024 to 2,047 (R429). -/
def State.faultSummary (s : State) : Bytes :=
  let l := s.history.take 30
  let head := ascii "SVFS" ++ [1] ++ leBytes 1 l.length ++ leBytes 2 0 ++ fixLen 16 s.ident.unit ++ leBytes 8 s.time64.toNat
  fixLen 64 head ++ fixLen 960 (l.flatMap Rec.bytes)

/-- Island firmware rebuilds the service area and commits it. -/
def buildService (s : State) : State :=
  if s.islandRuns then commitService (s.tamperSummary ++ s.faultSummary) s else s

/-! ### The field side (R338, R342-R344) -/

/-- The status word of an answer of the tag, after its data. -/
def tagAnswer (data : Bytes) (sw : Nat) (s : State) : State := { s with out := { s.out with tag := data ++ beBytes 2 sw } }

/-- The reader's own field is on: the tag does not answer, and an outside field is ignored (R488). -/
def State.readerField (s : State) : Bool := !(s.ctl.st = .off || s.ctl.st = .lpcd)

/-- The tag answers nothing: under the reader's own field, and on a scrapped part (R384, R488). -/
def State.tagMute (s : State) : Bool := s.readerField || s.lcs.state = .scrapped

/-- TAG_FIELD_ON: an outside field powers the tag; event 14. -/
def execTagFieldOn (s : State) : Res :=
  if s.tagMute || s.tag.st ≠ .off then .next s else .next (raiseTag 14 (s.modTag fun t => { t with st := .idle }))

/-- What leaving ACTIVE clears: the staging buffer, the selection, the granted functions (R341, R342, R344). -/
def Tag.leave (t : Tag) (st : TagState) : Tag := { t with st := st, app := false, noteOk := false, svcOk := false, stage := [], served := [] }

def execTagFieldOff (s : State) : Res := .next (s.modTag fun t => t.leave .off)

/-- TAG_WAKE: a REQA in IDLE, or a WUPA in IDLE or HALT, is answered ATQA 0x0044. A wired commit under way stops before its next row and before
its header, after `rows` rows: TAG_BUSY, and what it carried waits again (R338, R343). -/
def execTagWake (wupa : Bool) (rows : Nat) (s : State) : Res :=
  if !(s.tag.st = .idle || (wupa && s.tag.st = .halt)) || s.tagMute then .next s
  else
    let s := { (s.modTag fun t => { t with st := .ready }) with out := { s.out with tag := leBytes 2 0x0044 } }
    match s.tag.commit with
    | none => .next s
    | some c =>
      let x := (s.tag.copy c.area c.copy).cut c.data (min (64 * rows) c.data.length)
      let s := s.modTag fun t =>
        let t := { (if c.why = 4 then t else t.setCopy c.area c.copy x) with commit := none, wres := 1 }
        if c.why = 1 && t.sumPend.isNone then { t with sumPend := some c.data }
        else if c.why = 2 && t.svcPend.isNone then { t with svcPend := some c.data } else t
      .next (raiseTag 17 s)

/-- The tag's answers from anticollision to RATS: UID CL1 with the cascade tag 0x88 and its BCC, SAK 0x04, UID CL2 with its BCC, SAK 0x20, ATS
(R338; the frames' CRC_A apart). -/
def State.selectionAnswers (s : State) : Bytes :=
  let level := fun (b : Bytes) => b ++ [b.foldl (· ^^^ ·) 0]
  let uid := fixLen 7 s.ident.tagUid
  level ([0x88] ++ uid.take 3) ++ [0x04] ++ level (uid.drop 3) ++ [0x20, 0x05, 0x78, 0x77, 0x80, 0x02]

/-- TAG_SELECTION: the anticollision, SELECT and RATS frames reach the tag, which enters ACTIVE with its served copies chosen (R338, R341). -/
def execTagSelection (s : State) : Res :=
  if s.tag.st ≠ .ready || s.tagMute then .next s
  else
    let served := [0, 1, 2, 3, 4].filterMap fun a => (s.tag.servedOf a).map fun c => (a, c)
    .next { (s.modTag fun t => { t with st := .active, served := served }) with
      out := { s.out with tag := s.selectionAnswers } }

/-- TAG_HALT: the tag leaves ACTIVE for HALT (R338, R342). -/
def execTagHalt (s : State) : Res := if s.tag.st = .active then .next (s.modTag fun t => t.leave .halt) else .next s

/-- TAG_SELECT: the field side selects the tag application (R342). -/
def execTagSelect (s : State) : Res :=
  if s.tag.st = .active && !s.tagMute then .next (tagAnswer [] 0x9000 (s.modTag fun t => { t with app := true })) else .next s

/-- A command of the application in ACTIVE. -/
def tagApdu (f : State → State) (s : State) : Res := if s.tag.st = .active && s.tag.app && !s.tagMute then .next (f s) else .next s

/-- The status of a function whose password has not been verified in this session. -/
def noRight (left : Nat) : Nat := if left = 0 then 0x6983 else 0x6982

/-- What the field reads of an area in this session (R341). -/
def Tag.fieldArea (t : Tag) (area : Nat) : Bytes :=
  match tfind t.served area with
  | some c => (t.copy area c).data
  | none => []

/-- TAG_READ: area code, offset in 32-byte units, Le (0: 256). -/
def execTagRead (area off le : Nat) (s : State) : Res :=
  tagApdu (fun s =>
    let d := s.tag.fieldArea area
    if area < 1 || 4 < area then tagAnswer [] 0x6A86 s
    else if area = 3 && !s.tag.svcOk then tagAnswer [] (noRight s.tag.svcPw) s
    else if d.length < 32 * off || (d.length = 32 * off && off ≠ 0) then tagAnswer [] 0x6A86 s
    else tagAnswer ((d.drop (32 * off)).take (if le = 0 then 256 else le)) 0x9000 s) s

/-- The verifier of a password (R344). -/
def State.verifier (s : State) (pw : Bytes) : Bytes := (sha256 (pw ++ fixLen 16 s.ident.unit)).take 16

def Tag.left (t : Tag) (p2 : Nat) : Nat := if p2 = 1 then t.notePw else t.svcPw
def Tag.setLeft (t : Tag) (p2 n : Nat) : Tag := if p2 = 1 then { t with notePw := n } else { t with svcPw := n }

/-- TAG_VERIFY: the attempts counter is decremented before the compare; a match sets it to 8 and grants the function (R344). `attempt.cut` says that
the field goes between the two: the attempt is spent, and nothing is answered. -/
def execTagVerify (p2 : Nat) (attempt : TagAttempt) (s : State) : Res :=
  tagApdu (fun s =>
    if p2 < 1 || 2 < p2 then tagAnswer [] 0x6A86 s
    else if attempt.pw.length ≠ 8 then tagAnswer [] 0x6700 s
    else if s.tag.left p2 = 0 then raiseTag 16 (tagAnswer [] 0x6983 s)
    else
      let n := s.tag.left p2 - 1
      if attempt.cut then s.modTag fun t => (t.setLeft p2 n).leave .off
      else if slice (s.tag.area 0) (16 * (p2 - 1)) 16 = s.verifier attempt.pw then
        tagAnswer [] 0x9000 (s.modTag fun t =>
          let t := t.setLeft p2 8
          if p2 = 1 then { t with noteOk := true } else { t with svcOk := true })
      else raiseTag 15 (tagAnswer [] (0x63C0 + n) (s.modTag fun t => t.setLeft p2 n))) s

/-- NOTE_WRITE: up to 224 bytes into the 512-byte staging buffer, at an offset in 32-byte units (R342). -/
def execNoteWrite (off : Nat) (data : Bytes) (s : State) : Res :=
  tagApdu (fun s =>
    if !s.tag.noteOk then tagAnswer [] (noRight s.tag.notePw) s
    else if 512 ≤ 32 * off then tagAnswer [] 0x6A86 s
    else if 224 < data.length || 512 < 32 * off + data.length then tagAnswer [] 0x6700 s
    else
      let b := fixLen 512 s.tag.stage
      tagAnswer [] 0x9000 (s.modTag fun t =>
        { t with stage := b.take (32 * off) ++ data ++ b.drop (32 * off + data.length) })) s

/-- NOTE_COMMIT: the staged note, 0 to 512 bytes, under the two-copy rule; event 18 with main power (R342). -/
def execNoteCommit (len : Nat) (s : State) : Res :=
  tagApdu (fun s =>
    if !s.tag.noteOk then tagAnswer [] (noRight s.tag.notePw) s
    else if 512 < len then tagAnswer [] 0x6700 s
    else raiseTag 18 (tagAnswer [] 0x9000 (s.modTag fun t => t.install 2 (t.target 2) (fixLen len t.stage)))) s

/-! ### The wired side (R343, R344, R346) -/

/-- TAG_WCMT: a GO while WRES = 2, for no area, or with a LEN above the copy size is ignored. -/
def tagCommitGo (area len : Nat) (s : State) : State :=
  if s.tag.commit.isSome || 4 < area || tagSize area < len then s
  else startCommit area ((List.range len).map fun i => tget 0 s.tag.wbuf i) 0 s

def execTagWcmtGo (area len : Nat) (s : State) : Res := if s.islandRuns then .next (tagCommitGo area len s) else .next s

/-- TAG_COMMIT_DONE: the rows and the header are programmed; the new copy is served, or the attempts counter is 8 again, and what waits starts
(R341, R344). -/
def execTagCommitDone (s : State) : Res :=
  match s.tag.commit with
  | none => .next s
  | some c =>
    let done := fun (t : Tag) => if c.why = 4 then t.setLeft c.area 8 else t.install c.area c.copy c.data
    .next (tryPending (s.modTag fun t => { done t with commit := none, wres := 0 }))

/-- TAG_COMMIT_RETRY at a frame boundary (R271). -/
def execTagCommitRetry (s : State) : Res := if s.islandRuns && s.ftick = 0 then .next (tryPending s) else .next s

/-- TAG_PASSWORD_WRITE, entry 0x8010: the verifier goes to the config area by a wired commit (R344, R345). -/
def execTagPasswordWrite (r : Req) (value : Bytes) (s : State) : Res :=
  if r.index ≠ 0x8010 || !(r.sub = 1 || r.sub = 2) then .next s
  else
    .next (writeEntry r { officer := true } 8 value (fun s =>
      if s.tag.commit.isSome then (.busy, s)
      else
        let c := fixLen 512 (s.tag.area 0)
        let o := 16 * (r.sub - 1)
        let t := startCommit 0 (c.take o ++ s.verifier value ++ c.drop (o + 16)) 3 s
        (if t.tag.commit.isSome then .ok else .busy, t)) s)

/-- ATTEMPTS_RESET, entry 0x8011: the counter of function 1 or 2 returns to 8 by a wired commit of its row (R343, R344). -/
def execAttemptsReset (r : Req) (value : Bytes) (s : State) : Res :=
  if r.index ≠ 0x8011 || !(r.sub = 1 || r.sub = 2) then .next s
  else
    .next (writeEntry r { officer := true } 1 value (fun s =>
      if 2 ≤ leNat value then (.range, s)
      else if leNat value = 0 then (.ok, s)
      else if s.tag.commit.isSome then (.busy, s)
      else
        let t := startCommit r.sub [] 4 s
        (if t.tag.commit.isSome then .ok else .busy, t)) s)

end Sys2Proof.Machine
end

