-- ==== Sys2Proof/Machine/Tick.lean ====
section
/-! DEFINITION. The parts of a tick boundary (R43-R45, R55, R89, R132, R141, R205, R231). -/

namespace Sys2Proof.Machine
open Sys2Proof

/-! ### ECC errors of the ending tick (R141, R166, R194, R419) -/

/-- Clear lease k's program record on engine q. -/
def clearRecord (q k : Nat) (s : State) : State :=
  s.modJob q k fun j => { j with cells := [], polys := [], out := [], drawn := [], key := none }

/-- Keys that this tick has written into slots are not written: neither the slots nor their records in the store change, and no check of them is due
(R141, R166). -/
def withdraw (p : Nat → Bool) (s : State) : State :=
  let new := s.yard.next.filter fun e => p e.1 && e.2.type ≠ 0
  let mine := fun (i : Nat) (x : Option Slot) => new.any fun e => e.1 = i && x.any fun y => y.gen = e.2.gen
  let y := s.yard
  { s with yard := { y with next := y.next.filter fun e => !new.contains e, toStore := y.toStore.filter fun e => !mine e.1 e.2,
                            store := y.store.filter fun r => !mine r.slot r.key,
                            checks := y.checks.filter fun c => !new.any fun e => e.1 = c.slot } }

/-- The outcome of the part of a host command in the quantum of engine q becomes a status without output, and what it was to write is not written.
The outcome of the command follows from those of its parts, and a check of R98 that a part of HYB_VERIFY has failed stays its outcome (R113, R114,
R141). -/
def spoil (st q h : Nat) (s : State) : State :=
  match s.cmd h with
  | none => s
  | some c =>
    let b := c.a.eng ≠ some q && c.b.isSome
    match c.result with
    | none => if (c.part b).checkFailed && c.opcode = 0x0501 then s else endPart h b st [] s
    | some _ =>
      let s := match newSlot s c 0 with
        | some x => withdraw (runSlots c.target (typeRun x.type)).contains s
        | none => s
      let c := if (c.part b).checkFailed && c.opcode = 0x0501 then c
        else c.setPart b { c.part b with status := some st, out := [] }
      s.setCmd h { c with result := some (joinStatus c, 0), out := [] }

/-- The same for the job whose quantum it is: the output and the slots of the steps and requests of this tick are withdrawn (R141, R161, R166,
R194). -/
def spoilJob (st q k : Nat) (s : State) : State :=
  let j := s.job q k
  let s := withdraw j.made.contains s
  let s := j.undo.foldl (fun t x => t.ramWrite x.1 x.2) s
  let s := if j.live then endJob q k st s else s.setJob q k (if j.ending.isSome then { j with ending := some st } else j)
  s.modJob q k fun j => { j with late := [], made := [], undo := [] }

/-- An alarm for lease k erases its records on every wedge that holds one, and on wedge q; a command whose record goes ends with QUARANTINED (R177,
R194). -/
def eraseLease (q k : Nat) (s : State) : State :=
  let t := forN 17 (fun n t =>
    if 5 * n + 3 = q || t.wedgeHolds (5 * n + 3) k then eraseWedge (5 * n + 3) 0x000A (fun i => i = k) t else t) s
  stopCommands (fun c => c.lease = k && c.a.cls = .wedge) 0x000A t

/-- A wedge quantum that lost its key in this tick gives no output; its command ends with QUARANTINED or MODE unless it has already failed (R177,
log 123). -/
def settleErased (q : Nat) (s : State) : State :=
  match (s.engine q).erased with
  | none => s
  | some st =>
    let s := dropHeld (fun x => x.bench = q / 5 && (s.engine q).lease = some x.lease) s
    let s := match (s.engine q).run with
      | .host h _ _ =>
        match s.cmd h with
        | some c => if c.result.isNone || c.result = some (0, 0) then spoil st q h s else s
        | none => s
      | _ => s
    s.modEngine q fun e => { e with erased := none }

/-- An uncorrectable error in the quantum of engine q ends what runs with FAULT_CHECK; in the context store the record goes too, and in a wedge the
records of its lease (R141, R166, R194). -/
def eccFatal (q : Nat) (store : Bool) (s : State) : State :=
  let e := q % 5
  let ends := fun (k : Nat) (s : State) =>
    let s := dropHeld (fun x => e = 3 && x.bench = q / 5 && x.lease = k) s
    let s := if e = 3 then eraseLease q k s else s
    let s := if e ≤ 1 then faultCheck q s else if e = 2 then engineEvent q 3 0xFF s else s
    engineEvent q (if e ≤ 1 then (if store then 5 else 4) else if e = 2 then 5 else if e = 3 then 6 else 5) 0xFF s
  match (s.engine q).run with
  | .none => s
  | .host h k _ => ends k (spoil 0x0131 q h s)
  | .job k =>
    let ctx := (s.job q k).ctx
    let s := spoilJob 0x31 q k s
    let s := if store || 3 ≤ e then clearRecord q k s else s
    let s := match ctx with
      | some i => if e = 4 then s.setCtx (q / 5) i {} else s
      | none => s
    ends k s

/-- Add one to a saturating 16-bit count. -/
def sat16 (x : BitVec 16) : BitVec 16 := satAdd x 1

def eccOne (x : Ecc) (s : State) : State :=
  match x with
  | .corrected q store =>
    let mem := !store && q % 5 ≤ 2
    let s := s.modEngine q fun e => if mem then { e with eccMem := sat16 e.eccMem } else { e with eccCtx := sat16 e.eccCtx }
    engineEvent q 7 0xFF s
  | .uncorrectable q store => eccFatal q store s
  | .islandCorrected => raiseIsland 62 s
  | .islandUncorrectable => raiseIsland 63 s

/-! ### Jobs that end (R132, R307) -/

/-- Every job at the end of its tick. -/
def closeJobs (s : State) : State := s.jobs.foldl (fun t e => closeJob e.1 e.2 t) s

/-! ### The yard, severities, the record (R205, R424, R428) -/

/-- Writes, invalidations and sweeps of the ending tick take effect; reservations that it ended go, and grants (R205). -/
def commitYard (s : State) : State :=
  let t := s.yard.next.foldl (fun t e => dropLines e.1 { t with yard := { t.yard with slots := tset {} t.yard.slots e.1 e.2 } }) s
  { t with yard := { t.yard with next := [], resv := t.yard.resv.filter fun i => !t.yard.freed.contains i, freed := [] },
           leases := t.leases.map fun e => (e.1, { e.2 with ending := none }) }

/-- Severities, routing and idle counts written in the ending tick act from the next (R424, R444). -/
def commitSeverities (s : State) : State :=
  let f := s.flt.sevPend.foldl (fun (f : Flt) e =>
    { f with sev := tput f.sev e.1 (some e.2.1), pin := tset false f.pin e.1 e.2.2 }) s.flt
  { s with flt := { f with sevPend := [], route := f.routePend.getD f.route, routePend := none },
           pwr := { s.pwr with idle := s.pwr.idlePend.foldl (fun t e => tset 0 t e.1 e.2) s.pwr.idle, idlePend := [] } }

/-- An accepted acknowledgement closes the record at the end of its tick; it is STALE where later events of the tick have been merged (R428, R429). -/
def closeRecord (s : State) : State :=
  match s.flt.closing, s.flt.rec_ with
  | true, some r =>
    if r.also ≠ s.flt.ackAlso then { s with flt := { s.flt with closing := false, ackRefusal := 1 } } else
    let h := ({ r with open_ := false } :: s.flt.history).take 32
    buildService { s with flt := { s.flt with closing := false, rec_ := none, history := h } }
  | _, _ => { s with flt := { s.flt with closing := false } }

/-! ### Random chain (R227, R231, R233, R236) -/

/-- Sources neither excluded nor masked (R238). -/
def Rng.healthy (r : Rng) : Nat := ((List.range 16).filter fun i => !r.excl.getLsbD i && !r.mask.getLsbD i).length

/-- The expanders of the variant: one per bench, and the island's. -/
def State.expanders (s : State) : List Nat := List.range s.nBench ++ [16]

/-- `len` generated bytes join the queue: the last segment grows where they follow it. -/
def pushSeg (drbg : Bytes) (pos len : Nat) : List Seg → List Seg
  | [] => if len = 0 then [] else [{ drbg := drbg, pos := pos, len := len }]
  | [x] => if len = 0 then [x] else if x.drbg = drbg && x.pos + x.len = pos then [{ x with len := x.len + len }]
    else [x, { drbg := drbg, pos := pos, len := len }]
  | x :: y :: r => x :: pushSeg drbg pos len (y :: r)

/-- The requests of one expander after the draws of the ending tick (R231, R233, R234). -/
def refill (e : Nat) (s : State) : State :=
  let x := s.exp e
  let off := e < 16 && x.ready && (s.bench e).state = .off
  if x.inst.isNone || x.blocked || off || x.seedAt = some s.pw.now then s
  else
    let n := min (min 16 ((32768 - x.qbytes) / 1024)) (2 ^ 24 - x.reqs.toNat)
    let reqs := x.reqs.toNat + n
    s.setExp e { x with queue := pushSeg x.drbg (1024 * x.reqs.toNat) (1024 * n) x.queue, reqs := BitVec.ofNat 32 reqs,
                        asks := x.asks || 2 ^ 16 ≤ reqs }

/-- One sample under both tests of R228: the same value 41 times in a row, and the first sample of a window of 1,024 for the 800th time in it. The
tests go on after a failure (log 126). -/
def SrcTest.take (x : SrcTest) (v : Bool) : SrcTest × Bool × Bool :=
  let run := if v = x.last then x.run + 1 else 1
  let first := if x.pos = 0 then v else x.first
  let hits := (if x.pos = 0 then 0 else x.hits) + bit (v = first)
  ({ last := v, run := if run = 41 then 0 else run, first := first, hits := hits, pos := (x.pos + 1) % 1024 },
    run = 41, hits = 800 && v = first)

/-- The 16 samples that source i delivers in model tick t. -/
def testTick (t i : Nat) (r : Rng) : Rng :=
  if r.mask.getLsbD i then r
  else (List.range 16).foldl (fun r j =>
    let (x, rct, apt) := (tget {} r.tests i).take (Config.noiseBit i (16 * t + j))
    let fail := fun (b apt : Bool) => if b then [{ src := i, apt := apt, tick := t, sample := j : SrcFail }] else []
    { r with tests := tset {} r.tests i x, fails := r.fails ++ fail rct false ++ fail apt true }) r

/-- Every source that is not masked is tested in every tick outside the warm-up (R228, R229, R235, R238). -/
def testSources (s : State) : State :=
  if s.rng.state = .warmup then s
  else { s with rng := (List.range 16).foldl (fun r i => testTick s.pw.now i r) s.rng }

/-- The sources in a retest. -/
def Rng.retests (r : Rng) : BitVec 16 := BitVec.ofNat 16 ((r.retest.map fun e => 2 ^ (e.1 % 16)).sum)

/-- Total failure at the end of the tick: pool and expanders zeroed, FAILED; an automatic restart is due at the next frame boundary
while AUTO is set and AUTOLEFT is not 0 (R236, R237). -/
def failChain (s : State) : State :=
  let r := { s.rng with state := .failed, failPend := false, pool := [], raw := 0, exps := [], testing := s.rng.retests }
  { s with rng := r }

/-- A start or restart whose tests begin in model tick r (R235): every source that is not masked is in test. -/
def startTest (r : Nat) (s : State) : State :=
  { s with rng := { s.rng with state := .test, start := r, testing := ~~~s.rng.mask, retest := [], restartAt := none,
                               tests := [], fails := [] } }

/-- READY of an expander from the next tick: a blocked one that has reseeded, and one of a wiped bench whose queue is full (R233, R237). -/
def readyExp (e : Nat) (s : State) : State :=
  let x := s.exp e
  if x.readyNext || (s.rng.state = .run && x.inst.isSome && !x.blocked && !x.ready && x.full)
  then s.setExp e { x with ready := true, readyNext := false } else s

/-- The chain at the end of a tick: total failure, a restart due in the next tick, the expanders' requests, the next tick's raw bits. -/
def rngTick (s : State) : State :=
  if s.rng.failPend then failChain s
  else if s.rng.restartAt.isSome then startTest (s.pw.now + 1) s
  else
    let s := forEach s.expanders (fun e s => readyExp e (refill e s)) s
    if s.rng.state = .seeding || s.rng.state = .run
    then { s with rng := { s.rng with raw := s.rng.raw + 16 * s.rng.healthy } } else s

/-! ### Time (R45, R411; log 9) -/

/-- RTC units of 1/100,000,000 of a 32.768 kHz period in one tick of 2.56 us. -/
def rtcUnits : Nat := 8388608

/-- Time passes: the RTC's periods, and the model's own tick count. -/
def passTime (units : Nat) (s : State) : State :=
  let f := s.pw.rtcFrac + units
  { s with pw := { s.pw with rtcFrac := f % 100000000, mono := s.pw.mono + units },
           vault := { s.vault with rtc := s.vault.rtc + BitVec.ofNat 47 (f / 100000000) } }

/-! ### Benches and cores -/

/-- The bench's idle count for the frame that ends, and PWR_CTL.OFF (R440, R443). -/
def closeFrame (n : Nat) (s : State) : State :=
  let b := s.bench n
  let s := if b.offReq && b.state = .ready && !b.busy then gateOff n s else s
  s.modBench n fun b => { b with offReq := false, busy := false, idleUntilFrame := false,
                                 idleFrames := if b.busy || b.state ≠ .ready then 0 else b.idleFrames + 1 }

/-- A bench that has work in the ending tick is not idle in its frame. -/
def markBusy (n : Nat) (s : State) : State :=
  if (s.bench n).state = .ready && !(s.bench n).busy && !s.benchIdle n then s.modBench n fun b => { b with busy := true } else s

/-- A core at a tick boundary (R239, R278, R306). -/
def coreTick (c : Nat) (x : Core) : Nat × Core := (c, { x with rngBytes := 0, bc := x.bc - 2048, boundary := true })

/-- A delivered call uses the new tick (R118). -/
def callTick (x : Core) (s : State) : State :=
  match x.serving with
  | none => s
  | some v =>
    match s.cmd v.cmd with
    | none => s
    | some c => if c.result.isSome then s else s.setCmd v.cmd { c with a := { c.a with ticks := c.a.ticks + 1 } }

/-- The mode runs lease work, in the life-cycle states that have it (R434, R437). -/
def State.modeWorks (s : State) : Bool :=
  (s.pw.mode = .service || s.pw.mode = .ceremony || s.pw.mode = .gallery) && (s.lcs.state = .claimed || s.lcs.state = .field)

/-- The cores that start at this frame boundary: those of a bench whose entries act again after a return, and those of a released lease
(R36, R279). -/
def State.startingCores (s : State) : List Nat :=
  (List.range (4 * s.nBench)).filter fun c =>
    (s.bench (c / 4)).idleUntilFrame ||
      (s.coreOwner c < 64 && (s.lease (s.coreOwner c)).coresDue && (s.bench (c / 4)).state ≠ .quarantined)

/-- A command that is staged and has not begun takes the first tick of the frame as its P (R65). An assignment that it has keeps (log 135). -/
def Cmd.resumed (now : Nat) (c : Cmd) : Cmd :=
  if c.readyAt.isSome && c.result.isNone && !c.executing then { c with readyAt := some now } else c

/-- Every core of the part: four for each bench, and the island's two. -/
def State.allCores (s : State) : List Nat := List.range (4 * s.nBench) ++ [64, 65]

/-- What a frame boundary brings: leases resume after a ceremony, lease work after a mode change, entries after a return, the cores of a
released lease; vector 21 becomes pending in every core (R52, R65, R225, R279, R307, R435). -/
def frameStart (s : State) : State :=
  let start := s.startingCores
  let s := startCores start (forN s.nBench closeFrame s)
  let work := s.pw.leaseWork || (s.modeWorks && s.pw.stage = .running)
  let back := fun k => (work && !s.pw.leaseWork) || (s.lease k).resumeAtFrame
  let cmds := s.cmds.map fun (e : Nat × Cmd) => (e.1, if back e.2.lease then e.2.resumed s.pw.now else e.2)
  let leases := s.leases.map fun (e : Nat × Lease) =>
    let l := { e.2 with coresDue := false }
    (e.1, if l.resumeAtFrame then { l with paused := false, resumeAtFrame := false } else l)
  let s := { s with leases := leases, cmds := cmds, pw := { s.pw with leaseWork := work } }
  refreshQueues (forEach s.allCores (fun c t => t.modCore c fun x => { x with pend := x.pend ||| 0x20 }) s)

/-- The tick after a release: the lease's queues in QUARANTINED run again, and one whose doorbell was refused meanwhile goes on to ERROR when
nothing of it is left (R80, R92). -/
def openReleased (s : State) : State :=
  let back := (s.leases.filter fun (e : Nat × Lease) => e.2.released).map Prod.fst
  forEach back (fun k t =>
    let queues := t.queues.map fun (e : Nat × Queue) =>
      if e.1 / 8 = k && e.2.state = .quarantined then (e.1, { e.2 with state := t.liveState k e.2.home }) else e
    forN 8 (settleError k) ({ t with queues := queues }.modLease k fun l => { l with released := false })) s

/-! ### Ceremonies -/

/-- Lease work of the leases in a scope stops: commands and jobs end with MODE, entries act as IDLE, grants are revoked (R223). -/
def pauseScope (scope : BitVec 64) (s : State) : State :=
  let mine := fun (k : Nat) => k < 64 && scope.getLsbD k
  let s := stopCommands (fun c => mine c.lease) 0x0133 s
  let s := s.jobs.foldl (fun t (e : Nat × Job) =>
    if mine (e.1 % 65) && e.2.state = .run then stopJob (e.1 / 65) (e.1 % 65) 0x33 t else t) s
  let s := dropHeld (fun x => mine x.lease) s
  let s := forN s.nLease (fun k t => if mine k then t.modLease k fun l => { l.endGrant with paused := true, resumeAtFrame := false } else t) s
  { s with cores := s.cores.map fun (e : Nat × Core) => if mine (s.coreOwner e.1) then (e.1, stopLong e.2) else e }

/-- The boundary after a ceremony has opened: the leases in its scope pause, and their jobs read DONE from there on (R132, R223). -/
def pauseDue (s : State) : State :=
  match s.cust.pausing with
  | none => s
  | some scope => { pauseScope scope s with cust := { s.cust with pausing := none } }

end Sys2Proof.Machine
end

