-- ==== Sys2Proof/Machine/Gate.lean ====
section
/-! DEFINITION. The flash gate and the boot ledger: passes, manifests, verdicts, recovery, records and release (R241-R274). -/

namespace Sys2Proof.Machine
open Sys2Proof

def State.modFlg (s : State) (f : Flg → Flg) : State := { s with flg := f s.flg }
def State.modLdg (s : State) (f : Ldg → Ldg) : State := { s with ldg := f s.ldg }
def State.setPass (s : State) (p : Pass) : State := s.modFlg fun g => { g with pass := some p }

/-! ### Signing keys of the layered identity (R385) -/

def State.aliasSeed (s : State) (kind : Nat) : Bytes :=
  fixLen (if kind = 1 then 48 else 32) (Config.layerSeed (s.lcs.uds.getD []) (ascii "SVRL-CDI") s.ident.fwDigest kind)
def State.ledgerSeed (s : State) (kind : Nat) : Bytes :=
  fixLen 32 (Config.layerSeed (s.lcs.uds.getD []) (ascii "SVRL-LEDGER") s.lcs.lnonce kind)

/-- KEYID (R261): over the public keys of the ledger layer. -/
def State.keyId (s : State) : Bytes :=
  (sha384 (pubOf 1 (s.ledgerSeed 0) ++ mldsaPub (s.ledgerSeed 2))).take 16

/-! ### Manifests (R247, R248, R250) -/

/-- Region i of a manifest, its 64 bytes. -/
def region (m : Bytes) (i : Nat) : Bytes := slice m (128 + 64 * i) 64
def nreg (m : Bytes) : Nat := fieldLE m 51 1
def isZero (b : Bytes) : Bool := b.all (· = 0)

/-- A region entry is as R248 has it, for a manifest of this major. -/
def regionOk (major : Nat) (r : Bytes) : Bool :=
  let kind := fieldLE r 1 1
  let rec_ := fieldLE r 2 1
  fieldLE r 0 1 ≤ 1 && kind ≤ 2 && (kind ≠ 2 || major = 2) && rec_ ≤ 1 && fieldLE r 3 1 = 0 &&
  fieldLE r 4 4 % 4096 = 0 && 4096 ≤ fieldLE r 8 4 && fieldLE r 8 4 ≤ 0x10000000 && fieldLE r 8 4 % 4096 = 0 &&
  (rec_ = 1 || fieldLE r 12 4 = 0) && (rec_ = 0 || (fieldLE r 0 1 = 0 && kind ≠ 0)) &&
  (kind ≠ 2 || (fieldLE r 16 4 % 4096 = 0 && isZero (slice r 24 40))) && (kind ≠ 0 || isZero (slice r 16 48))

/-- FORMAT of R250: every field as R247 and R248 have it, and the length agrees with TOTAL. -/
def manifestOk (m : Bytes) : Bool :=
  let major := fieldLE m 4 1
  let n := nreg m
  m.take 4 = [0x53, 0x56, 0x4D, 0x46] && (major = 1 || major = 2) && fieldLE m 5 1 = 0 && fieldLE m 6 2 = 128 &&
  fieldLE m 8 4 = 128 + 64 * n && n ≤ 62 && m.length = 128 + 64 * n + 3373 && !isZero (slice m 16 16) &&
  fieldLE m 48 1 ≤ 3 && fieldLE m 49 1 ≤ 2 && fieldLE m 50 1 ≤ 1 && isZero (slice m 52 12) &&
  (major = 2 || isZero (slice m 64 64)) && (List.range n).all fun i => regionOk major (region m i)

/-- The manifest's signed bytes, and its signatures under the owner manifest keys (R250, R380). -/
def manifestSigned (m : Bytes) : Bytes := m.take (fieldLE m 8 4)
def State.manifestSig (s : State) (m : Bytes) : Bool :=
  dualOk s.lcs.manEd s.lcs.manMl (manifestSigned m) (m.drop (fieldLE m 8 4))

/-! ### Discovery (R244, R245) -/

/-- The first declared mode, octal, quad, single, that is no faster than MAXMODE and reads with at most 32 dummy clocks. -/
def choosePort (maxMode : Nat) (d : Sfdp) : GPort :=
  if !d.present then {}
  else
    let ok := fun (m : Nat) (x : Option Nat) => match x with | some n => maxMode ≤ m && n ≤ 32 | none => false
    let mode := if ok 0 d.octal then 0 else if ok 1 d.quad then 1 else 2
    let dummy := (if mode = 0 then d.octal else if mode = 1 then d.quad else some d.single).getD 0
    { present := true, dens := BitVec.ofNat 8 d.dens, dummy := dummy % 32, addr4 := 24 < d.dens, mode := mode }

/-- Bytes per data tick of a mode, and the ticks of a read of n bytes (R245, R246). -/
def modeBytes (mode : Nat) : Nat := if mode = 0 then 1024 else if mode = 1 then 128 else 16
def readTicks (mode n : Nat) : Nat := ceilDiv n 65536 + ceilDiv n (modeBytes mode)

def Flg.port (g : Flg) (p : Nat) : GPort := if p = 0 then g.portA else g.portB

/-- The region's port is absent, or the region ends beyond the device (R254). -/
def Flg.cannot (g : Flg) (r : Bytes) : Option Nat :=
  let p := g.port (fieldLE r 0 1)
  if !p.present then some 6 else if 2 ^ p.dens.toNat < fieldLE r 4 4 + fieldLE r 8 4 then some 7 else none

/-- The fixed number of ticks of a region (R254). -/
def Flg.regionTicks (g : Flg) (r : Bytes) : Nat :=
  let m := (g.port (fieldLE r 0 1)).mode
  let l := fieldLE r 8 4
  if (g.cannot r).isSome then 1
  else if fieldLE r 1 1 = 0 then readTicks m l + 1
  else if fieldLE r 1 1 = 1 then readTicks m l + 2
  else readTicks m 8192 + 41 + readTicks m l + 2

/-! ### Judging a region (R249, R255) -/

/-- The descriptor is accepted but for its SVN (R249). -/
def descOk (man r d : Bytes) : Bool :=
  d.take 4 = [0x53, 0x56, 0x52, 0x44] && fieldLE d 8 4 = fieldLE r 4 4 && fieldLE d 12 4 = fieldLE r 8 4 &&
  slice d 64 32 = slice man 64 32 && sha3 (slice d 96 1952) = slice man 96 32 && isZero (slice d 5421 2771) &&
  dualOk (slice d 64 32) (slice d 96 1952) (d.take 2048) (slice d 2048 3373)

/-- The result of a region whose bytes have been read. -/
def judge (man r : Bytes) (x : RegData) : RegRes :=
  let dig := sha384 (fixLen (fieldLE r 8 4) x.data)
  let d := fixLen 8192 x.desc
  let kind := fieldLE r 1 1
  if kind = 0 then { result := 0, svn := 0, digest := dig }
  else if kind = 1 then { result := if dig = slice r 16 48 then 1 else 2, svn := 0, digest := dig }
  else
    let svn := fieldLE d 4 4
    let res := if !descOk man r d then 3 else if svn < fieldLE r 20 4 then 4 else if dig = slice d 16 48 then 1 else 2
    { result := res, svn := svn, digest := dig }

/-- The result of region i with these bytes, where the port and its density allow a reading. -/
def Flg.measure (g : Flg) (man : Bytes) (i : Nat) (x : RegData) : RegRes :=
  match g.cannot (region man i) with
  | some n => { result := n, svn := 0, digest := List.replicate 48 0 }
  | none => judge man (region man i) x

/-- Results 2, 3, 4, 6 and 7 are failures, with their REASON (R256). -/
def failReason (result : Nat) : Option Nat :=
  if result = 2 then some 0x05 else if result = 3 then some 0x06 else if result = 4 then some 0x07
  else if result = 6 || result = 7 then some 0x04 else none

def firstFailure (l : List RegRes) : Option Nat := l.findSome? fun r => failReason r.result

/-! ### The end of a pass -/

/-- The pass is over: the BMC's connection returns as entry 0x3003 has it (R243). -/
def endPass (p : Pass) (st : GState) (s : State) : State :=
  s.modFlg fun g => { g with pass := none, idleAt := s.pw.now, state := st, bmcb := g.owner = 1, verdict := p.verdict, reason := p.reason }

/-- HELD: event 7. -/
def holdHost (p : Pass) (s : State) : State := raiseGate 7 (endPass p .held s)

/-- The release sequence starts (R257). -/
def beginRelease (s : State) : State := s.modFlg fun g => { g with state := .releasing, relAt := some s.pw.now, selAt := none }

/-- Discovery's reset pulse of a port, 4 tk from `off` ticks after discovery began (R244). -/
def Flg.discPulse (g : Flg) (off now : Nat) : Bool :=
  match g.pass with
  | some p => p.step = .discover && p.stepAt + off ≤ now && now < p.stepAt + off + 4
  | none => false

/-- HFA_RST_N is low for the first 4 tk of a release sequence (R257) and of discovery (R244). -/
def State.hfaRstLow (s : State) : Bool :=
  (match s.flg.relAt with | some t => t ≤ s.pw.now && s.pw.now < t + 4 | none => false) || s.flg.discPulse 0 s.pw.now

/-- HFB_RST_N is low for 4 tk of discovery: after port A's pulse and wait, 20 tk (R244; log 143). -/
def State.hfbRstLow (s : State) : Bool := s.flg.discPulse 20 s.pw.now

/-- The life-cycle states whose passes write a record (R251). -/
def State.recorded (s : State) : Bool :=
  s.lcs.state = .sealed_ || s.lcs.state = .claimed || s.lcs.state = .field

/-- A verdict is reached in this tick, which the SPDM measurements report from then on (R269): the record comes next, or in a state without
records the release, or HELD. -/
def settle (v reason : Nat) (p : Pass) (s : State) : State :=
  let p := { p with verdict := v, reason := reason, time := s.time64, stepAt := s.pw.now + 1 }
  let s := s.modFlg fun g => { g with last := some p }
  if s.recorded then (s.modFlg fun g => { g with state := .record }).setPass { p with step := .record }
  else if v = 2 then holdHost p s
  else beginRelease (s.setPass { p with step := .release })

/-- The verdict of a pass whose regions are measured (R251, R256). -/
def gateVerdict (p : Pass) (s : State) : State :=
  if s.lcs.state = .ret then settle 2 0x0C p s
  else if p.manBad then settle 2 0x02 p s
  else if p.manifest = [] then
    if s.lcs.state = .field then settle 2 0x01 p s else settle 0 0 p s
  else
    let policy := if p.forced then 2 else fieldLE p.manifest 48 1
    let failure := if nreg p.manifest = 0 && policy ≠ 0 then some 0x08 else firstFailure p.results
    match failure with
    | none =>
      if policy = 3 then (s.modFlg fun g => { g with state := .held, reason := 0x0D }).setPass { p with step := .operator, stepAt := s.pw.now }
      else settle 0 0 p s
    | some reason =>
      if policy = 0 then settle 0 0 p s
      else if policy = 2 && nreg p.manifest ≠ 0 then
        let s := { s with pw := { s.pw with recovery := !p.reboot } }
        raiseGate 5 ((s.modFlg fun g => { g with state := .recover }).setPass { p with step := .recover, stepAt := s.pw.now + 1, recovered := true })
      else settle 2 reason p s

/-! ### Starting a pass (R242, R252, R253) -/

/-- PLT_RST_N goes low and HFA_SEL to 0; PASSC is cleared. -/
def holdPlatform (s : State) : State :=
  (s.modFlg fun g => { g with plt := false, asel := false, relAt := none, selAt := none, holdAt := none, state := .holding }).modLdg
    fun l => { l with passc := false, full := false }

/-- The BMC port is connected (R243). -/
def Flg.connected (g : Flg) : Bool := g.bmcb && g.owner = 1

/-- Step 1 outside a pass: the platform is held, and a connected BMC port waits to be disconnected (R253, R272, R435). -/
def holdOnly (st : GState) (s : State) : State :=
  let at_ := if s.flg.connected then some s.pw.now else none
  (holdPlatform s).modFlg fun g => { g with state := st, holdAt := at_ }

/-- The pass stands at discovery from tick t, which FLG_STAT shows (R244, R272). -/
def toDiscover (t : Nat) (p : Pass) (s : State) : State :=
  (s.modFlg fun g => { g with state := .discover }).setPass { p with step := .discover, stepAt := t }

/-- Step 1 is done: verification follows from tick t, or discovery where there is no manifest. -/
def afterHold (t : Nat) (p : Pass) (s : State) : State :=
  if p.manifest = [] then toDiscover t p s else s.setPass { p with step := .verify, stepAt := t }

/-- A pass starts: step 1, and the active manifest is copied (in RETURN none is used). -/
def startPass (reboot forced : Bool) (s : State) : State :=
  let p : Pass := { reboot := reboot, forced := forced, startAt := s.pw.now, stepAt := s.pw.now,
                    manifest := if s.lcs.state = .ret then [] else s.ldg.manifest }
  let joined := s.flg.connected
  let s := ((holdPlatform s).modFlg fun g => { g with reason := 0, seq := 0, bmcb := joined }).modLdg
    fun l => { l with ring := fieldLE p.manifest 50 1 }
  if joined then s.setPass p else afterHold (s.pw.now + 1) p s

/-- A pass that would start: in LOCKDOWN a host reboot runs only step 1, and nothing else starts; during a firmware update it waits (R435, R465). -/
def requestPass (reboot : Bool) (s : State) : State :=
  if s.pfl.upd.isSome then s.modFlg fun g => { g with passDue := some reboot }
  else
    let s := s.modFlg fun g => { g with passDue := none }
    if !s.running || s.flg.pass.isSome then s
    else if s.vault.latch then (if reboot then holdOnly .held s else s)
    else startPass reboot false s

/-- The beginning of a tick: a pass that a firmware update has put off starts once the update has ended. -/
def duePass (s : State) : State :=
  match s.flg.passDue with
  | some b => requestPass b s
  | none => s

/-- HOST_REBOOT_REQUEST: PLT_HRST_N has been low for 100 us while the host is released (R252). -/
def execHostRebootRequest (s : State) : Res :=
  if !s.running || !s.flg.plt || s.flg.pass.isSome then .next s else .next (requestPass true s)

/-- BMC_PORT_DISCONNECT, in a pass's step 1 or one outside a pass: BMF_CS_N is high, or 400 tk have passed; event 9 (R243). -/
def execBmcPortDisconnect (csHigh : Bool) (s : State) : Res :=
  let gone := fun (s : State) => raiseGate 9 (s.modFlg fun g => { g with bmcb := false, holdAt := none })
  match s.flg.pass, s.flg.holdAt with
  | none, none => .next s
  | none, some t => if csHigh || t + 401 ≤ s.pw.now then .next (gone s) else .next s
  | some p, _ =>
    if p.step ≠ .hold || !(csHigh || p.startAt + 401 ≤ s.pw.now) then .next s
    else .next (gone (afterHold s.pw.now p s))

/-- MANIFEST_REVERIFY: both halves, in 41 tk; an uncorrectable read leaves no manifest to verify (R253, R256). -/
def execManifestReverify (readOk : Bool) (s : State) : Res :=
  match s.flg.pass with
  | none => .next s
  | some p =>
    if p.step ≠ .verify || s.pw.now < p.stepAt + 41 then .next s
    else
      let good := readOk && s.manifestSig p.manifest
      let s := toDiscover s.pw.now { p with manBad := !good, manifest := if readOk then p.manifest else [] } s
      .next (if good then s else raiseGate 2 s)

/-- PORT_DISCOVERY of ports A and B: at least the reset wait of both, at most 4,096 tk; DISC_TK is the ticks it took (R244). -/
def execPortDiscovery (a b : Sfdp) (s : State) : Res :=
  match s.flg.pass with
  | none => .next s
  | some p =>
    if p.step ≠ .discover || s.pw.now < p.stepAt + 40 then .next s
    else
      let maxMode := if p.manifest = [] then 0 else fieldLE p.manifest 49 1
      let n := min 4096 (s.pw.now - p.stepAt)
      let s := s.modFlg fun g => { g with portA := choosePort maxMode a, portB := choosePort maxMode b, discTk := n, measTk := 0, state := .measure }
      let s := if a.present then s else raiseGate 0 s
      let s := if b.present then s else raiseGate 1 s
      let p := { p with step := .measure, stepAt := p.stepAt + n, discTk := n }
      .next (if nreg p.manifest = 0 || p.manifest = [] then gateVerdict p s else s.setPass p)

/-- REGION_MEASURE: the next region in manifest order, in its fixed number of ticks; the verdict follows the last (R254, R256). -/
def execRegionMeasure (x : RegData) (s : State) : Res :=
  match s.flg.pass with
  | none => .next s
  | some p =>
    let i := p.results.length
    let n := s.flg.regionTicks (region p.manifest i)
    if p.step ≠ .measure || s.pw.now < p.stepAt + n then .next s
    else
      let r := s.flg.measure p.manifest i x
      let p := { p with stepAt := p.stepAt + n, measTk := p.measTk + n, results := p.results ++ [r] }
      let s := s.modFlg fun g => { g with measTk := p.measTk }
      let s := if (failReason r.result).isSome then raiseGate 4 s else s
      .next (if i + 1 = nreg p.manifest then gateVerdict p s else s.setPass p)

/-! ### Recovery (R259) -/

/-- Indices of failing regions. -/
def failing (l : List RegRes) : List Nat :=
  (List.range l.length).filter fun i => match l[i]? with | some r => (failReason r.result).isSome | none => false

/-- The backup copy of a region on port B, checked as the region would be there: at BSTART, with its descriptor at BSTART + DESC - START. -/
def Flg.backupGood (g : Flg) (man : Bytes) (i : Nat) (x : RegData) : Bool :=
  let r := region man i
  g.portB.present && fieldLE r 12 4 + fieldLE r 8 4 ≤ 2 ^ g.portB.dens.toNat && (judge man r x).result = 1

/-- Ticks of a region with its backup's reading, in port B's mode (R254, R259). -/
def Flg.backupTicks (g : Flg) (r : Bytes) : Nat :=
  let l := fieldLE r 8 4
  if !g.portB.present || 2 ^ g.portB.dens.toNat < fieldLE r 12 4 + l then 1
  else if fieldLE r 1 1 = 1 then readTicks g.portB.mode l + 2
  else readTicks g.portB.mode 8192 + 41 + readTicks g.portB.mode l + 2

/-- Ticks of the backup checks of the failing regions, and of measuring all regions again. -/
def Flg.checkTicks (g : Flg) (p : Pass) : Nat := ((failing p.results).map fun i => g.backupTicks (region p.manifest i)).sum
def Flg.againTicks (g : Flg) (p : Pass) : Nat := ((List.range (nreg p.manifest)).map fun i => g.regionTicks (region p.manifest i)).sum

/-- GATE_RECOVERY: the backups in the order of the failing regions, then what all regions read as when they are measured again. -/
def execGateRecovery (backups regions : List RegData) (s : State) : Res :=
  match s.flg.pass with
  | none => .next s
  | some p =>
    let bad := failing p.results
    let stuck := bad.find? fun i => fieldLE (region p.manifest i) 2 1 = 0
    let copies := bad.zip (backups ++ List.replicate bad.length { desc := [], data := [] })
    let good := copies.all fun (e : Nat × RegData) => s.flg.backupGood p.manifest e.1 e.2
    let least := if stuck.isSome then 0 else s.flg.checkTicks p + if good then s.flg.againTicks p else 0
    if p.step ≠ .recover || s.pw.now < p.stepAt + least then .next s
    else
      let s := { s with pw := { s.pw with recovery := false } }
      match stuck with
      | some i => .next (settle 2 (((p.results[i]?).bind fun r => failReason r.result).getD 0) p s)
      | none =>
        let p := { p with recTk := s.pw.now - p.stepAt }
        if !good then .next (raiseGate 6 (settle 2 0x09 p s))
        else
          let again := (List.range (nreg p.manifest)).map fun i => s.flg.measure p.manifest i (regions.getD i { desc := [], data := [] })
          let marked := (List.range again.length).filterMap fun i => (again[i]?).map fun r =>
            if bad.contains i && r.result = 1 then { r with result := 5 } else r
          let p := { p with results := marked }
          if (firstFailure marked).isNone then .next (settle 1 0 p s) else .next (raiseGate 6 (settle 2 0x09 p s))

/-! ### Records (R261-R267) -/

/-- The commit of a record with sequence number q (R264). -/
def commitHead (q : Nat) : Bytes := [0x53, 0x56, 0x4C, 0x43] ++ leBytes 4 q
def commitOf (q : Nat) (record : Bytes) : Bytes := commitHead q ++ (sha3 record).take 24

/-- The slot of sequence number q. -/
def slotOf (q : Nat) : Nat := (q + 4095) % 4096

/-- SEQ of a slot's body. -/
def LSlot.seq (x : LSlot) : Nat := fieldLE x.record 8 4

/-- A slot that the start's scan finds valid (R265). -/
def LSlot.valid (i : Nat) (x : LSlot) : Bool := x.commit = commitOf x.seq x.record && slotOf x.seq = i && x.seq ≠ 0

/-- The record in the ledger with sequence number q, empty if it is not retained. -/
def Ldg.record (l : Ldg) (q : Nat) : Bytes :=
  match tfind l.slots (slotOf q) with
  | some x => if x.commit.take 8 = commitHead q && q ≠ 0 then x.record else []
  | none => []

/-- The oldest retained SEQ: of the committed slots. -/
def Ldg.oldest (l : Ldg) : Nat := ((l.slots.filter fun e => e.2.commit ≠ []).map fun e => fieldLE e.2.commit 4 4).foldl min l.newest

/-- A start's scan of all commits: what is not valid is discarded, with event 15; the newest is the valid one with the highest SEQ (R265). -/
def scanLedger (s : State) : State :=
  let good := s.ldg.slots.filter fun e => e.2.valid e.1
  let n := s.ldg.slots.length - good.length
  let s := s.modLdg fun l => { l with slots := good, newest := (good.map fun e => e.2.seq).foldl max 0 }
  let s := s.modLdg fun l => { l with lost := fieldLE (l.record l.newest) 12 4 }
  forN n (fun _ => raiseGate 15) s

/-- A region result entry (R262). -/
def resultEntry (major : Nat) (man : Bytes) (i : Nat) (r : RegRes) : Bytes :=
  let g := region man i
  leBytes 1 i ++ g.take 1 ++ slice g 1 1 ++ leBytes 1 r.result ++ (if major = 1 then [] else leBytes 4 r.svn) ++ fixLen 48 r.digest

/-- A record's body (R261). -/
def State.recordBody (s : State) (p : Pass) (seq lost : Nat) : Bytes :=
  let m := p.manifest
  let none_ := m = []
  let major := if none_ then 2 else fieldLE m 4 1
  let res := ((List.range p.results.length).filterMap fun i => (p.results[i]?).map fun r => resultEntry major m i r).flatten
  let prev := s.ldg.record s.ldg.newest
  [0x53, 0x56, 0x4C, 0x52] ++ leBytes 1 major ++ [0] ++ leBytes 2 (256 + res.length) ++ leBytes 4 seq ++ leBytes 4 lost ++
    fixLen 16 s.ident.unit ++ slice m 16 16 ++ leBytes 8 p.time.toNat ++
    (if seq = 1 then List.replicate 48 0 else sha384 prev) ++
    (if none_ then List.replicate 48 0 else sha384 (manifestSigned m)) ++ slice m 12 4 ++
    leBytes 1 (if none_ then 0xFF else fieldLE m 48 1) ++ leBytes 1 p.verdict ++ leBytes 1 p.reason ++ leBytes 1 p.results.length ++
    leBytes 1 s.lcs.state.code ++ leBytes 1 (s.flg.portA.mode + 4 * s.flg.portB.mode) ++ leBytes 1 s.ldg.ring ++
    leBytes 1 (bit p.operator + 2 * bit p.reboot + 4 * bit p.recovered + 8 * bit s.ldg.priorFail) ++
    leBytes 4 p.discTk ++ leBytes 4 p.measTk ++ leBytes 4 p.recTk ++ s.keyId ++ fixLen 48 s.ident.fwDigest ++ List.replicate 16 0 ++ res

/-- An entry of the tag summary (R270). -/
def summaryEntry (b : Bytes) : Bytes :=
  let w := if fieldLE b 4 1 = 1 then 52 else 56
  let bad := ((List.range (fieldLE b 159 1)).filter fun i => (failReason (fieldLE b (256 + w * i + 3) 1)).isSome).length
  slice b 8 4 ++ slice b 48 8 ++ slice b 156 3 ++ leBytes 1 bad ++ (sha384 b).take 16

/-- The signed bytes of the summary (R270). -/
def State.summaryBody (s : State) : Bytes :=
  let l := s.ldg
  let recs := ((List.range 32).map fun j => l.record (l.newest - j)).takeWhile (· ≠ [])
  fixLen 64 (ascii "SVTS" ++ [1] ++ leBytes 1 recs.length ++ [0, 0] ++ fixLen 16 s.ident.unit ++ slice (l.record l.newest) 32 16 ++
    leBytes 8 s.time64.toNat ++ leBytes 4 l.newest ++ leBytes 4 l.lost) ++ fixLen 1024 (recs.flatMap summaryEntry)

/-- The summary at the end of a tick: it is island work that waits for the pass to end (R252), then is signed with the ledger keys in its island
ticks and goes to the tag; a half that is not released leaves the tag as it was (R138, R163, R270; log 146). -/
def summaryTick (s : State) : State :=
  match s.ldg.sumSign with
  | some j =>
    let (k, sig, s) := signStep s.ledgerSeed j s
    let s := s.modLdg fun l => { l with sumSign := k }
    match sig with
    | some x => commitSummary (j.body ++ x) s
    | none => s
  | none =>
    if !s.ldg.sumDue || !s.maySign then s
    else
      let (j, s) := beginSign s.ledgerSeed s.summaryBody s
      s.modLdg fun l => { l with sumDue := false, sumSign := some j }

/-- Record s - 4,096 would be overwritten before it is acknowledged (R266). -/
def Ldg.wouldLose (l : Ldg) (seq : Nat) : Bool := 4096 < seq && l.ack < seq - 4096

/-- What follows a committed record, or LEDGER_FAIL. -/
def afterRecord (p : Pass) (s : State) : State :=
  if p.verdict = 2 then holdHost p s else beginRelease (s.setPass { p with step := .release, stepAt := s.pw.now })

/-- The record of the pass is programmed into its slot, which is erased first (R264). -/
def programRecord (p : Pass) (first second : Bool) (record : Bytes) (s : State) : State :=
  let seq := s.ldg.newest + 1
  let s := s.modLdg fun l => { l with full := false, slots := tput l.slots (slotOf seq) { record := record } }
  if first || second then s.setPass { p with step := .commit, stepAt := s.pw.now }
  else
    -- the SPDM measurements go on showing the REASON of the verdict: 0x0E appears in live status only (R256, log 129)
    let s := s.modFlg fun g => { g with last := some { p with verdict := 2 } }
    raiseGate 11 (holdHost { p with verdict := 2, reason := 0x0E } (s.modLdg fun l => { l with priorFail := true }))

/-- The commit of the pass's record: what it counts, the events, and the erasure of the next slot where R266 allows it; a tag summary is due (R264,
R266, R270). -/
def commitRecord (p : Pass) (record : Bytes) (s : State) : State :=
  let seq := s.ldg.newest + 1
  let lose := s.ldg.wouldLose seq
  let s := s.modLdg fun l =>
    let l := { l with passc := true, sumDue := true, newest := seq, lost := fieldLE record 12 4, priorFail := false,
                      slots := tput l.slots (slotOf seq) { record := record, commit := commitOf seq record } }
    if l.ring = 1 && l.wouldLose (seq + 1) then l else { l with slots := tdel l.slots (slotOf (seq + 1)) }
  let s := s.modFlg fun g => { g with seq := seq, reason := p.reason }
  let s := forN 3 (fun i t =>
    let q := (s.ldg.sel.toList.getD i 0)
    if q = seq || q + 4095 = seq || q + 4096 = seq then bumpGen 0x3020 (i + 1) t else t) (raiseGate 10 s)
  let s := if lose then raiseGate 14 s else s
  let s := if seq - s.ldg.ack = 3840 then raiseGate 12 s else s
  afterRecord p s

/-- LEDGER_RECORD_WRITE: the record waits for randomness and, under RING HOLD, for an acknowledgement. It is dual-signed, programmed and read back,
once more after a difference; the row's next execution programs the commit (R264, R266, R267). A half that is not released leaves the pass to
sign again (log 128). -/
def execLedgerRecordWrite (first second : Bool) (s : State) : Res :=
  match s.flg.pass with
  | none => .next s
  | some p =>
    let seq := s.ldg.newest + 1
    let lose := s.ldg.wouldLose seq
    if p.step = .commit then
      match tfind s.ldg.slots (slotOf seq) with
      | some x => .next (commitRecord p x.record s)
      | none => .next s
    else if p.step ≠ .record then .next s
    else if !s.islandHas 32 then .next (s.modFlg fun g => { g with reason := 0x0B })
    else if lose && s.ldg.ring = 1 then
      let t := (s.modFlg fun g => { g with reason := 0x0A }).modLdg fun l => { l with full := true }
      .next (if p.waited then t else raiseGate 13 (t.setPass { p with waited := true }))
    else
      let body := s.recordBody p seq (s.ldg.lost + bit lose)
      let (rnd, t) := drawIsland 32 s
      if s.pw.now ≤ p.stepAt + dualTicks s.ledgerSeed body rnd then .next s
      else
        match dualWith s.ledgerSeed body rnd t with
        | (some sig, t) => .next (programRecord p first second (body ++ sig) t)
        | (none, t) => .next (t.setPass { p with stepAt := s.pw.now })

/-! ### Release (R257) -/

/-- RELEASE_SEQUENCE: after HFA_RST_N's 4 tk and the wait of 16 tk HFA_SEL becomes 1; 4 tk after that PLT_RST_N is released, event 8. -/
def execReleaseSequence (s : State) : Res :=
  match s.flg.relAt, s.flg.selAt with
  | none, _ => .next s
  | some t, none => if s.pw.now < t + 20 || !s.mainPower then .next s else .next (s.modFlg fun g => { g with asel := true, selAt := some s.pw.now })
  | some _, some t =>
    if s.pw.now < t + 4 || !s.mainPower then .next s
    else
      let s := s.modFlg fun g => { g with asel := true, plt := true, relAt := none, selAt := none, state := .released }
      match s.flg.pass with
      | some p => .next (raiseGate 8 (endPass p .released s))
      | none => .next (raiseGate 8 s)

/-- FLG_CTL.HOLD: step 1 (R253, R272). A pass that is under way goes on, its platform held already (log 130). -/
def flgHold (s : State) : State := if s.flg.pass.isSome && s.flg.relAt.isNone then s else holdOnly .holding s

def execFlgHold (s : State) : Res := if s.islandRuns then .next (flgHold s) else .next s

/-- FLG_CTL.RELEASE: while PASSC is 1, or in BLANK or TESTED; otherwise ignored with event 17. -/
def flgRelease (s : State) : State :=
  if s.ldg.passc || s.lcs.state = .blank || s.lcs.state = .tested then beginRelease s else raiseGate 17 s

def execFlgRelease (s : State) : Res := if s.running then .next (flgRelease s) else .next s

/-- FLG_CTL.BMCB: held 0 during a pass (R243, R272). -/
def flgBmcb (v : Bool) (s : State) : State := s.modFlg fun g => { g with bmcb := v && g.pass.isNone }

def execFlgBmcbWrite (v : Bool) (s : State) : Res := if s.islandRuns then .next (flgBmcb v s) else .next s

/-! ### Dictionary entries (R258, R266, R268) -/

/-- A BOOL that acts when it is 1: 0 changes nothing, other values are RANGE (R361). -/
def onTrue (value : Bytes) (f : State → DStat × State) (s : State) : DStat × State :=
  if leNat value = 1 then f s else if leNat value = 0 then (.ok, s) else (.range, s)

/-- OPERATOR_RELEASE, entry 0x3001: only for a HOLD-policy pass that waits. -/
def execOperatorRelease (r : Req) (value : Bytes) (s : State) : Res :=
  if r.index ≠ 0x3001 || r.sub ≠ 0 then .next s
  else
    .next (writeEntry r { bmc := true, officer := true } 1 value (onTrue value fun s =>
      match s.flg.pass with
      | some p => if p.step = .operator then (.ok, settle 0 0 { p with operator := true } s) else (.state, s)
      | none => (.state, s)) s)

/-- RECOVERY_REQUEST, entry 0x3002: a pass under RECOVER for a host that is HELD; none starts while the latch is set (R435). -/
def execRecoveryRequest (r : Req) (value : Bytes) (s : State) : Res :=
  if r.index ≠ 0x3002 || r.sub ≠ 0 then .next s
  else
    .next (writeEntry r { bmc := true, officer := true } 1 value (onTrue value fun s =>
      if s.flg.state = .held && s.flg.pass.isNone && s.running && !s.vault.latch then (.ok, startPass false true s) else (.state, s)) s)

/-- PORT_B_OWNER_WRITE, entry 0x3003: 0 the gate, 1 the BMC. -/
def execPortBOwnerWrite (r : Req) (value : Bytes) (s : State) : Res :=
  if r.index ≠ 0x3003 || r.sub ≠ 0 then .next s
  else
    .next (writeEntry r { bmc := true } 1 value (fun s =>
      if 1 < leNat value then (.range, s)
      else (.ok, s.modFlg fun g => { g with owner := leNat value, bmcb := leNat value = 1 && (g.pass.isNone || g.bmcb) })) s)

/-- ACKSEQ_WRITE, entry 0x3022: from the current ACKSEQ to the newest SEQ; it can end a LEDGER_FULL wait. -/
def execAckseqWrite (r : Req) (value : Bytes) (s : State) : Res :=
  if r.index ≠ 0x3022 || r.sub ≠ 0 then .next s
  else
    .next (writeEntry r { bmc := true, officer := true } 4 value (fun s =>
      let v := leNat value
      if v < s.ldg.ack || s.ldg.newest < v then (.range, s)
      else
        let s := s.modLdg fun l => { l with ack := v }
        (.ok, if s.ldg.wouldLose (s.ldg.newest + 1) then s else s.modLdg fun l => { l with full := false })) s)

/-- RECORD_SELECTOR_WRITE, entry 0x3021: each role its own selector, choosing what its 0x3020 object exports. -/
def execRecordSelectorWrite (r : Req) (value : Bytes) (s : State) : Res :=
  if r.index ≠ 0x3021 then .next s
  else
    let f : State → DStat × State := fun s =>
      (.ok, bumpGen 0x3020 r.sub (s.modLdg fun l => { l with sel := l.sel.setIfInBounds (r.sub - 1) (leNat value) }))
    if r.sub = 1 then .next (writeEntry r { host := true } 4 value f s)
    else if r.sub = 2 then .next (writeEntry r { bmc := true } 4 value f s)
    else if r.sub = 3 then .next (writeEntry r { officer := true } 4 value f s)
    else .next s

/-! ### Installing a manifest (R250) -/

/-- The first failing check; 0 for none. -/
def State.manifestRefusal (s : State) (m : Bytes) : Nat :=
  if s.flg.pass.isSome then 0x07
  else if s.lcs.state ≠ .claimed && s.lcs.state ≠ .field then 0x06
  else if !manifestOk m then 0x01
  else if !s.manifestSig m then 0x02
  else if slice m 16 16 ≠ fixLen 16 s.lcs.estate then 0x03
  else if !(isZero (slice m 32 16) || slice m 32 16 = fixLen 16 s.ident.unit) then 0x04
  else if s.ldg.manifest ≠ [] && fieldLE m 12 4 ≤ fieldLE s.ldg.manifest 12 4 && m ≠ s.ldg.manifest then 0x05
  else 0

/-- A manifest that passes the checks is programmed into the inactive copy, in place of what that copy held; its commit follows. -/
def installManifest (m : Bytes) (s : State) : DStat × State :=
  let code := s.manifestRefusal m
  if code ≠ 0 then (.refused, raiseGate 3 (s.modLdg fun l => { l with refusal := code }))
  else (.pending, s.modLdg fun l => { l with other := [], manBody := m })

/-- The commit of the manifest copy, at the end of the tick of its body (log 143): the copy becomes active; a pass starts only while the host is
held. -/
def commitManifest (s : State) : State :=
  if s.ldg.manBody = [] then s
  else
    let s := bumpGen 0x3010 0 (s.modLdg fun l =>
      { l with manifest := l.manBody, other := l.manifest, manCopy := 1 - l.manCopy, manBody := [] })
    if !s.flg.plt && s.flg.relAt.isNone then requestPass false s else s

/-- At a start the committed copy with the higher COUNTER is active, and a body without a commit is discarded. -/
def pickManifest (s : State) : State :=
  s.modLdg fun l =>
    let l := { l with manBody := [] }
    if l.other ≠ [] && (l.manifest = [] || fieldLE l.manifest 12 4 < fieldLE l.other 12 4)
    then { l with manifest := l.other, other := l.manifest, manCopy := 1 - l.manCopy } else l

end Sys2Proof.Machine
end

