-- ==== Sys2Proof/Machine/Reset.lean ====
section
/-! DEFINITION. What a reset of the device leaves: everything volatile at its reset value, and the vault domain, the fuses, the persistent
entries and the stores of package flash as they were (R45, R360, R381, R435, R458). -/

namespace Sys2Proof.Machine
open Sys2Proof

/-- What a lease keeps (R360, R367, R294). -/
def Lease.kept (l : Lease) : Lease :=
  { quota := l.quota, rangeBase := l.rangeBase, rangeCount := l.rangeCount, epoch := l.epoch, quorumM := l.quorumM, quorumN := l.quorumN,
    creds := l.creds, progEd := l.progEd, progMl := l.progMl, minSvn := l.minSvn, image := l.image, copy := l.copy, old := l.old }

/-- What a bench keeps: the stored AUTO_RPL and SPARE of entry 0x2014. -/
def Bench.kept (b : Bench) : Bench := { autoRpl := b.stAutoRpl, spare := b.stSpare, stAutoRpl := b.stAutoRpl, stSpare := b.stSpare }

/-- The severities and pin flags of the tamper group stand in the vault domain, the others return to their tables; the stored ones stay (R424). -/
def Flt.kept (f : Flt) : Flt :=
  { sev := f.sev.filter fun e => isTamper e.1, pin := f.pin.filter fun e => isTamper e.1, stSev := f.stSev, stPin := f.stPin,
    stRoute := f.stRoute }

/-- The swap pair's copy that a reset takes: the valid one with the higher counter, modulo 2^16 (R461). -/
def swapOf (a b : Option (BitVec 16)) : BitVec 16 :=
  match a, b with
  | some x, some y => if (x - y).toNat < 2 ^ 15 then x else y
  | some x, none => x
  | none, some y => y
  | none, none => 0

/-- Ranges without the part from a up to but not including b. -/
def cutRanges (l : List (Nat × Nat)) (a b : Nat) : List (Nat × Nat) :=
  l.flatMap fun r => [(r.1, min r.2 a), (max r.1 b, r.2)].filter fun x => x.1 < x.2

/-- What an erase of part of a block leaves of the image the block was shipped with. -/
def Image.cut (x : Image) (lo hi : Nat) : Image := if lo < hi then { x with good := false, gone := x.gone ++ [(lo, hi)] } else x

/-- The die's own bytes, from physical offset a up to but not including b, are erased (R453). -/
def Pfl.erase (a b : Nat) (p : Pfl) : Pfl :=
  let cut := fun (c : Nat) (x : Image) => x.cut (max a (0x40000 * c) - 0x40000 * c) (min b (0x40000 * c + 0x40000) - 0x40000 * c)
  { p with die := tclear p.die a b, written := tclear p.written (a / 32) (b / 32), undef := cutRanges p.undef a b,
           ecc := tclear p.ecc (a / 32) (b / 32), boot := #v[cut 0 p.boot[0], cut 1 p.boot[1]] }

/-- A reset without power loss: the running operation goes on, a queued command is discarded, the swap takes effect, the sequence and the
registers return to their reset values (R458, R461, R466). -/
def Pfl.kept (p : Pfl) : Pfl :=
  { pairA := p.pairA, pairB := p.pairB, active := BitVec.ofNat 1 (swapOf p.pairA p.pairB).toNat, swapping := p.swapping, op := p.op,
    carry := p.carry, die := p.die, written := p.written, undef := p.undef, ecc := p.ecc, boot := p.boot }

/-- The officer quorum and the custodian journal, whose bodies without a commit are discarded at the start (R331). -/
def Cust.kept (c : Cust) : Cust :=
  { m := c.m, n := c.n, creds := c.creds, number := c.number, journal := c.journal.filter fun r => r.commit ≠ [], side := c.side,
    lastSeq := c.newest }

/-- The fuses, the identity region and the life-cycle journal; the state is the highest whose two fuses are blown (R376). -/
def LcsSt.fused (l : LcsSt) : Lcs :=
  let both := fun (c : Nat) => l.pairs.getLsbD (2 * c - 2) && l.pairs.getLsbD (2 * c - 1)
  (((List.range 6).map fun i => 6 - i).find? both).bind Lcs.ofCode |>.getD .blank

def LcsSt.kept (l : LcsSt) : LcsSt :=
  { l with state := l.fused, failed := false, pend := none, badTokens := 0, refusal := 0, verify := none }

/-- The vault domain through a reset: TMP_CTL.LOCK, TMP_DET and the detection counters are not held there (R414, R415). -/
def Vault.kept (v : Vault) : Vault :=
  { v with lock := false, chalDue := false, rtcSet := none, staging := v.staging.map fun x => { x with dropped := false },
           sensors := v.sensors.map fun (e : Nat × Sensor) => (e.1, { e.2 with count := 0, detecting := false }) }

/-- The DOMAIN objects whose contents differ between two states, the lease's own views apart (R362, R366-R393). -/
def changedObjects (s t : State) : List (Nat × Nat) :=
  let one := fun (i j : Nat) (c : Bool) => if c then [(i, j)] else []
  let sel := fun (x : State) (i : Nat) => x.ldg.record (x.ldg.sel.toList.getD i 0)
  let plans := s.dsp.planSlt ≠ t.dsp.planSlt
  let rec_ := fun (x : State) (i : Nat) => (tget [] x.lcs.records i, tget [] x.lcs.aliasCert i)
  let journal := fun (x : State) => x.cust.journal.filter fun r => r.commit ≠ []
  (List.range 16).flatMap (fun b => one 0x2010 (b + 1) (plans && tblBytes s.dsp.planSlt (1280 * b) 1280 ≠ tblBytes t.dsp.planSlt (1280 * b) 1280)) ++
    one 0x3010 0 (s.ldg.manifest ≠ t.ldg.manifest) ++ (List.range 3).flatMap (fun i => one 0x3020 (i + 1) (sel s i ≠ sel t i)) ++
    (List.range 64).flatMap (fun k => one (0x4020 + 0x40 * k) 0 ((s.lease k).image ≠ (t.lease k).image)) ++
    one 0x5010 0 (s.vault.log ≠ t.vault.log) ++ one 0x6010 0 (s.flt.evlog ≠ t.flt.evlog) ++ one 0x8020 0 (journal s ≠ journal t) ++
    one 0x9003 1 (s.lcs.ownerEd ≠ t.lcs.ownerEd || s.lcs.ownerMl ≠ t.lcs.ownerMl) ++
    one 0x9003 2 (s.lcs.manEd ≠ t.lcs.manEd || s.lcs.manMl ≠ t.lcs.manMl) ++ one 0x9010 1 (s.gal.cert ≠ t.gal.cert) ++
    (List.range 5).flatMap (fun i => one 0x9020 (i + 1) (rec_ s (i + 1) ≠ rec_ t (i + 1))) ++ one 0x9021 0 (s.lcs.journal ≠ t.lcs.journal)

/-- The generations of the objects that have changed from s to t. -/
def bumpChanged (s t : State) : State := bumpViews s.dsp (forEach (changedObjects s t) (fun o x => bumpGen o.1 o.2 x) t)

/-- The fields after a reset, with its power stage. -/
def resetFields (stage : Stage) (mode : Mode) (s : State) : State :=
  let p := s.pw
  { ident := s.ident
    pw := { now := p.now, free := p.free, mono := p.mono, stage := stage, wipeEnd := p.now + 1536, mode := mode, vio3 := p.vio3,
            sysRst := p.sysRst, pwrok := p.pwrok, hrst := p.hrst, perst := p.perst, mgtStraps := p.mgtStraps, vflHigh := p.vflHigh,
            pwrokAt := p.pwrokAt, fclkAt := p.fclkAt, supplyHold := p.supplyHold, dieHot := p.dieHot, rtcFrac := p.rtcFrac }
    dsp := { planSlt := s.dsp.planSlt, planCore := s.dsp.planCore, planPage := s.dsp.planPage, planPol := s.dsp.planPol }
    benches := s.benches.map fun (e : Nat × Bench) => (e.1, e.2.kept)
    cores := [(64, islandCore), (65, islandCore)]
    leases := s.leases.map fun (e : Nat × Lease) => (e.1, e.2.kept)
    flt := s.flt.kept
    pwr := { stIdle := s.pwr.stIdle }
    vault := s.vault.kept
    yard := { store := s.yard.store, storeSeq := s.yard.storeSeq, half := s.yard.half, side := s.yard.side }
    rng := { start := p.now + 320 }
    ldg := { newest := s.ldg.newest, ack := s.ldg.ack, lost := s.ldg.lost, slots := s.ldg.slots, priorFail := s.ldg.priorFail,
             manifest := s.ldg.manifest, other := s.ldg.other, manCopy := s.ldg.manCopy }
    pfl := { s.pfl.kept with svn := s.pfl.svn }
    crd := { present := s.crd.present }
    tag := { s.tag with commit := none, wres := 0, wbuf := [], sumPend := none, svcPend := none }
    cust := s.cust.kept
    dic := { gens := s.dic.gens, window := s.dic.window }
    lcs := s.lcs.kept
    out := { s.out with msix := [], writes := [], ibi := false }
    pending := s.pending }

/-- The state of the whole device after a reset; an object that it empties has a new generation (R362). -/
def resetState (stage : Stage) (mode : Mode) (s : State) : State := bumpChanged s (resetFields stage mode s)

/-- Power event 0 with the mode entered (R435). -/
def modeEvent (m : Mode) (s : State) : State :=
  let n := s.flt.queue.length
  let t := raisePower 0 s
  { t with flt := { t.flt with queue := t.flt.queue.take n ++ (t.flt.queue.drop n).map fun x => { x with mode := m.code } } }

/-- A reset with the 1,536-tk wipe: the mode becomes GUARD (R381, R435). -/
def deviceReset (s : State) : State :=
  let t := resetState .wipe .guard s
  if s.pw.mode = .guard then t else modeEvent .guard t

end Sys2Proof.Machine
end

