-- ==== Sys2Proof/Machine/Tamper.lean ====
section
/-! DEFINITION. The vault domain and the tamper log: sensors, windows, responses, the staging log, the unlock (R396-R417). -/

namespace Sys2Proof.Machine
open Sys2Proof

def State.modVault (s : State) (f : Vault → Vault) : State := { s with vault := f s.vault }

/-! ### The staging log (R403) -/

/-- The vault domain alone runs. -/
def State.inVault (s : State) : Bool := s.pw.stage = .off

/-- Replace the first entry that satisfies a test. -/
def replaceFirst {α : Type} (p : α → Bool) (x : α) : List α → List α
  | [] => []
  | y :: r => if p y then x :: r else y :: replaceFirst p x r

/-- Stage an entry: in a slot not used yet, in a SAVED one, or over the unsaved entry with the lowest VSEQ, which TMP_OVF counts. -/
def stage (kind source resp : Nat) (data : BitVec 32) (latched : Bool) (s : State) : State :=
  let v := s.vault
  let x : Staged := { vseq := v.vseq, time := s.time64, kind := kind, source := source, resp := resp, saved := false, vault := s.inVault,
                      data := data, latched := latched }
  let v := { v with vseq := v.vseq + 1 }
  if v.staging.length < 64 then s.modVault fun _ => { v with staging := v.staging ++ [x] }
  else if v.staging.any Staged.saved then s.modVault fun _ => { v with staging := replaceFirst Staged.saved x v.staging }
  else
    let low := (v.staging.map Staged.vseq).foldl min v.vseq
    s.modVault fun _ => { v with staging := replaceFirst (fun e => e.vseq = low) x v.staging, ovf := satAdd v.ovf 1 }

/-- Bytes 0 to 15 of a staging entry. -/
def Staged.bytes (x : Staged) : Bytes :=
  leBytes 4 x.vseq ++ leBytes 8 x.time.toNat ++ leBytes 1 x.kind ++ leBytes 1 x.source ++ leBytes 1 x.resp ++
    leBytes 1 (bit x.saved + 2 * bit x.vault)

/-! ### The tamper log (R404-R406) -/

/-- A body of the log (R405). -/
def State.tamperBody (s : State) (seq : Nat) (x : Staged) : Bytes :=
  fixLen 96 ([0x53, 0x56, 0x54, 0x4C] ++ leBytes 4 seq ++ leBytes 8 x.time.toNat ++ leBytes 1 x.kind ++ leBytes 1 x.source ++
    leBytes 1 x.resp ++ leBytes 1 (bit x.vault + 2 * bit x.latched) ++ leBytes 1 s.lcs.state.code ++ [0, 0, 0] ++ leBytes 4 x.data.toNat ++
    leBytes 4 x.vseq ++ (match s.vault.log.getLast? with | some b => sha384 b.body | none => List.replicate 48 0))

/-- The log takes no entry of this kind: from SEQ 4,033 no RTC_SET and no RESP_CHANGE, and nothing after SEQ 4,096 (R406). -/
def Vault.closed (v : Vault) (kind : Nat) : Bool :=
  let seq := v.log.length + 1
  4096 < seq || (4033 ≤ seq && (kind = 3 || kind = 6))

/-- The body of an entry is programmed, or the entry is counted dropped (R405, R406). -/
def appendTamper (x : Staged) (s : State) : State :=
  if s.vault.closed x.kind then
    raiseTamper 36 (s.modVault fun v =>
      { v with drop := satAdd v.drop 1, staging := v.staging.map fun y => if y.vseq = x.vseq then { y with dropped := true } else y })
  else
    let seq := s.vault.log.length + 1
    let e : TamperBody := { seq := seq, body := s.tamperBody seq x, kind := x.kind, vseq := x.vseq, latched := x.latched }
    s.modVault fun v => { v with log := v.log ++ [e] }

/-- The 32-byte commit of an entry (R405). -/
def tamperCommit (seq : Nat) (body : Bytes) : Bytes := [0x53, 0x56, 0x54, 0x43] ++ leBytes 4 seq ++ (sha3 body).take 24

/-- TMP_SAVED: marks every entry whose VSEQ is at most v; it reads the highest VSEQ marked. -/
def tmpSaved (v : BitVec 32) (s : State) : State :=
  let l := s.vault.staging.map fun e => if e.vseq ≤ v.toNat then { e with saved := true } else e
  let top := ((l.filter Staged.saved).map Staged.vseq).foldl max s.vault.savedTo.toNat
  s.modVault fun w => { w with staging := l, savedTo := BitVec.ofNat 32 top }

/-- The commits of the bodies that stand without one are programmed: only now is VLOST cleared, TMP_OVF cleared, an UNLOCK commit noted, LATCHSEQ
known and the staged entries SAVED; the tag's service area is rebuilt (R404, R405, R410, R413). -/
def commitTamper (s : State) : State :=
  let new := s.vault.log.filter fun e => e.commit = []
  if new = [] then s
  else
    let has := fun (kind : Nat) => new.any fun e => e.kind = kind
    let t := s.modVault fun v =>
      { v with log := v.log.map fun e => if e.commit = [] then { e with commit := tamperCommit e.seq e.body } else e,
               latchSeq := new.foldl (fun a e => if e.latched then e.seq else a) v.latchSeq, unlockDone := v.unlockDone || has 2,
               vlost := v.vlost && !has 4, ovf := if has 5 then 0 else v.ovf }
    let t := bumpGen 0x5010 0 (tmpSaved (BitVec.ofNat 32 (new.foldl (fun m e => max m e.vseq) 0)) t)
    buildService (if new.any fun e => e.seq = 3840 then raiseTamper 35 t else t)

/-- An entry that island firmware makes itself. -/
def State.ownEntry (s : State) (kind : Nat) (data : BitVec 32) (latched : Bool) : Staged :=
  { vseq := 0, time := s.time64, kind := kind, source := 0xFF, resp := 0, saved := true, vault := false, data := data, latched := latched }

/-- The highest VSEQ among the log's entries after its newest VAULT_LOST entry. -/
def topVseq (l : List TamperBody) : Nat := (l.reverse.takeWhile fun e => e.kind ≠ 4).foldl (fun m e => max m e.vseq) 0

/-- Insert by rising VSEQ. -/
def insertVseq (x : Staged) : List Staged → List Staged
  | [] => [x]
  | y :: r => if x.vseq ≤ y.vseq then x :: y :: r else y :: insertVseq x r

/-- The VAULT_LOST entry of a vault loss, none where the newest entry is one already, which then names the latch that the loss set (R402, R404). -/
def moveLoss (s : State) : State :=
  let latched := s.vault.latch && s.vault.cause = 0xFE
  match s.vault.log.getLast?.filter fun e => e.kind = 4 with
  | some e => s.modVault fun v => { v with vlost := false, latchSeq := if latched then e.seq else v.latchSeq }
  | none =>
    let full := s.vault.closed 4
    (appendTamper (s.ownEntry 4 0 latched) s).modVault fun v => { v with vlost := v.vlost && !full }

/-- The STAGE_OVERFLOW entry; event 32 for one that is appended. -/
def moveOverflow (s : State) : State :=
  let full := s.vault.closed 5
  let t := appendTamper (s.ownEntry 5 (s.vault.ovf.setWidth 32) false) s
  if full then t.modVault fun v => { v with ovf := 0 } else raiseTamper 32 t

/-- Move the staging log into flash (R404): the bodies of the vault loss, of the unsaved entries in VSEQ order, and of the overflow, unless bodies
stand without their commits. -/
def moveStaging (s : State) : State :=
  let new := fun (s : State) => s.vault.staging.filter fun e => !e.saved && !e.dropped
  if (!s.vault.vlost && new s = [] && s.vault.ovf = 0) || s.vault.log.any (fun e => e.commit = []) then s
  else
    let s := if s.vault.vlost then raiseTamper 31 (moveLoss s) else s
    let s := forEach ((new s).foldr insertVseq []) (fun (x : Staged) t =>
      if x.vseq ≤ topVseq t.vault.log then tmpSaved (BitVec.ofNat 32 x.vseq) t else appendTamper x t) s
    if s.vault.ovf = 0 then s else moveOverflow s

/-- STAGING_LOG_MOVE: island firmware moves new entries within 200 tk, unless the log's bank is busy (R404). -/
def execStagingLogMove (s : State) : Res := if s.islandRuns && !s.bankBusy 3 then .next (moveStaging s) else .next s

/-! ### Sensors (R396-R401) -/

/-- The response of source i: 0 NONE, 1 LOCK, 2 ZEROIZE. -/
def Vault.response (v : Vault) (i : Nat) : Nat := (v.resp[i / 16]?.getD 0).toNat / 4 ^ (i % 16) % 4

def Vault.switch (v : Vault) (j : Nat) : BitVec 32 := v.sw[j]?.getD 0

/-- N and W of a source's window (R396). -/
def Vault.window (v : Vault) (i : Nat) : Nat × Nat :=
  let nw := fun (r : BitVec 32) => (r.toNat / 2 ^ 16 % 256, r.toNat % 2 ^ 16)
  if 2 ≤ i && i ≤ 5 then nw (v.switch (i - 2))
  else if 6 ≤ i && i ≤ 11 then nw v.vwin
  else if i = 12 || i = 13 then (3, 1000)
  else if 16 ≤ i && i ≤ 23 then (2, 10)
  else (1, 0)

/-- Units of 1/100,000,000 of an RTC period in a millisecond (log 9). -/
def msUnits : Nat := 3276800000

/-- The source runs now: an enabled switch; the FCLK monitor but for the 64 tk in which FCLK changes; in VAULT the sampled ones alone (R396). -/
def State.sourceRuns (s : State) (i : Nat) : Bool :=
  i < 28 && !(i = 26 && s.ident.stepping = .b0) && (!(2 ≤ i && i ≤ 5) || (s.vault.switch (i - 2)).getLsbD 31) &&
    !(i = 14 && s.pw.now < s.pw.fclkAt + 64) && (!s.inVault || i ≤ 5 || (10 ≤ i && i ≤ 13) || i = 15 || i = 27)

/-- Sources 6-9 are armed after 1,000 tk of PLT_PWROK, and till it falls (R397). -/
def State.armed (s : State) (i : Nat) : Bool := !(6 ≤ i && i ≤ 9) || (s.pw.pwrok && s.pw.pwrokAt + 1000 ≤ s.pw.now)

def Vault.sensor (v : Vault) (i : Nat) : Sensor := tget {} v.sensors i
def Vault.setSensor (v : Vault) (i : Nat) (x : Sensor) : Vault := { v with sensors := tset {} v.sensors i x }

/-- The response that applies: in BLANK and TESTED every one acts as NONE (R397). -/
def State.responseOf (s : State) (i : Nat) : Nat :=
  if s.lcs.state = .blank || s.lcs.state = .tested then 0 else s.vault.response i

/-- An alarm of source i: ZEROIZE clears bedrock, LOCK and ZEROIZE set the latch, the entry is staged, events i and 28 follow where the part is
powered (R399, R400, R403). -/
def tamperAlarm (i : Nat) (s : State) : State :=
  let r := s.responseOf i
  let free := !s.vault.latch
  let sets := free && (1 ≤ r || (!s.inVault && s.sevOf (0x410 + i) = 3))
  let s := if r = 2 then s.modVault fun v =>
      { v with bedrock := none, clearedAt := if v.bedrock.isSome && s.pw.stage ≠ .off then some s.pw.now else v.clearedAt } else s
  let s := if 1 ≤ r then latchOnly i s else s
  let s := stage 1 i r 0 sets s
  if s.inVault then s
  else
    let s := raiseTamper i s
    if free && 1 ≤ r then raiseTamper 28 s else s

/-- A sample of source i, or a comparator's change, that finds it detecting or not: counted, and in the window of a source that is armed (R397,
R398). -/
def tamperSample (i : Nat) (det : Bool) (s : State) : State :=
  let x := s.vault.sensor i
  if !det then s.modVault fun v => v.setSensor i { x with detecting := false, disarmed := false, hits := if x.disarmed then [] else x.hits }
  else
    let x := { x with detecting := true, count := satAdd x.count 1 }
    if x.disarmed || !s.armed i then s.modVault fun v => v.setSensor i x
    else
      let (n, w) := s.vault.window i
      let hits := s.pw.mono :: x.hits.filter fun t => s.pw.mono ≤ t + w * msUnits
      if hits.length < n then s.modVault fun v => v.setSensor i { x with hits := hits }
      else tamperAlarm i (s.modVault fun v => v.setSensor i { x with hits := [], disarmed := true })

/-- What returns at the far end of a mesh into which a pattern is driven (R397). -/
def farEnd (disturbed : Bool) (p : BitVec 16) : BitVec 16 := if disturbed then p ^^^ (Config.meshFault p ||| 1) else p

/-- Source i, which shows v, is sampled: a switch against its alarm level, a mesh by what returns of a fresh pattern (R396, R397). -/
def sampleSource (i : Nat) (v : Bool) (s : State) : State :=
  if i < 2 then
    let p := Config.meshNext s.vault.lfsr
    tamperSample i (farEnd v p ≠ p) (s.modVault fun x => { x with lfsr := p })
  else tamperSample i (if i ≤ 5 then v = (s.vault.switch (i - 2)).getLsbD 30 else v) s

/-- TAMPER_SAMPLE: what source i shows, the input level for a switch, and for a mesh that it is disturbed; in VAULT, where no tick passes, with the
milliseconds since the last sample (log 9). -/
def execTamperSample (i : Nat) (v : Bool) (ms : Nat) (s : State) : Res :=
  let s := if s.inVault then passTime (ms * msUnits) s else s
  if s.lcs.state = .scrapped || !s.sourceRuns i then .next s
  else .next (sampleSource i v s)

/-- VAULT_POWER_ON: VBAT is lost while VIO3 is absent, and no valid state is found; in CLAIMED and FIELD the latch is set with CAUSE 0xFE (R402).
Responses, windows and the tamper group's severities take their power-on values. -/
def execVaultPowerOn (s : State) : Res :=
  if s.pw.vio3 then .next s
  else
    let locked := s.lcs.state = .claimed || s.lcs.state = .field
    let v : Vault := { log := s.vault.log, latch := locked, cause := if locked then 0xFE else 0xFF }
    .next { s with vault := v, flt := { s.flt with sev := s.flt.sev.filter fun e => !isTamper e.1, pin := s.flt.pin.filter fun e => !isTamper e.1 } }

/-! ### The TMP registers (R415) -/

/-- TMP_CTL.UNLATCH: ignored unless an UNLOCK commit has been programmed since the latch was set. -/
def unlatch (s : State) : State :=
  if s.vault.latch && s.vault.unlockDone then s.modVault fun v => { v with latch := false, cause := 0xFF, latchSeq := 0, unlockDone := false } else s

def execTmpUnlatch (s : State) : Res := if s.islandRuns then .next (unlatch (wrote 0x60070004 s)) else .next s

def ovfClear (s : State) : State := s.modVault fun v => { v with ovf := 0 }
def execTmpOvfclr (s : State) : Res := if s.islandRuns then .next (ovfClear (wrote 0x60070004 s)) else .next s

def execTmpSavedWrite (v : BitVec 32) (s : State) : Res := if s.islandRuns then .next (tmpSaved v s) else .next s

/-- The 16 bytes of staging entry k. -/
def Vault.slotBytes (v : Vault) (k : Nat) : Bytes := match v.staging[k]? with | some x => x.bytes | none => List.replicate 16 0

/-- The number of an island master in the latch table. -/
def masterKey (m : Master) : Nat :=
  match m with
  | .core c => c
  | .island c => 64 + c
  | .dma => 66
  | .fn f => 128 + f

/-- A read of byte 0 of TMP_SLOGA_k latches all 16 bytes of the entry for its master (R415). -/
def slogRead (m : Master) (k : Nat) (s : State) : State :=
  let b := s.vault.slotBytes k
  { s with bus := { s.bus with latch := tput s.bus.latch (1024 + masterKey m) (some { addr := 0x60070400 + 16 * k, bytes := b }) },
           out := { s.out with bus := .ok (b.take 8) } }

def execTmpSlogRead (m : Master) (k : Nat) (s : State) : Res :=
  match m with
  | .island _ => if s.islandRuns && k < 64 then .next (slogRead m k s) else .next s
  | .dma => if s.islandRuns && k < 64 then .next (slogRead m k s) else .next s
  | _ => .next s

/-! ### Dictionary entries (R399, R411, R414) -/

/-- Who writes responses and windows: HOST in CLAIMED, OFFICER in FIELD. -/
def State.tamperRights (s : State) : Rights := { host := s.lcs.state = .claimed, officer := s.lcs.state = .field }

def setField (r : BitVec 32) (lo width v : Nat) : BitVec 32 :=
  BitVec.ofNat 32 (r.toNat - r.toNat / 2 ^ lo % 2 ^ width * 2 ^ lo + v * 2 ^ lo)

/-- A response change is recorded (R399, R403). -/
def stageChange (i n : Nat) (s : State) : State := stage 6 0xFF 0 (BitVec.ofNat 32 (i + 256 * n)) false s

/-- TAMPER_RESPONSE_WRITE, entry 0x5001: recorded as RESP_CHANGE, event 34; the registers take it at the next start (R399). -/
def execTamperResponseWrite (r : Req) (value : Bytes) (s : State) : Res :=
  if r.index ≠ 0x5001 || r.sub = 0 || 28 < r.sub then .next s
  else
    .next (writeEntry r s.tamperRights 1 value (fun s =>
      let i := r.sub - 1
      let n := leNat value
      if 2 < n then (.range, s)
      else
        let t := s.modVault fun v =>
          { v with stResp := v.stResp.setIfInBounds (i / 16) (setField (v.stResp[i / 16]?.getD 0) (2 * (i % 16)) 2 n) }
        (.ok, raiseTamper 34 (stageChange i n t))) s)

/-- N and W are not 0, and no reserved bit is set. -/
def windowOk (isSwitch : Bool) (n : Nat) : Bool :=
  n / 2 ^ 16 % 256 ≠ 0 && n % 2 ^ 16 ≠ 0 && (if isSwitch then n / 2 ^ 24 % 64 = 0 else n / 2 ^ 24 = 0)

/-- TAMPER_WINDOW_WRITE, entries 0x5002 and 0x5003: event 34; the registers take it at the next start. -/
def execTamperWindowWrite (r : Req) (value : Bytes) (s : State) : Res :=
  let sw := r.index = 0x5002 && 1 ≤ r.sub && r.sub ≤ 4
  if !(sw || (r.index = 0x5003 && r.sub = 0)) then .next s
  else
    .next (writeEntry r s.tamperRights 4 value (fun s =>
      let n := leNat value
      if !windowOk sw n then (.range, s)
      else
        let w := BitVec.ofNat 32 n
        (.ok, raiseTamper 34 (s.modVault fun v => if sw then { v with stSw := v.stSw.setIfInBounds (r.sub - 1) w } else { v with stVwin := w }))) s)

/-- New minus old RTC in seconds, a saturating I32. -/
def rtcChange (old new : Nat) : BitVec 32 :=
  if old ≤ new then BitVec.ofNat 32 (satNat (2 ^ 31 - 1) (new / 32768 - old / 32768))
  else BitVec.ofNat 32 (2 ^ 32 - satNat (2 ^ 31) (old / 32768 - new / 32768))

/-- An RTC write takes effect at the boundary of its tick: an RTC_SET entry with the time before the write, event 33 (R411). -/
def setRtc (s : State) : State :=
  match s.vault.rtcSet with
  | none => s
  | some n =>
    let t := stage 3 0xFF 0 (rtcChange s.vault.rtc.toNat n.toNat) false s
    raiseTamper 33 (t.modVault fun v => { v with rtc := n, rtcSet := none })

/-- RTC_WRITE, entry 0x2001: HOST in CLAIMED, and OFFICER. -/
def execRtcWrite (r : Req) (value : Bytes) (s : State) : Res :=
  if r.index ≠ 0x2001 || r.sub ≠ 0 then .next s
  else
    .next (writeEntry r { host := s.lcs.state = .claimed, officer := true } 8 value (fun s =>
      let n := leNat value
      if 2 ^ 47 ≤ n then (.range, s) else (.ok, s.modVault fun v => { v with rtcSet := some (BitVec.ofNat 47 n) })) s)

/-! ### Unlock (R408-R410) -/

/-- A fresh sample of every source that runs, which finds the listed ones detecting (R410). -/
def freshSample (fresh : List Nat) (s : State) : State :=
  forN 28 (fun i t => if t.sourceRuns i then tamperSample i (fresh.contains i) t else t) s

/-- Check 0x0C, after a fresh sample: a source whose response is not NONE is detecting. -/
def State.stillActive (s : State) : Bool := (List.range 28).any fun i => s.responseOf i ≠ 0 && (s.vault.sensor i).detecting

/-- The signer that R408 names for the state. -/
def State.signer (s : State) : Nat := if s.lcs.state = .claimed || s.lcs.state = .field then 0 else 1

/-- Signature over a request under the owner or the vendor keys (R380). -/
def State.signedBy (s : State) (signer : Nat) (msg sigs : Bytes) : Bool :=
  if signer = 0 then dualOk s.lcs.ownerEd s.lcs.ownerMl msg sigs else dualOk s.ident.vendorEd s.ident.vendorMl msg sigs

/-- The first failing check of a request, the fresh sample's apart; 0 for none. -/
def State.unlockRefusal (s : State) (d : Bytes) : Nat :=
  if s.lcs.pend.isSome || s.lcs.verify.isSome || s.cust.collect.isSome then 0x02
  else if d.length ≠ 3437 || d.take 4 ≠ [0x53, 0x56, 0x55, 0x4C] || fieldLE d 4 1 ≠ 1 || fieldLE d 5 1 ≠ 0 || 1 < fieldLE d 6 1 ||
    fieldLE d 7 1 ≠ 0 || fieldLE d 12 4 ≠ 0 then 0x03
  else if slice d 16 16 ≠ fixLen 16 s.ident.unit then 0x04
  else if !s.vault.latch then 0x05
  else if slice d 32 32 ≠ fixLen 32 s.vault.chal then 0x0A
  else if fieldLE d 8 4 ≠ s.vault.latchSeq || s.vault.latchSeq = 0 then 0x0D
  else if fieldLE d 6 1 ≠ s.signer || !s.signedBy (fieldLE d 6 1) (d.take 64) (d.drop 64) then 0x07
  else 0

def refuseUnlock (code : Nat) (s : State) : State := raiseTamper 30 (s.modVault fun v => { v with unlockRefusal := code })

/-- All checks pass: the UNLOCK entry, UNLATCH, the reset; method 1 owner, 2 vendor, 3 officers with the positions that counted. -/
def unlockNow (method officers : Nat) (s : State) : State :=
  let s := stage 2 0xFF 0 (BitVec.ofNat 32 (method + 2 ^ 16 * officers)) false (raiseTamper 29 s)
  deviceReset (unlatch (commitTamper (moveStaging (commitTamper s))))

/-- The last check, on a fresh sample (R410). -/
def unlockIfQuiet (method officers : Nat) (fresh : List Nat) (s : State) : DStat × State :=
  let t := freshSample fresh s
  if t.stillActive then (.refused, refuseUnlock 0x0C t) else (.ok, unlockNow method officers t)

/-- A request as a whole. -/
def unlockRequest (d : Bytes) (fresh : List Nat) (s : State) : DStat × State :=
  let code := s.unlockRefusal d
  if code = 0 then unlockIfQuiet (fieldLE d 6 1 + 1) 0 fresh s else (.refused, refuseUnlock code s)

/-- An unlock request of another role is refused with code ROLE (R410). -/
def refuseRole (r : Req) (s : State) : State := if r.index = 0x5011 && r.sub = 1 then refuseUnlock 0x01 s else s

/-- UNLOCK_REQUEST: the object of entry 0x5011 subindex 1, and what a fresh sample finds. Its check waits for the end of a pass (R252). -/
def execUnlockRequest (r : Req) (d : Bytes) (fresh : List Nat) (s : State) : Res :=
  if r.index ≠ 0x5011 || r.sub ≠ 1 || s.flg.pass.isSome then .next s
  else
    .next (endObject r { host := true, bmc := true, officer := true } (refuseRole r) (unlockRequest d fresh) s)

/-- OFFICER_UNLOCK_START, entry 0x5011 subindex 3: an officer collection with purpose 2; STATE outside CLAIMED and FIELD and without an officer
quorum, BUSY while a collection is under way (R320, R409). -/
def execOfficerUnlockStart (r : Req) (value : Bytes) (s : State) : Res :=
  if r.index ≠ 0x5011 || r.sub ≠ 3 then .next s
  else
    .next (writeEntry r { host := true, bmc := true, officer := true } 1 value (onTrue value fun s =>
      if !(s.lcs.state = .claimed || s.lcs.state = .field) || s.cust.m = 0 || s.cust.n = 0 then (.state, s)
      else if s.cust.collect.isSome then (.busy, s)
      else
        let c : Collect := { purpose := 2, lease := 0xFF, counted := [], endFrame := s.frame + s.dic.window }
        (.ok, { s with cust := { s.cust with collect := some c } })) s)

/-- The M-th officer of an unlock has counted: checks 0x05, 0x0D (there is an entry that set the latch) and 0x0C (R409, R410). -/
def officerUnlock (officers : List Nat) (fresh : List Nat) (s : State) : State :=
  if !s.vault.latch then refuseUnlock 0x05 s
  else if s.vault.latchSeq = 0 then refuseUnlock 0x0D s
  else (unlockIfQuiet 3 (officers.foldl (fun a i => a + 2 ^ i) 0) fresh s).2

end Sys2Proof.Machine
end

