-- ==== Sys2Proof/Machine/Life.lean ====
section
/-! DEFINITION. The life cycle: tokens, requests, transitions, the layered identity, the gallery certificate and its rights (R374-R395), and
event injection, which needs one of them (R433). -/

namespace Sys2Proof.Machine
open Sys2Proof

def State.modLcs (s : State) (f : LcsSt → LcsSt) : State := { s with lcs := f s.lcs }
def State.modGal (s : State) (f : Gal → Gal) : State := { s with gal := f s.gal }

/-! ### Lease work stops (R102, R132, R286) -/

/-- Executing commands end with MODE and running jobs with 0x33; held ranges are zeroed; cores stop at an instruction or element boundary. -/
def stopLeaseWork (s : State) : State :=
  let s := { s with pw := { s.pw with leaseWork := false } }
  let s := stopCommands (fun _ => true) 0x0133 s
  let s := s.jobs.foldl (fun t (e : Nat × Job) =>
    if e.1 % 65 < 64 && e.2.state = .run then stopJob (e.1 / 65) (e.1 % 65) 0x33 t else t) s
  let s := dropHeld (fun x => x.lease < 64) s
  { s with cores := s.cores.map fun (e : Nat × Core) => if e.1 < 64 then (e.1, stopLong e.2) else e }

/-! ### Transitions (R375, R376, R381-R383) -/

/-- The successors of a state (R375). -/
def Lcs.next : Lcs → List Lcs
  | .blank => [.tested, .scrapped]
  | .tested => [.sealed_, .scrapped]
  | .sealed_ => [.claimed, .scrapped]
  | .claimed => [.field, .scrapped]
  | .field => [.ret, .scrapped]
  | .ret => [.scrapped]
  | .scrapped => []

/-- A transition that a dual-signed request authorises: all but those of the tokens. -/
def Lcs.byRequest (a b : Lcs) : Bool := a.next.contains b && b ≠ .tested && b ≠ .sealed_

/-- The transitions that make an LNONCE. -/
def Lcs.makesLnonce (b : Lcs) : Bool := b = .sealed_ || b = .claimed

/-- Island firmware's private page of the claim payload: ESTATE, the owner keys, the manifest keys (R378). -/
structure Claim where
  estate : Bytes
  ownEd  : Bytes
  ownMl  : Bytes
  manEd  : Bytes
  manMl  : Bytes
  deriving DecidableEq, Repr

def claimOf (d : Bytes) : Claim :=
  { estate := slice d 64 16, ownEd := slice d 80 32, ownMl := slice d 112 1952, manEd := slice d 2064 32, manMl := slice d 2096 1952 }

/-- The claim writes the keys and ESTATE and fuses their digests (R380). -/
def installClaim (c : Claim) (l : LcsSt) : LcsSt :=
  { l with estate := c.estate, ownerEd := c.ownEd, ownerMl := c.ownMl, manEd := c.manEd, manMl := c.manMl,
           ownerFuse := sha3 (c.ownEd ++ c.ownMl), manFuse := sha3 (c.manEd ++ c.manMl), estateFuse := sha3 c.estate }

/-- SCRAPPED: the whole package flash goes, with every entry and pair that it holds, and every UDS fuse is blown (R383). -/
def scrapAll (s : State) : State :=
  { s with
    ldg := {}, yard := {}, dsp := {}, cust := {}, leases := [], benches := [],
    pfl := { active := s.pfl.active, pairA := none, pairB := none, boot := Vector.replicate 2 {} },
    vault := { s.vault with log := [] },
    flt := { s.flt with stSev := [], stPin := [], stRoute := 0 },
    pwr := { s.pwr with stIdle := [] },
    dic := { s.dic with window := ({} : Dic).window },
    lcs := { s.lcs with uds := s.lcs.uds.map fun u => List.replicate u.length 0xFF, ownerEd := [], ownerMl := [], manEd := [], manMl := [], estate := List.replicate 16 0,
                        lnonce := [], records := [], aliasTbs := [], aliasCert := [] } }

/-- FIELD to RETURN: bedrock is cleared; yard store, program store and LNONCE are scrubbed (R211, R383). -/
def scrubReturn (s : State) : State :=
  { s with vault := { s.vault with bedrock := none }, yard := { s.yard with store := [], half := 0, toStore := [] },
           leases := s.leases.map fun (e : Nat × Lease) => (e.1, { e.2 with image := [], body := [], old := [] }),
           lcs := { s.lcs with lnonce := [] } }

/-- The vendor test area, erased at TESTED to SEALED (R447). -/
def eraseVendor (s : State) : State :=
  { s with pfl := s.pfl.erase 0x3F80000 0x4000000 }

/-- Step 3 of R381: the erasures and writes of the transition. -/
def performStep (to_ : Lcs) (lnonce : Bytes) (claim : Option Claim) (s : State) : State :=
  match to_ with
  | .tested =>
    let (u, s) := drawIsland 32 s
    s.modLcs fun l => { l with uds := some u, udsCheck := sha3 u }
  | .sealed_ => (eraseVendor s).modLcs fun l => { l with lnonce := lnonce }
  | .claimed => s.modLcs fun l => { (match claim with | some c => installClaim c l | none => l) with lnonce := lnonce }
  | .ret => scrubReturn s
  | .scrapped => scrapAll s
  | .field => s
  | .blank => s

/-- A committed INTENT that has no DONE record, the newest of the journal. -/
def LcsSt.intent (l : LcsSt) : Option LRec :=
  match (l.journal.filter fun r => r.kind ≠ .cert).getLast? with
  | some r => if r.kind = .intent then some r else none
  | none => none

/-- LCS_CTL.GO (R392): the counter fuse while the count is below COUNT and a fuse remains, then both fuses of the target's pair; a GO whose TO is
no successor, or without an INTENT naming it, is ignored with event 60. -/
def lcsGo (to_ count : Nat) (s : State) : State :=
  let good := match Lcs.ofCode to_, s.lcs.intent with
    | some t, some r => s.lcs.state.next.contains t && r.to_ = to_
    | _, _ => false
  if !good then raiseIsland 60 s
  else
    s.modLcs fun l =>
      { l with count := if count ≠ 0 && l.count < count && l.count < 64 then l.count + 1 else l.count,
               pairs := l.pairs ||| BitVec.ofNat 12 (3 * 4 ^ (to_ - 1)) }

def execLcsCtlGo (to_ : BitVec 3) (count : BitVec 8) (s : State) : Res :=
  if s.islandRuns then .next (lcsGo to_.toNat count.toNat s) else .next s

/-- The claim that an INTENT was made for (log 144). -/
def LRec.claim (r : LRec) : Option Claim := if r.request = [] then none else some (claimOf r.request)

/-- Steps 2 to 6 of R381 for the INTENT of record r. -/
def completeTransition (r : LRec) (s : State) : State :=
  match Lcs.ofCode r.to_ with
  | none => s
  | some to_ =>
    let s := closeCeremony 0 (stopLeaseWork s)
    let t := lcsGo r.to_ r.counter (performStep to_ r.lnonce r.claim s)
    let t := t.modLcs fun l => { l with journal := if to_ = .scrapped then [] else l.journal ++ [{ r with kind := .done }] }
    deviceReset (lapseGallery (bumpChanged s t))

/-- A transition, from its INTENT to its reset (R381); event 55. -/
def transition (to_ : Lcs) (counter : Nat) (request : Bytes) (s : State) : State :=
  let (n, s) := if to_.makesLnonce then drawIsland 32 s else ([], s)
  let r : LRec := { kind := .intent, from_ := s.lcs.state.code, to_ := to_.code, counter := counter, digest := sha384 request, lnonce := n,
                    request := if to_ = .claimed then request else [] }
  completeTransition r (raiseIsland 55 (s.modLcs fun l => { l with pend := some to_, journal := l.journal ++ [r] }))

/-! ### Requests (R378-R380) -/

/-- A refused request, token or certificate: event 54. -/
def refuseLcs (code : Nat) (s : State) : State := raiseIsland 54 (s.modLcs fun l => { l with refusal := code })

/-- Check 0x02. -/
def State.lcsBusy (s : State) : Bool :=
  s.lcs.pend.isSome || s.lcs.verify.isSome || s.flg.pass.isSome || (match s.cust.collect with | some c => c.purpose ≠ 0 | none => false)

/-- The role that R375 has: OFFICER in FIELD, HOST and BMC in the other states. -/
def State.lcsRole (s : State) (ep : Nat) : Bool := if s.lcs.state = .field then s.isOfficer ep else ep ≤ 1

/-- Check 0x03 (R378). -/
def requestOk (d : Bytes) : Bool :=
  let plen := if fieldLE d 7 1 = 3 then 3984 else 0
  d.take 4 = [0x53, 0x56, 0x4C, 0x51] && fieldLE d 4 1 = 1 && fieldLE d 5 1 = 0 && fieldLE d 6 1 ≤ 6 && fieldLE d 7 1 ≤ 6 &&
    fieldLE d 8 4 = 64 + plen && d.length = 64 + plen + 3373 && fieldLE d 32 1 ≤ 1 && isZero (slice d 33 31) &&
    (plen = 0 || !isZero (slice d 64 16))

/-- Check 0x05. A unit whose UDS has failed its check can only be scrapped (R377, log 148). -/
def State.transitionOk (s : State) (from_ to_ : Nat) : Bool :=
  match Lcs.ofCode to_ with
  | none => false
  | some t => from_ = s.lcs.state.code && s.lcs.state.byRequest t && (!(s.vault.latch || s.pw.stage = .udsFailed) || t = .scrapped)

/-- Check 0x06: at 64 blown fuses COUNTER 65 serves SCRAPPED alone (R376). -/
def State.counterOk (s : State) (counter to_ : Nat) : Bool := counter = s.lcs.count + 1 && (s.lcs.count < 64 || to_ = 6)

/-- Checks 0x01 to 0x06. -/
def State.requestRefusal (s : State) (ep : Nat) (d : Bytes) : Nat :=
  if !s.lcsRole ep then 0x01
  else if s.lcsBusy then 0x02
  else if !requestOk d then 0x03
  else if slice d 16 16 ≠ fixLen 16 s.ident.unit || isZero (slice d 16 16) then 0x04
  else if !s.transitionOk (fieldLE d 6 1) (fieldLE d 7 1) then 0x05
  else if !s.counterOk (fieldLE d 12 4) (fieldLE d 7 1) then 0x06
  else 0

/-- A request that passes is verified for 41 tk; its outcome appears in subindex 2 (R360, R393). -/
def lifecycleRequest (ep : Nat) (d : Bytes) (s : State) : DStat × State :=
  let code := s.requestRefusal ep d
  if code ≠ 0 then (.refused, refuseLcs code s)
  else (.pending, s.modLcs fun l => { l with verify := some { data := d, at_ := s.pw.now } })

/-- LIFECYCLE_REQUEST: the object of entry 0x9001 subindex 1. -/
def execLifecycleRequest (r : Req) (d : Bytes) (s : State) : Res :=
  if r.index ≠ 0x9001 || r.sub ≠ 1 then .next s
  else
    .next (endObject r anyRole id (lifecycleRequest r.ep d) s)

/-- Check 0x07: SCRAPPED from BLANK, TESTED, SEALED and RETURN by the vendor, everything else by the owner; a claim under the keys it carries. -/
def State.requestSigned (s : State) (d : Bytes) : Bool :=
  let to_ := fieldLE d 7 1
  let total := fieldLE d 8 4
  let vendor := to_ = 6 && s.signer = 1
  fieldLE d 32 1 = bit vendor &&
    (if to_ = 3 then dualOk (claimOf d).ownEd (claimOf d).ownMl (d.take total) (d.drop total)
     else s.signedBy (bit vendor) (d.take total) (d.drop total))

/-- LIFECYCLE_VERIFY_DONE: 41 tk, and a gate pass before them (R379); an LNONCE that the transition makes can be drawn (R232, log 127). -/
def execLifecycleVerifyDone (s : State) : Res :=
  match s.lcs.verify with
  | none => .next s
  | some v =>
    if !(s.running || s.pw.stage = .udsFailed) || !s.islandDone v.at_ 41 then .next s
    else
      let t := s.modLcs fun l => { l with verify := none }
      if !s.requestSigned v.data then .next (refuseLcs 0x07 t)
      else
        match Lcs.ofCode (fieldLE v.data 7 1) with
        | none => .next t
        | some to_ => .next (if to_.makesLnonce && !s.islandHas 32 then s else transition to_ (fieldLE v.data 12 4) v.data t)

/-- A token's check (R377, R379): the state it serves, and its digest. -/
def State.tokenRefusal (s : State) (sub : Nat) (token : Bytes) : Nat :=
  if s.lcsBusy then 0x02
  else if 8 ≤ s.lcs.badTokens || s.vault.latch then 0x05
  else if (if sub = 1 then s.lcs.state ≠ .blank else s.lcs.state ≠ .tested) then 0x0B
  else if sha3 token ≠ (if sub = 1 then s.lcs.token1 else s.lcs.token2) then 0x0B
  else 0

/-- TOKEN_WRITE, entry 0x9002; a token that matches is taken up when what the transition draws is there (R232, log 127). -/
def execTokenWrite (r : Req) (token : Bytes) (s : State) : Res :=
  if r.index ≠ 0x9002 || !(r.sub = 1 || r.sub = 2) || (s.tokenRefusal r.sub token = 0 && !s.islandHas 32) then .next s
  else
    .next (writeEntry r { host := true, bmc := true } 32 token (fun s =>
      let code := s.tokenRefusal r.sub token
      if code ≠ 0 then
        (.refused, refuseLcs code (s.modLcs fun l => { l with badTokens := l.badTokens + bit (code = 0x0B) }))
      else (.ok, transition (if r.sub = 1 then .tested else .sealed_) 0 token s)) s)

/-! ### The layered identity (R385, R386) -/

def State.deviceSeed (s : State) (kind : Nat) : Bytes :=
  fixLen (if kind = 1 then 48 else 32) (Config.layerSeed (s.lcs.uds.getD []) (ascii "SVRL-DEVID") [] kind)

/-- Bytes 0 to 2,167 of an identity record. -/
def State.identityBody (s : State) (layer : Nat) (seed : Nat → Bytes) : Bytes :=
  [0x53, 0x56, 0x49, 0x44, 1, 0] ++ leBytes 1 layer ++ leBytes 1 s.lcs.state.code ++ fixLen 16 s.ident.unit ++ fixLen 16 s.lcs.estate ++
    (if layer = 2 then fixLen 48 s.ident.fwDigest else List.replicate 48 0) ++ pubOf 1 (seed 0) ++ fixLen 1952 (mldsaPub (seed 2)) ++
    (if layer = 3 then List.replicate 96 0 else pubOf 4 (seed 1))

/-- Island ticks that the boot ROM signs for (log 147). -/
def addRom (n : Nat) (s : State) : State := { s with pw := { s.pw with romUntil := max s.pw.romUntil s.pw.now + n } }

/-- The boot ROM signs a layer's record with the DeviceID keys only when its content, the state it was signed in apart, has changed; a half
that does not verify releases nothing (R138, R163). -/
def certifyLayer (layer : Nat) (seed : Nat → Bytes) (s : State) : State :=
  let body := s.identityBody layer seed
  let old := tget [] s.lcs.records layer
  if old.take 7 = body.take 7 && slice old 8 2160 = body.drop 8 then s
  else
    match dualWith s.deviceSeed body (List.replicate 32 0) (addRom (dualTicks s.deviceSeed body (List.replicate 32 0)) s) with
    | (some sigs, s) => bumpGen 0x9020 layer (s.modLcs fun l => { l with records := tput l.records layer (body ++ sigs) })
    | (none, s) => s

/-- Subindex of entry 0x9020 for the chain of a signature algorithm, 1 Ed25519 or 2 P-384. -/
def chainSub (alg : Nat) : Nat := if alg = 1 then 4 else 5

/-- The alias certificate of a chain, signed with the DeviceID key of its algorithm when its content has changed, and verified before release (R138,
R385, R387). -/
def certifyAlias (alg : Nat) (s : State) : State :=
  let (curve, kind) := if alg = 1 then (1, 0) else (4, 1)
  let pub := pubOf curve (s.deviceSeed kind)
  let tbs := Config.aliasTbs alg (pubOf curve (s.aliasSeed kind)) pub s.ident.fwDigest
  let i := chainSub alg
  if tfind s.lcs.aliasTbs i = some tbs then s
  else
    let (sig, good, ticks) :=
      if alg = 1 then
        let g := edSign (s.deviceSeed 0) tbs
        (g, Config.edVerify pub tbs g, 64)
      else
        let g := (ecdsaSign 4 (s.deviceSeed 1) (sha384 tbs) (List.replicate 48 0)).getD []
        (g, Config.ecdsaVerify 4 pub (sha384 tbs) g, 120)
    match islandCutter good sig (addRom ticks s) with
    | (some g, s) =>
      bumpGen 0x9020 i (s.modLcs fun l =>
        { l with aliasTbs := tput l.aliasTbs i tbs, aliasCert := tput l.aliasCert i (Config.aliasCert alg tbs g) })
    | (none, s) => s

/-- The certificates of a chain as the device holds them: the written ones, then the alias certificate (R387, R393). -/
def State.x509 (s : State) (i : Nat) : Bytes := tget [] s.lcs.records i ++ tget [] s.lcs.aliasCert i

/-- The layers of a unit that has its UDS: the alias, with the certificates that end its chains, and the ledger once an LNONCE is stored. -/
def deriveIdentity (s : State) : State :=
  if s.lcs.uds.isNone then s
  else
    let s := certifyAlias 2 (certifyAlias 1 (certifyLayer 2 s.aliasSeed s))
    if s.lcs.lnonce = [] then s else certifyLayer 3 s.ledgerSeed s

/-- IDENTITY_RECORD_WRITE, entry 0x9020 subindex 1, 4 or 5: by HOST, once, in TESTED (R393). -/
def identityWrite (sub : Nat) (d : Bytes) (s : State) : DStat × State :=
  if s.lcs.state ≠ .tested || tget [] s.lcs.records sub ≠ [] then (.state, s)
  else (.ok, bumpGen 0x9020 sub (s.modLcs fun l => { l with records := tset [] l.records sub d }))

def execIdentityRecordWrite (r : Req) (d : Bytes) (s : State) : Res :=
  if r.index ≠ 0x9020 || !(r.sub = 1 || r.sub = 4 || r.sub = 5) then .next s
  else
    .next (endObject r { host := true } id (identityWrite r.sub d) s)

/-! ### Gallery rights (R388-R392) -/

/-- The mask of the state and variant (R391). -/
def State.galMask (s : State) : Nat :=
  match s.lcs.state with
  | .blank | .tested | .sealed_ => 0xFFFFFF
  | .claimed | .field => if s.ident.variant = .sv6480 then 0 else 0xFFFFFF
  | .ret => 0xFFFFFFFF
  | .scrapped => 0

/-- Rights 2, 3, 5 and 6 need their lease's consent (R390). -/
def State.consented (s : State) : Bool := s.gal.lease.toNat < s.nLease && (s.lease s.gal.lease.toNat).consent

/-- GAL_RIGHTS. -/
def State.galRights (s : State) : BitVec 32 :=
  if s.lcs.state = .blank || s.lcs.state = .tested then 0xFFFFFF
  else BitVec.ofNat 32 (s.gal.grant.toNat &&& s.galMask &&& (if s.consented then 0xFFFFFFFF else 0xFFFFFF93))

/-- A right for GALLERY mode is in force: 0, 1 or 24 to 31. -/
def State.galleryOpen (s : State) : Bool := s.galRights.toNat &&& 0xFF000003 ≠ 0

/-- Check 0x03 of a certificate: fields of R388, reserved rights 0, LEASE named exactly where a right asks for it, and present (R5). -/
def State.certOk (s : State) (d : Bytes) : Bool :=
  let rights := fieldLE d 44 4
  d.length = 3501 && d.take 4 = [0x53, 0x56, 0x44, 0x43] && fieldLE d 4 1 = 1 && fieldLE d 5 1 = 0 && fieldLE d 6 1 ≤ 1 &&
    rights &&& 0xE0FFE000 = 0 && (if rights &&& 0x6C = 0 then fieldLE d 7 1 = 0xFF else fieldLE d 7 1 < s.nLease) && isZero (slice d 80 48)

/-- The signer of a certificate by state (R374); none accepts one elsewhere. -/
def State.certSigner (s : State) : Option Nat :=
  match s.lcs.state with
  | .sealed_ | .ret => some 1
  | .claimed | .field => some 0
  | .blank | .tested | .scrapped => none

def State.certRefusal (s : State) (ep : Nat) (d : Bytes) : Nat :=
  if !(ep ≤ 1 || (s.lcs.state = .field && s.isOfficer ep)) then 0x01
  else if s.lcsBusy then 0x02
  else if !s.certOk d then 0x03
  else if slice d 12 16 ≠ fixLen 16 s.ident.unit then 0x04
  else if s.vault.latch then 0x05
  else if fieldLE d 8 4 ≠ s.lcs.count then 0x06
  else if s.certSigner ≠ some (fieldLE d 6 1) || !s.signedBy (fieldLE d 6 1) (d.take 128) (d.drop 128) then 0x07
  else if s.ident.variant = .sv6480 && (s.lcs.state = .claimed || s.lcs.state = .field) then 0x08
  else if s.time64.toNat < fieldLE d 28 8 || fieldLE d 36 8 < s.time64.toNat then 0x09
  else if slice d 48 32 ≠ fixLen 32 s.gal.chal then 0x0A
  else 0

/-- The rights lapse: GAL_GRANT is 0 and event 57 is raised where a certificate stood. -/
def lapseNow (s : State) : State := if s.gal.cert = [] then lapseGallery s else raiseIsland 57 (lapseGallery s)

/-- An empty write revokes; an accepted certificate replaces the previous one and is recorded (R388). -/
def galleryCert (ep : Nat) (d : Bytes) (s : State) : DStat × State :=
  if d = [] then
    (if ep ≤ 1 || (s.lcs.state = .field && s.isOfficer ep) then (.ok, lapseNow s) else (.denied, s))
  else
    let code := s.certRefusal ep d
    if code ≠ 0 then (.refused, raiseIsland 54 (s.modGal fun g => { g with refusal := code }))
    else
      let r : LRec := { kind := .cert, from_ := s.lcs.state.code, to_ := s.lcs.state.code, counter := s.lcs.count, digest := sha384 d, lnonce := [] }
      let s := s.modLcs fun l => { l with journal := l.journal ++ [r] }
      let s := s.modGal fun g => { g with cert := d, grant := BitVec.ofNat 32 (fieldLE d 44 4), lease := BitVec.ofNat 8 (fieldLE d 7 1) }
      (.ok, bumpGen 0x9010 1 (bumpGen 0x9021 0 (raiseIsland 57 s)))

/-- GALLERY_CERT_WRITE: the object of entry 0x9010 subindex 1; while a pass runs a certificate is refused with BUSY (R379, R388). -/
def execGalleryCertWrite (r : Req) (d : Bytes) (s : State) : Res :=
  if r.index ≠ 0x9010 || r.sub ≠ 1 then .next s
  else
    .next (endObject r anyRole id (galleryCert r.ep d) s)

/-- GALLERY_RIGHTS_LAPSE: the RTC has come to NOT_AFTER. -/
def execGalleryRightsLapse (s : State) : Res :=
  if s.gal.cert ≠ [] && fieldLE s.gal.cert 36 8 ≤ s.time64.toNat && s.islandRuns then .next (lapseNow s) else .next s

/-- GALLERY_CONSENT_WRITE, entry 0x9011: each lease its own subindex; another lease's answers NO_ENTRY (R390). -/
def execGalleryConsentWrite (r : Req) (value : Bytes) (s : State) : Res :=
  if r.index ≠ 0x9011 || r.sub = 0 || 64 < r.sub then .next s
  else
    .next (request r 0x03 (fun s =>
      let k := r.sub - 1
      let own := ownRole r.ep = .lease k
      let other := match ownRole r.ep with | .lease _ => !own | _ => false
      if s.nLease ≤ k || other then (.noEntry, [], s)
      else if !own then (.denied, [], s)
      else if value.length ≠ 1 then (.type, [], s)
      else if 2 ≤ leNat value then (.range, [], s)
      else (.ok, [], s.modLease k fun l => { l with consent := leNat value = 1 })) s value.length)

/-- GAL_GRANT: RIGHTS and LEASE as written (R392). -/
def galGrant (v : BitVec 64) (s : State) : State :=
  s.modGal fun g => { g with grant := v.setWidth 32, lease := BitVec.ofNat 8 (v.toNat / 2 ^ 32) }

def execGalGrantWrite (v : BitVec 64) (s : State) : Res := if s.islandRuns then .next (galGrant v s) else .next s

/-! ### FLT_INJ (R433) -/

/-- Inject an event under right 9; without it, event 58 alone. -/
def inject (event : Nat) (s : State) : State :=
  if !s.galRights.getLsbD 9 then raiseIsland 58 s
  else raiseInj event (if 0x380 ≤ event && event < 0x3C0 then event - 0x380 else 0xFF) true s

def execFltInjGo (event : BitVec 11) (s : State) : Res := if s.islandRuns then .next (inject event.toNat s) else .next s

end Sys2Proof.Machine
end

