-- ==== Sys2Proof/Machine/Flash.lean ====
section
/-! DEFINITION. Package flash: its map, reads, commands, protections, the swap of the boot copies, power loss (R446-R468). -/

namespace Sys2Proof.Machine
open Sys2Proof

def State.modPfl (s : State) (f : Pfl → Pfl) : State := { s with pfl := f s.pfl }

/-! ### The map (R446, R461) -/

def flashBase : Nat := 0x40000000
def flashSize : Nat := 0x4000000

/-- The physical offset of a logical one: the swap state selects the boot copy at the active offsets. -/
def Pfl.phys (p : Pfl) (o : Nat) : Nat :=
  if o < 0x40000 then o + 0x40000 * p.active.toNat
  else if o < 0x80000 then o - 0x40000 + 0x40000 * (1 - p.active.toNat)
  else o

/-- The byte at a physical offset that a command has programmed; 0xFF where none has (log 7). -/
def Pfl.byte (p : Pfl) (o : Nat) : Byte := tget 0xFF p.die o

/-- The offset lies in what a power loss has left undefined. -/
def Pfl.isUndef (p : Pfl) (o : Nat) : Bool := p.undef.any fun r => r.1 ≤ o && o < r.2

/-! ### What the stores of the device hold in the die (R447, log 16): each part of a record, at its physical offset -/

abbrev Piece := Nat × Bytes

/-- A slot of the ledger: the record from its first byte, and the commit (R264). -/
def LSlot.pieces (i : Nat) (x : LSlot) : List Piece := [(0x1000000 + 8192 * i, x.record), (0x1000000 + 8192 * i + 8160, x.commit)]

/-- Record i of a half of the yard store (R218). -/
def StoreRec.pieces (half i : Nat) (r : StoreRec) : List Piece :=
  [(0x3000000 + 0x400000 * half + 256 * i, r.body), (0x3000000 + 0x400000 * half + 256 * i + 192, r.commit)]

/-- The commit that ends a copy of `size` bytes whose body is `b` (R250, R295, log 16). -/
def copyCommit (at_ size : Nat) (b : Bytes) : Piece :=
  (at_ + size - 32, if b = [] then [] else (List.range 32).map (Config.commitByte b))

/-- Copy c of the program of lease k (R295). -/
def programCopy (k c : Nat) (image : Bytes) : List Piece :=
  let o := 0x3800000 + 0x14000 * k + 0xA000 * c
  [(o, image), copyCommit o 0xA000 image]

/-- The other copy of lease k: a body without its commit, or what it holds of an older image. -/
def Lease.otherCopy (k : Nat) (l : Lease) : List Piece :=
  if l.body ≠ [] then [(0x3800000 + 0x14000 * k + 0xA000 * (1 - l.copy), l.body)] else programCopy k (1 - l.copy) l.old

/-- An entry of the tamper log (R405). -/
def TamperBody.pieces (e : TamperBody) : List Piece :=
  [(0x3D00000 + 128 * (e.seq - 1), e.body), (0x3D00000 + 128 * (e.seq - 1) + 96, e.commit)]

/-- Record i of a half of the custodian journal (R331). -/
def CRec.pieces (half i : Nat) (r : CRec) : List Piece :=
  let o := 0x3D80000 + 0x80000 * half + 320 * i
  if r.kind = 0 then [] else [(o, r.bytes), (o + 256, r.commit)]

/-- Manifest copy c (R250). -/
def manifestCopy (c : Nat) (m : Bytes) : List Piece := [(0x3F20000 + 0x8000 * c, m), copyCommit (0x3F20000 + 0x8000 * c) 0x8000 m]

/-- The other manifest copy: a body without its commit, or the older manifest. -/
def Ldg.otherCopy (l : Ldg) : List Piece :=
  if l.manBody ≠ [] then [(0x3F20000 + 0x8000 * (1 - l.manCopy), l.manBody)] else manifestCopy (1 - l.manCopy) l.other

/-- Everything that the stores with a layout hold. -/
def State.stores (s : State) : List Piece :=
  (s.ldg.slots.flatMap fun (e : Nat × LSlot) => e.2.pieces e.1) ++ (s.yard.store.zipIdx.flatMap fun e => e.1.pieces s.yard.side e.2) ++
    (s.leases.flatMap fun (e : Nat × Lease) => programCopy e.1 e.2.copy e.2.image ++ e.2.otherCopy e.1) ++
    s.vault.log.flatMap TamperBody.pieces ++ (s.cust.journal.zipIdx.flatMap fun e => e.1.pieces s.cust.side e.2) ++
    manifestCopy s.ldg.manCopy s.ldg.manifest ++ s.ldg.otherCopy

/-- The byte that a store holds at a physical offset. -/
def State.storeByte (s : State) (o : Nat) : Option Byte :=
  (s.stores.find? fun e => e.1 ≤ o && o < e.1 + e.2.length).map fun e => e.2.getD (o - e.1) 0

/-- Dictionary store, life-cycle journal, identity region and ledger key store: the spec gives their records no layout, so that their bytes are free
(log 16). -/
def unlaid (o : Nat) : Bool := (0x3E80000 ≤ o && o < 0x3F20000) || (0x3F30000 ≤ o && o < 0x3F80000)

/-- The image that a boot block was shipped with holds the offset. -/
def Pfl.shipped (p : Pfl) (o : Nat) : Option Image :=
  if o < 0x80000 then (p.boot[o / 0x40000]?).filter fun x => !x.gone.any fun r => r.1 ≤ o % 0x40000 && o % 0x40000 < r.2 else none

/-- The byte at a physical offset; none where it is free: undefined after a power loss (R460), or in a store without a layout. -/
def State.dieByte (s : State) (o : Nat) : Option Byte :=
  if s.pfl.isUndef o then none
  else if tget false s.pfl.written (o / 32) then some (s.pfl.byte o)
  else if unlaid o then none
  else
    match s.storeByte o, s.pfl.shipped o with
    | some b, _ => some b
    | none, some x => some (Config.imageByte x.digest (o % 0x40000))
    | none, none => some 0xFF

/-- What a read of n bytes at a logical offset delivers. -/
def flashBytes (o n : Nat) (s : State) : Bytes × State :=
  let b := (List.range n).map fun i => (s.dieByte (s.pfl.phys (o + i))).getD (Config.freeByte (s.pw.free + i))
  (b, if (List.range n).any fun i => (s.dieByte (s.pfl.phys (o + i))).isNone then s.useFree n else s)

/-! ### Erasing what the stores hold -/

/-- One of the pieces lies in the range, in part or as a whole. -/
def touches (a b : Nat) (l : List Piece) : Bool := l.any fun e => e.2 ≠ [] && a < e.1 + e.2.length && e.1 < b

/-- The stores without the records of which the range holds a part: without their commits or bodies they are records no longer (R460). -/
def dropStores (a b : Nat) (s : State) : State :=
  let l := s.ldg
  let gone := fun (p : List Piece) (x : Bytes) => if touches a b p then [] else x
  { s with
    ldg := { l with slots := l.slots.filter fun (e : Nat × LSlot) => !touches a b (e.2.pieces e.1),
                    manifest := gone (manifestCopy l.manCopy l.manifest) l.manifest,
                    other := gone l.otherCopy l.other, manBody := gone l.otherCopy l.manBody }
    yard := { s.yard with store := s.yard.store.zipIdx.map fun (e : StoreRec × Nat) =>
                if touches a b (e.1.pieces s.yard.side e.2) then { e.1 with key := none, body := [], commit := [], dead := true } else e.1 }
    leases := s.leases.map fun (e : Nat × Lease) =>
      (e.1, { e.2 with image := gone (programCopy e.1 e.2.copy e.2.image) e.2.image, body := gone (e.2.otherCopy e.1) e.2.body,
                       old := gone (e.2.otherCopy e.1) e.2.old })
    vault := { s.vault with log := s.vault.log.filter fun e => !touches a b e.pieces }
    cust := { s.cust with journal := s.cust.journal.zipIdx.map fun (e : CRec × Nat) =>
                if touches a b (e.1.pieces s.cust.side e.2) then { e.1 with kind := 0, commit := [] } else e.1 } }

/-- The die holds these pieces as bytes of no record. -/
def Pfl.leave (l : List Piece) (p : Pfl) : Pfl :=
  l.foldl (fun p e => (List.range e.2.length).foldl (fun p i =>
    { p with die := tset 0xFF p.die (e.1 + i) (e.2.getD i 0), written := tset false p.written ((e.1 + i) / 32) true }) p) p

/-- The physical offsets from a up to but not including b are erased; what other sectors hold of the records stays there. -/
def eraseRange (a b : Nat) (s : State) : State :=
  let t := dropStores a b s
  t.modPfl fun p => (p.leave (s.stores.filter fun e => !t.stores.contains e)).erase a b

/-! ### Operating points and wait states (R450) -/

/-- The operating point in force: 0 while the boot ROM starts. -/
def State.flashPoint (s : State) : Nat := if s.pw.stage = .wipe || s.pw.stage = .rom then 0 else if s.pw.vflHigh then 1 else 2

def pointMin (p : Nat) : Nat := if p = 0 then 0 else if p = 1 then 3 else 5

def State.flashWs (s : State) : Nat := max s.pfl.ws.toNat (pointMin s.flashPoint)

/-- WS below the minimum of the point in force is clamped: event 8. -/
def clampWs (s : State) : State :=
  if s.pfl.ws.toNat < pointMin s.flashPoint then raiseFlash 8 (s.modPfl fun p => { p with clamped := true }) else s

/-- VFL_BAND_CHANGE: the supply is in its high or low band. -/
def execVflBandChange (high : Bool) (s : State) : Res :=
  if s.pw.stage = .off || s.pw.vflHigh = high then .next s
  else .next (clampWs { s with pw := { s.pw with vflHigh := high } })

/-- PFL_WS.WS. -/
def writeWs (v : BitVec 3) (s : State) : State := clampWs (s.modPfl fun p => { p with ws := v })

/-! ### Busy banks (R451, R455) -/

/-- An operation or a swap-pair write is running. -/
def Pfl.busy (p : Pfl) : Bool := p.op.isSome || p.swapping.isSome

/-! ### Reads (R449, R451, R459) -/

/-- What the ECC of a fetched line reports: events 7, 5, or 6 for an instruction fetch; the first uncorrectable offset is kept. -/
def lineEcc (e : LineEcc) (fetch : Bool) (line : Nat) (s : State) : State :=
  match e with
  | .clean => s
  | .corrected => raiseFlash 7 (s.modPfl fun p => { p with ce := satAdd p.ce 1 })
  | .uncorrectable =>
    raiseFlash (if fetch then 6 else 5) (s.modPfl fun p =>
      { p with uec := satAdd p.uec 1, ueAddr := if p.ue then p.ueAddr else BitVec.ofNat 26 (32 * line), ue := true })

/-- Bench cycles of a read: none in the line last fetched, else four for each wait state (R449). -/
def State.lineCost (s : State) (c o : Nat) : Nat := if tget 0 s.pfl.lines c = o / 32 + 1 then 0 else 4 * s.flashWs

/-- A read of n bytes inside one line by island core c, 66 for the gallery: the ECC of the line as it is fetched. -/
def flashRead (c o n : Nat) (fetch : Bool) (e : LineEcc) (s : State) : Bus × State :=
  if s.bankBusy (o / 0x1000000) then (.bankBusy, raiseFlash 4 s)
  else
    let fresh := tget 0 s.pfl.lines c ≠ o / 32 + 1
    let s := if fresh then lineEcc e fetch (o / 32) (s.modPfl fun p =>
      { p with lines := tput p.lines c (o / 32 + 1), ecc := tset .clean p.ecc (p.phys o / 32) e }) else s
    let (b, s) := flashBytes o n s
    (.ok b, s)

/-- How the ECC of the line of a logical offset comes out where no command says it: as last found; free where the line is undefined (R460, log 80). -/
def State.foundEcc (s : State) (o : Nat) : LineEcc :=
  let a := s.pfl.phys o
  if (List.range 32).any fun i => s.pfl.isUndef (a / 32 * 32 + i) then
    (match Config.lineOutcome (a / 32) s.pw.now % 3 with | 0 => .clean | 1 => .corrected | _ => .uncorrectable)
  else tget .clean s.pfl.ecc (a / 32)

/-- FLASH_READ: by an island core; from another master DECODE (R15, R446). -/
def execFlashRead (m : Master) (o n : Nat) (fetch : Bool) (e : LineEcc) (s : State) : Res :=
  if !s.islandRuns || flashSize < o + n || o / 32 ≠ (o + n - 1) / 32 then .next s
  else
    match m with
    | .island c =>
      let (b, t) := flashRead c o n fetch e s
      .next { t with out := { t.out with bus := b } }
    | _ => .next (raiseIsland 48 { s with out := { s.out with bus := .decode } })

/-! ### Commands (R452-R457) -/

/-- The event of a status (R454). -/
def statusEvent (st : Nat) : Nat := if st ≤ 3 then 0 else if st = 4 then 1 else if st = 5 then 2 else if st = 6 then 12 else 3

/-- A command ends with a status other than OK. -/
def flashEnd (st : Nat) (s : State) : State := raiseFlash (statusEvent st) (s.modPfl fun p => { p with res := st, err := true })

/-- A command is refused at its starting write, or its sequence is broken: the sequence is disarmed. -/
def flashRefuse (st : Nat) (s : State) : State := flashEnd st (s.modPfl fun p => { p with seq := .idle })

/-- R457. -/
def State.flashProtected (s : State) (code o : Nat) : Bool :=
  if code = 0x2F then s.lcs.pend ≠ some .scrapped
  else o < 0x40000 || (0x80000 ≤ o && o < 0x1000000) || (code = 0x20 && 0x3D00000 ≤ o && o < 0x3D80000)

/-- An ABS window of island core c with X maps bank b (R309). -/
def Core.executesBank (x : Core) (b : Nat) : Bool :=
  x.win.any fun (e : Nat × BitVec 64) =>
    let w := e.2.toNat
    let lo := w / 2 ^ 40 % 2 ^ 24 * 256
    let hi := lo + (w / 2 ^ 32 % 256 + 1) * 256
    w % 256 = 3 && w / 2 ^ 10 % 2 = 1 && lo < flashBase + (b + 1) * 0x1000000 && flashBase + b * 0x1000000 < hi

def State.ownBank (s : State) (code o : Nat) : Bool :=
  [64, 65].any fun c => (List.range 4).any fun b => (code = 0x2F || b = o / 0x1000000) && (s.core c).executesBank b

/-- Every bit of the unit is erased. A free bit decides in what a power loss left undefined, in a store without a layout, and in a shipped image
(R456, R460, log 16). -/
def State.unitErased (s : State) (o : Nat) : Bool :=
  let a := s.pfl.phys o
  let free := (Config.freeByte s.pw.free).getLsbD 0
  if s.pfl.isUndef a then free
  else if tget false s.pfl.written (a / 32) then false
  else if unlaid a || (s.pfl.shipped a).isSome then free
  else (List.range 32).all fun i => (s.storeByte (a + i)).isNone

/-- The operation that a command that passed becomes (R453, R456). -/
def State.flashOp (s : State) (code o : Nat) (data : Bytes) (at_ : Nat) : FlashOp :=
  let bad := code = 0x10 && !s.unitErased o
  { code := code, addr := o, data := data, startAt := at_, notErased := bad, phys := s.pfl.phys o,
    left := if bad then 32 else if code = 0x10 then 12000 else if code = 0x20 then 8000000 else 32000000 }

/-- The starting write of a command (R454, R455). -/
def flashStart (code o : Nat) (data : Bytes) (s : State) : State :=
  let aligned := if code = 0x10 then o % 32 = 0 else if code = 0x20 then o % 4096 = 0 else o = 0
  if !(code = 0x10 || code = 0x20 || code = 0x2F) then flashRefuse 2 s
  else if !aligned then flashRefuse 3 s
  else if s.flashProtected code o then flashRefuse 4 s
  else if s.ownBank code o then flashRefuse 5 s
  else if s.pfl.busy && s.pfl.queued.isSome then flashRefuse 6 s
  else
    let t := s.modPfl fun p => { p with seq := .idle }
    if s.pfl.busy then t.modPfl fun p => { p with queued := some { code := code, addr := o, data := data, left := 0, startAt := 0 } }
    else (t.useFree 1).modPfl fun p => { p with op := some (s.flashOp code o data (s.pw.now + 1)), carry := 0 }

/-- A write of KEY_0, KEY_1, CMD or ADDR, by its offset, that advances the sequence, starts an erase, or ends the command with KEY. -/
def flashSequence (off : Nat) (v : BitVec 32) (s : State) : State :=
  let set := fun (q : PSeq) => s.modPfl fun p => { p with seq := q }
  match s.pfl.seq, off with
  | .idle, 0x00 => if v.toNat % 2 ^ 16 = 0x00A5 then set .key0 else flashRefuse 1 s
  | .key0, 0x04 => if v.toNat % 2 ^ 16 = 0x005A then set .key1 else flashRefuse 1 s
  | .key1, 0x08 => set (.cmd (v.toNat % 256))
  | .cmd c, 0x0C =>
    let a := v.toNat % flashSize
    if c = 0x10 then set (.addr c a) else flashStart c a [] s
  | _, _ => flashRefuse 1 s

/-- PFL_SEQUENCE_WRITE. -/
def execPflSequenceWrite (off : Nat) (v : BitVec 32) (s : State) : Res :=
  if s.islandRuns && (off = 0 || off = 4 || off = 8 || off = 12) then .next (flashSequence off v s) else .next s

/-- A write of PFL_BUF_i: in the PROGRAM step the bytes wait, and the write of PFL_BUF_7 starts the command with what all eight hold. -/
def flashBuf (i : Nat) (v : BitVec 32) (s : State) : State :=
  let t := s.modPfl fun p => { p with buf := p.buf.setIfInBounds i v }
  match s.pfl.seq with
  | .addr c a => if i = 7 then flashStart c a (t.pfl.buf.toList.flatMap fun w => leBytes 4 w.toNat) t else t
  | _ => flashRefuse 1 t

/-- PROGRAM: the eight data writes of its sequence. -/
def execProgram (data : Vector (BitVec 32) 8) (s : State) : Res :=
  if s.islandRuns then .next (forN 8 (fun i t => flashBuf i (data[i]?.getD 0) t) s) else .next s

/-- The sequence is armed for an erase: its PFL_ADDR write is what follows. -/
def eraseWrite (code o : Nat) (s : State) : State :=
  match s.pfl.seq with
  | .cmd c => if c = code then flashStart code o [] s else flashRefuse 1 s
  | _ => flashRefuse 1 s

def execEraseSector (o : Nat) (s : State) : Res := if s.islandRuns then .next (eraseWrite 0x20 o s) else .next s
def execEraseChip (o : Nat) (s : State) : Res := if s.islandRuns then .next (eraseWrite 0x2F o s) else .next s

/-! ### The end of an operation (R455, R456) -/

/-- Line buffers that hold a byte of the logical range go (R449). -/
def dropLinesIn (o n : Nat) (p : Pfl) : Pfl :=
  { p with lines := p.lines.filter fun (e : Nat × Nat) => !(o / 32 < e.2 && e.2 ≤ (o + n - 1) / 32 + 1) }

/-- The unit at a physical offset is programmed. A boot block that a command has changed is not the shipped one. -/
def Pfl.program (a : Nat) (data : Bytes) (p : Pfl) : Pfl :=
  let spoil := fun (c : Nat) (x : Image) => if a / 0x40000 = c then { x with good := false } else x
  { p with die := (List.range 32).foldl (fun d i => tset 0xFF d (a + i) (data.getD i 0)) p.die,
           written := tset false p.written (a / 32) true, ecc := tdel p.ecc (a / 32), boot := #v[spoil 0 p.boot[0], spoil 1 p.boot[1]] }

/-- What the operation leaves in the die at its end. ERASE_CHIP has erased each bank at the end of the bank's own time. -/
def FlashOp.apply (x : FlashOp) (s : State) : State :=
  if x.notErased || x.code = 0x2F then s
  else if x.code = 0x10 then s.modPfl fun p => dropLinesIn x.addr 32 (p.program x.phys x.data)
  else (eraseRange x.phys (x.phys + 4096) s).modPfl (dropLinesIn x.addr 4096)

/-- A queued command starts: it is checked again against orders 4 and 5, and takes what the ended one left of the tick (R455). -/
def startQueued (s : State) : State :=
  match s.pfl.queued with
  | none => s
  | some q =>
    let t := s.modPfl fun p => { p with queued := none, carry := 0 }
    if s.flashProtected q.code q.addr then flashEnd 4 t
    else if s.ownBank q.code q.addr then flashEnd 5 t
    else
      let x := s.flashOp q.code q.addr q.data s.pw.now
      (t.useFree 1).modPfl fun p => { p with op := some { x with left := x.left - s.pfl.carry } }

/-- Island firmware issues the next command of an update once the controller is free, from model tick `at_`. Where a window on bank 0 carries X, it is
refused, and the update's STORE check fails (R464, R465, log 37). -/
def startOwn (at_ : Nat) (s : State) : State :=
  match s.pfl.updTodo with
  | [] => s
  | q :: rest =>
    if s.pfl.busy then s
    else if s.ownBank q.code q.addr then flashEnd 5 (s.modPfl fun p => { p with updTodo := [], updErase := 0, updBad := true })
    else
      let x := { s.flashOp q.code q.addr q.data at_ with own := true }
      let late := if at_ ≤ s.pw.now then s.pfl.carry else 0
      (s.useFree 1).modPfl fun p => { p with updTodo := rest, carry := 0, op := some { x with left := x.left - late } }

/-- FLASH_OP_END. -/
def execFlashOpEnd (s : State) : Res :=
  match s.pfl.op with
  | none => .next s
  | some x =>
    if 0 < x.left || s.pw.now ≤ x.startAt then .next s
    else
      let t := (x.apply s).modPfl fun p => { p with op := none }
      let t := if x.notErased then flashEnd 7 t else t.modPfl fun p => { p with res := 0 }
      let t := if x.own then t.modPfl fun p => { p with updErase := if x.code = 0x20 then p.updErase - 1 else p.updErase,
                                                        updBad := p.updBad || x.notErased } else t
      .next (startOwn s.pw.now (startQueued t))

/-- One tick of the flash controller, 512 of its cycles, or 4,096 in STANDBY (R438, R453, R461): the running operation, which begins at the start of a
tick, and the swap-pair write. Each bank of ERASE_CHIP is erased when its own time has passed. -/
def flashTick (s : State) : State :=
  let cc := if s.mainPower then 512 else 4096
  let p := s.pfl
  let runs := fun (o : FlashOp) => o.startAt ≤ s.pw.now
  let carry := match p.op with
    | some o => if runs o && 0 < o.left && o.left < cc then cc - o.left else p.carry
    | none => 0
  let t := s.modPfl fun p => { p with op := p.op.map fun o => if runs o then { o with left := o.left - cc } else o, carry := carry,
                                      swapping := p.swapping.map fun n => n - cc }
  match p.op with
  | some o =>
    if !runs o || o.code ≠ 0x2F then t
    else
      let banks := fun (left : Nat) => (32000000 - left) / 8000000
      forEach ((List.range 4).filter fun b => banks o.left ≤ b && b < banks (o.left - cc)) (fun b t =>
        (eraseRange (b * 0x1000000) ((b + 1) * 0x1000000) t).modPfl (dropLinesIn (b * 0x1000000) 0x1000000)) t
  | none => t

/-! ### The swap pair (R461) -/

/-- PFL_SWAP.GO: QFULL while BUSY; ignored while SWPEND; event 9. Any PFL write in a sequence breaks it. -/
def flashSwap (go : Bool) (s : State) : State :=
  let s := if s.pfl.seq = .idle then s else flashRefuse 1 s
  if !go then s
  else if s.pfl.busy then flashRefuse 6 s
  else if s.pfl.swpend then s
  else raiseFlash 9 (s.modPfl fun p => { p with swapping := some 8012000 })

def execPflSwapGo (s : State) : Res := if s.islandRuns then .next (flashSwap true s) else .next s

/-- Counter + 1 goes over the copy with the lower counter, or over the invalid one. -/
def Pfl.bumpPair (p : Pfl) : Pfl :=
  let n := some (swapOf p.pairA p.pairB + 1)
  let overA := match p.pairA, p.pairB with
    | none, _ => true
    | some _, none => false
    | some x, some y => (y - x).toNat < 2 ^ 15
  if overA then { p with pairA := n } else { p with pairB := n }

/-- SWAP_PAIR_WRITE_END: SWPEND is 1 and the exchange comes at the next reset; after the boot ROM's own write, RESET_WIPE_END makes that reset. -/
def execSwapPairWriteEnd (s : State) : Res :=
  match s.pfl.swapping with
  | none => .next s
  | some n =>
    if 0 < n then .next s
    else .next (startOwn s.pw.now (startQueued (s.modPfl fun p => { p.bumpPair with swapping := none, swpend := true })))

/-! ### Power loss (R460, R461) -/

/-- What an operation cut off by a power loss leaves undefined. -/
def FlashOp.cut (x : FlashOp) (s : State) : State :=
  if x.notErased then s
  else
    let b := (32000000 - x.left) / 8000000
    let r := if x.code = 0x10 then (x.phys, x.phys + 32) else if x.code = 0x20 then (x.phys, x.phys + 4096) else (b * 0x1000000, (b + 1) * 0x1000000)
    (eraseRange r.1 r.2 s).modPfl fun p => { p with undef := p.undef ++ [r] }

/-- The running operation is cut off; a swap-pair write leaves its copy invalid. -/
def flashPowerLoss (s : State) : State :=
  let s := match s.pfl.op with | some x => if x.startAt ≤ s.pw.now then x.cut s else s | none => s
  s.modPfl fun p =>
    let p := match p.swapping with
      | none => p
      | some _ => match p.pairA, p.pairB with
        | none, _ => p
        | some _, none => p
        | some x, some y => if (y - x).toNat < 2 ^ 15 then { p with pairA := none } else { p with pairB := none }
    { p with op := none, queued := none, swapping := none }

/-! ### Firmware images and the update (R462-R465) -/

/-- The fields of R462 in an image of `total` bytes that a command has written. -/
def imageFormat (total : Nat) (d : Bytes) : Bool :=
  let n := fieldLE d 8 4
  d.length = total && d.take 4 = [0x53, 0x56, 0x46, 0x57] && fieldLE d 4 1 = 1 && fieldLE d 5 1 = 0 && fieldLE d 6 2 = 0 &&
    64 ≤ n && n ≤ 258771 && total = n + 3373 && isZero (slice d 32 32)

/-- UNIT is zero or this unit's. -/
def State.imageUnit (s : State) (d : Bytes) : Bool := isZero (slice d 16 16) || slice d 16 16 = fixLen 16 s.ident.unit

/-- Both signatures of the image verify under the vendor keys. -/
def State.imageSigned (s : State) (d : Bytes) : Bool := dualOk s.ident.vendorEd s.ident.vendorMl (d.take (fieldLE d 8 4)) (d.drop (fieldLE d 8 4))

/-- The n bytes from a physical offset, where none of them is free. -/
def State.dieBytes (s : State) (a n : Nat) : Option Bytes := (List.range n).mapM fun i => s.dieByte (a + i)

/-- The image that the boot ROM accepts in physical copy c: the one the block was shipped with, or one in the die's bytes that passes R462's layout,
the unit and the signatures. SVN is not checked (R463). -/
def State.image (s : State) (c : Nat) : Option Image :=
  let x := s.pfl.boot[c]?.getD {}
  if x.good then some x
  else
    match s.dieBytes (0x40000 * c) 64 with
    | none => none
    | some h =>
      let total := fieldLE h 8 4 + 3373
      if h.take 4 ≠ [0x53, 0x56, 0x46, 0x57] || 262144 < total then none
      else
        match s.dieBytes (0x40000 * c) total with
        | none => none
        | some d =>
          if imageFormat total d && s.imageUnit d && s.imageSigned d
          then some { svn := fieldLE d 12 4, version := Config.imageVersion d, digest := sha384 d } else none

/-- An update refused: subindex 2, event 13. -/
def refuseUpdate (code : Nat) (s : State) : State := raiseFlash 13 ((endUpdate s).modPfl fun p => { p with refusal := code })

/-- A window without X where it is an ABS window on bank 0. -/
def dropExec (w : BitVec 64) : BitVec 64 :=
  let lo := w.toNat / 2 ^ 40 % 2 ^ 24 * 256
  let hi := lo + (w.toNat / 2 ^ 32 % 256 + 1) * 256
  if w.toNat % 256 = 3 && lo < flashBase + 0x1000000 && flashBase < hi then w &&& ~~~(BitVec.ofNat 64 (2 ^ 10)) else w

/-- Island firmware goes on from island SRAM: no window of an island core on bank 0 carries X (R465, log 37). -/
def leaveBank (s : State) : State :=
  forEach [64, 65] (fun c t => t.modCore c fun x => { x with win := x.win.map fun (e : Nat × BitVec 64) => (e.1, dropExec e.2) }) s

/-- Commands of an update: code, logical offset, data. -/
def ownCmd (code o : Nat) (data : Bytes) : FlashOp := { code := code, addr := o, data := data, left := 0, startAt := 0 }

/-- Commands join those that island firmware has still to issue. -/
def pushOwn (l : List FlashOp) (s : State) : State := startOwn (s.pw.now + 1) (s.modPfl fun p => { p with updTodo := p.updTodo ++ l })

/-- Check 0x01 of R464. -/
def State.updateBusy (s : State) : Bool := s.lcs.pend.isSome || s.lcs.verify.isSome || s.flg.pass.isSome

/-- SEG_WRITE_START of entry 0x9030: the 64 sectors of the twin are to be erased, PENDING; TOTAL above 262,144 is TOO_LARGE, 0 is FORMAT. -/
def updateStart (total : Nat) (s : State) : DStat × State :=
  if 262144 < total then (.tooLarge, s)
  else if s.pfl.upd.isSome || s.updateBusy then (.refused, raiseFlash 13 (s.modPfl fun p => { p with refusal := 0x01 }))
  else if total = 0 then (.refused, refuseUpdate 0x03 s)
  else
    let s := (leaveBank s).modPfl fun p => { p with upd := some (total, []), updErase := 64, updBad := false, updEnd := none }
    (.pending, pushOwn ((List.range 64).map fun i => ownCmd 0x20 (0x40000 + 4096 * i) []) s)

/-- The program commands for the units from lo up to but not including hi; the last one padded with 0xFF. -/
def unitCmds (d : Bytes) (lo hi : Nat) : List FlashOp :=
  (List.range (hi - lo)).map fun i =>
    let b := (d.drop (32 * (lo + i))).take 32
    ownCmd 0x10 (0x40000 + 32 * (lo + i)) (b ++ List.replicate (32 - b.length) 0xFF)

/-- SEG_WRITE of entry 0x9030: BUSY while the sectors erase; in order, and not past TOTAL. Each unit is programmed as it completes. -/
def updateData (off : Nat) (d : Bytes) (s : State) : DStat × State :=
  match s.pfl.upd with
  | none => (.noSession, s)
  | some (total, got) =>
    if 0 < s.pfl.updErase then (.busy, s)
    else if off ≠ got.length then (.noSession, s)
    else if total < off + d.length then (.noSession, endUpdate s)
    else
      let all := got ++ d
      (.ok, pushOwn (unitCmds all (got.length / 32) (all.length / 32)) (s.modPfl fun p => { p with upd := some (total, all) }))

/-- The image's check, in the order of R464; 0 for none. -/
def State.imageRefusal (s : State) (total : Nat) (d : Bytes) : Nat :=
  if s.updateBusy then 0x01
  else if !imageFormat total d then 0x03
  else if !s.imageUnit d then 0x04
  else if !s.imageSigned d then 0x05
  else if fieldLE d 12 4 < s.pfl.svn then 0x06
  else 0

/-- SEG_WRITE_END of entry 0x9030: the last unit is programmed, and the check follows when every command has ended, PENDING. `stored` is whether what
is then read back is what was written. -/
def updateEnd (r : Req) (stored : Bool) (s : State) : DStat × State :=
  match s.pfl.upd with
  | none => (.noSession, s)
  | some (_, d) =>
    if 0 < s.pfl.updErase then (.busy, s)
    else if s.pfl.updEnd.isSome then (.noSession, s)
    else
      let v := s.epVersion r.ep
      (.pending, pushOwn (unitCmds d (d.length / 32) (ceilDiv d.length 32)) (s.modPfl fun p => { p with updEnd := some (r, v, stored) }))

/-- The end of a tick in which the commands of an update have all ended: the twin is read back and checked, and the swap requested (a swap that is
refused counts as a command that did not end OK), with the answer OK (log 37). -/
def updateTick (s : State) : State :=
  match s.pfl.upd, s.pfl.updEnd with
  | some (total, d), some (r, v, stored) =>
    if s.pfl.updTodo ≠ [] || s.pfl.op.any FlashOp.own then s
    else
      let code := s.imageRefusal total d
      let code := if code = 0 && (s.pfl.updBad || !stored) then 0x07 else code
      if code ≠ 0 then refuseUpdate code s
      else
        let t := flashSwap true s
        if t.pfl.swapping.isNone && !t.pfl.swpend then refuseUpdate 0x07 t
        else respond v r 0x07 .ok [] (endUpdate t)
  | _, _ => s

end Sys2Proof.Machine
end

