-- ==== Sys2Proof/Machine/Fnc.lean ====
section
/-! DEFINITION. The FNC block's writable registers, window descriptors, and the programs of the leases (R292-R298, R309-R316). -/

namespace Sys2Proof.Machine
open Sys2Proof

/-! ### Window descriptors (R309, R311) -/

structure Window where
  kind   : Nat
  access : Nat
  base   : Nat
  units  : Nat
  target : Nat
  deriving DecidableEq, Repr

/-- The fields of a descriptor; `units` is SIZE + 1. -/
def windowOf (w : BitVec 64) : Window :=
  let n := w.toNat
  { kind := n % 256, access := n / 2 ^ 8 % 256, base := n / 2 ^ 16 % 2 ^ 16, units := n / 2 ^ 32 % 256 + 1, target := n / 2 ^ 40 }

def Window.canWrite (w : Window) : Bool := w.access / 2 % 2 = 1
def Window.canExec (w : Window) : Bool := w.access / 4 % 2 = 1
def Window.super (w : Window) : Bool := w.access / 8 % 2 = 1
def Window.last (w : Window) : Nat := w.base + 256 * w.units
def Window.rank (w : Window) : Nat := w.target / 128

def overlap (a b : Window) : Bool := a.base < b.last && b.base < a.last

/-- A descriptor by itself: reserved bits, the range, and what its KIND asks. -/
def Window.shapeOk (w : Window) (island : Bool) : Bool :=
  w.access / 16 = 0 && w.base % 256 = 0 && w.last ≤ 0x10000 &&
    (if w.kind = 0 then true
     else if w.kind = 1 then w.target % 128 + w.units ≤ 128 && w.rank < 56 && !(w.rank = 0 && w.canWrite)
     else if w.kind = 2 then w.target / 256 ≤ 7 && w.target % 256 + w.units ≤ (if w.target / 256 = 0 then 4 else 256)
     else w.kind = 3 && island)

/-- R311 for window i among the others of its core. -/
def descriptorOk (island : Bool) (win : Tbl (BitVec 64)) (i : Nat) (v : BitVec 64) : Bool :=
  let w := windowOf v
  w.shapeOk island && (w.kind = 0 || win.all fun (e : Nat × BitVec 64) => e.1 = i || (windowOf e.2).kind = 0 || !overlap w (windowOf e.2))

/-! ### Writes of a core's own section (R313, R316) -/

/-- A refused write: bench event 45, attributed to the lease. -/
def fncRefuse (c : Nat) (s : State) : State := raise (coreEvent c 45) (s.coreLease c) s

/-- FNC_CTL_c: the first write after a wipe sets EN and WLOCK. -/
def fncCtl (c : Nat) (v : BitVec 32) (s : State) : State :=
  let x := s.core c
  if x.fncWritten then fncRefuse c s else s.setCore c { x with fncWritten := true, en := v.getLsbD 0, wlock := v.getLsbD 1 }

/-- FNC_WIN_k: refused after WLOCK, unless it changes nothing (R11, log 117), and for an invalid descriptor. The instruction under way goes on
through the windows it began with (R311). -/
def fncWin (c i : Nat) (v : BitVec 64) (s : State) : State :=
  let x := s.core c
  if x.wlock && v = tget 0 x.win i then s
  else if x.wlock || !descriptorOk (64 ≤ c) x.win i v then fncRefuse c s
  else s.setCore c { x with win := tset 0 x.win i v, winUse := some (x.winUse.getD x.win) }

/-- FNC_FEN_k: refused while the entry is locked, unless it changes nothing (R11, log 117). -/
def fncFen (c i : Nat) (v : BitVec 32) (s : State) : State :=
  let x := s.core c
  let w := v &&& 0xFFF7FF3F
  let old := tget 0x7FF00 x.fen i
  if old.getLsbD 31 then (if w = old then s else fncRefuse c s)
  else s.setCore c { x with fen := tset 0x7FF00 x.fen i w }

/-- FNC_IEN_c.EN. -/
def fncIen (c : Nat) (v : BitVec 32) (s : State) : State := s.modCore c fun x => { x with ien := BitVec.ofNat 7 (v.toNat / 2 ^ 16) }

/-! ### Images (R292, R295) -/

def imageTotal (d : Bytes) : Nat := fieldLE d 8 4
def imageWin (d : Bytes) (i : Nat) : BitVec 64 := BitVec.ofNat 64 (fieldLE d (2048 + 8 * i) 8)

/-- FORMAT (R292, R311). -/
def programOk (d : Bytes) : Bool :=
  let n := fieldLE d 34 1
  let code := fieldLE d 32 2
  let win := (List.range n).map fun i => (i, imageWin d i)
  let w0 := windowOf (imageWin d 0)
  d.take 4 = [0x53, 0x56, 0x54, 0x50] && fieldLE d 4 1 = 1 && fieldLE d 5 1 = 0 && fieldLE d 6 2 = 0 && isZero (slice d 35 29) &&
    1 ≤ n && n ≤ 16 && 2 ≤ code && code ≤ 32768 && code % 2 = 0 && imageTotal d = 2048 + 8 * n + code && d.length = imageTotal d + 3373 &&
    (win.all fun (e : Nat × BitVec 64) => descriptorOk false win e.1 e.2) &&
    w0.kind = 1 && w0.rank = 0 && w0.base = 0 && w0.canExec

/-- KEY: code 0x04. -/
def Lease.keyOk (l : Lease) (d : Bytes) : Bool :=
  slice d 64 32 = fixLen 32 l.progEd && sha3 (slice d 96 1952) = l.progMl.take 32

/-- Codes 0x04 to 0x07, in their order; 0 for none. -/
def State.imageCheck (s : State) (l : Lease) (d : Bytes) : Nat :=
  let t := imageTotal d
  if !l.keyOk d then 0x04
  else if !dualOk (slice d 64 32) (slice d 96 1952) (d.take t) (d.drop t) then 0x05
  else if !(isZero (slice d 16 16) || slice d 16 16 = fixLen 16 s.ident.unit) then 0x06
  else if fieldLE d 12 4 < l.minSvn then 0x07
  else 0

/-- A load refused: subindex 2 of +0x22, event 51 of the island. -/
def refuseProgram (k code : Nat) (s : State) : State :=
  raiseIslandOf 51 k (s.modLease k fun l => { l with progRefusal := code })

def Lease.settled (l : Lease) : ProgState := if l.inForce = [] then .none else .loaded

/-- Unload: the empty program takes effect as a load does (R296); neither copy of the store holds a program from then on. -/
def unloadProgram (k : Nat) (s : State) : State :=
  if (s.lease k).image = [] then s
  else bumpGen (0x4020 + 0x40 * k) 0 (s.modLease k fun l => { l with image := [], old := [], progPend := true })

/-- The checks before the verification, and the verification's start. -/
def programLoad (k : Nat) (d : Bytes) (s : State) : DStat × State :=
  let l := s.lease k
  if l.verifying.isSome || l.body ≠ [] then (.refused, refuseProgram k 0x01 s)
  else if d = [] then (.ok, unloadProgram k s)
  else if !(s.lcs.state = .claimed || s.lcs.state = .field) then (.refused, refuseProgram k 0x02 s)
  else if !programOk d then (.refused, refuseProgram k 0x03 s)
  else if !l.keyOk d then (.refused, refuseProgram k 0x04 s)
  else (.pending, s.setLease k { l with progState := .verifying, verifying := some (d, s.pw.now) })

/-- PROGRAM_LOAD: the object of entry +0x20. -/
def execProgramLoad (r : Req) (d : Bytes) (s : State) : Res :=
  match subLease r.index with
  | none => .next s
  | some k =>
    if r.index % 0x40 ≠ 0x20 || r.sub ≠ 0 then .next s
    else
      .next (endObject r { host := true, lease := true } id (programLoad k d) s)

/-- PROGRAM_VERIFY_DONE: 41 tk from the tick in which the island's engines take the image up; then its body is programmed into the inactive copy, and
the row's next execution programs the commit; the store can fail either (R295). -/
def execProgramVerifyDone (k : Nat) (stored : Bool) (s : State) : Res :=
  let l := s.lease k
  let settled := s.setLease k { l with verifying := none, body := [], progState := l.settled }
  match l.verifying with
  | none =>
    if l.body = [] || !s.running then .next s
    else if !stored then .next (refuseProgram k 0x08 settled)
    else
      .next (bumpGen (0x4020 + 0x40 * k) 0 (settled.modLease k fun x =>
        { x with image := l.body, old := l.image, copy := 1 - l.copy, progPend := true }))
  | some (d, t0) =>
    if !s.running || !s.islandDone t0 41 then .next s
    else
      let code := s.imageCheck l d
      if code ≠ 0 then .next (refuseProgram k code settled)
      else if !stored then .next (refuseProgram k 0x08 settled)
      else .next (s.setLease k { l with verifying := none, body := d, old := [] })

/-- PROGRAM_PAGE_COPY: before the capture of a swap, into the program page of each bench on which the lease holds cores, with a swap requested
if none is pending (R296). -/
def execProgramPageCopy (k : Nat) (s : State) : Res :=
  let l := s.lease k
  if !l.progPend || !s.running || s.dsp.fresh.contains k || (s.dsp.pend && s.dsp.captured) then .next s
  else
    let benches := (List.range s.nBench).filter fun n => s.dsp.core.any fun (e : Nat × Nat) => e.1 / 4 = n && e.2 = k
    let t := (forEach benches (fun n t => copyProgram n k l.image t) s).modLease k fun l => { l with copied := l.image, progPend := false }
    .next (dspGo { t with dsp := { t.dsp with fresh := t.dsp.fresh ++ [k] } })

/-- PROGRAM_KEY_WRITE, entry +0x21: unloads the lease's program (R294). -/
def execProgramKeyWrite (r : Req) (value : Bytes) (s : State) : Res :=
  match subLease r.index with
  | none => .next s
  | some k =>
    if r.index % 0x40 ≠ 0x21 || !(r.sub = 1 || r.sub = 2) then .next s
    else
      .next (writeEntry r { host := true } (if r.sub = 1 then 32 else 48) value (fun s =>
        if r.sub = 2 && !isZero (value.drop 32) then (.range, s)
        else (.ok, unloadProgram k (s.modLease k fun l => if r.sub = 1 then { l with progEd := value } else { l with progMl := value }))) s)

/-- PROGRAM_MINSVN_WRITE, entry +0x22 subindex 4. -/
def execProgramMinsvnWrite (r : Req) (value : Bytes) (s : State) : Res :=
  match subLease r.index with
  | none => .next s
  | some k =>
    if r.index % 0x40 ≠ 0x22 || r.sub ≠ 4 then .next s
    else
      .next (writeEntry r { host := true } 4 value (fun s =>
        if leNat value < (s.lease k).minSvn then (.range, s) else (.ok, s.modLease k fun l => { l with minSvn := leNat value })) s)

/-- The check of one lease's committed image at a start (R298). -/
def startProgram (k : Nat) (s : State) : State :=
  let l := s.lease k
  if l.image = [] then s
  else
    let code := s.imageCheck l l.image
    if code ≠ 0 then refuseProgram k code s else s.setLease k { l with inForce := l.image, copied := l.image, progState := .loaded }

end Sys2Proof.Machine
end

