-- ==== Sys2Proof/Machine/Custody.lean ====
section
/-! DEFINITION. Custodians: collections, grants, ceremonies, key loading and the custodian journal (R220-R225, R319-R323, R331-R334, R350). -/

namespace Sys2Proof.Machine
open Sys2Proof

def State.modCust (s : State) (f : Cust → Cust) : State := { s with cust := f s.cust }

/-! ### The journal (R331-R334) -/

/-- An outcome of PREPARED record q is committed: DONE, NOT_DONE or UNCONFIRMED. -/
def hasOutcome (l : List CRec) (q : Nat) : Bool := l.any fun r => (r.kind = 2 || r.kind = 3 || r.kind = 4) && r.ref = q

/-- UNCONFIRMED records without VERIFIED or FAILED. -/
def unresolved (l : List CRec) : List CRec :=
  l.filter fun r => r.kind = 4 && !(l.any fun v => (v.kind = 5 || v.kind = 6) && v.ref = r.ref)

/-- The unresolved entry of a card and an object. -/
def State.unconfirmed (s : State) (card : Bytes) (obj : Nat) : Option CRec :=
  (unresolved s.cust.journal).find? fun r => r.obj = obj && r.card = card

/-- A record that follows PREPARED record q. -/
def outcome (kind q : Nat) (s : State) : State :=
  match s.cust.journal.find? (fun r => r.seq = q && r.kind = 1) with
  | none => s
  | some r => journal { r with kind := kind, ref := q } s

/-- The commits at the end of a tick, and the compaction of a half that is full, of 1,638 records: into the other half go the PREPARED records
without an outcome, the UNCONFIRMED ones without a resolution, and the newest 1,024 summaries (R331, log 143). -/
def journalTick (s : State) : State :=
  let l := s.cust.journal.map CRec.committed
  if l.length < 1638 then s.modCust fun c => { c with journal := l }
  else
    let sums := l.filter fun r => r.kind = 7
    let old := (sums.take (sums.length - 1024)).map CRec.seq
    let keep := fun (r : CRec) =>
      if r.kind = 1 then !hasOutcome l r.seq else if r.kind = 4 then (unresolved l).contains r else r.kind = 7 && !old.contains r.seq
    bumpGen 0x8020 0 (s.modCust fun c =>
      { c with lastSeq := c.newest, journal := l.filter fun r => keep r || (unresolved l).any fun u => r.kind = 1 && r.seq = u.ref, side := 1 - c.side })

/-- At each start: UNCONFIRMED for each PREPARED record without an outcome (R334); event 8 for each. -/
def scanJournal (s : State) : State :=
  forEach (s.cust.journal.filter fun r => r.kind = 1 && !hasOutcome s.cust.journal r.seq)
    (fun (r : CRec) t => raiseCust 8 (outcome 4 r.seq t)) s

/-! ### Quorum and configuration (R319-R321) -/

/-- The credentials that the present need is judged by: those of the collection, of a key-loading ceremony's lease, or the officers'. -/
def State.quorum (s : State) : List Bytes :=
  match s.cust.collect with
  | some c => if c.purpose = 0 then (s.lease c.lease).creds.take (s.lease c.lease).quorumN else s.cust.creds.take s.cust.n
  | none =>
    match s.cust.keyLoad with
    | some k => (s.lease k.lease).creds.take (s.lease k.lease).quorumN
    | none => s.cust.creds.take s.cust.n

/-- The position of a credential, judged by its card identifier. -/
def State.position (s : State) (cred : Bytes) : Option Nat :=
  (List.range s.quorum.length).find? fun i => (s.quorum.getD i []).take 16 = cred.take 16

/-- The card identifier has counted in the collection. -/
def State.hasCounted (s : State) (pos : Nat) : Bool := match s.cust.collect with | some c => c.counted.contains pos | none => false

/-- Purpose byte and lease byte of an AUTH: 1 a lease grant, 2 an officer, 3 a component. -/
def State.authPurpose (s : State) : Nat × Nat :=
  match s.cust.collect with
  | some c => if c.purpose = 0 then (1, c.lease) else (2, 0xFF)
  | none => match s.cust.keyLoad with | some k => (3, k.lease) | none => (2, 0xFF)

/-- OFFICER_QUORUM_WRITE, entry 0x8000: by HOST in CLAIMED, by an officer in FIELD; the rules of R220 (R320). -/
def officerQuorum (r : Req) (value : Bytes) (s : State) : DStat × State :=
  let c := s.cust
  let v := leNat value
  let note := fun (t : State) => if s.isOfficer r.ep then logOp 3 0xFF 0 [] t else t
  if r.sub = 1 then if 1 ≤ v && v ≤ c.n then (.ok, note { s with cust := { c with m := v } }) else (.range, s)
  else if r.sub = 2 then if 1 ≤ v && v ≤ 16 && c.m ≤ v then (.ok, note { s with cust := { c with n := v } }) else (.range, s)
  else
    match setCred c.creds (r.sub - 16) value with
    | none => (.range, s)
    | some l => (.ok, note { s with cust := { c with creds := l } })

def execOfficerQuorumWrite (r : Req) (value : Bytes) (s : State) : Res :=
  if r.index ≠ 0x8000 || !(r.sub = 1 || r.sub = 2 || (16 ≤ r.sub && r.sub ≤ 31)) then .next s
  else
    .next (writeEntry r { host := s.lcs.state = .claimed, officer := true } (if r.sub < 16 then 1 else 48) value (officerQuorum r value) s)

/-! ### Grants form (R221-R223, R409) -/

/-- An officer grant opens the ceremony, with the next number; its leases pause at the boundary that follows (R223). -/
def openCeremony (c : Collect) (s : State) : State :=
  let scope := BitVec.ofNat 64 c.scope
  let x : Ceremony := { scope := scope, number := s.cust.number + 1, opened := s.time64, lastFrame := s.frame, endpoint := c.endpoint,
                        officers := c.counted }
  s.modCust fun u => { u with ceremony := some x, number := x.number, bind := if c.unbound then none else some c.endpoint, pausing := some scope }

/-- The M-th custodian has counted. -/
def formGrant (c : Collect) (fresh : List Nat) (s : State) : State :=
  let s := raiseCust 6 (s.modCust fun u => { u with collect := none })
  if c.purpose = 0 then
    s.modLease c.lease fun l =>
      { l.endGrant with grant := some { scope := c.scope, uses := c.uses, endFrame := s.frame + c.frames, fromTick := s.pw.now + 1 } }
  else if c.purpose = 1 then openCeremony c s
  else officerUnlock c.counted fresh s

/-- M of the configuration being collected. -/
def State.threshold (s : State) (c : Collect) : Nat := if c.purpose = 0 then (s.lease c.lease).quorumM else s.cust.m

/-- A custodian counts; a card whose identifier has counted by now counts nothing and raises event 4 (R321). -/
def countCustodian (cred : Bytes) (fresh : List Nat) (s : State) : State :=
  match s.cust.collect, s.position cred with
  | some c, some pos =>
    if c.counted.contains pos then raiseCust 4 s
    else
      let c := { c with counted := c.counted ++ [pos] }
      if s.threshold c ≤ c.counted.length then formGrant c fresh s else s.modCust fun u => { u with collect := some c }
  | some _, none => raiseCust 4 s
  | none, _ => s

/-! ### Ceremonies (R223-R225, R350) -/

/-- CEREMONY_START, entry 0x2030 subindex 1: STATE outside FIELD and without an officer quorum, BUSY while a collection or ceremony is under way;
the endpoint is bound. -/
def execCeremonyStart (r : Req) (value : Bytes) (s : State) : Res :=
  if r.index ≠ 0x2030 || r.sub ≠ 1 then .next s
  else
    .next (writeEntry r { host := true, bmc := true } 8 value (fun s =>
      if s.lcs.state ≠ .field || s.cust.m = 0 || s.cust.n = 0 then (.state, s)
      else if s.cust.collect.isSome || s.cust.ceremony.isSome then (.busy, s)
      else if 2 ^ s.nLease ≤ leNat value then (.range, s)
      else
        let c : Collect := { purpose := 1, lease := 0xFF, counted := [], endFrame := s.frame + s.dic.window, scope := leNat value,
                             endpoint := r.ep }
        (.ok, s.modCust fun u => { u with collect := some c })) s)

/-- CEREMONY_CLOSE, entry 0x2030 subindex 3. -/
def execCeremonyClose (r : Req) (value : Bytes) (s : State) : Res :=
  if r.index ≠ 0x2030 || r.sub ≠ 3 then .next s
  else .next (writeEntry r { officer := true } 1 value (onTrue value fun s => (.ok, closeCeremony 0 s)) s)

/-- CEREMONY_TIMEOUT: 458,752 frames without an officer action. -/
def execCeremonyTimeout (s : State) : Res :=
  match s.cust.ceremony with
  | none => .next s
  | some c => if s.reachesFrame (c.lastFrame + 458752) then .next (closeCeremony 1 s) else .next s

/-- A component read from or written to a card is an officer action (R225). -/
def noteAction (s : State) : State := s.modCust fun u => { u with ceremony := u.ceremony.map fun c => { c with lastFrame := s.frame } }

/-! ### Key loading (R224, R323) -/

/-- The components of a generated key: C - 1 random ones, and the one that makes their XOR the value. -/
def shares (value : Bytes) : Nat → Bytes → List Bytes
  | 0, _ => []
  | 1, _ => [value]
  | n + 1, rnd =>
    let p := fixLen value.length rnd
    p :: shares (xorBytes value p) n (rnd.drop value.length)

/-- What a key-loading ceremony needs: an open ceremony with the lease in scope, an AES, HMAC or SECRET key, 2 to 16 components and no fewer
than M, a target, a parent and attributes as a load has them. -/
def State.keyLoadOk (s : State) (q : KeyLoadReq) : Bool :=
  let l := s.lease q.lease
  let parent := s.slot q.parent
  s.inScope q.lease && s.cust.keyLoad.isNone && 1 ≤ q.type && q.type ≤ 4 && lenOk q.type q.len && 2 ≤ q.c && q.c ≤ 16 && l.quorumM ≤ q.c &&
    q.c ≤ l.quorumN && parent.type ≠ 0 && (s.inRange q.lease q.parent || q.parent = s.rootSlot q.lease) && !s.orphan q.parent &&
    attrOk q.type q.attr && (!hasAttr q.attr aPERSIST || s.persistLine 6 q.parent) &&
    s.checkTarget q.lease q.target 1 q.parent (hasAttr q.attr aPERSIST) = 0 && (!q.gen || s.islandHas (typeValue q.type q.len * q.c))

/-- It begins: a generated key's value and components are drawn from the island expander. -/
def beginKeyLoad (q : KeyLoadReq) (s : State) : State :=
  let n := typeValue q.type q.len
  let (value, s) := if q.gen then drawIsland n s else (List.replicate n 0, s)
  let (rnd, s) := if q.gen then drawIsland (n * (q.c - 1)) s else ([], s)
  let k : KeyLoad := { lease := q.lease, target := q.target, parent := q.parent, type := q.type, len := q.len, attr := q.attr, c := q.c,
                       gen := q.gen, parts := if q.gen then shares value q.c rnd else [], value := value, done := [],
                       since := s.cust.newest }
  s.modCust fun u => { u with keyLoad := some k }

/-- Every component is read, or has reached DONE or VERIFIED: the slot is written; an operation with its check value is recorded. -/
def endKeyLoad (k : KeyLoad) (s : State) : State :=
  let s := s.modCust fun u => { u with keyLoad := none }
  if s.checkTarget k.lease k.target 1 k.parent (hasAttr k.attr aPERSIST) ≠ 0 || s.orphan k.parent then s
  else
    let (r, s) := writeKey k.lease k.target k.parent k.type k.len k.attr k.value false false s
    logOp 2 k.lease r.toNat (checkValue k.type k.value) s

/-- KEY_LOADING_CEREMONY: the officer asks for it, or, with its components complete, it writes the slot. -/
def execKeyLoadingCeremony (ep : Nat) (q : Option KeyLoadReq) (s : State) : Res :=
  if !s.running || !s.isOfficer ep then .next s
  else
    match q, s.cust.keyLoad with
    | some q, _ => if s.keyLoadOk q then .next (noteAction (beginKeyLoad q s)) else .next s
    | none, some k => if k.c ≤ k.done.length then .next (endKeyLoad k s) else .next s
    | none, none => .next s

/-- A component read from the card at a position of the configuration is folded in. -/
def foldComponent (pos : Nat) (plain : Bytes) (s : State) : State :=
  match s.cust.keyLoad with
  | none => s
  | some k =>
    let v := plain.drop 2
    if k.gen || k.done.contains pos || k.c ≤ k.done.length || fieldLE plain 0 1 ≠ k.type || fieldLE plain 1 1 ≠ v.length ||
      v.length ≠ k.value.length then raiseCust 5 s
    else
      let s := s.modCust fun u => { u with keyLoad := some { k with value := xorBytes k.value v, done := k.done ++ [pos] } }
      noteAction (logOp 2 k.lease 0 (checkValue k.type v) s)

/-- Component `obj`, written to the card at a position, has reached DONE or VERIFIED; its check value is recorded (R224). -/
def countComponent (pos obj : Nat) (s : State) : State :=
  match s.cust.keyLoad with
  | none => s
  | some k =>
    if !k.gen || k.done.contains pos then s
    else noteAction (logOp 5 k.lease 0 (checkValue k.type (k.parts.getD (obj - 1) [])) (s.modCust fun u => { u with keyLoad := some { k with done := k.done ++ [pos] } }))

end Sys2Proof.Machine
end

