-- ==== Sys2Proof/Machine/Card.lean ====
section
/-! DEFINITION. The contact port, the reader, and the exchanges of both with custodian cards (R319-R337, R346, R348). A command that waits for a
card's answer takes it as an operand: without one the exchange stays under way, and the same command given with one completes it. -/

namespace Sys2Proof.Machine
open Sys2Proof

def State.modCrd (s : State) (f : Crd → Crd) : State := { s with crd := f s.crd }
def State.modCtl (s : State) (f : Ctl → Ctl) : State := { s with ctl := f s.ctl }

/-- Ticks until RST rises in an activation, 10 ms, and of a deactivation, 100 us (R325, R330). -/
def rstTicks : Nat := 3907
def offTicks : Nat := 40

/-- The card session of port 0, the contact port, or 1, the reader. -/
def State.sess (s : State) (p : Nat) : Sess := if p = 0 then s.crd.sess else s.ctl.sess
def State.modSess (s : State) (p : Nat) (f : Sess → Sess) : State :=
  if p = 0 then s.modCrd fun c => { c with sess := f c.sess } else s.modCtl fun c => { c with sess := f c.sess }

/-- What the port sends to the card. -/
def sendCard (p : Nat) (b : Bytes) (s : State) : State :=
  if p = 0 then { s with out := { s.out with card := b } } else { s with out := { s.out with reader := b } }

/-! ### Blocks of T=1 (R329; log 157) -/

/-- CRC_A of ISO/IEC 14443-3, low byte first; the CRC of ISO/IEC 13239 differs in its initial value and its complement. -/
def crcStep (c b : Nat) : Nat :=
  let x := (b ^^^ c) % 256
  let x := (x ^^^ (x * 16)) % 256
  (c / 256 ^^^ (x * 256) ^^^ (x * 8) ^^^ (x / 16)) % 65536
def crcA (b : Bytes) : Bytes := leBytes 2 (b.foldl (fun c x => crcStep c x.toNat) 0x6363)
def crcB (b : Bytes) : Bytes := leBytes 2 (0xFFFF - b.foldl (fun c x => crcStep c x.toNat) 0xFFFF)

/-- A block: NAD 0x00, PCB, LEN, the information field, and an LRC or a CRC. -/
def Crd.block (c : Crd) (pcb : Nat) (inf : Bytes) : Bytes :=
  let b := [0x00, BitVec.ofNat 8 pcb, BitVec.ofNat 8 inf.length] ++ inf
  b ++ if c.crc then crcB b else [b.foldl (· ^^^ ·) 0]

/-- The I-blocks of an APDU, chained where it is longer than IFSC. -/
def Crd.chain (c : Crd) (apdu : Bytes) : Bytes :=
  let k := ceilDiv apdu.length c.ifsc
  (List.range k).flatMap fun i => c.block (64 * ((c.ns + i) % 2) + 32 * bit (i + 1 < k)) (slice apdu (c.ifsc * i) (min c.ifsc (apdu.length - c.ifsc * i)))

/-- An APDU as port p sends it: under T=1 in blocks. -/
def State.framed (s : State) (p : Nat) (apdu : Bytes) : Bytes := if p = 0 && s.crd.proto then s.crd.chain apdu else apdu

/-- An APDU goes out; an S(IFS request) before it has been answered. -/
def sendApdu (p : Nat) (apdu : Bytes) (s : State) : State :=
  let t := sendCard p (s.framed p apdu) s
  if p = 0 && s.crd.proto then t.modCrd fun c => { c with ns := (c.ns + ceilDiv apdu.length c.ifsc) % 2, ifsTry := 0 } else t

/-! ### The state of a port -/

/-- A card is ready for an exchange; one is under way. -/
def State.cardReady (s : State) (p : Nat) : Bool := if p = 0 then s.crd.st = .ready else s.ctl.st = .ready
def State.exchanging (s : State) (p : Nat) : Bool := if p = 0 then s.crd.st = .exchange else s.ctl.st = .exchange

def setExchange (p : Nat) (on : Bool) (s : State) : State :=
  if p = 0 then s.modCrd fun c => { c with st := if on then .exchange else .ready }
  else s.modCtl fun c => { c with st := if on then .exchange else .ready }

def setRes (p v : Nat) (s : State) : State := if p = 0 then s.modCrd fun c => { c with res := v } else s.modCtl fun c => { c with res := v }

/-- The need of R325: a collection, an open ceremony, or an UNCONFIRMED entry without a resolution. -/
def State.cardNeed (s : State) : Bool := s.cust.collect.isSome || s.cust.ceremony.isSome || unresolved s.cust.journal ≠ []

/-- The card is lost: a WRITE_OBJ under way is NOT_DONE before its last data character, UNCONFIRMED after it (R332); the session key is wiped. -/
def loseCard (p : Nat) (lastSent : Bool) (s : State) : State :=
  let x := s.sess p
  let s := match x.busy with
    | .writeObj _ => if lastSent then raiseCust 8 (outcome 4 x.prepared s) else outcome 3 x.prepared s
    | _ => s
  s.modSess p fun _ => {}

/-- Deactivation of the contact card (R330). -/
def deactivate (lastSent : Bool) (s : State) : State :=
  (loseCard 0 lastSent s).modCrd fun c =>
    { c with st := .off, cls := 0, proto := false, fi := 0, di := 1, offAt := if c.st = .off then c.offAt else s.pw.now + offTicks }

/-- The reader's field goes off; detection goes on while it is enabled, and takes its reference from its first ping (R336). -/
def fieldOff (lastSent : Bool) (s : State) : State :=
  (loseCard 1 lastSent s).modCtl fun c =>
    { c with st := if c.lpcd then .lpcd else .off, card := false, rate := 0, ref := none, wupas := 0, reqas := 0, cards := 0, level := 1,
             bits := [], uid := [] }

/-- The command is one of the steps in which a card counts. -/
def CardCmd.counts : CardCmd → Bool
  | .select | .getCred | .auth => true
  | _ => false

/-- An exchange ends with a RES other than OK: event 2, or 3 for a removal, and 5 for a step of a collection; the card is deactivated (R321, R330). -/
def breakExchange (p res : Nat) (lastSent : Bool) (s : State) : State :=
  let step := s.cust.collect.isSome && (s.sess p).busy.counts
  let s := raiseCust (if res = 1 then 3 else 2) (setRes p res s)
  let s := if step then raiseCust 5 s else s
  if p = 0 then deactivate lastSent s else fieldOff lastSent s

/-! ### Activation (R325-R327) -/

/-- The enabled class of lowest voltage at or above that of code `k`: 3 is class C, 2 B, 1 A. -/
def nextClass (classes : BitVec 3) : Nat → Option Nat
  | 0 => none
  | k + 1 => if classes.getLsbD k then some (k + 1) else nextClass classes k

/-- The card is refused: deactivated, event 1. -/
def refuseCard (res : Nat) (s : State) : State := raiseCust 1 (setRes 0 res (deactivate false s))

/-- Activation at the first enabled class from code `k` on; the card then has its 40,000 clocks to start an ATR. -/
def activate (k : Nat) (s : State) : State :=
  match nextClass s.crd.classes k with
  | none => refuseCard 5 s
  | some c => s.modCrd fun x => { x with st := .atr, cls := c, proto := false, fi := 0, di := 1, sess := {}, rstAt := s.pw.now + rstTicks }

/-- CARD_INSERTED: event 0; the device activates the card while there is a need, and with no class enabled refuses it (R325, R348). -/
def execCardInserted (s : State) : Res :=
  if !s.islandRuns || s.crd.present || s.lcs.state = .scrapped then .next s
  else
    let s := raiseCust 0 (s.modCrd fun c => { c with present := true, warm := false, cold := false })
    .next (if s.crd.classes = 0 || s.cardNeed then activate 3 s else s)

/-- CARD_REMOVED: an exchange under way ends PULLED with event 3 (R330). -/
def execCardRemoved (lastSent : Bool) (s : State) : Res :=
  let t := if s.exchanging 0 then breakExchange 0 1 lastSent s else deactivate false s
  .next (t.modCrd fun c => { c with present := false })

/-- CRD_CTL.ACT = 1. -/
def crdAct (s : State) : State :=
  if s.running && s.crd.present && s.crd.st = .off then activate 3 (s.modCrd fun c => { c with warm := false, cold := false }) else s

def execCrdAct (s : State) : Res := .next (crdAct (wrote 0x600B0000 s))

/-- CRD_CTL.DEACT = 1. -/
def crdDeact (lastSent : Bool) (s : State) : State := if s.crd.st = .off then s else deactivate lastSent s

def execCrdDeact (lastSent : Bool) (s : State) : Res := .next (crdDeact lastSent (wrote 0x600B0000 s))

/-- One group of interface characters of an ATR: the protocol it follows, and its characters. -/
structure AtrGroup where
  t  : Nat
  ta : Option Byte
  tb : Option Byte
  tc : Option Byte
  td : Option Byte

/-- The first character of `b` if the mask bit is set. -/
def takeIf (on : Bool) (b : Bytes) : Option (Option Byte × Bytes) :=
  if on then match b with | x :: r => some (some x, r) | [] => none else some (none, b)

/-- The groups of interface characters that Y announces, each later one by the TD before it, and the rest. -/
def atrGroups : Nat → Nat → Nat → Bytes → Option (List AtrGroup × Bytes)
  | 0, _, _, _ => none
  | n + 1, t, y, b => do
    let (ta, b) ← takeIf (y.testBit 0) b
    let (tb, b) ← takeIf (y.testBit 1) b
    let (tc, b) ← takeIf (y.testBit 2) b
    let (td, b) ← takeIf (y.testBit 3) b
    let g : AtrGroup := { t := t, ta := ta, tb := tb, tc := tc, td := td }
    match td with
    | none => some ([g], b)
    | some d =>
      let (l, r) ← atrGroups n (d.toNat % 16) (d.toNat / 16) b
      some (g :: l, r)

/-- An ATR of ISO/IEC 7816-3 with its TCK in place: TS, T0, groups, historical characters, and a TCK where a protocol other than T=0 is
indicated, which makes the XOR from T0 on zero. -/
def parseAtr (b : Bytes) : Option (List AtrGroup) :=
  match b with
  | ts :: t0 :: r =>
    if !(ts = 0x3B || ts = 0x3F) || 33 < b.length then none
    else
      match atrGroups 33 0 (t0.toNat / 16) r with
      | none => none
      | some (g, rest) =>
        let tck := g.any fun x => match x.td with | some d => d.toNat % 16 ≠ 0 | none => false
        if rest.length ≠ t0.toNat % 16 + bit tck then none
        else if tck && (t0 :: r).foldl (· ^^^ ·) 0 ≠ 0 then none else some g
  | _ => none

/-- T=1 is offered. -/
def offersT1 (g : List AtrGroup) : Bool := g.any fun x => match x.td with | some d => d.toNat % 16 = 1 | none => false

/-- The first TA for T=15: its class indicator, bit 0 class A, bit 1 B, bit 2 C. -/
def classTa (g : List AtrGroup) : Option (BitVec 3) :=
  match (g.drop 1).find? fun x => x.t = 15 && x.ta.isSome with
  | some x => x.ta.map fun b => b.setWidth 3
  | none => none

/-- The FI and DI values the port supports (R327). -/
def fiOk (fi : Nat) : Bool := fi ≤ 6 || (9 ≤ fi && fi ≤ 13)
def diOk (di : Nat) : Bool := 1 ≤ di && di ≤ 6

/-- D by DI in ISO/IEC 7816-3: 1, 2, 4, 8, 16, 32, 64, 12, 20; the DI of the largest supported D below the card's. -/
def diBelow (di : Nat) : Option Nat := if di = 7 then some 6 else if di = 8 then some 4 else if di = 9 then some 5 else none

/-- PPS1, and none where no PPS is sent. -/
def ppsChoice (ta1 : Option Byte) (ta2 : Bool) : Option Nat :=
  match ta1 with
  | none => none
  | some x =>
    let fi := x.toNat / 16
    let di := x.toNat % 16
    if ta2 || x = 0x11 || x = 0x01 || !fiOk fi then none
    else if diOk di then some x.toNat
    else (diBelow di).map fun d => 16 * fi + d

/-- The PPS request: PPSS, PPS0, PPS1, PCK. -/
def ppsRequest (proto : Bool) (pps1 : Nat) : Bytes :=
  let b : Bytes := [0xFF, BitVec.ofNat 8 (0x10 + bit proto), BitVec.ofNat 8 pps1]
  b ++ [b.foldl (· ^^^ ·) 0]

/-- The S(IFS request) with IFSD = 254 that follows an activation under T=1, attempt n of two (R329). -/
def sendIfs (n : Nat) (s : State) : State := sendCard 0 (s.crd.block 0xC1 [0xFE]) (s.modCrd fun c => { c with ifsTry := n, ifsd := 254 })

/-- The card is ready. -/
def cardUp (s : State) : State :=
  let s := s.modCrd fun c => { c with st := .ready, res := 0 }
  if s.crd.proto then sendIfs 1 s else s

/-- The interface characters of T=1 from the third group on: TA3 with IFSC, and bit 0 of TC3 for a CRC (R329). -/
def t1Group (g : List AtrGroup) : Option AtrGroup := (g.drop 2).find? fun x => x.t = 1
def ifscOf (g : List AtrGroup) : Nat := match (t1Group g).bind AtrGroup.ta with | some b => max 1 b.toNat | none => 32
def crcOf (g : List AtrGroup) : Bool := match (t1Group g).bind AtrGroup.tc with | some b => b.getLsbD 0 | none => false

/-- A valid ATR is acted on: its class indicator, specific mode, or a PPS. -/
def takeAtr (g : List AtrGroup) (s : State) : State :=
  let proto := offersT1 g
  let ta1 := (g.head?.bind fun x => x.ta)
  let ta2 := ((g.drop 1).head?.bind fun x => x.ta).isSome
  let excluded := match classTa g with | some m => !m.getLsbD (s.crd.cls - 1) | none => false
  if excluded then
    match nextClass (s.crd.classes &&& (classTa g).getD 0) 3 with
    | none => refuseCard 0 s
    | some c => s.modCrd fun x => { x with st := .atr, cls := c, rstAt := s.pw.now + rstTicks }
  else
    let s := s.modCrd fun c => { c with proto := proto, crc := crcOf g, ifsc := ifscOf g, ifsd := 32, ifsTry := 0, ns := 0, nr := 0 }
    if ta2 then
      let x := (ta1.getD 0x11).toNat
      if fiOk (x / 16) && diOk (x % 16) then cardUp (s.modCrd fun c => { c with fi := x / 16, di := x % 16 }) else refuseCard 0 s
    else
      match (if s.crd.cold then none else ppsChoice ta1 ta2) with
      | none => cardUp s
      | some p => sendCard 0 (ppsRequest proto p) (s.modCrd fun c => { c with st := .pps, pps := p })

/-- ATR_RECEIVED: `late` says that it lasted too long or had characters too far apart. An invalid ATR has one warm reset (R326). -/
def execAtrReceived (atr : Bytes) (late : Bool) (s : State) : Res :=
  if s.crd.st ≠ .atr then .next s
  else
    match (if late then none else parseAtr atr) with
    | some g => .next (takeAtr g s)
    | none => if s.crd.warm then .next (refuseCard 0 s) else .next (s.modCrd fun c => { c with warm := true, rstAt := s.pw.now + rstTicks })

/-- ATR_TIMEOUT: the next enabled class (R325); after a cold reset that followed a failed PPS the card is refused (R327). -/
def execAtrTimeout (s : State) : Res :=
  if s.crd.st ≠ .atr then .next s
  else if s.crd.cold then .next (refuseCard 5 s)
  else .next (activate (s.crd.cls - 1) (s.modCrd fun c => { c with warm := false }))

/-- A failed PPS: deactivation and one cold reset without PPS; a second failure refuses the card (R327). -/
def failPps (s : State) : State :=
  let k := s.crd.cls
  if s.crd.cold then refuseCard 6 s
  else activate k ((setRes 0 6 (deactivate false s)).modCrd fun c => { c with cold := true, warm := false })

def execPpsResponse (resp : Bytes) (s : State) : Res :=
  if s.crd.st ≠ .pps then .next s
  else if resp = ppsRequest s.crd.proto s.crd.pps then
    .next (cardUp (s.modCrd fun c => { c with fi := s.crd.pps / 16, di := s.crd.pps % 16 }))
  else .next (failPps s)

def execPpsTimeout (s : State) : Res := if s.crd.st = .pps then .next (failPps s) else .next s

/-- WWT_TIMEOUT: a T=0 exchange ends TIMEOUT (R328). -/
def execWwtTimeout (lastSent : Bool) (s : State) : Res :=
  if s.exchanging 0 && !s.crd.proto then .next (breakExchange 0 3 lastSent s) else .next s

/-- T1_BWT_TIMEOUT: an R-block for each of two retransmissions, S(RESYNCH request) once, then EDC; the S(IFS request) is tried twice, and IFSD is then
32 (R329). -/
def execT1BwtTimeout (lastSent : Bool) (s : State) : Res :=
  let c := s.crd
  let next := fun (b : Bytes) (s : State) => sendCard 0 b (s.modSess 0 fun x => { x with tries := x.tries + 1, wtx := 1 })
  if c.st = .ready && c.proto && c.ifsTry ≠ 0 then
    .next (if c.ifsTry = 1 then sendIfs 2 s else s.modCrd fun c => { c with ifsTry := 0, ifsd := 32 })
  else if !(s.exchanging 0 && c.proto) then .next s
  else if 3 ≤ c.sess.tries then .next (breakExchange 0 4 lastSent s)
  else if c.sess.tries < 2 then .next (next (c.block (0x82 + 16 * c.nr) []) s)
  else .next (next (c.block 0xC0 []) (s.modCrd fun c => { c with ns := 0, nr := 0 }))

/-- APDU_EXCHANGE_TIMEOUT: 30 s of one APDU under T=1 (R329). -/
def execApduExchangeTimeout (lastSent : Bool) (s : State) : Res :=
  if s.exchanging 0 && s.crd.proto then .next (breakExchange 0 3 lastSent s) else .next s

/-! ### Protected bodies (R322) -/

/-- The header of a command as it goes out: CLA 0x80 but for SELECT, INS, P1, P2. -/
def apduHeader (ins p1 : Nat) : Bytes := [if ins = 0xA4 then 0x00 else 0x80, BitVec.ofNat 8 ins, BitVec.ofNat 8 p1, 0]

def Sess.iv (x : Sess) : Bytes := beBytes 12 x.bodies

/-- The ciphertext and tag of a body the session sends next. -/
def Sess.protect (x : Sess) (hdr plain : Bytes) : Bytes :=
  let ct := fixLen plain.length (Config.gcmTextRaw x.key x.iv plain)
  ct ++ fixLen 16 (Config.gcmTagRaw x.key x.iv hdr ct)

/-- The plaintext of a body that arrives, and none where its tag does not match. -/
def Sess.unprotect (x : Sess) (hdr body : Bytes) : Option Bytes :=
  if body.length < 16 then none
  else
    let ct := body.take (body.length - 16)
    if fixLen 16 (Config.gcmTagRaw x.key x.iv hdr ct) = body.drop ct.length then some (fixLen ct.length (Config.gcmTextRaw x.key x.iv ct)) else none

/-- An object's check value (R323). -/
def objCheck (plain : Bytes) : Bytes := (sha256 plain).take 8

/-! ### The exchange of a command (R323, R324, R333) -/

/-- The object of the command under way. -/
def CardCmd.object : CardCmd → Nat
  | .readObj o | .writeObj o | .checkObj o => o
  | _ => 0

/-- A failure of the card session: event 5, the session ends. -/
def failSession (p : Nat) (s : State) : State := raiseCust 5 (s.modSess p fun _ => {})

/-- A credential that is answered: with an UNCONFIRMED entry of its card it is taken for the verifying read; otherwise it has to stand in the
configuration and not to have counted (event 4). -/
def takeCred (p : Nat) (cred : Bytes) (s : State) : State :=
  let card := cred.take 16
  let open_ := (unresolved s.cust.journal).any fun r => r.card = card
  match s.position cred with
  | some pos =>
    if !open_ && s.hasCounted pos then raiseCust 4 s else s.modSess p fun x => { x with cred := s.quorum.getD pos [] }
  | none => if open_ then s.modSess p fun x => { x with cred := cred } else raiseCust 4 s

/-- The card session's unresolved entries. -/
def State.openEntries (s : State) (p : Nat) : List CRec := (unresolved s.cust.journal).filter fun r => r.card = (s.sess p).cred.take 16

/-- A CHECK_OBJ is answered: VERIFIED with event 9, which counts as DONE for a component whose ceremony is still open; else FAILED with
event 10. -/
def resolve (p obj : Nat) (good : Bool) (data : Bytes) (s : State) : State :=
  match s.unconfirmed ((s.sess p).cred.take 16) obj with
  | none => s
  | some r =>
    if good && data = r.check then
      let s := raiseCust 9 (outcome 5 r.ref s)
      let pos := s.position (s.sess p).cred
      let opened := match s.cust.journal.find? (fun x => x.seq = r.ref) with
        | some x => s.cust.ceremony.isSome && x.ref = s.cust.number && r.obj ≤ 16
        | none => false
      if opened then match pos with | some i => countComponent i r.obj s | none => s else s
    else raiseCust 10 (outcome 6 r.ref s)

/-- A command ends with response data and a status word. -/
def finishCmd (p : Nat) (data : Bytes) (sw : Nat) (s : State) : State :=
  let x := s.sess p
  let good := fun (n : Nat) => sw = 0x9000 && data.length = n
  let s := setRes p 0 (setExchange p false (s.modSess p fun y => { y with busy := .none, more := none, tries := 0, resent := false, got := [], wtx := 1 }))
  match x.busy with
  | .none => s
  | .raw =>
    let b := data ++ beBytes 2 sw
    let put := fun (buf : Tbl Byte) => (List.range b.length).foldl (fun t i => tset 0 t i (b.getD i 0)) buf
    if p = 0 then s.modCrd fun c => { c with buf := put c.buf, rx := BitVec.ofNat 12 b.length }
    else s.modCtl fun c => { c with buf := put c.buf, rx := BitVec.ofNat 12 b.length }
  | .select => if good 0 then s.modSess p fun y => { y with selected := true } else failSession p s
  | .getCred => if good 48 then takeCred p data s else failSession p s
  | .auth =>
    if good 96 then s.modSess p fun y => { y with cardEph := data.take 32, sig := data.drop 32, verifyAt := some s.pw.now }
    else failSession p s
  | .readObj o =>
    if sw ≠ 0x9000 then failSession p s
    else
      match x.unprotect (apduHeader 0x20 o) data with
      | none => failSession p s
      | some plain =>
        let s := s.modSess p fun y => { y with bodies := y.bodies + 1 }
        if o = 0x20 then if plain.length = 192 then s else failSession p s
        else match s.position x.cred with | some i => foldComponent i plain s | none => s
  | .writeObj o =>
    if good 0 then
      let s := outcome 2 x.prepared s
      match s.position x.cred with
      | some i => if o ≤ 16 then countComponent i o s else s
      | none => s
    else outcome 3 x.prepared s
  | .checkObj o => resolve p o (good 8) data s

/-- The card's answer to what was sent last; under T=0 SW 0x61xx leaves GET RESPONSE to be sent, and SW 0x6Cxx has the header `again` sent once
more with P3 = xx. -/
def takeAnswer (p : Nat) (again : Bytes) (ans : Option CardAnswer) (s : State) : State :=
  match ans with
  | none => s
  | some (.parity l) => breakExchange p 2 l s
  | some (.edc l) => breakExchange p 4 l s
  | some (.timeout l) => breakExchange p 3 l s
  | some (.pulled l) => breakExchange p 1 l s
  | some (.wtx m) =>
    if p = 0 && s.crd.proto then sendCard 0 (s.crd.block 0xE3 [BitVec.ofNat 8 m]) (s.modSess 0 fun y => { y with wtx := m }) else s
  | some (.status data sw) =>
    let x := s.sess p
    let t0 := p = 0 && !s.crd.proto
    if t0 && sw / 256 = 0x61 then s.modSess p fun y => { y with more := some (sw % 256), got := y.got ++ data }
    else if t0 && sw / 256 = 0x6C && !x.resent then
      sendCard p (again.take 4 ++ [BitVec.ofNat 8 sw]) (s.modSess p fun y => { y with resent := true })
    else
      let s := if p = 0 && s.crd.proto then s.modCrd fun c => { c with nr := (c.nr + ceilDiv (data.length + 2) c.ifsd) % 2 } else s
      finishCmd p (x.got ++ data) sw s

/-- A command of the device to the card: sent when the port is ready and `ok` holds, and taken further when its own exchange is under way. -/
def cardCommand (p : Nat) (c : CardCmd) (ok : Bool) (prepare : State → Bytes × State) (again : Bytes) (ans : Option CardAnswer) (s : State) : State :=
  if s.exchanging p then if (s.sess p).busy = c && (s.sess p).more.isNone then takeAnswer p again ans s else s
  else if !s.running || !s.cardReady p || !ok then s
  else
    let (apdu, s) := prepare s
    let s := sendApdu p apdu (setExchange p true (s.modSess p fun x => { x with busy := c, tries := 0, resent := false, got := [], wtx := 1 }))
    takeAnswer p (apdu.take 4) ans s

/-- Case 4 goes out as case 3 under T=0 (R324). -/
def State.leOf (s : State) (p le : Nat) : Bytes := if p = 0 && !s.crd.proto then [] else [BitVec.ofNat 8 le]

/-- The AID of the custodian application. -/
def custAid : Bytes := [0xF0, 0x53, 0x56, 0x52, 0x4C, 0x43, 0x55, 0x01]

/-- CARD_SELECT. -/
def execCardSelect (p : Nat) (ans : Option CardAnswer) (s : State) : Res :=
  .next (cardCommand p .select true (fun s => ([0x00, 0xA4, 0x04, 0x00, 0x08] ++ custAid, s)) [0x00, 0xA4, 0x04, 0x00] ans s)

/-- GET_CRED. -/
def execGetCred (p : Nat) (ans : Option CardAnswer) (s : State) : Res :=
  .next (cardCommand p .getCred (s.sess p).selected (fun s => (apduHeader 0x10 0 ++ [0x30], s)) (apduHeader 0x10 0) ans s)

/-- AUTH: with an entry of the card to resolve, purpose 0x02; else that of the collection or of the key-loading ceremony (R321, R333). -/
def State.sessPurpose (s : State) (p : Nat) : Nat × Nat := if s.openEntries p ≠ [] then (2, 0xFF) else s.authPurpose

def execAuth (p : Nat) (ans : Option CardAnswer) (s : State) : Res :=
  let (purpose, lease) := if s.exchanging p then ((s.sess p).purpose, (s.sess p).lease) else s.sessPurpose p
  .next (cardCommand p .auth (s.islandHas 64 && (s.sess p).selected && (s.sess p).cred ≠ [] && (s.sess p).verifyAt.isNone)
    (fun s =>
      let (chal, s) := drawIsland 32 s
      let (eph, s) := drawIsland 32 s
      let s := s.modSess p fun x =>
        { x with purpose := purpose, lease := lease, chal := chal, ephPriv := eph, authed := false, key := [], bodies := 0 }
      (apduHeader 0x12 purpose ++ [64] ++ chal ++ fixLen 32 (Config.pubOfRaw 2 eph) ++ s.leOf p 0x60, s))
    (apduHeader 0x12 purpose) ans s)

/-- Objects may move once the session is authenticated and no entry of the card is left to resolve. -/
def State.mayMove (s : State) (p : Nat) : Bool := (s.sess p).authed && s.openEntries p = []

/-- READ_OBJ: a component for a key-loading ceremony, or the ceremony record. -/
def execReadObj (p obj : Nat) (ans : Option CardAnswer) (s : State) : Res :=
  let ok := s.mayMove p && (obj = 0x20 || (1 ≤ obj && obj ≤ 16 && (s.sess p).purpose = 3 &&
    (match s.cust.keyLoad with | some k => !k.gen && k.lease = (s.sess p).lease | none => false)))
  .next (cardCommand p (.readObj obj) ok (fun s => (apduHeader 0x20 obj ++ [0], s)) (apduHeader 0x20 obj) ans s)

/-- A write of object `obj` in this ceremony has not failed. -/
def State.issued (s : State) (since obj : Nat) : Bool :=
  let l := s.cust.journal
  l.any fun r => since < r.seq && r.kind = 1 && r.obj = obj && !(l.any fun o => (o.kind = 3 || o.kind = 6) && o.ref = r.seq)

/-- What WRITE_OBJ writes: component `obj` of a generated key, each once and at most one to a card; or the record of the ceremony that has closed
last, to an officer's card. Answers the plaintext, the lease and the ceremony's number. -/
def State.objectOf (s : State) (p obj : Nat) : Option (Bytes × Nat × Nat) :=
  let x := s.sess p
  if obj = 0x20 then
    match (s.cust.journal.filter fun r => r.kind = 7).getLast? with
    | some r => if x.purpose = 2 then some (r.record, 0xFF, r.ref) else none
    | none => none
  else
    match s.cust.keyLoad, s.position x.cred with
    | some k, some pos =>
      if k.gen && x.purpose = 3 && x.lease = k.lease && 1 ≤ obj && obj ≤ k.parts.length && !k.done.contains pos && !s.issued k.since obj then
        some (leBytes 1 k.type ++ leBytes 1 k.value.length ++ k.parts.getD (obj - 1) [], k.lease, s.cust.number)
      else none
    | _, _ => none

/-- WRITE_OBJ: the PREPARED record is committed before the first data character (R332). -/
def execWriteObj (p obj : Nat) (ans : Option CardAnswer) (s : State) : Res :=
  let o := s.objectOf p obj
  .next (cardCommand p (.writeObj obj) (s.mayMove p && o.isSome)
    (fun s =>
      let (plain, lease, number) := o.getD ([], 0xFF, 0)
      let x := s.sess p
      let s := journal { seq := 0, time := 0, kind := 1, obj := obj, port := p, lease := lease, card := x.cred.take 16,
                         check := objCheck plain, ref := number } s
      let seq := (s.cust.journal.getLast?.map CRec.seq).getD 0
      let body := x.protect (apduHeader 0x22 obj) plain
      let s := s.modSess p fun y => { y with prepared := seq, bodies := y.bodies + 1 }
      (apduHeader 0x22 obj ++ leBytes 1 body.length ++ body, s))
    (apduHeader 0x22 obj) ans s)

/-- CHECK_OBJ. -/
def execCheckObj (p obj : Nat) (ans : Option CardAnswer) (s : State) : Res :=
  .next (cardCommand p (.checkObj obj) (s.sess p).authed (fun s => (apduHeader 0x24 obj ++ [8], s)) (apduHeader 0x24 obj) ans s)

/-- GET_RESPONSE (T=0): the pending response is fetched (R324). -/
def execGetResponse (ans : Option CardAnswer) (s : State) : Res :=
  match s.crd.sess.more with
  | none => .next s
  | some n =>
    if !s.exchanging 0 then .next s
    else
      let apdu : Bytes := [0x00, 0xC0, 0x00, 0x00, BitVec.ofNat 8 n]
      match ans with
      | none => .next (sendCard 0 apdu s)
      | some _ => .next (takeAnswer 0 apdu ans (sendCard 0 apdu (s.modSess 0 fun x => { x with more := none })))

/-- TX bytes of the port's buffer; under T=0 an APDU of case 4 goes out as case 3, without its Le (R324). -/
def State.rawApdu (s : State) (p : Nat) : Bytes :=
  let tx := (if p = 0 then s.crd.tx else s.ctl.tx).toNat
  let buf := if p = 0 then s.crd.buf else s.ctl.buf
  let apdu := (List.range tx).map fun i => tget 0 buf i
  let lc := (tget 0 buf 4).toNat
  if p = 0 && !s.crd.proto && lc ≠ 0 && tx = 6 + lc then apdu.take (5 + lc) else apdu

/-- A SEND of TX bytes of the port's buffer as one APDU; TX 0 is ignored, and so is a value outside 4 to 261 (R346, R348). -/
def sendRaw (p : Nat) (ans : Option CardAnswer) (s : State) : State :=
  let tx := (if p = 0 then s.crd.tx else s.ctl.tx).toNat
  let apdu := s.rawApdu p
  cardCommand p .raw (4 ≤ tx && tx ≤ 261) (fun s => (apdu, s)) (apdu.take 4) ans s

def execCrdSend (ans : Option CardAnswer) (s : State) : Res := .next (sendRaw 0 ans (wrote 0x600B0000 s))
def execCtlSend (ans : Option CardAnswer) (s : State) : Res := .next (sendRaw 1 ans (wrote 0x600C0000 s))

/-! ### Counting (R321) -/

/-- The message a custodian signs. -/
def State.authMessage (s : State) (x : Sess) : Bytes :=
  ascii "SVRL-CUST" ++ fixLen 16 s.ident.unit ++ leBytes 1 x.purpose ++ leBytes 1 x.lease ++ x.chal ++ fixLen 32 (Config.pubOfRaw 2 x.ephPriv) ++
    x.cardEph

/-- The verification of 40 tk ends: its session is authenticated, and its card counts where a collection of its purpose and lease is under
way. -/
def finishAuth (p : Nat) (fresh : List Nat) (s : State) : State :=
  let x := s.sess p
  match Config.edVerify (x.cred.drop 16) (s.authMessage x) x.sig, Config.agree 2 x.ephPriv x.cardEph with
  | true, some shared =>
    let key := fixLen 32 (Config.macRaw 8 32 shared (ascii "SVRL-CSES") x.chal)
    let s := s.modSess p fun y => { y with verifyAt := none, authed := true, key := key }
    if s.cust.collect.isSome && (x.purpose, x.lease) = s.authPurpose then countCustodian x.cred fresh s else s
  | _, _ => failSession p s

/-- CUSTODIAN_COUNTED: 40 ticks after the AUTH was answered; in one tick the contact port's card comes first. `fresh` is the sensor sample of
an officer unlock that this count completes. -/
def execCustodianCounted (p : Nat) (fresh : List Nat) (s : State) : Res :=
  match (s.sess p).verifyAt with
  | none => .next s
  | some t =>
    let first := p ≠ 0 && (match s.crd.sess.verifyAt with | some u => u ≤ t | none => false)
    if !s.running || !s.islandDone t 40 || first || (p ≠ 0 && p ≠ 1) then .next s else .next (finishAuth p fresh s)

/-! ### The reader (R335-R337) -/

/-- The field is on at full strength, or a detection ping is due: the reader works with main power. -/
def readerRow (st : CtlState) (f : State → State) (s : State) : Res := if s.running && s.ctl.st = st then .next (f s) else .next s

/-- LPCD_PING: the first ping of a detection sets the reference; a detuning by THRESH/1,024 of it turns the field on (R336). -/
def execLpcdPing (amp : Nat) (s : State) : Res :=
  readerRow .lpcd (fun s => s.modCtl fun c =>
    let c := { c with lastPing := amp }
    match c.ref with
    | none => { c with ref := some amp }
    | some r =>
      if c.thresh.toNat * r ≤ 1024 * ((amp - r) + (r - amp)) then { c with st := .poll, wupas := 0, reqas := 0, cards := 0 } else c) s

/-- An ATQA arrives: anticollision begins at cascade level 1. -/
def startAnticoll (s : State) : State := s.modCtl fun c => { c with st := .anticoll, level := 1, bits := [], uid := [], reqas := 0 }

/-- WUPA, up to 3 of them: event 11 for an answer; after the third without one the field goes off, the last measurement becomes the reference,
and event 12 is raised. -/
def execWupa (answered : Bool) (s : State) : Res :=
  readerRow .poll (fun s =>
    if s.ctl.cards ≠ 0 then s
    else
      let s := sendCard 1 [0x52] (s.modCtl fun c => { c with wupas := c.wupas + 1 })
      if answered then raiseCust 11 (startAnticoll s)
      else if s.ctl.wupas < 3 then s
      else
        let last := s.ctl.lastPing
        raiseCust 12 ((fieldOff false s).modCtl fun c => { c with ref := some last })) s

/-- REQA after a halted card; three in a row without an answer turn the field off. -/
def execReqa (answered : Bool) (s : State) : Res :=
  readerRow .poll (fun s =>
    if s.ctl.cards = 0 then s
    else
      let s := sendCard 1 [0x26] (s.modCtl fun c => { c with reqas := c.reqas + 1 })
      if answered then startAnticoll s else if s.ctl.reqas < 3 then s else fieldOff false s) s

/-- The SEL code of a cascade level. -/
def selCode (level : Nat) : Byte := BitVec.ofNat 8 (0x91 + 2 * level)

/-- The bytes of a string of bits, bit 0 first; the last byte is padded with zeros. -/
def bitsToBytes (l : List Bool) : Bytes :=
  (List.range (ceilDiv l.length 8)).map fun j =>
    BitVec.ofNat 8 ((List.range 8).foldl (fun v i => v + 2 ^ i * bit (l.getD (8 * j + i) false)) 0)

/-- ANTICOLLISION: the answer's bits follow the bits known. At a first collision at bit k below 32, bits 0 to k - 1 are kept and bit k is 1; a
collision in the BCC, or a wrong BCC, ends the field session. -/
def execAnticollision (answer : List Bool) (coll : Option Nat) (s : State) : Res :=
  readerRow .anticoll (fun s =>
    let known := s.ctl.bits
    if s.ctl.card || 40 ≤ known.length then s
    else
      let nvb := 16 * (2 + known.length / 8) + known.length % 8
      let s := sendCard 1 ([selCode s.ctl.level, BitVec.ofNat 8 nvb] ++ bitsToBytes known) s
      let all := known ++ answer
      match coll with
      | some k =>
        if 32 ≤ k then fieldOff false s
        else if k < known.length || all.length < k then s
        else s.modCtl fun c => { c with bits := all.take k ++ [true] }
      | none =>
        if all.length = 40 && (bitsToBytes all).foldl (· ^^^ ·) 0 = 0 then s.modCtl fun c => { c with bits := all } else fieldOff false s) s

/-- READER_SELECT: SELECT with the level's UID bytes and BCC. SAK bit 2 leads to the next cascade level; otherwise the card is selected. -/
def execReaderSelect (sak : Byte) (s : State) : Res :=
  readerRow .anticoll (fun s =>
    if s.ctl.card || s.ctl.bits.length ≠ 40 then s
    else
      let uid := bitsToBytes s.ctl.bits
      let frame := [selCode s.ctl.level, 0x70] ++ uid
      let s := sendCard 1 (frame ++ crcA frame) s
      if sak.getLsbD 2 then
        if 3 ≤ s.ctl.level then fieldOff false s
        else s.modCtl fun c => { c with level := c.level + 1, bits := [], uid := c.uid ++ slice uid 1 3 }
      else s.modCtl fun c => { c with card := true, uid := c.uid ++ uid.take 4, rate := 0, sess := {} }) s

/-- The highest rate that TA1 offers in both directions (R335). -/
def bestRate (ta1 : Byte) : Nat :=
  if ta1.getLsbD 2 && ta1.getLsbD 6 then 3 else if ta1.getLsbD 1 && ta1.getLsbD 5 then 2 else if ta1.getLsbD 0 && ta1.getLsbD 4 then 1 else 0

/-- RATS, answered with TA1 (0 where absent) and FWI: FSDI 8, no CID; an FWI above 14 is a failure of the card. -/
def execRats (ta1 : Byte) (fwi : Nat) (s : State) : Res :=
  readerRow .anticoll (fun s =>
    if !s.ctl.card then s
    else
      let s := sendCard 1 ([0xE0, 0x80] ++ crcA [0xE0, 0x80]) s
      if 14 < fwi then failSession 1 s else s.modCtl fun c => { c with st := .ready, rate := bestRate ta1 }) s

/-- The selected card is halted and the next one is looked for; after 16 cards the field goes off with event 13 and RES LIMIT (R337). -/
def haltCard (s : State) : State :=
  if !s.running || !s.ctl.card || s.ctl.st = .exchange then s
  else
    let s := sendCard 1 ([0x50, 0x00] ++ crcA [0x50, 0x00]) s
    let n := s.ctl.cards + 1
    let s := s.modCtl fun c => { c with st := .poll, card := false, rate := 0, reqas := 0, cards := n, bits := [], uid := [], sess := {} }
    if n < 16 then s else raiseCust 13 (setRes 1 7 (fieldOff false s))

def execHlta (s : State) : Res := .next (haltCard s)
def execCtlHalt (s : State) : Res := .next (haltCard (wrote 0x600C0000 s))

/-- CTL_CTL.OFF = 1. -/
def ctlOff (lastSent : Bool) (s : State) : State := if s.ctl.st = .off || s.ctl.st = .lpcd then s else fieldOff lastSent s

def execCtlOff (lastSent : Bool) (s : State) : Res := .next (ctlOff lastSent (wrote 0x600C0000 s))

/-- CTL_CTL.LPCD: detection starts, and its first ping sets the reference; or it stops. -/
def lpcdEnable (on : Bool) (s : State) : State :=
  s.modCtl fun c =>
    if on then (if c.st = .off then { c with lpcd := true, st := .lpcd, ref := none } else { c with lpcd := true })
    else if c.st = .lpcd then { c with lpcd := false, st := .off, ref := none } else { c with lpcd := false }

def execCtlLpcdEnable (on : Bool) (s : State) : Res := if s.running then .next (lpcdEnable on (wrote 0x600C0000 s)) else .next s

/-! ### The need of R325 -/

/-- The end of a tick: where the need has begun, a card that is present is activated and detection starts; where it has ended, the card is
deactivated, after an exchange under way, and detection stops (R325, R330, R336; log 158). -/
def followNeed (s : State) : State :=
  let put := fun (b : Bool) (s : State) => lpcdEnable b (s.modCust fun c => { c with needed := b })
  if !s.running then s
  else if s.cardNeed && !s.cust.needed then
    let s := put true s
    if s.crd.present && s.crd.st = .off then activate 3 (s.modCrd fun c => { c with warm := false, cold := false }) else s
  else if !s.cardNeed && s.cust.needed && !s.exchanging 0 then
    let s := put false s
    if s.crd.st = .off then s else deactivate false s
  else s

end Sys2Proof.Machine
end

