-- ==== Sys2Proof/Machine/Events.lean ====
section
/-! DEFINITION. The event network's own rows: notification, the FAULT_N pulse, severities, acknowledgement, the event queue (R424-R433,
R444). -/

namespace Sys2Proof.Machine
open Sys2Proof

/-- FAULT_NOTIFY in the tick after a record opens: the PF's message, the in-band interrupt or alert, as routed (R432). -/
def execFaultNotify (s : State) : Res :=
  match s.flt.notify with
  | none => .next s
  | some t =>
    if s.pw.now ≤ t then .next s
    else
      let s := { s with flt := { s.flt with notify := none }, out := { s.out with ibi := s.flt.route.getLsbD 8 } }
      let s := buildService s
      .next (if s.flt.route.getLsbD 7 then sendMsix 0 (s.flt.route.toNat % 64) s else s)

/-- FAULT_PULSE_END: the pulse has lasted its 40 tk, and the pin follows FLT_PIN.LOW again (R431). -/
def execFaultPulseEnd (s : State) : Res :=
  match s.flt.pulseEnd with
  | none => .next s
  | some e => if s.pw.now ≤ e then .next s else .next { s with flt := { s.flt with pulseEnd := none } }

/-- FAULT_N is pulsed in this tick (R431). -/
def State.pulsing (s : State) : Bool :=
  match s.flt.pulseEnd with
  | none => false
  | some e => s.flt.pulseFrom ≤ s.pw.now && s.pw.now ≤ e

/-- The level of FAULT_N: not driven in VAULT and STANDBY (R431). -/
def State.faultLevel (s : State) : Bool := !(s.mainPower && (s.pulsing || s.flt.low))

/-! ### Severities (R424, R433, R444) -/

/-- The severity and pin flag of a source from the tick after the write, refused below the floor. -/
def severityLater (e : Nat) (sev : BitVec 2) (pin : Bool) (s : State) : State :=
  { s with flt := { s.flt with sevPend := s.flt.sevPend ++ [(e, sev, pin)] } }

/-- The entry of source e: a value below the floor, or with a reserved bit, is RANGE; outside the tamper group it is stored, and acts at once
only while FLT_CTL.LOCK is clear (R444). -/
def severityEntry (e : Nat) (v : Nat) (s : State) : DStat × State :=
  let sev := v % 4
  if v / 64 ≠ 0 || v / 8 % 2 = 1 || sev < srcFloor e then (.range, s)
  else
    let pin := v / 4 % 2 = 1
    let s := if isTamper e then s else
      { s with flt := { s.flt with stSev := tset none s.flt.stSev e (some (BitVec.ofNat 2 sev)), stPin := tset false s.flt.stPin e pin } }
    (.ok, if isTamper e || !s.flt.lock then severityLater e (BitVec.ofNat 2 sev) pin s else s)

/-- The source that an index of 0x6100 or 0x6200 names, with its subindex (R444). -/
def sourceOf (base index sub : Nat) : Option Nat :=
  if base ≤ index && index ≤ base + 8 && 1 ≤ sub && sub ≤ 128 then some (128 * (index - base) + sub - 1) else none

/-- SEVERITY_WRITE, entry 0x6100-0x6108: HOST before FIELD, OFFICER in FIELD; an absent source answers NO_ENTRY. -/
def execSeverityWrite (r : Req) (value : Bytes) (s : State) : Res :=
  match sourceOf 0x6100 r.index r.sub with
  | none => .next s
  | some e =>
    if !s.srcPresent e then .next (request r 0x03 (fun s => (.noEntry, [], s)) s)
    else .next (writeEntry r { host := s.lcs.state.beforeField, officer := s.lcs.state = .field } 1 value (severityEntry e (leNat value)) s)

/-! ### Acknowledgement (R428) -/

/-- STALE is 1, NONE is 2; an accepted acknowledgement closes the record at the end of the tick, unless a later event of the tick makes it stale. -/
def acknowledge (also : BitVec 16) (s : State) : DStat × State :=
  match s.flt.rec_ with
  | none => (.refused, { s with flt := { s.flt with ackRefusal := 2 } })
  | some r =>
    if r.also = also then (.ok, { s with flt := { s.flt with closing := true, ackAlso := also } })
    else (.refused, { s with flt := { s.flt with ackRefusal := 1 } })

def execFltAckGo (also : BitVec 16) (s : State) : Res := if s.islandRuns then .next (acknowledge also s).2 else .next s

/-! ### The event queue (R430, R433) -/

/-- An entry as FLT_Q reads it. -/
def EvEntry.word (x : EvEntry) : Nat :=
  x.event + 2 ^ 16 * (x.tick.toNat % 2 ^ 32) + 2 ^ 48 * x.lease + 2 ^ 56 * x.sev + 2 ^ 63

/-- A read of byte 0 of FLT_Q takes the oldest entry. -/
def takeEvent (s : State) : Nat × State :=
  match s.flt.queue with
  | [] => (0, s)
  | x :: r => (x.word, { s with flt := { s.flt with queue := r } })

def execFltQRead (s : State) : Res :=
  if s.islandRuns then
    let (w, s) := takeEvent s
    .next { s with out := { s.out with bus := .ok (leBytes 8 w) } }
  else .next s

/-- EVENT_QUEUE_DRAIN: island firmware moves the n oldest entries, at least 8 in a tick with main power and 1 in STANDBY, into the event log
of 1,024 entries (R430). -/
def execEventQueueDrain (n : Nat) (s : State) : Res :=
  if !s.islandRuns || s.flt.queue = [] then .next s
  else
    let m := max n (if s.mainPower then 8 else 1)
    let log := s.flt.evlog ++ s.flt.queue.take m
    .next (bumpGen 0x6010 0 { s with flt := { s.flt with queue := s.flt.queue.drop m, evlog := log.drop (log.length - 1024) } })

end Sys2Proof.Machine
end

