-- ==== Sys2Proof/Machine/Power.lean ====
section
/-! DEFINITION. Power, resets, operating modes, the boot ROM, and island firmware's work at a start (R45, R211, R219, R251, R334, R366, R382,
R404, R421, R429, R434-R439, R463, R472-R474, R482). -/

namespace Sys2Proof.Machine
open Sys2Proof

/-! ### Modes (R434, R435) -/

/-- Auxiliary power is there and nothing holds the device in reset (R473, R474). -/
def State.powered (s : State) : Bool := s.pw.vio3 && s.pw.sysRst && !s.pw.supplyHold && s.pw.stage ≠ .off

/-- The first row of R434 whose condition holds. -/
def State.modeOf (s : State) : Mode :=
  let startPass := match s.flg.pass with | some p => p.start && s.flg.state ≠ .held | none => false
  if !s.powered then .vault
  else if !s.pw.pwrok then .standby
  else if s.vault.latch then .lockdown
  else if s.pw.recovery || s.pw.stage = .romRecovery then .recovery
  else if s.pw.stage ≠ .running || s.lcs.pend.isSome || startPass then .guard
  else if s.galleryOpen then .gallery
  else if s.cust.ceremony.isSome then .ceremony
  else .service

/-- The mode has lease work. -/
def Mode.works (m : Mode) : Bool := m = .service || m = .ceremony || m = .gallery

/-- MODE_CHANGE, at a tick boundary: the new mode, with R102 where it has no lease work, and power event 0. -/
def execModeChange (s : State) : Res :=
  let m := s.modeOf
  if m = s.pw.mode || s.lcs.state = .scrapped then .next s
  else
    let s := { s with pw := { s.pw with mode := m } }
    .next (modeEvent m (if m.works then s else stopLeaseWork s))

/-- DIE_TEMP_HIGH: the die temperature passes +105 °C upwards, or falls back under it (R421, R478). -/
def execDieTempHigh (high : Bool) (s : State) : Res :=
  let t := { s with pw := { s.pw with dieHot := high } }
  .next (if high && !s.pw.dieHot && s.powered then raisePower 4 t else t)

/-- The clock domains that run (R438). -/
def State.domainRuns (s : State) (d : Nat) : Bool :=
  let aux := s.powered
  if d = 1 || d = 2 then true
  else if d = 3 || d = 6 || d = 23 || d = 25 then aux
  else if d = 4 then aux && s.pw.pwrok
  else if d = 5 then s.mainPower && (s.link.up || s.pw.perst) -- it trains while PERST_N is high and it is not up (log 154)
  else if 7 ≤ d && d ≤ 22 then
    d - 7 < s.nBench && s.mainPower && ((s.bench (d - 7)).state = .waking || (s.bench (d - 7)).state = .ready)
  else if d = 24 then s.mainPower
  else if d = 26 then s.mainPower && s.flg.pass.isSome
  else if d = 27 then s.mainPower && (s.flg.pass.isSome || s.flg.connected)
  else if d = 28 then s.crd.st ≠ .off
  else if d = 29 then s.readerField
  else d = 30 && s.tag.st ≠ .off

/-- CLOCK_MONITOR_FAULT: only domains 4, 5, 23, 24 and 25 are checked; power event 5 (R439). -/
def execClockMonitorFault (d : Nat) (s : State) : Res :=
  if !(d = 4 || d = 5 || d = 23 || d = 24 || d = 25) || !s.domainRuns d then .next s
  else .next (raisePower 5 { s with flt := { s.flt with clkMon := s.flt.clkMon ||| BitVec.ofNat 30 (2 ^ (d - 1)) } })

/-! ### The boot ROM (R377, R385, R463) -/

/-- An accepted image runs: its identity, the island cores out of RESET, and the jump to offset 64 in place on the first of them. -/
def runImage (img : Image) (s : State) : State :=
  let s := { s with ident := { s.ident with fwVersion := img.version, fwDigest := img.digest } }.modPfl fun p => { p with svn := img.svn }
  (s.modCore 64 fun x => { x with state := .run, pc := 64, win := tset 0 x.win 0 bootWindow }).modCore 65 fun x => { x with state := .run }

/-- A reset from the boot ROM: with main power the wipe runs again, without it the boot ROM alone. -/
def romReset (s : State) : State := if s.pw.pwrok then deviceReset s else modeEvent .standby (resetState .rom .standby s)

/-- What the boot ROM does after a reset, once the flash controller is not busy (R458): the active image starts; for a good twin the swap pair is
written, and when that is done event 10 is raised and the device resets (log 129); or firmware recovery begins. It derives the identity layers, and
stops at a UDS that fails its check. -/
def bootRom (s : State) : State :=
  let a := s.pfl.active.toNat
  let at_ := fun (st : Stage) (s : State) => { s with pw := { s.pw with stage := st } }
  if s.lcs.state = .scrapped || s.pfl.busy then at_ .rom s
  else
    match s.image a with
    | some img =>
      let s := runImage img s
      let bad : Bool := match s.lcs.uds with | some u => sha3 u ≠ s.lcs.udsCheck | none => false
      if bad then at_ .udsFailed (s.modLcs fun l => { l with failed := true }) else at_ .island (deriveIdentity s)
    | none =>
      let s := (s.modCore 64 fun x => { x with state := .run }).modCore 65 fun x => { x with state := .run }
      match s.image (1 - a) with
      | some _ =>
        if s.pfl.swpend then romReset (raiseFlash 10 s)
        else at_ .rom (raiseFlash 9 (s.modPfl fun p => { p with swapping := some 8012000 }))
      | none => at_ .romRecovery (raiseFlash 11 s)

/-- A fault record from its 32 bytes (R425). -/
def recOf (b : Bytes) : Rec :=
  let f := fieldLE b 3 1
  { first := fieldLE b 0 2, sev := fieldLE b 2 1, open_ := f.testBit 0, latch := f.testBit 1, inj := f.testBit 2, qlost := f.testBit 3,
    lease := fieldLE b 4 1, bench := fieldLE b 5 1, also := BitVec.ofNat 16 (fieldLE b 6 2), tick := BitVec.ofNat 64 (fieldLE b 8 8),
    time := BitVec.ofNat 64 (fieldLE b 16 8), groups := BitVec.ofNat 64 (fieldLE b 24 8), openedAt := 0 }

/-- The history is seeded from the tag's service area (R429). -/
def seedHistory (s : State) : State :=
  let b := s.tag.area 3
  if slice b 1024 4 ≠ ascii "SVFS" then s
  else
    let n := min 30 (fieldLE b 1029 1)
    { s with flt := { s.flt with history := (List.range n).map fun j => recOf (slice b (1088 + 32 * j) 32) } }

/-- What every start does first: bodies without a commit are discarded (R218, R250, R405), the tamper responses and windows are copied and
TMP_CTL.LOCK is set (R399), the staging log is moved (R404), the ledger is scanned (R265), and the fault history is seeded (R429). -/
def startStores (s : State) : State :=
  let s := pickManifest (s.modVault fun v => { v with log := v.log.filter fun e => e.commit ≠ [], staging := v.staging.map fun x => { x with dropped := false } })
  let s := wrote 0x60070004 (s.modVault fun v => { v with resp := v.stResp, sw := v.stSw, vwin := v.stVwin, lock := true })
  scanLedger (commitTamper (moveStaging (seedHistory s)))

/-- The boot ROM's signatures are made, and island firmware has been given control (R385, log 147). -/
def State.islandDue (s : State) : Bool := s.pw.stage = .island && s.pw.romUntil ≤ s.pw.now

/-- On auxiliary power island firmware serves from the stores on; its other start work waits for main power (R435, R436). -/
def auxStart (s : State) : State :=
  if s.islandDue && !s.pw.pwrok then startStores { s with pw := { s.pw with stage := .running } } else s

/-- RESET_WIPE_END: 1,536 tk after the reset (R45); the boot ROM then waits for an operation of the flash that the reset has left running (R458). -/
def execResetWipeEnd (s : State) : Res :=
  if !s.powered || !((s.pw.stage = .wipe && s.pw.wipeEnd ≤ s.pw.now) || (s.pw.stage = .rom && s.lcs.state ≠ .scrapped)) then .next s
  else .next (auxStart (bootRom s))

/-! ### Supplies and reset pins (R473, R474, R482) -/

/-- A main-power reset: wipe, boot ROM, GUARD (R435). -/
def mainPowerReset (s : State) : State :=
  let t := deviceReset s
  { t with pw := { t.pw with pwrokAt := t.pw.now, fclkAt := t.pw.now } }

/-- Leaving VAULT: the straps are sampled, the island starts on auxiliary power; a PLT_PWROK that is high is acted on (R474, R482). -/
def powerUp (straps : BitVec 2) (s : State) : State :=
  if s.pw.stage ≠ .off || !s.pw.vio3 || !s.pw.sysRst || s.pw.supplyHold then s
  else
    let s := { s with pw := { s.pw with mgtStraps := straps, stage := .rom } }
    if s.pw.pwrok then mainPowerReset s else auxStart (bootRom (modeEvent .standby (resetState .rom .standby s)))

/-- Entering VAULT: only the vault domain goes on; the flash loses its power (R412, R460, R474). -/
def powerDown (s : State) : State := if s.pw.stage = .off then s else resetState .off .vault (flashPowerLoss s)

/-- MAIN_POWER_RESET: PLT_PWROK rises; while SYS_RST_N is low it is acted on at the rise of SYS_RST_N. -/
def execMainPowerReset (s : State) : Res :=
  if s.pw.pwrok || s.lcs.state = .scrapped then .next s
  else
    let t := { s with pw := { s.pw with pwrok := true } }
    .next (if t.powered then mainPowerReset t else t)

/-- The benches go OFF, with their contents in retention (R435, R440). -/
def benchesOff (s : State) : State :=
  forN s.nBench (fun n t => t.modBench n fun b => if b.state = .off then b else { b with state := .off, idleFrames := 0, offReq := false })
    { s with pwr := { s.pwr with fifo := [], newReq := [] } }

/-- PLT_PWROK_FALL: main power is lost; power event 8, the benches are OFF, the host is held and a pass is over (R242, R421, R435). -/
def execPltPwrokFall (s : State) : Res :=
  if !s.pw.pwrok then .next s
  else
    let t := if s.powered then raisePower 8 s else s
    let t := { t with pw := { t.pw with pwrok := false, recovery := false, fclkAt := t.pw.now } }
    if !s.powered then .next t
    else .next (auxStart ((holdPlatform (benchesOff (stopLeaseWork t))).modFlg fun g =>
      { g with pass := none, state := .released, bmcb := if g.pass.isSome then g.owner = 1 else g.bmcb }))

/-- SYS_RST_RISE. VIO3 rises before it (R473). -/
def execSysRstRise (straps : BitVec 2) (s : State) : Res :=
  if s.pw.sysRst || !s.pw.vio3 || s.lcs.state = .scrapped then .next s else .next (powerUp straps { s with pw := { s.pw with sysRst := true } })

/-- SYS_RST_FALL. -/
def execSysRstFall (s : State) : Res :=
  if s.pw.sysRst then .next (powerDown { s with pw := { s.pw with sysRst := false } }) else .next s

/-- SUPPLY_MONITOR_RESET: VCORE or VIO3 is below 90 % of nominal (`low`), VIO3 being present or not; or both are back in range and the device
starts. -/
def execSupplyMonitorReset (low vio3 : Bool) (s : State) : Res :=
  if low then .next (powerDown { s with pw := { s.pw with supplyHold := true, vio3 := vio3 } })
  else .next (powerUp s.pw.mgtStraps { s with pw := { s.pw with supplyHold := false, vio3 := true } })

/-! ### Island firmware's start (R211, R219, R334, R366, R380, R382, R404, R424, R429) -/

/-- The stored keys and ESTATE match their fuses (R380). -/
def LcsSt.matchesFuses (l : LcsSt) : Bool :=
  !(l.state = .claimed || l.state = .field || l.state = .ret) ||
    (sha3 (l.ownerEd ++ l.ownerMl) = l.ownerFuse && sha3 (l.manEd ++ l.manMl) = l.manFuse && sha3 l.estate = l.estateFuse)

/-- A new bedrock, in CLAIMED or FIELD where there is none, the lock latch is clear and random numbers are ready; the store written under the old
one is scrubbed (R211, R401). -/
def makeBedrock (s : State) : State :=
  if s.vault.bedrock.isSome || s.vault.latch || !(s.lcs.state = .claimed || s.lcs.state = .field) || !(s.exp 16).ready then s
  else
    let (b, s) := drawIsland 32 s
    scrubStore (s.modVault fun v => { v with bedrock := some b, bedGen := v.bedGen + 1 })

/-- The persistent severities, pin flags and routing are loaded, then FLT_CTL.LOCK is set; the idle counts are loaded (R424, R444). -/
def loadEntries (s : State) : State :=
  let f := s.flt
  let sev := f.stSev.foldl (fun t (e : Nat × Option (BitVec 2)) => if isTamper e.1 then t else tset none t e.1 e.2) f.sev
  let pin := f.stPin.foldl (fun t (e : Nat × Bool) => if isTamper e.1 then t else tset false t e.1 e.2) f.pin
  wrote 0x60080000 { s with flt := { f with sev := sev, pin := pin, route := f.stRoute, lock := true }, pwr := { s.pwr with idle := s.pwr.stIdle } }

/-- A plan over the shadow table it replaces: on a spare bench an entry that names a lease is taken only where the shadow holds that lease
already, and otherwise the shadow's entry stays (R20, log 118). -/
def overSpares (spare : Nat → Bool) (old plan : Tbl Nat) : Tbl Nat :=
  let ok := fun (e : Nat × Nat) => !spare e.1 || tget 0xFF old e.1 = e.2
  (plan.filter fun e => !ok e).foldl (fun t e => tset 0xFF t e.1 (tget 0xFF old e.1)) (plan.filter ok)

/-- The stored plans go into the shadows, and a swap is requested (R366). -/
def loadPlans (s : State) : State :=
  let d := s.dsp
  let spare := fun n => (s.bench n).spare
  dspGo { s with dsp := { d with sltS := overSpares (fun i => spare (i / 1280)) d.sltS d.planSlt,
                                 coreS := overSpares (fun c => spare (c / 4)) d.coreS d.planCore,
                                 pageS := overSpares (fun i => spare (i / 64)) d.pageS d.planPage, policyS := d.planPol } }

/-- Challenges of a main-power start: the gallery's, and the unlock's while the latch is set (R388, R408). One that the expander cannot serve yet
stays due (R232, log 127). -/
def drawChallenges (s : State) : State :=
  drawDue ((s.modGal fun g => { g with chalDue := true }).modVault fun v => { v with chalDue := v.latch })

/-- The first pass of a main-power start; none while the latch is set, or after an integrity failure, which holds the host with
MANIFEST_BAD (R251, R380, R435). -/
def firstPass (ok : Bool) (s : State) : State :=
  if !ok then s.modFlg fun g => { g with state := .held, reason := 0x02 }
  else if s.vault.latch then s.modFlg fun g => { g with state := .held }
  else
    let t := startPass false false s
    t.modFlg fun g => { g with pass := g.pass.map fun p => { p with start := true } }

/-- Island firmware's start with main power: the stores, a transition cut off (which ends in a reset), the claimed keys' digests, bedrock, roots,
the yard store, the custodian journal, lease programs, persistent entries, plans, challenges, and the first gate pass; the tag's service area is
rebuilt where the staging log had entries (R413). -/
def islandStart (s : State) : State :=
  let old := (s.vault.log.filter fun e => e.commit ≠ []).length
  let s := startStores (s.modVault fun v => { v with clearedAt := none })
  match s.lcs.intent with
  | some r => completeTransition r (raiseIsland 56 s)
  | none =>
    let ok := s.lcs.matchesFuses
    let s := if ok then s else raiseIsland 59 s
    let s := makeBedrock s
    let s := restoreStore (commitYard (forN s.nLease deriveRoot s))
    let s := scanJournal s
    let s := forN s.nLease startProgram s
    let s := drawChallenges (loadPlans (loadEntries s))
    let s := { s with pw := { s.pw with stage := .running } }
    firstPass ok (if s.vault.log.length = old then s else buildService s)

/-- ISLAND_START, with main power or on auxiliary power, where the boot ROM's signatures have delayed it. -/
def execIslandStart (s : State) : Res :=
  if !s.powered || !s.islandDue || (s.pw.pwrok && s.lcs.intent.any (fun r => r.to_ = Lcs.tested.code) && !s.islandHas 32) then .next s
  else if s.mainPower then .next (islandStart s) else .next (auxStart s)

end Sys2Proof.Machine
end

