-- ==== Sys2Proof/Machine/Spdm.lean ====
section
/-! DEFINITION. The SPDM responder and IDE_KM (R269, R369-R371, R387). Connection 0 is DOE on the PF, 1 MCTP on the PF, 2 MCTP on I3C/SMBus. The
message codes are those of DSP0274 (log 19). -/

namespace Sys2Proof.Machine
open Sys2Proof

/-! ### DOE Discovery (R66) -/

/-- The protocols of the PF's DOE: Discovery, SPDM, Secured SPDM. -/
def doeProtocols : List Nat := [0, 1, 2]

/-- The answer of the PF's DOE to a discovery of an index: vendor 0x0001, the protocol, and the next index or 0. It changes no state, and the table
has no row for it (log 131). -/
def State.doeDiscovery (s : State) (i : Nat) : Option Bytes :=
  if s.spdmOpen 0 then (doeProtocols[i]?).map fun p => leBytes 2 0x0001 ++ leBytes 1 p ++ leBytes 1 ((i + 1) % doeProtocols.length) else none

/-! ### Connections -/

/-- Signing and session keys need main power; the island's work waits while a pass runs (R252, R436). -/
def State.spdmSigns (s : State) (c : Nat) : Bool := s.spdmOpen c && s.running && s.flg.pass.isNone && s.islandHas 256 && s.spdm.signing.isNone

/-- ERROR codes. -/
def eInvalid : Nat := 0x01
def eBusy : Nat := 0x03
def eUnexpected : Nat := 0x04
def eDecrypt : Nat := 0x06
def eUnsupported : Nat := 0x07
def eVersion : Nat := 0x41

/-- A message that no endpoint takes: above MaxSPDMmsgSize, or over MCTP above 1,036 bytes (R353, R369). -/
def spdmTooLong (c n : Nat) : Bool := spdmMax < n || (c ≠ 0 && 1036 < n)

/-- A request that needs an earlier phase of its connection; it waits while a signed response of the connection is in the making, and is Busy during a
firmware update (R465). -/
def spdmAt (c phase : Nat) (f : SConn → State → State) (s : State) : Res :=
  if !s.spdmOpen c || s.spdm.signing.any (fun m => m.conn = c) then .next s
  else if s.pfl.upd.isSome then .next (spdmError c eBusy s)
  else if (s.conn c).phase < phase then .next (spdmError c eUnexpected s)
  else .next (f (s.conn c) s)

/-- GET_VERSION: 1.2 and 1.3; the connection begins again. -/
def execSpdmGetVersion (c : Nat) (s : State) : Res :=
  spdmAt c 0 (fun _ s => spdmSend 0x10 0x04 0 0 [0, 2, 0x00, 0x12, 0x00, 0x13] (s.setConn c { phase := 1 })) s

/-- The capabilities of R369 as flag bits. -/
def spdmFlags : Nat := 0x2 + 0x4 + 0x10 + 0x40 + 0x80 + 0x200 + 0x2000 + 0x4000 + 0x20000

/-- GET_CAPABILITIES selects the version of the connection. -/
def execSpdmGetCapabilities (c ver : Nat) (s : State) : Res :=
  spdmAt c 1 (fun x s =>
    if ver ≠ 0x12 && ver ≠ 0x13 then spdmError c eVersion s
    else
      let s := (s.setConn c { x with phase := 2, ver := ver })
      let s := { s with spdm := { s.spdm with ver := 0x0100 + ver % 16 } }
      spdmSend ver 0x61 0 0 ([0, 20, 0, 0] ++ leBytes 4 spdmFlags ++ leBytes 4 4096 ++ leBytes 4 8192) s) s

/-- ALGORITHMS: 52 bytes with its 4-byte header; DMTF measurements with SHA-384, the signature algorithm, SHA-384, and the structures of DHE
(secp384r1) and AEAD (AES-256-GCM), each 0 where it was not offered (R369). -/
def algorithmsBody (x : SConn) (dhe aead : Bool) : Bytes :=
  let pick := fun (b : Bool) (v : Nat) => if b then v else 0
  leBytes 2 44 ++ leBytes 1 (pick x.meas 1) ++ [0] ++ leBytes 4 (pick x.meas 4) ++ leBytes 4 (if x.asym = 1 then 0x400 else 0x80) ++ leBytes 4 2 ++
    List.replicate 16 0 ++ [2, 0x20] ++ leBytes 2 (pick dhe 0x10) ++ [3, 0x20] ++ leBytes 2 (pick aead 2)

/-- NEGOTIATE_ALGORITHMS: which of the two signature algorithms the requester offers, and whether it offers SHA-384, DMTF measurements, secp384r1 and
AES-256-GCM. Ed25519 is taken where both are offered (log 19). -/
def execSpdmNegotiateAlgorithms (c : Nat) (ed p384 : Bool) (offer : SpdmOffer) (s : State) : Res :=
  spdmAt c 2 (fun x s =>
    if !offer.sha || !(ed || p384) then spdmError c eInvalid s
    else
      let x := { x with phase := 3, asym := if ed then 1 else 2, meas := offer.meas, keys := offer.dhe && offer.aead }
      spdmSend x.ver 0x63 2 0 (algorithmsBody x offer.dhe offer.aead) (s.setConn c x)) s

/-- Bytes of the first DER element of a list. -/
def derFirst (b : Bytes) : Bytes :=
  let n := (b[1]?.getD 0).toNat
  if n < 0x80 then b.take (2 + n) else b.take (2 + (n - 0x80) + beNat (slice b 2 (n - 0x80)))

/-- The chain of slot 0 for the negotiated algorithm, as GET_CERTIFICATE gives it: its length, the SHA-384 of the root certificate, the certificates
with the alias certificate at their end (R369, R387). -/
def State.chain (s : State) (x : SConn) : Bytes :=
  let b := s.x509 (chainSub x.asym)
  leBytes 2 (52 + b.length) ++ [0, 0] ++ sha384 (derFirst b) ++ b

def execSpdmGetDigests (c : Nat) (s : State) : Res := spdmAt c 3 (fun x s => spdmSend x.ver 0x01 0 1 (sha384 (s.chain x)) s) s

/-- GET_CERTIFICATE: slot 0 only; a portion and what remains. -/
def execSpdmGetCertificate (c slot off len : Nat) (s : State) : Res :=
  spdmAt c 3 (fun x s =>
    let b := s.chain x
    if slot ≠ 0 || b.length ≤ off then spdmError c eInvalid s
    else
      let p := (b.drop off).take (min len 4088)
      spdmSend x.ver 0x02 0 0 (leBytes 2 p.length ++ leBytes 2 (b.length - off - p.length) ++ p) s) s

/-- A signed response starts: the signature of the negotiated algorithm over the transcript and the body, with a hedge drawn for P-384, and the
ML-DSA-65 half of the same message (R136, R138, R370). `failed` is a fault of the cutter's verification. -/
def spdmSigned (c code p1 : Nat) (sess : Option Nat) (session : Option SSess) (failed : Bool) (transcript body : Bytes) (s : State) : State :=
  let (rnd, s) := drawIsland 32 s
  let (hedge, s) := drawIsland 48 s
  let msg := transcript ++ body
  let ed := (s.conn c).asym = 1
  let sig := if ed then edSign (s.aliasSeed 0) msg else (ecdsaSign 4 (s.aliasSeed 1) (sha384 msg) hedge).getD []
  let good := if ed then Config.edVerify (pubOf 1 (s.aliasSeed 0)) msg sig
    else Config.ecdsaVerify 4 (pubOf 4 (s.aliasSeed 1)) (sha384 msg) sig
  let due := s.pw.now + max (if ed then 64 else 120) (mlTicks (s.aliasSeed 2) msg rnd)
  { s with spdm := { s.spdm with signing := some { conn := c, sess := sess, code := code, p1 := p1, msg := msg, body := body, sig := sig,
                                                    good := good && !failed, xi := s.aliasSeed 2, rnd := rnd, session := session, due := due } },
           out := { s.out with spdm := [] } }

/-- CHALLENGE: `transcript` is what the signature covers before the response, `failed` a verification before release that failed. -/
def execSpdmChallenge (c slot : Nat) (transcript : Bytes) (failed : Bool) (s : State) : Res :=
  spdmAt c 3 (fun x s =>
    if slot ≠ 0 then spdmError c eInvalid s
    else if !s.spdmSigns c then s
    else
      let (nonce, s) := drawIsland 32 s
      spdmSigned c 0x03 0 none none failed transcript (sha384 (s.chain x) ++ nonce) s) s

/-! ### Measurements (R269) -/

/-- The value of a measurement index: its DMTF value type and bytes. -/
def State.measurement (s : State) (i : Nat) : Option (Nat × Bytes) :=
  let newest := s.ldg.record s.ldg.newest
  match s.flg.last with
  | none => if i = 1 then some (0x00, fixLen 48 s.ident.romDigest) else if i = 2 then some (0x01, fixLen 48 s.ident.fwDigest)
    else if newest = [] then none else if i = 0xE0 then some (0x03, sha384 newest) else if i = 0xE1 then some (0x83, newest) else none
  | some p =>
    let n := p.results.length
    if i = 1 then some (0x00, fixLen 48 s.ident.romDigest)
    else if i = 2 then some (0x01, fixLen 48 s.ident.fwDigest)
    else if i = 3 then if p.manifest = [] then none else some (0x03, sha384 (manifestSigned p.manifest))
    else if i = 4 then
      some (0x83, leBytes 1 (if p.manifest = [] then 0xFF else fieldLE p.manifest 48 1) ++ leBytes 1 p.verdict ++ leBytes 1 p.reason ++ leBytes 1 n)
    else if 0x10 ≤ i && i < 0x10 + n then (p.results[i - 0x10]?).map fun r => (0x01, r.digest)
    else if newest = [] then none
    else if i = 0xE0 then some (0x03, sha384 newest) else if i = 0xE1 then some (0x83, newest) else none

/-- A measurement block. -/
def measBlock (i : Nat) (v : Nat × Bytes) : Bytes :=
  leBytes 1 i ++ [1] ++ leBytes 2 (3 + v.2.length) ++ leBytes 1 v.1 ++ leBytes 2 v.2.length ++ v.2

/-- The indices that exist. -/
def State.measurements (s : State) : List Nat := (List.range 0xFF).filter fun i => (s.measurement i).isSome

/-! ### Sessions (R369, R371) -/

def State.spdmSession (s : State) (i : Nat) : Option SSess := s.spdm.sessions.find? fun e => e.id = i

/-- A request comes outside a session, or inside an established session of its connection. -/
def State.sessionOk (s : State) (c : Nat) (sess : Option Nat) : Bool :=
  match sess with
  | none => true
  | some i => (s.spdmSession i).any fun e => e.conn = c && e.est

/-- GET_MEASUREMENTS: index 0 asks how many there are, 0xFF for all; Busy while a pass runs. -/
def execSpdmGetMeasurements (c index : Nat) (sign : Bool) (sess : Option Nat) (transcript : Bytes) (failed : Bool) (s : State) : Res :=
  spdmAt c 3 (fun x s =>
    let l := s.measurements
    let pick := if index = 0 then [] else if index = 0xFF then l else [index]
    if !s.sessionOk c sess then spdmError c eUnexpected s
    else if s.flg.pass.isSome then spdmError c eBusy s
    else if !x.meas then spdmError c eUnsupported s
    else if pick.any fun i => (s.measurement i).isNone then spdmError c eInvalid s
    else
      let rec_ := pick.flatMap fun i => match s.measurement i with | some v => measBlock i v | none => []
      let body := leBytes 1 pick.length ++ leBytes 3 rec_.length ++ rec_
      let p1 := if index = 0 then l.length else 0
      if !sign then spdmSend x.ver 0x60 p1 0 body s
      else if !s.spdmSigns c then s
      else
        let (nonce, s) := drawIsland 32 s
        spdmSigned c 0x60 p1 sess none failed transcript (body ++ nonce) s) s

/-- KEY_EXCHANGE: at most four sessions. It needs the key algorithms, and a connection that carries secured messages: not I3C/SMBus (R353). -/
def execSpdmKeyExchange (c : Nat) (exchange transcript : Bytes) (failed : Bool) (s : State) : Res :=
  spdmAt c 3 (fun x s =>
    if c = 2 || !x.keys then spdmError c eUnsupported s
    else if 4 ≤ s.spdm.sessions.length then spdmError c eBusy s
    else if !s.spdmSigns c then s
    else
      let (eph, s) := drawIsland 48 s
      let (rnd, s) := drawIsland 32 s
      let id := s.spdm.nextId
      let e : SSess := { id := id, conn := c, est := false, secret := Config.sessionKey (eph ++ exchange) }
      spdmSigned c 0x64 0 none (some e) failed transcript (leBytes 2 id ++ rnd ++ pubOf 4 eph) s) s

/-- A request inside a session of the connection; a secured message on I3C/SMBus is of no supported type and is dropped (R353). -/
def inSession (c i : Nat) (est : Bool) (f : SSess → State → State) (s : State) : Res :=
  if c = 2 then .next s
  else spdmAt c 3 (fun _ s =>
    match s.spdmSession i with
    | some e => if e.conn = c && e.est = est then f e s else spdmError c eUnexpected s
    | none => spdmError c eUnexpected s) s

def setSessions (f : List SSess → List SSess) (s : State) : State := { s with spdm := { s.spdm with sessions := f s.spdm.sessions } }

/-- FINISH, whose verify data is good or not. -/
def execSpdmFinish (c i : Nat) (good : Bool) (s : State) : Res :=
  inSession c i false (fun e s =>
    if good then spdmSend (s.conn c).ver 0x65 0 0 [] (setSessions (·.map fun x => if x.id = i then { e with est := true } else x) s)
    else spdmError c eDecrypt (setSessions (·.filter fun x => x.id ≠ i) s)) s

def execSpdmHeartbeat (c i : Nat) (s : State) : Res := inSession c i true (fun _ s => spdmSend (s.conn c).ver 0x68 0 0 [] s) s

/-- KEY_UPDATE: operation 1 and 2 derive new keys, 3 verifies them. -/
def execSpdmKeyUpdate (c i op tag : Nat) (s : State) : Res :=
  inSession c i true (fun e s =>
    if op < 1 || 3 < op then spdmError c eInvalid s
    else
      let s := if op = 3 then s else setSessions (·.map fun x => if x.id = i then { e with secret := Config.sessionKey e.secret } else x) s
      spdmSend (s.conn c).ver 0x69 op tag [] s) s

/-- END_SESSION: the session ends, its stream keys stay (R371). -/
def execSpdmEndSession (c i : Nat) (s : State) : Res :=
  inSession c i true (fun _ s => spdmSend (s.conn c).ver 0x6C 0 0 [] (setSessions (·.filter fun x => x.id ≠ i) s)) s

/-- VENDOR_DEFINED_REQUEST: the ML-DSA-65 half of the most recent signed response of the connection or session. -/
def execSpdmVendorDefinedRequest (c : Nat) (sess : Option Nat) (payload : Bytes) (s : State) : Res :=
  if spdmTooLong c (11 + payload.length) then .next s
  else spdmAt c 3 (fun x s =>
    let half := match sess with
      | none => x.half
      | some i => (s.spdmSession i).bind fun e => if e.conn = c && e.est then e.half else none
    if payload ≠ [1] then spdmError c eInvalid s
    else
      match half with
      | none => spdmError c eUnexpected s
      | some h => spdmSend x.ver 0x7E 0 0 ([1] ++ h.1 ++ h.2) s) s

/-- IDE_KM KEY_PROG over a secured session on the PF's DOE: the stream keys. -/
def execIdeKmKeyProg (i : Nat) (keys : Bytes) (s : State) : Res :=
  if spdmTooLong 0 (11 + keys.length) then .next s
  else inSession 0 i true (fun _ s => spdmSend (s.conn 0).ver 0x7E 0 0 [] { s with spdm := { s.spdm with ide := some keys } }) s

end Sys2Proof.Machine
end

