-- ==== Sys2Proof/Machine/Flags.lean ====
section
/-! DEFINITION. Status and flag words, as registers and dictionary entries report them. -/

namespace Sys2Proof.Machine
open Sys2Proof

/-! ### Random chain (R238) -/

/-- HEALTHY: sources neither excluded nor masked, 0 before the first test (the reset value of RNG_STAT). -/
def Rng.healthyField (r : Rng) : Nat := if r.state = .warmup then 0 else r.healthy

def State.rngStat (s : State) : Nat := s.rng.state.code + 2 ^ 8 * s.rng.healthyField + 2 ^ 28 * s.rng.autoLeft
def Exp.word (x : Exp) : Nat :=
  x.reqs.toNat + 2 ^ 32 * (min x.qbytes 65535) + 2 ^ 61 * bit x.stretch + 2 ^ 62 * bit x.blocked + 2 ^ 63 * bit x.ready
def Rng.srcWord (r : Rng) (i : Nat) : Nat :=
  bit (r.excl.getLsbD i) + 2 * bit (r.mask.getLsbD i) + 4 * bit (r.testing.getLsbD i) + 2 ^ 16 * (tget 0 r.rct i).toNat +
    2 ^ 24 * (tget 0 r.apt i).toNat

/-! ### Leases (R59, R70) -/

/-- LSTATE: 0 ACTIVE, 1 DRY, 2 QUARANTINED. A lease of quota 0 is DRY from reset on (R27, log 112). -/
def Lease.lstate (l : Lease) : Nat := if l.quarantined then 2 else if l.quota = 0 then 1 else 0

/-- The lease's grant state: 1 collecting, 2 live (R367). -/
def State.grantState (s : State) (k : Nat) : Nat :=
  match s.cust.collect with
  | some c => if c.purpose = 0 && c.lease = k then 1 else if (s.lease k).grant.isSome then 2 else 0
  | none => if (s.lease k).grant.isSome then 2 else 0

/-- Custodians that have counted in the lease's collection. -/
def State.grantCounted (s : State) (k : Nat) : Nat :=
  match s.cust.collect with
  | some c => if c.purpose = 0 && c.lease = k then c.counted.length else 0
  | none => 0

/-! ### The vault (R414, R415) -/

def State.tmpStat (s : State) : Nat :=
  let v := s.vault
  (v.staging.filter fun e => !e.saved).length + 2 ^ 16 * v.cause.toNat + 2 ^ 29 * bit v.vlost + 2 ^ 30 * bit v.bedrock.isSome + 2 ^ 31 * bit v.latch

/-! ### Versions (R2, R70, R365) -/

/-- A version list: four U16 in ascending order, padded with zeros. -/
def versionList (l : List Nat) : Bytes := fixLen 8 (l.flatMap fun v => leBytes 2 v)

/-- A chosen version as a U16, the major in the high byte; 0 for none. -/
def versionWord (v : Option (Nat × Nat)) : Nat := match v with | some (a, b) => 256 * a + b | none => 0

/-! ### Package flash (R466) -/

def State.pflStat (s : State) : Nat :=
  let p := s.pfl
  let banks := (List.range 4).foldl (fun a b => a + 2 ^ (20 + b) * bit (s.bankBusy b)) 0
  p.res + 2 ^ 16 * bit p.busy + 2 ^ 17 * bit p.queued.isSome + 2 ^ 18 * s.flashPoint + banks + 2 ^ 27 * p.active.toNat + 2 ^ 28 * bit p.swpend +
    2 ^ 29 * bit p.ue + 2 ^ 30 * bit p.clamped + 2 ^ 31 * bit p.err

/-! ### Faults (R433) -/

/-- The severity word of entry 0x6100: SEV, PIN, FLOOR. Outside the tamper group it reads what is stored (R444). -/
def State.severityByte (s : State) (e : Nat) : Nat :=
  let sev := if isTamper e then s.sevOf e else match tget none s.flt.stSev e with | some v => v.toNat | none => (srcTable e).getD 0
  let pin := if isTamper e then tget false s.flt.pin e else tget false s.flt.stPin e
  sev + 4 * bit pin + 16 * srcFloor e

/-- An entry of the event log (R444), with the mode entered for power event 0. -/
def EvEntry.logBytes (x : EvEntry) : Bytes :=
  leBytes 2 x.event ++ leBytes 1 x.sev ++ leBytes 1 x.lease ++ leBytes 8 x.tick.toNat ++ leBytes 1 x.mode ++ [0, 0, 0]

end Sys2Proof.Machine
end

