-- ==== Sys2Proof/Machine/Dict.lean ====
section
/-! DEFINITION. The object dictionary: its entries with their types, rights and values, the Mbokai operations, MCTP control, slot plans, lease
release and quota (R25, R92, R268, R294, R345, R349-R368, R393, R414, R444, R464). -/

namespace Sys2Proof.Machine
open Sys2Proof

/-! ### Types and entries (R360, R361) -/

/-- The value types; OCT with its length, DOMAIN with its maximum. -/
inductive VType where
  | bool | u8 | u16 | u32 | i32 | u64 | time | oct (n : Nat) | vstr | digest | slotref | domain (max : Nat)
  deriving DecidableEq, Repr

/-- The place of a type in R361's table. -/
def VType.place : VType → Nat
  | .bool => 0 | .u8 => 1 | .u16 => 2 | .u32 => 3 | .u64 => 4 | .i32 => 5 | .time => 6 | .oct _ => 7 | .vstr => 8 | .digest => 9
  | .slotref => 10 | .domain _ => 11

/-- Bytes of a value; the maximum of a DOMAIN. -/
def VType.len : VType → Nat
  | .bool => 1 | .u8 => 1 | .u16 => 2 | .u32 => 4 | .u64 => 8 | .i32 => 4 | .time => 8 | .oct n => n | .vstr => 255 | .digest => 48
  | .slotref => 4 | .domain m => m

def VType.isDomain : VType → Bool
  | .domain _ => true
  | _ => false

/-- The persistence classes: volatile, persistent, fused; and the vault domain. -/
inductive Persist where
  | volatile | persistent | fused | vault
  deriving DecidableEq, Repr

def Persist.place : Persist → Nat
  | .volatile => 0 | .persistent => 1 | .fused => 2 | .vault => 3

/-- An entry as a request finds it. -/
structure Entry where
  type  : VType
  read  : Rights
  write : Rights := {}
  keep  : Persist := .volatile
  value : Bytes := []
  deriving DecidableEq, Repr

def rAll : Rights := { host := true, lease := true, bmc := true, officer := true, others := true }
def rHLBO : Rights := { host := true, lease := true, bmc := true, officer := true }
def rHBO : Rights := { host := true, bmc := true, officer := true }
def rHLB : Rights := { host := true, lease := true, bmc := true }
def rHB : Rights := { host := true, bmc := true }
def rHL : Rights := { host := true, lease := true }
def rHO : Rights := { host := true, officer := true }
def rH : Rights := { host := true }
def rO : Rights := { officer := true }
def rBO : Rights := { bmc := true, officer := true }
def rNone : Rights := {}

/-- An entry that is only read. -/
def ro (t : VType) (r : Rights) (v : Bytes) (k : Persist := .volatile) : Option Entry := some { type := t, read := r, keep := k, value := v }
/-- An entry that is read and written. -/
def rw (t : VType) (r w : Rights) (v : Bytes) (k : Persist := .volatile) : Option Entry :=
  some { type := t, read := r, write := w, keep := k, value := v }

/-! ### The entries by range (R364) -/

/-- 0x1000-0x1FFF (R365). -/
def State.identEntry (s : State) (ep index sub : Nat) : Option Entry :=
  let i := s.ident
  if index = 0x1000 then
    if sub = 1 then ro .u16 rAll (leBytes 2 i.variant.code) .fused
    else if sub = 2 then ro .u8 rAll (leBytes 1 i.stepping.code) .fused
    else if sub = 3 then ro (.oct 16) rAll (fixLen 16 i.unit) .fused
    else if sub = 4 then ro .u32 rHLBO (leBytes 4 i.fwVersion.toNat)
    else if sub = 5 then ro .digest rHBO (fixLen 48 i.fwDigest)
    else none
  else if index = 0x1001 then
    if sub = 1 then ro (.oct 8) rHLB (versionList [0x0100, 0x0200, 0x0300]) .fused
    else if sub = 2 then ro (.oct 8) rAll (versionList [0x0100, 0x0201]) .fused
    else if sub = 3 || sub = 4 then ro (.oct 8) rHBO (versionList [0x0100, 0x0200]) .fused
    else if sub = 5 || sub = 6 then ro (.oct 8) rHLB (versionList [0x0100]) .fused
    else if sub = 7 then ro (.oct 8) rHB (versionList [0x0102, 0x0103]) .fused
    else none
  else if index = 0x1002 then
    if sub = 1 then ro .u16 rAll (leBytes 2 (versionWord (s.ep ep).ver))
    else if sub = 2 then ro .u16 rHB (leBytes 2 s.spdm.ver)
    else none
  else none

/-- 0x2000-0x2FFF (R366). -/
def State.configEntry (s : State) (index sub : Nat) : Option Entry :=
  let b := sub - 1
  let bench := 1 ≤ sub && b < s.nBench
  if index = 0x2000 && sub = 1 then ro .u8 rHLBO (leBytes 1 s.pw.mode.code)
  else if index = 0x2001 && sub = 0 then
    rw .time rAll { host := s.lcs.state = .claimed, officer := true } (leBytes 8 s.time64.toNat) .vault
  else if index = 0x2010 && bench then rw (.domain 1280) rHO rH (tblBytes s.dsp.planSlt (1280 * b) 1280) .persistent
  else if index = 0x2011 && sub = 0 then rw (.oct 64) rHO rH (tblBytes s.dsp.planCore 0 64) .persistent
  else if index = 0x2012 && sub = 0 then rw .u64 rH rH (leBytes 8 s.dsp.planPol.toNat) .persistent
  else if index = 0x2013 && bench then rw (.oct 56) rH rH (tblBytes s.dsp.planPage (64 * b) 56) .persistent
  else if index = 0x2014 && bench then rw .u8 rHB rH (leBytes 1 (bit (s.bench b).stAutoRpl + 2 * bit (s.bench b).stSpare)) .persistent
  else if index = 0x2015 && sub = 0 then rw .bool rH rH (leBytes 1 (bit s.dsp.applyPend))
  else if index = 0x2016 && sub = 0 then ro .u64 rH (leBytes 8 s.dsp.lastApply.toNat)
  else if index = 0x2020 && sub = 0 then rw .u32 rHO rHO (leBytes 4 s.dic.window) .persistent
  else if index = 0x2030 then
    let scope := match s.cust.ceremony, s.cust.collect with
      | some c, _ => c.scope.toNat
      | none, some c => if c.purpose = 1 then c.scope else 0
      | none, none => 0
    let phase := if s.cust.ceremony.isSome then 2 else match s.cust.collect with | some c => bit (c.purpose = 1) | none => 0
    if sub = 1 then rw .u64 rHBO rHB (leBytes 8 scope)
    else if sub = 2 then ro .u8 rHBO (leBytes 1 phase)
    else if sub = 3 then rw .bool rNone rO []
    else if sub = 4 then ro .u32 rHBO (leBytes 4 s.cust.number) .persistent
    else none
  else none

/-- The right of one role's own subindex: 1 HOST, 2 BMC, 3 OFFICER. -/
def ownSub (sub : Nat) : Rights := { host := sub = 1, bmc := sub = 2, officer := sub = 3 }

/-- 0x3000-0x3FFF (R268). -/
def State.gateEntry (s : State) (index sub : Nat) : Option Entry :=
  let g := s.flg
  let l := s.ldg
  if index = 0x3000 then
    if sub = 1 then ro .u8 rHBO (leBytes 1 (if g.pass.isSome then 0xFF else g.verdict))
    else if sub = 2 then ro .u8 rHBO (leBytes 1 g.reason)
    else if sub = 3 then ro .u32 rHBO (leBytes 4 g.seq)
    else none
  else if (index = 0x3001 || index = 0x3002) && sub = 0 then rw .bool rNone rBO []
  else if index = 0x3003 && sub = 0 then rw .u8 rHB { bmc := true } (leBytes 1 g.owner)
  else if index = 0x3010 && sub = 0 then rw (.domain 8192) rHBO rHBO l.manifest .persistent
  else if index = 0x3011 then
    if sub = 1 then ro .u32 rHBO (slice l.manifest 12 4)
    else if sub = 2 then ro .u8 rHBO (leBytes 1 l.refusal)
    else none
  else if index = 0x3020 && 1 ≤ sub && sub ≤ 3 then ro (.domain 8192) (ownSub sub) (l.record (l.sel.toList.getD (sub - 1) 0)) .persistent
  else if index = 0x3021 && 1 ≤ sub && sub ≤ 3 then rw .u32 (ownSub sub) (ownSub sub) (leBytes 4 (l.sel.toList.getD (sub - 1) 0))
  else if index = 0x3022 && sub = 0 then rw .u32 rHBO rBO (leBytes 4 l.ack) .persistent
  else if index = 0x3023 then
    if sub = 1 then ro .u32 rHBO (leBytes 4 l.newest)
    else if sub = 2 then ro .u32 rHBO (leBytes 4 l.oldest)
    else if sub = 3 then ro .u32 rHBO (leBytes 4 l.lost)
    else if sub = 4 then ro .u8 rHBO (leBytes 1 l.ring)
    else none
  else none

/-- The rights to write a lease's quorum (R220). -/
def State.quorumRights (s : State) (k : Nat) : Rights := if s.holdsDual k then { officer := s.inScope k } else rH

/-- Offset `o` of the sub-block of lease k (R41, R294, R367). -/
def State.leaseEntry (s : State) (k o sub : Nat) : Option Entry :=
  let l := s.lease k
  if o = 0x00 && sub = 1 then ro .u8 rHLB (leBytes 1 l.lstate)
  else if o = 0x01 && sub = 0 then rw .bool rNone rH []
  else if o = 0x02 && sub = 0 then rw .u16 rHL rH (leBytes 2 l.quota) .persistent
  else if o = 0x03 && sub = 1 then rw .u16 rHL rH (leBytes 2 l.rangeBase) .persistent
  else if o = 0x03 && sub = 2 then rw .u16 rHL rH (leBytes 2 l.rangeCount) .persistent
  else if o = 0x04 && 1 ≤ sub && sub ≤ 8 then
    let q := s.queue k (sub - 1)
    ro .u16 rHL (leBytes 2 (256 * q.major + q.minor))
  else if o = 0x08 && sub = 1 then ro (.domain 20544) rHL (ownView s.nBench s.dsp.slt s.dsp.core k)
  else if o = 0x08 && sub = 2 then ro (.domain 20544) rHL (if s.dsp.captured then ownView s.nBench s.dsp.sltC s.dsp.coreC k else [])
  else if o = 0x09 && sub = 1 then ro .u64 rHL (leBytes 8 (tget 0 s.dsp.lent k).toNat)
  else if o = 0x09 && sub = 2 then ro .u64 rHL (leBytes 8 (tget 0 s.dsp.borrow k).toNat)
  else if o = 0x10 && sub = 1 then rw .u8 { rHL with officer := true } (s.quorumRights k) (leBytes 1 l.quorumM) .persistent
  else if o = 0x10 && sub = 2 then rw .u8 { rHL with officer := true } (s.quorumRights k) (leBytes 1 l.quorumN) .persistent
  else if o = 0x10 && 16 ≤ sub && sub ≤ 31 then
    rw (.oct 48) { rHL with officer := true } (s.quorumRights k) (fixLen 48 (l.creds.getD (sub - 16) [])) .persistent
  else if o = 0x11 && sub = 1 then rw .slotref rHL rHL (leBytes 4 l.reqScope.toNat)
  else if o = 0x11 && sub = 2 then rw .u16 rHL rHL (leBytes 2 l.reqUses)
  else if o = 0x11 && sub = 3 then rw .u32 rHL rHL (leBytes 4 l.reqFrames)
  else if o = 0x11 && (sub = 4 || sub = 5) then rw .bool rNone rHL []
  else if o = 0x12 && sub = 1 then ro .u8 rHL (leBytes 1 (s.grantState k))
  else if o = 0x12 && sub = 2 then ro .u8 rHL (leBytes 1 (s.grantCounted k))
  else if o = 0x12 && sub = 3 then ro .u16 rHL (leBytes 2 (match l.grant with | some g => g.uses | none => 0))
  else if o = 0x12 && sub = 4 then ro .u32 rHL (leBytes 4 (match l.grant with | some g => g.endFrame - s.frame | none => 0))
  else if o = 0x13 && sub = 1 then rw .bool rNone { host := true, officer := s.holdsDual k } []
  else if o = 0x13 && sub = 2 then ro .u16 rHL (leBytes 2 l.epoch.toNat) .persistent
  else if o = 0x20 && sub = 0 then rw (.domain 38317) rHL rHL l.image .persistent
  else if o = 0x21 && sub = 1 then rw (.oct 32) rHLB rH (fixLen 32 l.progEd) .persistent
  else if o = 0x21 && sub = 2 then rw .digest rHLB rH (fixLen 48 l.progMl) .persistent
  else if o = 0x22 && sub = 1 then ro .u8 rHLB (leBytes 1 (match l.progState with | .none => 0 | .verifying => 1 | .loaded => 2))
  else if o = 0x22 && sub = 2 then ro .u8 rHLB (leBytes 1 l.progRefusal)
  else if o = 0x22 && sub = 3 then ro .u32 rHLB (slice l.inForce 12 4)
  else if o = 0x22 && sub = 4 then rw .u32 rHLB rH (leBytes 4 l.minSvn) .persistent
  else if o = 0x22 && sub = 5 then
    ro .digest rHLB (if l.inForce = [] then List.replicate 48 0 else sha384 (l.inForce.take (imageTotal l.inForce)))
  else if o = 0x30 && sub = 0 then ro (.oct 16) rHLB (fixLen 16 l.report)
  else none

/-- The log's entries that have their commits. -/
def Vault.entries (v : Vault) : List TamperBody := v.log.filter fun e => e.commit ≠ []

/-- 0x5000-0x5FFF (R414). -/
def State.tamperEntry (s : State) (index sub : Nat) : Option Entry :=
  let v := s.vault
  let src := 1 ≤ sub && sub ≤ 28
  if index = 0x5000 then
    if sub = 1 then ro .bool rAll (leBytes 1 (bit v.latch))
    else if sub = 2 then ro .u8 rAll (leBytes 1 v.cause.toNat)
    else if sub = 3 then ro .bool rAll (leBytes 1 (bit v.bedrock.isSome))
    else if sub = 4 then ro .u32 rHBO (leBytes 4 v.entries.length)
    else if sub = 5 then ro .u32 rHBO (leBytes 4 v.latchSeq)
    else if sub = 6 then ro .u32 rHBO (leBytes 4 v.drop.toNat)
    else none
  else if index = 0x5001 && src then rw .u8 rHBO s.tamperRights (leBytes 1 ({ v with resp := v.stResp }.response (sub - 1))) .vault
  else if index = 0x5002 && 1 ≤ sub && sub ≤ 4 then rw .u32 rHBO s.tamperRights (leBytes 4 (v.stSw[sub - 1]?.getD 0).toNat) .vault
  else if index = 0x5003 && sub = 0 then rw .u32 rHBO s.tamperRights (leBytes 4 v.stVwin.toNat) .vault
  else if index = 0x5010 && sub = 0 then ro (.domain 396717) rHBO [] .persistent
  else if index = 0x5011 then
    if sub = 1 then rw (.domain 3437) rNone rHBO []
    else if sub = 2 then ro (.oct 32) rHBO (fixLen 32 v.chal)
    else if sub = 3 then rw .bool rNone rHBO []
    else if sub = 4 then ro .u8 rHBO (leBytes 1 v.unlockRefusal)
    else none
  else if index = 0x5012 && src then ro .u32 rHBO (leBytes 4 (v.sensor (sub - 1)).count.toNat)
  else none

/-- 0x6000-0x6FFF (R444). -/
def State.faultEntry (s : State) (index sub : Nat) : Option Entry :=
  let f := s.flt
  let hist := s.history
  let severity := match sourceOf 0x6100 index sub with | some e => if s.srcPresent e then some e else none | none => none
  let counts := match sourceOf 0x6200 index sub with | some e => if s.srcPresent e then some e else none | none => none
  if index = 0x6000 && sub = 0 then ro (.oct 32) rHBO (match f.rec_ with | some r => r.bytes | none => List.replicate 32 0)
  else if index = 0x6001 && sub = 1 then rw .u16 rNone rHBO []
  else if index = 0x6001 && sub = 2 then ro .u8 rHBO (leBytes 1 f.ackRefusal)
  else if index = 0x6002 && 1 ≤ sub && sub ≤ 32 then
    ro (.oct 32) rHBO (match hist[sub - 1]? with | some r => r.bytes | none => List.replicate 32 0)
  else if index = 0x6003 && sub = 0 then rw .bool rHB rHB (leBytes 1 (bit f.low))
  else if index = 0x6004 && sub = 1 then rw .u8 rHB rH (leBytes 1 (f.stRoute.toNat % 64)) .persistent
  else if index = 0x6004 && sub = 2 then rw .bool rHB rH (leBytes 1 (bit (f.stRoute.getLsbD 7))) .persistent
  else if index = 0x6004 && sub = 3 then rw .bool rHB rH (leBytes 1 (bit (f.stRoute.getLsbD 8))) .persistent
  else if index = 0x6010 && sub = 0 then ro (.domain 16384) rHBO (f.evlog.flatMap EvEntry.logBytes)
  else if index = 0x6300 && 1 ≤ sub && sub ≤ s.nBench then rw .u16 rHB rH (leBytes 2 (tget 0 s.pwr.stIdle (sub - 1)).toNat) .persistent
  else
    match severity, counts with
    | some e, _ =>
      rw .u8 rHBO { host := s.lcs.state.beforeField, officer := s.lcs.state = .field } (leBytes 1 (s.severityByte e))
        (if isTamper e then .vault else .persistent)
    | none, some e => ro .u16 rHBO (leBytes 2 (tget 0 f.count e).toNat)
    | none, none => none

/-- 0x7000-0x7FFF (R368). -/
def State.rngEntry (s : State) (index sub : Nat) : Option Entry :=
  let r := s.rng
  if index = 0x7000 && sub = 1 then ro .u8 rHBO (leBytes 1 r.state.code)
  else if index = 0x7000 && sub = 2 then ro .u8 rHBO (leBytes 1 r.healthyField)
  else if index = 0x7000 && sub = 3 then ro .u8 rHBO (leBytes 1 r.autoLeft)
  else if index = 0x7001 && (sub = 17 || (1 ≤ sub && sub ≤ s.nBench)) then ro .u64 rHBO (leBytes 8 (s.exp (sub - 1)).word)
  else if index = 0x7002 && 1 ≤ sub && sub ≤ 16 then ro .u32 rHBO (leBytes 4 (r.srcWord (sub - 1)))
  else if index = 0x7003 && sub = 0 then ro .u64 rHBO (leBytes 8 r.seeds.toNat)
  else none

/-- 0x8000-0x8FFF (R345). -/
def State.custEntry (s : State) (index sub : Nat) : Option Entry :=
  let c := s.cust
  let w : Rights := { host := s.lcs.state = .claimed, officer := true }
  if index = 0x8000 && sub = 1 then rw .u8 rHBO w (leBytes 1 c.m) .persistent
  else if index = 0x8000 && sub = 2 then rw .u8 rHBO w (leBytes 1 c.n) .persistent
  else if index = 0x8000 && 16 ≤ sub && sub ≤ 31 then rw (.oct 48) rHBO w (fixLen 48 (c.creds.getD (sub - 16) [])) .persistent
  else if index = 0x8010 && (sub = 1 || sub = 2) then rw (.oct 8) rNone rO [] .persistent
  else if index = 0x8011 && (sub = 1 || sub = 2) then rw .bool rNone rO []
  else if index = 0x8020 && sub = 0 then ro (.domain (256 * c.journal.length)) rHBO ((c.journal.filter fun r => r.commit ≠ []).flatMap CRec.bytes) .persistent
  else if index = 0x8021 && sub = 0 then ro .u16 rHBO (leBytes 2 (unresolved c.journal).length)
  else if index = 0x8040 && sub = 0 then ro (.oct 7) rAll (fixLen 7 s.ident.tagUid) .fused
  else none

/-- A life-cycle journal record as exported. -/
def LRec.bytes (r : LRec) : Bytes :=
  Config.lcsRecord (match r.kind with | .intent => 0 | .done => 1 | .cert => 2) r.from_ r.to_ r.counter r.digest r.lnonce

/-- 0x9000-0x9FFF (R393, R464). -/
def State.lcsEntry (s : State) (ep index sub : Nat) : Option Entry :=
  let l := s.lcs
  let own := ep = sub + 1
  if index = 0x9000 && sub = 1 then ro .u8 rAll (leBytes 1 (l.state.code + 64 * bit l.failed)) .fused -- FAILED in bit 6 (log 148)
  else if index = 0x9000 && sub = 2 then ro .u32 rAll (leBytes 4 l.count) .fused
  else if index = 0x9000 && sub = 3 then ro .u8 rAll (leBytes 1 (match l.pend with | some t => t.code | none => 0xFF)) .fused
  else if index = 0x9001 && sub = 1 then rw (.domain 7421) rNone rHBO []
  else if index = 0x9001 && sub = 2 then ro .u8 rHBO (leBytes 1 l.refusal)
  else if index = 0x9002 && (sub = 1 || sub = 2) then rw (.oct 32) rNone rHB []
  else if index = 0x9003 && sub = 1 then ro (.domain 1984) rHBO (l.ownerEd ++ l.ownerMl) .fused
  else if index = 0x9003 && sub = 2 then ro (.domain 1984) rHBO (l.manEd ++ l.manMl) .fused
  else if index = 0x9003 && sub = 3 then ro (.oct 16) rAll (fixLen 16 l.estate) .fused
  else if index = 0x9010 && sub = 1 then rw (.domain 3501) rHBO { host := true, bmc := true, officer := l.state = .field } s.gal.cert
  else if index = 0x9010 && sub = 2 then ro .u32 rHBO (leBytes 4 s.galRights.toNat)
  else if index = 0x9010 && sub = 3 then ro (.oct 32) rHBO (fixLen 32 s.gal.chal)
  else if index = 0x9010 && sub = 4 then ro .u8 rHBO (leBytes 1 s.gal.refusal)
  else if index = 0x9011 && 1 ≤ sub && sub ≤ s.nLease then
    rw .bool { host := true, lease := own } { lease := own } (leBytes 1 (bit (s.lease (sub - 1)).consent))
  else if index = 0x9020 && 1 ≤ sub && sub ≤ 5 then
    rw (.domain 16384) rAll { host := sub = 1 || 4 ≤ sub } (s.x509 sub) .persistent
  else if index = 0x9021 && sub = 0 then
    let b := l.journal.flatMap LRec.bytes
    ro (.domain b.length) rHBO b .persistent
  else if index = 0x9030 && sub = 1 then rw (.domain 262144) rNone rHBO []
  else if index = 0x9030 && sub = 2 then ro .u8 rHBO (leBytes 1 s.pfl.refusal)
  else if index = 0x9030 && sub = 3 then ro .u32 rHBO (leBytes 4 s.pfl.svn)
  else none

/-- The entry that an index and subindex name, as the endpoint finds it. -/
def State.entry (s : State) (ep index sub : Nat) : Option Entry :=
  if index < 0x2000 then s.identEntry ep index sub
  else if index < 0x3000 then s.configEntry index sub
  else if index < 0x4000 then s.gateEntry index sub
  else if index < 0x5000 then s.leaseEntry ((index - 0x4000) / 0x40) (index % 0x40) sub
  else if index < 0x6000 then s.tamperEntry index sub
  else if index < 0x7000 then s.faultEntry index sub
  else if index < 0x8000 then s.rngEntry index sub
  else if index < 0x9000 then s.custEntry index sub
  else s.lcsEntry ep index sub

/-- What a request finds: nothing where the entry does not exist or is hidden from a lease (R352). -/
def State.find (s : State) (r : Req) : Option Entry := if s.hidden r then none else s.entry r.ep r.index r.sub

/-! ### HELLO, READ, INFO, ENUM (R355, R357) -/

/-- HELLO: the highest common major with the device's highest minor of it. -/
def execHello (r : Req) (offers : Bytes) (s : State) : Res :=
  let n := offers.length + 1
  if !s.takes r n then .next s
  else
    let s := pickBus r s
    let v := s.epVersion r.ep
    if r.badOp.isSome || r.status ≠ 0 || !r.lenOk || r.ver ≠ 0 || (v / 16 = 1 && 256 < n) then .next (respond v r (opOf r 0x01) .malformed [] s)
    else if v ≠ 0 && (s.ep r.ep).crowded r (v / 16) then .next (respond v r 0x01 .busy [] s)
    else
      let s := outstanding r (discardEp r.ep (countReq s))
      let offersMajor := fun (m : Nat) => offers.any fun b => b.toNat / 16 = m
      let choose := fun (a b : Nat) =>
        let s := s.setEp r.ep { s.ep r.ep with ver := some (a, b) }
        respond (16 * a + b) r 0x01 .ok [BitVec.ofNat 8 (16 * a + b), 0x10, 0x21] s
      .next (if offersMajor 2 then choose 2 1 else if offersMajor 1 then choose 1 0 else respond 0 r 0x01 .noCommonVersion [0x10, 0x21] s)

/-- READ of an entry's value. -/
def execRead (r : Req) (s : State) : Res :=
  .next (request r 0x02 (fun s =>
    match s.find r with
    | none => (.noEntry, [], s)
    | some e => if !s.allowed r.ep e.read then (.denied, [], s) else if e.type.isDomain then (.type, [], s) else (.ok, e.value, s)) s)

/-- The rights byte of a role. -/
def rightsByte (r w : Bool) : Byte := BitVec.ofNat 8 (bit r + 2 * bit w)

/-- INFO: type, length, rights of the six roles, persistence. -/
def execInfo (r : Req) (s : State) : Res :=
  .next (request r 0x09 (fun s =>
    match s.find r with
    | none => (.noEntry, [], s)
    | some e =>
      (.ok, [Config.typeCode e.type.place] ++ leBytes 4 e.type.len ++
        [rightsByte e.read.host e.write.host, rightsByte e.read.lease e.write.lease, rightsByte e.read.bmc e.write.bmc,
         rightsByte e.read.officer e.write.officer, rightsByte e.read.others e.write.others,
         rightsByte e.read.others e.write.others, Config.persistCode e.keep.place], s)) s)

/-- The entries of one index that the endpoint can read. -/
def State.enumIndex (s : State) (r : Req) (index : Nat) : Bytes :=
  (List.range 256).flatMap fun sub =>
    match s.find { r with index := index, sub := sub } with
    | some e => if s.allowed r.ep e.read then leBytes 2 index ++ leBytes 1 sub ++ [Config.typeCode e.type.place] else []
    | none => []

/-- ENUM: the readable entries of `count` indices from the first; a COUNT outside 1 to 64 is RANGE. -/
def execEnum (r : Req) (first count : Nat) (s : State) : Res :=
  .next (request r 0x0A (fun s =>
    if count < 1 || 64 < count then (.range, [], s)
    else (.ok, ((List.range count).flatMap fun i => s.enumIndex r (first + i)).take 1024, s)) s)

/-! ### Segmented transfer (R362, R363) -/

/-- The head of an export of the log (R407). -/
def State.exportHead (s : State) : Bytes :=
  let l := s.vault.entries
  fixLen 128 ([0x53, 0x56, 0x54, 0x48, 1, 0, 0, 0] ++ fixLen 16 s.ident.unit ++ leBytes 4 l.length ++ leBytes 4 s.vault.drop.toNat ++
    leBytes 8 s.time64.toNat ++ (match l.getLast? with | some b => sha384 b.body | none => List.replicate 48 0))

/-- The export of entry 0x5010 is that of the object's generation. -/
def State.exportBuilt (s : State) : Bool := s.dic.export5010.any fun x => x.1 = tget 0 s.dic.gens (256 * 0x5010)

/-- The export at the end of a tick: where a read has found a new generation the head is built and signed with the alias keys, as island work that
waits for a pass (R252, R407, log 146); a half of the signature that is not released leaves the export as it was (R138, R163). -/
def exportTick (s : State) : State :=
  match s.dic.exportSign with
  | some (gen, bodies, j) =>
    let (k, sig, s) := signStep s.aliasSeed j s
    { s with dic := { s.dic with exportSign := k.map fun x => (gen, bodies, x),
                                 export5010 := match sig with | some x => some (gen, bodies ++ j.body ++ x) | none => s.dic.export5010 } }
  | none =>
    if !s.dic.exportDue || !s.maySign then s
    else
      let gen := tget 0 s.dic.gens (256 * 0x5010)
      let bodies := s.vault.entries.flatMap TamperBody.body
      let (j, s) := beginSign s.aliasSeed s.exportHead s
      { s with dic := { s.dic with exportDue := false, exportSign := some (gen, bodies, j) } }

/-- The bytes of a DOMAIN object. -/
def State.object (s : State) (r : Req) (e : Entry) : Bytes :=
  if r.index = 0x5010 then (match s.dic.export5010 with | some (_, b) => b | none => []) else e.value

/-- SEG_READ: SIZE, GEN and up to LENGTH bytes from OFFSET. A LENGTH above the major's limit is RANGE; BUSY while the log export of a new generation
is still to be signed, and STANDBY signs none. -/
def execSegRead (r : Req) (off len gen : Nat) (s : State) : Res :=
  .next (request r 0x04 (fun s =>
    match s.find r with
    | none => (.noEntry, [], s)
    | some e =>
      if !s.allowed r.ep e.read then (.denied, [], s)
      else if !e.type.isDomain then (.type, [], s)
      else if (if (s.ep r.ep).ver = some (1, 0) then 248 else 1016) < len then (.range, [], s)
      else
        if r.index = 0x5010 && s.running && !s.exportBuilt then (.busy, [], { s with dic := { s.dic with exportDue := true } })
        else
          let b := s.object r e
          let g := (tget 0 s.dic.gens (256 * r.index + r.sub)).toNat
          let head := leBytes 4 b.length ++ leBytes 4 g
          if gen ≠ 0xFFFFFFFF && gen ≠ g then (.changed, head, s) else (.ok, head ++ (b.drop off).take len, s)) s 10)

/-- Free bytes of the shared buffer of 128 KiB; a firmware update does not use it (R363, R464). -/
def State.segFree (s : State) : Nat :=
  131072 - (s.dic.eps.map fun (e : Nat × Ep) => match e.2.sess with | some x => if x.index = 0x9030 then 0 else x.total | none => 0).sum

/-- A session is open on the entry, at any endpoint. -/
def State.segOpen (s : State) (index sub : Nat) : Bool :=
  s.dic.eps.any fun e => match e.2.sess with | some x => x.index = index && x.sub = sub | none => false

/-- SEG_WRITE_START. -/
def execSegWriteStart (r : Req) (total : Nat) (s : State) : Res :=
  .next (request r 0x05 (fun s =>
    match s.find r with
    | none => (.noEntry, [], s)
    | some e =>
      let x : Session := { index := r.index, sub := r.sub, total := total, frame := s.frame }
      if !s.allowed r.ep e.write then (.denied, [], refuseRole r s)
      else if !e.type.isDomain then (.type, [], s)
      else if s.segOpen r.index r.sub || (s.ep r.ep).sess.isSome then (.busy, [], s)
      else if r.index = 0x9030 then
        let (st, t) := updateStart total s
        (st, [], if st = .pending then setSession r.ep (some x) t else t)
      else if e.type.len < total then (.tooLarge, [], s)
      else if s.segFree < total then (.busy, [], s)
      else (.ok, [], setSession r.ep (some x) s)) s 4)

/-- What a segment, an END and an ABORT meet before they find their session (R352, R356). -/
def onSession (r : Req) (f : Session → State → DStat × Bytes × State) (s : State) : DStat × Bytes × State :=
  match s.find r with
  | none => (.noEntry, [], s)
  | some e =>
    if !s.allowed r.ep e.write then (.denied, [], s)
    else if !e.type.isDomain then (.type, [], s)
    else
      match s.session r with
      | none => (.noSession, [], s)
      | some x => f x s

/-- SEG_WRITE: in order; bytes beyond TOTAL discard the session. -/
def execSegWrite (r : Req) (off : Nat) (d : Bytes) (s : State) : Res :=
  .next (request r 0x06 (onSession r fun x s =>
    if off ≠ x.data.length && r.index ≠ 0x9030 then (.noSession, [], s)
    else if r.index = 0x9030 then
      let (st, t) := updateData off d s
      (st, [], if t.pfl.upd.isNone then setSession r.ep none t else if st = .ok then setSession r.ep (some { x with frame := s.frame }) t else t)
    else if x.total < off + d.length then (.noSession, [], setSession r.ep none s)
    else (.ok, [], setSession r.ep (some { x with data := x.data ++ d, frame := s.frame }) s)) s (d.length + 4))

/-- SEG_ABORT: the session is discarded, and with it an update. -/
def execSegAbort (r : Req) (s : State) : Res :=
  .next (request r 0x08 (onSession r fun _ s => (.ok, [], dropSession r.ep s)) s)

/-- SEG_SESSION_TIMEOUT: 15,259 frames without a segment. -/
def execSegSessionTimeout (ep : Nat) (s : State) : Res :=
  match (s.ep ep).sess with
  | some x => if s.reachesFrame (x.frame + 15259) then .next (dropSession ep s) else .next s
  | none => .next s

/-! ### Slot plans (R366, R293, R54) -/

/-- The bytes of a plan as table entries. -/
def putBytes (t : Tbl Nat) (lo : Nat) (b : Bytes) : Tbl Nat :=
  (List.range b.length).foldl (fun t i => tset 0xFF t (lo + i) (b.getD i 0xFF).toNat) t

/-- Every bench core that a plan gives to a lease lies on a bench where the page plan gives that lease a page. -/
def plansAgree (core page : Tbl Nat) : Bool :=
  core.all fun e => e.2 = 0xFF || (List.range 56).any fun p => tget 0xFF page (64 * (e.1 / 4) + p) = e.2

/-- A plan of entry 0x2010 to 0x2013 is checked and stored. -/
def planWrite (index b : Nat) (d : Bytes) (s : State) : DStat × State :=
  let okByte := fun (x : Byte) => s.entryOk x.toNat
  let p := s.dsp
  if p.rplPend then (.busy, s)
  else if index = 0x2010 then
    if d.length = 1280 && d.all okByte then
      (.ok, bumpGen 0x2010 (b + 1) { s with dsp := { p with planSlt := putBytes p.planSlt (1280 * b) d } })
    else (.range, s)
  else if index = 0x2011 then
    let core := putBytes p.planCore 0 d
    if d.all okByte && (d.drop (4 * s.nBench)).all (· = 0xFF) && plansAgree core p.planPage then (.ok, { s with dsp := { p with planCore := core } })
    else (.range, s)
  else if index = 0x2012 then
    if leNat d < 2 ^ s.nLease then (.ok, { s with dsp := { p with planPol := BitVec.ofNat 64 (leNat d) } }) else (.range, s)
  else
    let page := putBytes p.planPage (64 * b) d
    if d.all okByte && plansAgree p.planCore page then (.ok, { s with dsp := { p with planPage := page } }) else (.range, s)

/-- SLOT_PLAN_WRITE, entries 0x2010 (a whole segmented write) to 0x2013. -/
def execSlotPlanWrite (r : Req) (d : Bytes) (s : State) : Res :=
  let b := r.sub - 1
  let bench := 1 ≤ r.sub && b < s.nBench
  let plan := fun (n : Nat) => Host.Outcome.next (writeEntry r { host := true } n d (planWrite r.index b d) s)
  if r.index = 0x2010 && bench then
    .next (endObject r rH id (fun s => if d = [] then (.refused, s) else planWrite 0x2010 b d s) s)
  else if r.index = 0x2011 && r.sub = 0 then plan 64
  else if r.index = 0x2012 && r.sub = 0 then plan 8
  else if r.index = 0x2013 && bench then plan 56
  else .next s

/-- DICT_APPLY, entry 0x2015: the dispatcher copies the stored plans into the shadows and writes GO; a GO after the capture belongs to the swap
after it (R50, R51). -/
def execDictApply (r : Req) (value : Bytes) (s : State) : Res :=
  if r.index ≠ 0x2015 || r.sub ≠ 0 then .next s
  else
    .next (writeEntry r { host := true } 1 value (fun s =>
      if s.dsp.rplPend then (.busy, s) else onTrue value (fun s =>
      if s.dsp.applyPend then (.busy, s)
      else
        let late := s.dsp.pend && s.dsp.captured
        let t := loadPlans s
        (.ok, { t with dsp := { t.dsp with applyPend := true, applyLate := late } })) s) s)

/-! ### Lease release and quota (R25, R27, R92) -/

/-- A command that a release discards. -/
def abortCmd (h : Nat) (s : State) : State :=
  match s.cmd h with
  | none => s
  | some c =>
    let s := if c.held then s else passHead c.lease c.queue c.len s
    let c := { c with held := true, a := { c.a with ticks := 0 }, b := c.b.map fun p => { p with ticks := 0 } }
    endCmd h 0x0009 0 [] (s.setCmd h c)

/-- A quarantined lease returns to service: its commands complete ABORTED in the next tick, from which its queues run again; its cores are
wiped and start in the next frame; the queue-event vector is sent (R89, R92, R279). A quarantine that this tick has brought comes first (R359). -/
def releaseLease (k : Nat) (value : Bytes) (s : State) : DStat × State :=
  let s := quarantineLease k s
  if !(s.lease k).quarantined then (.state, s)
  else onTrue value (fun s =>
    let s := forEach (s.cmdsWhere fun c => c.lease = k && c.result.isNone) abortCmd s
    let s := s.modLease k fun l => { l with quarantined := false, released := true, coresDue := true }
    let s := forEach ((List.range (4 * s.nBench)).filter fun c => s.coreOwner c = k) (fun c t => t.setCore c {}) s
    (.ok, sendQev k s)) s

/-- The lease and offset of a sub-block index of the variant. -/
def State.subBlock (s : State) (index : Nat) : Option (Nat × Nat) :=
  match subLease index with
  | some k => if k < s.nLease then some (k, index % 0x40) else none
  | none => none

/-- LEASE_RELEASE, entry +0x01. -/
def execLeaseRelease (r : Req) (value : Bytes) (s : State) : Res :=
  match subLease r.index with
  | some k => if r.index % 0x40 ≠ 0x01 || r.sub ≠ 0 then .next s else .next (writeEntry r { host := true } 1 value (releaseLease k value) s)
  | none => .next s

/-- The sum of all staging quotas. -/
def State.quotaSum (s : State) : Nat := (s.leases.map fun e => e.2.quota).sum

/-- A quota is refused where the device total would exceed 256; at 0 the lease is DRY. -/
def quotaWrite (k v : Nat) (s : State) : DStat × State :=
  if 256 < s.quotaSum - (s.lease k).quota + v then (.range, s) else (.ok, refreshQueues (s.modLease k fun l => { l with quota := v }))

/-- STAGING_QUOTA_WRITE, entry +0x02. -/
def execStagingQuotaWrite (r : Req) (value : Bytes) (s : State) : Res :=
  match subLease r.index with
  | some k => if r.index % 0x40 ≠ 0x02 || r.sub ≠ 0 then .next s else .next (writeEntry r { host := true } 2 value (quotaWrite k (leNat value)) s)
  | none => .next s

/-! ### WRITE (R355) -/

/-- A BOOL takes 0 or 1. -/
def boolWrite (v : Nat) (f : Bool → State → State) (s : State) : DStat × State := if v < 2 then (.ok, f (v = 1) s) else (.range, s)

/-- FLT_ROUTE's stored fields; in force from the next tick while FLT_CTL.LOCK is clear (R444). -/
def routeWrite (sub v : Nat) (s : State) : DStat × State :=
  let old := s.flt.stRoute.toNat
  let put := fun (w : Nat) (s : State) =>
    let w := BitVec.ofNat 9 w
    { s with flt := { s.flt with stRoute := w, routePend := if s.flt.lock then s.flt.routePend else some w } }
  if sub = 1 then if v < 64 then (.ok, put (old - old % 64 + v) s) else (.range, s)
  else if sub = 2 then boolWrite v (fun b => put (old - 0x80 * bit (old.testBit 7) + 0x80 * bit b)) s
  else boolWrite v (fun b => put (old - 0x100 * bit (old.testBit 8) + 0x100 * bit b)) s

/-- The grant parameters of entry +0x11 (R221, R367); a scope that names an absent slot is refused at its write (R5). -/
def grantParam (k sub v : Nat) (s : State) : DStat × State :=
  if sub = 1 && s.nSlot ≤ refSlot (BitVec.ofNat 32 v) then (.range, s)
  else (.ok, s.modLease k fun l =>
    if sub = 1 then { l with reqScope := BitVec.ofNat 32 v } else if sub = 2 then { l with reqUses := v } else { l with reqFrames := v })

/-- The effect of a write of an entry that has no row of its own; none for another entry. -/
def plainWrite (index sub v : Nat) (s : State) : Option (DStat × State) :=
  if index = 0x2014 then
    if s.dsp.rplPend then some (.busy, s)
    else if 4 ≤ v then some (.range, s)
    else some (.ok, s.modBench (sub - 1) fun b =>
      let b := { b with stAutoRpl := v % 2 = 1, stSpare := v / 2 = 1 }
      if b.lock then b else { b with autoRpl := b.stAutoRpl, spare := b.stSpare })
  else if index = 0x2020 then
    if 1 ≤ v && v ≤ 16777215 then some (.ok, { s with dic := { s.dic with window := v } }) else some (.range, s)
  else if index = 0x6001 then some (acknowledge (BitVec.ofNat 16 v) s)
  else if index = 0x6003 then some (boolWrite v (fun b s => { s with flt := { s.flt with low := b } }) s)
  else if index = 0x6004 then some (routeWrite sub v s)
  else if index = 0x6300 then
    let w := BitVec.ofNat 16 v
    some (.ok, { s with pwr := { s.pwr with stIdle := tset 0 s.pwr.stIdle (sub - 1) w,
                                            idlePend := if s.pwr.lock then s.pwr.idlePend else s.pwr.idlePend ++ [(sub - 1, w)] } })
  else
    match s.subBlock index with
    | some (k, 0x11) => if sub ≤ 3 then some (grantParam k sub v s) else none
    | _ => none

/-- The rows that write an entry of their own, tried by index; each leaves the state alone for another index. -/
def entryRow (r : Req) (value : Bytes) (s : State) : Res :=
  let i := r.index
  if i = 0x2001 then execRtcWrite r value s
  else if 0x2011 ≤ i && i ≤ 0x2013 then execSlotPlanWrite r value s
  else if i = 0x2015 then execDictApply r value s
  else if i = 0x2030 then if r.sub = 1 then execCeremonyStart r value s else execCeremonyClose r value s
  else if i = 0x3001 then execOperatorRelease r value s
  else if i = 0x3002 then execRecoveryRequest r value s
  else if i = 0x3003 then execPortBOwnerWrite r value s
  else if i = 0x3021 then execRecordSelectorWrite r value s
  else if i = 0x3022 then execAckseqWrite r value s
  else if i = 0x5001 then execTamperResponseWrite r value s
  else if i = 0x5002 || i = 0x5003 then execTamperWindowWrite r value s
  else if i = 0x5011 then execOfficerUnlockStart r value s
  else if 0x6100 ≤ i && i ≤ 0x6108 then execSeverityWrite r value s
  else if i = 0x8000 then execOfficerQuorumWrite r value s
  else if i = 0x8010 then execTagPasswordWrite r value s
  else if i = 0x8011 then execAttemptsReset r value s
  else if i = 0x9002 then execTokenWrite r value s
  else if i = 0x9011 then execGalleryConsentWrite r value s
  else if 0x4000 ≤ i && i < 0x5000 then
    let o := i % 0x40
    if o = 0x01 then execLeaseRelease r value s
    else if o = 0x02 then execStagingQuotaWrite r value s
    else if o = 0x03 then execYardRangeWrite r value s
    else if o = 0x10 then execQuorumWrite r value s
    else if o = 0x11 && r.sub = 4 then execGrantStart r value s
    else if o = 0x11 then execGrantRevoke r value s
    else if o = 0x13 then execLeaseScrub r value s
    else if o = 0x21 then execProgramKeyWrite r value s
    else execProgramMinsvnWrite r value s
  else .next s

/-- WRITE: of an entry without a row of its own; a write of another entry is that entry's row. Nothing is at the index, no role may write it, or it
is a DOMAIN: NO_ENTRY, DENIED, TYPE. -/
def execWrite (r : Req) (value : Bytes) (s : State) : Res :=
  let plain := match s.find r with
    | none => true
    | some e => e.write = {} || e.type.isDomain || (plainWrite r.index r.sub 0 s).isSome
  if !plain then entryRow r value s
  else
    .next (request r 0x03 (fun s =>
      match s.find r with
      | none => (.noEntry, [], s)
      | some e =>
        if !s.allowed r.ep e.write then (.denied, [], s)
        else if e.type.isDomain || value.length ≠ e.type.len then (.type, [], s)
        else
          match plainWrite r.index r.sub (leNat value) s with
          | some (st, t) => (st, [], officerAction r (s.allowed r.ep { e.write with officer := false }) st t)
          | none => (.denied, [], s)) s value.length)

/-! ### SEG_WRITE_END (R363) -/

/-- The whole object is checked and applied at once. `fresh` is the sensor sample of an unlock; `stored` says that a firmware update's program
commands ended OK and its read-back agreed. An empty write is defined for a program (unload) and the gallery certificate (revoke). -/
def applyObject (r : Req) (d : Bytes) (fresh : List Nat) (stored : Bool) (s : State) : DStat × State :=
  let i := r.index
  if i = 0x9030 then updateEnd r stored s
  else if 0x4000 ≤ i && i < 0x5000 then programLoad ((i - 0x4000) / 0x40) d s
  else if i = 0x9010 then galleryCert r.ep d s
  else if i = 0x3010 then installManifest d s
  else if i = 0x5011 then unlockRequest d fresh s
  else if i = 0x9001 then lifecycleRequest r.ep d s
  else if d = [] then (.refused, s)
  else if i = 0x2010 then planWrite 0x2010 (r.sub - 1) d s
  else identityWrite r.sub d s

/-- The object that a write ends is one whose check waits for the end of a pass (R252, R410). -/
def State.heldByPass (s : State) (r : Req) : Bool := s.flg.pass.isSome && r.index = 0x5011

def execSegWriteEnd (r : Req) (fresh : List Nat) (stored : Bool) (s : State) : Res :=
  if s.heldByPass r then .next s
  else
    .next (request r 0x07 (onSession r fun x s =>
      if r.index = 0x9030 then
        let (st, t) := updateEnd r stored s
        (st, [], if st = .busy then t else setSession r.ep none t)
      else
        let t := setSession r.ep none s
        if x.data.length ≠ x.total then (.noSession, [], t)
        else
          let (st, t) := applyObject r x.data fresh stored t
          (st, [], t)) s)

/-! ### MCTP control (R353, R357); message codes and layouts are those of DSP0236 (log 19) -/

def mctp (b : Bytes) (s : State) : State := { s with out := { s.out with dic := b } }

/-- An endpoint of the transports that answers control messages; the dictionary's enables do not matter. -/
def State.mctpOpen (s : State) (ep : Nat) : Bool :=
  s.islandRuns && s.lcs.state ≠ .scrapped && (ep = 0 || (s.link.up && (ep = 1 || ep - 2 < s.link.numVfs)))

/-- SET_ENDPOINT_ID: the endpoint's version, sessions and officer binding are discarded. -/
def execSetEndpointId (ep eid : Nat) (s : State) : Res :=
  if !s.mctpOpen ep then .next s
  else
    let t := discardEp ep s
    .next (mctp ([0x00, 0x00] ++ leBytes 1 eid ++ [0x00]) (t.setEp ep { t.ep ep with eid := eid % 256 }))

def execGetEndpointId (ep : Nat) (s : State) : Res :=
  if s.mctpOpen ep then .next (mctp ([0x00] ++ leBytes 1 (s.ep ep).eid ++ [0x00, 0x00]) s) else .next s

def execGetMctpVersionSupport (ep : Nat) (s : State) : Res :=
  if s.mctpOpen ep then .next (mctp [0x00, 0x01, 0xF1, 0xF0, 0xFF, 0x00] s) else .next s

/-- The message types of an endpoint (R353): SPDM not on VF endpoints, secured SPDM on the PF only. -/
def messageTypes (ep : Nat) : Bytes := if ep = 0 then [0x00, 0x05, 0x7E] else if ep = 1 then [0x00, 0x05, 0x06, 0x7E] else [0x00, 0x7E]

def execGetMessageTypeSupport (ep : Nat) (s : State) : Res :=
  if s.mctpOpen ep then .next (mctp ([0x00] ++ leBytes 1 (messageTypes ep).length ++ messageTypes ep) s) else .next s

def execGetVendorDefinedMsgSupport (ep : Nat) (s : State) : Res :=
  if s.mctpOpen ep then .next (mctp ([0x00, 0xFF, 0x00] ++ beBytes 2 Config.vendorId.toNat ++ [0x00, 0x00]) s) else .next s

end Sys2Proof.Machine
end

