-- ==== Sys2Proof/Machine/Clock.lean ====
section
/-! DEFINITION. The end of a tick and the beginning of the next one (R43, R44, R57). -/

namespace Sys2Proof.Machine
open Sys2Proof

/-- A gate pass that holds the island's engines puts the ends of the checks under way off by a tick (R214, R252). -/
def holdChecks (s : State) : State :=
  if s.flg.pass.isNone then s
  else { s with yard := { s.yard with checks := s.yard.checks.map fun c => { c with endAt := c.endAt.map (· + 1) } } }

/-- What the engines and jobs of the ending tick have done: deferred first ticks, uncorrectable errors, erased wedge records, jobs that end, the
yard. -/
def endWork (ecc : List Ecc) (s : State) : State :=
  let s := forN 17 (fun n t => settleErased (5 * n + 3) t) (forEach ecc eccOne (runFirsts 85 s))
  commitYard (closeJobs (pauseDue (holdChecks s)))

/-- Work of the island, the flash and the random chain that ends with the tick: responses, commits, signatures, an update (log 143). -/
def endIsland (s : State) : State :=
  let s := commitTamper (commitManifest (signingTick (rngTick (flashTick s))))
  followNeed (setRtc (drawDue (updateTick (exportTick (summaryTick (journalTick s))))))

/-- The end of the current tick. The record closes after every event of the tick; written severities act after it (R424, R428). -/
def endTick (ecc : List Ecc) (s : State) : State :=
  let s := endIsland (forEach s.pwr.newReq (fun _ t => raisePower 1 t) (endWork ecc s))
  let s := forN s.nBench markBusy (commitSeverities (closeRecord s))
  let queues := s.queues.map fun (e : Nat × Queue) => if 0 < e.2.unann then (e.1, { e.2 with age := e.2.age + 1 }) else e
  { s with queues := queues, pwr := { s.pwr with newReq := [], admitted := 0 },
           dic := { s.dic with eps := s.dic.eps.map fun (e : Nat × Ep) => (e.1, { e.2 with tags := [] }) },
           out := { s.out with msix := [], writes := [], reads := [], ibi := false } }

/-- The beginning of the next one. DSP_TICK counts only with main power (R45). -/
def beginTick (s : State) : State :=
  let power := s.mainPower
  let s := passTime (if power then rtcUnits else 8 * rtcUnits) s
  let s := { s with pw := { s.pw with now := s.pw.now + 1 },
                    dsp := { s.dsp with tick := if power then s.dsp.tick + 1 else s.dsp.tick } }
  let s := testSources (openReleased (duePass s))
  let s := if power && s.ftick = 0 then frameStart s else s
  let s := { s with cores := s.cores.map fun (e : Nat × Core) => coreTick e.1 e.2 }
  let s := s.cores.foldl (fun t e => callTick e.2 t) s
  enginesTick s

/-- TICK (R43). In VAULT no tick passes. -/
def execTick (ecc : List Ecc) (s : State) : Res :=
  if s.pw.stage = .off then .next s else .next (beginTick (endTick ecc s))

end Sys2Proof.Machine
end

