-- ==== Sys2Proof/Machine/Jobs.lean ====
section
/-! DEFINITION. What the job ports of all engines share: GO, the current step, its end, and record clearing (R127-R132, R139, R157-R161,
R182, R187, R207). -/

namespace Sys2Proof.Machine
open Sys2Proof

/-! ### Job statuses (R132, R161, R191) -/

/-- The job status of a catalogue status: its low byte, but OPERAND is 0x03, and SIG_BAD, MAC_BAD and TAG_BAD have codes of their own. -/
def jobStatus (st : Nat) : Nat :=
  if st = 0x0121 then 0x03 else if st = 0x0100 then 0x40 else if st = 0x0101 then 0x41 else if st = 0x0102 then 0x42
  else st % 256

/-- The event of a job's ending (R140, R165, R193). A comparison or a limit has raised its event already. -/
def jobEvent (q k st : Nat) (s : State) : State :=
  if st = 0x01 || st = 0x02 || st = 0x04 || st = 0x05 || st = 0x51 then engineEvent q 0 k s
  else if st = 0x0B || (0x10 ≤ st && st ≤ 0x14) then engineEvent q 1 k s
  else if st = 0x30 then engineEvent q 2 k s
  else if st = 0x22 && q % 5 = 3 then engineEvent q 3 k s
  else s

/-- End the job with a status and its event. -/
def failJob (q k st : Nat) (s : State) : State := endJob q k st (jobEvent q k st s)

/-! ### GO (R128, R158, R187, R207) -/

/-- What a kind of engine asks of its list: bytes and alignment of a request, the largest COUNT. -/
structure PortKind where
  size : Nat
  align : Nat
  most : Nat
  deriving DecidableEq, Repr

def portKind (e : Nat) : PortKind :=
  if e ≤ 1 then ⟨16, 16, 256⟩ else if e = 2 then ⟨32, 32, 64⟩ else if e = 3 then ⟨64, 64, 32⟩ else ⟨32, 32, 64⟩

/-- The references a request names, and whether it draws (R128, R207). -/
def requestNeeds (e : Nat) (b : Bytes) : List Nat × Bool :=
  let op := fieldLE b 0 1
  if e ≤ 1 then
    if op = 0x03 then ([fieldLE b 8 4], false)
    else if op = 0x0D then ([], fieldLE b 11 1 % 2 = 1)
    else if op = 0x10 then ([], true)
    else if op = 0x1F then ([fieldLE b 8 4], true)
    else ([], false)
  else if e = 2 then
    if op = 0x1F then ([fieldLE b 8 4], [0x0400, 0x0401, 0x0410, 0x0411].contains (fieldLE b 6 2)) else ([], false)
  else if e = 3 then ([fieldLE b 4 4], fieldLE b 0 2 ≠ 0x0700 || fieldLE b 8 4 ≠ 0)
  else if op = 0x01 then ([fieldLE b 4 4], false)
  else ([], false)

/-- GO on the port of lease k on engine q with a COUNT: a list that cannot run ends at once, one of more steps than the engine takes with STEP
(log 138). -/
def submitJob (q k count : Nat) (s : State) : State :=
  let e := q % 5
  let pk := portKind e
  let j := s.job q k
  let addr := j.jaddr.toNat
  let fresh := { j with fc := 0, n := 0, tk := 0, step := 0, idx := 0, count := count, left := none, found := none, granted := false,
                        late := [], made := [], undo := [] }
  let done := fun st => jobEvent q k st (s.setJob q k { fresh with state := .done, status := st, ending := some st })
  if count = 0 then s
  else if j.state = .wait || j.state = .run then engineEvent q 0 k s
  else if !(s.engine q).jobs then done 0x05
  else if pk.most < count then done 0x02
  else if addr % pk.align ≠ 0 || !s.inPages (q / 5) k addr (pk.size * count) then done 0x01
  else
    let needs := (List.range count).map fun i => requestNeeds e (s.ramRead (addr + pk.size * i) pk.size)
    let names := (needs.flatMap Prod.fst).map (BitVec.ofNat 32)
    let refs := (names.flatMap fun r => s.linesOf k r).eraseDups
    if 16 < (names.flatMap fun r => s.namedSlots k r).eraseDups.length then done 0x02
    else
      let s := s.setJob q k { fresh with state := .wait, status := 0, ending := none, eligibleAt := s.pw.now + 1,
                                         needsRng := needs.any Prod.snd, refs := refs, named := names.any (· ≠ 0) }
      if q / 5 < 16 then wakeReq (q / 5) s else s

/-- The lease whose port a core sees: the one that holds it; the island's for island cores. None where the core cannot reach it. -/
def State.portLease (s : State) (c : Nat) : Option Nat :=
  let k := s.coreOwner c
  if 66 ≤ c || (64 ≤ c && !s.islandRuns) || (c < 64 && (k = 0xFF || (s.bench (c / 4)).state ≠ .ready)) then none else some k

/-- A GO by core c on the engine at place e of its bench. -/
def goFrom (c e count : Nat) (s : State) : Res :=
  match s.portLease c with
  | none => .next s
  | some k => .next (submitJob (5 * coreBench c + e) k count s)

/-! ### The current request of a job -/

/-- The job has this tick, and its current request is the one a row names; its bytes. -/
def State.current (s : State) (q k size : Nat) (is : Bytes → Bool) : Option (Job × Bytes) :=
  let j := s.job q k
  let b := s.ramRead (j.jaddr.toNat + size * j.idx) size
  if j.granted && (s.engine q).erased.isNone && j.state = .run && j.ending.isNone && j.idx < j.count && 0 < j.budget && is b then some (j, b) else none

/-- The request has ended well: the next one follows, or the job ends OK (R131, R132). -/
def nextRequest (q k : Nat) (j : Job) (s : State) : State :=
  let s := releaseSlots j.resv s
  let s := s.setJob q k { j with step := j.idx, idx := j.idx + 1, left := none, found := none, drawn := [], key := none, resv := [],
                                 made := j.made ++ j.resv }
  if j.idx + 1 = j.count then endJob q k 0 s else s

/-- The job ends at its current request. -/
def stopRequest (q k st : Nat) (j : Job) (s : State) : State := failJob q k st (s.setJob q k { j with step := j.idx })

/-- A step or request of job k on engine q writes bench SRAM; what it overwrites is kept for the rest of the tick, since an uncorrectable error
withdraws it (R141, R166). -/
def jobWrite (a : Nat) (b : Bytes) (j : Job) (s : State) : Job × State :=
  ({ j with undo := (a, s.ramRead a b.length) :: j.undo }, s.ramWrite a b)

/-- Spend fc of the tick's budget. -/
def Job.spend (j : Job) (n : Nat) : Job := { j with budget := j.budget - n, fc := j.fc + BitVec.ofNat 64 n }

/-! ### Requests of whole job ticks (R161, R188, R189) -/

/-- A request that takes whole job ticks starts at the beginning of a tick's budget. `start` answers its count and its record, or the
status that ends the job in the first tick; `each` is what tick t of it does; `fin` gives its status and what it leaves. -/
def wholeTicks (q k size : Nat) (is : Bytes → Bool) (start : Job → Bytes → State → Except Nat (Nat × Job) × State)
    (each : Nat → Job → Bytes → State → Job × State) (fin : Job → Bytes → State → Nat × Job × State) (s : State) : State :=
  let s := runFirsts q s
  match s.current q k size is with
  | none => s
  | some (j, b) =>
    if j.left.isNone && j.budget < budgetFc then s.setJob q k { j with budget := 0 }
    else
      let begun : Except Nat (Nat × Job) × State :=
        match j.left with
        | some l => (.ok (l, j), s)
        | none =>
          match start j b s with
          | (.error st, s) => (.error st, s)
          | (.ok (n, j), s) => (.ok (n, { j with total := n }), s)
      match begun with
      | (.error st, s) => stopRequest q k st j s
      | (.ok (l, j), s) =>
        let (j, s) := each (j.total + 1 - l) { j with budget := 0, left := some (l - 1) } b s
        if 1 < l then s.setJob q k j
        else
          let (st, j, s) := fin j b s
          if st = 0 then nextRequest q k j s else stopRequest q k st j s

/-- Every byte of a range that is not empty lies in the lease's pages. -/
def State.covered (s : State) (q k a len : Nat) : Bool := len = 0 || s.inPages (q / 5) k a len

/-! ### CTL.CLR (R139, R145, R177, R182) -/

/-- A write of CLR with CLR_LEASE on engine q. -/
def requestClear (q k : Nat) (s : State) : State :=
  if s.islandRuns then s.modEngine q fun e => { e with clr := if e.clr.contains k then e.clr else e.clr ++ [k] } else s

def execCutCtlClr (q k : Nat) (s : State) : Res := if q % 5 ≤ 1 && k < 64 then .next (requestClear q k (wrote (engineCtl q) s)) else .next s
def execSplCtlClr (q k : Nat) (s : State) : Res := if q % 5 = 2 && k < 64 then .next (requestClear q k (wrote (engineCtl q) s)) else .next s
def execWdgCtlClr (q k : Nat) (s : State) : Res := if q % 5 = 3 && k < 64 then .next (requestClear q k (wrote (engineCtl q) s)) else .next s
def execDigCtlClr (q k : Nat) (s : State) : Res := if q % 5 = 4 && k < 64 then .next (requestClear q k (wrote (engineCtl q) s)) else .next s

/-- A quantum of lease k runs on engine q in this tick. -/
def State.leaseOn (s : State) (q k : Nat) : Bool := (s.engine q).lease = some k

/-- The command record of a part: its key and its drawn bytes are zero from now on; the spec ends no host command for it (R139, log 124). -/
def Part.cleared (p : Part) : Part :=
  let zero := fun (x : Slot) => { x with value := [] }
  { p with key := p.key.map zero, key2 := p.key2.map zero, drawn := List.replicate p.drawn.length 0 }

/-- Clear both records of lease k on engine q, ending its job with 0x0A; a wedge counts the erasure and zeroes what its job held, a digest engine
clears the lease's contexts (R139, R145, R174, R177, R182). -/
def clearNow (q k : Nat) (s : State) : State :=
  let s := stopJob q k 0x0A s
  let s := clearRecord q k s
  let put := fun (p : Part) => if p.eng = some q && 0 < p.ticks then p.cleared else p
  let s := { s with cmds := s.cmds.map fun e =>
    if e.2.lease = k && e.2.result.isNone then (e.1, { e.2 with a := put e.2.a, b := e.2.b.map put }) else e }
  let s := if q % 5 = 3 then dropHeld (fun x => x.bench = q / 5 && x.lease = k && x.hi ≤ stagingBase) s else s
  let s := if q % 5 = 3 then s.modEngine q fun e => { e with kerase := satAdd e.kerase 1 } else s
  let s := if q % 5 = 4 then clearContexts (fun x => x / 8 = q / 5 && s.ctxOwner x = k) s else s
  s.modEngine q fun e => { e with clr := e.clr.filter (· ≠ k) }

/-- ENGINE_RECORD_CLEAR at a tick boundary: the leases asked for whose work is not under way (R139). -/
def execEngineRecordClear (q : Nat) (s : State) : Res :=
  .next (((s.engine q).clr.filter fun k => !s.leaseOn q k).foldl (fun t k => clearNow q k t) s)

end Sys2Proof.Machine
end

