-- ==== Sys2Proof/Machine/Cutter.lean ====
section
/-! DEFINITION. Cutter job steps (R120-R136). -/

namespace Sys2Proof.Machine
open Sys2Proof

/-! ### Cells and costs (R120, R124, R130) -/

def Job.cell (j : Job) (i : Nat) : Cell := tget {} j.cells i
def Job.setCell (j : Job) (i : Nat) (c : Cell) : Job := { j with cells := tset {} j.cells i c }

/-- The low w limbs of a cell. -/
def Job.limbs (j : Job) (i w : Nat) : Nat := (j.cell i).val % 2 ^ (64 * w)

def maddFc (w : Nat) : Nat := 4 + ceilDiv w 4
def mmulFc (w : Nat) : Nat := 4 + 2 * w * ceilDiv w 16

/-- The fields of a step (R129). -/
structure Step16 where
  op : Nat
  w : Nat
  d : Nat
  a : Nat
  b : Nat
  m : Nat
  curve : Nat
  param : Nat
  raw : Bytes
  deriving DecidableEq, Repr

def stepOf (x : Bytes) : Step16 :=
  { op := fieldLE x 0 1, w := fieldLE x 1 1, d := fieldLE x 2 1, a := fieldLE x 3 1, b := fieldLE x 4 1, m := fieldLE x 5 1,
    curve := fieldLE x 6 1, param := fieldLE x 8 8, raw := x }

def Step16.bits (x : Step16) (lo n : Nat) : Nat := x.param / 2 ^ lo % 2 ^ n

/-- The PARAM bits a step uses. -/
def paramMask (op : Nat) : Nat :=
  if op = 0x01 ∨ op = 0x02 then 0xFFFFFFFF
  else if op = 0x03 then 0xFFFFFFFFFFFF
  else if op = 0x04 then 0xFFFFFFFF00FFFFFF
  else if op = 0x0D then 0x01FF1FFF
  else if op = 0x10 then 1
  else if op = 0x18 then 0xFF
  else if op = 0x1F then 0xFFFFFFFFFFFFFFFF
  else 0

def cutOps : List Nat := [0x01, 0x02, 0x03, 0x04, 0x08, 0x09, 0x0A, 0x0B, 0x0C, 0x0D, 0x10, 0x11, 0x18, 0x19, 0x1F]
def longOps : List Nat := [0x0B, 0x0C, 0x0D, 0x10, 0x18, 0x1F]

/-- The cells a long step names. -/
def Step16.longCells (x : Step16) : List Nat :=
  if x.op = 0x0B then [x.d, x.m]
  else if x.op = 0x0C then [x.d, x.a, x.m]
  else if x.op = 0x0D then [x.d, x.a, x.b, x.m] ++ (if x.bits 24 1 = 1 then [x.bits 16 8] else [])
  else if x.op = 0x10 then [x.d, x.a] ++ (if x.bits 0 1 = 1 then [] else [x.b])
  else if x.op = 0x18 then [x.d, x.a, x.b, x.m, x.bits 0 8]
  else if x.op = 0x1F then [x.d, x.a]
  else []

/-- The curves a step allows. -/
def Step16.curveOk (x : Step16) : Bool :=
  if x.op = 0x10 then 1 ≤ x.curve && x.curve ≤ 4 && !(x.curve = 2 && x.bits 0 1 = 1)
  else if x.op = 0x11 then x.curve = 1 || x.curve = 3 || x.curve = 4
  else if x.op = 0x19 then 1 ≤ x.curve && x.curve ≤ 4
  else x.curve = 0

/-- A malformed step (R129). A NATIVE input that reaches past cell 7 names a cell that a long step may not take; an E above 4,096 and a NATIVE opcode
that is not offered count as malformed (log 141). -/
def Step16.bad (x : Step16) : Bool :=
  !cutOps.contains x.op || x.w = 0 || 64 < x.w || 127 < x.d || 127 < x.a || 127 < x.m ||
    (127 < x.b && !(x.op = 0x0A && x.b = 0xFF)) || fieldLE x.raw 7 1 ≠ 0 || x.param &&& (2 ^ 64 - 1 - paramMask x.op) ≠ 0 ||
    !x.curveOk || (longOps.contains x.op && !x.longCells.all (· ≤ 7)) || (x.op = 0x0D && 4096 < x.bits 0 13) ||
    (x.op = 0x1F && (!([0x0300, 0x0310, 0x0312].contains (x.bits 32 16)) || 4096 < 512 * x.a + x.bits 48 16))

/-! ### Running a step (R131, R132) -/

/-- What a step that fails leaves in its job: D zero, with SECRET clear; STORE and YSTORE have no D (R132). -/
def Step16.failed (x : Step16) (j : Job) : Job := if x.op = 0x02 || x.op = 0x04 || 127 < x.d then j else j.setCell x.d {}

/-- The step a row names is current on cutter q for lease k. A malformed step, or an unknown one, ends the job with STEP. -/
def cutRow (op q k : Nat) (f : Job → Step16 → State → State) (s : State) : State :=
  if 1 < q % 5 then s
  else
    let s := runFirsts q s
    match s.current q k 16 (fun b => fieldLE b 0 1 = op || !cutOps.contains (fieldLE b 0 1)) with
    | none => s
    | some (j, b) =>
      let x := stepOf b
      if x.bad then stopRequest q k 0x02 (x.failed j) s else f j x s

/-- The result of a step: a new destination cell, or the job as a step without one leaves it, or a status. A state change beside it comes with it. -/
inductive StepRes where
  | cell (c : Cell) (s : State)
  | done (j : Job) (s : State)
  | fail (st : Nat) (s : State)

/-- Apply a step's result: a failed step leaves D zero (R132). -/
def applyStep (q k : Nat) (j : Job) (x : Step16) : StepRes → State
  | .cell c s => nextRequest q k (j.setCell x.d c) s
  | .done j s => nextRequest q k j s
  | .fail st s =>
    let s := if st = 0x31 then faultCheck q s else s
    stopRequest q k st (x.failed j) s

/-- A short step runs whole if it fits, or waits for the job's next tick (R131). -/
def shortStep (op q k : Nat) (fc : State → Step16 → Nat) (f : Job → Step16 → State → StepRes) (s : State) : State :=
  cutRow op q k (fun j x s =>
    let n := fc s x
    if j.budget < n then s.setJob q k { j with budget := 0 }
    else
      let j := j.spend n
      applyStep q k j x (f j x s)) s

/-- A long step: its draw at the start, then fc over the job's ticks, then its result (R131). `start` gives its fc and the bytes it
draws. -/
def longStep (op q k : Nat) (start : Step16 → Nat × Nat) (f : Job → Step16 → State → StepRes) (s : State) : State :=
  cutRow op q k (fun j x s =>
    let (total, n) := start x
    let begun : Option (Job × State) :=
      match j.left with
      | some _ => some (j, s)
      | none =>
        if n = 0 then some ({ j with left := some total }, s)
        else (draw (q / 5) n s).map fun r => ({ j with left := some total, drawn := r.1 }, r.2)
    match begun with
    | none => stopRequest q k 0x30 (j.setCell x.d {}) s
    | some (j, s) =>
      let l := j.left.getD 0
      let n := min l j.budget
      let j := j.spend n
      if n < l then s.setJob q k { j with left := some (l - n) } else applyStep q k j x (f j x s)) s

/-- Public or secret as its sources are. -/
def Job.tagOf (j : Job) (l : List Nat) : Bool := l.any fun i => (j.cell i).secret

/-! ### LOAD, STORE -/

def execCutLoad (q k : Nat) (s : State) : Res :=
  .next (shortStep 0x01 q k (fun _ x => 8 + x.w) (fun _ x s =>
    let a := x.bits 0 32
    if a % 8 ≠ 0 || !s.inPages (q / 5) k a (8 * x.w) then .fail 0x01 s
    else .cell { val := leNat (s.ramRead a (8 * x.w)), limbs := x.w } s) s)

def execCutStore (q k : Nat) (s : State) : Res :=
  .next (shortStep 0x02 q k (fun _ x => 8 + x.w) (fun j x s =>
    let a := x.bits 0 32
    if (j.cell x.a).secret then .fail 0x04 s
    else if a % 8 ≠ 0 || !s.inPages (q / 5) k a (8 * x.w) then .fail 0x01 s
    else
      let (j, s) := jobWrite a (leBytes (8 * x.w) (j.limbs x.a x.w)) j s
      .done j s) s)

/-! ### YLOAD, YSTORE (R126, R130) -/

/-- Limbs, secrecy and value of a component of a key; none where the type has no such component. -/
def component (x : Slot) (i : Nat) : Option (Nat × Bool × Nat) :=
  let t := x.type
  if isRsa t then
    let r := rsaKey t x.value
    let w := rsaLen t / 8
    if i = 0 then some (w, false, r.n) else if i = 1 then some (1, false, 65537)
    else if i = 2 then some (w / 2, true, r.p) else if i = 3 then some (w / 2, true, r.q)
    else if i = 4 then some (w / 2, true, r.dp) else if i = 5 then some (w / 2, true, r.dq)
    else if i = 6 then some (w / 2, true, r.qinv) else none
  else if t = 0x10 then
    if i = 0 then some (4, true, Config.edScalar x.priv) else if i = 1 then some (4, true, Config.edPrefix x.priv)
    else if i = 2 then some (8, false, Config.edDecode x.pub) else none
  else if t = 0x11 then
    let n := leNat x.priv
    if i = 0 then some (4, true, n % 2 ^ 254 / 8 * 8 + 2 ^ 254) else if i = 1 then some (4, false, leNat x.pub) else none
  else if t = 0x12 ∨ t = 0x13 then
    let w := if t = 0x12 then 4 else 6
    if i = 0 then some (w, true, beNat x.priv)
    else if i = 1 then some (2 * w, false, beNat (x.pub.take (8 * w)) + 2 ^ (64 * w) * beNat (x.pub.drop (8 * w))) else none
  else none

def yloadFc (k : Nat) (s : State) (x : Step16) : Nat :=
  let r := BitVec.ofNat 32 (x.bits 0 32)
  if s.presented k r = 0x10 && x.bits 32 8 ≤ 1 then 184 else 24 + x.w

/-- YLOAD. PARAM[47:40] is a mask of ATTR[7:0], of which one bit is required; 0 asks for none (log 140). A component that the type lacks and a W
that is not its length end the job with STEP, after the reference has been checked and its use counted (log 139). -/
def execYload (q k : Nat) (s : State) : Res :=
  .next (shortStep 0x03 q k (yloadFc k) (fun _ x s =>
    let r := BitVec.ofNat 32 (x.bits 0 32)
    let st := s.checkRef k r [0x10, 0x11, 0x12, 0x13, 0x20, 0x21, 0x22] (x.bits 40 8)
    if st ≠ 0 then .fail (jobStatus st) s
    else
      let s := countUse k r s
      match component (s.slot (refSlot r)) (x.bits 32 8) with
      | none => .fail 0x02 s
      | some (w, sec, v) =>
        if w ≠ x.w then .fail 0x02 s else .cell { val := v % 2 ^ (64 * w), limbs := w, secret := sec } s) s)

/-- The value that YSTORE writes from w limbs for a type: the private part in the byte order of R199; none where the type is not one
of w limbs (log 18). -/
def storedValue (t w v : Nat) : Option Bytes :=
  if t = 0x01 then (if w = 2 then some (leBytes 16 v) else none)
  else if t = 0x02 ∨ t = 0x30 ∨ t = 0x10 ∨ t = 0x11 then (if w = 4 then some (leBytes 32 v) else none)
  else if t = 0x31 then (if w = 8 then some (leBytes 64 v) else none)
  else if t = 0x03 ∨ t = 0x04 then (if 2 ≤ w ∧ w ≤ 12 then some (leBytes (8 * w) v) else none)
  else if t = 0x12 then (if w = 4 then some (beBytes 32 v) else none)
  else if t = 0x13 then (if w = 6 then some (beBytes 48 v) else none)
  else none

def ystore (k : Nat) (j : Job) (x : Step16) (s : State) : StepRes :=
  let target := x.bits 0 16
  let t := x.bits 16 8
  let attr := BitVec.ofNat 16 (x.bits 32 16)
  let parent := x.bits 48 16
  if s.presentsEmpty k parent || (s.slot parent).pending then .fail 0x10 s
  else if (s.slot parent).type = 0x2F then .fail 0x12 s
  else if !hasAttr (s.slot parent).attr aDERIVE then .fail 0x13 s
  else
    match storedValue t x.w (j.limbs x.a x.w) with
    | none => .fail 0x03 s
    | some v =>
      let persist := hasAttr attr aPERSIST
      let st := s.checkTarget k target 1 parent persist
      if !attrOk t attr || (persist && !s.persistLine 6 parent) then .fail 0x03 s
      else if st ≠ 0 then .fail (jobStatus st) s
      else .done { j with made := target :: j.made }
        (writeKey k target parent t (if t = 0x03 ∨ t = 0x04 then 8 * x.w else 0) attr v (isCurve t) false s).2

def execYstore (q k : Nat) (s : State) : Res := .next (shortStep 0x04 q k (fun _ x => 32 + x.w) (ystore k) s)

/-! ### Modular arithmetic -/

/-- Two sources and an odd modulus above them, or OPERAND. -/
def modStep (j : Job) (x : Step16) (f : Nat → Nat → Nat → Nat) (s : State) : StepRes :=
  let m := j.limbs x.m x.w
  let a := j.limbs x.a x.w
  let one := x.b = 0xFF
  let b := if one then 1 else j.limbs x.b x.w
  if m % 2 = 0 || m ≤ a || m ≤ b then .fail 0x03 s
  else .cell { val := f a b m, limbs := x.w, secret := j.tagOf (if one then [x.a, x.m] else [x.a, x.b, x.m]) } s

def execMadd (q k : Nat) (s : State) : Res :=
  .next (shortStep 0x08 q k (fun _ x => maddFc x.w) (fun j x s => modStep j x (fun a b m => (a + b) % m) s) s)

def execMsub (q k : Nat) (s : State) : Res :=
  .next (shortStep 0x09 q k (fun _ x => maddFc x.w) (fun j x s => modStep j x (fun a b m => (a + m - b) % m) s) s)

/-- 2^(-64 w) modulo an odd m. -/
def rInv (w m : Nat) : Nat := (modInv (2 ^ (64 * w) % m) m).getD 0

def execMmul (q k : Nat) (s : State) : Res :=
  .next (shortStep 0x0A q k (fun _ x => mmulFc x.w) (fun j x s => modStep j x (fun a b m => a * b % m * rInv x.w m % m) s) s)

def execMprep (q k : Nat) (s : State) : Res :=
  .next (longStep 0x0B q k (fun x => (64 + 8 * mmulFc x.w + 64 * maddFc x.w, 0)) (fun j x s =>
    let m := j.limbs x.m x.w
    if m % 2 = 0 then .fail 0x03 s
    else .cell { val := 2 ^ (128 * x.w) % m, limbs := x.w, secret := j.tagOf [x.m] } s) s)

def execMinv (q k : Nat) (s : State) : Res :=
  .next (longStep 0x0C q k (fun x => (64 + 256 * x.w * maddFc x.w, 0)) (fun j x s =>
    let m := j.limbs x.m x.w
    let a := j.limbs x.a x.w
    if m % 2 = 0 || m ≤ a then .fail 0x03 s
    else
      match modInv a m with
      | none => .fail 0x03 s
      | some v => .cell { val := v, limbs := x.w, secret := j.tagOf [x.a, x.m] } s) s)

/-- E′ of MEXP, and its draw. -/
def mexpStart (x : Step16) : Nat × Nat :=
  let e := x.bits 0 13
  let blind := x.bits 24 1 = 1
  if e = 0 then (16, if blind then 8 else 0) else (16 + 2 * (if blind then e + 64 else e) * mmulFc x.w, if blind then 8 else 0)

/-- MEXP: A and the result in Montgomery form; BLIND adds m times the order cell to the exponent (R135). -/
def mexp (j : Job) (x : Step16) (s : State) : StepRes :=
  let m := j.limbs x.m x.w
  let a := j.limbs x.a x.w
  let e := x.bits 0 13
  let b := (j.cell x.b).val
  let blind := x.bits 24 1 = 1
  let exp := if blind then b + leNat j.drawn * (j.cell (x.bits 16 8)).val else b
  if m % 2 = 0 || m ≤ a || 2 ^ e ≤ b then .fail 0x03 s
  else
    let r := 2 ^ (64 * x.w) % m
    let base := a * rInv x.w m % m
    .cell { val := if e = 0 then r else powMod base exp m * r % m, limbs := x.w,
            secret := j.tagOf ([x.a, x.b, x.m] ++ if blind then [x.bits 16 8] else []) } s

def execMexp (q k : Nat) (s : State) : Res := .next (longStep 0x0D q k mexpStart mexp s)

/-! ### Points -/

def scalarLimbs (curve : Nat) : Nat := if curve = 4 then 6 else 4
def pointLimbs (curve : Nat) : Nat := if curve = 2 then 4 else if curve = 4 then 12 else 8

def pmulStart (x : Step16) : Nat × Nat :=
  let fixed := x.bits 0 1 = 1
  if fixed then (if x.curve = 1 then 28672 else if x.curve = 3 then 30720 else 65536, 32)
  else (if x.curve = 1 then 61440 else if x.curve = 2 then 57600 else if x.curve = 3 then 60800 else 134400, if x.curve = 4 then 48 else 32)

/-- The identity as a cell holds it: x = 0, y = 1 on Edwards25519; on the other curves Config.identityPoint (R133, log 119). -/
def identityOf (curve : Nat) : Nat :=
  (if curve = 1 then 2 ^ 256 else Config.identityPoint curve) % 2 ^ (64 * pointLimbs curve)

/-- PMUL: the identity for a scalar of 0 (R133); OPERAND for an invalid base point. -/
def execPmul (q k : Nat) (s : State) : Res :=
  .next (longStep 0x10 q k pmulStart (fun j x s =>
    let fixed := x.bits 0 1 = 1
    let p := if fixed then Config.pointBase x.curve else j.limbs x.b (pointLimbs x.curve)
    let a := j.limbs x.a (scalarLimbs x.curve)
    match Config.pointMul x.curve a p with
    | none => .fail 0x03 s
    | some v => .cell { val := if a = 0 then identityOf x.curve else v % 2 ^ (64 * pointLimbs x.curve), limbs := pointLimbs x.curve,
                        secret := j.tagOf (if fixed then [x.a] else [x.a, x.b]) } s) s)

def execCutPadd (q k : Nat) (s : State) : Res :=
  .next (shortStep 0x11 q k (fun _ x => if x.curve = 4 then 160 else 96) (fun j x s =>
    let w := pointLimbs x.curve
    .cell { val := Config.pointAdd x.curve (j.limbs x.a w) (j.limbs x.b w) % 2 ^ (64 * w), limbs := w, secret := j.tagOf [x.a, x.b] } s) s)

/-! ### Releases (R125, R130, R137) -/

/-- A^65537 is compared with B modulo M through the given 2^(128 w) mod M. -/
def execReleasePub (q k : Nat) (s : State) : Res :=
  .next (longStep 0x18 q k (fun x => (16 + 36 * mmulFc x.w, 0)) (fun j x s =>
    let m := j.limbs x.m x.w
    let a := j.limbs x.a x.w
    let b := j.limbs x.b x.w
    let r2 := j.limbs (x.bits 0 8) x.w
    let ri := rInv x.w m
    if m % 2 = 0 || m ≤ a || m ≤ b || m ≤ r2 then .fail 0x03 s
    else if powMod (a * r2 % m * ri % m * ri % m) 65537 m = b then .cell { val := a, limbs := x.w } s
    else .fail 0x31 s) s)

def execReleasePt (q k : Nat) (s : State) : Res :=
  .next (shortStep 0x19 q k (fun _ x => if x.curve = 4 then 512 else 256) (fun j x s =>
    let w := pointLimbs x.curve
    let a := j.limbs x.a w
    if a = identityOf x.curve then .fail 0x03 s
    else if Config.pointOk x.curve a then .cell { val := a, limbs := w } s
    else .fail 0x31 s) s)

/-! ### NATIVE (R130, R133) -/

/-- The bytes of cells from A on, 512 a cell. -/
def Job.bytesFrom (j : Job) (a n : Nat) : Bytes :=
  ((List.range (ceilDiv n 512)).flatMap fun i => leBytes 512 (j.cell (a + i)).val).take n

/-- The catalogue command that a NATIVE step runs. -/
def nativeCmd (k op : Nat) (yref : BitVec 32) (input : Bytes) : Cmd :=
  { lease := k, queue := 0, seq := 0, batch := 0, opcode := op, flags := 0, tag := 0, yref := yref, len := 3,
    u3 := List.replicate 16 0, outAddr := 0, outCap := 4096, inLen := input.length, input := input, foot := 0, dbTick := 0,
    fetchedAt := 0, a := { cls := .cutter } }

def nativeOp (op : Nat) : Cmd → Part → State → Nat × Bytes × State :=
  if op = 0x0300 then fRsaPriv else if op = 0x0310 then fEdSign else fEcdsaSign

/-- The start of a NATIVE step: the row's checks, its draw, its count; a failed check is reported at the end of the step, which has then run
the row's full count: 24 ticks for ED_SIGN, 1 where the count needs a key that is not there (R130, R132). No job where the draw fails: the use that
the check has counted stands (R222). -/
def nativeStart (q k : Nat) (j : Job) (x : Step16) (s : State) : Option Job × State :=
  let r := BitVec.ofNat 32 (x.bits 0 32)
  let c := nativeCmd k (x.bits 32 16) r (j.bytesFrom x.a (x.bits 48 16))
  let (st, s, _) := r98 c false s
  let y := s.slot (refSlot r)
  let st := if st = 0 && earlyStatus c y.type y.value ≠ 0 then earlyStatus c y.type y.value else st
  let typed := match keySpec c.opcode with | some (l, _, _) => l.contains (s.presented k r) | none => false
  let total := budgetFc * (if typed || c.opcode = 0x0310 then publishedTicks c false y.type 0 0 else 1)
  if st ≠ 0 then (some { j with left := some total, found := some (jobStatus st) }, s)
  else
    match draw (q / 5) (rngBytes c y.type) s with
    | none => (none, s)
    | some (b, s) => (some { j with left := some total, drawn := b, key := some y }, s)

/-- CUT_NATIVE; `bad` is the failure of the row's fault check. -/
def execCutNative (q k : Nat) (bad : Bool) (s : State) : Res :=
  .next (cutRow 0x1F q k (fun j x s =>
    match (match j.left with | some _ => (some j, s) | none => nativeStart q k j x s) with
    | (none, s) => stopRequest q k 0x30 (j.setCell x.d {}) s
    | (some j, s) =>
      let l := j.left.getD 0
      let n := min l j.budget
      let j := j.spend n
      if n < l then s.setJob q k { j with left := some (l - n) }
      else
        match j.found with
        | some st => applyStep q k j x (.fail st s)
        | none =>
          if bad then applyStep q k j x (.fail 0x31 s)
          else
            let r := BitVec.ofNat 32 (x.bits 0 32)
            let c := nativeCmd k (x.bits 32 16) r (j.bytesFrom x.a (x.bits 48 16))
            let p : Part := { cls := .cutter, eng := some q, key := j.key, drawn := j.drawn }
            let (st, out, s) := nativeOp c.opcode c p s
            if st = 0x0131 then stopRequest q k 0x31 (j.setCell x.d {}) s
            else if st ≠ 0 then applyStep q k j x (.fail (jobStatus st) s)
            else applyStep q k j x (.cell { val := leNat out, limbs := ceilDiv out.length 8 } s)) s)

/-- CUT_JCTL_GO: a core writes GO on the even (0) or odd (1) cutter of its bench, or on the island cutter (R128). -/
def execCutJctlGo (core odd count : Nat) (s : State) : Res :=
  if core < 64 then goFrom core (odd % 2) count s else goFrom core 0 count s

end Sys2Proof.Machine
end

