-- ==== Sys2Proof/Machine/Random.lean ====
section
/-! DEFINITION. The random chain: start and restart, exclusion and readmission of sources, seeds, expanders, the mask (R227-R240). The
port's own rows stand with the Triven cores. -/

namespace Sys2Proof.Machine
open Sys2Proof

/-- The chain runs: the island does (R227). -/
def State.chainRuns (s : State) : Bool := s.pw.stage ≠ .off && s.pw.vio3 && s.pw.sysRst && !s.pw.supplyHold

def bits16 (p : Nat → Bool) : BitVec 16 :=
  BitVec.ofNat 16 ((List.range 16).foldl (fun a i => if p i then a + 2 ^ i else a) 0)

/-! ### Start (R235) -/

/-- RNG_WARMUP_END: the start tests begin, or a failed known-answer test ends the start in FAILED at the end of the tick (R235, R236). -/
def execRngWarmupEnd (katOk : Bool) (s : State) : Res :=
  if !s.chainRuns || s.rng.state ≠ .warmup || s.pw.now < s.rng.start || s.rng.failPend then .next s
  else if katOk then .next (startTest s.pw.now s)
  else
    let t := { s with rng := { s.rng with failPend := true } }
    .next (raiseRandom 22 0xFF (raiseRandom 17 0xFF (raiseRandom 16 0xFF t)))

/-- An expander waits for a seed: it has none yet, or it asks for one (R233). -/
def Exp.waits (x : Exp) : Bool := x.inst.isNone || x.asks

/-- The expander that the crusher serves first: the island's, then that of the most requests, the lowest number on a tie (R230). -/
def State.firstWaiting (s : State) : Option Nat :=
  if (s.exp 16).waits then some 16
  else
    (List.range s.nBench).foldl (fun best e =>
      if !(s.exp e).waits then best
      else
        match best with
        | none => some e
        | some b => if (s.exp b).reqs.toNat < (s.exp e).reqs.toNat then some e else best) none

/-- SHA3-256 of 256 raw bytes of the healthy sources, which are free values (R230, log 5). -/
def conditioned (s : State) : Bytes × State := (fixLen 32 (Config.digestRaw 4 32 (s.freeBytes 256)), s.useFree 256)

/-- One more seed: for the expander that is served first, else for the pool, where a seventeenth replaces the oldest (R230). -/
def newSeed (s : State) : State :=
  let (seed, s) := conditioned s
  let s := { s with rng := { s.rng with seeds := satAdd s.rng.seeds 1 } }
  match s.firstWaiting with
  | some e => giveSeed e seed s
  | none => let l := s.rng.pool ++ [seed]; { s with rng := { s.rng with pool := l.drop (l.length - 16) } }

/-- RNG_TEST_END at r + 64: the sources still in test have passed and are admitted, and their start-up samples are conditioned; with
fewer than 4 the start ends in FAILED (R235). -/
def execRngTestEnd (s : State) : Res :=
  let r := s.rng
  if !s.chainRuns || r.state ≠ .test || s.pw.now < r.start + 64 then .next s
  else
    let passed := r.testing &&& ~~~r.retests &&& ~~~r.mask &&& ~~~bits16 fun i => r.fails.any fun f => f.src = i
    let n := ((List.range 16).filter fun i => passed.getLsbD i).length
    if n < 4 then .next (raiseRandom 17 0xFF (failChain s))
    else
      let back := (List.range 16).filter fun i => passed.getLsbD i && r.excl.getLsbD i
      let r := { r with state := .seeding, excl := r.excl &&& ~~~passed, testing := r.retests,
                        raw := 1024 * n % 2048 + 16 * n }
      let s := forEach back (fun _ t => raiseRandom 20 0xFF t) { s with rng := r }
      .next (forN (1024 * n / 2048) (fun _ t => newSeed t) s)

/-- RNG_READY: every expander of the variant has a full queue, and all become READY together; AUTOLEFT returns to 8 (R235, R237). -/
def execRngReady (s : State) : Res :=
  if s.rng.state ≠ .seeding || !(s.expanders.all fun e => (s.exp e).full) then .next s
  else
    .next (forEach s.expanders (fun e t => t.setExp e { t.exp e with ready := true })
      { s with rng := { s.rng with state := .run, autoLeft := 8 } })

/-! ### Sources (R228, R229) -/

/-- The healthy sources, `before` in number until now, have fallen below 4: total failure at the end of the tick; a start that it ends has its own
event (R236, R240). -/
def checkHealthy (before : Nat) (s : State) : State :=
  let r := s.rng
  if !(r.state = .test || r.state = .seeding || r.state = .run) || before < 4 || 4 ≤ r.healthy || r.failPend then s
  else
    let t := raiseRandom 16 0xFF { s with rng := { r with failPend := true } }
    if r.state = .run then t else raiseRandom 17 0xFF t

/-- Raw bits of a block that begins with the sample after a failure: those of the rest of its tick, and of the ticks since, from the sources that are
healthy now (R228). -/
def rawSince (f : SrcFail) (now : Nat) (r : Rng) : Nat := ((15 - f.sample) + 16 * (now - f.tick)) * r.healthy

/-- RNG_SOURCE_EXCLUDED: source i has failed the adaptive-proportion (`apt`) or the repetition-count test, as its samples show. Its count rises. A
source in use or in a test is excluded with its event, and the crusher drops its block and starts it again from the next sample; one that is
excluded already only counts (R228, R229). -/
def execRngSourceExcluded (i : Nat) (apt : Bool) (s : State) : Res :=
  match s.rng.fails.find? (fun f => f.src = i && f.apt = apt) with
  | none => .next s
  | some f =>
  let r := { s.rng with fails := s.rng.fails.erase f }
  if !s.chainRuns || 16 ≤ i || r.mask.getLsbD i || r.state = .warmup then .next { s with rng := r }
  else
    let r := if apt then { r with apt := tset 0 r.apt i (satAdd (tget 0 r.apt i) 1) }
      else { r with rct := tset 0 r.rct i (satAdd (tget 0 r.rct i) 1) }
    if r.excl.getLsbD i && !r.testing.getLsbD i then .next { s with rng := r }
    else
      let b : BitVec 16 := BitVec.ofNat 16 (2 ^ i)
      let out := { r with excl := r.excl ||| b, testing := r.testing &&& ~~~b, retest := tdel r.retest i }
      let r := { out with raw := if r.excl.getLsbD i || r.state = .test then r.raw else rawSince f s.pw.now out }
      .next (checkHealthy s.rng.healthy (raiseRandom i 0xFF { s with rng := r }))

/-- RNG_RETEST: sources that are excluded, not masked and not in a test begin a run of 64 tk (R229, R238). -/
def rngRetest (v : BitVec 16) (s : State) : State :=
  let r := s.rng
  let p := fun i => v.getLsbD i && r.excl.getLsbD i && !r.mask.getLsbD i && !r.testing.getLsbD i
  let t := (List.range 16).foldl (fun (t : Tbl Nat) i => if p i then tput t i s.pw.now else t) r.retest
  let tests := (List.range 16).foldl (fun (t : Tbl SrcTest) i => if p i then tset {} t i {} else t) r.tests
  { s with rng := { r with testing := r.testing ||| bits16 p, retest := t, tests := tests,
                           fails := r.fails.filter fun f => !p f.src } }

def execRngRetestWrite (v : BitVec 16) (s : State) : Res := if s.chainRuns then .next (rngRetest v s) else .next s

/-- RNG_RETEST_END: the run of source i ends and the source is readmitted (R229). -/
def execRngRetestEnd (i : Nat) (s : State) : Res :=
  match tfind s.rng.retest i with
  | none => .next s
  | some t =>
    if !s.chainRuns || s.pw.now < t + 64 || s.rng.fails.any (fun f => f.src = i) then .next s
    else
      let b : BitVec 16 := BitVec.ofNat 16 (2 ^ i)
      .next (raiseRandom 20 0xFF { s with rng := { s.rng with excl := s.rng.excl &&& ~~~b, testing := s.rng.testing &&& ~~~b,
                                                              retest := tdel s.rng.retest i } })

/-- RNG_MASK: refused with event 23 after LOCK, or where fewer than 4 sources would stay healthy; the previous value stays (R238). -/
def rngMask (v : BitVec 16) (s : State) : State :=
  let r := s.rng
  if r.lock && v = r.mask then s
  else if r.lock || ({ r with mask := v } : Rng).healthy < 4 then raiseRandom 23 0xFF s
  else { s with rng := { r with mask := v, testing := r.testing &&& ~~~v, retest := r.retest.filter fun e => !v.getLsbD e.1 } }

def execRngMaskWrite (v : BitVec 16) (s : State) : Res := if s.islandRuns then .next (rngMask v s) else .next s

/-! ### Restart (R237) -/

/-- RNG_CTL.RESTART in FAILED: the restart begins in the next tick; in another state it is ignored. -/
def rngRestart (s : State) : State :=
  if s.rng.state = .failed then { s with rng := { s.rng with restartAt := some (s.pw.now + 1) } } else s

def execRngRestartWrite (s : State) : Res := if s.islandRuns then .next (rngRestart (wrote 0x60030004 s)) else .next s

/-- RNG_AUTO_RESTART at a frame boundary in FAILED, with AUTO set and AUTOLEFT not 0. -/
def execRngAutoRestart (s : State) : Res :=
  let r := s.rng
  if !s.chainRuns || r.state ≠ .failed || !r.auto || r.autoLeft = 0 || s.ftick ≠ 0 || r.restartAt.isSome then .next s
  else .next (startTest s.pw.now { s with rng := { r with autoLeft := r.autoLeft - 1 } })

/-! ### Seeds and expanders (R230, R233) -/

/-- SEED_CONDITIONED: 2,048 raw bits have been gathered. -/
def execSeedConditioned (s : State) : Res :=
  let r := s.rng
  if !s.chainRuns || !(r.state = .seeding || r.state = .run) || r.failPend || r.raw < 2048 then .next s
  else .next (newSeed { s with rng := { r with raw := r.raw - 2048 } })

/-- Expander e is served before f by the crusher (R230). -/
def State.before (s : State) (e f : Nat) : Bool :=
  e = 16 || (f ≠ 16 && ((s.exp f).reqs.toNat < (s.exp e).reqs.toNat || ((s.exp f).reqs = (s.exp e).reqs && e ≤ f)))

/-- EXPANDER_RESEED: the first expander that asks takes the oldest seed of the pool; REQS returns to 0, STRETCH and BLOCKED clear, and a
blocked one is READY from the next tick (R233). -/
def execExpanderReseed (e : Nat) (s : State) : Res :=
  let x := s.exp e
  match s.rng.pool with
  | [] => .next s
  | seed :: rest =>
    if x.inst.isNone || !x.asks || !s.expanders.contains e ||
        !(s.expanders.all fun f => !((s.exp f).asks && (s.exp f).inst.isSome) || s.before e f) then .next s
    else .next (giveSeed e seed { s with rng := { s.rng with pool := rest } })

/-- EXPANDER_STRETCH: 2^16 requests without a seed (R233). -/
def execExpanderStretch (e : Nat) (s : State) : Res :=
  let x := s.exp e
  if x.inst.isNone || x.stretch || x.reqs.toNat < 2 ^ 16 then .next s
  else .next (raiseRandom 18 0xFF (s.setExp e { x with stretch := true }))

/-- EXPANDER_BLOCKED: 2^24 requests without a seed (R233). -/
def execExpanderBlocked (e : Nat) (s : State) : Res :=
  let x := s.exp e
  if x.inst.isNone || x.blocked || x.reqs.toNat < 2 ^ 24 then .next s
  else .next (raiseRandom 19 0xFF (s.setExp e { x with blocked := true, ready := false }))

end Sys2Proof.Machine
end

