-- ==== Sys2Proof/Machine/Splitter.lean ====
section
/-! DEFINITION. Splitter job requests (R146, R157-R161). -/

namespace Sys2Proof.Machine
open Sys2Proof

/-! ### Polynomials (R146, R160) -/

def Job.poly (j : Job) (i : Nat) : List Nat := (tget [] j.polys i ++ List.replicate 256 0).take 256
def Job.setPoly (j : Job) (i : Nat) (p : List Nat) : Job := { j with polys := tset [] j.polys i p }

/-- The modulus of Q. -/
def modOf (q : Nat) : Nat := if q = 1 then 8380417 else 3329

/-- 256 coefficients below the modulus. -/
def fixPoly (m : Nat) (p : List Nat) : List Nat := (p.map (· % m) ++ List.replicate 256 0).take 256

def polyOf (b : Bytes) : List Nat := (List.range 256).map fun i => fieldLE b (4 * i) 4
def polyBytes (p : List Nat) : Bytes := p.flatMap (leBytes 4)

/-- The fields of a request (R159). -/
structure SplReq where
  op : Nat
  pd : Nat
  pa : Nat
  pb : Nat
  q : Nat
  inp : Nat
  out : Nat
  raw : Bytes
  deriving DecidableEq, Repr

def splReq (b : Bytes) : SplReq :=
  { op := fieldLE b 0 1, pd := fieldLE b 1 1, pa := fieldLE b 2 1, pb := fieldLE b 3 1, q := fieldLE b 4 1, inp := fieldLE b 16 4,
    out := fieldLE b 24 4, raw := b }

def splOps : List Nat := [1, 2, 3, 4, 5, 6, 7, 0x1F]

/-- Every byte of the request outside the listed fields is 0. -/
def onlyFields (b : Bytes) (n : Nat) (used : List (Nat × Nat)) : Bool :=
  (List.range n).all fun i => (used.any fun f => f.1 ≤ i && i < f.1 + f.2) || fieldLE b i 1 = 0

/-- A malformed polynomial request (R159, R162). -/
def SplReq.bad (x : SplReq) : Bool :=
  let used := if x.op = 1 then [(1, 1), (16, 4)] else if x.op = 2 then [(2, 1), (24, 4)] else if x.op ≤ 4 then [(1, 2)] else [(1, 3)]
  7 < x.pd || 7 < x.pa || 7 < x.pb || x.q = 0 || 2 < x.q || !onlyFields x.raw 32 ([(0, 1), (4, 1)] ++ used)

/-- fc of a polynomial request. -/
def polyFc (x : SplReq) : Nat :=
  if x.op ≤ 2 then 72 else if x.op = 3 then (if x.q = 1 then 276 else 244) else if x.op = 4 then (if x.q = 1 then 292 else 260)
  else if x.op = 5 then (if x.q = 1 then 76 else 140) else 36

/-- A polynomial request runs if its fc fit in the tick's budget (R161). -/
def polyRow (op q k : Nat) (f : Job → SplReq → State → Nat × Job × State) (s : State) : State :=
  if q % 5 ≠ 2 then s
  else
    let s := runFirsts q s
    match s.current q k 32 (fun b => fieldLE b 0 1 = op || !splOps.contains (fieldLE b 0 1)) with
    | none => s
    | some (j, b) =>
      let x := splReq b
      if !splOps.contains x.op || x.bad then stopRequest q k 0x02 j s
      else if j.budget < polyFc x then s.setJob q k { j with budget := 0 }
      else
        let (st, j, s) := f (j.spend (polyFc x)) x s
        if st = 0 then nextRequest q k j s else stopRequest q k st j s

def execPload (q k : Nat) (s : State) : Res :=
  .next (polyRow 1 q k (fun j x s =>
    if x.inp % 16 ≠ 0 || !s.covered q k x.inp 1024 then (0x01, j, s)
    else
      let p := polyOf (s.ramRead x.inp 1024)
      if p.all (· < modOf x.q) then (0, j.setPoly x.pd p, s) else (0x03, j, s)) s)

def execPstore (q k : Nat) (s : State) : Res :=
  .next (polyRow 2 q k (fun j x s =>
    if x.out % 16 ≠ 0 || !s.covered q k x.out 1024 then (0x01, j, s) else (0, jobWrite x.out (polyBytes (j.poly x.pa)) j s)) s)

/-- A request that only computes. -/
def polyCalc (op q k : Nat) (f : Nat → List Nat → List Nat → List Nat) (s : State) : State :=
  polyRow op q k (fun j x s => (0, j.setPoly x.pd (fixPoly (modOf x.q) (f (modOf x.q) (j.poly x.pa) (j.poly x.pb))), s)) s

def execPntt (q k : Nat) (s : State) : Res := .next (polyCalc 3 q k (fun m a _ => Config.nttRaw m a) s)
def execPintt (q k : Nat) (s : State) : Res := .next (polyCalc 4 q k (fun m a _ => Config.inttRaw m a) s)

/-- Products in NTT form: coefficient by coefficient for ML-DSA, the base-case multiplication for ML-KEM. -/
def execPmult (q k : Nat) (s : State) : Res :=
  .next (polyCalc 5 q k (fun m a b => if m = 8380417 then List.zipWith (· * ·) a b else Config.pmulNttRaw m a b) s)

def execSplPadd (q k : Nat) (s : State) : Res := .next (polyCalc 6 q k (fun _ a b => List.zipWith (· + ·) a b) s)
def execPsub (q k : Nat) (s : State) : Res := .next (polyCalc 7 q k (fun m a b => List.zipWith (fun x y => x % m + m - y % m) a b) s)

/-! ### NATIVE -/

/-- A malformed NATIVE request: another opcode, or a field that the opcode does not use (R159). IN counts as used where INLEN, which the row checks,
is not 0. -/
def nativeBad (b : Bytes) : Bool :=
  let op := fieldLE b 6 2
  let used : List (Nat × Nat) :=
    if op = 0x0400 ∨ op = 0x0410 then [(12, 4)] else if op = 0x0401 ∨ op = 0x0402 then [(5, 1), (8, 4)] else [(8, 8)]
  !([0x0400, 0x0401, 0x0402, 0x0410, 0x0411, 0x0412].contains op) ||
    !onlyFields b 32 ([(0, 1), (6, 2), (20, 12)] ++ used ++ (if fieldLE b 20 4 = 0 && (op = 0x0400 || op = 0x0410) then [] else [(16, 4)]))

/-- The catalogue command of a NATIVE request. -/
def splCmd (k : Nat) (b : Bytes) (s : State) : Cmd :=
  let input := s.ramRead (fieldLE b 16 4) (fieldLE b 20 4)
  let u3 := leBytes 4 0 ++ slice b 12 2 ++ leBytes 6 0 ++ slice b 5 1 ++ [0] ++ slice b 14 2
  { nativeCmd k (fieldLE b 6 2) (BitVec.ofNat 32 (fieldLE b 8 4)) input with
      u3 := u3, len := 4, outCap := fieldLE b 28 4, a := { cls := .splitter } }

/-- Output length of the row on OK. -/
def Cmd.outWant (c : Cmd) (t : Nat) : Nat := (outLength c t 0 0).getD 0

def splStart (q k : Nat) (j : Job) (b : Bytes) (s : State) : Except Nat (Nat × Job) × State :=
  if nativeBad b then (.error 0x02, s)
  else if !s.covered q k (fieldLE b 16 4) (fieldLE b 20 4) then (.error 0x01, s)
  else
    let c := splCmd k b s
    let y := s.slot (refSlot c.yref)
    let want := c.outWant y.type
    if !s.covered q k (fieldLE b 24 4) want then (.error 0x01, s)
    else
      let (st, s, slots) := r98 c false s
      if st ≠ 0 then (.error (jobStatus st), s)
      else if c.outCap < want then (.error 0x03, s)
      else
        let n := rngBytes c y.type
        match (if n = 0 then some ([], s) else draw (q / 5) n s) with
        | none => (.error 0x30, s)
        | some (bytes, s) =>
          let tries := if c.opcode = 0x0401 then attemptsOf y.value c.ctxOf c.msgOf bytes else 0
          (.ok (publishedTicks c false y.type 0 tries,
            { j with drawn := bytes, key := if c.yref = 0 then none else some y, resv := slots,
                     out := c.input }), reserve slots s)

/-- Signing: SPL_JN follows the attempts (R157). -/
def splEach (t : Nat) (j : Job) (b : Bytes) (s : State) : Job × State :=
  if fieldLE b 6 2 = 0x0401 then ({ j with n := attemptsDone t ((j.total - 28) / 8) }, s) else (j, s)

def splOp (bad : Bool) (op : Nat) : Cmd → Part → State → Nat × Bytes × State :=
  if op = 0x0400 then fMldsaKeygen else if op = 0x0401 then fMldsaSign bad else if op = 0x0402 then fMldsaVerify
  else if op = 0x0410 then fMlkemKeygen else if op = 0x0411 then fMlkemEncaps else fMlkemDecaps

def splFin (q k : Nat) (bad : Bool) (j : Job) (b : Bytes) (s : State) : Nat × Job × State :=
  let c := { splCmd k b s with input := j.out, inLen := j.out.length }
  let j := { j with out := [] }
  let p : Part := { cls := .splitter, eng := some q, key := j.key, drawn := j.drawn }
  let (st, out, s) := splOp bad c.opcode c p s
  if st = 0 then (0, { j with late := [(fieldLE b 24 4, out)] }, s) else (jobStatus st, j, s)

/-- A signing request that takes its first tick sets N to 0, whatever becomes of it (R157, R162). -/
def resetAttempts (q k : Nat) (s : State) : State :=
  match s.current q k 32 (fun b => fieldLE b 0 1 = 0x1F && fieldLE b 6 2 = 0x0401) with
  | none => s
  | some (j, _) => if j.left.isNone && j.budget = budgetFc then s.setJob q k { j with n := 0 } else s

/-- SPL_NATIVE; `bad` is the failure of a signature's verification before release. -/
def execSplNative (q k : Nat) (bad : Bool) (s : State) : Res :=
  if q % 5 ≠ 2 then .next s
  else .next (wholeTicks q k 32 (fun b => fieldLE b 0 1 = 0x1F) (splStart q k) splEach (splFin q k bad) (resetAttempts q k s))

/-- SPL_JCTL_GO (R158). -/
def execSplJctlGo (core count : Nat) (s : State) : Res := goFrom core 2 count s

end Sys2Proof.Machine
end

