-- ==== Sys2Proof/Machine/WedgeDigest.lean ====
section
/-! DEFINITION. Wedge and digest job requests, digest contexts, held ranges (R174, R182-R191). -/

namespace Sys2Proof.Machine
open Sys2Proof

/-! ### Wedge requests (R188) -/

def wdgOps : List Nat := [0x0200, 0x0201, 0x0202, 0x0203, 0x0204, 0x0205, 0x0206, 0x0207, 0x0700]

/-- A malformed wedge request: an unknown opcode, a reserved field, or CHAIN where it is not offered. -/
def wdgBad (b : Bytes) : Bool :=
  let op := fieldLE b 0 2
  let flags := fieldLE b 2 1
  let used : List (Nat × Nat) :=
    if op ≤ 0x0202 then [(4, 4), (16, 32)]
    else if op = 0x0203 ∨ op = 0x0205 then [(4, 8), (16, 28)]
    else if op = 0x0204 then [(4, 8), (16, 16)]
    else if op = 0x0206 then [(4, 4), (16, 16)]
    else if op = 0x0207 then [(3, 5), (16, 16)]
    else [(8, 4), (20, 12)] ++ (if fieldLE b 20 4 = 0 then [] else [(16, 4)])
  !wdgOps.contains op || 1 < flags || (flags = 1 && 0x0202 < op) || !onlyFields b 64 ([(0, 3)] ++ used)

/-- The catalogue command of a wedge request. -/
def wdgCmd (k : Nat) (b : Bytes) (s : State) : Cmd :=
  let op := fieldLE b 0 2
  let u3 :=
    if op ≤ 0x0202 then slice b 32 16
    else if op ≤ 0x0205 then slice b 32 12 ++ slice b 8 4
    else if op = 0x0207 then leBytes 8 0 ++ slice b 3 1 ++ leBytes 7 0
    else if op = 0x0700 then slice b 8 4 ++ leBytes 12 0
    else leBytes 16 0
  { nativeCmd k op (BitVec.ofNat 32 (fieldLE b 4 4)) (s.ramRead (fieldLE b 16 4) (fieldLE b 20 4)) with
      u3 := u3, len := 4, outCap := fieldLE b 28 4, a := { cls := .wedge } }

def wdgStart (q k : Nat) (j : Job) (b : Bytes) (s : State) : Except Nat (Nat × Job) × State :=
  if wdgBad b then (.error 0x02, s)
  else if !s.covered q k (fieldLE b 16 4) (fieldLE b 20 4) then (.error 0x01, s)
  else
    let c := wdgCmd k b s
    let want := c.outWant 0
    if !s.covered q k (fieldLE b 24 4) want then (.error 0x01, s)
    else
      let (st, s, _) := r98 c false s
      if st ≠ 0 then (.error (jobStatus st), s)
      else if c.outCap < want then (.error 0x03, s)
      else
        let n := rngBytes c 0
        match (if n = 0 then some ([], s) else draw (q / 5) n s) with
        | none => (.error 0x30, s)
        | some (bytes, s) =>
          if c.opcode = 0x0202 && ctrWraps c.u3 c.inLen (fieldLE b 2 1 = 1) then (.error 0x22, s)
          else
            let key := if c.yref = 0 then none else some (s.slot (refSlot c.yref))
            (.ok (publishedTicks c false 0 0 0, { j with drawn := bytes, key := key, out := [], wrote := 0 }), s)

/-- The data string that a request takes chunk by chunk, and its first data tick (R172). -/
def Cmd.dataLen (c : Cmd) : Nat :=
  c.inLen - (if c.opcode = 0x0205 then 16 else if c.opcode = 0x0207 then c.opc else 0)
def firstData (op : Nat) : Nat := if 0x0203 ≤ op ∧ op ≤ 0x0205 then 3 else 2

/-- What the request has output once it has taken this much of its data: no MAC and no tag. -/
def wdgText (c : Cmd) (key drawn : Bytes) : Bytes :=
  let text := fun (iv : Bytes) => gcmText key iv (c.input.drop c.aad)
  if c.opcode = 0x0200 then cbcEnc key c.u3 c.input
  else if c.opcode = 0x0201 then cbcDec key c.u3 c.input
  else if c.opcode = 0x0202 then ctrText key c.u3 c.input
  else if c.opcode = 0x0203 ∨ c.opcode = 0x0205 then text (c.u3.take 12)
  else if c.opcode = 0x0204 then slice drawn 32 12 ++ text (slice drawn 32 12)
  else []

/-- A data tick takes a chunk of 6,144 bytes from bench SRAM and writes what it gives; from the first one of a GCM decryption on, the output range
is held (R172, R174). -/
def wdgEach (q k : Nat) (t : Nat) (j : Job) (b : Bytes) (s : State) : Job × State :=
  let c := wdgCmd k b s
  let o := fieldLE b 24 4
  let off := 6144 * (t - firstData c.opcode)
  if t < firstData c.opcode || c.dataLen ≤ off then (j, s)
  else
    let input := j.out ++ s.ramRead (fieldLE b 16 4 + off) (min 6144 (c.dataLen - off))
    let out := wdgText { c with input := input, inLen := input.length } ((j.key.map Slot.value).getD []) j.drawn
    let j := { j with out := input, wrote := out.length, late := j.late ++ [(o + j.wrote, out.drop j.wrote)] }
    if c.opcode = 0x0205 && off = 0 && 0 < c.plain
    then (j, { s with held := s.held ++ [{ lo := o, hi := o + c.plain, bench := q / 5, lease := k }] }) else (j, s)

def wdgOp (op : Nat) : Cmd → Part → State → Nat × Bytes × State :=
  if op = 0x0200 then fCbcEnc else if op = 0x0201 then fCbcDec else if op = 0x0202 then fCtr else if op = 0x0203 then fGcmEnc
  else if op = 0x0204 then fGcmEncRiv else if op = 0x0205 then fGcmDec else if op = 0x0206 then fCmacGen else if op = 0x0207 then fCmacVerify
  else fRngGet

/-- The block that CHAIN writes back (R188): the last ciphertext block, or the counter block after the data. -/
def chainBlock (c : Cmd) (out : Bytes) : Bytes :=
  if c.inLen = 0 then c.u3
  else if c.opcode = 0x0200 then slice out (c.inLen - 16) 16
  else if c.opcode = 0x0201 then slice c.input (c.inLen - 16) 16
  else c.u3.take 12 ++ beBytes 4 (beNat (slice c.u3 12 4) + ceilDiv c.inLen 16)

def wdgFin (q k : Nat) (j : Job) (b : Bytes) (s : State) : Nat × Job × State :=
  let n := fieldLE b 20 4
  let input := j.out ++ s.ramRead (fieldLE b 16 4 + j.out.length) (n - j.out.length)
  let c := { wdgCmd k b s with input := input, inLen := n }
  let p : Part := { cls := .wedge, eng := some q, key := j.key, drawn := j.drawn }
  let (st, out, s) := wdgOp c.opcode c p s
  let addr := j.jaddr.toNat + 64 * j.idx
  let rest := [(fieldLE b 24 4 + j.wrote, out.drop j.wrote)]
  let chain := if fieldLE b 2 1 = 1 then [(addr + 32, chainBlock c out)] else []
  let j := { j with out := [], wrote := 0 }
  if st ≠ 0 then (jobStatus st, j, s) else (0, { j with late := j.late ++ rest ++ chain }, s)

/-- WDG_REQUEST. -/
def execWdgRequest (q k : Nat) (s : State) : Res :=
  if q % 5 ≠ 3 then .next s else .next (wholeTicks q k 64 (fun _ => true) (wdgStart q k) (wdgEach q k) (wdgFin q k) s)

/-- WDG_JCTL_GO (R187). -/
def execWdgJctlGo (core count : Nat) (s : State) : Res := goFrom core 3 count s

/-! ### Digest requests (R182-R186, R189) -/

/-- Job ticks of a context's finalisation. -/
def DigCtx.finTicks (c : DigCtx) : Nat := if c.keyed then 2 else 1

/-- The context's result once the declared length is absorbed (R183). -/
def DigCtx.finalise (c : DigCtx) : DigCtx :=
  { c with state := .done, data := [], key := [],
           result := if c.keyed then macOf c.alg c.outLen c.key c.custom c.data else digestOf c.alg c.outLen c.data }

/-- Run a request on context `b[1]`: the row's own reserved fields, the number, the owner and the state are checked first; an unknown OP is
ended by any row. -/
def digRow (op n k : Nat) (used : List (Nat × Nat)) (ok : CtxState → Bool)
    (start : Job → DigCtx → Bytes → State → Except Nat (Nat × Job) × State)
    (each : Nat → Job → Bytes → State → Job × State) (fin : Job → DigCtx → Bytes → State → Nat × State) (s : State) : State :=
  let q := 5 * n + 4
  wholeTicks q k 32 (fun b => fieldLE b 0 1 = op || fieldLE b 0 1 = 0 || 4 < fieldLE b 0 1)
    (fun j b s =>
      let i := fieldLE b 1 1
      if fieldLE b 0 1 ≠ op || 7 < i || !onlyFields b 32 ([(0, 2)] ++ used) then (.error 0x02, s)
      else if k < 64 && s.ctxOwner (8 * n + i) ≠ k then (.error 0x02, s)
      else if !ok (s.ctx n i).state then (.error 0x51, s)
      else start { j with ctx := some i } (s.ctx n i) b s)
    each
    (fun j b s =>
      let (st, s) := fin j (s.ctx n (fieldLE b 1 1)) b s
      (st, { j with out := [] }, s)) s

def noEach (_ : Nat) (j : Job) (_ : Bytes) (s : State) : Job × State := (j, s)

/-- The context that an OPEN asks for; none where a field is unsuitable. -/
def openCtx (b : Bytes) : Option DigCtx :=
  let alg := fieldLE b 2 1
  let flags := fieldLE b 3 1
  let keyed := fieldLE b 4 4 ≠ 0
  let out := fieldLE b 12 1
  let inLen := fieldLE b 20 4
  let outOk := if alg ≤ 6 then out = 0 else (if keyed then 16 else 1) ≤ out && out ≤ 64
  if alg = 0 || 8 < alg || 1 < flags || !outOk || (if keyed && 7 ≤ alg then 255 < inLen else inLen ≠ 0 || fieldLE b 16 4 ≠ 0) then none
  else some { state := .open_, alg := alg, outLen := if alg ≤ 6 then algOut alg else out, compat := flags = 1, keyed := keyed,
              decl := BitVec.ofNat 32 (fieldLE b 8 4) }

/-- DIG_OPEN. -/
def execDigOpen (n k : Nat) (s : State) : Res :=
  .next (digRow 0x01 n k [(2, 11), (16, 8)] (fun st => st = .free)
    (fun j _ b s =>
      match openCtx b with
      | none => (.error 0x02, s)
      | some c =>
        let r := BitVec.ofNat 32 (fieldLE b 4 4)
        if !s.covered (5 * n + 4) k (fieldLE b 16 4) (fieldLE b 20 4) then (.error 0x01, s)
        else
          let st := if c.keyed then s.checkRef k r [0x03] (aSIGN + aVERIFY) else 0
          if st ≠ 0 then (.error (jobStatus st), s)
          else
            let y := s.slot (refSlot r)
            (.ok (1 + (if c.decl = 0 then c.finTicks else 0),
              { j with key := if c.keyed then some y else none, out := s.ramRead (fieldLE b 16 4) (fieldLE b 20 4) }),
              if c.keyed then countUse k r s else s))
    noEach
    (fun j _ b s =>
      match openCtx b with
      | none => (0x02, s)
      | some c =>
        let y := j.key.getD {}
        let c := { c with key := y.value, custom := j.out, hide := c.keyed && hasAttr y.attr aVERIFY && !hasAttr y.attr aSIGN }
        (0, s.setCtx n (fieldLE b 1 1) (if c.decl = 0 then c.finalise else c))) s)

/-- DIG_FEED (R184, R185): the bytes up to DECL, K in a tick; input beyond DECL sets TRUNC in a native context and clears a COMPAT one. -/
def execDigFeed (n k : Nat) (s : State) : Res :=
  let q := 5 * n + 4
  .next (digRow 0x02 n k [(16, 8)] (fun st => st = .open_)
    (fun j c b s =>
      let i := fieldLE b 1 1
      let len := fieldLE b 20 4
      let a := min len (c.decl.toNat - c.fed.toNat)
      let out := !s.covered q k (fieldLE b 16 4) len
      if c.compat && (out || a < len) then (.error 0x52, compatClear (8 * n + i) s)
      else if out then (.error 0x01, s)
      else
        let s := if a < len then engineEvent q 2 k (s.setCtx n i { c with trunc := true }) else s
        (.ok (max 1 (ceilDiv a (algK c.alg)) + (if c.fed.toNat + a = c.decl.toNat then c.finTicks else 0), { j with feed := a, out := [] }), s))
    (fun _ j b s =>
      let i := fieldLE b 1 1
      let c := s.ctx n i
      let m := min j.feed (algK c.alg)
      let d := s.ramRead (fieldLE b 16 4 + j.out.length) m
      if m = 0 then (j, s)
      else ({ j with feed := j.feed - m, out := j.out ++ d },
        s.setCtx n i { c with fed := c.fed + BitVec.ofNat 32 m, data := c.data ++ d }))
    (fun _ c b s =>
      let i := fieldLE b 1 1
      (0, if c.fed = c.decl then s.setCtx n i c.finalise else s)) s)

/-- DIG_CMP (R181, R189): a mismatch sets EQ to 0 and raises the engine's comparison event; the job goes on. -/
def execDigCmp (n k : Nat) (s : State) : Res :=
  let q := 5 * n + 4
  .next (digRow 0x03 n k [(13, 1), (16, 4)] (fun st => st = .done)
    (fun j c b s =>
      let t := fieldLE b 13 1
      if t < (if c.keyed then 16 else 1) || c.outLen < t then (.error 0x02, s)
      else if !s.covered q k (fieldLE b 16 4) t then (.error 0x01, s)
      else (.ok (1, j), s))
    noEach
    (fun _ c b s =>
      let t := fieldLE b 13 1
      let eq := c.result.take t = s.ramRead (fieldLE b 16 4) t
      let s := s.setCtx n (fieldLE b 1 1) { c with eq := eq, cmpv := true }
      (0, if eq then s else engineEvent q 4 k s)) s)

/-- DIG_CLOSE: the context is cleared and FREE (R183). -/
def execDigClose (n k : Nat) (s : State) : Res :=
  .next (digRow 0x04 n k [] (fun _ => true) (fun j _ _ s => (.ok (1, j), s)) noEach
    (fun _ _ b s => (0, s.setCtx n (fieldLE b 1 1) {})) s)

/-- DIG_JCTL_GO (R187). -/
def execDigJctlGo (core count : Nat) (s : State) : Res := goFrom core 4 count s

/-! ### DIG_OWN (R182, R192) -/

/-- A changed byte clears the context; a job of its former owner on it ends with CTX_CLEARED. -/
def changeOwner (n i v : Nat) (s : State) : State :=
  let q := 5 * n + 4
  let k := s.ctxOwner (8 * n + i)
  if k = v then s
  else
    let j := s.job q k
    let s := if k < 64 && j.state = .run && j.ctx = some i && j.ending.isNone then endJob q k 0x52 s else s
    let s := s.setCtx n i {}
    s.modEngine q fun e => { e with own := tset 0xFF e.own i v }

/-- DIG_OWN takes a whole value: after LOCK it changes nothing and raises local event 38; a reserved value or an absent lease is refused with
RANGE (R49, R192, R193). -/
def digOwn (n : Nat) (v : BitVec 64) (s : State) : State :=
  let b := fun i => v.toNat / 256 ^ i % 256
  if (s.engine (5 * n + 4)).lock then
    if (List.range 8).all fun i => b i = s.ctxOwner (8 * n + i) then s else engineEvent (5 * n + 4) 6 0xFF s
  else if (List.range 8).all fun i => b i = 0xFF || b i < s.nLease
  then (List.range 8).foldl (fun t i => changeOwner n i (b i) t) { s with out := { s.out with bus := .ok [] } }
  else raiseIsland 48 { s with out := { s.out with bus := .range } }

def execDigOwnWrite (n : Nat) (v : BitVec 64) (s : State) : Res :=
  if s.islandRuns && n < 17 && (n < s.nBench || n = 16) then .next (digOwn n v s) else .next s

/-! ### Held ranges (R174) -/

/-- HELD_RANGE_ACCESS: a read of a held byte answers HELD, a write is discarded; both raise the wedge's event 29. -/
def execHeldRangeAccess (_m : Master) (addr : Nat) (write : Bool) (s : State) : Res :=
  match s.heldIn addr 1 with
  | none => .next s
  | some x =>
    .next (engineEvent (5 * x.bench + 3) 5 x.lease { s with out := { s.out with bus := if write then .ok [] else .held } })

end Sys2Proof.Machine
end

