-- ==== Sys2Proof/Machine/RegMap.lean ====
section
/-! DEFINITION. The control register blocks as they read: which register an address names for a master, and its value (R10-R15 and the
register tables of every chapter). -/

namespace Sys2Proof.Machine
open Sys2Proof

/-! ### Decoding (R13, R15) -/

/-- A row of a register table: `count` registers of `width` bytes from `lo` on, `step` apart. -/
structure Row where
  lo    : Nat
  step  : Nat
  count : Nat
  width : Nat
  deriving DecidableEq, Repr

/-- A register: the offset of its byte 0, and its width in bytes. Width 1 is a byte of a buffer, to which R12's staging does not apply. -/
structure Reg where
  base  : Nat
  width : Nat
  deriving DecidableEq, Repr

def Row.reg (r : Row) (off : Nat) : Option Reg :=
  if r.lo ≤ off && off < r.lo + r.step * r.count && (off - r.lo) % r.step < r.width then some ⟨off - (off - r.lo) % r.step, r.width⟩ else none

def findReg (l : List Row) (off : Nat) : Option Reg := l.findSome? fun r => r.reg off

/-- The registers of one core's FNC section (R316). -/
def fncRows (base : Nat) : List Row :=
  [⟨base, 4, 5, 4⟩, ⟨base + 0x18, 8, 4, 8⟩, ⟨base + 0x38, 4, 1, 4⟩, ⟨base + 0x100, 8, 16, 8⟩, ⟨base + 0x200, 4, 16, 4⟩]

/-- The lease port of the engine at place e (R127, R157, R187, R190). -/
def portRows (e : Nat) : List Row :=
  if e ≤ 1 then [⟨0x100, 4, 3, 4⟩, ⟨0x110, 8, 1, 8⟩]
  else if e = 2 then [⟨0x100, 4, 5, 4⟩]
  else if e = 3 then [⟨0x100, 4, 3, 4⟩, ⟨0x110, 4, 1, 4⟩]
  else [⟨0x100, 4, 3, 4⟩, ⟨0x110, 4, 1, 4⟩, ⟨0x200, 4, 8, 4⟩, ⟨0x220, 4, 8, 4⟩, ⟨0x240, 4, 8, 4⟩, ⟨0x400, 4, 128, 4⟩]

/-- The island registers of the engine at place e (R139, R164, R192). -/
def engineRows (e : Nat) : List Row :=
  if e ≤ 1 then [⟨0, 4, 5, 4⟩]
  else if e = 2 then [⟨0, 4, 5, 4⟩, ⟨0x18, 8, 1, 8⟩]
  else if e = 3 then [⟨0, 4, 5, 4⟩]
  else [⟨0, 4, 2, 4⟩, ⟨0xC, 4, 2, 4⟩, ⟨0x18, 8, 1, 8⟩]

/-- The island's read-only copies of the lease ports; the offsets between them read 0. -/
def copyRows (e leases : Nat) : List Row :=
  [⟨0x1000, 0x20, leases, 4⟩, ⟨0x1004, 0x20, leases, 4⟩, ⟨0x1008, 0x20, leases, 4⟩, ⟨0x100C, 0x20, leases, 4⟩,
   ⟨0x1010, 0x20, leases, if e ≤ 1 then 8 else 4⟩, ⟨0x1014, 0x20, leases, 4⟩, ⟨0x1018, 0x20, leases, 4⟩, ⟨0x101C, 0x20, leases, 4⟩]

/-- The registers of block b that island masters reach. Numbers of absent benches and leases are reserved (R4, R48, R238, R443); DSP_LENT_k and
DSP_BORROW_k of an absent lease still decode and read 0 (log 109). The SRAM and the engine and FNC blocks of a bench do not decode before
WIPE_DONE (R35, log 116). -/
def State.islandRows (s : State) (b : Nat) : List Row :=
  if b = 0x00 then
    [⟨0, 8, 1, 8⟩, ⟨8, 4, 2, 4⟩, ⟨0x10, 8, 2, 8⟩, ⟨0x800, 4, 16, 4⟩, ⟨0x900, 4, 16, 4⟩, ⟨0x1000, 4, 320 * s.nBench, 4⟩,
     ⟨0x9000, 4, 320 * s.nBench, 4⟩, ⟨0xE000, 8, 128, 8⟩]
  else if b = 0x02 then [⟨0, 4, 3, 4⟩, ⟨0x200, 8, 2, 8⟩, ⟨0x210, 4, 3, 4⟩]
  else if b = 0x03 then [⟨0, 4, 4, 4⟩, ⟨0x10, 8, 1, 8⟩, ⟨0x100, 8, s.nBench, 8⟩, ⟨0x180, 8, 1, 8⟩, ⟨0x200, 4, 16, 4⟩]
  else if b = 0x04 then [⟨0, 4, 4, 4⟩]
  else if b = 0x05 then [⟨0, 4, 6, 4⟩]
  else if b = 0x06 then [⟨0, 4, 17, 4⟩]
  else if b = 0x07 then [⟨0, 4, 13, 4⟩, ⟨0x400, 8, 128, 8⟩]
  else if b = 0x08 then [⟨0, 4, 6, 4⟩, ⟨0x20, 8, 4, 8⟩, ⟨0x100, 8, 1, 8⟩, ⟨0x2000, 4, 1152, 4⟩]
  else if b = 0x09 then [⟨0, 4, 4 + s.nBench, 4⟩]
  else if b = 0x0A then [⟨0, 4, 2, 4⟩]
  else if b = 0x0B then [⟨0, 4, 3, 4⟩, ⟨0x100, 1, 512, 1⟩]
  else if b = 0x0C then [⟨0, 4, 4, 4⟩, ⟨0x100, 1, 512, 1⟩]
  else if b = 0x0D then [⟨0, 4, 2, 4⟩, ⟨0x1000, 1, 4608, 1⟩, ⟨0x4000, 1, 16384, 1⟩]
  else if b = 0x0E then [⟨0, 4, 2, 4⟩]
  else if b = 0x0F then [⟨0, 8, 1, 8⟩, ⟨8, 4, 1, 4⟩]
  else if b = 0x10 then [⟨0, 4, 3, 4⟩]
  else if b = 0x20 then engineRows 0 ++ portRows 0
  else if 0x21 ≤ b && b ≤ 0x23 then engineRows (b - 0x1F) ++ portRows (b - 0x1F)
  else if b = 0x24 then fncRows 0 ++ fncRows 0x400
  else if 0x40 ≤ b && b < 0x40 + 8 * s.nBench then
    let k := b % 8
    if k = 0 then [⟨0, 4, 2, 4⟩, ⟨8, 8, 1, 8⟩]
    else if s.benchShut ((b - 0x40) / 8) then []
    else if k ≤ 5 then engineRows (k - 1) ++ copyRows (k - 1) s.nLease ++ (if k = 5 then [⟨0x400, 4, 128, 4⟩] else [])
    else if k = 6 then fncRows 0 ++ fncRows 0x400 ++ fncRows 0x800 ++ fncRows 0xC00
    else []
  else []

/-- The registers of block b that bench core c reaches; the load port needs supervisor state (R212, R300). -/
def State.coreRows (s : State) (c b : Nat) : List Row :=
  let n := c / 4
  if b = 0x02 then (if (s.core c).sup then [⟨0x100, 8, 2, 8⟩, ⟨0x110, 4, 2, 4⟩] else [])
  else if 0x41 + 8 * n ≤ b && b ≤ 0x45 + 8 * n then portRows (b - (0x41 + 8 * n))
  else if b = 0x46 + 8 * n then fncRows (0x400 * (c % 4))
  else []

/-- The registers of a function's BAR (R70): HQ_CAP, the MSI-X table by double words, the PBA; a VF has the queue registers too. -/
def barRows (f : Nat) : List Row :=
  [⟨0, 8, 1, 8⟩, ⟨0x2000, 4, 256, 4⟩, ⟨0x3000, 8, 1, 8⟩] ++
    (if f = 0 then []
     else [⟨8, 4, 2, 4⟩, ⟨0x100, 0x40, 8, 8⟩, ⟨0x108, 0x40, 8, 8⟩, ⟨0x110, 0x40, 8, 8⟩, ⟨0x118, 0x40, 8, 4⟩, ⟨0x11C, 0x40, 8, 4⟩,
           ⟨0x120, 0x40, 8, 4⟩, ⟨0x124, 0x40, 8, 4⟩, ⟨0x1000, 4, 16, 4⟩])

def regBase : Nat := 0x60000000

/-- The context of a DIG offset (R190). -/
def digContext (off : Nat) : Option Nat :=
  if 0x200 ≤ off && off < 0x260 then some (off / 4 % 8) else if 0x400 ≤ off && off < 0x600 then some ((off - 0x400) / 64) else none

/-- The bench (16: the island) and place of a block's engine. -/
def blockEngine (b : Nat) : Option (Nat × Nat) :=
  if b = 0x20 then some (16, 0)
  else if 0x21 ≤ b && b ≤ 0x23 then some (16, b - 0x1F)
  else if 0x40 ≤ b && b < 0xC0 && 1 ≤ b % 8 && b % 8 ≤ 5 then some ((b - 0x40) / 8, b % 8 - 1)
  else none

/-- The register at a device address for a master; none is DECODE. -/
def State.regAt (s : State) (m : Master) (addr : Nat) : Option Reg :=
  let b := (addr - regBase) / 0x10000
  let off := addr % 0x10000
  if addr < regBase || regBase + 0x800000 ≤ addr then none
  else
    let up := fun (r : Reg) => (⟨addr - off + r.base, r.width⟩ : Reg)
    match m with
    | .fn _ => none
    | .core c =>
      match s.portLease c with
      | none => none
      | some k =>
        match (if b = 0x45 + 8 * (c / 4) then digContext off else none) with
        | some i => if s.ctxOwner (8 * (c / 4) + i) = k then (findReg (s.coreRows c b) off).map up else none
        | none => (findReg (s.coreRows c b) off).map up
    | _ =>
      if b = 0x08 && 0x2000 ≤ off && !s.srcPresent ((off - 0x2000) / 4) then none else (findReg (s.islandRows b) off).map up

/-! ### Values -/

/-- A value's fields: width-free words are sums of fields at their bits. -/
def byteAt (t : Tbl Nat) (i : Nat) : Nat := tget 0xFF t i
def word4 (t : Tbl Nat) (i : Nat) : Nat := leNat ((List.range 4).map fun j => BitVec.ofNat 8 (byteAt t (i + j)))

/-- The DSP block (R48). -/
def dspRead (o : Nat) (s : State) : Nat :=
  let d := s.dsp
  if o = 0 then d.tick.toNat
  else if o = 0xC then bit d.pend + 2 * bit d.captured + 4 * bit d.rplPend + 2 ^ 8 * (d.at_ % 2 ^ 24)
  else if o = 0x10 then d.policyS.toNat
  else if o = 0x18 then d.policy.toNat
  else if 0x800 ≤ o && o < 0x840 then word4 d.coreS (o - 0x800)
  else if 0x900 ≤ o && o < 0x940 then word4 d.core (o - 0x900)
  else if 0x1000 ≤ o && o < 0x6000 then word4 d.sltS (o - 0x1000)
  else if 0x9000 ≤ o && o < 0xE000 then word4 d.slt (o - 0x9000)
  else if 0xE000 ≤ o && o < 0xE400 then
    (tget 0 (if o % 16 = 0 then d.lent else d.borrow) ((o - 0xE000) / 16)).toNat
  else 0

/-- A load port's registers, from its base (R212). -/
def loadRead (k o : Nat) (s : State) : Nat :=
  let p := s.port k
  if o = 0 then p.src.toNat % 2 ^ 32 + p.src.toNat / 2 ^ 56 * 2 ^ 56
  else if o = 0x10 then p.state + 2 ^ 24 * p.status
  else if o = 0x14 then p.ref.toNat
  else if o = 0x18 then p.own
  else 0

def yrdRead (o : Nat) (s : State) : Nat :=
  if o = 0 then s.vault.bedGen.toNat + 2 ^ 30 * bit s.yard.stored + 2 ^ 31 * bit s.vault.bedrock.isSome
  else if o = 4 then s.yard.pos + 2 ^ 16 * s.yard.passes.toNat
  else if o = 8 then s.yard.orph.toNat
  else loadRead 64 (o - 0x200) s

def rngRead (o : Nat) (s : State) : Nat :=
  let r := s.rng
  if o = 0 then s.rngStat
  else if o = 4 then 4 * bit r.auto + 2 ^ 31 * bit r.lock
  else if o = 8 then r.mask.toNat
  else if o = 0x10 then r.seeds.toNat
  else if 0x100 ≤ o && o < 0x200 then (s.exp ((o - 0x100) / 8)).word
  else if 0x200 ≤ o && o < 0x240 then r.srcWord ((o - 0x200) / 4)
  else 0

def ldgRead (o : Nat) (s : State) : Nat :=
  let l := s.ldg
  if o = 0 then
    l.newest % 4096 + 2 ^ 28 * (l.ring % 2) + 2 ^ 29 * bit (3840 ≤ l.newest - l.ack) + 2 ^ 30 * bit l.full + 2 ^ 31 * bit l.passc
  else if o = 4 then l.newest
  else if o = 8 then l.ack
  else if o = 0xC then l.lost
  else 0

def GPort.word (p : GPort) : Nat :=
  p.mode % 4 + 4 * bit p.addr4 + 2 ^ 8 * (p.dummy % 32) + 2 ^ 16 * p.dens.toNat + 2 ^ 31 * bit p.present

def flgRead (o : Nat) (s : State) : Nat :=
  let g := s.flg
  if o = 0 then 4 * bit (g.bmcb && g.pass.isNone)
  else if o = 4 then
    g.state.code + 2 ^ 8 * bit g.plt + 2 ^ 9 * bit g.asel + 2 ^ 10 * bit g.connected + 2 ^ 16 * g.verdict + 2 ^ 24 * g.reason
  else if o = 8 then g.portA.word
  else if o = 0xC then g.portB.word
  else if o = 0x10 then g.discTk
  else if o = 0x14 then g.measTk
  else 0

def pflRead (o : Nat) (s : State) : Nat :=
  let p := s.pfl
  if o = 0x30 then s.pflStat
  else if o = 0x34 then p.ws.toNat + 2 ^ 4 * s.flashWs
  else if o = 0x3C then p.ueAddr.toNat
  else if o = 0x40 then p.uec.toNat + 2 ^ 16 * p.ce.toNat
  else 0

def tmpRead (o : Nat) (s : State) : Nat :=
  let v := s.vault
  if o = 0 then s.tmpStat
  else if o = 4 then 2 ^ 31 * bit v.lock
  else if o = 8 || o = 0xC then (v.resp[(o - 8) / 4]?.getD 0).toNat
  else if 0x10 ≤ o && o < 0x20 then (v.switch ((o - 0x10) / 4)).toNat
  else if o = 0x20 then v.vwin.toNat
  else if o = 0x24 then (List.range 28).foldl (fun a i => a + 2 ^ i * bit (v.sensor i).detecting) 0
  else if o = 0x28 then v.savedTo.toNat
  else if o = 0x2C then v.ovf.toNat
  else if o = 0x30 then v.drop.toNat
  else if 0x400 ≤ o && o < 0x800 then leNat (slice (v.slotBytes ((o - 0x400) / 16)) (o % 16) 8)
  else 0

/-- FLT_REC_k (R425, R433). -/
def Rec.word (r : Rec) (k : Nat) : Nat := leNat (slice r.bytes (8 * k) 8)

def fltRead (o : Nat) (s : State) : Nat :=
  let f := s.flt
  if o = 0 then 2 ^ 31 * bit f.lock
  else if o = 4 then f.queue.length + 2 ^ 16 * f.qlost.toNat + 2 ^ 31 * bit f.rec_.isSome
  else if o = 0xC then bit f.low + 2 ^ 8 * bit s.pulsing + 2 ^ 9 * bit s.faultLevel
  else if o = 0x10 then f.route.toNat
  else if 0x20 ≤ o && o < 0x40 then match f.rec_ with | some r => r.word ((o - 0x20) / 8) | none => 0
  else if o = 0x100 then (takeEvent s).1
  else if 0x2000 ≤ o then
    let e := (o - 0x2000) / 4
    s.sevOf e + 4 * bit (tget false f.pin e) + 2 ^ 4 * srcFloor e + 2 ^ 16 * (tget 0 f.count e).toNat
  else 0

def pwrRead (o : Nat) (s : State) : Nat :=
  if o = 0 then
    s.pw.mode.code + 2 ^ 8 * s.pwr.fifo.length +
      (List.range s.nBench).foldl (fun a n => a + 2 ^ (16 + n) * bit ((s.bench n).state = .ready)) 0
  else if o = 4 then 2 ^ 31 * bit s.pwr.lock
  else if o = 0xC then s.pwr.fail.toNat
  else if 0x10 ≤ o then (tget 0 s.pwr.idle ((o - 0x10) / 4)).toNat
  else 0

def clkRead (o : Nat) (s : State) : Nat :=
  if o = 0 then (List.range 30).foldl (fun a i => a + 2 ^ i * bit (s.domainRuns (i + 1))) 0 else s.flt.clkMon.toNat

/-- CRD_STAT.STATE: ACTIVATING until RST rises, DEACTIVATING until the deactivation has completed (R325, R330). -/
def Crd.stat (c : Crd) (now : Nat) : Nat :=
  if c.st = .atr && now < c.rstAt then CrdState.activating.code
  else if c.st = .off && now < c.offAt then CrdState.deactivating.code
  else c.st.code

def crdRead (o : Nat) (s : State) : Nat :=
  let c := s.crd
  if o = 0 then 2 ^ 8 * c.classes.toNat + 2 ^ 31 * bit c.lock
  else if o = 4 then
    c.stat s.pw.now + 2 ^ 8 * c.res + 2 ^ 16 * (c.di % 16) + 2 ^ 20 * (c.fi % 16) + 2 ^ 24 * bit c.proto + 2 ^ 25 * (c.cls % 4) + 2 ^ 31 * bit c.present
  else if o = 8 then c.tx.toNat + 2 ^ 16 * c.rx.toNat
  else (tget 0 c.buf (o - 0x100)).toNat

def ctlRead (o : Nat) (s : State) : Nat :=
  let c := s.ctl
  if o = 0 then 8 * bit c.lpcd + 2 ^ 31 * bit c.lock
  else if o = 4 then c.st.code + 2 ^ 8 * c.res + 2 ^ 24 * c.rate + 2 ^ 31 * bit c.card
  else if o = 8 then c.tx.toNat + 2 ^ 16 * c.rx.toNat
  else if o = 0xC then c.period.toNat + 2 ^ 16 * c.thresh.toNat
  else (tget 0 c.buf (o - 0x100)).toNat

/-- Where an area's copies begin in the tag store (R340). -/
def tagBase (area : Nat) : Nat :=
  if area = 0 then 0 else if area = 1 then 0x400 else if area = 2 then 0x800 else if area = 3 then 0xC00 else 0x1C00

/-- A copy's header: SEQ, LEN, CHECK (R341); 0 for a copy that has never been committed. -/
def TagCopy.header (x : TagCopy) : Bytes :=
  if x.valid || x.check.isSome then
    leBytes 4 x.seq.toNat ++ leBytes 2 x.data.length ++ [0, 0] ++ x.check.getD ((sha256 x.data).take 8)
  else List.replicate 16 0

/-- A byte of the tag store (R340); what no commit has written reads 0 (log 16). -/
def Tag.storeByte (t : Tag) (o : Nat) : Byte :=
  if 0x600 ≤ o && o < 0x700 then (leBytes 4 t.notePw ++ leBytes 4 t.svcPw)[o - 0x600]?.getD 0
  else if 0x700 ≤ o && o < 0x800 then
    if o < 0x7A0 then ((tget {} t.copies ((o - 0x700) / 16) : TagCopy).header)[o % 16]?.getD 0 else 0
  else
    let area := if o < 0x400 then 0 else if o < 0x600 then 1 else if o < 0xC00 then 2 else if o < 0x1C00 then 3 else 4
    let p := o - tagBase area
    (t.copy area (p / tagSize area)).bytes[p % tagSize area]?.getD 0

def tagRead (o : Nat) (s : State) : Nat :=
  let t := s.tag
  if o = 0 then
    t.svcPw % 16 + 2 ^ 4 * (t.notePw % 16) + 2 ^ 8 * t.wres + 2 ^ 28 * t.st.code + 2 ^ 31 * bit (t.st ≠ .off)
  else if 0x4000 ≤ o then (t.storeByte (o - 0x4000)).toNat
  else if 0x1000 ≤ o then (tget 0 t.wbuf (o - 0x1000)).toNat
  else 0

/-- A fuse pair has one fuse blown (R376). -/
def LcsSt.half (l : LcsSt) : Bool := (List.range 6).any fun i => l.pairs.getLsbD (2 * i) ≠ l.pairs.getLsbD (2 * i + 1)

def lcsRead (o : Nat) (s : State) : Nat :=
  let l := s.lcs
  if o = 0 then
    l.state.code + 2 ^ 5 * bit l.half + 2 ^ 6 * bit l.failed + 2 ^ 7 * bit l.pend.isSome + 2 ^ 8 * (l.pend.map Lcs.code).getD 0 + 2 ^ 16 * l.count
  else 0

def galRead (o : Nat) (s : State) : Nat :=
  if o = 0 then s.gal.grant.toNat + 2 ^ 32 * s.gal.lease.toNat else s.galRights.toNat

def dicRead (o : Nat) (s : State) : Nat :=
  let d := s.dic
  if o = 0 then bit d.mgtEn + 2 * bit d.pfEn + 4 * bit d.vfEn + 2 ^ 31 * bit d.lock
  else if o = 4 then (if s.islandRuns then (d.eps.filter fun e => e.2.sess.isSome).length + 2 ^ 8 * (s.segFree / 8) else 0)
  else d.reqs.toNat

/-- A job port of lease k on engine q, by its offset from 0x100 (R127, R157). -/
def portRead (q k o : Nat) (s : State) : Nat :=
  let j := s.job q k
  if o = 0 then j.jaddr.toNat
  else if o = 8 then j.state.code + 2 ^ 16 * (j.step % 256) + 2 ^ 24 * j.status
  else if o = 0xC then (if q % 5 = 2 then j.n else 0)
  else if o = 0x10 then (if q % 5 ≤ 1 then j.fc.toNat else j.tk.toNat)
  else 0

/-- A context's status word (R190). -/
def DigCtx.word (c : DigCtx) : Nat :=
  c.state.code + 2 ^ 3 * bit c.trunc + 2 ^ 4 * bit c.cmpv + 2 ^ 5 * bit c.eq + 2 ^ 8 * c.alg + 2 ^ 16 * bit c.keyed + 2 ^ 17 * bit c.hide +
    2 ^ 18 * bit c.compat + 2 ^ 24 * c.outLen

def digRead (n o : Nat) (s : State) : Nat :=
  if o < 0x220 then (s.ctx n (o / 4 % 8)).word
  else if o < 0x240 then (s.ctx n (o / 4 % 8)).decl.toNat
  else if o < 0x260 then (s.ctx n (o / 4 % 8)).fed.toNat
  else
    let c := s.ctx n ((o - 0x400) / 64)
    if c.state = .done && !c.hide then leNat (slice c.result (o % 64) 4) else 0

/-- Leases with a job in WAIT or RUN, and whether a host command is assigned (CUT_STAT). -/
def State.engineStat (s : State) (q : Nat) : Nat :=
  let jobs := ((List.range s.nLease).filter fun k => (s.job q k).state = .wait || (s.job q k).state = .run).length
  let on := fun (p : Part) => p.eng = some q && p.status.isNone
  jobs % 256 + 2 ^ 8 * bit (s.cmds.any fun e => e.2.result.isNone && (on e.2.a || (e.2.b.map on).getD false))

/-- The island registers of engine q (R139, R164, R192). -/
def engineRead (q o : Nat) (s : State) : Nat :=
  let x := s.engine q
  let e := q % 5
  if o = 0 then 2 ^ 5 * bit x.jobs + 2 ^ 31 * bit x.lock
  else if o = 4 then s.engineStat q
  else if o = 8 then (if e = 2 then x.limit.toNat + 2 ^ 16 * (x.fchk.toNat % 2 ^ 16) else if e = 3 then x.kerase.toNat else x.fchk.toNat)
  else if o = 0xC then x.eccCtx.toNat + (if e ≤ 2 then 2 ^ 16 * x.eccMem.toNat else 0)
  else if o = 0x10 then
    (if e ≤ 1 then 0x00108001 else if e = 2 then 0x00048001 else if e = 3 then 0x00148001 else 0x00084001)
  else if o = 0x18 then
    (if e = 2 then x.atts.toNat + 2 ^ 32 * x.sigs.toNat
     else leNat ((List.range 8).map fun i => BitVec.ofNat 8 (tget 0xFF x.own i)))
  else 0

/-- The frame of core c is held and its work runs: a bench core's bench is READY and acts, and its lease holds it and neither pauses nor is
quarantined; a quarantine that is due acts at the boundary, and a bench that becomes READY executes from the tick after (R63, R441). An island core
has its program once island firmware runs. -/
def State.coreHeld (s : State) (c : Nat) : Bool :=
  let k := s.coreOwner c
  let b := s.bench (c / 4)
  if 64 ≤ c then c < 66 && s.islandRuns
  else c < 4 * s.nBench && b.state = .ready && b.readyAt < s.pw.now && !b.idleUntilFrame && k < s.nLease &&
    !(s.lease k).quarantined && !(s.lease k).paused && s.pw.leaseWork

/-- FNC_STAT_c.STATE: PAUSED is read while a bench core in RUN does not execute, RESET while an island core has no program (R316). -/
def State.coreState (s : State) (c : Nat) : Nat :=
  let x := s.core c
  if x.state = .run && !s.coreHeld c then (if c < 64 then 1 else 3) else x.state.code

/-- A core's FNC section (R316). -/
def fncRead (c o : Nat) (s : State) : Nat :=
  let x := s.core c
  if o = 0 then bit x.en + 2 * bit x.wlock
  else if o = 4 then s.coreState c + 2 ^ 4 * bit x.serving.isSome + 2 ^ 8 * bit x.isvb
  else if o = 8 then x.cause.toNat
  else if o = 0xC then x.pend.toNat + 2 ^ 16 * x.ien.toNat
  else if o = 0x10 then x.callArg.toNat
  else if o = 0x18 then x.callIo.toNat
  else if o = 0x20 then x.isv.toNat
  else if o = 0x28 then x.vrpA.toNat
  else if o = 0x30 then x.vrpB.toNat
  else if o = 0x38 then x.vcnt.toNat
  else if 0x100 ≤ o && o < 0x180 then (tget 0 x.win ((o - 0x100) / 8)).toNat
  else (tget 0x7FF00 x.fen ((o - 0x200) / 4)).toNat

def benRead (n o : Nat) (s : State) : Nat :=
  let b := s.bench n
  if o = 0 then bit b.autoRpl + 2 * bit b.spare + 2 ^ 31 * bit b.lock
  else if o = 4 then b.state.code + 2 ^ 4 * bit b.wipeDone + 2 ^ 8 * bit b.causeV + 2 ^ 16 * b.cause.toNat
  else (List.range s.nLease).foldl (fun a k => a + 2 ^ k * bit (s.holdsBench n k)) 0

/-- The registers of the engine blocks: a lease port, the island's copies, digest contexts, the island registers. -/
def blockRead (n e k o : Nat) (s : State) : Nat :=
  let q := 5 * n + e
  if o < 0x100 then engineRead q o s
  else if o < 0x200 then portRead q k (o - 0x100) s
  else if o < 0x1000 then digRead n o s
  else portRead q ((o - 0x1000) / 0x20) (if (o - 0x1000) % 0x20 = 4 then 4 else (o - 0x1000) % 0x20) s

/-- The value of the register at a device address, as this master sees it. -/
def State.regValue (s : State) (m : Master) (addr : Nat) : Nat :=
  let b := (addr - regBase) / 0x10000
  let o := addr % 0x10000
  let k := match m with | .core c => s.coreOwner c | _ => 64
  if b = 0x00 then dspRead o s
  else if b = 0x02 then (if o < 0x100 || 0x200 ≤ o then yrdRead o s else loadRead k (o - 0x100) s)
  else if b = 0x03 then rngRead o s
  else if b = 0x04 then ldgRead o s
  else if b = 0x05 then flgRead o s
  else if b = 0x06 then pflRead o s
  else if b = 0x07 then tmpRead o s
  else if b = 0x08 then fltRead o s
  else if b = 0x09 then pwrRead o s
  else if b = 0x0A then clkRead o s
  else if b = 0x0B then crdRead o s
  else if b = 0x0C then ctlRead o s
  else if b = 0x0D then tagRead o s
  else if b = 0x0E then lcsRead o s
  else if b = 0x0F then galRead o s
  else if b = 0x10 then dicRead o s
  else if b = 0x24 then fncRead (64 + o / 0x400) (o % 0x400) s
  else
    match blockEngine b with
    | some (n, e) => blockRead n e k o s
    | none =>
      if b % 8 = 6 then fncRead (4 * ((b - 0x40) / 8) + o / 0x400) (o % 0x400) s else benRead ((b - 0x40) / 8) o s

/-- HQ_CAP (R70). -/
def hqCap : Nat := 7 + 2 ^ 8 * 8 + 2 ^ 16 * 16 + 2 ^ 21 * 6 + 2 ^ 28 * 8 + 2 ^ 32 * 4

/-- The registers of a function's BAR (R70). -/
def State.barValue (s : State) (f o : Nat) : Nat :=
  let k := f - 1
  let x := s.queue k ((o - 0x100) / 0x40)
  let r := o % 0x40
  if o = 0 then hqCap
  else if o = 8 then (s.lease k).lstate
  else if o = 0xC then (s.lease k).qev.toNat
  else if o < 0x300 then
    if r = 0 then x.sqBase.toNat
    else if r = 8 then x.cqBase.toNat
    else if r = 0x10 then x.cfg.toNat
    else if r = 0x1C then x.state.code + 2 ^ 4 * x.major + 2 ^ 8 * x.minor + 2 ^ 16 * x.cerr
    else if r = 0x20 then x.sqHead.toNat
    else if r = 0x24 then x.cqTail.toNat
    else 0
  else if o < 0x2000 then
    let y := s.queue k ((o - 0x1000) / 8)
    (if o % 8 = 0 then y.db else y.cqDb).toNat
  else if o < 0x3000 then (tget msixReset s.link.msix (64 * f + (o - 0x2000) / 16)).toNat / 2 ^ (8 * (o % 16)) % 2 ^ 32
  else (List.range 64).foldl (fun a v => a + 2 ^ v * bit (tget false s.link.pba (64 * f + v))) 0

/-! ### Reads (R12) -/

/-- Forget a latch when its master touches another register. -/
def unlatchRead (key base : Nat) (s : State) : State :=
  match tget none s.bus.latch key with
  | some l => if l.addr = base then s else { s with bus := { s.bus with latch := tset none s.bus.latch key none } }
  | none => s

/-- A read of one byte of a register: byte 0 latches the others; a latched byte is what the latch holds. -/
def readByte (m : Master) (r : Reg) (value : Nat) (addr : Nat) (s : State) : Byte × State :=
  let i := addr - r.base
  if r.width = 1 then (BitVec.ofNat 8 value, unlatchRead (masterKey m) r.base s)
  else if i = 0 then
    (BitVec.ofNat 8 value,
      { s with bus := { s.bus with latch := tset none s.bus.latch (masterKey m) (some { addr := r.base, bytes := leBytes r.width value }) } })
  else
    let s := unlatchRead (masterKey m) r.base s
    match tget none s.bus.latch (masterKey m) with
    | some l => (l.bytes[i]?.getD 0, s)
    | none => (BitVec.ofNat 8 (value / 256 ^ i), s)

/-- A byte of the staging log: byte 0 of TMP_SLOGA_k latches the entry's 16 bytes (R415). -/
def slogByte (m : Master) (addr : Nat) (s : State) : Byte × State :=
  let k := (addr - 0x60070400) / 16
  let s := if (addr - 0x60070400) % 16 = 0 then slogRead m k s else s
  match tget none s.bus.latch (1024 + masterKey m) with
  | some l => if l.addr = 0x60070400 + 16 * k then (l.bytes[addr % 16]?.getD 0, s) else ((s.vault.slotBytes k)[addr % 16]?.getD 0, s)
  | none => ((s.vault.slotBytes k)[addr % 16]?.getD 0, s)

/-- A read of one byte of a control register; none is DECODE. A read of byte 0 of FLT_Q takes the entry (R433). -/
def regRead (m : Master) (addr : Nat) (s : State) : Option (Byte × State) :=
  match s.regAt m addr with
  | none => none
  | some r =>
    if 0x60070400 ≤ addr && addr < 0x60070800 then some (slogByte m addr (unlatchRead (masterKey m) r.base s))
    else
      let (b, t) := readByte m r (s.regValue m r.base) addr s
      some (b, if addr = 0x60080100 then (takeEvent t).2 else t)

end Sys2Proof.Machine
end

