-- ==== Sys2Proof/Machine/Regs.lean ====
section
/-! DEFINITION. Writes of control registers (R11, R12, R49): access codes, staging, and what each register does; accesses that do not
decode (R10, R15). -/

namespace Sys2Proof.Machine
open Sys2Proof

/-! ### Access codes (R11) -/

/-- The bus answer of a refusal under R49: RANGE, the island decode event, nothing else. -/
def refuseRange (s : State) : State := raiseIsland 48 { s with out := { s.out with bus := .range } }

/-- A write of an RWS lock: the first write of its register after the reset sets it. -/
def writeOnce (addr : Nat) (cur new : Bool) (s : State) : Bool × State :=
  (if s.bus.once.contains addr then cur else new, wrote addr s)

/-- A write of RWL fields: set while the lock is clear; once it is set, a write that would change them raises the block's event. -/
def writeLocked (lock changed : Bool) (event set : State → State) (s : State) : State :=
  if !lock then set s else if changed then event s else s

/-- The lock-write event of a block that has none of its own (R419). -/
def lockEvent (s : State) : State := raiseIsland 61 s

/-! ### The blocks -/

/-- DSP_CTL: CANCEL, then GO (R50); the shadow registers (R49). -/
def dspWrite (o v : Nat) (s : State) : State :=
  if o = 8 then
    let s := if v.testBit 1 then dspCancel s else s
    if v.testBit 0 then dspGo s else s
  else shadowWrite o (BitVec.ofNat 64 v) s

/-- A load port, from its base (R212): lease k's through bench n, or the island's. -/
def loadWrite (k n o v : Nat) (s : State) : State :=
  let p := s.port k
  if o = 0 then (if p.state = 1 then s else s.setPort k { p with src := BitVec.ofNat 64 v })
  else if o = 8 then yardGo k n (BitVec.ofNat 64 v) s
  else if o = 0x18 then
    let w := v % 256
    if w < s.nLease || w = 0x40 then s.setPort k { p with own := w } else refuseRange s
  else s

def rngWrite (o v : Nat) (s : State) : State :=
  if o = 4 then
    let (lock, s) := writeOnce 0x60030004 s.rng.lock (v.testBit 31) s
    let s := writeLocked s.rng.lock (s.rng.auto ≠ v.testBit 2) (raiseRandom 23 0xFF)
      (fun s => { s with rng := { s.rng with auto := v.testBit 2 } }) s
    let s := { s with rng := { s.rng with lock := lock } }
    if v.testBit 0 then rngRestart s else s
  else if o = 8 then rngMask (BitVec.ofNat 16 v) s
  else if o = 0xC then rngRetest (BitVec.ofNat 16 v) s
  else s

/-- FLG_CTL (R272). -/
def flgWrite (o v : Nat) (s : State) : State :=
  if o = 0 then
    let s := flgBmcb (v.testBit 2) s
    let s := if v.testBit 1 then flgHold s else s
    if v.testBit 0 then flgRelease s else s
  else s

/-- The PFL block; every write of it that is out of the sequence's order breaks a sequence (R452, R466). -/
def pflWrite (o v : Nat) (s : State) : State :=
  let break_ := fun (s : State) => if s.pfl.seq = .idle then s else flashRefuse 1 s
  let w := BitVec.ofNat 32 v
  if o < 0x10 then flashSequence o w s
  else if o < 0x30 then flashBuf ((o - 0x10) / 4) w s
  else if o = 0x30 then
    (break_ s).modPfl fun p => { p with err := p.err && !v.testBit 31, clamped := p.clamped && !v.testBit 30, ue := p.ue && !v.testBit 29 }
  else if o = 0x34 then writeWs (BitVec.ofNat 3 v) (break_ s)
  else if o = 0x38 then flashSwap (v.testBit 0) s
  else break_ s

/-- A change of a response or a window register: event 34 (R416). -/
def tmpChange (changed refuse : Bool) (set : Vault → Vault) (s : State) : State :=
  if refuse then refuseRange s
  else writeLocked s.vault.lock changed (raiseTamper 38) (fun s => if changed then raiseTamper 34 (s.modVault set) else s) s

/-- The responses of TMP_RESP_i that a write changes, each recorded as RESP_CHANGE (R399, R403). -/
def respChanges (i : Nat) (old new : BitVec 32) (s : State) : State :=
  forN 16 (fun j s =>
    let r := fun (w : BitVec 32) => w.toNat / 4 ^ j % 4
    if r old = r new then s else stageChange (16 * i + j) (r new) s) s

/-- The TMP block (R415). -/
def tmpWrite (o v : Nat) (s : State) : State :=
  let w := BitVec.ofNat 32 v
  if o = 0 then s.modVault fun x => { x with vlost := x.vlost && !v.testBit 29 }
  else if o = 4 then
    let (lock, s) := writeOnce 0x60070004 s.vault.lock (v.testBit 31) s
    let s := s.modVault fun x => { x with lock := lock }
    let s := if v.testBit 2 then ovfClear s else s
    if v.testBit 1 then unlatch s else s
  else if o = 8 || o = 0xC then
    let i := (o - 8) / 4
    let w := if i = 1 then w &&& 0x00FFFFFF else w
    let t := tmpChange (s.vault.resp[i]? ≠ some w) ((List.range 16).any fun j => w.toNat / 4 ^ j % 4 = 3)
      (fun x => { x with resp := x.resp.setIfInBounds i w }) s
    respChanges i (s.vault.resp[i]?.getD 0) (t.vault.resp[i]?.getD 0) t
  else if 0x10 ≤ o && o < 0x20 then
    let j := (o - 0x10) / 4
    let w := w &&& 0xC0FFFFFF
    tmpChange (s.vault.sw[j]? ≠ some w) (!windowOk true w.toNat) (fun x => { x with sw := x.sw.setIfInBounds j w }) s
  else if o = 0x20 then
    let w := w &&& 0x00FFFFFF
    tmpChange (s.vault.vwin ≠ w) (!windowOk false w.toNat) (fun x => { x with vwin := w }) s
  else if o = 0x28 then tmpSaved w s
  else s

/-- FLT_SRC_e: SEV and PIN; a value below the floor is refused (R424). -/
def srcWrite (e v : Nat) (s : State) : State :=
  let pin := v.testBit 2
  let changed := s.sevOf e ≠ v % 4 || tget false s.flt.pin e ≠ pin
  if v % 4 < srcFloor e then refuseRange s
  else writeLocked (s.flt.lock && !isTamper e) changed lockEvent (severityLater e (BitVec.ofNat 2 v) pin) s

/-- The FLT block (R433). -/
def fltWrite (o v : Nat) (s : State) : State :=
  if o = 0 then
    let (lock, s) := writeOnce 0x60080000 s.flt.lock (v.testBit 31) s
    { s with flt := { s.flt with lock := lock } }
  else if o = 8 then (if v.testBit 31 then (acknowledge (BitVec.ofNat 16 v) s).2 else s)
  else if o = 0xC then { s with flt := { s.flt with low := v.testBit 0 } }
  else if o = 0x10 then
    let r := BitVec.ofNat 9 v &&& 0x1BF
    writeLocked s.flt.lock (s.flt.route ≠ r) lockEvent (fun s => { s with flt := { s.flt with route := r } }) s
  else if o = 0x14 then (if v.testBit 31 then inject (v % 2 ^ 11) s else s)
  else if 0x2000 ≤ o then srcWrite ((o - 0x2000) / 4) v s
  else s

/-- The PWR block (R443). -/
def pwrWrite (o v : Nat) (s : State) : State :=
  let w := BitVec.ofNat 16 v
  if o = 4 then
    let (lock, s) := writeOnce 0x60090004 s.pwr.lock (v.testBit 31) s
    pwrOff w { s with pwr := { s.pwr with lock := lock } }
  else if o = 8 then pwrWake w s
  else if o = 0xC then { s with pwr := { s.pwr with fail := s.pwr.fail &&& ~~~w } }
  else if 0x10 ≤ o then
    let b := (o - 0x10) / 4
    writeLocked s.pwr.lock (tget 0 s.pwr.idle b ≠ w) (raisePower 7) (fun s => { s with pwr := { s.pwr with idle := tset 0 s.pwr.idle b w } }) s
  else s

def clkWrite (o v : Nat) (s : State) : State :=
  if o = 4 then { s with flt := { s.flt with clkMon := s.flt.clkMon &&& ~~~(BitVec.ofNat 30 v) } } else s

/-- The CRD block (R346): CLASSES, then DEACT, ACT and SEND. -/
def crdWrite (e : Env) (o v : Nat) (s : State) : State :=
  if o = 0 then
    let cl := BitVec.ofNat 3 (v / 2 ^ 8)
    let (lock, s) := writeOnce 0x600B0000 s.crd.lock (v.testBit 31) s
    let s := writeLocked s.crd.lock (s.crd.classes ≠ cl) (raiseCust 19) (fun s => s.modCrd fun c => { c with classes := cl }) s
    let s := s.modCrd fun c => { c with lock := lock }
    let s := if v.testBit 1 then crdDeact e.lastSent s else s
    let s := if v.testBit 0 then crdAct s else s
    if v.testBit 2 then sendRaw 0 e.ans s else s
  else if o = 8 then s.modCrd fun c => { c with tx := BitVec.ofNat 12 v }
  else if 0x100 ≤ o then s.modCrd fun c => { c with buf := tset 0 c.buf (o - 0x100) (BitVec.ofNat 8 v) }
  else s

/-- The CTL block (R346): LPCD, then OFF, HALT and SEND. -/
def ctlWrite (e : Env) (o v : Nat) (s : State) : State :=
  if o = 0 then
    let (lock, s) := writeOnce 0x600C0000 s.ctl.lock (v.testBit 31) s
    let s := s.modCtl fun c => { c with lock := lock }
    let s := if s.ctl.lpcd = v.testBit 3 then s else lpcdEnable (v.testBit 3) s
    let s := if v.testBit 0 then ctlOff e.lastSent s else s
    let s := if v.testBit 1 then haltCard s else s
    if v.testBit 2 then sendRaw 1 e.ans s else s
  else if o = 8 then s.modCtl fun c => { c with tx := BitVec.ofNat 12 v }
  else if o = 0xC then
    let p := BitVec.ofNat 8 v
    let t := BitVec.ofNat 8 (v / 2 ^ 16)
    if p.toNat < 10 || 200 < p.toNat || t = 0 then refuseRange s
    else
      writeLocked s.ctl.lock (s.ctl.period ≠ p || s.ctl.thresh ≠ t) (raiseCust 19)
        (fun s => s.modCtl fun c => { c with period := p, thresh := t }) s
  else if 0x100 ≤ o then s.modCtl fun c => { c with buf := tset 0 c.buf (o - 0x100) (BitVec.ofNat 8 v) }
  else s

/-- The TAG block (R346). -/
def tagWrite (o v : Nat) (s : State) : State :=
  if o = 4 then (if v.testBit 31 then tagCommitGo (v / 2 ^ 24 % 8) (v % 2 ^ 13) s else s)
  else if 0x1000 ≤ o && o < 0x2200 then s.modTag fun t => { t with wbuf := tset 0 t.wbuf (o - 0x1000) (BitVec.ofNat 8 v) }
  else s

def dicWrite (o v : Nat) (s : State) : State :=
  if o = 0 then
    let d := s.dic
    let (lock, s) := writeOnce 0x60100000 d.lock (v.testBit 31) s
    let s := writeLocked d.lock (d.mgtEn ≠ v.testBit 0 || d.pfEn ≠ v.testBit 1 || d.vfEn ≠ v.testBit 2) lockEvent
      (fun s => { s with dic := { s.dic with mgtEn := v.testBit 0, pfEn := v.testBit 1, vfEn := v.testBit 2 } }) s
    { s with dic := { s.dic with lock := lock } }
  else s

/-- The lock-write event of the engine at place e (R140, R165, R193). -/
def jobsEvent (q : Nat) (s : State) : State := engineEvent q (if q % 5 = 3 then 7 else 6) 0xFF s

/-- The island registers of engine q (R139, R164, R192). -/
def engineWrite (q addr o v : Nat) (s : State) : State :=
  if o = 0 then
    let x := s.engine q
    let (lock, s) := writeOnce addr x.lock (v.testBit 31) s
    let s := writeLocked x.lock (x.jobs ≠ v.testBit 5) (jobsEvent q) (fun s => s.modEngine q fun e => { e with jobs := v.testBit 5 }) s
    let s := s.modEngine q fun e => { e with lock := lock }
    if v.testBit 0 then requestClear q (v / 2 ^ 8 % 64) s else s
  else if o = 0x18 && q % 5 = 4 then digOwn (q / 5) (BitVec.ofNat 64 v) s
  else s

/-- A job port of lease k on engine q, by its offset from 0x100 (R127, R128, R157, R187). -/
def portWrite (q k o v : Nat) (s : State) : State :=
  let j := s.job q k
  if o = 0 then (if j.state = .wait || j.state = .run then s else s.setJob q k { j with jaddr := BitVec.ofNat 32 v })
  else if o = 4 then
    let mask := if q % 5 ≤ 1 then 512 else if q % 5 = 3 then 64 else 128
    if v.testBit 31 then submitJob q k (v % mask) s else s
  else s

/-- A core's FNC section (R313, R316). -/
def fncWrite (c o v : Nat) (s : State) : State :=
  if o = 0 then fncCtl c (BitVec.ofNat 32 v) s
  else if o = 0xC then fncIen c (BitVec.ofNat 32 v) s
  else if 0x100 ≤ o && o < 0x180 then fncWin c ((o - 0x100) / 8) (BitVec.ofNat 64 v) s
  else if 0x200 ≤ o && o < 0x240 then fncFen c ((o - 0x200) / 4) (BitVec.ofNat 32 v) s
  else s

/-- BEN_CTL_n (R20): SPARE and AUTO_RPL, then RETURN and QUARANTINE. -/
def benWrite (n addr o v : Nat) (s : State) : State :=
  if o = 0 then
    let b := s.bench n
    let (lock, s) := writeOnce addr b.lock (v.testBit 31) s
    let s := writeLocked b.lock (b.spare ≠ v.testBit 1 || b.autoRpl ≠ v.testBit 0) lockEvent
      (fun s => s.modBench n fun b => { b with spare := v.testBit 1, autoRpl := v.testBit 0 }) s
    let s := s.modBench n fun b => { b with lock := lock }
    let s := if v.testBit 3 then benReturn n s else s
    if v.testBit 2 then benQuarantine n s else s
  else s

/-- The register at a device address takes a value. Island masters write no bench core's FNC section (R316). -/
def regWrite (m : Master) (e : Env) (addr v : Nat) (s : State) : State :=
  let b := (addr - regBase) / 0x10000
  let o := addr % 0x10000
  let island := match m with | .core _ => false | _ => true
  let k := match m with | .core c => s.coreOwner c | _ => 64
  if b = 0x00 then dspWrite o v s
  else if b = 0x02 then
    (if 0x200 ≤ o then loadWrite 64 16 (o - 0x200) v s
     else if 0x100 ≤ o then (match m with | .core c => loadWrite k (c / 4) (o - 0x100) v s | _ => s)
     else s)
  else if b = 0x03 then rngWrite o v s
  else if b = 0x05 then flgWrite o v s
  else if b = 0x06 then pflWrite o v s
  else if b = 0x07 then tmpWrite o v s
  else if b = 0x08 then fltWrite o v s
  else if b = 0x09 then pwrWrite o v s
  else if b = 0x0A then clkWrite o v s
  else if b = 0x0B then crdWrite e o v s
  else if b = 0x0C then ctlWrite e o v s
  else if b = 0x0D then tagWrite o v s
  else if b = 0x0E then (if o = 4 && v.testBit 31 then lcsGo (v % 8) (v / 2 ^ 8 % 256) s else s)
  else if b = 0x0F then (if o = 0 then galGrant (BitVec.ofNat 64 v) s else s)
  else if b = 0x10 then dicWrite o v s
  else if b = 0x24 then fncWrite (64 + o / 0x400) (o % 0x400) v s
  else
    match blockEngine b with
    | some (n, x) =>
      if o < 0x100 then engineWrite (5 * n + x) addr o v s
      else if o < 0x200 then portWrite (5 * n + x) k (o - 0x100) v s
      else s
    | none =>
      if b % 8 = 6 then (if island then s else fncWrite (4 * ((b - 0x40) / 8) + o / 0x400) (o % 0x400) v s)
      else if b % 8 = 0 then benWrite ((b - 0x40) / 8) addr o v s
      else s

/-- Vector v of function f takes a double word of its table entry; an unmasked vector whose bit is pending is sent (log 17). -/
def msixWrite (f o v : Nat) (s : State) : State :=
  let i := 64 * f + o / 16
  let lo := 8 * (o % 16)
  let x := (tget msixReset s.link.msix i).toNat
  let y : BitVec 128 := BitVec.ofNat 128 (x - x / 2 ^ lo % 2 ^ 32 * 2 ^ lo + v % 2 ^ 32 * 2 ^ lo)
  let s := { s with link := { s.link with msix := tset msixReset s.link.msix i y } }
  if tget false s.link.pba i && !y.getLsbD 96
  then sendMsix f (o / 16) { s with link := { s.link with pba := tset false s.link.pba i false } } else s

/-- A register of a function's BAR takes a value (R70-R72, R80, R87, R91). -/
def barWrite (f o v : Nat) (s : State) : State :=
  let k := f - 1
  let q := (o - 0x100) / 0x40
  let r := o % 0x40
  if o = 0xC then s.modLease k fun l => { l with qev := BitVec.ofNat 6 v }
  else if o < 0x100 then s
  else if o < 0x300 then
    if r = 0 then s.modQueue k q fun x => { x with sqBase := BitVec.ofNat 64 v }
    else if r = 8 then s.modQueue k q fun x => { x with cqBase := BitVec.ofNat 64 v }
    else if r = 0x10 then writeQcfg k q (BitVec.ofNat 64 v) s
    else if r = 0x18 then
      let s := if v.testBit 1 then resetQueue k q s else s
      if v.testBit 0 then enableQueue k q s else s
    else s
  else if o < 0x2000 then
    (if o % 8 = 0 then writeDoorbell k ((o - 0x1000) / 8) (BitVec.ofNat 32 v) s
     else writeCqDoorbell k ((o - 0x1000) / 8) (BitVec.ofNat 32 v) s)
  else if o < 0x3000 then msixWrite f (o - 0x2000) v s
  else s

/-! ### Staging (R12) -/

/-- A byte written to a register: it is staged, and the register takes the staged value with its most significant byte. Bytes that were
never staged keep what the register reads, `cur`, in which W1C bits are 0 (log 8). -/
def stageByte (key : Nat) (r : Reg) (cur : Nat) (commit : Nat → State → State) (addr : Nat) (b : Byte) (s : State) : State :=
  let s := unlatchRead key r.base (unlatchRead (1024 + key) 0 s)
  if r.width = 1 then commit b.toNat s
  else
    let all := tget [] s.bus.staged key
    let mine := tput (tget [] all r.base) (addr - r.base) b
    if addr + 1 < r.base + r.width
    then { s with bus := { s.bus with staged := tset [] s.bus.staged key (tset [] all r.base mine) } }
    else
      let v := leNat ((List.range r.width).map fun i => (tfind mine i).getD (BitVec.ofNat 8 (cur / 256 ^ i)))
      commit v { s with bus := { s.bus with staged := tset [] s.bus.staged key (tset [] all r.base []) } }

/-- The W1C bits of the register at a device address (R12): a byte that a write does not name writes 0 there. -/
def w1cBits (addr : Nat) : Nat :=
  if addr = 0x60060030 then 0xE0000000
  else if addr = 0x60070000 then 0x20000000
  else if addr = 0x6009000C then 0xFFFF
  else if addr = 0x600A0004 then 0x3FFFFFFF
  else 0

/-- A byte written to a control register. -/
def writeByte (m : Master) (e : Env) (addr : Nat) (b : Byte) (s : State) : State :=
  match s.regAt m addr with
  | none => s
  | some r => stageByte (masterKey m) r (s.regValue m r.base - (s.regValue m r.base &&& w1cBits r.base)) (regWrite m e r.base) addr b s

/-- A byte written to a function's BAR. -/
def barByte (f o : Nat) (b : Byte) (s : State) : State :=
  match findReg (barRows f) o with
  | none => s
  | some r => stageByte (masterKey (.fn f)) r (s.barValue f r.base) (barWrite f r.base) o b s

/-- Write bytes in rising order of their addresses. -/
def writeBytes (f : Nat → Byte → State → State) : Nat → Bytes → State → State
  | _, [], s => s
  | a, b :: r, s => writeBytes f (a + 1) r (f a b s)

/-! ### What decodes (R10, R15) -/

/-- The RNG_PORT window, which bench cores and island cores reach (R238, R239). -/
def inRngPort (addr : Nat) : Bool := 0x60031000 ≤ addr && addr < 0x60031020

/-- A master that can make an access now: island masters while island firmware runs, the island cores also in the boot ROM that a unit stays in whose
UDS check has failed (R377), bench cores while a lease holds them, functions behind
the link. -/
def State.masterUp (s : State) (m : Master) : Bool :=
  match m with
  | .core c => c < 4 * s.nBench && (s.portLease c).isSome
  | .island c => c < 2 && (s.islandRuns || s.pw.stage = .udsFailed)
  | .dma => s.islandRuns
  | .fn f => s.running && s.link.up && f ≤ s.link.numVfs

/-- The top of island SRAM, kept for the alias and ledger keys: only island cores read it (R385, log 156). -/
def keyArea (addr : Nat) : Bool := islandSram + 0xC0000 ≤ addr && addr < islandSram + 0x100000

/-- The device address answers this master; host memory is the outbound window. -/
def State.decodes (s : State) (m : Master) (addr : Nat) (write : Bool) : Bool :=
  let island := match m with | .core _ => false | .fn _ => false | _ => true
  let isCore := match m with | .core _ => true | .island _ => true | _ => false
  (s.regAt m addr).isSome || (isCore && inRngPort addr) ||
    (island && ((addr < 0x20000 && !write) || (islandSram ≤ addr && addr < islandSram + 0x100000 && (write || m ≠ .dma || !keyArea addr)) ||
      (stagingBase ≤ addr && addr < stagingBase + 0x1000000))) ||
    (0x10000000 ≤ addr && addr < 0x10000000 + s.nBench * 0x200000 &&
      !s.benchShut ((addr - 0x10000000) / 0x200000) && match m with | .core c => (addr - 0x10000000) / 0x200000 = c / 4 | .fn _ => false | _ => true) ||
    (match m with | .island _ => flashBase ≤ addr && addr < flashBase + flashSize && !write | .dma => 2 ^ 32 ≤ addr && addr < 2 ^ 40 | _ => false)

/-- DECODE, with the island's decode event (R15). -/
def refuseDecode (s : State) : State := raiseIsland 48 { s with out := { s.out with bus := .decode } }

/-- DECODE_ACCESS: an access to what does not decode for its master has no effect but these. An undefined BAR offset has its own answer (R70). -/
def execDecodeAccess (m : Master) (addr : Nat) (write : Bool) (s : State) : Res :=
  if !s.masterUp m then .next s
  else
    match m with
    | .fn f => if (findReg (barRows f) addr).isSome then .next s else .next (barDecode f write s)
    | _ => if s.decodes m addr write then .next s else .next (refuseDecode s)

/-- RNG_PORT_WRITE: discarded, event 21 for the lease that holds the core (R239, R240). -/
def rngPortWrite (c : Nat) (s : State) : State := raiseRandom 21 (s.coreLease c) s

end Sys2Proof.Machine
end

