-- ==== Sys2Proof/Machine/Triven.lean ====
section
/-! DEFINITION. The Triven core: when it executes, its accesses through windows and fences, vectors, the running of short and long
instructions, host calls, interrupts and island services (R276-R291, R300-R317). -/

namespace Sys2Proof.Machine
open Sys2Proof

/-! ### Registers (R276, R277) -/

def Core.dr (x : Core) (r : BitVec 3) : BitVec 8 := x.d[r.toNat]'(by have := r.isLt; omega)
def Core.ar (x : Core) (r : BitVec 3) : BitVec 16 := x.a[r.toNat]'(by have := r.isLt; omega)
def Core.wr (x : Core) (r : BitVec 2) : BitVec 512 := x.w[r.toNat]'(by have := r.isLt; omega)
def Core.setD (x : Core) (r : BitVec 3) (v : BitVec 8) : Core := { x with d := x.d.set r.toNat v (by have := r.isLt; omega) }
def Core.setA (x : Core) (r : BitVec 3) (v : BitVec 16) : Core := { x with a := x.a.set r.toNat v (by have := r.isLt; omega) }
def Core.setW (x : Core) (r : BitVec 2) (v : BitVec 512) : Core := { x with w := x.w.set r.toNat v (by have := r.isLt; omega) }

/-- SR: S, IE, RSM at bits 7 to 5. -/
def Core.sr (x : Core) : BitVec 8 := BitVec.ofNat 8 (2 ^ 7 * bit x.sup + 2 ^ 6 * bit x.ie + 2 ^ 5 * bit x.rsm)

/-- PC is always even (R276). -/
def evenPc (v : BitVec 16) : BitVec 16 := v &&& 0xFFFE

/-! ### When a core executes (R279, R307) -/

/-- The gallery may halt and read core c: right 0 for the island's, right 2 for those of the named lease (R389). -/
def State.mayHalt (s : State) (c : Nat) : Bool :=
  if 64 ≤ c then c < 66 && s.galRights.getLsbD 0 else s.galRights.getLsbD 2 && s.coreOwner c = s.gal.lease.toNat

/-- The core executes in this tick: it is in RUN, its bench is READY and acts, its lease holds it and its work runs, and the gallery does not
hold it. A quarantine that is due acts at the boundary. -/
def State.coreExec (s : State) (c : Nat) : Bool :=
  let x := s.core c
  x.state = .run && (!x.halted || x.stepOne || !s.mayHalt c) && s.coreHeld c

/-- The core is wiped at the end of this tick: frame tick 253 before a swap that changes its entry (R51). -/
def State.wipeDue (s : State) (c : Nat) : Bool :=
  c < 64 && s.dsp.pend && s.dsp.at_ = s.frame + 1 && s.ftick = 253 && (s.changingCores s.dsp.coreS).contains c

/-- The lease's work pauses at the boundary after this tick: a quarantine of it or of the bench, a ceremony with it in scope, or a mode without
lease work (R37, R102, R223). -/
def State.pauseComes (s : State) (n k : Nat) : Bool :=
  (s.bench n).qPend.isSome || (s.lease k).qPend.isSome || (s.pw.leaseWork && !s.modeOf.works) ||
    (match s.cust.pausing with | some m => k < 64 && m.getLsbD k | none => false)

/-- The core stops at the boundary after this tick, by a wipe or by a pause that is due (R279). -/
def State.stopDue (s : State) (c : Nat) : Bool := s.wipeDue c || (c < 64 && s.pauseComes (c / 4) (s.coreOwner c))

/-- A call is to be delivered to core c at this boundary. -/
def State.callFor (s : State) (c : Nat) : Bool := s.cmds.any fun e => e.2.admitted && s.callDue e.2 && s.callCore e.2 = c

/-- The lowest enabled pending vector, 16 to 22 (R307). -/
def Core.dueVector (x : Core) : Option Nat :=
  if x.ie then (List.range 7).find? fun i => x.pend.getLsbD i && x.ien.getLsbD i else none

/-- A vector is to be taken before the next instruction. -/
def State.vectorDue (s : State) (c : Nat) : Bool :=
  let x := s.core c
  x.boundary && (s.callFor c || x.dueVector.isSome)

/-- An instruction may begin now. -/
def State.mayBegin (s : State) (c : Nat) : Bool := s.coreExec c && (s.core c).bc < 2048 && !s.vectorDue c

/-- Spend bench cycles. -/
def spend (c n : Nat) (s : State) : State := s.modCore c fun x => { x with bc := x.bc + n }

/-! ### Accesses (R310-R315) -/

inductive Acc where
  | read | write | exec
  deriving DecidableEq, Repr

/-- ACC of the report. -/
def Acc.code : Acc → Nat
  | .read => 1 | .write => 2 | .exec => 4

/-- How a step of an instruction ends: well, with a value; with a vector that pushes the instruction's address; with a trap, which pushes the
next one's. -/
inductive Hit (α : Type) where
  | ok (v : α) (s : State)
  | no (vec param : Nat) (s : State)
  | trap (vec param : Nat) (s : State)

def Hit.bind {α β : Type} (h : Hit α) (f : α → State → Hit β) : Hit β :=
  match h with
  | .ok v s => f v s
  | .no v p s => .no v p s
  | .trap v p s => .trap v p s

/-- The window that a core address lies in, with its number. -/
def Core.windowAt (x : Core) (a : Nat) : Option (Nat × Window) :=
  ((x.winUse.getD x.win).map fun (e : Nat × BitVec 64) => (e.1, windowOf e.2)).find? fun e => e.2.kind ≠ 0 && e.2.base ≤ a && a < e.2.last

/-- The block of a PORT code (R309); an island core's codes name the island's blocks, and it has no odd cutter. -/
def portBlock (c code : Nat) : Option Nat :=
  if code = 6 then some 0x02
  else if code = 7 then some 0x03
  else if 64 ≤ c then
    (if code = 0 then some 0x24 else if code = 1 then some 0x20 else if 3 ≤ code && code ≤ 5 then some (0x1E + code) else none)
  else if code = 0 then some (0x46 + 8 * (c / 4)) else if code ≤ 5 then some (0x40 + 8 * (c / 4) + code) else none

/-- The device address an access reaches; none while the rank of a PAGE window names no page. A PORT code that the core lacks leads to the
reserved block 0x11. -/
def State.deviceAddr (s : State) (c : Nat) (w : Window) (a : Nat) : Option Nat :=
  let o := a - w.base
  if w.kind = 1 then
    let n := coreBench c
    ((s.pagesOf n (s.coreOwner c))[w.rank]?).map fun p => pageBase n p + 256 * (w.target % 128) + o
  else if w.kind = 2 then
    let code := w.target / 256
    some (regBase + 0x10000 * (portBlock c code).getD 0x11 + (if code = 0 then 0x400 * (c % 4) else 0) + 256 * (w.target % 256) + o)
  else some (256 * w.target + o)

/-- The lowest-numbered fence entry that matches a granule (R314). -/
def Core.fenceAt (x : Core) (g : Nat) : Option (Nat × BitVec 32) :=
  ((List.range 16).map fun i => (i, tget 0x7FF00 x.fen i)).find? fun e => e.2.toNat / 2 ^ 8 % 2 ^ 11 ≤ g && g ≤ e.2.toNat / 2 ^ 20 % 2 ^ 11

/-- The entry allows the access in this state. -/
def fenceAllows (f : BitVec 32) (sup : Bool) (acc : Acc) : Bool :=
  f.getLsbD ((if sup then 3 else 0) + match acc with | .read => 0 | .write => 1 | .exec => 2)

/-- The report and the events of a window or fence fault (R315). -/
def reportFault (c kind entry : Nat) (sup : Bool) (acc : Acc) (a : Nat) (dev : Option Nat) (s : State) : State :=
  let x := s.core c
  let A := s.ftick + 2 ^ 8 * s.coreOwner c + 2 ^ 16 * acc.code + 2 ^ 19 * bit sup + 2 ^ 20 * kind + 2 ^ 24 * entry + 2 ^ 32 * a + 2 ^ 48 * x.pc.toNat
  let B := (dev.getD 0) % 2 ^ 40 + 2 ^ 40 * (s.frame % 2 ^ 24)
  let s := s.setCore c { x with vrpA := BitVec.ofNat 64 A, vrpB := BitVec.ofNat 64 B, vcnt := satAdd x.vcnt 1 }
  let i := if kind = 5 then 42 else if 3 ≤ kind then 40 else 41
  let s := raise (coreEvent c i) (s.coreLease c) s
  if c < 64 then raiseIslandOf 50 (s.coreLease c) s else s

/-- The checks 1 to 4 of R310; the device address. -/
def checkAccess (c a : Nat) (acc : Acc) (sup : Bool) (s : State) : Hit Nat :=
  let x := s.core c
  let fault := fun (kind entry : Nat) (dev : Option Nat) => Hit.no (if kind = 3 || kind = 4 then 5 else 4) kind (reportFault c kind entry sup acc a dev s)
  match x.windowAt a with
  | none => fault 1 0xFF none
  | some (i, w) =>
    let dev := s.deviceAddr c w a
    let may := match acc with | .read => w.access % 2 = 1 | .write => w.canWrite | .exec => w.canExec
    if acc = .write && w.kind = 1 && w.rank = 0 then fault 5 i dev
    else if !may || (w.super && !sup) then fault 2 i dev
    else
      match dev with
      | none => fault 1 0xFF none
      | some d =>
        if !x.en then .ok d s
        else
          match x.fenceAt (a / 32) with
          | none => fault 3 0xFF dev
          | some (j, f) => if fenceAllows f sup acc then .ok d s else fault 4 j dev

/-- The master that a core is on the bus. -/
def coreMaster (c : Nat) : Master := if 64 ≤ c then .island (c - 64) else .core c

/-- A bench page that no lease holds, named through an island window (R18). DESIGN CHOICE (log 133): the command area, pages 56 to 63, is no page that
a lease could hold, so an access to it reaches the SRAM without the event. -/
def State.unheldPage (s : State) (dev : Nat) : Option Nat :=
  let o := dev - 0x10000000
  let n := o / 0x200000
  let p := o % 0x200000 / 0x8000
  if 0x10000000 ≤ dev && n < s.nBench && p < 56 && s.pageOwner n p = 0xFF then some n else none

/-- RNG_PORT: n bytes for core c, or the random-port fault and event 21 (R239). -/
def rngPortDraw (c n : Nat) (s : State) : Hit Bytes :=
  let e := coreBench c
  let fault := fun (p : Nat) => Hit.no 6 p (raiseRandom 21 (s.coreLease c) s)
  if !(s.exp e).ready then fault 1
  else if 512 < (s.core c).rngBytes + n then fault 2
  else
    match draw e n s with
    | none => fault 1
    | some (b, t) => .ok b (t.modCore c fun x => { x with rngBytes := x.rngBytes + n })

/-- The target's answer to a read of one byte (check 5 of R310). -/
def targetRead (c dev : Nat) (fetch : Bool) (s : State) : Hit Byte :=
  let m := coreMaster c
  match s.heldIn dev 1 with
  | some x => .no 3 3 (engineEvent (5 * x.bench + 3) 5 x.lease s)
  | none =>
    if inRngPort dev then (rngPortDraw c 1 (runFirsts 85 s)).bind fun b s => .ok (b.headD 0) s
    else
      match regRead m dev s with
      | some (b, s) => .ok b s
      | none =>
        if !s.decodes m dev false then .no 3 1 (raiseIsland 48 s)
        else if dev < 0x20000 then .ok (Config.romByte dev) s
        else if flashBase ≤ dev && dev < flashBase + flashSize then
          let o := dev - flashBase
          match flashRead (c - 64) o 1 fetch (s.foundEcc o) s with
          | (.ok b, t) => .ok (b.headD 0) (spend c (s.lineCost (c - 64) o) t)
          | (_, t) => .no 3 2 t
        else
          match s.unheldPage dev with
          | some n => .ok 0 (raiseDev (48 * n + 46) s)
          | none => .ok (Memory.get s.ram dev) s

/-- The address is of a writable register of core c's own FNC section (R300, R316). -/
def ownFnc (c dev : Nat) : Bool :=
  let base := if 64 ≤ c then regBase + 0x240000 + 0x400 * (c - 64) else regBase + 0x10000 * (0x46 + 8 * (c / 4)) + 0x400 * (c % 4)
  let o := dev - base
  base ≤ dev && (o < 4 || (0xC ≤ o && o < 0x10) || (0x100 ≤ o && o < 0x180) || (0x200 ≤ o && o < 0x240))

/-- A byte of memory is written: a byte of a held range or of a page that no lease holds only raises its event (R18, R174). -/
def memWrite (dev : Nat) (b : Byte) (s : State) : State :=
  match s.heldIn dev 1 with
  | some x => engineEvent (5 * x.bench + 3) 5 x.lease s
  | none =>
    match s.unheldPage dev with
    | some n => raiseDev (48 * n + 46) s
    | none => s.ramWrite dev [b]

/-- The target's answer to a write of one byte. A user-state write of a core's own FNC registers takes the privilege vector (R300). -/
def targetWrite (c dev : Nat) (b : Byte) (sup : Bool) (s : State) : Hit Unit :=
  let m := coreMaster c
  if inRngPort dev then .no 6 3 (rngPortWrite c s)
  else if (s.regAt m dev).isSome then
    if !sup && ownFnc c dev then .no 2 0 s
    else
      let t := writeByte m {} dev b { s with out := { s.out with bus := .ok [] } }
      if t.out.bus = .range then .no 3 4 t else .ok () t
  else if !s.decodes m dev true then .no 3 1 (raiseIsland 48 s)
  else .ok () (memWrite dev b s)

/-- A load of one byte. -/
def loadByte (c : Nat) (a : BitVec 16) (sup : Bool) (s : State) : Hit Byte :=
  (checkAccess c a.toNat .read sup s).bind fun d s => targetRead c d false s

/-- A store of one byte. -/
def storeByte (c : Nat) (a : BitVec 16) (b : Byte) (sup : Bool) (s : State) : Hit Unit :=
  (checkAccess c a.toNat .write sup s).bind fun d s => targetWrite c d b sup s

/-- The fetch of one halfword, stored low byte first. -/
def fetchHalf (c : Nat) (a : BitVec 16) (s : State) : Hit (BitVec 16) :=
  (checkAccess c a.toNat .exec (s.core c).sup s).bind fun d s =>
    (targetRead c d true s).bind fun lo s => (targetRead c (d + 1) true s).bind fun hi s => .ok (hi ++ lo) s

/-- The instruction that the core fetches at its PC, none for an illegal one, with its length (R281). -/
def fetch (c : Nat) (s : State) : Hit (Option Triven × Nat) :=
  let pc := (s.core c).pc
  (fetchHalf c pc s).bind fun h0 s =>
    if isLong h0 then (fetchHalf c (pc + 2) s).bind fun h1 s => .ok (trivenDecode h0 h1, 4) s else .ok (trivenDecode h0 0, 2) s

/-! ### Vectors (R301-R304) -/

/-- A double fault: the core stops with the registers it had, event 43, and a call it serves completes with PROGRAM. -/
def doubleFault (c : Nat) (old : Core) (s : State) : State :=
  let s := failCall c s
  let s := s.modCore c fun x =>
    { x with sup := old.sup, ie := old.ie, rsm := old.rsm, a := old.a, pc := old.pc, state := .stopped, serving := none, long := none }
  raise (coreEvent c 43) (s.coreLease c) s

/-- Entry to vector v with PARAM, pushing `ret`: 6 bc. Event 44 goes with the illegal-instruction and privilege vectors (R317). -/
def enterVector (c v param : Nat) (ret : BitVec 16) (s : State) : State :=
  let s := if v = 1 || v = 2 then raise (coreEvent c 44) (s.coreLease c) s else s
  let x := s.core c
  let sp := x.ar 7
  let s := s.modCore c fun y => { y with sup := true }
  let pushed := (storeByte c (sp - 1) (BitVec.ofNat 8 (ret.toNat / 256)) true s).bind fun _ s =>
    (storeByte c (sp - 2) (BitVec.ofNat 8 ret.toNat) true s).bind fun _ s => storeByte c (sp - 3) x.sr true s
  match pushed with
  | .ok _ s =>
    let s := s.modCore c fun y =>
      { y.setA 7 (sp - 3) with sup := true, ie := false, rsm := false, pc := BitVec.ofNat 16 (8 * v), bc := y.bc + 6,
                               cause := BitVec.ofNat 32 (2 ^ 24 * v + 2 ^ 16 * param), boundary := false }
    match fetchHalf c (BitVec.ofNat 16 (8 * v)) s with
    | .ok _ s => s
    | .no _ _ s => doubleFault c x s
    | .trap _ _ s => doubleFault c x s
  | .no _ _ s => doubleFault c x s
  | .trap _ _ s => doubleFault c x s

/-! ### Running instructions -/

/-- The end of an instruction: its cycles, and what marks it as done. -/
def Core.after (x : Core) (cost : Nat) : Core := { x with bc := x.bc + cost, boundary := false, stepOne := false, winUse := none }

/-- A fetch that does not answer: its vector, after 1 bc (log 13). -/
def fetchFault (c v p : Nat) (pc : BitVec 16) (s : State) : State := enterVector c v p pc (s.modCore c fun y => y.after 1)

/-- The short or not resumable instruction i of `cost` bc, which runs where the core fetches it, none being an illegal one; where it fetches another,
the row is not the core's next instruction and nothing happens (log 13). `f` makes its accesses and answers its effect on the registers, with PC
already at the next instruction. -/
def runShort (c : Nat) (i : Option Triven) (cost : Nat) (f : Core → State → Hit (Core → Core)) (s : State) : State :=
  let x := s.core c
  if !s.mayBegin c || x.inLong || (s.stopDue c && 2048 < x.bc + cost) then s
  else
    match fetch c s with
    | .no v p t => fetchFault c v p x.pc t
    | .trap v p t => fetchFault c v p x.pc t
    | .ok (j, len) t =>
      if j ≠ i then s
      else
        let next := fun (y : Core) => { y with pc := y.pc + BitVec.ofNat 16 len }
        match f x t with
        | .ok g t => t.modCore c fun y => (g (next y)).after cost
        | .no v p t => enterVector c v p x.pc (t.modCore c fun y => y.after cost)
        | .trap v p t => enterVector c v p (next x).pc (t.modCore c fun y => (next y).after cost)

/-- An instruction without memory access. -/
def runReg (c : Nat) (i : Triven) (cost : Nat) (g : Core → Core) (s : State) : State := runShort c (some i) cost (fun _ s => .ok g s) s

/-- An illegal instruction: 1 bc and vector 1 (R281). -/
def illegal (c : Nat) (s : State) : State := runShort c none 1 (fun _ s => .no 1 0 s) s

/-- A privileged instruction; in user state 1 bc and vector 2. -/
def privileged (c : Nat) (i : Triven) (cost : Nat) (f : Core → State → Hit (Core → Core)) (s : State) : State :=
  if (s.core c).sup then runShort c (some i) cost f s else runShort c (some i) 1 (fun _ s => .no 2 0 s) s

/-- A long instruction stops, to be resumed: RSM is 1 while elements are left (R286). -/
def Core.stopped (x : Core) (dc : BitVec 3) : Core := { x with long := none, stepOne := false, winUse := none, rsm := x.rsm || x.dr dc ≠ 0 }

/-- The elements of a long instruction that fit in the tick, at most `fuel` of them. -/
def elements (c e : Nat) (dc : BitVec 3) (elem : Core → State → Hit (Core → Core)) : Nat → State → State
  | 0, s => s
  | fuel + 1, s =>
    let x := s.core c
    if x.dr dc = 0 || 2048 ≤ x.bc || (s.wipeDue c && 2048 < x.bc + e) then s
    else
      match elem x s with
      | .ok g t => elements c e dc elem fuel (t.modCore c fun y => let z := g y; { z.setD dc (z.dr dc - 1) with bc := z.bc + e })
      | .no v p t => enterVector c v p x.pc (t.modCore c fun y => y.stopped dc)
      | .trap v p t => enterVector c v p x.pc (t.modCore c fun y => y.stopped dc)

/-- After the elements of this tick: the instruction is complete, or goes on in the next tick. A vector that an element took has moved PC away. -/
def closeLong (c : Nat) (dc : BitVec 3) (s : State) : State :=
  let x := s.core c
  if !x.inLong then s
  else if x.dr dc = 0 then s.setCore c { x with long := none, rsm := false, stepOne := false, winUse := none, pc := x.pc + 4 }
  else s

/-- The long instruction i with `e` bc an element and count register `dc` (R284-R287), where the core fetches it. It begins with its setup unless RSM
is 1, or goes on where it is under way. -/
def runLong (c : Nat) (i : Triven) (e : Nat) (dc : BitVec 3) (elem : Core → State → Hit (Core → Core)) (s : State) : State :=
  let x := s.core c
  let n := (x.dr dc).toNat
  if !s.mayBegin c then s
  else if x.inLong then if x.long ≠ some i then s else closeLong c dc (elements c e dc elem n (s.setCore c { x with boundary := false }))
  else
    let setup := if x.rsm && n ≠ 0 then 0 else 2
    if s.wipeDue c && 2048 < x.bc + setup then s
    else
      match fetch c s with
      | .no v p t => fetchFault c v p x.pc t
      | .trap v p t => fetchFault c v p x.pc t
      | .ok (j, _) t =>
        if j ≠ some i then s
        else
          let t := t.modCore c fun y => { y with bc := y.bc + setup, boundary := false, long := some i }
          closeLong c dc (elements c e dc elem n t)

/-! ### Host calls (R118, R308) -/

/-- FNC_CALLIO_c. -/
def callIo (s : State) (c : Cmd) (n page : Nat) : BitVec 64 :=
  let rank := ((s.pagesOf n c.lease).takeWhile (· ≠ page)).length
  BitVec.ofNat 64 (page + 2 ^ 8 * rank + 2 ^ 32 * fieldLE c.u3 2 2 + 2 ^ 48 * c.inLen)

/-- HOST_CALL_DELIVERY: at a tick boundary, to a core in RUN; a stopped core answers PROGRAM (R304, R308). -/
def execHostCallDelivery (h : Nat) (s : State) : Res :=
  match s.cmd h with
  | none => .next s
  | some c =>
    let n := s.cmdHome c
    let k := s.callCore c
    if !c.admitted || !s.callDue c then .next s
    else if (s.core k).state ≠ .run then .next (endCmd h 0x0132 0 [] (s.setCmd h { c with a := { c.a with ticks := 1 } }))
    else if !s.coreExec k || !(s.core k).boundary then .next s
    else
      let page := fieldLE c.u3 1 1
      let t := s.setCmd h { c with delivered := true, a := { c.a with ticks := 1 } }
      let t := t.ramWrite (pageBase n page + fieldLE c.u3 2 2) (c.input.take c.inLen)
      let t := t.modCore k fun x =>
        { stopLong x with serving := some { cmd := h, page := page, start := s.pw.now }, callArg := BitVec.ofNat 32 c.opb, callIo := callIo s c n page }
      .next (enterVector k 9 0 (s.core k).pc t)

/-- HOSTRET: ends the call, naming the output with A0 and A1, or is refused with event 47 (R308). -/
def hostReturn (c : Nat) (v : Serving) (s : State) : State :=
  let x := s.core c
  let off := (x.ar 0).toNat
  let len := (x.ar 1).toNat
  let s := s.setCore c { x with serving := none }
  match s.cmd v.cmd with
  | none => s
  | some m =>
    if off % 32 ≠ 0 || 32768 < off + len || 4096 < len || m.outCap < len
    then raise (coreEvent c 47) (s.coreLease c) (endCmd v.cmd 0x0132 0 [] s)
    else endCmd v.cmd 0 0 [] (s.setCmd v.cmd { m with copyFrom := some (pageBase (coreBench c) v.page + off, len) })

/-- TRAP #32; without a call being served it is illegal, with its 6 bc spent (R305). -/
def hostret (c : Nat) (s : State) : State :=
  runShort c (some (.trap 32)) 6 (fun x s =>
    match x.serving with
    | none => .no 1 0 s
    | some v => .ok id (hostReturn c v s)) s

/-! ### Island services (R306) -/

/-- D0 to D3, D0 lowest. -/
def Core.isvArgs (x : Core) : BitVec 32 := BitVec.ofNat 32 (leNat [x.dr 0, x.dr 1, x.dr 2, x.dr 3])

/-- TRAP #48 to #63: D0 to D3 go to island firmware, and D0 becomes 0 accepted, 1 busy, 2 no such service. -/
def serviceRequest (c n : Nat) (s : State) : State :=
  runShort c (some (.trap (BitVec.ofNat 6 n))) 6 (fun x s =>
    if n ≠ 48 && n ≠ 49 then .ok (fun y => y.setD 0 2) s
    else if x.isvb then .ok (fun y => y.setD 0 1) s
    else .ok (fun y => { y.setD 0 0 with isvb := true, isvReq := n, isvArg := x.isvArgs }) s) s

/-- The result of an island service for the lease that holds core c. A grant shows from the tick it is live (R222). -/
def State.serviceResult (s : State) (c n : Nat) : BitVec 64 :=
  if n = 48 then s.time64
  else
    match (s.lease (s.coreOwner c)).grant with
    | none => 0
    | some g => if s.pw.now < g.fromTick then 0 else BitVec.ofNat 64 (1 + 2 ^ 24 * ((g.endFrame - s.frame) % 2 ^ 24) + 2 ^ 48 * (g.uses % 2 ^ 16))

/-- ISLAND_SERVICE_COMPLETE: in island time; services wait while a firmware update runs (R306, R465). -/
def execIslandServiceComplete (c : Nat) (s : State) : Res :=
  let x := s.core c
  if !x.isvb || !s.islandRuns || s.pfl.upd.isSome then .next s
  else .next (s.setCore c { x with isvb := false, isv := s.serviceResult c x.isvReq, pend := x.pend ||| 0x40 })

/-! ### Interrupts, the core's ports and its own section -/

/-- INTERRUPT_ENTRY: the lowest enabled pending vector, where no call is delivered (R307). -/
def execInterruptEntry (c : Nat) (s : State) : Res :=
  let x := s.core c
  match x.dueVector with
  | none => .next s
  | some i =>
    if !s.coreExec c || !x.boundary || s.callFor c then .next s
    else
      let t := s.setCore c { stopLong x with pend := x.pend &&& ~~~(BitVec.ofNat 7 (2 ^ i)), stepOne := false }
      .next (enterVector c (16 + i) 0 x.pc t)

/-- RNG_PORT_READ of 1, 2, 4 or 8 bytes by core c. -/
def execRngPortRead (c n : Nat) (s : State) : Res :=
  if !s.coreExec c || !([1, 2, 4, 8].contains n) then .next s
  else
    match rngPortDraw c n s with
    | .ok b t => .next { t with out := { t.out with bus := .ok b } }
    | .no v p t => .next (enterVector c v p (s.core c).pc t)
    | .trap v p t => .next (enterVector c v p (s.core c).pc t)

/-- RNG_PORT_WRITE by core c: discarded, with event 21 and the random-port fault vector's PARAM 3 (R239, R316). -/
def execRngPortWrite (c : Nat) (s : State) : Res :=
  if s.coreExec c then .next (enterVector c 6 3 (s.core c).pc (rngPortWrite c s)) else .next s

/-- A write by core c of its own section: in supervisor state, else the privilege vector (R300). -/
def ownWrite (c : Nat) (f : State → State) (s : State) : State :=
  if !s.coreExec c then s
  else if (s.core c).sup then (f s).modCore c fun x => { x with winUse := none }
  else enterVector c 2 0 (s.core c).pc s

/-- FNC_CTL_WRITE (R313). -/
def execFncCtlWrite (c : Nat) (v : BitVec 32) (s : State) : Res := .next (ownWrite c (fncCtl c v) s)
/-- FNC_WIN_WRITE: window i of core c (R311). -/
def execFncWinWrite (c i : Nat) (v : BitVec 64) (s : State) : Res := if i < 16 then .next (ownWrite c (fncWin c i v) s) else .next s
/-- FNC_FEN_WRITE: fence i of core c (R313). -/
def execFncFenWrite (c i : Nat) (v : BitVec 32) (s : State) : Res := if i < 16 then .next (ownWrite c (fncFen c i v) s) else .next s

/-! ### REGISTER_WRITE -/

/-- A write of `n` bytes of memory by an island master: RAM, or host memory by DMA with the requester ID of the PF (R10, R67). -/
def busWrite (addr : Nat) (data : Bytes) (s : State) : State :=
  if 2 ^ 32 ≤ addr then { s with out := { s.out with writes := s.out.writes ++ [(0, addr, data)] } } else writeBytes memWrite addr data s

/-- REGISTER_WRITE of 1, 2, 4 or 8 aligned bytes by a master; a function's address is an offset in its BAR. A write of memory that the master
reaches stores there; one with a byte that does not decode has no effect but its refusal. A bench core reaches memory through its windows
alone, and so never by an address of its own choice (R10). -/
def execRegisterWrite (m : Master) (addr : Nat) (data : Bytes) (e : Env) (s : State) : Res :=
  let n := data.length
  let ok := { s with out := { s.out with bus := .ok [] } }
  let plain := match m with | .core _ => false | _ => true
  let write :=
    if (List.range n).all fun i => (s.regAt m (addr + i)).isSome then writeBytes (writeByte m e) addr data ok
    else if plain && (List.range n).all fun i => s.decodes m (addr + i) true && (s.regAt m (addr + i)).isNone then busWrite addr data ok
    else refuseDecode s
  if !s.masterUp m || !([1, 2, 4, 8].contains n) || addr % n ≠ 0 then .next s
  else
    match m with
    | .fn f =>
      if (List.range n).all fun i => (findReg (barRows f) (addr + i)).isSome then .next (writeBytes (barByte f) addr data ok)
      else .next (barDecode f true s)
    | .core c =>
      if inRngPort addr then execRngPortWrite c s
      else if (List.range n).any fun i => ownFnc c (addr + i) then .next (ownWrite c (fun _ => write) s)
      else .next write
    | .island c =>
      if inRngPort addr then execRngPortWrite (64 + c) s
      else if (List.range n).any fun i => ownFnc (64 + c) (addr + i) then .next (ownWrite (64 + c) (fun _ => write) s)
      else .next write
    | .dma => .next write

end Sys2Proof.Machine
end

