-- ==== Sys2Proof/Machine/TrivenOps.lean ====
section
/-! DEFINITION. The Triven instructions (R281-R289, R299, R303, R305). Core c: 0 to 63 on the benches, 64 and 65 on the island. -/

namespace Sys2Proof.Machine
open Sys2Proof

/-- A condition as 0 or 1 (R289). -/
def flag8 (b : Bool) : BitVec 8 := if b then 1 else 0

/-! ### Data and conditions -/

/-- A 1-bc instruction on Dx from Dx and Dy. -/
def dataOp (c : Nat) (i : Triven) (x y : BitVec 3) (f : BitVec 8 → BitVec 8 → BitVec 8) (s : State) : State :=
  runReg c i 1 (fun r => r.setD x (f (r.dr x) (r.dr y))) s

def execTrvNop (c : Nat) (s : State) : Res := .next (runReg c .trvNop 1 id s)
def execMov (c : Nat) (x y : BitVec 3) (s : State) : Res := .next (dataOp c (.mov x y) x y (fun _ b => b) s)
def execAdd (c : Nat) (x y : BitVec 3) (s : State) : Res := .next (dataOp c (.add x y) x y (· + ·) s)
def execSub (c : Nat) (x y : BitVec 3) (s : State) : Res := .next (dataOp c (.sub x y) x y (· - ·) s)

/-- ADC: the carry goes in and out through D7, which neither operand may be. -/
def execAdc (c : Nat) (x y : BitVec 3) (s : State) : Res :=
  if x = 7 || y = 7 then .next (illegal c s)
  else
    .next (runReg c (.adc x y) 1 (fun r =>
      let n := (r.dr x).toNat + (r.dr y).toNat + bit ((r.dr 7).getLsbD 0)
      (r.setD x (BitVec.ofNat 8 n)).setD 7 (flag8 (256 ≤ n))) s)

/-- SBC: the borrow goes in and out through D7. -/
def execSbc (c : Nat) (x y : BitVec 3) (s : State) : Res :=
  if x = 7 || y = 7 then .next (illegal c s)
  else
    .next (runReg c (.sbc x y) 1 (fun r =>
      let n := (r.dr y).toNat + bit ((r.dr 7).getLsbD 0)
      (r.setD x (r.dr x - BitVec.ofNat 8 n)).setD 7 (flag8 ((r.dr x).toNat < n))) s)

def execAnd (c : Nat) (x y : BitVec 3) (s : State) : Res := .next (dataOp c (.and x y) x y (· &&& ·) s)
def execOr (c : Nat) (x y : BitVec 3) (s : State) : Res := .next (dataOp c (.or x y) x y (· ||| ·) s)
def execXor (c : Nat) (x y : BitVec 3) (s : State) : Res := .next (dataOp c (.xor x y) x y (· ^^^ ·) s)
def execNot (c : Nat) (x : BitVec 3) (s : State) : Res := .next (dataOp c (.not x) x x (fun a _ => ~~~a) s)
def execShl (c : Nat) (x y : BitVec 3) (s : State) : Res := .next (dataOp c (.shl x y) x y (fun a b => a <<< (b.toNat % 8)) s)
def execShr (c : Nat) (x y : BitVec 3) (s : State) : Res := .next (dataOp c (.shr x y) x y (fun a b => a >>> (b.toNat % 8)) s)

/-- MUL: high byte to Dy, low byte to Dx. -/
def execMul (c : Nat) (x y : BitVec 3) (s : State) : Res :=
  if x = y then .next (illegal c s)
  else
    .next (runReg c (.mul x y) 2 (fun r =>
      let n := (r.dr x).toNat * (r.dr y).toNat
      (r.setD y (BitVec.ofNat 8 (n / 256))).setD x (BitVec.ofNat 8 n)) s)

def execCeq (c : Nat) (x y : BitVec 3) (s : State) : Res := .next (dataOp c (.ceq x y) x y (fun a b => flag8 (a = b)) s)
def execCltu (c : Nat) (x y : BitVec 3) (s : State) : Res := .next (dataOp c (.cltu x y) x y (fun a b => flag8 (a.ult b)) s)
def execClts (c : Nat) (x y : BitVec 3) (s : State) : Res := .next (dataOp c (.clts x y) x y (fun a b => flag8 (a.slt b)) s)
def execCnz (c : Nat) (x : BitVec 3) (s : State) : Res := .next (dataOp c (.cnz x) x x (fun a _ => flag8 (a ≠ 0)) s)
def execMask (c : Nat) (x : BitVec 3) (s : State) : Res := .next (dataOp c (.mask x) x x (fun a _ => if a = 0 then 0 else 0xFF) s)

/-! ### Address registers -/

/-- A 1-bc instruction on Ax. -/
def addrOp (c : Nat) (i : Triven) (x : BitVec 3) (f : Core → BitVec 16) (s : State) : State := runReg c i 1 (fun r => r.setA x (f r)) s

def execMova (c : Nat) (x y : BitVec 3) (s : State) : Res := .next (addrOp c (.mova x y) x (fun r => r.ar y) s)
def execAdda (c : Nat) (x y : BitVec 3) (s : State) : Res := .next (addrOp c (.adda x y) x (fun r => r.ar x + (r.dr y).setWidth 16) s)
def execSuba (c : Nat) (x y : BitVec 3) (s : State) : Res := .next (addrOp c (.suba x y) x (fun r => r.ar x - (r.dr y).setWidth 16) s)
def execSetal (c : Nat) (x y : BitVec 3) (s : State) : Res := .next (addrOp c (.setal x y) x (fun r => (r.ar x &&& 0xFF00) ||| (r.dr y).setWidth 16) s)
def execSetah (c : Nat) (x y : BitVec 3) (s : State) : Res :=
  .next (addrOp c (.setah x y) x (fun r => (r.ar x &&& 0x00FF) ||| ((r.dr y).setWidth 16 <<< 8)) s)
def execGetal (c : Nat) (x y : BitVec 3) (s : State) : Res := .next (runReg c (.getal x y) 1 (fun r => r.setD x ((r.ar y).setWidth 8)) s)
def execGetah (c : Nat) (x y : BitVec 3) (s : State) : Res := .next (runReg c (.getah x y) 1 (fun r => r.setD x ((r.ar y >>> 8).setWidth 8)) s)

/-! ### Loads, stores, the stack -/

/-- A load of the byte at an address, and what its value does to the registers. -/
def loadOp (c : Nat) (i : Triven) (cost : Nat) (a : Core → BitVec 16) (g : BitVec 8 → Core → Core) (s : State) : State :=
  runShort c (some i) cost (fun x s => (loadByte c (a x) x.sup s).bind fun b s => .ok (g b) s) s

/-- A store of Dx at an address. -/
def storeOp (c : Nat) (i : Triven) (cost : Nat) (a : Core → BitVec 16) (x : BitVec 3) (g : Core → Core) (s : State) : State :=
  runShort c (some i) cost (fun r s => (storeByte c (a r) (r.dr x) r.sup s).bind fun _ s => .ok g s) s

def execLd (c : Nat) (x y : BitVec 3) (s : State) : Res := .next (loadOp c (.ld x y) 2 (fun r => r.ar y) (fun b r => r.setD x b) s)
def execSt (c : Nat) (x y : BitVec 3) (s : State) : Res := .next (storeOp c (.st x y) 2 (fun r => r.ar y) x id s)
def execLdPostinc (c : Nat) (x y : BitVec 3) (s : State) : Res :=
  .next (loadOp c (.ldPostinc x y) 2 (fun r => r.ar y) (fun b r => (r.setD x b).setA y (r.ar y + 1)) s)
def execStPostinc (c : Nat) (x y : BitVec 3) (s : State) : Res :=
  .next (storeOp c (.stPostinc x y) 2 (fun r => r.ar y) x (fun r => r.setA y (r.ar y + 1)) s)
def execPush (c : Nat) (x : BitVec 3) (s : State) : Res :=
  .next (storeOp c (.push x) 2 (fun r => r.ar 7 - 1) x (fun r => r.setA 7 (r.ar 7 - 1)) s)
def execPop (c : Nat) (x : BitVec 3) (s : State) : Res :=
  .next (loadOp c (.pop x) 2 (fun r => r.ar 7) (fun b r => (r.setA 7 (r.ar 7 + 1)).setD x b) s)

/-- Push a 16-bit value, high byte first. -/
def push16 (c : Nat) (sp v : BitVec 16) (sup : Bool) (s : State) : Hit Unit :=
  (storeByte c (sp - 1) (BitVec.ofNat 8 (v.toNat / 256)) sup s).bind fun _ s => storeByte c (sp - 2) (BitVec.ofNat 8 v.toNat) sup s

/-- Pop a 16-bit value, low byte first. -/
def pop16 (c : Nat) (sp : BitVec 16) (sup : Bool) (s : State) : Hit (BitVec 16) :=
  (loadByte c sp sup s).bind fun lo s => (loadByte c (sp + 1) sup s).bind fun hi s => .ok (BitVec.ofNat 16 (lo.toNat + 256 * hi.toNat)) s

def execPusha (c : Nat) (x : BitVec 3) (s : State) : Res :=
  .next (runShort c (some (.pusha x)) 3 (fun r s => (push16 c (r.ar 7) (r.ar x) r.sup s).bind fun _ s => .ok (fun y => y.setA 7 (r.ar 7 - 2)) s) s)
def execPopa (c : Nat) (x : BitVec 3) (s : State) : Res :=
  .next (runShort c (some (.popa x)) 3 (fun r s => (pop16 c (r.ar 7) r.sup s).bind fun v s => .ok (fun y => (y.setA 7 (r.ar 7 + 2)).setA x v) s) s)

/-! ### Wide accumulators -/

/-- An instruction on Wx. -/
def wideOp (c : Nat) (i : Triven) (cost : Nat) (x : BitVec 2) (f : Core → BitVec 512) (s : State) : State := runReg c i cost (fun r => r.setW x (f r)) s

def execWclr (c : Nat) (x : BitVec 2) (s : State) : Res := .next (wideOp c (.wclr x) 1 x (fun _ => 0) s)
def execWmov (c : Nat) (x y : BitVec 2) (s : State) : Res := .next (wideOp c (.wmov x y) 1 x (fun r => r.wr y) s)
def execWadd (c : Nat) (x y : BitVec 2) (s : State) : Res := .next (wideOp c (.wadd x y) 2 x (fun r => r.wr x + r.wr y) s)
def execWsub (c : Nat) (x y : BitVec 2) (s : State) : Res := .next (wideOp c (.wsub x y) 2 x (fun r => r.wr x - r.wr y) s)
def execWxor (c : Nat) (x y : BitVec 2) (s : State) : Res := .next (wideOp c (.wxor x y) 1 x (fun r => r.wr x ^^^ r.wr y) s)
def execWand (c : Nat) (x y : BitVec 2) (s : State) : Res := .next (wideOp c (.wand x y) 1 x (fun r => r.wr x &&& r.wr y) s)
def execWshl8 (c : Nat) (x : BitVec 2) (s : State) : Res := .next (wideOp c (.wshl8 x) 1 x (fun r => r.wr x <<< 8) s)
def execWshr8 (c : Nat) (x : BitVec 2) (s : State) : Res := .next (wideOp c (.wshr8 x) 1 x (fun r => r.wr x >>> 8) s)

/-! ### Control -/

/-- JSR and JSRL: the return address is that of the next instruction. -/
def callTo (c : Nat) (i : Triven) (len : Nat) (target : Core → BitVec 16) (s : State) : State :=
  runShort c (some i) 4 (fun r s =>
    (push16 c (r.ar 7) (r.pc + BitVec.ofNat 16 len) r.sup s).bind fun _ s => .ok (fun y => { y.setA 7 (r.ar 7 - 2) with pc := evenPc (target r) }) s) s

def execJmp (c : Nat) (y : BitVec 3) (s : State) : Res := .next (runReg c (.jmp y) 2 (fun r => { r with pc := evenPc (r.ar y) }) s)
def execJsr (c : Nat) (y : BitVec 3) (s : State) : Res := .next (callTo c (.jsr y) 2 (fun r => r.ar y) s)
def execRts (c : Nat) (s : State) : Res :=
  .next (runShort c (some .rts) 4 (fun r s => (pop16 c (r.ar 7) r.sup s).bind fun v s => .ok (fun y => { y.setA 7 (r.ar 7 + 2) with pc := evenPc v }) s) s)

/-- RTE restores S, IE and RSM from the popped SR (R303). -/
def execRte (c : Nat) (s : State) : Res :=
  .next (privileged c .rte 6 (fun r s =>
    (loadByte c (r.ar 7) true s).bind fun sr s => (pop16 c (r.ar 7 + 1) true s).bind fun v s =>
      .ok (fun y => { y.setA 7 (r.ar 7 + 3) with sup := sr.getLsbD 7, ie := sr.getLsbD 6, rsm := sr.getLsbD 5, pc := evenPc v }) s) s)

/-- TRAP #n: vector 8 for 0 to 31; 32 is HOSTRET, 48 to 63 island services; the others are illegal, with their 6 bc spent (R305). -/
def execTrap (c : Nat) (n : BitVec 6) (s : State) : Res :=
  let k := n.toNat
  if k < 32 then .next (runShort c (some (.trap n)) 6 (fun _ s => .trap 8 k s) s)
  else if k = 32 then .next (hostret c s)
  else if k < 48 then .next (runShort c (some (.trap n)) 6 (fun _ s => .no 1 0 s) s)
  else .next (serviceRequest c k s)

def execHostret (c : Nat) (s : State) : Res := .next (hostret c s)
/-- TRAP #48 + n. -/
def execIslandServiceRequest (c : Nat) (n : BitVec 4) (s : State) : Res := .next (serviceRequest c (48 + n.toNat) s)

/-- WAITT: 2,048 - b bc from bench cycle b. -/
def execWaitt (c : Nat) (s : State) : Res := .next (runReg c .waitt (2048 - (s.core c).bc) id s)
def execGetsr (c : Nat) (x : BitVec 3) (s : State) : Res := .next (runReg c (.getsr x) 1 (fun r => r.setD x r.sr) s)
def execSetsr (c : Nat) (y : BitVec 3) (s : State) : Res :=
  .next (privileged c (.setsr y) 1 (fun r s => .ok (fun z => { z with ie := (r.dr y).getLsbD 6 }) s) s)
/-- GETID: the core's index on its bench, and the bench, 0xFF on the island. -/
def execGetid (c : Nat) (x y : BitVec 3) (s : State) : Res :=
  .next (runReg c (.getid x y) 1 (fun r => (r.setD x (BitVec.ofNat 8 (c % 4))).setD y (if 64 ≤ c then 0xFF else BitVec.ofNat 8 (c / 4))) s)
def execGettk (c : Nat) (x : BitVec 3) (s : State) : Res := .next (runReg c (.gettk x) 1 (fun r => r.setD x (BitVec.ofNat 8 s.ftick)) s)

/-! ### Immediates and branches -/

/-- A 1-bc instruction on Dr with an 8-bit immediate. -/
def immOp (c : Nat) (i : Triven) (r : BitVec 3) (f : BitVec 8 → BitVec 8) (s : State) : State := runReg c i 1 (fun x => x.setD r (f (x.dr r))) s

def execMovi (c : Nat) (r : BitVec 3) (imm : BitVec 8) (s : State) : Res := .next (immOp c (.movi r imm) r (fun _ => imm) s)
def execAddi (c : Nat) (r : BitVec 3) (imm : BitVec 8) (s : State) : Res := .next (immOp c (.addi r imm) r (· + imm) s)
def execAndi (c : Nat) (r : BitVec 3) (imm : BitVec 8) (s : State) : Res := .next (immOp c (.andi r imm) r (· &&& imm) s)
def execXori (c : Nat) (r : BitVec 3) (imm : BitVec 8) (s : State) : Res := .next (immOp c (.xori r imm) r (· ^^^ imm) s)
def execCeqi (c : Nat) (r : BitVec 3) (imm : BitVec 8) (s : State) : Res := .next (immOp c (.ceqi r imm) r (fun a => flag8 (a = imm)) s)
def execCltui (c : Nat) (r : BitVec 3) (imm : BitVec 8) (s : State) : Res := .next (immOp c (.cltui r imm) r (fun a => flag8 (a.ult imm)) s)

/-- A branch by a displacement from the next instruction; its cost is the same whether it is taken (R282). -/
def branch (c : Nat) (i : Triven) (cost : Nat) (taken : Core → Bool) (disp : BitVec 16) (s : State) : State :=
  runReg c i cost (fun x => if taken x then { x with pc := x.pc + disp } else x) s

def execBz (c : Nat) (r : BitVec 3) (disp : BitVec 8) (s : State) : Res :=
  .next (branch c (.bz r disp) 2 (fun x => x.dr r = 0) (disp.signExtend 16 <<< 1) s)
def execBnz (c : Nat) (r : BitVec 3) (disp : BitVec 8) (s : State) : Res :=
  .next (branch c (.bnz r disp) 2 (fun x => x.dr r ≠ 0) (disp.signExtend 16 <<< 1) s)
def execBra (c : Nat) (disp : BitVec 13) (s : State) : Res := .next (branch c (.bra disp) 2 (fun _ => true) (disp.signExtend 16 <<< 1) s)

/-! ### Long, not resumable -/

def execMovia (c : Nat) (x : BitVec 3) (imm : BitVec 16) (s : State) : Res := .next (runReg c (.movia x imm) 2 (fun r => r.setA x imm) s)
def execAddia (c : Nat) (x : BitVec 3) (imm : BitVec 16) (s : State) : Res := .next (runReg c (.addia x imm) 2 (fun r => r.setA x (r.ar x + imm)) s)
def execLdx (c : Nat) (x y : BitVec 3) (imm : BitVec 16) (s : State) : Res :=
  .next (loadOp c (.ldx x y imm) 3 (fun r => r.ar y + imm) (fun b r => r.setD x b) s)
def execStx (c : Nat) (x y : BitVec 3) (imm : BitVec 16) (s : State) : Res := .next (storeOp c (.stx x y imm) 3 (fun r => r.ar y + imm) x id s)

/-- An odd address or displacement is illegal (R282, R283). -/
def evenOnly (c : Nat) (v : BitVec 16) (f : State → State) (s : State) : State := if v.getLsbD 0 then illegal c s else f s

def execJmpl (c : Nat) (addr : BitVec 16) (s : State) : Res := .next (evenOnly c addr (runReg c (.jmpl addr) 2 (fun r => { r with pc := addr })) s)
def execJsrl (c : Nat) (addr : BitVec 16) (s : State) : Res := .next (evenOnly c addr (callTo c (.jsrl addr) 4 (fun _ => addr)) s)
def execBzl (c : Nat) (x : BitVec 3) (disp : BitVec 16) (s : State) : Res :=
  .next (evenOnly c disp (branch c (.bzl x disp) 3 (fun r => r.dr x = 0) disp) s)
def execBnzl (c : Nat) (x : BitVec 3) (disp : BitVec 16) (s : State) : Res :=
  .next (evenOnly c disp (branch c (.bnzl x disp) 3 (fun r => r.dr x ≠ 0) disp) s)

/-- Lane j of an accumulator, bits 8j + 7 to 8j. -/
def lane (w : BitVec 512) (j : BitVec 6) : BitVec 8 := (w >>> (8 * j.toNat)).setWidth 8
def setLane (w : BitVec 512) (j : BitVec 6) (b : BitVec 8) : BitVec 512 :=
  (w &&& ~~~((0xFF : BitVec 512) <<< (8 * j.toNat))) ||| (b.setWidth 512 <<< (8 * j.toNat))

def execWgetb (c : Nat) (x : BitVec 3) (y : BitVec 2) (j : BitVec 6) (s : State) : Res :=
  .next (runReg c (.wgetb x y j) 2 (fun r => r.setD x (lane (r.wr y) j)) s)
def execWputb (c : Nat) (y : BitVec 2) (x : BitVec 3) (j : BitVec 6) (s : State) : Res :=
  .next (runReg c (.wputb y x j) 2 (fun r => r.setW y (setLane (r.wr y) j (r.dr x))) s)
def execWceq (c : Nat) (x : BitVec 3) (y z : BitVec 2) (s : State) : Res :=
  .next (runReg c (.wceq x y z) 2 (fun r => r.setD x (flag8 (r.wr y = r.wr z))) s)

/-! ### Long, resumable (R284) -/

def execMovb (c : Nat) (x y dc : BitVec 3) (s : State) : Res :=
  if x = y then .next (illegal c s)
  else
    .next (runLong c (.movb x y dc) 1 dc (fun r s =>
      (loadByte c (r.ar y) r.sup s).bind fun b s => (storeByte c (r.ar x) b r.sup s).bind fun _ s =>
        .ok (fun z => (z.setA x (r.ar x + 1)).setA y (r.ar y + 1)) s) s)

def execCmpb (c : Nat) (x y dc dd : BitVec 3) (s : State) : Res :=
  if x = y || dd = dc then .next (illegal c s)
  else
    .next (runLong c (.cmpb x y dc dd) 1 dc (fun r s =>
      (loadByte c (r.ar x) r.sup s).bind fun a s => (loadByte c (r.ar y) r.sup s).bind fun b s =>
        .ok (fun z => ((z.setD dd (z.dr dd ||| (a ^^^ b))).setA x (r.ar x + 1)).setA y (r.ar y + 1)) s) s)

def execFillb (c : Nat) (x y dc : BitVec 3) (s : State) : Res :=
  .next (runLong c (.fillb x y dc) 1 dc (fun r s =>
    (storeByte c (r.ar x) (r.dr y) r.sup s).bind fun _ s => .ok (fun z => z.setA x (r.ar x + 1)) s) s)

/-- WMACB: Wx and Ws must differ. -/
def execWmacb (c : Nat) (x ws : BitVec 2) (y dc : BitVec 3) (s : State) : Res :=
  if x = ws then .next (illegal c s)
  else
    .next (runLong c (.wmacb x ws y dc) 2 dc (fun r s =>
      (loadByte c (r.ar y) r.sup s).bind fun b s =>
        .ok (fun z => ((z.setW x (r.wr x + r.wr ws * b.setWidth 512)).setW ws (r.wr ws <<< 8)).setA y (r.ar y + 1)) s) s)

/-- The address step of XIN and XOUT. -/
def incBy (inc : Bool) : BitVec 16 := if inc then 1 else 0

def execXin (c : Nat) (x : BitVec 2) (y dc : BitVec 3) (inc : Bool) (s : State) : Res :=
  .next (runLong c (.xin x y dc inc) 1 dc (fun r s =>
    (loadByte c (r.ar y) r.sup s).bind fun b s =>
      .ok (fun z => (z.setW x ((r.wr x >>> 8) ||| (b.setWidth 512 <<< 504))).setA y (r.ar y + incBy inc)) s) s)

def execXout (c : Nat) (y : BitVec 3) (x : BitVec 2) (dc : BitVec 3) (inc : Bool) (s : State) : Res :=
  .next (runLong c (.xout y x dc inc) 1 dc (fun r s =>
    (storeByte c (r.ar y) ((r.wr x).setWidth 8) r.sup s).bind fun _ s =>
      .ok (fun z => (z.setW x (r.wr x >>> 8)).setA y (r.ar y + incBy inc)) s) s)

/-- ILLEGAL_INSTRUCTION: a reserved bit, an op that is not listed, or a forbidden register combination (R281). -/
def execIllegalInstruction (c : Nat) (s : State) : Res := .next (illegal c s)

end Sys2Proof.Machine
end

