-- ==== Sys2Proof/Machine/Tap.lean ====
section
/-! DEFINITION. TAP instructions on the gallery port (R388-R392, R451). -/

namespace Sys2Proof.Machine
open Sys2Proof

/-- What shifts out. -/
def tapOut (b : Bytes) (s : State) : State := { s with out := { s.out with tap := b } }

/-- An instruction that needs a right in force: without it nothing happens but event 58 (R391, R394). -/
def underRight (ok : Bool) (f : State → State) (s : State) : State := if ok then f s else raiseIsland 58 (tapOut [] s)

/-- Register i of a core: D, A, W, PC, SR. -/
def Core.readReg (x : Core) (i : Nat) : Bytes :=
  if i < 8 then [x.dr (BitVec.ofNat 3 i)]
  else if i < 16 then leBytes 2 (x.ar (BitVec.ofNat 3 (i - 8))).toNat
  else if i < 20 then leBytes 64 (x.wr (BitVec.ofNat 2 (i - 16))).toNat
  else if i = 20 then leBytes 2 x.pc.toNat
  else [x.sr]

def Core.writeReg (x : Core) (i v : Nat) : Core :=
  if i < 8 then x.setD (BitVec.ofNat 3 i) (BitVec.ofNat 8 v)
  else if i < 16 then x.setA (BitVec.ofNat 3 (i - 8)) (BitVec.ofNat 16 v)
  else if i < 20 then x.setW (BitVec.ofNat 2 (i - 16)) (BitVec.ofNat 512 v)
  else if i = 20 then { x with pc := evenPc (BitVec.ofNat 16 v) }
  else { x with sup := v.testBit 7, ie := v.testBit 6, rsm := v.testBit 5 }

/-- The range lies in staging blocks held by commands of lease k. -/
def State.stagingOf (s : State) (k a n : Nat) : Bool :=
  (List.range n).all fun i => s.cmds.any fun e => e.2.lease = k && e.2.blocks.contains ((a + i - stagingBase) / 4096)

/-- The right that opens a range of memory: 4 island SRAM below its top 256 KiB, 5 pages and 6 staging held by the named lease. -/
def State.mayRead (s : State) (a n : Nat) : Bool :=
  let r := s.galRights
  let k := s.gal.lease.toNat
  if islandSram ≤ a && a + n ≤ islandSram + 0xC0000 then r.getLsbD 4
  else if 0x10000000 ≤ a && a < 0x10000000 + s.nBench * 0x200000 then
    r.getLsbD 5 && !s.benchShut ((a - 0x10000000) / 0x200000) && s.inPages ((a - 0x10000000) / 0x200000) k a n
  else if stagingBase ≤ a && a + n ≤ stagingBase + 0x1000000 then r.getLsbD 6 && s.stagingOf k a n
  else false

/-- Bytes of control registers, in rising order of their addresses, as an island master reads them. -/
def tapRegs : Nat → Nat → State → Bytes × State
  | _, 0, s => ([], s)
  | a, n + 1, s =>
    match regRead .dma a s with
    | none => let (b, s) := tapRegs (a + 1) n (raiseIsland 48 s); (0 :: b, s)
    | some (x, s) => let (b, s) := tapRegs (a + 1) n s; (x :: b, s)

/-- Package flash that the gallery never reads: yard store, life-cycle journal, identity region, ledger key store (R389, R447). -/
def flashHidden (o n : Nat) : Bool :=
  let meets := fun (lo hi : Nat) => o < hi && lo < o + n
  meets 0x3000000 0x3800000 || meets 0x3F00000 0x3F20000 || meets 0x3F30000 0x3F80000

/-- The gallery's reads of the lines of a range, through its own line buffer (R449, R459). -/
def tapLines : Nat → Nat → Nat → State → Bytes × State
  | 0, _, _, s => ([], s)
  | fuel + 1, o, n, s =>
    if n = 0 then ([], s)
    else
      let m := min n (32 - o % 32)
      match flashRead 66 o m false (s.foundEcc o) s with
      | (.ok b, s) => let (r, s) := tapLines fuel (o + m) (n - m) s; (b ++ r, s)
      | (_, s) => ([], s)

/-- A gallery read of package flash: zeros with event 58 for a hidden region, zeros with event 4 where it reaches a busy bank (R451). -/
def tapFlash (o n : Nat) (s : State) : State :=
  if flashHidden o n then raiseIsland 58 (tapOut (List.replicate n 0) s)
  else if (List.range 4).any fun b => s.bankBusy b && o < (b + 1) * 0x1000000 && b * 0x1000000 < o + n then
    raiseFlash 4 (tapOut (List.replicate n 0) s)
  else
    let (b, s) := tapLines (n / 32 + 2) o n s
    tapOut b s

/-- A gallery read of memory: where it takes a held byte, nothing shifts out but event 29 is raised (R174). -/
def tapMemory (a n : Nat) (s : State) : State :=
  match s.heldIn a n with
  | some x => engineEvent (5 * x.bench + 3) 5 x.lease (tapOut [] s)
  | none => tapOut (s.ramRead a n) s

/-- The dispatcher's trace: the tick counter and the swap that is pending (R48, R389). -/
def State.dispatchTrace (s : State) : Bytes := leBytes 8 s.dsp.tick.toNat ++ leBytes 4 (dspRead 0xC s)

/-- The fuses other than the UDS, in the order in which R376 names them. -/
def State.fuses (s : State) : Bytes :=
  let l := s.lcs
  leBytes 2 l.pairs.toNat ++ leBytes 8 (2 ^ l.count - 1) ++ s.ident.unit ++ l.token1 ++ l.token2 ++ l.udsCheck ++ l.ownerFuse ++ l.manFuse ++ l.estateFuse

/-- What shifts out under a right that has no instruction of its own here: the dispatcher's trace, the fuses; free bytes under the others (log 145).
-/
def tapOther (r n : Nat) (s : State) : State :=
  if r = 10 then tapOut (fixLen n s.dispatchTrace) s
  else if r = 26 then tapOut (fixLen n s.fuses) s
  else (tapOut (s.freeBytes n) s).useFree n

/-- TAP_INSTRUCTION. A scrapped part answers on no interface (R384). -/
def execTapInstruction (op : TapOp) (s : State) : Res :=
  if !s.powered || s.lcs.state = .scrapped then .next s
  else
    match op with
    | .idcode => .next (tapOut Config.idcode s)
    | .bypass => .next (tapOut [] s)
    | .rights => .next (underRight (s.galRights ≠ 0) (tapOut (leBytes 4 s.galRights.toNat)) s)
    | .halt c => .next (underRight (s.mayHalt c) (fun s => s.modCore c fun x => { stopLong x with halted := true, stepOne := false }) s)
    | .resume c => .next (underRight (s.mayHalt c) (fun s => s.modCore c fun x => { x with halted := false, stepOne := false }) s)
    | .step c => .next (underRight (s.mayHalt c) (fun s => s.modCore c fun x => { x with stepOne := x.halted }) s)
    | .readCore c i => .next (underRight (s.mayHalt c) (tapOut ((s.core c).readReg i)) s)
    | .writeCore c i v => .next (underRight (s.mayHalt c) (fun s => s.modCore c fun x => x.writeReg i v) s)
    | .readMemory a n => .next (underRight (s.mayRead a n) (tapMemory a n) s)
    | .readRegister a n => .next (underRight (s.galRights.getLsbD 7) (fun s => let (b, s) := tapRegs a n s; tapOut b s) s)
    | .readFlash o n =>
      if flashSize < o + n then .next s else .next (underRight (s.galRights.getLsbD 11) (tapFlash o n) s)
    | .other r n => .next (underRight (s.galRights.getLsbD r) (tapOther r n) s)

end Sys2Proof.Machine
end

