-- ==== Sys2Proof/Machine/Dispatch.lean ====
section
/-! DEFINITION. The meaning of each command: one arm for each constructor, each a direct call. -/

namespace Sys2Proof.Machine
open Sys2Proof

/-- What a command does to everything but the queue. -/
def exec (i : Instr) (s : State) : Host.Outcome State Fault Refusal :=
  match i with
  | .registerWrite m addr data e => Sys2Proof.Machine.execRegisterWrite m addr data e s
  | .decodeAccess m addr write => Sys2Proof.Machine.execDecodeAccess m addr write s
  | .tick ecc => Sys2Proof.Machine.execTick ecc s
  | .faultNotify => Sys2Proof.Machine.execFaultNotify s
  | .faultPulseEnd => Sys2Proof.Machine.execFaultPulseEnd s
  | .shadowCapture => Sys2Proof.Machine.execShadowCapture s
  | .frameSwap => Sys2Proof.Machine.execFrameSwap s
  | .dspGo => Sys2Proof.Machine.execDspGo s
  | .dspCancel => Sys2Proof.Machine.execDspCancel s
  | .shadowTableWrite off val => Sys2Proof.Machine.execShadowTableWrite off val s
  | .benQuarantineWrite n => Sys2Proof.Machine.execBenQuarantineWrite n s
  | .benReturn n => Sys2Proof.Machine.execBenReturn n s
  | .benchQuarantine n => Sys2Proof.Machine.execBenchQuarantine n s
  | .benchWipeDone n => Sys2Proof.Machine.execBenchWipeDone n s
  | .leaseQuarantine k => Sys2Proof.Machine.execLeaseQuarantine k s
  | .replacementSearch n => Sys2Proof.Machine.execReplacementSearch n s
  | .wakeAdmission => Sys2Proof.Machine.execWakeAdmission s
  | .benchRampEnd n railsGood => Sys2Proof.Machine.execBenchRampEnd n railsGood s
  | .benchIdleOff n => Sys2Proof.Machine.execBenchIdleOff n s
  | .pwrOffWrite mask => Sys2Proof.Machine.execPwrOffWrite mask s
  | .pwrWakeWrite mask => Sys2Proof.Machine.execPwrWakeWrite mask s
  | .doorbellWrite k q v => Sys2Proof.Machine.execDoorbellWrite k q v s
  | .cqDoorbellWrite k q v => Sys2Proof.Machine.execCqDoorbellWrite k q v s
  | .entryFetch k q f => Sys2Proof.Machine.execEntryFetch k q f s
  | .yardLineFill n slot => Sys2Proof.Machine.execYardLineFill n slot s
  | .commandStaged h => Sys2Proof.Machine.execCommandStaged h s
  | .completionWrite h => Sys2Proof.Machine.execCompletionWrite h s
  | .irqAgeExpiry k q => Sys2Proof.Machine.execIrqAgeExpiry k q s
  | .queueEnable k q => Sys2Proof.Machine.execQueueEnable k q s
  | .queueReset k q => Sys2Proof.Machine.execQueueReset k q s
  | .queueResetDone k q => Sys2Proof.Machine.execQueueResetDone k q s
  | .hqQcfgWrite k q v => Sys2Proof.Machine.execHqQcfgWrite k q v s
  | .barDecodeAccess fn off write => Sys2Proof.Machine.execBarDecodeAccess fn off write s
  | .vfFlr k => Sys2Proof.Machine.execVfFlr k s
  | .pfFlr => Sys2Proof.Machine.execPfFlr s
  | .sriovNumvfsWrite n => Sys2Proof.Machine.execSriovNumvfsWrite n s
  | .pcieLinkChange up speed => Sys2Proof.Machine.execPcieLinkChange up speed s
  | .pciePerst => Sys2Proof.Machine.execPciePerst s
  | .nop h => Sys2Proof.Machine.execNop h s
  | .digest h => Sys2Proof.Machine.execDigest h s
  | .macGen h => Sys2Proof.Machine.execMacGen h s
  | .macVerify h => Sys2Proof.Machine.execMacVerify h s
  | .cbcEnc h => Sys2Proof.Machine.execCbcEnc h s
  | .cbcDec h => Sys2Proof.Machine.execCbcDec h s
  | .ctr h => Sys2Proof.Machine.execCtr h s
  | .gcmEnc h => Sys2Proof.Machine.execGcmEnc h s
  | .gcmEncRiv h => Sys2Proof.Machine.execGcmEncRiv h s
  | .gcmDec h => Sys2Proof.Machine.execGcmDec h s
  | .cmacGen h => Sys2Proof.Machine.execCmacGen h s
  | .cmacVerify h => Sys2Proof.Machine.execCmacVerify h s
  | .rsaPriv h bad => Sys2Proof.Machine.execRsaPriv h bad s
  | .rsaPub h => Sys2Proof.Machine.execRsaPub h s
  | .edSign h bad => Sys2Proof.Machine.execEdSign h bad s
  | .edVerify h => Sys2Proof.Machine.execEdVerify h s
  | .ecdsaSign h bad => Sys2Proof.Machine.execEcdsaSign h bad s
  | .ecdsaVerify h => Sys2Proof.Machine.execEcdsaVerify h s
  | .x25519 h bad => Sys2Proof.Machine.execX25519 h bad s
  | .ecdh h bad => Sys2Proof.Machine.execEcdh h bad s
  | .keygenEc h bad => Sys2Proof.Machine.execKeygenEc h bad s
  | .mldsaKeygen h => Sys2Proof.Machine.execMldsaKeygen h s
  | .mldsaSign h bad => Sys2Proof.Machine.execMldsaSign h bad s
  | .mldsaVerify h => Sys2Proof.Machine.execMldsaVerify h s
  | .mlkemKeygen h => Sys2Proof.Machine.execMlkemKeygen h s
  | .mlkemEncaps h => Sys2Proof.Machine.execMlkemEncaps h s
  | .mlkemDecaps h => Sys2Proof.Machine.execMlkemDecaps h s
  | .hybSign h inv vbr => Sys2Proof.Machine.execHybSign h inv vbr s
  | .hybVerify h => Sys2Proof.Machine.execHybVerify h s
  | .keyGen h => Sys2Proof.Machine.execKeyGen h s
  | .keyWrap h => Sys2Proof.Machine.execKeyWrap h s
  | .keyUnwrap h => Sys2Proof.Machine.execKeyUnwrap h s
  | .keyDerive h => Sys2Proof.Machine.execKeyDerive h s
  | .keyPub h bad => Sys2Proof.Machine.execKeyPub h bad s
  | .keyInval h => Sys2Proof.Machine.execKeyInval h s
  | .keyInfo h => Sys2Proof.Machine.execKeyInfo h s
  | .rngGet h => Sys2Proof.Machine.execRngGet h s
  | .prgCall h => Sys2Proof.Machine.execPrgCall h s
  | .hostCallDelivery h => Sys2Proof.Machine.execHostCallDelivery h s
  | .cutJctlGo core odd count => Sys2Proof.Machine.execCutJctlGo core odd count s
  | .cutLoad q k => Sys2Proof.Machine.execCutLoad q k s
  | .cutStore q k => Sys2Proof.Machine.execCutStore q k s
  | .yload q k => Sys2Proof.Machine.execYload q k s
  | .ystore q k => Sys2Proof.Machine.execYstore q k s
  | .madd q k => Sys2Proof.Machine.execMadd q k s
  | .msub q k => Sys2Proof.Machine.execMsub q k s
  | .mmul q k => Sys2Proof.Machine.execMmul q k s
  | .mprep q k => Sys2Proof.Machine.execMprep q k s
  | .minv q k => Sys2Proof.Machine.execMinv q k s
  | .mexp q k => Sys2Proof.Machine.execMexp q k s
  | .pmul q k => Sys2Proof.Machine.execPmul q k s
  | .cutPadd q k => Sys2Proof.Machine.execCutPadd q k s
  | .releasePub q k => Sys2Proof.Machine.execReleasePub q k s
  | .releasePt q k => Sys2Proof.Machine.execReleasePt q k s
  | .cutNative q k bad => Sys2Proof.Machine.execCutNative q k bad s
  | .cutCtlClr q k => Sys2Proof.Machine.execCutCtlClr q k s
  | .splCtlClr q k => Sys2Proof.Machine.execSplCtlClr q k s
  | .wdgCtlClr q k => Sys2Proof.Machine.execWdgCtlClr q k s
  | .digCtlClr q k => Sys2Proof.Machine.execDigCtlClr q k s
  | .engineRecordClear q => Sys2Proof.Machine.execEngineRecordClear q s
  | .splJctlGo core count => Sys2Proof.Machine.execSplJctlGo core count s
  | .pload q k => Sys2Proof.Machine.execPload q k s
  | .pstore q k => Sys2Proof.Machine.execPstore q k s
  | .pntt q k => Sys2Proof.Machine.execPntt q k s
  | .pintt q k => Sys2Proof.Machine.execPintt q k s
  | .pmult q k => Sys2Proof.Machine.execPmult q k s
  | .splPadd q k => Sys2Proof.Machine.execSplPadd q k s
  | .psub q k => Sys2Proof.Machine.execPsub q k s
  | .splNative q k bad => Sys2Proof.Machine.execSplNative q k bad s
  | .wdgJctlGo core count => Sys2Proof.Machine.execWdgJctlGo core count s
  | .wdgRequest q k => Sys2Proof.Machine.execWdgRequest q k s
  | .digJctlGo core count => Sys2Proof.Machine.execDigJctlGo core count s
  | .digOpen n k => Sys2Proof.Machine.execDigOpen n k s
  | .digFeed n k => Sys2Proof.Machine.execDigFeed n k s
  | .digCmp n k => Sys2Proof.Machine.execDigCmp n k s
  | .digClose n k => Sys2Proof.Machine.execDigClose n k s
  | .digOwnWrite n v => Sys2Proof.Machine.execDigOwnWrite n v s
  | .heldRangeAccess m addr write => Sys2Proof.Machine.execHeldRangeAccess m addr write s
  | .yardLoadGo k n ctl => Sys2Proof.Machine.execYardLoadGo k n ctl s
  | .yardLoadDone k => Sys2Proof.Machine.execYardLoadDone k s
  | .pendingCheck slot => Sys2Proof.Machine.execPendingCheck slot s
  | .pendingClear slot => Sys2Proof.Machine.execPendingClear slot s
  | .sweeperFrame => Sys2Proof.Machine.execSweeperFrame s
  | .leaseScrub r value => Sys2Proof.Machine.execLeaseScrub r value s
  | .yardRangeWrite r value => Sys2Proof.Machine.execYardRangeWrite r value s
  | .persistRecordAppend => Sys2Proof.Machine.execPersistRecordAppend s
  | .yardStoreCompaction => Sys2Proof.Machine.execYardStoreCompaction s
  | .quorumWrite r value => Sys2Proof.Machine.execQuorumWrite r value s
  | .grantStart r value => Sys2Proof.Machine.execGrantStart r value s
  | .custodianCounted p fresh => Sys2Proof.Machine.execCustodianCounted p fresh s
  | .grantWindowExpiry => Sys2Proof.Machine.execGrantWindowExpiry s
  | .grantExpiry k => Sys2Proof.Machine.execGrantExpiry k s
  | .grantRevoke r value => Sys2Proof.Machine.execGrantRevoke r value s
  | .ceremonyStart r value => Sys2Proof.Machine.execCeremonyStart r value s
  | .ceremonyClose r value => Sys2Proof.Machine.execCeremonyClose r value s
  | .ceremonyTimeout => Sys2Proof.Machine.execCeremonyTimeout s
  | .keyLoadingCeremony ep q => Sys2Proof.Machine.execKeyLoadingCeremony ep q s
  | .rngWarmupEnd katOk => Sys2Proof.Machine.execRngWarmupEnd katOk s
  | .rngTestEnd => Sys2Proof.Machine.execRngTestEnd s
  | .rngReady => Sys2Proof.Machine.execRngReady s
  | .rngSourceExcluded idx apt => Sys2Proof.Machine.execRngSourceExcluded idx apt s
  | .rngRetestWrite v => Sys2Proof.Machine.execRngRetestWrite v s
  | .rngRetestEnd idx => Sys2Proof.Machine.execRngRetestEnd idx s
  | .rngRestartWrite => Sys2Proof.Machine.execRngRestartWrite s
  | .rngAutoRestart => Sys2Proof.Machine.execRngAutoRestart s
  | .seedConditioned => Sys2Proof.Machine.execSeedConditioned s
  | .expanderReseed e => Sys2Proof.Machine.execExpanderReseed e s
  | .expanderStretch e => Sys2Proof.Machine.execExpanderStretch e s
  | .expanderBlocked e => Sys2Proof.Machine.execExpanderBlocked e s
  | .rngMaskWrite v => Sys2Proof.Machine.execRngMaskWrite v s
  | .rngPortRead c n => Sys2Proof.Machine.execRngPortRead c n s
  | .rngPortWrite c => Sys2Proof.Machine.execRngPortWrite c s
  | .hostRebootRequest => Sys2Proof.Machine.execHostRebootRequest s
  | .bmcPortDisconnect csHigh => Sys2Proof.Machine.execBmcPortDisconnect csHigh s
  | .manifestReverify readOk => Sys2Proof.Machine.execManifestReverify readOk s
  | .portDiscovery a b => Sys2Proof.Machine.execPortDiscovery a b s
  | .regionMeasure x => Sys2Proof.Machine.execRegionMeasure x s
  | .gateRecovery backups regions => Sys2Proof.Machine.execGateRecovery backups regions s
  | .ledgerRecordWrite first second => Sys2Proof.Machine.execLedgerRecordWrite first second s
  | .releaseSequence => Sys2Proof.Machine.execReleaseSequence s
  | .flgHold => Sys2Proof.Machine.execFlgHold s
  | .flgRelease => Sys2Proof.Machine.execFlgRelease s
  | .flgBmcbWrite v => Sys2Proof.Machine.execFlgBmcbWrite v s
  | .operatorRelease r value => Sys2Proof.Machine.execOperatorRelease r value s
  | .recoveryRequest r value => Sys2Proof.Machine.execRecoveryRequest r value s
  | .portBOwnerWrite r value => Sys2Proof.Machine.execPortBOwnerWrite r value s
  | .ackseqWrite r value => Sys2Proof.Machine.execAckseqWrite r value s
  | .recordSelectorWrite r value => Sys2Proof.Machine.execRecordSelectorWrite r value s
  | .tagCommitRetry => Sys2Proof.Machine.execTagCommitRetry s
  | .spdmGetVersion c => Sys2Proof.Machine.execSpdmGetVersion c s
  | .spdmGetCapabilities c ver => Sys2Proof.Machine.execSpdmGetCapabilities c ver s
  | .spdmNegotiateAlgorithms c ed p384 offer => Sys2Proof.Machine.execSpdmNegotiateAlgorithms c ed p384 offer s
  | .spdmGetDigests c => Sys2Proof.Machine.execSpdmGetDigests c s
  | .spdmGetCertificate c slot off len => Sys2Proof.Machine.execSpdmGetCertificate c slot off len s
  | .spdmChallenge c slot transcript failed => Sys2Proof.Machine.execSpdmChallenge c slot transcript failed s
  | .spdmGetMeasurements c index sign sess transcript failed => Sys2Proof.Machine.execSpdmGetMeasurements c index sign sess transcript failed s
  | .spdmKeyExchange c exchange transcript failed => Sys2Proof.Machine.execSpdmKeyExchange c exchange transcript failed s
  | .spdmFinish c idx good => Sys2Proof.Machine.execSpdmFinish c idx good s
  | .spdmHeartbeat c idx => Sys2Proof.Machine.execSpdmHeartbeat c idx s
  | .spdmKeyUpdate c idx op tag => Sys2Proof.Machine.execSpdmKeyUpdate c idx op tag s
  | .spdmEndSession c idx => Sys2Proof.Machine.execSpdmEndSession c idx s
  | .spdmVendorDefinedRequest c sess payload => Sys2Proof.Machine.execSpdmVendorDefinedRequest c sess payload s
  | .ideKmKeyProg idx keys => Sys2Proof.Machine.execIdeKmKeyProg idx keys s
  | .trvNop c => Sys2Proof.Machine.execTrvNop c s
  | .mov c x y => Sys2Proof.Machine.execMov c x y s
  | .add c x y => Sys2Proof.Machine.execAdd c x y s
  | .sub c x y => Sys2Proof.Machine.execSub c x y s
  | .adc c x y => Sys2Proof.Machine.execAdc c x y s
  | .sbc c x y => Sys2Proof.Machine.execSbc c x y s
  | .and c x y => Sys2Proof.Machine.execAnd c x y s
  | .or c x y => Sys2Proof.Machine.execOr c x y s
  | .xor c x y => Sys2Proof.Machine.execXor c x y s
  | .not c x => Sys2Proof.Machine.execNot c x s
  | .shl c x y => Sys2Proof.Machine.execShl c x y s
  | .shr c x y => Sys2Proof.Machine.execShr c x y s
  | .mul c x y => Sys2Proof.Machine.execMul c x y s
  | .ceq c x y => Sys2Proof.Machine.execCeq c x y s
  | .cltu c x y => Sys2Proof.Machine.execCltu c x y s
  | .clts c x y => Sys2Proof.Machine.execClts c x y s
  | .cnz c x => Sys2Proof.Machine.execCnz c x s
  | .mask c x => Sys2Proof.Machine.execMask c x s
  | .mova c x y => Sys2Proof.Machine.execMova c x y s
  | .adda c x y => Sys2Proof.Machine.execAdda c x y s
  | .suba c x y => Sys2Proof.Machine.execSuba c x y s
  | .setal c x y => Sys2Proof.Machine.execSetal c x y s
  | .setah c x y => Sys2Proof.Machine.execSetah c x y s
  | .getal c x y => Sys2Proof.Machine.execGetal c x y s
  | .getah c x y => Sys2Proof.Machine.execGetah c x y s
  | .ld c x y => Sys2Proof.Machine.execLd c x y s
  | .st c x y => Sys2Proof.Machine.execSt c x y s
  | .ldPostinc c x y => Sys2Proof.Machine.execLdPostinc c x y s
  | .stPostinc c x y => Sys2Proof.Machine.execStPostinc c x y s
  | .push c x => Sys2Proof.Machine.execPush c x s
  | .pop c x => Sys2Proof.Machine.execPop c x s
  | .pusha c x => Sys2Proof.Machine.execPusha c x s
  | .popa c x => Sys2Proof.Machine.execPopa c x s
  | .wclr c x => Sys2Proof.Machine.execWclr c x s
  | .wmov c x y => Sys2Proof.Machine.execWmov c x y s
  | .wadd c x y => Sys2Proof.Machine.execWadd c x y s
  | .wsub c x y => Sys2Proof.Machine.execWsub c x y s
  | .wxor c x y => Sys2Proof.Machine.execWxor c x y s
  | .wand c x y => Sys2Proof.Machine.execWand c x y s
  | .wshl8 c x => Sys2Proof.Machine.execWshl8 c x s
  | .wshr8 c x => Sys2Proof.Machine.execWshr8 c x s
  | .jmp c y => Sys2Proof.Machine.execJmp c y s
  | .jsr c y => Sys2Proof.Machine.execJsr c y s
  | .rts c => Sys2Proof.Machine.execRts c s
  | .rte c => Sys2Proof.Machine.execRte c s
  | .trap c n => Sys2Proof.Machine.execTrap c n s
  | .hostret c => Sys2Proof.Machine.execHostret c s
  | .islandServiceRequest c n => Sys2Proof.Machine.execIslandServiceRequest c n s
  | .islandServiceComplete c => Sys2Proof.Machine.execIslandServiceComplete c s
  | .waitt c => Sys2Proof.Machine.execWaitt c s
  | .getsr c x => Sys2Proof.Machine.execGetsr c x s
  | .setsr c y => Sys2Proof.Machine.execSetsr c y s
  | .getid c x y => Sys2Proof.Machine.execGetid c x y s
  | .gettk c x => Sys2Proof.Machine.execGettk c x s
  | .movi c r imm => Sys2Proof.Machine.execMovi c r imm s
  | .addi c r imm => Sys2Proof.Machine.execAddi c r imm s
  | .andi c r imm => Sys2Proof.Machine.execAndi c r imm s
  | .xori c r imm => Sys2Proof.Machine.execXori c r imm s
  | .ceqi c r imm => Sys2Proof.Machine.execCeqi c r imm s
  | .cltui c r imm => Sys2Proof.Machine.execCltui c r imm s
  | .bz c r disp => Sys2Proof.Machine.execBz c r disp s
  | .bnz c r disp => Sys2Proof.Machine.execBnz c r disp s
  | .bra c disp => Sys2Proof.Machine.execBra c disp s
  | .movia c x imm => Sys2Proof.Machine.execMovia c x imm s
  | .addia c x imm => Sys2Proof.Machine.execAddia c x imm s
  | .ldx c x y imm => Sys2Proof.Machine.execLdx c x y imm s
  | .stx c x y imm => Sys2Proof.Machine.execStx c x y imm s
  | .jmpl c addr => Sys2Proof.Machine.execJmpl c addr s
  | .jsrl c addr => Sys2Proof.Machine.execJsrl c addr s
  | .bzl c x disp => Sys2Proof.Machine.execBzl c x disp s
  | .bnzl c x disp => Sys2Proof.Machine.execBnzl c x disp s
  | .wgetb c x y j => Sys2Proof.Machine.execWgetb c x y j s
  | .wputb c y x j => Sys2Proof.Machine.execWputb c y x j s
  | .wceq c x y z => Sys2Proof.Machine.execWceq c x y z s
  | .movb c x y dc => Sys2Proof.Machine.execMovb c x y dc s
  | .cmpb c x y dc dd => Sys2Proof.Machine.execCmpb c x y dc dd s
  | .fillb c x y dc => Sys2Proof.Machine.execFillb c x y dc s
  | .wmacb c x ws y dc => Sys2Proof.Machine.execWmacb c x ws y dc s
  | .xin c x y dc inc => Sys2Proof.Machine.execXin c x y dc inc s
  | .xout c y x dc inc => Sys2Proof.Machine.execXout c y x dc inc s
  | .illegalInstruction c => Sys2Proof.Machine.execIllegalInstruction c s
  | .interruptEntry c => Sys2Proof.Machine.execInterruptEntry c s
  | .fncCtlWrite c v => Sys2Proof.Machine.execFncCtlWrite c v s
  | .fncWinWrite c idx v => Sys2Proof.Machine.execFncWinWrite c idx v s
  | .fncFenWrite c idx v => Sys2Proof.Machine.execFncFenWrite c idx v s
  | .programLoad r d => Sys2Proof.Machine.execProgramLoad r d s
  | .programVerifyDone k stored => Sys2Proof.Machine.execProgramVerifyDone k stored s
  | .programPageCopy k => Sys2Proof.Machine.execProgramPageCopy k s
  | .programKeyWrite r value => Sys2Proof.Machine.execProgramKeyWrite r value s
  | .programMinsvnWrite r value => Sys2Proof.Machine.execProgramMinsvnWrite r value s
  | .cardInserted => Sys2Proof.Machine.execCardInserted s
  | .cardRemoved lastSent => Sys2Proof.Machine.execCardRemoved lastSent s
  | .crdAct => Sys2Proof.Machine.execCrdAct s
  | .crdDeact lastSent => Sys2Proof.Machine.execCrdDeact lastSent s
  | .crdSend ans => Sys2Proof.Machine.execCrdSend ans s
  | .atrReceived atr late => Sys2Proof.Machine.execAtrReceived atr late s
  | .atrTimeout => Sys2Proof.Machine.execAtrTimeout s
  | .ppsResponse resp => Sys2Proof.Machine.execPpsResponse resp s
  | .ppsTimeout => Sys2Proof.Machine.execPpsTimeout s
  | .wwtTimeout lastSent => Sys2Proof.Machine.execWwtTimeout lastSent s
  | .t1BwtTimeout lastSent => Sys2Proof.Machine.execT1BwtTimeout lastSent s
  | .apduExchangeTimeout lastSent => Sys2Proof.Machine.execApduExchangeTimeout lastSent s
  | .cardSelect p ans => Sys2Proof.Machine.execCardSelect p ans s
  | .getCred p ans => Sys2Proof.Machine.execGetCred p ans s
  | .auth p ans => Sys2Proof.Machine.execAuth p ans s
  | .readObj p obj ans => Sys2Proof.Machine.execReadObj p obj ans s
  | .writeObj p obj ans => Sys2Proof.Machine.execWriteObj p obj ans s
  | .checkObj p obj ans => Sys2Proof.Machine.execCheckObj p obj ans s
  | .getResponse ans => Sys2Proof.Machine.execGetResponse ans s
  | .lpcdPing amp => Sys2Proof.Machine.execLpcdPing amp s
  | .wupa answered => Sys2Proof.Machine.execWupa answered s
  | .reqa answered => Sys2Proof.Machine.execReqa answered s
  | .anticollision answer coll => Sys2Proof.Machine.execAnticollision answer coll s
  | .readerSelect sak => Sys2Proof.Machine.execReaderSelect sak s
  | .rats ta1 fwi => Sys2Proof.Machine.execRats ta1 fwi s
  | .hlta => Sys2Proof.Machine.execHlta s
  | .ctlSend ans => Sys2Proof.Machine.execCtlSend ans s
  | .ctlHalt => Sys2Proof.Machine.execCtlHalt s
  | .ctlOff lastSent => Sys2Proof.Machine.execCtlOff lastSent s
  | .ctlLpcdEnable on => Sys2Proof.Machine.execCtlLpcdEnable on s
  | .tagFieldOn => Sys2Proof.Machine.execTagFieldOn s
  | .tagFieldOff => Sys2Proof.Machine.execTagFieldOff s
  | .tagWake wupa rows => Sys2Proof.Machine.execTagWake wupa rows s
  | .tagSelect => Sys2Proof.Machine.execTagSelect s
  | .tagRead area off le => Sys2Proof.Machine.execTagRead area off le s
  | .tagVerify p2 attempt => Sys2Proof.Machine.execTagVerify p2 attempt s
  | .noteWrite off data => Sys2Proof.Machine.execNoteWrite off data s
  | .noteCommit len => Sys2Proof.Machine.execNoteCommit len s
  | .tagWcmtGo area len => Sys2Proof.Machine.execTagWcmtGo area len s
  | .tagCommitDone => Sys2Proof.Machine.execTagCommitDone s
  | .officerQuorumWrite r value => Sys2Proof.Machine.execOfficerQuorumWrite r value s
  | .tagPasswordWrite r value => Sys2Proof.Machine.execTagPasswordWrite r value s
  | .attemptsReset r value => Sys2Proof.Machine.execAttemptsReset r value s
  | .hello r offers => Sys2Proof.Machine.execHello r offers s
  | .read r => Sys2Proof.Machine.execRead r s
  | .write r value => Sys2Proof.Machine.execWrite r value s
  | .segRead r off len gen => Sys2Proof.Machine.execSegRead r off len gen s
  | .segWriteStart r total => Sys2Proof.Machine.execSegWriteStart r total s
  | .segWrite r off d => Sys2Proof.Machine.execSegWrite r off d s
  | .segWriteEnd r fresh stored => Sys2Proof.Machine.execSegWriteEnd r fresh stored s
  | .segAbort r => Sys2Proof.Machine.execSegAbort r s
  | .info r => Sys2Proof.Machine.execInfo r s
  | .enum r first count => Sys2Proof.Machine.execEnum r first count s
  | .segSessionTimeout ep => Sys2Proof.Machine.execSegSessionTimeout ep s
  | .setEndpointId ep eid => Sys2Proof.Machine.execSetEndpointId ep eid s
  | .getEndpointId ep => Sys2Proof.Machine.execGetEndpointId ep s
  | .getMctpVersionSupport ep => Sys2Proof.Machine.execGetMctpVersionSupport ep s
  | .getMessageTypeSupport ep => Sys2Proof.Machine.execGetMessageTypeSupport ep s
  | .getVendorDefinedMsgSupport ep => Sys2Proof.Machine.execGetVendorDefinedMsgSupport ep s
  | .slotPlanWrite r d => Sys2Proof.Machine.execSlotPlanWrite r d s
  | .dictApply r value => Sys2Proof.Machine.execDictApply r value s
  | .rtcWrite r value => Sys2Proof.Machine.execRtcWrite r value s
  | .leaseRelease r value => Sys2Proof.Machine.execLeaseRelease r value s
  | .stagingQuotaWrite r value => Sys2Proof.Machine.execStagingQuotaWrite r value s
  | .severityWrite r value => Sys2Proof.Machine.execSeverityWrite r value s
  | .tokenWrite r token => Sys2Proof.Machine.execTokenWrite r token s
  | .lifecycleRequest r d => Sys2Proof.Machine.execLifecycleRequest r d s
  | .lifecycleVerifyDone => Sys2Proof.Machine.execLifecycleVerifyDone s
  | .lcsCtlGo to_ count => Sys2Proof.Machine.execLcsCtlGo to_ count s
  | .galleryCertWrite r d => Sys2Proof.Machine.execGalleryCertWrite r d s
  | .galleryRightsLapse => Sys2Proof.Machine.execGalleryRightsLapse s
  | .galleryConsentWrite r value => Sys2Proof.Machine.execGalleryConsentWrite r value s
  | .galGrantWrite v => Sys2Proof.Machine.execGalGrantWrite v s
  | .tapInstruction op => Sys2Proof.Machine.execTapInstruction op s
  | .identityRecordWrite r d => Sys2Proof.Machine.execIdentityRecordWrite r d s
  | .tamperSample idx v ms => Sys2Proof.Machine.execTamperSample idx v ms s
  | .vaultPowerOn => Sys2Proof.Machine.execVaultPowerOn s
  | .stagingLogMove => Sys2Proof.Machine.execStagingLogMove s
  | .unlockRequest r d fresh => Sys2Proof.Machine.execUnlockRequest r d fresh s
  | .officerUnlockStart r value => Sys2Proof.Machine.execOfficerUnlockStart r value s
  | .tmpUnlatch => Sys2Proof.Machine.execTmpUnlatch s
  | .tmpOvfclr => Sys2Proof.Machine.execTmpOvfclr s
  | .tmpSavedWrite v => Sys2Proof.Machine.execTmpSavedWrite v s
  | .tmpSlogRead m k => Sys2Proof.Machine.execTmpSlogRead m k s
  | .tamperResponseWrite r value => Sys2Proof.Machine.execTamperResponseWrite r value s
  | .tamperWindowWrite r value => Sys2Proof.Machine.execTamperWindowWrite r value s
  | .fltAckGo also => Sys2Proof.Machine.execFltAckGo also s
  | .fltInjGo event => Sys2Proof.Machine.execFltInjGo event s
  | .fltQRead => Sys2Proof.Machine.execFltQRead s
  | .eventQueueDrain n => Sys2Proof.Machine.execEventQueueDrain n s
  | .modeChange => Sys2Proof.Machine.execModeChange s
  | .dieTempHigh high => Sys2Proof.Machine.execDieTempHigh high s
  | .clockMonitorFault d => Sys2Proof.Machine.execClockMonitorFault d s
  | .mainPowerReset => Sys2Proof.Machine.execMainPowerReset s
  | .pltPwrokFall => Sys2Proof.Machine.execPltPwrokFall s
  | .sysRstRise straps => Sys2Proof.Machine.execSysRstRise straps s
  | .sysRstFall => Sys2Proof.Machine.execSysRstFall s
  | .supplyMonitorReset low vio3 => Sys2Proof.Machine.execSupplyMonitorReset low vio3 s
  | .resetWipeEnd => Sys2Proof.Machine.execResetWipeEnd s
  | .islandStart => Sys2Proof.Machine.execIslandStart s
  | .pflSequenceWrite off v => Sys2Proof.Machine.execPflSequenceWrite off v s
  | .program data => Sys2Proof.Machine.execProgram data s
  | .eraseSector o => Sys2Proof.Machine.execEraseSector o s
  | .eraseChip o => Sys2Proof.Machine.execEraseChip o s
  | .flashOpEnd => Sys2Proof.Machine.execFlashOpEnd s
  | .pflSwapGo => Sys2Proof.Machine.execPflSwapGo s
  | .swapPairWriteEnd => Sys2Proof.Machine.execSwapPairWriteEnd s
  | .flashRead m o n fetch e => Sys2Proof.Machine.execFlashRead m o n fetch e s
  | .tagSelection => Sys2Proof.Machine.execTagSelection s
  | .tagHalt => Sys2Proof.Machine.execTagHalt s
  | .vflBandChange high => Sys2Proof.Machine.execVflBandChange high s
  | .poisonedTlpReceived idx => Sys2Proof.Machine.execPoisonedTlpReceived idx s

end Sys2Proof.Machine
end

