-- ==== Sys2Proof/Safety.lean ====
section
/-! DEFINITION. What a run of the block owes: each step answers a next state. -/

namespace Sys2Proof
open Sys2Proof.Machine

/-- A step from the state answers a next state. -/
def Safety.goesOn (s : State) : Prop := ∃ t, step s = .next t

end Sys2Proof
end

