-- ==== Sys2Proof/Certificates/Slice0/Obligations.lean ====
section
/-! DEFINITION. The statements about the model. -/

namespace Sys2Proof.Claims
open Sys2Proof Sys2Proof.Machine

/-! ### Triven cores -/

/-- Core `c` begins an instruction of `cost` bench cycles in `s`; its fetch answers the instruction `i` of `len` bytes, none for an illegal one, and
leaves `t` (R279, R281, R282, R307, R310). -/
def Begins (c : Nat) (i : Option Triven) (len cost : Nat) (s t : State) : Prop :=
  s.mayBegin c = true ∧ (s.core c).inLong = false ∧ ¬(s.stopDue c = true ∧ 2048 < (s.core c).bc + cost) ∧ fetch c s = .ok (i, len) t

/-- A core at the end of an instruction of `len` bytes and `cost` bench cycles whose effect on the registers is `g`, PC already past it. -/
def ended (len cost : Nat) (g : Core → Core) (x : Core) : Core :=
  let y := g { x with pc := x.pc + BitVec.ofNat 16 len }
  { y with bc := y.bc + cost, boundary := false, stepOne := false, winUse := none }

/-- The state in which core `c` has ended such an instruction and nothing else is changed. -/
def endsIn (c len cost : Nat) (g : Core → Core) (t : State) : Host.Outcome State Fault Refusal :=
  .next (t.setCore c (ended len cost g (t.core c)))

/-- The row `i`, which is the instruction `w` of core `c`, completes where the core fetches `w`. -/
def Completes (i : Instr) (c : Nat) (w : Triven) (len cost : Nat) (g : Core → Core) (s t : State) : Prop :=
  Begins c (some w) len cost s t → exec i s = endsIn c len cost g t

/-- A load of the byte at device address `d` in bench memory, staging or island SRAM, which no device behind an address answers. -/
def LoadsRam (c : Nat) (a : BitVec 16) (d : Nat) (s : State) : Prop :=
  checkAccess c a.toNat .read (s.core c).sup s = .ok d s ∧ s.heldIn d 1 = none ∧ inRngPort d = false ∧ regRead (coreMaster c) d s = none ∧
    s.decodes (coreMaster c) d false = true ∧ 0x20000 ≤ d ∧ (d < flashBase ∨ flashBase + flashSize ≤ d) ∧ s.unheldPage d = none

/-- The same for a store. -/
def StoresRam (c : Nat) (a : BitVec 16) (d : Nat) (s : State) : Prop :=
  checkAccess c a.toNat .write (s.core c).sup s = .ok d s ∧ s.heldIn d 1 = none ∧ inRngPort d = false ∧ s.regAt (coreMaster c) d = none ∧
    s.decodes (coreMaster c) d true = true ∧ s.unheldPage d = none

/-- The answer `o` is a next state in which core `c` has done the last element of a long instruction in `p`: `e` bench cycles, the effect `g` of
the element on the registers, Dc 0, the instruction over. Every other core and every other field is as in `p`. -/
def lastElement (c : Nat) (k : BitVec 3) (e : Nat) (g : Core → Core) (p : State) (o : Host.Outcome State Fault Refusal) : Prop :=
  ∃ q, o = .next q ∧ { q with cores := p.cores } = p ∧ (∀ j, j ≠ c → q.core j = p.core j) ∧
    q.core c = { (g (p.core c)).setD k 0 with
      bc := (g (p.core c)).bc + e, long := none, rsm := false, stepOne := false, winUse := none, pc := (g (p.core c)).pc + 4 }

end Sys2Proof.Claims
open Sys2Proof Sys2Proof.Machine Sys2Proof.Claims

/-- The data instructions of one bench cycle write Dx, and MUL writes both its registers; PC moves past them and nothing else changes. ADC and SBC
carry through D7; naming D7 in them, and one register twice in MUL, is the illegal instruction. MUL of two registers puts the product's high byte
into Dy and its low byte into Dx, in two bench cycles. Where it goes beyond the words of the spec it states the model's own choices: log 13. -/
def Obligations.TrivenArithmetic : Prop :=
  (∀ (c : Nat) (x y : BitVec 3) (s t : State),
    Completes (.mov c x y) c (.mov x y) 2 1 (fun r => r.setD x (r.dr y)) s t ∧
    Completes (.add c x y) c (.add x y) 2 1 (fun r => r.setD x (r.dr x + r.dr y)) s t ∧
    Completes (.sub c x y) c (.sub x y) 2 1 (fun r => r.setD x (r.dr x - r.dr y)) s t ∧
    Completes (.and c x y) c (.and x y) 2 1 (fun r => r.setD x (r.dr x &&& r.dr y)) s t ∧
    Completes (.or c x y) c (.or x y) 2 1 (fun r => r.setD x (r.dr x ||| r.dr y)) s t ∧
    Completes (.xor c x y) c (.xor x y) 2 1 (fun r => r.setD x (r.dr x ^^^ r.dr y)) s t ∧
    Completes (.not c x) c (.not x) 2 1 (fun r => r.setD x (~~~(r.dr x))) s t ∧
    Completes (.shl c x y) c (.shl x y) 2 1 (fun r => r.setD x (r.dr x <<< ((r.dr y).toNat % 8))) s t ∧
    Completes (.shr c x y) c (.shr x y) 2 1 (fun r => r.setD x (r.dr x >>> ((r.dr y).toNat % 8))) s t ∧
    Completes (.cnz c x) c (.cnz x) 2 1 (fun r => r.setD x (if r.dr x = 0 then 0 else 1)) s t ∧
    Completes (.mask c x) c (.mask x) 2 1 (fun r => r.setD x (if r.dr x = 0 then 0x00 else 0xFF)) s t ∧
    Completes (.ceq c x y) c (.ceq x y) 2 1 (fun r => r.setD x (if r.dr x = r.dr y then 1 else 0)) s t ∧
    Completes (.cltu c x y) c (.cltu x y) 2 1 (fun r => r.setD x (if (r.dr x).toNat < (r.dr y).toNat then 1 else 0)) s t ∧
    Completes (.clts c x y) c (.clts x y) 2 1 (fun r => r.setD x (if (r.dr x).toInt < (r.dr y).toInt then 1 else 0)) s t ∧
    (x ≠ 7 → y ≠ 7 →
      Completes (.adc c x y) c (.adc x y) 2 1 (fun r =>
        let n := (r.dr x).toNat + (r.dr y).toNat + (r.dr 7).toNat % 2
        (r.setD x (BitVec.ofNat 8 n)).setD 7 (if 256 ≤ n then 1 else 0)) s t ∧
      Completes (.sbc c x y) c (.sbc x y) 2 1 (fun r =>
        let n := (r.dr y).toNat + (r.dr 7).toNat % 2
        (r.setD x (r.dr x - BitVec.ofNat 8 n)).setD 7 (if (r.dr x).toNat < n then 1 else 0)) s t) ∧
    (x = 7 ∨ y = 7 →
      exec (.adc c x y) s = exec (.illegalInstruction c) s ∧ exec (.sbc c x y) s = exec (.illegalInstruction c) s) ∧
    (x = y → exec (.mul c x y) s = exec (.illegalInstruction c) s)) ∧
  (∀ (c : Nat) (x y : BitVec 3) (s t : State), x ≠ y → Begins c (some (.mul x y)) 2 2 s t →
    ∃ r, exec (.mul c x y) s = .next r ∧ (r.core c).dr y = BitVec.ofNat 8 (((t.core c).dr x).toNat * ((t.core c).dr y).toNat / 256) ∧
      (r.core c).dr x = BitVec.ofNat 8 (((t.core c).dr x).toNat * ((t.core c).dr y).toNat) ∧
      (∀ z, z ≠ x → z ≠ y → (r.core c).dr z = (t.core c).dr z) ∧ (r.core c).pc = (t.core c).pc + 2 ∧ (r.core c).bc = (t.core c).bc + 2 ∧
      (r.core c).a = (t.core c).a ∧ (r.core c).w = (t.core c).w ∧ (r.core c).sr = (t.core c).sr ∧ r.ram = t.ram ∧
      (∀ j, j ≠ c → r.core j = t.core j))

/-- Immediates, the address registers, and the instructions that only read status write the register they name and nothing else. GETID names the core
on its bench and the bench, 0xFF on the island; GETTK the frame tick; SETSR, in supervisor state, IE; WAITT ends the tick. WAITT takes the core to
the end of its tick: it spends what is left of the 2,048 bench cycles. Where it goes beyond the words of the spec it states the model's own
choices: log 13, 74. -/
def Obligations.TrivenRegisters : Prop :=
  (∀ (c : Nat) (x y : BitVec 3) (imm : BitVec 8) (s t : State),
    Completes (.trvNop c) c .trvNop 2 1 id s t ∧
    Completes (.movi c x imm) c (.movi x imm) 2 1 (fun r => r.setD x imm) s t ∧
    Completes (.addi c x imm) c (.addi x imm) 2 1 (fun r => r.setD x (r.dr x + imm)) s t ∧
    Completes (.andi c x imm) c (.andi x imm) 2 1 (fun r => r.setD x (r.dr x &&& imm)) s t ∧
    Completes (.xori c x imm) c (.xori x imm) 2 1 (fun r => r.setD x (r.dr x ^^^ imm)) s t ∧
    Completes (.ceqi c x imm) c (.ceqi x imm) 2 1 (fun r => r.setD x (if r.dr x = imm then 1 else 0)) s t ∧
    Completes (.cltui c x imm) c (.cltui x imm) 2 1 (fun r => r.setD x (if (r.dr x).toNat < imm.toNat then 1 else 0)) s t ∧
    Completes (.mova c x y) c (.mova x y) 2 1 (fun r => r.setA x (r.ar y)) s t ∧
    Completes (.adda c x y) c (.adda x y) 2 1 (fun r => r.setA x (r.ar x + (r.dr y).setWidth 16)) s t ∧
    Completes (.suba c x y) c (.suba x y) 2 1 (fun r => r.setA x (r.ar x - (r.dr y).setWidth 16)) s t ∧
    Completes (.setal c x y) c (.setal x y) 2 1 (fun r => r.setA x (BitVec.ofNat 16 ((r.ar x).toNat / 256 * 256 + (r.dr y).toNat))) s t ∧
    Completes (.setah c x y) c (.setah x y) 2 1 (fun r => r.setA x (BitVec.ofNat 16 ((r.ar x).toNat % 256 + 256 * (r.dr y).toNat))) s t ∧
    Completes (.getal c x y) c (.getal x y) 2 1 (fun r => r.setD x (BitVec.ofNat 8 (r.ar y).toNat)) s t ∧
    Completes (.getah c x y) c (.getah x y) 2 1 (fun r => r.setD x (BitVec.ofNat 8 ((r.ar y).toNat / 256))) s t ∧
    Completes (.getsr c x) c (.getsr x) 2 1 (fun r => r.setD x r.sr) s t ∧
    Completes (.gettk c x) c (.gettk x) 2 1 (fun r => r.setD x (BitVec.ofNat 8 (s.dsp.tick.toNat % 256))) s t ∧
    Completes (.getid c x y) c (.getid x y) 2 1 (fun r => (r.setD x (BitVec.ofNat 8 (c % 4))).setD y (if 64 ≤ c then 0xFF else BitVec.ofNat 8 (c / 4))) s t ∧
    ((s.core c).sup = true → Completes (.setsr c y) c (.setsr y) 2 1 (fun r => { r with ie := ((s.core c).dr y).getLsbD 6 }) s t)) ∧
  (∀ (c : Nat) (s t : State),
    Completes (.waitt c) c .waitt 2 (2048 - (s.core c).bc) id s t ∧
    (Begins c (some .waitt) 2 (2048 - (s.core c).bc) s t → (s.core c).bc < 2048 → (t.core c).bc = (s.core c).bc → ∃ r, exec (.waitt c) s = .next r ∧
      (r.core c).bc = 2048))

/-- The accumulator instructions of one bench cycle. Lanes of the accumulators, and their comparison: lane j is byte j of the little-endian
accumulator, and WPUTB leaves every other lane. Where it goes beyond the words of the spec it states the model's own choices: log 13. -/
def Obligations.TrivenWide : Prop :=
  (∀ (c : Nat) (x y : BitVec 2) (s t : State),
    (Completes (.wclr c x) c (.wclr x) 2 1 (fun r => r.setW x 0) s t ∧
      Completes (.wmov c x y) c (.wmov x y) 2 1 (fun r => r.setW x (r.wr y)) s t ∧
      Completes (.wxor c x y) c (.wxor x y) 2 1 (fun r => r.setW x (r.wr x ^^^ r.wr y)) s t ∧
      Completes (.wand c x y) c (.wand x y) 2 1 (fun r => r.setW x (r.wr x &&& r.wr y)) s t ∧
      Completes (.wshl8 c x) c (.wshl8 x) 2 1 (fun r => r.setW x (BitVec.ofNat 512 ((r.wr x).toNat * 256))) s t ∧
      Completes (.wshr8 c x) c (.wshr8 x) 2 1 (fun r => r.setW x (BitVec.ofNat 512 ((r.wr x).toNat / 256))) s t) ∧
    (Completes (.wadd c x y) c (.wadd x y) 2 2 (fun r => r.setW x (r.wr x + r.wr y)) s t ∧
      Completes (.wsub c x y) c (.wsub x y) 2 2 (fun r => r.setW x (r.wr x - r.wr y)) s t)) ∧
  (∀ (c : Nat) (d : BitVec 3) (x y : BitVec 2) (j : BitVec 6) (s t : State),
    Completes (.wgetb c d x j) c (.wgetb d x j) 4 2 (fun r => r.setD d (BitVec.ofNat 8 ((r.wr x).toNat / 256 ^ j.toNat))) s t ∧
    Completes (.wceq c d x y) c (.wceq d x y) 4 2 (fun r => r.setD d (if r.wr x = r.wr y then 1 else 0)) s t ∧
    (Begins c (some (.wputb x d j)) 4 2 s t → ∃ r, exec (.wputb c x d j) s = .next r ∧
      (∀ i : BitVec 6, lane ((r.core c).wr x) i = if i = j then (t.core c).dr d else lane ((t.core c).wr x) i) ∧
      (∀ z, z ≠ x → (r.core c).wr z = (t.core c).wr z) ∧ (r.core c).d = (t.core c).d ∧ (r.core c).a = (t.core c).a ∧
      (r.core c).pc = (t.core c).pc + 4 ∧ (r.core c).bc = (t.core c).bc + 2 ∧ r.ram = t.ram))

/-- Jumps and branches set PC: a jump through a register to its even address, a branch to the next instruction's address and, where its condition
holds, its displacement more, at the same cost. An odd target or displacement in h1 is the illegal instruction. Where it goes beyond the words of
the spec it states the model's own choices: log 13, 73. -/
def Obligations.TrivenControl : Prop :=
  ∀ (c : Nat) (x y : BitVec 3) (v : BitVec 16) (d8 : BitVec 8) (d13 : BitVec 13) (s t : State),
    (Completes (.jmp c y) c (.jmp y) 2 2 (fun r => { r with pc := r.ar y &&& 0xFFFE }) s t ∧
      Completes (.bz c x d8) c (.bz x d8) 2 2 (fun r => if r.dr x = 0 then { r with pc := r.pc + 2 * d8.signExtend 16 } else r) s t ∧
      Completes (.bnz c x d8) c (.bnz x d8) 2 2 (fun r => if r.dr x = 0 then r else { r with pc := r.pc + 2 * d8.signExtend 16 }) s t ∧
      Completes (.bra c d13) c (.bra d13) 2 2 (fun r => { r with pc := r.pc + 2 * d13.signExtend 16 }) s t) ∧
    (Completes (.movia c x v) c (.movia x v) 4 2 (fun r => r.setA x v) s t ∧
      Completes (.addia c x v) c (.addia x v) 4 2 (fun r => r.setA x (r.ar x + v)) s t ∧
      (v.toNat % 2 = 0 → Completes (.jmpl c v) c (.jmpl v) 4 2 (fun r => { r with pc := v }) s t)) ∧
    (v.toNat % 2 = 0 →
      Completes (.bzl c x v) c (.bzl x v) 4 3 (fun r => if r.dr x = 0 then { r with pc := r.pc + v } else r) s t ∧
      Completes (.bnzl c x v) c (.bnzl x v) 4 3 (fun r => if r.dr x = 0 then r else { r with pc := r.pc + v }) s t) ∧
    (v.toNat % 2 = 1 →
      exec (.jmpl c v) s = exec (.illegalInstruction c) s ∧ exec (.jsrl c v) s = exec (.illegalInstruction c) s ∧
      exec (.bzl c x v) s = exec (.illegalInstruction c) s ∧ exec (.bnzl c x v) s = exec (.illegalInstruction c) s)

/-- RTE in supervisor state pops SR, then the PC low byte, then the PC high byte; A7 increases by 3, and S, IE and RSM are restored from the popped
SR, whose reserved bits are ignored (a PC with bit 0 set is in the statement of the loads). Where it goes beyond the words of the spec it states
the model's own choices: log 13. -/
def Obligations.ReturnFromException : Prop :=
  ∀ (c : Nat) (sr lo hi : Byte) (s t u v w : State),
    let r := s.core c
    r.sup = true → Begins c (some .rte) 2 6 s t → loadByte c (r.ar 7) true t = .ok sr u → loadByte c (r.ar 7 + 1) true u = .ok lo v →
      loadByte c (r.ar 7 + 2) true v = .ok hi w → lo.getLsbD 0 = false →
      exec (.rte c) s = endsIn c 2 6 (fun z => { z.setA 7 (r.ar 7 + 3) with sup := sr.getLsbD 7, ie := sr.getLsbD 6, rsm := sr.getLsbD 5, pc := BitVec.ofNat 16 (lo.toNat + 256 * hi.toNat) }) w

/-- Loads take the byte that the load of their address answers, and step the address register where their form does; POPA, RTS and RTE take two bytes,
low byte first, after the status for RTE; a popped PC loses bit 0. Stores write the byte of their register at their address and step the address
register where their form does; PUSHA and the calls write two bytes below A7, high byte first, which for a call are the address of the next
instruction. Where it goes beyond the words of the spec it states the model's own choices: log 13, 73. -/
def Obligations.TrivenLoadsAndStores : Prop :=
  (∀ (c : Nat) (x y : BitVec 3) (imm : BitVec 16) (s t : State),
    let r := s.core c
    (∀ b u, loadByte c (r.ar y) r.sup t = .ok b u →
      (Begins c (some (.ld x y)) 2 2 s t → exec (.ld c x y) s = endsIn c 2 2 (fun z => z.setD x b) u) ∧
      (Begins c (some (.ldPostinc x y)) 2 2 s t → exec (.ldPostinc c x y) s = endsIn c 2 2 (fun z => (z.setD x b).setA y (z.ar y + 1)) u)) ∧
    (∀ b u, loadByte c (r.ar 7) r.sup t = .ok b u →
      Begins c (some (.pop x)) 2 2 s t → exec (.pop c x) s = endsIn c 2 2 (fun z => (z.setA 7 (z.ar 7 + 1)).setD x b) u) ∧
    (∀ b u, loadByte c (r.ar y + imm) r.sup t = .ok b u →
      Begins c (some (.ldx x y imm)) 4 3 s t → exec (.ldx c x y imm) s = endsIn c 4 3 (fun z => z.setD x b) u) ∧
    (∀ lo u hi v, loadByte c (r.ar 7) r.sup t = .ok lo u → loadByte c (r.ar 7 + 1) r.sup u = .ok hi v →
      (Begins c (some (.popa x)) 2 3 s t →
        exec (.popa c x) s = endsIn c 2 3 (fun z => (z.setA 7 (r.ar 7 + 2)).setA x (BitVec.ofNat 16 (lo.toNat + 256 * hi.toNat))) v) ∧
      (Begins c (some .rts) 2 4 s t → exec (.rts c) s =
        endsIn c 2 4 (fun z => { z.setA 7 (r.ar 7 + 2) with pc := BitVec.ofNat 16 (lo.toNat + 256 * hi.toNat) &&& 0xFFFE }) v)) ∧
    (∀ sr u lo v hi w, r.sup = true → Begins c (some .rte) 2 6 s t → loadByte c (r.ar 7) true t = .ok sr u →
      loadByte c (r.ar 7 + 1) true u = .ok lo v → loadByte c (r.ar 7 + 2) true v = .ok hi w →
      exec (.rte c) s = endsIn c 2 6 (fun z => { z.setA 7 (r.ar 7 + 3) with
        sup := sr.getLsbD 7, ie := sr.getLsbD 6, rsm := sr.getLsbD 5, pc := BitVec.ofNat 16 (lo.toNat + 256 * hi.toNat) &&& 0xFFFE }) w)) ∧
  (∀ (c : Nat) (x y : BitVec 3) (imm : BitVec 16) (s t : State),
    let r := s.core c
    (∀ u, storeByte c (r.ar y) (r.dr x) r.sup t = .ok () u →
      (Begins c (some (.st x y)) 2 2 s t → exec (.st c x y) s = endsIn c 2 2 id u) ∧
      (Begins c (some (.stPostinc x y)) 2 2 s t → exec (.stPostinc c x y) s = endsIn c 2 2 (fun z => z.setA y (z.ar y + 1)) u)) ∧
    (∀ u, storeByte c (r.ar 7 - 1) (r.dr x) r.sup t = .ok () u →
      Begins c (some (.push x)) 2 2 s t → exec (.push c x) s = endsIn c 2 2 (fun z => z.setA 7 (z.ar 7 - 1)) u) ∧
    (∀ u, storeByte c (r.ar y + imm) (r.dr x) r.sup t = .ok () u →
      Begins c (some (.stx x y imm)) 4 3 s t → exec (.stx c x y imm) s = endsIn c 4 3 id u) ∧
    (Begins c (some (.pusha x)) 2 3 s t → ∀ u v, storeByte c (r.ar 7 - 1) (BitVec.ofNat 8 ((r.ar x).toNat / 256)) r.sup t = .ok () u →
      storeByte c (r.ar 7 - 2) (BitVec.ofNat 8 (r.ar x).toNat) r.sup u = .ok () v →
      exec (.pusha c x) s = endsIn c 2 3 (fun z => z.setA 7 (r.ar 7 - 2)) v) ∧
    (Begins c (some (.jsr y)) 2 4 s t → ∀ u v, storeByte c (r.ar 7 - 1) (BitVec.ofNat 8 ((r.pc + 2).toNat / 256)) r.sup t = .ok () u →
      storeByte c (r.ar 7 - 2) (BitVec.ofNat 8 (r.pc + 2).toNat) r.sup u = .ok () v →
      exec (.jsr c y) s = endsIn c 2 4 (fun z => { z.setA 7 (r.ar 7 - 2) with pc := r.ar y &&& 0xFFFE }) v) ∧
    (Begins c (some (.jsrl imm)) 4 4 s t → imm.toNat % 2 = 0 → ∀ u v,
      storeByte c (r.ar 7 - 1) (BitVec.ofNat 8 ((r.pc + 4).toNat / 256)) r.sup t = .ok () u →
      storeByte c (r.ar 7 - 2) (BitVec.ofNat 8 (r.pc + 4).toNat) r.sup u = .ok () v →
      exec (.jsrl c imm) s = endsIn c 4 4 (fun z => { z.setA 7 (r.ar 7 - 2) with pc := imm }) v))

/-- A load from memory answers the byte of the device address that its checks give and changes nothing; a store writes that one byte, and every other
byte of memory, every core and every other part of the state reads as before. A long instruction with one element left: it makes its setup and
that element, Dc becomes 0, RSM is 0 and PC moves past it; the element's accesses apart, nothing else changes. Where it goes beyond the words of
the spec it states the model's own choices: log 6, 13. -/
def Obligations.TrivenMemory : Prop :=
  (∀ (c : Nat) (a : BitVec 16) (b : Byte) (d : Nat) (s : State),
    (LoadsRam c a d s → loadByte c a (s.core c).sup s = .ok (Memory.get s.ram d) s) ∧
    (StoresRam c a d s → ∃ m, storeByte c a b (s.core c).sup s = .ok () { s with ram := m } ∧
      ∀ e, Memory.get m e = if e = d then b else Memory.get s.ram e)) ∧
  (∀ (c : Nat) (x y k d : BitVec 3) (v w : BitVec 2) (inc : Bool) (b : Byte) (s t u : State),
    (s.core c).rsm = false → s.wipeDue c = false → t.wipeDue c = false → (s.core c).dr k = 1 → (t.core c).dr k = 1 → (t.core c).bc + 2 < 2048 →
    let r := t.core c
    let t1 := fun (i : Triven) => t.setCore c { r with bc := r.bc + 2, boundary := false, long := some i }
    let left := fun (p : State) => (p.core c).dr k = 1 ∧ (p.core c).inLong = true
    (Begins c (some (.movb x y k)) 4 2 s t → x ≠ y → loadByte c (r.ar y) r.sup (t1 (.movb x y k)) = .ok b u →
      ∀ p, storeByte c (r.ar x) b r.sup u = .ok () p → left p →
        lastElement c k 1 (fun z => (z.setA x (r.ar x + 1)).setA y (r.ar y + 1)) p (exec (.movb c x y k) s)) ∧
    (Begins c (some (.wmacb v w y k)) 4 2 s t → v ≠ w → loadByte c (r.ar y) r.sup (t1 (.wmacb v w y k)) = .ok b u → left u →
      lastElement c k 2 (fun z =>
        ((z.setW v (r.wr v + r.wr w * b.setWidth 512)).setW w (BitVec.ofNat 512 ((r.wr w).toNat * 256))).setA y (r.ar y + 1)) u
        (exec (.wmacb c v w y k) s)) ∧
    (Begins c (some (.xin v y k inc)) 4 2 s t → loadByte c (r.ar y) r.sup (t1 (.xin v y k inc)) = .ok b u → left u →
      lastElement c k 1 (fun z => (z.setW v ((r.wr v >>> 8) ||| (b.setWidth 512 <<< 504))).setA y (if inc then r.ar y + 1 else r.ar y)) u
        (exec (.xin c v y k inc) s)) ∧
    (Begins c (some (.cmpb x y k d)) 4 2 s t → x ≠ y → d ≠ k → ∀ e p, loadByte c (r.ar x) r.sup (t1 (.cmpb x y k d)) = .ok e p →
      loadByte c (r.ar y) r.sup p = .ok b u → left u →
      lastElement c k 1 (fun z => ((z.setD d (z.dr d ||| (e ^^^ b))).setA x (r.ar x + 1)).setA y (r.ar y + 1)) u (exec (.cmpb c x y k d) s)) ∧
    (Begins c (some (.fillb x y k)) 4 2 s t → storeByte c (r.ar x) (r.dr y) r.sup (t1 (.fillb x y k)) = .ok () u → left u →
      lastElement c k 1 (fun z => z.setA x (r.ar x + 1)) u (exec (.fillb c x y k) s)) ∧
    (Begins c (some (.xout y v k inc)) 4 2 s t → storeByte c (r.ar y) ((r.wr v).setWidth 8) r.sup (t1 (.xout y v k inc)) = .ok () u → left u →
      lastElement c k 1 (fun z => (z.setW v (r.wr v >>> 8)).setA y (if inc then r.ar y + 1 else r.ar y)) u (exec (.xout c y v k inc) s)))

/-- Entry to a vector whose three pushes and first fetch succeed: S is 1, IE and RSM are 0, A7 is three lower, PC is 8v, the cause is written, and 6
bench cycles are spent; the pushes were the high and the low byte of the pushed PC and the status. Where it goes beyond the words of the spec it
states the model's own choices: log 13. -/
def Obligations.VectorEntry : Prop :=
  ∀ (c v param : Nat) (ret : BitVec 16) (s : State), v ≠ 1 → v ≠ 2 →
    let x := s.core c
    let s0 := s.setCore c { x with sup := true }
    ∀ s1 s2 s3 s4 h, storeByte c (x.ar 7 - 1) (BitVec.ofNat 8 (ret.toNat / 256)) true s0 = .ok () s1 →
      storeByte c (x.ar 7 - 2) (BitVec.ofNat 8 ret.toNat) true s1 = .ok () s2 → storeByte c (x.ar 7 - 3) x.sr true s2 = .ok () s3 →
      let y := s3.core c
      let t := s3.setCore c { y.setA 7 (x.ar 7 - 3) with
        sup := true, ie := false, rsm := false, pc := BitVec.ofNat 16 (8 * v), bc := y.bc + 6,
        cause := BitVec.ofNat 32 (2 ^ 24 * v + 2 ^ 16 * param), boundary := false }
      fetchHalf c (BitVec.ofNat 16 (8 * v)) t = .ok h s4 → enterVector c v param ret s = s4

/-- The traps and the illegal instruction: TRAP #0 to #31 enters vector 8 with its number as PARAM and the next instruction's address after 6 bench
cycles; the illegal instruction enters vector 1 with its own address after one. TRAP #33 to #47 is illegal with its 6 spent, and in user state RTE
and SETSR enter vector 2 after one. Where it goes beyond the words of the spec it states the model's own choices: log 13, 71. -/
def Obligations.TrivenTraps : Prop :=
  ∀ (c : Nat) (n : BitVec 6) (y : BitVec 3) (s t : State),
    let vec := fun (v p cost : Nat) => Host.Outcome.next (enterVector c v p (s.core c).pc (t.setCore c (ended 0 cost id (t.core c))))
    (Begins c (some (.trap n)) 2 6 s t → n.toNat < 32 →
      exec (.trap c n) s = .next (enterVector c 8 n.toNat ((s.core c).pc + 2) (t.setCore c (ended 2 6 id (t.core c))))) ∧
    (Begins c (some (.trap n)) 2 6 s t → 33 ≤ n.toNat → n.toNat < 48 → exec (.trap c n) s = vec 1 0 6) ∧
    (∀ len, Begins c none len 1 s t → exec (.illegalInstruction c) s = vec 1 0 1) ∧
    ((s.core c).sup = false → Begins c (some .rte) 2 1 s t → exec (.rte c) s = vec 2 0 1) ∧
    ((s.core c).sup = false → Begins c (some (.setsr y)) 2 1 s t → exec (.setsr c y) s = vec 2 0 1) ∧
    (∀ v p, s.mayBegin c = true → (s.core c).inLong = false → s.stopDue c = false → fetch c s = .no v p t →
      exec (.illegalInstruction c) s = vec v p 1)

/-- Island services and host calls as a core makes them: a request answers accepted (0), busy (1) or no such service (2) in D0, its completion stores
the result and sets the pending bit of vector 22; HOSTRET ends the call served with OK and the output A0 and A1 name. A core at a tick boundary
takes an enabled pending vector, whose pending bit clears, and a call that is due reaches its core: the call's input stands in its page and the
core enters vector 9. Where it goes beyond the words of the spec it states the model's own choices: log 13, 91, 113. -/
def Obligations.TrivenCalls : Prop :=
  (∀ (c : Nat) (n : BitVec 4) (s t : State),
    let r := s.core c
    let w := Triven.trap (BitVec.ofNat 6 (48 + n.toNat))
    (2 ≤ n.toNat → Completes (.islandServiceRequest c n) c w 2 6 (fun z => z.setD 0 2) s t) ∧
    (n.toNat < 2 → r.isvb = true → Completes (.islandServiceRequest c n) c w 2 6 (fun z => z.setD 0 1) s t) ∧
    (n.toNat < 2 → r.isvb = false → Completes (.islandServiceRequest c n) c w 2 6 (fun z => { z.setD 0 0 with
      isvb := true, isvReq := 48 + n.toNat, isvArg := BitVec.ofNat 32 (leNat [r.dr 0, r.dr 1, r.dr 2, r.dr 3]) }) s t) ∧
    (Begins c (some (.trap 32)) 2 6 s t → ∀ v m, r.serving = some v → (t.core c).serving = some v → t.cmd v.cmd = some m →
      ((t.core c).ar 0).toNat % 32 = 0 → ((t.core c).ar 0).toNat + ((t.core c).ar 1).toNat ≤ 32768 → ((t.core c).ar 1).toNat ≤ 4096 →
      ((t.core c).ar 1).toNat ≤ m.outCap →
      let u := t.setCore c { t.core c with serving := none }
      exec (.hostret c) s = endsIn c 2 6 id (endCmd v.cmd 0 0 [] (u.setCmd v.cmd
        { m with copyFrom := some (pageBase (coreBench c) v.page + ((t.core c).ar 0).toNat, ((t.core c).ar 1).toNat) }))) ∧
    (r.isvb = true → s.islandRuns = true → s.pfl.upd = none →
      exec (.islandServiceComplete c) s = .next (s.setCore c { r with isvb := false, isv := s.serviceResult c r.isvReq, pend := r.pend ||| 0x40 }))) ∧
  (∀ (c i h : Nat) (s : State),
    ((s.core c).dueVector = some i → s.coreExec c = true → (s.core c).boundary = true → s.callFor c = false → (s.core c).inLong = false →
      exec (.interruptEntry c) s = .next (enterVector c (16 + i) 0 (s.core c).pc
        (s.setCore c { s.core c with pend := (s.core c).pend &&& ~~~(BitVec.ofNat 7 (2 ^ i)), stepOne := false }))) ∧
    (∀ m, s.cmd h = some m → m.admitted = true → s.callDue m = true → s.callCore m = c → (s.core c).state = .run → s.coreExec c = true →
      (s.core c).boundary = true → (s.core c).inLong = false →
      let page := fieldLE m.u3 1 1
      let off := fieldLE m.u3 2 2
      let x : Core := { s.core c with
        serving := some { cmd := h, page := page, start := s.pw.now }, callArg := BitVec.ofNat 32 m.opb, callIo := callIo s m (s.cmdHome m) page }
      exec (.hostCallDelivery h) s = .next (enterVector c 9 0 (s.core c).pc
        (((s.setCmd h { m with delivered := true, a := { m.a with ticks := 1 } }).ramWrite
          (pageBase (s.cmdHome m) page + off) (m.input.take m.inLen)).setCore c x))))

/-- A core's reads of RNG_PORT answer bytes of its expander while it is READY and the tick's 512 bytes last, and count them; a write is discarded with
event 21 and vector 6. In supervisor state a core writes its own section: an interrupt-enable, window or fence write that R311 and R313 allow.
Where it goes beyond the words of the spec it states the model's own choices: log 13, 76, 117. -/
def Obligations.TrivenPorts : Prop :=
  ∀ (c i n : Nat) (v64 : BitVec 64) (v32 : BitVec 32) (s : State), s.coreExec c = true →
    (∀ b t, n ∈ [1, 2, 4, 8] → (s.exp (coreBench c)).ready = true → (s.core c).rngBytes + n ≤ 512 → draw (coreBench c) n s = some (b, t) →
      exec (.rngPortRead c n) s =
        (let u := t.setCore c { t.core c with rngBytes := (t.core c).rngBytes + n }
         .next { u with out := { u.out with bus := .ok b } })) ∧
    exec (.rngPortWrite c) s = .next (enterVector c 6 3 (s.core c).pc (raiseRandom 21 (s.coreLease c) s)) ∧
    ((s.core c).sup = true → (s.core c).fncWritten = false →
      exec (.fncCtlWrite c v32) s = .next (s.setCore c { s.core c with fncWritten := true, en := v32.getLsbD 0, wlock := v32.getLsbD 1, winUse := none })) ∧
    ((s.core c).sup = true → i < 16 → (s.core c).wlock = false → descriptorOk (64 ≤ c) (s.core c).win i v64 = true →
      exec (.fncWinWrite c i v64) s = .next (s.setCore c { s.core c with win := tset 0 (s.core c).win i v64, winUse := none })) ∧
    ((s.core c).sup = true → i < 16 → (tget 0x7FF00 (s.core c).fen i).getLsbD 31 = false →
      exec (.fncFenWrite c i v32) s = .next (s.setCore c { s.core c with fen := tset 0x7FF00 (s.core c).fen i (v32 &&& 0xFFF7FF3F), winUse := none })) ∧
    ((s.core c).sup = false → i < 16 →
      exec (.fncCtlWrite c v32) s = .next (enterVector c 2 0 (s.core c).pc s) ∧
      exec (.fncWinWrite c i v64) s = .next (enterVector c 2 0 (s.core c).pc s) ∧
      exec (.fncFenWrite c i v32) s = .next (enterVector c 2 0 (s.core c).pc s))

/-- The halfwords of every Triven instruction whose operands it allows decode to it, and what halfwords decode to is an allowed instruction whose
halfwords they are: no bit of an encoding is dropped, and none has two meanings. -/
def Obligations.TrivenEncoding : Prop :=
  (∀ i : Triven, trivenOk i = true → ∃ h0, (isLong h0 = false ∧ trivenWords i = [h0] ∧ ∀ h1, trivenDecode h0 h1 = some i) ∨
    (isLong h0 = true ∧ ∃ h1, trivenWords i = [h0, h1] ∧ trivenDecode h0 h1 = some i)) ∧
  (∀ (h0 h1 : BitVec 16) (i : Triven), trivenDecode h0 h1 = some i →
    trivenOk i = true ∧ trivenWords i = if isLong h0 then [h0, h1] else [h0])

/-! ### Time, dispatcher, benches -/

/-- TICK with main power: DSP_TICK counts one, the RTC counts what 2.56 us of its oscillator give, from the
value written in the tick where there is one, the tick's messages, admissions and new wake
requests are over, and every table of the dispatcher stands as it was. Where it goes beyond the words of the spec it states the model's own
choices: log 9, 11. -/
def Obligations.TickCounts : Prop :=
  ∀ (ecc : List Ecc) (s : State), s.mainPower = true → s.pw.stage ≠ .off →
    ∃ t, exec (.tick ecc) s = .next t ∧ t.dsp.tick = s.dsp.tick + 1 ∧ t.pw.now = s.pw.now + 1 ∧
      t.vault.rtc = s.vault.rtcSet.getD s.vault.rtc + BitVec.ofNat 47 ((s.pw.rtcFrac + 8388608) / 100000000) ∧
        t.pw.rtcFrac = (s.pw.rtcFrac + 8388608) % 100000000 ∧
      t.pwr.newReq = [] ∧ t.pwr.admitted = 0 ∧ t.dsp.slt = s.dsp.slt ∧ t.dsp.core = s.dsp.core ∧ t.dsp.page = s.dsp.page ∧
      t.dsp.sltS = s.dsp.sltS ∧ t.dsp.coreS = s.dsp.coreS ∧ t.dsp.pageS = s.dsp.pageS

/-- GO in frame ticks 0 to 253 asks for a swap at the next frame boundary, and later at the one after, where the captured tables become active and not
before; CANCEL withdraws a swap that is not captured and carries no re-placement. Nothing else changes, and a GO while a swap is pending, or a
CANCEL where none is pending or it cannot be withdrawn, changes nothing. Where it goes beyond the words of the spec it states the model's own
choices: log 20, 111. -/
def Obligations.SwapRequest : Prop :=
  ∀ (s : State), s.mainPower = true →
    (s.dsp.pend = false → exec .dspGo s = .next { s with dsp := { s.dsp with
      pend := true, captured := false,
      at_ := s.dsp.tick.toNat / 256 + (if s.dsp.tick.toNat % 256 ≤ 253 then 1 else 2) } }) ∧
    (s.dsp.pend = true → exec .dspGo s = .next s) ∧
    (s.dsp.pend = true → s.dsp.captured = false → s.dsp.rplPend = false → exec .dspCancel s = .next { s with dsp := { s.dsp with pend := false } }) ∧
    (s.dsp.pend = false ∨ s.dsp.captured = true ∨ s.dsp.rplPend = true → exec .dspCancel s = .next s) ∧
    (s.dsp.pend = true → s.dsp.captured = true → s.dsp.at_ = s.frame + 1 → s.ftick = 255 →
      ∃ t, exec .frameSwap s = .next t ∧ t.dsp.slt = s.dsp.sltC ∧ t.dsp.core = s.dsp.coreC ∧ t.dsp.page = s.dsp.pageC ∧
        t.dsp.policy = s.dsp.policyC) ∧
    (s.dsp.pend = false ∨ s.dsp.at_ ≠ s.frame + 1 ∨ s.ftick ≠ 255 → exec .frameSwap s = .next s)

/-- A write of a shadow table or of the policy: four entries, each a present lease or IDLE, are stored, and every other entry of every table stands; a
word with any other value is refused with RANGE and no table changes. Entries of cores of an absent bench may only be IDLE, and a policy names
only present leases. Where it goes beyond the words of the spec it states the model's own choices: log 20, 109. -/
def Obligations.ShadowWrites : Prop :=
  ∀ (i : Nat) (v : BitVec 64) (s : State), s.mainPower = true →
    let b := fun j => v.toNat / 256 ^ j % 256
    let lease := fun j => b j = 0xFF ∨ b j < s.nLease
    (i < 64 * (5 * s.nBench) → (∀ j < 4, lease j) →
      ∃ t, exec (.shadowTableWrite (0x1000 + 4 * i) v) s = .next t ∧
        { t with out := s.out, dsp := { t.dsp with sltS := s.dsp.sltS } } = s ∧
        ∀ e, tget 0xFF t.dsp.sltS e = if e / 4 = i then b (e % 4) else tget 0xFF s.dsp.sltS e) ∧
    (i < 16 → (∀ j < 4, lease j ∧ (4 * i + j < 4 * s.nBench ∨ b j = 0xFF)) →
      ∃ t, exec (.shadowTableWrite (0x800 + 4 * i) v) s = .next t ∧
        { t with out := s.out, dsp := { t.dsp with coreS := s.dsp.coreS } } = s ∧
        ∀ e, tget 0xFF t.dsp.coreS e = if e / 4 = i then b (e % 4) else tget 0xFF s.dsp.coreS e) ∧
    (v.toNat < 2 ^ s.nLease →
      ∃ t, exec (.shadowTableWrite 0x10 v) s = .next t ∧ t.dsp.policyS = v ∧
        { t with out := s.out, dsp := { t.dsp with policyS := s.dsp.policyS } } = s) ∧
    (i < 64 * (5 * s.nBench) → (∃ j < 4, ¬lease j) →
      ∃ t, exec (.shadowTableWrite (0x1000 + 4 * i) v) s = .next t ∧ t.out.bus = .range ∧ t.dsp = s.dsp)

/-- The capture at the end of frame tick 253 takes every shadow table and the policy, marks the swap CAPTURED, and stops and wipes each core whose
entry changes; the active tables stand. The swap at the frame boundary makes the captured tables and policy active together and clears CAPTURED;
with no re-placement left for a later boundary and no late apply, PEND and RPL_PEND clear too. Where it goes beyond the words of the spec it
states the model's own choices: log 20, 57, 110, 111. -/
def Obligations.SlotSwap : Prop :=
  (∀ (s : State), s.mainPower = true → s.dsp.pend = true → s.dsp.captured = false → s.dsp.at_ = s.frame + 1 → s.ftick = 253 →
    ∃ t, exec .shadowCapture s = .next t ∧ t.dsp.captured = true ∧ t.dsp.sltC = s.dsp.sltS ∧ t.dsp.coreC = s.dsp.coreS ∧
      t.dsp.pageC = s.dsp.pageS ∧ t.dsp.policyC = s.dsp.policyS ∧ t.dsp.slt = s.dsp.slt ∧ t.dsp.core = s.dsp.core ∧ t.dsp.page = s.dsp.page ∧
      t.dsp.policy = s.dsp.policy ∧
      ∀ c ∈ s.changingCores s.dsp.coreS, t.core c = { ({} : Core) with state := .reset }) ∧
  (∀ (s : State), s.mainPower = true → s.dsp.pend = true → s.dsp.captured = true → s.dsp.at_ = s.frame + 1 → s.ftick = 255 →
    ∃ t, exec .frameSwap s = .next t ∧ t.dsp.slt = s.dsp.sltC ∧ t.dsp.core = s.dsp.coreC ∧ t.dsp.page = s.dsp.pageC ∧
      t.dsp.policy = s.dsp.policyC ∧ t.dsp.captured = false ∧ t.dsp.sltS = s.dsp.sltS ∧ t.dsp.coreS = s.dsp.coreS ∧ t.dsp.pageS = s.dsp.pageS ∧
      ((∀ r ∈ s.dsp.repl, r.frame ≤ s.dsp.at_) → (s.dsp.applyPend = true → s.dsp.applyLate = false) → t.dsp.pend = false ∧ t.dsp.rplPend = false))

/-- A bench quarantine asked by software waits for the boundary with cause 0xFFFF, the wedge's keys erased at once; at the boundary the bench is
QUARANTINED with its cause, the commands executing there have ended QUARANTINED (0x000A), no held range of it is left, its memory reads 0, its
cores are at their reset values, and its wipe ends 1,536 tk later; the wipe's end sets WIPE_DONE, once the bench's expander has been
reinstantiated from a seed of the pool; and RETURN makes a wiped bench READY, with its entries IDLE until a frame boundary, and clears CAUSE and
WIPE_DONE (the model's reading, log 82). A lease quarantine at its boundary: the lease is QUARANTINED, its grant is revoked, its queues that were
ACTIVE, PARKED or DRY are QUARANTINED, and its executing commands have ended QUARANTINED (0x000A). Where it goes beyond the words of the spec it
states the model's own choices: log 20, 82, 97, 116. -/
def Obligations.Quarantines : Prop :=
  (∀ (n : Nat) (s : State),
    (s.mainPower = true → n < s.nBench → (s.bench n).state ≠ .quarantined → (s.bench n).qPend = none →
      ∃ t, exec (.benQuarantineWrite n) s = .next t ∧ t.bench n = { s.bench n with qPend := some (0xFFFF, s.pw.now) } ∧
        (∀ m, m ≠ n → t.bench m = s.bench m) ∧ t.ram = s.ram ∧ t.dsp = s.dsp ∧ t.cores = s.cores ∧ t.queues = s.queues ∧ t.cmds = s.cmds ∧
        (∀ k < 64, (s.job (5 * n + 3) k).state = .run → (t.job (5 * n + 3) k).key = none)) ∧
    (∀ cause t0, n < 16 → (s.bench n).qPend = some (cause, t0) →
      ∃ t, exec (.benchQuarantine n) s = .next t ∧ (t.bench n).state = .quarantined ∧ (t.bench n).qPend = none ∧
        (t.bench n).cause = BitVec.ofNat 16 cause ∧ (t.bench n).causeV = true ∧ (t.bench n).wipeDone = false ∧ (t.bench n).wipeEnd = t0 + 1 + 1536 ∧
        (∀ a, benchBase n ≤ a → a < benchBase n + 0x200000 → Memory.get t.ram a = 0) ∧ (∀ i < 4, t.core (4 * n + i) = {}) ∧
        (∀ h c, s.cmd h = some c → s.cmdHome c = n → c.executing = true → ∃ d, t.cmd h = some d ∧ d.result = some (0x000A, 0)) ∧
        (∀ x ∈ t.held, x.bench ≠ n) ∧ ((s.bench n).autoRpl = true → t.dsp.rplPend = true ∧ t.dsp.pend = true)) ∧
    ((s.bench n).state = .quarantined → (s.bench n).wipeDone = false → (s.bench n).wipeEnd ≤ s.pw.now →
      let done := { s.bench n with wipeDone := true }
      ((s.exp n).inst.isSome = true → exec (.benchWipeDone n) s = .next (s.setBench n done)) ∧
      (∀ seed rest, (s.exp n).inst = none → s.rng.pool = seed :: rest →
        ∃ t, exec (.benchWipeDone n) s = .next t ∧ t.bench n = done ∧ (∀ m, m ≠ n → t.bench m = s.bench m) ∧ (t.exp n).inst = some s.dsp.tick ∧
          t.rng.pool = rest ∧ { t with benches := s.benches, rng := s.rng } = s) ∧
      ((s.exp n).inst = none → s.rng.pool = [] → exec (.benchWipeDone n) s = .next s)) ∧
    (s.mainPower = true → (s.bench n).state = .quarantined → (s.bench n).wipeDone = true →
      ∃ t, exec (.benReturn n) s = .next t ∧ { t with benches := s.benches, bus := s.bus } = s ∧ (∀ m, m ≠ n → t.bench m = s.bench m) ∧
        t.bench n = { s.bench n with state := .ready, wipeDone := false, causeV := false, cause := 0, idleUntilFrame := true, readyAt := s.pw.now,
                                     idleFrames := 0, busy := true })) ∧
  (∀ (k : Nat) (s : State), (s.lease k).qPend.isSome = true →
    ∃ t, exec (.leaseQuarantine k) s = .next t ∧ (t.lease k).quarantined = true ∧ (t.lease k).qPend = none ∧ (t.lease k).grant = none ∧
      (∀ q < 8, (t.queue k q).state ≠ .active ∧ (t.queue k q).state ≠ .parked ∧ (t.queue k q).state ≠ .dry) ∧
      (∀ h c, s.cmd h = some c → c.lease = k → c.executing = true → ∃ d, t.cmd h = some d ∧ d.result = some (0x000A, 0)) ∧
      (∀ x ∈ t.held, x.lease ≠ k))

/-- The re-placement search decides a move for each lease that holds something on the bench in the shadow tables, and marks the re-placement searched;
the active tables and every core stand. Wake: requests enter the FIFO in ascending bench number; the head is admitted, at most two in a tick, and
ramps for 6 tk; a good ramp ends READY, a bad one OFF with its PWR_FAIL bit; PWR_CTL.OFF marks benches, and a bench idle for its frames goes OFF.
Where it goes beyond the words of the spec it states the model's own choices: log 84. -/
def Obligations.BenchPower : Prop :=
  (∀ (n : Nat) (r : Replacement) (s : State), s.dsp.repl.find? (fun r => decide (r.bench = n) && !r.searched) = some r →
    (s.dsp.pend = true → s.dsp.captured = false → r.frame ≤ s.dsp.at_) →
    ∃ t moves, exec (.replacementSearch n) s = .next t ∧ { r with searched := true, moves := moves } ∈ t.dsp.repl ∧
      moves.map Move.lease = s.heldBy n ∧ (∀ m ∈ moves, m.src = n ∧ (m.pass = 1 ∨ m.pass = 2 ∨ m.pass = 3 ∧ m.dst = 0xFF)) ∧
      t.dsp.slt = s.dsp.slt ∧ t.dsp.core = s.dsp.core ∧ t.dsp.page = s.dsp.page ∧ t.cores = s.cores) ∧
  (∀ (n : Nat) (rest : List Nat) (mask : BitVec 16) (s : State),
    (s.mainPower = true → s.pwr.fifo = n :: rest → s.pwr.admitted < 2 →
      ∃ t, exec .wakeAdmission s = .next t ∧ t.pwr.fifo = rest ∧ t.pwr.admitted = s.pwr.admitted + 1 ∧
        t.bench n = { s.bench n with state := .waking, rampEnd := s.pw.now + 6 } ∧ (∀ m, m ≠ n → t.bench m = s.bench m) ∧
        { t with pwr := s.pwr, benches := s.benches } = s) ∧
    ((s.bench n).state = .waking → (s.bench n).rampEnd ≤ s.pw.now →
      (∃ t, exec (.benchRampEnd n true) s = .next t ∧ t.bench n = { s.bench n with state := .ready, readyAt := s.pw.now } ∧
        (∀ m, m ≠ n → t.bench m = s.bench m) ∧ { t with benches := s.benches, cmds := s.cmds } = s) ∧
      (n < 16 → ∃ t, exec (.benchRampEnd n false) s = .next t ∧ (t.bench n).state = .off ∧ t.pwr.fail = s.pwr.fail ||| BitVec.ofNat 16 (2 ^ n) ∧
        t.ram = s.ram ∧ t.dsp = s.dsp)) ∧
    ((s.bench n).state = .ready → s.ftick = 255 → 0 < (tget 0 s.pwr.idle n).toNat → (tget 0 s.pwr.idle n).toNat ≤ (s.bench n).idleFrames + 1 →
      (s.bench n).busy = false → s.benchIdle n = true →
      ∃ t, exec (.benchIdleOff n) s = .next t ∧ (t.bench n).state = .off ∧ t.ram = s.ram ∧ t.dsp = s.dsp) ∧
    (s.mainPower = true →
      (∃ t, exec (.pwrOffWrite mask) s = .next t ∧ { t with benches := s.benches, bus := s.bus } = s ∧
        ∀ m, t.bench m = if m < s.nBench ∧ mask.getLsbD m = true then { s.bench m with offReq := true } else s.bench m) ∧
      ((∀ m, mask.getLsbD m = true →
          m < s.nBench ∧ (s.bench m).state = .off ∧ s.pwr.fail.getLsbD m = false ∧ m ∉ s.pwr.fifo ∧ m ∉ s.pwr.newReq) →
        let old := s.pwr.fifo.take (s.pwr.fifo.length - s.pwr.newReq.length)
        let new := ((List.range 16).filter (mask.getLsbD ·)).foldl (fun l n => insertUp n l) s.pwr.newReq
        exec (.pwrWakeWrite mask) s =
            .next { s with pwr := { s.pwr with fifo := if mask = 0 then s.pwr.fifo else old ++ new, newReq := new } } ∧
          (s.pwr.newReq.Pairwise (· < ·) → new.Pairwise (· < ·)) ∧ ∀ n, n ∈ new ↔ n ∈ s.pwr.newReq ∨ n < 16 ∧ mask.getLsbD n = true)))

/-! ### Haul queues and the host link -/

/-- Doorbells of an open queue: a value within the depth of the last doorbell and of the head is taken and remembered with its tick; one past that
leaves the doorbell as it was, marks the queue and is a queue error. A completion doorbell that moves forward to at most the tail is taken; one
that moves backwards or past the tail is discarded with the lease's doorbell event. A queue's life: HQ_QCFG is written while the queue is
DISABLED, its reserved bits dropped; ENABLE of a queue that passes the checks starts it with counts 0, the ring bases it has, the highest format
offered, and ACTIVE, PARKED or DRY as its lease and home bench decide; a failed check leaves it DISABLED with its code; RESET makes it RESETTING,
and when nothing of it executes it is DISABLED with counts and MAJOR 0. Where it goes beyond the words of the spec it states the model's own
choices: log 3, 96, 103, 112. -/
def Obligations.HaulQueues : Prop :=
  (∀ (k q : Nat) (v : BitVec 32) (s : State), s.vfOpen k = true → q < 8 →
    let x := s.queue k q
    x.state ≠ .disabled → x.state ≠ .resetting →
    (v ≠ x.db → (v - x.db).toNat ≤ x.depth → (v - x.sqHead).toNat ≤ x.depth →
      exec (.doorbellWrite k q v) s = .next (s.setQueue k q { x with db := v, cut := false, dbs := x.dbs ++ [(v, s.pw.now)] })) ∧
    (v = x.db → (v - x.sqHead).toNat ≤ x.depth → exec (.doorbellWrite k q v) s = .next s) ∧
    (x.depth < (v - x.db).toNat ∨ x.depth < (v - x.sqHead).toNat →
      ∃ t, exec (.doorbellWrite k q v) s = .next t ∧ (t.queue k q).db = x.db ∧ (t.queue k q).sqHead = x.sqHead ∧ (t.queue k q).dbErr = true ∧
        t.ram = s.ram ∧ t.dsp = s.dsp) ∧
    ((v - x.cqDb).toNat ≤ (x.cqTail - x.cqDb).toNat → exec (.cqDoorbellWrite k q v) s = .next (s.setQueue k q { x with cqDb := v })) ∧
    ((x.cqTail - x.cqDb).toNat < (v - x.cqDb).toNat → exec (.cqDoorbellWrite k q v) s = .next (raiseHost k k s))) ∧
  (∀ (k q : Nat) (v : BitVec 64) (s : State), q < 8 →
    let x := s.queue k q
    (s.vfOpen k = true → x.state = .disabled →
      exec (.hqQcfgWrite k q v) s = .next (s.setQueue k q { x with cfg := BitVec.ofNat 64 (v.toNat &&& 0xFFFF3FF71F) }) ∧
      (k < s.link.numVfs → (s.lease k).quarantined = false →
        let d := x.cfg.toNat % 32
        let offer := x.cfg.toNat / 256 % 8
        let good := 6 ≤ d ∧ d ≤ 16
        (good → x.sqBase.toNat % 4096 = 0 → x.cqBase.toNat % 4096 = 0 → x.home < s.nBench → offer ≠ 0 →
          exec (.queueEnable k q) s = .next (s.setQueue k q { sqBase := x.sqBase, cqBase := x.cqBase, cqRing := x.cqBase, cfg := x.cfg,
                                                              state := s.liveState k x.home,
                                                              major := if 4 ≤ offer then 3 else if 2 ≤ offer then 2 else 1 })) ∧
        (¬good → exec (.queueEnable k q) s = .next (s.setQueue k q { x with cerr := 0x02 })) ∧
        (good → x.sqBase.toNat % 4096 ≠ 0 ∨ x.cqBase.toNat % 4096 ≠ 0 → exec (.queueEnable k q) s = .next (s.setQueue k q { x with cerr := 0x03 })) ∧
        (good → x.sqBase.toNat % 4096 = 0 → x.cqBase.toNat % 4096 = 0 → s.nBench ≤ x.home →
          exec (.queueEnable k q) s = .next (s.setQueue k q { x with cerr := 0x04 })) ∧
        (good → x.sqBase.toNat % 4096 = 0 → x.cqBase.toNat % 4096 = 0 → x.home < s.nBench → offer = 0 →
          exec (.queueEnable k q) s = .next (s.setQueue k q { x with cerr := 0x05 }))) ∧
      ((s.lease k).quarantined = true → exec (.queueEnable k q) s = .next (s.setQueue k q { x with cerr := 0x01 }))) ∧
    (s.vfOpen k = true → x.state ≠ .disabled →
      ∃ t, exec (.queueReset k q) s = .next t ∧ (t.queue k q).state = .resetting ∧ { t with queues := s.queues, cmds := s.cmds } = s ∧
        (∀ e ∈ t.cmds, e.2.lease = k → e.2.queue = q → e.2.mute = true ∧ 0 < e.2.owned + bit e.2.delivered)) ∧
    (x.state = .resetting → (∀ h c, h ∈ s.queueCmds k q → s.cmd h = some c → c.result ≠ none) →
      ∃ t, exec (.queueResetDone k q) s = .next t ∧
        t.queue k q = { sqBase := x.sqBase, cqBase := x.cqBase, cfg := x.cfg, cerr := x.cerr } ∧
        (∀ e ∈ t.cmds, e.2.lease ≠ k ∨ e.2.queue ≠ q) ∧ { t with queues := s.queues, cmds := s.cmds } = s))

/-- A queue that may fetch reads one entry: a failed read or a malformed header puts the queue in ERROR with no command made; a good entry that no
check refuses becomes the command with the next handle, whose fields are those of the entry, and the head passes it once its blocks are held; an
entry that checks 1 to 3 of R85 refuse is passed, and its command has ended with the code. A command that has what it needs becomes staged: its
tick is recorded, P too where its home bench is READY, and a wake request is made where it is not. One whose resident slots show that its output
does not fit ends with OUT_SMALL and the bytes required. Where it goes beyond the words of the spec it states the model's own choices: log 2, 85,
103, 104, 105, 106, 107, 115. -/
def Obligations.Fetching : Prop :=
  (∀ (k q : Nat) (f : Fetch) (s : State), s.canFetch k q = true →
    let x := s.queue k q
    let len := fieldLE f.entry 2 1
    let e := fixLen (16 * max 1 len) f.entry
    (f.entryDma ≠ .ok ∨ headerBad x e = true →
      ∃ t, exec (.entryFetch k q f) s = .next t ∧ (t.queue k q).state = .error ∧ t.cmds = s.cmds ∧ t.nextCmd = s.nextCmd) ∧
    (f.entryDma = .ok → headerBad x e = false → len ≤ diff x.db x.sqHead → bodyBad x e = false →
      entryRefusal s x k (fieldLE e 0 2) len (newCmd s k q x e f).foot = none →
      ∃ t c, exec (.entryFetch k q f) s = .next t ∧ t.nextCmd = s.nextCmd + 1 ∧ t.cmd s.nextCmd = some c ∧ c.lease = k ∧ c.queue = q ∧
        c.opcode = fieldLE e 0 2 ∧ c.tag = BitVec.ofNat 32 (fieldLE e 4 4) ∧ c.yref = BitVec.ofNat 32 (fieldLE e 8 4) ∧ c.len = len ∧
        c.fetchedAt = s.pw.now ∧ (t.queue k q).sqHead = (if c.held = true then x.sqHead + BitVec.ofNat 32 len else x.sqHead)) ∧
    (∀ st need, f.entryDma = .ok → headerBad x e = false → len ≤ diff x.db x.sqHead → bodyBad x e = false →
      entryRefusal s x k (fieldLE e 0 2) len (newCmd s k q x e f).foot = some (st, need) →
      ∃ t c, exec (.entryFetch k q f) s = .next t ∧ t.nextCmd = s.nextCmd + 1 ∧ t.cmd s.nextCmd = some c ∧ c.lease = k ∧ c.queue = q ∧
        c.tag = BitVec.ofNat 32 (fieldLE e 4 4) ∧ c.result = some (st, need) ∧ (t.queue k q).sqHead = x.sqHead + BitVec.ofNat 32 len)) ∧
  (∀ (h : Nat) (c : Cmd) (s : State), s.cmd h = some c → c.result = none → c.stagedAt = none → s.mainPower = true → c.held = true → c.refuse = none →
    (∀ n, s.linesHere c = true → s.outSmall c = some n →
      ∃ t d, exec (.commandStaged h) s = .next t ∧ t.cmd h = some d ∧ d.result = some (0x0007, n) ∧ t.pwr = s.pwr ∧ t.ram = s.ram) ∧
    (s.canStage h c = true → s.outSmall c = none →
     ∃ t d, exec (.commandStaged h) s = .next t ∧ t.cmd h = some d ∧ d.stagedAt = some s.pw.now ∧ d.staging = s.pw.now - c.dbTick ∧ d.wake = 0 ∧
      d.a.cls = s.classOf c ∧ d.result = none ∧ d.blocks = c.blocks ∧
      ((s.bench (s.cmdHome c)).state = .ready → d.readyAt = some s.pw.now ∧ t.pwr = s.pwr) ∧
      ((s.bench (s.cmdHome c)).state = .off → s.classOf c ≠ .free → s.cmdHome c < s.nBench → s.pwr.fail.getLsbD (s.cmdHome c) = false →
        d.readyAt = none ∧ s.cmdHome c ∈ t.pwr.fifo)))

/-- An ended command's completion: in a queue of format 1 or 2 the 32 bytes stand at the tail of its ring with PHASE, after its output where its
status is OK; the tail moves by one; its blocks are free, and nothing of it is left in the device. In a queue of format 3 the tail moves only with
the last entry of its batch. While bytes of its output are held it waits (log 142). An unannounced completion that reaches its age sends its vector,
or sets its pending bit where the entry of the MSI-X table is masked, and both counts are 0. Where it goes beyond the words of the spec it states
the model's own choices: log 12, 102, 142. -/
def Obligations.Completions : Prop :=
  (∀ (h : Nat) (c : Cmd) (status need : Nat) (s : State), s.cmd h = some c → c.result = some (status, need) → c.doneAt < s.pw.now →
    s.mainPower = true → s.nextToComplete h c = true → c.mute = false →
    let x := s.queue c.lease c.queue
    (s.outHeld c = true → exec (.completionWrite h) s = .next s) ∧
    (s.outHeld c = false → x.malformed = none → x.dbErr = false →
    let out := match c.copyFrom with | some (a, n) => s.ramRead a n | none => c.out
    (x.major ≠ 3 →
      ∃ t, exec (.completionWrite h) s = .next t ∧ t.cmd h = none ∧ (t.queue c.lease c.queue).cqTail = x.cqTail + 1 ∧
        (c.lease + 1, x.cqRing.toNat + 32 * (x.cqTail.toNat % x.depth),
          completion c.tag status c.owned c.attempts c.wake c.staging 1 0 (if status = 0 then out.length else need) c.queue
            (if x.cqTail.toNat / x.depth % 2 = 0 then 1 else 0)) ∈ t.out.writes ∧
        (status = 0 → out.take c.outCap ≠ [] → (c.lease + 1, c.outAddr, out.take c.outCap) ∈ t.out.writes) ∧ t.ram = s.ram) ∧
    (x.major = 3 → (∀ b ∈ x.batches, b.id = c.batch → b.closed = false) →
      ∃ t, exec (.completionWrite h) s = .next t ∧ t.cmd h = none ∧ (t.queue c.lease c.queue).cqTail = x.cqTail ∧
        (t.queue c.lease c.queue).batches = x.batches.map fun b =>
          if b.id = c.batch then { b with res := b.res ++ [c.entryRes b.first status (if status = 0 then out.length else need)] } else b) ∧
    (x.major = 3 → ∀ b ∈ x.batches, b.id = c.batch → b.closed = true → b.res.length + 1 = b.count → (∀ d ∈ x.batches, d.id = c.batch → d = b) →
      ∃ t, exec (.completionWrite h) s = .next t ∧ t.cmd h = none ∧ (t.queue c.lease c.queue).cqTail = x.cqTail + 1 ∧
        ∀ d ∈ (t.queue c.lease c.queue).batches, d.id ≠ c.batch))) ∧
  (∀ (k q : Nat) (s : State),
    let x := s.queue k q
    x.unann ≠ 0 → x.iage ≠ 0 → x.iage ≤ x.age →
    ∃ t, exec (.irqAgeExpiry k q) s = .next t ∧ t.queue k q = { x with unann := 0, age := 0 } ∧
      ((tget msixReset s.link.msix (64 * (k + 1) + x.iv)).getLsbD 96 = false → t.out.msix = s.out.msix ++ [(k + 1, x.iv)] ∧ t.link = s.link) ∧
      ((tget msixReset s.link.msix (64 * (k + 1) + x.iv)).getLsbD 96 = true → t.out.msix = s.out.msix ∧
        tget false t.link.pba (64 * (k + 1) + x.iv) = true))

/-- What the link does: an FLR of a VF resets its queues and forgets its endpoint's version; one of the PF disables every VF and clears the link's
keys; NumVFs takes a value up to the number of leases, and 0 for more; the link goes up and down, PCIE_PERST_N takes it down with an FLR of the
PF; an undefined BAR offset reads as zeros; and a link error raises its event. Where it goes beyond the words of the spec it states the model's
own choices: log 2, 92, 93, 108, 154. -/
def Obligations.HostLink : Prop :=
  ∀ (k n off rate width : Nat) (s : State),
    (s.vfOpen k = true →
      ∃ t, exec (.vfFlr k) s = .next t ∧ (t.ep (k + 2)).ver = none ∧
        ∀ q < 8, (t.queue k q).state = (if (s.queue k q).state = .disabled then .disabled else .resetting)) ∧
    (s.running = true → s.link.up = true →
      (∃ t, exec .pfFlr s = .next t ∧ t.link.numVfs = 0 ∧ t.spdm.ide = none ∧ (t.ep 1).ver = none ∧ t.link.up = true) ∧
      (∃ t, exec (.sriovNumvfsWrite n) s = .next t ∧ t.link.numVfs = (if n ≤ s.nLease then n else 0) ∧ t.link.up = true ∧ t.ram = s.ram) ∧
      (k ≤ s.link.numVfs → barDefined k off = false →
        (∃ t, exec (.barDecodeAccess k off false) s = .next t ∧ t.out.bus = .ok (List.replicate 8 0) ∧ t.queues = s.queues ∧ t.ram = s.ram) ∧
        (∃ t, exec (.barDecodeAccess k off true) s = .next t ∧ t.out.bus = .ok [] ∧ t.queues = s.queues ∧ t.ram = s.ram))) ∧
    (s.mainPower = true →
      (1 ≤ rate → rate ≤ 5 → width = 1 ∨ width = 2 ∨ width = 4 ∨ width = 8 →
        ∃ t, exec (.pcieLinkChange true ⟨rate, width⟩) s = .next t ∧ t.link.up = true ∧ t.link.rate = rate ∧ t.link.width = width ∧
          t.link.numVfs = s.link.numVfs ∧ t.pw.perst = true) ∧
      (rate = 0 ∨ 5 < rate ∨ width ∉ [1, 2, 4, 8] → exec (.pcieLinkChange true ⟨rate, width⟩) s = .next s) ∧
      (∃ t, exec (.pcieLinkChange false ⟨rate, width⟩) s = .next t ∧ t.link.up = false ∧ t.link.rate = 0 ∧ t.link.width = 0 ∧
        t.pw.perst = s.pw.perst) ∧
      (s.pw.perst = true → ∃ t, exec .pciePerst s = .next t ∧ t.link.up = false ∧ t.link.numVfs = 0 ∧ t.pw.perst = false ∧ t.spdm.ide = none) ∧
      (s.link.up = true → 70 ≤ n → n ≤ 72 → exec (.poisonedTlpReceived n) s = .next (raise (0x380 + n) 0xFF s)))

/-! ### The command catalogue -/

namespace Sys2Proof.Claims

/-- Command `h` has one part, which has run its published ticks and has no outcome yet; no first tick waits, and no alarm has taken its key. -/
def Ripe (h : Nat) (c : Cmd) (s : State) : Prop :=
  s.cmd h = some c ∧ c.b = none ∧ c.result = none ∧ c.a.status = none ∧ c.a.total ≠ 0 ∧ c.a.total ≤ c.a.ticks ∧
    s.dsp.due = [] ∧ (s.engine (c.a.eng.getD 84)).erased = none

/-- An engine-free command `h` that is due, whose reference and fields pass the checks of R98; they leave `u`. -/
def FreeDue (op h : Nat) (c : Cmd) (s u : State) : Prop :=
  s.cmd h = some c ∧ c.opcode = op ∧ c.result = none ∧ c.a.cls = .free ∧ (∃ t, c.stagedAt = some t ∧ t < s.pw.now) ∧
    (s.queue c.lease c.queue).state.runs = true ∧ s.leaseLive c.lease = true ∧ s.dsp.due = [] ∧ ∃ l, r98 c false s = (0, u, l)

/-- The answer is a next state `t` in which command `h` has ended in tick `at_` with a status and an output, and `p t` holds. -/
def EndsWith (h status : Nat) (out : Bytes) (at_ : Nat) (p : State → Prop) (o : Host.Outcome State Fault Refusal) : Prop :=
  ∃ t d, o = .next t ∧ t.cmd h = some d ∧ d.result = some (status, 0) ∧ d.out = out ∧ d.doneAt = at_ ∧ p t

/-- What no catalogue command of this kind changes. -/
def QuietFor (s t : State) : Prop := t.ram = s.ram ∧ t.dsp = s.dsp ∧ t.queues = s.queues ∧ t.yard.slots = s.yard.slots ∧ t.cores = s.cores

/-- A new key of `type` and `value` for lease `k` waits in the yard for the end of the tick, at the command's target. -/
def NewKey (c : Cmd) (type : Nat) (value : Bytes) (s t : State) : Prop :=
  QuietFor s t ∧ ∃ x, (c.target, x) ∈ t.yard.next ∧ x.type = type ∧ x.value = value ∧ x.gen = (s.slot c.target).gen + 1 ∧
    x.owner = if c.lease = 64 then 0x40 else c.lease

/-- The reference to the command's target with its next generation, as its 4 output bytes. -/
def targetRef (c : Cmd) (s : State) : Bytes := leBytes 4 (mkRef c.target ((s.slot c.target).gen + 1)).toNat

end Sys2Proof.Claims

/-- Commands that verify end with OK where the check holds and with its failure status where it does not: 0x0101 for a MAC, 0x0102 for a GCM tag,
0x0100 for a signature. A GCM decryption's marks go, and a failed one leaves its held bytes zero. Where it goes beyond the words of the spec it
states the model's own choices: log 4, 12, 114, 120. -/
def Obligations.CatalogueChecks : Prop :=
  ∀ (h : Nat) (c : Cmd) (s : State), Ripe h c s →
    let key := c.a.val
    let pub := (c.a.key.map Slot.pub).getD []
    let quiet := QuietFor s
    let len := if c.p0 ≤ 6 then algOut c.p0 else c.opa
    (c.opcode = 0x0102 →
      let m := c.inLen - c.p1 - c.opc
      let mac := fixLen len (Config.macRaw c.p0 len key (c.input.take c.p1) (slice c.input c.p1 m))
      EndsWith h (if mac.take c.opc = slice c.input (c.p1 + m) c.opc then 0 else 0x0101) [] c.a.lastAt quiet (exec (.macVerify h) s)) ∧
    (c.opcode = 0x0207 →
      let m := c.inLen - c.opc
      EndsWith h (if (fixLen 16 (Config.cmacRaw key (c.input.take m))).take c.opc = slice c.input m c.opc then 0 else 0x0101) [] c.a.lastAt quiet
        (exec (.cmacVerify h) s)) ∧
    (c.opcode = 0x0205 →
      let iv := c.u3.take 12
      let ct := slice c.input c.aad c.plain
      let mine := fun (x : Held) => x.bench = c.a.eng.getD 0 / 5 ∧ x.lease = c.lease
      (fixLen 16 (Config.gcmTagRaw key iv (c.input.take c.aad) ct) = slice c.input (c.aad + c.plain) 16 →
        EndsWith h 0 (fixLen ct.length (Config.gcmTextRaw key iv ct)) c.a.lastAt (fun t => t.ram = s.ram ∧
          ∀ x ∈ t.held, ¬mine x) (exec (.gcmDec h) s)) ∧
      (fixLen 16 (Config.gcmTagRaw key iv (c.input.take c.aad) ct) ≠ slice c.input (c.aad + c.plain) 16 →
        EndsWith h 0x0102 [] c.a.lastAt (fun t => (∀ x ∈ t.held, ¬mine x) ∧
          ∀ x ∈ s.held, mine x → ∀ a, x.lo ≤ a → a < x.hi → Memory.get t.ram a = 0) (exec (.gcmDec h) s))) ∧
    (c.opcode = 0x0311 →
      let pk := if c.yref = 0 then slice c.input 0 32 else pub
      let rest := if c.yref = 0 then c.input.drop 32 else c.input
      EndsWith h (if Config.edVerify pk (rest.drop 64) (slice rest 0 64) then 0 else 0x0100) [] c.a.lastAt quiet (exec (.edVerify h) s)) ∧
    (c.opcode = 0x0313 →
      let curve := if c.yref = 0 then (if c.p0 = 1 then 3 else 4) else curveOf c.a.keyType
      let l := if curve = 3 then 32 else 48
      let pk := if c.yref = 0 then slice c.input 0 (2 * l) else pub
      let rest := if c.yref = 0 then c.input.drop (2 * l) else c.input
      EndsWith h (if Config.ecdsaVerify curve pk (rest.drop (2 * l)) (slice rest 0 (2 * l)) then 0 else 0x0100) [] c.a.lastAt quiet (exec (.ecdsaVerify h) s)) ∧
    (c.opcode = 0x0402 →
      let pk := if c.yref = 0 then slice c.input 0 1952 else fixLen 1952 (Config.mldsaPubRaw key)
      let rest := if c.yref = 0 then c.input.drop 1952 else c.input
      let m := rest.drop 3309
      EndsWith h (if Config.mldsaVerify pk (m.take c.p0) (m.drop c.p0) (slice rest 0 3309) then 0 else 0x0100) [] c.a.lastAt quiet (exec (.mldsaVerify h) s))

/-- Commands that make a key write it into their target slot from the next tick, with the next generation, and output its reference and what else
their row gives: a public key, or a ciphertext. An invalid peer point or encapsulation key ends with OPERAND (0x0121), a blob whose header or
integrity fails with 0x0103. Where it goes beyond the words of the spec it states the model's own choices: log 4, 12, 15. -/
def Obligations.CatalogueKeys : Prop :=
  ∀ (h : Nat) (c : Cmd) (s : State), Ripe h c s →
    let key := c.a.val
    let quiet := QuietFor s
    let drawn := c.a.drawn
    let ref := targetRef c s
    (c.opcode = 0x0600 → EndsWith h 0 ref c.a.lastAt (NewKey c c.p0 drawn s) (exec (.keyGen h) s)) ∧
    (c.opcode = 0x0603 →
      let n := typeValue c.p0 (if 3 ≤ c.p0 then c.p1 else 0)
      EndsWith h 0 ref c.a.lastAt (NewKey c c.p0 (fixLen n (Config.deriveRaw n key c.input)) s) (exec (.keyDerive h) s)) ∧
    (c.opcode = 0x0400 →
      EndsWith h 0 (ref ++ fixLen 1952 (Config.mldsaPubRaw drawn)) c.a.lastAt (NewKey c 0x30 drawn s) (exec (.mldsaKeygen h) s)) ∧
    (c.opcode = 0x0410 →
      EndsWith h 0 (ref ++ fixLen 1184 (Config.mlkemPubRaw drawn)) c.a.lastAt (NewKey c 0x31 drawn s) (exec (.mlkemKeygen h) s)) ∧
    (c.opcode = 0x0411 →
      let ek := if c.yref = 0 then c.input else fixLen 1184 (Config.mlkemPubRaw key)
      (Config.mlkemEkOk ek = true →
        EndsWith h 0 (ref ++ fixLen 1088 (Config.mlkemEncCtRaw ek drawn)) c.a.lastAt
          (NewKey c 0x04 (fixLen 32 (Config.mlkemEncKeyRaw ek drawn)) s) (exec (.mlkemEncaps h) s)) ∧
      (Config.mlkemEkOk ek = false → EndsWith h 0x0121 [] c.a.lastAt quiet (exec (.mlkemEncaps h) s))) ∧
    (c.opcode = 0x0412 →
      EndsWith h 0 ref c.a.lastAt (NewKey c 0x04 (fixLen 32 (Config.mlkemDecKeyRaw key c.input)) s) (exec (.mlkemDecaps h) s)) ∧
    (c.opcode = 0x0330 →
      let priv := newPrivate c.p0 drawn
      EndsWith h 0 (ref ++ pubOf c.p0 priv) c.a.lastAt (NewKey c (ecType c.p0) (curveValue c.p0 priv (pubOf c.p0 priv)) s) (exec (.keygenEc h false) s)) ∧
    (∀ curve l peer, curve = curveOf c.a.keyType → l = (if curve = 4 then 48 else 32) →
      peer = Config.agree curve ((c.a.key.map Slot.priv).getD []) c.input →
      (c.opcode = 0x0320 →
        (∀ v, peer = some v → EndsWith h 0 ref c.a.lastAt (NewKey c 0x04 (fixLen l v) s) (exec (.x25519 h false) s)) ∧
        (peer = none → EndsWith h 0x0121 [] c.a.lastAt quiet (exec (.x25519 h false) s))) ∧
      (c.opcode = 0x0321 →
        (∀ v, peer = some v → EndsWith h 0 ref c.a.lastAt (NewKey c 0x04 (fixLen l v) s) (exec (.ecdh h false) s)) ∧
        (peer = none → EndsWith h 0x0121 [] c.a.lastAt quiet (exec (.ecdh h false) s)))) ∧
    (c.opcode = 0x0602 →
      (∀ v, blobHeaderOk c.input = true → unwrapBlob key c.input = some v →
        EndsWith h 0 ref c.a.lastAt (NewKey c (blobType c.input) v s) (exec (.keyUnwrap h) s)) ∧
      (blobHeaderOk c.input = false ∨ unwrapBlob key c.input = none → EndsWith h 0x0103 [] c.a.lastAt quiet (exec (.keyUnwrap h) s)))

/-- The splitter's signing, the hybrids of two parts, wrapping, and the public key: a signing that needs more than 256 attempts ends with 0x0123 and
the splitter's count, and one whose result does not verify with FAULT_CHECK; a hybrid signature is both signatures; a hybrid verification is OK
where both are, else 0x0100; and a failed fault check ends with FAULT_CHECK (0x0131) and no output. Where it goes beyond the words of the spec it
states the model's own choices: log 2, 4, 12. -/
def Obligations.CatalogueSigning : Prop :=
  ∀ (h : Nat) (c : Cmd) (s : State),
    (Ripe h c s → c.opcode = 0x0401 →
      let q := c.a.eng.getD 0
      let sig := fixLen 3309 (Config.mldsaSignRaw c.a.val c.ctxOf c.msgOf c.a.drawn)
      let counted := fun (t : State) => (t.engine q).sigs = satAdd (s.engine q).sigs 1 ∧ t.ram = s.ram ∧ t.yard.slots = s.yard.slots
      (256 < Config.mldsaAttemptsRaw c.a.val c.ctxOf c.msgOf c.a.drawn → ∀ bad,
        EndsWith h 0x0123 [] c.a.lastAt (fun t => (t.engine q).limit = satAdd (s.engine q).limit 1 ∧ counted t) (exec (.mldsaSign h bad) s)) ∧
      (Config.mldsaAttemptsRaw c.a.val c.ctxOf c.msgOf c.a.drawn ≤ 256 →
        (Config.mldsaVerify (fixLen 1952 (Config.mldsaPubRaw c.a.val)) c.ctxOf c.msgOf sig = true →
          EndsWith h 0 sig c.a.lastAt counted (exec (.mldsaSign h false) s)) ∧
        (Config.mldsaVerify (fixLen 1952 (Config.mldsaPubRaw c.a.val)) c.ctxOf c.msgOf sig = false →
          EndsWith h 0x0131 [] c.a.lastAt counted (exec (.mldsaSign h false) s)) ∧
        EndsWith h 0x0131 [] c.a.lastAt counted (exec (.mldsaSign h true) s))) ∧
    (Ripe h c s → c.opcode = 0x0601 →
      EndsWith h 0 (wrapBlob c.p0 c.a.val (c.a.key2.getD {}) (slice c.a.drawn 32 12)) c.a.lastAt (QuietFor s) (exec (.keyWrap h) s)) ∧
    (Ripe h c s → c.opcode = 0x0604 → c.a.cls ≠ .free →
      EndsWith h 0 (publicOf (c.a.key.getD {})) c.a.lastAt (QuietFor s) (exec (.keyPub h false) s) ∧
      EndsWith h (if isCurve c.a.keyType then 0x0131 else 0) (if isCurve c.a.keyType then [] else publicOf (c.a.key.getD {})) c.a.lastAt (QuietFor s)
        (exec (.keyPub h true) s)) ∧
    (Ripe h c s →
      (c.opcode = 0x0310 → EndsWith h 0x0131 [] c.a.lastAt (QuietFor s) (exec (.edSign h true) s)) ∧
      (c.opcode = 0x0312 → EndsWith h 0x0131 [] c.a.lastAt (QuietFor s) (exec (.ecdsaSign h true) s)) ∧
      (c.opcode = 0x0320 → EndsWith h 0x0131 [] c.a.lastAt (QuietFor s) (exec (.x25519 h true) s)) ∧
      (c.opcode = 0x0321 → EndsWith h 0x0131 [] c.a.lastAt (QuietFor s) (exec (.ecdh h true) s)) ∧
      (c.opcode = 0x0330 → EndsWith h 0x0131 [] c.a.lastAt (QuietFor s) (exec (.keygenEc h true) s))) ∧
    (∀ p, s.cmd h = some c → c.b = some p → c.result = none → c.a.status = none → p.status = none → c.a.total ≠ 0 → c.a.total ≤ c.a.ticks →
      p.total ≠ 0 → p.total ≤ p.ticks → s.dsp.due = [] → (s.engine (c.a.eng.getD 84)).erased = none → (s.engine (p.eng.getD 84)).erased = none →
      (c.opcode = 0x0500 →
        let sig := fixLen 3309 (Config.mldsaSignRaw p.val c.ctxOf c.msgOf p.drawn)
        let ends := fun (st : Nat) (out : Bytes) => EndsWith h st out c.lastTick (fun t => t.ram = s.ram ∧ t.yard.slots = s.yard.slots)
          (exec (.hybSign h false false) s)
        (256 < Config.mldsaAttemptsRaw p.val c.ctxOf c.msgOf p.drawn → ends 0x0123 []) ∧
        (Config.mldsaAttemptsRaw p.val c.ctxOf c.msgOf p.drawn ≤ 256 →
          (Config.mldsaVerify (fixLen 1952 (Config.mldsaPubRaw p.val)) c.ctxOf c.msgOf sig = true →
            ends 0 (fixLen 64 (Config.edSignRaw (c.a.val.take 32) c.msgOf) ++ sig)) ∧
          (Config.mldsaVerify (fixLen 1952 (Config.mldsaPubRaw p.val)) c.ctxOf c.msgOf sig = false → ends 0x0131 []))) ∧
      (c.opcode = 0x0501 →
        let o1 := if c.yref = 0 then 32 else 0
        let o2 := o1 + if c.opa = 0 then 1952 else 0
        let ed := if c.yref = 0 then slice c.input 0 32 else (c.a.key.map Slot.pub).getD []
        let ml := if c.opa = 0 then slice c.input o1 1952 else fixLen 1952 (Config.mldsaPubRaw p.val)
        let m := c.input.drop (o2 + 64 + 3309)
        EndsWith h
          (if Config.edVerify ed (m.drop c.p0) (slice c.input o2 64) ∧
            Config.mldsaVerify ml (m.take c.p0) (m.drop c.p0) (slice c.input (o2 + 64) 3309)
            then 0 else 0x0100)
          [] c.lastTick (QuietFor s) (exec (.hybVerify h) s)))

/-- Commands that compute an output from their input and their key, in their last tick: digest, MAC, the wedge's modes, CMAC, random bytes, and the
signing and public operations of the cutter whose fault check is good. Each ends with OK and the value of its standard's function, cut to its
length; a private operation whose blind is not invertible or whose result does not give the input back, and a signature with r or s 0, end with
FAULT_CHECK (0x0131). Commands without an engine, in the tick after their staging, once their checks pass: NOP changes nothing but its own end;
KEY_INVAL empties its slot from the next tick with the next generation, or retires it at generation 0xFFFF; KEY_INFO outputs the slot's header;
KEY_PUB the public key. PRG_CALL waits for its core, or ends with PROGRAM (0x0132) where no program is in force. Where it goes beyond the words of
the spec it states the model's own choices: log 4, 5, 12. -/
def Obligations.CatalogueOutputs : Prop :=
  (∀ (h : Nat) (c : Cmd) (s : State), Ripe h c s →
    let key := c.a.val
    let quiet := QuietFor s
    let len := if c.p0 ≤ 6 then algOut c.p0 else c.opa
    let aad := c.input.take c.aad
    let text := c.input.drop c.aad
    let gcm := fun (iv : Bytes) => fixLen text.length (Config.gcmTextRaw key iv text)
    let tag := fun (iv : Bytes) => fixLen 16 (Config.gcmTagRaw key iv aad (gcm iv))
    (c.opcode = 0x0100 → EndsWith h 0 (fixLen len (Config.digestRaw c.p0 len c.input)) c.a.lastAt quiet (exec (.digest h) s)) ∧
    (c.opcode = 0x0101 →
      EndsWith h 0 (fixLen len (Config.macRaw c.p0 len key (c.input.take c.p1) (c.input.drop c.p1))) c.a.lastAt quiet (exec (.macGen h) s)) ∧
    (c.opcode = 0x0200 → EndsWith h 0 (fixLen c.input.length (Config.cbcEncRaw key c.u3 c.input)) c.a.lastAt quiet (exec (.cbcEnc h) s)) ∧
    (c.opcode = 0x0201 → EndsWith h 0 (fixLen c.input.length (Config.cbcDecRaw key c.u3 c.input)) c.a.lastAt quiet (exec (.cbcDec h) s)) ∧
    (c.opcode = 0x0202 → EndsWith h 0 (fixLen c.input.length (Config.ctrRaw key c.u3 c.input)) c.a.lastAt quiet (exec (.ctr h) s)) ∧
    (c.opcode = 0x0203 → EndsWith h 0 (gcm (c.u3.take 12) ++ tag (c.u3.take 12)) c.a.lastAt quiet (exec (.gcmEnc h) s)) ∧
    (c.opcode = 0x0204 →
      let iv := slice c.a.drawn 32 12
      EndsWith h 0 (iv ++ (gcm iv ++ tag iv)) c.a.lastAt quiet (exec (.gcmEncRiv h) s)) ∧
    (c.opcode = 0x0206 → EndsWith h 0 (fixLen 16 (Config.cmacRaw key c.input)) c.a.lastAt quiet (exec (.cmacGen h) s)) ∧
    (c.opcode = 0x0700 → EndsWith h 0 c.a.drawn c.a.lastAt quiet (exec (.rngGet h) s)) ∧
    (c.opcode = 0x0310 → EndsWith h 0 (fixLen 64 (Config.edSignRaw (key.take 32) c.input)) c.a.lastAt quiet (exec (.edSign h false) s)) ∧
    (c.opcode = 0x0312 →
      let l := if curveOf c.a.keyType = 3 then 32 else 48
      let n := Config.groupOrder (curveOf c.a.keyType)
      let half := fun (i : Byte) => fixLen 64 (Config.digestRaw 3 64 ([i] ++ key.take l ++ c.input ++ c.a.drawn.take l))
      let k := beNat ((half 1 ++ half 2).take (if curveOf c.a.keyType = 3 then 40 else 56)) % (n - 1) + 1
      let r := (Config.pointMul (curveOf c.a.keyType) k (Config.pointBase (curveOf c.a.keyType))).getD 0 % 2 ^ (8 * l) % n
      let z := (modInv k n).getD 0 * (beNat c.input + r * beNat (key.take l)) % n
      (r ≠ 0 → z ≠ 0 → EndsWith h 0 (beBytes l r ++ beBytes l z) c.a.lastAt quiet (exec (.ecdsaSign h false) s)) ∧
      (r = 0 ∨ z = 0 → EndsWith h 0x0131 [] c.a.lastAt quiet (exec (.ecdsaSign h false) s))) ∧
    (c.opcode = 0x0301 → c.yref ≠ 0 →
      EndsWith h 0 (beBytes (rsaLen c.a.keyType) (powMod (beNat c.input) 65537 (rsaKey c.a.keyType key).n)) c.a.lastAt quiet (exec (.rsaPub h) s)) ∧
    (c.opcode = 0x0301 → c.yref = 0 →
      let k := rsaLen (0x1F + c.p0)
      EndsWith h 0 (beBytes k (powMod (beNat (slice c.input k k)) 65537 (beNat (slice c.input 0 k)))) c.a.lastAt quiet (exec (.rsaPub h) s)) ∧
    (c.opcode = 0x0300 →
      let k := rsaKey c.a.keyType key
      let y := k.private_ (beNat c.input)
      let good := Nat.gcd (beNat (c.a.drawn.take (rsaLen c.a.keyType)) % k.n) k.n = 1 ∧ powMod y 65537 k.n = beNat c.input
      (good → EndsWith h 0 (beBytes (rsaLen c.a.keyType) y) c.a.lastAt quiet (exec (.rsaPriv h false) s)) ∧
      (¬good → EndsWith h 0x0131 [] c.a.lastAt quiet (exec (.rsaPriv h false) s)) ∧
      EndsWith h 0x0131 [] c.a.lastAt quiet (exec (.rsaPriv h true) s))) ∧
  (∀ (h : Nat) (c : Cmd) (s u : State),
    (FreeDue 0x0000 h c s u → u.cmd h = some c → EndsWith h 0 [] u.pw.now (QuietFor u) (exec (.nop h) s)) ∧
    (FreeDue 0x0605 h c s u → u.cmd h = some c →
      let i := refSlot c.yref
      let gone := fun (j : Nat) => (j, if (u.slot j).gen = 0xFFFF then ({ gen := 0xFFFF, retired := true } : Slot) else { gen := (u.slot j).gen + 1 })
      EndsWith h 0 [] u.pw.now (fun t => t.yard.slots = u.yard.slots ∧ gone i ∈ t.yard.next ∧
        ∀ j, 0 < j → j < typeRun (u.slot i).type → (u.slot (i + j)).type = 0x2F → (u.slot (i + j)).run = j → (u.slot (i + j)).gen = (u.slot i).gen →
          gone (i + j) ∈ t.yard.next) (exec (.keyInval h) s)) ∧
    (FreeDue 0x0606 h c s u → u.cmd h = some c →
      EndsWith h 0 (u.slot (refSlot c.yref)).header u.pw.now (QuietFor u) (exec (.keyInfo h) s)) ∧
    (FreeDue 0x0604 h c s u → u.cmd h = some c → c.a.total = 0 →
      EndsWith h 0 (publicOf (u.slot (refSlot c.yref))) u.pw.now (QuietFor u) (exec (.keyPub h false) s)) ∧
    (∀ l, s.cmd h = some c → s.callDue c = true → c.admitted = false → r98 c false s = (0, u, l) →
      ((u.lease c.lease).inForce ≠ [] → exec (.prgCall h) s = .next (u.setCmd h { c with admitted := true })) ∧
      ((u.lease c.lease).inForce = [] → ∃ t d, exec (.prgCall h) s = .next t ∧ t.cmd h = some d ∧ d.result = some (0x0132, 0) ∧
        d.owned = 1 + (c.b.map Part.ticks).getD 0)))

/-! ### Engines and jobs -/

namespace Sys2Proof.Claims

/-- Job `j` of lease `k` on engine `q` runs in this tick, and its current request is the `size` bytes `b`; no first tick waits, and no alarm has taken
the engine's keys. -/
def Runs (q k size : Nat) (j : Job) (b : Bytes) (s : State) : Prop :=
  k ≤ 64 ∧ s.job q k = j ∧ j.granted = true ∧ j.state = .run ∧ j.ending = none ∧ j.idx < j.count ∧ 0 < j.budget ∧
    s.ramRead (j.jaddr.toNat + size * j.idx) size = b ∧ s.dsp.due = [] ∧ (s.engine q).erased = none

/-- Every other job port stands. -/
def OtherJobs (q k : Nat) (s t : State) : Prop := ∀ i, i ≠ 65 * q + k → tget {} t.jobs i = tget {} s.jobs i

/-- The answer is a next state `t` in which request `idx` of the job has ended well: STEP names it, the next request is current or the job ends OK in
this tick, and `p t` holds. -/
def RequestDone (q k : Nat) (j : Job) (s : State) (p : State → Prop) (o : Host.Outcome State Fault Refusal) : Prop :=
  ∃ t, o = .next t ∧ OtherJobs q k s t ∧ (t.job q k).step = j.idx ∧ (t.job q k).idx = j.idx + 1 ∧ (t.job q k).left = none ∧
    (t.job q k).ending = (if j.idx + 1 = j.count then some 0 else none) ∧ p t

/-- Nothing but the job, the target slots it lets go and memory differs. -/
def OnlyJob (s t : State) : Prop := { t with jobs := s.jobs, yard := { t.yard with freed := s.yard.freed }, ram := s.ram } = s

/-- The job has spent `n` fc and cell `d` is `c`; every other cell stands. -/
def CellIs (q k n d : Nat) (c : Cell) (j : Job) (t : State) : Prop :=
  (t.job q k).fc = j.fc + BitVec.ofNat 64 n ∧ (t.job q k).cell d = c ∧ ∀ i, i ≠ d → (t.job q k).cell i = j.cell i

/-- `t`'s memory is that of `s` with the bytes `b` at `a`. -/
def Wrote (a : Nat) (b : Bytes) (s t : State) : Prop :=
  ∀ x, Memory.get t.ram x = if a ≤ x ∧ x < a + b.length then b.getD (x - a) 0 else Memory.get s.ram x

/-- The answer is a next state in which the job ends in this tick with `st`. -/
def JobEnds (q k st : Nat) (o : Host.Outcome State Fault Refusal) : Prop :=
  ∃ t, o = .next t ∧ (t.job q k).ending = some st ∧ (t.job q k).granted = false

end Sys2Proof.Claims

/-- GO on a job port: a list of aligned requests in the lease's pages, with at most 16 lines, waits from the next tick with STEP and FC at 0, and
wakes its bench; a list that is not, or a port whose engine runs no jobs, is DONE at once with 0x01 or 0x05; a COUNT of 0 changes nothing. A write
of CLR notes the lease; at a tick boundary the engine clears the records of a noted lease of which no quantum runs there: its live job ends with
0x0A first, the command record of a host command that has begun holds no key, a wedge counts the erasure, a digest engine's contexts of the lease
hold nothing, and the mark is gone; a noted lease whose quantum runs waits. Where it goes beyond the words of the spec it states the model's own
choices: log 3, 98, 122, 124. -/
def Obligations.EngineJobs : Prop :=
  (∀ (core e count k : Nat) (s : State), s.portLease core = some k → k ≤ 64 →
    let go := fun (e : Nat) => match e with
      | 0 => exec (.cutJctlGo core 0 count) s
      | 1 => exec (.cutJctlGo core 1 count) s
      | 2 => exec (.splJctlGo core count) s
      | 3 => exec (.wdgJctlGo core count) s
      | _ => exec (.digJctlGo core count) s
    let size := if e ≤ 1 then 16 else if e = 3 then 64 else 32
    let most := if e ≤ 1 then 256 else if e = 3 then 32 else 64
    let q := 5 * coreBench core + e
    let j := s.job q k
    e ≤ 4 → (64 ≤ core → e ≠ 1) → j.state = .idle ∨ j.state = .done →
    (count = 0 → go e = .next s) ∧
    (1 ≤ count → (s.engine q).jobs = false → ∃ t, go e = .next t ∧ (t.job q k).state = .done ∧ (t.job q k).status = 0x05) ∧
    (1 ≤ count → count ≤ most → (s.engine q).jobs = true → j.jaddr.toNat % size ≠ 0 →
      ∃ t, go e = .next t ∧ (t.job q k).state = .done ∧ (t.job q k).status = 0x01) ∧
    (1 ≤ count → count ≤ most → (s.engine q).jobs = true → j.jaddr.toNat % size = 0 →
      s.inPages (coreBench core) k j.jaddr.toNat (size * count) = true →
      let needs := (List.range count).map fun i => requestNeeds e (s.ramRead (j.jaddr.toNat + size * i) size)
      (needs.flatMap fun x => x.1.flatMap fun r => s.namedSlots k (BitVec.ofNat 32 r)).eraseDups.length ≤ 16 →
      ∃ t, go e = .next t ∧ (t.job q k).state = .wait ∧ (t.job q k).count = count ∧ (t.job q k).idx = 0 ∧ (t.job q k).step = 0 ∧
        (t.job q k).fc = 0 ∧ (t.job q k).eligibleAt = s.pw.now + 1 ∧ (t.job q k).needsRng = needs.any Prod.snd ∧ t.ram = s.ram ∧
        t.dsp = s.dsp)) ∧
  (∀ (q k : Nat) (s : State), k < 64 →
    (s.islandRuns = true →
      let noted := fun (o : Host.Outcome State Fault Refusal) => ∃ t, o = .next t ∧ { t with engines := s.engines, bus := s.bus } = s ∧
        (∀ i, i ≠ q → t.engine i = s.engine i) ∧
        t.engine q = { s.engine q with clr := if (s.engine q).clr.contains k then (s.engine q).clr else (s.engine q).clr ++ [k] }
      (q % 5 ≤ 1 → noted (exec (.cutCtlClr q k) s)) ∧ (q % 5 = 2 → noted (exec (.splCtlClr q k) s)) ∧
      (q % 5 = 3 → noted (exec (.wdgCtlClr q k) s)) ∧ (q % 5 = 4 → noted (exec (.digCtlClr q k) s))) ∧
    ((s.engine q).clr = [k] → s.leaseOn q k = true → exec (.engineRecordClear q) s = .next s) ∧
    ((s.engine q).clr = [k] → s.leaseOn q k = false →
      ∃ t, exec (.engineRecordClear q) s = .next t ∧ (t.engine q).clr = [] ∧ (t.job q k).cells = [] ∧ (t.job q k).polys = [] ∧
        (t.job q k).drawn = [] ∧ (t.job q k).key = none ∧ ((s.job q k).live = true → (t.job q k).ending = some 0x0A) ∧ t.yard.slots = s.yard.slots ∧
        (∀ h c, s.cmd h = some c → c.lease = k → c.result = none → c.a.eng = some q → 0 < c.a.ticks → ∃ d, t.cmd h = some d ∧ d.a = c.a.cleared) ∧
        (q % 5 = 3 → (t.engine q).kerase = satAdd (s.engine q).kerase 1) ∧ (q % 5 ≠ 3 → t.ram = s.ram) ∧ (q % 5 ≠ 4 → OtherJobs q k s t) ∧
        (q % 5 = 4 → ∀ x, x / 8 = q / 5 → s.ctxOwner x = k → (tget {} t.dig x).state ≠ .open_ ∧ (tget {} t.dig x).state ≠ .done)))

/-- Short cutter steps that fit in the budget. LOAD and STORE move 8 w bytes between memory and a cell, and a STORE of a SECRET cell ends the job with
0x04; MADD, MSUB and MMUL write the sum, the difference and the Montgomery product of values below an odd modulus, SECRET as their sources are;
PADD writes the curve's sum of two points; RELEASE_PT clears SECRET from a point on the curve, and ends the job with 0x03 for the identity; YLOAD
writes a component of a key; YSTORE puts a new key into the yard at the end of the tick. Long cutter steps. While the budget is below what is
left, the step takes all of it and goes on in the job's next tick; with the rest in the budget it ends: MPREP writes R^2 mod m, MINV the inverse
of a value without a common factor and 0x03 with one, MEXP a power in Montgomery form, PMUL the curve's multiple of a point, the identity for a
scalar of 0, or 0x03, RELEASE_PUB a value whose public power checks, without SECRET, and 0x31 for one that does not, NATIVE the result of its
catalogue row; a NATIVE fault check ends the job with 0x31. Where it goes beyond the words of the spec it states the model's own choices: log 11,
18, 119. -/
def Obligations.CutterRecords : Prop :=
  (∀ (q k : Nat) (j : Job) (b : Bytes) (s : State), q % 5 ≤ 1 → Runs q k 16 j b s → (stepOf b).bad = false →
    let x := stepOf b
    let addr := x.param % 2 ^ 32
    let reached := addr % 8 = 0 ∧ s.inPages (q / 5) k addr (8 * x.w) = true
    let m := j.limbs x.m x.w
    let a := j.limbs x.a x.w
    let v := if x.b = 0xFF then 1 else j.limbs x.b x.w
    let sec := (j.cell x.a).secret || (x.b ≠ 0xFF && (j.cell x.b).secret) || (j.cell x.m).secret
    let num := fun (f : Nat → Prop) (n : Nat) (o : Host.Outcome State Fault Refusal) => n ≤ j.budget → m % 2 = 1 → a < m → v < m →
      ∃ r, r < m ∧ f r ∧ RequestDone q k j s (fun t => OnlyJob s t ∧ t.ram = s.ram ∧ CellIs q k n x.d { val := r, limbs := x.w, secret := sec } j t) o
    let wp := pointLimbs x.curve
    let identity := (if x.curve = 1 then 2 ^ 256 else Config.identityPoint x.curve) % 2 ^ (64 * wp)
    (x.op = 0x01 → 8 + x.w ≤ j.budget → reached → RequestDone q k j s (fun t => OnlyJob s t ∧ t.ram = s.ram ∧
      CellIs q k (8 + x.w) x.d { val := leNat (s.ramRead addr (8 * x.w)), limbs := x.w } j t) (exec (.cutLoad q k) s)) ∧
    (x.op = 0x01 → 8 + x.w ≤ j.budget → ¬reached → JobEnds q k 0x01 (exec (.cutLoad q k) s)) ∧
    (x.op = 0x02 → 8 + x.w ≤ j.budget → reached → (j.cell x.a).secret = false → RequestDone q k j s (fun t => OnlyJob s t ∧
      Wrote addr (leBytes (8 * x.w) a) s t ∧ ∀ i, (t.job q k).cell i = j.cell i) (exec (.cutStore q k) s)) ∧
    (x.op = 0x02 → 8 + x.w ≤ j.budget → (j.cell x.a).secret = true → JobEnds q k 0x04 (exec (.cutStore q k) s)) ∧
    (x.op = 0x08 → num (fun r => r = (a + v) % m) (4 + ceilDiv x.w 4) (exec (.madd q k) s)) ∧
    (x.op = 0x09 → num (fun r => (r + v) % m = a) (4 + ceilDiv x.w 4) (exec (.msub q k) s)) ∧
    (x.op = 0x0A → num (fun r => r * 2 ^ (64 * x.w) % m = a * v % m) (4 + 2 * x.w * ceilDiv x.w 16) (exec (.mmul q k) s)) ∧
    (x.op = 0x08 → maddFc x.w ≤ j.budget → m % 2 = 0 ∨ m ≤ a ∨ m ≤ v → JobEnds q k 0x03 (exec (.madd q k) s)) ∧
    (x.op = 0x11 → (if x.curve = 4 then 160 else 96) ≤ j.budget → RequestDone q k j s (fun t => OnlyJob s t ∧ t.ram = s.ram ∧
      CellIs q k (if x.curve = 4 then 160 else 96) x.d
        { val := Config.pointAdd x.curve (j.limbs x.a wp) (j.limbs x.b wp) % 2 ^ (64 * wp), limbs := wp,
          secret := (j.cell x.a).secret || (j.cell x.b).secret } j t) (exec (.cutPadd q k) s)) ∧
    (x.op = 0x19 → (if x.curve = 4 then 512 else 256) ≤ j.budget → j.limbs x.a wp ≠ identity →
      Config.pointOk x.curve (j.limbs x.a wp) = true → RequestDone q k j s (fun t => OnlyJob s t ∧ t.ram = s.ram ∧
        CellIs q k (if x.curve = 4 then 512 else 256) x.d { val := j.limbs x.a wp, limbs := wp } j t) (exec (.releasePt q k) s)) ∧
    (x.op = 0x19 → (if x.curve = 4 then 512 else 256) ≤ j.budget → j.limbs x.a wp ≠ identity →
      Config.pointOk x.curve (j.limbs x.a wp) = false → JobEnds q k 0x31 (exec (.releasePt q k) s)) ∧
    (x.op = 0x19 → (if x.curve = 4 then 512 else 256) ≤ j.budget → j.limbs x.a wp = identity → JobEnds q k 0x03 (exec (.releasePt q k) s)) ∧
    (x.op = 0x03 → yloadFc k s x ≤ j.budget →
      let r := BitVec.ofNat 32 addr
      let st := s.checkRef k r [0x10, 0x11, 0x12, 0x13, 0x20, 0x21, 0x22] (x.param / 2 ^ 40 % 2 ^ 8)
      (st ≠ 0 → JobEnds q k (jobStatus st) (exec (.yload q k) s)) ∧
      (st = 0 → ∀ secr val, component (s.slot (refSlot r)) (x.param / 2 ^ 32 % 2 ^ 8) = some (x.w, secr, val) →
      RequestDone q k j s (fun t => t.ram = s.ram ∧ t.dsp = s.dsp ∧
        CellIs q k (yloadFc k s x) x.d { val := val % 2 ^ (64 * x.w), limbs := x.w, secret := secr } j t) (exec (.yload q k) s))) ∧
    (x.op = 0x04 → 32 + x.w ≤ j.budget →
      let target := x.param % 2 ^ 16
      let type := x.param / 2 ^ 16 % 2 ^ 8
      let attr := BitVec.ofNat 16 (x.param / 2 ^ 32 % 2 ^ 16)
      let parent := x.param / 2 ^ 48 % 2 ^ 16
      s.presentsEmpty k parent = false → (s.slot parent).pending = false → (s.slot parent).type ≠ 0x2F → hasAttr (s.slot parent).attr aDERIVE = true →
      attrOk type attr = true → (hasAttr attr aPERSIST = true → s.persistLine 6 parent = true) →
      s.checkTarget k target 1 parent (hasAttr attr aPERSIST) = 0 → ∀ val, storedValue type x.w a = some val →
      RequestDone q k j s (fun t => t.ram = s.ram ∧ t.dsp = s.dsp ∧ t.yard.slots = s.yard.slots ∧
        ∃ y, (target, y) ∈ t.yard.next ∧ y.type = type ∧ y.value = val ∧ y.parent = parent ∧
          y.gen = (s.slot target).gen + 1) (exec (.ystore q k) s))) ∧
  (∀ (q k l : Nat) (j : Job) (b : Bytes) (s : State), q % 5 ≤ 1 → Runs q k 16 j b s → (stepOf b).bad = false → j.left = some l →
    let x := stepOf b
    let rows : List (Nat × Host.Outcome State Fault Refusal) := [(0x0B, exec (.mprep q k) s), (0x0C, exec (.minv q k) s), (0x0D, exec (.mexp q k) s),
      (0x10, exec (.pmul q k) s), (0x18, exec (.releasePub q k) s), (0x1F, exec (.cutNative q k false) s)]
    let m := j.limbs x.m x.w
    let a := j.limbs x.a x.w
    let ends := fun (c : Cell) (o : Host.Outcome State Fault Refusal) =>
      RequestDone q k j s (fun t => OnlyJob s t ∧ t.ram = s.ram ∧ CellIs q k l x.d c j t) o
    let fixed := x.param % 2 = 1
    let p := if fixed then Config.pointBase x.curve else j.limbs x.b (pointLimbs x.curve)
    let key := (j.key.getD {}).value
    let type := (j.key.getD {}).type
    let input := j.bytesFrom x.a (x.param / 2 ^ 48 % 2 ^ 16)
    (∀ r ∈ rows, r.1 = x.op → j.budget < l →
      r.2 = .next (s.setJob q k { j with budget := 0, fc := j.fc + BitVec.ofNat 64 j.budget, left := some (l - j.budget) })) ∧
    (l ≤ j.budget →
      (x.op = 0x0B → m % 2 = 1 → ends { val := 2 ^ (128 * x.w) % m, limbs := x.w, secret := (j.cell x.m).secret } (exec (.mprep q k) s)) ∧
      (x.op = 0x0C → m % 2 = 1 → a < m → Nat.gcd a m = 1 → ∃ r, r < m ∧ a * r % m = 1 % m ∧
        ends { val := r, limbs := x.w, secret := (j.cell x.a).secret || (j.cell x.m).secret } (exec (.minv q k) s)) ∧
      (x.op = 0x0C → m % 2 = 1 → a < m → Nat.gcd a m ≠ 1 → JobEnds q k 0x03 (exec (.minv q k) s)) ∧
      (x.op = 0x0D → m % 2 = 1 → a < m →
        let e := x.param % 2 ^ 13
        let blind := x.param / 2 ^ 24 % 2 = 1
        let order := x.param / 2 ^ 16 % 2 ^ 8
        let c := (j.cell x.b).val
        c < 2 ^ e → ∃ r, r < m ∧ (∀ base, base * 2 ^ (64 * x.w) % m = a →
            r = if e = 0 then 2 ^ (64 * x.w) % m else base ^ (if blind then c + leNat j.drawn * (j.cell order).val else c) * 2 ^ (64 * x.w) % m) ∧
          ends { val := r, limbs := x.w, secret := (j.cell x.a).secret || (j.cell x.b).secret || (j.cell x.m).secret ||
            (blind && (j.cell order).secret) } (exec (.mexp q k) s)) ∧
      (x.op = 0x10 → (∀ v, Config.pointMul x.curve (j.limbs x.a (scalarLimbs x.curve)) p = some v →
          ends { val := (if j.limbs x.a (scalarLimbs x.curve) ≠ 0 then v else if x.curve = 1 then 2 ^ 256 else Config.identityPoint x.curve) %
                   2 ^ (64 * pointLimbs x.curve), limbs := pointLimbs x.curve,
                 secret := (j.cell x.a).secret || (!fixed && (j.cell x.b).secret) } (exec (.pmul q k) s)) ∧
        (Config.pointMul x.curve (j.limbs x.a (scalarLimbs x.curve)) p = none → JobEnds q k 0x03 (exec (.pmul q k) s))) ∧
      (x.op = 0x18 → m % 2 = 1 → a < m → j.limbs x.b x.w < m → j.limbs (x.param % 2 ^ 8) x.w = 2 ^ (128 * x.w) % m →
        (a ^ 65537 % m = j.limbs x.b x.w → ends { val := a, limbs := x.w } (exec (.releasePub q k) s)) ∧
        (a ^ 65537 % m ≠ j.limbs x.b x.w → JobEnds q k 0x31 (exec (.releasePub q k) s))) ∧
      (x.op = 0x1F → j.found = none →
        (x.param / 2 ^ 32 % 2 ^ 16 = 0x0310 → ends { val := leNat (fixLen 64 (Config.edSignRaw (key.take 32) input)), limbs := 8 }
          (exec (.cutNative q k false) s)) ∧
        (x.param / 2 ^ 32 % 2 ^ 16 = 0x0312 →
          let n := if curveOf type = 3 then 32 else 48
          (∀ sig, ecdsaSign (curveOf type) (key.take n) input (j.drawn.take n) = some sig →
            ends { val := leNat sig, limbs := ceilDiv sig.length 8 } (exec (.cutNative q k false) s)) ∧
          (ecdsaSign (curveOf type) (key.take n) input (j.drawn.take n) = none → JobEnds q k 0x31 (exec (.cutNative q k false) s))) ∧
        (x.param / 2 ^ 32 % 2 ^ 16 = 0x0300 →
          (∀ y, rsaPrivate type key input j.drawn = some y → ends { val := leNat y, limbs := ceilDiv y.length 8 } (exec (.cutNative q k false) s)) ∧
          (rsaPrivate type key input j.drawn = none → JobEnds q k 0x31 (exec (.cutNative q k false) s))) ∧
        JobEnds q k 0x31 (exec (.cutNative q k true) s)) ∧
      (x.op = 0x1F → ∀ st, j.found = some st → JobEnds q k st (exec (.cutNative q k false) s))))

namespace Sys2Proof.Claims

/-- What a wedge request writes chunk by chunk: its mode's output without MAC or tag, of the input taken so far. -/
def wedgeText (mode : Nat) (key block drawn : Bytes) (aad : Nat) (x : Bytes) : Bytes :=
  let gcm := fun (iv : Bytes) => fixLen (x.drop aad).length (Config.gcmTextRaw key iv (x.drop aad))
  if mode = 0x0200 then fixLen x.length (Config.cbcEncRaw key block x)
  else if mode = 0x0201 then fixLen x.length (Config.cbcDecRaw key block x)
  else if mode = 0x0202 then fixLen x.length (Config.ctrRaw key block x)
  else if mode = 0x0203 ∨ mode = 0x0205 then gcm (block.take 12)
  else if mode = 0x0204 then slice drawn 32 12 ++ gcm (slice drawn 32 12)
  else []

/-- The whole output of a wedge request that checks nothing. -/
def wedgeOut (mode : Nat) (key block drawn : Bytes) (aad : Nat) (x : Bytes) : Bytes :=
  let tag := fun (iv : Bytes) =>
    fixLen 16 (Config.gcmTagRaw key iv (x.take aad) (fixLen (x.drop aad).length (Config.gcmTextRaw key iv (x.drop aad))))
  if mode = 0x0206 then fixLen 16 (Config.cmacRaw key x)
  else if mode = 0x0700 then drawn
  else wedgeText mode key block drawn aad x ++ (if mode = 0x0203 then tag (block.take 12) else if mode = 0x0204 then tag (slice drawn 32 12) else [])

end Sys2Proof.Claims

/-- Splitter requests on polynomials of 256 coefficients, in the job's budget: PLOAD and PSTORE move them between memory and a polynomial, a value at
or above the modulus ending the job with 0x03; PNTT and PINTT transform, PMULT multiplies transforms, PADD and PSUB add and subtract modulo q.
Requests of whole job ticks. With more ticks left one is spent, in which a wedge takes its next 6,144 bytes and hands on what they give. In its
last tick a splitter NATIVE makes its key or verifies, or signs within 256 attempts where the signature verifies before release, else ending the
job with 0x31, or with 0x23 past the attempts; a wedge request hands on the rest of its output and, with CHAIN, the next block for its own
request; TAG_BAD and MAC_BAD end the job with 0x42 and 0x41. What is handed on stands in memory from the next tick (log 12). Where it goes beyond
the words of the spec it states the model's own choices: log 4, 5, 11, 123. -/
def Obligations.SplitterAndWedge : Prop :=
  (∀ (q k : Nat) (j : Job) (b : Bytes) (s : State), q % 5 = 2 → Runs q k 32 j b s → (splReq b).bad = false → polyFc (splReq b) ≤ j.budget →
    let x := splReq b
    let m := if x.q = 1 then 8380417 else 3329
    let fits := fun (p : List Nat) => ((p.map (· % m)) ++ List.replicate 256 0).take 256
    let coef := fun (i : Nat) => leNat (s.ramRead (x.inp + 4 * i) 4)
    let got := fun (p : List Nat) (o : Host.Outcome State Fault Refusal) => RequestDone q k j s (fun t => OnlyJob s t ∧ t.ram = s.ram ∧
      (t.job q k).fc = j.fc + BitVec.ofNat 64 (polyFc x) ∧ (t.job q k).poly x.pd = p ∧ ∀ i, i ≠ x.pd → (t.job q k).poly i = j.poly i) o
    (x.op = 1 → x.inp % 16 = 0 → s.inPages (q / 5) k x.inp 1024 = true →
      ((∀ i < 256, coef i < m) → got ((List.range 256).map coef) (exec (.pload q k) s)) ∧
      ((∃ i < 256, m ≤ coef i) → JobEnds q k 0x03 (exec (.pload q k) s))) ∧
    (x.op = 1 → x.inp % 16 ≠ 0 → JobEnds q k 0x01 (exec (.pload q k) s)) ∧
    (x.op = 2 → x.out % 16 = 0 → s.inPages (q / 5) k x.out 1024 = true →
      RequestDone q k j s (fun t => OnlyJob s t ∧ Wrote x.out ((j.poly x.pa).flatMap (leBytes 4)) s t) (exec (.pstore q k) s)) ∧
    (x.op = 3 → got (fits (Config.nttRaw m (j.poly x.pa))) (exec (.pntt q k) s)) ∧
    (x.op = 4 → got (fits (Config.inttRaw m (j.poly x.pa))) (exec (.pintt q k) s)) ∧
    (x.op = 5 → x.q = 1 → got ((List.range 256).map fun i => (j.poly x.pa).getD i 0 * (j.poly x.pb).getD i 0 % m) (exec (.pmult q k) s)) ∧
    (x.op = 5 → x.q = 2 → got (fits (Config.pmulNttRaw m (j.poly x.pa) (j.poly x.pb))) (exec (.pmult q k) s)) ∧
    (x.op = 6 → got ((List.range 256).map fun i => ((j.poly x.pa).getD i 0 + (j.poly x.pb).getD i 0) % m) (exec (.splPadd q k) s)) ∧
    (x.op = 7 → ∃ p : List Nat, p.length = 256 ∧ (∀ i < 256, p.getD i 0 < m ∧
      (p.getD i 0 + (j.poly x.pb).getD i 0) % m = (j.poly x.pa).getD i 0 % m) ∧
      got p (exec (.psub q k) s))) ∧
  (∀ (q k l : Nat) (j : Job) (b : Bytes) (s : State), j.left = some l →
    let key := (j.key.getD {}).value
    let o := fieldLE b 24 4
    (q % 5 = 2 → Runs q k 32 j b s → fieldLE b 0 1 = 0x1F →
      let op := fieldLE b 6 2
      let ctx := j.out.take (fieldLE b 5 1)
      let msg := j.out.drop (fieldLE b 5 1)
      let sig := fixLen 3309 (Config.mldsaSignRaw key ctx msg j.drawn)
      let good := Config.mldsaVerify (fixLen 1952 (Config.mldsaPubRaw key)) ctx msg sig
      let target := fieldLE b 12 2
      let hands := fun (v : Bytes) (t : State) => t.ram = s.ram ∧ t.yard.slots = s.yard.slots ∧ (t.job q k).late = [(o, v)]
      let made := fun (type : Nat) (value tail : Bytes) => RequestDone q k j s (fun t =>
        hands (leBytes 4 (mkRef target ((s.slot target).gen + 1)).toNat ++ tail) t ∧
        ∃ y, (target, y) ∈ t.yard.next ∧ y.type = type ∧ y.value = value) (exec (.splNative q k false) s)
      (1 < l → ∀ bad, exec (.splNative q k bad) s = .next (s.setJob q k { j with
        budget := 0, left := some (l - 1), n := if op = 0x0401 then attemptsDone (j.total + 1 - l) ((j.total - 28) / 8) else j.n })) ∧
      (l = 1 → op = 0x0401 → Config.mldsaAttemptsRaw key ctx msg j.drawn ≤ 256 →
        (good = true → RequestDone q k j s (hands sig) (exec (.splNative q k false) s)) ∧
        (good = false → JobEnds q k 0x31 (exec (.splNative q k false) s)) ∧ JobEnds q k 0x31 (exec (.splNative q k true) s)) ∧
      (l = 1 → op = 0x0401 → 256 < Config.mldsaAttemptsRaw key ctx msg j.drawn → ∀ bad, JobEnds q k 0x23 (exec (.splNative q k bad) s)) ∧
      (l = 1 → op = 0x0402 →
        let n := fieldLE b 5 1
        let pk := if fieldLE b 8 4 = 0 then slice j.out 0 1952 else fixLen 1952 (Config.mldsaPubRaw key)
        let rest := if fieldLE b 8 4 = 0 then j.out.drop 1952 else j.out
        let good := Config.mldsaVerify pk ((rest.drop 3309).take n) ((rest.drop 3309).drop n) (slice rest 0 3309)
        (good = true → RequestDone q k j s (hands []) (exec (.splNative q k false) s)) ∧
        (good = false → JobEnds q k 0x40 (exec (.splNative q k false) s))) ∧
      (l = 1 → op = 0x0400 → made 0x30 j.drawn (fixLen 1952 (Config.mldsaPubRaw j.drawn))) ∧
      (l = 1 → op = 0x0410 → made 0x31 j.drawn (fixLen 1184 (Config.mlkemPubRaw j.drawn))) ∧
      (l = 1 → op = 0x0411 →
        let ek := if fieldLE b 8 4 = 0 then j.out else fixLen 1184 (Config.mlkemPubRaw key)
        (Config.mlkemEkOk ek = true → made 0x04 (fixLen 32 (Config.mlkemEncKeyRaw ek j.drawn)) (fixLen 1088 (Config.mlkemEncCtRaw ek j.drawn))) ∧
        (Config.mlkemEkOk ek = false → JobEnds q k 0x03 (exec (.splNative q k false) s))) ∧
      (l = 1 → op = 0x0412 → made 0x04 (fixLen 32 (Config.mlkemDecKeyRaw key j.out)) [])) ∧
    (q % 5 = 3 → Runs q k 64 j b s →
      let mode := fieldLE b 0 2
      let block := slice b 32 16
      let aad := if 0x0203 ≤ mode ∧ mode ≤ 0x0205 then fieldLE b 8 4 else 0
      let inp := fieldLE b 16 4
      let n := fieldLE b 20 4
      let macLen := fieldLE b 3 1
      let first := if 0x0203 ≤ mode ∧ mode ≤ 0x0205 then 3 else 2
      let off := 6144 * (j.total + 1 - l - first)
      let dlen := n - (if mode = 0x0205 then 16 else if mode = 0x0207 then macLen else 0)
      let takes := first ≤ j.total + 1 - l ∧ off < dlen
      let taken := if takes then j.out ++ s.ramRead (inp + off) (min 6144 (dlen - off)) else j.out
      let text := wedgeText mode key block j.drawn aad taken
      let late := if takes then j.late ++ [(o + j.wrote, text.drop j.wrote)] else j.late
      let w := if takes then text.length else j.wrote
      let all := taken ++ s.ramRead (inp + taken.length) (n - taken.length)
      let out := wedgeOut mode key block j.drawn aad all
      let next := j.jaddr.toNat + 64 * j.idx + 32
      mode ∈ [0x0200, 0x0201, 0x0202, 0x0203, 0x0204, 0x0205, 0x0206, 0x0207, 0x0700] →
      (1 < l → ∃ t, exec (.wdgRequest q k) s = .next t ∧ OtherJobs q k s t ∧ { t with jobs := s.jobs, held := s.held } = s ∧
        t.job q k = { j with budget := 0, left := some (l - 1), out := taken, wrote := w, late := late }) ∧
      (l = 1 → mode ≠ 0x0205 → mode ≠ 0x0207 → fieldLE b 2 1 = 0 → RequestDone q k j s (fun t => OnlyJob s t ∧ t.ram = s.ram ∧
        (t.job q k).late = late ++ [(o + w, out.drop w)]) (exec (.wdgRequest q k) s)) ∧
      (l = 1 → mode ≤ 0x0202 → fieldLE b 2 1 = 1 → 0 < n → RequestDone q k j s (fun t => OnlyJob s t ∧ t.ram = s.ram ∧
        (t.job q k).late = late ++ [(o + w, out.drop w), (next,
          if mode = 0x0200 then slice out (n - 16) 16 else if mode = 0x0201 then slice all (n - 16) 16
          else block.take 12 ++ beBytes 4 (beNat (slice block 12 4) + ceilDiv n 16))]) (exec (.wdgRequest q k) s)) ∧
      (l = 1 → mode = 0x0205 → fieldLE b 2 1 = 0 →
        let ct := slice all aad (n - aad - 16)
        let good := fixLen 16 (Config.gcmTagRaw key (block.take 12) (all.take aad) ct) = slice all (n - 16) 16
        aad + 16 ≤ n →
        (good → RequestDone q k j s (fun t => t.ram = s.ram ∧ (∀ x ∈ t.held, ¬(x.bench = q / 5 ∧ x.lease = k)) ∧
          (t.job q k).late = late ++ [(o + w, (fixLen ct.length (Config.gcmTextRaw key (block.take 12) ct)).drop w)]) (exec (.wdgRequest q k) s)) ∧
        (¬good → JobEnds q k 0x42 (exec (.wdgRequest q k) s))) ∧
      (l = 1 → mode = 0x0207 → fieldLE b 2 1 = 0 →
        let good := (fixLen 16 (Config.cmacRaw key (all.take dlen))).take macLen = slice all dlen macLen
        (good → RequestDone q k j s (fun t => OnlyJob s t ∧ t.ram = s.ram) (exec (.wdgRequest q k) s)) ∧
        (¬good → JobEnds q k 0x41 (exec (.wdgRequest q k) s)))))

/-- Digest requests. OPEN makes a free context of its lease OPEN with its algorithm and declared length; FEED absorbs bytes and, at the declared
length, leaves the digest or the MAC of all of them; CMP compares the result; CLOSE frees the context. A write of DIG_OWN, unlocked, of present
leases or 0xFF, takes the whole value and clears the contexts whose byte changes; another value is refused with RANGE; and a read of a byte that a
GCM decryption holds answers HELD while a write of it changes no memory. Where it goes beyond the words of the spec it states the model's own
choices: log 4, 95. -/
def Obligations.DigestEngines : Prop :=
  (∀ (n k : Nat) (j : Job) (b : Bytes) (s : State), Runs (5 * n + 4) k 32 j b s →
    let q := 5 * n + 4
    let i := fieldLE b 1 1
    let c := s.ctx n i
    let mine := i ≤ 7 ∧ (k < 64 → s.ctxOwner (8 * n + i) = k)
    let len := fieldLE b 13 1
    let addr := fieldLE b 16 4
    let keeps := fun (t : State) => t.ram = s.ram ∧ t.dsp = s.dsp ∧ ∀ x, x ≠ 8 * n + i → tget {} t.dig x = tget {} s.dig x
    (fieldLE b 0 1 = 1 → j.left = none → j.budget = 3584 → mine → onlyFields b 32 [(0, 2), (2, 11), (16, 8)] = true → c.state = .free →
      ∀ d, openCtx b = some d → d.keyed = false → d.decl ≠ 0 → fieldLE b 20 4 = 0 →
      RequestDone q k j s (fun t => keeps t ∧ t.ctx n i =
        { state := .open_, alg := fieldLE b 2 1, outLen := d.outLen, compat := decide (fieldLE b 3 1 = 1), decl := BitVec.ofNat 32 (fieldLE b 8 4) }) (exec (.digOpen n k) s)) ∧
    (fieldLE b 0 1 = 2 → j.left = some 1 → j.feed ≠ 0 →
      let m := min j.feed (algK c.alg)
      let d := c.data ++ s.ramRead (addr + j.out.length) m
      let fed := c.fed + BitVec.ofNat 32 m
      let out := if c.keyed then macOf c.alg c.outLen c.key c.custom d else digestOf c.alg c.outLen d
      RequestDone q k j s (fun t => keeps t ∧
        (fed ≠ c.decl → t.ctx n i = { c with fed := fed, data := d }) ∧
        (fed = c.decl → t.ctx n i = { c with fed := fed, state := .done, data := [], key := [], result := out })) (exec (.digFeed n k) s)) ∧
    (fieldLE b 0 1 = 3 → j.left = none → j.budget = 3584 → mine → onlyFields b 32 [(0, 2), (13, 1), (16, 4)] = true → c.state = .done →
      (if c.keyed then 16 else 1) ≤ len → len ≤ c.outLen → s.inPages n k addr len = true →
      c.result.take len = s.ramRead addr len →
      RequestDone q k j s (fun t => keeps t ∧ t.ctx n i = { c with eq := true, cmpv := true }) (exec (.digCmp n k) s)) ∧
    (fieldLE b 0 1 = 3 → j.left = none → j.budget = 3584 → mine → onlyFields b 32 [(0, 2), (13, 1), (16, 4)] = true → c.state ≠ .done →
      JobEnds q k 0x51 (exec (.digCmp n k) s)) ∧
    (fieldLE b 0 1 = 4 → j.left = none → j.budget = 3584 → mine → onlyFields b 32 [(0, 2)] = true →
      RequestDone q k j s (fun t => keeps t ∧ t.ctx n i = {}) (exec (.digClose n k) s))) ∧
  (∀ (n : Nat) (v : BitVec 64) (m : Master) (addr : Nat) (write : Bool) (s : State),
    let q := 5 * n + 4
    let byte := fun i => v.toNat / 256 ^ i % 256
    (s.islandRuns = true → n < s.nBench ∨ n = 16 → (s.engine q).lock = false → (∀ i < 8, byte i = 0xFF ∨ byte i < s.nLease) →
      ∃ t, exec (.digOwnWrite n v) s = .next t ∧ t.out.bus = .ok [] ∧ t.ram = s.ram ∧ ∀ i < 8, tget 0xFF (t.engine q).own i = byte i ∧
        t.ctx n i = if byte i = s.ctxOwner (8 * n + i) then s.ctx n i else {}) ∧
    (s.islandRuns = true → n < s.nBench ∨ n = 16 → (s.engine q).lock = false → (∃ i < 8, byte i ≠ 0xFF ∧ s.nLease ≤ byte i) →
      ∃ t, exec (.digOwnWrite n v) s = .next t ∧ t.out.bus = .range ∧ t.ram = s.ram) ∧
    (∀ x, s.heldIn addr 1 = some x → ∃ t, exec (.heldRangeAccess m addr write) s = .next t ∧ t.ram = s.ram ∧ t.held = s.held ∧
      t.out.bus = if write then .ok [] else .held))

/-! ### The key yard, grants, ceremonies and programs -/

namespace Sys2Proof.Claims

/-- A request with code `op` that every check of R352 to R354, R357 and R358 lets through to its entry. -/
def Accepted (r : Req) (op : Nat) (s : State) : Prop :=
  s.epOpen r.ep = true ∧ r.badOp = none ∧ (r.ep = 0 → s.dic.smbus.getD r.smbus = r.smbus) ∧
    (∃ major minor, (s.ep r.ep).ver = some (major, minor) ∧ r.ver.toNat / 16 = major ∧ (major = 1 → op < 9 ∧ (s.ep r.ep).tags = []) ∧
      (minor = 0 → op ≠ 0x0A) ∧ (major ≠ 1 → (s.ep r.ep).tags.length < 4 ∧ r.tag ∉ (s.ep r.ep).tags)) ∧
    r.status = 0 ∧ r.lenOk = true ∧ s.pw.stage ≠ .romRecovery ∧ s.pw.stage ≠ .udsFailed ∧ s.pfl.upd = none

/-- The answer message to it. -/
def Reply (r : Req) (op : Nat) (st : DStat) (payload : Bytes) (s : State) : Bytes :=
  leBytes 1 (s.epVersion r.ep) ++ leBytes 1 (op + 0x80) ++ [r.tag] ++ leBytes 2 r.index ++ leBytes 1 r.sub ++ leBytes 1 st.code ++
    leBytes 2 payload.length ++ payload

/-- The request is answered with `st` and `payload`, and `p` holds of the next state. -/
def Answers (r : Req) (op : Nat) (st : DStat) (payload : Bytes) (s : State) (p : State → Prop) (o : Host.Outcome State Fault Refusal) : Prop :=
  ∃ t, o = .next t ∧ t.out.dic = Reply r op st payload s ∧ p t

/-- `t` but for the dictionary's own counts and the message sent. -/
def Aside (s t : State) : State := { t with dic := s.dic, out := s.out }

/-- A key of `type` and `value` of owner `k` (64: the island) waits at slot `i` for the end of the tick, with the slot's next generation. -/
def KeyAt (k i type : Nat) (value : Bytes) (pending : Bool) (s t : State) : Prop :=
  ∃ y, (i, y) ∈ t.yard.next ∧ y.type = type ∧ y.value = value ∧ y.gen = (s.slot i).gen + 1 ∧ y.pending = pending ∧
    y.owner = if k = 64 then 0x40 else k

/-- Of the leases, lease `k` alone differs and is `x`; beside them only what an answer changes. -/
def LeaseIs (k : Nat) (x : Lease) (s t : State) : Prop :=
  t.lease k = x ∧ (∀ j, j ≠ k → t.lease j = s.lease j) ∧ { t with dic := s.dic, out := s.out, leases := s.leases } = s

/-- Memory is that of `s`, with 0 from `lo` to below `hi`. -/
def Zeroed (lo hi : Nat) (s t : State) : Prop := ∀ a, Memory.get t.ram a = if lo ≤ a ∧ a < hi then 0 else Memory.get s.ram a

end Sys2Proof.Claims

/-- Loads: GO with its value and bench starts a load on a port that is not BUSY; when it ends, the status is in the port, the source bytes are 0 on
every status, and with OK the key waits at its target, PENDING for a curve or RSA type. The yard by itself: a wanted line that is not resident is
filled, one in a tick; a PENDING slot is taken up and, its check done and good, loses PENDING at the end of the tick; in the last tick of a frame
the sweeper empties the orphans of its 4,096 slots and moves on; a change of a persistent slot is appended to the store, first its body and then
its commit, which makes a key of one slot DURABLE; a full half is compacted to the last committed record of each slot. Where it goes beyond the
words of the spec it states the model's own choices: log 15, 67, 121, 125. -/
def Obligations.KeyYard : Prop :=
  (∀ (k n : Nat) (ctl : BitVec 64) (s : State),
    let p := s.port k
    let c := p.ctl.toNat
    let own := if k = 64 then (if p.own = 0x40 then 64 else p.own) else k
    let type := c / 2 ^ 48 % 256
    let addr := p.src.toNat % 2 ^ 32
    let size := typePriv type (p.src.toNat / 2 ^ 56)
    (s.running = true → 2 ^ 63 ≤ ctl.toNat → p.state ≠ 1 →
      exec (.yardLoadGo k n ctl) s = .next (s.setPort k { p with state := 1, ctl := ctl, bench := n, goAt := s.pw.now, ref := 0 })) ∧
    (s.running = true → ctl.toNat < 2 ^ 63 → exec (.yardLoadGo k n ctl) s = .next s) ∧
    (p.state = 1 → loadStatus s k p = 0 → ∃ t, exec (.yardLoadDone k) s = .next t ∧ Zeroed addr (addr + size) s t ∧
      KeyAt own (c % 2 ^ 16) type (s.ramRead addr size) (isCurve type || isRsa type) s t ∧ t.yard.slots = s.yard.slots ∧
      t.port k = { p with state := 2, status := 0, ref := mkRef (c % 2 ^ 16) ((s.slot (c % 2 ^ 16)).gen + 1) }) ∧
    (∀ st, p.state = 1 → loadStatus s k p = st → st ≠ 0 → ∃ t, exec (.yardLoadDone k) s = .next t ∧ Zeroed addr (addr + size) s t ∧
      t.port k = { p with state := 2, status := st, ref := 0 } ∧ t.yard.next = s.yard.next ∧ t.yard.slots = s.yard.slots)) ∧
  (∀ (n i : Nat) (s : State),
    let b := s.bench n
    let x := s.slot i
    (b.state ≠ .quarantined → b.resident i = false → s.wanted n i = true → b.fillAt ≠ s.pw.now + 1 → b.lines.length < 4096 →
      exec (.yardLineFill n i) s = .next (s.setBench n { b with lines := { slot := i, used := s.pw.now } :: b.lines, fillAt := s.pw.now + 1 })) ∧
    (s.running = true → s.flg.pass = none → s.yard.checks = [{ slot := i, unwrap := false }] → x.pending = true →
      ∃ t, exec (.pendingCheck i) s = .next t ∧ t.yard.checks = [{ slot := i, unwrap := false, endAt := some (s.pw.now + checkTicks x.type) }] ∧
        { t with yard := { t.yard with checks := s.yard.checks } } = s) ∧
    (∀ c e, s.yard.checks.find? (fun c => c.slot = i) = some c → c.endAt = some e → e ≤ s.pw.now → s.flg.pass = none → x.pending = true →
      isRsa x.type = false → c.unwrap = false → ∃ t, exec (.pendingClear i) s = .next t ∧ t.yard.slots = s.yard.slots ∧ t.ram = s.ram ∧
        ∃ y, (i, y) ∈ t.yard.next ∧ y.pending = false ∧ y.gen = x.gen ∧ y.type = x.type ∧
          y.value = curveValue (curveOf x.type) x.priv (pubOf (curveOf x.type) x.priv)) ∧
    (s.mainPower = true → s.ftick = 255 → s.yard.swept ≠ some s.frame →
      ∃ t, exec .sweeperFrame s = .next t ∧ t.yard.pos = (s.yard.pos + 4096) % s.nSlot ∧ t.yard.swept = some s.frame ∧ t.yard.slots = s.yard.slots ∧
        t.ram = s.ram ∧ (s.yard.pos ≤ i → i < s.yard.pos + 4096 → (∀ e ∈ s.yard.next, e.1 ≠ i) → s.orphan i = true →
          ∃ y, (i, y) ∈ t.yard.next ∧ y.type = 0 ∧ y.value = [] ∧ y.gen = (if x.gen = 0xFFFF then 0xFFFF else x.gen + 1))) ∧
    (∀ k rest, s.running = true → s.yard.half < 16384 → (∀ r, s.yard.store.getLast? = some r → r.commit ≠ [] ∨ r.dead = true) →
      s.yard.toStore = (i, k) :: rest →
      ∃ t body, exec .persistRecordAppend s = .next t ∧ t.yard.toStore = rest ∧ t.yard.storeSeq = s.yard.storeSeq + 1 ∧
        t.yard.half = s.yard.half + 1 ∧ t.yard.slots = s.yard.slots ∧ body.length = 192 ∧ body.take 32 = (k.getD x).header ∧
        t.yard.store = s.yard.store ++ [{ seq := s.yard.storeSeq + 1, slot := i, key := k, bedGen := s.vault.bedGen, body := body, commit := [] }]) ∧
    (∀ r, s.running = true → s.yard.store.getLast? = some r → r.commit = [] → r.dead = false →
      let commit := leBytes 4 0x53544F52 ++ leBytes 4 r.seq ++ fixLen 24 (Config.digestRaw 4 32 r.body)
      ∃ t, exec .persistRecordAppend s = .next t ∧ t.yard.store = s.yard.store.dropLast ++ [{ r with commit := commit }] ∧
        t.yard.toStore = s.yard.toStore ∧
        ∀ y, r.slot = i → r.key = some y → y.type ≠ 0x2F → isRsa y.type = false → x.type ≠ 0 → x.gen = y.gen →
          t.slot i = { x with durable := true }) ∧
    (s.running = true → 16384 ≤ s.yard.half → (∀ r, s.yard.store.getLast? = some r → r.commit ≠ [] ∨ r.dead = true) →
      ∃ t, exec .yardStoreCompaction s = .next t ∧ t.yard.side = 1 - s.yard.side ∧
      { t with yard := { t.yard with store := s.yard.store, half := s.yard.half, side := s.yard.side } } = s ∧
      ∀ r, r ∈ t.yard.store ↔ r ∈ s.yard.store ∧ r.commit ≠ [] ∧ r.key ≠ none ∧
        ∀ q ∈ s.yard.store, q.commit ≠ [] → q.slot = r.slot → q.seq ≤ r.seq))

/-- Lease entries that HOST writes: the range, if it overlaps none and removes no key; M, N and a credential, each revoking the grant, refused with
DENIED once the lease holds a DUAL slot; a scrub, with or without a DUAL slot, which gives the lease its next epoch, a root of that epoch under
bedrock, and no grant. Where it goes beyond the words of the spec it states the model's own choices: log 4, 83, 118. -/
def Obligations.LeaseEntries : Prop :=
  ∀ (r : Req) (k : Nat) (value : Bytes) (s : State), Accepted r 3 s → r.ep = 1 → subLease r.index = some k → k < s.nLease →
    let l := s.lease k
    let v := leNat value
    let own := r.index % 0x40
    let sets := fun (x : Lease) (o : Host.Outcome State Fault Refusal) => Answers r 3 .ok [] s (fun t => Aside s t = s.setLease k x) o
    (own = 0x03 → r.sub = 1 → value.length = 2 → s.rangeOk k v l.rangeCount = true →
      sets { l with rangeBase := v } (exec (.yardRangeWrite r value) s)) ∧
    (own = 0x03 → r.sub = 2 → value.length = 2 → s.rangeOk k l.rangeBase v = true →
      sets { l with rangeCount := v } (exec (.yardRangeWrite r value) s)) ∧
    (own = 0x03 → r.sub = 2 → value.length = 2 → s.rangeOk k l.rangeBase v = false →
      Answers r 3 .range [] s (fun t => Aside s t = s) (exec (.yardRangeWrite r value) s)) ∧
    (own = 0x10 → s.holdsDual k = false →
      (r.sub = 1 → value.length = 1 → 1 ≤ v → v ≤ l.quorumN → sets { l.endGrant with quorumM := v } (exec (.quorumWrite r value) s)) ∧
      (r.sub = 2 → value.length = 1 → 1 ≤ v → v ≤ 16 → l.quorumM ≤ v → sets { l.endGrant with quorumN := v } (exec (.quorumWrite r value) s)) ∧
      (16 ≤ r.sub → r.sub ≤ 31 → value.length = 48 → ∀ c, setCred l.creds (r.sub - 16) value = some c →
        sets { l.endGrant with creds := c } (exec (.quorumWrite r value) s))) ∧
    (own = 0x10 → s.holdsDual k = true → s.isOfficer 1 = false → r.sub = 1 → value.length = 1 →
      Answers r 3 .denied [] s (fun t => Aside s t = s) (exec (.quorumWrite r value) s)) ∧
    (own = 0x13 → r.sub = 1 → value = [1] → l.quarantined = true ∨ s.namesKey k = false →
      let epoch := if l.epoch = 0xFFFF then 1 else l.epoch + 1
      Answers r 3 .ok [] s (fun t => (t.lease k).epoch = epoch ∧ (t.lease k).grant = none ∧ t.ram = s.ram ∧ t.yard.slots = s.yard.slots ∧
        ∀ bed, s.vault.bedrock = some bed → ∃ y, (s.rootSlot k, y) ∈ t.yard.next ∧ y.type = 0x3E ∧ y.owner = k ∧ y.gen = epoch ∧
          y.pgen = s.vault.bedGen ∧ y.value = fixLen 32 (Config.macRaw 8 32 bed (ascii "SVRL-ROOT") (leBytes 1 k ++ leBytes 2 epoch.toNat)))
        (exec (.leaseScrub r value) s)) ∧
    (own = 0x13 → r.sub = 1 → value = [1] → l.quarantined = false → s.namesKey k = true →
      Answers r 3 .state [] s (fun t => Aside s t = s) (exec (.leaseScrub r value) s))

/-- Grants: a start with a request in range begins a collection, and answers BUSY during another; a custodian whose signature verifies, 40 tk after
its answer or after the pass that held the island's engines, is authenticated, counts once, and the M-th forms the lease's grant from the next
tick, with its scope, its uses and its frames; a window that ends, the frames that end and a revocation leave none. Where it goes beyond the words
of the spec it states the model's own choices: log 3, 4, 46. -/
def Obligations.Grants : Prop :=
  ∀ (r : Req) (k : Nat) (value : Bytes) (fresh : List Nat) (s : State),
    let l := s.lease k
    let start := fun (o : Host.Outcome State Fault Refusal → Prop) => Accepted r 3 s → r.ep = 1 → subLease r.index = some k → k < s.nLease →
      o (exec (.grantStart r value) s)
    let x := s.sess 0
    let asked : Collect := { purpose := 0, lease := k, counted := [], endFrame := s.frame + s.dic.window, scope := l.reqScope.toNat, uses := l.reqUses, frames := l.reqFrames }
    (r.index % 0x40 = 0x11 → r.sub = 4 → value = [1] → l.configured = true → 1 ≤ l.reqUses → l.reqUses ≤ 65535 → 1 ≤ l.reqFrames →
      l.reqFrames ≤ 16777215 →
      (s.cust.collect = none →
        start fun o => Answers r 3 .ok [] s (fun t => Aside s t = { s with cust := { s.cust with collect := some asked } }) o) ∧
      (s.cust.collect ≠ none → start fun o => Answers r 3 .busy [] s (fun t => Aside s t = s) o)) ∧
    (∀ t0 shared, x.verifyAt = some t0 → s.flg.pass = none → s.pfl.upd = none → max t0 s.flg.idleAt + 40 ≤ s.pw.now → s.running = true →
      Config.edVerify (x.cred.drop 16) (s.authMessage x) x.sig = true →
      Config.agree 2 x.ephPriv x.cardEph = some shared →
      let key := fixLen 32 (Config.macRaw 8 32 shared (ascii "SVRL-CSES") x.chal)
      (s.cust.collect = none → ∃ t, exec (.custodianCounted 0 fresh) s = .next t ∧
        t.sess 0 = { x with verifyAt := none, authed := true, key := key } ∧
        t.cust = s.cust ∧ t.leases = s.leases) ∧
      (∀ c pos, s.cust.collect = some c → (x.purpose, x.lease) = s.authPurpose → s.position x.cred = some pos → pos ∉ c.counted →
        (c.counted.length + 1 < s.threshold c → ∃ t, exec (.custodianCounted 0 fresh) s = .next t ∧ t.leases = s.leases ∧
          t.cust = { s.cust with collect := some { c with counted := c.counted ++ [pos] } }) ∧
        (c.purpose = 0 → s.threshold c ≤ c.counted.length + 1 → ∃ t, exec (.custodianCounted 0 fresh) s = .next t ∧ t.cust.collect = none ∧
          (t.lease c.lease).grant = some { scope := c.scope, uses := c.uses, endFrame := s.frame + c.frames, fromTick := s.pw.now + 1 }))) ∧
    (∀ c, s.cust.collect = some c → 256 * c.endFrame ≤ s.dsp.tick.toNat + 1 →
      ∃ t, exec .grantWindowExpiry s = .next t ∧ t.cust.collect = none ∧ t.ram = s.ram) ∧
    (∀ g, l.grant = some g → (256 * g.endFrame ≤ s.dsp.tick.toNat + 1 → exec (.grantExpiry k) s = .next (s.setLease k l.endGrant)) ∧
      (s.dsp.tick.toNat + 1 < 256 * g.endFrame → exec (.grantExpiry k) s = .next s)) ∧
    (Accepted r 3 s → r.ep = 1 → subLease r.index = some k → k < s.nLease → r.index % 0x40 = 0x11 → r.sub = 5 → value = [1] →
      Answers r 3 .ok [] s (fun t => Aside s t = s.setLease k l.endGrant) (exec (.grantRevoke r value) s))

/-- Ceremonies: a start in FIELD with an officer quorum begins an officers' collection; a close by the officer, or 458,752 frames without an action of
one, ends it with a summary in the custodian journal, and with it the binding and the key loading; a key loading that the officer asks for begins,
and its components complete it, with the key at its target at the end of the tick. Where it goes beyond the words of the spec it states the
model's own choices: log 23, 56, 127. -/
def Obligations.Ceremonies : Prop :=
  ∀ (r : Req) (ep : Nat) (value : Bytes) (s : State),
    let asked : Collect := { purpose := 1, lease := 0xFF, counted := [], endFrame := s.frame + s.dic.window, scope := leNat value, endpoint := r.ep }
    (Accepted r 3 s → r.ep ≤ 1 → r.index = 0x2030 → r.sub = 1 → value.length = 8 → s.lcs.state = .field → s.cust.m ≠ 0 → s.cust.n ≠ 0 →
      s.cust.collect = none → s.cust.ceremony = none → leNat value < 2 ^ s.nLease →
      Answers r 3 .ok [] s (fun t => Aside s t = { s with cust := { s.cust with collect := some asked } }) (exec (.ceremonyStart r value) s)) ∧
    (∀ c, s.cust.ceremony = some c →
      let closed := fun (reason : Nat) (t : State) => t.cust.ceremony = none ∧ t.cust.bind = none ∧ t.cust.keyLoad = none ∧ t.ram = s.ram ∧
        ∃ j, t.cust.journal = s.cust.journal ++ [j] ∧ j.kind = 7 ∧ j.ref = c.number ∧ j.record = c.record s.time64 reason
      (Accepted r 3 s → s.isOfficer r.ep = true → r.index = 0x2030 → r.sub = 3 → value = [1] →
        Answers r 3 .ok [] s (closed 0) (exec (.ceremonyClose r value) s)) ∧
      (256 * (c.lastFrame + 458752) ≤ s.dsp.tick.toNat + 1 → ∃ t, exec .ceremonyTimeout s = .next t ∧ closed 1 t) ∧
      (s.dsp.tick.toNat + 1 < 256 * (c.lastFrame + 458752) → exec .ceremonyTimeout s = .next s)) ∧
    (∀ q, s.running = true → s.isOfficer ep = true → s.keyLoadOk q = true → q.gen = false → ∃ t, exec (.keyLoadingCeremony ep (some q)) s = .next t ∧
      t.yard = s.yard ∧ ∃ x, t.cust.keyLoad = some x ∧ x.lease = q.lease ∧ x.target = q.target ∧ x.type = q.type ∧ x.c = q.c ∧ x.done = [] ∧
        x.value = List.replicate (typeValue q.type q.len) 0) ∧
    (∀ x, s.running = true → s.isOfficer ep = true → s.cust.keyLoad = some x → x.c ≤ x.done.length → s.orphan x.parent = false →
      s.checkTarget x.lease x.target 1 x.parent (hasAttr x.attr aPERSIST) = 0 → ∃ t, exec (.keyLoadingCeremony ep none) s = .next t ∧
        t.cust.keyLoad = none ∧ KeyAt x.lease x.target x.type x.value false s t)

/-- Programs: an image that passes the checks before verification is taken up and answered PENDING, an unsuitable one REFUSED with its code; one
that comes while another is verified or programmed is refused; a good verification, 41 tk of the island's engines, programs it and its commit for
the next swap; its bytes are then copied to the program page of each bench where the lease holds cores, with a swap asked for; a write of a
verification key unloads the program from both copies of its store; MINSVN only rises. Where it goes beyond the words of the spec it states the
model's own choices: log 4, 34, 125. -/
def Obligations.Programs : Prop :=
  ∀ (r : Req) (k : Nat) (d value : Bytes) (s : State), k < s.nLease →
    let l := s.lease k
    let at_ := r.index = 0x4000 + 0x40 * k + 0x20
    (Accepted r 7 s → (s.session r).isSome = true → r.ep = 1 → at_ → r.sub = 0 → l.verifying = none → l.body = [] →
      (s.lcs.state = .claimed ∨ s.lcs.state = .field → programOk d = true → l.keyOk d = true → d ≠ [] →
        Answers r 7 .pending [] s (fun t => Aside s t = s.setLease k { l with progState := .verifying, verifying := some (d, s.pw.now) })
          (exec (.programLoad r d) s)) ∧
      (s.lcs.state = .blank → d ≠ [] → Answers r 7 .refused [] s (fun t => (t.lease k).progRefusal = 2) (exec (.programLoad r d) s)) ∧
      (s.lcs.state = .field → d ≠ [] → programOk d = false → Answers r 7 .refused [] s (fun t => (t.lease k).progRefusal = 3)
        (exec (.programLoad r d) s))) ∧
    (Accepted r 7 s → (s.session r).isSome = true → r.ep = 1 → at_ → r.sub = 0 → (l.verifying ≠ none ∨ l.body ≠ []) →
      Answers r 7 .refused [] s (fun t => (t.lease k).progRefusal = 1 ∧ (t.lease k).verifying = l.verifying ∧ (t.lease k).body = l.body)
        (exec (.programLoad r d) s)) ∧
    (∀ t0, l.verifying = some (d, t0) → s.running = true → s.flg.pass = none → s.pfl.upd = none → max t0 s.flg.idleAt + 41 ≤ s.pw.now →
      s.imageCheck l d = 0 → exec (.programVerifyDone k true) s = .next (s.setLease k { l with verifying := none, body := d, old := [] })) ∧
    (l.verifying = none → l.body = d → d ≠ [] → s.running = true → ∃ t, exec (.programVerifyDone k true) s = .next t ∧
      LeaseIs k { l with body := [], progState := l.settled, image := d, old := l.image, copy := 1 - l.copy, progPend := true } s t) ∧
    (l.progPend = true → s.running = true → k ∉ s.dsp.fresh → s.dsp.pend = false ∨ s.dsp.captured = false →
      ∃ t, exec (.programPageCopy k) s = .next t ∧ t.dsp.pend = true ∧ t.dsp.fresh = s.dsp.fresh ++ [k] ∧
        t.lease k = { l with copied := l.image, progPend := false } ∧ (∀ j, j ≠ k → t.lease j = s.lease j) ∧
        let cores := (List.range s.nBench).filter fun n => s.dsp.core.any fun (e : Nat × Nat) => e.1 / 4 = n && e.2 = k
        t.ram = (cores.foldl (fun u n => copyProgram n k l.image u) s).ram) ∧
    (Accepted r 3 s → r.ep = 1 → r.index = 0x4000 + 0x40 * k + 0x21 → r.sub = 1 → value.length = 32 →
      Answers r 3 .ok [] s
        (LeaseIs k (if l.image = [] then { l with progEd := value } else { l with progEd := value, image := [], old := [], progPend := true }) s) (exec (.programKeyWrite r value) s)) ∧
    (Accepted r 3 s → r.ep = 1 → r.index = 0x4000 + 0x40 * k + 0x22 → r.sub = 4 → value.length = 4 →
      (l.minSvn ≤ leNat value →
        Answers r 3 .ok [] s (fun t => Aside s t = s.setLease k { l with minSvn := leNat value }) (exec (.programMinsvnWrite r value) s)) ∧
      (leNat value < l.minSvn → Answers r 3 .range [] s (fun t => Aside s t = s) (exec (.programMinsvnWrite r value) s)))

/-! ### The random chain -/

/-- The start and the life of the chain: warm-up ends in the start tests, or a failed known answer in total failure; with 4 sources or more the
tests end in SEEDING with one seed for each 2,048 start-up bits, with fewer in FAILED with nothing kept; every queue full, all expanders are READY
together; 2,048 raw bits make a seed, the SHA3-256 of the bits, for the first expander that waits for one (the island's, then that of the most
requests) or for the pool of 16; a waiting expander reseeds from the pool, is stretched at 2^16 requests and blocked at 2^24; a restart is asked for
in FAILED only, and an automatic one uses AUTOLEFT. The raw bits are the model's free values (log 5). The 16 sources: a test failed by their samples
counts, and excludes a source in use or in test with the block it was part of, which begins again at the next sample; where the healthy sources fall
below 4, in the start tests too, total failure comes at the end of the tick; a retest runs 64 tk for the excluded and unmasked sources asked for and
readmits at its end; a mask that leaves fewer than 4 healthy, or comes after LOCK, changes nothing. Where it goes beyond the words of the spec it
states the model's own choices: log 5, 59, 94, 126. -/
def Obligations.RandomChain : Prop :=
  (∀ (e : Nat) (s : State),
    let r := s.rng
    let x := s.exp e
    let passed := r.testing &&& ~~~r.retests &&& ~~~r.mask &&& ~~~bits16 fun i => r.fails.any fun f => f.src = i
    let n := ((List.range 16).filter fun i => passed.getLsbD i).length
    let testing : Rng := { r with state := .test, start := s.pw.now, testing := ~~~r.mask, retest := [], restartAt := none,
                                   tests := [], fails := [] }
    let seeded := fun (seed : Bytes) =>
      if x.inst = none then
        { asks := false, inst := some s.dsp.tick, seedAt := some s.pw.now,
          drbg := Config.drbgInit seed (leBytes 8 s.dsp.tick.toNat ++ List.replicate 8 0) (fixLen 16 s.ident.unit ++ leBytes 1 e) : Exp }
      else { x with asks := false, reqs := 0, stretch := false, blocked := false, seedAt := some s.pw.now, readyNext := x.readyNext || x.blocked,
                    drbg := Config.drbgReseed x.drbg x.reqs.toNat seed }
    let waits := fun (f : Nat) => (s.exp f).inst = none ∨ (s.exp f).asks = true
    (s.chainRuns = true → r.state = .warmup → r.start ≤ s.pw.now → r.failPend = false →
      exec (.rngWarmupEnd true) s = .next { s with rng := testing } ∧
      ∃ t, exec (.rngWarmupEnd false) s = .next t ∧ t.rng = { r with failPend := true } ∧ t.ram = s.ram) ∧
    (s.chainRuns = true → r.state = .test → r.start + 64 ≤ s.pw.now →
      (n < 4 → ∃ t, exec .rngTestEnd s = .next t ∧
        t.rng = { r with state := .failed, failPend := false, pool := [], raw := 0, exps := [], testing := r.retests }) ∧
      (4 ≤ n → ∃ t, exec .rngTestEnd s = .next t ∧ t.rng.state = .seeding ∧ t.rng.testing = r.retests ∧ t.rng.excl = r.excl &&& ~~~passed ∧
        t.rng.mask = r.mask ∧ t.rng.seeds.toNat = min (2 ^ 64 - 1) (r.seeds.toNat + n / 2) ∧ t.rng.raw = 1024 * (n % 2) + 16 * n)) ∧
    (r.state = .seeding → (∀ f ∈ s.expanders, 31744 < (s.exp f).qbytes) → ∃ t, exec .rngReady s = .next t ∧ { t with rng := r } = s ∧
      t.rng.state = .run ∧
      t.rng.autoLeft = 8 ∧ ∀ f ∈ s.expanders, t.exp f = { s.exp f with ready := true }) ∧
    (s.chainRuns = true → r.state = .seeding ∨ r.state = .run → r.failPend = false → 2048 ≤ r.raw → ∃ t, exec .seedConditioned s = .next t ∧
      { t with rng := r, pw := s.pw } = s ∧ t.pw = { s.pw with free := s.pw.free + 256 } ∧ t.rng.raw = r.raw - 2048 ∧ t.rng.seeds = satAdd r.seeds 1 ∧
      let seed := fixLen 32 (Config.digestRaw 4 32 (s.freeBytes 256))
      ((∀ f ∈ s.expanders, ¬ waits f) → t.rng.pool = (r.pool ++ [seed]).drop (r.pool.length - 15)) ∧
      (e ∈ s.expanders → waits e → (∀ f ∈ s.expanders, waits f → s.before e f = true) → t.rng.pool = r.pool ∧ t.exp e = seeded seed)) ∧
    (∀ seed rest, r.pool = seed :: rest → x.inst ≠ none → x.asks = true → e ∈ s.expanders →
      (∀ f ∈ s.expanders, (s.exp f).asks = true → (s.exp f).inst ≠ none → s.before e f = true) → ∃ t, exec (.expanderReseed e) s = .next t ∧
      { t with rng := r } = s ∧ t.rng.pool = rest ∧ t.exp e = seeded seed) ∧
    (x.inst ≠ none → x.stretch = false → 2 ^ 16 ≤ x.reqs.toNat → ∃ t, exec (.expanderStretch e) s = .next t ∧ t.exp e = { x with stretch := true }) ∧
    (x.inst ≠ none → x.blocked = false → 2 ^ 24 ≤ x.reqs.toNat →
      ∃ t, exec (.expanderBlocked e) s = .next t ∧ t.exp e = { x with blocked := true, ready := false }) ∧
    (s.islandRuns = true → r.state = .failed →
      exec .rngRestartWrite s = .next { wrote 0x60030004 s with rng := { r with restartAt := some (s.pw.now + 1) } }) ∧
    (s.islandRuns = true → r.state ≠ .failed → exec .rngRestartWrite s = .next (wrote 0x60030004 s)) ∧
    (s.chainRuns = true → r.state = .failed → r.auto = true → r.autoLeft ≠ 0 → s.ftick = 0 → r.restartAt = none →
      exec .rngAutoRestart s = .next { s with rng := { testing with autoLeft := r.autoLeft - 1 } })) ∧
  (∀ (i : Nat) (apt : Bool) (v : BitVec 16) (s : State),
    let r := s.rng
    let one := BitVec.ofNat 16 (2 ^ i)
    let healthy := fun (excl mask : BitVec 16) => ((List.range 16).filter fun j => !excl.getLsbD j && !mask.getLsbD j).length
    (r.fails.find? (fun f => f.src = i && f.apt = apt) = none → exec (.rngSourceExcluded i apt) s = .next s) ∧
    (∀ f, r.fails.find? (fun f => f.src = i && f.apt = apt) = some f → s.chainRuns = true → i < 16 → r.mask.getLsbD i = false → r.state ≠ .warmup →
      let left := { r with fails := r.fails.erase f }
      let counted := if apt then { left with apt := tset 0 r.apt i (satAdd (tget 0 r.apt i) 1) }
        else { left with rct := tset 0 r.rct i (satAdd (tget 0 r.rct i) 1) }
      (r.excl.getLsbD i = false ∨ r.testing.getLsbD i = true → ∃ t, exec (.rngSourceExcluded i apt) s = .next t ∧
        t.rng.excl = r.excl ||| one ∧ t.rng.testing = r.testing &&& ~~~one ∧ t.rng.apt = counted.apt ∧ t.rng.rct = counted.rct ∧
          t.rng.state = r.state ∧
        tfind t.rng.retest i = none ∧ t.rng.fails = left.fails ∧ t.rng.exps = r.exps ∧
        t.rng.raw = (if r.excl.getLsbD i = true ∨ r.state = .test then r.raw
          else (15 - f.sample + 16 * (s.pw.now - f.tick)) * healthy (r.excl ||| one) r.mask) ∧
        (r.state = .test ∨ r.state = .seeding ∨ r.state = .run → 4 ≤ healthy r.excl r.mask → healthy (r.excl ||| one) r.mask < 4 →
          t.rng.failPend = true)) ∧
      (r.excl.getLsbD i = true → r.testing.getLsbD i = false → exec (.rngSourceExcluded i apt) s = .next { s with rng := counted })) ∧
    (s.chainRuns = true → ∃ t, exec (.rngRetestWrite v) s = .next t ∧ { t with rng := r } = s ∧
      ∀ j < 16, let begins := v.getLsbD j && r.excl.getLsbD j && !r.mask.getLsbD j && !r.testing.getLsbD j
        t.rng.testing.getLsbD j = (r.testing.getLsbD j || begins) ∧ (begins = true → tfind t.rng.retest j = some s.pw.now) ∧
        (begins = false → tfind t.rng.retest j = tfind r.retest j)) ∧
    (∀ t0, tfind r.retest i = some t0 → (∀ f ∈ r.fails, f.src ≠ i) → s.chainRuns = true → t0 + 64 ≤ s.pw.now →
      ∃ t, exec (.rngRetestEnd i) s = .next t ∧
      t.rng = { r with excl := r.excl &&& ~~~one, testing := r.testing &&& ~~~one, retest := tdel r.retest i }) ∧
    (s.islandRuns = true → r.lock = false → 4 ≤ healthy r.excl v → ∃ t, exec (.rngMaskWrite v) s = .next t ∧ { t with rng := r } = s ∧
      t.rng.mask = v ∧ t.rng.testing = r.testing &&& ~~~v ∧ t.rng.excl = r.excl) ∧
    (s.islandRuns = true → r.lock = true ∨ healthy r.excl v < 4 → ∃ t, exec (.rngMaskWrite v) s = .next t ∧ t.rng = r) ∧
    (s.islandRuns = true → r.lock = true → v = r.mask → exec (.rngMaskWrite v) s = .next s))

/-! ### The flash gate and the ledger -/

namespace Sys2Proof.Claims

/-- The pass of the gate after the step. -/
def PassIs (p : Pass) (s : State) (o : Host.Outcome State Fault Refusal) : Prop :=
  ∃ t, o = .next t ∧ t.flg.pass = some p ∧ t.flg.plt = s.flg.plt ∧ t.flg.asel = s.flg.asel ∧ t.ldg = s.ldg ∧ t.ram = s.ram

/-- The platform is held. -/
def PlatformHeld (t : State) : Prop := t.flg.plt = false ∧ t.flg.asel = false ∧ t.flg.relAt = none ∧ t.ldg.passc = false

end Sys2Proof.Claims

/-- The steps of a pass in their order: a reboot request holds the platform and begins a pass, or while the lock latch is set only holds, and during
a firmware update waits for its end; a connected BMC is disconnected, in a pass or outside one; the manifest is verified in 41 tk; the ports are
discovered in 40 to 4,096 tk; each region takes its ticks and leaves its result; where none failed and the policy is not HOLD the verdict is 0;
failing regions are replaced by good backups with verdict 1. The record of a pass: dual-signed in its ticks and programmed into its slot, erased
before; then, after its commit, PASSC, the next slot erased unless RING HOLD keeps it, and the release or HELD; a record whose programming fails
twice leaves the host HELD with reason 0x0E; without randomness it waits with reason 0x0B. A release sequence sets HFA_SEL after 20 tk and PLT_RST_N
4 tk later, and the gate is RELEASED. Where it goes beyond the words of the spec it states the model's own choices: log 2, 25, 49, 125, 128. -/
def Obligations.GatePass : Prop :=
  (∀ (p : Pass) (csHigh readOk : Bool) (a b : Sfdp) (x : RegData) (backups regions : List RegData) (s : State),
    let now := s.pw.now
    let m := p.manifest
    let joined := s.flg.bmcb = true ∧ s.flg.owner = 1
    let record := fun (verdict : Nat) (p : Pass) (o : Host.Outcome State Fault Refusal) => ∃ t q, o = .next t ∧ t.flg.state = .record ∧
      t.flg.pass = some q ∧
      q.step = .record ∧ q.verdict = verdict ∧ q.reason = 0 ∧ q.results = p.results ∧ q.time = s.time64 ∧ q.stepAt = now + 1 ∧ t.ldg = s.ldg ∧
      ∃ l, t.flg.last = some l ∧ l.verdict = verdict ∧ l.results = p.results
    (s.running = true → s.flg.plt = true → s.flg.pass = none → s.pfl.upd = none → s.vault.latch = false →
      ∃ t q, exec .hostRebootRequest s = .next t ∧ PlatformHeld t ∧
      t.flg.pass = some q ∧ q.reboot = true ∧ q.startAt = now ∧ q.results = [] ∧ q.manifest = (if s.lcs.state = .ret then [] else s.ldg.manifest) ∧
      (joined → q.step = .hold ∧ t.flg.state = .holding ∧ t.flg.bmcb = true) ∧
      (¬ joined → q.step = (if q.manifest = [] then .discover else .verify) ∧ q.stepAt = now + 1 ∧ t.flg.bmcb = false)) ∧
    (s.running = true → s.flg.plt = true → s.flg.pass = none → s.pfl.upd ≠ none →
      exec .hostRebootRequest s = .next { s with flg := { s.flg with passDue := some true } }) ∧
    (s.running = true → s.flg.plt = true → s.flg.pass = none → s.pfl.upd = none → s.vault.latch = true → ∃ t, exec .hostRebootRequest s = .next t ∧
      PlatformHeld t ∧
      t.flg.state = .held ∧ t.flg.pass = none ∧ (joined → t.flg.holdAt = some now)) ∧
    (∀ t0, s.flg.pass = none → s.flg.holdAt = some t0 → csHigh = true ∨ t0 + 401 ≤ now → ∃ t, exec (.bmcPortDisconnect csHigh) s = .next t ∧
      t.flg = { s.flg with bmcb := false, holdAt := none }) ∧
    (s.flg.pass = some p →
      (p.step = .hold → csHigh = true ∨ p.startAt + 401 ≤ now → ∃ t, exec (.bmcPortDisconnect csHigh) s = .next t ∧ t.flg.bmcb = false ∧
        t.flg.pass = some { p with step := if m = [] then .discover else .verify, stepAt := now }) ∧
      (p.step = .verify → p.stepAt + 41 ≤ now →
        PassIs { p with step := .discover, stepAt := now, manBad := !(readOk && s.manifestSig m), manifest := if readOk then m else [] } s
          (exec (.manifestReverify readOk) s)) ∧
      (p.step = .discover → p.stepAt + 40 ≤ now → m ≠ [] → nreg m ≠ 0 → let n := min 4096 (now - p.stepAt)
        ∃ t, exec (.portDiscovery a b) s = .next t ∧
        t.flg.portA = choosePort (fieldLE m 49 1) a ∧ t.flg.portB = choosePort (fieldLE m 49 1) b ∧ t.flg.discTk = n ∧ t.flg.state = .measure ∧
        t.flg.pass = some { p with step := .measure, stepAt := p.stepAt + n, discTk := n }) ∧
      (p.step = .measure →
        let i := p.results.length
        let n := s.flg.regionTicks (region m i)
        let q : Pass := { p with stepAt := p.stepAt + n, measTk := p.measTk + n, results := p.results ++ [s.flg.measure m i x] }
        p.stepAt + n ≤ now →
        (i + 1 ≠ nreg m → PassIs q s (exec (.regionMeasure x) s)) ∧
        (i + 1 = nreg m → s.recorded = true → p.manBad = false → m ≠ [] → p.forced = false → fieldLE m 48 1 ≠ 3 → firstFailure q.results = none →
          record 0 q (exec (.regionMeasure x) s))) ∧
      (p.step = .recover → s.recorded = true → p.stepAt + s.flg.checkTicks p + s.flg.againTicks p ≤ now →
        backups.length = (failing p.results).length →
        (∀ i ∈ failing p.results, fieldLE (region m i) 2 1 ≠ 0) → (∀ e ∈ (failing p.results).zip backups, s.flg.backupGood m e.1 e.2 = true) →
        let again := (List.range (nreg m)).map fun i => s.flg.measure m i (regions.getD i { desc := [], data := [] })
        (∀ y ∈ again, failReason y.result = none) → ∃ q : Pass, q.results.map RegRes.digest = again.map RegRes.digest ∧
          record 1 q (exec (.gateRecovery backups regions) s)))) ∧
  (∀ (p : Pass) (first second : Bool) (s : State),
    let now := s.pw.now
    let seq := s.ldg.newest + 1
    let slot := (seq + 4095) % 4096
    let body := s.recordBody p seq s.ldg.lost
    let rnd := (drawIsland 32 s).1
    let ed := edSign (s.ledgerSeed 0) body
    let ml := mldsaSig (s.ledgerSeed 2) [] body rnd
    let ready := p.step = .record ∧ s.ldg.wouldLose seq = false ∧ 32 ≤ (s.exp 16).qbytes ∧
      p.stepAt + max 64 (28 + 8 * attemptsOf (s.ledgerSeed 2) [] body rnd) < now
    let good := Config.edVerify (pubOf 1 (s.ledgerSeed 0)) body ed = true ∧ Config.mldsaAttemptsRaw (s.ledgerSeed 2) [] body rnd ≤ 256 ∧
      Config.mldsaVerify (mldsaPub (s.ledgerSeed 2)) [] body ml = true
    (s.flg.pass = some p →
      (ready → good → first = true ∨ second = true → ∃ t, exec (.ledgerRecordWrite first second) s = .next t ∧
        tfind t.ldg.slots slot = some { record := body ++ (ed ++ ml), commit := [] } ∧ t.flg.pass = some { p with step := .commit, stepAt := now } ∧
        t.ldg.newest = s.ldg.newest ∧ t.ldg.passc = s.ldg.passc ∧ t.ram = s.ram) ∧
      (ready → good → ∃ t, exec (.ledgerRecordWrite false false) s = .next t ∧ t.flg.state = .held ∧ t.flg.pass = none ∧ t.flg.reason = 0x0E ∧
        t.ldg.priorFail = true ∧ t.ldg.newest = s.ldg.newest ∧ t.ldg.passc = s.ldg.passc) ∧
      (p.step = .record → (s.exp 16).qbytes < 32 → exec (.ledgerRecordWrite first second) s = .next { s with flg := { s.flg with reason := 0x0B } }) ∧
      (∀ y, p.step = .commit → tfind s.ldg.slots slot = some y → ∃ t, exec (.ledgerRecordWrite first second) s = .next t ∧
        t.ldg.newest = seq ∧ t.ldg.passc = true ∧ t.ldg.priorFail = false ∧ t.ldg.lost = fieldLE y.record 12 4 ∧ t.flg.seq = seq ∧
        tfind t.ldg.slots slot =
          some { record := y.record, commit := [0x53, 0x56, 0x4C, 0x43] ++ leBytes 4 seq ++ (sha3 y.record).take 24 } ∧
        (s.ldg.ring ≠ 1 ∨ s.ldg.wouldLose (seq + 1) = false → tfind t.ldg.slots (seq % 4096) = none) ∧
        (p.verdict = 2 → t.flg.state = .held ∧ t.flg.pass = none) ∧ (p.verdict ≠ 2 → t.flg.state = .releasing ∧ t.flg.relAt = some now))) ∧
    (∀ t0, s.flg.relAt = some t0 → s.flg.selAt = none → s.mainPower = true → t0 + 20 ≤ now →
      exec .releaseSequence s = .next { s with flg := { s.flg with asel := true, selAt := some now } }) ∧
    (∀ t0 t1, s.flg.relAt = some t0 → s.flg.selAt = some t1 → s.mainPower = true → t1 + 4 ≤ now → ∃ t, exec .releaseSequence s = .next t ∧
      t.flg.asel = true ∧ t.flg.plt = true ∧ t.flg.relAt = none ∧ t.flg.selAt = none ∧ t.flg.state = .released ∧ t.flg.pass = none ∧ t.ldg = s.ldg))

/-- The gate's registers and entries: HOLD holds the platform, but during a pass, whose platform is held already, changes nothing (log 130); RELEASE
begins a release while PASSC is 1 and else changes nothing of the gate; BMCB is 0 during a pass; an operator releases a pass that waits for one,
with verdict 0; a recovery starts a forced pass for a HELD host; the port's owner, ACKSEQ and a role's record selector are written, ACKSEQ within
the newest. Where it goes beyond the words of the spec it states the model's own choices: log 3, 23, 63. -/
def Obligations.GateEntries : Prop :=
  ∀ (r : Req) (value : Bytes) (v : Bool) (s : State),
    let n := leNat value
    (s.islandRuns = true → s.flg.pass = none ∨ s.flg.relAt ≠ none → exec .flgHold s = .next { s with
      flg := { s.flg with plt := false, asel := false, relAt := none, selAt := none, state := .holding,
                          holdAt := if s.flg.bmcb && s.flg.owner = 1 then some s.pw.now else none },
      ldg := { s.ldg with passc := false, full := false } }) ∧
    (s.islandRuns = true → s.flg.pass ≠ none → s.flg.relAt = none → exec .flgHold s = .next s) ∧
    (s.running = true → s.ldg.passc = true ∨ s.lcs.state = .blank ∨ s.lcs.state = .tested →
      exec .flgRelease s = .next { s with flg := { s.flg with state := .releasing, relAt := some s.pw.now, selAt := none } }) ∧
    (s.running = true → s.ldg.passc = false → s.lcs.state ≠ .blank → s.lcs.state ≠ .tested →
      ∃ t, exec .flgRelease s = .next t ∧ t.flg = s.flg ∧ t.ldg = s.ldg) ∧
    (s.islandRuns = true → exec (.flgBmcbWrite v) s = .next { s with flg := { s.flg with bmcb := v && s.flg.pass.isNone } }) ∧
    (Accepted r 3 s → r.ep = 0 →
      (∀ p, r.index = 0x3001 → r.sub = 0 → value = [1] → s.flg.pass = some p → p.step = .operator → s.recorded = true →
        Answers r 3 .ok [] s (fun t => t.flg.state = .record ∧
          t.flg.pass = some { p with operator := true, verdict := 0, reason := 0, time := s.time64, stepAt := s.pw.now + 1, step := .record })
          (exec (.operatorRelease r value) s)) ∧
      (r.index = 0x3001 → r.sub = 0 → value = [1] → s.flg.pass = none →
        Answers r 3 .state [] s (fun t => Aside s t = s) (exec (.operatorRelease r value) s)) ∧
      (r.index = 0x3002 → r.sub = 0 → value = [1] → s.flg.state = .held → s.flg.pass = none → s.running = true → s.vault.latch = false →
        Answers r 3 .ok [] s (fun t => PlatformHeld t ∧ ∃ p, t.flg.pass = some p ∧ p.forced = true ∧
          p.startAt = s.pw.now) (exec (.recoveryRequest r value) s)) ∧
      (r.index = 0x3003 → r.sub = 0 → value.length = 1 → n ≤ 1 → Answers r 3 .ok [] s (fun t => Aside s t = { s with
        flg := { s.flg with owner := n, bmcb := n = 1 && (s.flg.pass.isNone || s.flg.bmcb) } }) (exec (.portBOwnerWrite r value) s)) ∧
      (r.index = 0x3022 → r.sub = 0 → value.length = 4 → s.ldg.ack ≤ n → n ≤ s.ldg.newest →
        Answers r 3 .ok [] s (fun t => t.ldg.ack = n ∧ t.ldg.newest = s.ldg.newest ∧ t.flg = s.flg) (exec (.ackseqWrite r value) s)) ∧
      (r.index = 0x3022 → r.sub = 0 → value.length = 4 → s.ldg.newest < n →
        Answers r 3 .range [] s (fun t => Aside s t = s) (exec (.ackseqWrite r value) s)) ∧
      (r.index = 0x3021 → r.sub = 2 → value.length = 4 →
        Answers r 3 .ok [] s (fun t => t.ldg.sel[1] = n ∧ t.ldg.sel[0] = s.ldg.sel[0] ∧
          t.ldg.sel[2] = s.ldg.sel[2]) (exec (.recordSelectorWrite r value) s)) ∧
      (r.index = 0x3021 → r.sub = 1 → value.length = 4 → Answers r 3 .denied [] s (fun t => Aside s t = s) (exec (.recordSelectorWrite r value) s)))

/-! ### SPDM -/

namespace Sys2Proof.Claims

/-- The SPDM response: version, code, parameters, body; and `p` of the next state. -/
def Responds (ver code p1 p2 : Nat) (body : Bytes) (p : State → Prop) (o : Host.Outcome State Fault Refusal) : Prop :=
  ∃ t, o = .next t ∧ t.out.spdm = leBytes 1 ver ++ leBytes 1 code ++ leBytes 1 p1 ++ leBytes 1 p2 ++ body ∧ p t

end Sys2Proof.Claims

/-- SPDM: a connection negotiates a version, 1.2 or 1.3, and one of two algorithms; digests and certificates are of the chain of slot 0; a challenge,
signed measurements and a key exchange start the signing of a message over their transcript, whose longer half ends after its ticks; then the
response carries the signature, its ML-DSA-65 half being kept for a vendor-defined request, or is ERROR Unspecified where a half failed its
verification; at most four sessions are open; inside one, keys are updated and the session ends; IDE stream keys stand after it. A request out of
order is ERROR UnexpectedRequest, one during a firmware update Busy, and one that needs algorithms not agreed on, or a session over I3C/SMBus, is
Unsupported. Where it goes beyond the words of the spec it states the model's own choices: log 4, 19, 52, 128, 129, 155. -/
def Obligations.SpdmResponder : Prop :=
  ∀ (c ver off len i tag : Nat) (ed p384 meas dhe aead sign failed : Bool) (exch transcript : Bytes) (s : State), s.spdmOpen c = true →
    (∀ m, s.spdm.signing = some m → m.conn ≠ c) →
    (s.pfl.upd ≠ none → ∃ t, exec (.spdmGetDigests c) s = .next t ∧ t.out.spdm = leBytes 1 (max 0x10 (s.conn c).ver) ++ [0x7F, 0x03, 0]) ∧
    (s.pfl.upd = none →
    let x := s.conn c
    let ready := x.phase = 3
    let signs := s.running = true ∧ s.flg.pass = none ∧ s.spdm.signing = none ∧ 256 ≤ (s.exp 16).qbytes
    let stays := fun (t : State) => { t with out := s.out } = s
    let conn := fun (y : SConn) (t : State) => t.conn c = y ∧ { t with out := s.out, spdm := s.spdm } = s
    let chain := s.chain x
    let starts := fun (code : Nat) (p : Signing → Prop) (o : Host.Outcome State Fault Refusal) => ∃ t m, o = .next t ∧ t.spdm.signing = some m ∧
      t.spdm.conns = s.spdm.conns ∧ t.spdm.sessions = s.spdm.sessions ∧ t.out.spdm = [] ∧ m.conn = c ∧ m.code = code ∧ m.xi = s.aliasSeed 2 ∧
      m.msg = transcript ++ m.body ∧ m.due = s.pw.now + max (if x.asym = 1 then 64 else 120) (28 + 8 * attemptsOf m.xi [] m.msg m.rnd) ∧
      (x.asym = 1 → m.sig = edSign (s.aliasSeed 0) m.msg ∧ m.good = (Config.edVerify (pubOf 1 (s.aliasSeed 0)) m.msg m.sig && !failed)) ∧ p m
    Responds 0x10 0x04 0 0 [0, 2, 0x00, 0x12, 0x00, 0x13] (conn { phase := 1 }) (exec (.spdmGetVersion c) s) ∧
    (x.phase = 1 → ver = 0x12 ∨ ver = 0x13 → Responds ver 0x61 0 0 ([0, 20, 0, 0] ++ leBytes 4 spdmFlags ++ leBytes 4 4096 ++ leBytes 4 8192)
      (conn { x with phase := 2, ver := ver }) (exec (.spdmGetCapabilities c ver) s)) ∧
    (x.phase = 0 → Responds (max 0x10 x.ver) 0x7F 0x04 0 [] stays (exec (.spdmGetCapabilities c ver) s)) ∧
    (2 ≤ x.phase → ed = true ∨ p384 = true →
      let y : SConn := { x with phase := 3, asym := if ed then 1 else 2, meas := meas, keys := dhe && aead }
      Responds x.ver 0x63 2 0 ([44, 0] ++ (if meas then [1, 0, 4, 0, 0, 0] else [0, 0, 0, 0, 0, 0]) ++
          leBytes 4 (if ed then 0x400 else 0x80) ++ leBytes 4 2 ++ List.replicate 16 0 ++ [2, 0x20, if dhe then 0x10 else 0, 0] ++
          [3, 0x20, if aead then 2 else 0, 0])
        (conn y) (exec (.spdmNegotiateAlgorithms c ed p384 ⟨true, meas, dhe, aead⟩) s)) ∧
    (2 ≤ x.phase → Responds (max 0x10 x.ver) 0x7F 0x01 0 [] stays (exec (.spdmNegotiateAlgorithms c ed p384 ⟨false, meas, dhe, aead⟩) s)) ∧
    (ready → Responds x.ver 0x01 0 1 (sha384 chain) stays (exec (.spdmGetDigests c) s)) ∧
    (ready → off < chain.length → let b := (chain.drop off).take (min len 4088)
      Responds x.ver 0x02 0 0 (leBytes 2 b.length ++ leBytes 2 (chain.length - off - b.length) ++ b) stays (exec (.spdmGetCertificate c 0 off len) s)) ∧
    (ready → signs → starts 0x03 (fun m => m.p1 = 0 ∧ m.sess = none ∧ m.session = none ∧ m.body = sha384 chain ++ (drawIsland 32 s).1)
      (exec (.spdmChallenge c 0 transcript failed) s)) ∧
    (ready → s.flg.pass = none → x.meas = true → ∀ v, s.measurement i = some v → i ≠ 0 → i ≠ 0xFF → let rec_ := measBlock i v
      rec_.length + 8 ≤ 8192 →
        Responds x.ver 0x60 0 0 (leBytes 1 1 ++ leBytes 3 rec_.length ++ rec_) stays (exec (.spdmGetMeasurements c i false none transcript failed) s)) ∧
    (ready → s.flg.pass = none → x.meas = false →
      Responds (max 0x10 x.ver) 0x7F 0x07 0 [] stays (exec (.spdmGetMeasurements c i sign none transcript failed) s)) ∧
    (ready → signs → x.meas = true → ∀ v, s.measurement i = some v → i ≠ 0 → i ≠ 0xFF → let rec_ := measBlock i v
      starts 0x60 (fun m => m.session = none ∧ m.body = leBytes 1 1 ++ leBytes 3 rec_.length ++ rec_ ++ (drawIsland 32 s).1)
        (exec (.spdmGetMeasurements c i true none transcript failed) s)) ∧
    (ready → s.flg.pass ≠ none → Responds (max 0x10 x.ver) 0x7F 0x03 0 [] stays (exec (.spdmGetMeasurements c i sign none transcript failed) s)) ∧
    (ready → signs → c ≠ 2 → x.keys = true → s.spdm.sessions.length < 4 → starts 0x64 (fun m => ∃ e, m.session = some e ∧ e.id = s.spdm.nextId ∧
      e.conn = c ∧ e.est = false)
      (exec (.spdmKeyExchange c exch transcript failed) s)) ∧
    (∀ m, s.spdm.signing = some m → s.spdmOpen m.conn = true → s.running = true → s.flg.pass = none → m.due ≤ s.pw.now →
      m.body.length + m.sig.length ≤ 8188 → let t := signingTick s
      let ml := mldsaSig m.xi [] m.msg m.rnd
      t.spdm.signing = none ∧
      (m.good = true → Config.mldsaAttemptsRaw m.xi [] m.msg m.rnd ≤ 256 → Config.mldsaVerify (mldsaPub m.xi) [] m.msg ml = true →
        t.out.spdm = leBytes 1 (s.conn m.conn).ver ++ leBytes 1 m.code ++ leBytes 1 m.p1 ++ [0] ++ (m.body ++ m.sig) ∧
        (∀ e, m.session = some e → m.sess = none → t.spdm.sessions = s.spdm.sessions ++ [e] ∧ t.spdm.nextId = e.id + 1) ∧
        (m.sess = none → (t.conn m.conn).half = some (sha384 m.msg, ml))) ∧
      (m.good = false → t.out.spdm = leBytes 1 (max 0x10 (s.conn m.conn).ver) ++ [0x7F, 0x05, 0] ∧ t.spdm.sessions = s.spdm.sessions)) ∧
    (ready → c = 2 ∨ x.keys = false → Responds (max 0x10 x.ver) 0x7F 0x07 0 [] stays (exec (.spdmKeyExchange c exch transcript failed) s)) ∧
    (ready → c ≠ 2 → x.keys = true → 4 ≤ s.spdm.sessions.length →
      Responds (max 0x10 x.ver) 0x7F 0x03 0 [] stays (exec (.spdmKeyExchange c exch transcript failed) s)) ∧
    (ready → c ≠ 2 → ∀ e, s.spdmSession i = some e → e.conn = c →
      (e.est = false → Responds x.ver 0x65 0 0 [] (fun t => t.spdmSession i = some { e with est := true }) (exec (.spdmFinish c i true) s)) ∧
      (e.est = false → ∃ t, exec (.spdmFinish c i false) s = .next t ∧ t.spdmSession i = none) ∧
      (e.est = true → Responds x.ver 0x68 0 0 [] stays (exec (.spdmHeartbeat c i) s)) ∧
      (e.est = true → Responds x.ver 0x69 1 tag [] (fun t => t.spdmSession i = some { e with secret := Config.sessionKey e.secret })
        (exec (.spdmKeyUpdate c i 1 tag) s)) ∧
      (e.est = true → Responds x.ver 0x6C 0 0 [] (fun t => t.spdmSession i = none ∧ t.spdm.ide = s.spdm.ide) (exec (.spdmEndSession c i) s)) ∧
      (e.est = true → c = 0 → exch.length ≤ 8181 → Responds x.ver 0x7E 0 0 [] (fun t => t.spdm.ide = some exch ∧
        t.spdm.sessions = s.spdm.sessions) (exec (.ideKmKeyProg i exch) s))) ∧
    (ready → ∀ h, x.half = some h → h.1.length + h.2.length ≤ 8187 →
      Responds x.ver 0x7E 0 0 ([1] ++ h.1 ++ h.2) stays (exec (.spdmVendorDefinedRequest c none [1]) s)))

/-! ### The card port, the reader, and custodian cards -/

namespace Sys2Proof.Claims

/-- The contact port after the step, with what it reports. -/
def PortIs (p : Crd → Prop) (s : State) (o : Host.Outcome State Fault Refusal) : Prop :=
  ∃ t, o = .next t ∧ p t.crd ∧ t.ram = s.ram ∧ t.dsp = s.dsp ∧ t.ctl = s.ctl ∧ t.vault.rtc = s.vault.rtc

/-- The card is deactivated: no class, no session. -/
def CardOff (res : Nat) (c : Crd) : Prop := c.st = .off ∧ c.cls = 0 ∧ c.proto = false ∧ c.sess = {} ∧ c.res = res

/-- Activation in the class of code `k`. -/
def Activates (k : Nat) (c : Crd) : Prop := c.st = .atr ∧ c.cls = k ∧ c.proto = false ∧ c.sess = {}

/-- The APDU `b` is sent to the card of port `p`, under T=1 in blocks, as the command `c`, whose exchange is then under way. -/
def Sends (s : State) (p : Nat) (c : CardCmd) (b : Bytes) (q : State → Prop) (o : Host.Outcome State Fault Refusal) : Prop :=
  ∃ t, o = .next t ∧ (if p = 0 then t.out.card else t.out.reader) = s.framed p b ∧ (t.sess p).busy = c ∧ t.exchanging p = true ∧ q t

/-- The exchange of port `p` has ended OK with session `x`, and `q` of the next state. -/
def Ends (p : Nat) (x : Sess) (q : State → Prop) (o : Host.Outcome State Fault Refusal) : Prop :=
  ∃ t, o = .next t ∧ t.sess p = x ∧ t.exchanging p = false ∧ (if p = 0 then t.crd.res else t.ctl.res) = 0 ∧ q t

end Sys2Proof.Claims

/-- The contact port: a card inserted where it is needed, and ACT, activate it in the lowest enabled voltage class; an ATR that is valid leads to a
PPS or makes the card ready, an invalid one has one warm reset; a silent class is followed by the next, and after the last the card is refused
with RES 5; a PPS answered as asked sets F and D, another one has one cold reset; under T=1 a ready card has two S(IFS request)s, after which IFSD
is 32; the timeouts end an exchange with TIMEOUT or, after two R-blocks and a RESYNCH, EDC; removal and DEACT deactivate. Where it goes beyond the
words of the spec it states the model's own choices: log 2, 38, 42, 157. -/
def Obligations.ContactPort : Prop :=
  ∀ (k : Nat) (atr resp : Bytes) (lastSent : Bool) (s : State),
    let c := s.crd
    let first := nextClass c.classes 3
    let p := PortIs
    (s.islandRuns = true → c.present = false → s.lcs.state ≠ .scrapped → s.cust.collect ≠ none → first = some k →
      p (fun d => d.present = true ∧ Activates k d) s (exec .cardInserted s)) ∧
    (s.islandRuns = true → c.present = false → s.lcs.state ≠ .scrapped → s.cardNeed = false → c.classes ≠ 0 →
      p (fun d => d = { c with present := true, warm := false, cold := false }) s (exec .cardInserted s)) ∧
    (s.exchanging 0 = false → ∃ t, exec (.cardRemoved lastSent) s = .next t ∧ CardOff c.res t.crd ∧ t.crd.present = false) ∧
    (s.exchanging 0 = true → ∃ t, exec (.cardRemoved lastSent) s = .next t ∧ CardOff 1 t.crd ∧ t.crd.present = false) ∧
    (s.running = true → c.present = true → c.st = .off → (first = some k → p (Activates k) s (exec .crdAct s)) ∧
      (first = none → p (CardOff 5) s (exec .crdAct s))) ∧
    (c.st ≠ .off → ∃ t, exec (.crdDeact lastSent) s = .next t ∧ CardOff c.res t.crd) ∧
    (c.st = .off → exec (.crdDeact lastSent) s = .next (wrote 0x600B0000 s)) ∧
    (c.st = .atr →
      (∀ g, parseAtr atr = some g → classTa g = none → ((g.drop 1).head?.bind fun x => x.ta) = none → c.cold = false →
        let one := g.head?.bind fun x => x.ta
        (∀ v, ppsChoice one false = some v → ∃ t, exec (.atrReceived atr false) s = .next t ∧ t.crd.st = .pps ∧ t.crd.pps = v ∧
          t.crd.proto = offersT1 g ∧
          t.out.card = ppsRequest (offersT1 g) v) ∧
        (ppsChoice one false = none → ∃ t, exec (.atrReceived atr false) s = .next t ∧
          t.crd = { c with st := .ready, res := 0, proto := offersT1 g, crc := crcOf g, ifsc := ifscOf g, ifsd := if offersT1 g then 254 else 32,
                           ifsTry := if offersT1 g then 1 else 0, ns := 0, nr := 0 } ∧
          (offersT1 g = true → crcOf g = false → t.out.card = [0x00, 0xC1, 0x01, 0xFE, 0x3E]))) ∧
      (parseAtr atr = none → c.warm = false →
        exec (.atrReceived atr false) s = .next { s with crd := { c with warm := true, rstAt := s.pw.now + 3907 } }) ∧
      (parseAtr atr = none → c.warm = true → p (CardOff 0) s (exec (.atrReceived atr false) s)) ∧
      (c.cold = false → nextClass c.classes (c.cls - 1) = some k → p (Activates k) s (exec .atrTimeout s)) ∧
      (c.cold = false → nextClass c.classes (c.cls - 1) = none → p (CardOff 5) s (exec .atrTimeout s))) ∧
    (c.st = .pps →
      (resp = ppsRequest c.proto c.pps → ∃ t, exec (.ppsResponse resp) s = .next t ∧
        t.crd = { c with st := .ready, res := 0, fi := c.pps / 16, di := c.pps % 16, ifsd := if c.proto then 254 else c.ifsd,
                         ifsTry := if c.proto then 1 else c.ifsTry }) ∧
      (resp ≠ ppsRequest c.proto c.pps → c.cold = false → nextClass c.classes c.cls = some k →
        p (fun d => Activates k d ∧ d.res = 6 ∧ d.cold = true) s (exec (.ppsResponse resp) s)) ∧
      (c.cold = true → p (CardOff 6) s (exec .ppsTimeout s)) ∧
      (c.cold = false → nextClass c.classes c.cls = some k → p (fun d => Activates k d ∧ d.res = 6 ∧ d.cold = true) s (exec .ppsTimeout s))) ∧
    (c.st = .ready → c.proto = true →
      (c.ifsTry = 1 → ∃ t, exec (.t1BwtTimeout lastSent) s = .next t ∧ t.crd = { c with ifsTry := 2, ifsd := 254 } ∧
        t.out.card = c.block 0xC1 [0xFE]) ∧
      (c.ifsTry = 2 → exec (.t1BwtTimeout lastSent) s = .next { s with crd := { c with ifsTry := 0, ifsd := 32 } })) ∧
    (c.st = .exchange →
      (c.proto = false → ∃ t, exec (.wwtTimeout lastSent) s = .next t ∧ CardOff 3 t.crd) ∧
      (c.proto = true → ∃ t, exec (.apduExchangeTimeout lastSent) s = .next t ∧ CardOff 3 t.crd) ∧
      (c.proto = true → c.sess.tries < 3 → ∃ t, exec (.t1BwtTimeout lastSent) s = .next t ∧
        t.crd = { (if c.sess.tries < 2 then c else { c with ns := 0, nr := 0 }) with sess := { c.sess with tries := c.sess.tries + 1, wtx := 1 } } ∧
        t.out.card = (if c.sess.tries < 2 then c.block (0x82 + 16 * c.nr) [] else c.block 0xC0 []) ∧
        (c.crc = false → 2 ≤ c.sess.tries → t.out.card = [0x00, 0xC0, 0x00, 0xC0])) ∧
      (c.proto = true → 3 ≤ c.sess.tries → ∃ t, exec (.t1BwtTimeout lastSent) s = .next t ∧ CardOff 4 t.crd))

/-- Exchanges with a custodian card, sent on a ready port, under T=1 of the contact port as chained I-blocks: SELECT of the application, GET_CRED
after it, AUTH with a fresh challenge and ephemeral key, READ_OBJ and WRITE_OBJ once authenticated, the write after its PREPARED record, CHECK_OBJ,
GET RESPONSE for what a card holds back, and the bytes of a buffer. An answer ends the exchange: selected, credential taken, signature under
verification, DONE, VERIFIED, or the bytes in the buffer. Where it goes beyond the words of the spec it states the model's own choices: log 4, 40,
46, 157. -/
def Obligations.CardExchanges : Prop :=
  ∀ (p obj n : Nat) (data plain : Bytes) (s : State), p ≤ 1 →
    let x := s.sess p
    let ended := { x with busy := .none, more := none, tries := 0, resent := false, got := [], wtx := 1 }
    let none_ := fun (_ : State) => True
    let ok := some (CardAnswer.status data 0x9000)
    (s.running = true → s.cardReady p = true →
      Sends s p .select ([0x00, 0xA4, 0x04, 0x00, 0x08] ++ custAid) none_ (exec (.cardSelect p none) s) ∧
      (x.selected = true → Sends s p .getCred [0x80, 0x10, 0x00, 0x00, 0x30] none_ (exec (.getCred p none) s)) ∧
      (x.selected = true → x.cred ≠ [] → x.verifyAt = none → 64 ≤ (s.exp 16).qbytes →
        let purpose := (s.sessPurpose p).1
        let chal := (drawIsland 32 s).1
        let eph := (drawIsland 32 (drawIsland 32 s).2).1
        Sends s p .auth ([0x80, 0x12, BitVec.ofNat 8 purpose, 0x00, 64] ++ chal ++ fixLen 32 (Config.pubOfRaw 2 eph) ++
            (if p = 0 ∧ s.crd.proto = false then [] else [0x60]))
          (fun t => (t.sess p).purpose = purpose ∧ (t.sess p).lease = (s.sessPurpose p).2 ∧ (t.sess p).chal = chal ∧ (t.sess p).ephPriv = eph ∧
            (t.sess p).authed = false) (exec (.auth p none) s)) ∧
      (s.mayMove p = true → Sends s p (.readObj 0x20) [0x80, 0x20, 0x20, 0x00, 0x00] none_ (exec (.readObj p 0x20 none) s)) ∧
      (s.mayMove p = true → ∀ lease number, s.objectOf p obj = some (plain, lease, number) →
        ∃ b, Sends s p (.writeObj obj) ([0x80, 0x22, BitVec.ofNat 8 obj, 0x00] ++ leBytes 1 (x.protect [0x80, 0x22, BitVec.ofNat 8 obj, 0x00] plain).length ++
            x.protect [0x80, 0x22, BitVec.ofNat 8 obj, 0x00] plain)
          (fun t => (t.sess p).bodies = x.bodies + 1 ∧ t.cust.journal = s.cust.journal ++ [b] ∧ (t.sess p).prepared = b.seq ∧ b.kind = 1 ∧
            b.obj = obj ∧
            b.lease = lease ∧ b.ref = number ∧ b.card = x.cred.take 16 ∧ b.check = (sha256 plain).take 8) (exec (.writeObj p obj none) s)) ∧
      (x.authed = true → Sends s p (.checkObj obj) [0x80, 0x24, BitVec.ofNat 8 obj, 0x00, 8] none_ (exec (.checkObj p obj none) s)) ∧
      (p = 0 → 4 ≤ s.crd.tx.toNat → s.crd.tx.toNat ≤ 261 →
        let apdu := (List.range s.crd.tx.toNat).map fun i => tget 0 s.crd.buf i
        let lc := (tget 0 s.crd.buf 4).toNat
        Sends s 0 .raw (if s.crd.proto = false ∧ lc ≠ 0 ∧ s.crd.tx.toNat = 6 + lc then apdu.take (5 + lc) else apdu) none_ (exec (.crdSend none) s)) ∧
      (p = 1 → 4 ≤ s.ctl.tx.toNat → s.ctl.tx.toNat ≤ 261 →
        Sends s 1 .raw ((List.range s.ctl.tx.toNat).map fun i => tget 0 s.ctl.buf i) none_ (exec (.ctlSend none) s))) ∧
    (s.exchanging 0 = true → s.crd.sess.more = some n → ∃ t, exec (.getResponse none) s = .next t ∧
      t.out.card = [0x00, 0xC0, 0x00, 0x00, BitVec.ofNat 8 n] ∧
      t.crd = s.crd) ∧
    (s.exchanging p = true → x.more = none → x.got = [] →
      (x.busy = .select → data = [] → Ends p { ended with selected := true } (fun t => t.cust = s.cust) (exec (.cardSelect p ok) s)) ∧
      (∀ pos, x.busy = .getCred → data.length = 48 → s.position data = some pos → s.hasCounted pos = false →
        (∀ r ∈ unresolved s.cust.journal, r.card ≠ data.take 16) →
          Ends p { ended with cred := s.quorum.getD pos [] } (fun t => t.cust = s.cust) (exec (.getCred p ok) s)) ∧
      (x.busy = .auth → data.length = 96 → Ends p { ended with cardEph := data.take 32, sig := data.drop 32, verifyAt := some s.pw.now }
        (fun t => t.cust = s.cust) (exec (.auth p ok) s)) ∧
      (x.busy = .readObj 0x20 → x.unprotect [0x80, 0x20, 0x20, 0x00] data = some plain → plain.length = 192 →
        Ends p { ended with bodies := x.bodies + 1 } (fun t => t.cust = s.cust) (exec (.readObj p 0x20 ok) s)) ∧
      (∀ b, x.busy = .writeObj 0x20 → data = [] → s.cust.journal.find? (fun r => r.seq = x.prepared && r.kind = 1) = some b →
        Ends p ended (fun t => ∃ d, t.cust.journal = s.cust.journal ++ [d] ∧ d.kind = 2 ∧ d.ref = x.prepared ∧
          d.obj = b.obj) (exec (.writeObj p 0x20 ok) s)) ∧
      (∀ r, x.busy = .checkObj obj → s.unconfirmed (x.cred.take 16) obj = some r → s.cust.ceremony = none → data.length = 8 →
        (data = r.check → s.cust.journal.find? (fun b => b.seq = r.ref && b.kind = 1) ≠ none →
          ∃ t d, exec (.checkObj p obj ok) s = .next t ∧ t.cust.journal = s.cust.journal ++ [d] ∧ d.kind = 5 ∧ d.ref = r.ref ∧ t.sess p = ended)) ∧
      (p = 0 → x.busy = .raw → ∃ t, exec (.crdSend ok) s = .next t ∧ t.crd.st = .ready ∧ t.crd.rx.toNat = (data.length + 2) % 4096 ∧
        ∀ i < data.length + 2, tget 0 t.crd.buf i = (data ++ [0x90, 0x00]).getD i 0) ∧
      (p = 1 → x.busy = .raw → ∃ t, exec (.ctlSend ok) s = .next t ∧ t.ctl.st = .ready ∧ t.ctl.rx.toNat = (data.length + 2) % 4096 ∧
        ∀ i < data.length + 2, tget 0 t.ctl.buf i = (data ++ [0x90, 0x00]).getD i 0))

/-- The reader, running: a ping sets the reference or, detuned by THRESH, turns the field on; WUPA and REQA look for cards, three times, and an answer
begins anticollision; a collision fixes its bit, a full level with a right BCC is selected, and with SAK bit 2 the next level follows; RATS makes
the card ready; HLTA halts it and looks for the next, up to 16; OFF and LPCD turn the field and detection off and on. Where it goes beyond the
words of the spec it states the model's own choices: log 40, 41, 46, 87. -/
def Obligations.CardReader : Prop :=
  ∀ (amp k : Nat) (answer : List Bool) (sak ta1 : Byte) (fwi : Nat) (lastSent : Bool) (s : State), s.running = true →
    let c := s.ctl
    let to_ := fun (d : Ctl) (o : Host.Outcome State Fault Refusal) => ∃ t, o = .next t ∧ t.ctl = d ∧ t.ram = s.ram ∧ t.dsp = s.dsp ∧ t.crd = s.crd
    let off : Ctl := { c with st := if c.lpcd then .lpcd else .off, card := false, rate := 0, ref := none, wupas := 0, reqas := 0, cards := 0, level := 1, bits := [], uid := [], sess := {} }
    let all := c.bits ++ answer
    let halted : Ctl := { c with st := .poll, card := false, rate := 0, reqas := 0, cards := c.cards + 1, bits := [], uid := [], sess := {} }
    (c.st = .lpcd → c.ref = none → to_ { c with lastPing := amp, ref := some amp } (exec (.lpcdPing amp) s)) ∧
    (c.st = .lpcd → ∀ r, c.ref = some r → to_ (if c.thresh.toNat * r ≤ 1024 * ((amp - r) + (r - amp))
      then { c with lastPing := amp, st := .poll, wupas := 0, reqas := 0, cards := 0 } else { c with lastPing := amp }) (exec (.lpcdPing amp) s)) ∧
    (c.st = .poll → c.cards = 0 →
      to_ { c with wupas := c.wupas + 1, st := .anticoll, level := 1, bits := [], uid := [], reqas := 0 } (exec (.wupa true) s) ∧
      (c.wupas + 1 < 3 → to_ { c with wupas := c.wupas + 1 } (exec (.wupa false) s)) ∧
      (3 ≤ c.wupas + 1 → c.sess = {} → to_ { off with ref := some c.lastPing } (exec (.wupa false) s))) ∧
    (c.st = .poll → c.cards ≠ 0 →
      to_ { c with st := .anticoll, level := 1, bits := [], uid := [], reqas := 0 } (exec (.reqa true) s) ∧
      (c.reqas + 1 < 3 → to_ { c with reqas := c.reqas + 1 } (exec (.reqa false) s)) ∧
      (3 ≤ c.reqas + 1 → c.sess = {} → to_ off (exec (.reqa false) s))) ∧
    (c.st = .anticoll → c.card = false →
      (c.bits.length < 40 → c.bits.length ≤ k → k ≤ all.length → k < 32 →
        to_ { c with bits := all.take k ++ [true] } (exec (.anticollision answer (some k)) s)) ∧
      (c.bits.length < 40 → all.length = 40 → (bitsToBytes all).foldl (· ^^^ ·) 0 = 0 →
        to_ { c with bits := all } (exec (.anticollision answer none) s)) ∧
      (c.bits.length = 40 → sak.getLsbD 2 = false →
        to_ { c with card := true, uid := c.uid ++ (bitsToBytes c.bits).take 4, rate := 0, sess := {} } (exec (.readerSelect sak) s)) ∧
      (c.bits.length = 40 → sak.getLsbD 2 = true → c.level < 3 →
        to_ { c with level := c.level + 1, bits := [], uid := c.uid ++ slice (bitsToBytes c.bits) 1 3 } (exec (.readerSelect sak) s))) ∧
    (c.st = .anticoll → c.card = true → fwi ≤ 14 → to_ { c with st := .ready, rate := bestRate ta1 } (exec (.rats ta1 fwi) s)) ∧
    (c.card = true → c.st ≠ .exchange → c.cards + 1 < 16 → to_ halted (exec .hlta s) ∧ to_ halted (exec .ctlHalt s)) ∧
    (c.card = true → c.st ≠ .exchange → c.cards + 1 = 16 → to_ { off with res := 7 } (exec .hlta s)) ∧
    (c.st = .off ∨ c.st = .lpcd → exec (.ctlOff lastSent) s = .next (wrote 0x600C0000 s)) ∧
    (c.st ≠ .off → c.st ≠ .lpcd → ∃ t, exec (.ctlOff lastSent) s = .next t ∧ t.ctl = off ∧ t.ram = s.ram) ∧
    (c.st = .off → to_ { c with lpcd := true, st := .lpcd, ref := none } (exec (.ctlLpcdEnable true) s)) ∧
    (c.st = .lpcd → to_ { c with lpcd := false, st := .off, ref := none } (exec (.ctlLpcdEnable false) s))

/-! ### The tag -/

/-- The tag: a field starts it, REQA or WUPA makes it READY, selection ACTIVE with the copies it then serves to the end of the session; HALT and the
end of the field leave the session; an attempt at a password is spent before its compare; a scrapped part and the reader's own field leave the tag
mute. A wake stops a wired commit, and every area still reads as before it. READ, VERIFY and the note's commands
answer as their rights allow; a note commit and a finished wired commit replace the area's bytes whole; GO, a retry, a password and an attempts
reset start theirs only outside a field session, and an officer quorum is written in CLAIMED by HOST. Where it goes beyond the words of the spec
it states the model's own choices: log 2, 70, 87, 88. -/
def Obligations.TagStore : Prop :=
  ∀ (wupa : Bool) (rows area off len p2 : Nat) (data : Bytes) (r : Req) (s : State),
    let g := s.tag
    let quiet := s.readerField = false ∧ s.lcs.state ≠ .scrapped
    let u := fun i => (fixLen 7 s.ident.tagUid).getD i 0
    let gone := fun (x : Tag) => { x with st := .off, app := false, noteOk := false, svcOk := false, stage := [], served := [] }
    let live := g.st = .active ∧ g.app = true ∧ quiet
    let tells := fun (d : Bytes) (sw : Nat) (t : State) => t.out.tag = d ++ beBytes 2 sw
    let busy := g.st = .ready ∨ g.st = .active
    let fresh := fun (a : Nat) => (g.copy a 0).seq.toNat < 2 ^ 32 - 1 ∧ (g.copy a 1).seq.toNat < 2 ^ 32 - 1
    let left := if p2 = 1 then g.notePw else g.svcPw
    let others := fun (a : Nat) (t : State) => ∀ b, b ≠ a → t.tag.area b = g.area b
    (¬quiet → exec .tagFieldOn s = .next s ∧ exec .tagSelection s = .next s) ∧
    (g.st = .off → quiet → ∃ t, exec .tagFieldOn s = .next t ∧ t.tag = { g with st := .idle }) ∧
    exec .tagFieldOff s = .next { s with tag := gone g } ∧
    (g.st = .active → exec .tagHalt s = .next { s with tag := { g with st := .halt, app := false, noteOk := false, svcOk := false, stage := [], served := [] } }) ∧
    (g.st = .idle ∨ (wupa = true ∧ g.st = .halt) → quiet → ∃ t, exec (.tagWake wupa rows) s = .next t ∧ t.tag.st = .ready ∧
      t.tag.commit = none ∧ (g.commit = none → t.tag = { g with st := .ready } ∧ t.out.tag = [0x44, 0x00]) ∧
      ∀ c, g.commit = some c → c.copy = g.target c.area → t.tag.wres = 1 ∧ ∀ a, t.tag.area a = g.area a) ∧
    (g.st = .ready → quiet → ∃ t, exec .tagSelection s = .next t ∧ t.tag.st = .active ∧
      t.out.tag = [0x88, u 0, u 1, u 2, 0x88 ^^^ u 0 ^^^ u 1 ^^^ u 2, 0x04, u 3, u 4, u 5, u 6, u 3 ^^^ u 4 ^^^ u 5 ^^^ u 6, 0x20,
        0x05, 0x78, 0x77, 0x80, 0x02] ∧
      t.tag.copies = g.copies ∧ ∀ a ≤ 4, t.tag.fieldArea a = g.area a) ∧
    (g.st = .active → quiet → ∃ t, exec .tagSelect s = .next t ∧ t.tag = { g with app := true } ∧ t.out.tag = [0x90, 0x00]) ∧
    (live → 1 ≤ area → area ≤ 4 → area = 3 → g.svcOk = false → ∃ t, exec (.tagRead area off len) s = .next t ∧ t.tag = g ∧
      tells [] (if g.svcPw = 0 then 0x6983 else 0x6982) t) ∧
    (live → 1 ≤ area → area ≤ 4 → (area = 3 → g.svcOk = true) → 32 * off < (g.fieldArea area).length →
      ∃ t, exec (.tagRead area off len) s = .next t ∧ t.tag = g ∧
      tells (((g.fieldArea area).drop (32 * off)).take (if len = 0 then 256 else len)) 0x9000 t) ∧
    (live → p2 = 1 ∨ p2 = 2 → data.length = 8 → left ≠ 0 →
      (slice (g.area 0) (16 * (p2 - 1)) 16 = (sha256 (data ++ fixLen 16 s.ident.unit)).take 16 → ∃ t, exec (.tagVerify p2 ⟨data, false⟩) s = .next t ∧
        tells [] 0x9000 t ∧
        t.tag = if p2 = 1 then { g with notePw := 8, noteOk := true } else { g with svcPw := 8, svcOk := true }) ∧
      (slice (g.area 0) (16 * (p2 - 1)) 16 ≠ (sha256 (data ++ fixLen 16 s.ident.unit)).take 16 → ∃ t, exec (.tagVerify p2 ⟨data, false⟩) s = .next t ∧
        tells [] (0x63C0 + (left - 1)) t ∧ t.tag = if p2 = 1 then { g with notePw := left - 1 } else { g with svcPw := left - 1 }) ∧
      exec (.tagVerify p2 ⟨data, true⟩) s = .next { s with tag := gone (if p2 = 1 then { g with notePw := left - 1 } else { g with svcPw := left - 1 }) }) ∧
    (live → p2 = 1 ∨ p2 = 2 → data.length = 8 → left = 0 → ∀ cut, ∃ t, exec (.tagVerify p2 ⟨data, cut⟩) s = .next t ∧ tells [] 0x6983 t ∧ t.tag = g) ∧
    (live → g.noteOk = true → 32 * off < 512 → data.length ≤ 224 → 32 * off + data.length ≤ 512 → ∃ t, exec (.noteWrite off data) s = .next t ∧
      tells [] 0x9000 t ∧ { t.tag with stage := g.stage } = g ∧ t.tag.stage.length = 512 ∧
      ∀ i < 512, t.tag.stage.getD i 0 = if 32 * off ≤ i ∧ i < 32 * off + data.length then data.getD (i - 32 * off) 0 else g.stage.getD i 0) ∧
    (live → g.noteOk = true → len ≤ 512 → fresh 2 → ∃ t, exec (.noteCommit len) s = .next t ∧ tells [] 0x9000 t ∧ t.tag.area 2 = fixLen len g.stage ∧
      others 2 t) ∧
    (s.islandRuns = true → g.commit = none → area ≤ 4 → len ≤ tagSize area →
      (¬busy → exec (.tagWcmtGo area len) s = .next { s with tag := { g with wres := 2, commit := some { area := area, copy := g.target area, data := (List.range len).map fun i => tget 0 g.wbuf i, at_ := s.pw.now } } }) ∧
      (busy → ∃ t, exec (.tagWcmtGo area len) s = .next t ∧ t.tag = { g with wres := 1 })) ∧
    (∀ c, g.commit = some c → g.sumPend = none → g.svcPend = none →
      (c.why ≠ 4 → c.copy = g.target c.area → fresh c.area → ∃ t, exec .tagCommitDone s = .next t ∧
        t.tag.area c.area = c.data ∧ others c.area t ∧ t.tag.commit = none ∧ t.tag.wres = 0 ∧ { t with tag := g } = s) ∧
      (c.why = 4 → exec .tagCommitDone s = .next { s with
        tag := { (if c.area = 1 then { g with notePw := 8 } else { g with svcPw := 8 }) with commit := none, wres := 0 } })) ∧
    (∀ d, s.islandRuns = true → s.ftick = 0 → g.commit = none → g.sumPend = some d → ¬busy →
      exec .tagCommitRetry s = .next { s with tag := { g with wres := 2, sumPend := none, commit := some { area := 4, copy := g.target 4, data := d, at_ := s.pw.now, why := 1 } } }) ∧
    (Accepted r 3 s → s.isOfficer r.ep = true → r.index = 0x8010 → r.sub = p2 → p2 = 1 ∨ p2 = 2 → data.length = 8 → g.commit = none → ¬busy →
      Answers r 3 .ok [] s (fun t => ∃ c, t.tag.commit = some c ∧ c.area = 0 ∧ c.copy = g.target 0 ∧
        slice c.data (16 * (p2 - 1)) 16 = (sha256 (data ++ fixLen 16 s.ident.unit)).take 16 ∧
          slice c.data (16 * (2 - p2)) 16 = slice (g.area 0) (16 * (2 - p2)) 16)
        (exec (.tagPasswordWrite r data) s)) ∧
    (Accepted r 3 s → s.isOfficer r.ep = true → r.index = 0x8011 → r.sub = p2 → p2 = 1 ∨ p2 = 2 → data = [1] → g.commit = none → ¬busy →
      Answers r 3 .ok [] s (fun t => t.tag = { g with wres := 2, commit := some { area := p2, copy := g.target p2, data := [], at_ := s.pw.now, why := 4 } })
        (exec (.attemptsReset r data) s)) ∧
    (Accepted r 3 s → r.ep = 1 → s.isOfficer 1 = false → s.lcs.state = .claimed → r.index = 0x8000 → r.sub = 1 → data.length = 1 → 1 ≤ leNat data →
      leNat data ≤ s.cust.n →
        Answers r 3 .ok [] s (fun t => Aside s t = { s with cust := { s.cust with m := leNat data } }) (exec (.officerQuorumWrite r data) s)) ∧
    (Accepted r 3 s → r.ep = 1 → s.isOfficer 1 = false → s.lcs.state = .field → r.index = 0x8000 → r.sub = 1 →
      data.length ≤ 256 → Answers r 3 .denied [] s (fun t => Aside s t = s) (exec (.officerQuorumWrite r data) s))

/-! ### The dictionary -/

/-- The dictionary's operations: HELLO chooses the highest common version; READ, INFO and ENUM answer what the endpoint may read, with NO_ENTRY,
DENIED and TYPE in that order; a WRITE of an entry with a row of its own is that row; an object is read in parts of its generation, and written by
a session that starts, takes segments in order, and ends with the whole applied (an unlock request waits for the pass that holds the island's
engines) or is discarded by an abort or after 15,259 frames; MCTP control answers its own. Where it goes beyond the words of the spec it states
the model's own choices: log 19, 53, 54, 55, 149, 151, 152. -/
def Obligations.DictionaryOperations : Prop :=
  ∀ (r : Req) (off len gen total first count ep eid : Nat) (d offers : Bytes) (s : State),
    let e := s.find r
    let g := (tget 0 s.dic.gens (256 * r.index + r.sub)).toNat
    let same := fun (t : State) => Aside s t = s
    let sess := fun (x : Option Session) (t : State) => (t.ep r.ep).sess = x ∧ (t.ep r.ep).ver = (s.ep r.ep).ver ∧ same t
    (s.epOpen r.ep = true → (r.ep = 0 → s.dic.smbus.getD r.smbus = r.smbus) → r.badOp = none → r.status = 0 → r.lenOk = true → r.ver = 0 →
      s.epVersion r.ep = 0 ∨ (s.ep r.ep).crowded r (s.epVersion r.ep / 16) = false → offers.length < 256 →
      let both := fun (a b : Nat) => ∃ t, exec (.hello r offers) s = .next t ∧ (t.ep r.ep).ver = some (a, b) ∧ (t.ep r.ep).sess = none ∧
        t.out.dic = leBytes 1 (16 * a + b) ++ leBytes 1 0x81 ++ [r.tag] ++ leBytes 2 r.index ++ leBytes 1 r.sub ++ leBytes 1 0 ++ leBytes 2 3 ++
          [BitVec.ofNat 8 (16 * a + b), 0x10, 0x21]
      ((∃ b ∈ offers, b.toNat / 16 = 2) → both 2 1) ∧ ((∀ b ∈ offers, b.toNat / 16 ≠ 2) → (∃ b ∈ offers, b.toNat / 16 = 1) → both 1 0) ∧
      ((∀ b ∈ offers, b.toNat / 16 ≠ 2 ∧ b.toNat / 16 ≠ 1) → ∃ t, exec (.hello r offers) s = .next t ∧ (t.ep r.ep).ver = none)) ∧
    (s.epOpen r.ep = false → exec (.read r) s = .next s ∧ exec (.hello r offers) s = .next s) ∧
    (Accepted r 2 s → (e = none → Answers r 2 .noEntry [] s same (exec (.read r) s)) ∧
      ∀ x, e = some x → (s.allowed r.ep x.read = false → Answers r 2 .denied [] s same (exec (.read r) s)) ∧
        (s.allowed r.ep x.read = true → x.type.isDomain = true → Answers r 2 .type [] s same (exec (.read r) s)) ∧
        (s.allowed r.ep x.read = true → x.type.isDomain = false → Answers r 2 .ok x.value s same (exec (.read r) s))) ∧
    (Accepted r 9 s → ∀ x, e = some x → ∃ rights : Bytes, rights.length = 6 ∧
      Answers r 9 .ok ([Config.typeCode x.type.place] ++ leBytes 4 x.type.len ++
      rights ++ [Config.persistCode x.keep.place]) s same (exec (.info r) s)) ∧
    (Accepted r 0x0A s → 1 ≤ count → count ≤ 64 → ∃ b : Bytes, b.length ≤ 1024 ∧
      b <+: ((List.range count).flatMap fun i => s.enumIndex r (first + i)) ∧
      Answers r 0x0A .ok b s same (exec (.enum r first count) s)) ∧
    (r.index = 0x3003 → r.sub = 0 → exec (.write r d) s = exec (.portBOwnerWrite r d) s) ∧ (r.index = 0x3022 → r.sub = 0 →
      exec (.write r d) s = exec (.ackseqWrite r d) s) ∧
    (Accepted r 3 s → r.ep = 1 → r.index = 0x2020 → r.sub = 0 → d.length = 4 → 1 ≤ leNat d → leNat d ≤ 16777215 →
      Answers r 3 .ok [] s (fun t => t.dic.window = leNat d ∧ same t) (exec (.write r d) s)) ∧
    (Accepted r 3 s → r.ep ≤ 1 → r.index = 0x6003 → r.sub = 0 → d = [1] →
      Answers r 3 .ok [] s (fun t => Aside s t = { s with flt := { s.flt with low := true } }) (exec (.write r d) s)) ∧
    (Accepted r 4 s → ∀ x, e = some x → s.allowed r.ep x.read = true → x.type.isDomain = true → len ≤ 248 → r.index ≠ 0x5010 →
      let head := leBytes 4 x.value.length ++ leBytes 4 g
      (gen = 0xFFFFFFFF ∨ gen = g → Answers r 4 .ok (head ++ (x.value.drop off).take len) s same (exec (.segRead r off len gen) s)) ∧
      (gen ≠ 0xFFFFFFFF → gen ≠ g → Answers r 4 .changed head s same (exec (.segRead r off len gen) s))) ∧
    (Accepted r 5 s → ∀ x, e = some x → s.allowed r.ep x.write = true → x.type.isDomain = true → r.index ≠ 0x9030 → (s.ep r.ep).sess = none →
      (s.segOpen r.index r.sub = false → total ≤ x.type.len → total ≤ s.segFree →
        Answers r 5 .ok [] s (sess (some { index := r.index, sub := r.sub, total := total, frame := s.frame })) (exec (.segWriteStart r total) s)) ∧
      (s.segOpen r.index r.sub = true → Answers r 5 .busy [] s same (exec (.segWriteStart r total) s))) ∧
    (∀ x y, s.session r = some x → e = some y → s.allowed r.ep y.write = true → y.type.isDomain = true → r.index ≠ 0x9030 →
      let short := d.length ≤ 1020 ∧ ∀ m, (s.ep r.ep).ver = some (1, m) → d.length ≤ 252
      (Accepted r 6 s → short → off = x.data.length → off + d.length ≤ x.total →
        Answers r 6 .ok [] s (sess (some { x with data := x.data ++ d, frame := s.frame })) (exec (.segWrite r off d) s)) ∧
      (Accepted r 6 s → short → off ≠ x.data.length → Answers r 6 .noSession [] s same (exec (.segWrite r off d) s)) ∧
      (Accepted r 7 s → s.flg.pass = none ∨ r.index ≠ 0x5011 → x.data.length ≠ x.total →
        Answers r 7 .noSession [] s (sess none) (exec (.segWriteEnd r [] true) s)) ∧
      (s.flg.pass ≠ none → r.index = 0x5011 → exec (.segWriteEnd r [] true) s = .next s) ∧
      (Accepted r 7 s → x.data.length = x.total → r.index = 0x2010 → x.data.length = 1280 → (∀ b ∈ x.data, b.toNat = 0xFF ∨ b.toNat < s.nLease) →
        s.dsp.rplPend = false → Answers r 7 .ok [] s (fun t => (t.ep r.ep).sess = none ∧ t.dsp.slt = s.dsp.slt ∧ t.dsp.sltS = s.dsp.sltS ∧
          ∀ i < 1280, tget 0xFF t.dsp.planSlt (1280 * (r.sub - 1) + i) = (x.data.getD i 0).toNat) (exec (.segWriteEnd r [] true) s)) ∧
      (Accepted r 8 s → Answers r 8 .ok [] s (sess none) (exec (.segAbort r) s))) ∧
    (∀ x, (s.ep ep).sess = some x → x.index ≠ 0x9030 → 256 * (x.frame + 15259) ≤ s.dsp.tick.toNat + 1 →
      ∃ t, exec (.segSessionTimeout ep) s = .next t ∧ (t.ep ep).sess = none ∧ Aside s t = s) ∧
    (s.mctpOpen ep = true → s.cust.bind ≠ some ep → (∀ x, s.cust.collect = some x → x.purpose = 1 → x.endpoint ≠ ep) →
      (∀ x, (s.ep ep).sess = some x → x.index ≠ 0x9030) →
      (∃ t, exec (.setEndpointId ep eid) s = .next t ∧ (t.ep ep).ver = none ∧ (t.ep ep).sess = none ∧ (t.ep ep).eid = eid % 256 ∧
        t.out.dic = [0x00, 0x00] ++ leBytes 1 eid ++ [0x00] ∧ Aside s t = s)) ∧
    (s.mctpOpen ep = true →
      let tells := fun (b : Bytes) => Host.Outcome.next { s with out := { s.out with dic := b } }
      exec (.getEndpointId ep) s = tells ([0x00] ++ leBytes 1 (s.ep ep).eid ++ [0x00, 0x00]) ∧
      exec (.getMctpVersionSupport ep) s = tells [0x00, 0x01, 0xF1, 0xF0, 0xFF, 0x00] ∧
      (ep = 1 → exec (.getMessageTypeSupport ep) s = tells [0x00, 4, 0x00, 0x05, 0x06, 0x7E]) ∧
      (2 ≤ ep → exec (.getMessageTypeSupport ep) s = tells [0x00, 2, 0x00, 0x7E]) ∧
      exec (.getVendorDefinedMsgSupport ep) s = tells ([0x00, 0xFF, 0x00] ++ beBytes 2 Config.vendorId.toNat ++ [0x00, 0x00]))

/-- Entries that set the machine: a plan of present leases is stored and the active tables stand; an apply copies the stored plans into the shadows,
where no bench is a spare, and asks for a swap, BUSY during another; the RTC takes a value below 2^47 at the boundary of the tick, staged in the log
first; a release returns a lease, also one whose quarantine this tick brought (log 150), and aborts its commands; a quota within 256 blocks in all;
a severity not below its floor, from the next tick while unlocked. Where it goes beyond the words of the spec it states the model's own choices: log
27, 57, 150. -/
def Obligations.ConfigurationEntries : Prop :=
  ∀ (r : Req) (k e : Nat) (d : Bytes) (s : State), Accepted r 3 s → r.ep = 1 →
    let n := leNat d
    let p := s.dsp
    (r.index = 0x2012 → r.sub = 0 → d.length = 8 → p.rplPend = false → n < 2 ^ s.nLease →
      Answers r 3 .ok [] s (fun t => Aside s t = { s with dsp := { p with planPol := BitVec.ofNat 64 n } }) (exec (.slotPlanWrite r d) s)) ∧
    (r.index = 0x2013 → 1 ≤ r.sub → r.sub ≤ s.nBench → d.length = 56 → p.rplPend = false → (∀ b ∈ d, b.toNat = 0xFF ∨ b.toNat < s.nLease) →
      p.planCore = [] → Answers r 3 .ok [] s (fun t => t.dsp.page = p.page ∧ t.dsp.pageS = p.pageS ∧
        ∀ i, tget 0xFF t.dsp.planPage i = if 64 * (r.sub - 1) ≤ i ∧ i < 64 * (r.sub - 1) + 56 then (d.getD (i - 64 * (r.sub - 1)) 0).toNat
          else tget 0xFF p.planPage i) (exec (.slotPlanWrite r d) s)) ∧
    (r.index = 0x2012 → r.sub = 0 → d.length = 8 → p.rplPend = true → Answers r 3 .busy [] s (fun t => Aside s t = s) (exec (.slotPlanWrite r d) s)) ∧
    (r.index = 0x2015 → r.sub = 0 → d = [1] → p.rplPend = false → p.applyPend = false → (∀ n, (s.bench n).spare = false) →
      Answers r 3 .ok [] s (fun t => t.dsp.applyPend = true ∧ t.dsp.pend = true ∧ t.dsp.sltS = p.planSlt ∧ t.dsp.coreS = p.planCore ∧
        t.dsp.pageS = p.planPage ∧ t.dsp.policyS = p.planPol ∧ t.dsp.slt = p.slt ∧ t.dsp.core = p.core ∧ t.dsp.page = p.page ∧
          t.dsp.policy = p.policy)
        (exec (.dictApply r d) s)) ∧
    (r.index = 0x2015 → r.sub = 0 → d = [1] → p.applyPend = true → Answers r 3 .busy [] s (fun t => Aside s t = s) (exec (.dictApply r d) s)) ∧
    (r.index = 0x2001 → r.sub = 0 → d.length = 8 → s.lcs.state = .claimed → n < 2 ^ 47 →
      Answers r 3 .ok [] s (fun t => Aside s t = { s with vault := { s.vault with rtcSet := some (BitVec.ofNat 47 n) } }) (exec (.rtcWrite r d) s)) ∧
    (∀ v, s.vault.rtcSet = some v → s.vault.staging.length < 64 → let t := setRtc s
      t.vault.rtc = v ∧ t.vault.rtcSet = none ∧ ∃ x, t.vault.staging = s.vault.staging ++ [x] ∧ x.kind = 3 ∧ x.time = s.time64 ∧
        x.vseq = s.vault.vseq ∧ x.saved = false ∧ x.data = rtcChange s.vault.rtc.toNat v.toNat) ∧
    (r.index = 0x2001 → r.sub = 0 → d.length = 8 → s.lcs.state = .claimed → 2 ^ 47 ≤ n →
      Answers r 3 .range [] s (fun t => Aside s t = s) (exec (.rtcWrite r d) s)) ∧
    (k < s.nLease → r.index = 0x4000 + 0x40 * k + 0x01 → r.sub = 0 → d = [1] →
      ((s.lease k).qPend ≠ none → Answers r 3 .ok [] s (fun t => (t.lease k).quarantined = false ∧ (t.lease k).released = true ∧
        (t.lease k).qPend = none) (exec (.leaseRelease r d) s)) ∧
      ((s.lease k).quarantined = true → (s.lease k).qPend = none →
        Answers r 3 .ok [] s (fun t => t.lease k = { s.lease k with quarantined := false, released := true, coresDue := true } ∧
        ∀ h c, s.cmd h = some c → c.lease = k → c.result = none → ∃ x, t.cmd h = some x ∧ x.result = some (0x0009, 0)) (exec (.leaseRelease r d) s)) ∧
      ((s.lease k).quarantined = false → (s.lease k).qPend = none → Answers r 3 .state [] s (fun t => Aside s t = s) (exec (.leaseRelease r d) s))) ∧
    (k < s.nLease → r.index = 0x4000 + 0x40 * k + 0x02 → r.sub = 0 → d.length = 2 →
      (s.quotaSum - (s.lease k).quota + n ≤ 256 → Answers r 3 .ok [] s (fun t => t.lease k = { s.lease k with quota := n } ∧
        ∀ j, j ≠ k → t.lease j = s.lease j) (exec (.stagingQuotaWrite r d) s)) ∧
      (256 < s.quotaSum - (s.lease k).quota + n → Answers r 3 .range [] s (fun t => Aside s t = s) (exec (.stagingQuotaWrite r d) s))) ∧
    (r.index = 0x6100 + e / 128 → r.sub = e % 128 + 1 → s.srcPresent e = true → s.lcs.state = .claimed → d.length = 1 → n < 8 → isTamper e = false →
      s.flt.lock = false →
      (srcFloor e ≤ n % 4 → Answers r 3 .ok [] s (fun t => t.flt.sevPend = s.flt.sevPend ++ [(e, BitVec.ofNat 2 n, decide (4 ≤ n))] ∧
        t.flt.sev = s.flt.sev)
        (exec (.severityWrite r d) s)) ∧
      (n % 4 < srcFloor e → Answers r 3 .range [] s (fun t => Aside s t = s) (exec (.severityWrite r d) s)))

/-! ### The life cycle and the gallery -/

namespace Sys2Proof.Claims

/-- Event `e` is counted once more. -/
def Counted (e : Nat) (s t : State) : Prop := tget 0 t.flt.count e = satAdd (tget 0 s.flt.count e) 1

/-- The device is in its 1,536-tk wipe, in GUARD, and the life cycle reads `to_`. -/
def Entered (to_ : Lcs) (t : State) : Prop := t.lcs.state = to_ ∧ t.pw.stage = .wipe ∧ t.pw.mode = .guard

/-- An INTENT and its DONE for the transition are the newest records, the request's digest with them. -/
def Journalled (to_ counter : Nat) (request : Bytes) (s t : State) : Prop :=
  ∃ x : LRec, x.kind = .intent ∧ x.from_ = s.lcs.state.code ∧ x.to_ = to_ ∧ x.counter = counter ∧ x.digest = sha384 request ∧
    t.lcs.journal = s.lcs.journal ++ [x, { x with kind := .done }]

end Sys2Proof.Claims

/-- The life cycle: a token that matches its stored digest makes the transition and a wrong one is counted, eight being the last; a request that
passes its checks is PENDING for 41 tk of the island's engines and then refused for its signatures or carried through to the reset, the counter
blown and the state's fuses with it (one that makes an LNONCE waits for randomness, log 127); the fuse block ignores what no INTENT names; the
identity records are written once, in TESTED. Where it goes beyond the words of the spec it states the model's own choices: log 4, 25, 26, 33. -/
def Obligations.LifeCycle : Prop :=
  ∀ (r : Req) (token d : Bytes) (to_ : Lcs) (v : Verify) (b : BitVec 3) (n : BitVec 8) (s : State),
    let l := s.lcs
    let same := fun (t : State) => Aside s t = s
    let wrote := fun (st : DStat) (p : State → Prop) => Accepted r 3 s → r.ep ≤ 1 → r.index = 0x9002 → token.length = 32 →
      (st = .ok → 32 ≤ (s.exp 16).qbytes) →
      Answers r 3 st [] s p (exec (.tokenWrite r token) s)
    let clear := s.lcsBusy = false ∧ l.badTokens < 8 ∧ s.vault.latch = false
    (clear → r.sub = 1 → l.state = .blank → l.fused = .blank → sha3 token = l.token1 → wrote .ok fun t => Entered .tested t ∧ t.lcs.count = l.count ∧
      Journalled 1 0 token s t ∧ ∃ u : Bytes, u.length = 32 ∧ t.lcs.uds = some u ∧ t.lcs.udsCheck = sha3 u) ∧
    (clear → r.sub = 2 → l.state = .tested → l.fused = .tested → sha3 token = l.token2 → wrote .ok fun t => Entered .sealed_ t ∧
      t.lcs.count = l.count ∧
      Journalled 2 0 token s t ∧ t.lcs.lnonce.length = 32 ∧ ∀ o, 0x3F80000 ≤ o → o < 0x4000000 → tget 0xFF t.pfl.die o = 0xFF) ∧
    (clear → (r.sub = 1 ∧ (l.state ≠ .blank ∨ sha3 token ≠ l.token1)) ∨ (r.sub = 2 ∧ (l.state ≠ .tested ∨ sha3 token ≠ l.token2)) →
      wrote .refused fun t => t.lcs = { l with badTokens := l.badTokens + 1, refusal := 0x0B }) ∧
    (s.lcsBusy = false → 8 ≤ l.badTokens ∨ s.vault.latch = true → r.sub = 1 ∨ r.sub = 2 →
      wrote .refused fun t => t.lcs = { l with refusal := 0x05 }) ∧
    (Accepted r 7 s → (s.session r).isSome = true → r.index = 0x9001 → r.sub = 1 →
      let code := s.requestRefusal r.ep d
      (code = 0 → Answers r 7 .pending [] s (fun t => Aside s t = { s with lcs := { l with verify := some { data := d, at_ := s.pw.now } } })
        (exec (.lifecycleRequest r d) s)) ∧
      (code ≠ 0 → Answers r 7 .refused [] s (fun t => t.lcs = { l with refusal := code }) (exec (.lifecycleRequest r d) s))) ∧
    (l.verify = some v → s.running = true → s.flg.pass = none → s.pfl.upd = none → max v.at_ s.flg.idleAt + 41 ≤ s.pw.now →
      let counter := fieldLE v.data 12 4
      (s.requestSigned v.data = false → ∃ t, exec .lifecycleVerifyDone s = .next t ∧ t.lcs = { l with verify := none, refusal := 7 }) ∧
      (s.requestSigned v.data = true → Lcs.ofCode (fieldLE v.data 7 1) = some to_ → to_ ∈ l.state.next → l.fused = l.state →
        (to_ = .sealed_ ∨ to_ = .claimed → 32 ≤ (s.exp 16).qbytes) → ∃ t, exec .lifecycleVerifyDone s = .next t ∧ Entered to_ t ∧
          t.lcs.verify = none ∧ t.lcs.pend = none ∧
          (counter = l.count + 1 → l.count < 64 → t.lcs.count = counter) ∧ (l.count = 64 → t.lcs.count = 64) ∧
          (to_ ≠ .scrapped → Journalled to_.code counter v.data s t) ∧
          (to_ = .claimed → t.lcs.estate = slice v.data 64 16 ∧ t.lcs.ownerEd = slice v.data 80 32 ∧ t.lcs.ownerMl = slice v.data 112 1952 ∧
            t.lcs.manEd = slice v.data 2064 32 ∧ t.lcs.manMl = slice v.data 2096 1952 ∧ t.lcs.lnonce.length = 32 ∧
            t.lcs.ownerFuse = sha3 (t.lcs.ownerEd ++ t.lcs.ownerMl) ∧ t.lcs.manFuse = sha3 (t.lcs.manEd ++ t.lcs.manMl)) ∧
          (to_ = .ret → t.vault.bedrock = none ∧ t.yard.store = [] ∧ t.lcs.lnonce = [] ∧ ∀ k, (t.lease k).image = []) ∧
          (to_ = .scrapped → t.lcs.uds = l.uds.map (fun u => List.replicate u.length 0xFF) ∧ t.lcs.lnonce = [] ∧ t.lcs.journal = [] ∧
            t.vault.log = [] ∧ t.yard.store = [] ∧ t.cust.journal = [] ∧
            ∀ o, tget 0xFF t.pfl.die o = 0xFF))) ∧
    (s.islandRuns = true →
      (∀ x, Lcs.ofCode b.toNat = some to_ → to_ ∈ l.state.next → l.intent = some x → x.to_ = b.toNat →
        let count := if n ≠ 0 ∧ l.count < n.toNat ∧ l.count < 64 then l.count + 1 else l.count
        exec (.lcsCtlGo b n) s = .next { s with lcs := { l with pairs := l.pairs ||| BitVec.ofNat 12 (3 * 4 ^ (b.toNat - 1)), count := count } }) ∧
      ((∀ c, Lcs.ofCode b.toNat = some c → c ∉ l.state.next) ∨ l.intent = none → ∃ t, exec (.lcsCtlGo b n) s = .next t ∧ t.lcs = l ∧
        Counted 0x33C s t)) ∧
    (Accepted r 7 s → (s.session r).isSome = true → r.ep = 1 → r.index = 0x9020 → r.sub = 1 ∨ r.sub = 4 ∨ r.sub = 5 →
      (l.state = .tested → tget [] l.records r.sub = [] → Answers r 7 .ok [] s (fun t => tget [] t.lcs.records r.sub = d ∧
        { t.lcs with records := l.records } = l ∧ ∀ j, j ≠ r.sub →
          tget [] t.lcs.records j = tget [] l.records j) (exec (.identityRecordWrite r d) s)) ∧
      (l.state ≠ .tested ∨ tget [] l.records r.sub ≠ [] → Answers r 7 .state [] s same (exec (.identityRecordWrite r d) s)))

/-- The gallery: a certificate that passes its checks replaces the one before, with its rights and lease, and is journalled; one that fails them is
refused with its code, during a pass with BUSY; an empty one revokes, and the RTC at NOT_AFTER ends it; a lease gives its own consent, and a write
of it without being that lease is turned away; a TAP instruction without its right moves nothing and raises event 58, with it a core halts, steps,
resumes, is read and written and memory, a register or the dispatcher's trace shifts out, and neither a held byte nor hidden flash does; a part
without power or SCRAPPED answers none; an event is injected under right 9 alone. Where it goes beyond the words of the spec it states the model's
own choices: log 4, 31, 32, 79, 145. -/
def Obligations.Gallery : Prop :=
  ∀ (r : Req) (d : Bytes) (k c i v a n : Nat) (g : BitVec 64) (e : BitVec 11) (s : State),
    let same := fun (t : State) => Aside s t = s
    let lapsed := { s.gal with grant := 0, lease := 0, cert := [] }
    (Accepted r 7 s → (s.session r).isSome = true → r.index = 0x9010 → r.sub = 1 →
      let code := s.certRefusal r.ep d
      (d ≠ [] → code = 0 → s.sevOf 0x339 ≠ 3 → Answers r 7 .ok [] s (fun t =>
        t.gal = { s.gal with cert := d, grant := BitVec.ofNat 32 (fieldLE d 44 4), lease := BitVec.ofNat 8 (fieldLE d 7 1) } ∧
        ∃ x : LRec, x.kind = .cert ∧ x.digest = sha384 d ∧ x.counter = s.lcs.count ∧ t.lcs = { s.lcs with journal := s.lcs.journal ++ [x] })
        (exec (.galleryCertWrite r d) s)) ∧
      (r.ep ≤ 1 → s.flg.pass ≠ none → code = 0x02) ∧
      (d ≠ [] → code ≠ 0 → s.sevOf 0x336 ≠ 3 → Answers r 7 .refused [] s (fun t => t.gal = { s.gal with refusal := code } ∧ t.lcs = s.lcs)
        (exec (.galleryCertWrite r d) s)) ∧
      (r.ep ≤ 1 → s.sevOf 0x339 ≠ 3 → Answers r 7 .ok [] s (fun t => t.gal = lapsed) (exec (.galleryCertWrite r []) s))) ∧
    (s.islandRuns = true → s.gal.cert ≠ [] → s.sevOf 0x339 ≠ 3 → fieldLE s.gal.cert 36 8 ≤ s.time64.toNat →
      ∃ t, exec .galleryRightsLapse s = .next t ∧ t.gal = lapsed) ∧
    (s.time64.toNat < fieldLE s.gal.cert 36 8 → exec .galleryRightsLapse s = .next s) ∧
    (Accepted r 3 s → r.index = 0x9011 → r.sub = k + 1 → k < s.nLease →
      (r.ep = k + 2 → d.length = 1 → leNat d < 2 →
        Answers r 3 .ok [] s (fun t => Aside s t = s.setLease k { s.lease k with consent := leNat d = 1 }) (exec (.galleryConsentWrite r d) s)) ∧
      (r.ep ≤ 1 → d.length ≤ 256 → Answers r 3 .denied [] s same (exec (.galleryConsentWrite r d) s)) ∧
      (2 ≤ r.ep → r.ep ≠ k + 2 → d.length ≤ 256 → Answers r 3 .noEntry [] s same (exec (.galleryConsentWrite r d) s))) ∧
    (s.islandRuns = true → exec (.galGrantWrite g) s =
      .next { s with gal := { s.gal with grant := g.setWidth 32, lease := BitVec.ofNat 8 (g.toNat / 2 ^ 32) } }) ∧
    (s.powered = false ∨ s.lcs.state = .scrapped → ∀ o, exec (.tapInstruction o) s = .next s) ∧
    (s.powered = true → s.lcs.state ≠ .scrapped → s.sevOf 0x33A ≠ 3 →
      let shifts := fun (b : Bytes) => Host.Outcome.next { s with out := { s.out with tap := b } }
      let turned := fun (o : TapOp) => ∃ t, exec (.tapInstruction o) s = .next t ∧ t.cores = s.cores ∧ t.ram = s.ram ∧ t.out.tap = [] ∧
        Counted 0x33A s t
      let becomes := fun (o : TapOp) (x : Core) => exec (.tapInstruction o) s = .next (s.setCore c x)
      exec (.tapInstruction .idcode) s = shifts Config.idcode ∧ exec (.tapInstruction .bypass) s = shifts [] ∧
      (s.galRights ≠ 0 → exec (.tapInstruction .rights) s = shifts (leBytes 4 s.galRights.toNat)) ∧ (s.galRights = 0 → turned .rights) ∧
      (s.mayHalt c = false → turned (.halt c) ∧ turned (.resume c) ∧ turned (.step c) ∧ turned (.readCore c i) ∧ turned (.writeCore c i v)) ∧
      (s.mayHalt c = true → (becomes (.halt c) { stopLong (s.core c) with halted := true, stepOne := false }) ∧
        (becomes (.resume c) { s.core c with halted := false, stepOne := false }) ∧
        (becomes (.step c) { s.core c with stepOne := (s.core c).halted }) ∧
          exec (.tapInstruction (.readCore c i)) s = shifts ((s.core c).readReg i) ∧
        (i < 8 → becomes (.writeCore c i v) ((s.core c).setD (BitVec.ofNat 3 i) (BitVec.ofNat 8 v)))) ∧
      (s.mayRead a n = true → s.heldIn a n = none → exec (.tapInstruction (.readMemory a n)) s = shifts (s.ramRead a n)) ∧
      (∀ x, s.mayRead a n = true → s.heldIn a n = some x → ∃ t, exec (.tapInstruction (.readMemory a n)) s = .next t ∧ t.out.tap = []) ∧
      (s.mayRead a n = false → turned (.readMemory a n)) ∧
      (∀ b u, s.galRights.getLsbD 7 = true → regRead .dma a s = some (b, u) →
        exec (.tapInstruction (.readRegister a 1)) s = .next { u with out := { u.out with tap := [b] } }) ∧
      (s.galRights.getLsbD 7 = false → turned (.readRegister a n)) ∧
      (a + n ≤ flashSize → s.galRights.getLsbD 11 = true → flashHidden a n = true → ∃ t, exec (.tapInstruction (.readFlash a n)) s = .next t ∧
        t.out.tap = List.replicate n 0 ∧ t.pfl = s.pfl ∧ Counted 0x33A s t) ∧
      (a + n ≤ flashSize → s.galRights.getLsbD 11 = false → turned (.readFlash a n)) ∧
      (s.galRights.getLsbD 10 = true → exec (.tapInstruction (.other 10 12)) s = shifts (leBytes 8 s.dsp.tick.toNat ++ leBytes 4 (dspRead 0xC s))) ∧
      (s.galRights.getLsbD i = false → turned (.other i n))) ∧
    (s.islandRuns = true → s.srcPresent e.toNat = true →
      (s.galRights.getLsbD 9 = true → 1 ≤ s.sevOf e.toNat → ∃ t, exec (.fltInjGo e) s = .next t ∧ ∃ x, t.flt.rec_ = some x ∧ x.inj = true) ∧
      (s.galRights.getLsbD 9 = true → s.sevOf e.toNat = 0 → ∃ t, exec (.fltInjGo e) s = .next t ∧ Counted e.toNat s t) ∧
      (s.galRights.getLsbD 9 = false → e ≠ 0x33A → s.sevOf 0x33A ≠ 3 → ∃ t, exec (.fltInjGo e) s = .next t ∧ Counted 0x33A s t ∧
        tget 0 t.flt.count e.toNat = tget 0 s.flt.count e.toNat))

/-! ### The vault domain and the tamper log -/

/-- The vault domain: a sample that finds a source not detecting clears it and re-arms it, one of a source that is not armed is counted alone; the
N-th detection within W is an alarm, which disarms the source, is staged with the time, sets the latch under LOCK and ZEROIZE and clears bedrock
under ZEROIZE; a power loss leaves a new domain, locked in CLAIMED and FIELD; the staging log moves in VSEQ order while its bank is free, its
entries SAVED once their commits stand; UNLATCH needs a committed UNLOCK; island reads and marks of the staging log. Where it goes beyond the
words of the spec it states the model's own choices: log 2, 5, 9, 28, 29. -/
def Obligations.TamperSources : Prop :=
  ∀ (i ms k : Nat) (v : Bool) (m : Master) (w : BitVec 32) (s : State),
    let x := s.vault.sensor i
    let found := if 2 ≤ i ∧ i ≤ 5 then v = (s.vault.switch (i - 2)).getLsbD 30 else v = true
    let hits := s.pw.mono :: x.hits.filter fun t => s.pw.mono ≤ t + (s.vault.window i).2 * msUnits
    let v1 := if i < 2 then { s.vault with lfsr := Config.meshNext s.vault.lfsr } else s.vault
    let sets := fun (y : Sensor) => Host.Outcome.next { s with vault := v1.setSensor i y }
    let idle := x.disarmed = true ∨ s.armed i = false
    let held := idle ∨ hits.length < (s.vault.window i).1
    let quiet := s.vault.vlost = false ∧ s.vault.ovf = 0
    (s.inVault = false → s.lcs.state ≠ .scrapped → s.sourceRuns i = true →
      (¬found → exec (.tamperSample i v ms) s = sets { x with detecting := false, disarmed := false, hits := if x.disarmed then [] else x.hits }) ∧
      (found → held → exec (.tamperSample i v ms) s =
        sets { x with detecting := true, count := satAdd x.count 1, hits := if x.disarmed || !s.armed i then x.hits else hits }) ∧
      (found → ¬held → s.srcPresent (0x410 + i) = true → s.vault.staging.length < 64 → ∃ t, exec (.tamperSample i v ms) s = .next t ∧
        t.vault.sensor i = { hits := [], disarmed := true, detecting := true, count := satAdd x.count 1 } ∧
        (∃ y : Staged, t.vault.staging = s.vault.staging ++ [y] ∧ y.kind = 1 ∧ y.source = i ∧ y.resp = s.responseOf i ∧ y.time = s.time64 ∧
          y.vseq = s.vault.vseq ∧ y.saved = false) ∧
        (s.responseOf i = 2 → t.vault.bedrock = none) ∧ (s.responseOf i ≠ 2 → t.vault.bedrock = s.vault.bedrock) ∧
        (1 ≤ s.responseOf i → t.vault.latch = true) ∧
        (1 ≤ s.responseOf i → s.vault.latch = false → t.vault.cause = BitVec.ofNat 8 i) ∧ (s.vault.latch = true → t.vault.cause = s.vault.cause) ∧
        (1 ≤ s.responseOf i → s.vault.latch = false → s.sevOf 0x42C = 3 → (∀ j, (t.lease j).grant = none) ∧ t.gal.cert = []) ∧
        (s.responseOf i = 0 → s.sevOf (0x410 + i) ≠ 3 → t.vault.latch = s.vault.latch))) ∧
    (s.lcs.state = .scrapped → s.inVault = false → exec (.tamperSample i v ms) s = .next s) ∧
    (s.pw.vio3 = false → ∃ t, exec .vaultPowerOn s = .next t ∧ t.vault.log = s.vault.log ∧ t.vault.bedrock = none ∧ t.vault.vlost = true ∧
      t.vault.staging = [] ∧ (s.lcs.state = .claimed ∨ s.lcs.state = .field → t.vault.latch = true ∧ t.vault.cause = 0xFE) ∧
      (s.lcs.state ≠ .claimed → s.lcs.state ≠ .field → t.vault.latch = false ∧ t.vault.cause = 0xFF) ∧
        { t with vault := s.vault, flt := s.flt } = s) ∧
    (s.pw.vio3 = true → exec .vaultPowerOn s = .next s) ∧
    (s.islandRuns = true → quiet → (∀ e ∈ s.vault.staging, e.saved = true) → exec .stagingLogMove s = .next s) ∧
    (s.bankBusy 3 = true → exec .stagingLogMove s = .next s) ∧
    (s.islandRuns = true → quiet → s.bankBusy 3 = false → (∀ e ∈ s.vault.log, e.commit ≠ []) →
      (∀ e ∈ s.vault.staging, e.saved = false ∧ e.dropped = false ∧ topVseq s.vault.log < e.vseq ∧ e.vseq < 2 ^ 32) →
      s.vault.staging.Pairwise (fun a b => a.vseq < b.vseq) → s.vault.log.length + s.vault.staging.length < 4033 →
      ∃ t, exec .stagingLogMove s = .next t ∧ t.vault.log.length = s.vault.log.length + s.vault.staging.length ∧ s.vault.log <+: t.vault.log ∧
        t.vault.staging = s.vault.staging ∧ (∀ j e, s.vault.staging[j]? = some e → ∃ b, t.vault.log[s.vault.log.length + j]? = some b ∧
          b.kind = e.kind ∧ b.vseq = e.vseq ∧ b.seq = s.vault.log.length + j + 1 ∧ b.commit = []) ∧
        let u := commitTamper t
        (∀ e ∈ u.vault.staging, e.saved = true) ∧ u.vault.log.map TamperBody.body = t.vault.log.map TamperBody.body ∧
          ∀ e ∈ u.vault.log, e.commit ≠ []) ∧
    (s.islandRuns = true →
      (s.vault.latch = true → s.vault.unlockDone = true → exec .tmpUnlatch s = .next { wrote 0x60070004 s with vault :=
        { s.vault with latch := false, cause := 0xFF, latchSeq := 0, unlockDone := false } }) ∧
      (s.vault.latch = false ∨ s.vault.unlockDone = false → exec .tmpUnlatch s = .next (wrote 0x60070004 s)) ∧
      exec .tmpOvfclr s = .next { wrote 0x60070004 s with vault := { s.vault with ovf := 0 } } ∧
      (∃ t, exec (.tmpSavedWrite w) s = .next t ∧
        (∀ j : Nat, t.vault.staging[j]? = s.vault.staging[j]?.map fun e => if e.vseq ≤ w.toNat then { e with saved := true } else e) ∧
        { t with vault := { t.vault with staging := s.vault.staging, savedTo := s.vault.savedTo } } = s) ∧
      (k < 64 → m = .dma ∨ (∃ c, m = .island c) → ∃ t, exec (.tmpSlogRead m k) s = .next t ∧ t.out.bus = .ok ((s.vault.slotBytes k).take 8) ∧
        (∃ x, tfind t.bus.latch (1024 + masterKey m) = some (some x) ∧ x.addr = 0x60070400 + 16 * k ∧ x.bytes = s.vault.slotBytes k) ∧
          t.vault = s.vault) ∧
      (∀ f, exec (.tmpSlogRead (.fn f) k) s = .next s))

/-- The tamper entries: a response or a window is written by HOST in CLAIMED and by OFFICER in FIELD, stored for the next start and in the registers
as before, a response's change staged; an unlock request, which waits for the end of a pass, that passes its checks, the fresh sample last, is
logged, unlatches the device and resets it, and one that fails leaves its check's number; an officer unlock collects. Where it goes beyond the
words of the spec it states the model's own choices: log 4, 27, 28, 56. -/
def Obligations.TamperEntries : Prop :=
  ∀ (r : Req) (d : Bytes) (fresh : List Nat) (s : State),
    let n := leNat d
    let same := fun (t : State) => Aside s t = s
    let mine := Accepted r 3 s ∧ r.ep = 1 ∧ s.lcs.state = .claimed
    let stored := fun (t : State) (j : Nat) => (t.vault.stResp[j / 16]?.getD 0).toNat / 4 ^ (j % 16) % 4
    (mine → r.index = 0x5001 → 1 ≤ r.sub → r.sub ≤ 28 → d.length = 1 →
      (n ≤ 2 → s.vault.staging.length < 64 → Answers r 3 .ok [] s (fun t => t.vault.resp = s.vault.resp ∧
        (∀ j, j < 28 → stored t j = if j = r.sub - 1 then n else stored s j) ∧ ∃ y : Staged, t.vault.staging = s.vault.staging ++ [y] ∧ y.kind = 6 ∧
          y.data = BitVec.ofNat 32 (r.sub - 1 + 256 * n) ∧ y.time = s.time64 ∧ y.vseq = s.vault.vseq) (exec (.tamperResponseWrite r d) s)) ∧
      (2 < n → Answers r 3 .range [] s same (exec (.tamperResponseWrite r d) s))) ∧
    (Accepted r 3 s → r.ep = 1 → s.lcs.state ≠ .claimed → s.isOfficer 1 = false → r.index = 0x5001 → 1 ≤ r.sub → r.sub ≤ 28 →
      d.length ≤ 256 → Answers r 3 .denied [] s same (exec (.tamperResponseWrite r d) s)) ∧
    (mine → d.length = 4 →
      let nw := n / 2 ^ 16 % 256 ≠ 0 ∧ n % 2 ^ 16 ≠ 0
      (r.index = 0x5002 → 1 ≤ r.sub → r.sub ≤ 4 → nw → n / 2 ^ 24 % 64 = 0 → Answers r 3 .ok [] s (fun t => t.vault.sw = s.vault.sw ∧
        t.vault.stVwin = s.vault.stVwin ∧
        ∀ j, j < 4 → t.vault.stSw[j]?.getD 0 = if j = r.sub - 1 then BitVec.ofNat 32 n else s.vault.stSw[j]?.getD 0) (exec (.tamperWindowWrite r d) s)) ∧
      (r.index = 0x5003 → r.sub = 0 → nw → n / 2 ^ 24 = 0 → Answers r 3 .ok [] s (fun t => t.vault.vwin = s.vault.vwin ∧
        t.vault.stVwin = BitVec.ofNat 32 n ∧ t.vault.stSw = s.vault.stSw) (exec (.tamperWindowWrite r d) s)) ∧
      (r.index = 0x5003 → r.sub = 0 → ¬nw ∨ n / 2 ^ 24 ≠ 0 → Answers r 3 .range [] s same (exec (.tamperWindowWrite r d) s))) ∧
    (s.flg.pass ≠ none → exec (.unlockRequest r d fresh) s = .next s) ∧
    (Accepted r 7 s → r.ep ≤ 1 → s.flg.pass = none → r.index = 0x5011 → r.sub = 1 → (s.session r).isSome = true →
      let code := s.unlockRefusal d
      let refused := fun (c : Nat) => Answers r 7 .refused [] s (fun t => t.vault.unlockRefusal = c ∧ (s.vault.latch = true → t.vault.latch = true))
        (exec (.unlockRequest r d fresh) s)
      (code ≠ 0 → refused code) ∧ (code = 0 → (∃ i ∈ fresh, i < 28 ∧ s.sourceRuns i = true ∧ s.responseOf i ≠ 0) → refused 0x0C) ∧
      (code = 0 → fresh = [] → (∀ i, i < 28 → s.sourceRuns i = true ∨ s.responseOf i = 0 ∨ (s.vault.sensor i).detecting = false) →
        (∀ e ∈ s.vault.log, e.commit ≠ []) → s.islandRuns = true → s.vault.vlost = false → s.vault.ovf = 0 →
          (∀ e ∈ s.vault.staging, e.saved = true) → s.vault.staging.length < 64 →
        topVseq s.vault.log < s.vault.vseq → s.vault.log.length < 4096 → Answers r 7 .ok [] s (fun t => t.vault.latch = false ∧ t.vault.cause = 0xFF ∧
          t.pw.stage = .wipe ∧ t.pw.mode = .guard ∧ ∃ b, t.vault.log = s.vault.log ++ [b] ∧ b.kind = 2 ∧ b.seq = s.vault.log.length + 1 ∧
            b.commit ≠ []) (exec (.unlockRequest r d fresh) s))) ∧
    (Accepted r 3 s → r.ep ≤ 1 → r.index = 0x5011 → r.sub = 3 → d = [1] →
      let open_ := (s.lcs.state = .claimed ∨ s.lcs.state = .field) ∧ s.cust.m ≠ 0 ∧ s.cust.n ≠ 0
      let c : Collect := { purpose := 2, lease := 0xFF, counted := [], endFrame := s.frame + s.dic.window }
      (open_ → s.cust.collect = none →
        Answers r 3 .ok [] s (fun t => Aside s t = { s with cust := { s.cust with collect := some c } }) (exec (.officerUnlockStart r d) s)) ∧
      (open_ → s.cust.collect ≠ none → Answers r 3 .busy [] s same (exec (.officerUnlockStart r d) s)) ∧
      (¬open_ → Answers r 3 .state [] s same (exec (.officerUnlockStart r d) s)))

/-! ### Events, power and resets -/

/-- The event network: a record is notified in a later tick as routed; a pulse ends after its last tick; an acknowledgement closes the record that it
names and is STALE or finds NONE otherwise; FLT_Q reads the oldest entry and takes it; the log holds the newest 1,024 entries drained. Where it
goes beyond the words of the spec it states the model's own choices: log 3, 21. -/
def Obligations.FaultEvents : Prop :=
  ∀ (also : BitVec 16) (n t0 : Nat) (s : State),
    let f := s.flt
    let vec := f.route.toNat % 64
    let masked := (tget msixReset s.link.msix vec).getLsbD 96
    let sets := fun (x : Flt) => Host.Outcome.next { s with flt := x }
    (f.notify = some t0 → t0 < s.pw.now → f.rec_ ≠ none → ∃ t, exec .faultNotify s = .next t ∧ t.flt.notify = none ∧ t.out.ibi = f.route.getLsbD 8 ∧
      (f.route.getLsbD 7 = false → t.out.msix = s.out.msix ∧ t.link = s.link) ∧
      (f.route.getLsbD 7 = true → masked = false → t.out.msix = s.out.msix ++ [(0, vec)] ∧ t.link = s.link) ∧
      (f.route.getLsbD 7 = true → masked = true → t.out.msix = s.out.msix ∧ tget false t.link.pba vec = true)) ∧
    (f.notify = none ∨ (∃ x, f.notify = some x ∧ s.pw.now ≤ x) → exec .faultNotify s = .next s) ∧
    (f.pulseEnd = some t0 → exec .faultPulseEnd s = if s.pw.now ≤ t0 then .next s else sets { f with pulseEnd := none }) ∧
    (f.pulseEnd = none → exec .faultPulseEnd s = .next s) ∧
    (s.islandRuns = true →
      (f.rec_ = none → exec (.fltAckGo also) s = sets { f with ackRefusal := 2 }) ∧
      (∀ x, f.rec_ = some x →
        exec (.fltAckGo also) s = if x.also = also then sets { f with closing := true, ackAlso := also } else sets { f with ackRefusal := 1 }) ∧
      (∀ x rest, f.queue = x :: rest →
        let word := x.event + 2 ^ 16 * (x.tick.toNat % 2 ^ 32) + 2 ^ 48 * x.lease + 2 ^ 56 * x.sev + 2 ^ 63
        exec .fltQRead s = .next { s with flt := { f with queue := rest }, out := { s.out with bus := .ok (leBytes 8 word) } }) ∧
      (f.queue = [] → exec .fltQRead s = .next { s with out := { s.out with bus := .ok (List.replicate 8 0) } } ∧
        exec (.eventQueueDrain n) s = .next s) ∧
      (f.queue ≠ [] → ∃ t m, exec (.eventQueueDrain n) s = .next t ∧ n ≤ m ∧ (s.mainPower = true → 8 ≤ m) ∧ 1 ≤ m ∧ t.flt.queue = f.queue.drop m ∧
        t.flt.evlog <:+ f.evlog ++ f.queue.take m ∧ t.flt.evlog.length = min 1024 (f.evlog.length + min m f.queue.length) ∧
        tget 0 t.dic.gens (256 * 0x6010) = tget 0 s.dic.gens (256 * 0x6010) + 1)) ∧
    (s.islandRuns = false → exec (.fltAckGo also) s = .next s ∧ exec .fltQRead s = .next s)

/-- Power: the mode becomes the first row of R434 that holds, with power event 0 and no lease work where the mode has none; a main-power reset wipes
and enters GUARD, keeping the vault domain, the fuses and the flash, and of the custodian journal what has its commit; without main power the
benches are OFF; a reset pin or a supply out of range leaves the vault domain alone, and the stores where no flash operation runs; the die
temperature and a stopped clock are power events. Where it goes beyond the words of the spec it states the model's own choices: log 10, 36, 48, 51,
58, 147. -/
def Obligations.PowerAndResets : Prop :=
  ∀ (straps : BitVec 2) (d : Nat) (b : Bool) (s : State),
    let p := s.pw
    let m := s.modeOf
    let kept := fun (t : State) => t.vault.log = s.vault.log ∧ t.vault.bedrock = s.vault.bedrock ∧ t.vault.rtc = s.vault.rtc ∧ t.ident = s.ident ∧
      t.lcs.journal = s.lcs.journal ∧ t.cust.journal = (s.cust.journal.filter fun r => r.commit ≠ []) ∧ t.yard.store = s.yard.store ∧
        t.dsp.planSlt = s.dsp.planSlt ∧ t.pending = s.pending
    let gone := fun (t : State) => t.cmds = [] ∧ t.queues = [] ∧ t.jobs = [] ∧ t.ram = [] ∧ t.dsp.slt = [] ∧ t.dsp.tick = 0 ∧ t.cust.ceremony = none
    let wipes := fun (t : State) => t.pw.stage = .wipe ∧ t.pw.mode = .guard ∧ t.pw.wipeEnd = p.now + 1536 ∧ t.pw.pwrokAt = p.now ∧ kept t ∧ gone t
    let vaults := fun (t : State) => t.pw.stage = .off ∧ t.pw.mode = .vault ∧ t.vault.latch = s.vault.latch ∧ (s.pfl.op = none → kept t) ∧ gone t
    (m = p.mode ∨ s.lcs.state = .scrapped → exec .modeChange s = .next s) ∧
    (m ≠ p.mode → s.lcs.state ≠ .scrapped → ∃ t, exec .modeChange s = .next t ∧ t.pw.mode = m ∧
      (m.works = true → t.pw.leaseWork = p.leaseWork ∧ t.cmds = s.cmds) ∧
      (m.works = false → t.pw.leaseWork = false ∧ ∀ h c, s.cmd h = some c → c.executing = true → ∃ c', t.cmd h = some c' ∧
        c'.result = some (0x0133, 0)) ∧
      (p.stage ≠ .off → s.flt.queue.length < 64 → ∃ e ∈ t.flt.queue, e.event = 0x468 ∧ e.mode = m.code)) ∧
    (b = true → p.dieHot = false → s.powered = true → ∃ t, exec (.dieTempHigh b) s = .next t ∧ t.pw.dieHot = true ∧ Counted 0x46C s t) ∧
    (b = false ∨ p.dieHot = true ∨ s.powered = false → exec (.dieTempHigh b) s = .next { s with pw := { p with dieHot := b } }) ∧
    (d = 4 ∨ d = 5 ∨ d = 23 ∨ d = 24 ∨ d = 25 → s.domainRuns d = true → p.stage ≠ .off →
      ∃ t, exec (.clockMonitorFault d) s = .next t ∧ t.flt.clkMon.getLsbD (d - 1) = true ∧ Counted 0x46D s t) ∧
    (d ≠ 4 → d ≠ 5 → d ≠ 23 → d ≠ 24 → d ≠ 25 → exec (.clockMonitorFault d) s = .next s) ∧
    (p.pwrok = false → s.lcs.state ≠ .scrapped → (s.powered = true → ∃ t, exec .mainPowerReset s = .next t ∧ t.pw.pwrok = true ∧ wipes t) ∧
      (s.powered = false → exec .mainPowerReset s = .next { s with pw := { p with pwrok := true } })) ∧
    (p.pwrok = true → exec .mainPowerReset s = .next s ∧
      (s.powered = false → exec .pltPwrokFall s = .next { s with pw := { p with pwrok := false, recovery := false, fclkAt := p.now } }) ∧
      (s.powered = true → ∃ t, exec .pltPwrokFall s = .next t ∧ t.pw.pwrok = false ∧ t.pw.leaseWork = false ∧ t.flg.pass = none ∧ t.flg.plt = false ∧
        (∀ n, n < s.nBench → (t.bench n).state = .off) ∧ (p.stage = .island → p.romUntil ≤ p.now → t.pw.stage = .running))) ∧
    (p.sysRst = false → p.vio3 = true → s.lcs.state ≠ .scrapped → p.stage = .off → p.supplyHold = false → ∃ t, exec (.sysRstRise straps) s = .next t ∧
      t.pw.sysRst = true ∧ t.pw.mgtStraps = straps ∧ (p.pwrok = true → wipes t) ∧ (p.pwrok = false → t.pw.mode = .standby)) ∧
    (p.sysRst = true → exec (.sysRstRise straps) s = .next s ∧ (p.stage ≠ .off → ∃ t, exec .sysRstFall s = .next t ∧ t.pw.sysRst = false ∧
      vaults t)) ∧
    (p.stage ≠ .off → ∃ t, exec (.supplyMonitorReset true b) s = .next t ∧ t.pw.supplyHold = true ∧ t.pw.vio3 = b ∧ vaults t) ∧
    (p.stage = .off → p.sysRst = true → p.pwrok = true → ∃ t, exec (.supplyMonitorReset false b) s = .next t ∧ t.pw.supplyHold = false ∧
      t.pw.vio3 = true ∧ wipes t)

/-- After the wipe, and once the flash is not busy, the boot ROM starts the active image, writes the swap pair for its twin and then wipes again, or
waits for recovery, and stops at a UDS that fails its check; island firmware, once the boot ROM has signed, takes the stored tamper entries and
locks them, and with main power finishes a transition that was cut off, makes bedrock where there is none, loads the stored entries and, where no
bench is a spare, the plans, and holds the host where its keys fail. Where it goes beyond the words of the spec it states the model's own choices:
log 37, 47, 48, 49, 50, 129, 147. -/
def Obligations.Starts : Prop :=
  ∀ (to_ : Lcs) (x : LRec) (s : State),
    let p := s.pw
    let act := s.image s.pfl.active.toNat
    let twin := s.image (1 - s.pfl.active.toNat)
    let rom := Host.Outcome.next { s with pw := { p with stage := .rom } }
    let due := p.stage = .island ∧ p.romUntil ≤ p.now
    (s.powered = false ∨ ((p.stage ≠ .wipe ∨ p.now < p.wipeEnd) ∧ (p.stage ≠ .rom ∨ s.lcs.state = .scrapped)) → exec .resetWipeEnd s = .next s) ∧
    ((p.stage = .wipe ∧ p.wipeEnd ≤ p.now) ∨ p.stage = .rom → s.powered = true → s.lcs.state ≠ .scrapped →
      (s.pfl.busy = true → exec .resetWipeEnd s = rom) ∧
      (∀ i, s.pfl.busy = false → act = some i → ∃ t, exec .resetWipeEnd s = .next t ∧ t.ident.fwVersion = i.version ∧ t.ident.fwDigest = i.digest ∧
        t.pfl.svn = i.svn ∧
        ((∀ u, s.lcs.uds = some u → sha3 u = s.lcs.udsCheck) → t.pw.stage = .island ∨ (p.pwrok = false ∧ t.pw.stage = .running)) ∧
        (∀ u, s.lcs.uds = some u → sha3 u ≠ s.lcs.udsCheck → t.pw.stage = .udsFailed ∧ t.lcs.failed = true)) ∧
      (s.pfl.busy = false → act = none → twin ≠ none →
        (s.pfl.swpend = false → ∃ t, exec .resetWipeEnd s = .next t ∧ t.pw.stage = .rom ∧ t.pfl = { s.pfl with swapping := some 8012000 } ∧
          Counted 0x409 s t) ∧
        (s.pfl.swpend = true → p.pwrok = true → ∃ t, exec .resetWipeEnd s = .next t ∧ t.pw.stage = .wipe ∧ t.pw.mode = .guard ∧
          t.pw.wipeEnd = p.now + 1536)) ∧
      (s.pfl.busy = false → act = none → twin = none → ∃ t, exec .resetWipeEnd s = .next t ∧ t.pw.stage = .romRecovery ∧ Counted 0x40B s t)) ∧
    (p.stage = .wipe → p.wipeEnd ≤ p.now → s.powered = true → s.lcs.state = .scrapped → exec .resetWipeEnd s = rom) ∧
    (¬due ∨ s.powered = false → exec .islandStart s = .next s) ∧
    (due → s.powered = true → p.pwrok = false → ∃ t, exec .islandStart s = .next t ∧ t.pw.stage = .running ∧ t.vault.lock = true ∧
      t.vault.resp = s.vault.stResp ∧ t.vault.sw = s.vault.stSw ∧ t.vault.vwin = s.vault.stVwin) ∧
    (due → s.mainPower = true → s.lcs.intent = some x → Lcs.ofCode x.to_ = some to_ → (x.to_ = 1 → 32 ≤ (s.exp 16).qbytes) → to_ ∈ s.lcs.state.next →
      s.lcs.fused = s.lcs.state →
      ∃ t, exec .islandStart s = .next t ∧ Entered to_ t) ∧
    (due → s.mainPower = true → s.lcs.intent = none → ∃ t, exec .islandStart s = .next t ∧ t.pw.stage = .running ∧ t.flt.lock = true ∧
      t.vault.lock = true ∧ t.vault.resp = s.vault.stResp ∧ t.flt.route = s.flt.stRoute ∧ t.pwr.idle = s.pwr.stIdle ∧
      ((∀ n, (s.bench n).spare = false) → t.dsp.sltS = s.dsp.planSlt ∧ t.dsp.coreS = s.dsp.planCore ∧ t.dsp.pageS = s.dsp.planPage) ∧
        t.dsp.policyS = s.dsp.planPol ∧ t.dsp.pend = true ∧
      (s.lcs.matchesFuses = true → t.vault.latch = false → t.flg.plt = false ∧ t.flg.pass.isSome = true) ∧
      (s.lcs.matchesFuses = false → t.flg.state = .held ∧ t.flg.reason = 2 ∧ t.flg.pass = s.flg.pass) ∧
      (s.vault.bedrock = none → s.lcs.state = .claimed ∨ s.lcs.state = .field → (s.exp 16).ready = true → t.vault.latch = false →
        t.vault.bedGen = s.vault.bedGen + 1 ∧ ∃ u : Bytes, u.length = 32 ∧ t.vault.bedrock = some u))

/-! ### Package flash and register accesses -/

namespace Sys2Proof.Claims

/-- The command is refused or has ended with `st`: the sequence is at rest, ERR is set, its event is counted. -/
def FlashStops (st event : Nat) (s t : State) : Prop := { t.pfl with seq := s.pfl.seq, res := s.pfl.res, err := s.pfl.err, buf := s.pfl.buf } = s.pfl ∧
  t.pfl.seq = .idle ∧ t.pfl.res = st ∧ t.pfl.err = true ∧ tget 0 t.flt.count event ≠ 0

/-- The operation, a host's, runs from the next tick, at its physical offset, with so many controller cycles to go. -/
def FlashRuns (code o : Nat) (data : Bytes) (left : Nat) (s t : State) : Prop :=
  t.pfl.seq = .idle ∧ t.pfl.queued = none ∧ t.pfl.die = s.pfl.die ∧ ∃ x, t.pfl.op = some x ∧ x.code = code ∧ x.addr = o ∧ x.data = data ∧
    x.left = left ∧
    x.startAt = s.pw.now + 1 ∧ x.phys = s.pfl.phys o ∧ x.own = false

end Sys2Proof.Claims

/-- Package flash: the key writes in order arm a command, any other write ends it with KEY; a command that passes its checks runs for its cycles, an
unaligned, protected or own-bank one is refused by its status, and one behind a running operation is queued; its end leaves the bytes programmed
or erased, and nothing else where no store has a record there, the banks of a chip erase having gone one by one; the swap pair's counter rises and
SWPEND follows; reads deliver the die, a busy bank and a low band have their events. Where it goes beyond the words of the spec it states the model's
own choices: log 2, 7, 16, 80. -/
def Obligations.PackageFlash : Prop :=
  ∀ (off o c n : Nat) (v : BitVec 32) (w : Vector (BitVec 32) 8) (fetch high : Bool) (m : Master) (s : State),
    let p := s.pfl
    let bytes := w.toList.flatMap fun x => leBytes 4 x.toNat
    let seq := fun (q : PSeq) => exec (.pflSequenceWrite off v) s = .next { s with pfl := { p with seq := q } }
    let free := p.op = none ∧ p.swapping = none ∧ p.queued = none
    let may := fun (code : Nat) => s.flashProtected code o = false ∧ s.ownBank code o = false
    (s.islandRuns = true →
      (off = 0 → v.toNat % 2 ^ 16 = 0x00A5 → p.seq = .idle → seq .key0) ∧ (off = 4 → v.toNat % 2 ^ 16 = 0x005A → p.seq = .key0 → seq .key1) ∧
      (off = 8 → p.seq = .key1 → seq (.cmd (v.toNat % 256))) ∧ (off = 12 → p.seq = .cmd 0x10 → seq (.addr 0x10 (v.toNat % flashSize))) ∧
      (off = 4 ∨ off = 8 ∨ off = 12 ∨ (off = 0 ∧ v.toNat % 2 ^ 16 ≠ 0x00A5) → p.seq = .idle →
        ∃ t, exec (.pflSequenceWrite off v) s = .next t ∧ FlashStops 1 0x400 s t) ∧
      (p.seq = .idle → ∃ t, exec (.program w) s = .next t ∧ FlashStops 1 0x400 s t ∧ t.pfl.buf = w) ∧
      (p.seq = .addr 0x10 o → o % 32 = 0 → may 0x10 → free → ∃ t, exec (.program w) s = .next t ∧ t.pfl.buf = w ∧
        FlashRuns 0x10 o bytes (if s.unitErased o then 12000 else 32) s t) ∧
      (p.seq = .addr 0x10 o → o % 32 = 0 → may 0x10 → p.op ≠ none → p.queued = none → ∃ t, exec (.program w) s = .next t ∧ t.pfl.op = p.op ∧
        t.pfl.queued = some { code := 0x10, addr := o, data := bytes, left := 0, startAt := 0 }) ∧
      (p.seq = .addr 0x10 o → o % 32 ≠ 0 → ∃ t, exec (.program w) s = .next t ∧ FlashStops 3 0x400 s t) ∧
      (p.seq = .cmd 0x20 → o % 4096 = 0 → may 0x20 → free → ∃ t, exec (.eraseSector o) s = .next t ∧ FlashRuns 0x20 o [] 8000000 s t) ∧
      (p.seq = .cmd 0x20 → o % 4096 = 0 → s.flashProtected 0x20 o = true → ∃ t, exec (.eraseSector o) s = .next t ∧ FlashStops 4 0x401 s t) ∧
      (p.seq = .cmd 0x2F → o = 0 → s.lcs.pend = some .scrapped → s.ownBank 0x2F 0 = false → free → ∃ t, exec (.eraseChip o) s = .next t ∧
        FlashRuns 0x2F 0 [] 32000000 s t) ∧
      (p.seq = .cmd 0x2F → o = 0 → s.lcs.pend ≠ some .scrapped → ∃ t, exec (.eraseChip o) s = .next t ∧ FlashStops 4 0x401 s t) ∧
      (p.seq = .idle →
        (free → p.swpend = false → ∃ t, exec .pflSwapGo s = .next t ∧ t.pfl = { p with swapping := some 8012000 } ∧ Counted 0x409 s t) ∧
        (free → p.swpend = true → exec .pflSwapGo s = .next s) ∧
        (p.op ≠ none → ∃ t, exec .pflSwapGo s = .next t ∧ FlashStops 6 0x40C s t))) ∧
    (∀ x, p.op = some x → (0 < x.left ∨ s.pw.now ≤ x.startAt → exec .flashOpEnd s = .next s) ∧
      (x.code = 0x2F → x.startAt ≤ s.pw.now → x.left = 512 → s.mainPower = true → ∀ a, 0x3000000 ≤ a → a < 0x4000000 →
        (flashTick s).pfl.byte a = 0xFF) ∧
      (x.left = 0 → x.startAt < s.pw.now → p.queued = none → p.updTodo = [] → x.own = false →
        (x.notErased = true → ∃ t, exec .flashOpEnd s = .next t ∧ t.pfl.op = none ∧ t.pfl.die = p.die ∧ t.pfl.res = 7 ∧ t.pfl.err = true) ∧
        (x.notErased = false → ∃ t, exec .flashOpEnd s = .next t ∧ t.pfl.op = none ∧ t.pfl.res = 0 ∧
          (x.code = 0x10 → ∀ a, t.pfl.byte a = if x.phys ≤ a ∧ a < x.phys + 32 then x.data.getD (a - x.phys) 0 else p.byte a) ∧
          (x.code = 0x20 → (∀ a, x.phys ≤ a → a < x.phys + 4096 → t.pfl.byte a = 0xFF) ∧
            (touches x.phys (x.phys + 4096) s.stores = false → ∀ a, a < x.phys ∨ x.phys + 4096 ≤ a → t.pfl.byte a = p.byte a)) ∧
          (x.code = 0x2F → t.pfl.die = p.die)))) ∧
    (p.swapping = some 0 → p.queued = none → p.updTodo = [] → (∀ x y, p.pairA = some x → p.pairB = some y → x - y ≠ 0x8000) →
      ∃ t, exec .swapPairWriteEnd s = .next t ∧ t.pfl.swapping = none ∧ t.pfl.swpend = true ∧ t.pfl.active = p.active ∧
        swapOf t.pfl.pairA t.pfl.pairB = swapOf p.pairA p.pairB + 1) ∧
    (s.islandRuns = true → o + n ≤ flashSize → o / 32 = (o + n - 1) / 32 →
      (s.bankBusy (o / 0x1000000) = false → (∀ i, i < n → (s.dieByte (p.phys (o + i))).isSome = true) →
        ∃ t, exec (.flashRead (.island c) o n fetch .clean) s = .next t ∧
        t.out.bus = .ok ((List.range n).map fun i => (s.dieByte (p.phys (o + i))).getD 0) ∧ t.pfl.die = p.die ∧ tget 0 t.pfl.lines c = o / 32 + 1) ∧
      (s.bankBusy (o / 0x1000000) = true → ∃ t, exec (.flashRead (.island c) o n fetch .clean) s = .next t ∧ t.out.bus = .bankBusy ∧
        Counted 0x404 s t) ∧
      ((∀ j, m ≠ .island j) → ∃ t, exec (.flashRead m o n fetch .clean) s = .next t ∧ t.out.bus = .decode ∧ Counted 0x330 s t)) ∧
    (s.pw.stage = .off ∨ s.pw.vflHigh = high → exec (.vflBandChange high) s = .next s) ∧
    (s.pw.stage = .running → s.pw.vflHigh ≠ high →
      (p.ws.toNat < (if high then 3 else 5) → ∃ t, exec (.vflBandChange high) s = .next t ∧ t.pw.vflHigh = high ∧
        t.pfl = { p with clamped := true } ∧ Counted 0x408 s t) ∧
      ((if high then 3 else 5) ≤ p.ws.toNat → exec (.vflBandChange high) s = .next { s with pw := { s.pw with vflHigh := high } }))

/-- Register accesses: a write that does not decode for its master, and a decode access, are answered DECODE with event 48 and change nothing else; a
write of memory stores its byte there and nowhere else, and one above it goes out to the host; a register takes its value with its most
significant byte and not before; RWL fields stand once locked and the attempt is an event; a value out of range is refused with RANGE; a function
writes its BAR; a write of RNG_PORT is discarded. Where it goes beyond the words of the spec it states the model's own choices: log 2, 8, 62, 76. -/
def Obligations.RegisterAccess : Prop :=
  ∀ (m : Master) (addr f q c : Nat) (b : Byte) (wr : Bool) (data : Bytes) (e : Env) (s : State),
    let four := data.length = 4
    let v := leNat data
    let written := fun (a : Nat) (x : Bytes) (ok : Prop) (p : State → Prop) => s.islandRuns = true → ok →
      ∃ t, exec (.registerWrite .dma a x e) s = .next t ∧ p t
    let okay := fun (t : State) => t.out.bus = .ok []
    (s.masterUp m = false → exec (.registerWrite m addr data e) s = .next s ∧ exec (.decodeAccess m addr wr) s = .next s) ∧
    (written addr [b] (s.decodes .dma addr true = false) fun t => t.out.bus = .decode ∧ Counted 0x330 s t ∧ t.ram = s.ram ∧ t.dsp = s.dsp ∧
      t.pfl = s.pfl ∧
      t.cores = s.cores ∧ t.flg = s.flg ∧ t.crd = s.crd ∧ t.ctl = s.ctl ∧ t.rng = s.rng) ∧
    (written addr [b] (s.regAt .dma addr = none ∧ s.decodes .dma addr true = true ∧ addr < 2 ^ 32 ∧ s.heldIn addr 1 = none ∧
      s.unheldPage addr = none) fun t =>
      okay t ∧ ∀ a, Memory.get t.ram a = if a = addr then b else Memory.get s.ram a) ∧
    (written addr [b] (2 ^ 32 ≤ addr ∧ addr < 2 ^ 40) fun t => okay t ∧ t.out.writes = s.out.writes ++ [(0, addr, [b])] ∧ t.ram = s.ram) ∧
    ((∀ g, m ≠ .fn g) → s.masterUp m = true → s.decodes m addr wr = false →
      ∃ t, exec (.decodeAccess m addr wr) s = .next t ∧ t.out.bus = .decode ∧ Counted 0x330 s t ∧ t.ram = s.ram ∧ t.dsp = s.dsp ∧ t.pfl = s.pfl ∧
        t.cores = s.cores) ∧
    ((∀ g, m ≠ .fn g) → s.decodes m addr wr = true → exec (.decodeAccess m addr wr) s = .next s) ∧
    (written 0x6008000C data four fun t => okay t ∧ t.flt = { s.flt with low := (data.getD 0 0).getLsbD 0 }) ∧
    (written 0x6008000C [b] True fun t => okay t ∧ t.flt = s.flt) ∧
    (written 0x60000008 data (four ∧ v % 4 = 1 ∧ s.dsp.pend = false) fun t => okay t ∧
      t.dsp = { s.dsp with pend := true, captured := false, at_ := s.frame + (if s.ftick ≤ 253 then 1 else 2) }) ∧
    (written 0x60080010 data (four ∧ s.flt.lock = false) fun t => okay t ∧ t.flt = { s.flt with route := BitVec.ofNat 9 v &&& 0x1BF }) ∧
    (written 0x60080010 data (four ∧ s.flt.lock = true ∧ BitVec.ofNat 9 v &&& 0x1BF ≠ s.flt.route) fun t => t.flt.route = s.flt.route ∧
      Counted 0x33D s t) ∧
    (written 0x60080000 data (four ∧ v.testBit 31 = true ∧ s.bus.once.contains 0x60080000 = false) fun t => okay t ∧
      t.flt = { s.flt with lock := true } ∧
      t.bus.once.contains 0x60080000 = true) ∧
    (written (0x60082000 + 4 * q) data (four ∧ s.srcPresent q = true ∧ v % 4 < srcFloor q) fun t => t.out.bus = .range ∧
      t.flt.sevPend = s.flt.sevPend ∧
      t.flt.sev = s.flt.sev ∧ Counted 0x330 s t) ∧
    (written 0x60060034 data (four ∧ s.pfl.seq = .idle ∧ pointMin s.flashPoint ≤ v % 8) fun t => okay t ∧
      t.pfl = { s.pfl with ws := BitVec.ofNat 3 v }) ∧
    (s.masterUp (.fn f) = true → 1 ≤ f → q < 8 → data.length = 8 → ∃ t, exec (.registerWrite (.fn f) (0x100 + 0x40 * q) data e) s = .next t ∧ okay t ∧
      t.queue (f - 1) q = { s.queue (f - 1) q with sqBase := BitVec.ofNat 64 v } ∧ ∀ k j, (k ≠ f - 1 ∨ j ≠ q) → j < 8 → t.queue k j = s.queue k j) ∧
    (s.masterUp (.fn f) = true → findReg (barRows f) addr = none → ∃ t, exec (.registerWrite (.fn f) addr [b] e) s = .next t ∧ okay t ∧
      t.queues = s.queues ∧
      t.link = s.link ∧ exec (.decodeAccess (.fn f) addr true) s = .next t) ∧
    (s.masterUp (.core c) = true → s.coreExec c = true → s.pw.stage ≠ .off → data.length = 4 →
      ∃ t, exec (.registerWrite (.core c) 0x60031000 data e) s = .next t ∧
      tget 0 t.flt.count 0x44D ≠ 0)

/-! ### Exact rules, and the whole block -/

/-- While a re-placement is pending, host changes to slot plans and core assignments are BUSY and none is applied; the swap that carries the re-
placement clears RPL_PEND, and the changes are accepted again. Where it goes beyond the words of the spec it states the model's own choices: log
118. -/
def Obligations.ReplacementHoldsPlans : Prop :=
  ∀ (r : Req) (d : Bytes) (s : State), r.ep = 1 →
    let same := fun (t : State) => Aside s t = s
    let bench := 1 ≤ r.sub ∧ r.sub ≤ s.nBench
    (s.dsp.rplPend = true →
      (Accepted r 7 s → r.index = 0x2010 → bench → Answers r 7 .busy [] s same (exec (.slotPlanWrite r d) s)) ∧
      (Accepted r 3 s → (r.index = 0x2011 ∧ r.sub = 0 ∧ d.length = 64) ∨ (r.index = 0x2012 ∧ r.sub = 0 ∧ d.length = 8) ∨ (r.index = 0x2013 ∧ bench ∧
        d.length = 56) →
        Answers r 3 .busy [] s same (exec (.slotPlanWrite r d) s)) ∧
      (Accepted r 3 s → r.index = 0x2015 → r.sub = 0 → d = [1] → Answers r 3 .busy [] s same (exec (.dictApply r d) s))) ∧
    (s.mainPower = true → s.dsp.pend = true → s.dsp.captured = true → s.dsp.at_ = s.frame + 1 → s.ftick = 255 →
      (∀ x ∈ s.dsp.repl, x.frame ≤ s.dsp.at_) →
      ∃ t, exec .frameSwap s = .next t ∧ t.dsp.rplPend = false) ∧
    (s.dsp.rplPend = false → Accepted r 3 s → r.index = 0x2011 → r.sub = 0 → d.length = 64 → (∀ b ∈ d, b.toNat = 0xFF) →
      (∀ x ∈ s.dsp.planCore, x.1 < 64) →
      Answers r 3 .ok [] s (fun t => ∀ i < 64, tget 0xFF t.dsp.planCore i = 0xFF) (exec (.slotPlanWrite r d) s))

/-- The block is its queue and its commands: a step takes the command at the front and is its effect on the state with the queue's rest; with no
command waiting it idles. Where it goes beyond the words of the spec it states the model's own choices: log 1. -/
def Obligations.StepRunsFront : Prop :=
  (∀ (c : Instr) (rest : List Instr) (s : State), step { s with pending := c :: rest } = exec c { s with pending := rest }) ∧
    (∀ s : State, s.pending = [] → step s = .next s)

/-- Every command answers a next state, in every state: the block never stops. Where it goes beyond the words of the spec it states the model's own
choices: log 1, 3. -/
def Obligations.BlockGoesOn : Prop :=
  ∀ s : State, Safety.goesOn s

/-- Memory keeps its canonical form through every step, whatever the command: addresses rise strictly and no byte that reads as an unlisted one is
listed. Where it goes beyond the words of the spec it states the model's own choices: log 6. -/
def Obligations.MemoryStaysCanonical : Prop :=
  ∀ s t : State, Memory.wf s.ram = true → step s = .next t → Memory.wf t.ram = true

/-- Through every step, whatever the command: one command leaves the queue and none is added; variant, stepping and unit identifier, the vendor's keys
and the tokens' digests stand; a blown fuse stays blown, and the counter bank never counts back. Where it goes beyond the words of the spec it
states the model's own choices: log 1. -/
def Obligations.FusesStand : Prop :=
  ∀ s t : State, step s = .next t → t.pending = s.pending.tail ∧ t.ident.variant = s.ident.variant ∧ t.ident.stepping = s.ident.stepping ∧
    t.ident.unit = s.ident.unit ∧ t.ident.vendorEd = s.ident.vendorEd ∧ t.ident.vendorMl = s.ident.vendorMl ∧ t.lcs.token1 = s.lcs.token1 ∧
    t.lcs.token2 = s.lcs.token2 ∧ (∀ i, s.lcs.pairs.getLsbD i = true → t.lcs.pairs.getLsbD i = true) ∧ s.lcs.count ≤ t.lcs.count

/-- What reset leaves, of the values that the spec gives and of the form that memory has: the wipe is under way in GUARD, DSP_TICK and the policy are
0, every slot-table, core-table and page entry is IDLE, no swap is pending, no register lock is set, no bench is READY, no record is open, memory
is canonical. Where it goes beyond the words of the spec it states the model's own choices: log 6, 14. -/
def Obligations.ResetLeaves : Prop :=
  let s := State.reset
  Memory.wf s.ram = true ∧ s.pending = [] ∧ s.pw.stage = .wipe ∧ s.pw.mode = .guard ∧ s.dsp.tick = 0 ∧ s.dsp.policy = 0 ∧ s.dsp.policyS = 0 ∧
    (∀ i, tget 0xFF s.dsp.slt i = 0xFF ∧ tget 0xFF s.dsp.core i = 0xFF ∧ tget 0xFF s.dsp.page i = 0xFF ∧ tget 0xFF s.dsp.sltS i = 0xFF) ∧
    s.dsp.pend = false ∧ s.dsp.captured = false ∧ s.flt.lock = false ∧ s.vault.lock = false ∧ s.pwr.lock = false ∧ s.rng.lock = false ∧
      s.dic.lock = false ∧
    (∀ n, (s.bench n).state ≠ .ready) ∧ s.flt.rec_ = none ∧ s.flt.queue = [] ∧ s.cust.ceremony = none ∧ (∀ k, (s.lease k).grant = none) ∧
      s.gal.grant = 0
end

