-- ==== Sys2Proof/Laws/Tables.lean ====
section
/-! SUPPORT. Laws of the sparse tables and of memory: reading after writing, and the canonical form. -/

namespace Sys2Proof

variable {α : Type}

/-! ### Reading after writing -/

theorem tget_tput (d : α) (t : Tbl α) (i j : Nat) (v : α) : tget d (tput t i v) j = if j = i then v else tget d t j := by
  induction t with
  | nil => rfl
  | cons e r ih =>
    obtain ⟨k, u⟩ := e
    by_cases h1 : i < k
    · simp [tput, h1, tget]
    · by_cases h2 : i = k
      · subst h2; simp only [tput, lt_irrefl, if_false, if_true, tget]; split <;> rfl
      · simp only [tput, h1, h2, if_false, tget, ih]
        by_cases h3 : j = k
        · simp [h3, Ne.symm h2]
        · simp [h3]

theorem tget_tdel (d : α) (t : Tbl α) (i j : Nat) : tget d (tdel t i) j = if j = i then d else tget d t j := by
  induction t with
  | nil => simp [tdel, tget]
  | cons e r ih =>
    obtain ⟨k, u⟩ := e
    by_cases h : i = k
    · subst h; simp only [tdel, if_true, ih, tget]; split <;> rfl
    · simp only [tdel, h, if_false, tget, ih]
      by_cases h3 : j = k
      · simp [h3, Ne.symm h]
      · simp [h3]

theorem tget_tset [DecidableEq α] (d : α) (t : Tbl α) (i j : Nat) (v : α) : tget d (tset d t i v) j = if j = i then v else tget d t j := by
  unfold tset
  split
  · next h => rw [tget_tdel, h]
  · exact tget_tput d t i j v

@[simp] theorem tget_tset_same [DecidableEq α] (d : α) (t : Tbl α) (i : Nat) (v : α) : tget d (tset d t i v) i = v := by simp [tget_tset]

theorem tget_tset_ne [DecidableEq α] (d : α) (t : Tbl α) {i j : Nat} (v : α) (h : j ≠ i) : tget d (tset d t i v) j = tget d t j := by
  simp [tget_tset, h]

theorem tfind_tput (t : Tbl α) (i j : Nat) (v : α) : tfind (tput t i v) j = if j = i then some v else tfind t j := by
  induction t with
  | nil => rfl
  | cons e r ih =>
    obtain ⟨k, u⟩ := e
    by_cases h1 : i < k
    · simp [tput, h1, tfind]
    · by_cases h2 : i = k
      · subst h2; simp only [tput, lt_irrefl, if_false, if_true, tfind]; split <;> rfl
      · simp only [tput, h1, h2, if_false, tfind, ih]
        by_cases h3 : j = k
        · simp [h3, Ne.symm h2]
        · simp [h3]

@[simp] theorem tfind_tput_same (t : Tbl α) (i : Nat) (v : α) : tfind (tput t i v) i = some v := by simp [tfind_tput]

theorem tfind_tdel (t : Tbl α) (i j : Nat) : tfind (tdel t i) j = if j = i then none else tfind t j := by
  induction t with
  | nil => simp [tdel, tfind]
  | cons e r ih =>
    obtain ⟨k, u⟩ := e
    by_cases h : i = k
    · subst h; simp only [tdel, if_true, ih, tfind]; split <;> rfl
    · simp only [tdel, h, if_false, tfind, ih]
      by_cases h3 : j = k
      · simp [h3, Ne.symm h]
      · simp [h3]

/-! ### The canonical form -/

/-- Every number of the table is above `m`. -/
def Above (m : Nat) (t : Tbl α) : Prop := ∀ e ∈ t, m < e.1

theorem twf_cons [DecidableEq α] (d : α) (k : Nat) (v : α) (r : Tbl α) :
    twf d ((k, v) :: r) = true ↔ v ≠ d ∧ Above k r ∧ twf d r = true := by
  induction r generalizing k v with
  | nil => simp [twf, Above]
  | cons e r ih =>
    obtain ⟨k', v'⟩ := e
    have step : twf d ((k, v) :: (k', v') :: r) = (decide (v ≠ d) && decide (k < k') && twf d ((k', v') :: r)) := rfl
    rw [step]
    simp only [Bool.and_eq_true, decide_eq_true_eq]
    constructor
    · rintro ⟨⟨h1, h2⟩, h3⟩
      refine ⟨h1, ?_, h3⟩
      intro e he
      rcases List.mem_cons.1 he with rfl | he
      · exact h2
      · exact lt_trans h2 ((ih k' v').1 h3 |>.2.1 e he)
    · rintro ⟨h1, h2, h3⟩
      exact ⟨⟨h1, h2 _ (List.mem_cons_self ..)⟩, h3⟩

theorem above_tput {m : Nat} {t : Tbl α} {i : Nat} {v : α} (h : Above m t) (hi : m < i) : Above m (tput t i v) := by
  induction t with
  | nil => intro e he; simp [tput] at he; subst he; exact hi
  | cons e r ih =>
    obtain ⟨k, u⟩ := e
    have hr : Above m r := fun e he => h e (List.mem_cons_of_mem _ he)
    have hk : m < k := h (k, u) (List.mem_cons_self ..)
    unfold tput
    split
    · intro e he
      rcases List.mem_cons.1 he with rfl | he
      · exact hi
      · exact h e he
    · split
      · intro e he
        rcases List.mem_cons.1 he with rfl | he
        · exact hi
        · exact hr e he
      · intro e he
        rcases List.mem_cons.1 he with rfl | he
        · exact hk
        · exact ih hr e he

theorem above_tdel {m : Nat} {t : Tbl α} {i : Nat} (h : Above m t) : Above m (tdel t i) := by
  induction t with
  | nil => exact h
  | cons e r ih =>
    obtain ⟨k, u⟩ := e
    have hr : Above m r := fun e he => h e (List.mem_cons_of_mem _ he)
    unfold tdel
    split
    · exact ih hr
    · intro e he
      rcases List.mem_cons.1 he with rfl | he
      · exact h _ (List.mem_cons_self ..)
      · exact ih hr e he

theorem twf_tput [DecidableEq α] {d : α} {t : Tbl α} {i : Nat} {v : α} (h : twf d t = true) (hv : v ≠ d) : twf d (tput t i v) = true := by
  induction t with
  | nil => simp [tput, twf, hv]
  | cons e r ih =>
    obtain ⟨k, u⟩ := e
    obtain ⟨h1, h2, h3⟩ := (twf_cons d k u r).1 h
    unfold tput
    split
    · next hlt => exact (twf_cons ..).2 ⟨hv, fun e he => by
        rcases List.mem_cons.1 he with rfl | he
        · exact hlt
        · exact lt_trans hlt (h2 e he), h⟩
    · split
      · next heq => exact (twf_cons ..).2 ⟨hv, heq ▸ h2, h3⟩
      · next hlt hne => exact (twf_cons ..).2 ⟨h1, above_tput h2 (by omega), ih h3⟩

theorem twf_tdel [DecidableEq α] {d : α} {t : Tbl α} {i : Nat} (h : twf d t = true) : twf d (tdel t i) = true := by
  induction t with
  | nil => rfl
  | cons e r ih =>
    obtain ⟨k, u⟩ := e
    obtain ⟨h1, h2, h3⟩ := (twf_cons d k u r).1 h
    unfold tdel
    split
    · exact ih h3
    · exact (twf_cons ..).2 ⟨h1, above_tdel h2, ih h3⟩

theorem twf_tset [DecidableEq α] {d : α} {t : Tbl α} {i : Nat} {v : α} (h : twf d t = true) : twf d (tset d t i v) = true := by
  unfold tset
  split
  · exact twf_tdel h
  · next hv => exact twf_tput h hv

theorem above_filter {m : Nat} {t : Tbl α} {p : Nat × α → Bool} (h : Above m t) : Above m (t.filter p) :=
  fun e he => h e (List.mem_of_mem_filter he)

theorem twf_filter [DecidableEq α] {d : α} {t : Tbl α} {p : Nat × α → Bool} (h : twf d t = true) : twf d (t.filter p) = true := by
  induction t with
  | nil => rfl
  | cons e r ih =>
    obtain ⟨k, u⟩ := e
    obtain ⟨h1, h2, h3⟩ := (twf_cons d k u r).1 h
    rw [List.filter_cons]
    split
    · exact (twf_cons ..).2 ⟨h1, above_filter h2, ih h3⟩
    · exact ih h3

theorem twf_tclear [DecidableEq α] {d : α} {t : Tbl α} {lo hi : Nat} (h : twf d t = true) : twf d (tclear t lo hi) = true := twf_filter h

namespace Machine

/-! ### Memory (R10) -/

@[simp] theorem Memory.get_set (m : Memory) (a b : Nat) (v : Byte) : (m.set a v).get b = if b = a then v else m.get b := tget_tset ..

theorem Memory.wf_set {m : Memory} {a : Nat} {v : Byte} (h : m.wf = true) : (m.set a v).wf = true := twf_tset h

theorem Memory.wf_write {m : Memory} {a : Nat} {b : Bytes} (h : m.wf = true) : (m.write a b).wf = true := by
  induction b generalizing m a with
  | nil => exact h
  | cons x r ih => exact ih (Memory.wf_set h)

theorem Memory.wf_clear {m : Memory} {lo hi : Nat} (h : m.wf = true) : (m.clear lo hi).wf = true := twf_tclear h

/-- A write of bytes at `a` leaves every byte outside them. -/
theorem Memory.get_write_outside (m : Memory) (a e : Nat) (b : Bytes) (h : e < a ∨ a + b.length ≤ e) : (m.write a b).get e = m.get e := by
  induction b generalizing m a with
  | nil => rfl
  | cons x r ih =>
    simp only [List.length_cons] at h
    rw [Memory.write, ih (m.set a x) (a + 1) (by omega), Memory.get_set, if_neg (by omega)]

/-- A write of bytes at `a` puts byte `i` at `a + i`. -/
theorem Memory.get_write_inside (m : Memory) (a i : Nat) (b : Bytes) (h : i < b.length) : (m.write a b).get (a + i) = b[i] := by
  induction b generalizing m a i with
  | nil => simp at h
  | cons x r ih =>
    rw [Memory.write]
    cases i with
    | zero => rw [Memory.get_write_outside _ _ _ _ (by omega), Memory.get_set]; simp
    | succ i =>
      have := ih (m.set a x) (a + 1) i (by simpa using h)
      rw [show a + (i + 1) = a + 1 + i by omega, this]; rfl

/-- Reading back a range of one write answers its bytes. -/
theorem Memory.read_write (m : Memory) (a : Nat) (b : Bytes) : (m.write a b).read a b.length = b := by
  apply List.ext_getElem
  · simp [Memory.read]
  · intro i h1 h2
    simp only [Memory.read, List.getElem_map, List.getElem_range]
    exact Memory.get_write_inside m a i b h2

end Machine

end Sys2Proof
end

