-- ==== Sys2Proof/Laws/State.lean ====
section
/-! SUPPORT. What each update of State leaves: one lemma for each field, and what a reader answers after its writer. -/

namespace Sys2Proof.Machine
open Sys2Proof

/-! ### setBench -/

@[simp] theorem State.setBench_ident (s : State) (n : Nat) (b : Bench) : (s.setBench n b).ident = s.ident := rfl
@[simp] theorem State.setBench_pw (s : State) (n : Nat) (b : Bench) : (s.setBench n b).pw = s.pw := rfl
@[simp] theorem State.setBench_dsp (s : State) (n : Nat) (b : Bench) : (s.setBench n b).dsp = s.dsp := rfl
@[simp] theorem State.setBench_cores (s : State) (n : Nat) (b : Bench) : (s.setBench n b).cores = s.cores := rfl
@[simp] theorem State.setBench_leases (s : State) (n : Nat) (b : Bench) : (s.setBench n b).leases = s.leases := rfl
@[simp] theorem State.setBench_flt (s : State) (n : Nat) (b : Bench) : (s.setBench n b).flt = s.flt := rfl
@[simp] theorem State.setBench_pwr (s : State) (n : Nat) (b : Bench) : (s.setBench n b).pwr = s.pwr := rfl
@[simp] theorem State.setBench_vault (s : State) (n : Nat) (b : Bench) : (s.setBench n b).vault = s.vault := rfl
@[simp] theorem State.setBench_queues (s : State) (n : Nat) (b : Bench) : (s.setBench n b).queues = s.queues := rfl
@[simp] theorem State.setBench_cmds (s : State) (n : Nat) (b : Bench) : (s.setBench n b).cmds = s.cmds := rfl
@[simp] theorem State.setBench_nextCmd (s : State) (n : Nat) (b : Bench) : (s.setBench n b).nextCmd = s.nextCmd := rfl
@[simp] theorem State.setBench_engines (s : State) (n : Nat) (b : Bench) : (s.setBench n b).engines = s.engines := rfl
@[simp] theorem State.setBench_jobs (s : State) (n : Nat) (b : Bench) : (s.setBench n b).jobs = s.jobs := rfl
@[simp] theorem State.setBench_dig (s : State) (n : Nat) (b : Bench) : (s.setBench n b).dig = s.dig := rfl
@[simp] theorem State.setBench_held (s : State) (n : Nat) (b : Bench) : (s.setBench n b).held = s.held := rfl
@[simp] theorem State.setBench_yard (s : State) (n : Nat) (b : Bench) : (s.setBench n b).yard = s.yard := rfl
@[simp] theorem State.setBench_rng (s : State) (n : Nat) (b : Bench) : (s.setBench n b).rng = s.rng := rfl
@[simp] theorem State.setBench_flg (s : State) (n : Nat) (b : Bench) : (s.setBench n b).flg = s.flg := rfl
@[simp] theorem State.setBench_ldg (s : State) (n : Nat) (b : Bench) : (s.setBench n b).ldg = s.ldg := rfl
@[simp] theorem State.setBench_pfl (s : State) (n : Nat) (b : Bench) : (s.setBench n b).pfl = s.pfl := rfl
@[simp] theorem State.setBench_crd (s : State) (n : Nat) (b : Bench) : (s.setBench n b).crd = s.crd := rfl
@[simp] theorem State.setBench_ctl (s : State) (n : Nat) (b : Bench) : (s.setBench n b).ctl = s.ctl := rfl
@[simp] theorem State.setBench_tag (s : State) (n : Nat) (b : Bench) : (s.setBench n b).tag = s.tag := rfl
@[simp] theorem State.setBench_cust (s : State) (n : Nat) (b : Bench) : (s.setBench n b).cust = s.cust := rfl
@[simp] theorem State.setBench_dic (s : State) (n : Nat) (b : Bench) : (s.setBench n b).dic = s.dic := rfl
@[simp] theorem State.setBench_spdm (s : State) (n : Nat) (b : Bench) : (s.setBench n b).spdm = s.spdm := rfl
@[simp] theorem State.setBench_lcs (s : State) (n : Nat) (b : Bench) : (s.setBench n b).lcs = s.lcs := rfl
@[simp] theorem State.setBench_gal (s : State) (n : Nat) (b : Bench) : (s.setBench n b).gal = s.gal := rfl
@[simp] theorem State.setBench_bus (s : State) (n : Nat) (b : Bench) : (s.setBench n b).bus = s.bus := rfl
@[simp] theorem State.setBench_link (s : State) (n : Nat) (b : Bench) : (s.setBench n b).link = s.link := rfl
@[simp] theorem State.setBench_out (s : State) (n : Nat) (b : Bench) : (s.setBench n b).out = s.out := rfl
@[simp] theorem State.setBench_ram (s : State) (n : Nat) (b : Bench) : (s.setBench n b).ram = s.ram := rfl
@[simp] theorem State.setBench_pending (s : State) (n : Nat) (b : Bench) : (s.setBench n b).pending = s.pending := rfl

/-! ### setCore -/

@[simp] theorem State.setCore_ident (s : State) (c : Nat) (x : Core) : (s.setCore c x).ident = s.ident := rfl
@[simp] theorem State.setCore_pw (s : State) (c : Nat) (x : Core) : (s.setCore c x).pw = s.pw := rfl
@[simp] theorem State.setCore_dsp (s : State) (c : Nat) (x : Core) : (s.setCore c x).dsp = s.dsp := rfl
@[simp] theorem State.setCore_benches (s : State) (c : Nat) (x : Core) : (s.setCore c x).benches = s.benches := rfl
@[simp] theorem State.setCore_leases (s : State) (c : Nat) (x : Core) : (s.setCore c x).leases = s.leases := rfl
@[simp] theorem State.setCore_flt (s : State) (c : Nat) (x : Core) : (s.setCore c x).flt = s.flt := rfl
@[simp] theorem State.setCore_pwr (s : State) (c : Nat) (x : Core) : (s.setCore c x).pwr = s.pwr := rfl
@[simp] theorem State.setCore_vault (s : State) (c : Nat) (x : Core) : (s.setCore c x).vault = s.vault := rfl
@[simp] theorem State.setCore_queues (s : State) (c : Nat) (x : Core) : (s.setCore c x).queues = s.queues := rfl
@[simp] theorem State.setCore_cmds (s : State) (c : Nat) (x : Core) : (s.setCore c x).cmds = s.cmds := rfl
@[simp] theorem State.setCore_nextCmd (s : State) (c : Nat) (x : Core) : (s.setCore c x).nextCmd = s.nextCmd := rfl
@[simp] theorem State.setCore_engines (s : State) (c : Nat) (x : Core) : (s.setCore c x).engines = s.engines := rfl
@[simp] theorem State.setCore_jobs (s : State) (c : Nat) (x : Core) : (s.setCore c x).jobs = s.jobs := rfl
@[simp] theorem State.setCore_dig (s : State) (c : Nat) (x : Core) : (s.setCore c x).dig = s.dig := rfl
@[simp] theorem State.setCore_held (s : State) (c : Nat) (x : Core) : (s.setCore c x).held = s.held := rfl
@[simp] theorem State.setCore_yard (s : State) (c : Nat) (x : Core) : (s.setCore c x).yard = s.yard := rfl
@[simp] theorem State.setCore_rng (s : State) (c : Nat) (x : Core) : (s.setCore c x).rng = s.rng := rfl
@[simp] theorem State.setCore_flg (s : State) (c : Nat) (x : Core) : (s.setCore c x).flg = s.flg := rfl
@[simp] theorem State.setCore_ldg (s : State) (c : Nat) (x : Core) : (s.setCore c x).ldg = s.ldg := rfl
@[simp] theorem State.setCore_pfl (s : State) (c : Nat) (x : Core) : (s.setCore c x).pfl = s.pfl := rfl
@[simp] theorem State.setCore_crd (s : State) (c : Nat) (x : Core) : (s.setCore c x).crd = s.crd := rfl
@[simp] theorem State.setCore_ctl (s : State) (c : Nat) (x : Core) : (s.setCore c x).ctl = s.ctl := rfl
@[simp] theorem State.setCore_tag (s : State) (c : Nat) (x : Core) : (s.setCore c x).tag = s.tag := rfl
@[simp] theorem State.setCore_cust (s : State) (c : Nat) (x : Core) : (s.setCore c x).cust = s.cust := rfl
@[simp] theorem State.setCore_dic (s : State) (c : Nat) (x : Core) : (s.setCore c x).dic = s.dic := rfl
@[simp] theorem State.setCore_spdm (s : State) (c : Nat) (x : Core) : (s.setCore c x).spdm = s.spdm := rfl
@[simp] theorem State.setCore_lcs (s : State) (c : Nat) (x : Core) : (s.setCore c x).lcs = s.lcs := rfl
@[simp] theorem State.setCore_gal (s : State) (c : Nat) (x : Core) : (s.setCore c x).gal = s.gal := rfl
@[simp] theorem State.setCore_bus (s : State) (c : Nat) (x : Core) : (s.setCore c x).bus = s.bus := rfl
@[simp] theorem State.setCore_link (s : State) (c : Nat) (x : Core) : (s.setCore c x).link = s.link := rfl
@[simp] theorem State.setCore_out (s : State) (c : Nat) (x : Core) : (s.setCore c x).out = s.out := rfl
@[simp] theorem State.setCore_ram (s : State) (c : Nat) (x : Core) : (s.setCore c x).ram = s.ram := rfl
@[simp] theorem State.setCore_pending (s : State) (c : Nat) (x : Core) : (s.setCore c x).pending = s.pending := rfl

/-! ### setLease -/

@[simp] theorem State.setLease_ident (s : State) (k : Nat) (x : Lease) : (s.setLease k x).ident = s.ident := rfl
@[simp] theorem State.setLease_pw (s : State) (k : Nat) (x : Lease) : (s.setLease k x).pw = s.pw := rfl
@[simp] theorem State.setLease_dsp (s : State) (k : Nat) (x : Lease) : (s.setLease k x).dsp = s.dsp := rfl
@[simp] theorem State.setLease_benches (s : State) (k : Nat) (x : Lease) : (s.setLease k x).benches = s.benches := rfl
@[simp] theorem State.setLease_cores (s : State) (k : Nat) (x : Lease) : (s.setLease k x).cores = s.cores := rfl
@[simp] theorem State.setLease_flt (s : State) (k : Nat) (x : Lease) : (s.setLease k x).flt = s.flt := rfl
@[simp] theorem State.setLease_pwr (s : State) (k : Nat) (x : Lease) : (s.setLease k x).pwr = s.pwr := rfl
@[simp] theorem State.setLease_vault (s : State) (k : Nat) (x : Lease) : (s.setLease k x).vault = s.vault := rfl
@[simp] theorem State.setLease_queues (s : State) (k : Nat) (x : Lease) : (s.setLease k x).queues = s.queues := rfl
@[simp] theorem State.setLease_cmds (s : State) (k : Nat) (x : Lease) : (s.setLease k x).cmds = s.cmds := rfl
@[simp] theorem State.setLease_nextCmd (s : State) (k : Nat) (x : Lease) : (s.setLease k x).nextCmd = s.nextCmd := rfl
@[simp] theorem State.setLease_engines (s : State) (k : Nat) (x : Lease) : (s.setLease k x).engines = s.engines := rfl
@[simp] theorem State.setLease_jobs (s : State) (k : Nat) (x : Lease) : (s.setLease k x).jobs = s.jobs := rfl
@[simp] theorem State.setLease_dig (s : State) (k : Nat) (x : Lease) : (s.setLease k x).dig = s.dig := rfl
@[simp] theorem State.setLease_held (s : State) (k : Nat) (x : Lease) : (s.setLease k x).held = s.held := rfl
@[simp] theorem State.setLease_yard (s : State) (k : Nat) (x : Lease) : (s.setLease k x).yard = s.yard := rfl
@[simp] theorem State.setLease_rng (s : State) (k : Nat) (x : Lease) : (s.setLease k x).rng = s.rng := rfl
@[simp] theorem State.setLease_flg (s : State) (k : Nat) (x : Lease) : (s.setLease k x).flg = s.flg := rfl
@[simp] theorem State.setLease_ldg (s : State) (k : Nat) (x : Lease) : (s.setLease k x).ldg = s.ldg := rfl
@[simp] theorem State.setLease_pfl (s : State) (k : Nat) (x : Lease) : (s.setLease k x).pfl = s.pfl := rfl
@[simp] theorem State.setLease_crd (s : State) (k : Nat) (x : Lease) : (s.setLease k x).crd = s.crd := rfl
@[simp] theorem State.setLease_ctl (s : State) (k : Nat) (x : Lease) : (s.setLease k x).ctl = s.ctl := rfl
@[simp] theorem State.setLease_tag (s : State) (k : Nat) (x : Lease) : (s.setLease k x).tag = s.tag := rfl
@[simp] theorem State.setLease_cust (s : State) (k : Nat) (x : Lease) : (s.setLease k x).cust = s.cust := rfl
@[simp] theorem State.setLease_dic (s : State) (k : Nat) (x : Lease) : (s.setLease k x).dic = s.dic := rfl
@[simp] theorem State.setLease_spdm (s : State) (k : Nat) (x : Lease) : (s.setLease k x).spdm = s.spdm := rfl
@[simp] theorem State.setLease_lcs (s : State) (k : Nat) (x : Lease) : (s.setLease k x).lcs = s.lcs := rfl
@[simp] theorem State.setLease_gal (s : State) (k : Nat) (x : Lease) : (s.setLease k x).gal = s.gal := rfl
@[simp] theorem State.setLease_bus (s : State) (k : Nat) (x : Lease) : (s.setLease k x).bus = s.bus := rfl
@[simp] theorem State.setLease_link (s : State) (k : Nat) (x : Lease) : (s.setLease k x).link = s.link := rfl
@[simp] theorem State.setLease_out (s : State) (k : Nat) (x : Lease) : (s.setLease k x).out = s.out := rfl
@[simp] theorem State.setLease_ram (s : State) (k : Nat) (x : Lease) : (s.setLease k x).ram = s.ram := rfl
@[simp] theorem State.setLease_pending (s : State) (k : Nat) (x : Lease) : (s.setLease k x).pending = s.pending := rfl

/-! ### setQueue -/

@[simp] theorem State.setQueue_ident (s : State) (k q : Nat) (x : Queue) : (s.setQueue k q x).ident = s.ident := rfl
@[simp] theorem State.setQueue_pw (s : State) (k q : Nat) (x : Queue) : (s.setQueue k q x).pw = s.pw := rfl
@[simp] theorem State.setQueue_dsp (s : State) (k q : Nat) (x : Queue) : (s.setQueue k q x).dsp = s.dsp := rfl
@[simp] theorem State.setQueue_benches (s : State) (k q : Nat) (x : Queue) : (s.setQueue k q x).benches = s.benches := rfl
@[simp] theorem State.setQueue_cores (s : State) (k q : Nat) (x : Queue) : (s.setQueue k q x).cores = s.cores := rfl
@[simp] theorem State.setQueue_leases (s : State) (k q : Nat) (x : Queue) : (s.setQueue k q x).leases = s.leases := rfl
@[simp] theorem State.setQueue_flt (s : State) (k q : Nat) (x : Queue) : (s.setQueue k q x).flt = s.flt := rfl
@[simp] theorem State.setQueue_pwr (s : State) (k q : Nat) (x : Queue) : (s.setQueue k q x).pwr = s.pwr := rfl
@[simp] theorem State.setQueue_vault (s : State) (k q : Nat) (x : Queue) : (s.setQueue k q x).vault = s.vault := rfl
@[simp] theorem State.setQueue_cmds (s : State) (k q : Nat) (x : Queue) : (s.setQueue k q x).cmds = s.cmds := rfl
@[simp] theorem State.setQueue_nextCmd (s : State) (k q : Nat) (x : Queue) : (s.setQueue k q x).nextCmd = s.nextCmd := rfl
@[simp] theorem State.setQueue_engines (s : State) (k q : Nat) (x : Queue) : (s.setQueue k q x).engines = s.engines := rfl
@[simp] theorem State.setQueue_jobs (s : State) (k q : Nat) (x : Queue) : (s.setQueue k q x).jobs = s.jobs := rfl
@[simp] theorem State.setQueue_dig (s : State) (k q : Nat) (x : Queue) : (s.setQueue k q x).dig = s.dig := rfl
@[simp] theorem State.setQueue_held (s : State) (k q : Nat) (x : Queue) : (s.setQueue k q x).held = s.held := rfl
@[simp] theorem State.setQueue_yard (s : State) (k q : Nat) (x : Queue) : (s.setQueue k q x).yard = s.yard := rfl
@[simp] theorem State.setQueue_rng (s : State) (k q : Nat) (x : Queue) : (s.setQueue k q x).rng = s.rng := rfl
@[simp] theorem State.setQueue_flg (s : State) (k q : Nat) (x : Queue) : (s.setQueue k q x).flg = s.flg := rfl
@[simp] theorem State.setQueue_ldg (s : State) (k q : Nat) (x : Queue) : (s.setQueue k q x).ldg = s.ldg := rfl
@[simp] theorem State.setQueue_pfl (s : State) (k q : Nat) (x : Queue) : (s.setQueue k q x).pfl = s.pfl := rfl
@[simp] theorem State.setQueue_crd (s : State) (k q : Nat) (x : Queue) : (s.setQueue k q x).crd = s.crd := rfl
@[simp] theorem State.setQueue_ctl (s : State) (k q : Nat) (x : Queue) : (s.setQueue k q x).ctl = s.ctl := rfl
@[simp] theorem State.setQueue_tag (s : State) (k q : Nat) (x : Queue) : (s.setQueue k q x).tag = s.tag := rfl
@[simp] theorem State.setQueue_cust (s : State) (k q : Nat) (x : Queue) : (s.setQueue k q x).cust = s.cust := rfl
@[simp] theorem State.setQueue_dic (s : State) (k q : Nat) (x : Queue) : (s.setQueue k q x).dic = s.dic := rfl
@[simp] theorem State.setQueue_spdm (s : State) (k q : Nat) (x : Queue) : (s.setQueue k q x).spdm = s.spdm := rfl
@[simp] theorem State.setQueue_lcs (s : State) (k q : Nat) (x : Queue) : (s.setQueue k q x).lcs = s.lcs := rfl
@[simp] theorem State.setQueue_gal (s : State) (k q : Nat) (x : Queue) : (s.setQueue k q x).gal = s.gal := rfl
@[simp] theorem State.setQueue_bus (s : State) (k q : Nat) (x : Queue) : (s.setQueue k q x).bus = s.bus := rfl
@[simp] theorem State.setQueue_link (s : State) (k q : Nat) (x : Queue) : (s.setQueue k q x).link = s.link := rfl
@[simp] theorem State.setQueue_out (s : State) (k q : Nat) (x : Queue) : (s.setQueue k q x).out = s.out := rfl
@[simp] theorem State.setQueue_ram (s : State) (k q : Nat) (x : Queue) : (s.setQueue k q x).ram = s.ram := rfl
@[simp] theorem State.setQueue_pending (s : State) (k q : Nat) (x : Queue) : (s.setQueue k q x).pending = s.pending := rfl

/-! ### setCmd -/

@[simp] theorem State.setCmd_ident (s : State) (h : Nat) (c : Cmd) : (s.setCmd h c).ident = s.ident := rfl
@[simp] theorem State.setCmd_pw (s : State) (h : Nat) (c : Cmd) : (s.setCmd h c).pw = s.pw := rfl
@[simp] theorem State.setCmd_dsp (s : State) (h : Nat) (c : Cmd) : (s.setCmd h c).dsp = s.dsp := rfl
@[simp] theorem State.setCmd_benches (s : State) (h : Nat) (c : Cmd) : (s.setCmd h c).benches = s.benches := rfl
@[simp] theorem State.setCmd_cores (s : State) (h : Nat) (c : Cmd) : (s.setCmd h c).cores = s.cores := rfl
@[simp] theorem State.setCmd_leases (s : State) (h : Nat) (c : Cmd) : (s.setCmd h c).leases = s.leases := rfl
@[simp] theorem State.setCmd_flt (s : State) (h : Nat) (c : Cmd) : (s.setCmd h c).flt = s.flt := rfl
@[simp] theorem State.setCmd_pwr (s : State) (h : Nat) (c : Cmd) : (s.setCmd h c).pwr = s.pwr := rfl
@[simp] theorem State.setCmd_vault (s : State) (h : Nat) (c : Cmd) : (s.setCmd h c).vault = s.vault := rfl
@[simp] theorem State.setCmd_queues (s : State) (h : Nat) (c : Cmd) : (s.setCmd h c).queues = s.queues := rfl
@[simp] theorem State.setCmd_nextCmd (s : State) (h : Nat) (c : Cmd) : (s.setCmd h c).nextCmd = s.nextCmd := rfl
@[simp] theorem State.setCmd_engines (s : State) (h : Nat) (c : Cmd) : (s.setCmd h c).engines = s.engines := rfl
@[simp] theorem State.setCmd_jobs (s : State) (h : Nat) (c : Cmd) : (s.setCmd h c).jobs = s.jobs := rfl
@[simp] theorem State.setCmd_dig (s : State) (h : Nat) (c : Cmd) : (s.setCmd h c).dig = s.dig := rfl
@[simp] theorem State.setCmd_held (s : State) (h : Nat) (c : Cmd) : (s.setCmd h c).held = s.held := rfl
@[simp] theorem State.setCmd_yard (s : State) (h : Nat) (c : Cmd) : (s.setCmd h c).yard = s.yard := rfl
@[simp] theorem State.setCmd_rng (s : State) (h : Nat) (c : Cmd) : (s.setCmd h c).rng = s.rng := rfl
@[simp] theorem State.setCmd_flg (s : State) (h : Nat) (c : Cmd) : (s.setCmd h c).flg = s.flg := rfl
@[simp] theorem State.setCmd_ldg (s : State) (h : Nat) (c : Cmd) : (s.setCmd h c).ldg = s.ldg := rfl
@[simp] theorem State.setCmd_pfl (s : State) (h : Nat) (c : Cmd) : (s.setCmd h c).pfl = s.pfl := rfl
@[simp] theorem State.setCmd_crd (s : State) (h : Nat) (c : Cmd) : (s.setCmd h c).crd = s.crd := rfl
@[simp] theorem State.setCmd_ctl (s : State) (h : Nat) (c : Cmd) : (s.setCmd h c).ctl = s.ctl := rfl
@[simp] theorem State.setCmd_tag (s : State) (h : Nat) (c : Cmd) : (s.setCmd h c).tag = s.tag := rfl
@[simp] theorem State.setCmd_cust (s : State) (h : Nat) (c : Cmd) : (s.setCmd h c).cust = s.cust := rfl
@[simp] theorem State.setCmd_dic (s : State) (h : Nat) (c : Cmd) : (s.setCmd h c).dic = s.dic := rfl
@[simp] theorem State.setCmd_spdm (s : State) (h : Nat) (c : Cmd) : (s.setCmd h c).spdm = s.spdm := rfl
@[simp] theorem State.setCmd_lcs (s : State) (h : Nat) (c : Cmd) : (s.setCmd h c).lcs = s.lcs := rfl
@[simp] theorem State.setCmd_gal (s : State) (h : Nat) (c : Cmd) : (s.setCmd h c).gal = s.gal := rfl
@[simp] theorem State.setCmd_bus (s : State) (h : Nat) (c : Cmd) : (s.setCmd h c).bus = s.bus := rfl
@[simp] theorem State.setCmd_link (s : State) (h : Nat) (c : Cmd) : (s.setCmd h c).link = s.link := rfl
@[simp] theorem State.setCmd_out (s : State) (h : Nat) (c : Cmd) : (s.setCmd h c).out = s.out := rfl
@[simp] theorem State.setCmd_ram (s : State) (h : Nat) (c : Cmd) : (s.setCmd h c).ram = s.ram := rfl
@[simp] theorem State.setCmd_pending (s : State) (h : Nat) (c : Cmd) : (s.setCmd h c).pending = s.pending := rfl

/-! ### dropCmd -/

@[simp] theorem State.dropCmd_ident (s : State) (h : Nat) : (s.dropCmd h).ident = s.ident := rfl
@[simp] theorem State.dropCmd_pw (s : State) (h : Nat) : (s.dropCmd h).pw = s.pw := rfl
@[simp] theorem State.dropCmd_dsp (s : State) (h : Nat) : (s.dropCmd h).dsp = s.dsp := rfl
@[simp] theorem State.dropCmd_benches (s : State) (h : Nat) : (s.dropCmd h).benches = s.benches := rfl
@[simp] theorem State.dropCmd_cores (s : State) (h : Nat) : (s.dropCmd h).cores = s.cores := rfl
@[simp] theorem State.dropCmd_leases (s : State) (h : Nat) : (s.dropCmd h).leases = s.leases := rfl
@[simp] theorem State.dropCmd_flt (s : State) (h : Nat) : (s.dropCmd h).flt = s.flt := rfl
@[simp] theorem State.dropCmd_pwr (s : State) (h : Nat) : (s.dropCmd h).pwr = s.pwr := rfl
@[simp] theorem State.dropCmd_vault (s : State) (h : Nat) : (s.dropCmd h).vault = s.vault := rfl
@[simp] theorem State.dropCmd_queues (s : State) (h : Nat) : (s.dropCmd h).queues = s.queues := rfl
@[simp] theorem State.dropCmd_nextCmd (s : State) (h : Nat) : (s.dropCmd h).nextCmd = s.nextCmd := rfl
@[simp] theorem State.dropCmd_engines (s : State) (h : Nat) : (s.dropCmd h).engines = s.engines := rfl
@[simp] theorem State.dropCmd_jobs (s : State) (h : Nat) : (s.dropCmd h).jobs = s.jobs := rfl
@[simp] theorem State.dropCmd_dig (s : State) (h : Nat) : (s.dropCmd h).dig = s.dig := rfl
@[simp] theorem State.dropCmd_held (s : State) (h : Nat) : (s.dropCmd h).held = s.held := rfl
@[simp] theorem State.dropCmd_yard (s : State) (h : Nat) : (s.dropCmd h).yard = s.yard := rfl
@[simp] theorem State.dropCmd_rng (s : State) (h : Nat) : (s.dropCmd h).rng = s.rng := rfl
@[simp] theorem State.dropCmd_flg (s : State) (h : Nat) : (s.dropCmd h).flg = s.flg := rfl
@[simp] theorem State.dropCmd_ldg (s : State) (h : Nat) : (s.dropCmd h).ldg = s.ldg := rfl
@[simp] theorem State.dropCmd_pfl (s : State) (h : Nat) : (s.dropCmd h).pfl = s.pfl := rfl
@[simp] theorem State.dropCmd_crd (s : State) (h : Nat) : (s.dropCmd h).crd = s.crd := rfl
@[simp] theorem State.dropCmd_ctl (s : State) (h : Nat) : (s.dropCmd h).ctl = s.ctl := rfl
@[simp] theorem State.dropCmd_tag (s : State) (h : Nat) : (s.dropCmd h).tag = s.tag := rfl
@[simp] theorem State.dropCmd_cust (s : State) (h : Nat) : (s.dropCmd h).cust = s.cust := rfl
@[simp] theorem State.dropCmd_dic (s : State) (h : Nat) : (s.dropCmd h).dic = s.dic := rfl
@[simp] theorem State.dropCmd_spdm (s : State) (h : Nat) : (s.dropCmd h).spdm = s.spdm := rfl
@[simp] theorem State.dropCmd_lcs (s : State) (h : Nat) : (s.dropCmd h).lcs = s.lcs := rfl
@[simp] theorem State.dropCmd_gal (s : State) (h : Nat) : (s.dropCmd h).gal = s.gal := rfl
@[simp] theorem State.dropCmd_bus (s : State) (h : Nat) : (s.dropCmd h).bus = s.bus := rfl
@[simp] theorem State.dropCmd_link (s : State) (h : Nat) : (s.dropCmd h).link = s.link := rfl
@[simp] theorem State.dropCmd_out (s : State) (h : Nat) : (s.dropCmd h).out = s.out := rfl
@[simp] theorem State.dropCmd_ram (s : State) (h : Nat) : (s.dropCmd h).ram = s.ram := rfl
@[simp] theorem State.dropCmd_pending (s : State) (h : Nat) : (s.dropCmd h).pending = s.pending := rfl

/-! ### setEngine -/

@[simp] theorem State.setEngine_ident (s : State) (q : Nat) (x : Engine) : (s.setEngine q x).ident = s.ident := rfl
@[simp] theorem State.setEngine_pw (s : State) (q : Nat) (x : Engine) : (s.setEngine q x).pw = s.pw := rfl
@[simp] theorem State.setEngine_dsp (s : State) (q : Nat) (x : Engine) : (s.setEngine q x).dsp = s.dsp := rfl
@[simp] theorem State.setEngine_benches (s : State) (q : Nat) (x : Engine) : (s.setEngine q x).benches = s.benches := rfl
@[simp] theorem State.setEngine_cores (s : State) (q : Nat) (x : Engine) : (s.setEngine q x).cores = s.cores := rfl
@[simp] theorem State.setEngine_leases (s : State) (q : Nat) (x : Engine) : (s.setEngine q x).leases = s.leases := rfl
@[simp] theorem State.setEngine_flt (s : State) (q : Nat) (x : Engine) : (s.setEngine q x).flt = s.flt := rfl
@[simp] theorem State.setEngine_pwr (s : State) (q : Nat) (x : Engine) : (s.setEngine q x).pwr = s.pwr := rfl
@[simp] theorem State.setEngine_vault (s : State) (q : Nat) (x : Engine) : (s.setEngine q x).vault = s.vault := rfl
@[simp] theorem State.setEngine_queues (s : State) (q : Nat) (x : Engine) : (s.setEngine q x).queues = s.queues := rfl
@[simp] theorem State.setEngine_cmds (s : State) (q : Nat) (x : Engine) : (s.setEngine q x).cmds = s.cmds := rfl
@[simp] theorem State.setEngine_nextCmd (s : State) (q : Nat) (x : Engine) : (s.setEngine q x).nextCmd = s.nextCmd := rfl
@[simp] theorem State.setEngine_jobs (s : State) (q : Nat) (x : Engine) : (s.setEngine q x).jobs = s.jobs := rfl
@[simp] theorem State.setEngine_dig (s : State) (q : Nat) (x : Engine) : (s.setEngine q x).dig = s.dig := rfl
@[simp] theorem State.setEngine_held (s : State) (q : Nat) (x : Engine) : (s.setEngine q x).held = s.held := rfl
@[simp] theorem State.setEngine_yard (s : State) (q : Nat) (x : Engine) : (s.setEngine q x).yard = s.yard := rfl
@[simp] theorem State.setEngine_rng (s : State) (q : Nat) (x : Engine) : (s.setEngine q x).rng = s.rng := rfl
@[simp] theorem State.setEngine_flg (s : State) (q : Nat) (x : Engine) : (s.setEngine q x).flg = s.flg := rfl
@[simp] theorem State.setEngine_ldg (s : State) (q : Nat) (x : Engine) : (s.setEngine q x).ldg = s.ldg := rfl
@[simp] theorem State.setEngine_pfl (s : State) (q : Nat) (x : Engine) : (s.setEngine q x).pfl = s.pfl := rfl
@[simp] theorem State.setEngine_crd (s : State) (q : Nat) (x : Engine) : (s.setEngine q x).crd = s.crd := rfl
@[simp] theorem State.setEngine_ctl (s : State) (q : Nat) (x : Engine) : (s.setEngine q x).ctl = s.ctl := rfl
@[simp] theorem State.setEngine_tag (s : State) (q : Nat) (x : Engine) : (s.setEngine q x).tag = s.tag := rfl
@[simp] theorem State.setEngine_cust (s : State) (q : Nat) (x : Engine) : (s.setEngine q x).cust = s.cust := rfl
@[simp] theorem State.setEngine_dic (s : State) (q : Nat) (x : Engine) : (s.setEngine q x).dic = s.dic := rfl
@[simp] theorem State.setEngine_spdm (s : State) (q : Nat) (x : Engine) : (s.setEngine q x).spdm = s.spdm := rfl
@[simp] theorem State.setEngine_lcs (s : State) (q : Nat) (x : Engine) : (s.setEngine q x).lcs = s.lcs := rfl
@[simp] theorem State.setEngine_gal (s : State) (q : Nat) (x : Engine) : (s.setEngine q x).gal = s.gal := rfl
@[simp] theorem State.setEngine_bus (s : State) (q : Nat) (x : Engine) : (s.setEngine q x).bus = s.bus := rfl
@[simp] theorem State.setEngine_link (s : State) (q : Nat) (x : Engine) : (s.setEngine q x).link = s.link := rfl
@[simp] theorem State.setEngine_out (s : State) (q : Nat) (x : Engine) : (s.setEngine q x).out = s.out := rfl
@[simp] theorem State.setEngine_ram (s : State) (q : Nat) (x : Engine) : (s.setEngine q x).ram = s.ram := rfl
@[simp] theorem State.setEngine_pending (s : State) (q : Nat) (x : Engine) : (s.setEngine q x).pending = s.pending := rfl

/-! ### setJob -/

@[simp] theorem State.setJob_ident (s : State) (q k : Nat) (x : Job) : (s.setJob q k x).ident = s.ident := rfl
@[simp] theorem State.setJob_pw (s : State) (q k : Nat) (x : Job) : (s.setJob q k x).pw = s.pw := rfl
@[simp] theorem State.setJob_dsp (s : State) (q k : Nat) (x : Job) : (s.setJob q k x).dsp = s.dsp := rfl
@[simp] theorem State.setJob_benches (s : State) (q k : Nat) (x : Job) : (s.setJob q k x).benches = s.benches := rfl
@[simp] theorem State.setJob_cores (s : State) (q k : Nat) (x : Job) : (s.setJob q k x).cores = s.cores := rfl
@[simp] theorem State.setJob_leases (s : State) (q k : Nat) (x : Job) : (s.setJob q k x).leases = s.leases := rfl
@[simp] theorem State.setJob_flt (s : State) (q k : Nat) (x : Job) : (s.setJob q k x).flt = s.flt := rfl
@[simp] theorem State.setJob_pwr (s : State) (q k : Nat) (x : Job) : (s.setJob q k x).pwr = s.pwr := rfl
@[simp] theorem State.setJob_vault (s : State) (q k : Nat) (x : Job) : (s.setJob q k x).vault = s.vault := rfl
@[simp] theorem State.setJob_queues (s : State) (q k : Nat) (x : Job) : (s.setJob q k x).queues = s.queues := rfl
@[simp] theorem State.setJob_cmds (s : State) (q k : Nat) (x : Job) : (s.setJob q k x).cmds = s.cmds := rfl
@[simp] theorem State.setJob_nextCmd (s : State) (q k : Nat) (x : Job) : (s.setJob q k x).nextCmd = s.nextCmd := rfl
@[simp] theorem State.setJob_engines (s : State) (q k : Nat) (x : Job) : (s.setJob q k x).engines = s.engines := rfl
@[simp] theorem State.setJob_dig (s : State) (q k : Nat) (x : Job) : (s.setJob q k x).dig = s.dig := rfl
@[simp] theorem State.setJob_held (s : State) (q k : Nat) (x : Job) : (s.setJob q k x).held = s.held := rfl
@[simp] theorem State.setJob_yard (s : State) (q k : Nat) (x : Job) : (s.setJob q k x).yard = s.yard := rfl
@[simp] theorem State.setJob_rng (s : State) (q k : Nat) (x : Job) : (s.setJob q k x).rng = s.rng := rfl
@[simp] theorem State.setJob_flg (s : State) (q k : Nat) (x : Job) : (s.setJob q k x).flg = s.flg := rfl
@[simp] theorem State.setJob_ldg (s : State) (q k : Nat) (x : Job) : (s.setJob q k x).ldg = s.ldg := rfl
@[simp] theorem State.setJob_pfl (s : State) (q k : Nat) (x : Job) : (s.setJob q k x).pfl = s.pfl := rfl
@[simp] theorem State.setJob_crd (s : State) (q k : Nat) (x : Job) : (s.setJob q k x).crd = s.crd := rfl
@[simp] theorem State.setJob_ctl (s : State) (q k : Nat) (x : Job) : (s.setJob q k x).ctl = s.ctl := rfl
@[simp] theorem State.setJob_tag (s : State) (q k : Nat) (x : Job) : (s.setJob q k x).tag = s.tag := rfl
@[simp] theorem State.setJob_cust (s : State) (q k : Nat) (x : Job) : (s.setJob q k x).cust = s.cust := rfl
@[simp] theorem State.setJob_dic (s : State) (q k : Nat) (x : Job) : (s.setJob q k x).dic = s.dic := rfl
@[simp] theorem State.setJob_spdm (s : State) (q k : Nat) (x : Job) : (s.setJob q k x).spdm = s.spdm := rfl
@[simp] theorem State.setJob_lcs (s : State) (q k : Nat) (x : Job) : (s.setJob q k x).lcs = s.lcs := rfl
@[simp] theorem State.setJob_gal (s : State) (q k : Nat) (x : Job) : (s.setJob q k x).gal = s.gal := rfl
@[simp] theorem State.setJob_bus (s : State) (q k : Nat) (x : Job) : (s.setJob q k x).bus = s.bus := rfl
@[simp] theorem State.setJob_link (s : State) (q k : Nat) (x : Job) : (s.setJob q k x).link = s.link := rfl
@[simp] theorem State.setJob_out (s : State) (q k : Nat) (x : Job) : (s.setJob q k x).out = s.out := rfl
@[simp] theorem State.setJob_ram (s : State) (q k : Nat) (x : Job) : (s.setJob q k x).ram = s.ram := rfl
@[simp] theorem State.setJob_pending (s : State) (q k : Nat) (x : Job) : (s.setJob q k x).pending = s.pending := rfl

/-! ### setCtx -/

@[simp] theorem State.setCtx_ident (s : State) (n i : Nat) (x : DigCtx) : (s.setCtx n i x).ident = s.ident := rfl
@[simp] theorem State.setCtx_pw (s : State) (n i : Nat) (x : DigCtx) : (s.setCtx n i x).pw = s.pw := rfl
@[simp] theorem State.setCtx_dsp (s : State) (n i : Nat) (x : DigCtx) : (s.setCtx n i x).dsp = s.dsp := rfl
@[simp] theorem State.setCtx_benches (s : State) (n i : Nat) (x : DigCtx) : (s.setCtx n i x).benches = s.benches := rfl
@[simp] theorem State.setCtx_cores (s : State) (n i : Nat) (x : DigCtx) : (s.setCtx n i x).cores = s.cores := rfl
@[simp] theorem State.setCtx_leases (s : State) (n i : Nat) (x : DigCtx) : (s.setCtx n i x).leases = s.leases := rfl
@[simp] theorem State.setCtx_flt (s : State) (n i : Nat) (x : DigCtx) : (s.setCtx n i x).flt = s.flt := rfl
@[simp] theorem State.setCtx_pwr (s : State) (n i : Nat) (x : DigCtx) : (s.setCtx n i x).pwr = s.pwr := rfl
@[simp] theorem State.setCtx_vault (s : State) (n i : Nat) (x : DigCtx) : (s.setCtx n i x).vault = s.vault := rfl
@[simp] theorem State.setCtx_queues (s : State) (n i : Nat) (x : DigCtx) : (s.setCtx n i x).queues = s.queues := rfl
@[simp] theorem State.setCtx_cmds (s : State) (n i : Nat) (x : DigCtx) : (s.setCtx n i x).cmds = s.cmds := rfl
@[simp] theorem State.setCtx_nextCmd (s : State) (n i : Nat) (x : DigCtx) : (s.setCtx n i x).nextCmd = s.nextCmd := rfl
@[simp] theorem State.setCtx_engines (s : State) (n i : Nat) (x : DigCtx) : (s.setCtx n i x).engines = s.engines := rfl
@[simp] theorem State.setCtx_jobs (s : State) (n i : Nat) (x : DigCtx) : (s.setCtx n i x).jobs = s.jobs := rfl
@[simp] theorem State.setCtx_held (s : State) (n i : Nat) (x : DigCtx) : (s.setCtx n i x).held = s.held := rfl
@[simp] theorem State.setCtx_yard (s : State) (n i : Nat) (x : DigCtx) : (s.setCtx n i x).yard = s.yard := rfl
@[simp] theorem State.setCtx_rng (s : State) (n i : Nat) (x : DigCtx) : (s.setCtx n i x).rng = s.rng := rfl
@[simp] theorem State.setCtx_flg (s : State) (n i : Nat) (x : DigCtx) : (s.setCtx n i x).flg = s.flg := rfl
@[simp] theorem State.setCtx_ldg (s : State) (n i : Nat) (x : DigCtx) : (s.setCtx n i x).ldg = s.ldg := rfl
@[simp] theorem State.setCtx_pfl (s : State) (n i : Nat) (x : DigCtx) : (s.setCtx n i x).pfl = s.pfl := rfl
@[simp] theorem State.setCtx_crd (s : State) (n i : Nat) (x : DigCtx) : (s.setCtx n i x).crd = s.crd := rfl
@[simp] theorem State.setCtx_ctl (s : State) (n i : Nat) (x : DigCtx) : (s.setCtx n i x).ctl = s.ctl := rfl
@[simp] theorem State.setCtx_tag (s : State) (n i : Nat) (x : DigCtx) : (s.setCtx n i x).tag = s.tag := rfl
@[simp] theorem State.setCtx_cust (s : State) (n i : Nat) (x : DigCtx) : (s.setCtx n i x).cust = s.cust := rfl
@[simp] theorem State.setCtx_dic (s : State) (n i : Nat) (x : DigCtx) : (s.setCtx n i x).dic = s.dic := rfl
@[simp] theorem State.setCtx_spdm (s : State) (n i : Nat) (x : DigCtx) : (s.setCtx n i x).spdm = s.spdm := rfl
@[simp] theorem State.setCtx_lcs (s : State) (n i : Nat) (x : DigCtx) : (s.setCtx n i x).lcs = s.lcs := rfl
@[simp] theorem State.setCtx_gal (s : State) (n i : Nat) (x : DigCtx) : (s.setCtx n i x).gal = s.gal := rfl
@[simp] theorem State.setCtx_bus (s : State) (n i : Nat) (x : DigCtx) : (s.setCtx n i x).bus = s.bus := rfl
@[simp] theorem State.setCtx_link (s : State) (n i : Nat) (x : DigCtx) : (s.setCtx n i x).link = s.link := rfl
@[simp] theorem State.setCtx_out (s : State) (n i : Nat) (x : DigCtx) : (s.setCtx n i x).out = s.out := rfl
@[simp] theorem State.setCtx_ram (s : State) (n i : Nat) (x : DigCtx) : (s.setCtx n i x).ram = s.ram := rfl
@[simp] theorem State.setCtx_pending (s : State) (n i : Nat) (x : DigCtx) : (s.setCtx n i x).pending = s.pending := rfl

/-! ### setExp -/

@[simp] theorem State.setExp_ident (s : State) (e : Nat) (x : Exp) : (s.setExp e x).ident = s.ident := rfl
@[simp] theorem State.setExp_pw (s : State) (e : Nat) (x : Exp) : (s.setExp e x).pw = s.pw := rfl
@[simp] theorem State.setExp_dsp (s : State) (e : Nat) (x : Exp) : (s.setExp e x).dsp = s.dsp := rfl
@[simp] theorem State.setExp_benches (s : State) (e : Nat) (x : Exp) : (s.setExp e x).benches = s.benches := rfl
@[simp] theorem State.setExp_cores (s : State) (e : Nat) (x : Exp) : (s.setExp e x).cores = s.cores := rfl
@[simp] theorem State.setExp_leases (s : State) (e : Nat) (x : Exp) : (s.setExp e x).leases = s.leases := rfl
@[simp] theorem State.setExp_flt (s : State) (e : Nat) (x : Exp) : (s.setExp e x).flt = s.flt := rfl
@[simp] theorem State.setExp_pwr (s : State) (e : Nat) (x : Exp) : (s.setExp e x).pwr = s.pwr := rfl
@[simp] theorem State.setExp_vault (s : State) (e : Nat) (x : Exp) : (s.setExp e x).vault = s.vault := rfl
@[simp] theorem State.setExp_queues (s : State) (e : Nat) (x : Exp) : (s.setExp e x).queues = s.queues := rfl
@[simp] theorem State.setExp_cmds (s : State) (e : Nat) (x : Exp) : (s.setExp e x).cmds = s.cmds := rfl
@[simp] theorem State.setExp_nextCmd (s : State) (e : Nat) (x : Exp) : (s.setExp e x).nextCmd = s.nextCmd := rfl
@[simp] theorem State.setExp_engines (s : State) (e : Nat) (x : Exp) : (s.setExp e x).engines = s.engines := rfl
@[simp] theorem State.setExp_jobs (s : State) (e : Nat) (x : Exp) : (s.setExp e x).jobs = s.jobs := rfl
@[simp] theorem State.setExp_dig (s : State) (e : Nat) (x : Exp) : (s.setExp e x).dig = s.dig := rfl
@[simp] theorem State.setExp_held (s : State) (e : Nat) (x : Exp) : (s.setExp e x).held = s.held := rfl
@[simp] theorem State.setExp_yard (s : State) (e : Nat) (x : Exp) : (s.setExp e x).yard = s.yard := rfl
@[simp] theorem State.setExp_flg (s : State) (e : Nat) (x : Exp) : (s.setExp e x).flg = s.flg := rfl
@[simp] theorem State.setExp_ldg (s : State) (e : Nat) (x : Exp) : (s.setExp e x).ldg = s.ldg := rfl
@[simp] theorem State.setExp_pfl (s : State) (e : Nat) (x : Exp) : (s.setExp e x).pfl = s.pfl := rfl
@[simp] theorem State.setExp_crd (s : State) (e : Nat) (x : Exp) : (s.setExp e x).crd = s.crd := rfl
@[simp] theorem State.setExp_ctl (s : State) (e : Nat) (x : Exp) : (s.setExp e x).ctl = s.ctl := rfl
@[simp] theorem State.setExp_tag (s : State) (e : Nat) (x : Exp) : (s.setExp e x).tag = s.tag := rfl
@[simp] theorem State.setExp_cust (s : State) (e : Nat) (x : Exp) : (s.setExp e x).cust = s.cust := rfl
@[simp] theorem State.setExp_dic (s : State) (e : Nat) (x : Exp) : (s.setExp e x).dic = s.dic := rfl
@[simp] theorem State.setExp_spdm (s : State) (e : Nat) (x : Exp) : (s.setExp e x).spdm = s.spdm := rfl
@[simp] theorem State.setExp_lcs (s : State) (e : Nat) (x : Exp) : (s.setExp e x).lcs = s.lcs := rfl
@[simp] theorem State.setExp_gal (s : State) (e : Nat) (x : Exp) : (s.setExp e x).gal = s.gal := rfl
@[simp] theorem State.setExp_bus (s : State) (e : Nat) (x : Exp) : (s.setExp e x).bus = s.bus := rfl
@[simp] theorem State.setExp_link (s : State) (e : Nat) (x : Exp) : (s.setExp e x).link = s.link := rfl
@[simp] theorem State.setExp_out (s : State) (e : Nat) (x : Exp) : (s.setExp e x).out = s.out := rfl
@[simp] theorem State.setExp_ram (s : State) (e : Nat) (x : Exp) : (s.setExp e x).ram = s.ram := rfl
@[simp] theorem State.setExp_pending (s : State) (e : Nat) (x : Exp) : (s.setExp e x).pending = s.pending := rfl

/-! ### ramWrite -/

@[simp] theorem State.ramWrite_ident (s : State) (a : Nat) (b : Bytes) : (s.ramWrite a b).ident = s.ident := rfl
@[simp] theorem State.ramWrite_pw (s : State) (a : Nat) (b : Bytes) : (s.ramWrite a b).pw = s.pw := rfl
@[simp] theorem State.ramWrite_dsp (s : State) (a : Nat) (b : Bytes) : (s.ramWrite a b).dsp = s.dsp := rfl
@[simp] theorem State.ramWrite_benches (s : State) (a : Nat) (b : Bytes) : (s.ramWrite a b).benches = s.benches := rfl
@[simp] theorem State.ramWrite_cores (s : State) (a : Nat) (b : Bytes) : (s.ramWrite a b).cores = s.cores := rfl
@[simp] theorem State.ramWrite_leases (s : State) (a : Nat) (b : Bytes) : (s.ramWrite a b).leases = s.leases := rfl
@[simp] theorem State.ramWrite_flt (s : State) (a : Nat) (b : Bytes) : (s.ramWrite a b).flt = s.flt := rfl
@[simp] theorem State.ramWrite_pwr (s : State) (a : Nat) (b : Bytes) : (s.ramWrite a b).pwr = s.pwr := rfl
@[simp] theorem State.ramWrite_vault (s : State) (a : Nat) (b : Bytes) : (s.ramWrite a b).vault = s.vault := rfl
@[simp] theorem State.ramWrite_queues (s : State) (a : Nat) (b : Bytes) : (s.ramWrite a b).queues = s.queues := rfl
@[simp] theorem State.ramWrite_cmds (s : State) (a : Nat) (b : Bytes) : (s.ramWrite a b).cmds = s.cmds := rfl
@[simp] theorem State.ramWrite_nextCmd (s : State) (a : Nat) (b : Bytes) : (s.ramWrite a b).nextCmd = s.nextCmd := rfl
@[simp] theorem State.ramWrite_engines (s : State) (a : Nat) (b : Bytes) : (s.ramWrite a b).engines = s.engines := rfl
@[simp] theorem State.ramWrite_jobs (s : State) (a : Nat) (b : Bytes) : (s.ramWrite a b).jobs = s.jobs := rfl
@[simp] theorem State.ramWrite_dig (s : State) (a : Nat) (b : Bytes) : (s.ramWrite a b).dig = s.dig := rfl
@[simp] theorem State.ramWrite_held (s : State) (a : Nat) (b : Bytes) : (s.ramWrite a b).held = s.held := rfl
@[simp] theorem State.ramWrite_yard (s : State) (a : Nat) (b : Bytes) : (s.ramWrite a b).yard = s.yard := rfl
@[simp] theorem State.ramWrite_rng (s : State) (a : Nat) (b : Bytes) : (s.ramWrite a b).rng = s.rng := rfl
@[simp] theorem State.ramWrite_flg (s : State) (a : Nat) (b : Bytes) : (s.ramWrite a b).flg = s.flg := rfl
@[simp] theorem State.ramWrite_ldg (s : State) (a : Nat) (b : Bytes) : (s.ramWrite a b).ldg = s.ldg := rfl
@[simp] theorem State.ramWrite_pfl (s : State) (a : Nat) (b : Bytes) : (s.ramWrite a b).pfl = s.pfl := rfl
@[simp] theorem State.ramWrite_crd (s : State) (a : Nat) (b : Bytes) : (s.ramWrite a b).crd = s.crd := rfl
@[simp] theorem State.ramWrite_ctl (s : State) (a : Nat) (b : Bytes) : (s.ramWrite a b).ctl = s.ctl := rfl
@[simp] theorem State.ramWrite_tag (s : State) (a : Nat) (b : Bytes) : (s.ramWrite a b).tag = s.tag := rfl
@[simp] theorem State.ramWrite_cust (s : State) (a : Nat) (b : Bytes) : (s.ramWrite a b).cust = s.cust := rfl
@[simp] theorem State.ramWrite_dic (s : State) (a : Nat) (b : Bytes) : (s.ramWrite a b).dic = s.dic := rfl
@[simp] theorem State.ramWrite_spdm (s : State) (a : Nat) (b : Bytes) : (s.ramWrite a b).spdm = s.spdm := rfl
@[simp] theorem State.ramWrite_lcs (s : State) (a : Nat) (b : Bytes) : (s.ramWrite a b).lcs = s.lcs := rfl
@[simp] theorem State.ramWrite_gal (s : State) (a : Nat) (b : Bytes) : (s.ramWrite a b).gal = s.gal := rfl
@[simp] theorem State.ramWrite_bus (s : State) (a : Nat) (b : Bytes) : (s.ramWrite a b).bus = s.bus := rfl
@[simp] theorem State.ramWrite_link (s : State) (a : Nat) (b : Bytes) : (s.ramWrite a b).link = s.link := rfl
@[simp] theorem State.ramWrite_out (s : State) (a : Nat) (b : Bytes) : (s.ramWrite a b).out = s.out := rfl
@[simp] theorem State.ramWrite_pending (s : State) (a : Nat) (b : Bytes) : (s.ramWrite a b).pending = s.pending := rfl

/-! ### ramClear -/

@[simp] theorem State.ramClear_ident (s : State) (lo hi : Nat) : (s.ramClear lo hi).ident = s.ident := rfl
@[simp] theorem State.ramClear_pw (s : State) (lo hi : Nat) : (s.ramClear lo hi).pw = s.pw := rfl
@[simp] theorem State.ramClear_dsp (s : State) (lo hi : Nat) : (s.ramClear lo hi).dsp = s.dsp := rfl
@[simp] theorem State.ramClear_benches (s : State) (lo hi : Nat) : (s.ramClear lo hi).benches = s.benches := rfl
@[simp] theorem State.ramClear_cores (s : State) (lo hi : Nat) : (s.ramClear lo hi).cores = s.cores := rfl
@[simp] theorem State.ramClear_leases (s : State) (lo hi : Nat) : (s.ramClear lo hi).leases = s.leases := rfl
@[simp] theorem State.ramClear_flt (s : State) (lo hi : Nat) : (s.ramClear lo hi).flt = s.flt := rfl
@[simp] theorem State.ramClear_pwr (s : State) (lo hi : Nat) : (s.ramClear lo hi).pwr = s.pwr := rfl
@[simp] theorem State.ramClear_vault (s : State) (lo hi : Nat) : (s.ramClear lo hi).vault = s.vault := rfl
@[simp] theorem State.ramClear_queues (s : State) (lo hi : Nat) : (s.ramClear lo hi).queues = s.queues := rfl
@[simp] theorem State.ramClear_cmds (s : State) (lo hi : Nat) : (s.ramClear lo hi).cmds = s.cmds := rfl
@[simp] theorem State.ramClear_nextCmd (s : State) (lo hi : Nat) : (s.ramClear lo hi).nextCmd = s.nextCmd := rfl
@[simp] theorem State.ramClear_engines (s : State) (lo hi : Nat) : (s.ramClear lo hi).engines = s.engines := rfl
@[simp] theorem State.ramClear_jobs (s : State) (lo hi : Nat) : (s.ramClear lo hi).jobs = s.jobs := rfl
@[simp] theorem State.ramClear_dig (s : State) (lo hi : Nat) : (s.ramClear lo hi).dig = s.dig := rfl
@[simp] theorem State.ramClear_held (s : State) (lo hi : Nat) : (s.ramClear lo hi).held = s.held := rfl
@[simp] theorem State.ramClear_yard (s : State) (lo hi : Nat) : (s.ramClear lo hi).yard = s.yard := rfl
@[simp] theorem State.ramClear_rng (s : State) (lo hi : Nat) : (s.ramClear lo hi).rng = s.rng := rfl
@[simp] theorem State.ramClear_flg (s : State) (lo hi : Nat) : (s.ramClear lo hi).flg = s.flg := rfl
@[simp] theorem State.ramClear_ldg (s : State) (lo hi : Nat) : (s.ramClear lo hi).ldg = s.ldg := rfl
@[simp] theorem State.ramClear_pfl (s : State) (lo hi : Nat) : (s.ramClear lo hi).pfl = s.pfl := rfl
@[simp] theorem State.ramClear_crd (s : State) (lo hi : Nat) : (s.ramClear lo hi).crd = s.crd := rfl
@[simp] theorem State.ramClear_ctl (s : State) (lo hi : Nat) : (s.ramClear lo hi).ctl = s.ctl := rfl
@[simp] theorem State.ramClear_tag (s : State) (lo hi : Nat) : (s.ramClear lo hi).tag = s.tag := rfl
@[simp] theorem State.ramClear_cust (s : State) (lo hi : Nat) : (s.ramClear lo hi).cust = s.cust := rfl
@[simp] theorem State.ramClear_dic (s : State) (lo hi : Nat) : (s.ramClear lo hi).dic = s.dic := rfl
@[simp] theorem State.ramClear_spdm (s : State) (lo hi : Nat) : (s.ramClear lo hi).spdm = s.spdm := rfl
@[simp] theorem State.ramClear_lcs (s : State) (lo hi : Nat) : (s.ramClear lo hi).lcs = s.lcs := rfl
@[simp] theorem State.ramClear_gal (s : State) (lo hi : Nat) : (s.ramClear lo hi).gal = s.gal := rfl
@[simp] theorem State.ramClear_bus (s : State) (lo hi : Nat) : (s.ramClear lo hi).bus = s.bus := rfl
@[simp] theorem State.ramClear_link (s : State) (lo hi : Nat) : (s.ramClear lo hi).link = s.link := rfl
@[simp] theorem State.ramClear_out (s : State) (lo hi : Nat) : (s.ramClear lo hi).out = s.out := rfl
@[simp] theorem State.ramClear_pending (s : State) (lo hi : Nat) : (s.ramClear lo hi).pending = s.pending := rfl

/-! ### modTag -/

@[simp] theorem State.modTag_ident (s : State) (f : Tag → Tag) : (s.modTag f).ident = s.ident := rfl
@[simp] theorem State.modTag_pw (s : State) (f : Tag → Tag) : (s.modTag f).pw = s.pw := rfl
@[simp] theorem State.modTag_dsp (s : State) (f : Tag → Tag) : (s.modTag f).dsp = s.dsp := rfl
@[simp] theorem State.modTag_benches (s : State) (f : Tag → Tag) : (s.modTag f).benches = s.benches := rfl
@[simp] theorem State.modTag_cores (s : State) (f : Tag → Tag) : (s.modTag f).cores = s.cores := rfl
@[simp] theorem State.modTag_leases (s : State) (f : Tag → Tag) : (s.modTag f).leases = s.leases := rfl
@[simp] theorem State.modTag_flt (s : State) (f : Tag → Tag) : (s.modTag f).flt = s.flt := rfl
@[simp] theorem State.modTag_pwr (s : State) (f : Tag → Tag) : (s.modTag f).pwr = s.pwr := rfl
@[simp] theorem State.modTag_vault (s : State) (f : Tag → Tag) : (s.modTag f).vault = s.vault := rfl
@[simp] theorem State.modTag_queues (s : State) (f : Tag → Tag) : (s.modTag f).queues = s.queues := rfl
@[simp] theorem State.modTag_cmds (s : State) (f : Tag → Tag) : (s.modTag f).cmds = s.cmds := rfl
@[simp] theorem State.modTag_nextCmd (s : State) (f : Tag → Tag) : (s.modTag f).nextCmd = s.nextCmd := rfl
@[simp] theorem State.modTag_engines (s : State) (f : Tag → Tag) : (s.modTag f).engines = s.engines := rfl
@[simp] theorem State.modTag_jobs (s : State) (f : Tag → Tag) : (s.modTag f).jobs = s.jobs := rfl
@[simp] theorem State.modTag_dig (s : State) (f : Tag → Tag) : (s.modTag f).dig = s.dig := rfl
@[simp] theorem State.modTag_held (s : State) (f : Tag → Tag) : (s.modTag f).held = s.held := rfl
@[simp] theorem State.modTag_yard (s : State) (f : Tag → Tag) : (s.modTag f).yard = s.yard := rfl
@[simp] theorem State.modTag_rng (s : State) (f : Tag → Tag) : (s.modTag f).rng = s.rng := rfl
@[simp] theorem State.modTag_flg (s : State) (f : Tag → Tag) : (s.modTag f).flg = s.flg := rfl
@[simp] theorem State.modTag_ldg (s : State) (f : Tag → Tag) : (s.modTag f).ldg = s.ldg := rfl
@[simp] theorem State.modTag_pfl (s : State) (f : Tag → Tag) : (s.modTag f).pfl = s.pfl := rfl
@[simp] theorem State.modTag_crd (s : State) (f : Tag → Tag) : (s.modTag f).crd = s.crd := rfl
@[simp] theorem State.modTag_ctl (s : State) (f : Tag → Tag) : (s.modTag f).ctl = s.ctl := rfl
@[simp] theorem State.modTag_cust (s : State) (f : Tag → Tag) : (s.modTag f).cust = s.cust := rfl
@[simp] theorem State.modTag_dic (s : State) (f : Tag → Tag) : (s.modTag f).dic = s.dic := rfl
@[simp] theorem State.modTag_spdm (s : State) (f : Tag → Tag) : (s.modTag f).spdm = s.spdm := rfl
@[simp] theorem State.modTag_lcs (s : State) (f : Tag → Tag) : (s.modTag f).lcs = s.lcs := rfl
@[simp] theorem State.modTag_gal (s : State) (f : Tag → Tag) : (s.modTag f).gal = s.gal := rfl
@[simp] theorem State.modTag_bus (s : State) (f : Tag → Tag) : (s.modTag f).bus = s.bus := rfl
@[simp] theorem State.modTag_link (s : State) (f : Tag → Tag) : (s.modTag f).link = s.link := rfl
@[simp] theorem State.modTag_out (s : State) (f : Tag → Tag) : (s.modTag f).out = s.out := rfl
@[simp] theorem State.modTag_ram (s : State) (f : Tag → Tag) : (s.modTag f).ram = s.ram := rfl
@[simp] theorem State.modTag_pending (s : State) (f : Tag → Tag) : (s.modTag f).pending = s.pending := rfl

/-! ### modCrd -/

@[simp] theorem State.modCrd_ident (s : State) (f : Crd → Crd) : (s.modCrd f).ident = s.ident := rfl
@[simp] theorem State.modCrd_pw (s : State) (f : Crd → Crd) : (s.modCrd f).pw = s.pw := rfl
@[simp] theorem State.modCrd_dsp (s : State) (f : Crd → Crd) : (s.modCrd f).dsp = s.dsp := rfl
@[simp] theorem State.modCrd_benches (s : State) (f : Crd → Crd) : (s.modCrd f).benches = s.benches := rfl
@[simp] theorem State.modCrd_cores (s : State) (f : Crd → Crd) : (s.modCrd f).cores = s.cores := rfl
@[simp] theorem State.modCrd_leases (s : State) (f : Crd → Crd) : (s.modCrd f).leases = s.leases := rfl
@[simp] theorem State.modCrd_flt (s : State) (f : Crd → Crd) : (s.modCrd f).flt = s.flt := rfl
@[simp] theorem State.modCrd_pwr (s : State) (f : Crd → Crd) : (s.modCrd f).pwr = s.pwr := rfl
@[simp] theorem State.modCrd_vault (s : State) (f : Crd → Crd) : (s.modCrd f).vault = s.vault := rfl
@[simp] theorem State.modCrd_queues (s : State) (f : Crd → Crd) : (s.modCrd f).queues = s.queues := rfl
@[simp] theorem State.modCrd_cmds (s : State) (f : Crd → Crd) : (s.modCrd f).cmds = s.cmds := rfl
@[simp] theorem State.modCrd_nextCmd (s : State) (f : Crd → Crd) : (s.modCrd f).nextCmd = s.nextCmd := rfl
@[simp] theorem State.modCrd_engines (s : State) (f : Crd → Crd) : (s.modCrd f).engines = s.engines := rfl
@[simp] theorem State.modCrd_jobs (s : State) (f : Crd → Crd) : (s.modCrd f).jobs = s.jobs := rfl
@[simp] theorem State.modCrd_dig (s : State) (f : Crd → Crd) : (s.modCrd f).dig = s.dig := rfl
@[simp] theorem State.modCrd_held (s : State) (f : Crd → Crd) : (s.modCrd f).held = s.held := rfl
@[simp] theorem State.modCrd_yard (s : State) (f : Crd → Crd) : (s.modCrd f).yard = s.yard := rfl
@[simp] theorem State.modCrd_rng (s : State) (f : Crd → Crd) : (s.modCrd f).rng = s.rng := rfl
@[simp] theorem State.modCrd_flg (s : State) (f : Crd → Crd) : (s.modCrd f).flg = s.flg := rfl
@[simp] theorem State.modCrd_ldg (s : State) (f : Crd → Crd) : (s.modCrd f).ldg = s.ldg := rfl
@[simp] theorem State.modCrd_pfl (s : State) (f : Crd → Crd) : (s.modCrd f).pfl = s.pfl := rfl
@[simp] theorem State.modCrd_ctl (s : State) (f : Crd → Crd) : (s.modCrd f).ctl = s.ctl := rfl
@[simp] theorem State.modCrd_tag (s : State) (f : Crd → Crd) : (s.modCrd f).tag = s.tag := rfl
@[simp] theorem State.modCrd_cust (s : State) (f : Crd → Crd) : (s.modCrd f).cust = s.cust := rfl
@[simp] theorem State.modCrd_dic (s : State) (f : Crd → Crd) : (s.modCrd f).dic = s.dic := rfl
@[simp] theorem State.modCrd_spdm (s : State) (f : Crd → Crd) : (s.modCrd f).spdm = s.spdm := rfl
@[simp] theorem State.modCrd_lcs (s : State) (f : Crd → Crd) : (s.modCrd f).lcs = s.lcs := rfl
@[simp] theorem State.modCrd_gal (s : State) (f : Crd → Crd) : (s.modCrd f).gal = s.gal := rfl
@[simp] theorem State.modCrd_bus (s : State) (f : Crd → Crd) : (s.modCrd f).bus = s.bus := rfl
@[simp] theorem State.modCrd_link (s : State) (f : Crd → Crd) : (s.modCrd f).link = s.link := rfl
@[simp] theorem State.modCrd_out (s : State) (f : Crd → Crd) : (s.modCrd f).out = s.out := rfl
@[simp] theorem State.modCrd_ram (s : State) (f : Crd → Crd) : (s.modCrd f).ram = s.ram := rfl
@[simp] theorem State.modCrd_pending (s : State) (f : Crd → Crd) : (s.modCrd f).pending = s.pending := rfl

/-! ### modCtl -/

@[simp] theorem State.modCtl_ident (s : State) (f : Ctl → Ctl) : (s.modCtl f).ident = s.ident := rfl
@[simp] theorem State.modCtl_pw (s : State) (f : Ctl → Ctl) : (s.modCtl f).pw = s.pw := rfl
@[simp] theorem State.modCtl_dsp (s : State) (f : Ctl → Ctl) : (s.modCtl f).dsp = s.dsp := rfl
@[simp] theorem State.modCtl_benches (s : State) (f : Ctl → Ctl) : (s.modCtl f).benches = s.benches := rfl
@[simp] theorem State.modCtl_cores (s : State) (f : Ctl → Ctl) : (s.modCtl f).cores = s.cores := rfl
@[simp] theorem State.modCtl_leases (s : State) (f : Ctl → Ctl) : (s.modCtl f).leases = s.leases := rfl
@[simp] theorem State.modCtl_flt (s : State) (f : Ctl → Ctl) : (s.modCtl f).flt = s.flt := rfl
@[simp] theorem State.modCtl_pwr (s : State) (f : Ctl → Ctl) : (s.modCtl f).pwr = s.pwr := rfl
@[simp] theorem State.modCtl_vault (s : State) (f : Ctl → Ctl) : (s.modCtl f).vault = s.vault := rfl
@[simp] theorem State.modCtl_queues (s : State) (f : Ctl → Ctl) : (s.modCtl f).queues = s.queues := rfl
@[simp] theorem State.modCtl_cmds (s : State) (f : Ctl → Ctl) : (s.modCtl f).cmds = s.cmds := rfl
@[simp] theorem State.modCtl_nextCmd (s : State) (f : Ctl → Ctl) : (s.modCtl f).nextCmd = s.nextCmd := rfl
@[simp] theorem State.modCtl_engines (s : State) (f : Ctl → Ctl) : (s.modCtl f).engines = s.engines := rfl
@[simp] theorem State.modCtl_jobs (s : State) (f : Ctl → Ctl) : (s.modCtl f).jobs = s.jobs := rfl
@[simp] theorem State.modCtl_dig (s : State) (f : Ctl → Ctl) : (s.modCtl f).dig = s.dig := rfl
@[simp] theorem State.modCtl_held (s : State) (f : Ctl → Ctl) : (s.modCtl f).held = s.held := rfl
@[simp] theorem State.modCtl_yard (s : State) (f : Ctl → Ctl) : (s.modCtl f).yard = s.yard := rfl
@[simp] theorem State.modCtl_rng (s : State) (f : Ctl → Ctl) : (s.modCtl f).rng = s.rng := rfl
@[simp] theorem State.modCtl_flg (s : State) (f : Ctl → Ctl) : (s.modCtl f).flg = s.flg := rfl
@[simp] theorem State.modCtl_ldg (s : State) (f : Ctl → Ctl) : (s.modCtl f).ldg = s.ldg := rfl
@[simp] theorem State.modCtl_pfl (s : State) (f : Ctl → Ctl) : (s.modCtl f).pfl = s.pfl := rfl
@[simp] theorem State.modCtl_crd (s : State) (f : Ctl → Ctl) : (s.modCtl f).crd = s.crd := rfl
@[simp] theorem State.modCtl_tag (s : State) (f : Ctl → Ctl) : (s.modCtl f).tag = s.tag := rfl
@[simp] theorem State.modCtl_cust (s : State) (f : Ctl → Ctl) : (s.modCtl f).cust = s.cust := rfl
@[simp] theorem State.modCtl_dic (s : State) (f : Ctl → Ctl) : (s.modCtl f).dic = s.dic := rfl
@[simp] theorem State.modCtl_spdm (s : State) (f : Ctl → Ctl) : (s.modCtl f).spdm = s.spdm := rfl
@[simp] theorem State.modCtl_lcs (s : State) (f : Ctl → Ctl) : (s.modCtl f).lcs = s.lcs := rfl
@[simp] theorem State.modCtl_gal (s : State) (f : Ctl → Ctl) : (s.modCtl f).gal = s.gal := rfl
@[simp] theorem State.modCtl_bus (s : State) (f : Ctl → Ctl) : (s.modCtl f).bus = s.bus := rfl
@[simp] theorem State.modCtl_link (s : State) (f : Ctl → Ctl) : (s.modCtl f).link = s.link := rfl
@[simp] theorem State.modCtl_out (s : State) (f : Ctl → Ctl) : (s.modCtl f).out = s.out := rfl
@[simp] theorem State.modCtl_ram (s : State) (f : Ctl → Ctl) : (s.modCtl f).ram = s.ram := rfl
@[simp] theorem State.modCtl_pending (s : State) (f : Ctl → Ctl) : (s.modCtl f).pending = s.pending := rfl

/-! ### modCust -/

@[simp] theorem State.modCust_ident (s : State) (f : Cust → Cust) : (s.modCust f).ident = s.ident := rfl
@[simp] theorem State.modCust_pw (s : State) (f : Cust → Cust) : (s.modCust f).pw = s.pw := rfl
@[simp] theorem State.modCust_dsp (s : State) (f : Cust → Cust) : (s.modCust f).dsp = s.dsp := rfl
@[simp] theorem State.modCust_benches (s : State) (f : Cust → Cust) : (s.modCust f).benches = s.benches := rfl
@[simp] theorem State.modCust_cores (s : State) (f : Cust → Cust) : (s.modCust f).cores = s.cores := rfl
@[simp] theorem State.modCust_leases (s : State) (f : Cust → Cust) : (s.modCust f).leases = s.leases := rfl
@[simp] theorem State.modCust_flt (s : State) (f : Cust → Cust) : (s.modCust f).flt = s.flt := rfl
@[simp] theorem State.modCust_pwr (s : State) (f : Cust → Cust) : (s.modCust f).pwr = s.pwr := rfl
@[simp] theorem State.modCust_vault (s : State) (f : Cust → Cust) : (s.modCust f).vault = s.vault := rfl
@[simp] theorem State.modCust_queues (s : State) (f : Cust → Cust) : (s.modCust f).queues = s.queues := rfl
@[simp] theorem State.modCust_cmds (s : State) (f : Cust → Cust) : (s.modCust f).cmds = s.cmds := rfl
@[simp] theorem State.modCust_nextCmd (s : State) (f : Cust → Cust) : (s.modCust f).nextCmd = s.nextCmd := rfl
@[simp] theorem State.modCust_engines (s : State) (f : Cust → Cust) : (s.modCust f).engines = s.engines := rfl
@[simp] theorem State.modCust_jobs (s : State) (f : Cust → Cust) : (s.modCust f).jobs = s.jobs := rfl
@[simp] theorem State.modCust_dig (s : State) (f : Cust → Cust) : (s.modCust f).dig = s.dig := rfl
@[simp] theorem State.modCust_held (s : State) (f : Cust → Cust) : (s.modCust f).held = s.held := rfl
@[simp] theorem State.modCust_yard (s : State) (f : Cust → Cust) : (s.modCust f).yard = s.yard := rfl
@[simp] theorem State.modCust_rng (s : State) (f : Cust → Cust) : (s.modCust f).rng = s.rng := rfl
@[simp] theorem State.modCust_flg (s : State) (f : Cust → Cust) : (s.modCust f).flg = s.flg := rfl
@[simp] theorem State.modCust_ldg (s : State) (f : Cust → Cust) : (s.modCust f).ldg = s.ldg := rfl
@[simp] theorem State.modCust_pfl (s : State) (f : Cust → Cust) : (s.modCust f).pfl = s.pfl := rfl
@[simp] theorem State.modCust_crd (s : State) (f : Cust → Cust) : (s.modCust f).crd = s.crd := rfl
@[simp] theorem State.modCust_ctl (s : State) (f : Cust → Cust) : (s.modCust f).ctl = s.ctl := rfl
@[simp] theorem State.modCust_tag (s : State) (f : Cust → Cust) : (s.modCust f).tag = s.tag := rfl
@[simp] theorem State.modCust_dic (s : State) (f : Cust → Cust) : (s.modCust f).dic = s.dic := rfl
@[simp] theorem State.modCust_spdm (s : State) (f : Cust → Cust) : (s.modCust f).spdm = s.spdm := rfl
@[simp] theorem State.modCust_lcs (s : State) (f : Cust → Cust) : (s.modCust f).lcs = s.lcs := rfl
@[simp] theorem State.modCust_gal (s : State) (f : Cust → Cust) : (s.modCust f).gal = s.gal := rfl
@[simp] theorem State.modCust_bus (s : State) (f : Cust → Cust) : (s.modCust f).bus = s.bus := rfl
@[simp] theorem State.modCust_link (s : State) (f : Cust → Cust) : (s.modCust f).link = s.link := rfl
@[simp] theorem State.modCust_out (s : State) (f : Cust → Cust) : (s.modCust f).out = s.out := rfl
@[simp] theorem State.modCust_ram (s : State) (f : Cust → Cust) : (s.modCust f).ram = s.ram := rfl
@[simp] theorem State.modCust_pending (s : State) (f : Cust → Cust) : (s.modCust f).pending = s.pending := rfl

/-! ### modPfl -/

@[simp] theorem State.modPfl_ident (s : State) (f : Pfl → Pfl) : (s.modPfl f).ident = s.ident := rfl
@[simp] theorem State.modPfl_pw (s : State) (f : Pfl → Pfl) : (s.modPfl f).pw = s.pw := rfl
@[simp] theorem State.modPfl_dsp (s : State) (f : Pfl → Pfl) : (s.modPfl f).dsp = s.dsp := rfl
@[simp] theorem State.modPfl_benches (s : State) (f : Pfl → Pfl) : (s.modPfl f).benches = s.benches := rfl
@[simp] theorem State.modPfl_cores (s : State) (f : Pfl → Pfl) : (s.modPfl f).cores = s.cores := rfl
@[simp] theorem State.modPfl_leases (s : State) (f : Pfl → Pfl) : (s.modPfl f).leases = s.leases := rfl
@[simp] theorem State.modPfl_flt (s : State) (f : Pfl → Pfl) : (s.modPfl f).flt = s.flt := rfl
@[simp] theorem State.modPfl_pwr (s : State) (f : Pfl → Pfl) : (s.modPfl f).pwr = s.pwr := rfl
@[simp] theorem State.modPfl_vault (s : State) (f : Pfl → Pfl) : (s.modPfl f).vault = s.vault := rfl
@[simp] theorem State.modPfl_queues (s : State) (f : Pfl → Pfl) : (s.modPfl f).queues = s.queues := rfl
@[simp] theorem State.modPfl_cmds (s : State) (f : Pfl → Pfl) : (s.modPfl f).cmds = s.cmds := rfl
@[simp] theorem State.modPfl_nextCmd (s : State) (f : Pfl → Pfl) : (s.modPfl f).nextCmd = s.nextCmd := rfl
@[simp] theorem State.modPfl_engines (s : State) (f : Pfl → Pfl) : (s.modPfl f).engines = s.engines := rfl
@[simp] theorem State.modPfl_jobs (s : State) (f : Pfl → Pfl) : (s.modPfl f).jobs = s.jobs := rfl
@[simp] theorem State.modPfl_dig (s : State) (f : Pfl → Pfl) : (s.modPfl f).dig = s.dig := rfl
@[simp] theorem State.modPfl_held (s : State) (f : Pfl → Pfl) : (s.modPfl f).held = s.held := rfl
@[simp] theorem State.modPfl_yard (s : State) (f : Pfl → Pfl) : (s.modPfl f).yard = s.yard := rfl
@[simp] theorem State.modPfl_rng (s : State) (f : Pfl → Pfl) : (s.modPfl f).rng = s.rng := rfl
@[simp] theorem State.modPfl_flg (s : State) (f : Pfl → Pfl) : (s.modPfl f).flg = s.flg := rfl
@[simp] theorem State.modPfl_ldg (s : State) (f : Pfl → Pfl) : (s.modPfl f).ldg = s.ldg := rfl
@[simp] theorem State.modPfl_crd (s : State) (f : Pfl → Pfl) : (s.modPfl f).crd = s.crd := rfl
@[simp] theorem State.modPfl_ctl (s : State) (f : Pfl → Pfl) : (s.modPfl f).ctl = s.ctl := rfl
@[simp] theorem State.modPfl_tag (s : State) (f : Pfl → Pfl) : (s.modPfl f).tag = s.tag := rfl
@[simp] theorem State.modPfl_cust (s : State) (f : Pfl → Pfl) : (s.modPfl f).cust = s.cust := rfl
@[simp] theorem State.modPfl_dic (s : State) (f : Pfl → Pfl) : (s.modPfl f).dic = s.dic := rfl
@[simp] theorem State.modPfl_spdm (s : State) (f : Pfl → Pfl) : (s.modPfl f).spdm = s.spdm := rfl
@[simp] theorem State.modPfl_lcs (s : State) (f : Pfl → Pfl) : (s.modPfl f).lcs = s.lcs := rfl
@[simp] theorem State.modPfl_gal (s : State) (f : Pfl → Pfl) : (s.modPfl f).gal = s.gal := rfl
@[simp] theorem State.modPfl_bus (s : State) (f : Pfl → Pfl) : (s.modPfl f).bus = s.bus := rfl
@[simp] theorem State.modPfl_link (s : State) (f : Pfl → Pfl) : (s.modPfl f).link = s.link := rfl
@[simp] theorem State.modPfl_out (s : State) (f : Pfl → Pfl) : (s.modPfl f).out = s.out := rfl
@[simp] theorem State.modPfl_ram (s : State) (f : Pfl → Pfl) : (s.modPfl f).ram = s.ram := rfl
@[simp] theorem State.modPfl_pending (s : State) (f : Pfl → Pfl) : (s.modPfl f).pending = s.pending := rfl

/-! ### modFlg -/

@[simp] theorem State.modFlg_ident (s : State) (f : Flg → Flg) : (s.modFlg f).ident = s.ident := rfl
@[simp] theorem State.modFlg_pw (s : State) (f : Flg → Flg) : (s.modFlg f).pw = s.pw := rfl
@[simp] theorem State.modFlg_dsp (s : State) (f : Flg → Flg) : (s.modFlg f).dsp = s.dsp := rfl
@[simp] theorem State.modFlg_benches (s : State) (f : Flg → Flg) : (s.modFlg f).benches = s.benches := rfl
@[simp] theorem State.modFlg_cores (s : State) (f : Flg → Flg) : (s.modFlg f).cores = s.cores := rfl
@[simp] theorem State.modFlg_leases (s : State) (f : Flg → Flg) : (s.modFlg f).leases = s.leases := rfl
@[simp] theorem State.modFlg_flt (s : State) (f : Flg → Flg) : (s.modFlg f).flt = s.flt := rfl
@[simp] theorem State.modFlg_pwr (s : State) (f : Flg → Flg) : (s.modFlg f).pwr = s.pwr := rfl
@[simp] theorem State.modFlg_vault (s : State) (f : Flg → Flg) : (s.modFlg f).vault = s.vault := rfl
@[simp] theorem State.modFlg_queues (s : State) (f : Flg → Flg) : (s.modFlg f).queues = s.queues := rfl
@[simp] theorem State.modFlg_cmds (s : State) (f : Flg → Flg) : (s.modFlg f).cmds = s.cmds := rfl
@[simp] theorem State.modFlg_nextCmd (s : State) (f : Flg → Flg) : (s.modFlg f).nextCmd = s.nextCmd := rfl
@[simp] theorem State.modFlg_engines (s : State) (f : Flg → Flg) : (s.modFlg f).engines = s.engines := rfl
@[simp] theorem State.modFlg_jobs (s : State) (f : Flg → Flg) : (s.modFlg f).jobs = s.jobs := rfl
@[simp] theorem State.modFlg_dig (s : State) (f : Flg → Flg) : (s.modFlg f).dig = s.dig := rfl
@[simp] theorem State.modFlg_held (s : State) (f : Flg → Flg) : (s.modFlg f).held = s.held := rfl
@[simp] theorem State.modFlg_yard (s : State) (f : Flg → Flg) : (s.modFlg f).yard = s.yard := rfl
@[simp] theorem State.modFlg_rng (s : State) (f : Flg → Flg) : (s.modFlg f).rng = s.rng := rfl
@[simp] theorem State.modFlg_ldg (s : State) (f : Flg → Flg) : (s.modFlg f).ldg = s.ldg := rfl
@[simp] theorem State.modFlg_pfl (s : State) (f : Flg → Flg) : (s.modFlg f).pfl = s.pfl := rfl
@[simp] theorem State.modFlg_crd (s : State) (f : Flg → Flg) : (s.modFlg f).crd = s.crd := rfl
@[simp] theorem State.modFlg_ctl (s : State) (f : Flg → Flg) : (s.modFlg f).ctl = s.ctl := rfl
@[simp] theorem State.modFlg_tag (s : State) (f : Flg → Flg) : (s.modFlg f).tag = s.tag := rfl
@[simp] theorem State.modFlg_cust (s : State) (f : Flg → Flg) : (s.modFlg f).cust = s.cust := rfl
@[simp] theorem State.modFlg_dic (s : State) (f : Flg → Flg) : (s.modFlg f).dic = s.dic := rfl
@[simp] theorem State.modFlg_spdm (s : State) (f : Flg → Flg) : (s.modFlg f).spdm = s.spdm := rfl
@[simp] theorem State.modFlg_lcs (s : State) (f : Flg → Flg) : (s.modFlg f).lcs = s.lcs := rfl
@[simp] theorem State.modFlg_gal (s : State) (f : Flg → Flg) : (s.modFlg f).gal = s.gal := rfl
@[simp] theorem State.modFlg_bus (s : State) (f : Flg → Flg) : (s.modFlg f).bus = s.bus := rfl
@[simp] theorem State.modFlg_link (s : State) (f : Flg → Flg) : (s.modFlg f).link = s.link := rfl
@[simp] theorem State.modFlg_out (s : State) (f : Flg → Flg) : (s.modFlg f).out = s.out := rfl
@[simp] theorem State.modFlg_ram (s : State) (f : Flg → Flg) : (s.modFlg f).ram = s.ram := rfl
@[simp] theorem State.modFlg_pending (s : State) (f : Flg → Flg) : (s.modFlg f).pending = s.pending := rfl

/-! ### modLdg -/

@[simp] theorem State.modLdg_ident (s : State) (f : Ldg → Ldg) : (s.modLdg f).ident = s.ident := rfl
@[simp] theorem State.modLdg_pw (s : State) (f : Ldg → Ldg) : (s.modLdg f).pw = s.pw := rfl
@[simp] theorem State.modLdg_dsp (s : State) (f : Ldg → Ldg) : (s.modLdg f).dsp = s.dsp := rfl
@[simp] theorem State.modLdg_benches (s : State) (f : Ldg → Ldg) : (s.modLdg f).benches = s.benches := rfl
@[simp] theorem State.modLdg_cores (s : State) (f : Ldg → Ldg) : (s.modLdg f).cores = s.cores := rfl
@[simp] theorem State.modLdg_leases (s : State) (f : Ldg → Ldg) : (s.modLdg f).leases = s.leases := rfl
@[simp] theorem State.modLdg_flt (s : State) (f : Ldg → Ldg) : (s.modLdg f).flt = s.flt := rfl
@[simp] theorem State.modLdg_pwr (s : State) (f : Ldg → Ldg) : (s.modLdg f).pwr = s.pwr := rfl
@[simp] theorem State.modLdg_vault (s : State) (f : Ldg → Ldg) : (s.modLdg f).vault = s.vault := rfl
@[simp] theorem State.modLdg_queues (s : State) (f : Ldg → Ldg) : (s.modLdg f).queues = s.queues := rfl
@[simp] theorem State.modLdg_cmds (s : State) (f : Ldg → Ldg) : (s.modLdg f).cmds = s.cmds := rfl
@[simp] theorem State.modLdg_nextCmd (s : State) (f : Ldg → Ldg) : (s.modLdg f).nextCmd = s.nextCmd := rfl
@[simp] theorem State.modLdg_engines (s : State) (f : Ldg → Ldg) : (s.modLdg f).engines = s.engines := rfl
@[simp] theorem State.modLdg_jobs (s : State) (f : Ldg → Ldg) : (s.modLdg f).jobs = s.jobs := rfl
@[simp] theorem State.modLdg_dig (s : State) (f : Ldg → Ldg) : (s.modLdg f).dig = s.dig := rfl
@[simp] theorem State.modLdg_held (s : State) (f : Ldg → Ldg) : (s.modLdg f).held = s.held := rfl
@[simp] theorem State.modLdg_yard (s : State) (f : Ldg → Ldg) : (s.modLdg f).yard = s.yard := rfl
@[simp] theorem State.modLdg_rng (s : State) (f : Ldg → Ldg) : (s.modLdg f).rng = s.rng := rfl
@[simp] theorem State.modLdg_flg (s : State) (f : Ldg → Ldg) : (s.modLdg f).flg = s.flg := rfl
@[simp] theorem State.modLdg_pfl (s : State) (f : Ldg → Ldg) : (s.modLdg f).pfl = s.pfl := rfl
@[simp] theorem State.modLdg_crd (s : State) (f : Ldg → Ldg) : (s.modLdg f).crd = s.crd := rfl
@[simp] theorem State.modLdg_ctl (s : State) (f : Ldg → Ldg) : (s.modLdg f).ctl = s.ctl := rfl
@[simp] theorem State.modLdg_tag (s : State) (f : Ldg → Ldg) : (s.modLdg f).tag = s.tag := rfl
@[simp] theorem State.modLdg_cust (s : State) (f : Ldg → Ldg) : (s.modLdg f).cust = s.cust := rfl
@[simp] theorem State.modLdg_dic (s : State) (f : Ldg → Ldg) : (s.modLdg f).dic = s.dic := rfl
@[simp] theorem State.modLdg_spdm (s : State) (f : Ldg → Ldg) : (s.modLdg f).spdm = s.spdm := rfl
@[simp] theorem State.modLdg_lcs (s : State) (f : Ldg → Ldg) : (s.modLdg f).lcs = s.lcs := rfl
@[simp] theorem State.modLdg_gal (s : State) (f : Ldg → Ldg) : (s.modLdg f).gal = s.gal := rfl
@[simp] theorem State.modLdg_bus (s : State) (f : Ldg → Ldg) : (s.modLdg f).bus = s.bus := rfl
@[simp] theorem State.modLdg_link (s : State) (f : Ldg → Ldg) : (s.modLdg f).link = s.link := rfl
@[simp] theorem State.modLdg_out (s : State) (f : Ldg → Ldg) : (s.modLdg f).out = s.out := rfl
@[simp] theorem State.modLdg_ram (s : State) (f : Ldg → Ldg) : (s.modLdg f).ram = s.ram := rfl
@[simp] theorem State.modLdg_pending (s : State) (f : Ldg → Ldg) : (s.modLdg f).pending = s.pending := rfl

/-! ### modLcs -/

@[simp] theorem State.modLcs_ident (s : State) (f : LcsSt → LcsSt) : (s.modLcs f).ident = s.ident := rfl
@[simp] theorem State.modLcs_pw (s : State) (f : LcsSt → LcsSt) : (s.modLcs f).pw = s.pw := rfl
@[simp] theorem State.modLcs_dsp (s : State) (f : LcsSt → LcsSt) : (s.modLcs f).dsp = s.dsp := rfl
@[simp] theorem State.modLcs_benches (s : State) (f : LcsSt → LcsSt) : (s.modLcs f).benches = s.benches := rfl
@[simp] theorem State.modLcs_cores (s : State) (f : LcsSt → LcsSt) : (s.modLcs f).cores = s.cores := rfl
@[simp] theorem State.modLcs_leases (s : State) (f : LcsSt → LcsSt) : (s.modLcs f).leases = s.leases := rfl
@[simp] theorem State.modLcs_flt (s : State) (f : LcsSt → LcsSt) : (s.modLcs f).flt = s.flt := rfl
@[simp] theorem State.modLcs_pwr (s : State) (f : LcsSt → LcsSt) : (s.modLcs f).pwr = s.pwr := rfl
@[simp] theorem State.modLcs_vault (s : State) (f : LcsSt → LcsSt) : (s.modLcs f).vault = s.vault := rfl
@[simp] theorem State.modLcs_queues (s : State) (f : LcsSt → LcsSt) : (s.modLcs f).queues = s.queues := rfl
@[simp] theorem State.modLcs_cmds (s : State) (f : LcsSt → LcsSt) : (s.modLcs f).cmds = s.cmds := rfl
@[simp] theorem State.modLcs_nextCmd (s : State) (f : LcsSt → LcsSt) : (s.modLcs f).nextCmd = s.nextCmd := rfl
@[simp] theorem State.modLcs_engines (s : State) (f : LcsSt → LcsSt) : (s.modLcs f).engines = s.engines := rfl
@[simp] theorem State.modLcs_jobs (s : State) (f : LcsSt → LcsSt) : (s.modLcs f).jobs = s.jobs := rfl
@[simp] theorem State.modLcs_dig (s : State) (f : LcsSt → LcsSt) : (s.modLcs f).dig = s.dig := rfl
@[simp] theorem State.modLcs_held (s : State) (f : LcsSt → LcsSt) : (s.modLcs f).held = s.held := rfl
@[simp] theorem State.modLcs_yard (s : State) (f : LcsSt → LcsSt) : (s.modLcs f).yard = s.yard := rfl
@[simp] theorem State.modLcs_rng (s : State) (f : LcsSt → LcsSt) : (s.modLcs f).rng = s.rng := rfl
@[simp] theorem State.modLcs_flg (s : State) (f : LcsSt → LcsSt) : (s.modLcs f).flg = s.flg := rfl
@[simp] theorem State.modLcs_ldg (s : State) (f : LcsSt → LcsSt) : (s.modLcs f).ldg = s.ldg := rfl
@[simp] theorem State.modLcs_pfl (s : State) (f : LcsSt → LcsSt) : (s.modLcs f).pfl = s.pfl := rfl
@[simp] theorem State.modLcs_crd (s : State) (f : LcsSt → LcsSt) : (s.modLcs f).crd = s.crd := rfl
@[simp] theorem State.modLcs_ctl (s : State) (f : LcsSt → LcsSt) : (s.modLcs f).ctl = s.ctl := rfl
@[simp] theorem State.modLcs_tag (s : State) (f : LcsSt → LcsSt) : (s.modLcs f).tag = s.tag := rfl
@[simp] theorem State.modLcs_cust (s : State) (f : LcsSt → LcsSt) : (s.modLcs f).cust = s.cust := rfl
@[simp] theorem State.modLcs_dic (s : State) (f : LcsSt → LcsSt) : (s.modLcs f).dic = s.dic := rfl
@[simp] theorem State.modLcs_spdm (s : State) (f : LcsSt → LcsSt) : (s.modLcs f).spdm = s.spdm := rfl
@[simp] theorem State.modLcs_gal (s : State) (f : LcsSt → LcsSt) : (s.modLcs f).gal = s.gal := rfl
@[simp] theorem State.modLcs_bus (s : State) (f : LcsSt → LcsSt) : (s.modLcs f).bus = s.bus := rfl
@[simp] theorem State.modLcs_link (s : State) (f : LcsSt → LcsSt) : (s.modLcs f).link = s.link := rfl
@[simp] theorem State.modLcs_out (s : State) (f : LcsSt → LcsSt) : (s.modLcs f).out = s.out := rfl
@[simp] theorem State.modLcs_ram (s : State) (f : LcsSt → LcsSt) : (s.modLcs f).ram = s.ram := rfl
@[simp] theorem State.modLcs_pending (s : State) (f : LcsSt → LcsSt) : (s.modLcs f).pending = s.pending := rfl

/-! ### modGal -/

@[simp] theorem State.modGal_ident (s : State) (f : Gal → Gal) : (s.modGal f).ident = s.ident := rfl
@[simp] theorem State.modGal_pw (s : State) (f : Gal → Gal) : (s.modGal f).pw = s.pw := rfl
@[simp] theorem State.modGal_dsp (s : State) (f : Gal → Gal) : (s.modGal f).dsp = s.dsp := rfl
@[simp] theorem State.modGal_benches (s : State) (f : Gal → Gal) : (s.modGal f).benches = s.benches := rfl
@[simp] theorem State.modGal_cores (s : State) (f : Gal → Gal) : (s.modGal f).cores = s.cores := rfl
@[simp] theorem State.modGal_leases (s : State) (f : Gal → Gal) : (s.modGal f).leases = s.leases := rfl
@[simp] theorem State.modGal_flt (s : State) (f : Gal → Gal) : (s.modGal f).flt = s.flt := rfl
@[simp] theorem State.modGal_pwr (s : State) (f : Gal → Gal) : (s.modGal f).pwr = s.pwr := rfl
@[simp] theorem State.modGal_vault (s : State) (f : Gal → Gal) : (s.modGal f).vault = s.vault := rfl
@[simp] theorem State.modGal_queues (s : State) (f : Gal → Gal) : (s.modGal f).queues = s.queues := rfl
@[simp] theorem State.modGal_cmds (s : State) (f : Gal → Gal) : (s.modGal f).cmds = s.cmds := rfl
@[simp] theorem State.modGal_nextCmd (s : State) (f : Gal → Gal) : (s.modGal f).nextCmd = s.nextCmd := rfl
@[simp] theorem State.modGal_engines (s : State) (f : Gal → Gal) : (s.modGal f).engines = s.engines := rfl
@[simp] theorem State.modGal_jobs (s : State) (f : Gal → Gal) : (s.modGal f).jobs = s.jobs := rfl
@[simp] theorem State.modGal_dig (s : State) (f : Gal → Gal) : (s.modGal f).dig = s.dig := rfl
@[simp] theorem State.modGal_held (s : State) (f : Gal → Gal) : (s.modGal f).held = s.held := rfl
@[simp] theorem State.modGal_yard (s : State) (f : Gal → Gal) : (s.modGal f).yard = s.yard := rfl
@[simp] theorem State.modGal_rng (s : State) (f : Gal → Gal) : (s.modGal f).rng = s.rng := rfl
@[simp] theorem State.modGal_flg (s : State) (f : Gal → Gal) : (s.modGal f).flg = s.flg := rfl
@[simp] theorem State.modGal_ldg (s : State) (f : Gal → Gal) : (s.modGal f).ldg = s.ldg := rfl
@[simp] theorem State.modGal_pfl (s : State) (f : Gal → Gal) : (s.modGal f).pfl = s.pfl := rfl
@[simp] theorem State.modGal_crd (s : State) (f : Gal → Gal) : (s.modGal f).crd = s.crd := rfl
@[simp] theorem State.modGal_ctl (s : State) (f : Gal → Gal) : (s.modGal f).ctl = s.ctl := rfl
@[simp] theorem State.modGal_tag (s : State) (f : Gal → Gal) : (s.modGal f).tag = s.tag := rfl
@[simp] theorem State.modGal_cust (s : State) (f : Gal → Gal) : (s.modGal f).cust = s.cust := rfl
@[simp] theorem State.modGal_dic (s : State) (f : Gal → Gal) : (s.modGal f).dic = s.dic := rfl
@[simp] theorem State.modGal_spdm (s : State) (f : Gal → Gal) : (s.modGal f).spdm = s.spdm := rfl
@[simp] theorem State.modGal_lcs (s : State) (f : Gal → Gal) : (s.modGal f).lcs = s.lcs := rfl
@[simp] theorem State.modGal_bus (s : State) (f : Gal → Gal) : (s.modGal f).bus = s.bus := rfl
@[simp] theorem State.modGal_link (s : State) (f : Gal → Gal) : (s.modGal f).link = s.link := rfl
@[simp] theorem State.modGal_out (s : State) (f : Gal → Gal) : (s.modGal f).out = s.out := rfl
@[simp] theorem State.modGal_ram (s : State) (f : Gal → Gal) : (s.modGal f).ram = s.ram := rfl
@[simp] theorem State.modGal_pending (s : State) (f : Gal → Gal) : (s.modGal f).pending = s.pending := rfl

/-! ### modVault -/

@[simp] theorem State.modVault_ident (s : State) (f : Vault → Vault) : (s.modVault f).ident = s.ident := rfl
@[simp] theorem State.modVault_pw (s : State) (f : Vault → Vault) : (s.modVault f).pw = s.pw := rfl
@[simp] theorem State.modVault_dsp (s : State) (f : Vault → Vault) : (s.modVault f).dsp = s.dsp := rfl
@[simp] theorem State.modVault_benches (s : State) (f : Vault → Vault) : (s.modVault f).benches = s.benches := rfl
@[simp] theorem State.modVault_cores (s : State) (f : Vault → Vault) : (s.modVault f).cores = s.cores := rfl
@[simp] theorem State.modVault_leases (s : State) (f : Vault → Vault) : (s.modVault f).leases = s.leases := rfl
@[simp] theorem State.modVault_flt (s : State) (f : Vault → Vault) : (s.modVault f).flt = s.flt := rfl
@[simp] theorem State.modVault_pwr (s : State) (f : Vault → Vault) : (s.modVault f).pwr = s.pwr := rfl
@[simp] theorem State.modVault_queues (s : State) (f : Vault → Vault) : (s.modVault f).queues = s.queues := rfl
@[simp] theorem State.modVault_cmds (s : State) (f : Vault → Vault) : (s.modVault f).cmds = s.cmds := rfl
@[simp] theorem State.modVault_nextCmd (s : State) (f : Vault → Vault) : (s.modVault f).nextCmd = s.nextCmd := rfl
@[simp] theorem State.modVault_engines (s : State) (f : Vault → Vault) : (s.modVault f).engines = s.engines := rfl
@[simp] theorem State.modVault_jobs (s : State) (f : Vault → Vault) : (s.modVault f).jobs = s.jobs := rfl
@[simp] theorem State.modVault_dig (s : State) (f : Vault → Vault) : (s.modVault f).dig = s.dig := rfl
@[simp] theorem State.modVault_held (s : State) (f : Vault → Vault) : (s.modVault f).held = s.held := rfl
@[simp] theorem State.modVault_yard (s : State) (f : Vault → Vault) : (s.modVault f).yard = s.yard := rfl
@[simp] theorem State.modVault_rng (s : State) (f : Vault → Vault) : (s.modVault f).rng = s.rng := rfl
@[simp] theorem State.modVault_flg (s : State) (f : Vault → Vault) : (s.modVault f).flg = s.flg := rfl
@[simp] theorem State.modVault_ldg (s : State) (f : Vault → Vault) : (s.modVault f).ldg = s.ldg := rfl
@[simp] theorem State.modVault_pfl (s : State) (f : Vault → Vault) : (s.modVault f).pfl = s.pfl := rfl
@[simp] theorem State.modVault_crd (s : State) (f : Vault → Vault) : (s.modVault f).crd = s.crd := rfl
@[simp] theorem State.modVault_ctl (s : State) (f : Vault → Vault) : (s.modVault f).ctl = s.ctl := rfl
@[simp] theorem State.modVault_tag (s : State) (f : Vault → Vault) : (s.modVault f).tag = s.tag := rfl
@[simp] theorem State.modVault_cust (s : State) (f : Vault → Vault) : (s.modVault f).cust = s.cust := rfl
@[simp] theorem State.modVault_dic (s : State) (f : Vault → Vault) : (s.modVault f).dic = s.dic := rfl
@[simp] theorem State.modVault_spdm (s : State) (f : Vault → Vault) : (s.modVault f).spdm = s.spdm := rfl
@[simp] theorem State.modVault_lcs (s : State) (f : Vault → Vault) : (s.modVault f).lcs = s.lcs := rfl
@[simp] theorem State.modVault_gal (s : State) (f : Vault → Vault) : (s.modVault f).gal = s.gal := rfl
@[simp] theorem State.modVault_bus (s : State) (f : Vault → Vault) : (s.modVault f).bus = s.bus := rfl
@[simp] theorem State.modVault_link (s : State) (f : Vault → Vault) : (s.modVault f).link = s.link := rfl
@[simp] theorem State.modVault_out (s : State) (f : Vault → Vault) : (s.modVault f).out = s.out := rfl
@[simp] theorem State.modVault_ram (s : State) (f : Vault → Vault) : (s.modVault f).ram = s.ram := rfl
@[simp] theorem State.modVault_pending (s : State) (f : Vault → Vault) : (s.modVault f).pending = s.pending := rfl

/-! ### setEp -/

@[simp] theorem State.setEp_ident (s : State) (e : Nat) (x : Ep) : (s.setEp e x).ident = s.ident := rfl
@[simp] theorem State.setEp_pw (s : State) (e : Nat) (x : Ep) : (s.setEp e x).pw = s.pw := rfl
@[simp] theorem State.setEp_dsp (s : State) (e : Nat) (x : Ep) : (s.setEp e x).dsp = s.dsp := rfl
@[simp] theorem State.setEp_benches (s : State) (e : Nat) (x : Ep) : (s.setEp e x).benches = s.benches := rfl
@[simp] theorem State.setEp_cores (s : State) (e : Nat) (x : Ep) : (s.setEp e x).cores = s.cores := rfl
@[simp] theorem State.setEp_leases (s : State) (e : Nat) (x : Ep) : (s.setEp e x).leases = s.leases := rfl
@[simp] theorem State.setEp_flt (s : State) (e : Nat) (x : Ep) : (s.setEp e x).flt = s.flt := rfl
@[simp] theorem State.setEp_pwr (s : State) (e : Nat) (x : Ep) : (s.setEp e x).pwr = s.pwr := rfl
@[simp] theorem State.setEp_vault (s : State) (e : Nat) (x : Ep) : (s.setEp e x).vault = s.vault := rfl
@[simp] theorem State.setEp_queues (s : State) (e : Nat) (x : Ep) : (s.setEp e x).queues = s.queues := rfl
@[simp] theorem State.setEp_cmds (s : State) (e : Nat) (x : Ep) : (s.setEp e x).cmds = s.cmds := rfl
@[simp] theorem State.setEp_nextCmd (s : State) (e : Nat) (x : Ep) : (s.setEp e x).nextCmd = s.nextCmd := rfl
@[simp] theorem State.setEp_engines (s : State) (e : Nat) (x : Ep) : (s.setEp e x).engines = s.engines := rfl
@[simp] theorem State.setEp_jobs (s : State) (e : Nat) (x : Ep) : (s.setEp e x).jobs = s.jobs := rfl
@[simp] theorem State.setEp_dig (s : State) (e : Nat) (x : Ep) : (s.setEp e x).dig = s.dig := rfl
@[simp] theorem State.setEp_held (s : State) (e : Nat) (x : Ep) : (s.setEp e x).held = s.held := rfl
@[simp] theorem State.setEp_yard (s : State) (e : Nat) (x : Ep) : (s.setEp e x).yard = s.yard := rfl
@[simp] theorem State.setEp_rng (s : State) (e : Nat) (x : Ep) : (s.setEp e x).rng = s.rng := rfl
@[simp] theorem State.setEp_flg (s : State) (e : Nat) (x : Ep) : (s.setEp e x).flg = s.flg := rfl
@[simp] theorem State.setEp_ldg (s : State) (e : Nat) (x : Ep) : (s.setEp e x).ldg = s.ldg := rfl
@[simp] theorem State.setEp_pfl (s : State) (e : Nat) (x : Ep) : (s.setEp e x).pfl = s.pfl := rfl
@[simp] theorem State.setEp_crd (s : State) (e : Nat) (x : Ep) : (s.setEp e x).crd = s.crd := rfl
@[simp] theorem State.setEp_ctl (s : State) (e : Nat) (x : Ep) : (s.setEp e x).ctl = s.ctl := rfl
@[simp] theorem State.setEp_tag (s : State) (e : Nat) (x : Ep) : (s.setEp e x).tag = s.tag := rfl
@[simp] theorem State.setEp_cust (s : State) (e : Nat) (x : Ep) : (s.setEp e x).cust = s.cust := rfl
@[simp] theorem State.setEp_spdm (s : State) (e : Nat) (x : Ep) : (s.setEp e x).spdm = s.spdm := rfl
@[simp] theorem State.setEp_lcs (s : State) (e : Nat) (x : Ep) : (s.setEp e x).lcs = s.lcs := rfl
@[simp] theorem State.setEp_gal (s : State) (e : Nat) (x : Ep) : (s.setEp e x).gal = s.gal := rfl
@[simp] theorem State.setEp_bus (s : State) (e : Nat) (x : Ep) : (s.setEp e x).bus = s.bus := rfl
@[simp] theorem State.setEp_link (s : State) (e : Nat) (x : Ep) : (s.setEp e x).link = s.link := rfl
@[simp] theorem State.setEp_out (s : State) (e : Nat) (x : Ep) : (s.setEp e x).out = s.out := rfl
@[simp] theorem State.setEp_ram (s : State) (e : Nat) (x : Ep) : (s.setEp e x).ram = s.ram := rfl
@[simp] theorem State.setEp_pending (s : State) (e : Nat) (x : Ep) : (s.setEp e x).pending = s.pending := rfl

/-! ### setConn -/

@[simp] theorem State.setConn_ident (s : State) (c : Nat) (x : SConn) : (s.setConn c x).ident = s.ident := rfl
@[simp] theorem State.setConn_pw (s : State) (c : Nat) (x : SConn) : (s.setConn c x).pw = s.pw := rfl
@[simp] theorem State.setConn_dsp (s : State) (c : Nat) (x : SConn) : (s.setConn c x).dsp = s.dsp := rfl
@[simp] theorem State.setConn_benches (s : State) (c : Nat) (x : SConn) : (s.setConn c x).benches = s.benches := rfl
@[simp] theorem State.setConn_cores (s : State) (c : Nat) (x : SConn) : (s.setConn c x).cores = s.cores := rfl
@[simp] theorem State.setConn_leases (s : State) (c : Nat) (x : SConn) : (s.setConn c x).leases = s.leases := rfl
@[simp] theorem State.setConn_flt (s : State) (c : Nat) (x : SConn) : (s.setConn c x).flt = s.flt := rfl
@[simp] theorem State.setConn_pwr (s : State) (c : Nat) (x : SConn) : (s.setConn c x).pwr = s.pwr := rfl
@[simp] theorem State.setConn_vault (s : State) (c : Nat) (x : SConn) : (s.setConn c x).vault = s.vault := rfl
@[simp] theorem State.setConn_queues (s : State) (c : Nat) (x : SConn) : (s.setConn c x).queues = s.queues := rfl
@[simp] theorem State.setConn_cmds (s : State) (c : Nat) (x : SConn) : (s.setConn c x).cmds = s.cmds := rfl
@[simp] theorem State.setConn_nextCmd (s : State) (c : Nat) (x : SConn) : (s.setConn c x).nextCmd = s.nextCmd := rfl
@[simp] theorem State.setConn_engines (s : State) (c : Nat) (x : SConn) : (s.setConn c x).engines = s.engines := rfl
@[simp] theorem State.setConn_jobs (s : State) (c : Nat) (x : SConn) : (s.setConn c x).jobs = s.jobs := rfl
@[simp] theorem State.setConn_dig (s : State) (c : Nat) (x : SConn) : (s.setConn c x).dig = s.dig := rfl
@[simp] theorem State.setConn_held (s : State) (c : Nat) (x : SConn) : (s.setConn c x).held = s.held := rfl
@[simp] theorem State.setConn_yard (s : State) (c : Nat) (x : SConn) : (s.setConn c x).yard = s.yard := rfl
@[simp] theorem State.setConn_rng (s : State) (c : Nat) (x : SConn) : (s.setConn c x).rng = s.rng := rfl
@[simp] theorem State.setConn_flg (s : State) (c : Nat) (x : SConn) : (s.setConn c x).flg = s.flg := rfl
@[simp] theorem State.setConn_ldg (s : State) (c : Nat) (x : SConn) : (s.setConn c x).ldg = s.ldg := rfl
@[simp] theorem State.setConn_pfl (s : State) (c : Nat) (x : SConn) : (s.setConn c x).pfl = s.pfl := rfl
@[simp] theorem State.setConn_crd (s : State) (c : Nat) (x : SConn) : (s.setConn c x).crd = s.crd := rfl
@[simp] theorem State.setConn_ctl (s : State) (c : Nat) (x : SConn) : (s.setConn c x).ctl = s.ctl := rfl
@[simp] theorem State.setConn_tag (s : State) (c : Nat) (x : SConn) : (s.setConn c x).tag = s.tag := rfl
@[simp] theorem State.setConn_cust (s : State) (c : Nat) (x : SConn) : (s.setConn c x).cust = s.cust := rfl
@[simp] theorem State.setConn_dic (s : State) (c : Nat) (x : SConn) : (s.setConn c x).dic = s.dic := rfl
@[simp] theorem State.setConn_lcs (s : State) (c : Nat) (x : SConn) : (s.setConn c x).lcs = s.lcs := rfl
@[simp] theorem State.setConn_gal (s : State) (c : Nat) (x : SConn) : (s.setConn c x).gal = s.gal := rfl
@[simp] theorem State.setConn_bus (s : State) (c : Nat) (x : SConn) : (s.setConn c x).bus = s.bus := rfl
@[simp] theorem State.setConn_link (s : State) (c : Nat) (x : SConn) : (s.setConn c x).link = s.link := rfl
@[simp] theorem State.setConn_out (s : State) (c : Nat) (x : SConn) : (s.setConn c x).out = s.out := rfl
@[simp] theorem State.setConn_ram (s : State) (c : Nat) (x : SConn) : (s.setConn c x).ram = s.ram := rfl
@[simp] theorem State.setConn_pending (s : State) (c : Nat) (x : SConn) : (s.setConn c x).pending = s.pending := rfl

/-! ### setPort -/

@[simp] theorem State.setPort_ident (s : State) (k : Nat) (p : LoadPort) : (s.setPort k p).ident = s.ident := rfl
@[simp] theorem State.setPort_pw (s : State) (k : Nat) (p : LoadPort) : (s.setPort k p).pw = s.pw := rfl
@[simp] theorem State.setPort_dsp (s : State) (k : Nat) (p : LoadPort) : (s.setPort k p).dsp = s.dsp := rfl
@[simp] theorem State.setPort_benches (s : State) (k : Nat) (p : LoadPort) : (s.setPort k p).benches = s.benches := rfl
@[simp] theorem State.setPort_cores (s : State) (k : Nat) (p : LoadPort) : (s.setPort k p).cores = s.cores := rfl
@[simp] theorem State.setPort_leases (s : State) (k : Nat) (p : LoadPort) : (s.setPort k p).leases = s.leases := rfl
@[simp] theorem State.setPort_flt (s : State) (k : Nat) (p : LoadPort) : (s.setPort k p).flt = s.flt := rfl
@[simp] theorem State.setPort_pwr (s : State) (k : Nat) (p : LoadPort) : (s.setPort k p).pwr = s.pwr := rfl
@[simp] theorem State.setPort_vault (s : State) (k : Nat) (p : LoadPort) : (s.setPort k p).vault = s.vault := rfl
@[simp] theorem State.setPort_queues (s : State) (k : Nat) (p : LoadPort) : (s.setPort k p).queues = s.queues := rfl
@[simp] theorem State.setPort_cmds (s : State) (k : Nat) (p : LoadPort) : (s.setPort k p).cmds = s.cmds := rfl
@[simp] theorem State.setPort_nextCmd (s : State) (k : Nat) (p : LoadPort) : (s.setPort k p).nextCmd = s.nextCmd := rfl
@[simp] theorem State.setPort_engines (s : State) (k : Nat) (p : LoadPort) : (s.setPort k p).engines = s.engines := rfl
@[simp] theorem State.setPort_jobs (s : State) (k : Nat) (p : LoadPort) : (s.setPort k p).jobs = s.jobs := rfl
@[simp] theorem State.setPort_dig (s : State) (k : Nat) (p : LoadPort) : (s.setPort k p).dig = s.dig := rfl
@[simp] theorem State.setPort_held (s : State) (k : Nat) (p : LoadPort) : (s.setPort k p).held = s.held := rfl
@[simp] theorem State.setPort_rng (s : State) (k : Nat) (p : LoadPort) : (s.setPort k p).rng = s.rng := rfl
@[simp] theorem State.setPort_flg (s : State) (k : Nat) (p : LoadPort) : (s.setPort k p).flg = s.flg := rfl
@[simp] theorem State.setPort_ldg (s : State) (k : Nat) (p : LoadPort) : (s.setPort k p).ldg = s.ldg := rfl
@[simp] theorem State.setPort_pfl (s : State) (k : Nat) (p : LoadPort) : (s.setPort k p).pfl = s.pfl := rfl
@[simp] theorem State.setPort_crd (s : State) (k : Nat) (p : LoadPort) : (s.setPort k p).crd = s.crd := rfl
@[simp] theorem State.setPort_ctl (s : State) (k : Nat) (p : LoadPort) : (s.setPort k p).ctl = s.ctl := rfl
@[simp] theorem State.setPort_tag (s : State) (k : Nat) (p : LoadPort) : (s.setPort k p).tag = s.tag := rfl
@[simp] theorem State.setPort_cust (s : State) (k : Nat) (p : LoadPort) : (s.setPort k p).cust = s.cust := rfl
@[simp] theorem State.setPort_dic (s : State) (k : Nat) (p : LoadPort) : (s.setPort k p).dic = s.dic := rfl
@[simp] theorem State.setPort_spdm (s : State) (k : Nat) (p : LoadPort) : (s.setPort k p).spdm = s.spdm := rfl
@[simp] theorem State.setPort_lcs (s : State) (k : Nat) (p : LoadPort) : (s.setPort k p).lcs = s.lcs := rfl
@[simp] theorem State.setPort_gal (s : State) (k : Nat) (p : LoadPort) : (s.setPort k p).gal = s.gal := rfl
@[simp] theorem State.setPort_bus (s : State) (k : Nat) (p : LoadPort) : (s.setPort k p).bus = s.bus := rfl
@[simp] theorem State.setPort_link (s : State) (k : Nat) (p : LoadPort) : (s.setPort k p).link = s.link := rfl
@[simp] theorem State.setPort_out (s : State) (k : Nat) (p : LoadPort) : (s.setPort k p).out = s.out := rfl
@[simp] theorem State.setPort_ram (s : State) (k : Nat) (p : LoadPort) : (s.setPort k p).ram = s.ram := rfl
@[simp] theorem State.setPort_pending (s : State) (k : Nat) (p : LoadPort) : (s.setPort k p).pending = s.pending := rfl

/-! ### Fields written whole -/

@[simp] theorem State.modTag_tag (s : State) (f : Tag → Tag) : (s.modTag f).tag = f s.tag := rfl
@[simp] theorem State.modCrd_crd (s : State) (f : Crd → Crd) : (s.modCrd f).crd = f s.crd := rfl
@[simp] theorem State.modCtl_ctl (s : State) (f : Ctl → Ctl) : (s.modCtl f).ctl = f s.ctl := rfl
@[simp] theorem State.modCust_cust (s : State) (f : Cust → Cust) : (s.modCust f).cust = f s.cust := rfl
@[simp] theorem State.modPfl_pfl (s : State) (f : Pfl → Pfl) : (s.modPfl f).pfl = f s.pfl := rfl
@[simp] theorem State.modFlg_flg (s : State) (f : Flg → Flg) : (s.modFlg f).flg = f s.flg := rfl
@[simp] theorem State.modLdg_ldg (s : State) (f : Ldg → Ldg) : (s.modLdg f).ldg = f s.ldg := rfl
@[simp] theorem State.modLcs_lcs (s : State) (f : LcsSt → LcsSt) : (s.modLcs f).lcs = f s.lcs := rfl
@[simp] theorem State.modGal_gal (s : State) (f : Gal → Gal) : (s.modGal f).gal = f s.gal := rfl
@[simp] theorem State.modVault_vault (s : State) (f : Vault → Vault) : (s.modVault f).vault = f s.vault := rfl

/-! ### Modifiers -/

@[simp] theorem State.modBench_eq (s : State) (n : Nat) (f : Bench → Bench) : s.modBench n f = s.setBench n (f (s.bench n)) := rfl
@[simp] theorem State.modCore_eq (s : State) (n : Nat) (f : Core → Core) : s.modCore n f = s.setCore n (f (s.core n)) := rfl
@[simp] theorem State.modLease_eq (s : State) (n : Nat) (f : Lease → Lease) : s.modLease n f = s.setLease n (f (s.lease n)) := rfl
@[simp] theorem State.modEngine_eq (s : State) (n : Nat) (f : Engine → Engine) : s.modEngine n f = s.setEngine n (f (s.engine n)) := rfl
@[simp] theorem State.modQueue_eq (s : State) (k q : Nat) (f : Queue → Queue) : s.modQueue k q f = s.setQueue k q (f (s.queue k q)) := rfl
@[simp] theorem State.modJob_eq (s : State) (k q : Nat) (f : Job → Job) : s.modJob k q f = s.setJob k q (f (s.job k q)) := rfl

/-! ### Readers after writers -/

theorem State.bench_set (s : State) (i j : Nat) (x : Bench) : (s.setBench i x).bench j = if j = i then x else s.bench j := tget_tset ..
@[simp] theorem State.bench_set_same (s : State) (i : Nat) (x : Bench) : (s.setBench i x).bench i = x := tget_tset_same ..
theorem State.bench_set_ne (s : State) {i j : Nat} (x : Bench) (h : j ≠ i) : (s.setBench i x).bench j = s.bench j := tget_tset_ne _ _ _ h
theorem State.core_set (s : State) (i j : Nat) (x : Core) : (s.setCore i x).core j = if j = i then x else s.core j := tget_tset ..
@[simp] theorem State.core_set_same (s : State) (i : Nat) (x : Core) : (s.setCore i x).core i = x := tget_tset_same ..
theorem State.core_set_ne (s : State) {i j : Nat} (x : Core) (h : j ≠ i) : (s.setCore i x).core j = s.core j := tget_tset_ne _ _ _ h
theorem State.lease_set (s : State) (i j : Nat) (x : Lease) : (s.setLease i x).lease j = if j = i then x else s.lease j := tget_tset ..
@[simp] theorem State.lease_set_same (s : State) (i : Nat) (x : Lease) : (s.setLease i x).lease i = x := tget_tset_same ..
theorem State.lease_set_ne (s : State) {i j : Nat} (x : Lease) (h : j ≠ i) : (s.setLease i x).lease j = s.lease j := tget_tset_ne _ _ _ h
theorem State.engine_set (s : State) (i j : Nat) (x : Engine) : (s.setEngine i x).engine j = if j = i then x else s.engine j := tget_tset ..
@[simp] theorem State.engine_set_same (s : State) (i : Nat) (x : Engine) : (s.setEngine i x).engine i = x := tget_tset_same ..
theorem State.engine_set_ne (s : State) {i j : Nat} (x : Engine) (h : j ≠ i) : (s.setEngine i x).engine j = s.engine j := tget_tset_ne _ _ _ h
theorem State.exp_set (s : State) (i j : Nat) (x : Exp) : (s.setExp i x).exp j = if j = i then x else s.exp j := tget_tset ..
@[simp] theorem State.exp_set_same (s : State) (i : Nat) (x : Exp) : (s.setExp i x).exp i = x := tget_tset_same ..
theorem State.exp_set_ne (s : State) {i j : Nat} (x : Exp) (h : j ≠ i) : (s.setExp i x).exp j = s.exp j := tget_tset_ne _ _ _ h
@[simp] theorem State.queue_set_same (s : State) (k q : Nat) (x : Queue) : (s.setQueue k q x).queue k q = x := tget_tset_same ..
@[simp] theorem State.job_set_same (s : State) (q k : Nat) (x : Job) : (s.setJob q k x).job q k = x := tget_tset_same ..
@[simp] theorem State.ctx_set_same (s : State) (n i : Nat) (x : DigCtx) : (s.setCtx n i x).ctx n i = x := tget_tset_same ..
theorem State.cmd_set (s : State) (h i : Nat) (c : Cmd) : (s.setCmd h c).cmd i = if i = h then some c else s.cmd i := tfind_tput ..
@[simp] theorem State.cmd_set_same (s : State) (h : Nat) (c : Cmd) : (s.setCmd h c).cmd h = some c := tfind_tput_same ..

/-! ### Readers of other tables -/

@[simp] theorem State.core_setBench (s : State) (n : Nat) (b : Bench) (i : Nat) : (s.setBench n b).core i = s.core i := rfl
@[simp] theorem State.lease_setBench (s : State) (n : Nat) (b : Bench) (i : Nat) : (s.setBench n b).lease i = s.lease i := rfl
@[simp] theorem State.queue_setBench (s : State) (n : Nat) (b : Bench) (i j : Nat) : (s.setBench n b).queue i j = s.queue i j := rfl
@[simp] theorem State.cmd_setBench (s : State) (n : Nat) (b : Bench) (i : Nat) : (s.setBench n b).cmd i = s.cmd i := rfl
@[simp] theorem State.engine_setBench (s : State) (n : Nat) (b : Bench) (i : Nat) : (s.setBench n b).engine i = s.engine i := rfl
@[simp] theorem State.job_setBench (s : State) (n : Nat) (b : Bench) (i j : Nat) : (s.setBench n b).job i j = s.job i j := rfl
@[simp] theorem State.ctx_setBench (s : State) (n : Nat) (b : Bench) (i j : Nat) : (s.setBench n b).ctx i j = s.ctx i j := rfl
@[simp] theorem State.exp_setBench (s : State) (n : Nat) (b : Bench) (i : Nat) : (s.setBench n b).exp i = s.exp i := rfl
@[simp] theorem State.bench_setCore (s : State) (c : Nat) (x : Core) (i : Nat) : (s.setCore c x).bench i = s.bench i := rfl
@[simp] theorem State.lease_setCore (s : State) (c : Nat) (x : Core) (i : Nat) : (s.setCore c x).lease i = s.lease i := rfl
@[simp] theorem State.queue_setCore (s : State) (c : Nat) (x : Core) (i j : Nat) : (s.setCore c x).queue i j = s.queue i j := rfl
@[simp] theorem State.cmd_setCore (s : State) (c : Nat) (x : Core) (i : Nat) : (s.setCore c x).cmd i = s.cmd i := rfl
@[simp] theorem State.engine_setCore (s : State) (c : Nat) (x : Core) (i : Nat) : (s.setCore c x).engine i = s.engine i := rfl
@[simp] theorem State.job_setCore (s : State) (c : Nat) (x : Core) (i j : Nat) : (s.setCore c x).job i j = s.job i j := rfl
@[simp] theorem State.ctx_setCore (s : State) (c : Nat) (x : Core) (i j : Nat) : (s.setCore c x).ctx i j = s.ctx i j := rfl
@[simp] theorem State.exp_setCore (s : State) (c : Nat) (x : Core) (i : Nat) : (s.setCore c x).exp i = s.exp i := rfl
@[simp] theorem State.bench_setLease (s : State) (k : Nat) (x : Lease) (i : Nat) : (s.setLease k x).bench i = s.bench i := rfl
@[simp] theorem State.core_setLease (s : State) (k : Nat) (x : Lease) (i : Nat) : (s.setLease k x).core i = s.core i := rfl
@[simp] theorem State.queue_setLease (s : State) (k : Nat) (x : Lease) (i j : Nat) : (s.setLease k x).queue i j = s.queue i j := rfl
@[simp] theorem State.cmd_setLease (s : State) (k : Nat) (x : Lease) (i : Nat) : (s.setLease k x).cmd i = s.cmd i := rfl
@[simp] theorem State.engine_setLease (s : State) (k : Nat) (x : Lease) (i : Nat) : (s.setLease k x).engine i = s.engine i := rfl
@[simp] theorem State.job_setLease (s : State) (k : Nat) (x : Lease) (i j : Nat) : (s.setLease k x).job i j = s.job i j := rfl
@[simp] theorem State.ctx_setLease (s : State) (k : Nat) (x : Lease) (i j : Nat) : (s.setLease k x).ctx i j = s.ctx i j := rfl
@[simp] theorem State.exp_setLease (s : State) (k : Nat) (x : Lease) (i : Nat) : (s.setLease k x).exp i = s.exp i := rfl
@[simp] theorem State.bench_setQueue (s : State) (k q : Nat) (x : Queue) (i : Nat) : (s.setQueue k q x).bench i = s.bench i := rfl
@[simp] theorem State.core_setQueue (s : State) (k q : Nat) (x : Queue) (i : Nat) : (s.setQueue k q x).core i = s.core i := rfl
@[simp] theorem State.lease_setQueue (s : State) (k q : Nat) (x : Queue) (i : Nat) : (s.setQueue k q x).lease i = s.lease i := rfl
@[simp] theorem State.cmd_setQueue (s : State) (k q : Nat) (x : Queue) (i : Nat) : (s.setQueue k q x).cmd i = s.cmd i := rfl
@[simp] theorem State.engine_setQueue (s : State) (k q : Nat) (x : Queue) (i : Nat) : (s.setQueue k q x).engine i = s.engine i := rfl
@[simp] theorem State.job_setQueue (s : State) (k q : Nat) (x : Queue) (i j : Nat) : (s.setQueue k q x).job i j = s.job i j := rfl
@[simp] theorem State.ctx_setQueue (s : State) (k q : Nat) (x : Queue) (i j : Nat) : (s.setQueue k q x).ctx i j = s.ctx i j := rfl
@[simp] theorem State.exp_setQueue (s : State) (k q : Nat) (x : Queue) (i : Nat) : (s.setQueue k q x).exp i = s.exp i := rfl
@[simp] theorem State.bench_setCmd (s : State) (h : Nat) (c : Cmd) (i : Nat) : (s.setCmd h c).bench i = s.bench i := rfl
@[simp] theorem State.core_setCmd (s : State) (h : Nat) (c : Cmd) (i : Nat) : (s.setCmd h c).core i = s.core i := rfl
@[simp] theorem State.lease_setCmd (s : State) (h : Nat) (c : Cmd) (i : Nat) : (s.setCmd h c).lease i = s.lease i := rfl
@[simp] theorem State.queue_setCmd (s : State) (h : Nat) (c : Cmd) (i j : Nat) : (s.setCmd h c).queue i j = s.queue i j := rfl
@[simp] theorem State.engine_setCmd (s : State) (h : Nat) (c : Cmd) (i : Nat) : (s.setCmd h c).engine i = s.engine i := rfl
@[simp] theorem State.job_setCmd (s : State) (h : Nat) (c : Cmd) (i j : Nat) : (s.setCmd h c).job i j = s.job i j := rfl
@[simp] theorem State.ctx_setCmd (s : State) (h : Nat) (c : Cmd) (i j : Nat) : (s.setCmd h c).ctx i j = s.ctx i j := rfl
@[simp] theorem State.exp_setCmd (s : State) (h : Nat) (c : Cmd) (i : Nat) : (s.setCmd h c).exp i = s.exp i := rfl
@[simp] theorem State.bench_dropCmd (s : State) (h : Nat) (i : Nat) : (s.dropCmd h).bench i = s.bench i := rfl
@[simp] theorem State.core_dropCmd (s : State) (h : Nat) (i : Nat) : (s.dropCmd h).core i = s.core i := rfl
@[simp] theorem State.lease_dropCmd (s : State) (h : Nat) (i : Nat) : (s.dropCmd h).lease i = s.lease i := rfl
@[simp] theorem State.queue_dropCmd (s : State) (h : Nat) (i j : Nat) : (s.dropCmd h).queue i j = s.queue i j := rfl
@[simp] theorem State.engine_dropCmd (s : State) (h : Nat) (i : Nat) : (s.dropCmd h).engine i = s.engine i := rfl
@[simp] theorem State.job_dropCmd (s : State) (h : Nat) (i j : Nat) : (s.dropCmd h).job i j = s.job i j := rfl
@[simp] theorem State.ctx_dropCmd (s : State) (h : Nat) (i j : Nat) : (s.dropCmd h).ctx i j = s.ctx i j := rfl
@[simp] theorem State.exp_dropCmd (s : State) (h : Nat) (i : Nat) : (s.dropCmd h).exp i = s.exp i := rfl
@[simp] theorem State.bench_setEngine (s : State) (q : Nat) (x : Engine) (i : Nat) : (s.setEngine q x).bench i = s.bench i := rfl
@[simp] theorem State.core_setEngine (s : State) (q : Nat) (x : Engine) (i : Nat) : (s.setEngine q x).core i = s.core i := rfl
@[simp] theorem State.lease_setEngine (s : State) (q : Nat) (x : Engine) (i : Nat) : (s.setEngine q x).lease i = s.lease i := rfl
@[simp] theorem State.queue_setEngine (s : State) (q : Nat) (x : Engine) (i j : Nat) : (s.setEngine q x).queue i j = s.queue i j := rfl
@[simp] theorem State.cmd_setEngine (s : State) (q : Nat) (x : Engine) (i : Nat) : (s.setEngine q x).cmd i = s.cmd i := rfl
@[simp] theorem State.job_setEngine (s : State) (q : Nat) (x : Engine) (i j : Nat) : (s.setEngine q x).job i j = s.job i j := rfl
@[simp] theorem State.ctx_setEngine (s : State) (q : Nat) (x : Engine) (i j : Nat) : (s.setEngine q x).ctx i j = s.ctx i j := rfl
@[simp] theorem State.exp_setEngine (s : State) (q : Nat) (x : Engine) (i : Nat) : (s.setEngine q x).exp i = s.exp i := rfl
@[simp] theorem State.bench_setJob (s : State) (q k : Nat) (x : Job) (i : Nat) : (s.setJob q k x).bench i = s.bench i := rfl
@[simp] theorem State.core_setJob (s : State) (q k : Nat) (x : Job) (i : Nat) : (s.setJob q k x).core i = s.core i := rfl
@[simp] theorem State.lease_setJob (s : State) (q k : Nat) (x : Job) (i : Nat) : (s.setJob q k x).lease i = s.lease i := rfl
@[simp] theorem State.queue_setJob (s : State) (q k : Nat) (x : Job) (i j : Nat) : (s.setJob q k x).queue i j = s.queue i j := rfl
@[simp] theorem State.cmd_setJob (s : State) (q k : Nat) (x : Job) (i : Nat) : (s.setJob q k x).cmd i = s.cmd i := rfl
@[simp] theorem State.engine_setJob (s : State) (q k : Nat) (x : Job) (i : Nat) : (s.setJob q k x).engine i = s.engine i := rfl
@[simp] theorem State.ctx_setJob (s : State) (q k : Nat) (x : Job) (i j : Nat) : (s.setJob q k x).ctx i j = s.ctx i j := rfl
@[simp] theorem State.exp_setJob (s : State) (q k : Nat) (x : Job) (i : Nat) : (s.setJob q k x).exp i = s.exp i := rfl
@[simp] theorem State.bench_setCtx (s : State) (m g : Nat) (x : DigCtx) (i : Nat) : (s.setCtx m g x).bench i = s.bench i := rfl
@[simp] theorem State.core_setCtx (s : State) (m g : Nat) (x : DigCtx) (i : Nat) : (s.setCtx m g x).core i = s.core i := rfl
@[simp] theorem State.lease_setCtx (s : State) (m g : Nat) (x : DigCtx) (i : Nat) : (s.setCtx m g x).lease i = s.lease i := rfl
@[simp] theorem State.queue_setCtx (s : State) (m g : Nat) (x : DigCtx) (i j : Nat) : (s.setCtx m g x).queue i j = s.queue i j := rfl
@[simp] theorem State.cmd_setCtx (s : State) (m g : Nat) (x : DigCtx) (i : Nat) : (s.setCtx m g x).cmd i = s.cmd i := rfl
@[simp] theorem State.engine_setCtx (s : State) (m g : Nat) (x : DigCtx) (i : Nat) : (s.setCtx m g x).engine i = s.engine i := rfl
@[simp] theorem State.job_setCtx (s : State) (m g : Nat) (x : DigCtx) (i j : Nat) : (s.setCtx m g x).job i j = s.job i j := rfl
@[simp] theorem State.exp_setCtx (s : State) (m g : Nat) (x : DigCtx) (i : Nat) : (s.setCtx m g x).exp i = s.exp i := rfl
@[simp] theorem State.bench_setExp (s : State) (e : Nat) (x : Exp) (i : Nat) : (s.setExp e x).bench i = s.bench i := rfl
@[simp] theorem State.core_setExp (s : State) (e : Nat) (x : Exp) (i : Nat) : (s.setExp e x).core i = s.core i := rfl
@[simp] theorem State.lease_setExp (s : State) (e : Nat) (x : Exp) (i : Nat) : (s.setExp e x).lease i = s.lease i := rfl
@[simp] theorem State.queue_setExp (s : State) (e : Nat) (x : Exp) (i j : Nat) : (s.setExp e x).queue i j = s.queue i j := rfl
@[simp] theorem State.cmd_setExp (s : State) (e : Nat) (x : Exp) (i : Nat) : (s.setExp e x).cmd i = s.cmd i := rfl
@[simp] theorem State.engine_setExp (s : State) (e : Nat) (x : Exp) (i : Nat) : (s.setExp e x).engine i = s.engine i := rfl
@[simp] theorem State.job_setExp (s : State) (e : Nat) (x : Exp) (i j : Nat) : (s.setExp e x).job i j = s.job i j := rfl
@[simp] theorem State.ctx_setExp (s : State) (e : Nat) (x : Exp) (i j : Nat) : (s.setExp e x).ctx i j = s.ctx i j := rfl
@[simp] theorem State.bench_ramWrite (s : State) (a : Nat) (b : Bytes) (i : Nat) : (s.ramWrite a b).bench i = s.bench i := rfl
@[simp] theorem State.core_ramWrite (s : State) (a : Nat) (b : Bytes) (i : Nat) : (s.ramWrite a b).core i = s.core i := rfl
@[simp] theorem State.lease_ramWrite (s : State) (a : Nat) (b : Bytes) (i : Nat) : (s.ramWrite a b).lease i = s.lease i := rfl
@[simp] theorem State.queue_ramWrite (s : State) (a : Nat) (b : Bytes) (i j : Nat) : (s.ramWrite a b).queue i j = s.queue i j := rfl
@[simp] theorem State.cmd_ramWrite (s : State) (a : Nat) (b : Bytes) (i : Nat) : (s.ramWrite a b).cmd i = s.cmd i := rfl
@[simp] theorem State.engine_ramWrite (s : State) (a : Nat) (b : Bytes) (i : Nat) : (s.ramWrite a b).engine i = s.engine i := rfl
@[simp] theorem State.job_ramWrite (s : State) (a : Nat) (b : Bytes) (i j : Nat) : (s.ramWrite a b).job i j = s.job i j := rfl
@[simp] theorem State.ctx_ramWrite (s : State) (a : Nat) (b : Bytes) (i j : Nat) : (s.ramWrite a b).ctx i j = s.ctx i j := rfl
@[simp] theorem State.exp_ramWrite (s : State) (a : Nat) (b : Bytes) (i : Nat) : (s.ramWrite a b).exp i = s.exp i := rfl
@[simp] theorem State.bench_ramClear (s : State) (lo hi : Nat) (i : Nat) : (s.ramClear lo hi).bench i = s.bench i := rfl
@[simp] theorem State.core_ramClear (s : State) (lo hi : Nat) (i : Nat) : (s.ramClear lo hi).core i = s.core i := rfl
@[simp] theorem State.lease_ramClear (s : State) (lo hi : Nat) (i : Nat) : (s.ramClear lo hi).lease i = s.lease i := rfl
@[simp] theorem State.queue_ramClear (s : State) (lo hi : Nat) (i j : Nat) : (s.ramClear lo hi).queue i j = s.queue i j := rfl
@[simp] theorem State.cmd_ramClear (s : State) (lo hi : Nat) (i : Nat) : (s.ramClear lo hi).cmd i = s.cmd i := rfl
@[simp] theorem State.engine_ramClear (s : State) (lo hi : Nat) (i : Nat) : (s.ramClear lo hi).engine i = s.engine i := rfl
@[simp] theorem State.job_ramClear (s : State) (lo hi : Nat) (i j : Nat) : (s.ramClear lo hi).job i j = s.job i j := rfl
@[simp] theorem State.ctx_ramClear (s : State) (lo hi : Nat) (i j : Nat) : (s.ramClear lo hi).ctx i j = s.ctx i j := rfl
@[simp] theorem State.exp_ramClear (s : State) (lo hi : Nat) (i : Nat) : (s.ramClear lo hi).exp i = s.exp i := rfl
@[simp] theorem State.bench_modTag (s : State) (f : Tag → Tag) (i : Nat) : (s.modTag f).bench i = s.bench i := rfl
@[simp] theorem State.core_modTag (s : State) (f : Tag → Tag) (i : Nat) : (s.modTag f).core i = s.core i := rfl
@[simp] theorem State.lease_modTag (s : State) (f : Tag → Tag) (i : Nat) : (s.modTag f).lease i = s.lease i := rfl
@[simp] theorem State.queue_modTag (s : State) (f : Tag → Tag) (i j : Nat) : (s.modTag f).queue i j = s.queue i j := rfl
@[simp] theorem State.cmd_modTag (s : State) (f : Tag → Tag) (i : Nat) : (s.modTag f).cmd i = s.cmd i := rfl
@[simp] theorem State.engine_modTag (s : State) (f : Tag → Tag) (i : Nat) : (s.modTag f).engine i = s.engine i := rfl
@[simp] theorem State.job_modTag (s : State) (f : Tag → Tag) (i j : Nat) : (s.modTag f).job i j = s.job i j := rfl
@[simp] theorem State.ctx_modTag (s : State) (f : Tag → Tag) (i j : Nat) : (s.modTag f).ctx i j = s.ctx i j := rfl
@[simp] theorem State.exp_modTag (s : State) (f : Tag → Tag) (i : Nat) : (s.modTag f).exp i = s.exp i := rfl
@[simp] theorem State.bench_modCrd (s : State) (f : Crd → Crd) (i : Nat) : (s.modCrd f).bench i = s.bench i := rfl
@[simp] theorem State.core_modCrd (s : State) (f : Crd → Crd) (i : Nat) : (s.modCrd f).core i = s.core i := rfl
@[simp] theorem State.lease_modCrd (s : State) (f : Crd → Crd) (i : Nat) : (s.modCrd f).lease i = s.lease i := rfl
@[simp] theorem State.queue_modCrd (s : State) (f : Crd → Crd) (i j : Nat) : (s.modCrd f).queue i j = s.queue i j := rfl
@[simp] theorem State.cmd_modCrd (s : State) (f : Crd → Crd) (i : Nat) : (s.modCrd f).cmd i = s.cmd i := rfl
@[simp] theorem State.engine_modCrd (s : State) (f : Crd → Crd) (i : Nat) : (s.modCrd f).engine i = s.engine i := rfl
@[simp] theorem State.job_modCrd (s : State) (f : Crd → Crd) (i j : Nat) : (s.modCrd f).job i j = s.job i j := rfl
@[simp] theorem State.ctx_modCrd (s : State) (f : Crd → Crd) (i j : Nat) : (s.modCrd f).ctx i j = s.ctx i j := rfl
@[simp] theorem State.exp_modCrd (s : State) (f : Crd → Crd) (i : Nat) : (s.modCrd f).exp i = s.exp i := rfl
@[simp] theorem State.bench_modCtl (s : State) (f : Ctl → Ctl) (i : Nat) : (s.modCtl f).bench i = s.bench i := rfl
@[simp] theorem State.core_modCtl (s : State) (f : Ctl → Ctl) (i : Nat) : (s.modCtl f).core i = s.core i := rfl
@[simp] theorem State.lease_modCtl (s : State) (f : Ctl → Ctl) (i : Nat) : (s.modCtl f).lease i = s.lease i := rfl
@[simp] theorem State.queue_modCtl (s : State) (f : Ctl → Ctl) (i j : Nat) : (s.modCtl f).queue i j = s.queue i j := rfl
@[simp] theorem State.cmd_modCtl (s : State) (f : Ctl → Ctl) (i : Nat) : (s.modCtl f).cmd i = s.cmd i := rfl
@[simp] theorem State.engine_modCtl (s : State) (f : Ctl → Ctl) (i : Nat) : (s.modCtl f).engine i = s.engine i := rfl
@[simp] theorem State.job_modCtl (s : State) (f : Ctl → Ctl) (i j : Nat) : (s.modCtl f).job i j = s.job i j := rfl
@[simp] theorem State.ctx_modCtl (s : State) (f : Ctl → Ctl) (i j : Nat) : (s.modCtl f).ctx i j = s.ctx i j := rfl
@[simp] theorem State.exp_modCtl (s : State) (f : Ctl → Ctl) (i : Nat) : (s.modCtl f).exp i = s.exp i := rfl
@[simp] theorem State.bench_modCust (s : State) (f : Cust → Cust) (i : Nat) : (s.modCust f).bench i = s.bench i := rfl
@[simp] theorem State.core_modCust (s : State) (f : Cust → Cust) (i : Nat) : (s.modCust f).core i = s.core i := rfl
@[simp] theorem State.lease_modCust (s : State) (f : Cust → Cust) (i : Nat) : (s.modCust f).lease i = s.lease i := rfl
@[simp] theorem State.queue_modCust (s : State) (f : Cust → Cust) (i j : Nat) : (s.modCust f).queue i j = s.queue i j := rfl
@[simp] theorem State.cmd_modCust (s : State) (f : Cust → Cust) (i : Nat) : (s.modCust f).cmd i = s.cmd i := rfl
@[simp] theorem State.engine_modCust (s : State) (f : Cust → Cust) (i : Nat) : (s.modCust f).engine i = s.engine i := rfl
@[simp] theorem State.job_modCust (s : State) (f : Cust → Cust) (i j : Nat) : (s.modCust f).job i j = s.job i j := rfl
@[simp] theorem State.ctx_modCust (s : State) (f : Cust → Cust) (i j : Nat) : (s.modCust f).ctx i j = s.ctx i j := rfl
@[simp] theorem State.exp_modCust (s : State) (f : Cust → Cust) (i : Nat) : (s.modCust f).exp i = s.exp i := rfl
@[simp] theorem State.bench_modPfl (s : State) (f : Pfl → Pfl) (i : Nat) : (s.modPfl f).bench i = s.bench i := rfl
@[simp] theorem State.core_modPfl (s : State) (f : Pfl → Pfl) (i : Nat) : (s.modPfl f).core i = s.core i := rfl
@[simp] theorem State.lease_modPfl (s : State) (f : Pfl → Pfl) (i : Nat) : (s.modPfl f).lease i = s.lease i := rfl
@[simp] theorem State.queue_modPfl (s : State) (f : Pfl → Pfl) (i j : Nat) : (s.modPfl f).queue i j = s.queue i j := rfl
@[simp] theorem State.cmd_modPfl (s : State) (f : Pfl → Pfl) (i : Nat) : (s.modPfl f).cmd i = s.cmd i := rfl
@[simp] theorem State.engine_modPfl (s : State) (f : Pfl → Pfl) (i : Nat) : (s.modPfl f).engine i = s.engine i := rfl
@[simp] theorem State.job_modPfl (s : State) (f : Pfl → Pfl) (i j : Nat) : (s.modPfl f).job i j = s.job i j := rfl
@[simp] theorem State.ctx_modPfl (s : State) (f : Pfl → Pfl) (i j : Nat) : (s.modPfl f).ctx i j = s.ctx i j := rfl
@[simp] theorem State.exp_modPfl (s : State) (f : Pfl → Pfl) (i : Nat) : (s.modPfl f).exp i = s.exp i := rfl
@[simp] theorem State.bench_modFlg (s : State) (f : Flg → Flg) (i : Nat) : (s.modFlg f).bench i = s.bench i := rfl
@[simp] theorem State.core_modFlg (s : State) (f : Flg → Flg) (i : Nat) : (s.modFlg f).core i = s.core i := rfl
@[simp] theorem State.lease_modFlg (s : State) (f : Flg → Flg) (i : Nat) : (s.modFlg f).lease i = s.lease i := rfl
@[simp] theorem State.queue_modFlg (s : State) (f : Flg → Flg) (i j : Nat) : (s.modFlg f).queue i j = s.queue i j := rfl
@[simp] theorem State.cmd_modFlg (s : State) (f : Flg → Flg) (i : Nat) : (s.modFlg f).cmd i = s.cmd i := rfl
@[simp] theorem State.engine_modFlg (s : State) (f : Flg → Flg) (i : Nat) : (s.modFlg f).engine i = s.engine i := rfl
@[simp] theorem State.job_modFlg (s : State) (f : Flg → Flg) (i j : Nat) : (s.modFlg f).job i j = s.job i j := rfl
@[simp] theorem State.ctx_modFlg (s : State) (f : Flg → Flg) (i j : Nat) : (s.modFlg f).ctx i j = s.ctx i j := rfl
@[simp] theorem State.exp_modFlg (s : State) (f : Flg → Flg) (i : Nat) : (s.modFlg f).exp i = s.exp i := rfl
@[simp] theorem State.bench_modLdg (s : State) (f : Ldg → Ldg) (i : Nat) : (s.modLdg f).bench i = s.bench i := rfl
@[simp] theorem State.core_modLdg (s : State) (f : Ldg → Ldg) (i : Nat) : (s.modLdg f).core i = s.core i := rfl
@[simp] theorem State.lease_modLdg (s : State) (f : Ldg → Ldg) (i : Nat) : (s.modLdg f).lease i = s.lease i := rfl
@[simp] theorem State.queue_modLdg (s : State) (f : Ldg → Ldg) (i j : Nat) : (s.modLdg f).queue i j = s.queue i j := rfl
@[simp] theorem State.cmd_modLdg (s : State) (f : Ldg → Ldg) (i : Nat) : (s.modLdg f).cmd i = s.cmd i := rfl
@[simp] theorem State.engine_modLdg (s : State) (f : Ldg → Ldg) (i : Nat) : (s.modLdg f).engine i = s.engine i := rfl
@[simp] theorem State.job_modLdg (s : State) (f : Ldg → Ldg) (i j : Nat) : (s.modLdg f).job i j = s.job i j := rfl
@[simp] theorem State.ctx_modLdg (s : State) (f : Ldg → Ldg) (i j : Nat) : (s.modLdg f).ctx i j = s.ctx i j := rfl
@[simp] theorem State.exp_modLdg (s : State) (f : Ldg → Ldg) (i : Nat) : (s.modLdg f).exp i = s.exp i := rfl
@[simp] theorem State.bench_modLcs (s : State) (f : LcsSt → LcsSt) (i : Nat) : (s.modLcs f).bench i = s.bench i := rfl
@[simp] theorem State.core_modLcs (s : State) (f : LcsSt → LcsSt) (i : Nat) : (s.modLcs f).core i = s.core i := rfl
@[simp] theorem State.lease_modLcs (s : State) (f : LcsSt → LcsSt) (i : Nat) : (s.modLcs f).lease i = s.lease i := rfl
@[simp] theorem State.queue_modLcs (s : State) (f : LcsSt → LcsSt) (i j : Nat) : (s.modLcs f).queue i j = s.queue i j := rfl
@[simp] theorem State.cmd_modLcs (s : State) (f : LcsSt → LcsSt) (i : Nat) : (s.modLcs f).cmd i = s.cmd i := rfl
@[simp] theorem State.engine_modLcs (s : State) (f : LcsSt → LcsSt) (i : Nat) : (s.modLcs f).engine i = s.engine i := rfl
@[simp] theorem State.job_modLcs (s : State) (f : LcsSt → LcsSt) (i j : Nat) : (s.modLcs f).job i j = s.job i j := rfl
@[simp] theorem State.ctx_modLcs (s : State) (f : LcsSt → LcsSt) (i j : Nat) : (s.modLcs f).ctx i j = s.ctx i j := rfl
@[simp] theorem State.exp_modLcs (s : State) (f : LcsSt → LcsSt) (i : Nat) : (s.modLcs f).exp i = s.exp i := rfl
@[simp] theorem State.bench_modGal (s : State) (f : Gal → Gal) (i : Nat) : (s.modGal f).bench i = s.bench i := rfl
@[simp] theorem State.core_modGal (s : State) (f : Gal → Gal) (i : Nat) : (s.modGal f).core i = s.core i := rfl
@[simp] theorem State.lease_modGal (s : State) (f : Gal → Gal) (i : Nat) : (s.modGal f).lease i = s.lease i := rfl
@[simp] theorem State.queue_modGal (s : State) (f : Gal → Gal) (i j : Nat) : (s.modGal f).queue i j = s.queue i j := rfl
@[simp] theorem State.cmd_modGal (s : State) (f : Gal → Gal) (i : Nat) : (s.modGal f).cmd i = s.cmd i := rfl
@[simp] theorem State.engine_modGal (s : State) (f : Gal → Gal) (i : Nat) : (s.modGal f).engine i = s.engine i := rfl
@[simp] theorem State.job_modGal (s : State) (f : Gal → Gal) (i j : Nat) : (s.modGal f).job i j = s.job i j := rfl
@[simp] theorem State.ctx_modGal (s : State) (f : Gal → Gal) (i j : Nat) : (s.modGal f).ctx i j = s.ctx i j := rfl
@[simp] theorem State.exp_modGal (s : State) (f : Gal → Gal) (i : Nat) : (s.modGal f).exp i = s.exp i := rfl
@[simp] theorem State.bench_modVault (s : State) (f : Vault → Vault) (i : Nat) : (s.modVault f).bench i = s.bench i := rfl
@[simp] theorem State.core_modVault (s : State) (f : Vault → Vault) (i : Nat) : (s.modVault f).core i = s.core i := rfl
@[simp] theorem State.lease_modVault (s : State) (f : Vault → Vault) (i : Nat) : (s.modVault f).lease i = s.lease i := rfl
@[simp] theorem State.queue_modVault (s : State) (f : Vault → Vault) (i j : Nat) : (s.modVault f).queue i j = s.queue i j := rfl
@[simp] theorem State.cmd_modVault (s : State) (f : Vault → Vault) (i : Nat) : (s.modVault f).cmd i = s.cmd i := rfl
@[simp] theorem State.engine_modVault (s : State) (f : Vault → Vault) (i : Nat) : (s.modVault f).engine i = s.engine i := rfl
@[simp] theorem State.job_modVault (s : State) (f : Vault → Vault) (i j : Nat) : (s.modVault f).job i j = s.job i j := rfl
@[simp] theorem State.ctx_modVault (s : State) (f : Vault → Vault) (i j : Nat) : (s.modVault f).ctx i j = s.ctx i j := rfl
@[simp] theorem State.exp_modVault (s : State) (f : Vault → Vault) (i : Nat) : (s.modVault f).exp i = s.exp i := rfl
@[simp] theorem State.bench_setEp (s : State) (e : Nat) (x : Ep) (i : Nat) : (s.setEp e x).bench i = s.bench i := rfl
@[simp] theorem State.core_setEp (s : State) (e : Nat) (x : Ep) (i : Nat) : (s.setEp e x).core i = s.core i := rfl
@[simp] theorem State.lease_setEp (s : State) (e : Nat) (x : Ep) (i : Nat) : (s.setEp e x).lease i = s.lease i := rfl
@[simp] theorem State.queue_setEp (s : State) (e : Nat) (x : Ep) (i j : Nat) : (s.setEp e x).queue i j = s.queue i j := rfl
@[simp] theorem State.cmd_setEp (s : State) (e : Nat) (x : Ep) (i : Nat) : (s.setEp e x).cmd i = s.cmd i := rfl
@[simp] theorem State.engine_setEp (s : State) (e : Nat) (x : Ep) (i : Nat) : (s.setEp e x).engine i = s.engine i := rfl
@[simp] theorem State.job_setEp (s : State) (e : Nat) (x : Ep) (i j : Nat) : (s.setEp e x).job i j = s.job i j := rfl
@[simp] theorem State.ctx_setEp (s : State) (e : Nat) (x : Ep) (i j : Nat) : (s.setEp e x).ctx i j = s.ctx i j := rfl
@[simp] theorem State.exp_setEp (s : State) (e : Nat) (x : Ep) (i : Nat) : (s.setEp e x).exp i = s.exp i := rfl
@[simp] theorem State.bench_setConn (s : State) (c : Nat) (x : SConn) (i : Nat) : (s.setConn c x).bench i = s.bench i := rfl
@[simp] theorem State.core_setConn (s : State) (c : Nat) (x : SConn) (i : Nat) : (s.setConn c x).core i = s.core i := rfl
@[simp] theorem State.lease_setConn (s : State) (c : Nat) (x : SConn) (i : Nat) : (s.setConn c x).lease i = s.lease i := rfl
@[simp] theorem State.queue_setConn (s : State) (c : Nat) (x : SConn) (i j : Nat) : (s.setConn c x).queue i j = s.queue i j := rfl
@[simp] theorem State.cmd_setConn (s : State) (c : Nat) (x : SConn) (i : Nat) : (s.setConn c x).cmd i = s.cmd i := rfl
@[simp] theorem State.engine_setConn (s : State) (c : Nat) (x : SConn) (i : Nat) : (s.setConn c x).engine i = s.engine i := rfl
@[simp] theorem State.job_setConn (s : State) (c : Nat) (x : SConn) (i j : Nat) : (s.setConn c x).job i j = s.job i j := rfl
@[simp] theorem State.ctx_setConn (s : State) (c : Nat) (x : SConn) (i j : Nat) : (s.setConn c x).ctx i j = s.ctx i j := rfl
@[simp] theorem State.exp_setConn (s : State) (c : Nat) (x : SConn) (i : Nat) : (s.setConn c x).exp i = s.exp i := rfl
@[simp] theorem State.bench_setPort (s : State) (k : Nat) (p : LoadPort) (i : Nat) : (s.setPort k p).bench i = s.bench i := rfl
@[simp] theorem State.core_setPort (s : State) (k : Nat) (p : LoadPort) (i : Nat) : (s.setPort k p).core i = s.core i := rfl
@[simp] theorem State.lease_setPort (s : State) (k : Nat) (p : LoadPort) (i : Nat) : (s.setPort k p).lease i = s.lease i := rfl
@[simp] theorem State.queue_setPort (s : State) (k : Nat) (p : LoadPort) (i j : Nat) : (s.setPort k p).queue i j = s.queue i j := rfl
@[simp] theorem State.cmd_setPort (s : State) (k : Nat) (p : LoadPort) (i : Nat) : (s.setPort k p).cmd i = s.cmd i := rfl
@[simp] theorem State.engine_setPort (s : State) (k : Nat) (p : LoadPort) (i : Nat) : (s.setPort k p).engine i = s.engine i := rfl
@[simp] theorem State.job_setPort (s : State) (k : Nat) (p : LoadPort) (i j : Nat) : (s.setPort k p).job i j = s.job i j := rfl
@[simp] theorem State.ctx_setPort (s : State) (k : Nat) (p : LoadPort) (i j : Nat) : (s.setPort k p).ctx i j = s.ctx i j := rfl
@[simp] theorem State.exp_setPort (s : State) (k : Nat) (p : LoadPort) (i : Nat) : (s.setPort k p).exp i = s.exp i := rfl

end Sys2Proof.Machine
end

