-- ==== Sys2Proof/Laws/Commands.lean ====
section
/-! SUPPORT. What ends a command: the outcome of a part, and the last tick of a catalogue command. -/

namespace Sys2Proof.Machine
open Sys2Proof

@[simp] theorem cmd_setCmd (s : State) (h : Nat) (c : Cmd) : (s.setCmd h c).cmd h = some c := by simp [State.cmd, State.setCmd]

/-- Where no first tick waits, there is none to run. -/
theorem runFirsts_nil {s : State} (n : Nat) (h : s.dsp.due = []) : runFirsts n s = s := by
  have e : { s with dsp := { s.dsp with due := [] } } = s := by rw [← h]
  unfold runFirsts
  rw [h]
  exact e

/-- The end of the only part of a command ends it in the part's last tick: its status, its output where that is OK, its reservations to go; nothing
else of the state changes. -/
theorem endPart_ends {h st : Nat} {out : Bytes} {c : Cmd} {s : State} (hc : s.cmd h = some c) (hb : c.b = none) (hr : c.result = none) :
    ∃ d x y, (endPart h false st out s).cmd h = some d ∧ d.result = some (st, 0) ∧ d.out = (if st = 0 then out else []) ∧ d.doneAt = c.a.lastAt ∧
      endPart h false st out s = { s with cmds := x, yard := { s.yard with freed := y } } := by
  unfold endPart
  simp only [hc]
  unfold settleParts
  simp [Cmd.setPart, Cmd.part, Part.wiped, hb, endCmdAt, hr, joinStatus, Cmd.lastTick, releaseSlots]
  exact ⟨rfl, _, _, rfl⟩

/-- What the row of a part that has run its count does. -/
theorem finish_of_ripe {op h : Nat} {b bad : Bool} {f : Cmd → Part → State → Nat × Bytes × State} {c : Cmd} {s : State} (hc : s.cmd h = some c)
    (hr : c.ripe op b = true) (hd : s.dsp.due = []) (he : (s.engine (s.partEngine h b)).erased = none) :
    finish op h b bad f s =
      if bad then endPart h b 0x0131 [] (faultCheck ((c.part b).eng.getD 0) s)
      else endPart h b (f c (c.part b) s).1 (f c (c.part b) s).2.1 (f c (c.part b) s).2.2 := by
  unfold finish
  simp only [runFirsts_nil _ hd, hc, hr, he]
  simp

end Sys2Proof.Machine
end

