-- ==== Sys2Proof/Laws/Events.lean ====
section
/-! SUPPORT. What raising an event can change, and what it leaves alone (R423-R431, R400, R185). -/

namespace Sys2Proof.Machine
open Sys2Proof

/-- The parts of State that no event changes. An event changes the event unit, what a quarantine or the latch changes (benches, leases,
vault, gallery, ceremony, engines, jobs), digest contexts, slot reservations, generations and the free-value counter. -/
structure Unmoved (s t : State) : Prop where
  ident : t.ident = s.ident
  pw : { t.pw with free := s.pw.free } = s.pw
  dsp : t.dsp = s.dsp
  cores : t.cores = s.cores
  pwr : t.pwr = s.pwr
  queues : t.queues = s.queues
  cmds : t.cmds = s.cmds
  nextCmd : t.nextCmd = s.nextCmd
  held : t.held = s.held
  slots : t.yard.slots = s.yard.slots
  rng : t.rng = s.rng
  flg : t.flg = s.flg
  ldg : t.ldg = s.ldg
  pfl : t.pfl = s.pfl
  crd : t.crd = s.crd
  ctl : t.ctl = s.ctl
  tag : t.tag = s.tag
  eps : t.dic.eps = s.dic.eps
  spdm : t.spdm = s.spdm
  lcs : t.lcs = s.lcs
  bus : t.bus = s.bus
  link : t.link = s.link
  out : t.out = s.out
  ram : t.ram = s.ram
  pending : t.pending = s.pending
  log : t.vault.log = s.vault.log
  staging : t.vault.staging = s.vault.staging
  bedrock : t.vault.bedrock = s.vault.bedrock
  rtc : t.vault.rtc = s.vault.rtc
  sev : t.flt.sev = s.flt.sev
  fltLock : t.flt.lock = s.flt.lock
  route : t.flt.route = s.flt.route

theorem Unmoved.rfl {s : State} : Unmoved s s := by constructor <;> first | exact Eq.refl _

theorem Unmoved.trans {s t u : State} (h : Unmoved s t) (k : Unmoved t u) : Unmoved s u where
  ident := k.ident.trans h.ident
  pw := by rw [← h.pw, ← k.pw]
  dsp := k.dsp.trans h.dsp
  cores := k.cores.trans h.cores
  pwr := k.pwr.trans h.pwr
  queues := k.queues.trans h.queues
  cmds := k.cmds.trans h.cmds
  nextCmd := k.nextCmd.trans h.nextCmd
  held := k.held.trans h.held
  slots := k.slots.trans h.slots
  rng := k.rng.trans h.rng
  flg := k.flg.trans h.flg
  ldg := k.ldg.trans h.ldg
  pfl := k.pfl.trans h.pfl
  crd := k.crd.trans h.crd
  ctl := k.ctl.trans h.ctl
  tag := k.tag.trans h.tag
  eps := k.eps.trans h.eps
  spdm := k.spdm.trans h.spdm
  lcs := k.lcs.trans h.lcs
  bus := k.bus.trans h.bus
  link := k.link.trans h.link
  out := k.out.trans h.out
  ram := k.ram.trans h.ram
  pending := k.pending.trans h.pending
  log := k.log.trans h.log
  staging := k.staging.trans h.staging
  bedrock := k.bedrock.trans h.bedrock
  rtc := k.rtc.trans h.rtc
  sev := k.sev.trans h.sev
  fltLock := k.fltLock.trans h.fltLock
  route := k.route.trans h.route

/-- A choice between two states that leave these parts alone leaves them alone. -/
theorem Unmoved.ite {p : Prop} [Decidable p] {s t u : State} (h : Unmoved s t) (k : Unmoved s u) : Unmoved s (if p then t else u) := by
  split <;> assumption

theorem Unmoved.foldl {α : Type} {f : State → α → State} (h : ∀ s x, Unmoved s (f s x)) (l : List α) (s : State) : Unmoved s (l.foldl f s) := by
  induction l generalizing s with
  | nil => exact Unmoved.rfl
  | cons x l ih => exact (h s x).trans (ih _)

theorem recordEvent_unmoved (e sev k : Nat) (inj : Bool) (s : State) : Unmoved s (recordEvent e sev k inj s) := by
  unfold recordEvent
  split <;> constructor <;> exact Eq.refl _

theorem queueEvent_unmoved (x : EvEntry) (s : State) : Unmoved s (queueEvent x s) := by
  unfold queueEvent
  split <;> constructor <;> exact Eq.refl _

theorem eraseWedge_unmoved (q st : Nat) (p : Nat → Bool) (s : State) : Unmoved s (eraseWedge q st p s) := by constructor <;> exact Eq.refl _

theorem forN_unmoved {f : Nat → State → State} (h : ∀ i s, Unmoved s (f i s)) (n : Nat) (s : State) : Unmoved s (forN n f s) :=
  Unmoved.foldl (fun s i => h i s) _ s

/-- A step taken under a condition. -/
theorem Unmoved.step {p : Prop} [Decidable p] {s t : State} (f : State → State) (hf : ∀ t, Unmoved t (f t)) (h : Unmoved s t) :
    Unmoved s (if p then f t else t) := (h.trans (hf t)).ite h

theorem setBench_unmoved (n : Nat) (b : Bench) (s : State) : Unmoved s (s.setBench n b) := by constructor <;> exact Eq.refl _
theorem setLease_unmoved (k : Nat) (l : Lease) (s : State) : Unmoved s (s.setLease k l) := by constructor <;> exact Eq.refl _

theorem pendBench_unmoved (n cause : Nat) (s : State) : Unmoved s (pendBench n cause s) := by
  unfold pendBench
  dsimp only
  split
  · exact Unmoved.rfl
  · split
    · exact (setBench_unmoved _ _ _).trans (eraseWedge_unmoved _ _ _ _)
    · exact (setBench_unmoved _ _ _).ite Unmoved.rfl

theorem pendLease_unmoved (k : Nat) (s : State) : Unmoved s (pendLease k s) := by
  unfold pendLease
  dsimp only
  split
  · exact Unmoved.rfl
  · exact (setLease_unmoved _ _ _).trans (forN_unmoved (fun _ t => Unmoved.step _ (fun u => eraseWedge_unmoved _ _ _ u) Unmoved.rfl) _ _)

theorem latchOnly_unmoved (cause : Nat) (s : State) : Unmoved s (latchOnly cause s) := by
  unfold latchOnly
  dsimp only
  repeat' split
  all_goals first | exact Unmoved.rfl | (constructor <;> exact Eq.refl _)

theorem lapseGallery_unmoved (s : State) : Unmoved s (lapseGallery s) := by
  unfold lapseGallery
  dsimp only
  split <;> (constructor <;> exact Eq.refl _)

theorem closeCeremony_unmoved (reason : Nat) (s : State) : Unmoved s (closeCeremony reason s) := by
  unfold closeCeremony
  split
  · exact Unmoved.rfl
  · constructor <;> exact Eq.refl _

theorem grants_unmoved (s : State) : Unmoved s { s with leases := s.leases.map fun e => (e.1, e.2.endGrant) } := by
  constructor <;> exact Eq.refl _

theorem setLatch_unmoved (cause : Nat) (s : State) : Unmoved s (setLatch cause s) := by
  have w : ∀ t : State, Unmoved t (forN 17 (fun n s => if n < s.nBench || n = 16 then eraseWedge (5 * n + 3) 0x0133 (fun _ => true) s else s) t) :=
    forN_unmoved (fun i t => Unmoved.step _ (fun u => eraseWedge_unmoved _ _ _ u) Unmoved.rfl) 17
  exact ((((latchOnly_unmoved cause s).trans (grants_unmoved _)).trans (w _)).trans (closeCeremony_unmoved 2 _)).trans (lapseGallery_unmoved _)

theorem counted_unmoved (e : Nat) (s : State) :
    Unmoved s { s with flt := { s.flt with count := tset 0 s.flt.count e (satAdd (tget 0 s.flt.count e) 1) } } := by
  constructor <;> exact Eq.refl _

theorem pulse_unmoved (s : State) : Unmoved s { s with flt := { s.flt with
    pulseEnd := some (s.pw.now + 40)
    pulseFrom := if s.flt.pulseEnd.any (s.pw.now ≤ ·) then s.flt.pulseFrom else s.pw.now + 1 } } := by
  constructor <;> exact Eq.refl _

/-- Raising an event, before what it clears in digest contexts. -/
theorem raise0_unmoved (e k : Nat) (inj : Bool) (s : State) : Unmoved s (raise0 e k inj s) := by
  unfold raise0
  split
  · exact Unmoved.rfl
  · refine Unmoved.step (setLatch _) (setLatch_unmoved _) ?_
    refine Unmoved.step (pendLease _) (pendLease_unmoved _) ?_
    refine Unmoved.step (pendBench _ _) (pendBench_unmoved _ _) ?_
    refine Unmoved.step (fun s => { s with flt := { s.flt with
      pulseEnd := some (s.pw.now + 40)
      pulseFrom := if s.flt.pulseEnd.any (s.pw.now ≤ ·) then s.flt.pulseFrom else s.pw.now + 1 } }) pulse_unmoved ?_
    exact (Unmoved.step (recordEvent _ _ _ _) (recordEvent_unmoved _ _ _ _) (counted_unmoved e s)).trans (queueEvent_unmoved _ _)

theorem endJob_unmoved (q k st : Nat) (s : State) : Unmoved s (endJob q k st s) := by constructor <;> exact Eq.refl _

theorem clearCtx_unmoved (x : Nat) (c : DigCtx) (s : State) : Unmoved s (clearCtx x c s) := by
  have d : Unmoved s { s with dig := tset {} s.dig x c } := by constructor <;> exact Eq.refl _
  exact d.trans (Unmoved.foldl (fun t k => (endJob_unmoved _ _ _ t).ite Unmoved.rfl) _ _)

theorem compatOne_unmoved (x : Nat) (s : State) : Unmoved s (compatOne x s) := by
  unfold compatOne
  dsimp only
  exact Unmoved.rfl.ite ((clearCtx_unmoved _ _ _).trans (raise0_unmoved _ _ _ _))

theorem lockdownClears_unmoved (held : Bool) (s : State) : Unmoved s (lockdownClears held s) := by
  unfold lockdownClears
  have a : Unmoved s (if held then raise0 0x339 0xFF false s else s) := Unmoved.step (raise0 _ _ _) (raise0_unmoved _ _ _) Unmoved.rfl
  exact (a.trans (Unmoved.foldl (fun t x => clearCtx_unmoved x {} t) _ _)).trans (Unmoved.foldl (fun t x => compatOne_unmoved x t) _ _)

theorem compatAll_unmoved (l : List Nat) (s : State) : Unmoved s (compatAll l s) := by
  unfold compatAll
  exact Unmoved.step (lockdownClears _) (lockdownClears_unmoved _) (Unmoved.foldl (fun t x => compatOne_unmoved x t) _ _)

theorem compatClear_unmoved (x : Nat) (s : State) : Unmoved s (compatClear x s) := by
  unfold compatClear
  dsimp only
  split
  · exact Unmoved.rfl
  · split
    · exact (compatAll_unmoved _ _).trans (compatAll_unmoved _ _)
    · exact compatAll_unmoved _ _

theorem clearContexts_unmoved (p : Nat → Bool) (s : State) : Unmoved s (clearContexts p s) :=
  (Unmoved.foldl (fun t x => clearCtx_unmoved x {} t) _ s).trans (Unmoved.foldl (fun t x => compatClear_unmoved x t) _ _)

/-- Everything an event leaves alone, whatever its number, lease and severity. -/
theorem raise_unmoved (e k : Nat) (s : State) : Unmoved s (raise e k s) := by
  unfold raise raiseInj
  refine Unmoved.step (lockdownClears _) (lockdownClears_unmoved _) ?_
  refine Unmoved.step (fun s => (ctxsWhere s _).foldl (fun t x => compatClear x t) s) (fun s => Unmoved.foldl (fun t x => compatClear_unmoved x t) _ s) ?_
  exact raise0_unmoved _ _ _ _

/-! ### Counts -/

theorem foldl_flt {α : Type} {f : State → α → State} (h : ∀ s x, (f s x).flt = s.flt) (l : List α) (s : State) : (l.foldl f s).flt = s.flt := by
  induction l generalizing s with
  | nil => rfl
  | cons x l ih => exact (ih _).trans (h s x)

theorem eraseWedge_flt (q st : Nat) (p : Nat → Bool) (s : State) : (eraseWedge q st p s).flt = s.flt := rfl

theorem pendBench_flt (n cause : Nat) (s : State) : (pendBench n cause s).flt = s.flt := by
  unfold pendBench
  dsimp only
  repeat' split
  all_goals rfl
theorem pendLease_flt (k : Nat) (s : State) : (pendLease k s).flt = s.flt := by
  unfold pendLease
  dsimp only
  split
  · rfl
  · exact foldl_flt (fun s n => by dsimp only; split <;> rfl) _ _
theorem latchOnly_flt (cause : Nat) (s : State) : (latchOnly cause s).flt = s.flt := by
  unfold latchOnly
  dsimp only
  repeat' split
  all_goals rfl
theorem lapseGallery_flt (s : State) : (lapseGallery s).flt = s.flt := by
  unfold lapseGallery
  dsimp only
  split <;> rfl
theorem closeCeremony_flt (reason : Nat) (s : State) : (closeCeremony reason s).flt = s.flt := by
  unfold closeCeremony
  split <;> rfl
theorem recordEvent_count (e sev k : Nat) (inj : Bool) (s : State) : (recordEvent e sev k inj s).flt.count = s.flt.count := by
  unfold recordEvent
  split <;> rfl
theorem queueEvent_count (x : EvEntry) (s : State) : (queueEvent x s).flt.count = s.flt.count := by
  unfold queueEvent
  split <;> rfl

theorem setLatch_flt (cause : Nat) (s : State) : (setLatch cause s).flt = s.flt := by
  have w : ∀ t : State, (forN 17 (fun n s => if n < s.nBench || n = 16 then eraseWedge (5 * n + 3) 0x0133 (fun _ => true) s else s) t).flt = t.flt :=
    foldl_flt (fun s n => by dsimp only; split <;> rfl) _
  unfold setLatch
  simp only [lapseGallery_flt, closeCeremony_flt, w, latchOnly_flt]

/-- An event's counter rises by one, and no other; a source that is absent or unpowered counts nothing. -/
theorem raise0_count (e k : Nat) (inj : Bool) (s : State) : (raise0 e k inj s).flt.count =
    if s.srcPresent e = true ∧ s.pw.stage ≠ .off then tset 0 s.flt.count e (satAdd (tget 0 s.flt.count e) 1) else s.flt.count := by
  unfold raise0
  have c : ∀ {p : Prop} [Decidable p] (t u : State), (if p then t else u).flt.count = if p then t.flt.count else u.flt.count := fun t u => by split <;> rfl
  split
  · rename_i h
    rw [if_neg]
    simp only [Bool.or_eq_true, Bool.not_eq_true', decide_eq_true_eq] at h
    rintro ⟨a, b⟩
    exact h.elim (fun h => by simp [a] at h) b
  · rename_i h
    simp only [Bool.or_eq_true, Bool.not_eq_true', decide_eq_true_eq, not_or, Bool.not_eq_false] at h
    rw [if_pos h]
    simp only [c, setLatch_flt, pendLease_flt, pendBench_flt, queueEvent_count, recordEvent_count, ite_self]

/-- An event of severity RECORD is counted and queued, and does nothing else. -/
theorem raise_of_record {e k : Nat} {s : State} (h : s.sevOf e = 0) : raise e k s = raise0 e k false s := by
  simp [raise, raiseInj, h]

end Sys2Proof.Machine
end

