-- ==== Sys2Proof/Laws/Requests.lean ====
section
/-! SUPPORT. What a dictionary request can do (R352, R354, R357): the ways it ends before its entry is reached, and its answer. -/

namespace Sys2Proof.Machine
open Sys2Proof

/-- The state in which an entry sees a request: its binding is selected, and it is outstanding and counted. -/
def State.counted (s : State) (r : Req) : State := countReq (outstanding r (pickBus r s))

/-- What selecting the binding can change. -/
theorem pickBus_rest (r : Req) (s : State) : ∃ b, pickBus r s = { s with dic := { s.dic with smbus := b } } := by
  unfold pickBus
  split
  · exact ⟨_, rfl⟩
  · exact ⟨s.dic.smbus, rfl⟩

@[simp] theorem pickBus_ep (r : Req) (s : State) (e : Nat) : (pickBus r s).ep e = s.ep e := by
  obtain ⟨b, h⟩ := pickBus_rest r s
  rw [h]
  rfl
@[simp] theorem pickBus_pfl (r : Req) (s : State) : (pickBus r s).pfl = s.pfl := by
  obtain ⟨b, h⟩ := pickBus_rest r s
  rw [h]
@[simp] theorem pickBus_pw (r : Req) (s : State) : (pickBus r s).pw = s.pw := by
  obtain ⟨b, h⟩ := pickBus_rest r s
  rw [h]
@[simp] theorem outstanding_pfl (r : Req) (s : State) : (outstanding r s).pfl = s.pfl := rfl
@[simp] theorem outstanding_pw (r : Req) (s : State) : (outstanding r s).pw = s.pw := rfl

/-- The entry sees nothing of the binding, the count and the outstanding requests but in the dictionary's own part of State. -/
theorem counted_rest (r : Req) (s : State) : { s.counted r with dic := s.dic } = s := by
  obtain ⟨b, h⟩ := pickBus_rest r s
  simp [State.counted, h, countReq, outstanding, State.setEp]

theorem respond_dic (v : Nat) (r : Req) (op : Nat) (st : DStat) (b : Bytes) (s : State) : (respond v r op st b s).out.dic =
    leBytes 1 v ++ leBytes 1 (op + 0x80) ++ [r.tag] ++ leBytes 2 r.index ++ leBytes 1 r.sub ++ leBytes 1 st.code ++ leBytes 2 b.length ++ b := rfl

theorem respond_rest (v : Nat) (r : Req) (op : Nat) (st : DStat) (b : Bytes) (s : State) : { respond v r op st b s with out := s.out } = s := rfl

/-- A request that does not reach the dictionary is dropped: its endpoint is closed, its message too long, or its binding not the selected one. -/
theorem request_of_dropped {r : Req} {op n : Nat} {f : State → DStat × Bytes × State} {s : State} (h : s.takes r n = false) :
    request r op f s n = s := by
  simp [request, h]

/-- A request that every check lets through is applied by its entry and answered with what the entry says. -/
theorem request_of_checks {r : Req} {op n major minor : Nat} {f : State → DStat × Bytes × State} {s : State} (ht : s.takes r n = true)
    (hv : (s.ep r.ep).ver = some (major, minor)) (hm : malformed r op n major minor = false) (hc : (s.ep r.ep).crowded r major = false)
    (hr : s.romAnswers op r.index = true) (hu : s.pfl.upd = none ∨ r.index = 0x9030) :
    request r op f s n = respond (s.epVersion r.ep) r op (f (s.counted r)).1 (f (s.counted r)).2.1 (f (s.counted r)).2.2 := by
  have hr' : (outstanding r (pickBus r s)).romAnswers op r.index = true := by
    unfold State.romAnswers at hr ⊢
    simpa using hr
  have hu' : ((outstanding r (pickBus r s)).pfl.upd.isSome && decide (r.index ≠ 0x9030)) = false := by
    rcases hu with hu | hu <;> simp [hu]
  unfold request
  simp only [ht, Bool.not_true, Bool.false_eq_true, if_false, pickBus_ep, hv, hm, hc, hr', hu', State.epVersion]
  rfl

/-- A WRITE by an endpoint without the right changes nothing but the dictionary's record of the request and the message sent. -/
theorem writeEntry_of_denied {r : Req} {rights : Rights} {len major minor : Nat} {value : Bytes} {f : State → DStat × State} {s : State}
    (ht : s.takes r value.length = true) (hv : (s.ep r.ep).ver = some (major, minor)) (hm : malformed r 0x03 value.length major minor = false)
    (hc : (s.ep r.ep).crowded r major = false) (hr : s.romAnswers 0x03 r.index = true) (hu : s.pfl.upd = none ∨ r.index = 0x9030)
    (hh : (s.counted r).hidden r = false) (hd : (s.counted r).allowed r.ep rights = false) :
    writeEntry r rights len value f s = respond (s.epVersion r.ep) r 0x03 .denied [] (s.counted r) := by
  rw [writeEntry, request_of_checks ht hv hm hc hr hu]
  simp [hh, hd]

end Sys2Proof.Machine
end

