-- ==== Sys2Proof/Laws/Signing.lean ====
section
/-! SUPPORT. What an island draw and an island signature can change, and the signatures that are released (R138, R163, R232). -/

namespace Sys2Proof.Machine
open Sys2Proof

/-- An island draw changes the island expander and the free-value counter only. -/
theorem drawIsland_same (n : Nat) (s : State) :
    { (drawIsland n s).2 with rng := s.rng, pw := s.pw } = s ∧ (drawIsland n s).2.pw.now = s.pw.now := by
  unfold drawIsland draw
  dsimp only
  split <;> rename_i h
  · split at h
    · cases h; exact ⟨rfl, rfl⟩
    · cases h
  · exact ⟨rfl, rfl⟩

/-- The splitter's half, where its candidate is accepted in 256 attempts and verifies; only the engine's counts change. -/
theorem islandMl_good {xi msg rnd : Bytes} {s : State} (h1 : Config.mldsaAttemptsRaw xi [] msg rnd ≤ 256)
    (h2 : Config.mldsaVerify (mldsaPub xi) [] msg (mldsaSig xi [] msg rnd) = true) :
    ∃ e, islandMl xi msg rnd s = (some (mldsaSig xi [] msg rnd), { s with engines := e }) := by
  have h : ¬ 256 < Config.mldsaAttemptsRaw xi [] msg rnd := by omega
  refine ⟨(s.modEngine 82 fun e => { e with sigs := satAdd e.sigs 1, atts := satAdd e.atts (attemptsOf xi [] msg rnd) }).engines, ?_⟩
  simp only [islandMl, signOutcome, limitReached, h, decide_false, h2]
  rfl

/-- A dual signature, where both halves verify: both, and only the engine's counts change. -/
theorem dualWith_good {seed : Nat → Bytes} {msg rnd : Bytes} {s : State}
    (h0 : Config.edVerify (pubOf 1 (seed 0)) msg (edSign (seed 0) msg) = true) (h1 : Config.mldsaAttemptsRaw (seed 2) [] msg rnd ≤ 256)
    (h2 : Config.mldsaVerify (mldsaPub (seed 2)) [] msg (mldsaSig (seed 2) [] msg rnd) = true) :
    ∃ e, dualWith seed msg rnd s = (some (edSign (seed 0) msg ++ mldsaSig (seed 2) [] msg rnd), { s with engines := e }) := by
  obtain ⟨e, h⟩ := islandMl_good (s := s) h1 h2
  refine ⟨e, ?_⟩
  simp only [dualWith, islandEd, islandCutter, h0, if_true, h]

end Sys2Proof.Machine
end

