-- ==== Sys2Proof/Laws/Triven.lean ====
section
/-! SUPPORT. Laws of the Triven core's registers, and what running an instruction does. -/

namespace Sys2Proof.Machine
open Sys2Proof

/-! ### Registers -/

@[simp] theorem Core.dr_setD (x : Core) (i j : BitVec 3) (v : BitVec 8) : (x.setD i v).dr j = if j = i then v else x.dr j := by
  simp only [Core.dr, Core.setD, Vector.getElem_set, BitVec.toNat_inj]
  by_cases h : i = j <;> simp [h, eq_comm]
@[simp] theorem Core.ar_setA (x : Core) (i j : BitVec 3) (v : BitVec 16) : (x.setA i v).ar j = if j = i then v else x.ar j := by
  simp only [Core.ar, Core.setA, Vector.getElem_set, BitVec.toNat_inj]
  by_cases h : i = j <;> simp [h, eq_comm]
@[simp] theorem Core.wr_setW (x : Core) (i j : BitVec 2) (v : BitVec 512) : (x.setW i v).wr j = if j = i then v else x.wr j := by
  simp only [Core.wr, Core.setW, Vector.getElem_set, BitVec.toNat_inj]
  by_cases h : i = j <;> simp [h, eq_comm]
@[simp] theorem Core.dr_setA (x : Core) (i j : BitVec 3) (v : BitVec 16) : (x.setA i v).dr j = x.dr j := rfl
@[simp] theorem Core.dr_setW (x : Core) (i : BitVec 2) (j : BitVec 3) (v : BitVec 512) : (x.setW i v).dr j = x.dr j := rfl
@[simp] theorem Core.ar_setD (x : Core) (i j : BitVec 3) (v : BitVec 8) : (x.setD i v).ar j = x.ar j := rfl
@[simp] theorem Core.ar_setW (x : Core) (i : BitVec 2) (j : BitVec 3) (v : BitVec 512) : (x.setW i v).ar j = x.ar j := rfl
@[simp] theorem Core.wr_setD (x : Core) (i : BitVec 3) (j : BitVec 2) (v : BitVec 8) : (x.setD i v).wr j = x.wr j := rfl
@[simp] theorem Core.wr_setA (x : Core) (i : BitVec 3) (j : BitVec 2) (v : BitVec 16) : (x.setA i v).wr j = x.wr j := rfl

/-! ### Accesses and instructions -/

@[simp] theorem Hit.bind_ok {α β : Type} (v : α) (s : State) (f : α → State → Hit β) : (Hit.ok v s).bind f = f v s := rfl
@[simp] theorem Hit.bind_no {α β : Type} (v p : Nat) (s : State) (f : α → State → Hit β) : (Hit.no v p s).bind f = Hit.no v p s := rfl
@[simp] theorem Hit.bind_trap {α β : Type} (v p : Nat) (s : State) (f : α → State → Hit β) : (Hit.trap v p s).bind f = Hit.trap v p s := rfl

/-- The instruction that begins where the core fetches it does what its accesses answer. -/
theorem runShort_of_fetch {c len cost : Nat} {i : Option Triven} {f : Core → State → Hit (Core → Core)} {s t : State} (hb : s.mayBegin c = true)
    (hl : (s.core c).inLong = false) (hs : ¬(s.stopDue c = true ∧ 2048 < (s.core c).bc + cost)) (hf : fetch c s = .ok (i, len) t) :
    runShort c i cost f s =
      match f (s.core c) t with
      | .ok g u => u.modCore c fun y => (g { y with pc := y.pc + BitVec.ofNat 16 len }).after cost
      | .no v p u => enterVector c v p (s.core c).pc (u.modCore c fun y => y.after cost)
      | .trap v p u => enterVector c v p ((s.core c).pc + BitVec.ofNat 16 len)
          (u.modCore c fun y => { y with pc := y.pc + BitVec.ofNat 16 len }.after cost) := by
  unfold runShort
  have h : (!s.mayBegin c || (s.core c).inLong || (s.stopDue c && decide (2048 < (s.core c).bc + cost))) = false := by
    simp only [hb, hl, Bool.not_true, Bool.false_or, Bool.and_eq_false_iff, decide_eq_false_iff_not]
    by_cases h1 : s.stopDue c = true
    · exact .inr fun h2 => hs ⟨h1, h2⟩
    · exact .inl (by simpa using h1)
  simp only [h, hf]
  exact (if_neg Bool.false_ne_true).trans (if_neg (not_not_intro rfl))

/-- A row of another instruction than the one that the core fetches does nothing. -/
theorem runShort_of_other {c len cost : Nat} {i j : Option Triven} {f : Core → State → Hit (Core → Core)} {s t : State}
    (hf : fetch c s = .ok (j, len) t) (hij : j ≠ i) : runShort c i cost f s = s := by
  unfold runShort
  simp only [hf, ne_eq, hij, not_false_eq_true, if_true, ite_self]

end Sys2Proof.Machine
end

