-- ==== Sys2Proof/WellFormed.lean ====
section
/-! DEFINITION. Well-formed commands: every number an operand gives names something that some variant of the block has, or fits its field. -/

namespace Sys2Proof

/-- Numbers of leases, of leases and island firmware (64), of benches, of engines with the island's (R46), of cores with the island's, of slots
(R1). -/
def leaseOk (k : Nat) : Bool := k < 64
def jobLease (k : Nat) : Bool := k ≤ 64
def benchOk (n : Nat) : Bool := n < 16
def engineOk (q : Nat) : Bool := q < 85
def coreOk (c : Nat) : Bool := c < 66
def slotOk (i : Nat) : Bool := i < 65536
/-- An endpoint of the dictionary: the management port, the PF, a VF. -/
def epOk (ep : Nat) : Bool := ep < 66

/-- A master of R13: 64 bench cores, two island cores, the PF and 64 VFs. -/
def Master.ok : Master → Bool
  | .core c => c < 64
  | .island c => c < 2
  | .dma => true
  | .fn f => f ≤ 64

/-- A request from an endpoint, its index and subindex in their fields, its OP a reserved one where it names one. -/
def Req.ok (r : Req) : Bool :=
  epOk r.ep && r.index < 65536 && r.sub < 256 && (match r.badOp with | none => true | some o => o = 0 || 0x0B ≤ o.toNat) && (!r.smbus || r.ep = 0)

/-- An error of an engine the package has. -/
def Ecc.ok : Ecc → Bool
  | .corrected q _ => engineOk q
  | .uncorrectable q _ => engineOk q
  | .islandCorrected => true
  | .islandUncorrectable => true

/-- Dummy clocks of a read mode fit SFDP's field of five bits. -/
def Sfdp.ok (x : Sfdp) : Bool := x.single < 32 && (x.octal.getD 0) < 32 && (x.quad.getD 0) < 32

/-- A TAP instruction that names a core names one of the package, and a core register one of its 22. -/
def TapOp.ok : TapOp → Bool
  | .idcode => true
  | .bypass => true
  | .rights => true
  | .halt c => coreOk c
  | .resume c => coreOk c
  | .step c => coreOk c
  | .readCore c i => coreOk c && i < 22
  | .writeCore c i _ => coreOk c && i < 22
  | .readMemory addr _ => addr < 2 ^ 40
  | .readRegister addr _ => addr < 2 ^ 40
  | .readFlash off _ => off < 2 ^ 26
  | .other right _ => right < 32

/-- The command's operands are in range. -/
def WellFormed : Instr → Bool
  | .registerWrite m addr _ _ => m.ok && addr < 2 ^ 40
  | .decodeAccess m addr _ => m.ok && addr < 2 ^ 40
  | .tick ecc => ecc.all fun e => e.ok
  | .faultNotify => true
  | .faultPulseEnd => true
  | .shadowCapture => true
  | .frameSwap => true
  | .dspGo => true
  | .dspCancel => true
  | .shadowTableWrite off _ => off < 65536
  | .benQuarantineWrite n => benchOk n
  | .benReturn n => benchOk n
  | .benchQuarantine n => benchOk n
  | .benchWipeDone n => benchOk n
  | .leaseQuarantine k => leaseOk k
  | .replacementSearch n => benchOk n
  | .wakeAdmission => true
  | .benchRampEnd n _ => benchOk n
  | .benchIdleOff n => benchOk n
  | .pwrOffWrite _ => true
  | .pwrWakeWrite _ => true
  | .doorbellWrite k q _ => leaseOk k && q < 8
  | .cqDoorbellWrite k q _ => leaseOk k && q < 8
  | .entryFetch k q _ => leaseOk k && q < 8
  | .yardLineFill n slot => benchOk n && slotOk slot
  | .commandStaged _ => true
  | .completionWrite _ => true
  | .irqAgeExpiry k q => leaseOk k && q < 8
  | .queueEnable k q => leaseOk k && q < 8
  | .queueReset k q => leaseOk k && q < 8
  | .queueResetDone k q => leaseOk k && q < 8
  | .hqQcfgWrite k q _ => leaseOk k && q < 8
  | .barDecodeAccess fn off _ => fn ≤ 64 && off < 65536
  | .vfFlr k => leaseOk k
  | .pfFlr => true
  | .sriovNumvfsWrite n => n < 65536
  | .pcieLinkChange up x => !up || (1 ≤ x.rate && x.rate ≤ 5 && (x.width = 1 || x.width = 2 || x.width = 4 || x.width = 8))
  | .pciePerst => true
  | .nop _ => true
  | .digest _ => true
  | .macGen _ => true
  | .macVerify _ => true
  | .cbcEnc _ => true
  | .cbcDec _ => true
  | .ctr _ => true
  | .gcmEnc _ => true
  | .gcmEncRiv _ => true
  | .gcmDec _ => true
  | .cmacGen _ => true
  | .cmacVerify _ => true
  | .rsaPriv _ _ => true
  | .rsaPub _ => true
  | .edSign _ _ => true
  | .edVerify _ => true
  | .ecdsaSign _ _ => true
  | .ecdsaVerify _ => true
  | .x25519 _ _ => true
  | .ecdh _ _ => true
  | .keygenEc _ _ => true
  | .mldsaKeygen _ => true
  | .mldsaSign _ _ => true
  | .mldsaVerify _ => true
  | .mlkemKeygen _ => true
  | .mlkemEncaps _ => true
  | .mlkemDecaps _ => true
  | .hybSign _ _ _ => true
  | .hybVerify _ => true
  | .keyGen _ => true
  | .keyWrap _ => true
  | .keyUnwrap _ => true
  | .keyDerive _ => true
  | .keyPub _ _ => true
  | .keyInval _ => true
  | .keyInfo _ => true
  | .rngGet _ => true
  | .prgCall _ => true
  | .hostCallDelivery _ => true
  | .cutJctlGo core odd count => coreOk core && odd < 2 && count < 65536
  | .cutLoad q k => engineOk q && jobLease k
  | .cutStore q k => engineOk q && jobLease k
  | .yload q k => engineOk q && jobLease k
  | .ystore q k => engineOk q && jobLease k
  | .madd q k => engineOk q && jobLease k
  | .msub q k => engineOk q && jobLease k
  | .mmul q k => engineOk q && jobLease k
  | .mprep q k => engineOk q && jobLease k
  | .minv q k => engineOk q && jobLease k
  | .mexp q k => engineOk q && jobLease k
  | .pmul q k => engineOk q && jobLease k
  | .cutPadd q k => engineOk q && jobLease k
  | .releasePub q k => engineOk q && jobLease k
  | .releasePt q k => engineOk q && jobLease k
  | .cutNative q k _ => engineOk q && jobLease k
  | .cutCtlClr q k => engineOk q && jobLease k
  | .splCtlClr q k => engineOk q && jobLease k
  | .wdgCtlClr q k => engineOk q && jobLease k
  | .digCtlClr q k => engineOk q && jobLease k
  | .engineRecordClear q => engineOk q
  | .splJctlGo core count => coreOk core && count < 65536
  | .pload q k => engineOk q && jobLease k
  | .pstore q k => engineOk q && jobLease k
  | .pntt q k => engineOk q && jobLease k
  | .pintt q k => engineOk q && jobLease k
  | .pmult q k => engineOk q && jobLease k
  | .splPadd q k => engineOk q && jobLease k
  | .psub q k => engineOk q && jobLease k
  | .splNative q k _ => engineOk q && jobLease k
  | .wdgJctlGo core count => coreOk core && count < 65536
  | .wdgRequest q k => engineOk q && jobLease k
  | .digJctlGo core count => coreOk core && count < 65536
  | .digOpen n k => n ≤ 16 && jobLease k
  | .digFeed n k => n ≤ 16 && jobLease k
  | .digCmp n k => n ≤ 16 && jobLease k
  | .digClose n k => n ≤ 16 && jobLease k
  | .digOwnWrite n _ => n ≤ 16
  | .heldRangeAccess m addr _ => m.ok && addr < 2 ^ 40
  | .yardLoadGo k n _ => jobLease k && n ≤ 16
  | .yardLoadDone k => jobLease k
  | .pendingCheck slot => slotOk slot
  | .pendingClear slot => slotOk slot
  | .sweeperFrame => true
  | .leaseScrub r _ => r.ok
  | .yardRangeWrite r _ => r.ok
  | .persistRecordAppend => true
  | .yardStoreCompaction => true
  | .quorumWrite r _ => r.ok
  | .grantStart r _ => r.ok
  | .custodianCounted p fresh => p < 2 && (fresh.all fun x => x < 28)
  | .grantWindowExpiry => true
  | .grantExpiry k => leaseOk k
  | .grantRevoke r _ => r.ok
  | .ceremonyStart r _ => r.ok
  | .ceremonyClose r _ => r.ok
  | .ceremonyTimeout => true
  | .keyLoadingCeremony ep _ => epOk ep
  | .rngWarmupEnd _ => true
  | .rngTestEnd => true
  | .rngReady => true
  | .rngSourceExcluded idx _ => idx < 16
  | .rngRetestWrite _ => true
  | .rngRetestEnd idx => idx < 16
  | .rngRestartWrite => true
  | .rngAutoRestart => true
  | .seedConditioned => true
  | .expanderReseed e => e ≤ 16
  | .expanderStretch e => e ≤ 16
  | .expanderBlocked e => e ≤ 16
  | .rngMaskWrite _ => true
  | .rngPortRead c n => coreOk c && [1, 2, 4, 8].contains n
  | .rngPortWrite c => coreOk c
  | .hostRebootRequest => true
  | .bmcPortDisconnect _ => true
  | .manifestReverify _ => true
  | .portDiscovery a b => a.ok && b.ok
  | .regionMeasure _ => true
  | .gateRecovery _ _ => true
  | .ledgerRecordWrite _ _ => true
  | .releaseSequence => true
  | .flgHold => true
  | .flgRelease => true
  | .flgBmcbWrite _ => true
  | .operatorRelease r _ => r.ok
  | .recoveryRequest r _ => r.ok
  | .portBOwnerWrite r _ => r.ok
  | .ackseqWrite r _ => r.ok
  | .recordSelectorWrite r _ => r.ok
  | .tagCommitRetry => true
  | .spdmGetVersion c => c < 3
  | .spdmGetCapabilities c ver => c < 3 && ver < 256
  | .spdmNegotiateAlgorithms c _ _ _ => c < 3
  | .spdmGetDigests c => c < 3
  | .spdmGetCertificate c slot _ _ => c < 3 && slot < 16
  | .spdmChallenge c _ _ _ => c < 3
  | .spdmGetMeasurements c _ _ _ _ _ => c < 3
  | .spdmKeyExchange c _ _ _ => c < 3
  | .spdmFinish c _ _ => c < 3
  | .spdmHeartbeat c _ => c < 3
  | .spdmKeyUpdate c _ _ _ => c < 3
  | .spdmEndSession c _ => c < 3
  | .spdmVendorDefinedRequest c _ _ => c < 3
  | .ideKmKeyProg _ _ => true
  | .trvNop c => coreOk c
  | .mov c _ _ => coreOk c
  | .add c _ _ => coreOk c
  | .sub c _ _ => coreOk c
  | .adc c _ _ => coreOk c
  | .sbc c _ _ => coreOk c
  | .and c _ _ => coreOk c
  | .or c _ _ => coreOk c
  | .xor c _ _ => coreOk c
  | .not c _ => coreOk c
  | .shl c _ _ => coreOk c
  | .shr c _ _ => coreOk c
  | .mul c _ _ => coreOk c
  | .ceq c _ _ => coreOk c
  | .cltu c _ _ => coreOk c
  | .clts c _ _ => coreOk c
  | .cnz c _ => coreOk c
  | .mask c _ => coreOk c
  | .mova c _ _ => coreOk c
  | .adda c _ _ => coreOk c
  | .suba c _ _ => coreOk c
  | .setal c _ _ => coreOk c
  | .setah c _ _ => coreOk c
  | .getal c _ _ => coreOk c
  | .getah c _ _ => coreOk c
  | .ld c _ _ => coreOk c
  | .st c _ _ => coreOk c
  | .ldPostinc c _ _ => coreOk c
  | .stPostinc c _ _ => coreOk c
  | .push c _ => coreOk c
  | .pop c _ => coreOk c
  | .pusha c _ => coreOk c
  | .popa c _ => coreOk c
  | .wclr c _ => coreOk c
  | .wmov c _ _ => coreOk c
  | .wadd c _ _ => coreOk c
  | .wsub c _ _ => coreOk c
  | .wxor c _ _ => coreOk c
  | .wand c _ _ => coreOk c
  | .wshl8 c _ => coreOk c
  | .wshr8 c _ => coreOk c
  | .jmp c _ => coreOk c
  | .jsr c _ => coreOk c
  | .rts c => coreOk c
  | .rte c => coreOk c
  | .trap c _ => coreOk c
  | .hostret c => coreOk c
  | .islandServiceRequest c _ => coreOk c
  | .islandServiceComplete c => coreOk c
  | .waitt c => coreOk c
  | .getsr c _ => coreOk c
  | .setsr c _ => coreOk c
  | .getid c _ _ => coreOk c
  | .gettk c _ => coreOk c
  | .movi c _ _ => coreOk c
  | .addi c _ _ => coreOk c
  | .andi c _ _ => coreOk c
  | .xori c _ _ => coreOk c
  | .ceqi c _ _ => coreOk c
  | .cltui c _ _ => coreOk c
  | .bz c _ _ => coreOk c
  | .bnz c _ _ => coreOk c
  | .bra c _ => coreOk c
  | .movia c _ _ => coreOk c
  | .addia c _ _ => coreOk c
  | .ldx c _ _ _ => coreOk c
  | .stx c _ _ _ => coreOk c
  | .jmpl c _ => coreOk c
  | .jsrl c _ => coreOk c
  | .bzl c _ _ => coreOk c
  | .bnzl c _ _ => coreOk c
  | .wgetb c _ _ _ => coreOk c
  | .wputb c _ _ _ => coreOk c
  | .wceq c _ _ _ => coreOk c
  | .movb c _ _ _ => coreOk c
  | .cmpb c _ _ _ _ => coreOk c
  | .fillb c _ _ _ => coreOk c
  | .wmacb c _ _ _ _ => coreOk c
  | .xin c _ _ _ _ => coreOk c
  | .xout c _ _ _ _ => coreOk c
  | .illegalInstruction c => coreOk c
  | .interruptEntry c => coreOk c
  | .fncCtlWrite c _ => coreOk c
  | .fncWinWrite c idx _ => coreOk c && idx < 16
  | .fncFenWrite c idx _ => coreOk c && idx < 16
  | .programLoad r _ => r.ok
  | .programVerifyDone k _ => leaseOk k
  | .programPageCopy k => leaseOk k
  | .programKeyWrite r _ => r.ok
  | .programMinsvnWrite r _ => r.ok
  | .cardInserted => true
  | .cardRemoved _ => true
  | .crdAct => true
  | .crdDeact _ => true
  | .crdSend _ => true
  | .atrReceived _ _ => true
  | .atrTimeout => true
  | .ppsResponse _ => true
  | .ppsTimeout => true
  | .wwtTimeout _ => true
  | .t1BwtTimeout _ => true
  | .apduExchangeTimeout _ => true
  | .cardSelect p _ => p < 2
  | .getCred p _ => p < 2
  | .auth p _ => p < 2
  | .readObj p obj _ => p < 2 && obj < 256
  | .writeObj p obj _ => p < 2 && obj < 256
  | .checkObj p obj _ => p < 2 && obj < 256
  | .getResponse _ => true
  | .lpcdPing _ => true
  | .wupa _ => true
  | .reqa _ => true
  | .anticollision _ _ => true
  | .readerSelect _ => true
  | .rats _ fwi => fwi < 16
  | .hlta => true
  | .ctlSend _ => true
  | .ctlHalt => true
  | .ctlOff _ => true
  | .ctlLpcdEnable _ => true
  | .tagFieldOn => true
  | .tagFieldOff => true
  | .tagWake _ rows => rows < 65536
  | .tagSelect => true
  | .tagRead area off le => area < 256 && off < 65536 && le < 65536
  | .tagVerify p2 _ => p2 < 65536
  | .noteWrite off _ => off < 65536
  | .noteCommit len => len < 65536
  | .tagWcmtGo area len => area < 256 && len < 65536
  | .tagCommitDone => true
  | .officerQuorumWrite r _ => r.ok
  | .tagPasswordWrite r _ => r.ok
  | .attemptsReset r _ => r.ok
  | .hello r _ => r.ok
  | .read r => r.ok
  | .write r _ => r.ok
  | .segRead r _ _ _ => r.ok
  | .segWriteStart r _ => r.ok
  | .segWrite r _ _ => r.ok
  | .segWriteEnd r fresh _ => r.ok && (fresh.all fun x => x < 28)
  | .segAbort r => r.ok
  | .info r => r.ok
  | .enum r _ _ => r.ok
  | .segSessionTimeout ep => epOk ep
  | .setEndpointId ep eid => epOk ep && eid < 256
  | .getEndpointId ep => epOk ep
  | .getMctpVersionSupport ep => epOk ep
  | .getMessageTypeSupport ep => epOk ep
  | .getVendorDefinedMsgSupport ep => epOk ep
  | .slotPlanWrite r _ => r.ok
  | .dictApply r _ => r.ok
  | .rtcWrite r _ => r.ok
  | .leaseRelease r _ => r.ok
  | .stagingQuotaWrite r _ => r.ok
  | .severityWrite r _ => r.ok
  | .tokenWrite r _ => r.ok
  | .lifecycleRequest r _ => r.ok
  | .lifecycleVerifyDone => true
  | .lcsCtlGo _ _ => true
  | .galleryCertWrite r _ => r.ok
  | .galleryRightsLapse => true
  | .galleryConsentWrite r _ => r.ok
  | .galGrantWrite _ => true
  | .tapInstruction op => op.ok
  | .identityRecordWrite r _ => r.ok
  | .tamperSample idx _ _ => idx < 28
  | .vaultPowerOn => true
  | .stagingLogMove => true
  | .unlockRequest r _ fresh => r.ok && (fresh.all fun x => x < 28)
  | .officerUnlockStart r _ => r.ok
  | .tmpUnlatch => true
  | .tmpOvfclr => true
  | .tmpSavedWrite _ => true
  | .tmpSlogRead m k => m.ok && k < 64
  | .tamperResponseWrite r _ => r.ok
  | .tamperWindowWrite r _ => r.ok
  | .fltAckGo _ => true
  | .fltInjGo _ => true
  | .fltQRead => true
  | .eventQueueDrain _ => true
  | .modeChange => true
  | .dieTempHigh _ => true
  | .clockMonitorFault d => d < 31
  | .mainPowerReset => true
  | .pltPwrokFall => true
  | .sysRstRise _ => true
  | .sysRstFall => true
  | .supplyMonitorReset _ _ => true
  | .resetWipeEnd => true
  | .islandStart => true
  | .pflSequenceWrite off _ => off < 0x2000
  | .program _ => true
  | .eraseSector o => o < 2 ^ 26
  | .eraseChip o => o < 2 ^ 26
  | .flashOpEnd => true
  | .pflSwapGo => true
  | .swapPairWriteEnd => true
  | .flashRead m o n _ _ => m.ok && o < 2 ^ 26 && [1, 2, 4, 8].contains n
  | .tagSelection => true
  | .tagHalt => true
  | .vflBandChange _ => true
  | .poisonedTlpReceived idx => 70 ≤ idx && idx ≤ 72

end Sys2Proof
end

