-- ==== Sys2Proof/Tests/Slice0.lean ====
section
/-! SUPPORT. Tests: an ill-formed command for each check of WellFormed, small steps with the spec's own numbers, and, for each statement with
hypotheses, states and operands that meet those of each of its clauses. Where `Elab.async false` stands, the tests before it are checked first: side
by side their threads' stacks ask for too much memory. -/

namespace Sys2Proof.Tests

open Sys2Proof Sys2Proof.Machine Sys2Proof.Claims

/-! ### Well-formed commands -/

/-- A request from endpoint `ep` with a version-2.1 header. -/
def req (ep index sub : Nat) : Req := { ep := ep, ver := 0x21, tag := 7, index := index, sub := sub }

theorem test_wellformed_accepts : ([.tick [.corrected 84 true], .registerWrite (.core 63) 0x60000010 [1] {}, .doorbellWrite 63 7 1, .cutLoad 84 64,
    .cutJctlGo 65 1 65535, .digOwnWrite 16 0, .tapInstruction (.readCore 65 21), .read (req 65 0xFFFF 255), .tamperSample 27 true 0,
    .unlockRequest (req 1 0x5011 1) [] [0, 27], .rngPortRead 65 8, .spdmGetCertificate 2 15 0 0, .poisonedTlpReceived 72] : List Instr).all WellFormed = true := by
  decide

theorem test_wellformed_refuses_masters : ([.registerWrite (.core 64) 0 [] {}, .registerWrite (.island 2) 0 [] {}, .decodeAccess (.fn 65) 0 true,
    .registerWrite .dma (2 ^ 40) [] {}, .decodeAccess .dma (2 ^ 40) true, .heldRangeAccess (.core 64) 0 true, .heldRangeAccess .dma (2 ^ 40) true,
    .tmpSlogRead (.fn 65) 0, .tmpSlogRead .dma 64, .flashRead (.island 2) 0 1 false .clean, .flashRead .dma (2 ^ 26) 1 false .clean,
    .flashRead .dma 0 3 false .clean] : List Instr).all (fun i => !WellFormed i) = true := by decide

theorem test_wellformed_refuses_numbers : ([.tick [.corrected 85 true], .tick [.islandCorrected, .uncorrectable 85 false], .shadowTableWrite 65536 0,
    .benQuarantineWrite 16, .benReturn 16, .benchQuarantine 16, .benchWipeDone 16, .leaseQuarantine 64, .replacementSearch 16, .benchRampEnd 16 true,
    .benchIdleOff 16, .yardLineFill 16 0, .yardLineFill 0 65536, .sriovNumvfsWrite 65536, .barDecodeAccess 65 0 true, .barDecodeAccess 0 65536 true,
    .vfFlr 64, .yardLoadGo 65 0 0, .yardLoadGo 0 17 0, .yardLoadDone 65, .pendingCheck 65536, .pendingClear 65536, .custodianCounted 2 [],
    .custodianCounted 0 [28], .grantExpiry 64, .keyLoadingCeremony 66 none, .rngSourceExcluded 16 true, .rngRetestEnd 16, .expanderReseed 17,
    .expanderStretch 17, .expanderBlocked 17] : List Instr).all (fun i => !WellFormed i) = true := by decide

theorem test_wellformed_refuses_queues : ([.doorbellWrite 64 0 0, .doorbellWrite 0 8 0, .cqDoorbellWrite 64 0 0, .cqDoorbellWrite 0 8 0,
    .entryFetch 64 0 { entry := [] }, .entryFetch 0 8 { entry := [] }, .irqAgeExpiry 64 0, .irqAgeExpiry 0 8, .queueEnable 64 0, .queueEnable 0 8,
    .queueReset 64 0, .queueReset 0 8, .queueResetDone 64 0, .queueResetDone 0 8, .hqQcfgWrite 64 0 0, .hqQcfgWrite 0 8 0] : List Instr).all
      (fun i => !WellFormed i) = true := by decide

theorem test_wellformed_refuses_engines : ([.cutJctlGo 66 0 0, .cutJctlGo 0 2 0, .cutJctlGo 0 0 65536, .splJctlGo 66 0, .splJctlGo 0 65536,
    .wdgJctlGo 66 0, .wdgJctlGo 0 65536, .digJctlGo 66 0, .digJctlGo 0 65536, .digOpen 17 0, .digOpen 0 65, .digFeed 17 0, .digCmp 0 65, .digClose 17 0,
    .digOwnWrite 17 0, .engineRecordClear 85] : List Instr).all (fun i => !WellFormed i) = true ∧
    ([.cutLoad, .cutStore, .yload, .ystore, .madd, .msub, .mmul, .mprep, .minv, .mexp, .pmul, .cutPadd, .releasePub, .releasePt,
      (.cutNative · · false), .cutCtlClr, .splCtlClr, .wdgCtlClr, .digCtlClr, .pload, .pstore, .pntt, .pintt, .pmult, .splPadd, .psub,
      (.splNative · · false), .wdgRequest] : List (Nat → Nat →
        Instr)).all (fun f => WellFormed (f 84 64) && !WellFormed (f 85 0) && !WellFormed (f 0 65)) = true := by
  decide

theorem test_wellformed_refuses_cores : ([.trvNop, (.mov · 0 0), (.add · 0 0), (.sub · 0 0), (.adc · 0 0), (.sbc · 0 0), (.and · 0 0), (.or · 0 0),
    (.xor · 0 0), (.not · 0), (.shl · 0 0), (.shr · 0 0), (.mul · 0 1), (.ceq · 0 0), (.cltu · 0 0), (.clts · 0 0), (.cnz · 0), (.mask · 0),
    (.mova · 0 0), (.adda · 0 0), (.suba · 0 0), (.setal · 0 0), (.setah · 0 0), (.getal · 0 0), (.getah · 0 0), (.ld · 0 0), (.st · 0 0),
    (.ldPostinc · 0 0), (.stPostinc · 0 0), (.push · 0), (.pop · 0), (.pusha · 0), (.popa · 0), (.wclr · 0), (.wmov · 0 0), (.wadd · 0 0),
    (.wsub · 0 0), (.wxor · 0 0), (.wand · 0 0), (.wshl8 · 0), (.wshr8 · 0), (.jmp · 0), (.jsr · 0), .rts, .rte, (.trap · 0), .hostret,
    (.islandServiceRequest · 0), .islandServiceComplete, .waitt, (.getsr · 0), (.setsr · 0), (.getid · 0 1), (.gettk · 0), (.movi · 0 0),
    (.addi · 0 0), (.andi · 0 0), (.xori · 0 0), (.ceqi · 0 0), (.cltui · 0 0), (.bz · 0 0), (.bnz · 0 0), (.bra · 0), (.movia · 0 0),
    (.addia · 0 0), (.ldx · 0 0 0), (.stx · 0 0 0), (.jmpl · 0), (.jsrl · 0), (.bzl · 0 0), (.bnzl · 0 0), (.wgetb · 0 0 0), (.wputb · 0 0 0),
    (.wceq · 0 0 1), (.movb · 0 1 2), (.cmpb · 0 1 2 3), (.fillb · 0 1 2), (.wmacb · 0 1 0 2), (.xin · 0 0 2 true), (.xout · 0 0 2 true),
    .illegalInstruction, .interruptEntry, (.fncCtlWrite · 0), (.fncWinWrite · 0 0), (.fncFenWrite · 0 0), (.rngPortRead · 1), .rngPortWrite] :
      List (Nat → Instr)).all (fun f => WellFormed (f 65) && !WellFormed (f 66)) = true ∧
    ([.fncWinWrite 0 16 0, .fncFenWrite 0 16 0, .rngPortRead 0 3] : List Instr).all (fun i => !WellFormed i) = true := by decide

theorem test_wellformed_refuses_requests : ([(.leaseScrub · []), (.yardRangeWrite · []), (.quorumWrite · []), (.grantStart · []), (.grantRevoke · []),
    (.ceremonyStart · []), (.ceremonyClose · []), (.operatorRelease · []), (.recoveryRequest · []), (.portBOwnerWrite · []), (.ackseqWrite · []),
    (.recordSelectorWrite · []), (.programLoad · []), (.programKeyWrite · []), (.programMinsvnWrite · []), (.officerQuorumWrite · []),
    (.tagPasswordWrite · []), (.attemptsReset · []), (.hello · []), .read, (.write · []), (.segRead · 0 0 0), (.segWriteStart · 0), (.segWrite · 0 []),
    (.segWriteEnd · [] true), .segAbort, .info, (.enum · 0 0), (.slotPlanWrite · []), (.dictApply · []), (.rtcWrite · []), (.leaseRelease · []),
    (.stagingQuotaWrite · []), (.severityWrite · []), (.tokenWrite · []), (.lifecycleRequest · []), (.galleryCertWrite · []),
    (.galleryConsentWrite · []), (.identityRecordWrite · []), (.unlockRequest · [] []), (.officerUnlockStart · []), (.tamperResponseWrite · []),
    (.tamperWindowWrite · [])] : List (Req → Instr)).all (fun f => WellFormed (f (req 65 65535 255)) && !WellFormed (f (req 66 0 0)) &&
      !WellFormed (f (req 0 65536 0)) && !WellFormed (f (req 0 0 256))) = true ∧
    ([.segWriteEnd (req 0 0 0) [28] true, .unlockRequest (req 0 0 0) [] [28], .segSessionTimeout 66, .setEndpointId 66 0, .setEndpointId 0 256,
      .getEndpointId 66, .getMctpVersionSupport 66, .getMessageTypeSupport 66, .getVendorDefinedMsgSupport 66] : List Instr).all
      (fun i => !WellFormed i) = true := by decide

theorem test_wellformed_refuses_ports : ([.portDiscovery ⟨true, 24, some 32, none, 0⟩ ⟨true, 24, none, none, 0⟩,
    .portDiscovery ⟨true, 24, none, none, 0⟩ ⟨true, 24, none, some 32, 0⟩, .portDiscovery ⟨true, 24, none, none, 32⟩ ⟨true, 24, none, none, 0⟩,
    .spdmGetVersion 3, .spdmGetCapabilities 3 0, .spdmGetCapabilities 0 256, .spdmNegotiateAlgorithms 3 true true ⟨true, true, true, true⟩, .spdmGetDigests 3,
    .spdmGetCertificate 3 0 0 0, .spdmGetCertificate 0 16 0 0, .spdmChallenge 3 0 [] false, .spdmGetMeasurements 3 0 true none [] false,
    .spdmKeyExchange 3 [] [] false, .spdmFinish 3 0 true, .spdmHeartbeat 3 0, .spdmKeyUpdate 3 0 0 0, .spdmEndSession 3 0,
    .spdmVendorDefinedRequest 3 none [], .programVerifyDone 64 true, .programPageCopy 64, .cardSelect 2 none, .getCred 2 none, .auth 2 none,
    .readObj 2 0 none, .readObj 0 256 none, .writeObj 2 0 none, .writeObj 0 256 none, .checkObj 2 0 none, .checkObj 0 256 none, .rats 0 16,
    .tagWake true 65536, .tagRead 256 0 0, .tagRead 0 65536 0, .tagRead 0 0 65536, .tagVerify 65536 ⟨[], false⟩, .pcieLinkChange true ⟨0, 8⟩,
    .pcieLinkChange true ⟨6, 8⟩, .pcieLinkChange true ⟨5, 3⟩, .noteWrite 65536 [], .noteCommit 65536,
    .tagWcmtGo 256 0, .tagWcmtGo 0 65536, .tamperSample 28 true 0, .clockMonitorFault 31, .pflSequenceWrite 0x2000 0, .eraseSector (2 ^ 26),
    .eraseChip (2 ^ 26), .poisonedTlpReceived 69, .poisonedTlpReceived 73] : List Instr).all (fun i => !WellFormed i) = true ∧
    ([.halt 66, .resume 66, .step 66, .readCore 66 0, .readCore 0 22, .writeCore 66 0 0, .writeCore 0 22 0, .readMemory (2 ^ 40) 1,
      .readRegister (2 ^ 40) 1, .readFlash (2 ^ 26) 1, .other 32 0] : List TapOp).all (fun o => !WellFormed (.tapInstruction o)) = true := by decide

/-! ### States to meet the hypotheses of the statements -/

/-- `Accepted` as a test. -/
def accepts (r : Req) (op : Nat) (s : State) : Bool :=
  decide (s.epOpen r.ep = true ∧ r.badOp = none ∧ (r.ep = 0 → s.dic.smbus.getD r.smbus = r.smbus)) && (match (s.ep r.ep).ver with
    | some (a, b) => decide (r.ver.toNat / 16 = a ∧ (a = 1 → op < 9 ∧ (s.ep r.ep).tags = []) ∧ (b = 0 → op ≠ 0x0A) ∧
        (a ≠ 1 → (s.ep r.ep).tags.length < 4 ∧ r.tag ∉ (s.ep r.ep).tags))
    | none => false) && decide (r.status = 0 ∧ r.lenOk = true ∧ s.pw.stage ≠ .romRecovery ∧ s.pw.stage ≠ .udsFailed ∧ s.pfl.upd = none)

theorem accepted_of {r : Req} {op : Nat} {s : State} (h : accepts r op s = true) : Accepted r op s := by
  unfold accepts at h
  split at h
  · rename_i a b e
    simp only [Bool.and_eq_true, decide_eq_true_eq] at h
    exact ⟨h.1.1.1, h.1.1.2.1, h.1.1.2.2, ⟨a, b, e, h.1.2⟩, h.2⟩
  · simp at h

/-- A block that runs in SERVICE and CLAIMED, its link up with 64 VFs, and version 2.1 chosen on the first endpoints. -/
def up : State := { State.reset with
  pw := { stage := .running, mode := .service, leaseWork := true, now := 5000 }
  lcs := { state := .claimed }
  link := { up := true, numVfs := 64 }
  dic := { eps := [(0, { ver := some (2, 1) }), (1, { ver := some (2, 1) }), (2, { ver := some (2, 1) }), (3, { ver := some (2, 1) })] }
  benches := [(0, { state := .ready })] }

/-- The endpoint of `r` has a write session open on the entry that it names. -/
def opened (r : Req) (s : State) : State := setSession r.ep (some { index := r.index, sub := r.sub, total := 0, frame := 0 }) s

end Sys2Proof.Tests
open Sys2Proof Sys2Proof.Machine Sys2Proof.Claims Sys2Proof.Tests

namespace Sys2Proof.Tests

/-! ### Triven cores -/

/-- Window 0 of an island core: all of the core's address space, read, write and execute, over island SRAM. -/
def sram : BitVec 64 := BitVec.ofNat 64 (0x03 + 0x700 + 0xFF * 2 ^ 32 + (0x08000000 / 256) * 2 ^ 40)

/-- An island core in user or supervisor state, its registers `d` and `a`, at address 0x100. -/
def at100 (sup : Bool) (d : Vector (BitVec 8) 8) (a : Vector (BitVec 16) 8) : Core :=
  { islandCore with state := .run, win := [(0, sram)], sup := sup, d := d, a := a, pc := 0x100 }

def someD : Vector (BitVec 8) 8 := #v[1, 2, 3, 4, 5, 6, 1, 1]
def someA : Vector (BitVec 16) 8 := #v[0x1000, 0x1100, 0x1200, 0x1300, 0x1400, 0x1500, 0x1600, 0x2001]

/-- `up` with such a core in place of core 64. -/
def run (sup : Bool) : State := up.setCore 64 (at100 sup someD someA)

/-- The halfwords of `i` at the PC of core 64. -/
def coded (i : Triven) (s : State) : State :=
  s.ramWrite (0x08000000 + ((s.core 64).pc).toNat) ((trivenWords i).flatMap fun h => leBytes 2 h.toNat)

/-- Core 64 may begin and fetches the instruction from those halfwords. -/
def fetches (i : Triven) (s : State) : Bool :=
  s.mayBegin 64 && !(s.core 64).inLong && !(s.stopDue 64) && (match fetch 64 s with | .ok p _ => p = (some i, 2 * (trivenWords i).length) | _ => false)

theorem begins {i : Triven} {s : State} (cost : Nat) (h : fetches i s = true) : ∃ t, Begins 64 (some i) (2 * (trivenWords i).length) cost s t := by
  unfold fetches at h
  split at h
  · rename_i p t e
    simp only [Bool.and_eq_true, Bool.not_eq_true', decide_eq_true_eq] at h
    exact ⟨t, h.1.1.1, h.1.1.2, fun x => by simp [h.1.2] at x, h.2 ▸ e⟩
  · simp at h

/-- Each of the instructions in the state that `run` gives. -/
def allFetch (sup : Bool) (l : List Triven) : Bool := l.all fun i => fetches i (coded i (run sup))

theorem witness_TrivenArithmetic : allFetch true [.mov 0 7, .add 7 7, .sub 0 1, .and 0 1, .or 0 1, .xor 0 1, .not 7, .shl 0 1, .shr 0 1, .cnz 0, .mask 7,
    .ceq 0 1, .cltu 0 1, .clts 7 0, .adc 6 6, .sbc 0 6, .mul 0 7] = true ∧ (6 : BitVec 3) ≠ 7 ∧ (7 : BitVec 3) = 7 ∧ (0 : BitVec 3) ≠ 7 := by decide

theorem witness_TrivenRegisters : allFetch true [.trvNop, .movi 7 255, .addi 0 1, .andi 0 1, .xori 0 1, .ceqi 0 1, .cltui 0 1, .mova 7 0, .adda 0 7, .suba 0 1,
    .setal 0 7, .setah 7 0, .getal 0 7, .getah 7 0, .getsr 0, .gettk 7, .getid 0 7, .setsr 7, .waitt] = true ∧ ((run true).core 64).sup = true ∧
    ((run true).core 64).bc < 2048 := by decide

theorem witness_TrivenWide : allFetch false [.wclr 3, .wmov 0 3, .wxor 0 3, .wand 3 3, .wshl8 0, .wshr8 3, .wadd 0 3, .wsub 3 0, .wgetb 7 3 63, .wceq 0 3 3,
    .wputb 3 7 63] = true := by decide

theorem witness_TrivenControl : allFetch false [.jmp 7, .bz 7 255, .bnz 0 128, .bra 0x1FFF, .movia 7 0xFFFF, .addia 0 1, .jmpl 0xFFFE, .bzl 7 0xFFFE,
    .bnzl 0 2] = true ∧ (0xFFFE : BitVec 16).toNat % 2 = 0 ∧ (0xFFFF : BitVec 16).toNat % 2 = 1 := by decide

theorem witness_ReturnFromException : let s := coded .rte (run true)
    (s.core 64).sup = true ∧ fetches .rte s = true ∧ loadByte 64 ((s.core 64).ar 7) true s = .ok 0 s ∧
      loadByte 64 ((s.core 64).ar 7 + 1) true s = .ok 0 s ∧
    loadByte 64 ((s.core 64).ar 7 + 2) true s = .ok 0 s ∧ (0 : Byte).getLsbD 0 = false := ⟨by decide, by decide, rfl, rfl, rfl, by decide⟩

theorem witness_TrivenLoadsAndStores :
    allFetch false [.ld 0 1, .ldPostinc 0 7, .pop 7, .ldx 0 1 0xFFFF, .popa 6, .rts, .st 7 1, .stPostinc 0 7, .push 7, .stx 0 1 0xFFFF, .pusha 7, .jsr 7,
      .jsrl 0xFFFE] = true ∧
    (let s := coded .rts (run false)
     loadByte 64 ((s.core 64).ar 1) false s = .ok 0 s ∧ loadByte 64 ((s.core 64).ar 1 + 0xFFFF) false s = .ok 0 s ∧
       loadByte 64 ((s.core 64).ar 7) false s = .ok 0 s ∧ loadByte 64 ((s.core 64).ar 7 + 1) false s = .ok 0 s ∧
     (∃ u v, storeByte 64 ((s.core 64).ar 7 - 1) 0x20 false s = .ok () u ∧ storeByte 64 ((s.core 64).ar 7 - 2) 1 false u = .ok () v)) :=
  ⟨by decide, rfl, rfl, rfl, rfl, _, _, rfl, rfl⟩

theorem witness_TrivenMemory :
    (LoadsRam 64 0x1000 0x08001000 (run false) ∧ StoresRam 64 0x1000 0x08001000 (run false)) ∧
    (allFetch false [.movb 0 1 6, .cmpb 0 1 6 5, .fillb 0 7 6, .wmacb 0 3 1 6, .xin 3 1 6 true, .xout 1 3 6 false] = true ∧
      ((run false).core 64).rsm = false ∧
      (run false).wipeDue 64 = false ∧ ((run false).core 64).dr 6 = 1 ∧ ((run false).core 64).bc + 2 < 2048) ∧
    (let r : Core := { (run false).core 64 with bc := 2, boundary := false, long := some (.movb 0 1 6) }
     let t := (run false).setCore 64 r
     loadByte 64 (r.ar 1) r.sup t = .ok 0 t ∧ (∃ p, storeByte 64 (r.ar 0) 5 r.sup t = .ok () p ∧ (p.core 64).dr 6 = 1 ∧ (p.core 64).inLong = true) ∧
     (t.core 64).dr 6 = 1 ∧ (t.core 64).inLong = true) :=
  ⟨⟨⟨rfl, by decide⟩, ⟨rfl, by decide⟩⟩, by decide, rfl, ⟨_, rfl, by decide, by decide⟩, by decide, by decide⟩

theorem witness_VectorEntry : (8 ≠ 1 ∧ 8 ≠ 2) ∧
    let x := (run false).core 64
    ∃ s1 s2 s3 s4, storeByte 64 (x.ar 7 - 1) 0x12 true ((run false).setCore 64 { x with sup := true }) = .ok () s1 ∧
      storeByte 64 (x.ar 7 - 2) 0x34 true s1 = .ok () s2 ∧ storeByte 64 (x.ar 7 - 3) x.sr true s2 = .ok () s3 ∧
      fetchHalf 64 0x40 (s3.setCore 64 { (s3.core 64).setA 7 (x.ar 7 - 3) with
        sup := true, ie := false, rsm := false, pc := 0x40, bc := 6, cause := 0x08050000, boundary := false }) = .ok 0 s4 :=
  ⟨by decide, _, _, _, _, rfl, rfl, rfl, rfl⟩

theorem witness_TrivenTraps : allFetch false [.trap 31, .trap 33, .trap 47, .rte, .setsr 7] = true ∧ ((run false).core 64).sup = false ∧
    (31 : BitVec 6).toNat < 32 ∧ 33 ≤ (33 : BitVec 6).toNat ∧ (47 : BitVec 6).toNat < 48 := by decide

/-- Halfwords that spell no instruction: a reserved bit, an op that is not listed, a forbidden pair. -/
theorem witness_IllegalInstruction : ([0x0080, 0x0D00, 0x0C11, 0x5A00, 0xF600] : List Nat).all (fun n =>
    let s := (run false).ramWrite 0x08000100 (leBytes 2 n)
    s.mayBegin 64 && !(s.core 64).inLong && !(s.stopDue 64) && (match fetch 64 s with | .ok p _ => p.1 = none | _ => false)) = true ∧
    (let s := (run false).setCore 64 { at100 false someD someA with win := [] }
     s.mayBegin 64 = true ∧ (s.core 64).inLong = false ∧ s.stopDue 64 = false ∧
       (match fetch 64 s with | .no _ _ _ => true | _ => false) = true) := by decide

/-- A command of queue 2 of lease 1 with part `a`, staged and ready in the tick before. -/
def cmdOf (op : Nat) (a : Part) : Cmd :=
  { lease := 1, queue := 2, seq := 0, batch := 0, opcode := op, flags := 0, tag := 9, yref := 0, len := 4, u3 := List.replicate 16 0, outAddr := 0x1000,
    outCap := 64, inLen := 1, input := [5], foot := 0, dbTick := 0, fetchedAt := 4998, stagedAt := some 4999, readyAt := some 4999, a := a }

/-- An active queue of depth 64 and format `m`, one entry behind its doorbell. -/
def queueOf (m : Nat) : Queue := { state := .active, cfg := 0x006, major := m, db := 1 }

/-- `up` with lease 1 at work: its quota, its queue 2, core 0 of bench 0, and command 3. -/
def work (m : Nat) (c : Cmd) : State := { up with
  leases := [(1, { quota := 4 })], queues := [(8 + 2, queueOf m)], dsp := { core := [(0, 1)] }, cores := [(0, { state := .run, boundary := true })], cmds := [(3, c)] }

theorem witness_TrivenCalls :
    (allFetch false [.trap 48, .trap 49, .trap 50, .trap 63] = true ∧ 2 ≤ (2 : BitVec 4).toNat ∧ (1 : BitVec 4).toNat < 2 ∧
      ((run false).core 64).isvb = false) ∧
    (let s := (run false).setCore 64 { at100 false someD someA with isvb := true }
     fetches (.trap 49) (coded (.trap 49) s) = true ∧ (s.core 64).isvb = true ∧ s.islandRuns = true ∧ s.pfl.upd = none) ∧
    (let a : Vector (BitVec 16) 8 := #v[0x7FC0, 0x40, 0, 0, 0, 0, 0, 0]
     let s := { (run false).setCore 64 { at100 false someD a with serving := some { cmd := 3, page := 0, start := 0 } } with cmds := [(3, cmdOf 0x0800 { cls := .core })] }
     fetches (.trap 32) (coded (.trap 32) s) = true ∧ (s.core 64).serving = some { cmd := 3, page := 0, start := 0 } ∧
       s.cmd 3 = some (cmdOf 0x0800 { cls := .core }) ∧
       ((s.core 64).ar 0).toNat % 32 = 0 ∧ ((s.core 64).ar 0).toNat + ((s.core 64).ar 1).toNat ≤ 32768 ∧ ((s.core 64).ar 1).toNat ≤ 4096 ∧
       ((s.core 64).ar 1).toNat ≤ (cmdOf 0x0800 { cls := .core }).outCap) ∧
    (let s := (run false).setCore 64 { at100 false someD someA with ie := true, ien := 0x40, pend := 0x7F, boundary := true }
     (s.core 64).dueVector = some 6 ∧ s.coreExec 64 = true ∧ (s.core 64).boundary = true ∧ s.callFor 64 = false ∧ (s.core 64).inLong = false) ∧
    (let m : Cmd := { cmdOf 0x0800 { cls := .core } with admitted := true }
     let s := work 2 m
     s.cmd 3 = some m ∧ m.admitted = true ∧ s.callDue m = true ∧ s.callCore m = 0 ∧ (s.core 0).state = .run ∧ s.coreExec 0 = true ∧
       (s.core 0).boundary = true ∧ (s.core 0).inLong = false) := by
  refine ⟨by decide, by decide, by decide, by decide, by decide⟩

theorem witness_TrivenPorts :
    (let s := { work 2 (cmdOf 0 { cls := .free }) with rng := { exps := [(0, { ready := true, queue := [{ drbg := [], pos := 0, len := 32768 }] })] } }
     s.coreExec 0 = true ∧ 8 ∈ [1, 2, 4, 8] ∧ (s.exp (coreBench 0)).ready = true ∧ (s.core 0).rngBytes + 8 ≤ 512 ∧
       (draw (coreBench 0) 8 s).isSome = true) ∧
    (let s := run true
     s.coreExec 64 = true ∧ (s.core 64).sup = true ∧ (s.core 64).fncWritten = false ∧ (s.core 64).wlock = false ∧
       descriptorOk (64 ≤ 64) (s.core 64).win 15 0 = true ∧ (tget 0x7FF00 (s.core 64).fen 15).getLsbD 31 = false) ∧
    ((run false).coreExec 64 = true ∧ ((run false).core 64).sup = false) := by
  refine ⟨⟨by decide, by decide, by decide, by decide, rfl⟩, by decide, by decide⟩

end Sys2Proof.Tests

namespace Sys2Proof.Tests

/-! ### Time, dispatcher, benches -/

theorem witness_TickCounts : up.mainPower = true ∧ up.pw.stage ≠ .off := by decide

/-- `up` with dispatcher `d`. -/
def disp (d : Dsp) : State := { up with dsp := d }

theorem witness_SwapRequest : (disp {}).mainPower = true ∧ (disp {}).dsp.pend = false ∧
    (disp { pend := true }).dsp.pend = true ∧ (disp { pend := true }).dsp.captured = false ∧ (disp { pend := true }).dsp.rplPend = false ∧
    (disp { captured := true }).dsp.captured = true ∧
    (let s := disp { pend := true, captured := true, at_ := 2, tick := 511 }
     s.mainPower = true ∧ s.dsp.pend = true ∧ s.dsp.captured = true ∧ s.dsp.at_ = s.frame + 1 ∧ s.ftick = 255) ∧
    (disp { pend := true, captured := true, at_ := 3, tick := 511 }).dsp.at_ ≠ (disp { at_ := 3, tick := 511 }).frame + 1 ∧
      (disp { tick := 510 }).ftick ≠ 255 := by
  decide

theorem witness_ShadowWrites :
    (let b := fun (v : BitVec 64) j => v.toNat / 256 ^ j % 256
     up.mainPower = true ∧ 5119 < 64 * (5 * up.nBench) ∧ (∀ j < 4, b 0xFF3F00FF j = 0xFF ∨ b 0xFF3F00FF j < up.nLease) ∧ 15 < 16 ∧
      (∀ j < 4, (b 0xFF3F00FF j = 0xFF ∨ b 0xFF3F00FF j < up.nLease) ∧ (4 * 15 + j < 4 * up.nBench ∨ b 0xFF3F00FF j = 0xFF)) ∧
      (0xFFFFFFFFFFFFFFFF : BitVec 64).toNat < 2 ^ up.nLease ∧ ∃ j < 4, ¬(b 0x40 j = 0xFF ∨ b 0x40 j < up.nLease)) := by decide

theorem witness_SlotSwap :
    (let s := disp { pend := true, at_ := 2, tick := 509, coreS := [(0, 1)] }
     s.mainPower = true ∧ s.dsp.pend = true ∧ s.dsp.captured = false ∧ s.dsp.at_ = s.frame + 1 ∧ s.ftick = 253 ∧ 0 ∈ s.changingCores s.dsp.coreS) ∧
    (let s := disp { pend := true, captured := true, at_ := 2, tick := 511, repl := [{ bench := 1, at_ := 0, frame := 2 }] }
     s.mainPower = true ∧ s.dsp.pend = true ∧ s.dsp.captured = true ∧ s.dsp.at_ = s.frame + 1 ∧ s.ftick = 255 ∧
       (∀ r ∈ s.dsp.repl, r.frame ≤ s.dsp.at_) ∧
      (s.dsp.applyPend = true → s.dsp.applyLate = false)) := by decide

/-- `up` with bench 15 as `b`. -/
def bench15 (b : Bench) : State := { up with benches := [(15, b)] }

theorem witness_Quarantines :
    (up.mainPower = true ∧ 15 < up.nBench ∧ (up.bench 15).state ≠ .quarantined ∧ (up.bench 15).qPend = none) ∧
    ((bench15 { state := .ready, qPend := some (3, 4999) }).bench 15).qPend = some (3, 4999) ∧
    (let s := { bench15 { state := .quarantined, wipeEnd := 5000 } with rng := { pool := [[1]] } }
     (s.bench 15).state = .quarantined ∧ (s.bench 15).wipeDone = false ∧ (s.bench 15).wipeEnd ≤ s.pw.now ∧ s.rng.pool = [1] :: [] ∧
       (s.exp 15).inst = none ∧
       (({ s with rng := {} } : State).exp 15).inst = none ∧ ({ s with rng := {} } : State).rng.pool = [] ∧
       (({ s with rng := { exps := [(15, { inst := some 0 })] } } : State).exp 15).inst.isSome = true) ∧
    (let s := bench15 { state := .quarantined, wipeDone := true }
     s.mainPower = true ∧ (s.bench 15).state = .quarantined ∧ (s.bench 15).wipeDone = true) ∧
    (({ up with leases := [(63, { qPend := some 4999 })] } : State).lease 63).qPend.isSome = true := by decide

theorem witness_BenchPower :
    (let s := disp { repl := [{ bench := 3, at_ := 0, frame := 2 }], pend := true, at_ := 2 }
     s.dsp.repl.find? (fun r => decide (r.bench = 3) && !r.searched) = some { bench := 3, at_ := 0, frame := 2 } ∧
       (s.dsp.pend = true → s.dsp.captured = false → 2 ≤ s.dsp.at_)) ∧
    (let s := { up with pwr := { fifo := [4, 5], admitted := 1 } }
     s.mainPower = true ∧ s.pwr.fifo = 4 :: [5] ∧ s.pwr.admitted < 2) ∧
    (((bench15 { state := .waking, rampEnd := 5000 }).bench 15).state = .waking ∧
      ((bench15 { state := .waking, rampEnd := 5000 }).bench 15).rampEnd ≤ up.pw.now) ∧
    (let s := { bench15 { state := .ready, idleFrames := 2 } with dsp := { tick := 255 }, pwr := { idle := [(15, 3)] } }
     (s.bench 15).state = .ready ∧ s.ftick = 255 ∧ 0 < (tget 0 s.pwr.idle 15).toNat ∧ (tget 0 s.pwr.idle 15).toNat ≤ (s.bench 15).idleFrames + 1 ∧
       (s.bench 15).busy = false ∧ s.benchIdle 15 = true) := by decide

theorem witness_BenchPower_wake : up.mainPower = true ∧ ∀ m, (0x8002 : BitVec 16).getLsbD m = true →
    m < up.nBench ∧ (up.bench m).state = .off ∧ up.pwr.fail.getLsbD m = false ∧ m ∉ up.pwr.fifo ∧ m ∉ up.pwr.newReq := by
  refine ⟨by decide, fun m h => ?_⟩
  have lt := BitVec.lt_of_getLsbD h
  revert h
  revert m
  decide

/-! ### Haul queues and the host link -/

/-- `up` with queue 7 of lease 63 as `x`. -/
def queue7 (x : Queue) : State := { up with leases := [(63, { quota := 4 })], queues := [(8 * 63 + 7, x)] }

theorem witness_HaulQueues :
    (let x : Queue := { state := .active, cfg := 6, db := 0xFFFFFFFF, sqHead := 0xFFFFFFFE, cqTail := 5, cqDb := 4 }
     let s := queue7 x
     s.vfOpen 63 = true ∧ s.queue 63 7 = x ∧ x.state ≠ .disabled ∧ x.state ≠ .resetting ∧ (0x3E : BitVec 32) ≠ x.db ∧
       ((0x3E : BitVec 32) - x.db).toNat ≤ x.depth ∧
       ((0x3E : BitVec 32) - x.sqHead).toNat ≤ x.depth ∧ x.depth < ((0x3F : BitVec 32) - x.sqHead).toNat ∧
         ((5 : BitVec 32) - x.cqDb).toNat ≤ (x.cqTail - x.cqDb).toNat ∧
       (x.cqTail - x.cqDb).toNat < ((6 : BitVec 32) - x.cqDb).toNat) ∧
    (let x : Queue := { cfg := 0x110, sqBase := 0x1000, cqBase := 0x2000 }
     let s := queue7 x
     s.vfOpen 63 = true ∧ (s.queue 63 7).state = .disabled ∧ 63 < s.link.numVfs ∧ (s.lease 63).quarantined = false ∧ 6 ≤ x.cfg.toNat % 32 ∧
       x.cfg.toNat % 32 ≤ 16 ∧
       x.sqBase.toNat % 4096 = 0 ∧ x.cqBase.toNat % 4096 = 0 ∧ x.home < s.nBench ∧ x.cfg.toNat / 256 % 8 ≠ 0 ∧ ¬(6 ≤ (17 : Nat) % 32 ∧
         (17 : Nat) % 32 ≤ 16) ∧
       (0x1001 : BitVec 64).toNat % 4096 ≠ 0) ∧
    (let s := queue7 { state := .resetting }
     (s.queue 63 7).state = .resetting ∧ s.queueCmds 63 7 = []) ∧
    (let c : Cmd := { cmdOf 0x0100 { cls := .digest } with result := some (9, 0) }
     let s := { work 2 c with queues := [(8 + 2, { state := .resetting })] }
     (s.queue 1 2).state = .resetting ∧ 3 ∈ s.queueCmds 1 2 ∧ s.cmd 3 = some c ∧ c.result ≠ none) := by decide

/-- A queue entry of `len` units: NOP, no input, no output. -/
def entry (len : Nat) : Bytes := fixLen (16 * len) [0, 0, BitVec.ofNat 8 len]

theorem witness_Fetching :
    (let s := queue7 (queueOf 2)
     let x := queueOf 2
     s.canFetch 63 7 = true ∧ s.queue 63 7 = x ∧ headerBad x (entry 1) = false ∧ 1 ≤ diff x.db x.sqHead ∧ bodyBad x (entry 1) = false ∧
       entryRefusal s x 63 0 1 (newCmd s 63 7 x (entry 1) { entry := entry 1 }).foot = none ∧ headerBad x (fixLen 16 [0, 65]) = true ∧
       (let e := fixLen 16 [0xFF, 0xFF, 1]
        headerBad x e = false ∧ bodyBad x e = false ∧ entryRefusal s x 63 0xFFFF 1 (newCmd s 63 7 x e { entry := e }).foot = some (5, 0))) ∧
    (let c : Cmd := { cmdOf 0x0100 { cls := .digest } with stagedAt := none, readyAt := none }
     let s := work 2 c
     s.cmd 3 = some c ∧ c.result = none ∧ c.stagedAt = none ∧ s.mainPower = true ∧ c.held = true ∧ c.refuse = none ∧ s.canStage 3 c = true ∧
       (s.bench (s.cmdHome c)).state = .ready) ∧
    (let c : Cmd := { cmdOf 0x0100 { cls := .digest } with stagedAt := none, readyAt := none }
     let s := { work 2 c with benches := [] }
     s.cmd 3 = some c ∧ s.canStage 3 c = true ∧ (s.bench (s.cmdHome c)).state = .off ∧ s.classOf c ≠ .free ∧ s.cmdHome c < s.nBench ∧
       s.pwr.fail.getLsbD (s.cmdHome c) = false) ∧
    (let c : Cmd := { cmdOf 0x0100 { cls := .digest } with stagedAt := none, readyAt := none, outCap := 0, u3 := fixLen 16 [3] }
     let s := work 2 c
     s.cmd 3 = some c ∧ s.linesHere c = true ∧ (s.outSmall c).isSome = true) := by decide +kernel

/-- A command that ended in the tick before with `st`. -/
def ended3 (st need : Nat) : Cmd := { cmdOf 0x0100 { cls := .digest } with result := some (st, need), doneAt := 4999, out := [1, 2] }

theorem witness_Completions :
    (let s := work 2 (ended3 0 0)
     s.cmd 3 = some (ended3 0 0) ∧ (ended3 0 0).doneAt < s.pw.now ∧ s.mainPower = true ∧ s.nextToComplete 3 (ended3 0 0) = true ∧
       (ended3 0 0).mute = false ∧
       s.outHeld (ended3 0 0) = false ∧ (s.queue 1 2).malformed = none ∧ (s.queue 1 2).dbErr = false ∧ (s.queue 1 2).major ≠ 3 ∧
         [1, 2].take (ended3 0 0).outCap ≠ ([] : Bytes)) ∧
    (let c := { ended3 0 0 with copyFrom := some (0x10008000, 64) }
     let s := { work 2 c with held := [{ lo := 0x10008020, hi := 0x10008030, bench := 0, lease := 1 }] }
     s.cmd 3 = some c ∧ s.nextToComplete 3 c = true ∧ s.outHeld c = true) ∧
    (let c := ended3 0x0120 0
     let s := { work 3 c with queues := [(8 + 2, { queueOf 3 with batches := [{ id := 0, first := 0 }] })] }
     s.cmd 3 = some c ∧ s.nextToComplete 3 c = true ∧ (s.queue 1 2).major = 3 ∧ ∀ b ∈ (s.queue 1 2).batches, b.id = c.batch → b.closed = false) ∧
    (let c := ended3 0x0120 0
     let b : Batch := { id := 0, first := 0, count := 1, closed := true }
     let s := { work 3 c with queues := [(8 + 2, { queueOf 3 with batches := [b] })] }
     s.cmd 3 = some c ∧ s.nextToComplete 3 c = true ∧ (s.queue 1 2).batches = [b] ∧ b.id = c.batch ∧ b.closed = true ∧ b.res.length + 1 = b.count) ∧
    (let x : Queue := { state := .active, cfg := 0xFF00000006, unann := 1, age := 255 }
     x.unann ≠ 0 ∧ x.iage ≠ 0 ∧ x.iage ≤ x.age ∧ (tget msixReset up.link.msix (64 * (63 + 1) + x.iv)).getLsbD 96 = true ∧
      (tget msixReset ({ msix := [(64 * (63 + 1), 0)] } : Link).msix (64 * (63 + 1) + x.iv)).getLsbD 96 = false) := by decide

theorem witness_HostLink : up.vfOpen 63 = true ∧ up.running = true ∧ up.link.up = true ∧ 64 ≤ up.link.numVfs ∧ barDefined 64 0xFFFF = false ∧
  up.mainPower = true ∧
    up.pw.perst = true ∧ 70 ≤ 70 ∧ 72 ≤ 72 := by decide

end Sys2Proof.Tests

namespace Sys2Proof.Tests

/-! ### The command catalogue -/

/-- Command 3 of lease 1, with a part that has run all of its 8 ticks. -/
def ripe (op : Nat) : Cmd := cmdOf op { cls := .wedge, eng := some 3, ticks := 8, total := 8 }

theorem ripe_in (op : Nat) : Ripe 3 (ripe op) (work 2 (ripe op)) ∧
  (ripe op).opcode = op := ⟨⟨rfl, rfl, rfl, rfl, by simp [ripe, cmdOf], Nat.le_refl 8, rfl, rfl⟩, rfl⟩

/-- A GCM decryption whose whole input is the tag `t`. -/
def gcm (t : Bytes) : Cmd := { ripe 0x0205 with input := t, inLen := 16 }

theorem fixLen_fixLen (n : Nat) (b : Bytes) : fixLen n (fixLen n b) = fixLen n b := by
  have h : (fixLen n b).length = n := by simp [fixLen]
  unfold fixLen at *
  rw [List.take_append_of_le_length (by omega), List.take_of_length_le (by omega)]

/-- Both outcomes of the tag's comparison occur: with the right tag for the input, and with a wrong one. -/
theorem witness_CatalogueChecks : (∀ op, Ripe 3 (ripe op) (work 2 (ripe op)) ∧ (ripe op).opcode = op) ∧ (ripe 0).yref = 0 ∧
    ∃ t u : Bytes, (Ripe 3 (gcm t) (work 2 (gcm t)) ∧ fixLen 16 (Config.gcmTagRaw [] [] [] []) = slice (gcm t).input 0 16) ∧
      Ripe 3 (gcm u) (work 2 (gcm u)) ∧ fixLen 16 (Config.gcmTagRaw [] [] [] []) ≠ slice (gcm u).input 0 16 := by
  have r : ∀ t, Ripe 3 (gcm t) (work 2 (gcm t)) := fun t => ⟨rfl, rfl, rfl, rfl, by simp [gcm, ripe, cmdOf], Nat.le_refl 8, rfl, rfl⟩
  refine ⟨ripe_in, rfl, fixLen 16 (Config.gcmTagRaw [] [] [] []), ?_⟩
  have eq : ∀ b : Bytes, slice b 0 16 = fixLen 16 b := fun b => rfl
  by_cases h : fixLen 16 (Config.gcmTagRaw [] [] [] []) = slice (gcm (List.replicate 16 0)).input 0 16
  · refine ⟨List.replicate 16 1, ⟨r _, ?_⟩, r _, ?_⟩
    · show _ = slice (fixLen 16 _) 0 16
      rw [eq, fixLen_fixLen]
    · rw [h]; decide
  · exact ⟨List.replicate 16 0, ⟨r _, by show _ = slice (fixLen 16 _) 0 16; rw [eq, fixLen_fixLen]⟩, r _, h⟩

theorem witness_CatalogueKeys : (∀ op, Ripe 3 (ripe op) (work 2 (ripe op)) ∧ (ripe op).opcode = op) ∧ blobHeaderOk (ripe 0x0602).input = false ∧
    blobHeaderOk (fixLen 16 [1, 0, 1, 0, 4, 0, 1]) = true := ⟨ripe_in, by decide⟩

/-- A hybrid command whose two parts have run their ticks. -/
def hybrid (op : Nat) : Cmd := { ripe op with b := some { cls := .splitter, eng := some 2, ticks := 24, total := 24 } }

theorem witness_CatalogueSigning : (∀ op, Ripe 3 (ripe op) (work 2 (ripe op)) ∧ (ripe op).opcode = op ∧ (ripe op).a.cls ≠ .free) ∧
    ∀ op p, p = ({ cls := .splitter, eng := some 2, ticks := 24, total := 24 } : Part) → (work 2 (hybrid op)).cmd 3 = some (hybrid op) ∧
      (hybrid op).b = some p ∧
      (hybrid op).result = none ∧ (hybrid op).a.status = none ∧ p.status = none ∧ (hybrid op).a.total ≠ 0 ∧
        (hybrid op).a.total ≤ (hybrid op).a.ticks ∧
      p.total ≠ 0 ∧ p.total ≤ p.ticks ∧ (hybrid op).opcode = op ∧ (work 2 (hybrid op)).dsp.due = [] ∧
      ((work 2 (hybrid op)).engine ((hybrid op).a.eng.getD 84)).erased = none ∧ ((work 2 (hybrid op)).engine (p.eng.getD 84)).erased = none := by
  refine ⟨fun op => ⟨(ripe_in op).1, rfl, by simp [ripe, cmdOf]⟩, ?_⟩
  rintro op p rfl
  exact ⟨rfl, rfl, rfl, rfl, rfl, by simp [hybrid, ripe, cmdOf], Nat.le_refl 8, by simp, Nat.le_refl 24, rfl, rfl, rfl, rfl⟩

/-- Slots of lease 1: its root and, under it at slot 5, an X25519 key of generation 3. -/
def keySlots : Tbl Slot :=
  [(5, { type := 0x11, owner := 1, depth := 1, gen := 3, parent := 65473, pgen := 1, attr := 0x50, run := 1, value := List.replicate 64 0 }),
   (65473, { type := 0x3E, owner := 1, gen := 1, attr := 0x60, run := 1, value := List.replicate 32 0 })]

/-- `work` with these slots, a range of 256 slots and bedrock; pages 1 and 2 of bench 0 are lease 1's. -/
def keyed (c : Cmd) : State := { work 2 c with
  leases := [(1, { quota := 4, rangeCount := 256, inForce := [1] })], yard := { slots := keySlots }, vault := { bedrock := some [] },
  dsp := { core := [(0, 1)], page := [(1, 1), (2, 1)] } }

/-- A command without an engine, on the key at slot 5. -/
def free (op : Nat) : Cmd :=
  { cmdOf op { cls := .free } with yref := if op = 0 then 0 else 0x00030005, len := if op = 0 then 1 else 3, inLen := 0, input := [] }

theorem free_due (op : Nat) (h : op ∈ [0x0000, 0x0605, 0x0606, 0x0604]) : FreeDue op 3 (free op) (keyed (free op)) (keyed (free op)) := by
  simp only [List.mem_cons, List.not_mem_nil, or_false] at h
  rcases h with rfl | rfl | rfl | rfl <;> exact ⟨rfl, rfl, rfl, rfl, ⟨4999, rfl, by decide⟩, rfl, by decide, rfl, [], rfl⟩

/-- The RSA key of 3 and 5, and with blind 1 both that its result for 7 gives 7 back; a blind of 3 has no inverse. -/
def smallRsa : RsaKey :=
  rsaKey 0x20 (beBytes 256 15 ++ beBytes 128 3 ++ beBytes 128 5 ++ beBytes 128 1 ++ beBytes 128 1 ++ beBytes 128 2)

/-- Both outcomes of an RSA private operation's check occur. -/
theorem witness_CatalogueOutputs : (∀ op, Ripe 3 (ripe op) (work 2 (ripe op)) ∧ (ripe op).opcode = op) ∧ (ripe 0).yref = 0 ∧
  (cmdOf 0 (ripe 0).a).yref = 0 ∧
    (∀ op ∈ [0x0000, 0x0605, 0x0606, 0x0604], FreeDue op 3 (free op) (keyed (free op)) (keyed (free op)) ∧ (keyed (free op)).cmd 3 = some (free op)) ∧
    (free 0x0604).a.total = 0 ∧
    (Nat.gcd (1 % smallRsa.n) smallRsa.n = 1 ∧ powMod (smallRsa.private_ 7) 65537 smallRsa.n = 7 ∧ Nat.gcd (3 % smallRsa.n) smallRsa.n ≠ 1) ∧
    (let c := { cmdOf 0x0800 { cls := .core } with inLen := 0, input := [], u3 := fixLen 16 [0, 2] }
     let s := keyed c
     s.cmd 3 = some c ∧ s.callDue c = true ∧ c.admitted = false ∧ (r98 c false s).1 = 0 ∧ (s.lease c.lease).inForce ≠ [] ∧
       ((work 2 c).lease c.lease).inForce = []) := by
  refine ⟨ripe_in, rfl, rfl, fun op h => ⟨free_due op h, rfl⟩, rfl, by decide +kernel, by decide⟩

end Sys2Proof.Tests

namespace Sys2Proof.Tests

/-! ### Engines and jobs -/

/-- A running job of one request at 0x10008000, in page 1 of bench 0. -/
def theJob : Job := { jaddr := 0x10008000, state := .run, granted := true, count := 1, budget := 3584 }

/-- `keyed` with job `j` of lease 1 on engine `q` and the bytes `b` at 0x10008000. -/
def jobOn (q : Nat) (j : Job) (b : Bytes) : State := { keyed (cmdOf 0 { cls := .free }) with jobs := [(65 * q + 1, j)], ram := Memory.write [] 0x10008000 b, cmds := [] }

/-- `up` with core 0 of lease 1 at engine 5 n + e, whose job port is `j`. -/
def portOn (e : Nat) (j : Job) (x : Engine) : State := { jobOn e j [] with engines := [(e, x)] }

theorem witness_EngineJobs :
    (∀ e < 5, let s := portOn e { jaddr := 0x10008000 } { lock := true }
      s.portLease 0 = some 1 ∧ coreBench 0 = 0 ∧ (s.job e 1).state = .idle ∧ (s.engine e).jobs = true ∧ (s.job e 1).jaddr.toNat % 64 = 0) ∧
    (let s := portOn 0 { jaddr := 0x10008000 } { lock := true }
     s.inPages 0 1 0x10008000 (16 * 256) = true ∧
      (((List.range 256).map fun i => requestNeeds 0 (s.ramRead (0x10008000 + 16 * i) 16)).flatMap fun x => x.1.flatMap fun r => s.namedSlots 1 (BitVec.ofNat 32 r)).eraseDups.length ≤ 16) ∧
    ((portOn 4 {} { jobs := false }).engine 4).jobs = false ∧ ((portOn 4 { jaddr := 0x10008010, state := .done } {}).job 4 1).jaddr.toNat % 32 ≠ 0 ∧
    up.islandRuns = true ∧
    (let s := { portOn 3 { state := .wait } { clr := [1], run := .job 1 } with cmds := [] }
     (s.engine 3).clr = [1] ∧ s.leaseOn 3 1 = true) ∧
    (let s := { portOn 3 { state := .wait } { clr := [1] } with cmds := [] }
     (s.engine 3).clr = [1] ∧ s.leaseOn 3 1 = false ∧ (s.job 3 1).live = true) ∧
    (let c : Cmd := cmdOf 0x0200 { cls := .wedge, eng := some 3, ticks := 1, total := 8 }
     let s := { portOn 3 {} { clr := [1] } with cmds := [(3, c)] }
     (s.engine 3).clr = [1] ∧ s.leaseOn 3 1 = false ∧ s.cmd 3 = some c ∧ c.lease = 1 ∧ c.result = none ∧ c.a.eng = some 3 ∧ 0 < c.a.ticks) ∧
    (portOn 4 {} { own := [(7, 1)] }).ctxOwner 7 = 1 := by decide +kernel

theorem runs_of {q k size : Nat} {j : Job} {b : Bytes} {s : State} (h : k ≤ 64 ∧ s.job q k = j ∧ j.granted = true ∧ j.state = .run ∧ j.ending = none ∧
    j.idx < j.count ∧ 0 < j.budget ∧ s.ramRead (j.jaddr.toNat + size * j.idx) size = b ∧ s.dsp.due = [] ∧
      (s.engine q).erased = none) : Runs q k size j b s := h

/-- A cutter step. -/
def step16 (op w d a b m curve param : Nat) : Bytes := [op, w, d, a, b, m, curve, 0].map (BitVec.ofNat 8 ·) ++ leBytes 8 param

/-- A job whose cells hold 2 (cell 1), 3 (cell 2), 15 (cell 3), 1 (cell 4) and, SECRET, 7 (cell 5), with `left` of its step to go. -/
def cutJob (left : Option Nat) : Job := { theJob with left := left, cells := [(1, { val := 2 }), (2, { val := 3 }), (3, { val := 15 }), (4, { val := 1 }), (5, { val := 7, secret := true })] }

/-- The short steps: each runs and is well formed, on the values that its clauses ask for. -/
theorem witness_CutterRecords_short :
    (∀ b ∈ [step16 1 64 0 0 0 0 0 0x10008E00, step16 1 64 0 0 0 0 0 0x10008E01, step16 2 1 0 1 0 0 0 0x10008E00, step16 2 1 0 5 0 0 0 0x10008E00,
        step16 8 1 0 1 2 3 0 0, step16 9 1 0 1 2 3 0 0, step16 0x0A 1 0 1 0xFF 3 0 0, step16 8 1 0 1 2 2 0 0, step16 8 1 0 1 2 1 0 0, step16 0x11 4 0 1 2 0 1 0,
        step16 0x19 4 0 1 0 0 4 0, step16 3 4 0 0 0 0 0 (0x00030005 + 2 ^ 32), step16 4 4 0 1 0 0 0 (7 + 0x020000 + 65473 * 2 ^ 48)],
      Runs 0 1 16 (cutJob none) b (jobOn 0 (cutJob none) b) ∧ (stepOf b).bad = false) ∧
    (let s := jobOn 0 (cutJob none) []
     s.inPages 0 1 0x10008E00 512 = true ∧ (0x10008E01 % 2 ^ 32) % 8 ≠ 0 ∧ (cutJob none).limbs 3 1 % 2 = 1 ∧
       (cutJob none).limbs 1 1 < (cutJob none).limbs 3 1 ∧
      (cutJob none).limbs 2 1 < (cutJob none).limbs 3 1 ∧ (cutJob none).limbs 2 1 % 2 = 1 ∧ (cutJob none).limbs 2 1 ≤ (cutJob none).limbs 2 1 ∧
      s.checkRef 1 0x00030005 pubTypes 0 = 0 ∧ component (s.slot 5) 1 = some (4, false, 0)) ∧
    (let x := stepOf (step16 4 4 0 1 0 0 0 (7 + 0x020000 + 65473 * 2 ^ 48))
     ∃ j u, ystore 1 ((cutJob none).spend 36) x (jobOn 0 (cutJob none) (step16 4 4 0 1 0 0 0 (7 + 0x020000 + 65473 * 2 ^ 48))) = .done j u) := by
  refine ⟨?_, by decide +kernel, ⟨_, _, rfl⟩⟩
  intro b h
  simp only [List.mem_cons, List.not_mem_nil, or_false] at h
  rcases h with rfl | rfl | rfl | rfl | rfl | rfl | rfl | rfl | rfl | rfl | rfl | rfl | rfl <;> exact ⟨runs_of (by decide +kernel), by decide +kernel⟩

set_option Elab.async false in
/-- The long steps, one clock short of their end and at it. -/
theorem witness_CutterRecords_long :
    (∀ b ∈ [step16 0x0B 1 0 0 0 3 0 0, step16 0x0C 1 0 1 0 3 0 0, step16 0x0C 1 0 2 0 3 0 0, step16 0x0D 1 0 1 2 3 0 2, step16 0x0D 1 0 1 2 3 0 (4096 + 2 ^ 24 + 5 * 2 ^ 16),
        step16 0x10 4 0 1 0 0 1 1, step16 0x18 1 0 4 4 3 0 4, step16 0x1F 1 0 1 0 0 0 (0x0310 * 2 ^ 32),
        step16 0x1F 1 0 1 0 0 0 (0x0312 * 2 ^ 32), step16 0x1F 1 0 1 0 0 0 (0x0300 * 2 ^ 32)],
      (Runs 0 1 16 (cutJob (some 3585)) b (jobOn 0 (cutJob (some 3585)) b) ∧ (cutJob none).budget < 3585 ∧ (stepOf b).bad = false) ∧
      Runs 0 1 16 (cutJob (some 3584)) b (jobOn 0 (cutJob (some 3584)) b) ∧ 3584 ≤ (cutJob none).budget) ∧
    (let j := cutJob (some 1)
     j.limbs 3 1 % 2 = 1 ∧ j.limbs 1 1 < j.limbs 3 1 ∧ Nat.gcd (j.limbs 1 1) (j.limbs 3 1) = 1 ∧ Nat.gcd (j.limbs 2 1) (j.limbs 3 1) ≠ 1 ∧
       (j.cell 2).val < 2 ^ 2 ∧
      (j.cell 2).val < 2 ^ 4096 ∧ j.limbs 4 1 = 2 ^ 128 % j.limbs 3 1 ∧ (j.limbs 4 1) ^ 65537 % j.limbs 3 1 = j.limbs 4 1 ∧
        (j.limbs 1 1) ^ 65537 % j.limbs 3 1 ≠ j.limbs 4 1 ∧
      j.found = none ∧ ({ j with found := some 0x31 } : Job).found = some 0x31) := by
  refine ⟨?_, by decide +kernel⟩
  intro b h
  simp only [List.mem_cons, List.not_mem_nil, or_false] at h
  rcases h with rfl | rfl | rfl | rfl | rfl | rfl | rfl | rfl | rfl | rfl <;> exact ⟨⟨runs_of (by decide +kernel), by decide +kernel⟩, runs_of (by decide +kernel), by decide +kernel⟩

/-- A polynomial request. -/
def poly (op pd pa pb q inp out : Nat) : Bytes := fixLen 32 (([op, pd, pa, pb, q].map (BitVec.ofNat 8 ·) ++ List.replicate 11 0) ++ leBytes 8 inp ++ leBytes 4 out)

/-- A request of a whole job tick: a NATIVE of the splitter with its reference, or a wedge request of `n` input bytes. -/
def native (op ref : Nat) : Bytes := fixLen 32 ([0x1F, 0, 0, 0, 0, 0] ++ leBytes 2 op ++ leBytes 4 ref)
def wedge (mode chain n : Nat) : Bytes := fixLen 64 (leBytes 2 mode ++ leBytes 1 chain ++ [4] ++ List.replicate 16 0 ++ leBytes 4 n)

set_option Elab.async false in
/-- The requests of whole job ticks that a splitter and a wedge run. -/
def natives : List Bytes := [native 0x0401 7, native 0x0402 0, native 0x0402 7, native 0x0400 0, native 0x0410 0, native 0x0411 0, native 0x0411 7, native 0x0412 7]
def wedges : List Bytes := [wedge 0x0200 1 16, wedge 0x0200 0 16, wedge 0x0201 1 16, wedge 0x0202 1 16, wedge 0x0203 0 16, wedge 0x0204 0 16, wedge 0x0205 0 32,
  wedge 0x0206 0 16, wedge 0x0207 0 16, wedge 0x0700 0 0]

theorem witness_SplitterAndWedge :
    (∀ b ∈ [poly 1 7 0 0 1 0x10008400 0, poly 1 7 0 0 2 0x10008401 0, poly 2 0 7 0 2 0 0x10008400, poly 3 1 2 0 1 0 0, poly 4 1 2 0 2 0 0, poly 5 0 1 2 1 0 0, poly 5 0 1 2 2 0 0,
        poly 6 0 1 2 1 0 0, poly 7 0 1 2 2 0 0],
      Runs 2 1 32 theJob b (jobOn 2 theJob b) ∧ (splReq b).bad = false ∧ polyFc (splReq b) ≤ theJob.budget) ∧
    (let s := jobOn 2 theJob (poly 1 7 0 0 2 0x10008400 0)
     s.inPages 0 1 0x10008400 1024 = true ∧ (∀ i < 256, leNat (s.ramRead (0x10008400 + 4 * i) 4) < 3329) ∧
      3329 ≤ leNat (({ s with ram := Memory.write s.ram 0x10008400 [1, 13] } : State).ramRead 0x10008400 4)) ∧
    (∀ l ∈ [1, 2], ∀ b ∈ natives, Runs 2 1 32 { theJob with left := some l } b (jobOn 2 { theJob with left := some l } b) ∧ fieldLE b 0 1 = 0x1F) ∧
    natives.map (fieldLE · 6 2) = [0x0401, 0x0402, 0x0402, 0x0400, 0x0410, 0x0411, 0x0411, 0x0412] ∧
    (∀ l ∈ [1, 2], ∀ b ∈ wedges,
      Runs 3 1 64 { theJob with left := some l, total := 3 } b (jobOn 3 { theJob with left := some l, total := 3 } b) ∧
      fieldLE b 0 2 ∈ [0x0200, 0x0201, 0x0202, 0x0203, 0x0204, 0x0205, 0x0206, 0x0207, 0x0700]) ∧
    fieldLE (wedge 0x0202 1 16) 2 1 = 1 ∧ 0 < fieldLE (wedge 0x0202 1 16) 20 4 ∧
      fieldLE (wedge 0x0205 0 32) 8 4 + 16 ≤ fieldLE (wedge 0x0205 0 32) 20 4 := by
  refine ⟨?_, by decide +kernel, ?_, by decide +kernel, ?_, by decide +kernel⟩
  · intro b h
    simp only [List.mem_cons, List.not_mem_nil, or_false] at h
    rcases h with rfl | rfl | rfl | rfl | rfl | rfl | rfl | rfl | rfl <;> exact ⟨runs_of (by decide +kernel), by decide +kernel⟩
  · have h : ∀ l ∈ [1, 2], ∀ b ∈ natives, (let j := { theJob with left := some l }
        let s := jobOn 2 j b
        s.job 2 1 = j ∧ s.ramRead 0x10008000 32 = b ∧ fieldLE b 0 1 = 0x1F) := by decide +kernel
    intro l hl b hb
    obtain ⟨h1, h2, h3⟩ := h l hl b hb
    exact ⟨⟨by decide, h1, rfl, rfl, rfl, (by decide : 0 < 1), (by decide : 0 < 3584), h2, rfl, rfl⟩, h3⟩
  · have h : ∀ l ∈ [1, 2], ∀ b ∈ wedges, (let j := { theJob with left := some l, total := 3 }
        let s := jobOn 3 j b
        s.job 3 1 = j ∧ s.ramRead 0x10008000 64 = b ∧
          fieldLE b 0 2 ∈ [0x0200, 0x0201, 0x0202, 0x0203, 0x0204, 0x0205, 0x0206, 0x0207, 0x0700]) := by decide +kernel
    intro l hl b hb
    obtain ⟨h1, h2, h3⟩ := h l hl b hb
    exact ⟨⟨by decide, h1, rfl, rfl, rfl, (by decide : 0 < 1), (by decide : 0 < 3584), h2, rfl, rfl⟩, h3⟩

/-- A digest request. -/
def dig (op ctx alg : Nat) (decl len addr : Nat) : Bytes :=
  fixLen 32 ([op, ctx, alg, 0, 0, 0, 0, 0].map (BitVec.ofNat 8 ·) ++ leBytes 4 decl ++ [0, BitVec.ofNat 8 len, 0, 0] ++ leBytes 4 addr)

set_option Elab.async false in
/-- `jobOn` for the digest engine of bench 0, whose contexts are lease 1's and whose context 7 is `c`. -/
def digOn (j : Job) (b : Bytes) (c : DigCtx) : State := { jobOn 4 j b with engines := [(4, { own := (List.range 8).map fun i => (i, 1) })], dig := [(7, c)] }

theorem witness_DigestEngines :
    (let b := dig 1 7 1 64 0 0
     let s := digOn theJob b { fed := 1 }
     Runs 4 1 32 theJob b s ∧ fieldLE b 0 1 = 1 ∧ fieldLE b 1 1 ≤ 7 ∧ s.ctxOwner 7 = 1 ∧ onlyFields b 32 [(0, 2), (2, 11), (16, 8)] = true ∧
       (s.ctx 0 7).state = .free ∧
      (∃ d, openCtx b = some d ∧ d.keyed = false ∧ d.decl ≠ 0) ∧ fieldLE b 20 4 = 0) ∧
    (let b := dig 2 7 0 0 0 0x10008100
     let j := { theJob with left := some 1, feed := 64 }
     Runs 4 1 32 j b (digOn j b { state := .open_, alg := 1, outLen := 32, decl := 64 }) ∧ j.feed ≠ 0 ∧
       (0 : BitVec 32) + BitVec.ofNat 32 (min 64 (algK 1)) = 64) ∧
    (let b := dig 3 7 0 0 32 0x10008100
     let s := digOn theJob b { state := .done, alg := 1, outLen := 32, result := List.replicate 32 0 }
     Runs 4 1 32 theJob b s ∧ onlyFields b 32 [(0, 2), (13, 1), (16, 4)] = true ∧ (s.ctx 0 7).state = .done ∧ 1 ≤ 32 ∧ 32 ≤ (s.ctx 0 7).outLen ∧
      s.inPages 0 1 0x10008100 32 = true ∧ (s.ctx 0 7).result.take 32 = s.ramRead 0x10008100 32) ∧
    (let b := dig 3 7 0 0 32 0x10008100
     let s := digOn theJob b { state := .open_ }
     Runs 4 1 32 theJob b s ∧ (s.ctx 0 7).state ≠ .done) ∧
    (let b := dig 4 7 0 0 0 0
     Runs 4 1 32 theJob b (digOn theJob b { state := .open_ }) ∧ onlyFields b 32 [(0, 2)] = true) ∧
    (let byte := fun (v : BitVec 64) i => v.toNat / 256 ^ i % 256
     up.islandRuns = true ∧ 15 < up.nBench ∧ (up.engine 84).lock = false ∧
       (∀ i < 8, byte 0xFF3F00FFFFFFFFFF i = 0xFF ∨ byte 0xFF3F00FFFFFFFFFF i < up.nLease) ∧
      ∃ i < 8, byte 0xFFFFFFFFFFFFFF40 i ≠ 0xFF ∧ up.nLease ≤ byte 0xFFFFFFFFFFFFFF40 i) ∧
    (let x : Held := { lo := 0x20000000, hi := 0x20001000, bench := 0, lease := 1 }
     (({ up with held := [x] } : State).heldIn 0x20000FFF 1) = some x) := by
  refine ⟨⟨runs_of (by decide +kernel), by decide +kernel, by decide +kernel, by decide +kernel, by decide +kernel, by decide +kernel, ⟨_, rfl, by decide, by decide⟩, by decide +kernel⟩,
    ⟨runs_of (by decide +kernel), by decide +kernel⟩, ⟨runs_of (by decide +kernel), by decide +kernel⟩, ⟨runs_of (by decide +kernel), by decide +kernel⟩,
    ⟨runs_of (by decide +kernel), by decide +kernel⟩, by decide +kernel, by decide +kernel⟩

end Sys2Proof.Tests

namespace Sys2Proof.Tests

/-! ### The key yard, grants, ceremonies and programs -/

/-- `keyed` with load port 1 as `p`. -/
def loadOn (p : LoadPort) : State := let s := keyed (cmdOf 0 { cls := .free }); { s with cmds := [], yard := { s.yard with ports := [(1, p)] } }

/-- A BUSY port for a key of type `t` from 0x10008000 into slot 6 under the root. -/
def busyPort (t src : Nat) : LoadPort := { state := 1, src := BitVec.ofNat 64 src, ctl := BitVec.ofNat 64 (2 ^ 63 + t * 2 ^ 48 + 65473 * 2 ^ 16 + 6) }

theorem witness_KeyYard_loads :
    (up.running = true ∧ 2 ^ 63 ≤ (0xFFFFFFFFFFFFFFFF : BitVec 64).toNat ∧ (up.port 64).state ≠ 1 ∧ (0x7FFFFFFFFFFFFFFF : BitVec 64).toNat < 2 ^ 63) ∧
    (let s := loadOn (busyPort 0x11 0x10008000)
     (s.port 1).state = 1 ∧ loadStatus s 1 (s.port 1) = 0) ∧
    (let s := loadOn (busyPort 0x2F 0x10008000)
     (s.port 1).state = 1 ∧ loadStatus s 1 (s.port 1) = 2 ∧ 1 < loadStatus s 1 (s.port 1)) ∧
    (let s := loadOn (busyPort 0x11 0x10008001)
     (s.port 1).state = 1 ∧ loadStatus s 1 (s.port 1) = 1) := by decide +kernel

theorem witness_KeyYard_steps :
    (let c : Cmd := { free 0x0606 with stagedAt := none }
     let s := keyed c
     (s.bench 0).state ≠ .quarantined ∧ (s.bench 0).resident 5 = false ∧ s.wanted 0 5 = true ∧ (s.bench 0).fillAt ≠ s.pw.now + 1 ∧
       (s.bench 0).lines.length < 4096) ∧
    (let s := { up with yard := { slots := [(5, { type := 0x11, gen := 3, pending := true, value := List.replicate 64 0 })], checks := [{ slot := 5, unwrap := false }] } }
     s.running = true ∧ s.flg.pass = none ∧ s.yard.checks = [{ slot := 5, unwrap := false }] ∧ (s.slot 5).pending = true) ∧
    (let c : PendCheck := { slot := 5, unwrap := false, endAt := some 5000 }
     let s := { up with yard := { slots := [(5, { type := 0x11, gen := 3, pending := true, value := List.replicate 64 0 })], checks := [c] } }
     s.yard.checks.find? (fun c => c.slot = 5) = some c ∧ c.endAt = some 5000 ∧ 5000 ≤ s.pw.now ∧ (s.slot 5).pending = true ∧
       isRsa (s.slot 5).type = false ∧ c.unwrap = false) ∧
    (let s := { up with dsp := { tick := 255 }, yard := { pos := 61440, slots := [(65535, { type := 0x11, gen := 0xFFFF })] } }
     s.mainPower = true ∧ s.ftick = 255 ∧ s.yard.swept ≠ some s.frame ∧ s.yard.pos ≤ 65535 ∧ 65535 < s.yard.pos + 4096 ∧ (s.slot 65535).type ≠ 0x2F ∧
       s.orphan 65535 = true) ∧
    (let y : Slot := { type := 1, gen := 3 }
     let s := { up with yard := { slots := [(5, y)], half := 16383, toStore := [(5, some y)] } }
     s.running = true ∧ s.yard.half < 16384 ∧ s.yard.store.getLast? = none ∧ s.yard.toStore = (5, some y) :: []) ∧
    (let y : Slot := { type := 1, gen := 3 }
     let r : StoreRec := { seq := 1, slot := 5, key := some y, bedGen := 1, body := List.replicate 192 0 }
     let s := { up with yard := { slots := [(5, y)], half := 1, store := [r] } }
     s.running = true ∧ s.yard.store.getLast? = some r ∧ r.commit = [] ∧ r.dead = false ∧ r.slot = 5 ∧ r.key = some y ∧ y.type ≠ 0x2F ∧
       isRsa y.type = false ∧ (s.slot 5).type ≠ 0 ∧
      (s.slot 5).gen = y.gen) ∧
    (let r : StoreRec := { seq := 1, slot := 5, key := none, bedGen := 1, body := List.replicate 192 0, commit := List.replicate 32 0 }
     let s := { up with yard := { half := 16384, store := [r] } }
     s.running = true ∧ 16384 ≤ s.yard.half ∧ s.yard.store.getLast? = some r ∧ r.commit ≠ []) := by decide +kernel

/-- `up` with lease 63 as `l`. -/
def lease63 (l : Lease) : State := { up with leases := [(63, l)] }

/-- The sub-block entry `o` of lease 63. -/
def req63 (o sub : Nat) : Req := req 1 (0x4000 + 0x40 * 63 + o) sub

/-- Lease 63 with a DUAL slot in its range. -/
def dual63 : State := { lease63 { rangeBase := 5, rangeCount := 1 } with
  vault := { bedrock := some [] }, yard := { slots := [(5, { type := 0x3E, attr := 0x100 })] } }

theorem witness_LeaseEntries :
    (Accepted (req63 3 1) 3 up ∧ (req63 3 1).ep = 1 ∧ subLease (req63 3 1).index = some 63 ∧ 63 < up.nLease ∧ (req63 3 1).index % 0x40 = 3 ∧
      (req63 3 1).sub = 1 ∧
      ([0, 0xFF] : Bytes).length = 2 ∧ up.rangeOk 63 0xFF00 0 = true ∧ up.rangeOk 63 0 65408 = true ∧ up.rangeOk 63 0 65409 = false) ∧
    (Accepted (req63 0x10 31) 3 (lease63 { quorumM := 1, quorumN := 1 }) ∧ (req63 0x10 31).index % 0x40 = 0x10 ∧
      (lease63 { quorumM := 1, quorumN := 1 }).holdsDual 63 = false ∧
      1 ≤ leNat [1] ∧ leNat [1] ≤ ((lease63 { quorumM := 1, quorumN := 1 }).lease 63).quorumN ∧ leNat [16] ≤ 16 ∧
        (List.replicate 48 (1 : Byte)).length = 48 ∧
      (setCred [] 15 (List.replicate 48 1)).isSome = true) ∧
    (Accepted (req63 0x10 1) 3 dual63 ∧ dual63.holdsDual 63 = true ∧ dual63.isOfficer 1 = false) ∧
    (Accepted (req63 0x13 1) 3 (lease63 { epoch := 0xFFFF }) ∧ (req63 0x13 1).index % 0x40 = 0x13 ∧
      (lease63 { epoch := 0xFFFF }).holdsDual 63 = false ∧
      (lease63 { epoch := 0xFFFF }).namesKey 63 = false) ∧
    (let s := { up with cmds := [(3, { free 0x0606 with lease := 63 })] }
     Accepted (req63 0x13 1) 3 s ∧ s.holdsDual 63 = false ∧ (s.lease 63).quarantined = false ∧ s.namesKey 63 = true) := by
  repeat' first | decide +kernel | exact accepted_of (by decide +kernel) | apply And.intro

/-- A lease that asks for the most uses and frames of a grant. -/
def asks63 : Lease := { quorumM := 1, quorumN := 1, creds := [List.replicate 48 1], reqUses := 65535, reqFrames := 16777215 }

theorem witness_Grants :
    (Accepted (req63 0x11 4) 3 (lease63 asks63) ∧ (req63 0x11 4).index % 0x40 = 0x11 ∧ asks63.configured = true ∧ 1 ≤ asks63.reqUses ∧
      asks63.reqUses ≤ 65535 ∧
      1 ≤ asks63.reqFrames ∧ asks63.reqFrames ≤ 16777215 ∧ (lease63 asks63).cust.collect = none) ∧
    Accepted (req63 0x11 4) 3 { lease63 asks63 with cust := { collect := some { purpose := 1, lease := 0xFF, counted := [], endFrame := 9 } } } ∧
    (let c : Collect := { purpose := 0, lease := 63, counted := [], endFrame := 9 }
     let s : State := { lease63 asks63 with cust := { collect := some c }, crd := { sess := { purpose := 1, lease := 63, cred := List.replicate 48 1, verifyAt := some 4960 } } }
     (s.sess 0).verifyAt = some 4960 ∧ s.flg.pass = none ∧ s.pfl.upd = none ∧ max 4960 s.flg.idleAt + 40 ≤ s.pw.now ∧ s.running = true ∧
       s.cust.collect = some c ∧ ((s.sess 0).purpose, (s.sess 0).lease) = s.authPurpose ∧
      s.position (s.sess 0).cred = some 0 ∧ 0 ∉ c.counted ∧ s.threshold c ≤ c.counted.length + 1 ∧
      c.counted.length + 1 < ({ s with leases := [(63, { asks63 with quorumM := 2, quorumN := 2 })] } : State).threshold c) ∧
    (let s : State := { up with dsp := { tick := 511 }, cust := { collect := some { purpose := 0, lease := 63, counted := [], endFrame := 2 } } }
     256 * 2 ≤ s.dsp.tick.toNat + 1) ∧
    (let g : Grant := { scope := 0, uses := 1, endFrame := 2, fromTick := 0 }
     (({ lease63 { grant := some g } with dsp := { tick := 511 } } : State).lease 63).grant = some g ∧
       256 * g.endFrame ≤ (511 : BitVec 64).toNat + 1 ∧
      (510 : BitVec 64).toNat + 1 < 256 * g.endFrame) ∧
    (Accepted (req63 0x11 5) 3 up ∧ (req63 0x11 5).sub = 5) := by
  repeat' first | decide +kernel | exact accepted_of (by decide +kernel) | apply And.intro

set_option Elab.async false in
/-- `keyed` in FIELD with an open ceremony over every lease, bound to the PF, and `k` under way. -/
def ceremony (k : Option KeyLoad) : State := { keyed (cmdOf 0 { cls := .free }) with
  lcs := { state := .field }
  leases := [(1, { rangeCount := 256, quorumM := 2, quorumN := 2 })]
  cust := { m := 1, n := 1, bind := some 1, keyLoad := k, ceremony := some { scope := 0xFFFFFFFFFFFFFFFF, number := 1, opened := 0, lastFrame := 0, endpoint := 1 } } }

def loading : KeyLoad := { lease := 1, target := 6, parent := 65473, type := 2, len := 0, attr := 0, c := 2, gen := false, done := [0, 1], value := List.replicate 32 0 }

theorem witness_Ceremonies :
    (let s : State := { up with lcs := { state := .field }, cust := { m := 1, n := 1 } }
     Accepted (req 0 0x2030 1) 3 s ∧ (req 0 0x2030 1).ep ≤ 1 ∧ (List.replicate 8 (0xFF : Byte)).length = 8 ∧ s.lcs.state = .field ∧ s.cust.m ≠ 0 ∧
       s.cust.n ≠ 0 ∧
      s.cust.collect = none ∧ s.cust.ceremony = none ∧ leNat (List.replicate 8 0xFF) < 2 ^ s.nLease) ∧
    (Accepted (req 1 0x2030 3) 3 (ceremony none) ∧ (ceremony none).isOfficer 1 = true ∧ (ceremony none).cust.ceremony.isSome = true) ∧
    256 * (0 + 458752) ≤ (117440511 : BitVec 64).toNat + 1 ∧ (117440510 : BitVec 64).toNat + 1 < 256 * (0 + 458752) ∧
    ((ceremony none).running = true ∧ (ceremony none).isOfficer 1 = true ∧
      (ceremony none).keyLoadOk { lease := 1, target := 6, parent := 65473, type := 2, len := 0, attr := 0, c := 2, gen := false } = true) ∧
    (let s := ceremony (some loading)
     s.running = true ∧ s.isOfficer 1 = true ∧ s.cust.keyLoad = some loading ∧ loading.c ≤ loading.done.length ∧ s.orphan loading.parent = false ∧
      s.checkTarget 1 6 1 65473 (hasAttr loading.attr aPERSIST) = 0) := by
  repeat' first | decide +kernel | exact accepted_of (by decide +kernel) | apply And.intro

/-- The smallest image: one window on the program page, two bytes of code. -/
def image : Bytes :=
  fixLen 2048 ([0x53, 0x56, 0x54, 0x50, 1, 0, 0, 0] ++ leBytes 4 2058 ++ List.replicate 20 0 ++ [2, 0, 1]) ++ leBytes 8 (1 + 5 * 2 ^ 8) ++ List.replicate (2 + 3373) 0

theorem witness_Programs :
    (let s := opened (req63 0x20 0) up
     63 < s.nLease ∧ Accepted (req63 0x20 0) 7 s ∧ (s.session (req63 0x20 0)).isSome = true ∧ (s.lease 63).verifying = none ∧ (s.lease 63).body = [] ∧
      s.lcs.state = .claimed ∧ programOk image = true ∧ image ≠ []) ∧
    ({ progMl := sha3 (slice image 96 1952) } : Lease).keyOk image = true ∧
    (let s := opened (req63 0x20 0) { up with lcs := {} }
     Accepted (req63 0x20 0) 7 s ∧ (s.session (req63 0x20 0)).isSome = true ∧ s.lcs.state = .blank) ∧
    (let s := opened (req63 0x20 0) { up with lcs := { state := .field } }
     Accepted (req63 0x20 0) 7 s ∧ (s.session (req63 0x20 0)).isSome = true ∧ s.lcs.state = .field ∧ programOk (image.take 5430) = false) ∧
    (let s := opened (req63 0x20 0) (lease63 { verifying := some ([1], 4959) })
     (s.session (req63 0x20 0)).isSome = true ∧ s.pfl.upd = none ∧ (s.lease 63).verifying = some ([1], 4959) ∧ s.running = true ∧
       max 4959 s.flg.idleAt + 41 ≤ s.pw.now ∧ s.flg.pass = none ∧
       Accepted (req63 0x20 0) 7 s ∧ (s.lease 63).verifying ≠ none) ∧
    (let s := lease63 { body := [1] }
     (s.lease 63).verifying = none ∧ (s.lease 63).body = [1] ∧ s.running = true) ∧
    (let s := lease63 { progPend := true }
     (s.lease 63).progPend = true ∧ s.running = true ∧ 63 ∉ s.dsp.fresh ∧ s.dsp.pend = false ∧ ({ pend := true } : Dsp).captured = false) ∧
    (Accepted (req63 0x21 1) 3 up ∧ (req63 0x21 1).index = 0x4000 + 0x40 * 63 + 0x21 ∧ (List.replicate 32 (0 : Byte)).length = 32) ∧
    (Accepted (req63 0x22 4) 3 (lease63 { minSvn := 5 }) ∧ (req63 0x22 4).index = 0x4000 + 0x40 * 63 + 0x22 ∧ 5 ≤ leNat [5, 0, 0, 0] ∧
      leNat [4, 0, 0, 0] < 5) := by
  have key : ({ progMl := sha3 (slice image 96 1952) } : Lease).keyOk image = true := by
    have a : slice image 64 32 = fixLen 32 ({ progMl := sha3 (slice image 96 1952) } : Lease).progEd := by decide +kernel
    have b : (sha3 (slice image 96 1952)).take 32 = sha3 (slice image 96 1952) := List.take_of_length_le (by simp [sha3, fixLen])
    simp [Lease.keyOk, a, b]
  repeat' first | exact key | decide +kernel | exact accepted_of (by decide +kernel) | apply And.intro

/-! ### The random chain -/

/-- `up` with the chain `r`. -/
def chain (r : Rng) : State := { up with rng := r }

/-- Every expander as `x`. -/
def allExps (x : Exp) : Tbl Exp := (List.range 17).map fun e => (e, x)

theorem witness_RandomChain :
    ((chain {}).chainRuns = true ∧ (chain {}).rng.state = .warmup ∧ (chain {}).rng.start ≤ up.pw.now ∧ (chain {}).rng.failPend = false) ∧
    (let passed := fun (r : Rng) => ((List.range 16).filter fun i => (r.testing &&& ~~~r.retests &&& ~~~r.mask).getLsbD i).length
     let r : Rng := { state := .test, start := 4936, testing := 0xF, mask := 0 }
     (chain r).chainRuns = true ∧ r.start + 64 ≤ up.pw.now ∧ 4 ≤ passed r ∧ passed { r with retest := [(0, 4990)] } < 4) ∧
    (let s := chain { state := .seeding, exps := allExps { queue := [{ drbg := [], pos := 0, len := 31745 }] } }
     s.rng.state = .seeding ∧ ∀ f ∈ s.expanders, 31744 < (s.exp f).qbytes) ∧
    (let s := chain { state := .seeding, raw := 2048 }
     s.chainRuns = true ∧ s.rng.failPend = false ∧ 2048 ≤ s.rng.raw ∧ 16 ∈ s.expanders ∧ (s.exp 16).inst = none ∧
       ∀ f ∈ s.expanders, s.before 16 f = true) ∧
    (let s := chain { state := .run, raw := 2048, exps := allExps { inst := some 0, asks := false } }
     s.chainRuns = true ∧ s.rng.state = .run ∧ ∀ f ∈ s.expanders, ¬((s.exp f).inst = none ∨ (s.exp f).asks = true)) ∧
    (let s := chain { state := .run, pool := [[1]], exps := allExps { inst := some 0, reqs := 0x1000000 } }
     s.rng.pool = [1] :: [] ∧ (s.exp 16).inst ≠ none ∧ (s.exp 16).asks = true ∧ 16 ∈ s.expanders ∧
      (∀ f ∈ s.expanders, (s.exp f).asks = true → (s.exp f).inst ≠ none → s.before 16 f = true) ∧
      (s.exp 15).stretch = false ∧ (s.exp 15).blocked = false ∧ 2 ^ 16 ≤ (s.exp 15).reqs.toNat ∧ 2 ^ 24 ≤ (s.exp 15).reqs.toNat) ∧
    (let s := chain { state := .failed }
     s.islandRuns = true ∧ s.chainRuns = true ∧ s.rng.state = .failed ∧ s.rng.auto = true ∧ s.rng.autoLeft ≠ 0 ∧ s.ftick = 0 ∧
       s.rng.restartAt = none) ∧
    (chain { state := .run }).rng.state ≠ .failed := by decide +kernel

theorem witness_RandomSources :
    (let healthy := fun (excl mask : BitVec 16) => ((List.range 16).filter fun j => !excl.getLsbD j && !mask.getLsbD j).length
     let s := chain { state := .run, excl := 0x7FF0, testing := 0x4000, retest := [(14, 4936)], fails := [{ src := 15, apt := true, tick := 4999, sample := 3 }] }
     s.rng.fails.find? (fun f => f.src = 15 && f.apt = true) = some { src := 15, apt := true, tick := 4999, sample := 3 } ∧
      s.rng.fails.find? (fun f => f.src = 15 && f.apt = false) = none ∧ (∀ f ∈ s.rng.fails, f.src ≠ 14) ∧ s.chainRuns = true ∧ 15 < 16 ∧
        s.rng.mask.getLsbD 15 = false ∧ s.rng.state ≠ .warmup ∧ s.rng.excl.getLsbD 15 = false ∧ s.rng.testing.getLsbD 14 = true ∧
      s.rng.excl.getLsbD 13 = true ∧ s.rng.testing.getLsbD 13 = false ∧ tfind s.rng.retest 14 = some 4936 ∧ 4936 + 64 ≤ s.pw.now ∧
      4 ≤ healthy s.rng.excl s.rng.mask ∧ healthy (s.rng.excl ||| 0x8000) s.rng.mask = 4 ∧ healthy (s.rng.excl ||| 0x8000 ||| 1) s.rng.mask < 4 ∧
      s.islandRuns = true ∧ s.rng.lock = false ∧ 4 ≤ healthy s.rng.excl 0x7FF0 ∧ healthy s.rng.excl 0x000F < 4) ∧
    (let s := chain { lock := true }
     s.islandRuns = true ∧ s.rng.lock = true ∧ (0 : BitVec 16) = s.rng.mask) := by decide +kernel

end Sys2Proof.Tests

namespace Sys2Proof.Tests

/-! ### The flash gate and the ledger -/

/-- A manifest of one region: on port A, of kind 0, 4,096 bytes at 0. -/
def man : Bytes := fixLen 192 (List.replicate 48 0 ++ [0, 2, 0, 1] ++ List.replicate 76 0 ++ [0, 0, 0, 0] ++ leBytes 4 0 ++ leBytes 4 4096)

/-- `up` with the gate in pass `p`, port A present and the island expander READY. -/
def pass (p : Pass) : State := { up with flg := { pass := some p, portA := { present := true, dens := 24, mode := 2 } }, rng := { exps := [(16, { ready := true, queue := [{ drbg := [], pos := 0, len := 256 }] })] } }

theorem witness_GatePass :
    (let s : State := { up with flg := { plt := true } }
     s.running = true ∧ s.flg.plt = true ∧ s.flg.pass = none ∧ s.pfl.upd = none ∧ ({ s with pfl := { upd := some (1, []) } } : State).pfl.upd ≠ none ∧
       s.vault.latch = false ∧ ({ s with vault := { latch := true } } : State).vault.latch = true ∧
       ({ plt := true, bmcb := true, owner := 1 } : Flg).bmcb = true ∧ ({ plt := true, bmcb := true, owner := 1 } : Flg).owner = 1) ∧
    (let s : State := { up with flg := { holdAt := some 4599 } }
     s.flg.pass = none ∧ s.flg.holdAt = some 4599 ∧ 4599 + 401 ≤ s.pw.now) ∧
    (let p : Pass := { startAt := 4599, stepAt := 0 }
     (pass p).flg.pass = some p ∧ p.step = .hold ∧ p.startAt + 401 ≤ up.pw.now) ∧
    (let p : Pass := { step := .verify, startAt := 0, stepAt := 4959 }
     (pass p).flg.pass = some p ∧ p.stepAt + 41 ≤ up.pw.now) ∧
    (let p : Pass := { step := .discover, startAt := 0, stepAt := 4960, manifest := man }
     (pass p).flg.pass = some p ∧ p.stepAt + 40 ≤ up.pw.now ∧ p.manifest ≠ [] ∧ nreg p.manifest ≠ 0) ∧
    (let p : Pass := { step := .measure, startAt := 0, stepAt := 0, manifest := man }
     let s := pass p
     p.stepAt + s.flg.regionTicks (region man 0) ≤ up.pw.now ∧ p.results.length + 1 = nreg man ∧ s.recorded = true ∧ p.manBad = false ∧ man ≠ [] ∧
       p.forced = false ∧
      fieldLE man 48 1 ≠ 3 ∧ firstFailure [s.flg.measure man 0 { desc := [], data := [] }] = none ∧ p.results.length + 1 ≠ nreg (man.set 51 2)) ∧
    (let p : Pass := { step := .recover, startAt := 0, stepAt := 0 }
     let s := pass p
     s.recorded = true ∧ p.stepAt + s.flg.checkTicks p + s.flg.againTicks p ≤ s.pw.now ∧ ([] : List RegData).length = (failing p.results).length ∧
       (∀ i ∈ failing p.results, fieldLE (region p.manifest i) 2 1 ≠ 0) ∧
      (∀ e ∈ (failing p.results).zip ([] : List RegData), s.flg.backupGood p.manifest e.1 e.2 = true) ∧ nreg p.manifest = 0) := by decide +kernel

theorem test_attempts : ∀ (seed ctx msg rnd : Bytes), 28 + 8 * attemptsOf seed ctx msg rnd ≤ 2076 := by
  intro a b c d
  unfold attemptsOf
  omega

theorem witness_LedgerRecord :
    (let p : Pass := { step := .record, startAt := 0, stepAt := 0 }
     let s : State := { pass p with ldg := { newest := 4096, ack := 1 } }
     ∀ seed ctx msg rnd, p.step = .record ∧ s.ldg.wouldLose (s.ldg.newest + 1) = false ∧ 32 ≤ (s.exp 16).qbytes ∧
       p.stepAt + max 64 (28 + 8 * attemptsOf seed ctx msg rnd) < s.pw.now) ∧
    (up.exp 16).qbytes < 32 ∧
    (let p : Pass := { step := .commit, startAt := 0, stepAt := 0 }
     let s : State := { pass p with ldg := { newest := 4096, slots := [(0, { record := List.replicate 3884 0, commit := [] })] } }
     s.flg.pass = some p ∧ p.step = .commit ∧
       tfind s.ldg.slots ((s.ldg.newest + 1 + 4095) % 4096) = some { record := List.replicate 3884 0, commit := [] } ∧
       s.ldg.ring ≠ 1 ∧ p.verdict ≠ 2 ∧ ({ p with verdict := 2 } : Pass).verdict = 2) ∧
    (let s : State := { up with flg := { relAt := some 4980 } }
     s.flg.relAt = some 4980 ∧ s.flg.selAt = none ∧ s.mainPower = true ∧ 4980 + 20 ≤ s.pw.now) ∧
    (let s : State := { up with flg := { relAt := some 4976, selAt := some 4996 } }
     s.flg.relAt = some 4976 ∧ s.flg.selAt = some 4996 ∧ s.mainPower = true ∧ 4996 + 4 ≤ s.pw.now) := by
  refine ⟨fun seed ctx msg rnd => ⟨rfl, by decide, by decide, ?_⟩, by decide, by decide +kernel, by decide, by decide⟩
  have h := test_attempts seed ctx msg rnd
  show 0 + _ < 5000
  omega

set_option Elab.async false in
theorem witness_GateEntries :
    (let p : Pass := { startAt := 0, stepAt := 0 }
     (pass p).islandRuns = true ∧ (pass p).flg.pass ≠ none ∧ (pass p).flg.relAt = none ∧ up.flg.pass = none) ∧
    (up.islandRuns = true ∧ up.running = true ∧ ({ up with ldg := { passc := true } } : State).ldg.passc = true ∧ up.ldg.passc = false ∧
      up.lcs.state ≠ .blank ∧ up.lcs.state ≠ .tested) ∧
    (let p : Pass := { step := .operator, startAt := 0, stepAt := 0 }
     Accepted (req 0 0x3001 0) 3 (pass p) ∧ (pass p).flg.pass = some p ∧ p.step = .operator ∧ (pass p).recorded = true) ∧
    (Accepted (req 0 0x3001 0) 3 up ∧ up.flg.pass = none) ∧
    (let s : State := { up with flg := { state := .held } }
     Accepted (req 0 0x3002 0) 3 s ∧ s.flg.state = .held ∧ s.flg.pass = none ∧ s.running = true ∧ s.vault.latch = false) ∧
    (Accepted (req 0 0x3003 0) 3 up ∧ ([1] : Bytes).length = 1 ∧ leNat [1] ≤ 1) ∧
    (let s : State := { up with ldg := { newest := 7, ack := 7 } }
     Accepted (req 0 0x3022 0) 3 s ∧ s.ldg.ack ≤ leNat [7, 0, 0, 0] ∧ leNat [7, 0, 0, 0] ≤ s.ldg.newest ∧ s.ldg.newest < leNat [8, 0, 0, 0]) ∧
    (Accepted (req 0 0x3021 2) 3 up ∧ Accepted (req 0 0x3021 1) 3 up ∧ ([9, 0, 0, 0] : Bytes).length = 4) := by
  repeat' first | decide +kernel | exact accepted_of (by decide +kernel) | apply And.intro

/-! ### SPDM -/

/-- `up` with connection 0 in phase `p`, version 1.3 and Ed25519, and the sessions `l`. -/
def spdm (p : Nat) (l : List SSess) : State := { up with
  spdm := { conns := [(0, { phase := p, ver := 0x13, asym := 1, meas := true, keys := true, half := some ([1], [2]) })], sessions := l }
  rng := { exps := [(16, { ready := true, queue := [{ drbg := [], pos := 0, len := 256 }] })] } }

theorem witness_SpdmResponder :
    (up.spdmOpen 0 = true ∧ up.spdmOpen 2 = true ∧ (up.conn 0).phase = 0 ∧ (spdm 1 []).spdmOpen 0 = true ∧ ((spdm 1 []).conn 0).phase = 1 ∧
      2 ≤ ((spdm 2 []).conn 0).phase) ∧
    (let s := spdm 3 []
     s.spdmOpen 0 = true ∧ s.pfl.upd = none ∧ (s.conn 0).meas = true ∧ (s.conn 0).keys = true ∧ (s.conn 0).phase = 3 ∧
      (∀ v, s.measurement 2 = some v → (measBlock 2 v).length + 8 ≤ 8192) ∧ s.running = true ∧ s.flg.pass = none ∧ s.spdm.signing = none ∧
        256 ≤ (s.exp 16).qbytes ∧ (s.conn 0).asym = 1 ∧ (s.measurement 2).isSome = true ∧ 2 ≠ 0 ∧ 2 ≠ 0xFF ∧
      s.spdm.sessions.length < 4 ∧ (s.conn 0).half = some ([1], [2])) ∧
    ((let s := { spdm 3 [] with spdm := { conns := [(0, { phase := 3, ver := 0x13, asym := 1 })] } }
      (s.conn 0).phase = 3 ∧ (s.conn 0).meas = false ∧ (s.conn 0).keys = false)) ∧
        ({ up with pfl := { upd := some (1, []) } } : State).pfl.upd ≠ none ∧
    ({ spdm 3 [] with flg := { pass := some { startAt := 0, stepAt := 0 } } } : State).flg.pass ≠ none ∧
    4 ≤ (spdm 3 (List.replicate 4 { id := 1, conn := 0, est := true, secret := [] })).spdm.sessions.length ∧
    (∀ b, let e : SSess := { id := 9, conn := 0, est := b, secret := [] }
      (spdm 3 [e]).spdmSession 9 = some e ∧ e.conn = 0 ∧ e.est = b) := by decide +kernel

/-! ### The card port, the reader, and custodian cards -/

set_option Elab.async false in
/-- `up` with the contact port as `c`. -/
def port (c : Crd) : State := { up with crd := c }

theorem witness_ContactPort :
    (let s := { port { classes := 4 } with cust := { collect := some { purpose := 0, lease := 1, counted := [], endFrame := 9 } } }
     s.islandRuns = true ∧ s.crd.present = false ∧ s.lcs.state ≠ .scrapped ∧ s.cust.collect ≠ none ∧ nextClass s.crd.classes 3 = some 3) ∧
    ((port {}).crd.present = false ∧ (port {}).cardNeed = false ∧ (port {}).crd.classes ≠ 0 ∧ (port {}).exchanging 0 = false ∧
      (port { st := .exchange }).exchanging 0 = true) ∧
    ((port { present := true }).running = true ∧ (port { present := true }).crd.st = .off ∧ nextClass (port { classes := 1 }).crd.classes 3 = some 1 ∧
      nextClass (port { classes := 0 }).crd.classes 3 = none ∧ (port { st := .ready }).crd.st ≠ .off) ∧
    (∃ g, parseAtr [0x3B, 0x10, 0x18] = some g ∧ classTa g = none ∧ ((g.drop 1).head?.bind fun x => x.ta) = none ∧
      ppsChoice (g.head?.bind fun x => x.ta) false = some 0x14) ∧
    (∃ g, parseAtr [0x3F, 0x00] = some g ∧ classTa g = none ∧ ((g.drop 1).head?.bind fun x => x.ta) = none ∧
      ppsChoice (g.head?.bind fun x => x.ta) false = none) ∧
    (∃ g, parseAtr [0x3B, 0x80, 0x01, 0x81] = some g ∧ classTa g = none ∧ ((g.drop 1).head?.bind fun x => x.ta) = none ∧
      ppsChoice (g.head?.bind fun x => x.ta) false = none ∧
      offersT1 g = true) ∧
    (parseAtr [0x3C, 0x00] = none ∧ (port { st := .atr, cls := 2 }).crd.warm = false ∧ (port { st := .atr, warm := true }).crd.warm = true ∧
      nextClass 7 (2 - 1) = some 1 ∧ nextClass 7 (1 - 1) = none ∧ (port { st := .atr, cls := 2 }).crd.cold = false) ∧
    (ppsRequest true 0x96 = [0xFF, 0x11, 0x96, 0x78] ∧ ([] : Bytes) ≠ ppsRequest true 0x96 ∧ nextClass 7 3 = some 3 ∧
      (port { st := .pps, cls := 3 }).crd.cold = false ∧
      (port { st := .pps, cold := true }).crd.cold = true) ∧
    (∀ n ∈ [1, 2], (port { st := .ready, proto := true, ifsTry := n }).crd.st = .ready ∧
      (port { st := .ready, proto := true, ifsTry := n }).crd.ifsTry = n) ∧
    ((port { st := .exchange }).crd.st = .exchange ∧ (port { st := .exchange, proto := true, sess := { tries := 2 } }).crd.sess.tries < 3 ∧
      3 ≤ (port { st := .exchange, proto := true, sess := { tries := 3 } }).crd.sess.tries) := by
  refine ⟨by decide +kernel, by decide +kernel, by decide +kernel, ⟨_, rfl, by decide +kernel⟩, ⟨_, rfl, by decide +kernel⟩, ⟨_, rfl, by decide +kernel⟩, by decide +kernel,
    by decide +kernel, by decide +kernel, by decide +kernel⟩

/-- A credential, and a session whose card has it. -/
def cred : Bytes := List.replicate 48 3
def sess (b : CardCmd) : Sess := { busy := b, selected := true, cred := cred, authed := true, purpose := 2, prepared := 4 }

set_option Elab.async false in
/-- `up` with an officer quorum of this card, the journal `l`, and contact port and reader as `c` and `d`. -/
def cards (l : List CRec) (c : Crd) (d : Ctl) : State := { up with cust := { m := 1, n := 1, creds := [cred], journal := l }, crd := c, ctl := d,
                                                                     rng := { exps := [(16, { ready := true, queue := [{ drbg := [], pos := 0, len := 64 }] })] } }

theorem witness_CardExchanges :
    (let s := cards [{ seq := 1, time := 0, kind := 7, record := List.replicate 192 0 }] { st := .ready, sess := sess .none, tx := 4 } { st := .ready, sess := sess .none, tx := 261 }
     s.running = true ∧ s.cardReady 0 = true ∧ s.cardReady 1 = true ∧ (s.sess 0).selected = true ∧ (s.sess 0).cred ≠ [] ∧
       (s.sess 0).verifyAt = none ∧ 64 ≤ (s.exp 16).qbytes ∧ s.mayMove 0 = true ∧
      s.mayMove 1 = true ∧ (s.objectOf 0 0x20).isSome = true ∧ (s.sess 0).authed = true ∧ 4 ≤ s.crd.tx.toNat ∧ s.ctl.tx.toNat ≤ 261) ∧
    (let s := cards [] { st := .exchange, sess := { more := some 256 } } {}
     s.exchanging 0 = true ∧ s.crd.sess.more = some 256) ∧
    (∀ b ∈ [CardCmd.select, .getCred, .auth, .readObj 0x20, .writeObj 0x20, .checkObj 0x20, .raw],
      let s := cards [{ seq := 4, time := 0, kind := 1, obj := 0x20 }, { seq := 5, time := 0, kind := 4, obj := 0x20, card := cred.take 16, check := [1], ref := 4 }]
        { st := .exchange, sess := sess b } { st := .exchange, sess := sess b }
      (∀ p ≤ 1, s.exchanging p = true ∧ (s.sess p).more = none ∧ (s.sess p).got = [] ∧ (s.sess p).busy = b) ∧
        (s.cust.journal.find? fun r => r.seq = (s.sess 0).prepared && r.kind = 1).isSome = true ∧
        (s.unconfirmed ((s.sess 0).cred.take 16) 0x20).map CRec.check = some [1] ∧ s.cust.ceremony = none) ∧
    (let s := cards [] { st := .exchange, sess := sess .getCred } {}
     s.position cred = some 0 ∧ s.hasCounted 0 = false ∧ ∀ r ∈ unresolved s.cust.journal, r.card ≠ cred.take 16) := by
  refine ⟨by decide +kernel, by decide +kernel, ?_, by decide +kernel⟩
  intro b h
  simp only [List.mem_cons, List.not_mem_nil, or_false] at h
  rcases h with rfl | rfl | rfl | rfl | rfl | rfl | rfl <;> decide +kernel

theorem unprotect_of (x : Sess) (hdr ct : Bytes) : x.unprotect hdr (ct ++ fixLen 16 (Config.gcmTagRaw x.key x.iv hdr ct)) =
    some (fixLen ct.length (Config.gcmTextRaw x.key x.iv ct)) := by
  have l : (fixLen 16 (Config.gcmTagRaw x.key x.iv hdr ct)).length = 16 := by simp [fixLen]
  have m : (ct ++ fixLen 16 (Config.gcmTagRaw x.key x.iv hdr ct)).length - 16 = ct.length := by simp [l]
  have n : ¬(ct ++ fixLen 16 (Config.gcmTagRaw x.key x.iv hdr ct)).length < 16 := by simp [l]
  simp only [Sess.unprotect, m, if_neg n, List.take_left, List.drop_left, if_true]

/-- A body that a card has protected opens, whatever the cipher is. -/
theorem witness_CardExchanges_body : ∃ data plain, (sess (.readObj 0x20)).unprotect [0x80, 0x20, 0x20, 0x00] data = some plain ∧ plain.length = 192 :=
  ⟨_, _, unprotect_of _ _ (List.replicate 192 0), by simp only [fixLen, List.length_take, List.length_append, List.length_replicate]; omega⟩

theorem witness_CardReader :
    (let rd := fun (c : Ctl) => ({ up with ctl := c } : State)
     (rd {}).running = true ∧ (rd { st := .lpcd }).ctl.ref = none ∧ (rd { st := .lpcd, ref := some 10 }).ctl.ref = some 10 ∧
       (rd { st := .poll }).ctl.cards = 0 ∧
      (rd { st := .poll, wupas := 1 }).ctl.wupas + 1 < 3 ∧ 3 ≤ (rd { st := .poll, wupas := 2 }).ctl.wupas + 1 ∧ (rd { st := .poll }).ctl.sess = {} ∧
      (rd { st := .poll, cards := 15 }).ctl.cards ≠ 0 ∧ (rd { st := .anticoll }).ctl.card = false ∧ (rd { st := .anticoll }).ctl.bits.length < 40 ∧
      (rd { st := .anticoll }).ctl.bits.length ≤ 31 ∧ 31 ≤ (List.replicate 40 false).length ∧
        (bitsToBytes (List.replicate 40 false)).foldl (· ^^^ ·) 0 = 0 ∧
      (rd { st := .anticoll, bits := List.replicate 40 false }).ctl.bits.length = 40 ∧ (0 : Byte).getLsbD 2 = false ∧ (4 : Byte).getLsbD 2 = true ∧
      (rd { level := 2 }).ctl.level < 3 ∧ (rd { st := .anticoll, card := true }).ctl.card = true ∧ 14 ≤ 14 ∧
        (rd { st := .ready, card := true, cards := 14 }).ctl.cards + 1 < 16 ∧
      (rd { st := .ready, card := true, cards := 15 }).ctl.cards + 1 = 16 ∧ (rd { st := .ready }).ctl.st ≠ .off) := by decide +kernel

end Sys2Proof.Tests

namespace Sys2Proof.Tests

/-! ### The tag store -/

/-- `up` with the tag as `g`. -/
def tagged (g : Tag) : State := { up with tag := g }

/-- The service password area whose first half is the digest of `data`. -/
def passwords (data : Bytes) : Bytes := (sha256 (data ++ fixLen 16 up.ident.unit)).take 16 ++ List.replicate 496 0

/-- A tag selected in the field, its areas served from their first copies. -/
def live (data : Bytes) : Tag :=
  { st := .active, app := true, noteOk := true, svcOk := true, notePw := 8, svcPw := 1, stage := List.replicate 512 0, served := [(1, 0), (2, 0), (3, 0), (4, 0)],
    copies := [(0, { valid := true, data := passwords data }), (2, { valid := true, data := [1] }), (4, { valid := true, data := [2, 3] }),
      (6, { valid := true, data := List.replicate 33 1 }), (8, { valid := true, data := [4] })] }

theorem slice_passwords (data : Bytes) : slice (passwords data) 0 16 = (sha256 (data ++ fixLen 16 up.ident.unit)).take 16 := by
  have l : ((sha256 (data ++ fixLen 16 up.ident.unit)).take 16).length = 16 := by simp [sha256, fixLen]
  rw [passwords, slice, fixLen, List.drop_zero, List.append_assoc]
  exact List.take_left' l

set_option Elab.async false in
theorem witness_TagStore_field :
    (up.lcs.state ≠ .scrapped ∧ (tagged {}).tag.st = .off ∧ (tagged {}).readerField = false ∧
      ({ up with ctl := { st := .poll } } : State).readerField = true ∧ (tagged { st := .active }).tag.st = .active ∧
      (tagged { st := .idle }).tag.st = .idle ∧ (tagged { st := .halt }).tag.st = .halt ∧ (tagged { st := .ready }).tag.st = .ready) ∧
    (let c : TagCommit := { area := 4, copy := 0, data := [1], at_ := 0 }
     let g : Tag := { st := .idle, commit := some c }
     g.commit = some c ∧ c.copy = g.target c.area ∧ ({ st := .idle } : Tag).commit = none) ∧
    (∀ data, let s := tagged (live data)
      s.tag.st = .active ∧ s.tag.app = true ∧ s.readerField = false ∧ s.tag.svcOk = true ∧ 32 * 1 < (s.tag.fieldArea 3).length ∧ s.tag.notePw ≠ 0 ∧
        s.tag.noteOk = true) ∧
    (let s := tagged { live [] with svcOk := false, svcPw := 0 }
     s.tag.svcOk = false ∧ s.tag.svcPw = 0) ∧
    (let data : Bytes := List.replicate 8 7
     data.length = 8 ∧ slice ((live data).area 0) (16 * (1 - 1)) 16 = (sha256 (data ++ fixLen 16 (tagged (live data)).ident.unit)).take 16) ∧
    (∃ b : Byte, let s := tagged { live [] with copies := [(0, { valid := true, data := List.replicate 32 b })] }
     slice (s.tag.area 0) (16 * (2 - 1)) 16 ≠ (sha256 (List.replicate 8 7 ++ fixLen 16 s.ident.unit)).take 16) ∧
    (32 * 15 < 512 ∧ (List.replicate 32 7 : Bytes).length ≤ 224 ∧ 32 * 15 + (List.replicate 32 7 : Bytes).length ≤ 512 ∧
      ∀ data, ((live data).copy 2 0).seq.toNat < 2 ^ 32 - 1 ∧ ((live data).copy 2 1).seq.toNat < 2 ^ 32 - 1) := by
  refine ⟨by decide +kernel, by decide +kernel, fun data => ⟨rfl, rfl, rfl, rfl, (by decide : (32 : Nat) < 33), (by decide : (8 : Nat) ≠ 0), rfl⟩, by decide +kernel,
    ⟨rfl, slice_passwords _⟩, ?_, by decide, by decide, by decide, fun data => ⟨(by decide : 0 < 2 ^ 32 - 1), (by decide : 0 < 2 ^ 32 - 1)⟩⟩
  by_cases h : (sha256 (List.replicate 8 7 ++ fixLen 16 up.ident.unit)).take 16 = List.replicate 16 0
  · exact ⟨1, fun k => absurd (k.trans h) (by decide +kernel)⟩
  · exact ⟨0, fun k => h (k.symm.trans (by decide +kernel))⟩

end Sys2Proof.Tests

namespace Sys2Proof.Tests

theorem witness_TagStore_island :
    (up.islandRuns = true ∧ up.tag.commit = none ∧ 4608 ≤ tagSize 4 ∧ ¬(up.tag.st = .ready ∨ up.tag.st = .active) ∧
      (tagged { st := .ready }).tag.st = .ready) ∧
    (let c : TagCommit := { area := 4, copy := 1, data := [1], at_ := 0 }
     let g : Tag := { commit := some c, copies := [(8, { valid := true, seq := 0xFFFFFFFE })] }
     g.commit = some c ∧ c.why ≠ 4 ∧ ({ c with why := 4 } : TagCommit).why = 4 ∧ c.copy = g.target c.area ∧ (g.copy 4 0).seq.toNat < 2 ^ 32 - 1 ∧
       (g.copy 4 1).seq.toNat < 2 ^ 32 - 1 ∧ g.sumPend = none ∧ g.svcPend = none) ∧
    (let s := { tagged { sumPend := some [1] } with dsp := { tick := 256 } }
     s.islandRuns = true ∧ s.ftick = 0 ∧ s.tag.commit = none ∧ s.tag.sumPend = some [1]) ∧
    (let s := { up with cust := { ceremony := some { scope := 1, number := 1, opened := 0, lastFrame := 9, endpoint := 1 }, bind := some 1 } }
     Accepted (req 1 0x8010 2) 3 s ∧ Accepted (req 1 0x8011 2) 3 s ∧ s.isOfficer 1 = true) ∧
    (let s := { up with cust := { n := 16 } }
     Accepted (req 1 0x8000 1) 3 s ∧ s.isOfficer 1 = false ∧ s.lcs.state = .claimed ∧ leNat [16] ≤ s.cust.n ∧ 1 ≤ leNat [16]) ∧
    (let s := { up with lcs := { state := .field } }
     Accepted (req 1 0x8000 1) 3 s ∧ s.isOfficer 1 = false ∧ s.lcs.state = .field) := by
  repeat' first | decide +kernel | exact accepted_of (by decide +kernel) | apply And.intro

/-! ### The dictionary -/

/-- `up` with a write session of endpoint 1 on the plan of bench 16 that holds `data` of 1,280 bytes, and the tick count at `tick`. -/
def session (data : Bytes) (tick : BitVec 64) : State :=
  { up with dic := { eps := [(1, { ver := some (2, 1), sess := some { index := 0x2010, sub := 16, total := 1280, data := data, frame := 0 } })] }, dsp := { tick := tick } }

theorem witness_DictionaryOperations_reads :
    (up.epOpen 65 = true ∧ (req 65 0 0).status = 0 ∧ (req 65 0 0).lenOk = true ∧ ({ req 65 0 0 with ver := 0 } : Req).ver = 0 ∧ up.epOpen 66 = false ∧
      (∃ b ∈ ([0x1F, 0x20] : Bytes), b.toNat / 16 = 2) ∧ (∀ b ∈ ([0x10, 0x30] : Bytes), b.toNat / 16 ≠ 2) ∧
        (∃ b ∈ ([0x10, 0x30] : Bytes), b.toNat / 16 = 1) ∧
      ∀ b ∈ ([0x30] : Bytes), b.toNat / 16 ≠ 2 ∧ b.toNat / 16 ≠ 1) ∧
    (Accepted (req 1 0x0FFF 0) 2 up ∧ up.find (req 1 0x0FFF 0) = none) ∧
    (let r := req 2 0x2012 0
     Accepted r 2 up ∧ ∃ x, up.find r = some x ∧ up.allowed r.ep x.read = false) ∧
    (let r := req 1 0x2010 16
     Accepted r 2 up ∧ Accepted r 4 up ∧ Accepted r 5 up ∧ up.segOpen 0x2010 16 = false ∧
      ∃ x, up.find r = some x ∧ up.allowed r.ep x.read = true ∧ up.allowed r.ep x.write = true ∧ x.type.isDomain = true ∧ 1280 ≤ x.type.len ∧
        1280 ≤ up.segFree) ∧
    (let r := req 1 0x2012 0
     Accepted r 2 up ∧ ∃ x, up.find r = some x ∧ up.allowed r.ep x.read = true ∧ x.type.isDomain = false) ∧
    (Accepted (req 1 0x2012 0) 9 up ∧ Accepted (req 1 0 0) 0x0A up ∧ (∃ x, up.find (req 1 0x2012 0) = some x) ∧ Accepted (req 1 0x2020 0) 3 up ∧
      leNat [255, 255, 255, 0] ≤ 16777215 ∧ Accepted (req 0 0x6003 0) 3 up) := by
  repeat' first | decide +kernel | exact accepted_of (by decide +kernel) | exact ⟨_, rfl, by decide +kernel⟩ | exact ⟨_, rfl⟩ | apply And.intro

set_option Elab.async false in
theorem witness_DictionaryOperations_sessions :
    (let s := session [] 0
     let r := req 1 0x2010 16
     Accepted r 5 { s with dic := { eps := s.dic.eps ++ [(0, { ver := some (2, 1) })] } } ∧ s.segOpen 0x2010 16 = true ∧ Accepted r 6 s ∧
       Accepted r 7 s ∧ Accepted r 8 s ∧
      (∃ y, s.find r = some y ∧ s.allowed r.ep y.write = true ∧ y.type.isDomain = true) ∧ (s.ep r.ep).ver ≠ some (1, 0) ∧
      ∃ x, s.session r = some x ∧ x.data.length ≠ x.total ∧ 0 = x.data.length ∧ 0 + (List.replicate 1020 0 : Bytes).length ≤ x.total ∧
        1 ≠ x.data.length) ∧
    (Accepted (req 0 0x2010 16) 5 { session [] 0 with dic := { eps := (session [] 0).dic.eps ++ [(0, { ver := some (2, 1) })] } }) ∧
    (let s := session (List.replicate 1280 63) 0
     let r := req 1 0x2010 16
     Accepted r 7 s ∧ s.dsp.rplPend = false ∧ ∃ x, s.session r = some x ∧ x.data.length = x.total ∧ x.data.length = 1280 ∧
      ∀ b ∈ x.data, b.toNat = 0xFF ∨ b.toNat < s.nLease) ∧
    (let s := session [] 3906303
     ∃ x, (s.ep 1).sess = some x ∧ x.index ≠ 0x9030 ∧ 256 * (x.frame + 15259) ≤ s.dsp.tick.toNat + 1) ∧
    (let s := { up with
      dic := { eps := [(1, { ver := some (2, 1), sess := some { index := 0x5011, sub := 1, total := 9, frame := 0 } })] }
      flg := { pass := some { startAt := 0, stepAt := 0 } } }
     (s.session (req 1 0x5011 1)).isSome = true ∧ s.flg.pass ≠ none) ∧
    (up.mctpOpen 65 = true ∧ up.mctpOpen 0 = true ∧ up.cust.bind ≠ some 65 ∧ up.cust.collect = none ∧ (up.ep 65).sess = none) := by
  refine ⟨?_, ?_, ⟨accepted_of (by decide +kernel), rfl, _, rfl, List.length_replicate, List.length_replicate, fun b h => ?_⟩, ?_⟩
  case refine_3 => exact .inr (by rw [List.eq_of_mem_replicate h]; decide +kernel)
  all_goals repeat' first | decide +kernel | exact accepted_of (by decide +kernel) | exact ⟨_, rfl, by decide +kernel⟩ | apply And.intro

theorem up_spare (n : Nat) : (up.bench n).spare = false := by
  simp only [State.bench, up, tget]
  by_cases h : n = 0 <;> simp [h]

theorem witness_ConfigurationEntries :
    (Accepted (req 1 0x2012 0) 3 up ∧ up.dsp.rplPend = false ∧ up.dsp.applyPend = false ∧ leNat (List.replicate 8 255) < 2 ^ up.nLease ∧
      Accepted (req 1 0x2013 16) 3 up ∧
      16 ≤ up.nBench ∧ (∀ b ∈ (List.replicate 56 63 : Bytes), b.toNat = 0xFF ∨ b.toNat < up.nLease) ∧ up.dsp.planCore = [] ∧
        Accepted (req 1 0x2015 0) 3 up ∧ ∀ n, (up.bench n).spare = false) ∧
    (let s := { up with dsp := { rplPend := true, applyPend := true } }
     Accepted (req 1 0x2012 0) 3 s ∧ s.dsp.rplPend = true ∧ Accepted (req 1 0x2015 0) 3 s ∧ s.dsp.applyPend = true) ∧
    (Accepted (req 1 0x2001 0) 3 up ∧ up.lcs.state = .claimed ∧ leNat (List.replicate 5 255 ++ [127, 0, 0]) < 2 ^ 47 ∧
      ({ rtcSet := some 7 } : Vault).rtcSet = some 7 ∧ up.vault.staging.length < 64 ∧ 2 ^ 47 ≤ leNat (List.replicate 5 0 ++ [128, 0, 0])) ∧
    (Accepted (req 1 (0x4000 + 0x40 * 63 + 0x01) 0) 3 up ∧ 63 < up.nLease ∧ (up.lease 63).quarantined = false ∧
      (let s := { up with leases := [(63, { quarantined := true })], cmds := [(5, { cmdOf 3 { cls := .free } with lease := 63, result := none })] }
       (s.lease 63).quarantined = true ∧ (s.lease 63).qPend = none ∧ ({ qPend := some 5000 } : Lease).qPend ≠ none ∧ ∃ c, s.cmd 5 = some c ∧
         c.lease = 63 ∧ c.result = none)) ∧
    (let s := { up with leases := [(62, { quota := 200 })] }
     Accepted (req 1 (0x4000 + 0x40 * 63 + 0x02) 0) 3 s ∧ s.quotaSum - (s.lease 63).quota + leNat [56, 0] ≤ 256 ∧
       256 < s.quotaSum - (s.lease 63).quota + leNat [57, 0]) ∧
    (Accepted (req 1 (0x6100 + 0x300 / 128) (0x300 % 128 + 1)) 3 up ∧ up.srcPresent 0x300 = true ∧ leNat [7] < 8 ∧ isTamper 0x300 = false ∧
      up.flt.lock = false ∧
      srcFloor 0x300 ≤ leNat [7] % 4 ∧ up.srcPresent 3 = true ∧ isTamper 3 = false ∧ leNat [1] % 4 < srcFloor 3) := by
  repeat' first | decide +kernel | exact accepted_of (by decide +kernel) | exact up_spare | exact ⟨_, rfl, by decide +kernel⟩ | apply And.intro

end Sys2Proof.Tests

namespace Sys2Proof.Tests

/-! ### The life cycle and the gallery -/

/-- `up` with the life cycle as `l`. -/
def lives (l : LcsSt) : State := { up with
  lcs := l
  rng := { exps := [(16, { ready := true, queue := [{ drbg := [], pos := 0, len := 32 }] })] } }

/-- `up` with a unit identifier, and its request for FIELD, without its signatures. -/
def unit : State := { up with ident := { up.ident with unit := List.replicate 16 1 } }
def toField : Bytes := [0x53, 0x56, 0x4C, 0x51, 1, 0, 3, 4, 64, 0, 0, 0, 1, 0, 0, 0] ++ List.replicate 16 1 ++ List.replicate 3405 0

theorem witness_LifeCycle_tokens : ∀ token : Bytes,
    (let s := lives { state := .blank, token1 := sha3 token }
     Accepted (req 1 0x9002 1) 3 s ∧ s.lcsBusy = false ∧ s.lcs.badTokens < 8 ∧ s.vault.latch = false ∧ s.lcs.state = .blank ∧ s.lcs.fused = .blank ∧
       sha3 token = s.lcs.token1 ∧
      32 ≤ (s.exp 16).qbytes) ∧
    (let s := lives { state := .tested, pairs := 3, token2 := sha3 token, badTokens := 7 }
     Accepted (req 0 0x9002 2) 3 s ∧ s.lcsBusy = false ∧ s.lcs.badTokens < 8 ∧ s.vault.latch = false ∧ s.lcs.state = .tested ∧ s.lcs.fused = .tested ∧
      sha3 token = s.lcs.token2 ∧ 32 ≤ (s.exp 16).qbytes) := by
  intro token
  have a : ∀ e sub, e ≤ 1 → Accepted (req e 0x9002 sub) 3 (lives { state := .blank, token1 := sha3 token }) ∧
      Accepted (req e 0x9002 sub) 3 (lives { state := .tested, pairs := 3, token2 := sha3 token, badTokens := 7 }) := fun e sub h => by
    rcases (by omega : e = 0 ∨ e = 1) with rfl | rfl <;>
    exact ⟨⟨rfl, rfl, fun _ => rfl, ⟨2, 1, rfl, (by decide : (0x21 : BitVec 8).toNat / 16 = 2), nofun, by decide,
        fun _ => ⟨(by decide : 0 < 4), nofun⟩⟩, rfl, rfl, nofun, nofun, rfl⟩,
      ⟨rfl, rfl, fun _ => rfl, ⟨2, 1, rfl, (by decide : (0x21 : BitVec 8).toNat / 16 = 2), nofun, by decide,
        fun _ => ⟨(by decide : 0 < 4), nofun⟩⟩, rfl, rfl, nofun, nofun, rfl⟩⟩
  exact ⟨⟨(a 1 1 (by decide)).1, rfl, (by decide : 0 < 8), rfl, rfl, (by decide +kernel : ({ } : LcsSt).fused = .blank), rfl,
      (by decide : 32 ≤ 32 + 0)⟩,
    ⟨(a 0 2 (by decide)).2, rfl, (by decide : 7 < 8), rfl, rfl, (by decide +kernel : ({ pairs := 3 } : LcsSt).fused = .tested), rfl, (by decide : 32 ≤ 32 + 0)⟩⟩

theorem witness_LifeCycle :
    (Accepted (req 1 0x9002 1) 3 (lives { state := .claimed }) ∧ 32 ≤ ((lives {}).exp 16).qbytes ∧ up.lcsBusy = false ∧ up.lcs.badTokens < 8 ∧
      up.lcs.state ≠ .blank ∧
      up.lcs.state ≠ .tested ∧
      Accepted (req 1 0x9002 1) 3 { up with vault := { latch := true } } ∧ 8 ≤ (lives { badTokens := 8 }).lcs.badTokens) ∧
    (let s := opened (req 1 0x9001 1) unit
     Accepted (req 1 0x9001 1) 7 s ∧ (s.session (req 1 0x9001 1)).isSome = true ∧ s.requestRefusal 1 toField = 0 ∧ s.requestRefusal 1 [] ≠ 0) ∧
    (let v : Verify := { data := toField, at_ := 4959 }
     let s := lives { state := .claimed, pairs := 0x3F, verify := some v }
     s.lcs.verify = some v ∧ s.running = true ∧ max v.at_ s.flg.idleAt + 41 ≤ s.pw.now ∧ 32 ≤ (s.exp 16).qbytes ∧ s.flg.pass = none ∧
       s.pfl.upd = none ∧ Lcs.ofCode (fieldLE v.data 7 1) = some .field ∧ .field ∈ s.lcs.state.next ∧
      s.lcs.fused = s.lcs.state ∧ fieldLE v.data 12 4 = s.lcs.count + 1) ∧
    (let x : LRec := { kind := .intent, from_ := 3, to_ := 4, counter := 1, digest := [], lnonce := [] }
     let s := lives { state := .claimed, journal := [x] }
     s.islandRuns = true ∧ Lcs.ofCode (4 : BitVec 3).toNat = some .field ∧ .field ∈ s.lcs.state.next ∧ s.lcs.intent = some x ∧
       x.to_ = (4 : BitVec 3).toNat ∧
      (∀ c, Lcs.ofCode (2 : BitVec 3).toNat = some c → c ∉ s.lcs.state.next) ∧ up.lcs.intent = none) ∧
    (let s := opened (req 1 0x9020 5) (lives { state := .tested })
     let t := opened (req 1 0x9020 5) up
     Accepted (req 1 0x9020 5) 7 s ∧ (s.session (req 1 0x9020 5)).isSome = true ∧ s.lcs.state = .tested ∧ tget [] s.lcs.records 5 = [] ∧
      Accepted (req 1 0x9020 5) 7 t ∧ (t.session (req 1 0x9020 5)).isSome = true ∧ t.lcs.state ≠ .tested) := by
  repeat' first | decide +kernel | exact accepted_of (by decide +kernel) | apply And.intro

set_option Elab.async false in
theorem witness_Gallery :
    (let s := opened (req 1 0x9010 1) up
     Accepted (req 1 0x9010 1) 7 s ∧ (s.session (req 1 0x9010 1)).isSome = true ∧ [1] ≠ ([] : Bytes) ∧ s.certRefusal 1 [1] ≠ 0 ∧ s.sevOf 0x336 ≠ 3 ∧
      s.sevOf 0x339 ≠ 3 ∧ s.flg.pass = none ∧ ({ s with flg := { pass := some { startAt := 0, stepAt := 0 } } } : State).flg.pass ≠ none) ∧
    (let s := { up with gal := { cert := [1] }, vault := { rtc := 1 } }
     s.islandRuns = true ∧ s.gal.cert ≠ [] ∧ s.sevOf 0x339 ≠ 3 ∧ fieldLE s.gal.cert 36 8 ≤ s.time64.toNat ∧
      up.time64.toNat < fieldLE (List.replicate 44 1 : Bytes) 36 8) ∧
    (Accepted (req 3 0x9011 2) 3 up ∧ 1 < up.nLease ∧ leNat [1] < 2 ∧ Accepted (req 1 0x9011 64) 3 up ∧ Accepted (req 2 0x9011 64) 3 up ∧
      63 < up.nLease) ∧
    (({ up with pw := { stage := .off } } : State).powered = false ∧ (lives { state := .scrapped }).lcs.state = .scrapped) ∧
    (up.powered = true ∧ up.lcs.state ≠ .scrapped ∧ (lives { state := .tested }).lcs.state ≠ .scrapped ∧ up.sevOf 0x33A ≠ 3 ∧
      (lives { state := .tested }).sevOf 0x33A ≠ 3 ∧
      (lives { state := .tested }).heldIn islandSram 0xC0000 = none ∧ (regRead .dma 0x60000000 (lives { state := .tested })).isSome = true ∧
      ((lives { state := .tested }).galRights &&& 0xC80 = 0xC80 ∧ flashHidden 0x3000000 1 = true ∧ 0x3000000 + 1 ≤ flashSize) ∧
      (let s := { lives { state := .tested } with held := [{ lo := islandSram, hi := islandSram + 16, bench := 16, lease := 64 }] }
       s.mayRead islandSram 4 = true ∧ (s.heldIn islandSram 4).isSome = true) ∧ up.galRights = 0 ∧ (lives { state := .tested }).galRights ≠ 0 ∧
         up.mayHalt 65 = false ∧ (lives { state := .tested }).mayHalt 65 = true ∧
      (lives { state := .tested }).mayRead islandSram 0xC0000 = true ∧ up.mayRead islandSram 4 = false ∧ up.galRights.getLsbD 7 = false ∧
        up.galRights.getLsbD 11 = false) ∧
    (let s := lives { state := .tested }
     s.islandRuns = true ∧ s.srcPresent 0x304 = true ∧ s.galRights.getLsbD 9 = true ∧ 1 ≤ s.sevOf 0x304 ∧
       (∃ e : BitVec 11, s.srcPresent e.toNat = true ∧ s.sevOf e.toNat = 0)) ∧
    (up.galRights.getLsbD 9 = false ∧ up.srcPresent (0x304 : BitVec 11).toNat = true ∧ (0x304 : BitVec 11) ≠ 0x33A ∧ up.sevOf 0x33A ≠ 3) := by
  repeat' first | decide +kernel | exact accepted_of (by decide +kernel) | apply And.intro

end Sys2Proof.Tests

namespace Sys2Proof.Tests

/-! ### The vault domain, events, power -/

/-- `up` with the vault as `v`. -/
def vaulted (v : Vault) : State := { up with vault := v }

theorem witness_TamperSources :
    (up.inVault = false ∧ up.lcs.state ≠ .scrapped ∧ up.sourceRuns 27 = true ∧ (1 : Nat) ≤ (up.vault.window 12).1 ∧ up.sourceRuns 0 = true ∧
      up.sourceRuns 12 = true) ∧
    (let s := vaulted { sw := Vector.replicate 4 0x80020064 }
     s.sourceRuns 5 = true ∧ false = (s.vault.switch (5 - 2)).getLsbD 30 ∧ ¬true = (s.vault.switch (5 - 2)).getLsbD 30) ∧
    (up.armed 6 = true ∧ ({ up with pw := { up.pw with pwrokAt := 4001 } } : State).armed 6 = false ∧ up.sourceRuns 6 = true) ∧
    ([up.pw.mono].length < (up.vault.window 12).1 ∧ (vaulted { sensors := [(0, { disarmed := true })] }).vault.sensor 0 = { disarmed := true }) ∧
    ((up.vault.sensor 0).disarmed = false ∧ ¬[up.pw.mono].length < (up.vault.window 0).1 ∧ up.srcPresent (0x410 + 0) = true ∧
      up.vault.staging.length < 64 ∧ up.responseOf 0 = 2 ∧
      up.responseOf 14 = 1 ∧ ¬[up.pw.mono].length < (up.vault.window 14).1 ∧ up.vault.latch = false ∧
        (vaulted { latch := true }).vault.latch = true) ∧
    ({ up with flt := { sev := [(0x42C, some 3)] } } : State).sevOf 0x42C = 3 ∧
    (let s := { up with lcs := { state := .tested } }
     s.responseOf 0 = 0 ∧ s.sevOf (0x410 + 0) ≠ 3) ∧
    ({ up with lcs := { state := .scrapped } } : State).inVault = false ∧ ({ up with pw := { vio3 := false } } : State).pw.vio3 = false ∧
      up.lcs.state = .claimed ∧
    (let e : Staged := { vseq := 1, time := 0, kind := 1, source := 0, resp := 2, saved := false, vault := false }
     let s := vaulted { vlost := false, staging := [e, { e with vseq := 2 }] }
     s.islandRuns = true ∧ s.vault.vlost = false ∧ s.vault.ovf = 0 ∧ s.bankBusy 3 = false ∧ (∀ e ∈ s.vault.log, e.commit ≠ []) ∧
      (∀ e ∈ s.vault.staging, e.saved = false ∧ e.dropped = false ∧ topVseq s.vault.log < e.vseq ∧ e.vseq < 2 ^ 32) ∧
      ({ s with pfl := { op := some { code := 0x20, addr := 0x3000000, left := 1, startAt := 0 } } } : State).bankBusy 3 = true ∧
      s.vault.staging.Pairwise (fun a b => a.vseq < b.vseq) ∧ s.vault.log.length + s.vault.staging.length < 4033 ∧
      ∀ y ∈ (vaulted { staging := [{ e with saved := true }] }).vault.staging, y.saved = true) ∧
    (vaulted { latch := true, unlockDone := true }).vault.unlockDone = true := by
  decide +kernel

theorem witness_TamperEntries :
    (Accepted (req 1 0x5001 28) 3 up ∧ up.lcs.state = .claimed ∧ leNat [2] ≤ 2 ∧ 2 < leNat [3] ∧ up.vault.staging.length < 64 ∧
      Accepted (req 1 0x5001 1) 3 { up with lcs := { state := .field } } ∧
      ({ up with lcs := { state := .field } } : State).isOfficer 1 = false) ∧
    (Accepted (req 1 0x5002 4) 3 up ∧ Accepted (req 1 0x5003 0) 3 up ∧ leNat [100, 0, 2, 0xC0] / 2 ^ 16 % 256 ≠ 0 ∧
      leNat [100, 0, 2, 0xC0] % 2 ^ 16 ≠ 0 ∧
      leNat [100, 0, 2, 0xC0] / 2 ^ 24 % 64 = 0 ∧ leNat [100, 0, 2, 0] / 2 ^ 24 = 0 ∧ leNat [100, 0, 2, 0xC0] / 2 ^ 24 ≠ 0) ∧
    (let s := opened (req 1 0x5011 1) up
     Accepted (req 1 0x5011 1) 7 s ∧ (s.session (req 1 0x5011 1)).isSome = true ∧ s.flg.pass = none ∧
      ({ s with flg := { pass := some { startAt := 0, stepAt := 0 } } } : State).flg.pass ≠ none ∧ s.unlockRefusal [] ≠ 0 ∧
      s.sourceRuns 0 = true ∧ s.responseOf 0 ≠ 0) ∧
    (let s := vaulted { vlost := false, latch := true, log := [{ seq := 1, body := [], kind := 1, vseq := 1, latched := true, commit := [1] }], vseq := 2 }
     (∀ i, i < 28 → s.sourceRuns i = true ∨ s.responseOf i = 0 ∨ (s.vault.sensor i).detecting = false) ∧ (∀ e ∈ s.vault.log, e.commit ≠ []) ∧
       s.islandRuns = true ∧ s.vault.vlost = false ∧ s.vault.ovf = 0 ∧ (∀ e ∈ s.vault.staging, e.saved = true) ∧ s.vault.staging.length < 64 ∧
       topVseq s.vault.log < s.vault.vseq ∧
      s.vault.log.length < 4096) ∧
    (let s := { up with cust := { m := 1, n := 1 } }
     Accepted (req 0 0x5011 3) 3 s ∧ s.lcs.state = .claimed ∧ s.cust.m ≠ 0 ∧ s.cust.n ≠ 0 ∧ s.cust.collect = none) ∧
    (let s := { up with cust := { m := 1, n := 1, collect := some { purpose := 0, lease := 1, counted := [], endFrame := 9 } } }
     Accepted (req 0 0x5011 3) 3 s ∧ s.cust.collect ≠ none) ∧
    (Accepted (req 0 0x5011 3) 3 up ∧ ¬((up.lcs.state = .claimed ∨ up.lcs.state = .field) ∧ up.cust.m ≠ 0 ∧ up.cust.n ≠ 0)) := by
  repeat' first | decide +kernel | exact accepted_of (by decide +kernel) | apply And.intro

/-- A fault record, and `up` with the event unit as `f`. -/
def record : Rec := { first := 0x304, sev := 3, lease := 0xFF, bench := 0xFF, also := 5, tick := 0, time := 0, groups := 0, openedAt := 0 }
def faulty (f : Flt) : State := { up with flt := f }

theorem witness_FaultEvents :
    (let s := faulty { notify := some 4999, rec_ := some record, route := 0x1BF }
     s.flt.notify = some 4999 ∧ 4999 < s.pw.now ∧ s.flt.rec_ ≠ none ∧ s.flt.route.getLsbD 7 = true ∧
       (tget msixReset s.link.msix (s.flt.route.toNat % 64)).getLsbD 96 = true ∧
      (tget msixReset [(63, (0 : BitVec 128))] (s.flt.route.toNat % 64)).getLsbD 96 = false ∧ (0 : BitVec 9).getLsbD 7 = false) ∧
    ((faulty { pulseEnd := some 5000 }).flt.pulseEnd = some 5000 ∧ up.flt.pulseEnd = none ∧ up.islandRuns = true ∧ up.flt.rec_ = none ∧
      record.also = 5 ∧ record.also ≠ 4) ∧
    (let s := faulty { queue := List.replicate 64 { event := 0x304, sev := 3, lease := 0xFF, tick := 0 } }
     s.flt.queue ≠ [] ∧ s.mainPower = true ∧ ({ up with pw := { stage := .off } } : State).islandRuns = false) := by decide +kernel

/-- `up` with power as `p`. -/
def power (p : Pw) : State := { up with pw := p }

theorem witness_PowerAndResets :
    ((power { stage := .running, mode := .service, now := 5000 }).modeOf = .service ∧ (power { stage := .running, mode := .guard }).modeOf ≠ .guard ∧
      (power { stage := .running }).lcs.state ≠ .scrapped ∧
      (power { stage := .running }).flt.queue.length < 64 ∧ (power { stage := .running }).modeOf.works = true ∧
      (power { stage := .running, pwrok := false }).modeOf = .standby ∧ Mode.standby.works = false) ∧
    (up.pw.dieHot = false ∧ up.powered = true ∧ (power { dieHot := true }).pw.dieHot = true ∧ (power { stage := .off }).powered = false) ∧
    ((∀ d ∈ [4, 5, 23, 24, 25], up.domainRuns d = true) ∧ up.pw.stage ≠ .off) ∧
    ((power { stage := .running, pwrok := false }).powered = true ∧ (power { stage := .off, pwrok := false }).powered = false ∧ up.pw.pwrok = true ∧
      (power { stage := .island }).pw.stage = .island ∧ (power { stage := .island }).pw.romUntil ≤ (power { stage := .island }).pw.now ∧
      up.pfl.op = none) ∧
    (let s := power { stage := .off, sysRst := false }
     s.pw.sysRst = false ∧ s.pw.vio3 = true ∧ s.lcs.state ≠ .scrapped ∧ s.pw.stage = .off ∧ s.pw.supplyHold = false ∧ s.pw.pwrok = true) ∧
    (power { stage := .off, sysRst := false, pwrok := false }).pw.pwrok = false ∧ up.pw.sysRst = true ∧
    (let s := power { stage := .off, supplyHold := true }
     s.pw.stage = .off ∧ s.pw.sysRst = true ∧ s.pw.pwrok = true) := by decide +kernel

set_option Elab.async false in
theorem witness_Starts :
    (let s := power { stage := .wipe, wipeEnd := 1536, now := 1536 }
     s.pw.stage = .wipe ∧ s.pw.wipeEnd ≤ s.pw.now ∧ s.powered = true ∧ s.lcs.state ≠ .scrapped ∧ s.pfl.busy = false ∧
       (s.image s.pfl.active.toNat).isSome = true ∧
      (∀ u, s.lcs.uds = some u → sha3 u = s.lcs.udsCheck)) ∧
    (let s := { power { stage := .rom } with pfl := { active := 1 } }
     s.pw.stage = .rom ∧ s.powered = true ∧ s.lcs.state ≠ .scrapped ∧ s.pfl.busy = false ∧ s.image s.pfl.active.toNat = none ∧
       s.image (1 - s.pfl.active.toNat) ≠ none ∧
      s.pfl.swpend = false ∧ s.pw.pwrok = true ∧ ({ s with pfl := { active := 1, swpend := true } } : State).image 1 = none ∧
      ({ s with pfl := { boot := #v[({} : Image), {}] } } : State).image 0 = none ∧
        ({ s with pfl := { boot := #v[({} : Image), {}] } } : State).image 1 = none ∧
      ({ s with pfl := { swapping := some 1 } } : State).pfl.busy = true ∧ ({ s with lcs := { state := .scrapped } } : State).lcs.state = .scrapped) ∧
    (∃ check : Bytes, ∃ u, ({ uds := some [1], udsCheck := check } : LcsSt).uds = some u ∧ sha3 u ≠ check) ∧
    up.pw.stage ≠ .island ∧ (power { stage := .island, romUntil := 1 }).pw.now < 1 ∧
    (let s := power { stage := .island, pwrok := false }
     s.pw.stage = .island ∧ s.pw.romUntil ≤ s.pw.now ∧ s.powered = true ∧ s.pw.pwrok = false) ∧
    (let x : LRec := { kind := .intent, from_ := 3, to_ := 4, counter := 1, digest := [], lnonce := [] }
     let s := { power { stage := .island } with lcs := { state := .claimed, pairs := 0x3F, journal := [x] } }
     s.pw.stage = .island ∧ s.pw.romUntil ≤ s.pw.now ∧ s.mainPower = true ∧ s.lcs.intent = some x ∧ Lcs.ofCode x.to_ = some .field ∧
       .field ∈ s.lcs.state.next ∧ s.lcs.fused = s.lcs.state) ∧
    (let s := { power { stage := .island } with rng := { exps := [(16, { ready := true })] } }
     s.pw.stage = .island ∧ s.pw.romUntil ≤ s.pw.now ∧ s.mainPower = true ∧ s.lcs.intent = none ∧ s.vault.bedrock = none ∧ s.lcs.state = .claimed ∧
       (s.exp 16).ready = true) ∧
    ({ state := .sealed_ } : LcsSt).matchesFuses = true ∧
    (∃ f : Bytes, ({ state := .claimed, ownerFuse := f } : LcsSt).matchesFuses = false) := by
  refine ⟨by decide +kernel, by decide +kernel, ⟨[], [1], rfl, fun h => ?_⟩, by decide +kernel, by decide +kernel, by decide +kernel, by decide +kernel, by decide +kernel, by decide +kernel, ⟨[], ?_⟩⟩
  · have := congrArg List.length h
    simp [sha3, fixLen] at this
  · have h : sha3 (([] : Bytes) ++ []) ≠ [] := fun h => by
      have := congrArg List.length h
      simp [sha3, fixLen] at this
    have k : decide (sha3 (([] : Bytes) ++ []) = []) = false := decide_eq_false h
    simp only [LcsSt.matchesFuses, k]
    rfl

end Sys2Proof.Tests

namespace Sys2Proof.Tests

/-! ### Package flash, registers, and the whole block -/

/-- `up` with package flash as `p`. -/
def flash (p : Pfl) : State := { up with pfl := p }

/-- An operation that is ended, and one that runs. -/
def ended (code : Nat) : FlashOp := { code := code, addr := 0x1000000, data := List.replicate 32 1, left := 0, startAt := 4999, phys := 0x1000000 }
def runs : FlashOp := { code := 0x20, addr := 0x1000000, left := 1, startAt := 0 }

theorem witness_PackageFlash_commands :
    (up.islandRuns = true ∧ (0x00A5 : BitVec 32).toNat % 2 ^ 16 = 0x00A5 ∧ (0x005A : BitVec 32).toNat % 2 ^ 16 = 0x005A ∧
      (1 : BitVec 32).toNat % 2 ^ 16 ≠ 0x00A5 ∧ up.pfl.seq = .idle ∧
      ∀ q ∈ ([.key0, .key1, .cmd 0x10, .addr 0x10 (flashSize - 32), .addr 0x10 1, .cmd 0x20, .cmd 0x2F] : List PSeq), (flash { seq := q }).pfl.seq = q) ∧
    ((flashSize - 32) % 32 = 0 ∧ 1 % 32 ≠ 0 ∧ up.flashProtected 0x10 (flashSize - 32) = false ∧ up.ownBank 0x10 (flashSize - 32) = false ∧
      up.pfl.op = none ∧ up.pfl.swapping = none ∧
      up.pfl.queued = none ∧ (flash { op := some runs }).pfl.op ≠ none) ∧
    ((flashSize - 4096) % 4096 = 0 ∧ up.flashProtected 0x20 (flashSize - 4096) = false ∧ up.ownBank 0x20 (flashSize - 4096) = false ∧
      up.flashProtected 0x20 0x80000 = true) ∧
    ({ up with lcs := { pend := some .scrapped } } : State).lcs.pend = some .scrapped ∧ up.ownBank 0x2F 0 = false ∧ up.lcs.pend ≠ some .scrapped ∧
      up.pfl.swpend = false ∧
    (flash { swpend := true }).pfl.swpend = true := by decide +kernel

theorem witness_PackageFlash_ends :
    ((flash { op := some runs }).pfl.op = some runs ∧ 0 < runs.left) ∧
    (∀ code ∈ [0x10, 0x20, 0x2F], (flash { op := some (ended code) }).pfl.op = some (ended code) ∧ (ended code).left = 0 ∧
      (ended code).startAt < up.pw.now ∧ (ended code).notErased = false ∧
      (ended code).own = false ∧ (flash { op := some (ended code) }).pfl.queued = none ∧ (flash { op := some (ended code) }).pfl.updTodo = [] ∧
      touches (ended code).phys ((ended code).phys + 4096) (flash { op := some (ended code) }).stores = false) ∧
    ({ ended 0x2F with left := 512 }.startAt ≤ up.pw.now ∧ up.mainPower = true) ∧
    ({ ended 0x10 with notErased := true } : FlashOp).notErased = true ∧
    (let s := flash { swapping := some 0 }
     s.pfl.swapping = some 0 ∧ s.pfl.queued = none ∧ s.pfl.updTodo = [] ∧ s.pfl.pairB = none) ∧
    (flashSize - 32 + 32 ≤ flashSize ∧ (flashSize - 32) / 32 = (flashSize - 32 + 32 - 1) / 32 ∧ up.bankBusy ((flashSize - 32) / 0x1000000) = false ∧
      (∀ i, i < 32 → (up.dieByte (up.pfl.phys (flashSize - 32 + i))).isSome = true) ∧
        (flash { op := some runs }).bankBusy (0x1000000 / 0x1000000) = true ∧ ∀ j, Master.dma ≠ .island j) ∧
    (up.pw.vflHigh = true ∧ up.pw.stage = .running ∧ up.pw.vflHigh ≠ false ∧ (flash { ws := 4 }).pfl.ws.toNat < 5 ∧
      5 ≤ (flash { ws := 5 }).pfl.ws.toNat ∧
      ({ stage := .running, vflHigh := false } : Pw).vflHigh ≠ true ∧ (flash { ws := 2 }).pfl.ws.toNat < 3 ∧
        3 ≤ (flash { ws := 3 }).pfl.ws.toNat) := by
  repeat' first | decide +kernel | (intro i; rfl) | (intro g h; cases h) | apply And.intro

theorem witness_RegisterAccess :
    (up.masterUp (.core 0) = false ∧ up.islandRuns = true ∧ up.decodes .dma 0x7FFFFFFF true = false ∧ up.masterUp (.island 1) = true ∧
      (∀ g, Master.island 1 ≠ .fn g) ∧
      up.decodes (.island 1) 0x7FFFFFFF true = false ∧ up.decodes (.island 1) islandSram true = true ∧ up.decodes (.island 1) 0 true = false ∧
        up.decodes (.island 1) 0 false = true ∧
      (∀ a ∈ [islandSram, stagingBase, 0x10000000], up.regAt .dma a = none ∧ up.decodes .dma a true = true ∧ a < 2 ^ 32 ∧ up.heldIn a 1 = none) ∧
      up.unheldPage islandSram = none ∧ up.unheldPage stagingBase = none ∧ 2 ^ 32 ≤ 2 ^ 40 - 1 ∧ 2 ^ 40 - 1 < 2 ^ 40) ∧
    (leNat [1, 0, 0, 0] % 4 = 1 ∧ up.dsp.pend = false ∧ up.flt.lock = false ∧ ({ up with flt := { lock := true } } : State).flt.lock = true ∧
      BitVec.ofNat 9 (leNat [0x80, 1, 0, 0]) &&& 0x1BF ≠ 0 ∧
      (leNat [0, 0, 0, 0x80]).testBit 31 = true ∧ up.bus.once.contains 0x60080000 = false) ∧
    (up.srcPresent 3 = true ∧ leNat [1, 0, 0, 0] % 4 < srcFloor 3 ∧ up.pfl.seq = .idle ∧ pointMin up.flashPoint ≤ leNat [3, 0, 0, 0] % 8) ∧
    (up.masterUp (.fn 64) = true ∧ 1 ≤ 64 ∧ 7 < 8 ∧ (List.replicate 8 0 : Bytes).length = 8 ∧ findReg (barRows 64) 0xFFF = none) ∧
    (let s := { up with cores := [(0, { state := .run })], dsp := { core := [(0, 1)] } }
     s.masterUp (.core 0) = true ∧ s.coreExec 0 = true ∧ s.pw.stage ≠ .off) := by
  repeat' first | decide +kernel | (intro g h; cases h) | apply And.intro

theorem witness_ReplacementHoldsPlans :
    (let s := { up with dsp := { rplPend := true } }
     s.dsp.rplPend = true ∧ Accepted (req 1 0x2010 16) 7 s ∧ 16 ≤ s.nBench ∧ Accepted (req 1 0x2011 0) 3 s ∧ Accepted (req 1 0x2012 0) 3 s ∧
       Accepted (req 1 0x2013 16) 3 s ∧
      Accepted (req 1 0x2015 0) 3 s) ∧
    (let s := { up with dsp := { rplPend := true, pend := true, captured := true, at_ := 2, tick := 511, repl := [{ bench := 15, at_ := 0, frame := 2 }] } }
     s.mainPower = true ∧ s.dsp.pend = true ∧ s.dsp.captured = true ∧ s.dsp.at_ = s.frame + 1 ∧ s.ftick = 255 ∧
       ∀ x ∈ s.dsp.repl, x.frame ≤ s.dsp.at_) ∧
    (let s := { up with dsp := { planCore := [(63, 5)] } }
     s.dsp.rplPend = false ∧ Accepted (req 1 0x2011 0) 3 s ∧ (∀ b ∈ (List.replicate 64 0xFF : Bytes), b.toNat = 0xFF) ∧
       ∀ x ∈ s.dsp.planCore, x.1 < 64) := by
  repeat' first | decide +kernel | exact accepted_of (by decide +kernel) | apply And.intro

theorem witness_step : State.reset.pending = [] ∧ Memory.wf State.reset.ram = true ∧
    ∃ t, step { up with ram := [⟨0x20000000, 1⟩], pending := [.fltQRead] } = .next t ∧ Memory.wf [⟨0x20000000, 1⟩] = true ∧
      t.ram = [⟨0x20000000, 1⟩] ∧
      t.out.bus = .ok (List.replicate 8 0) := by
  refine ⟨rfl, rfl, _, rfl, by decide +kernel, rfl, by decide +kernel⟩

end Sys2Proof.Tests

namespace Sys2Proof.Tests

/-! ### Single steps, their results worked out by hand from the spec's rules -/

/-- What one command in front of the queue leaves, seen through `f`. -/
def after {α : Type} (i : Instr) (s : State) (f : State → α) : Option α :=
  match step { s with pending := [i] } with
  | .next t => some (f t)
  | .fault _ => none
  | .refused _ => none

def alu (i : Triven) (d : Vector (BitVec 8) 8) : State := coded i (up.setCore 64 (at100 false d someA))
def bytes (s : State) : List Nat := (s.core 64).d.toList.map fun x => x.toNat

set_option Elab.async false in
/-- 255 + 1 + carry 1: the sum wraps and D7 keeps the carry. -/
theorem test_adc_wraps : after (.adc 64 0 1) (alu (.adc 0 1) #v[255, 1, 0, 0, 0, 0, 0, 1]) bytes = some [1, 1, 0, 0, 0, 0, 0, 1] := by decide +kernel
/-- 3 − 3 − borrow 1. -/
theorem test_sbc_borrows : after (.sbc 64 0 1) (alu (.sbc 0 1) #v[3, 3, 0, 0, 0, 0, 0, 1]) bytes = some [255, 3, 0, 0, 0, 0, 0, 1] := by decide +kernel
/-- 200 × 250 = 50,000 = 195 × 256 + 80: the low byte in the first register and the high one in the second. -/
theorem test_mul_splits : after (.mul 64 2 5) (alu (.mul 2 5) #v[0, 0, 200, 0, 0, 250, 0, 0]) bytes = some [0, 0, 80, 0, 0, 195, 0, 0] := by decide +kernel
/-- A shift by 8 is a shift by 0. -/
theorem test_shl_by_eight : after (.shl 64 0 1) (alu (.shl 0 1) #v[129, 8, 0, 0, 0, 0, 0, 0]) bytes = some [129, 8, 0, 0, 0, 0, 0, 0] := by decide +kernel
/-- −128 is below 1 as signed bytes and above it as unsigned ones. -/
theorem test_comparisons : after (.clts 64 0 1) (alu (.clts 0 1) #v[128, 1, 0, 0, 0, 0, 0, 0]) bytes = some [1, 1, 0, 0, 0, 0, 0, 0] ∧
    after (.cltu 64 0 1) (alu (.cltu 0 1) #v[128, 1, 0, 0, 0, 0, 0, 0]) bytes = some [0, 1, 0, 0, 0, 0, 0, 0] := by decide +kernel
/-- The wipe lasts 1,536 tk from reset: nothing ends it before, and the island starts after it. -/
theorem test_reset_wipe : after .resetWipeEnd State.reset (fun t => t.pw.stage) = some .wipe ∧
    after .resetWipeEnd { State.reset with pw := { now := 1535 } } (fun t => t.pw.stage) = some .wipe ∧
    after .resetWipeEnd { State.reset with pw := { now := 1536 } } (fun t => t.pw.stage) = some .island := by decide +kernel
/-- An event waits in the queue with its severity in bits 57:56, its lease in 55:48 and its number in 15:0, bit 63 set. -/
theorem test_event_word : after .fltQRead { up with flt := { queue := [{ event := 0x468, sev := 1, lease := 0xFF, tick := 0x1234567890 }] } } (fun t => t.out.bus) =
    some (.ok [0x68, 0x04, 0x90, 0x78, 0x56, 0x34, 0xFF, 0x81]) := by decide +kernel
/-- A tamper response of 3 is out of range, one of 2 stands in bits 55:54 of the stored responses, and the registers keep theirs till the next
start. -/
theorem test_tamper_response : after (.tamperResponseWrite (req 1 0x5001 28) [2]) up (fun t => (t.vault.stResp[1].toNat, t.vault.resp[1].toNat)) =
      some (0x00955555, 0x00555555) ∧
    after (.tamperResponseWrite (req 1 0x5001 28) [3]) up (fun t => t.vault.stResp[1].toNat) = some 0x00555555 := by decide +kernel


/-! ### Triven words, written out from the encodings of R281 to R284 -/

/-- Short R: op in bits 15 to 8, X in 6 to 4, Y in 2 to 0. -/
theorem test_words_short : ([(0x0000, .trvNop), (0x0212, .add 1 2), (0x0C25, .mul 2 5), (0x3071, .ld 7 1), (0x4523, .wand 2 3), (0x5440, .trap 32), (0x5845, .getid 4 5)] :
    List (BitVec 16 × Triven)).all (fun x => decide (trivenDecode x.1 0 = some x.2 ∧ isLong x.1 = false)) = true := by decide
/-- Short I: op in bits 15 to 11, r in 10 to 8; BRA: 110 and 13 bits. -/
theorem test_words_immediate : ([(0x83FF, .movi 3 255), (0xB780, .bz 7 128), (0xDFFF, .bra 0x1FFF)] : List (BitVec 16 × Triven)).all
    (fun x => decide (trivenDecode x.1 0 = some x.2 ∧ isLong x.1 = false)) = true := by decide
/-- Long: 111, op in bits 12 to 8, X and Y; h1 as the instruction has it: an immediate, an address, lanes, Dc and Dd, Ws, INC in bit 8. -/
theorem test_words_long : ([(0xE050, 0x1234, .movia 5 0x1234), (0xE400, 0x8000, .jmpl 0x8000), (0xE873, 63, .wgetb 7 3 63), (0xF101, 0x0032, .cmpb 0 1 2 3),
    (0xF301, 0x0035, .wmacb 0 3 1 5), (0xF431, 0x0104, .xin 3 1 4 true), (0xF513, 0x0004, .xout 3 1 4 false)] : List (BitVec 16 × BitVec 16 × Triven)).all
    (fun x => decide (trivenDecode x.1 x.2.1 = some x.2.2 ∧ isLong x.1 = true)) = true := by decide
/-- A reserved bit, an op that is not listed, a forbidden pair, an odd target. -/
theorem test_words_illegal : ([(0x0280, 0), (0x0218, 0), (0x0D00, 0), (0x0C22, 0), (0x0417, 0), (0xE400, 1), (0xF600, 0), (0xF100, 0)] : List (BitVec 16 × BitVec 16)).all
    (fun x => trivenDecode x.1 x.2 = none) = true := by decide

end Sys2Proof.Tests
end

/-! PROOFS. Swap requests, the swap at the frame boundary, and plans while a re-placement is pending (R50, R51, R54). -/

namespace Sys2Proof.Machine
open Sys2Proof

/-! ### What leaves the dispatcher's part of State alone -/

theorem foldl_dsp {α : Type} {f : State → α → State} (h : ∀ s x, (f s x).dsp = s.dsp) (l : List α) (s : State) :
    (l.foldl f s).dsp = s.dsp := by
  induction l generalizing s with
  | nil => rfl
  | cons x l ih => exact (ih _).trans (h s x)

theorem forEach_dsp {α : Type} {f : α → State → State} (h : ∀ x s, (f x s).dsp = s.dsp) (l : List α) (s : State) :
    (forEach l f s).dsp = s.dsp := foldl_dsp (fun s x => h x s) l s

theorem forN_dsp {f : Nat → State → State} (h : ∀ i s, (f i s).dsp = s.dsp) (n : Nat) (s : State) : (forN n f s).dsp = s.dsp :=
  foldl_dsp (fun s i => h i s) _ s

theorem ite_dsp {p : Prop} [Decidable p] {s t u : State} (ht : t.dsp = s.dsp) (hu : u.dsp = s.dsp) : (if p then t else u).dsp = s.dsp := by
  split <;> assumption

@[simp] theorem releaseSlots_dsp (l : List Nat) (s : State) : (releaseSlots l s).dsp = s.dsp := rfl
@[simp] theorem endJob_dsp (q k st : Nat) (s : State) : (endJob q k st s).dsp = s.dsp := rfl
@[simp] theorem bumpGen_dsp (index sub : Nat) (s : State) : (bumpGen index sub s).dsp = s.dsp := rfl
@[simp] theorem refreshQueues_dsp (s : State) : (refreshQueues s).dsp = s.dsp := rfl
@[simp] theorem raiseIslandOf_dsp (i k : Nat) (s : State) : (raiseIslandOf i k s).dsp = s.dsp := (raise_unmoved _ _ _).dsp
@[simp] theorem clearContexts_dsp (p : Nat → Bool) (s : State) : (clearContexts p s).dsp = s.dsp := (clearContexts_unmoved _ _).dsp

@[simp] theorem endCmd_dsp (h status need : Nat) (out : Bytes) (s : State) : (endCmd h status need out s).dsp = s.dsp := by
  unfold endCmd endCmdAt
  cases s.cmd h with
  | none => rfl
  | some c => by_cases hr : c.result.isSome <;> simp [hr]

@[simp] theorem sendQev_dsp (k : Nat) (s : State) : (sendQev k s).dsp = s.dsp := by
  unfold sendQev sendMsix
  split <;> rfl

@[simp] theorem pendVector_dsp (n k i : Nat) (s : State) : (pendVector n k i s).dsp = s.dsp :=
  foldl_dsp (fun t c => by split <;> rfl) _ s

@[simp] theorem closeJob_dsp (key : Nat) (j : Job) (s : State) : (closeJob key j s).dsp = s.dsp := by
  have late : (j.late.foldl (fun t x => t.ramWrite x.1 x.2) s).dsp = s.dsp :=
    foldl_dsp (f := fun t (x : Nat × Bytes) => t.ramWrite x.1 x.2) (fun _ _ => rfl) _ s
  cases he : j.ending <;> simp [closeJob, he, late]

@[simp] theorem stopJobAfter_dsp (t q k status : Nat) (s : State) : (stopJobAfter t q k status s).dsp = s.dsp := by
  have stop : (stopJob q k status s).dsp = s.dsp := by unfold stopJob; split <;> rfl
  unfold stopJobAfter
  split <;> simp [stop]

@[simp] theorem dropHeld_dsp (p : Held → Bool) (s : State) : (dropHeld p s).dsp = s.dsp :=
  foldl_dsp (f := fun t (x : Held) => t.ramClear x.lo x.hi) (fun _ _ => rfl) (s.held.filter p) s

@[simp] theorem clearRecords_dsp (t0 k status : Nat) (s : State) : (clearRecords t0 k status s).dsp = s.dsp := by
  unfold clearRecords
  rw [clearContexts_dsp, dropHeld_dsp, forN_dsp fun q t => by simp]

/-! ### The steps of a swap (R51) -/

@[simp] theorem failCall_dsp (c : Nat) (s : State) : (failCall c s).dsp = s.dsp := by
  unfold failCall
  split <;> simp

@[simp] theorem restartCore_dsp (c : Nat) (s : State) : (restartCore c s).dsp = s.dsp := by simp [restartCore]

@[simp] theorem copyProgram_dsp (n k : Nat) (image : Bytes) (s : State) : (copyProgram n k image s).dsp = s.dsp := by
  unfold copyProgram
  split <;> simp

@[simp] theorem copyFor_dsp (c : Nat) (s : State) : (copyFor c s).dsp = s.dsp := by
  unfold copyFor
  split <;> simp

@[simp] theorem applyMove_dsp (m : Move) (s : State) : (applyMove m s).dsp = s.dsp := by
  unfold applyMove
  split
  · rfl
  · exact foldl_dsp (fun t p => State.ramClear_dsp t _ _) m.placed _

@[simp] theorem reportMove_dsp (m : Move) (f : Nat) (s : State) : (reportMove m f s).dsp = s.dsp := by simp [reportMove]

@[simp] theorem bumpViews_dsp (d : Dsp) (s : State) : (bumpViews d s).dsp = s.dsp := by
  unfold bumpViews
  dsimp only
  split
  · rfl
  · refine forN_dsp (fun k t => ?_) _ _
    exact ite_dsp (ite_dsp rfl rfl) ((bumpGen_dsp ..).trans (ite_dsp rfl rfl))

/-! ### GO, CANCEL and FRAME_SWAP (R50, R51) -/

theorem exec_dspGo {s : State} (h : s.mainPower = true) : exec .dspGo s = .next (dspGo s) := if_pos h
theorem exec_dspCancel {s : State} (h : s.mainPower = true) : exec .dspCancel s = .next (dspCancel s) := if_pos h

/-- The dispatcher after the swap at the boundary of its pending frame. -/
def State.swappedDsp (s : State) : Dsp :=
  let later := s.dsp.repl.filter fun r => s.dsp.at_ < r.frame
  let late := s.dsp.applyPend && s.dsp.applyLate
  { s.dsp with policy := s.dsp.policyC, core := s.dsp.coreC, slt := s.dsp.sltC, page := s.dsp.pageC,
               captured := false, fresh := [], repl := later, rplPend := later ≠ [], pend := late || later ≠ [],
               at_ := if late then s.dsp.at_ + 1 else match later with | [] => s.dsp.at_ | r :: _ => r.frame,
               lastApply := if s.dsp.applyPend && !late then BitVec.ofNat 64 s.dsp.at_ else s.dsp.lastApply,
               applyPend := late, applyLate := false }

/-- At its frame boundary a captured swap leaves the dispatcher swapped: the restarts, moves, copies and reports that go with it do not touch it. -/
theorem exec_frameSwap_of_due {s : State} (hm : s.mainPower = true) (hp : s.dsp.pend = true) (hc : s.dsp.captured = true)
    (ha : s.dsp.at_ = s.frame + 1) (hf : s.ftick = 255) : ∃ t, exec .frameSwap s = .next t ∧ t.dsp = s.swappedDsp := by
  have due : (!s.mainPower || !s.dsp.pend || !s.dsp.captured || decide (s.dsp.at_ ≠ s.frame + 1) || decide (s.ftick ≠ 255)) = false := by
    simp [hm, hp, hc, ha, hf]
  refine ⟨_, (if_neg (by rw [due]; decide) : execFrameSwap s = _), ?_⟩
  rw [bumpViews_dsp, refreshQueues_dsp, forEach_dsp fun _ _ => reportMove_dsp _ _ _, forEach_dsp copyFor_dsp, forEach_dsp applyMove_dsp,
    forEach_dsp restartCore_dsp, forEach_dsp fun _ _ => by simp]
  rfl

/-- Without a pending swap, or away from its frame boundary, FRAME_SWAP changes nothing. -/
theorem exec_frameSwap_of_not_due {s : State} (h : s.dsp.pend = false ∨ s.dsp.at_ ≠ s.frame + 1 ∨ s.ftick ≠ 255) :
    exec .frameSwap s = .next s := by
  refine (if_pos ?_ : execFrameSwap s = _)
  rcases h with h | h | h <;> simp [h]

/-! ### What an entry sees of the state when its request is accepted (R352-R358) -/

theorem counted_ep (r : Req) (s : State) : (s.counted r).ep r.ep = { s.ep r.ep with tags := (s.ep r.ep).tags ++ [r.tag] } := by
  have same : (s.counted r).ep r.ep = { (pickBus r s).ep r.ep with tags := ((pickBus r s).ep r.ep).tags ++ [r.tag] } := tget_tset_same ..
  rw [same, pickBus_ep]

theorem counted_eq (r : Req) (s : State) : ∃ d, s.counted r = { s with dic := d } := by
  obtain ⟨b, h⟩ := pickBus_rest r s
  rw [State.counted, h]
  exact ⟨_, rfl⟩

@[simp] theorem counted_session (r : Req) (s : State) : (s.counted r).session r = s.session r := by
  simp [State.session, counted_ep]

@[simp] theorem counted_hidden (r : Req) (s : State) : (s.counted r).hidden r = s.hidden r := by
  obtain ⟨d, h⟩ := counted_eq r s
  rw [h]
  rfl

@[simp] theorem counted_allowed (r : Req) (s : State) (e : Nat) (x : Rights) : (s.counted r).allowed e x = s.allowed e x := by
  obtain ⟨d, h⟩ := counted_eq r s
  rw [h]
  rfl

/-- An accepted request, whose payload no major refuses for its length, is applied by its entry and answered with what the entry says. -/
theorem request_of_accepted {r : Req} {op n : Nat} {f : State → DStat × Bytes × State} {s : State} (h : Claims.Accepted r op s) (hn : n ≤ 256) :
    request r op f s n = respond (s.epVersion r.ep) r op (f (s.counted r)).1 (f (s.counted r)).2.1 (f (s.counted r)).2.2 := by
  obtain ⟨hopen, hop, hbus, ⟨major, minor, hv, hmajor, hone, henum, htwo⟩, hst, hlen, hrom, huds, hu⟩ := h
  have takes : s.takes r n = true := by
    have hbus' : r.ep ≠ 0 ∨ s.dic.smbus.getD r.smbus = r.smbus := by tauto
    simp [State.takes, hopen, hbus', show n ≤ 1024 by omega]
  have formed : malformed r op n major minor = false := by
    have short : major = 1 → op < 9 ∧ n ≤ 256 := fun m => ⟨(hone m).1, hn⟩
    simpa [malformed, hop, hst, hlen, hmajor] using ⟨short, henum⟩
  have room : (s.ep r.ep).crowded r major = false := by
    by_cases m : major = 1
    · simp [Ep.crowded, m, (hone m).2]
    · obtain ⟨few, tag⟩ := htwo m
      simp [Ep.crowded, m, tag, few]
  have rom : s.romAnswers op r.index = true := by
    unfold State.romAnswers
    split
    · exact absurd ‹_› hrom
    · exact absurd ‹_› huds
    · rfl
  exact request_of_checks takes hv formed room rom (.inl hu)

/-- The END of an object is NO_SESSION where its endpoint has no session open on the entry, before the entry's own check. -/
theorem endObject_of_noSession {r : Req} {rights : Rights} {refuse : State → State} {f : State → DStat × State} {s : State}
    (h : Claims.Accepted r 7 s) (hh : s.hidden r = false) (ha : s.allowed r.ep rights = true) (hs : s.session r = none) :
    endObject r rights refuse f s = respond (s.epVersion r.ep) r 7 .noSession [] (s.counted r) := by
  rw [endObject, request_of_accepted h (by omega)]
  simp [hh, ha, hs]

/-- So for the slot plan of a bench, whether or not a re-placement is pending. -/
theorem exec_slotPlanWrite_of_noSession {r : Req} {d : Bytes} {s : State} (h : Claims.Accepted r 7 s) (he : r.ep = 1) (hi : r.index = 0x2010)
    (hb : 1 ≤ r.sub ∧ r.sub ≤ s.nBench) (hs : s.session r = none) :
    exec (.slotPlanWrite r d) s = .next (respond (s.epVersion r.ep) r 7 .noSession [] (s.counted r)) := by
  have seen : s.hidden r = false := by simp [State.hidden, hi, he, subLease, ownRole]
  have host : s.allowed r.ep rH = true := by simp [State.allowed, he, ownRole, rH]
  have bench : (decide (1 ≤ r.sub) && decide (r.sub - 1 < s.nBench)) = true := by
    simp only [Bool.and_eq_true, decide_eq_true_eq]
    omega
  rw [← endObject_of_noSession h seen host hs]
  refine (if_pos ?_ : execSlotPlanWrite r d s = _)
  simp only [bench, hi]
  rfl

end Sys2Proof.Machine

namespace Sys2Proof.Proofs
open Sys2Proof Sys2Proof.Machine Sys2Proof.Claims

/-- Settles O14: GO and CANCEL are the two branches of their definitions, and a swap at its boundary leaves the captured tables active. -/
theorem swapRequest : Obligations.SwapRequest := by
  intro s hm
  rw [exec_dspGo hm, exec_dspCancel hm]
  refine ⟨fun hp => ?go, fun hp => ?goAgain, fun hp hc hr => ?cancel, fun h => ?cancelRefused, fun hp hc ha hf => ?swap, exec_frameSwap_of_not_due⟩
  case go => rw [dspGo, if_neg (by simp [hp])]; rfl
  case goAgain => simp [dspGo, hp]
  case cancel => simp [dspCancel, hp, hc, hr]
  case cancelRefused => rcases h with h | h | h <;> simp [dspCancel, h]
  case swap =>
    obtain ⟨t, ht, hd⟩ := exec_frameSwap_of_due hm hp hc ha hf
    exact ⟨t, ht, by rw [hd]; exact ⟨rfl, rfl, rfl, rfl⟩⟩

/-- A block that runs with a re-placement pending and the PF endpoint at version 2.1, where no write session is open. -/
def replacing : State := { State.reset with
  pw := { stage := .running, mode := .service, leaseWork := true }
  link := { up := true }
  dsp := { rplPend := true }
  dic := { eps := [(1, { ver := some (2, 1) })] } }

/-- The END of bench 0's slot plan, from the host. -/
def planEnd : Req := { ep := 1, ver := 0x21, tag := 7, index := 0x2010, sub := 1 }

theorem accepted_planEnd : Accepted planEnd 7 replacing :=
  ⟨by decide, rfl, by decide, ⟨2, 1, rfl, by decide⟩, by decide⟩

/-- Refutes O55: the clause on entry 0x2010 does not ask for a session. A SEG_WRITE_END with none open on the entry is answered NO_SESSION (R356,
R363), and R54's BUSY is not reached: `planEnd` in `replacing`. -/
theorem not_replacementHoldsPlans : ¬ Obligations.ReplacementHoldsPlans := by
  intro h
  obtain ⟨hold, -, -⟩ := h planEnd (List.replicate 1280 0xFF) replacing rfl
  obtain ⟨ends, -, -⟩ := hold rfl
  obtain ⟨t, ht, busy, -⟩ := ends accepted_planEnd rfl (by decide)
  have answer := exec_slotPlanWrite_of_noSession (d := List.replicate 1280 0xFF) accepted_planEnd rfl rfl (by decide) rfl
  obtain rfl := Host.Outcome.next.inj (answer.symm.trans ht)
  exact absurd busy (by decide)

end Sys2Proof.Proofs

/-! PROOFS. Jumps and branches of the Triven cores (R282, R283). -/

namespace Sys2Proof.Machine
open Sys2Proof Sys2Proof.Claims

/-! ### Instructions without memory access -/

/-- An instruction without memory access ends where its core begins it, with its effect on the registers. -/
theorem completes_of_runReg {i : Instr} {c len cost : Nat} {w : Triven} {g : Core → Core} {s t : State}
    (h : exec i s = .next (runReg c w cost g s)) : Completes i c w len cost g s t := by
  intro ⟨hb, hl, hs, hf⟩
  rw [h, runReg, runShort_of_fetch hb hl hs hf]
  rfl

/-! ### Branches: the displacement and its parity (R282) -/

theorem shiftLeft_one_eq_two_mul (v : BitVec 16) : v <<< 1 = 2 * v :=
  (BitVec.shiftLeft_eq_mul_twoPow v 1).trans (BitVec.mul_comm ..)

theorem branch_of_zero (c : Nat) (i : Triven) (cost : Nat) (x : BitVec 3) (disp : BitVec 16) (s : State) :
    branch c i cost (fun r => r.dr x = 0) disp s = runReg c i cost (fun r => if r.dr x = 0 then { r with pc := r.pc + disp } else r) s := by
  simp only [branch, decide_eq_true_eq]

theorem branch_of_nonzero (c : Nat) (i : Triven) (cost : Nat) (x : BitVec 3) (disp : BitVec 16) (s : State) :
    branch c i cost (fun r => r.dr x ≠ 0) disp s = runReg c i cost (fun r => if r.dr x = 0 then r else { r with pc := r.pc + disp }) s := by
  simp only [branch, decide_eq_true_eq, ite_not]

/-- Bit 0 of `v` asks whether `v` is odd. -/
theorem evenOnly_eq (c : Nat) (v : BitVec 16) (f : State → State) (s : State) :
    evenOnly c v f s = if v.toNat % 2 = 1 then illegal c s else f s := by
  rw [evenOnly, BitVec.getLsbD, Nat.testBit_zero]
  simp only [decide_eq_true_eq]

theorem evenOnly_of_even {v : BitVec 16} (h : v.toNat % 2 = 0) (c : Nat) (f : State → State) (s : State) : evenOnly c v f s = f s :=
  (evenOnly_eq c v f s).trans (if_neg (by omega))

theorem evenOnly_of_odd {v : BitVec 16} (h : v.toNat % 2 = 1) (c : Nat) (f : State → State) (s : State) : evenOnly c v f s = illegal c s :=
  (evenOnly_eq c v f s).trans (if_pos h)

/-! ### What the branches run -/

theorem exec_bz (c : Nat) (x : BitVec 3) (d : BitVec 8) (s : State) :
    exec (.bz c x d) s = .next (runReg c (.bz x d) 2 (fun r => if r.dr x = 0 then { r with pc := r.pc + 2 * d.signExtend 16 } else r) s) := by
  rw [← shiftLeft_one_eq_two_mul, ← branch_of_zero]
  rfl

theorem exec_bnz (c : Nat) (x : BitVec 3) (d : BitVec 8) (s : State) :
    exec (.bnz c x d) s = .next (runReg c (.bnz x d) 2 (fun r => if r.dr x = 0 then r else { r with pc := r.pc + 2 * d.signExtend 16 }) s) := by
  rw [← shiftLeft_one_eq_two_mul, ← branch_of_nonzero]
  rfl

theorem exec_bra (c : Nat) (d : BitVec 13) (s : State) :
    exec (.bra c d) s = .next (runReg c (.bra d) 2 (fun r => { r with pc := r.pc + 2 * d.signExtend 16 }) s) := by
  rw [← shiftLeft_one_eq_two_mul]
  rfl

section
variable {v : BitVec 16} (h : v.toNat % 2 = 0) (c : Nat) (x : BitVec 3) (s : State)
include h

theorem exec_jmpl_of_even : exec (.jmpl c v) s = .next (runReg c (.jmpl v) 2 (fun r => { r with pc := v }) s) :=
  congrArg Host.Outcome.next (evenOnly_of_even h c _ s)

theorem exec_bzl_of_even :
    exec (.bzl c x v) s = .next (runReg c (.bzl x v) 3 (fun r => if r.dr x = 0 then { r with pc := r.pc + v } else r) s) :=
  congrArg Host.Outcome.next ((evenOnly_of_even h c _ s).trans (branch_of_zero c _ 3 x v s))

theorem exec_bnzl_of_even :
    exec (.bnzl c x v) s = .next (runReg c (.bnzl x v) 3 (fun r => if r.dr x = 0 then r else { r with pc := r.pc + v }) s) :=
  congrArg Host.Outcome.next ((evenOnly_of_even h c _ s).trans (branch_of_nonzero c _ 3 x v s))

end

/-- A row that is legal only for an even `v` is, for an odd one, the illegal instruction. -/
theorem exec_illegal_of_odd {i : Instr} {c : Nat} {v : BitVec 16} {f : State → State} {s : State}
    (hi : exec i s = .next (evenOnly c v f s)) (h : v.toNat % 2 = 1) : exec i s = exec (.illegalInstruction c) s :=
  hi.trans (congrArg Host.Outcome.next (evenOnly_of_odd h c f s))

end Sys2Proof.Machine

namespace Sys2Proof.Proofs
open Sys2Proof Sys2Proof.Machine Sys2Proof.Claims

/-- Settles O4: each row runs an instruction without memory access whose effect is the one stated; the rows with a target or displacement in h1
ask first that it is even. -/
theorem trivenControl : Obligations.TrivenControl := by
  intro c x y v d8 d13 s t
  refine ⟨⟨?jmp, ?bz, ?bnz, ?bra⟩, ⟨?movia, ?addia, fun even => ?jmpl⟩, fun even => ⟨?bzl, ?bnzl⟩, fun odd => ?illegal⟩
  case jmp => exact completes_of_runReg rfl
  case bz => exact completes_of_runReg (exec_bz ..)
  case bnz => exact completes_of_runReg (exec_bnz ..)
  case bra => exact completes_of_runReg (exec_bra ..)
  case movia => exact completes_of_runReg rfl
  case addia => exact completes_of_runReg rfl
  case jmpl => exact completes_of_runReg (exec_jmpl_of_even even ..)
  case bzl => exact completes_of_runReg (exec_bzl_of_even even ..)
  case bnzl => exact completes_of_runReg (exec_bnzl_of_even even ..)
  case illegal =>
    exact ⟨exec_illegal_of_odd rfl odd, exec_illegal_of_odd rfl odd, exec_illegal_of_odd rfl odd, exec_illegal_of_odd rfl odd⟩

end Sys2Proof.Proofs

/-! PROOFS. The return from a vector (R303). -/

namespace Sys2Proof.Machine
open Sys2Proof Sys2Proof.Claims

theorem privileged_of_sup {c : Nat} {s : State} (h : (s.core c).sup = true) (i : Triven) (cost : Nat) (f : Core → State → Hit (Core → Core)) :
    privileged c i cost f s = runShort c (some i) cost f s := if_pos h

/-- The rule for every instruction whose accesses all answer: `g` is the effect they give, `w` the state they leave. -/
theorem runShort_of_accesses {c len cost : Nat} {i : Option Triven} {f : Core → State → Hit (Core → Core)} {g : Core → Core} {s t w : State}
    (h : Begins c i len cost s t) (hf : f (s.core c) t = .ok g w) : .next (runShort c i cost f s) = endsIn c len cost g w := by
  obtain ⟨begins, short, fits, fetched⟩ := h
  rw [runShort_of_fetch begins short fits fetched, hf]
  rfl

theorem pop16_of_loads {c : Nat} {sp : BitVec 16} {sup : Bool} {lo hi : Byte} {s t u : State} (hlo : loadByte c sp sup s = .ok lo t)
    (hhi : loadByte c (sp + 1) sup t = .ok hi u) : pop16 c sp sup s = .ok (BitVec.ofNat 16 (lo.toNat + 256 * hi.toNat)) u := by
  rw [pop16, hlo, Hit.bind_ok, hhi, Hit.bind_ok]

theorem evenPc_of_even {v : BitVec 16} (h : v.getLsbD 0 = false) : evenPc v = v := by
  have mask : ∀ i < 16, (0xFFFE : BitVec 16).getLsbD i = decide (i ≠ 0) := by decide
  refine BitVec.eq_of_getLsbD_eq fun i hi => ?_
  rw [evenPc, BitVec.getLsbD_and, mask i hi]
  obtain rfl | h0 := eq_or_ne i 0
  · rw [h, Bool.false_and]
  · simp [h0]

/-- Bit 0 of a popped value is bit 0 of its low byte. -/
theorem evenPc_of_even_low {lo : Byte} (h : lo.getLsbD 0 = false) (hi : Byte) :
    evenPc (BitVec.ofNat 16 (lo.toNat + 256 * hi.toNat)) = BitVec.ofNat 16 (lo.toNat + 256 * hi.toNat) := by
  refine evenPc_of_even ?_
  simp only [BitVec.getLsbD, BitVec.toNat_ofNat, Nat.testBit_zero, decide_eq_false_iff_not] at h ⊢
  omega

end Sys2Proof.Machine

namespace Sys2Proof.Proofs
open Sys2Proof Sys2Proof.Machine Sys2Proof.Claims

/-- Settles O5: in supervisor state RTE is a short instruction whose three loads answer the pushed frame; the popped PC is even, so
it keeps bit 0. -/
theorem returnFromException : Obligations.ReturnFromException := by
  intro c sr lo hi s t u v w r sup begins loadSr loadLo loadHi even
  have popPc : pop16 c (r.ar 7 + 1) true u = .ok (BitVec.ofNat 16 (lo.toNat + 256 * hi.toNat)) w :=
    pop16_of_loads loadLo (by rw [BitVec.add_assoc]; exact loadHi)
  rw [← evenPc_of_even_low even hi]
  refine (congrArg Host.Outcome.next (privileged_of_sup sup ..)).trans (runShort_of_accesses begins ?_)
  simp only [r, loadSr, popPc, Hit.bind_ok]

end Sys2Proof.Proofs

/-! PROOFS. Decoding and encoding of Triven instructions agree (R281-R284). -/

namespace Sys2Proof.Machine
open Sys2Proof

/-! ### Fields -/

@[simp] theorem zeroField_zero (i : Triven) : zeroField 0#3 i = some i := rfl

@[simp] theorem wideField_wide (z : BitVec 2) (f : BitVec 2 → Option Triven) : wideField (z.setWidth 3) f = f z := by
  have low : ∀ z : BitVec 2, (z.setWidth 3).getLsbD 2 = false ∧ (z.setWidth 3).setWidth 2 = z := by decide
  simp [wideField, low z]

theorem toNat_setWidth_wide (z : BitVec 2) : (z.setWidth 3).toNat = z.toNat := by
  revert z; decide

/-! ### Halfwords from their fields -/

/-- h0 of the formats R: `op` above the fields X and Y. -/
def headR (op : Nat) (x y : BitVec 3) : BitVec 16 := BitVec.ofNat 16 (256 * op + 16 * x.toNat + y.toNat)

theorem toNat_headR {op : Nat} (h : op < 256) (x y : BitVec 3) : (headR op x y).toNat = 256 * op + 16 * x.toNat + y.toNat := by
  have := x.isLt; have := y.isLt
  simp only [headR, BitVec.toNat_ofNat]
  omega

theorem fieldX_toNat (h : BitVec 16) : (fieldX h).toNat = h.toNat / 16 % 8 := by
  simp [fieldX, BitVec.extractLsb'_toNat, Nat.shiftRight_eq_div_pow]

theorem fieldY_toNat (h : BitVec 16) : (fieldY h).toNat = h.toNat % 8 := by
  simp [fieldY, BitVec.extractLsb'_toNat]

theorem getLsbD_eq_div {w : Nat} (v : BitVec w) (i : Nat) : v.getLsbD i = decide (v.toNat / 2 ^ i % 2 = 1) := by
  rw [BitVec.getLsbD, Nat.testBit_eq_decide_div_mod_eq]

section
variable {op : Nat} (h : op < 256) (x y : BitVec 3)
include h

theorem fieldX_headR : fieldX (headR op x y) = x := by
  apply BitVec.eq_of_toNat_eq
  have := x.isLt; have := y.isLt
  rw [fieldX_toNat, toNat_headR h]
  omega

theorem fieldY_headR : fieldY (headR op x y) = y := by
  apply BitVec.eq_of_toNat_eq
  have := x.isLt; have := y.isLt
  rw [fieldY_toNat, toNat_headR h]
  omega

/-- The reserved bits 3 and 7 are 0. -/
theorem spare_headR : ((headR op x y).getLsbD 7 || (headR op x y).getLsbD 3) = false := by
  have := x.isLt; have := y.isLt
  rw [getLsbD_eq_div, getLsbD_eq_div, toNat_headR h]
  simp only [Bool.or_eq_false_iff, decide_eq_false_iff_not]
  omega

end

/-- A halfword with the reserved bits 3 and 7 at 0 is its op over its fields. -/
theorem eq_headR {h : BitVec 16} (spare : (h.getLsbD 7 || h.getLsbD 3) = false) : h = headR (h.toNat / 256) (fieldX h) (fieldY h) := by
  apply BitVec.eq_of_toNat_eq
  have := h.isLt
  rw [toNat_headR (by omega), fieldX_toNat, fieldY_toNat]
  simp only [getLsbD_eq_div, Bool.or_eq_false_iff, decide_eq_false_iff_not] at spare
  omega

/-! ### Decoding by format -/

/-- The short format R, by its op. -/
def decodeShort (op : Nat) (x y : BitVec 3) : Option Triven :=
  if op < 0x20 then decodeData op x y else if op < 0x50 then decodeAddr op x y else decodeControl op x y

/-- The long format, by its op. -/
def decodeTwo (op : Nat) (x y : BitVec 3) (h1 : BitVec 16) : Option Triven :=
  if op < 0x10 then decodeLong op x y h1 else decodeResumable op x y h1

theorem trivenDecode_short {op : Nat} (h : op < 128) (x y : BitVec 3) (h1 : BitVec 16) :
    trivenDecode (headR op x y) h1 = decodeShort op x y := by
  have hx := x.isLt; have hy := y.isLt
  have n : (headR op x y).toNat = 256 * op + 16 * x.toNat + y.toNat := toNat_headR (by omega) x y
  have small : (headR op x y).toNat < 0x8000 := by omega
  have hop : (headR op x y).toNat / 256 = op := by omega
  unfold trivenDecode
  simp only [small, if_true, spare_headR (by omega : op < 256), Bool.false_eq_true, if_false, hop, fieldX_headR (by omega : op < 256),
    fieldY_headR (by omega : op < 256)]
  rfl

theorem trivenDecode_long {op : Nat} (h : op < 32) (x y : BitVec 3) (h1 : BitVec 16) :
    trivenDecode (headR (224 + op) x y) h1 = decodeTwo op x y h1 := by
  have hx := x.isLt; have hy := y.isLt
  have n : (headR (224 + op) x y).toNat = 256 * (224 + op) + 16 * x.toNat + y.toNat := toNat_headR (by omega) x y
  have big : ¬ (headR (224 + op) x y).toNat < 0x8000 ∧ ¬ (headR (224 + op) x y).toNat < 0xC000 ∧ ¬ (headR (224 + op) x y).toNat < 0xE000 := by omega
  have hop : (headR (224 + op) x y).toNat / 256 % 32 = op := by omega
  unfold trivenDecode
  simp only [big, if_false, spare_headR (by omega : 224 + op < 256), Bool.false_eq_true, hop, fieldX_headR (by omega : 224 + op < 256),
    fieldY_headR (by omega : 224 + op < 256)]
  rfl

theorem isLong_short {op : Nat} (h : op < 128) (x y : BitVec 3) : isLong (headR op x y) = false := by
  have hx := x.isLt; have hy := y.isLt
  rw [isLong, toNat_headR (by omega), decide_eq_false_iff_not]
  omega

theorem isLong_long {op : Nat} (h : op < 32) (x y : BitVec 3) : isLong (headR (224 + op) x y) = true := by
  rw [isLong, toNat_headR (by omega), decide_eq_true_eq]
  omega

/-! ### What halfwords spell is allowed and has those halfwords -/

/-- Whatever `o` decodes is an allowed instruction of the halfwords `ws`. -/
def Spells (ws : List (BitVec 16)) (o : Option Triven) : Prop := ∀ i, o = some i → trivenOk i = true ∧ trivenWords i = ws

section
variable {ws : List (BitVec 16)}

@[simp] theorem spells_none : Spells ws none := by
  intro i h
  cases h

@[simp] theorem spells_some {i : Triven} : Spells ws (some i) ↔ trivenOk i = true ∧ trivenWords i = ws :=
  ⟨fun h => h i rfl, fun h _ e => Option.some.inj e ▸ h⟩

theorem Spells.ite {p : Prop} [Decidable p] {a b : Option Triven} (ha : p → Spells ws a) (hb : ¬p → Spells ws b) :
    Spells ws (if p then a else b) := by
  split
  · exact ha ‹_›
  · exact hb ‹_›

theorem Spells.wideField {x : BitVec 3} {f : BitVec 2 → Option Triven} (h : ∀ z : BitVec 2, x = z.setWidth 3 → Spells ws (f z)) :
    Spells ws (wideField x f) := by
  have names : ∀ x : BitVec 3, x.getLsbD 2 = false → x = (x.setWidth 2).setWidth 3 := by decide
  exact Spells.ite (fun _ => spells_none) fun low => h _ (names x (by simpa using low))

end

theorem decodeData_spells (op : Nat) (x y : BitVec 3) : Spells [headR op x y] (decodeData op x y) := by
  unfold decodeData
  repeat' refine Spells.ite (fun h => ?_) (fun _ => ?_)
  all_goals subst_vars
  all_goals simp only [spells_none, spells_some]
  all_goals exact ⟨by simp_all [trivenOk], rfl⟩

theorem decodeAddr_spells (op : Nat) (x y : BitVec 3) : Spells [headR op x y] (decodeAddr op x y) := by
  unfold decodeAddr
  repeat' first | refine Spells.wideField (fun z h => ?_) | refine Spells.ite (fun h => ?_) (fun _ => ?_)
  all_goals subst_vars
  all_goals simp only [spells_none, spells_some]
  all_goals exact ⟨rfl, rfl⟩

theorem toNat_pair (x y : BitVec 3) : (x ++ y).toNat = 8 * x.toNat + y.toNat := by
  revert x y; decide

theorem decodeControl_spells (op : Nat) (x y : BitVec 3) : Spells [headR op x y] (decodeControl op x y) := by
  have trap : trivenWords (.trap (x ++ y)) = [headR 0x54 x y] := by
    have := y.isLt
    rw [trivenWords, toNat_pair, show (8 * x.toNat + y.toNat) / 8 = x.toNat by omega, show (8 * x.toNat + y.toNat) % 8 = y.toNat by omega]
    rfl
  unfold decodeControl
  repeat' refine Spells.ite (fun h => ?_) (fun _ => ?_)
  all_goals subst_vars
  all_goals simp only [spells_none, spells_some]
  all_goals exact ⟨rfl, by first | exact trap | rfl⟩

theorem decodeImm_spells (op : Nat) (r : BitVec 3) (v : BitVec 8) : Spells (shortI op r v) (decodeImm op r v) := by
  unfold decodeImm
  repeat' refine Spells.ite (fun h => ?_) (fun _ => ?_)
  all_goals subst_vars
  all_goals simp only [spells_none, spells_some]
  all_goals exact ⟨rfl, rfl⟩

theorem longW_eq (op : Nat) (x y : BitVec 3) (h1 : BitVec 16) : longW op x.toNat y.toNat h1.toNat = [headR (224 + op) x y, h1] := by
  rw [longW, headR, BitVec.ofNat_toNat, BitVec.setWidth_eq, show 256 * (224 + op) = 0xE000 + 256 * op by omega]

theorem decodeLong_spells (op : Nat) (x y : BitVec 3) (h1 : BitVec 16) : Spells (longW op x.toNat y.toNat h1.toNat) (decodeLong op x y h1) := by
  have low6 : h1.toNat < 64 → (h1.setWidth 6).toNat = h1.toNat := fun h => by simpa using Nat.mod_eq_of_lt h
  have low2 : h1.toNat < 4 → (h1.setWidth 2).toNat = h1.toNat := fun h => by simpa using Nat.mod_eq_of_lt h
  unfold decodeLong
  repeat' first | refine Spells.wideField (fun z h => ?_) | refine Spells.ite (fun h => ?_) (fun _ => ?_)
  all_goals subst_vars
  all_goals simp_all [trivenOk, trivenWords, -BitVec.toNat_setWidth]
  all_goals try rfl

/-! ### The operand fields of h1 -/

section
variable {h1 : BitVec 16}

theorem fieldY_of_small (h : h1.toNat < 8) : (fieldY h1).toNat = h1.toNat := by
  rw [fieldY_toNat]
  omega

theorem bit3_eq (h1 : BitVec 16) : h1.getLsbD 3 = false ↔ h1.toNat / 8 % 2 = 0 := by
  rw [getLsbD_eq_div, decide_eq_false_iff_not]
  omega

theorem fields_of_cmpb (h : h1.toNat < 128) (h3 : h1.getLsbD 3 = false) : (fieldY h1).toNat + 16 * (fieldX h1).toNat = h1.toNat := by
  rw [bit3_eq] at h3
  rw [fieldY_toNat, fieldX_toNat]
  omega

theorem fields_of_wmacb (h : h1.toNat < 64) (h3 : h1.getLsbD 3 = false) :
    (fieldY h1).toNat + 16 * (h1.extractLsb' 4 2).toNat = h1.toNat := by
  rw [bit3_eq] at h3
  rw [fieldY_toNat, BitVec.extractLsb'_toNat, Nat.shiftRight_eq_div_pow]
  omega

theorem fields_of_port (h : h1.toNat % 256 < 8) (h' : h1.toNat < 512) : (fieldY h1).toNat + 256 * (h1.getLsbD 8).toNat = h1.toNat := by
  rw [fieldY_toNat, getLsbD_eq_div]
  by_cases inc : h1.toNat / 2 ^ 8 % 2 = 1
  · rw [decide_eq_true inc, Bool.toNat_true]
    omega
  · rw [decide_eq_false inc, Bool.toNat_false]
    omega

end

theorem decodeResumable_spells (op : Nat) (x y : BitVec 3) (h1 : BitVec 16) :
    Spells (longW op x.toNat y.toNat h1.toNat) (decodeResumable op x y h1) := by
  unfold decodeResumable
  refine .ite (fun hop => .ite (fun h => ?movb) fun _ => spells_none) fun _ =>
    .ite (fun hop => .ite (fun h => ?cmpb) fun _ => spells_none) fun _ =>
    .ite (fun hop => .ite (fun h => ?fillb) fun _ => spells_none) fun _ =>
    .ite (fun hop => .wideField fun z hz => .ite (fun h => ?wmacb) fun _ => spells_none) fun _ =>
    .ite (fun hop => .wideField fun z hz => .ite (fun h => ?xin) fun _ => spells_none) fun _ =>
    .ite (fun hop => .wideField fun z hz => .ite (fun h => ?xout) fun _ => spells_none) fun _ => spells_none
  all_goals
    subst_vars
    rw [spells_some]
  case movb =>
    simp only [Bool.and_eq_true, decide_eq_true_eq] at h
    exact ⟨decide_eq_true h.2, by rw [trivenWords, fieldY_of_small h.1]⟩
  case cmpb =>
    simp only [Bool.and_eq_true, decide_eq_true_eq, Bool.not_eq_true'] at h
    obtain ⟨⟨⟨small, bit3⟩, hxy⟩, hcd⟩ := h
    exact ⟨by simp [trivenOk, hxy, hcd], by rw [trivenWords, fields_of_cmpb small bit3]⟩
  case fillb => exact ⟨rfl, by rw [trivenWords, fieldY_of_small h]⟩
  case wmacb =>
    simp only [Bool.and_eq_true, decide_eq_true_eq, Bool.not_eq_true'] at h
    obtain ⟨⟨small, bit3⟩, hws⟩ := h
    exact ⟨decide_eq_true hws, by rw [trivenWords, fields_of_wmacb small bit3, toNat_setWidth_wide]⟩
  case xin =>
    simp only [Bool.and_eq_true, decide_eq_true_eq] at h
    exact ⟨rfl, by rw [trivenWords, fields_of_port h.1 h.2, toNat_setWidth_wide]⟩
  case xout =>
    simp only [Bool.and_eq_true, decide_eq_true_eq] at h
    exact ⟨rfl, by rw [trivenWords, fields_of_port h.1 h.2, toNat_setWidth_wide]⟩

/-- What two halfwords decode to is an allowed instruction of just these halfwords, of the first alone in a short format. -/
theorem trivenDecode_spells (h0 h1 : BitVec 16) : Spells (if isLong h0 then [h0, h1] else [h0]) (trivenDecode h0 h1) := by
  have bound := h0.isLt
  unfold trivenDecode
  refine .ite (fun small => .ite (fun _ => spells_none) fun spare => ?short) fun _ => .ite (fun mid => ?imm) fun _ => .ite (fun top => ?bra) fun big =>
    .ite (fun _ => spells_none) fun spare => ?long
  case short =>
    rw [isLong, decide_eq_false (by omega), if_neg Bool.false_ne_true]
    nth_rw 1 [eq_headR (Bool.eq_false_of_not_eq_true spare)]
    exact .ite (fun _ => decodeData_spells _ _ _) fun _ => .ite (fun _ => decodeAddr_spells _ _ _) fun _ => decodeControl_spells _ _ _
  case imm =>
    have words : shortI (h0.toNat / 2 ^ 11) (h0.extractLsb' 8 3) (h0.setWidth 8) = [h0] := by
      rw [shortI]
      congr 1
      apply BitVec.eq_of_toNat_eq
      simp only [BitVec.toNat_ofNat, BitVec.extractLsb'_toNat, BitVec.toNat_setWidth, Nat.shiftRight_eq_div_pow]
      omega
    rw [isLong, decide_eq_false (by omega), if_neg Bool.false_ne_true, ← words]
    exact decodeImm_spells _ _ _
  case bra =>
    rw [isLong, decide_eq_false (by omega), if_neg Bool.false_ne_true, spells_some]
    refine ⟨rfl, congrArg (fun h => [h]) (BitVec.eq_of_toNat_eq ?_)⟩
    rw [BitVec.toNat_ofNat, BitVec.toNat_setWidth]
    omega
  case long =>
    have words : longW (h0.toNat / 256 % 32) (fieldX h0).toNat (fieldY h0).toNat h1.toNat = [h0, h1] := by
      rw [longW_eq, show 224 + h0.toNat / 256 % 32 = h0.toNat / 256 by omega, ← eq_headR (Bool.eq_false_of_not_eq_true spare)]
    rw [isLong, decide_eq_true (by omega), if_pos rfl, ← words]
    exact .ite (fun _ => decodeLong_spells _ _ _ _) fun _ => decodeResumable_spells _ _ _ _

/-! ### The halfwords of an allowed instruction decode to it -/

/-- The halfwords of `i` decode to it, whatever follows a short format. -/
def Decodes (i : Triven) : Prop :=
  ∃ h0, (isLong h0 = false ∧ trivenWords i = [h0] ∧ ∀ h1, trivenDecode h0 h1 = some i) ∨
    (isLong h0 = true ∧ ∃ h1, trivenWords i = [h0, h1] ∧ trivenDecode h0 h1 = some i)

theorem Decodes.short {op : Nat} {x y : BitVec 3} {i : Triven} (hop : op < 128) (hw : trivenWords i = [headR op x y])
    (hd : decodeShort op x y = some i) : Decodes i :=
  ⟨_, .inl ⟨isLong_short hop x y, hw, fun h1 => (trivenDecode_short hop x y h1).trans hd⟩⟩

theorem Decodes.long {op n : Nat} {x y : BitVec 3} {i : Triven} (hop : op < 32) (hw : trivenWords i = longW op x.toNat y.toNat n)
    (hd : decodeTwo op x y (BitVec.ofNat 16 n) = some i) : Decodes i := by
  refine ⟨headR (224 + op) x y, .inr ⟨isLong_long hop x y, BitVec.ofNat 16 n, ?_, (trivenDecode_long hop x y _).trans hd⟩⟩
  rw [hw, longW, headR, show 256 * (224 + op) = 0xE000 + 256 * op by omega]

theorem Decodes.imm {op : Nat} {r : BitVec 3} {v : BitVec 8} {i : Triven} (hop : 16 ≤ op ∧ op < 24) (hw : trivenWords i = shortI op r v)
    (hd : decodeImm op r v = some i) : Decodes i := by
  have hr := r.isLt
  have hv := v.isLt
  let h0 := BitVec.ofNat 16 (2048 * op + 256 * r.toNat + v.toNat)
  have n : h0.toNat = 2048 * op + 256 * r.toNat + v.toNat := by
    rw [BitVec.toNat_ofNat]
    omega
  have reg : h0.extractLsb' 8 3 = r := by
    apply BitVec.eq_of_toNat_eq
    rw [BitVec.extractLsb'_toNat, Nat.shiftRight_eq_div_pow, n]
    omega
  have imm : h0.setWidth 8 = v := by
    apply BitVec.eq_of_toNat_eq
    rw [BitVec.toNat_setWidth, n]
    omega
  refine ⟨h0, .inl ⟨decide_eq_false (by omega), hw, fun h1 => ?_⟩⟩
  unfold trivenDecode
  rw [if_neg (by omega), if_pos (by omega), reg, imm, n, show (2048 * op + 256 * r.toNat + v.toNat) / 2 ^ 11 = op by omega, hd]

theorem decodes_bra (v : BitVec 13) : Decodes (.bra v) := by
  have hv := v.isLt
  let h0 := BitVec.ofNat 16 (0xC000 + v.toNat)
  have n : h0.toNat = 0xC000 + v.toNat := by
    rw [BitVec.toNat_ofNat]
    omega
  have disp : h0.setWidth 13 = v := by
    apply BitVec.eq_of_toNat_eq
    rw [BitVec.toNat_setWidth, n]
    omega
  refine ⟨h0, .inl ⟨decide_eq_false (by omega), rfl, fun h1 => ?_⟩⟩
  unfold trivenDecode
  rw [if_neg (by omega), if_neg (by omega), if_pos (by omega), disp]

/-- TRAP #n takes n from both fields. -/
theorem decodes_trap (n : BitVec 6) : Decodes (.trap n) := by
  have split : ∀ n : BitVec 6, n.extractLsb' 3 3 ++ n.extractLsb' 0 3 = n ∧ (n.extractLsb' 3 3).toNat = n.toNat / 8 ∧ (n.extractLsb' 0 3).toNat = n.toNat % 8 := by
    decide
  obtain ⟨both, high, low⟩ := split n
  refine .short (op := 0x54) (x := n.extractLsb' 3 3) (y := n.extractLsb' 0 3) (by decide) ?_ (congrArg (fun n => some (Triven.trap n)) both)
  rw [headR, high, low]
  rfl

/-! A second halfword of operand fields, by its number. -/

theorem exists_laneHalf (j : BitVec 6) : ∃ h1 : BitVec 16, BitVec.ofNat 16 j.toNat = h1 ∧ h1.toNat < 64 ∧ h1.setWidth 6 = j := by
  refine ⟨_, rfl, ?_⟩
  revert j
  decide

theorem exists_wideHalf (z : BitVec 2) : ∃ h1 : BitVec 16, BitVec.ofNat 16 z.toNat = h1 ∧ h1.toNat < 4 ∧ h1.setWidth 2 = z := by
  refine ⟨_, rfl, ?_⟩
  revert z
  decide

theorem exists_countHalf (c : BitVec 3) : ∃ h1 : BitVec 16, BitVec.ofNat 16 c.toNat = h1 ∧ h1.toNat < 8 ∧ fieldY h1 = c := by
  refine ⟨_, rfl, ?_⟩
  revert c
  decide

theorem exists_cmpbHalf (c d : BitVec 3) :
    ∃ h1 : BitVec 16, BitVec.ofNat 16 (c.toNat + 16 * d.toNat) = h1 ∧ h1.toNat < 128 ∧ h1.getLsbD 3 = false ∧ fieldY h1 = c ∧ fieldX h1 = d := by
  refine ⟨_, rfl, ?_⟩
  revert c d
  decide

theorem exists_wmacbHalf (c : BitVec 3) (z : BitVec 2) : ∃ h1 : BitVec 16, BitVec.ofNat 16 (c.toNat + 16 * z.toNat) = h1 ∧
    h1.toNat < 64 ∧ h1.getLsbD 3 = false ∧ fieldY h1 = c ∧ h1.extractLsb' 4 2 = z := by
  refine ⟨_, rfl, ?_⟩
  revert c z
  decide

theorem exists_portHalf (c : BitVec 3) (inc : Bool) : ∃ h1 : BitVec 16, BitVec.ofNat 16 (c.toNat + 256 * inc.toNat) = h1 ∧
    h1.toNat % 256 < 8 ∧ h1.toNat < 512 ∧ fieldY h1 = c ∧ h1.getLsbD 8 = inc := by
  refine ⟨_, rfl, ?_⟩
  revert c inc
  decide

theorem trivenOk_decodes (i : Triven) (ok : trivenOk i = true) : Decodes i := by
  cases i
  case trvNop => exact .short (op := 0x00) (x := 0) (y := 0) (by decide) rfl rfl
  case mov x y => exact .short (op := 0x01) (by decide) rfl rfl
  case add x y => exact .short (op := 0x02) (by decide) rfl rfl
  case sub x y => exact .short (op := 0x03) (by decide) rfl rfl
  case adc x y => exact .short (op := 0x04) (by decide) rfl (by simp_all [trivenOk, decodeShort, decodeData])
  case sbc x y => exact .short (op := 0x05) (by decide) rfl (by simp_all [trivenOk, decodeShort, decodeData])
  case and x y => exact .short (op := 0x06) (by decide) rfl rfl
  case or x y => exact .short (op := 0x07) (by decide) rfl rfl
  case xor x y => exact .short (op := 0x08) (by decide) rfl rfl
  case not x => exact .short (op := 0x09) (y := 0) (by decide) rfl rfl
  case shl x y => exact .short (op := 0x0A) (by decide) rfl rfl
  case shr x y => exact .short (op := 0x0B) (by decide) rfl rfl
  case mul x y => exact .short (op := 0x0C) (by decide) rfl (by simp_all [trivenOk, decodeShort, decodeData])
  case ceq x y => exact .short (op := 0x10) (by decide) rfl rfl
  case cltu x y => exact .short (op := 0x11) (by decide) rfl rfl
  case clts x y => exact .short (op := 0x12) (by decide) rfl rfl
  case cnz x => exact .short (op := 0x13) (y := 0) (by decide) rfl rfl
  case mask x => exact .short (op := 0x14) (y := 0) (by decide) rfl rfl
  case mova x y => exact .short (op := 0x20) (by decide) rfl rfl
  case adda x y => exact .short (op := 0x21) (by decide) rfl rfl
  case suba x y => exact .short (op := 0x22) (by decide) rfl rfl
  case setal x y => exact .short (op := 0x23) (by decide) rfl rfl
  case setah x y => exact .short (op := 0x24) (by decide) rfl rfl
  case getal x y => exact .short (op := 0x25) (by decide) rfl rfl
  case getah x y => exact .short (op := 0x26) (by decide) rfl rfl
  case ld x y => exact .short (op := 0x30) (by decide) rfl rfl
  case st x y => exact .short (op := 0x31) (by decide) rfl rfl
  case ldPostinc x y => exact .short (op := 0x32) (by decide) rfl rfl
  case stPostinc x y => exact .short (op := 0x33) (by decide) rfl rfl
  case push x => exact .short (op := 0x34) (y := 0) (by decide) rfl rfl
  case pop x => exact .short (op := 0x35) (y := 0) (by decide) rfl rfl
  case pusha x => exact .short (op := 0x36) (y := 0) (by decide) rfl rfl
  case popa x => exact .short (op := 0x37) (y := 0) (by decide) rfl rfl
  case wclr x => exact .short (op := 0x40) (x := x.setWidth 3) (y := 0) (by decide) rfl (by simp_all [trivenOk, decodeShort, decodeAddr])
  case wmov x y => exact .short (op := 0x41) (x := x.setWidth 3) (y := y.setWidth 3) (by decide) rfl (by simp_all [trivenOk, decodeShort, decodeAddr])
  case wadd x y => exact .short (op := 0x42) (x := x.setWidth 3) (y := y.setWidth 3) (by decide) rfl (by simp_all [trivenOk, decodeShort, decodeAddr])
  case wsub x y => exact .short (op := 0x43) (x := x.setWidth 3) (y := y.setWidth 3) (by decide) rfl (by simp_all [trivenOk, decodeShort, decodeAddr])
  case wxor x y => exact .short (op := 0x44) (x := x.setWidth 3) (y := y.setWidth 3) (by decide) rfl (by simp_all [trivenOk, decodeShort, decodeAddr])
  case wand x y => exact .short (op := 0x45) (x := x.setWidth 3) (y := y.setWidth 3) (by decide) rfl (by simp_all [trivenOk, decodeShort, decodeAddr])
  case wshl8 x => exact .short (op := 0x46) (x := x.setWidth 3) (y := 0) (by decide) rfl (by simp_all [trivenOk, decodeShort, decodeAddr])
  case wshr8 x => exact .short (op := 0x47) (x := x.setWidth 3) (y := 0) (by decide) rfl (by simp_all [trivenOk, decodeShort, decodeAddr])
  case jmp y => exact .short (op := 0x50) (x := 0) (by decide) rfl rfl
  case jsr y => exact .short (op := 0x51) (x := 0) (by decide) rfl rfl
  case rts => exact .short (op := 0x52) (x := 0) (y := 0) (by decide) rfl rfl
  case rte => exact .short (op := 0x53) (x := 0) (y := 0) (by decide) rfl rfl
  case trap n => exact decodes_trap n
  case waitt => exact .short (op := 0x55) (x := 0) (y := 0) (by decide) rfl rfl
  case getsr x => exact .short (op := 0x56) (y := 0) (by decide) rfl rfl
  case setsr y => exact .short (op := 0x57) (x := 0) (by decide) rfl rfl
  case getid x y => exact .short (op := 0x58) (by decide) rfl rfl
  case gettk x => exact .short (op := 0x59) (y := 0) (by decide) rfl rfl
  case movi r v => exact .imm (op := 0x10) (by decide) rfl rfl
  case addi r v => exact .imm (op := 0x11) (by decide) rfl rfl
  case andi r v => exact .imm (op := 0x12) (by decide) rfl rfl
  case xori r v => exact .imm (op := 0x13) (by decide) rfl rfl
  case ceqi r v => exact .imm (op := 0x14) (by decide) rfl rfl
  case cltui r v => exact .imm (op := 0x15) (by decide) rfl rfl
  case bz r v => exact .imm (op := 0x16) (by decide) rfl rfl
  case bnz r v => exact .imm (op := 0x17) (by decide) rfl rfl
  case bra v => exact decodes_bra v
  case movia x v => exact .long (op := 0x00) (y := 0) (by decide) rfl (by simp_all [trivenOk, decodeTwo, decodeLong])
  case addia x v => exact .long (op := 0x01) (y := 0) (by decide) rfl (by simp_all [trivenOk, decodeTwo, decodeLong])
  case ldx x y v => exact .long (op := 0x02) (by decide) rfl (by simp_all [trivenOk, decodeTwo, decodeLong])
  case stx x y v => exact .long (op := 0x03) (by decide) rfl (by simp_all [trivenOk, decodeTwo, decodeLong])
  case jmpl v => exact .long (op := 0x04) (x := 0) (y := 0) (by decide) rfl (by simp_all [trivenOk, decodeTwo, decodeLong])
  case jsrl v => exact .long (op := 0x05) (x := 0) (y := 0) (by decide) rfl (by simp_all [trivenOk, decodeTwo, decodeLong])
  case bzl x v => exact .long (op := 0x06) (y := 0) (by decide) rfl (by simp_all [trivenOk, decodeTwo, decodeLong])
  case bnzl x v => exact .long (op := 0x07) (y := 0) (by decide) rfl (by simp_all [trivenOk, decodeTwo, decodeLong])
  case wgetb x y j =>
    obtain ⟨h1, e, small, rfl⟩ := exists_laneHalf j
    exact .long (op := 0x08) (y := y.setWidth 3) (by decide) rfl (by rw [e]; simp_all [trivenOk, decodeTwo, decodeLong])
  case wputb y x j =>
    obtain ⟨h1, e, small, rfl⟩ := exists_laneHalf j
    exact .long (op := 0x09) (y := y.setWidth 3) (by decide) rfl (by rw [e]; simp_all [trivenOk, decodeTwo, decodeLong])
  case wceq x y z =>
    obtain ⟨h1, e, small, rfl⟩ := exists_wideHalf z
    exact .long (op := 0x0A) (y := y.setWidth 3) (by decide) rfl (by rw [e]; simp_all [trivenOk, decodeTwo, decodeLong])
  case movb x y c =>
    obtain ⟨h1, e, small, rfl⟩ := exists_countHalf c
    exact .long (op := 0x10) (by decide) rfl (by rw [e]; simp_all [trivenOk, decodeTwo, decodeResumable])
  case cmpb x y c d =>
    obtain ⟨h1, e, small, bit3, rfl, rfl⟩ := exists_cmpbHalf c d
    exact .long (op := 0x11) (by decide) rfl (by rw [e]; simp_all [trivenOk, decodeTwo, decodeResumable])
  case fillb x y c =>
    obtain ⟨h1, e, small, rfl⟩ := exists_countHalf c
    exact .long (op := 0x12) (by decide) rfl (by rw [e]; simp_all [trivenOk, decodeTwo, decodeResumable])
  case wmacb x ws y c =>
    obtain ⟨h1, e, small, bit3, rfl, rfl⟩ := exists_wmacbHalf c ws
    exact .long (op := 0x13) (x := x.setWidth 3) (by decide) rfl (by rw [e]; simp_all [trivenOk, decodeTwo, decodeResumable])
  case xin x y c inc =>
    obtain ⟨h1, e, low, small, rfl, rfl⟩ := exists_portHalf c inc
    exact .long (op := 0x14) (x := x.setWidth 3) (by decide) rfl (by rw [e]; simp_all [trivenOk, decodeTwo, decodeResumable])
  case xout y x c inc =>
    obtain ⟨h1, e, low, small, rfl, rfl⟩ := exists_portHalf c inc
    exact .long (op := 0x15) (x := x.setWidth 3) (by decide) rfl (by rw [e]; simp_all [trivenOk, decodeTwo, decodeResumable])

end Sys2Proof.Machine

namespace Sys2Proof.Proofs
open Sys2Proof Sys2Proof.Machine

/-- Settles O12: the halfwords of an allowed instruction decode to it, constructor by constructor, and each row of the decoder spells its own
halfwords. -/
theorem trivenEncoding : Obligations.TrivenEncoding :=
  ⟨trivenOk_decodes, trivenDecode_spells⟩

end Sys2Proof.Proofs

/-! PROOFS. What every step keeps: the queue's rest, the identity, the fuses, and the canonical form of memory (R1, R10, R365, R376, R381); and that every
command answers a next state. -/

namespace Sys2Proof.Machine
open Sys2Proof

/-- `t` may follow `s`: the waiting commands, the identity that the vendor gave, and the tokens' digests are those of `s`, no fuse of `s` is intact
again, the counter bank is not below that of `s`, and memory is canonical if it was in `s`. -/
structure Kept (s t : State) : Prop where
  ram : Memory.wf s.ram = true → Memory.wf t.ram = true
  pending : t.pending = s.pending
  variant : t.ident.variant = s.ident.variant
  stepping : t.ident.stepping = s.ident.stepping
  unit : t.ident.unit = s.ident.unit
  vendorEd : t.ident.vendorEd = s.ident.vendorEd
  vendorMl : t.ident.vendorMl = s.ident.vendorMl
  token1 : t.lcs.token1 = s.lcs.token1
  token2 : t.lcs.token2 = s.lcs.token2
  pairs : ∀ i, s.lcs.pairs.getLsbD i = true → t.lcs.pairs.getLsbD i = true
  count : s.lcs.count ≤ t.lcs.count

/-- A command answers a next state, which may follow `s`. -/
def Res.Kept (s : State) (o : Res) : Prop := ∃ t, o = .next t ∧ Machine.Kept s t

/-- The state in which a step of an instruction ends may follow `s`, whatever its end. -/
def Hit.Kept {α : Type} (s : State) : Hit α → Prop
  | .ok _ t => Machine.Kept s t
  | .no _ _ t => Machine.Kept s t
  | .trap _ _ t => Machine.Kept s t

/-- The state in which a step of a cutter job ends may follow `s`. -/
def StepRes.Kept (s : State) : StepRes → Prop
  | .cell _ t => Machine.Kept s t
  | .done _ t => Machine.Kept s t
  | .fail _ t => Machine.Kept s t

namespace Kept
variable {s t u : State}

theorem rfl : Kept s s where
  ram h := h
  pending := Eq.refl _
  variant := Eq.refl _
  stepping := Eq.refl _
  unit := Eq.refl _
  vendorEd := Eq.refl _
  vendorMl := Eq.refl _
  token1 := Eq.refl _
  token2 := Eq.refl _
  pairs _ h := h
  count := le_refl _

theorem trans (h : Kept s t) (k : Kept t u) : Kept s u where
  ram r := k.ram (h.ram r)
  pending := k.pending.trans h.pending
  variant := k.variant.trans h.variant
  stepping := k.stepping.trans h.stepping
  unit := k.unit.trans h.unit
  vendorEd := k.vendorEd.trans h.vendorEd
  vendorMl := k.vendorMl.trans h.vendorMl
  token1 := k.token1.trans h.token1
  token2 := k.token2.trans h.token2
  pairs i r := k.pairs i (h.pairs i r)
  count := h.count.trans k.count

/-- What leaves memory, the queue, the identity and the life cycle alone may follow where `t` may. -/
theorem same (h : Kept s t) (ram : u.ram = t.ram) (pending : u.pending = t.pending) (ident : u.ident = t.ident) (lcs : u.lcs = t.lcs) : Kept s u := by
  refine h.trans ⟨fun r => ?_, pending, ?_, ?_, ?_, ?_, ?_, ?_, ?_, fun i r => ?_, ?_⟩ <;> simp_all

theorem unmoved (h : Kept s t) (k : Unmoved t u) : Kept s u := h.same k.ram k.pending k.ident k.lcs

/-- An update of other fields. -/
theorem update_iff {pw dsp benches cores leases flt pwr vault queues cmds nextCmd engines jobs dig held yard rng flg ldg pfl crd ctl tag cust dic spdm gal
    bus link out} :
    Kept s ⟨t.ident, pw, dsp, benches, cores, leases, flt, pwr, vault, queues, cmds, nextCmd, engines, jobs, dig, held, yard, rng, flg, ldg, pfl, crd,
      ctl, tag, cust, dic, spdm, t.lcs, gal, bus, link, out, t.ram, t.pending⟩ ↔ Kept s t :=
  ⟨fun h => h.same (Eq.refl _) (Eq.refl _) (Eq.refl _) (Eq.refl _), fun h => h.same (Eq.refl _) (Eq.refl _) (Eq.refl _) (Eq.refl _)⟩

theorem ite {p : Prop} [Decidable p] (h : Kept s t) (k : Kept s u) : Kept s (if p then t else u) := by
  split <;> assumption

theorem foldl {α : Type} {f : State → α → State} (hf : ∀ u x, Kept s u → Kept s (f u x)) (l : List α) (h : Kept s t) : Kept s (l.foldl f t) := by
  induction l generalizing t with
  | nil => exact h
  | cons x l ih => exact ih (hf _ _ h)

theorem foldl_snd {α β : Type} {f : β × State → α → β × State} (hf : ∀ a x, Kept s a.2 → Kept s (f a x).2) (l : List α) {a : β × State}
    (h : Kept s a.2) : Kept s (l.foldl f a).2 := by
  induction l generalizing a with
  | nil => exact h
  | cons x l ih => exact ih (hf _ _ h)

/-! The state that an operation answers beside a value. -/

theorem of_snd {α : Type} {p : α × State} {a : α} (h : Kept s p.2) (e : p = (a, u)) : Kept s u := by
  subst e; exact h

theorem of_mid {α β : Type} {p : α × State × β} {a : α} {b : β} (h : Kept s p.2.1) (e : p = (a, u, b)) : Kept s u := by
  subst e; exact h

theorem of_some {α : Type} {p : α × State} (h : Kept s p.2) : ∀ a u, some p = some (a, u) → Kept s u := by
  rintro a u e
  rw [Option.some.inj e] at h
  exact h

theorem of_none {α : Type} : ∀ (a : α) u, none = some (a, u) → Kept s u := by
  rintro a u ⟨⟩

theorem some_ite {α : Type} {c : Prop} [Decidable c] {x y : Option (α × State)} (hx : ∀ a u, x = some (a, u) → Kept s u)
    (hy : ∀ a u, y = some (a, u) → Kept s u) : ∀ a u, (if c then x else y) = some (a, u) → Kept s u := by
  split <;> assumption

theorem of_last {α β : Type} {p : α × β × State} {a : α} {b : β} (h : Kept s p.2.2) (e : p = (a, b, u)) : Kept s u := by
  subst e; exact h

end Kept

/-- An update of the life cycle that leaves the tokens and the fuses alone. -/
theorem modLcs_kept {s t : State} {f : LcsSt → LcsSt} (h : Kept s t) (token1 : (f t.lcs).token1 = t.lcs.token1)
    (token2 : (f t.lcs).token2 = t.lcs.token2) (pairs : (f t.lcs).pairs = t.lcs.pairs) (count : (f t.lcs).count = t.lcs.count) :
    Kept s (t.modLcs f) :=
  h.trans { Kept.rfl (s := t) with token1 := token1, token2 := token2, pairs := fun _ r => pairs ▸ r, count := count.ge }

theorem forN_kept {s t : State} {n : Nat} {f : Nat → State → State} (hf : ∀ i u, Kept s u → Kept s (f i u)) (h : Kept s t) : Kept s (forN n f t) :=
  .foldl (fun u i => hf i u) _ h

theorem forEach_kept {s t : State} {α : Type} {l : List α} {f : α → State → State} (hf : ∀ x u, Kept s u → Kept s (f x u)) (h : Kept s t) :
    Kept s (forEach l f t) :=
  .foldl (fun u x => hf x u) _ h

theorem Res.Kept.next {s t : State} (h : Machine.Kept s t) : Res.Kept s (.next t) := ⟨t, Eq.refl _, h⟩

theorem Res.Kept.ite {s : State} {p : Prop} [Decidable p] {a b : Res} (h : Res.Kept s a) (k : Res.Kept s b) : Res.Kept s (if p then a else b) := by
  split <;> assumption

theorem Hit.Kept.ite {s : State} {α : Type} {p : Prop} [Decidable p] {a b : Hit α} (h : Hit.Kept s a) (k : Hit.Kept s b) :
    Hit.Kept s (if p then a else b) := by
  split <;> assumption

theorem Hit.Kept.ok {s t : State} {α : Type} {v : α} (h : Machine.Kept s t) : Hit.Kept s (.ok v t) := h
theorem Hit.Kept.no {s t : State} {α : Type} {v p : Nat} (h : Machine.Kept s t) : Hit.Kept s (.no v p t : Hit α) := h
theorem Hit.Kept.trap {s t : State} {α : Type} {v p : Nat} (h : Machine.Kept s t) : Hit.Kept s (.trap v p t : Hit α) := h

theorem Hit.Kept.of_ok {s u : State} {α : Type} {x : Hit α} {v : α} (h : Hit.Kept s x) (e : x = .ok v u) : Machine.Kept s u := by
  subst e; exact h
theorem Hit.Kept.of_no {s u : State} {α : Type} {x : Hit α} {v p : Nat} (h : Hit.Kept s x) (e : x = .no v p u) : Machine.Kept s u := by
  subst e; exact h
theorem Hit.Kept.of_trap {s u : State} {α : Type} {x : Hit α} {v p : Nat} (h : Hit.Kept s x) (e : x = .trap v p u) : Machine.Kept s u := by
  subst e; exact h

theorem StepRes.Kept.ite {s : State} {p : Prop} [Decidable p] {a b : StepRes} (h : StepRes.Kept s a) (k : StepRes.Kept s b) :
    StepRes.Kept s (if p then a else b) := by
  split <;> assumption

theorem StepRes.Kept.cell {s t : State} {c : Cell} (h : Machine.Kept s t) : StepRes.Kept s (.cell c t) := h
theorem StepRes.Kept.done {s t : State} {j : Job} (h : Machine.Kept s t) : StepRes.Kept s (.done j t) := h
theorem StepRes.Kept.fail {s t : State} {st : Nat} (h : Machine.Kept s t) : StepRes.Kept s (.fail st t) := h

theorem Hit.Kept.bind {s : State} {α β : Type} {x : Hit α} {f : α → State → Hit β} (hx : Hit.Kept s x)
    (hf : ∀ v t, Machine.Kept s t → Hit.Kept s (f v t)) : Hit.Kept s (x.bind f) := by
  cases x with
  | ok v t => exact hf v t hx
  | no v p t => exact hx
  | trap v p t => exact hx

theorem ramWrite_kept {s t : State} {a : Nat} {b : Bytes} (h : Kept s t) : Kept s (t.ramWrite a b) :=
  { h with ram := fun r => Memory.wf_write (h.ram r) }

theorem ramClear_kept {s t : State} {a b : Nat} (h : Kept s t) : Kept s (t.ramClear a b) :=
  { h with ram := fun r => Memory.wf_clear (h.ram r) }

/-! ### Ops: The named operations every family uses -/

theorem setBench_kept {s t : State} {n b} (h : Kept s t) : Kept s (t.setBench n b) := h.same rfl rfl rfl rfl

theorem modBench_kept {s t : State} {n f} (h : Kept s t) : Kept s (t.modBench n f) := h.same rfl rfl rfl rfl

theorem setCore_kept {s t : State} {c x} (h : Kept s t) : Kept s (t.setCore c x) := h.same rfl rfl rfl rfl

theorem modCore_kept {s t : State} {c f} (h : Kept s t) : Kept s (t.modCore c f) := h.same rfl rfl rfl rfl

theorem setLease_kept {s t : State} {k x} (h : Kept s t) : Kept s (t.setLease k x) := h.same rfl rfl rfl rfl

theorem modLease_kept {s t : State} {k f} (h : Kept s t) : Kept s (t.modLease k f) := h.same rfl rfl rfl rfl

theorem setQueue_kept {s t : State} {k q x} (h : Kept s t) : Kept s (t.setQueue k q x) := h.same rfl rfl rfl rfl

theorem modQueue_kept {s t : State} {k q f} (h : Kept s t) : Kept s (t.modQueue k q f) := h.same rfl rfl rfl rfl

theorem setCmd_kept {s t : State} {h' c} (h : Kept s t) : Kept s (t.setCmd h' c) := h.same rfl rfl rfl rfl

theorem dropCmd_kept {s t : State} {h'} (h : Kept s t) : Kept s (t.dropCmd h') := h.same rfl rfl rfl rfl

theorem setEngine_kept {s t : State} {q x} (h : Kept s t) : Kept s (t.setEngine q x) := h.same rfl rfl rfl rfl

theorem modEngine_kept {s t : State} {q f} (h : Kept s t) : Kept s (t.modEngine q f) := h.same rfl rfl rfl rfl

theorem setJob_kept {s t : State} {q k x} (h : Kept s t) : Kept s (t.setJob q k x) := h.same rfl rfl rfl rfl

theorem modJob_kept {s t : State} {q k f} (h : Kept s t) : Kept s (t.modJob q k f) := h.same rfl rfl rfl rfl

theorem setCtx_kept {s t : State} {n i x} (h : Kept s t) : Kept s (t.setCtx n i x) := h.same rfl rfl rfl rfl

theorem setExp_kept {s t : State} {e x} (h : Kept s t) : Kept s (t.setExp e x) := h.same rfl rfl rfl rfl

theorem wrote_kept {s t : State} {addr} (h : Kept s t) : Kept s (wrote addr t) := by
  unfold wrote
  with_reducible repeat' first | exact h | apply Kept.ite | simp only [Kept.update_iff]

theorem dropHeld_kept {s t : State} {p} (h : Kept s t) : Kept s (dropHeld p t) := by
  unfold dropHeld
  with_reducible repeat' first | exact h | apply ramClear_kept | simp only [Kept.update_iff] | apply Kept.foldl | intro _

theorem eraseWedge_kept {s t : State} {q st p} (h : Kept s t) : Kept s (eraseWedge q st p t) := h.same rfl rfl rfl rfl

theorem bumpGen_kept {s t : State} {index sub} (h : Kept s t) : Kept s (bumpGen index sub t) := h.same rfl rfl rfl rfl

theorem journal_kept {s t : State} {x} (h : Kept s t) : Kept s (journal x t) := h.same rfl rfl rfl rfl

theorem logOp_kept {s t : State} {op lease ref check} (h : Kept s t) : Kept s (logOp op lease ref check t) := h.same rfl rfl rfl rfl

theorem closeCeremony_kept {s t : State} {reason} (h : Kept s t) : Kept s (closeCeremony reason t) := by
  unfold closeCeremony
  with_reducible repeat' first | exact h | apply journal_kept | simp only [Kept.update_iff] | split

theorem lapseGallery_kept {s t : State} (h : Kept s t) : Kept s (lapseGallery t) := by
  unfold lapseGallery
  with_reducible repeat' first | exact h | apply Kept.ite | apply bumpGen_kept | simp only [Kept.update_iff]

theorem useFree_kept {s t : State} {n} (h : Kept s t) : Kept s (t.useFree n) := h.same rfl rfl rfl rfl

theorem latchOnly_kept {s t : State} {cause} (h : Kept s t) : Kept s (latchOnly cause t) := by
  unfold latchOnly
  with_reducible repeat' first | exact h | apply Kept.ite | simp only [Kept.update_iff]

theorem setLatch_kept {s t : State} {cause} (h : Kept s t) : Kept s (setLatch cause t) := by
  unfold setLatch
  with_reducible repeat' first
    | exact h | assumption | apply latchOnly_kept | apply eraseWedge_kept | apply lapseGallery_kept | apply closeCeremony_kept | apply forN_kept
    | simp only [Kept.update_iff] | split | intro _

theorem recordEvent_kept {s t : State} {e sev lease inj} (h : Kept s t) : Kept s (recordEvent e sev lease inj t) := by
  unfold recordEvent
  with_reducible repeat' first | exact h | simp only [Kept.update_iff] | split

theorem queueEvent_kept {s t : State} {x} (h : Kept s t) : Kept s (queueEvent x t) := by
  unfold queueEvent
  with_reducible repeat' first | exact h | apply Kept.ite | simp only [Kept.update_iff]

theorem pendBench_kept {s t : State} {n cause} (h : Kept s t) : Kept s (pendBench n cause t) := by
  unfold pendBench
  with_reducible repeat' first | exact h | apply Kept.ite | apply eraseWedge_kept | apply setBench_kept | split

theorem pendLease_kept {s t : State} {k} (h : Kept s t) : Kept s (pendLease k t) := by
  unfold pendLease
  with_reducible repeat' first
    | exact h | assumption | apply eraseWedge_kept | apply setLease_kept | apply forN_kept | simp only | split | intro _

theorem raise0_kept {s t : State} {e lease inj} (h : Kept s t) : Kept s (raise0 e lease inj t) := h.unmoved (raise0_unmoved ..)

theorem releaseSlots_kept {s t : State} {l} (h : Kept s t) : Kept s (releaseSlots l t) := h.same rfl rfl rfl rfl

theorem endJob_kept {s t : State} {q k status} (h : Kept s t) : Kept s (endJob q k status t) := h.same rfl rfl rfl rfl

theorem stopJob_kept {s t : State} {q k status} (h : Kept s t) : Kept s (stopJob q k status t) := by
  unfold stopJob
  with_reducible repeat' first | exact h | apply Kept.ite | apply endJob_kept

theorem pendVector_kept {s t : State} {n k i} (h : Kept s t) : Kept s (pendVector n k i t) := by
  unfold pendVector
  with_reducible repeat' first | exact h | assumption | apply modCore_kept | simp only | apply Kept.foldl | split | intro _

theorem closeJob_kept {s t : State} {key j} (h : Kept s t) : Kept s (closeJob key j t) := by
  unfold closeJob
  with_reducible repeat' first
    | exact h | apply setJob_kept | apply pendVector_kept | apply ramWrite_kept | simp only | apply Kept.foldl | split | intro _

theorem stopJobAfter_kept {s t : State} {t' q k status} (h : Kept s t) : Kept s (stopJobAfter t' q k status t) := by
  unfold stopJobAfter
  with_reducible repeat' first | exact h | apply Kept.ite | apply stopJob_kept | apply closeJob_kept

theorem clearCtx_kept {s t : State} {x c} (h : Kept s t) : Kept s (clearCtx x c t) := by
  unfold clearCtx
  with_reducible repeat' first | exact h | assumption | apply endJob_kept | simp only [Kept.update_iff] | apply Kept.foldl | split | intro _

theorem compatOne_kept {s t : State} {x} (h : Kept s t) : Kept s (compatOne x t) := by
  unfold compatOne
  with_reducible repeat' first | exact h | apply Kept.ite | apply raise0_kept | apply clearCtx_kept

theorem lockdownClears_kept {s t : State} {held} (h : Kept s t) : Kept s (lockdownClears held t) := by
  unfold lockdownClears
  with_reducible repeat' first
    | exact h | apply Kept.ite | apply raise0_kept | apply clearCtx_kept | apply compatOne_kept | simp only | apply Kept.foldl
    | intro _

theorem compatAll_kept {s t : State} {l} (h : Kept s t) : Kept s (compatAll l t) := by
  unfold compatAll
  with_reducible repeat' first | exact h | apply Kept.ite | apply compatOne_kept | apply lockdownClears_kept | apply Kept.foldl

theorem compatClear_kept {s t : State} {x} (h : Kept s t) : Kept s (compatClear x t) := by
  unfold compatClear
  with_reducible repeat' first | exact h | apply Kept.ite | apply compatAll_kept

theorem clearContexts_kept {s t : State} {p} (h : Kept s t) : Kept s (clearContexts p t) := by
  unfold clearContexts
  with_reducible repeat' first | exact h | apply clearCtx_kept | apply compatClear_kept | simp only | apply Kept.foldl | intro _

theorem raiseInj_kept {s t : State} {e k inj} (h : Kept s t) : Kept s (raiseInj e k inj t) := by
  unfold raiseInj
  with_reducible repeat' first | exact h | apply Kept.ite | apply raise0_kept | apply compatClear_kept | apply lockdownClears_kept | apply Kept.foldl

theorem raise_kept {s t : State} {e k} (h : Kept s t) : Kept s (raise e k t) := raiseInj_kept h

theorem raiseDev_kept {s t : State} {e} (h : Kept s t) : Kept s (raiseDev e t) := raise_kept h

theorem raiseIsland_kept {s t : State} {i} (h : Kept s t) : Kept s (raiseIsland i t) := raiseDev_kept h

theorem raiseIslandOf_kept {s t : State} {i k} (h : Kept s t) : Kept s (raiseIslandOf i k t) := raise_kept h

theorem raiseHost_kept {s t : State} {i k} (h : Kept s t) : Kept s (raiseHost i k t) := raise_kept h

theorem raiseGate_kept {s t : State} {i} (h : Kept s t) : Kept s (raiseGate i t) := raiseDev_kept h

theorem raiseFlash_kept {s t : State} {i} (h : Kept s t) : Kept s (raiseFlash i t) := raiseDev_kept h

theorem raiseTamper_kept {s t : State} {i} (h : Kept s t) : Kept s (raiseTamper i t) := raiseDev_kept h

theorem raiseRandom_kept {s t : State} {i k} (h : Kept s t) : Kept s (raiseRandom i k t) := raise_kept h

theorem raiseCust_kept {s t : State} {i} (h : Kept s t) : Kept s (raiseCust i t) := raiseDev_kept h

theorem raiseTag_kept {s t : State} {i} (h : Kept s t) : Kept s (raiseTag i t) := by
  unfold raiseTag
  with_reducible repeat' first | exact h | apply Kept.ite | apply raiseCust_kept

theorem raisePower_kept {s t : State} {i} (h : Kept s t) : Kept s (raisePower i t) := raiseDev_kept h

theorem draw_kept {s t : State} {e n} (h : Kept s t) : ∀ a u, draw e n t = some (a, u) → Kept s u := by
  intro a u e
  unfold draw at e
  dsimp only at e
  split at e
  · cases e
    exact setExp_kept h
  · cases e

theorem endUpdate_kept {s t : State} (h : Kept s t) : Kept s (endUpdate t) := h.same rfl rfl rfl rfl

theorem drawIsland_kept {s t : State} {n} (h : Kept s t) : Kept s (drawIsland n t).2 := by
  unfold drawIsland
  split
  · exact draw_kept h _ _ ‹_›
  · exact useFree_kept h

theorem drawDue_kept {s t : State} (h : Kept s t) : Kept s (drawDue t) := by
  have one : ∀ (c : Bool) (g : Bytes → State → State) (u : State), (∀ b v, Kept s v → Kept s (g b v)) → Kept s u →
      Kept s (if c then (match draw 16 32 u with | some (b, t) => g b t | none => u) else u) := fun c g u hg hu => by
    split
    · split
      · exact hg _ _ (draw_kept hu _ _ ‹_›)
      · exact hu
    · exact hu
  exact one _ (fun b v => { v with vault := { v.vault with chal := b, chalDue := false } }) _ (fun _ _ hv => Kept.update_iff.2 hv)
    (one _ (fun b v => { v with gal := { v.gal with chal := b, chalDue := false } }) _ (fun _ _ hv => Kept.update_iff.2 hv) h)

theorem sendMsix_kept {s t : State} {fn vec} (h : Kept s t) : Kept s (sendMsix fn vec t) := by
  unfold sendMsix
  with_reducible repeat' first | exact h | apply Kept.ite | simp only [Kept.update_iff]

theorem sendQev_kept {s t : State} {k} (h : Kept s t) : Kept s (sendQev k t) := sendMsix_kept h

theorem hostWrite_kept {s t : State} {k addr b} (h : Kept s t) : Kept s (hostWrite k addr b t) := by
  unfold hostWrite
  with_reducible repeat' first | exact h | apply Kept.ite | simp only [Kept.update_iff]

theorem hostRead_kept {s t : State} {k addr n} (h : Kept s t) : Kept s (hostRead k addr n t) := by
  unfold hostRead
  with_reducible repeat' first | exact h | apply Kept.ite | simp only [Kept.update_iff]

theorem endCmdAt_kept {s t : State} {at_ h' status need out} (h : Kept s t) : Kept s (endCmdAt at_ h' status need out t) := by
  unfold endCmdAt
  with_reducible repeat' first | exact h | apply Kept.ite | apply releaseSlots_kept | apply setCmd_kept | simp only | split

theorem endCmd_kept {s t : State} {h' status need out} (h : Kept s t) : Kept s (endCmd h' status need out t) := endCmdAt_kept h

/-! ### Request: Dictionary requests -/

theorem setEp_kept {s t : State} {e x} (h : Kept s t) : Kept s (t.setEp e x) := h.same rfl rfl rfl rfl

theorem setSession_kept {s t : State} {e x} (h : Kept s t) : Kept s (setSession e x t) := h.same rfl rfl rfl rfl

theorem dropSession_kept {s t : State} {e} (h : Kept s t) : Kept s (dropSession e t) := by
  unfold dropSession
  with_reducible repeat' first | exact h | apply Kept.ite | apply setSession_kept | apply endUpdate_kept

theorem discardEp_kept {s t : State} {e} (h : Kept s t) : Kept s (discardEp e t) := by
  unfold discardEp
  with_reducible repeat' first | exact h | apply dropSession_kept | apply setEp_kept | simp only [Kept.update_iff]

theorem respond_kept {s t : State} {v r op st payload} (h : Kept s t) : Kept s (respond v r op st payload t) := h.same rfl rfl rfl rfl

theorem pickBus_kept {s t : State} {r} (h : Kept s t) : Kept s (pickBus r t) := by
  unfold pickBus
  with_reducible repeat' first | exact h | apply Kept.ite | simp only [Kept.update_iff]

theorem outstanding_kept {s t : State} {r} (h : Kept s t) : Kept s (outstanding r t) := h.same rfl rfl rfl rfl

theorem countReq_kept {s t : State} (h : Kept s t) : Kept s (countReq t) := h.same rfl rfl rfl rfl

theorem request_kept {s t : State} {r op f n} (hf : ∀ u, Kept s u → Kept s (f u).2.2) (h : Kept s t) : Kept s (request r op f t n) := by
  unfold request
  with_reducible repeat' first
    | exact h | apply Kept.ite | apply pickBus_kept | apply respond_kept | apply outstanding_kept | apply countReq_kept | apply hf
    | simp only | split

theorem officerAction_kept {s t : State} {r own st} (h : Kept s t) : Kept s (officerAction r own st t) := by
  unfold officerAction
  with_reducible repeat' first | exact h | apply Kept.ite | simp only [Kept.update_iff]

theorem writeEntry_kept {s t : State} {r rights len value f} (hf : ∀ u, Kept s u → Kept s (f u).2) (h : Kept s t) :
    Kept s (writeEntry r rights len value f t) := by
  unfold writeEntry
  with_reducible repeat' first
    | exact h | assumption | apply request_kept | apply officerAction_kept | apply hf | simp only | split | intro _

theorem endObject_kept {s t : State} {r rights refuse f} (hrefuse : ∀ u, Kept s u → Kept s (refuse u)) (hf : ∀ u, Kept s u → Kept s (f u).2) (h : Kept s t) :
    Kept s (endObject r rights refuse f t) := by
  unfold endObject
  with_reducible repeat' first
    | exact h | assumption | apply request_kept | apply setSession_kept | apply hrefuse | apply hf | simp only | split | intro _

/-! ### Yard: The key yard -/

theorem countUse_kept {s t : State} {k r} (h : Kept s t) : Kept s (countUse k r t) := by
  unfold countUse
  with_reducible repeat' first | exact h | apply Kept.ite | apply modLease_kept

theorem reserve_kept {s t : State} {l} (h : Kept s t) : Kept s (reserve l t) := h.same rfl rfl rfl rfl

theorem yardNext_kept {s t : State} {i x} (h : Kept s t) : Kept s (yardNext i x t) := h.same rfl rfl rfl rfl

theorem storeLater_kept {s t : State} {i x} (h : Kept s t) : Kept s (storeLater i x t) := h.same rfl rfl rfl rfl

theorem storeKey_kept {s t : State} {i x} (h : Kept s t) : Kept s (storeKey i x t) := by
  unfold storeKey
  with_reducible repeat' first | exact h | apply storeLater_kept | simp only | apply Kept.foldl | intro _

theorem dropChecks_kept {s t : State} {l} (h : Kept s t) : Kept s (dropChecks l t) := h.same rfl rfl rfl rfl

theorem writeUnder_kept {s t : State} {k target parent p type len attr value pending yOdd} (h : Kept s t) :
    Kept s (writeUnder k target parent p type len attr value pending yOdd t).2 := by
  unfold writeUnder
  with_reducible repeat' first
    | exact h | apply Kept.ite | apply yardNext_kept | apply dropChecks_kept | apply releaseSlots_kept | apply storeKey_kept
    | simp only [Kept.update_iff] | apply Kept.foldl | split | intro _

theorem writeKey_kept {s t : State} {k target parent type len attr value pending yOdd} (h : Kept s t) :
    Kept s (writeKey k target parent type len attr value pending yOdd t).2 := writeUnder_kept h

theorem dropLines_kept {s t : State} {i} (h : Kept s t) : Kept s (dropLines i t) := h.same rfl rfl rfl rfl

theorem emptySlot_kept {s t : State} {i} (h : Kept s t) : Kept s (emptySlot i t) := by
  unfold emptySlot
  with_reducible repeat' first | exact h | apply Kept.ite | apply dropLines_kept | apply yardNext_kept | apply dropChecks_kept | apply storeLater_kept

theorem invalidate_kept {s t : State} {i} (h : Kept s t) : Kept s (invalidate i t) := by
  unfold invalidate
  with_reducible repeat' first | exact h | apply emptySlot_kept | simp only | apply Kept.foldl

theorem execYardLineFill_kept {s t : State} {n slot} (h : Kept s t) : Res.Kept s (execYardLineFill n slot t) := by
  unfold execYardLineFill
  with_reducible repeat' first | exact h | apply Res.Kept.next | apply Res.Kept.ite | apply setBench_kept | split

theorem setPort_kept {s t : State} {k p} (h : Kept s t) : Kept s (t.setPort k p) := h.same rfl rfl rfl rfl

theorem yardGo_kept {s t : State} {k bench ctl} (h : Kept s t) : Kept s (yardGo k bench ctl t) := by
  unfold yardGo
  with_reducible repeat' first | exact h | apply Kept.ite | apply raiseIslandOf_kept | apply setPort_kept

theorem execYardLoadGo_kept {s t : State} {k n ctl} (h : Kept s t) : Res.Kept s (execYardLoadGo k n ctl t) := by
  unfold execYardLoadGo
  with_reducible repeat' first | exact h | apply Res.Kept.next | apply Res.Kept.ite | apply yardGo_kept

theorem execYardLoadDone_kept {s t : State} {k} (h : Kept s t) : Res.Kept s (execYardLoadDone k t) := by
  unfold execYardLoadDone
  with_reducible repeat' first
    | exact h | apply Res.Kept.next | apply Res.Kept.ite | apply Kept.ite | apply writeKey_kept | apply logOp_kept | apply setPort_kept
    | apply ramClear_kept

theorem execPendingCheck_kept {s t : State} {slot} (h : Kept s t) : Res.Kept s (execPendingCheck slot t) := by
  unfold execPendingCheck
  with_reducible repeat' first | exact h | apply Res.Kept.next | apply Res.Kept.ite | simp only [Kept.update_iff]

theorem execPendingClear_kept {s t : State} {slot} (h : Kept s t) : Res.Kept s (execPendingClear slot t) := by
  unfold execPendingClear
  with_reducible repeat' first
    | exact h | apply Res.Kept.next | apply Res.Kept.ite | apply Kept.ite | apply yardNext_kept | apply storeLater_kept | apply raiseIslandOf_kept
    | apply invalidate_kept | simp only [Kept.update_iff] | split

theorem execSweeperFrame_kept {s t : State} (h : Kept s t) : Res.Kept s (execSweeperFrame t) := by
  unfold execSweeperFrame
  with_reducible repeat' first
    | exact h | apply Res.Kept.next | apply Res.Kept.ite | apply emptySlot_kept | simp only [Kept.update_iff] | apply Kept.foldl

theorem deriveRoot_kept {s t : State} {k} (h : Kept s t) : Kept s (deriveRoot k t) := by
  unfold deriveRoot
  with_reducible repeat' first | exact h | apply yardNext_kept | simp only | split

theorem scrub_kept {s t : State} {k} (h : Kept s t) : Kept s (scrub k t) := by
  unfold scrub
  with_reducible repeat' first
    | exact h | assumption | apply setLease_kept | apply emptySlot_kept | apply storeLater_kept | apply deriveRoot_kept
    | simp only | apply Kept.foldl | split | intro _

theorem scrubWrite_kept {s t : State} {r k value} (h : Kept s t) : Kept s (scrubWrite r k value t).2 := by
  unfold scrubWrite
  with_reducible repeat' first | exact h | apply Kept.ite | apply scrub_kept | apply logOp_kept | simp only | split

theorem execLeaseScrub_kept {s t : State} {r value} (h : Kept s t) : Res.Kept s (execLeaseScrub r value t) := by
  unfold execLeaseScrub
  with_reducible repeat' first | exact h | apply Res.Kept.next | apply Res.Kept.ite | apply writeEntry_kept | apply scrubWrite_kept | split | intro _

theorem rangeWrite_kept {s t : State} {k sub value} (h : Kept s t) : Kept s (rangeWrite k sub value t).2 := by
  unfold rangeWrite
  with_reducible repeat' first | exact h | apply setLease_kept | simp only | split

theorem execYardRangeWrite_kept {s t : State} {r value} (h : Kept s t) : Res.Kept s (execYardRangeWrite r value t) := by
  unfold execYardRangeWrite
  with_reducible repeat' first | exact h | apply Res.Kept.next | apply Res.Kept.ite | apply writeEntry_kept | apply rangeWrite_kept | split | intro _

theorem makeDurable_kept {s t : State} {g i} (h : Kept s t) : Kept s (makeDurable g t i) := by
  unfold makeDurable
  with_reducible repeat' first | exact h | apply Kept.ite | simp only [Kept.update_iff]

theorem execPersistRecordAppend_kept {s t : State} (h : Kept s t) : Res.Kept s (execPersistRecordAppend t) := by
  unfold execPersistRecordAppend
  with_reducible repeat' first
    | exact h | apply Res.Kept.next | apply Res.Kept.ite | apply makeDurable_kept | apply useFree_kept | simp only [Kept.update_iff]
    | apply Kept.foldl | split | intro _

theorem execYardStoreCompaction_kept {s t : State} (h : Kept s t) : Res.Kept s (execYardStoreCompaction t) := by
  unfold execYardStoreCompaction
  with_reducible repeat' first | exact h | apply Res.Kept.next | apply Res.Kept.ite | simp only [Kept.update_iff]

theorem scrubStore_kept {s t : State} (h : Kept s t) : Kept s (scrubStore t) := h.same rfl rfl rfl rfl

theorem restoreSlot_kept {s t : State} {r} (h : Kept s t) : Kept s (restoreSlot t r) := by
  unfold restoreSlot
  with_reducible repeat' first | exact h | simp only [Kept.update_iff] | split

theorem restoreStore_kept {s t : State} (h : Kept s t) : Kept s (restoreStore t) := by
  unfold restoreStore
  with_reducible repeat' first
    | exact h | assumption | apply Kept.ite | apply scrubStore_kept | apply restoreSlot_kept | apply storeLater_kept | apply dropChecks_kept
    | simp only [Kept.update_iff] | apply Kept.foldl | intro _

theorem quorumSet_kept {s t : State} {r k value} (h : Kept s t) : Kept s (quorumSet r k value t).2 := by
  unfold quorumSet
  with_reducible repeat' first | exact h | apply Kept.ite | apply logOp_kept | apply setLease_kept | simp only | split

theorem execQuorumWrite_kept {s t : State} {r value} (h : Kept s t) : Res.Kept s (execQuorumWrite r value t) := by
  unfold execQuorumWrite
  with_reducible repeat' first | exact h | apply Res.Kept.next | apply Res.Kept.ite | apply writeEntry_kept | apply quorumSet_kept | split | intro _

theorem grantStart_kept {s t : State} {k value} (h : Kept s t) : Kept s (grantStart k value t).2 := by
  unfold grantStart
  with_reducible repeat' first | exact h | simp only [Kept.update_iff] | split

theorem execGrantStart_kept {s t : State} {r value} (h : Kept s t) : Res.Kept s (execGrantStart r value t) := by
  unfold execGrantStart
  with_reducible repeat' first | exact h | apply Res.Kept.next | apply Res.Kept.ite | apply writeEntry_kept | apply grantStart_kept | split | intro _

theorem grantRevoke_kept {s t : State} {k value} (h : Kept s t) : Kept s (grantRevoke k value t).2 := by
  unfold grantRevoke
  with_reducible repeat' first | exact h | apply modLease_kept | split

theorem execGrantRevoke_kept {s t : State} {r value} (h : Kept s t) : Res.Kept s (execGrantRevoke r value t) := by
  unfold execGrantRevoke
  with_reducible repeat' first | exact h | apply Res.Kept.next | apply Res.Kept.ite | apply writeEntry_kept | apply grantRevoke_kept | split | intro _

theorem execGrantExpiry_kept {s t : State} {k} (h : Kept s t) : Res.Kept s (execGrantExpiry k t) := by
  unfold execGrantExpiry
  with_reducible repeat' first | exact h | apply Res.Kept.next | apply Res.Kept.ite | apply modLease_kept | split

theorem execGrantWindowExpiry_kept {s t : State} (h : Kept s t) : Res.Kept s (execGrantWindowExpiry t) := by
  unfold execGrantWindowExpiry
  with_reducible repeat' first | exact h | apply Res.Kept.next | apply Res.Kept.ite | apply raiseCust_kept | simp only [Kept.update_iff] | split

/-! ### Benches: The dispatcher and the benches -/

theorem refreshQueues_kept {s t : State} (h : Kept s t) : Kept s (refreshQueues t) := h.same rfl rfl rfl rfl

theorem wakeReq_kept {s t : State} {n} (h : Kept s t) : Kept s (wakeReq n t) := by
  unfold wakeReq
  with_reducible repeat' first | exact h | apply Kept.ite | apply raisePower_kept | simp only [Kept.update_iff]

theorem execWakeAdmission_kept {s t : State} (h : Kept s t) : Res.Kept s (execWakeAdmission t) := by
  unfold execWakeAdmission
  with_reducible repeat' first | exact h | apply Res.Kept.next | apply Res.Kept.ite | apply modBench_kept | simp only [Kept.update_iff] | split

theorem setReady_kept {s t : State} {n} (h : Kept s t) : Kept s (setReady n t) := h.same rfl rfl rfl rfl

theorem execBenchRampEnd_kept {s t : State} {n railsGood} (h : Kept s t) : Res.Kept s (execBenchRampEnd n railsGood t) := by
  unfold execBenchRampEnd
  with_reducible repeat' first
    | exact h | apply Res.Kept.next | apply Res.Kept.ite | apply setReady_kept | apply setBench_kept | apply raisePower_kept
    | simp only [Kept.update_iff]

theorem gateOff_kept {s t : State} {n} (h : Kept s t) : Kept s (gateOff n t) := by
  unfold gateOff
  with_reducible repeat' first | exact h | apply raisePower_kept | apply modBench_kept

theorem execBenchIdleOff_kept {s t : State} {n} (h : Kept s t) : Res.Kept s (execBenchIdleOff n t) := by
  unfold execBenchIdleOff
  with_reducible repeat' first | exact h | apply Res.Kept.next | apply Res.Kept.ite | apply gateOff_kept

theorem pwrOff_kept {s t : State} {mask} (h : Kept s t) : Kept s (pwrOff mask t) := by
  unfold pwrOff
  with_reducible repeat' first | exact h | assumption | apply modBench_kept | apply forN_kept | split | intro _

theorem execPwrOffWrite_kept {s t : State} {mask} (h : Kept s t) : Res.Kept s (execPwrOffWrite mask t) := by
  unfold execPwrOffWrite
  with_reducible repeat' first | exact h | apply Res.Kept.next | apply Res.Kept.ite | apply pwrOff_kept | apply wrote_kept

theorem pwrWake_kept {s t : State} {mask} (h : Kept s t) : Kept s (pwrWake mask t) := by
  unfold pwrWake
  with_reducible repeat' first | exact h | assumption | apply wakeReq_kept | apply forN_kept | split | intro _

theorem execPwrWakeWrite_kept {s t : State} {mask} (h : Kept s t) : Res.Kept s (execPwrWakeWrite mask t) := by
  unfold execPwrWakeWrite
  with_reducible repeat' first | exact h | apply Res.Kept.next | apply Res.Kept.ite | apply pwrWake_kept

theorem dspGo_kept {s t : State} (h : Kept s t) : Kept s (dspGo t) := by
  unfold dspGo
  with_reducible repeat' first | exact h | apply Kept.ite | simp only [Kept.update_iff]

theorem dspCancel_kept {s t : State} (h : Kept s t) : Kept s (dspCancel t) := by
  unfold dspCancel
  with_reducible repeat' first | exact h | apply Kept.ite | simp only [Kept.update_iff]

theorem execDspGo_kept {s t : State} (h : Kept s t) : Res.Kept s (execDspGo t) := by
  unfold execDspGo
  with_reducible repeat' first | exact h | apply Res.Kept.next | apply Res.Kept.ite | apply dspGo_kept

theorem execDspCancel_kept {s t : State} (h : Kept s t) : Res.Kept s (execDspCancel t) := by
  unfold execDspCancel
  with_reducible repeat' first | exact h | apply Res.Kept.next | apply Res.Kept.ite | apply dspCancel_kept

theorem shadowWrite_kept {s t : State} {off val} (h : Kept s t) : Kept s (shadowWrite off val t) := by
  unfold shadowWrite
  with_reducible repeat' first | exact h | apply Kept.ite | apply raiseIsland_kept | simp only [Kept.update_iff]

theorem execShadowTableWrite_kept {s t : State} {off val} (h : Kept s t) : Res.Kept s (execShadowTableWrite off val t) := by
  unfold execShadowTableWrite
  with_reducible repeat' first | exact h | apply Res.Kept.next | apply Res.Kept.ite | apply shadowWrite_kept

theorem failCall_kept {s t : State} {c} (h : Kept s t) : Kept s (failCall c t) := by
  unfold failCall
  with_reducible repeat' first | exact h | apply endCmd_kept | split

theorem restartCore_kept {s t : State} {c} (h : Kept s t) : Kept s (restartCore c t) := by
  unfold restartCore
  with_reducible repeat' first | exact h | apply failCall_kept | apply setCore_kept

theorem copyProgram_kept {s t : State} {n k image} (h : Kept s t) : Kept s (copyProgram n k image t) := by
  unfold copyProgram
  with_reducible repeat' first | exact h | apply ramWrite_kept | apply ramClear_kept | split

theorem copyFor_kept {s t : State} {c} (h : Kept s t) : Kept s (copyFor c t) := by
  unfold copyFor
  with_reducible repeat' first | exact h | apply Kept.ite | apply copyProgram_kept

theorem startCores_kept {s t : State} {l} (h : Kept s t) : Kept s (startCores l t) := by
  unfold startCores
  with_reducible repeat' first | exact h | assumption | apply copyFor_kept | apply restartCore_kept | apply forEach_kept | intro _

theorem bumpViews_kept {s t : State} {d} (h : Kept s t) : Kept s (bumpViews d t) := by
  unfold bumpViews
  with_reducible repeat' first
    | exact h | assumption | apply Kept.ite | apply bumpGen_kept | apply forN_kept | simp only | split | intro _

theorem execShadowCapture_kept {s t : State} (h : Kept s t) : Res.Kept s (execShadowCapture t) := by
  unfold execShadowCapture
  with_reducible repeat' first
    | exact h | assumption | apply Res.Kept.next | apply Res.Kept.ite | apply setCore_kept | apply failCall_kept | apply bumpViews_kept
    | apply wakeReq_kept | apply forN_kept | apply forEach_kept | simp only [Kept.update_iff] | split | intro _

theorem reportMove_kept {s t : State} {m frame} (h : Kept s t) : Kept s (reportMove m frame t) := by
  unfold reportMove
  with_reducible repeat' first | exact h | apply modLease_kept | apply sendQev_kept | apply raiseIslandOf_kept

theorem applyMove_kept {s t : State} {m} (h : Kept s t) : Kept s (applyMove m t) := by
  unfold applyMove
  with_reducible repeat' first | exact h | apply Kept.ite | apply ramClear_kept | simp only [Kept.update_iff] | apply Kept.foldl | intro _

theorem clearRecords_kept {s t : State} {t0 k status} (h : Kept s t) : Kept s (clearRecords t0 k status t) := by
  unfold clearRecords
  with_reducible repeat' first
    | exact h | assumption | apply modJob_kept | apply stopJobAfter_kept | apply dropHeld_kept | apply clearContexts_kept | apply forN_kept
    | intro _

theorem execFrameSwap_kept {s t : State} (h : Kept s t) : Res.Kept s (execFrameSwap t) := by
  unfold execFrameSwap
  with_reducible repeat' first
    | exact h | assumption | apply Res.Kept.next | apply Res.Kept.ite | apply clearRecords_kept | apply modLease_kept | apply restartCore_kept
    | apply applyMove_kept | apply copyFor_kept | apply reportMove_kept | apply bumpViews_kept | apply refreshQueues_kept | apply forEach_kept
    | simp only [Kept.update_iff] | split | intro _

theorem benQuarantine_kept {s t : State} {n} (h : Kept s t) : Kept s (benQuarantine n t) := by
  unfold benQuarantine
  with_reducible repeat' first | exact h | apply Kept.ite | apply pendBench_kept

theorem execBenQuarantineWrite_kept {s t : State} {n} (h : Kept s t) : Res.Kept s (execBenQuarantineWrite n t) := by
  unfold execBenQuarantineWrite
  with_reducible repeat' first | exact h | apply Res.Kept.next | apply Res.Kept.ite | apply benQuarantine_kept | apply wrote_kept

theorem benReturn_kept {s t : State} {n} (h : Kept s t) : Kept s (benReturn n t) := by
  unfold benReturn
  with_reducible repeat' first | exact h | apply Kept.ite | apply setBench_kept

theorem execBenReturn_kept {s t : State} {n} (h : Kept s t) : Res.Kept s (execBenReturn n t) := by
  unfold execBenReturn
  with_reducible repeat' first | exact h | apply Res.Kept.next | apply Res.Kept.ite | apply benReturn_kept | apply wrote_kept

theorem stopCommands_kept {s t : State} {p status} (h : Kept s t) : Kept s (stopCommands p status t) := by
  unfold stopCommands
  with_reducible repeat' first | exact h | apply endCmd_kept | apply forEach_kept | intro _

theorem execBenchQuarantine_kept {s t : State} {n} (h : Kept s t) : Res.Kept s (execBenchQuarantine n t) := by
  unfold execBenchQuarantine
  with_reducible repeat' first
    | exact h | assumption | apply Res.Kept.next | apply Res.Kept.ite | apply stopCommands_kept | apply setCore_kept | apply modJob_kept
    | apply stopJobAfter_kept | apply clearContexts_kept | apply dropHeld_kept | apply setBench_kept | apply setExp_kept | apply refreshQueues_kept
    | apply reportMove_kept | apply ramClear_kept | apply forN_kept | apply forEach_kept | simp only [Kept.update_iff] | split | intro _

theorem giveSeed_kept {s t : State} {e seed} (h : Kept s t) : Kept s (giveSeed e seed t) := by
  unfold giveSeed
  with_reducible repeat' first | exact h | apply Kept.ite | apply setExp_kept

theorem execBenchWipeDone_kept {s t : State} {n} (h : Kept s t) : Res.Kept s (execBenchWipeDone n t) := by
  unfold execBenchWipeDone
  with_reducible repeat' first
    | exact h | apply Res.Kept.next | apply Res.Kept.ite | apply setBench_kept | apply giveSeed_kept | simp only [Kept.update_iff] | split

theorem quarantineLease_kept {s t : State} {k} (h : Kept s t) : Kept s (quarantineLease k t) := by
  unfold quarantineLease
  with_reducible repeat' first
    | exact h | apply Kept.ite | apply stopCommands_kept | apply clearRecords_kept | apply modLease_kept | apply sendQev_kept | apply dropHeld_kept
    | simp only [Kept.update_iff]

theorem execLeaseQuarantine_kept {s t : State} {k} (h : Kept s t) : Res.Kept s (execLeaseQuarantine k t) := .next (quarantineLease_kept h)

theorem searchLease_kept {s t : State} {n k} (h : Kept s t) : Kept s (searchLease n k t).2 := by
  unfold searchLease
  with_reducible repeat' first | exact h | simp only [Kept.update_iff] | split

theorem execReplacementSearch_kept {s t : State} {n} (h : Kept s t) : Res.Kept s (execReplacementSearch n t) := by
  unfold execReplacementSearch
  split
  · exact .next h
  · split
    · exact .next h
    · exact .next (Kept.update_iff.2 (Kept.foldl_snd (α := Nat) (β := List Move) (a := ([], t)) (fun a k ha => searchLease_kept ha) (t.heldBy n) h))

/-! ### Operands: The operand forms of the command catalogue -/

theorem refCheck_kept {s t : State} {k r spec pend} (h : Kept s t) : Kept s (refCheck k r spec pend t).2 := by
  unfold refCheck
  with_reducible repeat' first | exact h | apply countUse_kept | simp only | split

theorem r98_kept {s t : State} {c partB} (h : Kept s t) : Kept s (r98 c partB t).2.1 := by
  unfold r98
  with_reducible repeat' first | exact h | apply refCheck_kept | simp only | split

/-! ### Queues: Haul queues and the host link -/

theorem announce_kept {s t : State} {k q} (h : Kept s t) : Kept s (announce k q t) := by
  unfold announce
  with_reducible repeat' first | exact h | apply sendMsix_kept | apply modQueue_kept

theorem putCompletion_kept {s t : State} {k q f} (h : Kept s t) : Kept s (putCompletion k q f t) := by
  unfold putCompletion
  with_reducible repeat' first | exact h | apply Kept.ite | apply hostWrite_kept | apply setQueue_kept | apply announce_kept

theorem settleError_kept {s t : State} {k q} (h : Kept s t) : Kept s (settleError k q t) := by
  unfold settleError
  with_reducible repeat' first | exact h | apply Kept.ite | apply putCompletion_kept | apply modQueue_kept | apply forEach_kept | intro _

theorem complete_kept {s t : State} {h' c status need} (h : Kept s t) : Kept s (complete h' c status need t) := by
  unfold complete
  with_reducible repeat' first
    | exact h | apply Kept.ite | apply dropCmd_kept | apply hostWrite_kept | apply putCompletion_kept | apply setQueue_kept | apply settleError_kept
    | simp only | split

theorem execCompletionWrite_kept {s t : State} {h'} (h : Kept s t) : Res.Kept s (execCompletionWrite h' t) := by
  unfold execCompletionWrite
  with_reducible repeat' first | exact h | apply Res.Kept.next | apply Res.Kept.ite | apply complete_kept | split

theorem execIrqAgeExpiry_kept {s t : State} {k q} (h : Kept s t) : Res.Kept s (execIrqAgeExpiry k q t) := by
  unfold execIrqAgeExpiry
  with_reducible repeat' first | exact h | apply Res.Kept.next | apply Res.Kept.ite | apply announce_kept

theorem queueError_kept {s t : State} {k} (h : Kept s t) : Kept s (queueError k t) := raiseHost_kept h

theorem writeDoorbell_kept {s t : State} {k q v} (h : Kept s t) : Kept s (writeDoorbell k q v t) := by
  unfold writeDoorbell
  with_reducible repeat' first | exact h | apply Kept.ite | apply setQueue_kept | apply settleError_kept | apply queueError_kept

theorem execDoorbellWrite_kept {s t : State} {k q v} (h : Kept s t) : Res.Kept s (execDoorbellWrite k q v t) := by
  unfold execDoorbellWrite
  with_reducible repeat' first | exact h | apply Res.Kept.next | apply Res.Kept.ite | apply writeDoorbell_kept

theorem writeCqDoorbell_kept {s t : State} {k q v} (h : Kept s t) : Kept s (writeCqDoorbell k q v t) := by
  unfold writeCqDoorbell
  with_reducible repeat' first | exact h | apply Kept.ite | apply setQueue_kept | apply queueError_kept

theorem execCqDoorbellWrite_kept {s t : State} {k q v} (h : Kept s t) : Res.Kept s (execCqDoorbellWrite k q v t) := by
  unfold execCqDoorbellWrite
  with_reducible repeat' first | exact h | apply Res.Kept.next | apply Res.Kept.ite | apply writeCqDoorbell_kept

theorem passHead_kept {s t : State} {k q len} (h : Kept s t) : Kept s (passHead k q len t) := h.same rfl rfl rfl rfl

theorem takeBlocks_kept {s t : State} {h' c} (h : Kept s t) : Kept s (takeBlocks h' c t).1 := by
  unfold takeBlocks
  with_reducible repeat' first | exact h | apply passHead_kept | apply setCmd_kept | simp only | split

theorem refuseNow_kept {s t : State} {h' c} (h : Kept s t) : Kept s (refuseNow h' c t) := by
  unfold refuseNow
  with_reducible repeat' first | exact h | apply Kept.ite | apply endCmd_kept | apply raiseHost_kept | simp only | split

theorem stopFetch_kept {s t : State} {k q tag status} (h : Kept s t) : Kept s (stopFetch k q tag status t) := by
  unfold stopFetch
  with_reducible repeat' first | exact h | apply modQueue_kept | apply settleError_kept | apply raiseHost_kept | apply queueError_kept | split

theorem enterCmd_kept {s t : State} {c} (h : Kept s t) : Kept s (enterCmd c t).2 := by
  unfold enterCmd
  with_reducible repeat' first | exact h | apply setCmd_kept | apply setQueue_kept | simp only [Kept.update_iff]

theorem ringReads_kept {s t : State} {k x off len} (h : Kept s t) : Kept s (ringReads k x off len t) := by
  unfold ringReads
  with_reducible repeat' first | exact h | apply hostRead_kept

theorem inputReads_kept {s t : State} {c addr f} (h : Kept s t) : Kept s (inputReads c addr f t) := by
  unfold inputReads
  with_reducible repeat' first | exact h | apply Kept.ite | apply hostRead_kept | apply forEach_kept | intro _

theorem fetchEntry_kept {s t : State} {k q f} (h : Kept s t) : Kept s (fetchEntry k q f t) := by
  unfold fetchEntry
  with_reducible repeat' first
    | exact h | apply Kept.ite | apply ringReads_kept | apply stopFetch_kept | apply settleError_kept | apply setQueue_kept | apply enterCmd_kept
    | apply endCmd_kept | apply passHead_kept | apply inputReads_kept | apply takeBlocks_kept | apply refuseNow_kept | simp only [Kept.update_iff]
    | split

theorem execEntryFetch_kept {s t : State} {k q f} (h : Kept s t) : Res.Kept s (execEntryFetch k q f t) := by
  unfold execEntryFetch
  with_reducible repeat' first | exact h | apply Res.Kept.next | apply Res.Kept.ite | apply fetchEntry_kept

theorem execCommandStaged_kept {s t : State} {h'} (h : Kept s t) : Res.Kept s (execCommandStaged h' t) := by
  unfold execCommandStaged
  with_reducible repeat' first
    | exact h | apply Res.Kept.next | apply Res.Kept.ite | apply takeBlocks_kept | apply refuseNow_kept | apply endCmd_kept | apply setBench_kept
    | apply setCmd_kept | apply wakeReq_kept | simp only | split

theorem enableQueue_kept {s t : State} {k q} (h : Kept s t) : Kept s (enableQueue k q t) := by
  unfold enableQueue
  with_reducible repeat' first | exact h | apply Kept.ite | apply setQueue_kept

theorem execQueueEnable_kept {s t : State} {k q} (h : Kept s t) : Res.Kept s (execQueueEnable k q t) := by
  unfold execQueueEnable
  with_reducible repeat' first | exact h | apply Res.Kept.next | apply Res.Kept.ite | apply enableQueue_kept

theorem resetQueue_kept {s t : State} {k q} (h : Kept s t) : Kept s (resetQueue k q t) := by
  unfold resetQueue
  with_reducible repeat' first | exact h | apply Kept.ite | apply setQueue_kept | simp only [Kept.update_iff]

theorem execQueueReset_kept {s t : State} {k q} (h : Kept s t) : Res.Kept s (execQueueReset k q t) := by
  unfold execQueueReset
  with_reducible repeat' first | exact h | apply Res.Kept.next | apply Res.Kept.ite | apply resetQueue_kept

theorem execQueueResetDone_kept {s t : State} {k q} (h : Kept s t) : Res.Kept s (execQueueResetDone k q t) := by
  unfold execQueueResetDone
  with_reducible repeat' first | exact h | apply Res.Kept.next | apply Res.Kept.ite | apply setQueue_kept | simp only [Kept.update_iff]

theorem writeQcfg_kept {s t : State} {k q v} (h : Kept s t) : Kept s (writeQcfg k q v t) := by
  unfold writeQcfg
  with_reducible repeat' first | exact h | apply Kept.ite | apply setQueue_kept

theorem execHqQcfgWrite_kept {s t : State} {k q v} (h : Kept s t) : Res.Kept s (execHqQcfgWrite k q v t) := by
  unfold execHqQcfgWrite
  with_reducible repeat' first | exact h | apply Res.Kept.next | apply Res.Kept.ite | apply writeQcfg_kept

theorem barDecode_kept {s t : State} {fn write} (h : Kept s t) : Kept s (barDecode fn write t) := by
  unfold barDecode
  with_reducible repeat' first | exact h | apply raiseHost_kept | simp only [Kept.update_iff]

theorem execBarDecodeAccess_kept {s t : State} {fn off write} (h : Kept s t) : Res.Kept s (execBarDecodeAccess fn off write t) := by
  unfold execBarDecodeAccess
  with_reducible repeat' first | exact h | apply Res.Kept.next | apply Res.Kept.ite | apply barDecode_kept

theorem flrVf_kept {s t : State} {k} (h : Kept s t) : Kept s (flrVf k t) := by
  unfold flrVf
  with_reducible repeat' first | exact h | apply discardEp_kept | apply resetQueue_kept | apply forN_kept | intro _

theorem execVfFlr_kept {s t : State} {k} (h : Kept s t) : Res.Kept s (execVfFlr k t) := by
  unfold execVfFlr
  with_reducible repeat' first | exact h | apply Res.Kept.next | apply Res.Kept.ite | apply raiseHost_kept | apply flrVf_kept

theorem flrPf_kept {s t : State} (h : Kept s t) : Kept s (flrPf t) := by
  unfold flrPf
  with_reducible repeat' first | exact h | apply flrVf_kept | apply discardEp_kept | apply forN_kept | simp only [Kept.update_iff] | intro _

theorem execPfFlr_kept {s t : State} (h : Kept s t) : Res.Kept s (execPfFlr t) := by
  unfold execPfFlr
  with_reducible repeat' first | exact h | apply Res.Kept.next | apply Res.Kept.ite | apply raiseHost_kept | apply flrPf_kept

theorem execSriovNumvfsWrite_kept {s t : State} {n} (h : Kept s t) : Res.Kept s (execSriovNumvfsWrite n t) := by
  unfold execSriovNumvfsWrite
  with_reducible repeat' first
    | exact h | assumption | apply Res.Kept.next | apply Res.Kept.ite | apply flrVf_kept | apply forN_kept | simp only [Kept.update_iff] | split
    | intro _

theorem execPcieLinkChange_kept {s t : State} {up speed} (h : Kept s t) : Res.Kept s (execPcieLinkChange up speed t) := by
  unfold execPcieLinkChange
  with_reducible repeat' first
    | exact h | apply Res.Kept.next | apply Res.Kept.ite | apply Kept.ite | apply raiseHost_kept | simp only [Kept.update_iff]

theorem execPciePerst_kept {s t : State} (h : Kept s t) : Res.Kept s (execPciePerst t) := by
  unfold execPciePerst
  with_reducible repeat' first
    | exact h | apply Res.Kept.next | apply Res.Kept.ite | apply Kept.ite | apply flrPf_kept | apply raiseHost_kept | simp only [Kept.update_iff]

theorem execPoisonedTlpReceived_kept {s t : State} {i} (h : Kept s t) : Res.Kept s (execPoisonedTlpReceived i t) := by
  unfold execPoisonedTlpReceived
  with_reducible repeat' first | exact h | apply Res.Kept.next | apply Res.Kept.ite | apply raiseHost_kept

/-! ### Engines: What an engine does in a tick -/

theorem engineEvent_kept {s t : State} {q i k} (h : Kept s t) : Kept s (engineEvent q i k t) := raise_kept h

theorem faultCheck_kept {s t : State} {q} (h : Kept s t) : Kept s (faultCheck q t) := by
  unfold faultCheck
  with_reducible repeat' first | exact h | apply Kept.ite | apply engineEvent_kept | apply modEngine_kept

theorem settleParts_kept {s t : State} {h'} (h : Kept s t) : Kept s (settleParts h' t) := by
  unfold settleParts
  with_reducible repeat' first | exact h | apply endCmdAt_kept | split

theorem endPart_kept {s t : State} {h' b st out} (h : Kept s t) : Kept s (endPart h' b st out t) := by
  unfold endPart
  with_reducible repeat' first | exact h | apply settleParts_kept | apply setCmd_kept | simp only | split

theorem markFailed_kept {s t : State} {h' b} (h : Kept s t) : Kept s (markFailed h' b t) := by
  unfold markFailed
  with_reducible repeat' first | exact h | apply setCmd_kept | simp only | split

theorem drawn_kept {s t u : State} {c : Prop} [Decidable c] {e n : Nat} {a b : Bytes} (h : Kept s t)
    (k : (if c then some (a, t) else draw e n t) = some (b, u)) : Kept s u := by
  split at k
  · cases k
    exact h
  · exact draw_kept h _ _ k

theorem firstTick_kept {s t : State} {q h' b} (h : Kept s t) : Kept s (firstTick q h' b t) := by
  unfold firstTick
  split
  · exact h
  split
  · exact h
  extract_lets k
  split
  next e =>
  have checked := Kept.of_mid (r98_kept h) e
  extract_lets spec hasA key keyA main n
  split
  · exact endPart_kept (markFailed_kept ((engineEvent_kept checked).ite checked))
  split
  · exact endPart_kept (engineEvent_kept checked)
  have drawn := drawn_kept checked ‹_›
  extract_lets early tries total p c
  split
  · exact endPart_kept ((engineEvent_kept drawn).ite drawn)
  · exact reserve_kept (setCmd_kept drawn)

theorem useLines_kept {s t : State} {n l} (h : Kept s t) : Kept s (useLines n l t) := by
  unfold useLines
  with_reducible repeat' first | exact h | apply Kept.ite | apply modBench_kept

theorem hostTick_kept {s t : State} {q h' b} (h : Kept s t) : Kept s (hostTick q h' b t) := by
  unfold hostTick
  with_reducible repeat' first | exact h | apply Kept.ite | apply useLines_kept | apply setCmd_kept | simp only [Kept.update_iff] | split

theorem runFirsts_kept {s t : State} {lim} (h : Kept s t) : Kept s (runFirsts lim t) := by
  unfold runFirsts
  with_reducible repeat' first | exact h | apply firstTick_kept | simp only [Kept.update_iff] | apply Kept.foldl | intro _

theorem assignParts_kept {s t : State} (h : Kept s t) : Kept s (assignParts t) := by
  unfold assignParts
  with_reducible repeat' first | exact h | assumption | apply setCmd_kept | simp only | apply Kept.foldl | split | intro _

theorem jobTick_kept {s t : State} {q k} (h : Kept s t) : Kept s (jobTick q k t) := by
  unfold jobTick
  with_reducible repeat' first | exact h | apply useLines_kept | apply modJob_kept

theorem runQuantum_kept {s t : State} {q lender c} (h : Kept s t) : Kept s (runQuantum q lender c t) := by
  unfold runQuantum
  with_reducible repeat' first | exact h | apply modEngine_kept | apply hostTick_kept | apply jobTick_kept | simp only | split

theorem engineTick_kept {s t : State} {q} (h : Kept s t) : Kept s (engineTick q t) := by
  unfold engineTick
  with_reducible repeat' first | exact h | apply Kept.ite | apply runQuantum_kept | simp only [Kept.update_iff] | split

theorem islandTick_kept {s t : State} {q} (h : Kept s t) : Kept s (islandTick q t) := by
  unfold islandTick
  with_reducible repeat' first | exact h | apply Kept.ite | apply runQuantum_kept

theorem putOff_kept {s t : State} (h : Kept s t) : Kept s (putOff t) := h.same rfl rfl rfl rfl

theorem enginesTick_kept {s t : State} (h : Kept s t) : Kept s (enginesTick t) := by
  unfold enginesTick
  with_reducible repeat' first
    | exact h | apply Kept.ite | apply putOff_kept | apply engineTick_kept | apply assignParts_kept | apply islandTick_kept | apply forN_kept
    | apply forEach_kept | simp only [Kept.update_iff] | intro _

/-! ### Catalogue: The command catalogue -/

theorem finish_kept {s t : State} {op h' b bad f} (hf : ∀ v0 v1 u, Kept s u → Kept s (f v0 v1 u).2.2) (h : Kept s t) :
    Kept s (finish op h' b bad f t) := by
  unfold finish
  with_reducible repeat' first
    | exact h | apply Kept.ite | apply runFirsts_kept | apply endPart_kept | apply faultCheck_kept | apply hf | simp only | split

theorem finishFree_kept {s t : State} {op h' f} (hf : ∀ v0 u, Kept s u → Kept s (f v0 u).2) (h : Kept s t) : Kept s (finishFree op h' f t) := by
  unfold finishFree
  with_reducible repeat' first
    | exact h | apply Kept.ite | apply runFirsts_kept | apply r98_kept | apply endCmd_kept | apply hf | simp only | split

theorem newKey_kept {s t : State} {c p type len value pending yOdd} (h : Kept s t) :
    Kept s (newKey c p type len value pending yOdd t).2 := writeUnder_kept h

theorem compared_kept {s t : State} {q k bad good} (h : Kept s t) : Kept s (compared q k bad good t).2.2 := by
  unfold compared
  with_reducible repeat' first | exact h | apply engineEvent_kept | split

theorem fDigest_kept {s t : State} {c x1} (h : Kept s t) : Kept s (fDigest c x1 t).2.2 := by
  unfold fDigest
  with_reducible repeat' exact h

theorem fMacGen_kept {s t : State} {c p} (h : Kept s t) : Kept s (fMacGen c p t).2.2 := by
  unfold fMacGen
  with_reducible repeat' exact h

theorem fMacVerify_kept {s t : State} {c p} (h : Kept s t) : Kept s (fMacVerify c p t).2.2 := compared_kept h

theorem fCbcEnc_kept {s t : State} {c p} (h : Kept s t) : Kept s (fCbcEnc c p t).2.2 := by
  unfold fCbcEnc
  with_reducible repeat' exact h

theorem fCbcDec_kept {s t : State} {c p} (h : Kept s t) : Kept s (fCbcDec c p t).2.2 := by
  unfold fCbcDec
  with_reducible repeat' exact h

theorem fCtr_kept {s t : State} {c p} (h : Kept s t) : Kept s (fCtr c p t).2.2 := by
  unfold fCtr
  with_reducible repeat' exact h

theorem fGcmEnc_kept {s t : State} {c p} (h : Kept s t) : Kept s (fGcmEnc c p t).2.2 := by
  unfold fGcmEnc
  with_reducible repeat' exact h

theorem fGcmEncRiv_kept {s t : State} {c p} (h : Kept s t) : Kept s (fGcmEncRiv c p t).2.2 := by
  unfold fGcmEncRiv
  with_reducible repeat' exact h

theorem fGcmDec_kept {s t : State} {c p} (h : Kept s t) : Kept s (fGcmDec c p t).2.2 := by
  unfold fGcmDec
  with_reducible repeat' first | exact h | apply compared_kept | apply dropHeld_kept | simp only [Kept.update_iff] | split

theorem fCmacGen_kept {s t : State} {c p} (h : Kept s t) : Kept s (fCmacGen c p t).2.2 := by
  unfold fCmacGen
  with_reducible repeat' exact h

theorem fCmacVerify_kept {s t : State} {c p} (h : Kept s t) : Kept s (fCmacVerify c p t).2.2 := compared_kept h

theorem fRsaPriv_kept {s t : State} {c p} (h : Kept s t) : Kept s (fRsaPriv c p t).2.2 := by
  unfold fRsaPriv
  with_reducible repeat' first | exact h | apply faultCheck_kept | split

theorem fRsaPub_kept {s t : State} {c p} (h : Kept s t) : Kept s (fRsaPub c p t).2.2 := by
  unfold fRsaPub
  with_reducible repeat' exact h

theorem fEdSign_kept {s t : State} {c p} (h : Kept s t) : Kept s (fEdSign c p t).2.2 := by
  unfold fEdSign
  with_reducible repeat' exact h

theorem verdict_kept {s t : State} {good} (h : Kept s t) : Kept s (verdict good t).2.2 := by
  unfold verdict
  with_reducible repeat' exact h

theorem fEdVerify_kept {s t : State} {c p} (h : Kept s t) : Kept s (fEdVerify c p t).2.2 := verdict_kept h

theorem fEcdsaSign_kept {s t : State} {c p} (h : Kept s t) : Kept s (fEcdsaSign c p t).2.2 := by
  unfold fEcdsaSign
  with_reducible repeat' first | exact h | apply faultCheck_kept | simp only | split

theorem fEcdsaVerify_kept {s t : State} {c p} (h : Kept s t) : Kept s (fEcdsaVerify c p t).2.2 := verdict_kept h

theorem fAgree_kept {s t : State} {c p} (h : Kept s t) : Kept s (fAgree c p t).2.2 := by
  unfold fAgree
  with_reducible repeat' first | exact h | apply newKey_kept | simp only | split

theorem fKeygenEc_kept {s t : State} {c p} (h : Kept s t) : Kept s (fKeygenEc c p t).2.2 := newKey_kept h

theorem fMldsaKeygen_kept {s t : State} {c p} (h : Kept s t) : Kept s (fMldsaKeygen c p t).2.2 := newKey_kept h

theorem signOutcome_kept {s t : State} {q k bad xi ctx msg rnd} (h : Kept s t) : Kept s (signOutcome q k bad xi ctx msg rnd t).2.2 := by
  unfold signOutcome
  with_reducible repeat' first | exact h | apply modEngine_kept | apply engineEvent_kept | apply faultCheck_kept | simp only | split

theorem fMldsaSign_kept {s t : State} {bad c p} (h : Kept s t) : Kept s (fMldsaSign bad c p t).2.2 := signOutcome_kept h

theorem fMldsaVerify_kept {s t : State} {c p} (h : Kept s t) : Kept s (fMldsaVerify c p t).2.2 := verdict_kept h

theorem fMlkemKeygen_kept {s t : State} {c p} (h : Kept s t) : Kept s (fMlkemKeygen c p t).2.2 := newKey_kept h

theorem fMlkemEncaps_kept {s t : State} {c p} (h : Kept s t) : Kept s (fMlkemEncaps c p t).2.2 := by
  unfold fMlkemEncaps
  with_reducible repeat' first | exact h | apply newKey_kept | simp only | split

theorem fMlkemDecaps_kept {s t : State} {c p} (h : Kept s t) : Kept s (fMlkemDecaps c p t).2.2 := newKey_kept h

theorem fHybSignA_kept {s t : State} {c p} (h : Kept s t) : Kept s (fHybSignA c p t).2.2 := by
  unfold fHybSignA
  with_reducible repeat' exact h

theorem fHybVerifyA_kept {s t : State} {c p} (h : Kept s t) : Kept s (fHybVerifyA c p t).2.2 := verdict_kept h

theorem fHybVerifyB_kept {s t : State} {c p} (h : Kept s t) : Kept s (fHybVerifyB c p t).2.2 := verdict_kept h

theorem fKeyGen_kept {s t : State} {c p} (h : Kept s t) : Kept s (fKeyGen c p t).2.2 := newKey_kept h

theorem fKeyWrap_kept {s t : State} {c p} (h : Kept s t) : Kept s (fKeyWrap c p t).2.2 := by
  unfold fKeyWrap
  with_reducible repeat' exact h

theorem markUnwrap_kept {s t : State} {i} (h : Kept s t) : Kept s (markUnwrap i t) := h.same rfl rfl rfl rfl

theorem fKeyUnwrap_kept {s t : State} {c p} (h : Kept s t) : Kept s (fKeyUnwrap c p t).2.2 := by
  unfold fKeyUnwrap
  with_reducible repeat' first | exact h | apply Kept.ite | apply newKey_kept | apply markUnwrap_kept | simp only | split

theorem fKeyDerive_kept {s t : State} {c p} (h : Kept s t) : Kept s (fKeyDerive c p t).2.2 := newKey_kept h

theorem fKeyPub_kept {s t : State} {x0 p} (h : Kept s t) : Kept s (fKeyPub x0 p t).2.2 := by
  unfold fKeyPub
  with_reducible repeat' exact h

theorem fRngGet_kept {s t : State} {x0 p} (h : Kept s t) : Kept s (fRngGet x0 p t).2.2 := by
  unfold fRngGet
  with_reducible repeat' exact h

theorem execNop_kept {s t : State} {h'} (h : Kept s t) : Res.Kept s (execNop h' t) := by
  unfold execNop
  with_reducible repeat' first | exact h | assumption | apply Res.Kept.next | apply finishFree_kept | simp only | intro _

theorem execDigest_kept {s t : State} {h'} (h : Kept s t) : Res.Kept s (execDigest h' t) := by
  unfold execDigest
  with_reducible repeat' first | exact h | apply Res.Kept.next | apply finish_kept | apply fDigest_kept | intro _

theorem execMacGen_kept {s t : State} {h'} (h : Kept s t) : Res.Kept s (execMacGen h' t) := by
  unfold execMacGen
  with_reducible repeat' first | exact h | apply Res.Kept.next | apply finish_kept | apply fMacGen_kept | intro _

theorem execMacVerify_kept {s t : State} {h'} (h : Kept s t) : Res.Kept s (execMacVerify h' t) := by
  unfold execMacVerify
  with_reducible repeat' first | exact h | apply Res.Kept.next | apply finish_kept | apply fMacVerify_kept | intro _

theorem execCbcEnc_kept {s t : State} {h'} (h : Kept s t) : Res.Kept s (execCbcEnc h' t) := by
  unfold execCbcEnc
  with_reducible repeat' first | exact h | apply Res.Kept.next | apply finish_kept | apply fCbcEnc_kept | intro _

theorem execCbcDec_kept {s t : State} {h'} (h : Kept s t) : Res.Kept s (execCbcDec h' t) := by
  unfold execCbcDec
  with_reducible repeat' first | exact h | apply Res.Kept.next | apply finish_kept | apply fCbcDec_kept | intro _

theorem execCtr_kept {s t : State} {h'} (h : Kept s t) : Res.Kept s (execCtr h' t) := by
  unfold execCtr
  with_reducible repeat' first | exact h | apply Res.Kept.next | apply finish_kept | apply fCtr_kept | intro _

theorem execGcmEnc_kept {s t : State} {h'} (h : Kept s t) : Res.Kept s (execGcmEnc h' t) := by
  unfold execGcmEnc
  with_reducible repeat' first | exact h | apply Res.Kept.next | apply finish_kept | apply fGcmEnc_kept | intro _

theorem execGcmEncRiv_kept {s t : State} {h'} (h : Kept s t) : Res.Kept s (execGcmEncRiv h' t) := by
  unfold execGcmEncRiv
  with_reducible repeat' first | exact h | apply Res.Kept.next | apply finish_kept | apply fGcmEncRiv_kept | intro _

theorem execGcmDec_kept {s t : State} {h'} (h : Kept s t) : Res.Kept s (execGcmDec h' t) := by
  unfold execGcmDec
  with_reducible repeat' first | exact h | apply Res.Kept.next | apply finish_kept | apply fGcmDec_kept | intro _

theorem execCmacGen_kept {s t : State} {h'} (h : Kept s t) : Res.Kept s (execCmacGen h' t) := by
  unfold execCmacGen
  with_reducible repeat' first | exact h | apply Res.Kept.next | apply finish_kept | apply fCmacGen_kept | intro _

theorem execCmacVerify_kept {s t : State} {h'} (h : Kept s t) : Res.Kept s (execCmacVerify h' t) := by
  unfold execCmacVerify
  with_reducible repeat' first | exact h | apply Res.Kept.next | apply finish_kept | apply fCmacVerify_kept | intro _

theorem execRsaPriv_kept {s t : State} {h' bad} (h : Kept s t) : Res.Kept s (execRsaPriv h' bad t) := by
  unfold execRsaPriv
  with_reducible repeat' first | exact h | apply Res.Kept.next | apply finish_kept | apply fRsaPriv_kept | intro _

theorem execRsaPub_kept {s t : State} {h'} (h : Kept s t) : Res.Kept s (execRsaPub h' t) := by
  unfold execRsaPub
  with_reducible repeat' first | exact h | apply Res.Kept.next | apply finish_kept | apply fRsaPub_kept | intro _

theorem execEdSign_kept {s t : State} {h' bad} (h : Kept s t) : Res.Kept s (execEdSign h' bad t) := by
  unfold execEdSign
  with_reducible repeat' first | exact h | apply Res.Kept.next | apply finish_kept | apply fEdSign_kept | intro _

theorem execEdVerify_kept {s t : State} {h'} (h : Kept s t) : Res.Kept s (execEdVerify h' t) := by
  unfold execEdVerify
  with_reducible repeat' first | exact h | apply Res.Kept.next | apply finish_kept | apply fEdVerify_kept | intro _

theorem execEcdsaSign_kept {s t : State} {h' bad} (h : Kept s t) : Res.Kept s (execEcdsaSign h' bad t) := by
  unfold execEcdsaSign
  with_reducible repeat' first | exact h | apply Res.Kept.next | apply finish_kept | apply fEcdsaSign_kept | intro _

theorem execEcdsaVerify_kept {s t : State} {h'} (h : Kept s t) : Res.Kept s (execEcdsaVerify h' t) := by
  unfold execEcdsaVerify
  with_reducible repeat' first | exact h | apply Res.Kept.next | apply finish_kept | apply fEcdsaVerify_kept | intro _

theorem execX25519_kept {s t : State} {h' bad} (h : Kept s t) : Res.Kept s (execX25519 h' bad t) := by
  unfold execX25519
  with_reducible repeat' first | exact h | apply Res.Kept.next | apply finish_kept | apply fAgree_kept | intro _

theorem execEcdh_kept {s t : State} {h' bad} (h : Kept s t) : Res.Kept s (execEcdh h' bad t) := by
  unfold execEcdh
  with_reducible repeat' first | exact h | apply Res.Kept.next | apply finish_kept | apply fAgree_kept | intro _

theorem execKeygenEc_kept {s t : State} {h' bad} (h : Kept s t) : Res.Kept s (execKeygenEc h' bad t) := by
  unfold execKeygenEc
  with_reducible repeat' first | exact h | apply Res.Kept.next | apply finish_kept | apply fKeygenEc_kept | intro _

theorem execMldsaKeygen_kept {s t : State} {h'} (h : Kept s t) : Res.Kept s (execMldsaKeygen h' t) := by
  unfold execMldsaKeygen
  with_reducible repeat' first | exact h | apply Res.Kept.next | apply finish_kept | apply fMldsaKeygen_kept | intro _

theorem execMldsaSign_kept {s t : State} {h' bad} (h : Kept s t) : Res.Kept s (execMldsaSign h' bad t) := by
  unfold execMldsaSign
  with_reducible repeat' first | exact h | apply Res.Kept.next | apply finish_kept | apply fMldsaSign_kept | intro _

theorem execMldsaVerify_kept {s t : State} {h'} (h : Kept s t) : Res.Kept s (execMldsaVerify h' t) := by
  unfold execMldsaVerify
  with_reducible repeat' first | exact h | apply Res.Kept.next | apply finish_kept | apply fMldsaVerify_kept | intro _

theorem execMlkemKeygen_kept {s t : State} {h'} (h : Kept s t) : Res.Kept s (execMlkemKeygen h' t) := by
  unfold execMlkemKeygen
  with_reducible repeat' first | exact h | apply Res.Kept.next | apply finish_kept | apply fMlkemKeygen_kept | intro _

theorem execMlkemEncaps_kept {s t : State} {h'} (h : Kept s t) : Res.Kept s (execMlkemEncaps h' t) := by
  unfold execMlkemEncaps
  with_reducible repeat' first | exact h | apply Res.Kept.next | apply finish_kept | apply fMlkemEncaps_kept | intro _

theorem execMlkemDecaps_kept {s t : State} {h'} (h : Kept s t) : Res.Kept s (execMlkemDecaps h' t) := by
  unfold execMlkemDecaps
  with_reducible repeat' first | exact h | apply Res.Kept.next | apply finish_kept | apply fMlkemDecaps_kept | intro _

theorem execHybSign_kept {s t : State} {h' inv vbr} (h : Kept s t) : Res.Kept s (execHybSign h' inv vbr t) := by
  unfold execHybSign
  with_reducible repeat' first | exact h | apply Res.Kept.next | apply finish_kept | apply fMldsaSign_kept | apply fHybSignA_kept | intro _

theorem execHybVerify_kept {s t : State} {h'} (h : Kept s t) : Res.Kept s (execHybVerify h' t) := by
  unfold execHybVerify
  with_reducible repeat' first | exact h | apply Res.Kept.next | apply finish_kept | apply fHybVerifyB_kept | apply fHybVerifyA_kept | intro _

theorem execKeyGen_kept {s t : State} {h'} (h : Kept s t) : Res.Kept s (execKeyGen h' t) := by
  unfold execKeyGen
  with_reducible repeat' first | exact h | apply Res.Kept.next | apply finish_kept | apply fKeyGen_kept | intro _

theorem execKeyWrap_kept {s t : State} {h'} (h : Kept s t) : Res.Kept s (execKeyWrap h' t) := by
  unfold execKeyWrap
  with_reducible repeat' first | exact h | apply Res.Kept.next | apply finish_kept | apply fKeyWrap_kept | intro _

theorem execKeyUnwrap_kept {s t : State} {h'} (h : Kept s t) : Res.Kept s (execKeyUnwrap h' t) := by
  unfold execKeyUnwrap
  with_reducible repeat' first | exact h | apply Res.Kept.next | apply finish_kept | apply fKeyUnwrap_kept | intro _

theorem execKeyDerive_kept {s t : State} {h'} (h : Kept s t) : Res.Kept s (execKeyDerive h' t) := by
  unfold execKeyDerive
  with_reducible repeat' first | exact h | apply Res.Kept.next | apply finish_kept | apply fKeyDerive_kept | intro _

theorem execKeyPub_kept {s t : State} {h' bad} (h : Kept s t) : Res.Kept s (execKeyPub h' bad t) := by
  unfold execKeyPub
  with_reducible repeat' first
    | exact h | assumption | apply Res.Kept.next | apply finishFree_kept | apply finish_kept | apply fKeyPub_kept | simp only
    | intro _

theorem execKeyInval_kept {s t : State} {h'} (h : Kept s t) : Res.Kept s (execKeyInval h' t) := by
  unfold execKeyInval
  with_reducible repeat' first | exact h | apply Res.Kept.next | apply finishFree_kept | apply invalidate_kept | simp only | intro _

theorem execKeyInfo_kept {s t : State} {h'} (h : Kept s t) : Res.Kept s (execKeyInfo h' t) := by
  unfold execKeyInfo
  with_reducible repeat' first | exact h | assumption | apply Res.Kept.next | apply finishFree_kept | simp only | intro _

theorem execRngGet_kept {s t : State} {h'} (h : Kept s t) : Res.Kept s (execRngGet h' t) := by
  unfold execRngGet
  with_reducible repeat' first | exact h | apply Res.Kept.next | apply finish_kept | apply fRngGet_kept | intro _

theorem execPrgCall_kept {s t : State} {h'} (h : Kept s t) : Res.Kept s (execPrgCall h' t) := by
  unfold execPrgCall
  with_reducible repeat' first
    | exact h | apply Res.Kept.next | apply Res.Kept.ite | apply r98_kept | apply endCmd_kept | apply setCmd_kept | simp only
    | split

/-! ### Signing: Signatures of the island's engines, each verified before release -/

theorem islandCutter_kept {s t : State} {good sig} (h : Kept s t) : Kept s (islandCutter good sig t).2 := by
  unfold islandCutter
  with_reducible repeat' first | exact h | apply faultCheck_kept | split

theorem islandEd_kept {s t : State} {seed msg} (h : Kept s t) : Kept s (islandEd seed msg t).2 := islandCutter_kept h

theorem islandMl_kept {s t : State} {xi msg rnd} (h : Kept s t) : Kept s (islandMl xi msg rnd t).2 := by
  unfold islandMl
  split
  · exact Kept.of_last (signOutcome_kept h) ‹_›
  · exact Kept.of_last (signOutcome_kept h) ‹_›

theorem dualWith_kept {s t : State} {seed msg rnd} (h : Kept s t) : Kept s (dualWith seed msg rnd t).2 := by
  unfold dualWith
  with_reducible repeat' first | exact h | apply islandEd_kept | apply islandMl_kept

theorem beginSign_kept {s t : State} {seed body} (h : Kept s t) : Kept s (beginSign seed body t).2 := drawIsland_kept h

theorem signStep_kept {s t : State} {seed j} (h : Kept s t) : Kept s (signStep seed j t).2.2 := by
  unfold signStep
  with_reducible repeat' first | exact h | apply dualWith_kept | simp only | split

theorem setConn_kept {s t : State} {c x} (h : Kept s t) : Kept s (t.setConn c x) := h.same rfl rfl rfl rfl

theorem spdmSend_kept {s t : State} {ver code p1 p2 b} (h : Kept s t) : Kept s (spdmSend ver code p1 p2 b t) := h.same rfl rfl rfl rfl

theorem spdmError_kept {s t : State} {c code} (h : Kept s t) : Kept s (spdmError c code t) := h.same rfl rfl rfl rfl

theorem keepHalf_kept {s t : State} {c sess half} (h : Kept s t) : Kept s (keepHalf c sess half t) := by
  unfold keepHalf
  with_reducible repeat' first | exact h | apply setConn_kept | simp only [Kept.update_iff] | split

theorem releaseSigned_kept {s t : State} {m} (h : Kept s t) : Kept s (releaseSigned m t) := by
  unfold releaseSigned
  with_reducible repeat' first
    | exact h | apply islandCutter_kept | apply islandMl_kept | apply keepHalf_kept | apply spdmSend_kept | apply spdmError_kept
    | simp only [Kept.update_iff] | split

theorem signingTick_kept {s t : State} (h : Kept s t) : Kept s (signingTick t) := by
  unfold signingTick
  with_reducible repeat' first | exact h | apply Kept.ite | apply releaseSigned_kept | simp only [Kept.update_iff] | split

/-! ### Tag: The tag -/

theorem modTag_kept {s t : State} {f} (h : Kept s t) : Kept s (t.modTag f) := h.same rfl rfl rfl rfl

theorem startCommit_kept {s t : State} {area data why} (h : Kept s t) : Kept s (startCommit area data why t) := by
  unfold startCommit
  with_reducible repeat' first | exact h | apply Kept.ite | apply raiseTag_kept | apply modTag_kept

theorem tryPending_kept {s t : State} (h : Kept s t) : Kept s (tryPending t) := by
  unfold tryPending
  with_reducible repeat' first
    | exact h | apply Kept.ite | apply startCommit_kept | apply modTag_kept | apply raiseGate_kept | apply raiseTamper_kept
    | simp only | split

theorem commitSummary_kept {s t : State} {d} (h : Kept s t) : Kept s (commitSummary d t) := by
  unfold commitSummary
  with_reducible repeat' first | exact h | apply tryPending_kept | apply modTag_kept

theorem commitService_kept {s t : State} {d} (h : Kept s t) : Kept s (commitService d t) := by
  unfold commitService
  with_reducible repeat' first | exact h | apply tryPending_kept | apply modTag_kept

theorem buildService_kept {s t : State} (h : Kept s t) : Kept s (buildService t) := by
  unfold buildService
  with_reducible repeat' first | exact h | apply Kept.ite | apply commitService_kept

theorem tagAnswer_kept {s t : State} {data sw} (h : Kept s t) : Kept s (tagAnswer data sw t) := h.same rfl rfl rfl rfl

theorem execTagFieldOn_kept {s t : State} (h : Kept s t) : Res.Kept s (execTagFieldOn t) := by
  unfold execTagFieldOn
  with_reducible repeat' first | exact h | apply Res.Kept.next | apply Res.Kept.ite | apply raiseTag_kept | apply modTag_kept

theorem execTagFieldOff_kept {s t : State} (h : Kept s t) : Res.Kept s (execTagFieldOff t) := .next (h.same rfl rfl rfl rfl)

theorem execTagWake_kept {s t : State} {wupa rows} (h : Kept s t) : Res.Kept s (execTagWake wupa rows t) := by
  unfold execTagWake
  with_reducible repeat' first
    | exact h | apply Res.Kept.next | apply Res.Kept.ite | apply modTag_kept | apply raiseTag_kept | simp only [Kept.update_iff] | split

theorem execTagSelection_kept {s t : State} (h : Kept s t) : Res.Kept s (execTagSelection t) := by
  unfold execTagSelection
  with_reducible repeat' first | exact h | apply Res.Kept.next | apply Res.Kept.ite | apply modTag_kept | simp only [Kept.update_iff]

theorem execTagHalt_kept {s t : State} (h : Kept s t) : Res.Kept s (execTagHalt t) := by
  unfold execTagHalt
  with_reducible repeat' first | exact h | apply Res.Kept.next | apply Res.Kept.ite | apply modTag_kept

theorem execTagSelect_kept {s t : State} (h : Kept s t) : Res.Kept s (execTagSelect t) := by
  unfold execTagSelect
  with_reducible repeat' first | exact h | apply Res.Kept.next | apply Res.Kept.ite | apply tagAnswer_kept | apply modTag_kept

theorem tagApdu_kept {s t : State} {f} (hf : ∀ u, Kept s u → Kept s (f u)) (h : Kept s t) : Res.Kept s (tagApdu f t) := by
  unfold tagApdu
  with_reducible repeat' first | exact h | apply Res.Kept.next | apply Res.Kept.ite | apply hf

theorem execTagRead_kept {s t : State} {area off le} (h : Kept s t) : Res.Kept s (execTagRead area off le t) := by
  unfold execTagRead
  with_reducible repeat' first | exact h | apply tagApdu_kept | apply tagAnswer_kept | simp only | split | intro _

theorem execTagVerify_kept {s t : State} {p2 attempt} (h : Kept s t) : Res.Kept s (execTagVerify p2 attempt t) := by
  unfold execTagVerify
  with_reducible repeat' first
    | exact h | assumption | apply tagApdu_kept | apply tagAnswer_kept | apply raiseTag_kept | apply modTag_kept | simp only
    | split | intro _

theorem execNoteWrite_kept {s t : State} {off data} (h : Kept s t) : Res.Kept s (execNoteWrite off data t) := by
  unfold execNoteWrite
  with_reducible repeat' first
    | exact h | assumption | apply tagApdu_kept | apply tagAnswer_kept | apply modTag_kept | simp only | split | intro _

theorem execNoteCommit_kept {s t : State} {len} (h : Kept s t) : Res.Kept s (execNoteCommit len t) := by
  unfold execNoteCommit
  with_reducible repeat' first
    | exact h | assumption | apply tagApdu_kept | apply tagAnswer_kept | apply raiseTag_kept | apply modTag_kept | split | intro _

theorem tagCommitGo_kept {s t : State} {area len} (h : Kept s t) : Kept s (tagCommitGo area len t) := by
  unfold tagCommitGo
  with_reducible repeat' first | exact h | apply Kept.ite | apply startCommit_kept

theorem execTagWcmtGo_kept {s t : State} {area len} (h : Kept s t) : Res.Kept s (execTagWcmtGo area len t) := by
  unfold execTagWcmtGo
  with_reducible repeat' first | exact h | apply Res.Kept.next | apply Res.Kept.ite | apply tagCommitGo_kept

theorem execTagCommitDone_kept {s t : State} (h : Kept s t) : Res.Kept s (execTagCommitDone t) := by
  unfold execTagCommitDone
  with_reducible repeat' first | exact h | apply Res.Kept.next | apply tryPending_kept | apply modTag_kept | simp only | split

theorem execTagCommitRetry_kept {s t : State} (h : Kept s t) : Res.Kept s (execTagCommitRetry t) := by
  unfold execTagCommitRetry
  with_reducible repeat' first | exact h | apply Res.Kept.next | apply Res.Kept.ite | apply tryPending_kept

theorem execTagPasswordWrite_kept {s t : State} {r value} (h : Kept s t) : Res.Kept s (execTagPasswordWrite r value t) := by
  unfold execTagPasswordWrite
  with_reducible repeat' first
    | exact h | assumption | apply Res.Kept.next | apply Res.Kept.ite | apply writeEntry_kept | apply startCommit_kept | simp only
    | split | intro _

theorem execAttemptsReset_kept {s t : State} {r value} (h : Kept s t) : Res.Kept s (execAttemptsReset r value t) := by
  unfold execAttemptsReset
  with_reducible repeat' first
    | exact h | assumption | apply Res.Kept.next | apply Res.Kept.ite | apply writeEntry_kept | apply startCommit_kept | simp only
    | split | intro _

/-! ### Tick: The parts of a tick boundary -/

theorem clearRecord_kept {s t : State} {q k} (h : Kept s t) : Kept s (clearRecord q k t) := h.same rfl rfl rfl rfl

theorem withdraw_kept {s t : State} {p} (h : Kept s t) : Kept s (withdraw p t) := h.same rfl rfl rfl rfl

theorem spoil_kept {s t : State} {st q h'} (h : Kept s t) : Kept s (spoil st q h' t) := by
  unfold spoil
  with_reducible repeat' first
    | exact h | apply Kept.ite | apply endPart_kept | apply withdraw_kept | apply setCmd_kept | simp only | split

theorem spoilJob_kept {s t : State} {st q k} (h : Kept s t) : Kept s (spoilJob st q k t) := by
  unfold spoilJob
  with_reducible repeat' first
    | exact h | apply Kept.ite | apply withdraw_kept | apply endJob_kept | apply setJob_kept | apply modJob_kept | apply ramWrite_kept
    | apply Kept.foldl | intro _

theorem eraseLease_kept {s t : State} {q k} (h : Kept s t) : Kept s (eraseLease q k t) := by
  unfold eraseLease
  with_reducible repeat' first | exact h | assumption | apply eraseWedge_kept | apply stopCommands_kept | apply forN_kept | split | intro _

theorem settleErased_kept {s t : State} {q} (h : Kept s t) : Kept s (settleErased q t) := by
  unfold settleErased
  with_reducible repeat' first
    | exact h | apply Kept.ite | apply dropHeld_kept | apply spoil_kept | apply modEngine_kept | simp only | split

theorem eccFatal_kept {s t : State} {q store} (h : Kept s t) : Kept s (eccFatal q store t) := by
  unfold eccFatal
  with_reducible repeat' first
    | exact h | apply Kept.ite | apply dropHeld_kept | apply eraseLease_kept | apply faultCheck_kept | apply engineEvent_kept | apply spoil_kept
    | apply spoilJob_kept | apply clearRecord_kept | apply setCtx_kept | simp only | split

theorem eccOne_kept {s t : State} {x} (h : Kept s t) : Kept s (eccOne x t) := by
  unfold eccOne
  with_reducible repeat' first
    | exact h | apply modEngine_kept | apply engineEvent_kept | apply eccFatal_kept | apply raiseIsland_kept | simp only | split

theorem closeJobs_kept {s t : State} (h : Kept s t) : Kept s (closeJobs t) := by
  unfold closeJobs
  with_reducible repeat' first | exact h | apply closeJob_kept | apply Kept.foldl | intro _

theorem commitYard_kept {s t : State} (h : Kept s t) : Kept s (commitYard t) := by
  unfold commitYard
  with_reducible repeat' first | exact h | assumption | apply dropLines_kept | simp only [Kept.update_iff] | apply Kept.foldl | intro _

theorem commitSeverities_kept {s t : State} (h : Kept s t) : Kept s (commitSeverities t) := h.same rfl rfl rfl rfl

theorem closeRecord_kept {s t : State} (h : Kept s t) : Kept s (closeRecord t) := by
  unfold closeRecord
  with_reducible repeat' first | exact h | apply Kept.ite | apply buildService_kept | simp only [Kept.update_iff] | split

theorem refill_kept {s t : State} {e} (h : Kept s t) : Kept s (refill e t) := by
  unfold refill
  with_reducible repeat' first | exact h | apply Kept.ite | apply setExp_kept

theorem testSources_kept {s t : State} (h : Kept s t) : Kept s (testSources t) := by
  unfold testSources
  with_reducible repeat' first | exact h | apply Kept.ite | simp only [Kept.update_iff]

theorem failChain_kept {s t : State} (h : Kept s t) : Kept s (failChain t) := h.same rfl rfl rfl rfl

theorem startTest_kept {s t : State} {r} (h : Kept s t) : Kept s (startTest r t) := h.same rfl rfl rfl rfl

theorem readyExp_kept {s t : State} {e} (h : Kept s t) : Kept s (readyExp e t) := by
  unfold readyExp
  with_reducible repeat' first | exact h | apply Kept.ite | apply setExp_kept

theorem rngTick_kept {s t : State} (h : Kept s t) : Kept s (rngTick t) := by
  unfold rngTick
  with_reducible repeat' first
    | exact h | assumption | apply Kept.ite | apply failChain_kept | apply startTest_kept | apply readyExp_kept | apply refill_kept
    | apply forEach_kept | simp only [Kept.update_iff] | intro _

theorem passTime_kept {s t : State} {units} (h : Kept s t) : Kept s (passTime units t) := h.same rfl rfl rfl rfl

theorem closeFrame_kept {s t : State} {n} (h : Kept s t) : Kept s (closeFrame n t) := by
  unfold closeFrame
  with_reducible repeat' first | exact h | apply Kept.ite | apply gateOff_kept | apply modBench_kept

theorem markBusy_kept {s t : State} {n} (h : Kept s t) : Kept s (markBusy n t) := by
  unfold markBusy
  with_reducible repeat' first | exact h | apply Kept.ite | apply modBench_kept

theorem callTick_kept {s t : State} {x} (h : Kept s t) : Kept s (callTick x t) := by
  unfold callTick
  with_reducible repeat' first | exact h | apply Kept.ite | apply setCmd_kept | simp only | split

theorem frameStart_kept {s t : State} (h : Kept s t) : Kept s (frameStart t) := by
  unfold frameStart
  with_reducible repeat' first
    | exact h | apply startCores_kept | apply closeFrame_kept | apply refreshQueues_kept | apply modCore_kept | apply forN_kept | apply forEach_kept
    | simp only [Kept.update_iff] | intro _

theorem openReleased_kept {s t : State} (h : Kept s t) : Kept s (openReleased t) := by
  unfold openReleased
  with_reducible repeat' first
    | exact h | assumption | apply settleError_kept | apply modLease_kept | apply forN_kept | apply forEach_kept | simp only [Kept.update_iff]
    | intro _

theorem pauseScope_kept {s t : State} {scope} (h : Kept s t) : Kept s (pauseScope scope t) := by
  unfold pauseScope
  with_reducible repeat' first
    | exact h | assumption | apply stopCommands_kept | apply stopJob_kept | apply dropHeld_kept | apply modLease_kept | apply forN_kept
    | simp only [Kept.update_iff] | apply Kept.foldl | split | intro _

theorem pauseDue_kept {s t : State} (h : Kept s t) : Kept s (pauseDue t) := by
  unfold pauseDue
  with_reducible repeat' first | exact h | apply pauseScope_kept | simp only [Kept.update_iff] | split

/-! ### Gate: The flash gate and the boot ledger -/

theorem modFlg_kept {s t : State} {f} (h : Kept s t) : Kept s (t.modFlg f) := h.same rfl rfl rfl rfl

theorem modLdg_kept {s t : State} {f} (h : Kept s t) : Kept s (t.modLdg f) := h.same rfl rfl rfl rfl

theorem setPass_kept {s t : State} {p} (h : Kept s t) : Kept s (t.setPass p) := h.same rfl rfl rfl rfl

theorem endPass_kept {s t : State} {p st} (h : Kept s t) : Kept s (endPass p st t) := h.same rfl rfl rfl rfl

theorem holdHost_kept {s t : State} {p} (h : Kept s t) : Kept s (holdHost p t) := by
  unfold holdHost
  with_reducible repeat' first | exact h | apply raiseGate_kept | apply endPass_kept

theorem beginRelease_kept {s t : State} (h : Kept s t) : Kept s (beginRelease t) := h.same rfl rfl rfl rfl

theorem settle_kept {s t : State} {v reason p} (h : Kept s t) : Kept s (settle v reason p t) := by
  unfold settle
  with_reducible repeat' first | exact h | apply Kept.ite | apply modFlg_kept | apply setPass_kept | apply holdHost_kept | apply beginRelease_kept

theorem gateVerdict_kept {s t : State} {p} (h : Kept s t) : Kept s (gateVerdict p t) := by
  unfold gateVerdict
  with_reducible repeat' first
    | exact h | apply Kept.ite | apply settle_kept | apply setPass_kept | apply modFlg_kept | apply raiseGate_kept | simp only [Kept.update_iff]
    | split

theorem holdPlatform_kept {s t : State} (h : Kept s t) : Kept s (holdPlatform t) := h.same rfl rfl rfl rfl

theorem holdOnly_kept {s t : State} {st} (h : Kept s t) : Kept s (holdOnly st t) := h.same rfl rfl rfl rfl

theorem toDiscover_kept {s t : State} {t' p} (h : Kept s t) : Kept s (toDiscover t' p t) := h.same rfl rfl rfl rfl

theorem afterHold_kept {s t : State} {t' p} (h : Kept s t) : Kept s (afterHold t' p t) := by
  unfold afterHold
  with_reducible repeat' first | exact h | apply Kept.ite | apply toDiscover_kept | apply setPass_kept

theorem startPass_kept {s t : State} {reboot forced} (h : Kept s t) : Kept s (startPass reboot forced t) := by
  unfold startPass
  with_reducible repeat' first
    | exact h | apply Kept.ite | apply modLdg_kept | apply modFlg_kept | apply holdPlatform_kept | apply setPass_kept | apply afterHold_kept

theorem requestPass_kept {s t : State} {reboot} (h : Kept s t) : Kept s (requestPass reboot t) := by
  unfold requestPass
  with_reducible repeat' first | exact h | apply Kept.ite | apply modFlg_kept | apply holdOnly_kept | apply startPass_kept

theorem duePass_kept {s t : State} (h : Kept s t) : Kept s (duePass t) := by
  unfold duePass
  with_reducible repeat' first | exact h | apply requestPass_kept | split

theorem execHostRebootRequest_kept {s t : State} (h : Kept s t) : Res.Kept s (execHostRebootRequest t) := by
  unfold execHostRebootRequest
  with_reducible repeat' first | exact h | apply Res.Kept.next | apply Res.Kept.ite | apply requestPass_kept

theorem execBmcPortDisconnect_kept {s t : State} {csHigh} (h : Kept s t) : Res.Kept s (execBmcPortDisconnect csHigh t) := by
  unfold execBmcPortDisconnect
  with_reducible repeat' first
    | exact h | apply Res.Kept.next | apply Res.Kept.ite | apply raiseGate_kept | apply modFlg_kept | apply afterHold_kept
    | simp only | split

theorem execManifestReverify_kept {s t : State} {readOk} (h : Kept s t) : Res.Kept s (execManifestReverify readOk t) := by
  unfold execManifestReverify
  with_reducible repeat' first
    | exact h | apply Res.Kept.next | apply Res.Kept.ite | apply Kept.ite | apply toDiscover_kept | apply raiseGate_kept
    | simp only | split

theorem execPortDiscovery_kept {s t : State} {a b} (h : Kept s t) : Res.Kept s (execPortDiscovery a b t) := by
  unfold execPortDiscovery
  with_reducible repeat' first
    | exact h | apply Res.Kept.next | apply Res.Kept.ite | apply Kept.ite | apply modFlg_kept | apply raiseGate_kept | apply gateVerdict_kept
    | apply setPass_kept | simp only | split

theorem execRegionMeasure_kept {s t : State} {x} (h : Kept s t) : Res.Kept s (execRegionMeasure x t) := by
  unfold execRegionMeasure
  with_reducible repeat' first
    | exact h | apply Res.Kept.next | apply Res.Kept.ite | apply Kept.ite | apply modFlg_kept | apply raiseGate_kept | apply gateVerdict_kept
    | apply setPass_kept | simp only | split

theorem execGateRecovery_kept {s t : State} {backups regions} (h : Kept s t) : Res.Kept s (execGateRecovery backups regions t) := by
  unfold execGateRecovery
  with_reducible repeat' first
    | exact h | apply Res.Kept.next | apply Res.Kept.ite | apply settle_kept | apply raiseGate_kept | simp only [Kept.update_iff] | split

theorem scanLedger_kept {s t : State} (h : Kept s t) : Kept s (scanLedger t) := by
  unfold scanLedger
  with_reducible repeat' first | exact h | apply modLdg_kept | apply raiseGate_kept | apply forN_kept | intro _

theorem summaryTick_kept {s t : State} (h : Kept s t) : Kept s (summaryTick t) := by
  unfold summaryTick
  with_reducible repeat' first
    | exact h | apply Kept.ite | apply signStep_kept | apply modLdg_kept | apply commitSummary_kept | apply beginSign_kept
    | simp only | split

theorem afterRecord_kept {s t : State} {p} (h : Kept s t) : Kept s (afterRecord p t) := by
  unfold afterRecord
  with_reducible repeat' first | exact h | apply Kept.ite | apply holdHost_kept | apply beginRelease_kept | apply setPass_kept

theorem programRecord_kept {s t : State} {p first second record} (h : Kept s t) : Kept s (programRecord p first second record t) := by
  unfold programRecord
  with_reducible repeat' first
    | exact h | apply Kept.ite | apply modLdg_kept | apply setPass_kept | apply modFlg_kept | apply raiseGate_kept | apply holdHost_kept

theorem commitRecord_kept {s t : State} {p record} (h : Kept s t) : Kept s (commitRecord p record t) := by
  unfold commitRecord
  with_reducible repeat' first
    | exact h | assumption | apply Kept.ite | apply modLdg_kept | apply modFlg_kept | apply bumpGen_kept | apply raiseGate_kept
    | apply afterRecord_kept | apply forN_kept | simp only | split | intro _

theorem execLedgerRecordWrite_kept {s t : State} {first second} (h : Kept s t) : Res.Kept s (execLedgerRecordWrite first second t) := by
  unfold execLedgerRecordWrite
  with_reducible repeat' first
    | exact h | apply Res.Kept.next | apply Res.Kept.ite | apply Kept.ite | apply commitRecord_kept | apply modFlg_kept | apply modLdg_kept
    | apply raiseGate_kept | apply setPass_kept | apply drawIsland_kept | apply programRecord_kept | simp only
    | refine Kept.of_snd (dualWith_kept ?_) (by assumption) | split

theorem execReleaseSequence_kept {s t : State} (h : Kept s t) : Res.Kept s (execReleaseSequence t) := by
  unfold execReleaseSequence
  with_reducible repeat' first
    | exact h | apply Res.Kept.next | apply Res.Kept.ite | apply modFlg_kept | apply raiseGate_kept | apply endPass_kept
    | simp only | split

theorem flgHold_kept {s t : State} (h : Kept s t) : Kept s (flgHold t) := by
  unfold flgHold
  with_reducible repeat' first | exact h | apply Kept.ite | apply holdOnly_kept

theorem execFlgHold_kept {s t : State} (h : Kept s t) : Res.Kept s (execFlgHold t) := by
  unfold execFlgHold
  with_reducible repeat' first | exact h | apply Res.Kept.next | apply Res.Kept.ite | apply flgHold_kept

theorem flgRelease_kept {s t : State} (h : Kept s t) : Kept s (flgRelease t) := by
  unfold flgRelease
  with_reducible repeat' first | exact h | apply Kept.ite | apply beginRelease_kept | apply raiseGate_kept

theorem execFlgRelease_kept {s t : State} (h : Kept s t) : Res.Kept s (execFlgRelease t) := by
  unfold execFlgRelease
  with_reducible repeat' first | exact h | apply Res.Kept.next | apply Res.Kept.ite | apply flgRelease_kept

theorem flgBmcb_kept {s t : State} {v} (h : Kept s t) : Kept s (flgBmcb v t) := h.same rfl rfl rfl rfl

theorem execFlgBmcbWrite_kept {s t : State} {v} (h : Kept s t) : Res.Kept s (execFlgBmcbWrite v t) := by
  unfold execFlgBmcbWrite
  with_reducible repeat' first | exact h | apply Res.Kept.next | apply Res.Kept.ite | apply flgBmcb_kept

theorem onTrue_kept {s t : State} {value f} (hf : ∀ u, Kept s u → Kept s (f u).2) (h : Kept s t) : Kept s (onTrue value f t).2 := by
  unfold onTrue
  with_reducible repeat' first | exact h | apply hf | split

theorem execOperatorRelease_kept {s t : State} {r value} (h : Kept s t) : Res.Kept s (execOperatorRelease r value t) := by
  unfold execOperatorRelease
  with_reducible repeat' first
    | exact h | assumption | apply Res.Kept.next | apply Res.Kept.ite | apply writeEntry_kept | apply onTrue_kept | apply settle_kept
    | simp only | split | intro _

theorem execRecoveryRequest_kept {s t : State} {r value} (h : Kept s t) : Res.Kept s (execRecoveryRequest r value t) := by
  unfold execRecoveryRequest
  with_reducible repeat' first
    | exact h | assumption | apply Res.Kept.next | apply Res.Kept.ite | apply writeEntry_kept | apply onTrue_kept | apply startPass_kept
    | simp only | split | intro _

theorem execPortBOwnerWrite_kept {s t : State} {r value} (h : Kept s t) : Res.Kept s (execPortBOwnerWrite r value t) := by
  unfold execPortBOwnerWrite
  with_reducible repeat' first
    | exact h | assumption | apply Res.Kept.next | apply Res.Kept.ite | apply writeEntry_kept | apply modFlg_kept | simp only
    | split | intro _

theorem execAckseqWrite_kept {s t : State} {r value} (h : Kept s t) : Res.Kept s (execAckseqWrite r value t) := by
  unfold execAckseqWrite
  with_reducible repeat' first
    | exact h | assumption | apply Res.Kept.next | apply Res.Kept.ite | apply writeEntry_kept | apply modLdg_kept | simp only
    | split | intro _

theorem execRecordSelectorWrite_kept {s t : State} {r value} (h : Kept s t) : Res.Kept s (execRecordSelectorWrite r value t) := by
  unfold execRecordSelectorWrite
  with_reducible repeat' first
    | exact h | assumption | apply Res.Kept.next | apply Res.Kept.ite | apply bumpGen_kept | apply modLdg_kept | apply writeEntry_kept
    | simp only | intro _

theorem installManifest_kept {s t : State} {m} (h : Kept s t) : Kept s (installManifest m t).2 := by
  unfold installManifest
  with_reducible repeat' first | exact h | apply raiseGate_kept | apply modLdg_kept | simp only | split

theorem commitManifest_kept {s t : State} (h : Kept s t) : Kept s (commitManifest t) := by
  unfold commitManifest
  with_reducible repeat' first | exact h | apply Kept.ite | apply bumpGen_kept | apply modLdg_kept | apply requestPass_kept

theorem pickManifest_kept {s t : State} (h : Kept s t) : Kept s (pickManifest t) := h.same rfl rfl rfl rfl

/-! ### Reset: What a reset of the device leaves -/

theorem bumpChanged_kept {s t : State} {s'} (h : Kept s t) : Kept s (bumpChanged s' t) := by
  unfold bumpChanged
  with_reducible repeat' first | exact h | apply bumpViews_kept | apply bumpGen_kept | apply forEach_kept | intro _

theorem resetFields_kept {s t : State} {stage mode} (h : Kept s t) : Kept s (resetFields stage mode t) :=
  h.trans { Kept.rfl (s := t) with ram := fun _ => rfl, variant := rfl }

theorem resetState_kept {s t : State} {stage mode} (h : Kept s t) : Kept s (resetState stage mode t) := by
  unfold resetState
  with_reducible repeat' first | exact h | apply bumpChanged_kept | apply resetFields_kept

theorem modeEvent_kept {s t : State} {m} (h : Kept s t) : Kept s (modeEvent m t) := by
  unfold modeEvent
  with_reducible repeat' first | exact h | apply raisePower_kept | simp only [Kept.update_iff]

theorem deviceReset_kept {s t : State} (h : Kept s t) : Kept s (deviceReset t) := by
  unfold deviceReset
  with_reducible repeat' first | exact h | apply Kept.ite | apply resetState_kept | apply modeEvent_kept

/-! ### Tamper: The vault domain and the tamper log -/

theorem modVault_kept {s t : State} {f} (h : Kept s t) : Kept s (t.modVault f) := h.same rfl rfl rfl rfl

theorem stage_kept {s t : State} {kind source resp data latched} (h : Kept s t) : Kept s (stage kind source resp data latched t) := by
  unfold stage
  with_reducible repeat' first | exact h | apply Kept.ite | apply modVault_kept

theorem appendTamper_kept {s t : State} {x} (h : Kept s t) : Kept s (appendTamper x t) := by
  unfold appendTamper
  with_reducible repeat' first | exact h | apply Kept.ite | apply raiseTamper_kept | apply modVault_kept

theorem tmpSaved_kept {s t : State} {v} (h : Kept s t) : Kept s (tmpSaved v t) := h.same rfl rfl rfl rfl

theorem commitTamper_kept {s t : State} (h : Kept s t) : Kept s (commitTamper t) := by
  unfold commitTamper
  with_reducible repeat' first
    | exact h | apply Kept.ite | apply modVault_kept | apply bumpGen_kept | apply tmpSaved_kept | apply buildService_kept | apply raiseTamper_kept

theorem moveLoss_kept {s t : State} (h : Kept s t) : Kept s (moveLoss t) := by
  unfold moveLoss
  with_reducible repeat' first | exact h | apply modVault_kept | apply appendTamper_kept | simp only | split

theorem moveOverflow_kept {s t : State} (h : Kept s t) : Kept s (moveOverflow t) := by
  unfold moveOverflow
  with_reducible repeat' first | exact h | apply Kept.ite | apply appendTamper_kept | apply modVault_kept | apply raiseTamper_kept

theorem moveStaging_kept {s t : State} (h : Kept s t) : Kept s (moveStaging t) := by
  unfold moveStaging
  with_reducible repeat' first
    | exact h | apply Kept.ite | apply raiseTamper_kept | apply moveLoss_kept | apply tmpSaved_kept | apply appendTamper_kept
    | apply moveOverflow_kept | apply forEach_kept | split | intro _

theorem execStagingLogMove_kept {s t : State} (h : Kept s t) : Res.Kept s (execStagingLogMove t) := by
  unfold execStagingLogMove
  with_reducible repeat' first | exact h | apply Res.Kept.next | apply Res.Kept.ite | apply moveStaging_kept

theorem tamperAlarm_kept {s t : State} {i} (h : Kept s t) : Kept s (tamperAlarm i t) := by
  unfold tamperAlarm
  with_reducible repeat' first | exact h | apply Kept.ite | apply modVault_kept | apply latchOnly_kept | apply stage_kept | apply raiseTamper_kept

theorem tamperSample_kept {s t : State} {i det} (h : Kept s t) : Kept s (tamperSample i det t) := by
  unfold tamperSample
  with_reducible repeat' first | exact h | apply Kept.ite | apply modVault_kept | apply tamperAlarm_kept

theorem sampleSource_kept {s t : State} {i v} (h : Kept s t) : Kept s (sampleSource i v t) := by
  unfold sampleSource
  with_reducible repeat' first | exact h | apply Kept.ite | apply tamperSample_kept | apply modVault_kept

theorem execTamperSample_kept {s t : State} {i v ms} (h : Kept s t) : Res.Kept s (execTamperSample i v ms t) := by
  unfold execTamperSample
  with_reducible repeat' first | exact h | apply Res.Kept.next | apply Res.Kept.ite | apply Kept.ite | apply passTime_kept | apply sampleSource_kept

theorem execVaultPowerOn_kept {s t : State} (h : Kept s t) : Res.Kept s (execVaultPowerOn t) := by
  unfold execVaultPowerOn
  with_reducible repeat' first | exact h | apply Res.Kept.next | apply Res.Kept.ite | simp only [Kept.update_iff]

theorem unlatch_kept {s t : State} (h : Kept s t) : Kept s (unlatch t) := by
  unfold unlatch
  with_reducible repeat' first | exact h | apply Kept.ite | apply modVault_kept

theorem execTmpUnlatch_kept {s t : State} (h : Kept s t) : Res.Kept s (execTmpUnlatch t) := by
  unfold execTmpUnlatch
  with_reducible repeat' first | exact h | apply Res.Kept.next | apply Res.Kept.ite | apply unlatch_kept | apply wrote_kept

theorem ovfClear_kept {s t : State} (h : Kept s t) : Kept s (ovfClear t) := h.same rfl rfl rfl rfl

theorem execTmpOvfclr_kept {s t : State} (h : Kept s t) : Res.Kept s (execTmpOvfclr t) := by
  unfold execTmpOvfclr
  with_reducible repeat' first | exact h | apply Res.Kept.next | apply Res.Kept.ite | apply ovfClear_kept | apply wrote_kept

theorem execTmpSavedWrite_kept {s t : State} {v} (h : Kept s t) : Res.Kept s (execTmpSavedWrite v t) := by
  unfold execTmpSavedWrite
  with_reducible repeat' first | exact h | apply Res.Kept.next | apply Res.Kept.ite | apply tmpSaved_kept

theorem slogRead_kept {s t : State} {m k} (h : Kept s t) : Kept s (slogRead m k t) := h.same rfl rfl rfl rfl

theorem execTmpSlogRead_kept {s t : State} {m k} (h : Kept s t) : Res.Kept s (execTmpSlogRead m k t) := by
  unfold execTmpSlogRead
  with_reducible repeat' first | exact h | apply Res.Kept.next | apply Res.Kept.ite | apply slogRead_kept | split

theorem stageChange_kept {s t : State} {i n} (h : Kept s t) : Kept s (stageChange i n t) := stage_kept h

theorem execTamperResponseWrite_kept {s t : State} {r value} (h : Kept s t) : Res.Kept s (execTamperResponseWrite r value t) := by
  unfold execTamperResponseWrite
  with_reducible repeat' first
    | exact h | assumption | apply Res.Kept.next | apply Res.Kept.ite | apply writeEntry_kept | apply modVault_kept | apply raiseTamper_kept
    | apply stageChange_kept | simp only | split | intro _

theorem execTamperWindowWrite_kept {s t : State} {r value} (h : Kept s t) : Res.Kept s (execTamperWindowWrite r value t) := by
  unfold execTamperWindowWrite
  with_reducible repeat' first
    | exact h | assumption | apply Res.Kept.next | apply Res.Kept.ite | apply writeEntry_kept | apply raiseTamper_kept | apply modVault_kept
    | simp only | split | intro _

theorem setRtc_kept {s t : State} (h : Kept s t) : Kept s (setRtc t) := by
  unfold setRtc
  with_reducible repeat' first | exact h | apply stage_kept | apply raiseTamper_kept | apply modVault_kept | simp only | split

theorem execRtcWrite_kept {s t : State} {r value} (h : Kept s t) : Res.Kept s (execRtcWrite r value t) := by
  unfold execRtcWrite
  with_reducible repeat' first
    | exact h | assumption | apply Res.Kept.next | apply Res.Kept.ite | apply writeEntry_kept | apply modVault_kept | simp only
    | split | intro _

theorem freshSample_kept {s t : State} {fresh} (h : Kept s t) : Kept s (freshSample fresh t) := by
  unfold freshSample
  with_reducible repeat' first | exact h | assumption | apply tamperSample_kept | apply forN_kept | split | intro _

theorem refuseUnlock_kept {s t : State} {code} (h : Kept s t) : Kept s (refuseUnlock code t) := by
  unfold refuseUnlock
  with_reducible repeat' first | exact h | apply raiseTamper_kept | apply modVault_kept

theorem unlockNow_kept {s t : State} {method officers} (h : Kept s t) : Kept s (unlockNow method officers t) := by
  unfold unlockNow
  with_reducible repeat' first
    | exact h | apply stage_kept | apply raiseTamper_kept | apply deviceReset_kept | apply unlatch_kept | apply commitTamper_kept
    | apply moveStaging_kept

theorem unlockIfQuiet_kept {s t : State} {method officers fresh} (h : Kept s t) : Kept s (unlockIfQuiet method officers fresh t).2 := by
  unfold unlockIfQuiet
  with_reducible repeat' first
    | exact h | apply freshSample_kept | apply refuseUnlock_kept | apply unlockNow_kept | simp only | split

theorem unlockRequest_kept {s t : State} {d fresh} (h : Kept s t) : Kept s (unlockRequest d fresh t).2 := by
  unfold unlockRequest
  with_reducible repeat' first | exact h | apply unlockIfQuiet_kept | apply refuseUnlock_kept | simp only | split

theorem refuseRole_kept {s t : State} {r} (h : Kept s t) : Kept s (refuseRole r t) := by
  unfold refuseRole
  with_reducible repeat' first | exact h | apply Kept.ite | apply refuseUnlock_kept

theorem execUnlockRequest_kept {s t : State} {r d fresh} (h : Kept s t) : Res.Kept s (execUnlockRequest r d fresh t) := by
  unfold execUnlockRequest
  with_reducible repeat' first
    | exact h | apply Res.Kept.next | apply Res.Kept.ite | apply endObject_kept | apply refuseRole_kept | apply unlockRequest_kept | intro _

theorem execOfficerUnlockStart_kept {s t : State} {r value} (h : Kept s t) : Res.Kept s (execOfficerUnlockStart r value t) := by
  unfold execOfficerUnlockStart
  with_reducible repeat' first
    | exact h | assumption | apply Res.Kept.next | apply Res.Kept.ite | apply writeEntry_kept | apply onTrue_kept | simp only [Kept.update_iff]
    | split | intro _

theorem officerUnlock_kept {s t : State} {officers fresh} (h : Kept s t) : Kept s (officerUnlock officers fresh t) := by
  unfold officerUnlock
  with_reducible repeat' first | exact h | apply Kept.ite | apply refuseUnlock_kept | apply unlockIfQuiet_kept

/-! ### Life: The life cycle -/

theorem modGal_kept {s t : State} {f} (h : Kept s t) : Kept s (t.modGal f) := h.same rfl rfl rfl rfl

theorem stopLeaseWork_kept {s t : State} (h : Kept s t) : Kept s (stopLeaseWork t) := by
  unfold stopLeaseWork
  with_reducible repeat' first
    | exact h | assumption | apply stopCommands_kept | apply stopJob_kept | apply dropHeld_kept | simp only [Kept.update_iff] | apply Kept.foldl
    | split | intro _

theorem scrapAll_kept {s t : State} (h : Kept s t) : Kept s (scrapAll t) :=
  h.trans { Kept.rfl (s := t) with variant := rfl }

theorem scrubReturn_kept {s t : State} (h : Kept s t) : Kept s (scrubReturn t) :=
  h.trans { Kept.rfl (s := t) with variant := rfl }

theorem eraseVendor_kept {s t : State} (h : Kept s t) : Kept s (eraseVendor t) := h.same rfl rfl rfl rfl

theorem performStep_kept {s t : State} {to_ lnonce claim} (h : Kept s t) : Kept s (performStep to_ lnonce claim t) := by
  unfold performStep
  with_reducible repeat' first
    | exact h | apply drawIsland_kept | apply eraseVendor_kept | apply scrubReturn_kept | apply scrapAll_kept
    | refine modLcs_kept ?_ rfl rfl rfl rfl | simp only | split

theorem lcsGo_kept {s t : State} {to_ count} (h : Kept s t) : Kept s (lcsGo to_ count t) := by
  unfold lcsGo
  extract_lets good
  split
  · exact raiseIsland_kept h
  · refine h.trans { Kept.rfl (s := t) with token1 := rfl, token2 := rfl, pairs := fun i hi => ?_, count := ?_ }
    · simp [State.modLcs, hi]
    · simp only [State.modLcs]
      split <;> omega

theorem execLcsCtlGo_kept {s t : State} {to_ count} (h : Kept s t) : Res.Kept s (execLcsCtlGo to_ count t) := by
  unfold execLcsCtlGo
  with_reducible repeat' first | exact h | apply Res.Kept.next | apply Res.Kept.ite | apply lcsGo_kept

theorem completeTransition_kept {s t : State} {r} (h : Kept s t) : Kept s (completeTransition r t) := by
  unfold completeTransition
  with_reducible repeat' first
    | exact h | apply closeCeremony_kept | apply stopLeaseWork_kept | apply lcsGo_kept | apply performStep_kept | apply deviceReset_kept
    | apply lapseGallery_kept | apply bumpChanged_kept | refine modLcs_kept ?_ rfl rfl rfl rfl | simp only | split

theorem transition_kept {s t : State} {to_ counter request} (h : Kept s t) : Kept s (transition to_ counter request t) := by
  unfold transition
  with_reducible repeat' first
    | exact h | apply drawIsland_kept | apply completeTransition_kept | apply raiseIsland_kept | refine modLcs_kept ?_ rfl rfl rfl rfl | split

theorem refuseLcs_kept {s t : State} {code} (h : Kept s t) : Kept s (refuseLcs code t) := by
  unfold refuseLcs
  with_reducible repeat' first | exact h | apply raiseIsland_kept | refine modLcs_kept ?_ rfl rfl rfl rfl

theorem lifecycleRequest_kept {s t : State} {ep d} (h : Kept s t) : Kept s (lifecycleRequest ep d t).2 := by
  unfold lifecycleRequest
  with_reducible repeat' first | exact h | apply refuseLcs_kept | refine modLcs_kept ?_ rfl rfl rfl rfl | simp only | split

theorem execLifecycleRequest_kept {s t : State} {r d} (h : Kept s t) : Res.Kept s (execLifecycleRequest r d t) := by
  unfold execLifecycleRequest
  with_reducible repeat' first
    | exact h | assumption | apply Res.Kept.next | apply Res.Kept.ite | apply endObject_kept | apply lifecycleRequest_kept | simp only [id_eq]
    | intro _

theorem execLifecycleVerifyDone_kept {s t : State} (h : Kept s t) : Res.Kept s (execLifecycleVerifyDone t) := by
  unfold execLifecycleVerifyDone
  with_reducible repeat' first
    | exact h | apply Res.Kept.next | apply Res.Kept.ite | apply Kept.ite | apply refuseLcs_kept | apply transition_kept
    | refine modLcs_kept ?_ rfl rfl rfl rfl | simp only | split

theorem execTokenWrite_kept {s t : State} {r token} (h : Kept s t) : Res.Kept s (execTokenWrite r token t) := by
  unfold execTokenWrite
  with_reducible repeat' first
    | exact h | assumption | apply Res.Kept.next | apply Res.Kept.ite | apply writeEntry_kept | apply refuseLcs_kept | apply transition_kept
    | refine modLcs_kept ?_ rfl rfl rfl rfl | simp only | split | intro _

theorem addRom_kept {s t : State} {n} (h : Kept s t) : Kept s (addRom n t) := h.same rfl rfl rfl rfl

theorem certifyLayer_kept {s t : State} {layer seed} (h : Kept s t) : Kept s (certifyLayer layer seed t) := by
  unfold certifyLayer
  with_reducible repeat' first
    | exact h | apply Kept.ite | apply addRom_kept | apply bumpGen_kept | refine modLcs_kept ?_ rfl rfl rfl rfl
    | refine Kept.of_snd (dualWith_kept ?_) (by assumption) | split

theorem certifyAlias_kept {s t : State} {alg} (h : Kept s t) : Kept s (certifyAlias alg t) := by
  unfold certifyAlias
  with_reducible repeat' first
    | exact h | apply Kept.ite | apply addRom_kept | apply bumpGen_kept | refine modLcs_kept ?_ rfl rfl rfl rfl | simp only
    | refine Kept.of_snd (islandCutter_kept ?_) (by assumption) | split

theorem deriveIdentity_kept {s t : State} (h : Kept s t) : Kept s (deriveIdentity t) := by
  unfold deriveIdentity
  with_reducible repeat' first | exact h | apply Kept.ite | apply certifyAlias_kept | apply certifyLayer_kept

theorem identityWrite_kept {s t : State} {sub d} (h : Kept s t) : Kept s (identityWrite sub d t).2 := by
  unfold identityWrite
  with_reducible repeat' first | exact h | apply bumpGen_kept | refine modLcs_kept ?_ rfl rfl rfl rfl | split

theorem execIdentityRecordWrite_kept {s t : State} {r d} (h : Kept s t) : Res.Kept s (execIdentityRecordWrite r d t) := by
  unfold execIdentityRecordWrite
  with_reducible repeat' first
    | exact h | assumption | apply Res.Kept.next | apply Res.Kept.ite | apply endObject_kept | apply identityWrite_kept | simp only [id_eq]
    | intro _

theorem lapseNow_kept {s t : State} (h : Kept s t) : Kept s (lapseNow t) := by
  unfold lapseNow
  with_reducible repeat' first | exact h | apply Kept.ite | apply lapseGallery_kept | apply raiseIsland_kept

theorem galleryCert_kept {s t : State} {ep d} (h : Kept s t) : Kept s (galleryCert ep d t).2 := by
  unfold galleryCert
  with_reducible repeat' first
    | exact h | apply lapseNow_kept | apply raiseIsland_kept | apply modGal_kept | apply bumpGen_kept | refine modLcs_kept ?_ rfl rfl rfl rfl
    | simp only | split

theorem execGalleryCertWrite_kept {s t : State} {r d} (h : Kept s t) : Res.Kept s (execGalleryCertWrite r d t) := by
  unfold execGalleryCertWrite
  with_reducible repeat' first
    | exact h | assumption | apply Res.Kept.next | apply Res.Kept.ite | apply endObject_kept | apply galleryCert_kept | simp only [id_eq] | intro _

theorem execGalleryRightsLapse_kept {s t : State} (h : Kept s t) : Res.Kept s (execGalleryRightsLapse t) := by
  unfold execGalleryRightsLapse
  with_reducible repeat' first | exact h | apply Res.Kept.next | apply Res.Kept.ite | apply lapseNow_kept

theorem execGalleryConsentWrite_kept {s t : State} {r value} (h : Kept s t) : Res.Kept s (execGalleryConsentWrite r value t) := by
  unfold execGalleryConsentWrite
  with_reducible repeat' first
    | exact h | assumption | apply Res.Kept.next | apply Res.Kept.ite | apply request_kept | apply modLease_kept | simp only
    | split | intro _

theorem galGrant_kept {s t : State} {v} (h : Kept s t) : Kept s (galGrant v t) := h.same rfl rfl rfl rfl

theorem execGalGrantWrite_kept {s t : State} {v} (h : Kept s t) : Res.Kept s (execGalGrantWrite v t) := by
  unfold execGalGrantWrite
  with_reducible repeat' first | exact h | apply Res.Kept.next | apply Res.Kept.ite | apply galGrant_kept

theorem inject_kept {s t : State} {event} (h : Kept s t) : Kept s (inject event t) := by
  unfold inject
  with_reducible repeat' first | exact h | apply Kept.ite | apply raiseIsland_kept | apply raiseInj_kept

theorem execFltInjGo_kept {s t : State} {event} (h : Kept s t) : Res.Kept s (execFltInjGo event t) := by
  unfold execFltInjGo
  with_reducible repeat' first | exact h | apply Res.Kept.next | apply Res.Kept.ite | apply inject_kept

/-! ### Flash: Package flash -/

theorem modPfl_kept {s t : State} {f} (h : Kept s t) : Kept s (t.modPfl f) := h.same rfl rfl rfl rfl

theorem flashBytes_kept {s t : State} {o n} (h : Kept s t) : Kept s (flashBytes o n t).2 := by
  unfold flashBytes
  with_reducible repeat' first | exact h | apply Kept.ite | apply useFree_kept

theorem dropStores_kept {s t : State} {a b} (h : Kept s t) : Kept s (dropStores a b t) := h.same rfl rfl rfl rfl

theorem eraseRange_kept {s t : State} {a b} (h : Kept s t) : Kept s (eraseRange a b t) := h.same rfl rfl rfl rfl

theorem clampWs_kept {s t : State} (h : Kept s t) : Kept s (clampWs t) := by
  unfold clampWs
  with_reducible repeat' first | exact h | apply Kept.ite | apply raiseFlash_kept | apply modPfl_kept

theorem execVflBandChange_kept {s t : State} {high} (h : Kept s t) : Res.Kept s (execVflBandChange high t) := by
  unfold execVflBandChange
  with_reducible repeat' first | exact h | apply Res.Kept.next | apply Res.Kept.ite | apply clampWs_kept | simp only [Kept.update_iff]

theorem writeWs_kept {s t : State} {v} (h : Kept s t) : Kept s (writeWs v t) := by
  unfold writeWs
  with_reducible repeat' first | exact h | apply clampWs_kept | apply modPfl_kept

theorem lineEcc_kept {s t : State} {e fetch line} (h : Kept s t) : Kept s (lineEcc e fetch line t) := by
  unfold lineEcc
  with_reducible repeat' first | exact h | apply raiseFlash_kept | apply modPfl_kept | split

theorem flashRead_kept {s t : State} {c o n fetch e} (h : Kept s t) : Kept s (flashRead c o n fetch e t).2 := by
  unfold flashRead
  with_reducible repeat' first
    | exact h | apply Kept.ite | apply raiseFlash_kept | apply lineEcc_kept | apply modPfl_kept | apply flashBytes_kept
    | simp only | split

theorem execFlashRead_kept {s t : State} {m o n fetch e} (h : Kept s t) : Res.Kept s (execFlashRead m o n fetch e t) := by
  unfold execFlashRead
  with_reducible repeat' first
    | exact h | apply Res.Kept.next | apply Res.Kept.ite | apply flashRead_kept | apply raiseIsland_kept | simp only [Kept.update_iff] | split

theorem flashEnd_kept {s t : State} {st} (h : Kept s t) : Kept s (flashEnd st t) := by
  unfold flashEnd
  with_reducible repeat' first | exact h | apply raiseFlash_kept | apply modPfl_kept

theorem flashRefuse_kept {s t : State} {st} (h : Kept s t) : Kept s (flashRefuse st t) := by
  unfold flashRefuse
  with_reducible repeat' first | exact h | apply flashEnd_kept | apply modPfl_kept

theorem flashStart_kept {s t : State} {code o data} (h : Kept s t) : Kept s (flashStart code o data t) := by
  unfold flashStart
  with_reducible repeat' first | exact h | apply Kept.ite | apply flashRefuse_kept | apply modPfl_kept | apply useFree_kept

theorem flashSequence_kept {s t : State} {off v} (h : Kept s t) : Kept s (flashSequence off v t) := by
  unfold flashSequence
  with_reducible repeat' first
    | exact h | apply Kept.ite | apply modPfl_kept | apply flashRefuse_kept | apply flashStart_kept | simp only | split

theorem execPflSequenceWrite_kept {s t : State} {off v} (h : Kept s t) : Res.Kept s (execPflSequenceWrite off v t) := by
  unfold execPflSequenceWrite
  with_reducible repeat' first | exact h | apply Res.Kept.next | apply Res.Kept.ite | apply flashSequence_kept

theorem flashBuf_kept {s t : State} {i v} (h : Kept s t) : Kept s (flashBuf i v t) := by
  unfold flashBuf
  with_reducible repeat' first
    | exact h | apply Kept.ite | apply modPfl_kept | apply flashStart_kept | apply flashRefuse_kept | simp only | split

theorem execProgram_kept {s t : State} {data} (h : Kept s t) : Res.Kept s (execProgram data t) := by
  unfold execProgram
  with_reducible repeat' first | exact h | apply Res.Kept.next | apply Res.Kept.ite | apply flashBuf_kept | apply forN_kept | intro _

theorem eraseWrite_kept {s t : State} {code o} (h : Kept s t) : Kept s (eraseWrite code o t) := by
  unfold eraseWrite
  with_reducible repeat' first | exact h | apply Kept.ite | apply flashStart_kept | apply flashRefuse_kept | split

theorem execEraseSector_kept {s t : State} {o} (h : Kept s t) : Res.Kept s (execEraseSector o t) := by
  unfold execEraseSector
  with_reducible repeat' first | exact h | apply Res.Kept.next | apply Res.Kept.ite | apply eraseWrite_kept

theorem execEraseChip_kept {s t : State} {o} (h : Kept s t) : Res.Kept s (execEraseChip o t) := by
  unfold execEraseChip
  with_reducible repeat' first | exact h | apply Res.Kept.next | apply Res.Kept.ite | apply eraseWrite_kept

theorem FlashOp_apply_kept {s t : State} {x} (h : Kept s t) : Kept s (FlashOp.apply x t) := by
  unfold FlashOp.apply
  with_reducible repeat' first | exact h | apply Kept.ite | apply modPfl_kept | apply eraseRange_kept

theorem startQueued_kept {s t : State} (h : Kept s t) : Kept s (startQueued t) := by
  unfold startQueued
  with_reducible repeat' first
    | exact h | apply Kept.ite | apply modPfl_kept | apply flashEnd_kept | apply useFree_kept | simp only | split

theorem startOwn_kept {s t : State} {at_} (h : Kept s t) : Kept s (startOwn at_ t) := by
  unfold startOwn
  with_reducible repeat' first
    | exact h | apply Kept.ite | apply flashEnd_kept | apply modPfl_kept | apply useFree_kept | simp only | split

theorem execFlashOpEnd_kept {s t : State} (h : Kept s t) : Res.Kept s (execFlashOpEnd t) := by
  unfold execFlashOpEnd
  with_reducible repeat' first
    | exact h | apply Res.Kept.next | apply Res.Kept.ite | apply Kept.ite | apply modPfl_kept | apply FlashOp_apply_kept | apply flashEnd_kept
    | apply startOwn_kept | apply startQueued_kept | simp only | split

theorem flashTick_kept {s t : State} (h : Kept s t) : Kept s (flashTick t) := by
  unfold flashTick
  with_reducible repeat' first
    | exact h | assumption | apply Kept.ite | apply modPfl_kept | apply eraseRange_kept | apply forEach_kept | simp only | split
    | intro _

theorem flashSwap_kept {s t : State} {go} (h : Kept s t) : Kept s (flashSwap go t) := by
  unfold flashSwap
  with_reducible repeat' first | exact h | apply Kept.ite | apply flashRefuse_kept | apply raiseFlash_kept | apply modPfl_kept

theorem execPflSwapGo_kept {s t : State} (h : Kept s t) : Res.Kept s (execPflSwapGo t) := by
  unfold execPflSwapGo
  with_reducible repeat' first | exact h | apply Res.Kept.next | apply Res.Kept.ite | apply flashSwap_kept

theorem execSwapPairWriteEnd_kept {s t : State} (h : Kept s t) : Res.Kept s (execSwapPairWriteEnd t) := by
  unfold execSwapPairWriteEnd
  with_reducible repeat' first
    | exact h | apply Res.Kept.next | apply Res.Kept.ite | apply startOwn_kept | apply startQueued_kept | apply modPfl_kept
    | simp only | split

theorem FlashOp_cut_kept {s t : State} {x} (h : Kept s t) : Kept s (FlashOp.cut x t) := by
  unfold FlashOp.cut
  with_reducible repeat' first | exact h | apply Kept.ite | apply modPfl_kept | apply eraseRange_kept

theorem flashPowerLoss_kept {s t : State} (h : Kept s t) : Kept s (flashPowerLoss t) := by
  unfold flashPowerLoss
  with_reducible repeat' first | exact h | apply Kept.ite | apply FlashOp_cut_kept | apply modPfl_kept | split

theorem refuseUpdate_kept {s t : State} {code} (h : Kept s t) : Kept s (refuseUpdate code t) := by
  unfold refuseUpdate
  with_reducible repeat' first | exact h | apply raiseFlash_kept | apply modPfl_kept | apply endUpdate_kept

theorem leaveBank_kept {s t : State} (h : Kept s t) : Kept s (leaveBank t) := h.same rfl rfl rfl rfl

theorem pushOwn_kept {s t : State} {l} (h : Kept s t) : Kept s (pushOwn l t) := by
  unfold pushOwn
  with_reducible repeat' first | exact h | apply startOwn_kept | apply modPfl_kept

theorem updateStart_kept {s t : State} {total} (h : Kept s t) : Kept s (updateStart total t).2 := by
  unfold updateStart
  with_reducible repeat' first
    | exact h | apply raiseFlash_kept | apply modPfl_kept | apply refuseUpdate_kept | apply leaveBank_kept | apply pushOwn_kept
    | simp only | split

theorem updateData_kept {s t : State} {off d} (h : Kept s t) : Kept s (updateData off d t).2 := by
  unfold updateData
  with_reducible repeat' first | exact h | apply endUpdate_kept | apply pushOwn_kept | apply modPfl_kept | simp only | split

theorem updateEnd_kept {s t : State} {r stored} (h : Kept s t) : Kept s (updateEnd r stored t).2 := by
  unfold updateEnd
  with_reducible repeat' first | exact h | apply pushOwn_kept | apply modPfl_kept | simp only | split

theorem updateTick_kept {s t : State} (h : Kept s t) : Kept s (updateTick t) := by
  unfold updateTick
  with_reducible repeat' first
    | exact h | apply Kept.ite | apply refuseUpdate_kept | apply flashSwap_kept | apply respond_kept | apply endUpdate_kept
    | simp only | split

/-! ### Fnc: The FNC block's writable registers, window descriptors, and the programs of the leases -/

theorem fncRefuse_kept {s t : State} {c} (h : Kept s t) : Kept s (fncRefuse c t) := raise_kept h

theorem fncCtl_kept {s t : State} {c v} (h : Kept s t) : Kept s (fncCtl c v t) := by
  unfold fncCtl
  with_reducible repeat' first | exact h | apply Kept.ite | apply fncRefuse_kept | apply setCore_kept

theorem fncWin_kept {s t : State} {c i v} (h : Kept s t) : Kept s (fncWin c i v t) := by
  unfold fncWin
  with_reducible repeat' first | exact h | apply Kept.ite | apply fncRefuse_kept | apply setCore_kept

theorem fncFen_kept {s t : State} {c i v} (h : Kept s t) : Kept s (fncFen c i v t) := by
  unfold fncFen
  with_reducible repeat' first | exact h | apply Kept.ite | apply fncRefuse_kept | apply setCore_kept

theorem fncIen_kept {s t : State} {c v} (h : Kept s t) : Kept s (fncIen c v t) := h.same rfl rfl rfl rfl

theorem refuseProgram_kept {s t : State} {k code} (h : Kept s t) : Kept s (refuseProgram k code t) := by
  unfold refuseProgram
  with_reducible repeat' first | exact h | apply raiseIslandOf_kept | apply modLease_kept

theorem unloadProgram_kept {s t : State} {k} (h : Kept s t) : Kept s (unloadProgram k t) := by
  unfold unloadProgram
  with_reducible repeat' first | exact h | apply Kept.ite | apply bumpGen_kept | apply modLease_kept

theorem programLoad_kept {s t : State} {k d} (h : Kept s t) : Kept s (programLoad k d t).2 := by
  unfold programLoad
  with_reducible repeat' first
    | exact h | apply refuseProgram_kept | apply unloadProgram_kept | apply setLease_kept | simp only | split

theorem execProgramLoad_kept {s t : State} {r d} (h : Kept s t) : Res.Kept s (execProgramLoad r d t) := by
  unfold execProgramLoad
  with_reducible repeat' first
    | exact h | assumption | apply Res.Kept.next | apply Res.Kept.ite | apply endObject_kept | apply programLoad_kept | simp only [id_eq] | split
    | intro _

theorem execProgramVerifyDone_kept {s t : State} {k stored} (h : Kept s t) : Res.Kept s (execProgramVerifyDone k stored t) := by
  unfold execProgramVerifyDone
  with_reducible repeat' first
    | exact h | apply Res.Kept.next | apply Res.Kept.ite | apply setLease_kept | apply refuseProgram_kept | apply bumpGen_kept | apply modLease_kept
    | simp only | split

theorem execProgramPageCopy_kept {s t : State} {k} (h : Kept s t) : Res.Kept s (execProgramPageCopy k t) := by
  unfold execProgramPageCopy
  with_reducible repeat' first
    | exact h | apply Res.Kept.next | apply Res.Kept.ite | apply modLease_kept | apply copyProgram_kept | apply dspGo_kept | apply forEach_kept
    | simp only [Kept.update_iff] | intro _

theorem execProgramKeyWrite_kept {s t : State} {r value} (h : Kept s t) : Res.Kept s (execProgramKeyWrite r value t) := by
  unfold execProgramKeyWrite
  with_reducible repeat' first
    | exact h | assumption | apply Res.Kept.next | apply Res.Kept.ite | apply writeEntry_kept | apply unloadProgram_kept | apply modLease_kept
    | simp only | split | intro _

theorem execProgramMinsvnWrite_kept {s t : State} {r value} (h : Kept s t) : Res.Kept s (execProgramMinsvnWrite r value t) := by
  unfold execProgramMinsvnWrite
  with_reducible repeat' first
    | exact h | assumption | apply Res.Kept.next | apply Res.Kept.ite | apply writeEntry_kept | apply modLease_kept | simp only
    | split | intro _

theorem startProgram_kept {s t : State} {k} (h : Kept s t) : Kept s (startProgram k t) := by
  unfold startProgram
  with_reducible repeat' first | exact h | apply Kept.ite | apply refuseProgram_kept | apply setLease_kept

/-! ### Custody: Custodians -/

theorem modCust_kept {s t : State} {f} (h : Kept s t) : Kept s (t.modCust f) := h.same rfl rfl rfl rfl

theorem outcome_kept {s t : State} {kind q} (h : Kept s t) : Kept s (outcome kind q t) := by
  unfold outcome
  with_reducible repeat' first | exact h | apply journal_kept | split

theorem journalTick_kept {s t : State} (h : Kept s t) : Kept s (journalTick t) := by
  unfold journalTick
  with_reducible repeat' first | exact h | apply Kept.ite | apply modCust_kept | apply bumpGen_kept

theorem scanJournal_kept {s t : State} (h : Kept s t) : Kept s (scanJournal t) := by
  unfold scanJournal
  with_reducible repeat' first | exact h | assumption | apply raiseCust_kept | apply outcome_kept | apply forEach_kept | intro _

theorem officerQuorum_kept {s t : State} {r value} (h : Kept s t) : Kept s (officerQuorum r value t).2 := by
  unfold officerQuorum
  with_reducible repeat' first | exact h | apply Kept.ite | apply logOp_kept | simp only [Kept.update_iff] | split

theorem execOfficerQuorumWrite_kept {s t : State} {r value} (h : Kept s t) : Res.Kept s (execOfficerQuorumWrite r value t) := by
  unfold execOfficerQuorumWrite
  with_reducible repeat' first | exact h | apply Res.Kept.next | apply Res.Kept.ite | apply writeEntry_kept | apply officerQuorum_kept | intro _

theorem openCeremony_kept {s t : State} {c} (h : Kept s t) : Kept s (openCeremony c t) := h.same rfl rfl rfl rfl

theorem formGrant_kept {s t : State} {c fresh} (h : Kept s t) : Kept s (formGrant c fresh t) := by
  unfold formGrant
  with_reducible repeat' first
    | exact h | apply Kept.ite | apply raiseCust_kept | apply modCust_kept | apply modLease_kept | apply openCeremony_kept
    | apply officerUnlock_kept

theorem countCustodian_kept {s t : State} {cred fresh} (h : Kept s t) : Kept s (countCustodian cred fresh t) := by
  unfold countCustodian
  with_reducible repeat' first
    | exact h | apply Kept.ite | apply raiseCust_kept | apply formGrant_kept | apply modCust_kept | simp only | split

theorem execCeremonyStart_kept {s t : State} {r value} (h : Kept s t) : Res.Kept s (execCeremonyStart r value t) := by
  unfold execCeremonyStart
  with_reducible repeat' first
    | exact h | assumption | apply Res.Kept.next | apply Res.Kept.ite | apply writeEntry_kept | apply modCust_kept | simp only
    | split | intro _

theorem execCeremonyClose_kept {s t : State} {r value} (h : Kept s t) : Res.Kept s (execCeremonyClose r value t) := by
  unfold execCeremonyClose
  with_reducible repeat' first
    | exact h | apply Res.Kept.next | apply Res.Kept.ite | apply writeEntry_kept | apply onTrue_kept | apply closeCeremony_kept
    | simp only | intro _

theorem execCeremonyTimeout_kept {s t : State} (h : Kept s t) : Res.Kept s (execCeremonyTimeout t) := by
  unfold execCeremonyTimeout
  with_reducible repeat' first | exact h | apply Res.Kept.next | apply Res.Kept.ite | apply closeCeremony_kept | split

theorem noteAction_kept {s t : State} (h : Kept s t) : Kept s (noteAction t) := h.same rfl rfl rfl rfl

theorem beginKeyLoad_kept {s t : State} {q} (h : Kept s t) : Kept s (beginKeyLoad q t) := by
  unfold beginKeyLoad
  with_reducible repeat' first | exact h | apply drawIsland_kept | apply modCust_kept | split

theorem endKeyLoad_kept {s t : State} {k} (h : Kept s t) : Kept s (endKeyLoad k t) := by
  unfold endKeyLoad
  with_reducible repeat' first | exact h | apply Kept.ite | apply modCust_kept | apply writeKey_kept | apply logOp_kept

theorem execKeyLoadingCeremony_kept {s t : State} {ep q} (h : Kept s t) : Res.Kept s (execKeyLoadingCeremony ep q t) := by
  unfold execKeyLoadingCeremony
  with_reducible repeat' first
    | exact h | apply Res.Kept.next | apply Res.Kept.ite | apply noteAction_kept | apply beginKeyLoad_kept | apply endKeyLoad_kept | split

theorem foldComponent_kept {s t : State} {pos plain} (h : Kept s t) : Kept s (foldComponent pos plain t) := by
  unfold foldComponent
  with_reducible repeat' first
    | exact h | apply Kept.ite | apply raiseCust_kept | apply modCust_kept | apply noteAction_kept | apply logOp_kept | simp only
    | split

theorem countComponent_kept {s t : State} {pos obj} (h : Kept s t) : Kept s (countComponent pos obj t) := by
  unfold countComponent
  with_reducible repeat' first | exact h | apply Kept.ite | apply noteAction_kept | apply logOp_kept | apply modCust_kept | split

/-! ### Card: The contact port, the reader, and the exchanges of both with custodian cards -/

theorem modCrd_kept {s t : State} {f} (h : Kept s t) : Kept s (t.modCrd f) := h.same rfl rfl rfl rfl

theorem modCtl_kept {s t : State} {f} (h : Kept s t) : Kept s (t.modCtl f) := h.same rfl rfl rfl rfl

theorem modSess_kept {s t : State} {p f} (h : Kept s t) : Kept s (t.modSess p f) := by
  unfold State.modSess
  with_reducible repeat' first | exact h | apply Kept.ite | apply modCrd_kept | apply modCtl_kept

theorem sendCard_kept {s t : State} {p b} (h : Kept s t) : Kept s (sendCard p b t) := by
  unfold sendCard
  with_reducible repeat' first | exact h | apply Kept.ite | simp only [Kept.update_iff]

theorem sendApdu_kept {s t : State} {p apdu} (h : Kept s t) : Kept s (sendApdu p apdu t) := by
  unfold sendApdu
  with_reducible repeat' first | exact h | apply Kept.ite | apply sendCard_kept | apply modCrd_kept

theorem setExchange_kept {s t : State} {p on} (h : Kept s t) : Kept s (setExchange p on t) := by
  unfold setExchange
  with_reducible repeat' first | exact h | apply Kept.ite | apply modCrd_kept | apply modCtl_kept

theorem setRes_kept {s t : State} {p v} (h : Kept s t) : Kept s (setRes p v t) := by
  unfold setRes
  with_reducible repeat' first | exact h | apply Kept.ite | apply modCrd_kept | apply modCtl_kept

theorem loseCard_kept {s t : State} {p lastSent} (h : Kept s t) : Kept s (loseCard p lastSent t) := by
  unfold loseCard
  with_reducible repeat' first | exact h | apply Kept.ite | apply raiseCust_kept | apply outcome_kept | apply modSess_kept | split

theorem deactivate_kept {s t : State} {lastSent} (h : Kept s t) : Kept s (deactivate lastSent t) := by
  unfold deactivate
  with_reducible repeat' first | exact h | apply modCrd_kept | apply loseCard_kept

theorem fieldOff_kept {s t : State} {lastSent} (h : Kept s t) : Kept s (fieldOff lastSent t) := by
  unfold fieldOff
  with_reducible repeat' first | exact h | apply modCtl_kept | apply loseCard_kept

theorem breakExchange_kept {s t : State} {p res lastSent} (h : Kept s t) : Kept s (breakExchange p res lastSent t) := by
  unfold breakExchange
  with_reducible repeat' first | exact h | apply Kept.ite | apply raiseCust_kept | apply setRes_kept | apply deactivate_kept | apply fieldOff_kept

theorem refuseCard_kept {s t : State} {res} (h : Kept s t) : Kept s (refuseCard res t) := by
  unfold refuseCard
  with_reducible repeat' first | exact h | apply raiseCust_kept | apply setRes_kept | apply deactivate_kept

theorem activate_kept {s t : State} {k} (h : Kept s t) : Kept s (activate k t) := by
  unfold activate
  with_reducible repeat' first | exact h | apply refuseCard_kept | apply modCrd_kept | split

theorem execCardInserted_kept {s t : State} (h : Kept s t) : Res.Kept s (execCardInserted t) := by
  unfold execCardInserted
  with_reducible repeat' first
    | exact h | apply Res.Kept.next | apply Res.Kept.ite | apply Kept.ite | apply raiseCust_kept | apply modCrd_kept | apply activate_kept

theorem execCardRemoved_kept {s t : State} {lastSent} (h : Kept s t) : Res.Kept s (execCardRemoved lastSent t) := by
  unfold execCardRemoved
  with_reducible repeat' first | exact h | apply Res.Kept.next | apply Kept.ite | apply breakExchange_kept | apply deactivate_kept | apply modCrd_kept

theorem crdAct_kept {s t : State} (h : Kept s t) : Kept s (crdAct t) := by
  unfold crdAct
  with_reducible repeat' first | exact h | apply Kept.ite | apply activate_kept | apply modCrd_kept

theorem execCrdAct_kept {s t : State} (h : Kept s t) : Res.Kept s (execCrdAct t) := by
  unfold execCrdAct
  with_reducible repeat' first | exact h | apply Res.Kept.next | apply crdAct_kept | apply wrote_kept

theorem crdDeact_kept {s t : State} {lastSent} (h : Kept s t) : Kept s (crdDeact lastSent t) := by
  unfold crdDeact
  with_reducible repeat' first | exact h | apply Kept.ite | apply deactivate_kept

theorem execCrdDeact_kept {s t : State} {lastSent} (h : Kept s t) : Res.Kept s (execCrdDeact lastSent t) := by
  unfold execCrdDeact
  with_reducible repeat' first | exact h | apply Res.Kept.next | apply crdDeact_kept | apply wrote_kept

theorem sendIfs_kept {s t : State} {n} (h : Kept s t) : Kept s (sendIfs n t) := h.same rfl rfl rfl rfl

theorem cardUp_kept {s t : State} (h : Kept s t) : Kept s (cardUp t) := by
  unfold cardUp
  with_reducible repeat' first | exact h | apply Kept.ite | apply modCrd_kept | apply sendIfs_kept

theorem takeAtr_kept {s t : State} {g} (h : Kept s t) : Kept s (takeAtr g t) := by
  unfold takeAtr
  with_reducible repeat' first
    | exact h | apply Kept.ite | apply refuseCard_kept | apply modCrd_kept | apply cardUp_kept | apply sendCard_kept | split

theorem execAtrReceived_kept {s t : State} {atr late} (h : Kept s t) : Res.Kept s (execAtrReceived atr late t) := by
  unfold execAtrReceived
  with_reducible repeat' first
    | exact h | apply Res.Kept.next | apply Res.Kept.ite | apply takeAtr_kept | apply refuseCard_kept | apply modCrd_kept | split

theorem execAtrTimeout_kept {s t : State} (h : Kept s t) : Res.Kept s (execAtrTimeout t) := by
  unfold execAtrTimeout
  with_reducible repeat' first | exact h | apply Res.Kept.next | apply Res.Kept.ite | apply refuseCard_kept | apply activate_kept | apply modCrd_kept

theorem failPps_kept {s t : State} (h : Kept s t) : Kept s (failPps t) := by
  unfold failPps
  with_reducible repeat' first
    | exact h | apply Kept.ite | apply refuseCard_kept | apply activate_kept | apply modCrd_kept | apply setRes_kept | apply deactivate_kept

theorem execPpsResponse_kept {s t : State} {resp} (h : Kept s t) : Res.Kept s (execPpsResponse resp t) := by
  unfold execPpsResponse
  with_reducible repeat' first | exact h | apply Res.Kept.next | apply Res.Kept.ite | apply cardUp_kept | apply modCrd_kept | apply failPps_kept

theorem execPpsTimeout_kept {s t : State} (h : Kept s t) : Res.Kept s (execPpsTimeout t) := by
  unfold execPpsTimeout
  with_reducible repeat' first | exact h | apply Res.Kept.next | apply Res.Kept.ite | apply failPps_kept

theorem execWwtTimeout_kept {s t : State} {lastSent} (h : Kept s t) : Res.Kept s (execWwtTimeout lastSent t) := by
  unfold execWwtTimeout
  with_reducible repeat' first | exact h | apply Res.Kept.next | apply Res.Kept.ite | apply breakExchange_kept

theorem execT1BwtTimeout_kept {s t : State} {lastSent} (h : Kept s t) : Res.Kept s (execT1BwtTimeout lastSent t) := by
  unfold execT1BwtTimeout
  with_reducible repeat' first
    | exact h | apply Res.Kept.next | apply Res.Kept.ite | apply Kept.ite | apply sendCard_kept | apply modSess_kept | apply sendIfs_kept
    | apply modCrd_kept | apply breakExchange_kept

theorem execApduExchangeTimeout_kept {s t : State} {lastSent} (h : Kept s t) : Res.Kept s (execApduExchangeTimeout lastSent t) := by
  unfold execApduExchangeTimeout
  with_reducible repeat' first | exact h | apply Res.Kept.next | apply Res.Kept.ite | apply breakExchange_kept

theorem failSession_kept {s t : State} {p} (h : Kept s t) : Kept s (failSession p t) := by
  unfold failSession
  with_reducible repeat' first | exact h | apply raiseCust_kept | apply modSess_kept

theorem takeCred_kept {s t : State} {p cred} (h : Kept s t) : Kept s (takeCred p cred t) := by
  unfold takeCred
  with_reducible repeat' first | exact h | apply Kept.ite | apply raiseCust_kept | apply modSess_kept | simp only | split

theorem resolve_kept {s t : State} {p obj good data} (h : Kept s t) : Kept s (resolve p obj good data t) := by
  unfold resolve
  with_reducible repeat' first
    | exact h | apply Kept.ite | apply raiseCust_kept | apply outcome_kept | apply countComponent_kept | simp only | split

theorem finishCmd_kept {s t : State} {p data sw} (h : Kept s t) : Kept s (finishCmd p data sw t) := by
  unfold finishCmd
  with_reducible repeat' first
    | exact h | apply Kept.ite | apply setRes_kept | apply setExchange_kept | apply modSess_kept | apply modCrd_kept | apply modCtl_kept
    | apply failSession_kept | apply takeCred_kept | apply foldComponent_kept | apply outcome_kept | apply countComponent_kept | apply resolve_kept
    | simp only | split

theorem takeAnswer_kept {s t : State} {p again ans} (h : Kept s t) : Kept s (takeAnswer p again ans t) := by
  unfold takeAnswer
  with_reducible repeat' first
    | exact h | apply Kept.ite | apply breakExchange_kept | apply sendCard_kept | apply modSess_kept | apply modCrd_kept | apply finishCmd_kept
    | simp only | split

theorem cardCommand_kept {s t : State} {p c ok prepare again ans} (hprepare : ∀ u, Kept s u → Kept s (prepare u).2) (h : Kept s t) :
    Kept s (cardCommand p c ok prepare again ans t) := by
  unfold cardCommand
  with_reducible repeat' first
    | exact h | apply Kept.ite | apply takeAnswer_kept | apply sendApdu_kept | apply setExchange_kept | apply modSess_kept | apply hprepare

theorem execCardSelect_kept {s t : State} {p ans} (h : Kept s t) : Res.Kept s (execCardSelect p ans t) := by
  unfold execCardSelect
  with_reducible repeat' first | exact h | assumption | apply Res.Kept.next | apply cardCommand_kept | simp only | intro _

theorem execGetCred_kept {s t : State} {p ans} (h : Kept s t) : Res.Kept s (execGetCred p ans t) := by
  unfold execGetCred
  with_reducible repeat' first | exact h | assumption | apply Res.Kept.next | apply cardCommand_kept | simp only | intro _

theorem execAuth_kept {s t : State} {p ans} (h : Kept s t) : Res.Kept s (execAuth p ans t) := by
  unfold execAuth
  with_reducible repeat' first
    | exact h | assumption | apply Res.Kept.next | apply cardCommand_kept | apply drawIsland_kept | apply modSess_kept | simp only
    | split | intro _

theorem execReadObj_kept {s t : State} {p obj ans} (h : Kept s t) : Res.Kept s (execReadObj p obj ans t) := by
  unfold execReadObj
  with_reducible repeat' first | exact h | assumption | apply Res.Kept.next | apply cardCommand_kept | simp only | intro _

theorem execWriteObj_kept {s t : State} {p obj ans} (h : Kept s t) : Res.Kept s (execWriteObj p obj ans t) := by
  unfold execWriteObj
  with_reducible repeat' first
    | exact h | assumption | apply Res.Kept.next | apply cardCommand_kept | apply journal_kept | apply modSess_kept | simp only
    | intro _

theorem execCheckObj_kept {s t : State} {p obj ans} (h : Kept s t) : Res.Kept s (execCheckObj p obj ans t) := by
  unfold execCheckObj
  with_reducible repeat' first | exact h | assumption | apply Res.Kept.next | apply cardCommand_kept | simp only | intro _

theorem execGetResponse_kept {s t : State} {ans} (h : Kept s t) : Res.Kept s (execGetResponse ans t) := by
  unfold execGetResponse
  with_reducible repeat' first
    | exact h | apply Res.Kept.next | apply Res.Kept.ite | apply sendCard_kept | apply takeAnswer_kept | apply modSess_kept
    | simp only | split

theorem sendRaw_kept {s t : State} {p ans} (h : Kept s t) : Kept s (sendRaw p ans t) := by
  unfold sendRaw
  with_reducible repeat' first | exact h | assumption | apply cardCommand_kept | simp only | intro _

theorem execCrdSend_kept {s t : State} {ans} (h : Kept s t) : Res.Kept s (execCrdSend ans t) := by
  unfold execCrdSend
  with_reducible repeat' first | exact h | apply Res.Kept.next | apply sendRaw_kept | apply wrote_kept

theorem execCtlSend_kept {s t : State} {ans} (h : Kept s t) : Res.Kept s (execCtlSend ans t) := by
  unfold execCtlSend
  with_reducible repeat' first | exact h | apply Res.Kept.next | apply sendRaw_kept | apply wrote_kept

theorem finishAuth_kept {s t : State} {p fresh} (h : Kept s t) : Kept s (finishAuth p fresh t) := by
  unfold finishAuth
  with_reducible repeat' first
    | exact h | apply Kept.ite | apply modSess_kept | apply countCustodian_kept | apply failSession_kept | simp only | split

theorem execCustodianCounted_kept {s t : State} {p fresh} (h : Kept s t) : Res.Kept s (execCustodianCounted p fresh t) := by
  unfold execCustodianCounted
  with_reducible repeat' first | exact h | apply Res.Kept.next | apply Res.Kept.ite | apply finishAuth_kept | simp only | split

theorem readerRow_kept {s t : State} {st f} (hf : ∀ u, Kept s u → Kept s (f u)) (h : Kept s t) : Res.Kept s (readerRow st f t) := by
  unfold readerRow
  with_reducible repeat' first | exact h | apply Res.Kept.next | apply Res.Kept.ite | apply hf

theorem execLpcdPing_kept {s t : State} {amp} (h : Kept s t) : Res.Kept s (execLpcdPing amp t) := by
  unfold execLpcdPing
  with_reducible repeat' first | exact h | apply readerRow_kept | apply modCtl_kept | simp only | intro _

theorem startAnticoll_kept {s t : State} (h : Kept s t) : Kept s (startAnticoll t) := h.same rfl rfl rfl rfl

theorem execWupa_kept {s t : State} {answered} (h : Kept s t) : Res.Kept s (execWupa answered t) := by
  unfold execWupa
  with_reducible repeat' first
    | exact h | assumption | apply readerRow_kept | apply sendCard_kept | apply modCtl_kept | apply raiseCust_kept | apply startAnticoll_kept
    | apply fieldOff_kept | simp only | split | intro _

theorem execReqa_kept {s t : State} {answered} (h : Kept s t) : Res.Kept s (execReqa answered t) := by
  unfold execReqa
  with_reducible repeat' first
    | exact h | assumption | apply readerRow_kept | apply sendCard_kept | apply modCtl_kept | apply startAnticoll_kept | apply fieldOff_kept
    | simp only | split | intro _

theorem execAnticollision_kept {s t : State} {answer coll} (h : Kept s t) : Res.Kept s (execAnticollision answer coll t) := by
  unfold execAnticollision
  with_reducible repeat' first
    | exact h | assumption | apply readerRow_kept | apply sendCard_kept | apply fieldOff_kept | apply modCtl_kept | simp only
    | split | intro _

theorem execReaderSelect_kept {s t : State} {sak} (h : Kept s t) : Res.Kept s (execReaderSelect sak t) := by
  unfold execReaderSelect
  with_reducible repeat' first
    | exact h | assumption | apply readerRow_kept | apply sendCard_kept | apply fieldOff_kept | apply modCtl_kept | simp only
    | split | intro _

theorem execRats_kept {s t : State} {ta1 fwi} (h : Kept s t) : Res.Kept s (execRats ta1 fwi t) := by
  unfold execRats
  with_reducible repeat' first
    | exact h | assumption | apply readerRow_kept | apply sendCard_kept | apply failSession_kept | apply modCtl_kept | simp only
    | split | intro _

theorem haltCard_kept {s t : State} (h : Kept s t) : Kept s (haltCard t) := by
  unfold haltCard
  with_reducible repeat' first
    | exact h | apply Kept.ite | apply sendCard_kept | apply modCtl_kept | apply raiseCust_kept | apply setRes_kept | apply fieldOff_kept

theorem execHlta_kept {s t : State} (h : Kept s t) : Res.Kept s (execHlta t) := .next (haltCard_kept h)

theorem execCtlHalt_kept {s t : State} (h : Kept s t) : Res.Kept s (execCtlHalt t) := by
  unfold execCtlHalt
  with_reducible repeat' first | exact h | apply Res.Kept.next | apply haltCard_kept | apply wrote_kept

theorem ctlOff_kept {s t : State} {lastSent} (h : Kept s t) : Kept s (ctlOff lastSent t) := by
  unfold ctlOff
  with_reducible repeat' first | exact h | apply Kept.ite | apply fieldOff_kept

theorem execCtlOff_kept {s t : State} {lastSent} (h : Kept s t) : Res.Kept s (execCtlOff lastSent t) := by
  unfold execCtlOff
  with_reducible repeat' first | exact h | apply Res.Kept.next | apply ctlOff_kept | apply wrote_kept

theorem lpcdEnable_kept {s t : State} {on} (h : Kept s t) : Kept s (lpcdEnable on t) := h.same rfl rfl rfl rfl

theorem execCtlLpcdEnable_kept {s t : State} {on} (h : Kept s t) : Res.Kept s (execCtlLpcdEnable on t) := by
  unfold execCtlLpcdEnable
  with_reducible repeat' first | exact h | apply Res.Kept.next | apply Res.Kept.ite | apply lpcdEnable_kept | apply wrote_kept

theorem followNeed_kept {s t : State} (h : Kept s t) : Kept s (followNeed t) := by
  unfold followNeed
  with_reducible repeat' first
    | exact h | apply Kept.ite | apply lpcdEnable_kept | apply modCust_kept | apply activate_kept | apply modCrd_kept | apply deactivate_kept

/-! ### Events: The event network's own rows -/

theorem execFaultNotify_kept {s t : State} (h : Kept s t) : Res.Kept s (execFaultNotify t) := by
  unfold execFaultNotify
  with_reducible repeat' first
    | exact h | apply Res.Kept.next | apply Res.Kept.ite | apply Kept.ite | apply buildService_kept | apply sendMsix_kept
    | simp only [Kept.update_iff] | split

theorem execFaultPulseEnd_kept {s t : State} (h : Kept s t) : Res.Kept s (execFaultPulseEnd t) := by
  unfold execFaultPulseEnd
  with_reducible repeat' first | exact h | apply Res.Kept.next | apply Res.Kept.ite | simp only [Kept.update_iff] | split

theorem severityLater_kept {s t : State} {e sev pin} (h : Kept s t) : Kept s (severityLater e sev pin t) := h.same rfl rfl rfl rfl

theorem severityEntry_kept {s t : State} {e v} (h : Kept s t) : Kept s (severityEntry e v t).2 := by
  unfold severityEntry
  with_reducible repeat' first | exact h | apply Kept.ite | apply severityLater_kept | simp only [Kept.update_iff] | split

theorem execSeverityWrite_kept {s t : State} {r value} (h : Kept s t) : Res.Kept s (execSeverityWrite r value t) := by
  unfold execSeverityWrite
  with_reducible repeat' first
    | exact h | assumption | apply Res.Kept.next | apply Res.Kept.ite | apply request_kept | apply writeEntry_kept | apply severityEntry_kept
    | simp only | split | intro _

theorem acknowledge_kept {s t : State} {also} (h : Kept s t) : Kept s (acknowledge also t).2 := by
  unfold acknowledge
  with_reducible repeat' first | exact h | simp only [Kept.update_iff] | split

theorem execFltAckGo_kept {s t : State} {also} (h : Kept s t) : Res.Kept s (execFltAckGo also t) := by
  unfold execFltAckGo
  with_reducible repeat' first | exact h | apply Res.Kept.next | apply Res.Kept.ite | apply acknowledge_kept

theorem takeEvent_kept {s t : State} (h : Kept s t) : Kept s (takeEvent t).2 := by
  unfold takeEvent
  with_reducible repeat' first | exact h | simp only [Kept.update_iff] | split

theorem execFltQRead_kept {s t : State} (h : Kept s t) : Res.Kept s (execFltQRead t) := by
  unfold execFltQRead
  with_reducible repeat' first | exact h | apply Res.Kept.next | apply Res.Kept.ite | apply takeEvent_kept | simp only [Kept.update_iff]

theorem execEventQueueDrain_kept {s t : State} {n} (h : Kept s t) : Res.Kept s (execEventQueueDrain n t) := by
  unfold execEventQueueDrain
  with_reducible repeat' first | exact h | apply Res.Kept.next | apply Res.Kept.ite | apply bumpGen_kept | simp only [Kept.update_iff]

/-! ### Power: Power, resets, operating modes, the boot ROM, and island firmware's work at a start -/

theorem execModeChange_kept {s t : State} (h : Kept s t) : Res.Kept s (execModeChange t) := by
  unfold execModeChange
  with_reducible repeat' first
    | exact h | apply Res.Kept.next | apply Res.Kept.ite | apply Kept.ite | apply modeEvent_kept | apply stopLeaseWork_kept
    | simp only [Kept.update_iff]

theorem execDieTempHigh_kept {s t : State} {high} (h : Kept s t) : Res.Kept s (execDieTempHigh high t) := by
  unfold execDieTempHigh
  with_reducible repeat' first | exact h | apply Res.Kept.next | apply Kept.ite | apply raisePower_kept | simp only [Kept.update_iff]

theorem execClockMonitorFault_kept {s t : State} {d} (h : Kept s t) : Res.Kept s (execClockMonitorFault d t) := by
  unfold execClockMonitorFault
  with_reducible repeat' first | exact h | apply Res.Kept.next | apply Res.Kept.ite | apply raisePower_kept | simp only [Kept.update_iff]

theorem runImage_kept {s t : State} {img} (h : Kept s t) : Kept s (runImage img t) :=
  h.trans { Kept.rfl (s := t) with variant := rfl }

theorem romReset_kept {s t : State} (h : Kept s t) : Kept s (romReset t) := by
  unfold romReset
  with_reducible repeat' first | exact h | apply Kept.ite | apply deviceReset_kept | apply modeEvent_kept | apply resetState_kept

theorem bootRom_kept {s t : State} (h : Kept s t) : Kept s (bootRom t) := by
  unfold bootRom
  with_reducible repeat' first
    | exact h | apply Kept.ite | apply runImage_kept | apply deriveIdentity_kept | apply modCore_kept | apply romReset_kept | apply raiseFlash_kept
    | apply modPfl_kept | refine modLcs_kept ?_ rfl rfl rfl rfl | simp only [Kept.update_iff] | split

theorem seedHistory_kept {s t : State} (h : Kept s t) : Kept s (seedHistory t) := by
  unfold seedHistory
  with_reducible repeat' first | exact h | apply Kept.ite | simp only [Kept.update_iff]

theorem startStores_kept {s t : State} (h : Kept s t) : Kept s (startStores t) := by
  unfold startStores
  with_reducible repeat' first
    | exact h | apply pickManifest_kept | apply modVault_kept | apply wrote_kept | apply scanLedger_kept | apply commitTamper_kept
    | apply moveStaging_kept | apply seedHistory_kept

theorem auxStart_kept {s t : State} (h : Kept s t) : Kept s (auxStart t) := by
  unfold auxStart
  with_reducible repeat' first | exact h | apply Kept.ite | apply startStores_kept | simp only [Kept.update_iff]

theorem execResetWipeEnd_kept {s t : State} (h : Kept s t) : Res.Kept s (execResetWipeEnd t) := by
  unfold execResetWipeEnd
  with_reducible repeat' first | exact h | apply Res.Kept.next | apply Res.Kept.ite | apply auxStart_kept | apply bootRom_kept

theorem mainPowerReset_kept {s t : State} (h : Kept s t) : Kept s (mainPowerReset t) := by
  unfold mainPowerReset
  with_reducible repeat' first | exact h | apply deviceReset_kept | simp only [Kept.update_iff]

theorem powerUp_kept {s t : State} {straps} (h : Kept s t) : Kept s (powerUp straps t) := by
  unfold powerUp
  with_reducible repeat' first
    | exact h | apply Kept.ite | apply mainPowerReset_kept | apply auxStart_kept | apply bootRom_kept | apply modeEvent_kept | apply resetState_kept
    | simp only [Kept.update_iff]

theorem powerDown_kept {s t : State} (h : Kept s t) : Kept s (powerDown t) := by
  unfold powerDown
  with_reducible repeat' first | exact h | apply Kept.ite | apply resetState_kept | apply flashPowerLoss_kept

theorem execMainPowerReset_kept {s t : State} (h : Kept s t) : Res.Kept s (execMainPowerReset t) := by
  unfold execMainPowerReset
  with_reducible repeat' first
    | exact h | apply Res.Kept.next | apply Res.Kept.ite | apply Kept.ite | apply mainPowerReset_kept | simp only [Kept.update_iff]

theorem benchesOff_kept {s t : State} (h : Kept s t) : Kept s (benchesOff t) := by
  unfold benchesOff
  with_reducible repeat' first | exact h | apply modBench_kept | apply forN_kept | simp only [Kept.update_iff] | intro _

theorem execPltPwrokFall_kept {s t : State} (h : Kept s t) : Res.Kept s (execPltPwrokFall t) := by
  unfold execPltPwrokFall
  with_reducible repeat' first
    | exact h | apply Res.Kept.next | apply Res.Kept.ite | apply Kept.ite | apply raisePower_kept | apply auxStart_kept | apply modFlg_kept
    | apply holdPlatform_kept | apply benchesOff_kept | apply stopLeaseWork_kept | simp only [Kept.update_iff]

theorem execSysRstRise_kept {s t : State} {straps} (h : Kept s t) : Res.Kept s (execSysRstRise straps t) := by
  unfold execSysRstRise
  with_reducible repeat' first | exact h | apply Res.Kept.next | apply Res.Kept.ite | apply powerUp_kept | simp only [Kept.update_iff]

theorem execSysRstFall_kept {s t : State} (h : Kept s t) : Res.Kept s (execSysRstFall t) := by
  unfold execSysRstFall
  with_reducible repeat' first | exact h | apply Res.Kept.next | apply Res.Kept.ite | apply powerDown_kept | simp only [Kept.update_iff]

theorem execSupplyMonitorReset_kept {s t : State} {low vio3} (h : Kept s t) : Res.Kept s (execSupplyMonitorReset low vio3 t) := by
  unfold execSupplyMonitorReset
  with_reducible repeat' first
    | exact h | apply Res.Kept.next | apply Res.Kept.ite | apply powerDown_kept | apply powerUp_kept | simp only [Kept.update_iff]

theorem makeBedrock_kept {s t : State} (h : Kept s t) : Kept s (makeBedrock t) := by
  unfold makeBedrock
  with_reducible repeat' first | exact h | apply Kept.ite | apply drawIsland_kept | apply scrubStore_kept | apply modVault_kept

theorem loadEntries_kept {s t : State} (h : Kept s t) : Kept s (loadEntries t) := by
  unfold loadEntries
  with_reducible repeat' first | exact h | apply wrote_kept | simp only [Kept.update_iff]

theorem loadPlans_kept {s t : State} (h : Kept s t) : Kept s (loadPlans t) := by
  unfold loadPlans
  with_reducible repeat' first | exact h | apply dspGo_kept | simp only [Kept.update_iff]

theorem drawChallenges_kept {s t : State} (h : Kept s t) : Kept s (drawChallenges t) := by
  unfold drawChallenges
  with_reducible repeat' first | exact h | apply drawDue_kept | apply modVault_kept | apply modGal_kept

theorem firstPass_kept {s t : State} {ok} (h : Kept s t) : Kept s (firstPass ok t) := by
  unfold firstPass
  with_reducible repeat' first | exact h | apply Kept.ite | apply modFlg_kept | apply startPass_kept

theorem islandStart_kept {s t : State} (h : Kept s t) : Kept s (islandStart t) := by
  unfold islandStart
  with_reducible repeat' first
    | exact h | apply Kept.ite | apply startStores_kept | apply modVault_kept | apply completeTransition_kept | apply raiseIsland_kept
    | apply makeBedrock_kept | apply restoreStore_kept | apply commitYard_kept | apply deriveRoot_kept | apply scanJournal_kept
    | apply startProgram_kept | apply drawChallenges_kept | apply loadPlans_kept | apply loadEntries_kept | apply firstPass_kept
    | apply buildService_kept | apply forN_kept | simp only [Kept.update_iff] | split | intro _

theorem execIslandStart_kept {s t : State} (h : Kept s t) : Res.Kept s (execIslandStart t) := by
  unfold execIslandStart
  with_reducible repeat' first | exact h | apply Res.Kept.next | apply Res.Kept.ite | apply islandStart_kept | apply auxStart_kept

/-! ### Spdm: The SPDM responder and IDE_KM -/

theorem spdmAt_kept {s t : State} {c phase f} (hf : ∀ v0 u, Kept s u → Kept s (f v0 u)) (h : Kept s t) : Res.Kept s (spdmAt c phase f t) := by
  unfold spdmAt
  with_reducible repeat' first | exact h | apply Res.Kept.next | apply Res.Kept.ite | apply spdmError_kept | apply hf

theorem execSpdmGetVersion_kept {s t : State} {c} (h : Kept s t) : Res.Kept s (execSpdmGetVersion c t) := by
  unfold execSpdmGetVersion
  with_reducible repeat' first | exact h | assumption | apply spdmAt_kept | apply spdmSend_kept | apply setConn_kept | intro _

theorem execSpdmGetCapabilities_kept {s t : State} {c ver} (h : Kept s t) : Res.Kept s (execSpdmGetCapabilities c ver t) := by
  unfold execSpdmGetCapabilities
  with_reducible repeat' first
    | exact h | assumption | apply spdmAt_kept | apply spdmError_kept | apply setConn_kept | apply spdmSend_kept | simp only [Kept.update_iff]
    | split | intro _

theorem execSpdmNegotiateAlgorithms_kept {s t : State} {c ed p384 offer} (h : Kept s t) :
    Res.Kept s (execSpdmNegotiateAlgorithms c ed p384 offer t) := by
  unfold execSpdmNegotiateAlgorithms
  with_reducible repeat' first
    | exact h | assumption | apply spdmAt_kept | apply spdmError_kept | apply spdmSend_kept | apply setConn_kept | simp only
    | split | intro _

theorem execSpdmGetDigests_kept {s t : State} {c} (h : Kept s t) : Res.Kept s (execSpdmGetDigests c t) := by
  unfold execSpdmGetDigests
  with_reducible repeat' first | exact h | apply spdmAt_kept | apply spdmSend_kept | intro _

theorem execSpdmGetCertificate_kept {s t : State} {c slot off len} (h : Kept s t) : Res.Kept s (execSpdmGetCertificate c slot off len t) := by
  unfold execSpdmGetCertificate
  with_reducible repeat' first
    | exact h | apply spdmAt_kept | apply spdmError_kept | apply spdmSend_kept | simp only | split | intro _

theorem spdmSigned_kept {s t : State} {c code p1 sess session failed transcript body} (h : Kept s t) :
    Kept s (spdmSigned c code p1 sess session failed transcript body t) := by
  unfold spdmSigned
  with_reducible repeat' first | exact h | apply drawIsland_kept | simp only [Kept.update_iff]

theorem execSpdmChallenge_kept {s t : State} {c slot transcript failed} (h : Kept s t) :
    Res.Kept s (execSpdmChallenge c slot transcript failed t) := by
  unfold execSpdmChallenge
  with_reducible repeat' first
    | exact h | assumption | apply spdmAt_kept | apply spdmError_kept | apply drawIsland_kept | apply spdmSigned_kept | simp only
    | split | intro _

theorem execSpdmGetMeasurements_kept {s t : State} {c index sign sess transcript failed} (h : Kept s t) :
    Res.Kept s (execSpdmGetMeasurements c index sign sess transcript failed t) := by
  unfold execSpdmGetMeasurements
  with_reducible repeat' first
    | exact h | assumption | apply spdmAt_kept | apply spdmError_kept | apply spdmSend_kept | apply drawIsland_kept | apply spdmSigned_kept
    | simp only | split | intro _

theorem execSpdmKeyExchange_kept {s t : State} {c exchange transcript failed} (h : Kept s t) :
    Res.Kept s (execSpdmKeyExchange c exchange transcript failed t) := by
  unfold execSpdmKeyExchange
  with_reducible repeat' first
    | exact h | assumption | apply spdmAt_kept | apply spdmError_kept | apply drawIsland_kept | apply spdmSigned_kept | simp only
    | split | intro _

theorem inSession_kept {s t : State} {c i est f} (hf : ∀ v0 u, Kept s u → Kept s (f v0 u)) (h : Kept s t) : Res.Kept s (inSession c i est f t) := by
  unfold inSession
  with_reducible repeat' first
    | exact h | apply Res.Kept.next | apply Res.Kept.ite | apply spdmAt_kept | apply spdmError_kept | apply hf | split | intro _

theorem setSessions_kept {s t : State} {f} (h : Kept s t) : Kept s (setSessions f t) := h.same rfl rfl rfl rfl

theorem execSpdmFinish_kept {s t : State} {c i good} (h : Kept s t) : Res.Kept s (execSpdmFinish c i good t) := by
  unfold execSpdmFinish
  with_reducible repeat' first
    | exact h | assumption | apply inSession_kept | apply spdmSend_kept | apply setSessions_kept | apply spdmError_kept | split | intro _

theorem execSpdmHeartbeat_kept {s t : State} {c i} (h : Kept s t) : Res.Kept s (execSpdmHeartbeat c i t) := by
  unfold execSpdmHeartbeat
  with_reducible repeat' first | exact h | apply inSession_kept | apply spdmSend_kept | intro _

theorem execSpdmKeyUpdate_kept {s t : State} {c i op tag} (h : Kept s t) : Res.Kept s (execSpdmKeyUpdate c i op tag t) := by
  unfold execSpdmKeyUpdate
  with_reducible repeat' first
    | exact h | assumption | apply inSession_kept | apply spdmError_kept | apply setSessions_kept | apply spdmSend_kept
    | simp only | split | intro _

theorem execSpdmEndSession_kept {s t : State} {c i} (h : Kept s t) : Res.Kept s (execSpdmEndSession c i t) := by
  unfold execSpdmEndSession
  with_reducible repeat' first | exact h | assumption | apply inSession_kept | apply spdmSend_kept | apply setSessions_kept | intro _

theorem execSpdmVendorDefinedRequest_kept {s t : State} {c sess payload} (h : Kept s t) :
    Res.Kept s (execSpdmVendorDefinedRequest c sess payload t) := by
  unfold execSpdmVendorDefinedRequest
  with_reducible repeat' first
    | exact h | apply Res.Kept.next | apply Res.Kept.ite | apply spdmAt_kept | apply spdmError_kept | apply spdmSend_kept
    | simp only | split | intro _

theorem execIdeKmKeyProg_kept {s t : State} {i keys} (h : Kept s t) : Res.Kept s (execIdeKmKeyProg i keys t) := by
  unfold execIdeKmKeyProg
  with_reducible repeat' first
    | exact h | assumption | apply Res.Kept.next | apply Res.Kept.ite | apply inSession_kept | apply spdmSend_kept | simp only [Kept.update_iff]
    | intro _

/-! ### Dict: The object dictionary -/

theorem execHello_kept {s t : State} {r offers} (h : Kept s t) : Res.Kept s (execHello r offers t) := by
  unfold execHello
  with_reducible repeat' first
    | exact h | apply Res.Kept.next | apply Res.Kept.ite | apply Kept.ite | apply pickBus_kept | apply respond_kept | apply outstanding_kept
    | apply discardEp_kept | apply countReq_kept | apply setEp_kept

theorem execRead_kept {s t : State} {r} (h : Kept s t) : Res.Kept s (execRead r t) := by
  unfold execRead
  with_reducible repeat' first | exact h | assumption | apply Res.Kept.next | apply request_kept | simp only | split | intro _

theorem execInfo_kept {s t : State} {r} (h : Kept s t) : Res.Kept s (execInfo r t) := by
  unfold execInfo
  with_reducible repeat' first | exact h | assumption | apply Res.Kept.next | apply request_kept | simp only | split | intro _

theorem execEnum_kept {s t : State} {r first count} (h : Kept s t) : Res.Kept s (execEnum r first count t) := by
  unfold execEnum
  with_reducible repeat' first | exact h | assumption | apply Res.Kept.next | apply request_kept | simp only | split | intro _

theorem exportTick_kept {s t : State} (h : Kept s t) : Kept s (exportTick t) := by
  unfold exportTick
  with_reducible repeat' first | exact h | apply Kept.ite | apply signStep_kept | apply beginSign_kept | simp only [Kept.update_iff] | split

theorem execSegRead_kept {s t : State} {r off len gen} (h : Kept s t) : Res.Kept s (execSegRead r off len gen t) := by
  unfold execSegRead
  with_reducible repeat' first | exact h | assumption | apply Res.Kept.next | apply request_kept | simp only [Kept.update_iff] | split | intro _

theorem execSegWriteStart_kept {s t : State} {r total} (h : Kept s t) : Res.Kept s (execSegWriteStart r total t) := by
  unfold execSegWriteStart
  with_reducible repeat' first
    | exact h | assumption | apply Res.Kept.next | apply request_kept | apply refuseRole_kept | apply updateStart_kept | apply setSession_kept
    | simp only | split | intro _

theorem onSession_kept {s t : State} {r f} (hf : ∀ v0 u, Kept s u → Kept s (f v0 u).2.2) (h : Kept s t) : Kept s (onSession r f t).2.2 := by
  unfold onSession
  with_reducible repeat' first | exact h | apply hf | split

theorem execSegWrite_kept {s t : State} {r off d} (h : Kept s t) : Res.Kept s (execSegWrite r off d t) := by
  unfold execSegWrite
  with_reducible repeat' first
    | exact h | assumption | apply Res.Kept.next | apply request_kept | apply onSession_kept | apply updateData_kept | apply setSession_kept
    | simp only | split | intro _

theorem execSegAbort_kept {s t : State} {r} (h : Kept s t) : Res.Kept s (execSegAbort r t) := by
  unfold execSegAbort
  with_reducible repeat' first
    | exact h | apply Res.Kept.next | apply request_kept | apply onSession_kept | apply dropSession_kept | simp only | intro _

theorem execSegSessionTimeout_kept {s t : State} {ep} (h : Kept s t) : Res.Kept s (execSegSessionTimeout ep t) := by
  unfold execSegSessionTimeout
  with_reducible repeat' first | exact h | apply Res.Kept.next | apply Res.Kept.ite | apply dropSession_kept | split

theorem planWrite_kept {s t : State} {index b d} (h : Kept s t) : Kept s (planWrite index b d t).2 := by
  unfold planWrite
  with_reducible repeat' first | exact h | apply bumpGen_kept | simp only [Kept.update_iff] | split

theorem execSlotPlanWrite_kept {s t : State} {r d} (h : Kept s t) : Res.Kept s (execSlotPlanWrite r d t) := by
  unfold execSlotPlanWrite
  with_reducible repeat' first
    | exact h | assumption | apply Res.Kept.next | apply Res.Kept.ite | apply writeEntry_kept | apply planWrite_kept | apply endObject_kept
    | simp only | simp only [id_eq] | split | intro _

theorem execDictApply_kept {s t : State} {r value} (h : Kept s t) : Res.Kept s (execDictApply r value t) := by
  unfold execDictApply
  with_reducible repeat' first
    | exact h | assumption | apply Res.Kept.next | apply Res.Kept.ite | apply writeEntry_kept | apply onTrue_kept | apply loadPlans_kept
    | simp only [Kept.update_iff] | split | intro _

theorem abortCmd_kept {s t : State} {h'} (h : Kept s t) : Kept s (abortCmd h' t) := by
  unfold abortCmd
  with_reducible repeat' first
    | exact h | apply Kept.ite | apply passHead_kept | apply endCmd_kept | apply setCmd_kept | simp only | split

theorem releaseLease_kept {s t : State} {k value} (h : Kept s t) : Kept s (releaseLease k value t).2 := by
  unfold releaseLease
  with_reducible repeat' first
    | exact h | assumption | apply quarantineLease_kept | apply onTrue_kept | apply abortCmd_kept | apply modLease_kept | apply setCore_kept
    | apply sendQev_kept | apply forEach_kept | simp only | split | intro _

theorem execLeaseRelease_kept {s t : State} {r value} (h : Kept s t) : Res.Kept s (execLeaseRelease r value t) := by
  unfold execLeaseRelease
  with_reducible repeat' first
    | exact h | apply Res.Kept.next | apply Res.Kept.ite | apply writeEntry_kept | apply releaseLease_kept | split | intro _

theorem quotaWrite_kept {s t : State} {k v} (h : Kept s t) : Kept s (quotaWrite k v t).2 := by
  unfold quotaWrite
  with_reducible repeat' first | exact h | apply refreshQueues_kept | apply modLease_kept | split

theorem execStagingQuotaWrite_kept {s t : State} {r value} (h : Kept s t) : Res.Kept s (execStagingQuotaWrite r value t) := by
  unfold execStagingQuotaWrite
  with_reducible repeat' first | exact h | apply Res.Kept.next | apply Res.Kept.ite | apply writeEntry_kept | apply quotaWrite_kept | split | intro _

theorem boolWrite_kept {s t : State} {v f} (hf : ∀ v0 u, Kept s u → Kept s (f v0 u)) (h : Kept s t) : Kept s (boolWrite v f t).2 := by
  unfold boolWrite
  with_reducible repeat' first | exact h | apply hf | split

theorem routeWrite_kept {s t : State} {sub v} (h : Kept s t) : Kept s (routeWrite sub v t).2 := by
  unfold routeWrite
  with_reducible repeat' first | exact h | assumption | apply boolWrite_kept | simp only [Kept.update_iff] | split | intro _

theorem grantParam_kept {s t : State} {k sub v} (h : Kept s t) : Kept s (grantParam k sub v t).2 := by
  unfold grantParam
  with_reducible repeat' first | exact h | apply modLease_kept | split

theorem plainWrite_kept {s t : State} {index sub v} (h : Kept s t) : ∀ a u, plainWrite index sub v t = some (a, u) → Kept s u := by
  unfold plainWrite
  refine .some_ite (.some_ite (.of_some h) (.some_ite (.of_some h) (.of_some ?_))) (.some_ite ?_ (.some_ite (.of_some (acknowledge_kept h))
    (.some_ite (.of_some (boolWrite_kept (fun b u hu => Kept.update_iff.2 hu) h)) (.some_ite (.of_some (routeWrite_kept h)) (.some_ite (.of_some ?_) ?_)))))
  · exact h.same rfl rfl rfl rfl
  · exact .some_ite (.of_some (Kept.update_iff.2 h)) (.of_some h)
  · exact Kept.update_iff.2 h
  · split
    · exact .some_ite (.of_some (grantParam_kept h)) .of_none
    · exact .of_none

theorem entryRow_kept {s t : State} {r value} (h : Kept s t) : Res.Kept s (entryRow r value t) := by
  unfold entryRow
  with_reducible repeat' first
    | exact h | apply Res.Kept.next | apply Res.Kept.ite | apply execRtcWrite_kept | apply execSlotPlanWrite_kept | apply execDictApply_kept
    | apply execCeremonyStart_kept | apply execCeremonyClose_kept | apply execOperatorRelease_kept | apply execRecoveryRequest_kept
    | apply execPortBOwnerWrite_kept | apply execRecordSelectorWrite_kept | apply execAckseqWrite_kept | apply execTamperResponseWrite_kept
    | apply execTamperWindowWrite_kept | apply execOfficerUnlockStart_kept | apply execSeverityWrite_kept | apply execOfficerQuorumWrite_kept
    | apply execTagPasswordWrite_kept | apply execAttemptsReset_kept | apply execTokenWrite_kept | apply execGalleryConsentWrite_kept
    | apply execLeaseRelease_kept | apply execStagingQuotaWrite_kept | apply execYardRangeWrite_kept | apply execQuorumWrite_kept
    | apply execGrantStart_kept | apply execGrantRevoke_kept | apply execLeaseScrub_kept | apply execProgramKeyWrite_kept
    | apply execProgramMinsvnWrite_kept

theorem execWrite_kept {s t : State} {r value} (h : Kept s t) : Res.Kept s (execWrite r value t) := by
  unfold execWrite
  extract_lets plain
  refine .ite (entryRow_kept h) (.next (request_kept (fun u hu => ?_) h))
  split
  · exact hu
  split
  · exact hu
  split
  · exact hu
  split
  · exact officerAction_kept (plainWrite_kept hu _ _ ‹_›)
  · exact hu

theorem applyObject_kept {s t : State} {r d fresh stored} (h : Kept s t) : Kept s (applyObject r d fresh stored t).2 := by
  unfold applyObject
  with_reducible repeat' first
    | exact h | apply updateEnd_kept | apply programLoad_kept | apply galleryCert_kept | apply installManifest_kept | apply unlockRequest_kept
    | apply lifecycleRequest_kept | apply planWrite_kept | apply identityWrite_kept | simp only | split

theorem execSegWriteEnd_kept {s t : State} {r fresh stored} (h : Kept s t) : Res.Kept s (execSegWriteEnd r fresh stored t) := by
  unfold execSegWriteEnd
  with_reducible repeat' first
    | exact h | assumption | apply Res.Kept.next | apply Res.Kept.ite | apply request_kept | apply onSession_kept | apply updateEnd_kept
    | apply setSession_kept | apply applyObject_kept | simp only | split | intro _

theorem mctp_kept {s t : State} {b} (h : Kept s t) : Kept s (mctp b t) := h.same rfl rfl rfl rfl

theorem execSetEndpointId_kept {s t : State} {ep eid} (h : Kept s t) : Res.Kept s (execSetEndpointId ep eid t) := by
  unfold execSetEndpointId
  with_reducible repeat' first | exact h | apply Res.Kept.next | apply Res.Kept.ite | apply discardEp_kept | apply mctp_kept | apply setEp_kept

theorem execGetEndpointId_kept {s t : State} {ep} (h : Kept s t) : Res.Kept s (execGetEndpointId ep t) := by
  unfold execGetEndpointId
  with_reducible repeat' first | exact h | apply Res.Kept.next | apply Res.Kept.ite | apply mctp_kept

theorem execGetMctpVersionSupport_kept {s t : State} {ep} (h : Kept s t) : Res.Kept s (execGetMctpVersionSupport ep t) := by
  unfold execGetMctpVersionSupport
  with_reducible repeat' first | exact h | apply Res.Kept.next | apply Res.Kept.ite | apply mctp_kept

theorem execGetMessageTypeSupport_kept {s t : State} {ep} (h : Kept s t) : Res.Kept s (execGetMessageTypeSupport ep t) := by
  unfold execGetMessageTypeSupport
  with_reducible repeat' first | exact h | apply Res.Kept.next | apply Res.Kept.ite | apply mctp_kept

theorem execGetVendorDefinedMsgSupport_kept {s t : State} {ep} (h : Kept s t) : Res.Kept s (execGetVendorDefinedMsgSupport ep t) := by
  unfold execGetVendorDefinedMsgSupport
  with_reducible repeat' first | exact h | apply Res.Kept.next | apply Res.Kept.ite | apply mctp_kept

/-! ### Clock: The end of a tick and the beginning of the next one -/

theorem holdChecks_kept {s t : State} (h : Kept s t) : Kept s (holdChecks t) := by
  unfold holdChecks
  with_reducible repeat' first | exact h | apply Kept.ite | simp only [Kept.update_iff]

theorem endWork_kept {s t : State} {ecc} (h : Kept s t) : Kept s (endWork ecc t) := by
  unfold endWork
  with_reducible repeat' first
    | exact h | apply settleErased_kept | apply eccOne_kept | apply runFirsts_kept | apply commitYard_kept | apply closeJobs_kept
    | apply pauseDue_kept | apply holdChecks_kept | apply forN_kept | apply forEach_kept | intro _

theorem endIsland_kept {s t : State} (h : Kept s t) : Kept s (endIsland t) := by
  unfold endIsland
  with_reducible repeat' first
    | exact h | apply commitTamper_kept | apply commitManifest_kept | apply signingTick_kept | apply rngTick_kept | apply flashTick_kept
    | apply followNeed_kept | apply setRtc_kept | apply drawDue_kept | apply updateTick_kept | apply exportTick_kept | apply summaryTick_kept
    | apply journalTick_kept

theorem endTick_kept {s t : State} {ecc} (h : Kept s t) : Kept s (endTick ecc t) := by
  unfold endTick
  with_reducible repeat' first
    | exact h | apply endIsland_kept | apply raisePower_kept | apply endWork_kept | apply markBusy_kept | apply commitSeverities_kept
    | apply closeRecord_kept | apply forN_kept | apply forEach_kept | simp only [Kept.update_iff] | intro _

theorem beginTick_kept {s t : State} (h : Kept s t) : Kept s (beginTick t) := by
  unfold beginTick
  with_reducible repeat' first
    | exact h | apply Kept.ite | apply passTime_kept | apply testSources_kept | apply openReleased_kept | apply duePass_kept | apply frameStart_kept
    | apply callTick_kept | apply enginesTick_kept | simp only [Kept.update_iff] | apply Kept.foldl | intro _

theorem execTick_kept {s t : State} {ecc} (h : Kept s t) : Res.Kept s (execTick ecc t) := by
  unfold execTick
  with_reducible repeat' first | exact h | apply Res.Kept.next | apply Res.Kept.ite | apply beginTick_kept | apply endTick_kept

/-! ### Jobs: What the job ports of all engines share -/

theorem jobEvent_kept {s t : State} {q k st} (h : Kept s t) : Kept s (jobEvent q k st t) := by
  unfold jobEvent
  with_reducible repeat' first | exact h | apply Kept.ite | apply engineEvent_kept

theorem failJob_kept {s t : State} {q k st} (h : Kept s t) : Kept s (failJob q k st t) := by
  unfold failJob
  with_reducible repeat' first | exact h | apply endJob_kept | apply jobEvent_kept

theorem submitJob_kept {s t : State} {q k count} (h : Kept s t) : Kept s (submitJob q k count t) := by
  unfold submitJob
  with_reducible repeat' first | exact h | apply Kept.ite | apply jobEvent_kept | apply setJob_kept | apply engineEvent_kept | apply wakeReq_kept

theorem goFrom_kept {s t : State} {c e count} (h : Kept s t) : Res.Kept s (goFrom c e count t) := by
  unfold goFrom
  with_reducible repeat' first | exact h | apply Res.Kept.next | apply submitJob_kept | split

theorem nextRequest_kept {s t : State} {q k j} (h : Kept s t) : Kept s (nextRequest q k j t) := by
  unfold nextRequest
  with_reducible repeat' first | exact h | apply Kept.ite | apply releaseSlots_kept | apply setJob_kept | apply endJob_kept

theorem stopRequest_kept {s t : State} {q k st j} (h : Kept s t) : Kept s (stopRequest q k st j t) := by
  unfold stopRequest
  with_reducible repeat' first | exact h | apply failJob_kept | apply setJob_kept

theorem jobWrite_kept {s t : State} {a b j} (h : Kept s t) : Kept s (jobWrite a b j t).2 := by
  unfold jobWrite
  with_reducible repeat' first | exact h | apply ramWrite_kept

theorem wholeTicks_kept {s t : State} {q k size is start each fin} (hstart : ∀ v0 v1 u, Kept s u → Kept s (start v0 v1 u).2) (heach : ∀ v0 v1 v2 u, Kept s u → Kept s (each v0 v1 v2 u).2) (hfin : ∀ v0 v1 u, Kept s u → Kept s (fin v0 v1 u).2.2) (h : Kept s t) :
    Kept s (wholeTicks q k size is start each fin t) := by
  unfold wholeTicks
  extract_lets u
  have hu : Kept s u := runFirsts_kept h
  split
  · exact hu
  split
  · exact setJob_kept hu
  extract_lets begun
  have hb : Kept s begun.2 := by
    dsimp only [begun]
    split
    · exact hu
    · split
      next e => exact Kept.of_snd (hstart _ _ _ hu) e
      next e => exact Kept.of_snd (hstart _ _ _ hu) e
  clear_value begun
  split
  · exact stopRequest_kept hb
  split
  next e2 =>
  have he2 := Kept.of_snd (heach _ _ _ _ hb) e2
  split
  · exact setJob_kept he2
  split
  next e3 =>
  have he3 := Kept.of_last (hfin _ _ _ he2) e3
  split
  · exact nextRequest_kept he3
  · exact stopRequest_kept he3

theorem requestClear_kept {s t : State} {q k} (h : Kept s t) : Kept s (requestClear q k t) := by
  unfold requestClear
  with_reducible repeat' first | exact h | apply Kept.ite | apply modEngine_kept

theorem execCutCtlClr_kept {s t : State} {q k} (h : Kept s t) : Res.Kept s (execCutCtlClr q k t) := by
  unfold execCutCtlClr
  with_reducible repeat' first | exact h | apply Res.Kept.next | apply Res.Kept.ite | apply requestClear_kept | apply wrote_kept

theorem execSplCtlClr_kept {s t : State} {q k} (h : Kept s t) : Res.Kept s (execSplCtlClr q k t) := by
  unfold execSplCtlClr
  with_reducible repeat' first | exact h | apply Res.Kept.next | apply Res.Kept.ite | apply requestClear_kept | apply wrote_kept

theorem execWdgCtlClr_kept {s t : State} {q k} (h : Kept s t) : Res.Kept s (execWdgCtlClr q k t) := by
  unfold execWdgCtlClr
  with_reducible repeat' first | exact h | apply Res.Kept.next | apply Res.Kept.ite | apply requestClear_kept | apply wrote_kept

theorem execDigCtlClr_kept {s t : State} {q k} (h : Kept s t) : Res.Kept s (execDigCtlClr q k t) := by
  unfold execDigCtlClr
  with_reducible repeat' first | exact h | apply Res.Kept.next | apply Res.Kept.ite | apply requestClear_kept | apply wrote_kept

theorem clearNow_kept {s t : State} {q k} (h : Kept s t) : Kept s (clearNow q k t) := by
  unfold clearNow
  with_reducible repeat' first
    | exact h | apply Kept.ite | apply stopJob_kept | apply clearRecord_kept | apply dropHeld_kept | apply modEngine_kept | apply clearContexts_kept
    | simp only [Kept.update_iff]

theorem execEngineRecordClear_kept {s t : State} {q} (h : Kept s t) : Res.Kept s (execEngineRecordClear q t) := by
  unfold execEngineRecordClear
  with_reducible repeat' first | exact h | apply Res.Kept.next | apply clearNow_kept | apply Kept.foldl | intro _

/-! ### Cutter: Cutter job steps -/

theorem cutRow_kept {s t : State} {op q k f} (hf : ∀ v0 v1 u, Kept s u → Kept s (f v0 v1 u)) (h : Kept s t) : Kept s (cutRow op q k f t) := by
  unfold cutRow
  with_reducible repeat' first
    | exact h | apply Kept.ite | apply runFirsts_kept | apply stopRequest_kept | apply hf | simp only | split

theorem applyStep_kept {s : State} {q k : Nat} {j : Job} {x : Step16} {r : StepRes} (h : StepRes.Kept s r) : Kept s (applyStep q k j x r) := by
  cases r with
  | cell c t => exact nextRequest_kept h
  | done j t => exact nextRequest_kept h
  | fail st t => exact stopRequest_kept ((faultCheck_kept h).ite h)

theorem shortStep_kept {s t : State} {op q k fc f} (hf : ∀ v0 v1 u, Kept s u → StepRes.Kept s (f v0 v1 u)) (h : Kept s t) :
    Kept s (shortStep op q k fc f t) := by
  unfold shortStep
  with_reducible repeat' first
    | exact h | assumption | apply cutRow_kept | apply setJob_kept | apply applyStep_kept | apply hf | simp only | split | intro _

theorem longStep_kept {s t : State} {op q k start f} (hf : ∀ v0 v1 u, Kept s u → StepRes.Kept s (f v0 v1 u)) (h : Kept s t) :
    Kept s (longStep op q k start f t) := by
  unfold longStep
  refine cutRow_kept (fun j x u hu => ?_) h
  split
  extract_lets begun
  have hb : ∀ a, begun = some a → Kept s a.2 := by
    intro a ha
    dsimp only [begun] at ha
    split at ha
    · cases ha
      exact hu
    · split at ha
      · cases ha
        exact hu
      · obtain ⟨r, hr, rfl⟩ := Option.map_eq_some_iff.1 ha
        exact draw_kept hu _ _ hr
  clear_value begun
  split
  · exact stopRequest_kept hu
  extract_lets l n j
  have := hb _ rfl
  split
  · exact setJob_kept this
  · exact applyStep_kept (hf _ _ _ this)

theorem execCutLoad_kept {s t : State} {q k} (h : Kept s t) : Res.Kept s (execCutLoad q k t) := by
  unfold execCutLoad
  with_reducible repeat' first
    | exact h | apply Res.Kept.next | apply StepRes.Kept.cell | apply StepRes.Kept.fail | apply shortStep_kept | simp only | split
    | intro _

theorem execCutStore_kept {s t : State} {q k} (h : Kept s t) : Res.Kept s (execCutStore q k t) := by
  unfold execCutStore
  with_reducible repeat' first
    | exact h | assumption | apply Res.Kept.next | apply StepRes.Kept.done | apply StepRes.Kept.fail | apply shortStep_kept | apply jobWrite_kept
    | simp only | split | intro _

theorem execYload_kept {s t : State} {q k} (h : Kept s t) : Res.Kept s (execYload q k t) := by
  unfold execYload
  with_reducible repeat' first
    | exact h | assumption | apply Res.Kept.next | apply StepRes.Kept.cell | apply StepRes.Kept.fail | apply shortStep_kept | apply countUse_kept
    | simp only | split | intro _

theorem ystore_kept {s t : State} {k j x} (h : Kept s t) : StepRes.Kept s (ystore k j x t) := by
  unfold ystore
  with_reducible repeat' first
    | exact h | apply StepRes.Kept.ite | apply StepRes.Kept.done | apply StepRes.Kept.fail | apply writeKey_kept | simp only
    | split

theorem execYstore_kept {s t : State} {q k} (h : Kept s t) : Res.Kept s (execYstore q k t) := by
  unfold execYstore
  with_reducible repeat' first | exact h | apply Res.Kept.next | apply shortStep_kept | apply ystore_kept | intro _

theorem modStep_kept {s t : State} {j x f} (h : Kept s t) : StepRes.Kept s (modStep j x f t) := by
  unfold modStep
  with_reducible repeat' first | exact h | apply StepRes.Kept.ite | apply StepRes.Kept.cell | apply StepRes.Kept.fail

theorem execMadd_kept {s t : State} {q k} (h : Kept s t) : Res.Kept s (execMadd q k t) := by
  unfold execMadd
  with_reducible repeat' first | exact h | apply Res.Kept.next | apply shortStep_kept | apply modStep_kept | intro _

theorem execMsub_kept {s t : State} {q k} (h : Kept s t) : Res.Kept s (execMsub q k t) := by
  unfold execMsub
  with_reducible repeat' first | exact h | apply Res.Kept.next | apply shortStep_kept | apply modStep_kept | intro _

theorem execMmul_kept {s t : State} {q k} (h : Kept s t) : Res.Kept s (execMmul q k t) := by
  unfold execMmul
  with_reducible repeat' first | exact h | apply Res.Kept.next | apply shortStep_kept | apply modStep_kept | intro _

theorem execMprep_kept {s t : State} {q k} (h : Kept s t) : Res.Kept s (execMprep q k t) := by
  unfold execMprep
  with_reducible repeat' first
    | exact h | apply Res.Kept.next | apply StepRes.Kept.cell | apply StepRes.Kept.fail | apply longStep_kept | simp only | split
    | intro _

theorem execMinv_kept {s t : State} {q k} (h : Kept s t) : Res.Kept s (execMinv q k t) := by
  unfold execMinv
  with_reducible repeat' first
    | exact h | apply Res.Kept.next | apply StepRes.Kept.cell | apply StepRes.Kept.fail | apply longStep_kept | simp only | split
    | intro _

theorem mexp_kept {s t : State} {j x} (h : Kept s t) : StepRes.Kept s (mexp j x t) := by
  unfold mexp
  with_reducible repeat' first | exact h | apply StepRes.Kept.ite | apply StepRes.Kept.cell | apply StepRes.Kept.fail

theorem execMexp_kept {s t : State} {q k} (h : Kept s t) : Res.Kept s (execMexp q k t) := by
  unfold execMexp
  with_reducible repeat' first | exact h | apply Res.Kept.next | apply longStep_kept | apply mexp_kept | intro _

theorem execPmul_kept {s t : State} {q k} (h : Kept s t) : Res.Kept s (execPmul q k t) := by
  unfold execPmul
  with_reducible repeat' first
    | exact h | apply Res.Kept.next | apply StepRes.Kept.cell | apply StepRes.Kept.fail | apply longStep_kept | simp only | split
    | intro _

theorem execCutPadd_kept {s t : State} {q k} (h : Kept s t) : Res.Kept s (execCutPadd q k t) := by
  unfold execCutPadd
  with_reducible repeat' first
    | exact h | apply Res.Kept.next | apply StepRes.Kept.cell | apply shortStep_kept | simp only | intro _

theorem execReleasePub_kept {s t : State} {q k} (h : Kept s t) : Res.Kept s (execReleasePub q k t) := by
  unfold execReleasePub
  with_reducible repeat' first
    | exact h | apply Res.Kept.next | apply StepRes.Kept.cell | apply StepRes.Kept.fail | apply longStep_kept | simp only | split
    | intro _

theorem execReleasePt_kept {s t : State} {q k} (h : Kept s t) : Res.Kept s (execReleasePt q k t) := by
  unfold execReleasePt
  with_reducible repeat' first
    | exact h | apply Res.Kept.next | apply StepRes.Kept.cell | apply StepRes.Kept.fail | apply shortStep_kept | simp only | split
    | intro _

theorem nativeOp_kept {s t : State} {op x1 x2} (h : Kept s t) : Kept s (nativeOp op x1 x2 t).2.2 := by
  unfold nativeOp
  with_reducible repeat' first | exact h | apply fRsaPriv_kept | apply fEdSign_kept | apply fEcdsaSign_kept | split

theorem nativeStart_kept {s t : State} {q k j x} (h : Kept s t) : Kept s (nativeStart q k j x t).2 := by
  unfold nativeStart
  extract_lets r c
  split
  next e =>
  have checked := Kept.of_mid (r98_kept h) e
  extract_lets y st typed total
  split
  · exact checked
  split
  · exact checked
  · exact draw_kept checked _ _ ‹_›

theorem execCutNative_kept {s t : State} {q k bad} (h : Kept s t) : Res.Kept s (execCutNative q k bad t) := by
  unfold execCutNative
  with_reducible repeat' first
    | exact h | assumption | apply Res.Kept.next | apply StepRes.Kept.cell | apply StepRes.Kept.fail | apply cutRow_kept | apply stopRequest_kept
    | apply setJob_kept | apply applyStep_kept | apply nativeOp_kept | simp only
    | refine Kept.of_snd (nativeStart_kept ?_) (by assumption) | split | intro _

theorem execCutJctlGo_kept {s t : State} {core odd count} (h : Kept s t) : Res.Kept s (execCutJctlGo core odd count t) := by
  unfold execCutJctlGo
  with_reducible repeat' first | exact h | apply Res.Kept.ite | apply goFrom_kept

/-! ### Random: The random chain -/

theorem execRngWarmupEnd_kept {s t : State} {katOk} (h : Kept s t) : Res.Kept s (execRngWarmupEnd katOk t) := by
  unfold execRngWarmupEnd
  with_reducible repeat' first
    | exact h | apply Res.Kept.next | apply Res.Kept.ite | apply startTest_kept | apply raiseRandom_kept | simp only [Kept.update_iff]

theorem conditioned_kept {s t : State} (h : Kept s t) : Kept s (conditioned t).2 := useFree_kept h

theorem newSeed_kept {s t : State} (h : Kept s t) : Kept s (newSeed t) := by
  unfold newSeed
  with_reducible repeat' first | exact h | apply conditioned_kept | apply giveSeed_kept | simp only [Kept.update_iff] | split

theorem execRngTestEnd_kept {s t : State} (h : Kept s t) : Res.Kept s (execRngTestEnd t) := by
  unfold execRngTestEnd
  with_reducible repeat' first
    | exact h | apply Res.Kept.next | apply Res.Kept.ite | apply raiseRandom_kept | apply failChain_kept | apply newSeed_kept | apply forN_kept
    | apply forEach_kept | simp only [Kept.update_iff] | intro _

theorem execRngReady_kept {s t : State} (h : Kept s t) : Res.Kept s (execRngReady t) := by
  unfold execRngReady
  with_reducible repeat' first
    | exact h | apply Res.Kept.next | apply Res.Kept.ite | apply setExp_kept | apply forEach_kept | simp only [Kept.update_iff] | intro _

theorem checkHealthy_kept {s t : State} {before} (h : Kept s t) : Kept s (checkHealthy before t) := by
  unfold checkHealthy
  with_reducible repeat' first | exact h | apply Kept.ite | apply raiseRandom_kept | simp only [Kept.update_iff]

theorem execRngSourceExcluded_kept {s t : State} {i apt} (h : Kept s t) : Res.Kept s (execRngSourceExcluded i apt t) := by
  unfold execRngSourceExcluded
  with_reducible repeat' first
    | exact h | apply Res.Kept.next | apply Res.Kept.ite | apply checkHealthy_kept | apply raiseRandom_kept | simp only [Kept.update_iff] | split

theorem rngRetest_kept {s t : State} {v} (h : Kept s t) : Kept s (rngRetest v t) := h.same rfl rfl rfl rfl

theorem execRngRetestWrite_kept {s t : State} {v} (h : Kept s t) : Res.Kept s (execRngRetestWrite v t) := by
  unfold execRngRetestWrite
  with_reducible repeat' first | exact h | apply Res.Kept.next | apply Res.Kept.ite | apply rngRetest_kept

theorem execRngRetestEnd_kept {s t : State} {i} (h : Kept s t) : Res.Kept s (execRngRetestEnd i t) := by
  unfold execRngRetestEnd
  with_reducible repeat' first | exact h | apply Res.Kept.next | apply Res.Kept.ite | apply raiseRandom_kept | simp only [Kept.update_iff] | split

theorem rngMask_kept {s t : State} {v} (h : Kept s t) : Kept s (rngMask v t) := by
  unfold rngMask
  with_reducible repeat' first | exact h | apply Kept.ite | apply raiseRandom_kept | simp only [Kept.update_iff]

theorem execRngMaskWrite_kept {s t : State} {v} (h : Kept s t) : Res.Kept s (execRngMaskWrite v t) := by
  unfold execRngMaskWrite
  with_reducible repeat' first | exact h | apply Res.Kept.next | apply Res.Kept.ite | apply rngMask_kept

theorem rngRestart_kept {s t : State} (h : Kept s t) : Kept s (rngRestart t) := by
  unfold rngRestart
  with_reducible repeat' first | exact h | apply Kept.ite | simp only [Kept.update_iff]

theorem execRngRestartWrite_kept {s t : State} (h : Kept s t) : Res.Kept s (execRngRestartWrite t) := by
  unfold execRngRestartWrite
  with_reducible repeat' first | exact h | apply Res.Kept.next | apply Res.Kept.ite | apply rngRestart_kept | apply wrote_kept

theorem execRngAutoRestart_kept {s t : State} (h : Kept s t) : Res.Kept s (execRngAutoRestart t) := by
  unfold execRngAutoRestart
  with_reducible repeat' first | exact h | apply Res.Kept.next | apply Res.Kept.ite | apply startTest_kept | simp only [Kept.update_iff]

theorem execSeedConditioned_kept {s t : State} (h : Kept s t) : Res.Kept s (execSeedConditioned t) := by
  unfold execSeedConditioned
  with_reducible repeat' first | exact h | apply Res.Kept.next | apply Res.Kept.ite | apply newSeed_kept | simp only [Kept.update_iff]

theorem execExpanderReseed_kept {s t : State} {e} (h : Kept s t) : Res.Kept s (execExpanderReseed e t) := by
  unfold execExpanderReseed
  with_reducible repeat' first | exact h | apply Res.Kept.next | apply Res.Kept.ite | apply giveSeed_kept | simp only [Kept.update_iff] | split

theorem execExpanderStretch_kept {s t : State} {e} (h : Kept s t) : Res.Kept s (execExpanderStretch e t) := by
  unfold execExpanderStretch
  with_reducible repeat' first | exact h | apply Res.Kept.next | apply Res.Kept.ite | apply raiseRandom_kept | apply setExp_kept

theorem execExpanderBlocked_kept {s t : State} {e} (h : Kept s t) : Res.Kept s (execExpanderBlocked e t) := by
  unfold execExpanderBlocked
  with_reducible repeat' first | exact h | apply Res.Kept.next | apply Res.Kept.ite | apply raiseRandom_kept | apply setExp_kept

/-! ### Splitter: Splitter job requests -/

theorem polyRow_kept {s t : State} {op q k f} (hf : ∀ v0 v1 u, Kept s u → Kept s (f v0 v1 u).2.2) (h : Kept s t) : Kept s (polyRow op q k f t) := by
  unfold polyRow
  with_reducible repeat' first
    | exact h | apply Kept.ite | apply runFirsts_kept | apply stopRequest_kept | apply setJob_kept | apply nextRequest_kept | apply hf
    | simp only | split

theorem execPload_kept {s t : State} {q k} (h : Kept s t) : Res.Kept s (execPload q k t) := by
  unfold execPload
  with_reducible repeat' first | exact h | assumption | apply Res.Kept.next | apply polyRow_kept | simp only | split | intro _

theorem execPstore_kept {s t : State} {q k} (h : Kept s t) : Res.Kept s (execPstore q k t) := by
  unfold execPstore
  with_reducible repeat' first
    | exact h | assumption | apply Res.Kept.next | apply polyRow_kept | apply jobWrite_kept | simp only | split | intro _

theorem polyCalc_kept {s t : State} {op q k f} (h : Kept s t) : Kept s (polyCalc op q k f t) := by
  unfold polyCalc
  with_reducible repeat' first | exact h | assumption | apply polyRow_kept | simp only | intro _

theorem execPntt_kept {s t : State} {q k} (h : Kept s t) : Res.Kept s (execPntt q k t) := .next (polyCalc_kept h)

theorem execPintt_kept {s t : State} {q k} (h : Kept s t) : Res.Kept s (execPintt q k t) := .next (polyCalc_kept h)

theorem execPmult_kept {s t : State} {q k} (h : Kept s t) : Res.Kept s (execPmult q k t) := .next (polyCalc_kept h)

theorem execSplPadd_kept {s t : State} {q k} (h : Kept s t) : Res.Kept s (execSplPadd q k t) := .next (polyCalc_kept h)

theorem execPsub_kept {s t : State} {q k} (h : Kept s t) : Res.Kept s (execPsub q k t) := .next (polyCalc_kept h)

theorem splStart_kept {s t : State} {q k j b} (h : Kept s t) : Kept s (splStart q k j b t).2 := by
  unfold splStart
  split
  · exact h
  split
  · exact h
  extract_lets c y want
  split
  · exact h
  split
  next e =>
  have checked := Kept.of_mid (r98_kept h) e
  split
  · exact checked
  split
  · exact checked
  split
  · exact checked
  · exact reserve_kept (drawn_kept checked ‹_›)

theorem splEach_kept {s t : State} {t' j b} (h : Kept s t) : Kept s (splEach t' j b t).2 := by
  unfold splEach
  with_reducible repeat' first | exact h | split

theorem splOp_kept {s t : State} {bad op x2 x3} (h : Kept s t) : Kept s (splOp bad op x2 x3 t).2.2 := by
  unfold splOp
  with_reducible repeat' first
    | exact h | apply fMldsaKeygen_kept | apply fMldsaSign_kept | apply fMldsaVerify_kept | apply fMlkemKeygen_kept | apply fMlkemEncaps_kept
    | apply fMlkemDecaps_kept | split

theorem splFin_kept {s t : State} {q k bad j b} (h : Kept s t) : Kept s (splFin q k bad j b t).2.2 := by
  unfold splFin
  with_reducible repeat' first | exact h | apply splOp_kept | simp only | split

theorem resetAttempts_kept {s t : State} {q k} (h : Kept s t) : Kept s (resetAttempts q k t) := by
  unfold resetAttempts
  with_reducible repeat' first | exact h | apply Kept.ite | apply setJob_kept | split

theorem execSplNative_kept {s t : State} {q k bad} (h : Kept s t) : Res.Kept s (execSplNative q k bad t) := by
  unfold execSplNative
  with_reducible repeat' first
    | exact h | apply Res.Kept.next | apply Res.Kept.ite | apply wholeTicks_kept | apply splStart_kept | apply splEach_kept | apply splFin_kept
    | apply resetAttempts_kept | intro _

theorem execSplJctlGo_kept {s t : State} {core count} (h : Kept s t) : Res.Kept s (execSplJctlGo core count t) := goFrom_kept h

/-! ### WedgeDigest: Wedge and digest job requests, digest contexts, held ranges -/

theorem wdgStart_kept {s t : State} {q k j b} (h : Kept s t) : Kept s (wdgStart q k j b t).2 := by
  unfold wdgStart
  split
  · exact h
  split
  · exact h
  extract_lets c want
  split
  · exact h
  split
  next e =>
  have checked := Kept.of_mid (r98_kept h) e
  split
  · exact checked
  split
  · exact checked
  split
  · exact checked
  have drawn := drawn_kept checked ‹_›
  split
  · exact drawn
  · exact drawn

theorem wdgEach_kept {s t : State} {q k t' j b} (h : Kept s t) : Kept s (wdgEach q k t' j b t).2 := by
  unfold wdgEach
  with_reducible repeat' first | exact h | simp only [Kept.update_iff] | split

theorem wdgOp_kept {s t : State} {op x1 x2} (h : Kept s t) : Kept s (wdgOp op x1 x2 t).2.2 := by
  unfold wdgOp
  with_reducible repeat' first
    | exact h | apply fCbcEnc_kept | apply fCbcDec_kept | apply fCtr_kept | apply fGcmEnc_kept | apply fGcmEncRiv_kept | apply fGcmDec_kept
    | apply fCmacGen_kept | apply fCmacVerify_kept | apply fRngGet_kept | split

theorem wdgFin_kept {s t : State} {q k j b} (h : Kept s t) : Kept s (wdgFin q k j b t).2.2 := by
  unfold wdgFin
  with_reducible repeat' first | exact h | apply wdgOp_kept | simp only | split

theorem execWdgRequest_kept {s t : State} {q k} (h : Kept s t) : Res.Kept s (execWdgRequest q k t) := by
  unfold execWdgRequest
  with_reducible repeat' first
    | exact h | apply Res.Kept.next | apply Res.Kept.ite | apply wholeTicks_kept | apply wdgStart_kept | apply wdgEach_kept | apply wdgFin_kept
    | intro _

theorem execWdgJctlGo_kept {s t : State} {core count} (h : Kept s t) : Res.Kept s (execWdgJctlGo core count t) := goFrom_kept h

theorem digRow_kept {s t : State} {op n k used ok start each fin} (hstart : ∀ v0 v1 v2 u, Kept s u → Kept s (start v0 v1 v2 u).2) (heach : ∀ v0 v1 v2 u, Kept s u → Kept s (each v0 v1 v2 u).2) (hfin : ∀ v0 v1 v2 u, Kept s u → Kept s (fin v0 v1 v2 u).2) (h : Kept s t) :
    Kept s (digRow op n k used ok start each fin t) := by
  unfold digRow
  with_reducible repeat' first
    | exact h | assumption | apply wholeTicks_kept | apply hstart | apply hfin | simp only | split | intro _

theorem noEach_kept {s t : State} {x0 j x2} (h : Kept s t) : Kept s (noEach x0 j x2 t).2 := by
  unfold noEach
  with_reducible repeat' exact h

theorem execDigOpen_kept {s t : State} {n k} (h : Kept s t) : Res.Kept s (execDigOpen n k t) := by
  unfold execDigOpen
  with_reducible repeat' first
    | exact h | assumption | apply Res.Kept.next | apply digRow_kept | apply countUse_kept | apply noEach_kept | apply setCtx_kept
    | simp only | split | intro _

theorem execDigFeed_kept {s t : State} {n k} (h : Kept s t) : Res.Kept s (execDigFeed n k t) := by
  unfold execDigFeed
  with_reducible repeat' first
    | exact h | assumption | apply Res.Kept.next | apply digRow_kept | apply compatClear_kept | apply engineEvent_kept | apply setCtx_kept
    | simp only | split | intro _

theorem execDigCmp_kept {s t : State} {n k} (h : Kept s t) : Res.Kept s (execDigCmp n k t) := by
  unfold execDigCmp
  with_reducible repeat' first
    | exact h | assumption | apply Res.Kept.next | apply digRow_kept | apply noEach_kept | apply setCtx_kept | apply engineEvent_kept
    | simp only | split | intro _

theorem execDigClose_kept {s t : State} {n k} (h : Kept s t) : Res.Kept s (execDigClose n k t) := by
  unfold execDigClose
  with_reducible repeat' first
    | exact h | assumption | apply Res.Kept.next | apply digRow_kept | apply noEach_kept | apply setCtx_kept | simp only | intro _

theorem execDigJctlGo_kept {s t : State} {core count} (h : Kept s t) : Res.Kept s (execDigJctlGo core count t) := goFrom_kept h

theorem changeOwner_kept {s t : State} {n i v} (h : Kept s t) : Kept s (changeOwner n i v t) := by
  unfold changeOwner
  with_reducible repeat' first | exact h | apply Kept.ite | apply endJob_kept | apply setCtx_kept | apply modEngine_kept

theorem digOwn_kept {s t : State} {n v} (h : Kept s t) : Kept s (digOwn n v t) := by
  unfold digOwn
  with_reducible repeat' first
    | exact h | apply Kept.ite | apply engineEvent_kept | apply changeOwner_kept | apply raiseIsland_kept | simp only [Kept.update_iff]
    | apply Kept.foldl | intro _

theorem execDigOwnWrite_kept {s t : State} {n v} (h : Kept s t) : Res.Kept s (execDigOwnWrite n v t) := by
  unfold execDigOwnWrite
  with_reducible repeat' first | exact h | apply Res.Kept.next | apply Res.Kept.ite | apply digOwn_kept

theorem execHeldRangeAccess_kept {s t : State} {_m addr write} (h : Kept s t) : Res.Kept s (execHeldRangeAccess _m addr write t) := by
  unfold execHeldRangeAccess
  with_reducible repeat' first | exact h | apply Res.Kept.next | apply engineEvent_kept | simp only [Kept.update_iff] | split

/-! ### RegMap: The control register blocks as they read -/

theorem unlatchRead_kept {s t : State} {key base} (h : Kept s t) : Kept s (unlatchRead key base t) := by
  unfold unlatchRead
  with_reducible repeat' first | exact h | apply Kept.ite | simp only [Kept.update_iff] | split

theorem readByte_kept {s t : State} {m r value addr} (h : Kept s t) : Kept s (readByte m r value addr t).2 := by
  unfold readByte
  with_reducible repeat' first | exact h | apply unlatchRead_kept | simp only [Kept.update_iff] | split

set_option linter.auxLemma false in
/-- `slogByte` of a staging log at `base`: no proof about it then computes with the address itself. -/
def slogByteAt (base : Nat) : Master → Nat → State → Byte × State := fun m addr s =>
  have k := (addr - base) / 16
  have s := if (addr - base) % 16 = 0 then slogRead m k s else s
  unlatchRead.match_1 (fun _ => Byte × State) (tget none s.bus.latch (1024 + masterKey m))
    (fun l => if l.addr = base + 16 * k then (l.bytes[addr % 16]?.getD 0, s) else ((s.vault.slotBytes k)[addr % 16]?.getD 0, s))
    fun _ => ((s.vault.slotBytes k)[addr % 16]?.getD 0, s)

theorem slogByteAt_kept {s t : State} {base : Nat} {m : Master} {addr : Nat} (h : Kept s t) : Kept s (slogByteAt base m addr t).2 := by
  unfold slogByteAt
  extract_lets k u
  have hu : Kept s u := (slogRead_kept h).ite h
  split
  · split
    · exact hu
    · exact hu
  · exact hu

theorem slogByte_eq : slogByte = slogByteAt 0x60070400 := by
  delta slogByte slogByteAt
  rfl

theorem slogByte_kept {s t : State} {m addr} (h : Kept s t) : Kept s (slogByte m addr t).2 := by
  rw [slogByte_eq]
  exact slogByteAt_kept h

theorem regRead_kept {s t : State} {m addr} (h : Kept s t) : ∀ a u, regRead m addr t = some (a, u) → Kept s u := by
  intro a u e
  unfold regRead at e
  generalize 0x60070400 = slogs, 0x60070800 = slogsEnd, 0x60080100 = queue at e
  split at e
  · cases e
  next r _ =>
  have logged := slogByte_kept (m := m) (addr := addr) (unlatchRead_kept (key := masterKey m) (base := r.base) h)
  have read := readByte_kept (m := m) (r := r) (value := t.regValue m r.base) (addr := addr) h
  split at e
  · rw [Option.some.inj e] at logged
    exact logged
  · generalize readByte m r (t.regValue m r.base) addr t = p at e read
    obtain ⟨b, v⟩ := p
    simp only [Option.some.injEq, Prod.mk.injEq] at e
    obtain ⟨-, rfl⟩ := e
    split
    · exact takeEvent_kept read
    · exact read

/-! ### Regs: Writes of control registers -/

theorem refuseRange_kept {s t : State} (h : Kept s t) : Kept s (refuseRange t) := by
  unfold refuseRange
  with_reducible repeat' first | exact h | apply raiseIsland_kept | simp only [Kept.update_iff]

theorem writeOnce_kept {s t : State} {addr cur new} (h : Kept s t) : Kept s (writeOnce addr cur new t).2 := wrote_kept h

theorem writeLocked_kept {s t : State} {lock changed event set} (hevent : ∀ u, Kept s u → Kept s (event u)) (hset : ∀ u, Kept s u → Kept s (set u)) (h : Kept s t) :
    Kept s (writeLocked lock changed event set t) := by
  unfold writeLocked
  with_reducible repeat' first | exact h | apply Kept.ite | apply hevent | apply hset

theorem lockEvent_kept {s t : State} (h : Kept s t) : Kept s (lockEvent t) := raiseIsland_kept h

theorem dspWrite_kept {s t : State} {o v} (h : Kept s t) : Kept s (dspWrite o v t) := by
  unfold dspWrite
  with_reducible repeat' first | exact h | apply Kept.ite | apply dspCancel_kept | apply dspGo_kept | apply shadowWrite_kept

theorem loadWrite_kept {s t : State} {k n o v} (h : Kept s t) : Kept s (loadWrite k n o v t) := by
  unfold loadWrite
  with_reducible repeat' first | exact h | apply Kept.ite | apply setPort_kept | apply yardGo_kept | apply refuseRange_kept

theorem rngWrite_kept {s t : State} {o v} (h : Kept s t) : Kept s (rngWrite o v t) := by
  unfold rngWrite
  with_reducible repeat' first
    | exact h | assumption | apply Kept.ite | apply writeOnce_kept | apply writeLocked_kept | apply raiseRandom_kept | apply rngRestart_kept
    | apply rngMask_kept | apply rngRetest_kept | simp only [Kept.update_iff] | intro _

theorem flgWrite_kept {s t : State} {o v} (h : Kept s t) : Kept s (flgWrite o v t) := by
  unfold flgWrite
  with_reducible repeat' first | exact h | apply Kept.ite | apply flgBmcb_kept | apply flgHold_kept | apply flgRelease_kept

theorem pflWrite_kept {s t : State} {o v} (h : Kept s t) : Kept s (pflWrite o v t) := by
  unfold pflWrite
  with_reducible repeat' first
    | exact h | apply Kept.ite | apply flashRefuse_kept | apply flashSequence_kept | apply flashBuf_kept | apply modPfl_kept | apply writeWs_kept
    | apply flashSwap_kept

theorem tmpChange_kept {s t : State} {changed refuse set} (h : Kept s t) : Kept s (tmpChange changed refuse set t) := by
  unfold tmpChange
  with_reducible repeat' first
    | exact h | assumption | apply Kept.ite | apply refuseRange_kept | apply writeLocked_kept | apply raiseTamper_kept | apply modVault_kept | split
    | intro _

theorem respChanges_kept {s t : State} {i old new} (h : Kept s t) : Kept s (respChanges i old new t) := by
  unfold respChanges
  with_reducible repeat' first | exact h | assumption | apply stageChange_kept | apply forN_kept | simp only | split | intro _

theorem tmpWrite_kept {s t : State} {o v} (h : Kept s t) : Kept s (tmpWrite o v t) := by
  unfold tmpWrite
  with_reducible repeat' first
    | exact h | apply Kept.ite | apply modVault_kept | apply writeOnce_kept | apply ovfClear_kept | apply unlatch_kept | apply tmpChange_kept
    | apply respChanges_kept | apply tmpSaved_kept

theorem srcWrite_kept {s t : State} {e v} (h : Kept s t) : Kept s (srcWrite e v t) := by
  unfold srcWrite
  with_reducible repeat' first
    | exact h | apply Kept.ite | apply refuseRange_kept | apply writeLocked_kept | apply lockEvent_kept | apply severityLater_kept | intro _

theorem fltWrite_kept {s t : State} {o v} (h : Kept s t) : Kept s (fltWrite o v t) := by
  unfold fltWrite
  with_reducible repeat' first
    | exact h | assumption | apply Kept.ite | apply writeOnce_kept | apply acknowledge_kept | apply writeLocked_kept | apply lockEvent_kept
    | apply inject_kept | apply srcWrite_kept | simp only [Kept.update_iff] | intro _

theorem pwrWrite_kept {s t : State} {o v} (h : Kept s t) : Kept s (pwrWrite o v t) := by
  unfold pwrWrite
  with_reducible repeat' first
    | exact h | assumption | apply Kept.ite | apply writeOnce_kept | apply pwrOff_kept | apply pwrWake_kept | apply writeLocked_kept
    | apply raisePower_kept | simp only [Kept.update_iff] | intro _

theorem clkWrite_kept {s t : State} {o v} (h : Kept s t) : Kept s (clkWrite o v t) := by
  unfold clkWrite
  with_reducible repeat' first | exact h | apply Kept.ite | simp only [Kept.update_iff]

theorem crdWrite_kept {s t : State} {e o v} (h : Kept s t) : Kept s (crdWrite e o v t) := by
  unfold crdWrite
  with_reducible repeat' first
    | exact h | apply Kept.ite | apply writeOnce_kept | apply writeLocked_kept | apply raiseCust_kept | apply modCrd_kept | apply crdDeact_kept
    | apply crdAct_kept | apply sendRaw_kept | intro _

theorem ctlWrite_kept {s t : State} {e o v} (h : Kept s t) : Kept s (ctlWrite e o v t) := by
  unfold ctlWrite
  with_reducible repeat' first
    | exact h | apply Kept.ite | apply writeOnce_kept | apply modCtl_kept | apply lpcdEnable_kept | apply ctlOff_kept | apply haltCard_kept
    | apply sendRaw_kept | apply refuseRange_kept | apply writeLocked_kept | apply raiseCust_kept | intro _

theorem tagWrite_kept {s t : State} {o v} (h : Kept s t) : Kept s (tagWrite o v t) := by
  unfold tagWrite
  with_reducible repeat' first | exact h | apply Kept.ite | apply tagCommitGo_kept | apply modTag_kept

theorem dicWrite_kept {s t : State} {o v} (h : Kept s t) : Kept s (dicWrite o v t) := by
  unfold dicWrite
  with_reducible repeat' first
    | exact h | assumption | apply Kept.ite | apply writeOnce_kept | apply writeLocked_kept | apply lockEvent_kept | simp only [Kept.update_iff]
    | intro _

theorem jobsEvent_kept {s t : State} {q} (h : Kept s t) : Kept s (jobsEvent q t) := engineEvent_kept h

theorem engineWrite_kept {s t : State} {q addr o v} (h : Kept s t) : Kept s (engineWrite q addr o v t) := by
  unfold engineWrite
  with_reducible repeat' first
    | exact h | apply Kept.ite | apply writeOnce_kept | apply writeLocked_kept | apply jobsEvent_kept | apply modEngine_kept
    | apply requestClear_kept | apply digOwn_kept | intro _

theorem portWrite_kept {s t : State} {q k o v} (h : Kept s t) : Kept s (portWrite q k o v t) := by
  unfold portWrite
  with_reducible repeat' first | exact h | apply Kept.ite | apply setJob_kept | apply submitJob_kept

theorem fncWrite_kept {s t : State} {c o v} (h : Kept s t) : Kept s (fncWrite c o v t) := by
  unfold fncWrite
  with_reducible repeat' first | exact h | apply Kept.ite | apply fncCtl_kept | apply fncIen_kept | apply fncWin_kept | apply fncFen_kept

theorem benWrite_kept {s t : State} {n addr o v} (h : Kept s t) : Kept s (benWrite n addr o v t) := by
  unfold benWrite
  with_reducible repeat' first
    | exact h | apply Kept.ite | apply writeOnce_kept | apply writeLocked_kept | apply lockEvent_kept | apply modBench_kept | apply benReturn_kept
    | apply benQuarantine_kept | intro _

theorem regWrite_kept {s t : State} {m e addr v} (h : Kept s t) : Kept s (regWrite m e addr v t) := by
  unfold regWrite
  with_reducible repeat' first
    | exact h | apply Kept.ite | apply dspWrite_kept | apply loadWrite_kept | apply rngWrite_kept | apply flgWrite_kept | apply pflWrite_kept
    | apply tmpWrite_kept | apply fltWrite_kept | apply pwrWrite_kept | apply clkWrite_kept | apply crdWrite_kept | apply ctlWrite_kept
    | apply tagWrite_kept | apply lcsGo_kept | apply galGrant_kept | apply dicWrite_kept | apply fncWrite_kept | apply engineWrite_kept
    | apply portWrite_kept | apply benWrite_kept | split

theorem msixWrite_kept {s t : State} {f o v} (h : Kept s t) : Kept s (msixWrite f o v t) := by
  unfold msixWrite
  with_reducible repeat' first | exact h | apply Kept.ite | apply sendMsix_kept | simp only [Kept.update_iff]

theorem barWrite_kept {s t : State} {f o v} (h : Kept s t) : Kept s (barWrite f o v t) := by
  unfold barWrite
  with_reducible repeat' first
    | exact h | apply Kept.ite | apply modLease_kept | apply modQueue_kept | apply writeQcfg_kept | apply resetQueue_kept | apply enableQueue_kept
    | apply writeDoorbell_kept | apply writeCqDoorbell_kept | apply msixWrite_kept

theorem stageByte_kept {s t : State} {key r cur commit addr b} (hcommit : ∀ v0 u, Kept s u → Kept s (commit v0 u)) (h : Kept s t) :
    Kept s (stageByte key r cur commit addr b t) := by
  unfold stageByte
  with_reducible repeat' first | exact h | apply Kept.ite | apply unlatchRead_kept | apply hcommit | simp only [Kept.update_iff]

theorem writeByte_kept {s t : State} {m e addr b} (h : Kept s t) : Kept s (writeByte m e addr b t) := by
  unfold writeByte
  with_reducible repeat' first | exact h | apply stageByte_kept | apply regWrite_kept | split | intro _

theorem barByte_kept {s t : State} {f o b} (h : Kept s t) : Kept s (barByte f o b t) := by
  unfold barByte
  with_reducible repeat' first | exact h | apply stageByte_kept | apply barWrite_kept | split | intro _

theorem writeBytes_kept {s t : State} {f x1 x2} (hf : ∀ v0 v1 u, Kept s u → Kept s (f v0 v1 u)) (h : Kept s t) : Kept s (writeBytes f x1 x2 t) := by
  induction x2 generalizing x1 t with
  | nil => exact h
  | cons b r ih => exact ih (hf _ _ _ h)

theorem refuseDecode_kept {s t : State} (h : Kept s t) : Kept s (refuseDecode t) := by
  unfold refuseDecode
  with_reducible repeat' first | exact h | apply raiseIsland_kept | simp only [Kept.update_iff]

theorem execDecodeAccess_kept {s t : State} {m addr write} (h : Kept s t) : Res.Kept s (execDecodeAccess m addr write t) := by
  unfold execDecodeAccess
  with_reducible repeat' first | exact h | apply Res.Kept.next | apply Res.Kept.ite | apply barDecode_kept | apply refuseDecode_kept | split

theorem rngPortWrite_kept {s t : State} {c} (h : Kept s t) : Kept s (rngPortWrite c t) := raiseRandom_kept h

/-! ### Triven: The Triven core -/

theorem spend_kept {s t : State} {c n} (h : Kept s t) : Kept s (spend c n t) := h.same rfl rfl rfl rfl

theorem reportFault_kept {s t : State} {c kind entry sup acc a dev} (h : Kept s t) : Kept s (reportFault c kind entry sup acc a dev t) := by
  unfold reportFault
  with_reducible repeat' first | exact h | apply Kept.ite | apply setCore_kept | apply raise_kept | apply raiseIslandOf_kept

theorem checkAccess_kept {s t : State} {c a acc sup} (h : Kept s t) : Hit.Kept s (checkAccess c a acc sup t) := by
  unfold checkAccess
  with_reducible repeat' first
    | exact h | apply Hit.Kept.ite | apply reportFault_kept | apply Hit.Kept.ok | apply Hit.Kept.no | simp only | split

theorem rngPortDraw_kept {s t : State} {c n} (h : Kept s t) : Hit.Kept s (rngPortDraw c n t) := by
  unfold rngPortDraw
  extract_lets e fault
  have hf : ∀ p, Hit.Kept s (fault p) := fun p => Hit.Kept.no (raiseRandom_kept h)
  split
  · exact hf _
  split
  · exact hf _
  split
  · exact hf _
  · exact Hit.Kept.ok (modCore_kept (draw_kept h _ _ ‹_›))

theorem targetRead_kept {s t : State} {c dev fetch} (h : Kept s t) : Hit.Kept s (targetRead c dev fetch t) := by
  unfold targetRead
  extract_lets m
  split
  · exact Hit.Kept.no (engineEvent_kept h)
  split
  · exact Hit.Kept.bind (rngPortDraw_kept (runFirsts_kept h)) fun _ _ hu => Hit.Kept.ok hu
  split
  · exact Hit.Kept.ok (regRead_kept h _ _ ‹_›)
  split
  · exact Hit.Kept.no (raiseIsland_kept h)
  split
  · exact Hit.Kept.ok h
  split
  · split
    next e => exact Hit.Kept.ok (spend_kept (Kept.of_snd (flashRead_kept h) e))
    next e => exact Hit.Kept.no (Kept.of_snd (flashRead_kept h) e)
  split
  · exact Hit.Kept.ok (raiseDev_kept h)
  · exact Hit.Kept.ok h

theorem memWrite_kept {s t : State} {dev b} (h : Kept s t) : Kept s (memWrite dev b t) := by
  unfold memWrite
  with_reducible repeat' first | exact h | apply engineEvent_kept | apply raiseDev_kept | apply ramWrite_kept | split

theorem targetWrite_kept {s t : State} {c dev b sup} (h : Kept s t) : Hit.Kept s (targetWrite c dev b sup t) := by
  unfold targetWrite
  with_reducible repeat' first
    | exact h | apply Hit.Kept.ite | apply rngPortWrite_kept | apply writeByte_kept | apply raiseIsland_kept | apply memWrite_kept
    | apply Hit.Kept.ok | apply Hit.Kept.no | simp only [Kept.update_iff]

theorem loadByte_kept {s t : State} {c a sup} (h : Kept s t) : Hit.Kept s (loadByte c a sup t) := by
  unfold loadByte
  with_reducible repeat' first | exact h | apply checkAccess_kept | apply targetRead_kept | apply Hit.Kept.bind | intro _

theorem storeByte_kept {s t : State} {c a b sup} (h : Kept s t) : Hit.Kept s (storeByte c a b sup t) := by
  unfold storeByte
  with_reducible repeat' first | exact h | apply checkAccess_kept | apply targetWrite_kept | apply Hit.Kept.bind | intro _

theorem fetchHalf_kept {s t : State} {c a} (h : Kept s t) : Hit.Kept s (fetchHalf c a t) := by
  unfold fetchHalf
  with_reducible repeat' first
    | exact h | assumption | apply checkAccess_kept | apply targetRead_kept | apply Hit.Kept.bind | apply Hit.Kept.ok | intro _

theorem fetch_kept {s t : State} {c} (h : Kept s t) : Hit.Kept s (fetch c t) := by
  unfold fetch
  with_reducible repeat' first | exact h | assumption | apply fetchHalf_kept | apply Hit.Kept.bind | apply Hit.Kept.ok | split | intro _

theorem doubleFault_kept {s t : State} {c old} (h : Kept s t) : Kept s (doubleFault c old t) := by
  unfold doubleFault
  with_reducible repeat' first | exact h | apply failCall_kept | apply modCore_kept | apply raise_kept

theorem enterVector_kept {s t : State} {c v param ret} (h : Kept s t) : Kept s (enterVector c v param ret t) := by
  unfold enterVector
  extract_lets u x sp u1 pushed
  have hu : Kept s u := (raise_kept h).ite h
  have hp : Hit.Kept s pushed :=
    .bind (storeByte_kept (modCore_kept hu)) fun _ _ h1 => .bind (storeByte_kept h1) fun _ _ h2 => storeByte_kept h2
  clear_value pushed
  split
  · extract_lets s1
    have entered : Kept s s1 := modCore_kept hp
    split
    next e => exact Hit.Kept.of_ok (fetchHalf_kept entered) e
    next e => exact doubleFault_kept (Hit.Kept.of_no (fetchHalf_kept entered) e)
    next e => exact doubleFault_kept (Hit.Kept.of_trap (fetchHalf_kept entered) e)
  · exact doubleFault_kept hp
  · exact doubleFault_kept hp

theorem fetchFault_kept {s t : State} {c v p pc} (h : Kept s t) : Kept s (fetchFault c v p pc t) := by
  unfold fetchFault
  with_reducible repeat' first | exact h | apply enterVector_kept | apply modCore_kept

theorem runShort_kept {s t : State} {c i cost f} (hf : ∀ v0 u, Kept s u → Hit.Kept s (f v0 u)) (h : Kept s t) : Kept s (runShort c i cost f t) := by
  unfold runShort
  extract_lets x
  split
  · exact h
  split
  next e => exact fetchFault_kept (Hit.Kept.of_no (fetch_kept h) e)
  next e => exact fetchFault_kept (Hit.Kept.of_trap (fetch_kept h) e)
  next e =>
  split
  · exact h
  extract_lets next
  have fetched := hf x _ (Hit.Kept.of_ok (fetch_kept h) e)
  split
  next e => exact modCore_kept (Hit.Kept.of_ok fetched e)
  next e => exact enterVector_kept (modCore_kept (Hit.Kept.of_no fetched e))
  next e => exact enterVector_kept (modCore_kept (Hit.Kept.of_trap fetched e))

theorem runReg_kept {s t : State} {c i cost g} (h : Kept s t) : Kept s (runReg c i cost g t) := by
  unfold runReg
  with_reducible repeat' first | exact h | apply runShort_kept | apply Hit.Kept.ok | intro _

theorem illegal_kept {s t : State} {c} (h : Kept s t) : Kept s (illegal c t) := by
  unfold illegal
  with_reducible repeat' first | exact h | apply runShort_kept | apply Hit.Kept.no | intro _

theorem privileged_kept {s t : State} {c i cost f} (hf : ∀ v0 u, Kept s u → Hit.Kept s (f v0 u)) (h : Kept s t) :
    Kept s (privileged c i cost f t) := by
  unfold privileged
  with_reducible repeat' first | exact h | assumption | apply Kept.ite | apply runShort_kept | apply Hit.Kept.no | intro _

theorem elements_kept {s t : State} {c e dc elem x4} (helem : ∀ v0 u, Kept s u → Hit.Kept s (elem v0 u)) (h : Kept s t) :
    Kept s (elements c e dc elem x4 t) := by
  induction x4 generalizing t with
  | zero => exact h
  | succ fuel ih =>
    unfold elements
    extract_lets x
    have made := helem x t h
    split
    · exact h
    split
    next e => exact ih (modCore_kept (Hit.Kept.of_ok made e))
    next e => exact enterVector_kept (modCore_kept (Hit.Kept.of_no made e))
    next e => exact enterVector_kept (modCore_kept (Hit.Kept.of_trap made e))

theorem closeLong_kept {s t : State} {c dc} (h : Kept s t) : Kept s (closeLong c dc t) := by
  unfold closeLong
  with_reducible repeat' first | exact h | apply Kept.ite | apply setCore_kept

theorem runLong_kept {s t : State} {c i e dc elem} (helem : ∀ v0 u, Kept s u → Hit.Kept s (elem v0 u)) (h : Kept s t) :
    Kept s (runLong c i e dc elem t) := by
  unfold runLong
  with_reducible repeat' first
    | exact h | assumption | apply Kept.ite | apply closeLong_kept | apply elements_kept | apply setCore_kept | apply fetchFault_kept
    | apply modCore_kept | simp only | refine Hit.Kept.of_ok (fetch_kept ?_) (by assumption)
    | refine Hit.Kept.of_no (fetch_kept ?_) (by assumption) | refine Hit.Kept.of_trap (fetch_kept ?_) (by assumption) | split

theorem execHostCallDelivery_kept {s t : State} {h'} (h : Kept s t) : Res.Kept s (execHostCallDelivery h' t) := by
  unfold execHostCallDelivery
  with_reducible repeat' first
    | exact h | apply Res.Kept.next | apply Res.Kept.ite | apply endCmd_kept | apply setCmd_kept | apply modCore_kept | apply enterVector_kept
    | apply ramWrite_kept | simp only | split

theorem hostReturn_kept {s t : State} {c v} (h : Kept s t) : Kept s (hostReturn c v t) := by
  unfold hostReturn
  with_reducible repeat' first
    | exact h | apply Kept.ite | apply setCore_kept | apply raise_kept | apply endCmd_kept | apply setCmd_kept | simp only | split

theorem hostret_kept {s t : State} {c} (h : Kept s t) : Kept s (hostret c t) := by
  unfold hostret
  with_reducible repeat' first
    | exact h | assumption | apply runShort_kept | apply hostReturn_kept | apply Hit.Kept.ok | apply Hit.Kept.no | split | intro _

theorem serviceRequest_kept {s t : State} {c n} (h : Kept s t) : Kept s (serviceRequest c n t) := by
  unfold serviceRequest
  with_reducible repeat' first | exact h | apply runShort_kept | apply Hit.Kept.ok | simp only | split | intro _

theorem execIslandServiceComplete_kept {s t : State} {c} (h : Kept s t) : Res.Kept s (execIslandServiceComplete c t) := by
  unfold execIslandServiceComplete
  with_reducible repeat' first | exact h | apply Res.Kept.next | apply Res.Kept.ite | apply setCore_kept

theorem execInterruptEntry_kept {s t : State} {c} (h : Kept s t) : Res.Kept s (execInterruptEntry c t) := by
  unfold execInterruptEntry
  with_reducible repeat' first
    | exact h | apply Res.Kept.next | apply Res.Kept.ite | apply setCore_kept | apply enterVector_kept | simp only | split

theorem execRngPortRead_kept {s t : State} {c n} (h : Kept s t) : Res.Kept s (execRngPortRead c n t) := by
  unfold execRngPortRead
  with_reducible repeat' first
    | exact h | apply Res.Kept.next | apply Res.Kept.ite | apply enterVector_kept | simp only [Kept.update_iff]
    | refine Hit.Kept.of_ok (rngPortDraw_kept ?_) (by assumption) | refine Hit.Kept.of_no (rngPortDraw_kept ?_) (by assumption)
    | refine Hit.Kept.of_trap (rngPortDraw_kept ?_) (by assumption) | split

theorem execRngPortWrite_kept {s t : State} {c} (h : Kept s t) : Res.Kept s (execRngPortWrite c t) := by
  unfold execRngPortWrite
  with_reducible repeat' first | exact h | apply Res.Kept.next | apply Res.Kept.ite | apply enterVector_kept | apply rngPortWrite_kept

theorem ownWrite_kept {s t : State} {c f} (hf : ∀ u, Kept s u → Kept s (f u)) (h : Kept s t) : Kept s (ownWrite c f t) := by
  unfold ownWrite
  with_reducible repeat' first | exact h | apply Kept.ite | apply modCore_kept | apply enterVector_kept | apply hf

theorem execFncCtlWrite_kept {s t : State} {c v} (h : Kept s t) : Res.Kept s (execFncCtlWrite c v t) := by
  unfold execFncCtlWrite
  with_reducible repeat' first | exact h | apply Res.Kept.next | apply ownWrite_kept | apply fncCtl_kept | intro _

theorem execFncWinWrite_kept {s t : State} {c i v} (h : Kept s t) : Res.Kept s (execFncWinWrite c i v t) := by
  unfold execFncWinWrite
  with_reducible repeat' first | exact h | apply Res.Kept.next | apply Res.Kept.ite | apply ownWrite_kept | apply fncWin_kept | intro _

theorem execFncFenWrite_kept {s t : State} {c i v} (h : Kept s t) : Res.Kept s (execFncFenWrite c i v t) := by
  unfold execFncFenWrite
  with_reducible repeat' first | exact h | apply Res.Kept.next | apply Res.Kept.ite | apply ownWrite_kept | apply fncFen_kept | intro _

theorem busWrite_kept {s t : State} {addr data} (h : Kept s t) : Kept s (busWrite addr data t) := by
  unfold busWrite
  with_reducible repeat' first | exact h | apply Kept.ite | apply writeBytes_kept | apply memWrite_kept | simp only [Kept.update_iff] | intro _

theorem execRegisterWrite_kept {s t : State} {m addr data e} (h : Kept s t) : Res.Kept s (execRegisterWrite m addr data e t) := by
  unfold execRegisterWrite
  with_reducible repeat' first
    | exact h | apply Res.Kept.next | apply Res.Kept.ite | apply Kept.ite | apply writeBytes_kept | apply writeByte_kept | apply busWrite_kept
    | apply refuseDecode_kept | apply barByte_kept | apply barDecode_kept | apply execRngPortWrite_kept | apply ownWrite_kept
    | simp only [Kept.update_iff] | split | intro _

/-! ### TrivenOps: The Triven instructions -/

theorem dataOp_kept {s t : State} {c i x y f} (h : Kept s t) : Kept s (dataOp c i x y f t) := runReg_kept h

theorem execTrvNop_kept {s t : State} {c} (h : Kept s t) : Res.Kept s (execTrvNop c t) := .next (runReg_kept h)

theorem execMov_kept {s t : State} {c x y} (h : Kept s t) : Res.Kept s (execMov c x y t) := .next (dataOp_kept h)

theorem execAdd_kept {s t : State} {c x y} (h : Kept s t) : Res.Kept s (execAdd c x y t) := .next (dataOp_kept h)

theorem execSub_kept {s t : State} {c x y} (h : Kept s t) : Res.Kept s (execSub c x y t) := .next (dataOp_kept h)

theorem execAdc_kept {s t : State} {c x y} (h : Kept s t) : Res.Kept s (execAdc c x y t) := by
  unfold execAdc
  with_reducible repeat' first | exact h | apply Res.Kept.next | apply Res.Kept.ite | apply illegal_kept | apply runReg_kept

theorem execSbc_kept {s t : State} {c x y} (h : Kept s t) : Res.Kept s (execSbc c x y t) := by
  unfold execSbc
  with_reducible repeat' first | exact h | apply Res.Kept.next | apply Res.Kept.ite | apply illegal_kept | apply runReg_kept

theorem execAnd_kept {s t : State} {c x y} (h : Kept s t) : Res.Kept s (execAnd c x y t) := .next (dataOp_kept h)

theorem execOr_kept {s t : State} {c x y} (h : Kept s t) : Res.Kept s (execOr c x y t) := .next (dataOp_kept h)

theorem execXor_kept {s t : State} {c x y} (h : Kept s t) : Res.Kept s (execXor c x y t) := .next (dataOp_kept h)

theorem execNot_kept {s t : State} {c x} (h : Kept s t) : Res.Kept s (execNot c x t) := .next (dataOp_kept h)

theorem execShl_kept {s t : State} {c x y} (h : Kept s t) : Res.Kept s (execShl c x y t) := .next (dataOp_kept h)

theorem execShr_kept {s t : State} {c x y} (h : Kept s t) : Res.Kept s (execShr c x y t) := .next (dataOp_kept h)

theorem execMul_kept {s t : State} {c x y} (h : Kept s t) : Res.Kept s (execMul c x y t) := by
  unfold execMul
  with_reducible repeat' first | exact h | apply Res.Kept.next | apply Res.Kept.ite | apply illegal_kept | apply runReg_kept

theorem execCeq_kept {s t : State} {c x y} (h : Kept s t) : Res.Kept s (execCeq c x y t) := .next (dataOp_kept h)

theorem execCltu_kept {s t : State} {c x y} (h : Kept s t) : Res.Kept s (execCltu c x y t) := .next (dataOp_kept h)

theorem execClts_kept {s t : State} {c x y} (h : Kept s t) : Res.Kept s (execClts c x y t) := .next (dataOp_kept h)

theorem execCnz_kept {s t : State} {c x} (h : Kept s t) : Res.Kept s (execCnz c x t) := .next (dataOp_kept h)

theorem execMask_kept {s t : State} {c x} (h : Kept s t) : Res.Kept s (execMask c x t) := .next (dataOp_kept h)

theorem addrOp_kept {s t : State} {c i x f} (h : Kept s t) : Kept s (addrOp c i x f t) := runReg_kept h

theorem execMova_kept {s t : State} {c x y} (h : Kept s t) : Res.Kept s (execMova c x y t) := .next (addrOp_kept h)

theorem execAdda_kept {s t : State} {c x y} (h : Kept s t) : Res.Kept s (execAdda c x y t) := .next (addrOp_kept h)

theorem execSuba_kept {s t : State} {c x y} (h : Kept s t) : Res.Kept s (execSuba c x y t) := .next (addrOp_kept h)

theorem execSetal_kept {s t : State} {c x y} (h : Kept s t) : Res.Kept s (execSetal c x y t) := .next (addrOp_kept h)

theorem execSetah_kept {s t : State} {c x y} (h : Kept s t) : Res.Kept s (execSetah c x y t) := .next (addrOp_kept h)

theorem execGetal_kept {s t : State} {c x y} (h : Kept s t) : Res.Kept s (execGetal c x y t) := .next (runReg_kept h)

theorem execGetah_kept {s t : State} {c x y} (h : Kept s t) : Res.Kept s (execGetah c x y t) := .next (runReg_kept h)

theorem loadOp_kept {s t : State} {c i cost a g} (h : Kept s t) : Kept s (loadOp c i cost a g t) := by
  unfold loadOp
  with_reducible repeat' first | exact h | assumption | apply runShort_kept | apply loadByte_kept | apply Hit.Kept.bind | apply Hit.Kept.ok | intro _

theorem storeOp_kept {s t : State} {c i cost a x g} (h : Kept s t) : Kept s (storeOp c i cost a x g t) := by
  unfold storeOp
  with_reducible repeat' first | exact h | assumption | apply runShort_kept | apply storeByte_kept | apply Hit.Kept.bind | apply Hit.Kept.ok | intro _

theorem execLd_kept {s t : State} {c x y} (h : Kept s t) : Res.Kept s (execLd c x y t) := .next (loadOp_kept h)

theorem execSt_kept {s t : State} {c x y} (h : Kept s t) : Res.Kept s (execSt c x y t) := .next (storeOp_kept h)

theorem execLdPostinc_kept {s t : State} {c x y} (h : Kept s t) : Res.Kept s (execLdPostinc c x y t) := .next (loadOp_kept h)

theorem execStPostinc_kept {s t : State} {c x y} (h : Kept s t) : Res.Kept s (execStPostinc c x y t) := .next (storeOp_kept h)

theorem execPush_kept {s t : State} {c x} (h : Kept s t) : Res.Kept s (execPush c x t) := .next (storeOp_kept h)

theorem execPop_kept {s t : State} {c x} (h : Kept s t) : Res.Kept s (execPop c x t) := .next (loadOp_kept h)

theorem push16_kept {s t : State} {c sp v sup} (h : Kept s t) : Hit.Kept s (push16 c sp v sup t) := by
  unfold push16
  with_reducible repeat' first | exact h | apply storeByte_kept | apply Hit.Kept.bind | intro _

theorem pop16_kept {s t : State} {c sp sup} (h : Kept s t) : Hit.Kept s (pop16 c sp sup t) := by
  unfold pop16
  with_reducible repeat' first | exact h | assumption | apply loadByte_kept | apply Hit.Kept.bind | apply Hit.Kept.ok | intro _

theorem execPusha_kept {s t : State} {c x} (h : Kept s t) : Res.Kept s (execPusha c x t) := by
  unfold execPusha
  with_reducible repeat' first
    | exact h | assumption | apply Res.Kept.next | apply runShort_kept | apply push16_kept | apply Hit.Kept.bind | apply Hit.Kept.ok | intro _

theorem execPopa_kept {s t : State} {c x} (h : Kept s t) : Res.Kept s (execPopa c x t) := by
  unfold execPopa
  with_reducible repeat' first
    | exact h | assumption | apply Res.Kept.next | apply runShort_kept | apply pop16_kept | apply Hit.Kept.bind | apply Hit.Kept.ok | intro _

theorem wideOp_kept {s t : State} {c i cost x f} (h : Kept s t) : Kept s (wideOp c i cost x f t) := runReg_kept h

theorem execWclr_kept {s t : State} {c x} (h : Kept s t) : Res.Kept s (execWclr c x t) := .next (wideOp_kept h)

theorem execWmov_kept {s t : State} {c x y} (h : Kept s t) : Res.Kept s (execWmov c x y t) := .next (wideOp_kept h)

theorem execWadd_kept {s t : State} {c x y} (h : Kept s t) : Res.Kept s (execWadd c x y t) := .next (wideOp_kept h)

theorem execWsub_kept {s t : State} {c x y} (h : Kept s t) : Res.Kept s (execWsub c x y t) := .next (wideOp_kept h)

theorem execWxor_kept {s t : State} {c x y} (h : Kept s t) : Res.Kept s (execWxor c x y t) := .next (wideOp_kept h)

theorem execWand_kept {s t : State} {c x y} (h : Kept s t) : Res.Kept s (execWand c x y t) := .next (wideOp_kept h)

theorem execWshl8_kept {s t : State} {c x} (h : Kept s t) : Res.Kept s (execWshl8 c x t) := .next (wideOp_kept h)

theorem execWshr8_kept {s t : State} {c x} (h : Kept s t) : Res.Kept s (execWshr8 c x t) := .next (wideOp_kept h)

theorem callTo_kept {s t : State} {c i len target} (h : Kept s t) : Kept s (callTo c i len target t) := by
  unfold callTo
  with_reducible repeat' first
    | exact h | assumption | apply runShort_kept | apply push16_kept | apply Hit.Kept.bind | apply Hit.Kept.ok | simp only
    | intro _

theorem execJmp_kept {s t : State} {c y} (h : Kept s t) : Res.Kept s (execJmp c y t) := .next (runReg_kept h)

theorem execJsr_kept {s t : State} {c y} (h : Kept s t) : Res.Kept s (execJsr c y t) := .next (callTo_kept h)

theorem execRts_kept {s t : State} {c} (h : Kept s t) : Res.Kept s (execRts c t) := by
  unfold execRts
  with_reducible repeat' first
    | exact h | assumption | apply Res.Kept.next | apply runShort_kept | apply pop16_kept | apply Hit.Kept.bind | apply Hit.Kept.ok
    | simp only | intro _

theorem execRte_kept {s t : State} {c} (h : Kept s t) : Res.Kept s (execRte c t) := by
  unfold execRte
  with_reducible repeat' first
    | exact h | assumption | apply Res.Kept.next | apply privileged_kept | apply loadByte_kept | apply pop16_kept | apply Hit.Kept.bind
    | apply Hit.Kept.ok | simp only | intro _

theorem execTrap_kept {s t : State} {c n} (h : Kept s t) : Res.Kept s (execTrap c n t) := by
  unfold execTrap
  with_reducible repeat' first
    | exact h | apply Res.Kept.next | apply Res.Kept.ite | apply runShort_kept | apply hostret_kept | apply serviceRequest_kept | apply Hit.Kept.no
    | apply Hit.Kept.trap | intro _

theorem execHostret_kept {s t : State} {c} (h : Kept s t) : Res.Kept s (execHostret c t) := .next (hostret_kept h)

theorem execIslandServiceRequest_kept {s t : State} {c n} (h : Kept s t) :
    Res.Kept s (execIslandServiceRequest c n t) := .next (serviceRequest_kept h)

theorem execWaitt_kept {s t : State} {c} (h : Kept s t) : Res.Kept s (execWaitt c t) := .next (runReg_kept h)

theorem execGetsr_kept {s t : State} {c x} (h : Kept s t) : Res.Kept s (execGetsr c x t) := .next (runReg_kept h)

theorem execSetsr_kept {s t : State} {c y} (h : Kept s t) : Res.Kept s (execSetsr c y t) := by
  unfold execSetsr
  with_reducible repeat' first | exact h | apply Res.Kept.next | apply privileged_kept | apply Hit.Kept.ok | intro _

theorem execGetid_kept {s t : State} {c x y} (h : Kept s t) : Res.Kept s (execGetid c x y t) := .next (runReg_kept h)

theorem execGettk_kept {s t : State} {c x} (h : Kept s t) : Res.Kept s (execGettk c x t) := .next (runReg_kept h)

theorem immOp_kept {s t : State} {c i r f} (h : Kept s t) : Kept s (immOp c i r f t) := runReg_kept h

theorem execMovi_kept {s t : State} {c r imm} (h : Kept s t) : Res.Kept s (execMovi c r imm t) := .next (immOp_kept h)

theorem execAddi_kept {s t : State} {c r imm} (h : Kept s t) : Res.Kept s (execAddi c r imm t) := .next (immOp_kept h)

theorem execAndi_kept {s t : State} {c r imm} (h : Kept s t) : Res.Kept s (execAndi c r imm t) := .next (immOp_kept h)

theorem execXori_kept {s t : State} {c r imm} (h : Kept s t) : Res.Kept s (execXori c r imm t) := .next (immOp_kept h)

theorem execCeqi_kept {s t : State} {c r imm} (h : Kept s t) : Res.Kept s (execCeqi c r imm t) := .next (immOp_kept h)

theorem execCltui_kept {s t : State} {c r imm} (h : Kept s t) : Res.Kept s (execCltui c r imm t) := .next (immOp_kept h)

theorem branch_kept {s t : State} {c i cost taken disp} (h : Kept s t) : Kept s (branch c i cost taken disp t) := runReg_kept h

theorem execBz_kept {s t : State} {c r disp} (h : Kept s t) : Res.Kept s (execBz c r disp t) := .next (branch_kept h)

theorem execBnz_kept {s t : State} {c r disp} (h : Kept s t) : Res.Kept s (execBnz c r disp t) := .next (branch_kept h)

theorem execBra_kept {s t : State} {c disp} (h : Kept s t) : Res.Kept s (execBra c disp t) := .next (branch_kept h)

theorem execMovia_kept {s t : State} {c x imm} (h : Kept s t) : Res.Kept s (execMovia c x imm t) := .next (runReg_kept h)

theorem execAddia_kept {s t : State} {c x imm} (h : Kept s t) : Res.Kept s (execAddia c x imm t) := .next (runReg_kept h)

theorem execLdx_kept {s t : State} {c x y imm} (h : Kept s t) : Res.Kept s (execLdx c x y imm t) := .next (loadOp_kept h)

theorem execStx_kept {s t : State} {c x y imm} (h : Kept s t) : Res.Kept s (execStx c x y imm t) := .next (storeOp_kept h)

theorem evenOnly_kept {s t : State} {c v f} (hf : ∀ u, Kept s u → Kept s (f u)) (h : Kept s t) : Kept s (evenOnly c v f t) := by
  unfold evenOnly
  with_reducible repeat' first | exact h | apply Kept.ite | apply illegal_kept | apply hf

theorem execJmpl_kept {s t : State} {c addr} (h : Kept s t) : Res.Kept s (execJmpl c addr t) := by
  unfold execJmpl
  with_reducible repeat' first | exact h | apply Res.Kept.next | apply evenOnly_kept | apply runReg_kept | intro _

theorem execJsrl_kept {s t : State} {c addr} (h : Kept s t) : Res.Kept s (execJsrl c addr t) := by
  unfold execJsrl
  with_reducible repeat' first | exact h | apply Res.Kept.next | apply evenOnly_kept | apply callTo_kept | intro _

theorem execBzl_kept {s t : State} {c x disp} (h : Kept s t) : Res.Kept s (execBzl c x disp t) := by
  unfold execBzl
  with_reducible repeat' first | exact h | apply Res.Kept.next | apply evenOnly_kept | apply branch_kept | intro _

theorem execBnzl_kept {s t : State} {c x disp} (h : Kept s t) : Res.Kept s (execBnzl c x disp t) := by
  unfold execBnzl
  with_reducible repeat' first | exact h | apply Res.Kept.next | apply evenOnly_kept | apply branch_kept | intro _

theorem execWgetb_kept {s t : State} {c x y j} (h : Kept s t) : Res.Kept s (execWgetb c x y j t) := .next (runReg_kept h)

theorem execWputb_kept {s t : State} {c y x j} (h : Kept s t) : Res.Kept s (execWputb c y x j t) := .next (runReg_kept h)

theorem execWceq_kept {s t : State} {c x y z} (h : Kept s t) : Res.Kept s (execWceq c x y z t) := .next (runReg_kept h)

theorem execMovb_kept {s t : State} {c x y dc} (h : Kept s t) : Res.Kept s (execMovb c x y dc t) := by
  unfold execMovb
  with_reducible repeat' first
    | exact h | assumption | apply Res.Kept.next | apply Res.Kept.ite | apply illegal_kept | apply runLong_kept | apply loadByte_kept
    | apply storeByte_kept | apply Hit.Kept.bind | apply Hit.Kept.ok | intro _

theorem execCmpb_kept {s t : State} {c x y dc dd} (h : Kept s t) : Res.Kept s (execCmpb c x y dc dd t) := by
  unfold execCmpb
  with_reducible repeat' first
    | exact h | assumption | apply Res.Kept.next | apply Res.Kept.ite | apply illegal_kept | apply runLong_kept | apply loadByte_kept
    | apply Hit.Kept.bind | apply Hit.Kept.ok | intro _

theorem execFillb_kept {s t : State} {c x y dc} (h : Kept s t) : Res.Kept s (execFillb c x y dc t) := by
  unfold execFillb
  with_reducible repeat' first
    | exact h | assumption | apply Res.Kept.next | apply runLong_kept | apply storeByte_kept | apply Hit.Kept.bind | apply Hit.Kept.ok | intro _

theorem execWmacb_kept {s t : State} {c x ws y dc} (h : Kept s t) : Res.Kept s (execWmacb c x ws y dc t) := by
  unfold execWmacb
  with_reducible repeat' first
    | exact h | assumption | apply Res.Kept.next | apply Res.Kept.ite | apply illegal_kept | apply runLong_kept | apply loadByte_kept
    | apply Hit.Kept.bind | apply Hit.Kept.ok | intro _

theorem execXin_kept {s t : State} {c x y dc inc} (h : Kept s t) : Res.Kept s (execXin c x y dc inc t) := by
  unfold execXin
  with_reducible repeat' first
    | exact h | assumption | apply Res.Kept.next | apply runLong_kept | apply loadByte_kept | apply Hit.Kept.bind | apply Hit.Kept.ok | intro _

theorem execXout_kept {s t : State} {c y x dc inc} (h : Kept s t) : Res.Kept s (execXout c y x dc inc t) := by
  unfold execXout
  with_reducible repeat' first
    | exact h | assumption | apply Res.Kept.next | apply runLong_kept | apply storeByte_kept | apply Hit.Kept.bind | apply Hit.Kept.ok | intro _

theorem execIllegalInstruction_kept {s t : State} {c} (h : Kept s t) : Res.Kept s (execIllegalInstruction c t) := .next (illegal_kept h)

/-! ### Tap: TAP instructions on the gallery port -/

theorem tapOut_kept {s t : State} {b} (h : Kept s t) : Kept s (tapOut b t) := h.same rfl rfl rfl rfl

theorem underRight_kept {s t : State} {ok f} (hf : ∀ u, Kept s u → Kept s (f u)) (h : Kept s t) : Kept s (underRight ok f t) := by
  unfold underRight
  with_reducible repeat' first | exact h | apply Kept.ite | apply raiseIsland_kept | apply tapOut_kept | apply hf

theorem tapRegs_kept {s t : State} {x0 x1} (h : Kept s t) : Kept s (tapRegs x0 x1 t).2 := by
  induction x1 generalizing x0 t with
  | zero => exact h
  | succ n ih =>
    unfold tapRegs
    split
    · exact ih (raiseIsland_kept h)
    · exact ih (regRead_kept h _ _ ‹_›)

theorem tapLines_kept {s t : State} {x0 x1 x2} (h : Kept s t) : Kept s (tapLines x0 x1 x2 t).2 := by
  induction x0 generalizing x1 x2 t with
  | zero => exact h
  | succ n ih =>
    unfold tapLines
    split
    · exact h
    extract_lets m
    split
    next e => exact ih (Kept.of_snd (flashRead_kept h) e)
    next e => exact Kept.of_snd (flashRead_kept h) e

theorem tapFlash_kept {s t : State} {o n} (h : Kept s t) : Kept s (tapFlash o n t) := by
  unfold tapFlash
  with_reducible repeat' first | exact h | apply Kept.ite | apply raiseIsland_kept | apply tapOut_kept | apply raiseFlash_kept | apply tapLines_kept

theorem tapMemory_kept {s t : State} {a n} (h : Kept s t) : Kept s (tapMemory a n t) := by
  unfold tapMemory
  with_reducible repeat' first | exact h | apply engineEvent_kept | apply tapOut_kept | split

theorem tapOther_kept {s t : State} {r n} (h : Kept s t) : Kept s (tapOther r n t) := by
  unfold tapOther
  with_reducible repeat' first | exact h | apply Kept.ite | apply tapOut_kept | apply useFree_kept

theorem execTapInstruction_kept {s t : State} {op} (h : Kept s t) : Res.Kept s (execTapInstruction op t) := by
  unfold execTapInstruction
  with_reducible repeat' first
    | exact h | assumption | apply Res.Kept.next | apply Res.Kept.ite | apply tapOut_kept | apply underRight_kept | apply modCore_kept
    | apply tapMemory_kept | apply tapRegs_kept | apply tapFlash_kept | apply tapOther_kept | simp only | split | intro _

/-! ### Core: The machine the host runs -/

theorem counted_kept {s t : State} {r} (h : Kept s t) : Kept s (t.counted r) := by
  unfold State.counted
  with_reducible repeat' first | exact h | apply countReq_kept | apply outstanding_kept | apply pickBus_kept

/-! ### Every command -/

theorem exec_kept (s : State) : ∀ i : Instr, Res.Kept s (exec i s)
  | .registerWrite .. => execRegisterWrite_kept .rfl
  | .decodeAccess .. => execDecodeAccess_kept .rfl
  | .tick .. => execTick_kept .rfl
  | .faultNotify => execFaultNotify_kept .rfl
  | .faultPulseEnd => execFaultPulseEnd_kept .rfl
  | .shadowCapture => execShadowCapture_kept .rfl
  | .frameSwap => execFrameSwap_kept .rfl
  | .dspGo => execDspGo_kept .rfl
  | .dspCancel => execDspCancel_kept .rfl
  | .shadowTableWrite .. => execShadowTableWrite_kept .rfl
  | .benQuarantineWrite .. => execBenQuarantineWrite_kept .rfl
  | .benReturn .. => execBenReturn_kept .rfl
  | .benchQuarantine .. => execBenchQuarantine_kept .rfl
  | .benchWipeDone .. => execBenchWipeDone_kept .rfl
  | .leaseQuarantine .. => execLeaseQuarantine_kept .rfl
  | .replacementSearch .. => execReplacementSearch_kept .rfl
  | .wakeAdmission => execWakeAdmission_kept .rfl
  | .benchRampEnd .. => execBenchRampEnd_kept .rfl
  | .benchIdleOff .. => execBenchIdleOff_kept .rfl
  | .pwrOffWrite .. => execPwrOffWrite_kept .rfl
  | .pwrWakeWrite .. => execPwrWakeWrite_kept .rfl
  | .doorbellWrite .. => execDoorbellWrite_kept .rfl
  | .cqDoorbellWrite .. => execCqDoorbellWrite_kept .rfl
  | .entryFetch .. => execEntryFetch_kept .rfl
  | .yardLineFill .. => execYardLineFill_kept .rfl
  | .commandStaged .. => execCommandStaged_kept .rfl
  | .completionWrite .. => execCompletionWrite_kept .rfl
  | .irqAgeExpiry .. => execIrqAgeExpiry_kept .rfl
  | .queueEnable .. => execQueueEnable_kept .rfl
  | .queueReset .. => execQueueReset_kept .rfl
  | .queueResetDone .. => execQueueResetDone_kept .rfl
  | .hqQcfgWrite .. => execHqQcfgWrite_kept .rfl
  | .barDecodeAccess .. => execBarDecodeAccess_kept .rfl
  | .vfFlr .. => execVfFlr_kept .rfl
  | .pfFlr => execPfFlr_kept .rfl
  | .sriovNumvfsWrite .. => execSriovNumvfsWrite_kept .rfl
  | .pcieLinkChange .. => execPcieLinkChange_kept .rfl
  | .pciePerst => execPciePerst_kept .rfl
  | .nop .. => execNop_kept .rfl
  | .digest .. => execDigest_kept .rfl
  | .macGen .. => execMacGen_kept .rfl
  | .macVerify .. => execMacVerify_kept .rfl
  | .cbcEnc .. => execCbcEnc_kept .rfl
  | .cbcDec .. => execCbcDec_kept .rfl
  | .ctr .. => execCtr_kept .rfl
  | .gcmEnc .. => execGcmEnc_kept .rfl
  | .gcmEncRiv .. => execGcmEncRiv_kept .rfl
  | .gcmDec .. => execGcmDec_kept .rfl
  | .cmacGen .. => execCmacGen_kept .rfl
  | .cmacVerify .. => execCmacVerify_kept .rfl
  | .rsaPriv .. => execRsaPriv_kept .rfl
  | .rsaPub .. => execRsaPub_kept .rfl
  | .edSign .. => execEdSign_kept .rfl
  | .edVerify .. => execEdVerify_kept .rfl
  | .ecdsaSign .. => execEcdsaSign_kept .rfl
  | .ecdsaVerify .. => execEcdsaVerify_kept .rfl
  | .x25519 .. => execX25519_kept .rfl
  | .ecdh .. => execEcdh_kept .rfl
  | .keygenEc .. => execKeygenEc_kept .rfl
  | .mldsaKeygen .. => execMldsaKeygen_kept .rfl
  | .mldsaSign .. => execMldsaSign_kept .rfl
  | .mldsaVerify .. => execMldsaVerify_kept .rfl
  | .mlkemKeygen .. => execMlkemKeygen_kept .rfl
  | .mlkemEncaps .. => execMlkemEncaps_kept .rfl
  | .mlkemDecaps .. => execMlkemDecaps_kept .rfl
  | .hybSign .. => execHybSign_kept .rfl
  | .hybVerify .. => execHybVerify_kept .rfl
  | .keyGen .. => execKeyGen_kept .rfl
  | .keyWrap .. => execKeyWrap_kept .rfl
  | .keyUnwrap .. => execKeyUnwrap_kept .rfl
  | .keyDerive .. => execKeyDerive_kept .rfl
  | .keyPub .. => execKeyPub_kept .rfl
  | .keyInval .. => execKeyInval_kept .rfl
  | .keyInfo .. => execKeyInfo_kept .rfl
  | .rngGet .. => execRngGet_kept .rfl
  | .prgCall .. => execPrgCall_kept .rfl
  | .hostCallDelivery .. => execHostCallDelivery_kept .rfl
  | .cutJctlGo .. => execCutJctlGo_kept .rfl
  | .cutLoad .. => execCutLoad_kept .rfl
  | .cutStore .. => execCutStore_kept .rfl
  | .yload .. => execYload_kept .rfl
  | .ystore .. => execYstore_kept .rfl
  | .madd .. => execMadd_kept .rfl
  | .msub .. => execMsub_kept .rfl
  | .mmul .. => execMmul_kept .rfl
  | .mprep .. => execMprep_kept .rfl
  | .minv .. => execMinv_kept .rfl
  | .mexp .. => execMexp_kept .rfl
  | .pmul .. => execPmul_kept .rfl
  | .cutPadd .. => execCutPadd_kept .rfl
  | .releasePub .. => execReleasePub_kept .rfl
  | .releasePt .. => execReleasePt_kept .rfl
  | .cutNative .. => execCutNative_kept .rfl
  | .cutCtlClr .. => execCutCtlClr_kept .rfl
  | .splCtlClr .. => execSplCtlClr_kept .rfl
  | .wdgCtlClr .. => execWdgCtlClr_kept .rfl
  | .digCtlClr .. => execDigCtlClr_kept .rfl
  | .engineRecordClear .. => execEngineRecordClear_kept .rfl
  | .splJctlGo .. => execSplJctlGo_kept .rfl
  | .pload .. => execPload_kept .rfl
  | .pstore .. => execPstore_kept .rfl
  | .pntt .. => execPntt_kept .rfl
  | .pintt .. => execPintt_kept .rfl
  | .pmult .. => execPmult_kept .rfl
  | .splPadd .. => execSplPadd_kept .rfl
  | .psub .. => execPsub_kept .rfl
  | .splNative .. => execSplNative_kept .rfl
  | .wdgJctlGo .. => execWdgJctlGo_kept .rfl
  | .wdgRequest .. => execWdgRequest_kept .rfl
  | .digJctlGo .. => execDigJctlGo_kept .rfl
  | .digOpen .. => execDigOpen_kept .rfl
  | .digFeed .. => execDigFeed_kept .rfl
  | .digCmp .. => execDigCmp_kept .rfl
  | .digClose .. => execDigClose_kept .rfl
  | .digOwnWrite .. => execDigOwnWrite_kept .rfl
  | .heldRangeAccess m .. => execHeldRangeAccess_kept (_m := m) .rfl
  | .yardLoadGo .. => execYardLoadGo_kept .rfl
  | .yardLoadDone .. => execYardLoadDone_kept .rfl
  | .pendingCheck .. => execPendingCheck_kept .rfl
  | .pendingClear .. => execPendingClear_kept .rfl
  | .sweeperFrame => execSweeperFrame_kept .rfl
  | .leaseScrub .. => execLeaseScrub_kept .rfl
  | .yardRangeWrite .. => execYardRangeWrite_kept .rfl
  | .persistRecordAppend => execPersistRecordAppend_kept .rfl
  | .yardStoreCompaction => execYardStoreCompaction_kept .rfl
  | .quorumWrite .. => execQuorumWrite_kept .rfl
  | .grantStart .. => execGrantStart_kept .rfl
  | .custodianCounted .. => execCustodianCounted_kept .rfl
  | .grantWindowExpiry => execGrantWindowExpiry_kept .rfl
  | .grantExpiry .. => execGrantExpiry_kept .rfl
  | .grantRevoke .. => execGrantRevoke_kept .rfl
  | .ceremonyStart .. => execCeremonyStart_kept .rfl
  | .ceremonyClose .. => execCeremonyClose_kept .rfl
  | .ceremonyTimeout => execCeremonyTimeout_kept .rfl
  | .keyLoadingCeremony .. => execKeyLoadingCeremony_kept .rfl
  | .rngWarmupEnd .. => execRngWarmupEnd_kept .rfl
  | .rngTestEnd => execRngTestEnd_kept .rfl
  | .rngReady => execRngReady_kept .rfl
  | .rngSourceExcluded .. => execRngSourceExcluded_kept .rfl
  | .rngRetestWrite .. => execRngRetestWrite_kept .rfl
  | .rngRetestEnd .. => execRngRetestEnd_kept .rfl
  | .rngRestartWrite => execRngRestartWrite_kept .rfl
  | .rngAutoRestart => execRngAutoRestart_kept .rfl
  | .seedConditioned => execSeedConditioned_kept .rfl
  | .expanderReseed .. => execExpanderReseed_kept .rfl
  | .expanderStretch .. => execExpanderStretch_kept .rfl
  | .expanderBlocked .. => execExpanderBlocked_kept .rfl
  | .rngMaskWrite .. => execRngMaskWrite_kept .rfl
  | .rngPortRead .. => execRngPortRead_kept .rfl
  | .rngPortWrite .. => execRngPortWrite_kept .rfl
  | .hostRebootRequest => execHostRebootRequest_kept .rfl
  | .bmcPortDisconnect .. => execBmcPortDisconnect_kept .rfl
  | .manifestReverify .. => execManifestReverify_kept .rfl
  | .portDiscovery .. => execPortDiscovery_kept .rfl
  | .regionMeasure .. => execRegionMeasure_kept .rfl
  | .gateRecovery .. => execGateRecovery_kept .rfl
  | .ledgerRecordWrite .. => execLedgerRecordWrite_kept .rfl
  | .releaseSequence => execReleaseSequence_kept .rfl
  | .flgHold => execFlgHold_kept .rfl
  | .flgRelease => execFlgRelease_kept .rfl
  | .flgBmcbWrite .. => execFlgBmcbWrite_kept .rfl
  | .operatorRelease .. => execOperatorRelease_kept .rfl
  | .recoveryRequest .. => execRecoveryRequest_kept .rfl
  | .portBOwnerWrite .. => execPortBOwnerWrite_kept .rfl
  | .ackseqWrite .. => execAckseqWrite_kept .rfl
  | .recordSelectorWrite .. => execRecordSelectorWrite_kept .rfl
  | .tagCommitRetry => execTagCommitRetry_kept .rfl
  | .spdmGetVersion .. => execSpdmGetVersion_kept .rfl
  | .spdmGetCapabilities .. => execSpdmGetCapabilities_kept .rfl
  | .spdmNegotiateAlgorithms .. => execSpdmNegotiateAlgorithms_kept .rfl
  | .spdmGetDigests .. => execSpdmGetDigests_kept .rfl
  | .spdmGetCertificate .. => execSpdmGetCertificate_kept .rfl
  | .spdmChallenge .. => execSpdmChallenge_kept .rfl
  | .spdmGetMeasurements .. => execSpdmGetMeasurements_kept .rfl
  | .spdmKeyExchange .. => execSpdmKeyExchange_kept .rfl
  | .spdmFinish .. => execSpdmFinish_kept .rfl
  | .spdmHeartbeat .. => execSpdmHeartbeat_kept .rfl
  | .spdmKeyUpdate .. => execSpdmKeyUpdate_kept .rfl
  | .spdmEndSession .. => execSpdmEndSession_kept .rfl
  | .spdmVendorDefinedRequest .. => execSpdmVendorDefinedRequest_kept .rfl
  | .ideKmKeyProg .. => execIdeKmKeyProg_kept .rfl
  | .trvNop .. => execTrvNop_kept .rfl
  | .mov .. => execMov_kept .rfl
  | .add .. => execAdd_kept .rfl
  | .sub .. => execSub_kept .rfl
  | .adc .. => execAdc_kept .rfl
  | .sbc .. => execSbc_kept .rfl
  | .and .. => execAnd_kept .rfl
  | .or .. => execOr_kept .rfl
  | .xor .. => execXor_kept .rfl
  | .not .. => execNot_kept .rfl
  | .shl .. => execShl_kept .rfl
  | .shr .. => execShr_kept .rfl
  | .mul .. => execMul_kept .rfl
  | .ceq .. => execCeq_kept .rfl
  | .cltu .. => execCltu_kept .rfl
  | .clts .. => execClts_kept .rfl
  | .cnz .. => execCnz_kept .rfl
  | .mask .. => execMask_kept .rfl
  | .mova .. => execMova_kept .rfl
  | .adda .. => execAdda_kept .rfl
  | .suba .. => execSuba_kept .rfl
  | .setal .. => execSetal_kept .rfl
  | .setah .. => execSetah_kept .rfl
  | .getal .. => execGetal_kept .rfl
  | .getah .. => execGetah_kept .rfl
  | .ld .. => execLd_kept .rfl
  | .st .. => execSt_kept .rfl
  | .ldPostinc .. => execLdPostinc_kept .rfl
  | .stPostinc .. => execStPostinc_kept .rfl
  | .push .. => execPush_kept .rfl
  | .pop .. => execPop_kept .rfl
  | .pusha .. => execPusha_kept .rfl
  | .popa .. => execPopa_kept .rfl
  | .wclr .. => execWclr_kept .rfl
  | .wmov .. => execWmov_kept .rfl
  | .wadd .. => execWadd_kept .rfl
  | .wsub .. => execWsub_kept .rfl
  | .wxor .. => execWxor_kept .rfl
  | .wand .. => execWand_kept .rfl
  | .wshl8 .. => execWshl8_kept .rfl
  | .wshr8 .. => execWshr8_kept .rfl
  | .jmp .. => execJmp_kept .rfl
  | .jsr .. => execJsr_kept .rfl
  | .rts .. => execRts_kept .rfl
  | .rte .. => execRte_kept .rfl
  | .trap .. => execTrap_kept .rfl
  | .hostret .. => execHostret_kept .rfl
  | .islandServiceRequest .. => execIslandServiceRequest_kept .rfl
  | .islandServiceComplete .. => execIslandServiceComplete_kept .rfl
  | .waitt .. => execWaitt_kept .rfl
  | .getsr .. => execGetsr_kept .rfl
  | .setsr .. => execSetsr_kept .rfl
  | .getid .. => execGetid_kept .rfl
  | .gettk .. => execGettk_kept .rfl
  | .movi .. => execMovi_kept .rfl
  | .addi .. => execAddi_kept .rfl
  | .andi .. => execAndi_kept .rfl
  | .xori .. => execXori_kept .rfl
  | .ceqi .. => execCeqi_kept .rfl
  | .cltui .. => execCltui_kept .rfl
  | .bz .. => execBz_kept .rfl
  | .bnz .. => execBnz_kept .rfl
  | .bra .. => execBra_kept .rfl
  | .movia .. => execMovia_kept .rfl
  | .addia .. => execAddia_kept .rfl
  | .ldx .. => execLdx_kept .rfl
  | .stx .. => execStx_kept .rfl
  | .jmpl .. => execJmpl_kept .rfl
  | .jsrl .. => execJsrl_kept .rfl
  | .bzl .. => execBzl_kept .rfl
  | .bnzl .. => execBnzl_kept .rfl
  | .wgetb .. => execWgetb_kept .rfl
  | .wputb .. => execWputb_kept .rfl
  | .wceq .. => execWceq_kept .rfl
  | .movb .. => execMovb_kept .rfl
  | .cmpb .. => execCmpb_kept .rfl
  | .fillb .. => execFillb_kept .rfl
  | .wmacb .. => execWmacb_kept .rfl
  | .xin .. => execXin_kept .rfl
  | .xout .. => execXout_kept .rfl
  | .illegalInstruction .. => execIllegalInstruction_kept .rfl
  | .interruptEntry .. => execInterruptEntry_kept .rfl
  | .fncCtlWrite .. => execFncCtlWrite_kept .rfl
  | .fncWinWrite .. => execFncWinWrite_kept .rfl
  | .fncFenWrite .. => execFncFenWrite_kept .rfl
  | .programLoad .. => execProgramLoad_kept .rfl
  | .programVerifyDone .. => execProgramVerifyDone_kept .rfl
  | .programPageCopy .. => execProgramPageCopy_kept .rfl
  | .programKeyWrite .. => execProgramKeyWrite_kept .rfl
  | .programMinsvnWrite .. => execProgramMinsvnWrite_kept .rfl
  | .cardInserted => execCardInserted_kept .rfl
  | .cardRemoved .. => execCardRemoved_kept .rfl
  | .crdAct => execCrdAct_kept .rfl
  | .crdDeact .. => execCrdDeact_kept .rfl
  | .crdSend .. => execCrdSend_kept .rfl
  | .atrReceived .. => execAtrReceived_kept .rfl
  | .atrTimeout => execAtrTimeout_kept .rfl
  | .ppsResponse .. => execPpsResponse_kept .rfl
  | .ppsTimeout => execPpsTimeout_kept .rfl
  | .wwtTimeout .. => execWwtTimeout_kept .rfl
  | .t1BwtTimeout .. => execT1BwtTimeout_kept .rfl
  | .apduExchangeTimeout .. => execApduExchangeTimeout_kept .rfl
  | .cardSelect .. => execCardSelect_kept .rfl
  | .getCred .. => execGetCred_kept .rfl
  | .auth .. => execAuth_kept .rfl
  | .readObj .. => execReadObj_kept .rfl
  | .writeObj .. => execWriteObj_kept .rfl
  | .checkObj .. => execCheckObj_kept .rfl
  | .getResponse .. => execGetResponse_kept .rfl
  | .lpcdPing .. => execLpcdPing_kept .rfl
  | .wupa .. => execWupa_kept .rfl
  | .reqa .. => execReqa_kept .rfl
  | .anticollision .. => execAnticollision_kept .rfl
  | .readerSelect .. => execReaderSelect_kept .rfl
  | .rats .. => execRats_kept .rfl
  | .hlta => execHlta_kept .rfl
  | .ctlSend .. => execCtlSend_kept .rfl
  | .ctlHalt => execCtlHalt_kept .rfl
  | .ctlOff .. => execCtlOff_kept .rfl
  | .ctlLpcdEnable .. => execCtlLpcdEnable_kept .rfl
  | .tagFieldOn => execTagFieldOn_kept .rfl
  | .tagFieldOff => execTagFieldOff_kept .rfl
  | .tagWake .. => execTagWake_kept .rfl
  | .tagSelect => execTagSelect_kept .rfl
  | .tagRead .. => execTagRead_kept .rfl
  | .tagVerify .. => execTagVerify_kept .rfl
  | .noteWrite .. => execNoteWrite_kept .rfl
  | .noteCommit .. => execNoteCommit_kept .rfl
  | .tagWcmtGo .. => execTagWcmtGo_kept .rfl
  | .tagCommitDone => execTagCommitDone_kept .rfl
  | .officerQuorumWrite .. => execOfficerQuorumWrite_kept .rfl
  | .tagPasswordWrite .. => execTagPasswordWrite_kept .rfl
  | .attemptsReset .. => execAttemptsReset_kept .rfl
  | .hello .. => execHello_kept .rfl
  | .read .. => execRead_kept .rfl
  | .write .. => execWrite_kept .rfl
  | .segRead .. => execSegRead_kept .rfl
  | .segWriteStart .. => execSegWriteStart_kept .rfl
  | .segWrite .. => execSegWrite_kept .rfl
  | .segWriteEnd .. => execSegWriteEnd_kept .rfl
  | .segAbort .. => execSegAbort_kept .rfl
  | .info .. => execInfo_kept .rfl
  | .enum .. => execEnum_kept .rfl
  | .segSessionTimeout .. => execSegSessionTimeout_kept .rfl
  | .setEndpointId .. => execSetEndpointId_kept .rfl
  | .getEndpointId .. => execGetEndpointId_kept .rfl
  | .getMctpVersionSupport .. => execGetMctpVersionSupport_kept .rfl
  | .getMessageTypeSupport .. => execGetMessageTypeSupport_kept .rfl
  | .getVendorDefinedMsgSupport .. => execGetVendorDefinedMsgSupport_kept .rfl
  | .slotPlanWrite .. => execSlotPlanWrite_kept .rfl
  | .dictApply .. => execDictApply_kept .rfl
  | .rtcWrite .. => execRtcWrite_kept .rfl
  | .leaseRelease .. => execLeaseRelease_kept .rfl
  | .stagingQuotaWrite .. => execStagingQuotaWrite_kept .rfl
  | .severityWrite .. => execSeverityWrite_kept .rfl
  | .tokenWrite .. => execTokenWrite_kept .rfl
  | .lifecycleRequest .. => execLifecycleRequest_kept .rfl
  | .lifecycleVerifyDone => execLifecycleVerifyDone_kept .rfl
  | .lcsCtlGo .. => execLcsCtlGo_kept .rfl
  | .galleryCertWrite .. => execGalleryCertWrite_kept .rfl
  | .galleryRightsLapse => execGalleryRightsLapse_kept .rfl
  | .galleryConsentWrite .. => execGalleryConsentWrite_kept .rfl
  | .galGrantWrite .. => execGalGrantWrite_kept .rfl
  | .tapInstruction .. => execTapInstruction_kept .rfl
  | .identityRecordWrite .. => execIdentityRecordWrite_kept .rfl
  | .tamperSample .. => execTamperSample_kept .rfl
  | .vaultPowerOn => execVaultPowerOn_kept .rfl
  | .stagingLogMove => execStagingLogMove_kept .rfl
  | .unlockRequest .. => execUnlockRequest_kept .rfl
  | .officerUnlockStart .. => execOfficerUnlockStart_kept .rfl
  | .tmpUnlatch => execTmpUnlatch_kept .rfl
  | .tmpOvfclr => execTmpOvfclr_kept .rfl
  | .tmpSavedWrite .. => execTmpSavedWrite_kept .rfl
  | .tmpSlogRead .. => execTmpSlogRead_kept .rfl
  | .tamperResponseWrite .. => execTamperResponseWrite_kept .rfl
  | .tamperWindowWrite .. => execTamperWindowWrite_kept .rfl
  | .fltAckGo .. => execFltAckGo_kept .rfl
  | .fltInjGo .. => execFltInjGo_kept .rfl
  | .fltQRead => execFltQRead_kept .rfl
  | .eventQueueDrain .. => execEventQueueDrain_kept .rfl
  | .modeChange => execModeChange_kept .rfl
  | .dieTempHigh .. => execDieTempHigh_kept .rfl
  | .clockMonitorFault .. => execClockMonitorFault_kept .rfl
  | .mainPowerReset => execMainPowerReset_kept .rfl
  | .pltPwrokFall => execPltPwrokFall_kept .rfl
  | .sysRstRise .. => execSysRstRise_kept .rfl
  | .sysRstFall => execSysRstFall_kept .rfl
  | .supplyMonitorReset .. => execSupplyMonitorReset_kept .rfl
  | .resetWipeEnd => execResetWipeEnd_kept .rfl
  | .islandStart => execIslandStart_kept .rfl
  | .pflSequenceWrite .. => execPflSequenceWrite_kept .rfl
  | .program .. => execProgram_kept .rfl
  | .eraseSector .. => execEraseSector_kept .rfl
  | .eraseChip .. => execEraseChip_kept .rfl
  | .flashOpEnd => execFlashOpEnd_kept .rfl
  | .pflSwapGo => execPflSwapGo_kept .rfl
  | .swapPairWriteEnd => execSwapPairWriteEnd_kept .rfl
  | .flashRead .. => execFlashRead_kept .rfl
  | .tagSelection => execTagSelection_kept .rfl
  | .tagHalt => execTagHalt_kept .rfl
  | .vflBandChange .. => execVflBandChange_kept .rfl
  | .poisonedTlpReceived .. => execPoisonedTlpReceived_kept .rfl

theorem tail_of_idle {s : State} (e : s.pending = []) : { s with pending := s.pending.tail } = s := by
  cases s; cases e; rfl

/-- A step answers a next state, which may follow its state with one command less waiting. -/
theorem step_kept (s : State) : Res.Kept { s with pending := s.pending.tail } (step s) := by
  unfold step
  split
  next e => exact ⟨s, rfl, by rw [tail_of_idle e]; exact .rfl⟩
  next e => rw [e]; exact exec_kept _ _

end Sys2Proof.Machine

namespace Sys2Proof.Proofs
open Sys2Proof Sys2Proof.Machine

/-- Settles O57: every command answers a next state (`exec_kept`). -/
theorem blockGoesOn : Obligations.BlockGoesOn := by
  intro s
  obtain ⟨t, ht, -⟩ := step_kept s
  exact ⟨t, ht⟩

/-- Settles O58: no command writes memory but by `State.ramWrite`, `State.ramClear` and the wipe of a reset, which keep its form. -/
theorem memoryStaysCanonical : Obligations.MemoryStaysCanonical := by
  intro s t wf ht
  obtain ⟨u, hu, kept⟩ := step_kept s
  obtain rfl := Host.Outcome.next.inj (hu.symm.trans ht)
  exact kept.ram wf

/-- Settles O59: what `Kept` says of a step. -/
theorem fusesStand : Obligations.FusesStand := by
  intro s t ht
  obtain ⟨u, hu, kept⟩ := step_kept s
  obtain rfl := Host.Outcome.next.inj (hu.symm.trans ht)
  exact ⟨kept.pending, kept.variant, kept.stepping, kept.unit, kept.vendorEd, kept.vendorMl, kept.token1, kept.token2, kept.pairs, kept.count⟩

end Sys2Proof.Proofs

/-! PROOFS. The Triven instructions without memory access: data, immediates, address registers, status, accumulators (R276-R289). -/

namespace Sys2Proof.Machine
open Sys2Proof Sys2Proof.Claims

/-! ### Conditions, carries and bytes of an address as the spec says them -/

theorem flag8_decide (p : Prop) [Decidable p] : flag8 (decide p) = if p then 1 else 0 := by
  simp only [flag8, decide_eq_true_eq]

theorem flag8_decide_not (p : Prop) [Decidable p] : flag8 (decide ¬p) = if p then 0 else 1 := by
  rw [flag8_decide, ite_not]

theorem flag8_ult (a b : BitVec 8) : flag8 (a.ult b) = if a.toNat < b.toNat then 1 else 0 := flag8_decide _

theorem flag8_slt (a b : BitVec 8) : flag8 (a.slt b) = if a.toInt < b.toInt then 1 else 0 := flag8_decide _

/-- The carry in D7 is the parity of D7. -/
theorem bit_getLsbD_zero (v : BitVec 8) : bit (v.getLsbD 0) = v.toNat % 2 := by
  rw [bit, BitVec.getLsbD, Nat.testBit_zero]
  simp only [decide_eq_true_eq]
  split <;> omega

theorem testBit_low (n : Nat) {i : Nat} (h : i < 8) : (n % 256).testBit i = n.testBit i := by
  rw [show (256 : Nat) = 2 ^ 8 from rfl, Nat.testBit_mod_two_pow, decide_eq_true h, Bool.true_and]

theorem setLow_eq (v : BitVec 16) (b : BitVec 8) : (v &&& 0xFF00) ||| b.setWidth 16 = BitVec.ofNat 16 (v.toNat / 256 * 256 + b.toNat) := by
  have mask : ∀ i < 16, (0xFF00 : BitVec 16).getLsbD i = !decide (i < 8) := by decide
  refine BitVec.eq_of_getLsbD_eq fun i hi => ?_
  rw [BitVec.getLsbD_ofNat, show v.toNat / 256 * 256 + b.toNat = 2 ^ 8 * (v.toNat / 2 ^ 8) + b.toNat by omega, Nat.testBit_two_pow_mul_add _ b.isLt,
    BitVec.getLsbD_or, BitVec.getLsbD_and, mask i hi, BitVec.getLsbD_setWidth]
  by_cases low : i < 8
  · simp [hi, low, BitVec.getLsbD]
  · have off : b.getLsbD i = false := BitVec.getLsbD_of_ge b i (by omega)
    have at8 : (v.toNat / 2 ^ 8).testBit (i - 8) = v.getLsbD i := by
      rw [Nat.testBit_div_two_pow, show i - 8 + 8 = i by omega, BitVec.getLsbD]
    rw [at8]
    simp [hi, low, off]

theorem setHigh_eq (v : BitVec 16) (b : BitVec 8) :
    (v &&& (0x00FF : BitVec 16)) ||| (b.setWidth 16 <<< 8) = BitVec.ofNat 16 (v.toNat % 256 + 256 * b.toNat) := by
  have mask : ∀ i < 16, (0x00FF : BitVec 16).getLsbD i = decide (i < 8) := by decide
  refine BitVec.eq_of_getLsbD_eq fun i hi => ?_
  rw [BitVec.getLsbD_ofNat, show v.toNat % 256 + 256 * b.toNat = 2 ^ 8 * b.toNat + v.toNat % 2 ^ 8 by omega,
    Nat.testBit_two_pow_mul_add _ (Nat.mod_lt _ (by decide)), BitVec.getLsbD_or, BitVec.getLsbD_and, mask i hi, BitVec.getLsbD_shiftLeft,
    BitVec.getLsbD_setWidth]
  by_cases low : i < 8
  · simp [hi, low, BitVec.getLsbD, testBit_low v.toNat low]
  · simp [hi, low, BitVec.getLsbD, show i - 8 < 16 by omega]

theorem setWidth_eq_ofNat {n : Nat} (m : Nat) (v : BitVec n) : v.setWidth m = BitVec.ofNat m v.toNat := BitVec.eq_of_toNat_eq (by simp)

theorem lowByte_shift_eq (v : BitVec 16) : (v >>> 8).setWidth 8 = BitVec.ofNat 8 (v.toNat / 256) := by
  rw [setWidth_eq_ofNat, BitVec.toNat_ushiftRight, Nat.shiftRight_eq_div_pow]

/-- Where the data operation's function is the one stated, so is the row's effect. -/
theorem completes_of_dataOp {i : Instr} {c : Nat} {w : Triven} {x y : BitVec 3} {f : BitVec 8 → BitVec 8 → BitVec 8} {g : Core → BitVec 8} {s t : State}
    (h : exec i s = .next (dataOp c w x y f s)) (hg : ∀ r : Core, f (r.dr x) (r.dr y) = g r) : Completes i c w 2 1 (fun r => r.setD x (g r)) s t :=
  completes_of_runReg (h.trans (by simp only [dataOp, hg]))

/-- The same for an operation with an immediate, and for one on an address register. -/
theorem completes_of_immOp {i : Instr} {c : Nat} {w : Triven} {x : BitVec 3} {f : BitVec 8 → BitVec 8} {g : Core → BitVec 8} {s t : State}
    (h : exec i s = .next (immOp c w x f s)) (hg : ∀ r : Core, f (r.dr x) = g r) : Completes i c w 2 1 (fun r => r.setD x (g r)) s t :=
  completes_of_runReg (h.trans (by simp only [immOp, hg]))

theorem completes_of_addrOp {i : Instr} {c : Nat} {w : Triven} {x : BitVec 3} {f g : Core → BitVec 16} {s t : State}
    (h : exec i s = .next (addrOp c w x f s)) (hg : ∀ r : Core, f r = g r) : Completes i c w 2 1 (fun r => r.setA x (g r)) s t :=
  completes_of_runReg (h.trans (by simp only [addrOp, hg]))

theorem exec_adc {x y : BitVec 3} (hx : x ≠ 7) (hy : y ≠ 7) (c : Nat) (s : State) :
    exec (.adc c x y) s = .next (runReg c (.adc x y) 1 (fun r =>
      let n := (r.dr x).toNat + (r.dr y).toNat + (r.dr 7).toNat % 2
      (r.setD x (BitVec.ofNat 8 n)).setD 7 (if 256 ≤ n then 1 else 0)) s) := by
  refine (if_neg (by simpa only [Bool.or_eq_true, decide_eq_true_eq, not_or] using ⟨hx, hy⟩) : execAdc c x y s = _).trans ?_
  simp only [bit_getLsbD_zero, flag8_decide]

theorem exec_sbc {x y : BitVec 3} (hx : x ≠ 7) (hy : y ≠ 7) (c : Nat) (s : State) :
    exec (.sbc c x y) s = .next (runReg c (.sbc x y) 1 (fun r =>
      let n := (r.dr y).toNat + (r.dr 7).toNat % 2
      (r.setD x (r.dr x - BitVec.ofNat 8 n)).setD 7 (if (r.dr x).toNat < n then 1 else 0)) s) := by
  refine (if_neg (by simpa only [Bool.or_eq_true, decide_eq_true_eq, not_or] using ⟨hx, hy⟩) : execSbc c x y s = _).trans ?_
  simp only [bit_getLsbD_zero, flag8_decide]

theorem exec_adc_sbc_of_carry {x y : BitVec 3} (h : x = 7 ∨ y = 7) (c : Nat) (s : State) :
    exec (.adc c x y) s = exec (.illegalInstruction c) s ∧ exec (.sbc c x y) s = exec (.illegalInstruction c) s :=
  have seven : (decide (x = 7) || decide (y = 7)) = true := by simpa only [Bool.or_eq_true, decide_eq_true_eq] using h
  ⟨(if_pos seven : execAdc c x y s = _), (if_pos seven : execSbc c x y s = _)⟩

/-! ### Lanes -/

theorem mul_256_eq_shift (v : BitVec 512) : v <<< 8 = BitVec.ofNat 512 (v.toNat * 256) := by
  apply BitVec.eq_of_toNat_eq
  rw [BitVec.toNat_shiftLeft, BitVec.toNat_ofNat, Nat.shiftLeft_eq]

theorem div_256_eq_shift (v : BitVec 512) : v >>> 8 = BitVec.ofNat 512 (v.toNat / 256) := by
  apply BitVec.eq_of_toNat_eq
  rw [BitVec.toNat_ushiftRight, BitVec.toNat_ofNat, Nat.shiftRight_eq_div_pow, Nat.mod_eq_of_lt (lt_of_le_of_lt (Nat.div_le_self ..) v.isLt)]

theorem lane_eq (v : BitVec 512) (j : BitVec 6) : lane v j = BitVec.ofNat 8 (v.toNat / 256 ^ j.toNat) := by
  rw [lane, setWidth_eq_ofNat, BitVec.toNat_ushiftRight, Nat.shiftRight_eq_div_pow, pow_mul, show (2 : Nat) ^ 8 = 256 from rfl]

theorem getLsbD_lane (v : BitVec 512) (j : BitVec 6) {i : Nat} (h : i < 8) : (lane v j).getLsbD i = v.getLsbD (8 * j.toNat + i) := by
  rw [lane, BitVec.getLsbD_setWidth, BitVec.getLsbD_ushiftRight, decide_eq_true h, Bool.true_and]

theorem getLsbD_setLane (v : BitVec 512) (j : BitVec 6) (b : BitVec 8) (k : BitVec 6) {i : Nat} (h : i < 8) :
    (setLane v j b).getLsbD (8 * k.toNat + i) = if k = j then b.getLsbD i else v.getLsbD (8 * k.toNat + i) := by
  have mask : ∀ n, (0xFF : BitVec 512).getLsbD n = decide (n < 8) := fun n => by
    rw [show (0xFF : BitVec 512) = BitVec.ofNat 512 255 from rfl, BitVec.getLsbD_ofNat, show (255 : Nat) = 2 ^ 8 - 1 from rfl, Nat.testBit_two_pow_sub_one]
    simp only [Bool.and_eq_right_iff_imp, decide_eq_true_eq]
    omega
  have inside : 8 * k.toNat + i < 512 := by have := k.isLt; omega
  simp only [setLane, BitVec.getLsbD_or, BitVec.getLsbD_and, BitVec.getLsbD_not, BitVec.getLsbD_shiftLeft, BitVec.getLsbD_setWidth, mask,
    decide_eq_true inside, Bool.true_and]
  obtain rfl | ne := eq_or_ne k j
  · simp [h, show i < 512 by omega]
  · have apart : k.toNat ≠ j.toNat := fun e => ne (BitVec.eq_of_toNat_eq e)
    by_cases low : 8 * k.toNat + i < 8 * j.toNat
    · simp [ne, low]
    · have far : ¬8 * k.toNat + i - 8 * j.toNat < 8 := by omega
      simp [ne, low, far, BitVec.getLsbD_of_ge b _ (Nat.not_lt.mp far)]

/-- A write of lane `j` is read back there, and every other lane reads as before. -/
theorem lane_setLane (v : BitVec 512) (j : BitVec 6) (b : BitVec 8) (k : BitVec 6) : lane (setLane v j b) k = if k = j then b else lane v k := by
  refine BitVec.eq_of_getLsbD_eq fun i hi => ?_
  rw [getLsbD_lane _ _ hi, getLsbD_setLane _ _ _ _ hi, apply_ite (BitVec.getLsbD · i), getLsbD_lane _ _ hi]

theorem Core.wr_pc (x : Core) (v : BitVec 16) (i : BitVec 2) : ({ x with pc := v } : Core).wr i = x.wr i := rfl

theorem ended_wr (len cost : Nat) (g : Core → Core) (x : Core) (i : BitVec 2) :
    (ended len cost g x).wr i = (g { x with pc := x.pc + BitVec.ofNat 16 len }).wr i := rfl

theorem Core.dr_pc (x : Core) (v : BitVec 16) (i : BitVec 3) : ({ x with pc := v } : Core).dr i = x.dr i := rfl

theorem ended_dr (len cost : Nat) (g : Core → Core) (x : Core) (i : BitVec 3) :
    (ended len cost g x).dr i = (g { x with pc := x.pc + BitVec.ofNat 16 len }).dr i := rfl

theorem exec_mul {x y : BitVec 3} (h : x ≠ y) (c : Nat) (s : State) :
    exec (.mul c x y) s = .next (runReg c (.mul x y) 2 (fun r =>
      let n := (r.dr x).toNat * (r.dr y).toNat
      (r.setD y (BitVec.ofNat 8 (n / 256))).setD x (BitVec.ofNat 8 n)) s) := (if_neg h : execMul c x y s = _)

end Sys2Proof.Machine

namespace Sys2Proof.Machine
open Sys2Proof Sys2Proof.Claims

/-- An instruction whose effect depends on the registers that the core had before it. -/
theorem completes_of_const {i : Instr} {c len cost : Nat} {w : Triven} {f : Core → Core → Core} {s t : State}
    (h : exec i s = .next (runShort c (some w) cost (fun r s => .ok (f r) s) s)) : Completes i c w len cost (f (s.core c)) s t :=
  fun begins => h.trans (runShort_of_accesses begins rfl)

end Sys2Proof.Machine

namespace Sys2Proof.Proofs
open Sys2Proof Sys2Proof.Machine Sys2Proof.Claims

/-- Settles O1: each row runs an instruction without memory access whose effect is the one stated; ADC, SBC and MUL ask first for their registers. -/
theorem trivenArithmetic : Obligations.TrivenArithmetic := by
  refine ⟨fun c x y s t => ⟨?mov, ?add, ?sub, ?and, ?or, ?xor, ?not, ?shl, ?shr, ?cnz, ?mask, ?ceq, ?cltu, ?clts, fun hx hy => ?carry, fun h => ?seven,
    fun h => ?same⟩, fun c x y s t hxy begins => ?mul⟩
  case mov => exact completes_of_runReg rfl
  case add => exact completes_of_runReg rfl
  case sub => exact completes_of_runReg rfl
  case and => exact completes_of_runReg rfl
  case or => exact completes_of_runReg rfl
  case xor => exact completes_of_runReg rfl
  case not => exact completes_of_runReg rfl
  case shl => exact completes_of_runReg rfl
  case shr => exact completes_of_runReg rfl
  case cnz => exact completes_of_dataOp rfl fun _ => flag8_decide_not _
  case mask => exact completes_of_runReg rfl
  case ceq => exact completes_of_dataOp rfl fun _ => flag8_decide _
  case cltu => exact completes_of_dataOp rfl fun _ => flag8_ult ..
  case clts => exact completes_of_dataOp rfl fun _ => flag8_slt ..
  case carry => exact ⟨completes_of_runReg (exec_adc hx hy c s), completes_of_runReg (exec_sbc hx hy c s)⟩
  case seven => exact exec_adc_sbc_of_carry h c s
  case same => exact (if_pos h : execMul c x y s = _)
  case mul =>
    refine ⟨_, completes_of_runReg (exec_mul hxy c s) begins, ?_⟩
    have hyx : y ≠ x := hxy.symm
    simp only [State.core_set_same, ended_dr, Core.dr_pc, Core.dr_setD, if_true, hyx, if_false]
    refine ⟨trivial, trivial, fun z hx hy => by rw [if_neg hx, if_neg hy], rfl, rfl, rfl, rfl, rfl, rfl, fun j hj => ?_⟩
    exact State.core_set_ne _ _ hj

/-- Settles O2: as O1, with the bytes of an address and the status in place of data; SETSR is not refused in supervisor state. -/
theorem trivenRegisters : Obligations.TrivenRegisters := by
  refine ⟨fun c x y imm s t => ⟨?nop, ?movi, ?addi, ?andi, ?xori, ?ceqi, ?cltui, ?mova, ?adda, ?suba, ?setal, ?setah, ?getal, ?getah, ?getsr, ?gettk,
    ?getid, fun sup => ?setsr⟩, fun c s t => ⟨?waitt, fun begins early same => ?ends⟩⟩
  case nop => exact completes_of_runReg rfl
  case movi => exact completes_of_runReg rfl
  case addi => exact completes_of_runReg rfl
  case andi => exact completes_of_runReg rfl
  case xori => exact completes_of_runReg rfl
  case ceqi => exact completes_of_immOp rfl fun _ => flag8_decide _
  case cltui => exact completes_of_immOp rfl fun _ => flag8_ult ..
  case mova => exact completes_of_runReg rfl
  case adda => exact completes_of_runReg rfl
  case suba => exact completes_of_runReg rfl
  case setal => exact completes_of_addrOp rfl fun _ => setLow_eq ..
  case setah => exact completes_of_addrOp rfl fun _ => setHigh_eq ..
  case getal => exact completes_of_runReg (congrArg Host.Outcome.next (by simp only [setWidth_eq_ofNat]))
  case getah => exact completes_of_runReg (congrArg Host.Outcome.next (by simp only [lowByte_shift_eq]))
  case getsr => exact completes_of_runReg rfl
  case gettk => exact completes_of_runReg rfl
  case getid => exact completes_of_runReg rfl
  case setsr => exact completes_of_const (f := fun r z => { z with ie := (r.dr y).getLsbD 6 }) (congrArg Host.Outcome.next (privileged_of_sup sup ..))
  case waitt => exact completes_of_runReg rfl
  case ends =>
    refine ⟨_, completes_of_runReg (w := .waitt) rfl begins, ?_⟩
    simp [Claims.ended]
    omega

end Sys2Proof.Proofs

namespace Sys2Proof.Proofs
open Sys2Proof Sys2Proof.Machine Sys2Proof.Claims

/-- Settles O3: as O1, on the accumulators; a lane written is read back, and the others stand (`lane_setLane`). -/
theorem trivenWide : Obligations.TrivenWide := by
  refine ⟨fun c x y s t => ⟨⟨?wclr, ?wmov, ?wxor, ?wand, ?wshl8, ?wshr8⟩, ?wadd, ?wsub⟩, fun c d x y j s t => ⟨?wgetb, ?wceq, fun begins => ?wputb⟩⟩
  case wclr => exact completes_of_runReg rfl
  case wmov => exact completes_of_runReg rfl
  case wxor => exact completes_of_runReg rfl
  case wand => exact completes_of_runReg rfl
  case wshl8 => exact completes_of_runReg (congrArg Host.Outcome.next (by simp only [wideOp, mul_256_eq_shift]))
  case wshr8 => exact completes_of_runReg (congrArg Host.Outcome.next (by simp only [wideOp, div_256_eq_shift]))
  case wadd => exact completes_of_runReg rfl
  case wsub => exact completes_of_runReg rfl
  case wgetb => exact completes_of_runReg (congrArg Host.Outcome.next (by simp only [lane_eq]))
  case wceq => exact completes_of_runReg (congrArg Host.Outcome.next (by simp only [flag8_decide]))
  case wputb =>
    refine ⟨_, completes_of_runReg (w := .wputb x d j) rfl begins, ?_⟩
    simp only [State.core_set_same, ended_wr, Core.wr_pc, Core.wr_setW, if_true, lane_setLane]
    exact ⟨fun i => rfl, fun z hz => if_neg hz, rfl, rfl, rfl, rfl, rfl⟩

end Sys2Proof.Proofs

/-! PROOFS. The Triven instructions with accesses: loads, stores, the stack, calls; vectors and traps (R283, R301-R305). -/

namespace Sys2Proof.Machine
open Sys2Proof Sys2Proof.Claims

/-! ### Instructions whose accesses all answer -/

/-- A row whose accesses all answer ends with the effect they give. -/
theorem exec_of_accesses {i : Instr} {c len cost : Nat} {w : Option Triven} {f : Core → State → Hit (Core → Core)} {g : Core → Core} {s t u : State}
    (h : exec i s = .next (runShort c w cost f s)) (begins : Begins c w len cost s t) (hf : f (s.core c) t = .ok g u) :
    exec i s = endsIn c len cost g u :=
  h.trans (runShort_of_accesses begins hf)

theorem Hit.bind_of_ok {α β : Type} {h : Hit α} {v : α} {s : State} (e : h = .ok v s) (f : α → State → Hit β) : h.bind f = f v s := by
  rw [e, Hit.bind_ok]

theorem push16_of_stores {c : Nat} {sp v : BitVec 16} {sup : Bool} {s t u : State}
    (hhi : storeByte c (sp - 1) (BitVec.ofNat 8 (v.toNat / 256)) sup s = .ok () t) (hlo : storeByte c (sp - 2) (BitVec.ofNat 8 v.toNat) sup t = .ok () u) :
    push16 c sp v sup s = .ok () u := by
  rw [push16, Hit.bind_of_ok hhi, hlo]

theorem getLsbD_zero_of_even {v : BitVec 16} (h : v.toNat % 2 = 0) : v.getLsbD 0 = false := by
  rw [BitVec.getLsbD, Nat.testBit_zero, decide_eq_false_iff_not]
  omega

/-- The call to an even address in h1 is the call of the row's definition. -/
theorem exec_jsrl_of_even {v : BitVec 16} (h : v.toNat % 2 = 0) (c : Nat) (s : State) : exec (.jsrl c v) s = .next (callTo c (.jsrl v) 4 (fun _ => v) s) :=
  congrArg Host.Outcome.next (evenOnly_of_even h c _ s)

/-! ### Instructions that take a vector -/

theorem ended_zero (cost : Nat) (x : Core) : ended 0 cost id x = x.after cost := by
  simp [ended, Core.after]

/-- A row that its core begins, and whose body answers a vector, enters it with the row's own address. -/
theorem exec_of_vector {i : Instr} {c len cost v p : Nat} {w : Option Triven} {f : Core → State → Hit (Core → Core)} {s t : State}
    (h : exec i s = .next (runShort c w cost f s)) (begins : Begins c w len cost s t) (hf : f (s.core c) t = .no v p t) :
    exec i s = .next (enterVector c v p (s.core c).pc (t.setCore c (ended 0 cost id (t.core c)))) := by
  obtain ⟨may, short, fits, fetched⟩ := begins
  rw [h, runShort_of_fetch may short fits fetched, hf, ended_zero]
  rfl

/-- The same for a trap, which is entered with the next instruction's address. -/
theorem exec_of_trap {i : Instr} {c len cost v p : Nat} {w : Option Triven} {f : Core → State → Hit (Core → Core)} {s t : State}
    (h : exec i s = .next (runShort c w cost f s)) (begins : Begins c w len cost s t) (hf : f (s.core c) t = .trap v p t) :
    exec i s = .next (enterVector c v p ((s.core c).pc + BitVec.ofNat 16 len) (t.setCore c (ended len cost id (t.core c)))) := by
  obtain ⟨may, short, fits, fetched⟩ := begins
  rw [h, runShort_of_fetch may short fits fetched, hf]
  rfl

/-- A fetch that answers a vector takes it after one bench cycle, whatever the row. -/
theorem runShort_of_fetchFault {c cost v p : Nat} {w : Option Triven} {f : Core → State → Hit (Core → Core)} {s t : State} (may : s.mayBegin c = true)
    (short : (s.core c).inLong = false) (runs : s.stopDue c = false) (fault : fetch c s = .no v p t) :
    runShort c w cost f s = enterVector c v p (s.core c).pc (t.setCore c (ended 0 1 id (t.core c))) := by
  unfold runShort
  simp only [may, short, runs, fault, ended_zero]
  rfl

theorem exec_trap_of_illegal {n : BitVec 6} (h : 33 ≤ n.toNat) (h' : n.toNat < 48) (c : Nat) (s : State) :
    exec (.trap c n) s = .next (runShort c (some (.trap n)) 6 (fun _ s => .no 1 0 s) s) := by
  change execTrap c n s = _
  rw [execTrap, if_neg (by omega), if_neg (by omega), if_pos h']

theorem privileged_of_user {c : Nat} {s : State} (h : (s.core c).sup = false) (i : Triven) (cost : Nat) (f : Core → State → Hit (Core → Core)) :
    privileged c i cost f s = runShort c (some i) 1 (fun _ s => .no 2 0 s) s := if_neg (by simp [h])

end Sys2Proof.Machine

namespace Sys2Proof.Proofs
open Sys2Proof Sys2Proof.Machine Sys2Proof.Claims

/-- Settles O6: each row is a short instruction whose accesses answer, and its effect is that of its definition. -/
theorem trivenLoadsAndStores : Obligations.TrivenLoadsAndStores := by
  refine ⟨fun c x y imm s t => ⟨fun b u load => ⟨fun begins => ?ld, fun begins => ?ldPostinc⟩, fun b u load begins => ?pop, fun b u load begins => ?ldx,
      fun lo u hi v loadLo loadHi => ?two, fun sr u lo v hi w sup begins loadSr loadLo loadHi => ?rte⟩,
    fun c x y imm s t => ⟨fun u store => ⟨fun begins => ?st, fun begins => ?stPostinc⟩, fun u store begins => ?push, fun u store begins => ?stx,
      fun begins u v high low => ?pusha, fun begins u v high low => ?jsr, fun begins even u v high low => ?jsrl⟩⟩
  case ld => exact exec_of_accesses rfl begins (Hit.bind_of_ok load _)
  case ldPostinc => exact exec_of_accesses rfl begins (Hit.bind_of_ok load _)
  case pop => exact exec_of_accesses rfl begins (Hit.bind_of_ok load _)
  case ldx => exact exec_of_accesses rfl begins (Hit.bind_of_ok load _)
  case two =>
    have popped := pop16_of_loads loadLo loadHi
    exact ⟨fun begins => exec_of_accesses rfl begins (Hit.bind_of_ok popped _), fun begins => exec_of_accesses rfl begins (Hit.bind_of_ok popped _)⟩
  case rte =>
    have popped := pop16_of_loads loadLo (by rw [BitVec.add_assoc]; exact loadHi)
    exact exec_of_accesses (congrArg Host.Outcome.next (privileged_of_sup sup ..)) begins
      ((Hit.bind_of_ok loadSr _).trans (Hit.bind_of_ok popped _))
  case st => exact exec_of_accesses rfl begins (Hit.bind_of_ok store _)
  case stPostinc => exact exec_of_accesses rfl begins (Hit.bind_of_ok store _)
  case push => exact exec_of_accesses rfl begins (Hit.bind_of_ok store _)
  case stx => exact exec_of_accesses rfl begins (Hit.bind_of_ok store _)
  case pusha => exact exec_of_accesses rfl begins (Hit.bind_of_ok (push16_of_stores high low) _)
  case jsr => exact exec_of_accesses rfl begins (Hit.bind_of_ok (push16_of_stores high low) _)
  case jsrl =>
    refine exec_of_accesses (exec_jsrl_of_even even c s) begins ((Hit.bind_of_ok (push16_of_stores high low) _).trans ?_)
    rw [evenPc_of_even (getLsbD_zero_of_even even)]

/-- Settles O8: with its pushes and its fetch answered, `enterVector` takes its first branch each time. -/
theorem vectorEntry : Obligations.VectorEntry := by
  intro c v param ret s h1 h2 x s0 s1 s2 s3 s4 h push1 push2 push3 y t fetched
  have quiet : (decide (v = 1) || decide (v = 2)) = false := by simp [h1, h2]
  have pushes := (Hit.bind_of_ok push1 fun _ s => (storeByte c (x.ar 7 - 2) (BitVec.ofNat 8 ret.toNat) true s).bind fun _ s =>
    storeByte c (x.ar 7 - 3) x.sr true s).trans ((Hit.bind_of_ok push2 _).trans push3)
  unfold enterVector
  rw [quiet]
  simp only [Bool.false_eq_true, if_false, State.modCore_eq]
  rw [pushes]
  simp only
  rw [fetched]

/-- Settles O9: each row is a short instruction whose body, or whose fetch, answers the vector. -/
theorem trivenTraps : Obligations.TrivenTraps := by
  intro c n y s t vec
  refine ⟨fun begins low => ?trap, fun begins from33 to48 => ?illegalTrap, fun len begins => ?illegal, fun user begins => ?rte, fun user begins => ?setsr,
    fun v p may short runs fault => ?fetchFault⟩
  case trap => exact exec_of_trap (if_pos low : execTrap c n s = _) begins rfl
  case illegalTrap => exact exec_of_vector (exec_trap_of_illegal from33 to48 c s) begins rfl
  case illegal => exact exec_of_vector rfl begins rfl
  case rte => exact exec_of_vector (congrArg Host.Outcome.next (privileged_of_user user ..)) begins rfl
  case setsr => exact exec_of_vector (congrArg Host.Outcome.next (privileged_of_user user ..)) begins rfl
  case fetchFault => exact congrArg Host.Outcome.next (runShort_of_fetchFault may short runs fault)

end Sys2Proof.Proofs

/-! PROOFS. Bytes that a Triven core loads and stores, and the last element of its long instructions (R284-R287, R310). -/

namespace Sys2Proof.Machine
open Sys2Proof Sys2Proof.Claims

/-! ### Bytes of memory -/

theorem loadByte_of_ram {c d : Nat} {a : BitVec 16} {s : State} (h : LoadsRam c a d s) :
    loadByte c a (s.core c).sup s = .ok (Memory.get s.ram d) s := by
  obtain ⟨access, held, port, reg, decodes, rom, flash, page⟩ := h
  have notFlash : (decide (flashBase ≤ d) && decide (d < flashBase + flashSize)) = false := by
    simp only [Bool.and_eq_false_iff, decide_eq_false_iff_not]
    omega
  rw [loadByte, access, Hit.bind_ok, targetRead]
  simp only [held, port, reg, decodes, notFlash, page, Bool.not_true, Bool.false_eq_true, if_false]
  rw [if_neg (by omega)]

theorem Memory.get_write_one (m : Memory) (d e : Nat) (b : Byte) : (m.write d [b]).get e = if e = d then b else m.get e := by
  split
  next h => exact h ▸ Memory.get_write_inside m d 0 [b] (by simp)
  next h => exact Memory.get_write_outside m d e [b] (by simp only [List.length_singleton]; omega)

theorem storeByte_of_ram {c d : Nat} {a : BitVec 16} {s : State} (h : StoresRam c a d s) (b : Byte) :
    storeByte c a b (s.core c).sup s = .ok () { s with ram := Memory.write s.ram d [b] } := by
  obtain ⟨access, held, port, reg, decodes, page⟩ := h
  rw [storeByte, access, Hit.bind_ok, targetWrite]
  simp only [port, reg, decodes, memWrite, held, page, Option.isSome_none, Bool.not_true, Bool.false_eq_true, if_false]
  rfl

/-! ### The last element of a long instruction -/

/-- The state in which the elements of the long instruction `i` of core `c` begin, its setup spent. -/
def setUp (c : Nat) (i : Triven) (t : State) : State :=
  t.setCore c { t.core c with bc := (t.core c).bc + 2, boundary := false, long := some i }

section
variable {c e : Nat} {i : Triven} {k : BitVec 3} {elem : Core → State → Hit (Core → Core)} {g : Core → Core} {s t p : State}

/-- One element fits, and its accesses answer. -/
theorem elements_one (hk : (t.core c).dr k ≠ 0) (room : (t.core c).bc < 2048) (wipe : t.wipeDue c = false) (h : elem (t.core c) t = .ok g p) :
    elements c e k elem 1 t =
      p.setCore c { (g (p.core c)).setD k ((g (p.core c)).dr k - 1) with bc := (g (p.core c)).bc + e } := by
  have goes : (decide ((t.core c).dr k = 0) || decide (2048 ≤ (t.core c).bc) || (t.wipeDue c && decide (2048 < (t.core c).bc + e))) = false := by
    rw [decide_eq_false hk, wipe, Bool.false_and, Bool.or_false, Bool.false_or]
    exact decide_eq_false (Nat.not_le.mpr room)
  rw [elements, if_neg (by rw [goes]; decide), h]
  rfl

theorem runLong_begins (begins : Begins c (some i) 4 2 s t) (fresh : (s.core c).rsm = false) (wipe : s.wipeDue c = false) :
    runLong c i e k elem s = closeLong c k (elements c e k elem ((s.core c).dr k).toNat (setUp c i t)) := by
  obtain ⟨may, short, -, fetched⟩ := begins
  unfold runLong
  simp only [may, short, fresh, wipe, fetched, Bool.not_true, Bool.false_and, Bool.false_eq_true, ne_eq, not_true_eq_false, if_false]
  rfl

theorem closeLong_of_done (long : (t.core c).inLong = true) (done : (t.core c).dr k = 0) :
    closeLong c k t =
      t.setCore c { t.core c with long := none, rsm := false, stepOne := false, winUse := none, pc := (t.core c).pc + 4 } := by
  unfold closeLong
  exact (if_neg (by rw [long]; decide)).trans (if_pos done)

/-- A long instruction with one element left does it and is over. -/
theorem runLong_lastElement (begins : Begins c (some i) 4 2 s t) (fresh : (s.core c).rsm = false) (wipe : s.wipeDue c = false)
    (wipe' : t.wipeDue c = false) (hs : (s.core c).dr k = 1) (ht : (t.core c).dr k = 1) (room : (t.core c).bc + 2 < 2048)
    (h : elem ((setUp c i t).core c) (setUp c i t) = .ok g p) (hp : (p.core c).dr k = 1 ∧ (p.core c).inLong = true)
    (gk : (g (p.core c)).dr k = (p.core c).dr k) (gl : (g (p.core c)).long = (p.core c).long) :
    lastElement c k e g p (.next (runLong c i e k elem s)) := by
  have begun : (setUp c i t).core c = { t.core c with bc := (t.core c).bc + 2, boundary := false, long := some i } := State.core_set_same ..
  have left : ((setUp c i t).core c).dr k = 1 := (congrArg (Core.dr · k) begun).trans ht
  have one := elements_one (t := setUp c i t) (e := e) (k := k) (by rw [left]; decide) (by rw [begun]; exact room) wipe' h
  rw [runLong_begins begins fresh wipe, hs]
  change lastElement c k e g p (.next (closeLong c k (elements c e k elem 1 (setUp c i t))))
  have long : ((elements c e k elem 1 (setUp c i t)).core c).inLong = true := by
    rw [one, State.core_set_same]
    exact (congrArg Option.isSome gl).trans hp.2
  have done : ((elements c e k elem 1 (setUp c i t)).core c).dr k = 0 := by
    rw [one, State.core_set_same, gk, hp.1]
    exact (Core.dr_setD ..).trans (if_pos rfl)
  rw [closeLong_of_done long done, one, State.core_set_same, gk, hp.1]
  refine ⟨_, rfl, rfl, fun j hj => ?_, ?_⟩
  · rw [State.core_set_ne _ _ hj, State.core_set_ne _ _ hj]
  · rw [State.core_set_same]
    rfl
end

/-- The address of a stream instruction steps where its INC asks. -/
theorem add_incBy (v : BitVec 16) (inc : Bool) : v + incBy inc = if inc then v + 1 else v := by
  cases inc
  · exact BitVec.add_zero v
  · rfl

end Sys2Proof.Machine

namespace Sys2Proof.Proofs
open Sys2Proof Sys2Proof.Machine Sys2Proof.Claims

/-- Settles O7: the checks of a load and of a store end at memory, and each long row does its one element (`runLong_lastElement`). -/
theorem trivenMemory : Obligations.TrivenMemory := by
  refine ⟨fun c a b d s => ⟨loadByte_of_ram, fun h => ⟨_, storeByte_of_ram h b, fun e => Memory.get_write_one ..⟩⟩,
    fun c x y k d v w inc b s t u fresh wipe wipe' ks kt room => ?_⟩
  refine ⟨fun begins ne load p store hp => ?movb, fun begins ne load hp => ?wmacb, fun begins load hp => ?xin,
    fun begins ne ned e p load load' hp => ?cmpb, fun begins store hp => ?fillb, fun begins store hp => ?xout⟩
  case movb =>
    rw [show exec (.movb c x y k) s = _ from (if_neg ne : execMovb c x y k s = _)]
    refine runLong_lastElement begins fresh wipe wipe' ks kt room ?_ hp rfl rfl
    rw [setUp, State.core_set_same]
    exact (Hit.bind_of_ok load _).trans (Hit.bind_of_ok store _)
  case wmacb =>
    rw [show exec (.wmacb c v w y k) s = _ from (if_neg ne : execWmacb c v w y k s = _)]
    refine runLong_lastElement begins fresh wipe wipe' ks kt room ?_ hp rfl rfl
    rw [setUp, State.core_set_same]
    refine (Hit.bind_of_ok load _).trans ?_
    rw [mul_256_eq_shift]
    rfl
  case xin =>
    refine runLong_lastElement begins fresh wipe wipe' ks kt room ?_ hp rfl rfl
    rw [setUp, State.core_set_same]
    refine (Hit.bind_of_ok load _).trans ?_
    rw [add_incBy]
    rfl
  case cmpb =>
    have both : (decide (x = y) || decide (d = k)) = false := by rw [decide_eq_false ne, decide_eq_false ned, Bool.or_false]
    rw [show exec (.cmpb c x y k d) s = _ from (if_neg (by rw [both]; decide) : execCmpb c x y k d s = _)]
    refine runLong_lastElement begins fresh wipe wipe' ks kt room ?_ hp ?_ rfl
    · rw [setUp, State.core_set_same]
      exact (Hit.bind_of_ok load _).trans (Hit.bind_of_ok load' _)
    · exact (Core.dr_setD ..).trans (if_neg ned.symm)
  case fillb =>
    refine runLong_lastElement begins fresh wipe wipe' ks kt room ?_ hp rfl rfl
    rw [setUp, State.core_set_same]
    exact Hit.bind_of_ok store _
  case xout =>
    refine runLong_lastElement begins fresh wipe wipe' ks kt room ?_ hp rfl rfl
    rw [setUp, State.core_set_same]
    refine (Hit.bind_of_ok store _).trans ?_
    rw [add_incBy]
    rfl

end Sys2Proof.Proofs

/-! PROOFS. Services, calls, interrupts, ports and the cores' own sections (R239, R305-R316). -/

namespace Sys2Proof

/-! ### Writing a table twice -/

section
variable {α : Type}

theorem tput_tput (t : Tbl α) (i : Nat) (u v : α) : tput (tput t i u) i v = tput t i v := by
  induction t with
  | nil => simp [tput]
  | cons e r ih =>
    obtain ⟨k, w⟩ := e
    rcases lt_trichotomy i k with h | rfl | h
    · simp [tput, h]
    · simp [tput]
    · simp [tput, Nat.lt_asymm h, Nat.ne_of_gt h, ih]

theorem tdel_tput (t : Tbl α) (i : Nat) (u : α) : tdel (tput t i u) i = tdel t i := by
  induction t with
  | nil => simp [tput, tdel]
  | cons e r ih =>
    obtain ⟨k, w⟩ := e
    rcases lt_trichotomy i k with h | rfl | h
    · simp [tput, tdel, h]
    · simp [tput, tdel]
    · simp [tput, tdel, Nat.lt_asymm h, Nat.ne_of_gt h, ih]

theorem tdel_tdel (t : Tbl α) (i : Nat) : tdel (tdel t i) i = tdel t i := by
  induction t with
  | nil => rfl
  | cons e r ih =>
    obtain ⟨k, w⟩ := e
    obtain rfl | h := eq_or_ne i k
    · simp [tdel, ih]
    · simp [tdel, h, ih]

/-- The second write of an entry is the one that stays. A default written between is the exception: it removes every entry of its number, and a table
that is not canonical may hold more than one. -/
theorem tset_tset [DecidableEq α] {d : α} {u v : α} (h : u = d → v = d) (t : Tbl α) (i : Nat) : tset d (tset d t i u) i v = tset d t i v := by
  by_cases hv : v = d
  · by_cases hu : u = d
    · simp only [tset, hv, hu, if_true, tdel_tdel]
    · simp only [tset, hv, hu, if_true, if_false, tdel_tput]
  · simp only [tset, hv, mt h hv, if_false, tput_tput]

end

namespace Machine
open Sys2Proof Sys2Proof.Claims

theorem State.setCore_setCore {x y : Core} (h : x = {} → y = {}) (s : State) (c : Nat) : (s.setCore c x).setCore c y = s.setCore c y := by
  unfold State.setCore
  rw [tset_tset h]

/-! ### A core's own section -/

/-- A write of its own section by a core in supervisor state, once it is a write of the core. -/
theorem ownWrite_of_sup {c : Nat} {f : State → State} {x : Core} {s : State} (runs : s.coreExec c = true) (sup : (s.core c).sup = true)
    (hf : f s = s.setCore c x) (hx : x = {} → ({ x with winUse := none } : Core) = {}) :
    ownWrite c f s = s.setCore c { x with winUse := none } := by
  unfold ownWrite
  rw [runs, sup, hf]
  refine (if_neg (by decide)).trans ((if_pos rfl).trans ?_)
  rw [State.modCore_eq, State.core_set_same, State.setCore_setCore hx]

theorem ownWrite_of_user {c : Nat} {s : State} (runs : s.coreExec c = true) (user : (s.core c).sup = false) (f : State → State) :
    ownWrite c f s = enterVector c 2 0 (s.core c).pc s := by
  unfold ownWrite
  rw [runs, user]
  exact (if_neg (by decide)).trans (if_neg (by decide))

theorem fncCtl_of_first {c : Nat} {s : State} (h : (s.core c).fncWritten = false) (v : BitVec 32) :
    fncCtl c v s = s.setCore c { s.core c with fncWritten := true, en := v.getLsbD 0, wlock := v.getLsbD 1 } := if_neg (by rw [h]; decide)

theorem fncWin_of_ok {c i : Nat} {v : BitVec 64} {s : State} (unlocked : (s.core c).wlock = false)
    (ok : descriptorOk (64 ≤ c) (s.core c).win i v = true) :
    fncWin c i v s =
      s.setCore c { s.core c with win := tset 0 (s.core c).win i v, winUse := some ((s.core c).winUse.getD (s.core c).win) } := by
  unfold fncWin
  simp only [unlocked, ok, Bool.false_and, Bool.not_true, Bool.or_self, Bool.false_eq_true, if_false]

theorem fncFen_of_unlocked {c i : Nat} {s : State} (h : (tget 0x7FF00 (s.core c).fen i).getLsbD 31 = false) (v : BitVec 32) :
    fncFen c i v s = s.setCore c { s.core c with fen := tset 0x7FF00 (s.core c).fen i (v &&& 0xFFF7FF3F) } := if_neg (by rw [h]; decide)

/-! ### RNG_PORT -/

theorem rngPortDraw_of_ready {c n : Nat} {b : Bytes} {s t : State} (ready : (s.exp (coreBench c)).ready = true)
    (room : (s.core c).rngBytes + n ≤ 512) (drawn : draw (coreBench c) n s = some (b, t)) :
    rngPortDraw c n s = .ok b (t.setCore c { t.core c with rngBytes := (t.core c).rngBytes + n }) := by
  unfold rngPortDraw
  simp only [ready, drawn, Bool.not_true, Bool.false_eq_true, if_false]
  exact if_neg (by omega)

/-! ### Services and calls -/

/-- A call returned with an output that its page holds and its entry takes ends with OK. -/
theorem hostReturn_of_fits {c : Nat} {v : Serving} {m : Cmd} {t : State} (cmd : t.cmd v.cmd = some m) (aligned : ((t.core c).ar 0).toNat % 32 = 0)
    (inPage : ((t.core c).ar 0).toNat + ((t.core c).ar 1).toNat ≤ 32768) (short : ((t.core c).ar 1).toNat ≤ 4096)
    (fits : ((t.core c).ar 1).toNat ≤ m.outCap) :
    hostReturn c v t = endCmd v.cmd 0 0 [] ((t.setCore c { t.core c with serving := none }).setCmd v.cmd
      { m with copyFrom := some (pageBase (coreBench c) v.page + ((t.core c).ar 0).toNat, ((t.core c).ar 1).toNat) }) := by
  have good : (decide (((t.core c).ar 0).toNat % 32 ≠ 0) || decide (32768 < ((t.core c).ar 0).toNat + ((t.core c).ar 1).toNat) ||
      decide (4096 < ((t.core c).ar 1).toNat) || decide (m.outCap < ((t.core c).ar 1).toNat)) = false := by
    simp only [aligned, ne_eq, not_true_eq_false, decide_false, Bool.false_or, Bool.or_eq_false_iff, decide_eq_false_iff_not]
    omega
  unfold hostReturn
  simp only [State.cmd_setCore, cmd, good, Bool.false_eq_true, if_false]

theorem stopLong_of_short {x : Core} (h : x.inLong = false) : stopLong x = x := if_neg (by rw [h]; decide)

end Machine
end Sys2Proof

namespace Sys2Proof.Proofs
open Sys2Proof Sys2Proof.Machine Sys2Proof.Claims

/-- Settles O10: services and HOSTRET are short instructions whose bodies answer; an interrupt and a call that are due pass their checks. -/
theorem trivenCalls : Obligations.TrivenCalls := by
  refine ⟨fun c n s t => ⟨fun other => ?noService, fun known busy => ?busy, fun known free => ?accepted,
      fun begins v m serving serving' cmd aligned inPage short fits => ?hostret, fun busy runs idle => ?complete⟩,
    fun c i h s => ⟨fun due runs edge noCall short => ?interrupt, fun m cmd admitted due at_ runs exec edge short => ?delivery⟩⟩
  case noService =>
    refine fun begins => exec_of_accesses rfl begins (if_pos ?_)
    simp only [ne_eq, Bool.and_eq_true, decide_eq_true_eq]
    omega
  case busy =>
    refine fun begins => exec_of_accesses rfl begins ((if_neg ?_).trans (if_pos busy))
    simp only [ne_eq, Bool.and_eq_true, decide_eq_true_eq]
    omega
  case accepted =>
    refine fun begins => exec_of_accesses rfl begins ((if_neg ?_).trans (if_neg ?_))
    · simp only [ne_eq, Bool.and_eq_true, decide_eq_true_eq]
      omega
    · rw [free]; decide
  case hostret =>
    refine exec_of_accesses (i := .hostret c) rfl begins ?_
    rw [← hostReturn_of_fits cmd aligned inPage short fits]
    simp only [show (s.core c).serving = some v from serving]
  case complete => exact if_neg (by simp [show (s.core c).isvb = true from busy, runs, idle])
  case interrupt =>
    change execInterruptEntry c s = _
    unfold execInterruptEntry
    simp only [due, runs, edge, noCall, stopLong_of_short short, Bool.not_true, Bool.or_self, Bool.false_eq_true, if_false]
  case delivery =>
    change execHostCallDelivery h s = _
    subst at_
    unfold execHostCallDelivery
    rw [cmd]
    refine (if_neg (by simp [admitted, due])).trans ((if_neg (by simp [runs])).trans ((if_neg (by simp [exec, edge])).trans ?_))
    simp only [State.modCore_eq, State.core_ramWrite, State.core_setCmd, stopLong_of_short short]

/-- Settles O11: a read of RNG_PORT that its checks allow draws; a write of the core's own section is that of its register, or the privilege vector. -/
theorem trivenPorts : Obligations.TrivenPorts := by
  intro c i n v64 v32 s runs
  refine ⟨fun b t size ready room drawn => ?read, if_pos runs, fun sup first => ?ctl, fun sup hi unlocked ok => ?win, fun sup hi unlocked => ?fen,
    fun user hi => ⟨?ctlUser, ?winUser, ?fenUser⟩⟩
  case read =>
    have sizes : (!s.coreExec c || !([1, 2, 4, 8].contains n)) = false := by
      rw [runs, List.contains_iff_mem.mpr size]
      rfl
    refine (if_neg (by rw [sizes]; decide) : execRngPortRead c n s = _).trans ?_
    rw [rngPortDraw_of_ready ready room drawn]
  case ctl => exact congrArg Host.Outcome.next (ownWrite_of_sup runs sup (fncCtl_of_first first v32) fun h => nomatch congrArg Core.fncWritten h)
  case win =>
    refine (if_pos hi : execFncWinWrite c i v64 s = _).trans (congrArg Host.Outcome.next ?_)
    exact ownWrite_of_sup runs sup (fncWin_of_ok unlocked ok) fun h => nomatch congrArg Core.winUse h
  case fen =>
    refine (if_pos hi : execFncFenWrite c i v32 s = _).trans (congrArg Host.Outcome.next ?_)
    exact ownWrite_of_sup runs sup (fncFen_of_unlocked unlocked v32) fun h => by rw [h]
  case ctlUser => exact congrArg Host.Outcome.next (ownWrite_of_user runs user _)
  case winUser => exact (if_pos hi : execFncWinWrite c i v64 s = _).trans (congrArg Host.Outcome.next (ownWrite_of_user runs user _))
  case fenUser => exact (if_pos hi : execFncFenWrite c i v32 s = _).trans (congrArg Host.Outcome.next (ownWrite_of_user runs user _))

/-- Settles O56: `step` matches on its queue. -/
theorem stepRunsFront : Obligations.StepRunsFront := by
  refine ⟨fun c rest s => rfl, fun s idle => ?_⟩
  unfold step
  rw [idle]

/-- Settles O60: reset leaves tables with no entry, so each reads its default. -/
theorem resetLeaves : Obligations.ResetLeaves := by
  refine ⟨rfl, rfl, rfl, rfl, rfl, rfl, rfl, fun i => ⟨rfl, rfl, rfl, rfl⟩, rfl, rfl, rfl, rfl, rfl, rfl, rfl, fun n h => ?_, rfl, rfl, rfl, fun k => rfl, rfl⟩
  exact nomatch h

end Sys2Proof.Proofs

/-! PROOFS. What an operation leaves as it was: agreement of two states in a part of them. -/

namespace Sys2Proof.Machine
open Sys2Proof

/-- `t` agrees with `s` in what `p` shows of them. -/
def Same {β : Type} (p : State → β) (s t : State) : Prop := p t = p s

namespace Same
variable {β : Type} {p : State → β} {s t u : State}

theorem rfl : Same p s s := Eq.refl _

theorem trans (h : Same p s t) (k : Same p t u) : Same p s u := Eq.trans k h

theorem same (h : Same p s t) (e : p u = p t) : Same p s u := h.trans e

theorem ite {c : Prop} [Decidable c] (h : Same p s t) (k : Same p s u) : Same p s (if c then t else u) := by
  split <;> assumption

theorem foldl {α : Type} {f : State → α → State} (hf : ∀ u x, Same p s u → Same p s (f u x)) (l : List α) (h : Same p s t) :
    Same p s (l.foldl f t) := by
  induction l generalizing t with
  | nil => exact h
  | cons x l ih => exact ih (hf _ _ h)

theorem forN {n : Nat} {f : Nat → State → State} (hf : ∀ i u, Same p s u → Same p s (f i u)) (h : Same p s t) : Same p s (forN n f t) :=
  .foldl (fun u i => hf i u) _ h

theorem forEach {α : Type} {l : List α} {f : α → State → State} (hf : ∀ x u, Same p s u → Same p s (f x u)) (h : Same p s t) :
    Same p s (forEach l f t) :=
  .foldl (fun u x => hf x u) _ h

theorem foldl_snd {α γ : Type} {f : γ × State → α → γ × State} (hf : ∀ a x, Same p s a.2 → Same p s (f a x).2) (l : List α) {a : γ × State}
    (h : Same p s a.2) : Same p s (l.foldl f a).2 := by
  induction l generalizing a with
  | nil => exact h
  | cons x l ih => exact ih (hf _ _ h)

/-! The state that an operation answers beside a value. -/

theorem of_snd {α : Type} {q : α × State} {a : α} (h : Same p s q.2) (e : q = (a, u)) : Same p s u := by
  subst e; exact h

theorem of_mid {α γ : Type} {q : α × State × γ} {a : α} {b : γ} (h : Same p s q.2.1) (e : q = (a, u, b)) : Same p s u := by
  subst e; exact h

theorem of_last {α γ : Type} {q : α × γ × State} {a : α} {b : γ} (h : Same p s q.2.2) (e : q = (a, b, u)) : Same p s u := by
  subst e; exact h

end Same
end Sys2Proof.Machine

/-! ### The clocks, the dispatcher's tables and main power -/

namespace Sys2Proof.Machine
open Sys2Proof

/-- The dispatcher's tables, the time, main power, and the wake requests. -/
structure Clock where
  tick : BitVec 64
  slt : Tbl Nat
  core : Tbl Nat
  page : Tbl Nat
  sltS : Tbl Nat
  coreS : Tbl Nat
  pageS : Tbl Nat
  now : Nat
  rtcFrac : Nat
  vio3 : Bool
  sysRst : Bool
  pwrok : Bool
  supplyHold : Bool
  rtc : BitVec 47
  rtcSet : Option (BitVec 47)
  newReq : List Nat
  admitted : Nat

def State.clock (s : State) : Clock where
  tick := s.dsp.tick
  slt := s.dsp.slt
  core := s.dsp.core
  page := s.dsp.page
  sltS := s.dsp.sltS
  coreS := s.dsp.coreS
  pageS := s.dsp.pageS
  now := s.pw.now
  rtcFrac := s.pw.rtcFrac
  vio3 := s.pw.vio3
  sysRst := s.pw.sysRst
  pwrok := s.pw.pwrok
  supplyHold := s.pw.supplyHold
  rtc := s.vault.rtc
  rtcSet := s.vault.rtcSet
  newReq := s.pwr.newReq
  admitted := s.pwr.admitted

theorem clock_update {s t : State} {ident benches cores leases flt queues cmds nextCmd engines jobs dig held yard rng flg ldg pfl crd ctl tag cust
    dic spdm lcs gal bus link out ram pending} :
    Same State.clock s ⟨ident, t.pw, t.dsp, benches, cores, leases, flt, t.pwr, t.vault, queues, cmds, nextCmd, engines, jobs, dig, held, yard,
        rng, flg, ldg, pfl, crd, ctl, tag, cust, dic, spdm, lcs, gal, bus, link, out, ram, pending⟩ ↔ Same State.clock s t :=
  Iff.rfl

theorem modVault_clock {s t : State} {f : Vault → Vault} (h : Same State.clock s t) (rtc : (f t.vault).rtc = t.vault.rtc)
    (rtcSet : (f t.vault).rtcSet = t.vault.rtcSet) : Same State.clock s (t.modVault f) :=
  h.same (by simp only [State.clock, State.modVault, rtc, rtcSet])

/-! #### Ops: The named operations every family uses -/

theorem setBench_clock {s t : State} {n b} (h : Same State.clock s t) : Same State.clock s (t.setBench n b) := h.same rfl

theorem modBench_clock {s t : State} {n f} (h : Same State.clock s t) : Same State.clock s (t.modBench n f) := h.same rfl

theorem setCore_clock {s t : State} {c x} (h : Same State.clock s t) : Same State.clock s (t.setCore c x) := h.same rfl

theorem modCore_clock {s t : State} {c f} (h : Same State.clock s t) : Same State.clock s (t.modCore c f) := h.same rfl

theorem setLease_clock {s t : State} {k x} (h : Same State.clock s t) : Same State.clock s (t.setLease k x) := h.same rfl

theorem modLease_clock {s t : State} {k f} (h : Same State.clock s t) : Same State.clock s (t.modLease k f) := h.same rfl

theorem setQueue_clock {s t : State} {k q x} (h : Same State.clock s t) : Same State.clock s (t.setQueue k q x) := h.same rfl

theorem modQueue_clock {s t : State} {k q f} (h : Same State.clock s t) : Same State.clock s (t.modQueue k q f) := h.same rfl

theorem setCmd_clock {s t : State} {h' c} (h : Same State.clock s t) : Same State.clock s (t.setCmd h' c) := h.same rfl

theorem setEngine_clock {s t : State} {q x} (h : Same State.clock s t) : Same State.clock s (t.setEngine q x) := h.same rfl

theorem modEngine_clock {s t : State} {q f} (h : Same State.clock s t) : Same State.clock s (t.modEngine q f) := h.same rfl

theorem setJob_clock {s t : State} {q k x} (h : Same State.clock s t) : Same State.clock s (t.setJob q k x) := h.same rfl

theorem modJob_clock {s t : State} {q k f} (h : Same State.clock s t) : Same State.clock s (t.modJob q k f) := h.same rfl

theorem setCtx_clock {s t : State} {n i x} (h : Same State.clock s t) : Same State.clock s (t.setCtx n i x) := h.same rfl

theorem setExp_clock {s t : State} {e x} (h : Same State.clock s t) : Same State.clock s (t.setExp e x) := h.same rfl

theorem ramWrite_clock {s t : State} {a b} (h : Same State.clock s t) : Same State.clock s (t.ramWrite a b) := h.same rfl

theorem ramClear_clock {s t : State} {lo hi} (h : Same State.clock s t) : Same State.clock s (t.ramClear lo hi) := h.same rfl

theorem dropHeld_clock {s t : State} {p} (h : Same State.clock s t) : Same State.clock s (dropHeld p t) := by
  unfold dropHeld
  with_reducible repeat' first | exact h | apply ramClear_clock | simp only [clock_update] | apply Same.foldl | intro _

theorem eraseWedge_clock {s t : State} {q st p} (h : Same State.clock s t) : Same State.clock s (eraseWedge q st p t) := h.same rfl

theorem bumpGen_clock {s t : State} {index sub} (h : Same State.clock s t) : Same State.clock s (bumpGen index sub t) := h.same rfl

theorem journal_clock {s t : State} {x} (h : Same State.clock s t) : Same State.clock s (journal x t) := h.same rfl

theorem closeCeremony_clock {s t : State} {reason} (h : Same State.clock s t) : Same State.clock s (closeCeremony reason t) := by
  unfold closeCeremony
  with_reducible repeat' first | exact h | apply journal_clock | simp only [clock_update] | split

theorem lapseGallery_clock {s t : State} (h : Same State.clock s t) : Same State.clock s (lapseGallery t) := by
  unfold lapseGallery
  with_reducible repeat' first | exact h | apply Same.ite | apply bumpGen_clock | simp only [clock_update]

theorem useFree_clock {s t : State} {n} (h : Same State.clock s t) : Same State.clock s (t.useFree n) := h.same rfl

theorem latchOnly_clock {s t : State} {cause} (h : Same State.clock s t) : Same State.clock s (latchOnly cause t) := by
  unfold latchOnly
  split
  · exact h
  · exact h.same rfl

theorem setLatch_clock {s t : State} {cause} (h : Same State.clock s t) : Same State.clock s (setLatch cause t) := by
  unfold setLatch
  with_reducible repeat' first
    | exact h | assumption | apply latchOnly_clock | apply eraseWedge_clock | apply lapseGallery_clock | apply closeCeremony_clock | apply Same.forN
    | simp only [clock_update] | split | intro _

theorem recordEvent_clock {s t : State} {e sev lease inj} (h : Same State.clock s t) : Same State.clock s (recordEvent e sev lease inj t) := by
  unfold recordEvent
  with_reducible repeat' first | exact h | simp only [clock_update] | split

theorem queueEvent_clock {s t : State} {x} (h : Same State.clock s t) : Same State.clock s (queueEvent x t) := by
  unfold queueEvent
  with_reducible repeat' first | exact h | apply Same.ite | simp only [clock_update]

theorem pendBench_clock {s t : State} {n cause} (h : Same State.clock s t) : Same State.clock s (pendBench n cause t) := by
  unfold pendBench
  with_reducible repeat' first | exact h | apply Same.ite | apply eraseWedge_clock | apply setBench_clock | split

theorem pendLease_clock {s t : State} {k} (h : Same State.clock s t) : Same State.clock s (pendLease k t) := by
  unfold pendLease
  with_reducible repeat' first
    | exact h | assumption | apply eraseWedge_clock | apply setLease_clock | apply Same.forN | simp only | split | intro _

theorem raise0_clock {s t : State} {e lease inj} (h : Same State.clock s t) : Same State.clock s (raise0 e lease inj t) := by
  unfold raise0
  with_reducible repeat' first
    | exact h | apply Same.ite | apply recordEvent_clock | apply queueEvent_clock | apply pendBench_clock | apply pendLease_clock
    | apply setLatch_clock | simp only [clock_update]

theorem releaseSlots_clock {s t : State} {l} (h : Same State.clock s t) : Same State.clock s (releaseSlots l t) := h.same rfl

theorem endJob_clock {s t : State} {q k status} (h : Same State.clock s t) : Same State.clock s (endJob q k status t) := h.same rfl

theorem stopJob_clock {s t : State} {q k status} (h : Same State.clock s t) : Same State.clock s (stopJob q k status t) := by
  unfold stopJob
  with_reducible repeat' first | exact h | apply Same.ite | apply endJob_clock

theorem pendVector_clock {s t : State} {n k i} (h : Same State.clock s t) : Same State.clock s (pendVector n k i t) := by
  unfold pendVector
  with_reducible repeat' first | exact h | assumption | apply modCore_clock | simp only | apply Same.foldl | split | intro _

theorem closeJob_clock {s t : State} {key j} (h : Same State.clock s t) : Same State.clock s (closeJob key j t) := by
  unfold closeJob
  with_reducible repeat' first
    | exact h | apply ramWrite_clock | apply setJob_clock | apply pendVector_clock | simp only | apply Same.foldl | split | intro _

theorem clearCtx_clock {s t : State} {x c} (h : Same State.clock s t) : Same State.clock s (clearCtx x c t) := by
  unfold clearCtx
  with_reducible repeat' first | exact h | assumption | apply endJob_clock | simp only [clock_update] | apply Same.foldl | split | intro _

theorem compatOne_clock {s t : State} {x} (h : Same State.clock s t) : Same State.clock s (compatOne x t) := by
  unfold compatOne
  with_reducible repeat' first | exact h | apply Same.ite | apply raise0_clock | apply clearCtx_clock

theorem lockdownClears_clock {s t : State} {held} (h : Same State.clock s t) : Same State.clock s (lockdownClears held t) := by
  unfold lockdownClears
  with_reducible repeat' first
    | exact h | apply Same.ite | apply raise0_clock | apply clearCtx_clock | apply compatOne_clock | simp only | apply Same.foldl
    | intro _

theorem compatAll_clock {s t : State} {l} (h : Same State.clock s t) : Same State.clock s (compatAll l t) := by
  unfold compatAll
  with_reducible repeat' first | exact h | apply Same.ite | apply compatOne_clock | apply lockdownClears_clock | apply Same.foldl

theorem compatClear_clock {s t : State} {x} (h : Same State.clock s t) : Same State.clock s (compatClear x t) := by
  unfold compatClear
  with_reducible repeat' first | exact h | apply Same.ite | apply compatAll_clock

theorem raiseInj_clock {s t : State} {e k inj} (h : Same State.clock s t) : Same State.clock s (raiseInj e k inj t) := by
  unfold raiseInj
  with_reducible repeat' first
    | exact h | apply Same.ite | apply raise0_clock | apply compatClear_clock | apply lockdownClears_clock | apply Same.foldl

theorem raise_clock {s t : State} {e k} (h : Same State.clock s t) : Same State.clock s (raise e k t) := raiseInj_clock h

theorem raiseDev_clock {s t : State} {e} (h : Same State.clock s t) : Same State.clock s (raiseDev e t) := raise_clock h

theorem raiseIsland_clock {s t : State} {i} (h : Same State.clock s t) : Same State.clock s (raiseIsland i t) := raiseDev_clock h

theorem raiseGate_clock {s t : State} {i} (h : Same State.clock s t) : Same State.clock s (raiseGate i t) := raiseDev_clock h

theorem raiseFlash_clock {s t : State} {i} (h : Same State.clock s t) : Same State.clock s (raiseFlash i t) := raiseDev_clock h

theorem raiseTamper_clock {s t : State} {i} (h : Same State.clock s t) : Same State.clock s (raiseTamper i t) := raiseDev_clock h

theorem raiseCust_clock {s t : State} {i} (h : Same State.clock s t) : Same State.clock s (raiseCust i t) := raiseDev_clock h

theorem raiseTag_clock {s t : State} {i} (h : Same State.clock s t) : Same State.clock s (raiseTag i t) := by
  unfold raiseTag
  with_reducible repeat' first | exact h | apply Same.ite | apply raiseCust_clock

theorem raisePower_clock {s t : State} {i} (h : Same State.clock s t) : Same State.clock s (raisePower i t) := raiseDev_clock h

theorem draw_clock {s t : State} {e n} (h : Same State.clock s t) : ∀ a u, draw e n t = some (a, u) → Same State.clock s u := by
  intro a u e
  unfold draw at e
  dsimp only at e
  split at e
  · cases e
    exact setExp_clock h
  · cases e

theorem endUpdate_clock {s t : State} (h : Same State.clock s t) : Same State.clock s (endUpdate t) := h.same rfl

theorem drawIsland_clock {s t : State} {n} (h : Same State.clock s t) : Same State.clock s (drawIsland n t).2 := by
  unfold drawIsland
  split
  · exact draw_clock h _ _ ‹_›
  · exact useFree_clock h

theorem drawDue_clock {s t : State} (h : Same State.clock s t) : Same State.clock s (drawDue t) := by
  unfold drawDue
  extract_lets u
  have gal : Same State.clock s u := by
    unfold u
    split
    · split
      · have drawn := draw_clock h _ _ ‹_›
        exact drawn.same rfl
      · exact h
    · exact h
  split
  · split
    · have drawn := draw_clock gal _ _ ‹_›
      exact drawn.same rfl
    · exact gal
  · exact gal

theorem sendMsix_clock {s t : State} {fn vec} (h : Same State.clock s t) : Same State.clock s (sendMsix fn vec t) := by
  unfold sendMsix
  with_reducible repeat' first | exact h | apply Same.ite | simp only [clock_update]

theorem hostWrite_clock {s t : State} {k addr b} (h : Same State.clock s t) : Same State.clock s (hostWrite k addr b t) := by
  unfold hostWrite
  with_reducible repeat' first | exact h | apply Same.ite | simp only [clock_update]

theorem endCmdAt_clock {s t : State} {at_ h' status need out} (h : Same State.clock s t) :
    Same State.clock s (endCmdAt at_ h' status need out t) := by
  unfold endCmdAt
  with_reducible repeat' first | exact h | apply Same.ite | apply releaseSlots_clock | apply setCmd_clock | simp only | split

theorem endCmd_clock {s t : State} {h' status need out} (h : Same State.clock s t) :
    Same State.clock s (endCmd h' status need out t) := endCmdAt_clock h

/-! #### Request: Dictionary requests -/

theorem respond_clock {s t : State} {v r op st payload} (h : Same State.clock s t) : Same State.clock s (respond v r op st payload t) := h.same rfl

/-! #### Yard: The key yard -/

theorem countUse_clock {s t : State} {k r} (h : Same State.clock s t) : Same State.clock s (countUse k r t) := by
  unfold countUse
  with_reducible repeat' first | exact h | apply Same.ite | apply modLease_clock

theorem reserve_clock {s t : State} {l} (h : Same State.clock s t) : Same State.clock s (reserve l t) := h.same rfl

theorem dropLines_clock {s t : State} {i} (h : Same State.clock s t) : Same State.clock s (dropLines i t) := h.same rfl

/-! #### Benches: The dispatcher and the benches -/

theorem refreshQueues_clock {s t : State} (h : Same State.clock s t) : Same State.clock s (refreshQueues t) := h.same rfl

theorem gateOff_clock {s t : State} {n} (h : Same State.clock s t) : Same State.clock s (gateOff n t) := raisePower_clock h

theorem failCall_clock {s t : State} {c} (h : Same State.clock s t) : Same State.clock s (failCall c t) := by
  unfold failCall
  with_reducible repeat' first | exact h | apply endCmd_clock | split

theorem restartCore_clock {s t : State} {c} (h : Same State.clock s t) : Same State.clock s (restartCore c t) := by
  unfold restartCore
  with_reducible repeat' first | exact h | apply failCall_clock | apply setCore_clock

theorem copyProgram_clock {s t : State} {n k image} (h : Same State.clock s t) : Same State.clock s (copyProgram n k image t) := by
  unfold copyProgram
  with_reducible repeat' first | exact h | apply ramWrite_clock | apply ramClear_clock | split

theorem copyFor_clock {s t : State} {c} (h : Same State.clock s t) : Same State.clock s (copyFor c t) := by
  unfold copyFor
  with_reducible repeat' first | exact h | apply Same.ite | apply copyProgram_clock

theorem startCores_clock {s t : State} {l} (h : Same State.clock s t) : Same State.clock s (startCores l t) := by
  unfold startCores
  with_reducible repeat' first | exact h | assumption | apply copyFor_clock | apply restartCore_clock | apply Same.forEach | intro _

theorem stopCommands_clock {s t : State} {p status} (h : Same State.clock s t) : Same State.clock s (stopCommands p status t) := by
  unfold stopCommands
  with_reducible repeat' first | exact h | apply endCmd_clock | apply Same.forEach | intro _

/-! #### Operands: The operand forms of the command catalogue -/

theorem refCheck_clock {s t : State} {k r spec pend} (h : Same State.clock s t) : Same State.clock s (refCheck k r spec pend t).2 := by
  unfold refCheck
  with_reducible repeat' first | exact h | apply countUse_clock | simp only | split

theorem r98_clock {s t : State} {c partB} (h : Same State.clock s t) : Same State.clock s (r98 c partB t).2.1 := by
  unfold r98
  with_reducible repeat' first | exact h | apply refCheck_clock | simp only | split

/-! #### Queues: Haul queues and the host link -/

theorem announce_clock {s t : State} {k q} (h : Same State.clock s t) : Same State.clock s (announce k q t) := sendMsix_clock h

theorem putCompletion_clock {s t : State} {k q f} (h : Same State.clock s t) : Same State.clock s (putCompletion k q f t) := by
  unfold putCompletion
  with_reducible repeat' first | exact h | apply Same.ite | apply hostWrite_clock | apply setQueue_clock | apply announce_clock

theorem settleError_clock {s t : State} {k q} (h : Same State.clock s t) : Same State.clock s (settleError k q t) := by
  unfold settleError
  with_reducible repeat' first | exact h | apply Same.ite | apply putCompletion_clock | apply modQueue_clock | apply Same.forEach | intro _

/-! #### Engines: What an engine does in a tick -/

theorem engineEvent_clock {s t : State} {q i k} (h : Same State.clock s t) : Same State.clock s (engineEvent q i k t) := raise_clock h

theorem faultCheck_clock {s t : State} {q} (h : Same State.clock s t) : Same State.clock s (faultCheck q t) := by
  unfold faultCheck
  with_reducible repeat' first | exact h | apply Same.ite | apply engineEvent_clock | apply modEngine_clock

theorem settleParts_clock {s t : State} {h'} (h : Same State.clock s t) : Same State.clock s (settleParts h' t) := by
  unfold settleParts
  with_reducible repeat' first | exact h | apply endCmdAt_clock | split

theorem endPart_clock {s t : State} {h' b st out} (h : Same State.clock s t) : Same State.clock s (endPart h' b st out t) := by
  unfold endPart
  with_reducible repeat' first | exact h | apply settleParts_clock | apply setCmd_clock | simp only | split

theorem markFailed_clock {s t : State} {h' b} (h : Same State.clock s t) : Same State.clock s (markFailed h' b t) := by
  unfold markFailed
  with_reducible repeat' first | exact h | apply setCmd_clock | simp only | split

theorem drawn_clock {s t u : State} {c : Prop} [Decidable c] {e n : Nat} {a b : Bytes} (h : Same State.clock s t)
    (k : (if c then some (a, t) else draw e n t) = some (b, u)) : Same State.clock s u := by
  split at k
  · cases k
    exact h
  · exact draw_clock h _ _ k

theorem firstTick_clock {s t : State} {q h' b} (h : Same State.clock s t) : Same State.clock s (firstTick q h' b t) := by
  unfold firstTick
  split
  · exact h
  split
  · exact h
  extract_lets k
  split
  next e =>
  have checked := Same.of_mid (r98_clock h) e
  extract_lets spec hasA key keyA main n
  split
  · exact endPart_clock (markFailed_clock ((engineEvent_clock checked).ite checked))
  split
  · exact endPart_clock (engineEvent_clock checked)
  have drawn := drawn_clock checked ‹_›
  extract_lets early tries total p c
  split
  · exact endPart_clock ((engineEvent_clock drawn).ite drawn)
  · exact reserve_clock (setCmd_clock drawn)

theorem useLines_clock {s t : State} {n l} (h : Same State.clock s t) : Same State.clock s (useLines n l t) := by
  unfold useLines
  with_reducible repeat' first | exact h | apply Same.ite | apply modBench_clock

theorem hostTick_clock {s t : State} {q h' b} (h : Same State.clock s t) : Same State.clock s (hostTick q h' b t) := by
  unfold hostTick
  split
  · exact h
  extract_lets p0 first p c1 c2 u v
  have lines : Same State.clock s u := useLines_clock (setCmd_clock h)
  have held : Same State.clock s v := Same.ite (Same.same lines rfl) lines
  exact Same.ite (Same.same held rfl) held

theorem runFirsts_clock {s t : State} {lim} (h : Same State.clock s t) : Same State.clock s (runFirsts lim t) :=
  .foldl (fun _ _ k => firstTick_clock k) _ (h.same rfl)

theorem assignParts_clock {s t : State} (h : Same State.clock s t) : Same State.clock s (assignParts t) := by
  unfold assignParts
  with_reducible repeat' first | exact h | assumption | apply setCmd_clock | simp only | apply Same.foldl | split | intro _

theorem jobTick_clock {s t : State} {q k} (h : Same State.clock s t) : Same State.clock s (jobTick q k t) := useLines_clock h

theorem runQuantum_clock {s t : State} {q lender c} (h : Same State.clock s t) : Same State.clock s (runQuantum q lender c t) := by
  unfold runQuantum
  with_reducible repeat' first | exact h | apply modEngine_clock | apply hostTick_clock | apply jobTick_clock | simp only | split

theorem engineTick_clock {s t : State} {q} (h : Same State.clock s t) : Same State.clock s (engineTick q t) := by
  unfold engineTick
  extract_lets owner
  split
  · exact h
  split
  · exact runQuantum_clock h
  split
  · exact h
  split
  · exact h
  · exact runQuantum_clock (h.same rfl)

theorem islandTick_clock {s t : State} {q} (h : Same State.clock s t) : Same State.clock s (islandTick q t) := by
  unfold islandTick
  with_reducible repeat' first | exact h | apply Same.ite | apply runQuantum_clock

theorem putOff_clock {s t : State} (h : Same State.clock s t) : Same State.clock s (putOff t) := h.same rfl

theorem enginesTick_clock {s t : State} (h : Same State.clock s t) : Same State.clock s (enginesTick t) := by
  unfold enginesTick
  with_reducible repeat' first
    | exact h | apply Same.ite | apply putOff_clock | apply engineTick_clock | apply assignParts_clock | apply islandTick_clock | apply Same.forN
    | apply Same.forEach | simp only [clock_update] | intro _

/-! #### Catalogue: The command catalogue -/

theorem signOutcome_clock {s t : State} {q k bad xi ctx msg rnd} (h : Same State.clock s t) :
    Same State.clock s (signOutcome q k bad xi ctx msg rnd t).2.2 := by
  unfold signOutcome
  with_reducible repeat' first | exact h | apply modEngine_clock | apply engineEvent_clock | apply faultCheck_clock | simp only | split

/-! #### Signing: Signatures of the island's engines, each verified before release -/

theorem islandCutter_clock {s t : State} {good sig} (h : Same State.clock s t) : Same State.clock s (islandCutter good sig t).2 := by
  unfold islandCutter
  with_reducible repeat' first | exact h | apply faultCheck_clock | split

theorem islandEd_clock {s t : State} {seed msg} (h : Same State.clock s t) : Same State.clock s (islandEd seed msg t).2 := islandCutter_clock h

theorem islandMl_clock {s t : State} {xi msg rnd} (h : Same State.clock s t) : Same State.clock s (islandMl xi msg rnd t).2 := by
  unfold islandMl
  with_reducible repeat' first | exact h | simp only | refine Same.of_last (signOutcome_clock ?_) (by assumption) | split

theorem dualWith_clock {s t : State} {seed msg rnd} (h : Same State.clock s t) : Same State.clock s (dualWith seed msg rnd t).2 := by
  unfold dualWith
  with_reducible repeat' first | exact h | apply islandEd_clock | apply islandMl_clock

theorem beginSign_clock {s t : State} {seed body} (h : Same State.clock s t) : Same State.clock s (beginSign seed body t).2 := drawIsland_clock h

theorem signStep_clock {s t : State} {seed j} (h : Same State.clock s t) : Same State.clock s (signStep seed j t).2.2 := by
  unfold signStep
  with_reducible repeat' first | exact h | apply dualWith_clock | simp only | split

theorem setConn_clock {s t : State} {c x} (h : Same State.clock s t) : Same State.clock s (t.setConn c x) := h.same rfl

theorem spdmSend_clock {s t : State} {ver code p1 p2 b} (h : Same State.clock s t) : Same State.clock s (spdmSend ver code p1 p2 b t) := h.same rfl

theorem spdmError_clock {s t : State} {c code} (h : Same State.clock s t) : Same State.clock s (spdmError c code t) := h.same rfl

theorem keepHalf_clock {s t : State} {c sess half} (h : Same State.clock s t) : Same State.clock s (keepHalf c sess half t) := by
  unfold keepHalf
  with_reducible repeat' first | exact h | apply setConn_clock | simp only [clock_update] | split

theorem releaseSigned_clock {s t : State} {m} (h : Same State.clock s t) : Same State.clock s (releaseSigned m t) := by
  unfold releaseSigned
  with_reducible repeat' first
    | exact h | apply islandCutter_clock | apply islandMl_clock | apply keepHalf_clock | apply spdmSend_clock | apply spdmError_clock
    | simp only [clock_update] | split

theorem signingTick_clock {s t : State} (h : Same State.clock s t) : Same State.clock s (signingTick t) := by
  unfold signingTick
  with_reducible repeat' first | exact h | apply Same.ite | apply releaseSigned_clock | simp only [clock_update] | split

/-! #### Tag: The tag -/

theorem modTag_clock {s t : State} {f} (h : Same State.clock s t) : Same State.clock s (t.modTag f) := h.same rfl

theorem startCommit_clock {s t : State} {area data why} (h : Same State.clock s t) : Same State.clock s (startCommit area data why t) := by
  unfold startCommit
  with_reducible repeat' first | exact h | apply Same.ite | apply raiseTag_clock | apply modTag_clock

theorem tryPending_clock {s t : State} (h : Same State.clock s t) : Same State.clock s (tryPending t) := by
  unfold tryPending
  with_reducible repeat' first
    | exact h | apply Same.ite | apply startCommit_clock | apply modTag_clock | apply raiseGate_clock | apply raiseTamper_clock
    | simp only | split

theorem commitSummary_clock {s t : State} {d} (h : Same State.clock s t) : Same State.clock s (commitSummary d t) := tryPending_clock h

theorem commitService_clock {s t : State} {d} (h : Same State.clock s t) : Same State.clock s (commitService d t) := tryPending_clock h

theorem buildService_clock {s t : State} (h : Same State.clock s t) : Same State.clock s (buildService t) := by
  unfold buildService
  with_reducible repeat' first | exact h | apply Same.ite | apply commitService_clock

/-! #### Tick: The parts of a tick boundary -/

theorem clearRecord_clock {s t : State} {q k} (h : Same State.clock s t) : Same State.clock s (clearRecord q k t) := h.same rfl

theorem withdraw_clock {s t : State} {p} (h : Same State.clock s t) : Same State.clock s (withdraw p t) := h.same rfl

theorem spoil_clock {s t : State} {st q h'} (h : Same State.clock s t) : Same State.clock s (spoil st q h' t) := by
  unfold spoil
  with_reducible repeat' first
    | exact h | apply Same.ite | apply endPart_clock | apply withdraw_clock | apply setCmd_clock | simp only | split

theorem spoilJob_clock {s t : State} {st q k} (h : Same State.clock s t) : Same State.clock s (spoilJob st q k t) := by
  unfold spoilJob
  with_reducible repeat' first
    | exact h | apply Same.ite | apply withdraw_clock | apply ramWrite_clock | apply endJob_clock | apply setJob_clock | apply modJob_clock
    | apply Same.foldl | intro _

theorem eraseLease_clock {s t : State} {q k} (h : Same State.clock s t) : Same State.clock s (eraseLease q k t) := by
  unfold eraseLease
  with_reducible repeat' first | exact h | assumption | apply eraseWedge_clock | apply stopCommands_clock | apply Same.forN | split | intro _

theorem settleErased_clock {s t : State} {q} (h : Same State.clock s t) : Same State.clock s (settleErased q t) := by
  unfold settleErased
  with_reducible repeat' first
    | exact h | apply Same.ite | apply dropHeld_clock | apply spoil_clock | apply modEngine_clock | simp only | split

theorem eccFatal_clock {s t : State} {q store} (h : Same State.clock s t) : Same State.clock s (eccFatal q store t) := by
  unfold eccFatal
  with_reducible repeat' first
    | exact h | apply Same.ite | apply dropHeld_clock | apply eraseLease_clock | apply faultCheck_clock | apply engineEvent_clock
    | apply spoil_clock | apply spoilJob_clock | apply clearRecord_clock | apply setCtx_clock | simp only | split

theorem eccOne_clock {s t : State} {x} (h : Same State.clock s t) : Same State.clock s (eccOne x t) := by
  unfold eccOne
  with_reducible repeat' first
    | exact h | apply modEngine_clock | apply engineEvent_clock | apply eccFatal_clock | apply raiseIsland_clock | simp only | split

theorem closeJobs_clock {s t : State} (h : Same State.clock s t) : Same State.clock s (closeJobs t) := by
  unfold closeJobs
  with_reducible repeat' first | exact h | apply closeJob_clock | apply Same.foldl | intro _

theorem commitYard_clock {s t : State} (h : Same State.clock s t) : Same State.clock s (commitYard t) := by
  unfold commitYard
  with_reducible repeat' first | exact h | assumption | apply dropLines_clock | simp only [clock_update] | apply Same.foldl | intro _

theorem commitSeverities_clock {s t : State} (h : Same State.clock s t) : Same State.clock s (commitSeverities t) := h.same rfl

theorem closeRecord_clock {s t : State} (h : Same State.clock s t) : Same State.clock s (closeRecord t) := by
  unfold closeRecord
  with_reducible repeat' first | exact h | apply Same.ite | apply buildService_clock | simp only [clock_update] | split

theorem refill_clock {s t : State} {e} (h : Same State.clock s t) : Same State.clock s (refill e t) := by
  unfold refill
  with_reducible repeat' first | exact h | apply Same.ite | apply setExp_clock

theorem testSources_clock {s t : State} (h : Same State.clock s t) : Same State.clock s (testSources t) := by
  unfold testSources
  with_reducible repeat' first | exact h | apply Same.ite | simp only [clock_update]

theorem failChain_clock {s t : State} (h : Same State.clock s t) : Same State.clock s (failChain t) := h.same rfl

theorem startTest_clock {s t : State} {r} (h : Same State.clock s t) : Same State.clock s (startTest r t) := h.same rfl

theorem readyExp_clock {s t : State} {e} (h : Same State.clock s t) : Same State.clock s (readyExp e t) := by
  unfold readyExp
  with_reducible repeat' first | exact h | apply Same.ite | apply setExp_clock

theorem rngTick_clock {s t : State} (h : Same State.clock s t) : Same State.clock s (rngTick t) := by
  unfold rngTick
  with_reducible repeat' first
    | exact h | assumption | apply Same.ite | apply failChain_clock | apply startTest_clock | apply readyExp_clock | apply refill_clock
    | apply Same.forEach | simp only [clock_update] | intro _

theorem closeFrame_clock {s t : State} {n} (h : Same State.clock s t) : Same State.clock s (closeFrame n t) := by
  unfold closeFrame
  with_reducible repeat' first | exact h | apply Same.ite | apply gateOff_clock | apply modBench_clock

theorem markBusy_clock {s t : State} {n} (h : Same State.clock s t) : Same State.clock s (markBusy n t) := by
  unfold markBusy
  with_reducible repeat' first | exact h | apply Same.ite | apply modBench_clock

theorem callTick_clock {s t : State} {x} (h : Same State.clock s t) : Same State.clock s (callTick x t) := by
  unfold callTick
  with_reducible repeat' first | exact h | apply Same.ite | apply setCmd_clock | simp only | split

theorem frameStart_clock {s t : State} (h : Same State.clock s t) : Same State.clock s (frameStart t) := by
  unfold frameStart
  extract_lets start u work back cmds leases v
  have started : Same State.clock s u := startCores_clock (Same.forN (fun _ _ k => closeFrame_clock k) h)
  exact refreshQueues_clock (Same.forEach (fun _ _ k => modCore_clock k) (started.same rfl))

theorem openReleased_clock {s t : State} (h : Same State.clock s t) : Same State.clock s (openReleased t) := by
  unfold openReleased
  with_reducible repeat' first
    | exact h | assumption | apply settleError_clock | apply modLease_clock | apply Same.forN | apply Same.forEach | simp only [clock_update]
    | intro _

theorem pauseScope_clock {s t : State} {scope} (h : Same State.clock s t) : Same State.clock s (pauseScope scope t) := by
  unfold pauseScope
  with_reducible repeat' first
    | exact h | assumption | apply stopCommands_clock | apply stopJob_clock | apply dropHeld_clock | apply modLease_clock | apply Same.forN
    | simp only [clock_update] | apply Same.foldl | split | intro _

theorem pauseDue_clock {s t : State} (h : Same State.clock s t) : Same State.clock s (pauseDue t) := by
  unfold pauseDue
  with_reducible repeat' first | exact h | apply pauseScope_clock | simp only [clock_update] | split

/-! #### Gate: The flash gate and the boot ledger -/

theorem modFlg_clock {s t : State} {f} (h : Same State.clock s t) : Same State.clock s (t.modFlg f) := h.same rfl

theorem modLdg_clock {s t : State} {f} (h : Same State.clock s t) : Same State.clock s (t.modLdg f) := h.same rfl

theorem setPass_clock {s t : State} {p} (h : Same State.clock s t) : Same State.clock s (t.setPass p) := h.same rfl

theorem holdPlatform_clock {s t : State} (h : Same State.clock s t) : Same State.clock s (holdPlatform t) := h.same rfl

theorem holdOnly_clock {s t : State} {st} (h : Same State.clock s t) : Same State.clock s (holdOnly st t) := h.same rfl

theorem toDiscover_clock {s t : State} {t' p} (h : Same State.clock s t) : Same State.clock s (toDiscover t' p t) := h.same rfl

theorem afterHold_clock {s t : State} {t' p} (h : Same State.clock s t) : Same State.clock s (afterHold t' p t) := by
  unfold afterHold
  with_reducible repeat' first | exact h | apply Same.ite | apply toDiscover_clock | apply setPass_clock

theorem startPass_clock {s t : State} {reboot forced} (h : Same State.clock s t) : Same State.clock s (startPass reboot forced t) := by
  unfold startPass
  with_reducible repeat' first
    | exact h | apply Same.ite | apply modLdg_clock | apply modFlg_clock | apply holdPlatform_clock | apply setPass_clock | apply afterHold_clock

theorem requestPass_clock {s t : State} {reboot} (h : Same State.clock s t) : Same State.clock s (requestPass reboot t) := by
  unfold requestPass
  with_reducible repeat' first | exact h | apply Same.ite | apply modFlg_clock | apply holdOnly_clock | apply startPass_clock

theorem duePass_clock {s t : State} (h : Same State.clock s t) : Same State.clock s (duePass t) := by
  unfold duePass
  with_reducible repeat' first | exact h | apply requestPass_clock | split

theorem summaryTick_clock {s t : State} (h : Same State.clock s t) : Same State.clock s (summaryTick t) := by
  unfold summaryTick
  with_reducible repeat' first
    | exact h | apply Same.ite | apply signStep_clock | apply modLdg_clock | apply commitSummary_clock | apply beginSign_clock
    | simp only | split

theorem commitManifest_clock {s t : State} (h : Same State.clock s t) : Same State.clock s (commitManifest t) := by
  unfold commitManifest
  with_reducible repeat' first | exact h | apply Same.ite | apply bumpGen_clock | apply modLdg_clock | apply requestPass_clock

/-! #### Tamper: The vault domain and the tamper log -/

theorem stage_clock {s t : State} {kind source resp data latched} (h : Same State.clock s t) :
    Same State.clock s (stage kind source resp data latched t) := by
  unfold stage
  extract_lets v x w low
  split
  · exact modVault_clock h rfl rfl
  split
  · exact modVault_clock h rfl rfl
  · exact modVault_clock h rfl rfl

theorem tmpSaved_clock {s t : State} {v} (h : Same State.clock s t) : Same State.clock s (tmpSaved v t) := h.same rfl

theorem commitTamper_clock {s t : State} (h : Same State.clock s t) : Same State.clock s (commitTamper t) := by
  unfold commitTamper
  extract_lets new has u v
  split
  · exact h
  have bumped : Same State.clock s v := bumpGen_clock (tmpSaved_clock (modVault_clock h rfl rfl))
  exact buildService_clock ((raiseTamper_clock bumped).ite bumped)

/-! #### Flash: Package flash -/

theorem modPfl_clock {s t : State} {f} (h : Same State.clock s t) : Same State.clock s (t.modPfl f) := h.same rfl

theorem dropStores_clock {s t : State} {a b} (h : Same State.clock s t) : Same State.clock s (dropStores a b t) := h.same rfl

theorem eraseRange_clock {s t : State} {a b} (h : Same State.clock s t) : Same State.clock s (eraseRange a b t) := h.same rfl

theorem flashEnd_clock {s t : State} {st} (h : Same State.clock s t) : Same State.clock s (flashEnd st t) := raiseFlash_clock h

theorem flashRefuse_clock {s t : State} {st} (h : Same State.clock s t) : Same State.clock s (flashRefuse st t) := flashEnd_clock h

theorem flashTick_clock {s t : State} (h : Same State.clock s t) : Same State.clock s (flashTick t) := by
  unfold flashTick
  with_reducible repeat' first
    | exact h | assumption | apply Same.ite | apply modPfl_clock | apply eraseRange_clock | apply Same.forEach | simp only | split
    | intro _

theorem flashSwap_clock {s t : State} {go} (h : Same State.clock s t) : Same State.clock s (flashSwap go t) := by
  unfold flashSwap
  with_reducible repeat' first | exact h | apply Same.ite | apply flashRefuse_clock | apply raiseFlash_clock | apply modPfl_clock

theorem refuseUpdate_clock {s t : State} {code} (h : Same State.clock s t) : Same State.clock s (refuseUpdate code t) := raiseFlash_clock h

theorem updateTick_clock {s t : State} (h : Same State.clock s t) : Same State.clock s (updateTick t) := by
  unfold updateTick
  with_reducible repeat' first
    | exact h | apply Same.ite | apply refuseUpdate_clock | apply flashSwap_clock | apply respond_clock | apply endUpdate_clock
    | simp only | split

/-! #### Custody: Custodians -/

theorem modCust_clock {s t : State} {f} (h : Same State.clock s t) : Same State.clock s (t.modCust f) := h.same rfl

theorem outcome_clock {s t : State} {kind q} (h : Same State.clock s t) : Same State.clock s (outcome kind q t) := by
  unfold outcome
  with_reducible repeat' first | exact h | apply journal_clock | split

theorem journalTick_clock {s t : State} (h : Same State.clock s t) : Same State.clock s (journalTick t) := by
  unfold journalTick
  with_reducible repeat' first | exact h | apply Same.ite | apply modCust_clock | apply bumpGen_clock

/-! #### Card: The contact port, the reader, and the exchanges of both with custodian cards -/

theorem modCrd_clock {s t : State} {f} (h : Same State.clock s t) : Same State.clock s (t.modCrd f) := h.same rfl

theorem modCtl_clock {s t : State} {f} (h : Same State.clock s t) : Same State.clock s (t.modCtl f) := h.same rfl

theorem modSess_clock {s t : State} {p f} (h : Same State.clock s t) : Same State.clock s (t.modSess p f) := by
  unfold State.modSess
  with_reducible repeat' first | exact h | apply Same.ite | apply modCrd_clock | apply modCtl_clock

theorem setRes_clock {s t : State} {p v} (h : Same State.clock s t) : Same State.clock s (setRes p v t) := by
  unfold setRes
  with_reducible repeat' first | exact h | apply Same.ite | apply modCrd_clock | apply modCtl_clock

theorem loseCard_clock {s t : State} {p lastSent} (h : Same State.clock s t) : Same State.clock s (loseCard p lastSent t) := by
  unfold loseCard
  with_reducible repeat' first | exact h | apply Same.ite | apply raiseCust_clock | apply outcome_clock | apply modSess_clock | split

theorem deactivate_clock {s t : State} {lastSent} (h : Same State.clock s t) : Same State.clock s (deactivate lastSent t) := loseCard_clock h

theorem refuseCard_clock {s t : State} {res} (h : Same State.clock s t) : Same State.clock s (refuseCard res t) := by
  unfold refuseCard
  with_reducible repeat' first | exact h | apply raiseCust_clock | apply setRes_clock | apply deactivate_clock

theorem activate_clock {s t : State} {k} (h : Same State.clock s t) : Same State.clock s (activate k t) := by
  unfold activate
  with_reducible repeat' first | exact h | apply refuseCard_clock | apply modCrd_clock | split

theorem lpcdEnable_clock {s t : State} {on} (h : Same State.clock s t) : Same State.clock s (lpcdEnable on t) := h.same rfl

theorem followNeed_clock {s t : State} (h : Same State.clock s t) : Same State.clock s (followNeed t) := by
  unfold followNeed
  with_reducible repeat' first
    | exact h | apply Same.ite | apply lpcdEnable_clock | apply modCust_clock | apply activate_clock | apply modCrd_clock | apply deactivate_clock

/-! #### Dict: The object dictionary -/

theorem exportTick_clock {s t : State} (h : Same State.clock s t) : Same State.clock s (exportTick t) := by
  unfold exportTick
  with_reducible repeat' first | exact h | apply Same.ite | apply signStep_clock | apply beginSign_clock | simp only [clock_update] | split

/-! #### Clock: The end of a tick and the beginning of the next one -/

theorem holdChecks_clock {s t : State} (h : Same State.clock s t) : Same State.clock s (holdChecks t) := by
  unfold holdChecks
  with_reducible repeat' first | exact h | apply Same.ite | simp only [clock_update]

theorem endWork_clock {s t : State} {ecc} (h : Same State.clock s t) : Same State.clock s (endWork ecc t) := by
  unfold endWork
  with_reducible repeat' first
    | exact h | apply settleErased_clock | apply eccOne_clock | apply runFirsts_clock | apply commitYard_clock | apply closeJobs_clock
    | apply pauseDue_clock | apply holdChecks_clock | apply Same.forN | apply Same.forEach | intro _

end Sys2Proof.Machine

namespace Sys2Proof.Machine
open Sys2Proof

/-! ### The two halves of TICK -/

/-- The boundary takes the RTC value written in the tick; what the tick counted is over; and the next tick begins, with main power. -/
def Clock.takeRtc (c : Clock) : Clock := { c with rtc := c.rtcSet.getD c.rtc, rtcSet := none }
def Clock.clearTick (c : Clock) : Clock := { c with newReq := [], admitted := 0 }
def Clock.next (c : Clock) : Clock :=
  { c with tick := c.tick + 1, now := c.now + 1, rtcFrac := (c.rtcFrac + rtcUnits) % 100000000,
           rtc := c.rtc + BitVec.ofNat 47 ((c.rtcFrac + rtcUnits) / 100000000) }

def Clock.mainPower (c : Clock) : Bool := c.vio3 && c.sysRst && c.pwrok && !c.supplyHold

theorem State.mainPower_eq (s : State) : s.mainPower = s.clock.mainPower := rfl

theorem setRtc_clock (s : State) : (setRtc s).clock = s.clock.takeRtc := by
  unfold setRtc
  split
  next none =>
    rw [Clock.takeRtc, show s.clock.rtcSet = Option.none from none, Option.getD_none, ← none]
    rfl
  next n some =>
    extract_lets t
    have staged : Same State.clock s t := stage_clock Same.rfl
    calc (raiseTamper 33 (t.modVault fun v => { v with rtc := n, rtcSet := Option.none })).clock
      _ = { t.clock with rtc := n, rtcSet := Option.none } := raiseTamper_clock Same.rfl
      _ = s.clock.takeRtc := by
        rw [staged, Clock.takeRtc, show s.clock.rtcSet = Option.some n from some, Option.getD_some]

theorem endIsland_clock (s : State) : (endIsland s).clock = s.clock.takeRtc := by
  unfold endIsland
  extract_lets t
  have before : Same State.clock s t := commitTamper_clock (commitManifest_clock (signingTick_clock (rngTick_clock (flashTick_clock Same.rfl))))
  have journalled := drawDue_clock (updateTick_clock (exportTick_clock (summaryTick_clock (journalTick_clock before))))
  calc _ = _ := followNeed_clock Same.rfl
    _ = _ := setRtc_clock _
    _ = _ := congrArg Clock.takeRtc journalled

theorem endTick_clock (ecc : List Ecc) (s : State) : (endTick ecc s).clock = s.clock.takeRtc.clearTick := by
  unfold endTick
  extract_lets t u queues
  have woken : Same State.clock s (forEach s.pwr.newReq (fun _ t => raisePower 1 t) (endWork ecc s)) :=
    Same.forEach (fun _ _ => raisePower_clock) (endWork_clock Same.rfl)
  have marked : Same State.clock t u := Same.forN (fun _ _ => markBusy_clock) (commitSeverities_clock (closeRecord_clock Same.rfl))
  calc _ = u.clock.clearTick := rfl
    _ = t.clock.clearTick := congrArg Clock.clearTick marked
    _ = _ := congrArg Clock.clearTick ((endIsland_clock _).trans (congrArg Clock.takeRtc woken))

/-- The two parts of `beginTick`: the counters, and what begins in the new tick. -/
def countTick (s : State) : State :=
  let power := s.mainPower
  let s := passTime (if power then rtcUnits else 8 * rtcUnits) s
  { s with pw := { s.pw with now := s.pw.now + 1 }, dsp := { s.dsp with tick := if power then s.dsp.tick + 1 else s.dsp.tick } }

def openTick (power : Bool) (s : State) : State :=
  let s := testSources (openReleased (duePass s))
  let s := if power && s.ftick = 0 then frameStart s else s
  let s := { s with cores := s.cores.map fun (e : Nat × Core) => coreTick e.1 e.2 }
  enginesTick (s.cores.foldl (fun t e => callTick e.2 t) s)

theorem beginTick_eq (s : State) : beginTick s = openTick s.mainPower (countTick s) := rfl

theorem countTick_clock {s : State} (h : s.mainPower = true) : (countTick s).clock = s.clock.next := by
  unfold countTick
  rw [h]
  rfl

theorem openTick_clock {s t : State} {power : Bool} (h : Same State.clock s t) : Same State.clock s (openTick power t) := by
  unfold openTick
  extract_lets u v w
  have tested : Same State.clock s u := testSources_clock (openReleased_clock (duePass_clock h))
  have framed : Same State.clock s v := (frameStart_clock tested).ite tested
  exact enginesTick_clock (.foldl (fun _ _ => callTick_clock) _ (framed.same rfl))

theorem beginTick_clock {s : State} (h : s.mainPower = true) : (beginTick s).clock = s.clock.next := by
  rw [beginTick_eq]
  exact Eq.trans (openTick_clock Same.rfl) (countTick_clock h)

/-- What the clock of a state says of its parts. -/
theorem clock_parts {t : State} {c : Clock} (h : t.clock = c) : t.dsp.tick = c.tick ∧ t.pw.now = c.now ∧ t.vault.rtc = c.rtc ∧ t.pw.rtcFrac =
    c.rtcFrac ∧
    t.pwr.newReq = c.newReq ∧ t.pwr.admitted = c.admitted ∧ t.dsp.slt = c.slt ∧ t.dsp.core = c.core ∧ t.dsp.page = c.page ∧ t.dsp.sltS = c.sltS ∧
    t.dsp.coreS = c.coreS ∧ t.dsp.pageS = c.pageS := by
  subst h
  exact ⟨rfl, rfl, rfl, rfl, rfl, rfl, rfl, rfl, rfl, rfl, rfl, rfl⟩

end Sys2Proof.Machine

namespace Sys2Proof.Proofs
open Sys2Proof Sys2Proof.Machine

/-- Settles O13: what the end and the beginning of a tick leave of the clocks and the tables (`endTick_clock`, `beginTick_clock`). -/
theorem tickCounts : Obligations.TickCounts := by
  intro ecc s power on
  have powered : (endTick ecc s).mainPower = true := by
    rw [State.mainPower_eq, endTick_clock]
    exact power
  have clock : (beginTick (endTick ecc s)).clock = s.clock.takeRtc.clearTick.next :=
    (beginTick_clock powered).trans (congrArg Clock.next (endTick_clock ecc s))
  exact ⟨_, (if_neg on : execTick ecc s = _), clock_parts clock⟩

end Sys2Proof.Proofs

/-! PROOFS. Writes of the shadow tables, capture and swap (R47-R51). -/

namespace Sys2Proof.Machine
open Sys2Proof

/-! ### A register of four entries -/

/-- Four entries of a table written from number `4 i` on. -/
def setFour (d : Nat) (t : Tbl Nat) (i : Nat) (b : Nat → Nat) : Tbl Nat := (List.range 4).foldl (fun t j => tset d t (4 * i + j) (b j)) t

theorem tget_setFour (d : Nat) (t : Tbl Nat) (i : Nat) (b : Nat → Nat) (e : Nat) :
    tget d (setFour d t i b) e = if e / 4 = i then b (e % 4) else tget d t e := by
  simp only [setFour, show List.range 4 = [0, 1, 2, 3] from rfl, List.foldl_cons, List.foldl_nil, tget_tset]
  by_cases inside : e / 4 = i
  · obtain ⟨j, hj, rfl⟩ : ∃ j < 4, e = 4 * i + j := ⟨e % 4, by omega, by omega⟩
    rw [if_pos inside, show (4 * i + j) % 4 = j by omega]
    interval_cases j <;> simp
  · rw [if_neg inside, if_neg (by omega), if_neg (by omega), if_neg (by omega), if_neg (by omega)]

theorem entryOk_iff (s : State) (v : Nat) : s.entryOk v = true ↔ v = 0xFF ∨ v < s.nLease := by
  simp [State.entryOk]

section
variable {i : Nat} {v : BitVec 64} {s : State}

/-- A write of four entries of an engine's shadow table. -/
theorem shadowWrite_slt (hi : i < 64 * (5 * s.nBench)) :
    shadowWrite (0x1000 + 4 * i) v s =
      if (∀ j < 4, v.toNat / 256 ^ j % 256 = 0xFF ∨ v.toNat / 256 ^ j % 256 < s.nLease) then
        { s with out := { s.out with bus := .ok [] }, dsp := { s.dsp with sltS := setFour 0xFF s.dsp.sltS i fun j => v.toNat / 256 ^ j % 256 } }
      else raiseIsland 48 { s with out := { s.out with bus := .range } } := by
  have notPolicy : ¬0x1000 + 4 * i = 0x10 := by omega
  have notCore : ¬(decide (0x800 ≤ 0x1000 + 4 * i) && decide (0x1000 + 4 * i < 0x840) && decide ((0x1000 + 4 * i) % 4 = 0)) = true := by
    simp only [Bool.and_eq_true, decide_eq_true_eq]
    omega
  have slt : (decide (0x1000 ≤ 0x1000 + 4 * i) && decide (0x1000 + 4 * i < 0x1000 + 0x100 * (5 * s.nBench)) &&
      decide ((0x1000 + 4 * i) % 4 = 0)) = true := by
    simp only [Bool.and_eq_true, decide_eq_true_eq]
    omega
  unfold shadowWrite
  simp only [if_neg notPolicy, if_neg notCore, if_pos slt, show (0x1000 + 4 * i - 0x1000) / 4 = i by omega, List.all_eq_true, List.mem_range, entryOk_iff]
  rfl

/-- A write of four entries of the core table's shadow. -/
theorem shadowWrite_core (hi : i < 16) (ok : ∀ j < 4, (v.toNat / 256 ^ j % 256 = 0xFF ∨ v.toNat / 256 ^ j % 256 < s.nLease) ∧
      (4 * i + j < 4 * s.nBench ∨ v.toNat / 256 ^ j % 256 = 0xFF)) :
    shadowWrite (0x800 + 4 * i) v s =
      { s with out := { s.out with bus := .ok [] }, dsp := { s.dsp with coreS := setFour 0xFF s.dsp.coreS i fun j => v.toNat / 256 ^ j % 256 } } := by
  have notPolicy : ¬0x800 + 4 * i = 0x10 := by omega
  have core : (decide (0x800 ≤ 0x800 + 4 * i) && decide (0x800 + 4 * i < 0x840) && decide ((0x800 + 4 * i) % 4 = 0)) = true := by
    simp only [Bool.and_eq_true, decide_eq_true_eq]
    omega
  unfold shadowWrite
  simp only [if_neg notPolicy, if_pos core, show (0x800 + 4 * i - 0x800) / 4 = i by omega]
  refine if_pos ?_
  simpa only [List.all_eq_true, List.mem_range, Bool.and_eq_true, Bool.or_eq_true, decide_eq_true_eq, entryOk_iff] using ok

theorem shadowWrite_policy (ok : v.toNat < 2 ^ s.nLease) :
    shadowWrite 0x10 v s = { s with out := { s.out with bus := .ok [] }, dsp := { s.dsp with policyS := v } } := by
  unfold shadowWrite
  exact (if_pos rfl).trans (if_pos ok)

end

/-! ### The capture -/

theorem forEach_cons {α : Type} (x : α) (l : List α) (f : α → State → State) (s : State) : forEach (x :: l) f s = forEach l f (f x s) := rfl

/-- Each core of a list is set to the same value, by steps that otherwise leave the cores alone. -/
theorem core_forEach_set {f : Nat → State → State} (hf : ∀ c s, (f c s).cores = s.cores) (x : Core) (l : List Nat) (s : State) (j : Nat) :
    (forEach l (fun c t => (f c t).setCore c x) s).core j = if j ∈ l then x else s.core j := by
  induction l generalizing s with
  | nil => rfl
  | cons c l ih =>
    have step : (f c s).core j = s.core j := congrArg (tget ({} : Core) · j) (hf c s)
    rw [forEach_cons, ih, State.core_set, step]
    by_cases inTail : j ∈ l
    · simp [inTail]
    · simp [inTail, List.mem_cons]

theorem endCmd_cores (h status need : Nat) (out : Bytes) (s : State) : (endCmd h status need out s).cores = s.cores := by
  unfold endCmd endCmdAt
  split
  · rfl
  split
  · rfl
  · rfl

theorem failCall_cores (c : Nat) (s : State) : (failCall c s).cores = s.cores := by
  unfold failCall
  split
  · rfl
  · exact endCmd_cores ..

/-- A wake request changes the wake FIFO or raises an event. -/
theorem wakeReq_same {β : Type} {p : State → β} {s : State} (n : Nat) (fifo : ∀ x, p { s with pwr := x } = p s)
    (raised : p (raisePower 6 s) = p s) : Same p s (wakeReq n s) :=
  Same.ite raised (Same.ite (fifo _) Same.rfl)

theorem wakeReq_dsp (n : Nat) (s : State) : (wakeReq n s).dsp = s.dsp := wakeReq_same n (fun _ => rfl) (raise_unmoved _ _ _).dsp
theorem wakeReq_cores (n : Nat) (s : State) : (wakeReq n s).cores = s.cores := wakeReq_same n (fun _ => rfl) (raise_unmoved _ _ _).cores

theorem bumpGen_cores (index sub : Nat) (s : State) : (bumpGen index sub s).cores = s.cores := rfl

theorem bumpViews_cores (d : Dsp) (s : State) : (bumpViews d s).cores = s.cores := by
  unfold bumpViews
  refine Same.ite (p := State.cores) Same.rfl (Same.forN (fun k t h => ?_) Same.rfl)
  have one := Same.ite (c := ownView s.nBench d.slt d.core k = ownView s.nBench s.dsp.slt s.dsp.core k) h
    (h.same (bumpGen_cores (0x4008 + 0x40 * k) 1 t))
  exact Same.ite one (one.same (bumpGen_cores ..))

/-- SHADOW_CAPTURE at its tick: what it leaves in the dispatcher, and the cores whose entry changes. -/
theorem exec_shadowCapture_of_due {s : State} (hm : s.mainPower = true) (hp : s.dsp.pend = true) (hc : s.dsp.captured = false)
    (ha : s.dsp.at_ = s.frame + 1) (hf : s.ftick = 253) :
    ∃ t, exec .shadowCapture s = .next t ∧
      t.dsp = { s.dsp with captured := true, policyC := s.dsp.policyS, coreC := s.dsp.coreS, sltC := s.dsp.sltS, pageC := s.dsp.pageS } ∧
      ∀ c ∈ s.changingCores s.dsp.coreS, t.core c = { ({} : Core) with state := .reset } := by
  have due : (!s.mainPower || !s.dsp.pend || s.dsp.captured || decide (s.dsp.at_ ≠ s.frame + 1) || decide (s.ftick ≠ 253)) = false := by
    simp [hm, hp, hc, ha, hf]
  refine ⟨_, (if_neg (by rw [due]; decide) : execShadowCapture s = _), ?_, fun c changes => ?_⟩
  · rw [bumpViews_dsp, forN_dsp fun n t => ite_dsp (wakeReq_dsp n t) rfl]
    exact Eq.trans (forEach_dsp (f := fun c t => (failCall c t).setCore c { state := .reset }) (fun c t => by simp) _ _) rfl
  · have woken : ∀ (d : Dsp) (f : Nat → State → Prop) [∀ n t, Decidable (f n t)] (t : State),
        (bumpViews d (forN s.nBench (fun n t => if f n t then wakeReq n t else t) t)).core c = t.core c := fun d f _ t =>
      congrArg (tget ({} : Core) · c) ((bumpViews_cores _ _).trans
        (Same.forN (p := State.cores) (fun n u h => (h.same (wakeReq_cores n u)).ite h) Same.rfl))
    exact (woken _ _ _).trans ((core_forEach_set failCall_cores _ _ _ c).trans (if_pos changes))

end Sys2Proof.Machine

namespace Sys2Proof.Proofs
open Sys2Proof Sys2Proof.Machine

/-- Settles O15: the branches of `shadowWrite`, and what four entries written read as (`tget_setFour`). -/
theorem shadowWrites : Obligations.ShadowWrites := by
  intro i v s power b lease
  have write (off : Nat) : exec (.shadowTableWrite off v) s = .next (shadowWrite off v s) := if_pos power
  refine ⟨fun hi ok => ?slt, fun hi ok => ?core, fun ok => ?policy, fun hi ⟨j, hj, bad⟩ => ?refused⟩
  case slt => exact ⟨_, (write _).trans (congrArg _ ((shadowWrite_slt hi).trans (if_pos ok))), rfl, tget_setFour 0xFF s.dsp.sltS i b⟩
  case core => exact ⟨_, (write _).trans (congrArg _ (shadowWrite_core hi ok)), rfl, tget_setFour 0xFF s.dsp.coreS i b⟩
  case policy => exact ⟨_, (write _).trans (congrArg _ (shadowWrite_policy ok)), rfl, rfl⟩
  case refused =>
    have left : Unmoved { s with out := { s.out with bus := .range } } (raiseIsland 48 { s with out := { s.out with bus := .range } }) :=
      raise_unmoved _ _ _
    exact ⟨_, (write _).trans (congrArg _ ((shadowWrite_slt hi).trans (if_neg fun ok => bad (ok j hj)))), congrArg Out.bus left.out, left.dsp⟩

/-- Settles O16: what the capture and the swap leave in the dispatcher (`exec_shadowCapture_of_due`, `exec_frameSwap_of_due`). -/
theorem slotSwap : Obligations.SlotSwap := by
  refine ⟨fun s hm hp hc ha hf => ?capture, fun s hm hp hc ha hf => ?swap⟩
  case capture =>
    obtain ⟨t, ht, dsp, cores⟩ := exec_shadowCapture_of_due hm hp hc ha hf
    refine ⟨t, ht, ?_⟩
    rw [dsp]
    exact ⟨rfl, rfl, rfl, rfl, rfl, rfl, rfl, rfl, rfl, cores⟩
  case swap =>
    obtain ⟨t, ht, dsp⟩ := exec_frameSwap_of_due hm hp hc ha hf
    refine ⟨t, ht, ?_⟩
    rw [dsp]
    refine ⟨rfl, rfl, rfl, rfl, rfl, rfl, rfl, rfl, fun none late => ?_⟩
    have noLater : s.dsp.repl.filter (fun r => s.dsp.at_ < r.frame) = [] := by
      simpa only [List.filter_eq_nil_iff, decide_eq_true_eq, not_lt] using none
    have noLate : (s.dsp.applyPend && s.dsp.applyLate) = false := by
      cases h : s.dsp.applyPend
      · rfl
      · exact late h
    unfold State.swappedDsp
    rw [noLater, noLate]
    exact ⟨rfl, rfl⟩

end Sys2Proof.Proofs

/-! PROOFS. Bench power and the re-placement search (R38, R39, R440-R443). -/

namespace Sys2Proof.Machine
open Sys2Proof

/-! ### An event leaves every bench as it was, but for a quarantine that it asks for -/

/-- The benches, apart from their pending quarantines. -/
def State.standing (s : State) (n : Nat) : Bench := { s.bench n with qPend := none }

theorem standing_update {s t : State} {ident pw dsp cores leases flt pwr vault queues cmds nextCmd engines jobs dig held yard rng flg ldg pfl crd ctl tag cust dic spdm lcs gal bus link out ram pending} :
    Same State.standing s ⟨ident, pw, dsp, t.benches, cores, leases, flt, pwr, vault, queues, cmds, nextCmd, engines, jobs, dig, held, yard, rng, flg, ldg, pfl, crd, ctl, tag, cust, dic, spdm, lcs, gal, bus, link, out, ram, pending⟩ ↔ Same State.standing s t :=
  Iff.rfl

theorem setBench_standing {s t : State} {n : Nat} {b : Bench} (h : Same State.standing s t)
    (e : ({ b with qPend := none } : Bench) = { t.bench n with qPend := none }) : Same State.standing s (t.setBench n b) := by
  refine h.same (funext fun i => ?_)
  unfold State.standing
  rw [State.bench_set]
  split
  next i_eq => rw [i_eq]; exact e
  · rfl

theorem setLease_standing {s t : State} {k x} (h : Same State.standing s t) : Same State.standing s (t.setLease k x) := h.same rfl

theorem setEngine_standing {s t : State} {q x} (h : Same State.standing s t) : Same State.standing s (t.setEngine q x) := h.same rfl

theorem modEngine_standing {s t : State} {q f} (h : Same State.standing s t) : Same State.standing s (t.modEngine q f) := h.same rfl

theorem setJob_standing {s t : State} {q k x} (h : Same State.standing s t) : Same State.standing s (t.setJob q k x) := h.same rfl

theorem eraseWedge_standing {s t : State} {q st p} (h : Same State.standing s t) : Same State.standing s (eraseWedge q st p t) := h.same rfl

theorem bumpGen_standing {s t : State} {index sub} (h : Same State.standing s t) : Same State.standing s (bumpGen index sub t) := h.same rfl

theorem journal_standing {s t : State} {x} (h : Same State.standing s t) : Same State.standing s (journal x t) := h.same rfl

theorem closeCeremony_standing {s t : State} {reason} (h : Same State.standing s t) : Same State.standing s (closeCeremony reason t) := by
  unfold closeCeremony
  with_reducible repeat' first | exact h | apply journal_standing | simp only [standing_update] | split

theorem lapseGallery_standing {s t : State} (h : Same State.standing s t) : Same State.standing s (lapseGallery t) := by
  unfold lapseGallery
  with_reducible repeat' first | exact h | apply Same.ite | apply bumpGen_standing | simp only [standing_update]

theorem latchOnly_standing {s t : State} {cause} (h : Same State.standing s t) : Same State.standing s (latchOnly cause t) := by
  unfold latchOnly
  with_reducible repeat' first | exact h | apply Same.ite | simp only [standing_update]

theorem setLatch_standing {s t : State} {cause} (h : Same State.standing s t) : Same State.standing s (setLatch cause t) := by
  unfold setLatch
  with_reducible repeat' first
    | exact h | assumption | apply latchOnly_standing | apply eraseWedge_standing | apply lapseGallery_standing | apply closeCeremony_standing
    | apply Same.forN | simp only [standing_update] | split | intro _

theorem recordEvent_standing {s t : State} {e sev lease inj} (h : Same State.standing s t) :
    Same State.standing s (recordEvent e sev lease inj t) := by
  unfold recordEvent
  with_reducible repeat' first | exact h | simp only [standing_update] | split

theorem queueEvent_standing {s t : State} {x} (h : Same State.standing s t) : Same State.standing s (queueEvent x t) := by
  unfold queueEvent
  with_reducible repeat' first | exact h | apply Same.ite | simp only [standing_update]

theorem pendBench_standing {s t : State} {n cause} (h : Same State.standing s t) : Same State.standing s (pendBench n cause t) := by
  unfold pendBench
  extract_lets b
  split
  · exact h
  split
  · exact eraseWedge_standing (setBench_standing h rfl)
  · exact Same.ite (setBench_standing h rfl) h

theorem pendLease_standing {s t : State} {k} (h : Same State.standing s t) : Same State.standing s (pendLease k t) := by
  unfold pendLease
  with_reducible repeat' first
    | exact h | assumption | apply eraseWedge_standing | apply setLease_standing | apply Same.forN | simp only | split | intro _

theorem raise0_standing {s t : State} {e lease inj} (h : Same State.standing s t) : Same State.standing s (raise0 e lease inj t) := by
  unfold raise0
  with_reducible repeat' first
    | exact h | apply Same.ite | apply recordEvent_standing | apply queueEvent_standing | apply pendBench_standing | apply pendLease_standing
    | apply setLatch_standing | simp only [standing_update]

theorem releaseSlots_standing {s t : State} {l} (h : Same State.standing s t) : Same State.standing s (releaseSlots l t) := h.same rfl

theorem endJob_standing {s t : State} {q k status} (h : Same State.standing s t) : Same State.standing s (endJob q k status t) := h.same rfl

theorem clearCtx_standing {s t : State} {x c} (h : Same State.standing s t) : Same State.standing s (clearCtx x c t) := by
  unfold clearCtx
  with_reducible repeat' first | exact h | assumption | apply endJob_standing | simp only [standing_update] | apply Same.foldl | split | intro _

theorem compatOne_standing {s t : State} {x} (h : Same State.standing s t) : Same State.standing s (compatOne x t) := by
  unfold compatOne
  with_reducible repeat' first | exact h | apply Same.ite | apply raise0_standing | apply clearCtx_standing

theorem lockdownClears_standing {s t : State} {held} (h : Same State.standing s t) : Same State.standing s (lockdownClears held t) := by
  unfold lockdownClears
  with_reducible repeat' first
    | exact h | apply Same.ite | apply raise0_standing | apply clearCtx_standing | apply compatOne_standing | simp only
    | apply Same.foldl | intro _

theorem compatAll_standing {s t : State} {l} (h : Same State.standing s t) : Same State.standing s (compatAll l t) := by
  unfold compatAll
  with_reducible repeat' first | exact h | apply Same.ite | apply compatOne_standing | apply lockdownClears_standing | apply Same.foldl

theorem compatClear_standing {s t : State} {x} (h : Same State.standing s t) : Same State.standing s (compatClear x t) := by
  unfold compatClear
  with_reducible repeat' first | exact h | apply Same.ite | apply compatAll_standing

theorem raiseInj_standing {s t : State} {e k inj} (h : Same State.standing s t) : Same State.standing s (raiseInj e k inj t) := by
  unfold raiseInj
  with_reducible repeat' first
    | exact h | apply Same.ite | apply raise0_standing | apply compatClear_standing | apply lockdownClears_standing | apply Same.foldl

theorem raise_standing {s t : State} {e k} (h : Same State.standing s t) : Same State.standing s (raise e k t) := raiseInj_standing h

theorem raiseDev_standing {s t : State} {e} (h : Same State.standing s t) : Same State.standing s (raiseDev e t) := raise_standing h

theorem raisePower_standing {s t : State} {i} (h : Same State.standing s t) : Same State.standing s (raisePower i t) := raiseDev_standing h

end Sys2Proof.Machine

namespace Sys2Proof.Machine
open Sys2Proof

/-- The state of a bench is not changed by an event. -/
theorem bench_state_of_standing {s t : State} (h : Same State.standing s t) (n : Nat) : (t.bench n).state = (s.bench n).state :=
  (congrArg Bench.state (congrFun (show t.standing = s.standing from h) n) : (t.standing n).state = (s.standing n).state)

/-! ### Wake requests: the FIFO of those of this tick -/

theorem mem_insertUp (n m : Nat) (l : List Nat) : m ∈ insertUp n l ↔ m = n ∨ m ∈ l := by
  have parts := List.takeWhile_append_dropWhile (p := fun x => decide (x < n)) (l := l)
  rw [insertUp, List.mem_append, List.mem_cons]
  conv_rhs => rw [← parts, List.mem_append]
  tauto

theorem insertUp_pairwise {n : Nat} {l : List Nat} (rising : l.Pairwise (· < ·)) (new : n ∉ l) : (insertUp n l).Pairwise (· < ·) := by
  induction l with
  | nil => simp [insertUp]
  | cons a l ih =>
    rw [List.pairwise_cons] at rising
    obtain ⟨below, rest⟩ := rising
    simp only [List.mem_cons, not_or] at new
    by_cases less : a < n
    · have : insertUp n (a :: l) = a :: insertUp n l := by simp [insertUp, less]
      rw [this, List.pairwise_cons]
      refine ⟨fun m hm => ?_, ih rest new.2⟩
      rcases (mem_insertUp n m l).1 hm with rfl | hm
      · exact less
      · exact below m hm
    · have : insertUp n (a :: l) = n :: a :: l := by simp [insertUp, less]
      rw [this, List.pairwise_cons, List.pairwise_cons]
      refine ⟨fun m hm => ?_, below, rest⟩
      rcases List.mem_cons.1 hm with rfl | hm
      · omega
      · have := below m hm; omega

theorem length_insertUp (n : Nat) (l : List Nat) : (insertUp n l).length = l.length + 1 := by
  have parts := congrArg List.length (List.takeWhile_append_dropWhile (p := fun x => decide (x < n)) (l := l))
  rw [List.length_append] at parts
  rw [insertUp, List.length_append, List.length_cons]
  omega

/-- The requests of `l` that `mask` names, entered among those of the tick. -/
def enterAll (mask : BitVec 16) (l new : List Nat) : List Nat := (l.filter (mask.getLsbD ·)).foldl (fun l n => insertUp n l) new

theorem enterAll_cons_of_named {mask : BitVec 16} {n : Nat} (h : mask.getLsbD n = true) (l new : List Nat) :
    enterAll mask (n :: l) new = enterAll mask l (insertUp n new) := by
  simp [enterAll, h]

theorem enterAll_cons_of_unnamed {mask : BitVec 16} {n : Nat} (h : mask.getLsbD n = false) (l new : List Nat) :
    enterAll mask (n :: l) new = enterAll mask l new := by
  simp [enterAll, h]

theorem mem_enterAll (mask : BitVec 16) (l new : List Nat) (n : Nat) : n ∈ enterAll mask l new ↔ n ∈ new ∨ n ∈ l ∧ mask.getLsbD n = true := by
  induction l generalizing new with
  | nil => simp [enterAll]
  | cons m l ih =>
    cases named : mask.getLsbD m
    · rw [enterAll_cons_of_unnamed named, ih, List.mem_cons]
      refine or_congr_right ⟨fun ⟨h, k⟩ => ⟨.inr h, k⟩, fun ⟨h, k⟩ => ⟨h.resolve_left fun e => ?_, k⟩⟩
      rw [e, named] at k
      exact Bool.false_ne_true k
    · rw [enterAll_cons_of_named named, ih, mem_insertUp, List.mem_cons]
      by_cases e : n = m
      · simp [e, named]
      · simp [e]

/-- Requests that rise and do not wait yet keep those of the tick rising. -/
theorem enterAll_pairwise {mask : BitVec 16} {l new : List Nat} (distinct : l.Nodup) (fresh : ∀ n ∈ l, mask.getLsbD n = true → n ∉ new)
    (rising : new.Pairwise (· < ·)) : (enterAll mask l new).Pairwise (· < ·) := by
  induction l generalizing new with
  | nil => exact rising
  | cons m l ih =>
    obtain ⟨once, distinct⟩ := List.nodup_cons.1 distinct
    cases named : mask.getLsbD m
    · rw [enterAll_cons_of_unnamed named]
      exact ih distinct (fun n hn => fresh n (List.mem_cons_of_mem _ hn)) rising
    · rw [enterAll_cons_of_named named]
      refine ih distinct (fun n hn k => ?_) (insertUp_pairwise rising (fresh m List.mem_cons_self named))
      rw [mem_insertUp, not_or]
      exact ⟨fun e => once (e ▸ hn), fresh n (List.mem_cons_of_mem _ hn) k⟩

/-- The state with the wake FIFO `old ++ new`, `new` being the requests of this tick. -/
def State.withWaiting (s : State) (old new : List Nat) : State := { s with pwr := { s.pwr with fifo := old ++ new, newReq := new } }

/-- A request for a bench that is OFF, good and not waiting enters among those of its tick. -/
theorem wakeReq_enters {n : Nat} {s : State} {fifo old new : List Nat} (present : n < s.nBench) (off : (s.bench n).state = .off)
    (good : s.pwr.fail.getLsbD n = false) (idle : n ∉ fifo) (older : fifo.take (fifo.length - new.length) = old) :
    wakeReq n { s with pwr := { s.pwr with fifo := fifo, newReq := new } } = s.withWaiting old (insertUp n new) := by
  unfold wakeReq
  have takes : (decide (s.nBench ≤ n) || decide ((s.bench n).state = .quarantined) || s.pwr.fail.getLsbD n) = false := by
    simp [good, off, present]
  have enters : (decide ((s.bench n).state = .off) && !fifo.contains n) = true := by
    simp [off, idle]
  subst older
  exact (if_neg (Bool.eq_false_iff.1 takes)).trans (if_pos enters)

/-- Several requests of one tick, one after the other. -/
theorem wakeReqs_enter {mask : BitVec 16} {l old new : List Nat} {s : State} (distinct : l.Nodup)
    (good : ∀ n ∈ l, mask.getLsbD n = true → n < s.nBench ∧ (s.bench n).state = .off ∧ s.pwr.fail.getLsbD n = false ∧ n ∉ old ∧ n ∉ new) :
    forEach l (fun n t => if mask.getLsbD n then wakeReq n t else t) (s.withWaiting old new) = s.withWaiting old (enterAll mask l new) := by
  induction l generalizing new with
  | nil => rfl
  | cons m l ih =>
    obtain ⟨once, distinct⟩ := List.nodup_cons.1 distinct
    rw [forEach_cons]
    cases named : mask.getLsbD m
    · rw [enterAll_cons_of_unnamed named]
      exact ih distinct fun n hn => good n (List.mem_cons_of_mem _ hn)
    · obtain ⟨present, off, ok, notOld, notNew⟩ := good m List.mem_cons_self named
      have entered : wakeReq m (s.withWaiting old new) = s.withWaiting old (insertUp m new) :=
        wakeReq_enters present off ok (by simp [notOld, notNew]) (by simp)
      rw [if_pos rfl, entered, enterAll_cons_of_named named]
      refine ih distinct fun n hn k => ?_
      obtain ⟨a, b, c, d, e⟩ := good n (List.mem_cons_of_mem _ hn) k
      refine ⟨a, b, c, d, ?_⟩
      rw [mem_insertUp, not_or]
      exact ⟨fun e => once (e ▸ hn), e⟩

end Sys2Proof.Machine

namespace Sys2Proof.Machine
open Sys2Proof

/-! ### The re-placement search -/

/-- What the search leaves alone: the active tables, the re-placements and the cores. -/
def State.active (s : State) := (s.dsp.slt, s.dsp.core, s.dsp.page, s.dsp.repl, s.cores)

/-- A move that the search for a bench may decide. -/
def Move.decided (m : Move) (n : Nat) : Prop := m.src = n ∧ (m.pass = 1 ∨ m.pass = 2 ∨ m.pass = 3 ∧ m.dst = 0xFF)

theorem searchLease_decides (n k : Nat) (s : State) : (searchLease n k s).1.lease = k ∧ (searchLease n k s).1.decided n := by
  unfold searchLease
  extract_lets d cand ticks done
  split
  · exact ⟨rfl, rfl, .inl rfl⟩
  split
  · exact ⟨rfl, rfl, .inr (.inl rfl)⟩
  · exact ⟨rfl, rfl, .inr (.inr ⟨rfl, rfl⟩)⟩

theorem searchLease_active (n k : Nat) (s : State) : Same State.active s (searchLease n k s).2 := by
  unfold searchLease
  extract_lets d cand ticks done
  split
  · exact Same.rfl
  split
  · exact Same.rfl
  · exact Same.rfl

/-- The search over several leases, one after the other. -/
def searchAll (n : Nat) (l : List Nat) (acc : List Move × State) : List Move × State :=
  l.foldl (fun (acc : List Move × State) k =>
    let (m, t) := searchLease n k acc.2
    (acc.1 ++ [m], t)) acc

theorem searchAll_cons (n k : Nat) (l : List Nat) (acc : List Move × State) :
    searchAll n (k :: l) acc = searchAll n l (acc.1 ++ [(searchLease n k acc.2).1], (searchLease n k acc.2).2) := rfl

theorem searchAll_active (n : Nat) (l : List Nat) (acc : List Move × State) : Same State.active acc.2 (searchAll n l acc).2 := by
  induction l generalizing acc with
  | nil => exact Same.rfl
  | cons k l ih => exact (searchLease_active n k acc.2).trans (ih _)

theorem searchAll_decides (n : Nat) (l : List Nat) (acc : List Move × State) :
    (searchAll n l acc).1.map Move.lease = acc.1.map Move.lease ++ l ∧ ((∀ m ∈ acc.1, m.decided n) → ∀ m ∈ (searchAll n l acc).1, m.decided n) := by
  induction l generalizing acc with
  | nil => exact ⟨(List.append_nil _).symm, id⟩
  | cons k l ih =>
    obtain ⟨lease, decided⟩ := searchLease_decides n k acc.2
    obtain ⟨leases, all⟩ := ih (acc.1 ++ [(searchLease n k acc.2).1], (searchLease n k acc.2).2)
    rw [searchAll_cons]
    refine ⟨by rw [leases]; simp [lease], fun h => all fun m hm => ?_⟩
    rcases List.mem_append.1 hm with hm | hm
    · exact h m hm
    · exact List.mem_singleton.1 hm ▸ decided

theorem exec_replacementSearch_of_due {n : Nat} {r : Replacement} {s : State}
    (h : s.dsp.repl.find? (fun r => decide (r.bench = n) && !r.searched) = some r)
    (due : ¬(s.dsp.pend && !s.dsp.captured && decide (s.dsp.at_ < r.frame)) = true) :
    exec (.replacementSearch n) s =
      (let x := searchAll n (s.heldBy n) ([], s)
       .next { x.2 with dsp := { x.2.dsp with repl := x.2.dsp.repl.map fun y => if y = r then { y with searched := true, moves := x.1 } else y } }) := by
  change execReplacementSearch n s = _
  unfold execReplacementSearch
  rw [h]
  exact if_neg due

/-! ### Benches marked by a mask -/

theorem forN_succ (n : Nat) (f : Nat → State → State) (s : State) : forN (n + 1) f s = f n (forN n f s) := by
  simp only [forN, List.range_succ, List.foldl_append, List.foldl_cons, List.foldl_nil]

theorem bench_forN_mod (mask : Nat → Bool) (g : Bench → Bench) (n : Nat) (s : State) (m : Nat) :
    (forN n (fun n t => if mask n then t.modBench n g else t) s).bench m = if m < n ∧ mask m = true then g (s.bench m) else s.bench m := by
  induction n with
  | zero => simp [forN]
  | succ n ih =>
    rw [forN_succ]
    cases named : mask n
    · rw [if_neg (by decide), ih]
      by_cases e : m = n
      · simp [e, named]
      · simp [show m < n + 1 ↔ m < n by omega]
    · rw [if_pos rfl, State.modBench_eq, State.bench_set]
      by_cases e : m = n
      · subst e
        rw [if_pos rfl, ih, if_neg (by simp), if_pos ⟨Nat.lt_succ_self m, named⟩]
      · rw [if_neg e, ih]
        simp [show m < n + 1 ↔ m < n by omega]

/-- All of the state but its benches. -/
def State.apartBenches (s : State) : State := { s with benches := [] }

theorem pwrOff_apartBenches (mask : BitVec 16) (s : State) : Same State.apartBenches s (pwrOff mask s) :=
  Same.forN (fun _ _ h => Same.ite (h.same (by rfl)) h) Same.rfl

theorem wrote_eq (addr : Nat) (s : State) : ∃ bus, wrote addr s = { s with bus := bus } := by
  unfold wrote
  split
  · exact ⟨_, rfl⟩
  · exact ⟨_, rfl⟩

/-- Several requests of one write: the first sets off those of this tick from the older ones. -/
theorem wakeReqs_first {mask : BitVec 16} {l : List Nat} {s : State} (distinct : l.Nodup)
    (good : ∀ n ∈ l, mask.getLsbD n = true →
      n < s.nBench ∧ (s.bench n).state = .off ∧ s.pwr.fail.getLsbD n = false ∧ n ∉ s.pwr.fifo ∧ n ∉ s.pwr.newReq) :
    forEach l (fun n t => if mask.getLsbD n then wakeReq n t else t) s =
      if ∃ n ∈ l, mask.getLsbD n = true then
        s.withWaiting (s.pwr.fifo.take (s.pwr.fifo.length - s.pwr.newReq.length)) (enterAll mask l s.pwr.newReq)
      else s := by
  induction l with
  | nil => exact (if_neg (by simp)).symm
  | cons m l ih =>
    obtain ⟨once, distinct⟩ := List.nodup_cons.1 distinct
    have good' := fun n hn => good n (List.mem_cons_of_mem _ hn)
    rw [forEach_cons]
    cases named : mask.getLsbD m
    · rw [if_neg (by decide), ih distinct good', enterAll_cons_of_unnamed named]
      simp [named]
    · obtain ⟨present, off, ok, idle, notNew⟩ := good m List.mem_cons_self named
      rw [if_pos rfl, if_pos ⟨m, List.mem_cons_self, named⟩, enterAll_cons_of_named named, ← wakeReqs_enter distinct]
      · exact congrArg (forEach l _) (wakeReq_enters present off ok idle rfl)
      · intro n hn k
        obtain ⟨a, b, c, d, e⟩ := good' n hn k
        refine ⟨a, b, c, fun h => d (List.mem_of_mem_take h), ?_⟩
        rw [mem_insertUp, not_or]
        exact ⟨fun e => once (e ▸ hn), e⟩

theorem exists_named_of_ne_zero {mask : BitVec 16} (h : mask ≠ 0) : ∃ n ∈ List.range 16, mask.getLsbD n = true := by
  by_contra none
  simp only [List.mem_range, not_exists, not_and, Bool.not_eq_true] at none
  exact h (BitVec.eq_of_getLsbD_eq fun i hi => (none i hi).trans (by simp))

/-! ### Admission and ramps -/

theorem exec_wakeAdmission_of_room {n : Nat} {rest : List Nat} {s : State} (power : s.mainPower = true) (fifo : s.pwr.fifo = n :: rest)
    (few : s.pwr.admitted < 2) :
    exec .wakeAdmission s = .next ({ s with
      pwr := { s.pwr with fifo := rest, newReq := s.pwr.newReq.filter (· ≠ n), admitted := s.pwr.admitted + 1 } }.modBench n
        fun b => { b with state := .waking, rampEnd := s.pw.now + 6 }) := by
  have notFull : ¬(decide (2 ≤ s.pwr.admitted) || !s.mainPower) = true := by
    rw [power, decide_eq_false (Nat.not_le.2 few)]
    decide
  change execWakeAdmission s = _
  unfold execWakeAdmission
  rw [fifo]
  exact if_neg notFull

theorem exec_benchRampEnd {n : Nat} {s : State} (waking : (s.bench n).state = .waking) (ended : (s.bench n).rampEnd ≤ s.pw.now) (good : Bool) :
    exec (.benchRampEnd n good) s = .next (if good then setReady n (s.setBench n { s.bench n with state := .ready, readyAt := s.pw.now })
      else raisePower 2 { s.setBench n { s.bench n with state := .off } with
        pwr := { s.pwr with fail := s.pwr.fail ||| BitVec.ofNat 16 (2 ^ n) } }) := by
  have due : ¬(decide ((s.bench n).state ≠ .waking) || decide (s.pw.now < (s.bench n).rampEnd)) = true := by
    simp [waking, ended]
  refine (if_neg due : execBenchRampEnd n good s = _).trans ?_
  cases good <;> rfl

end Sys2Proof.Machine

namespace Sys2Proof.Proofs
open Sys2Proof Sys2Proof.Machine

/-- Settles O18: the search decides one move after the other and touches the shadow tables alone; each power command takes one branch of its
definition, and an event leaves a bench OFF. -/
theorem benchPower : Obligations.BenchPower := by
  refine ⟨fun n r s found due => ?search, fun n rest mask s => ⟨fun power fifo few => ?wake, fun waking ended => ⟨?good, fun hn => ?bad⟩,
    fun ready last limit reached idle empty => ?idleOff, fun power => ⟨?off, fun ok => ?request⟩⟩⟩
  case search =>
    have notYet : ¬(s.dsp.pend && !s.dsp.captured && decide (s.dsp.at_ < r.frame)) = true := by
      simp only [Bool.and_eq_true, Bool.not_eq_true', decide_eq_true_eq, not_and, not_lt, and_imp]
      exact due
    have active := searchAll_active n (s.heldBy n) ([], s)
    obtain ⟨leases, decided⟩ := searchAll_decides n (s.heldBy n) ([], s)
    obtain ⟨slt, core, page, repl, cores⟩ : _ ∧ _ ∧ _ ∧ _ ∧ _ := by simpa only [Same, State.active, Prod.mk.injEq] using active
    refine ⟨_, _, exec_replacementSearch_of_due found notYet, ?_, leases, decided (fun m hm => nomatch hm), slt, core, page, cores⟩
    refine List.mem_map.2 ⟨r, by rw [repl]; exact List.mem_of_find?_eq_some found, if_pos rfl⟩
  case wake =>
    refine ⟨_, exec_wakeAdmission_of_room power fifo few, rfl, rfl, ?_, fun m hm => ?_, rfl⟩
    · rw [State.modBench_eq, State.bench_set_same]
      rfl
    · rw [State.modBench_eq, State.bench_set_ne _ _ hm]
      rfl
  case good =>
    have ramped : exec (.benchRampEnd n true) s = _ := exec_benchRampEnd waking ended true
    exact ⟨_, ramped, State.bench_set_same .., fun m hm => State.bench_set_ne _ _ hm, rfl⟩
  case bad =>
    have ramped : exec (.benchRampEnd n false) s = _ := exec_benchRampEnd waking ended false
    have left := raise_unmoved (0x468 + 2) 0xFF { s.setBench n { s.bench n with state := .off } with
      pwr := { s.pwr with fail := s.pwr.fail ||| BitVec.ofNat 16 (2 ^ n) } }
    refine ⟨_, ramped, ?_, congrArg Pwr.fail left.pwr, left.ram, left.dsp⟩
    refine (bench_state_of_standing (raise_standing Same.rfl) n).trans (congrArg Bench.state (?_ : _ = { s.bench n with state := .off }))
    exact State.bench_set_same ..
  case idleOff =>
    have off : exec (.benchIdleOff n) s = .next (gateOff n s) := by
      refine if_pos ?_
      simp only [ready, last, idle, empty, Bool.and_eq_true, decide_eq_true_eq, Bool.not_false, and_true, true_and]
      exact ⟨by omega, reached⟩
    have left := raise_unmoved (0x468 + 3) 0xFF (s.modBench n fun b => { b with state := .off, idleFrames := 0, offReq := false })
    refine ⟨_, off, ?_, left.ram, left.dsp⟩
    refine (bench_state_of_standing (raise_standing Same.rfl) n).trans (congrArg Bench.state (?_ : _ = { s.bench n with state := .off, idleFrames := 0, offReq := false }))
    rw [State.modBench_eq, State.bench_set_same]
  case off =>
    obtain ⟨bus, noted⟩ := wrote_eq 0x60090004 s
    have off : exec (.pwrOffWrite mask) s = .next (pwrOff mask { s with bus := bus }) := (if_pos power : execPwrOffWrite mask s = _).trans (by rw [noted])
    have left := pwrOff_apartBenches mask { s with bus := bus }
    refine ⟨_, off, ?_, fun m => bench_forN_mod (mask.getLsbD ·) _ s.nBench { s with bus := bus } m⟩
    exact congrArg (fun t : State => { t with benches := s.benches, bus := s.bus }) left
  case request =>
    have good : ∀ n ∈ List.range 16, mask.getLsbD n = true →
        n < s.nBench ∧ (s.bench n).state = .off ∧ s.pwr.fail.getLsbD n = false ∧ n ∉ s.pwr.fifo ∧ n ∉ s.pwr.newReq := fun n _ h => ok n h
    refine ⟨(if_pos power : execPwrWakeWrite mask s = _).trans (congrArg _ ((wakeReqs_first List.nodup_range good).trans ?_)), fun rising => ?_, fun n => ?_⟩
    · by_cases none : mask = 0
      · subst none
        rw [if_neg (by simp), if_pos rfl]
        simp
      · rw [if_pos (exists_named_of_ne_zero none), if_neg none]
        rfl
    · exact enterAll_pairwise List.nodup_range (fun n hn h => (good n hn h).2.2.2.2) rising
    · exact (mem_enterAll mask _ _ n).trans (by rw [List.mem_range])

end Sys2Proof.Proofs

/-! PROOFS. Doorbells and the life of a queue pair (R70-R73, R80, R87, R91). -/

namespace Sys2Proof.Machine
open Sys2Proof

/-! ### Completions and the queue error leave the doorbells alone -/

/-- What a queue error leaves of the queue `q` of lease `k`, and of the state. -/
def State.rung (k q : Nat) (s : State) :=
  ((s.queue k q).db, (s.queue k q).sqHead, (s.queue k q).dbErr, s.ram, s.dsp, s.cmds, s.nextCmd)

section
variable {k q : Nat} {s t : State}

theorem setQueue_rung {x : Queue} (h : Same (State.rung k q) s t)
    (e : (x.db, x.sqHead, x.dbErr) = ((t.queue k q).db, (t.queue k q).sqHead, (t.queue k q).dbErr)) : Same (State.rung k q) s (t.setQueue k q x) := by
  simp only [Prod.mk.injEq] at e
  obtain ⟨db, head, err⟩ := e
  refine h.same ?_
  simp only [State.rung, State.queue_set_same, db, head, err]
  rfl

theorem announce_rung (h : Same (State.rung k q) s t) : Same (State.rung k q) s (announce k q t) := by
  unfold announce
  exact setQueue_rung (h.same (by unfold sendMsix; split <;> rfl)) rfl

theorem putCompletion_rung {f : Nat → Bytes} (h : Same (State.rung k q) s t) : Same (State.rung k q) s (putCompletion k q f t) := by
  unfold putCompletion
  extract_lets x pos phase u v
  have sent : Same (State.rung k q) t u := by
    unfold u hostWrite
    exact Same.ite Same.rfl (Same.same Same.rfl (by rfl))
  have same : u.queue k q = x := by
    unfold u hostWrite
    split <;> rfl
  have put : Same (State.rung k q) s v := setQueue_rung (h.trans sent) (by rw [same])
  exact Same.ite (announce_rung put) put

theorem settleError_rung (h : Same (State.rung k q) s t) : Same (State.rung k q) s (settleError k q t) := by
  unfold settleError
  extract_lets x due live opened u
  refine Same.ite h ?_
  have closed : Same (State.rung k q) s u := Same.forEach (fun _ _ => putCompletion_rung) h
  split
  exact setQueue_rung (putCompletion_rung closed) rfl

theorem queueError_rung (h : Same (State.rung k q) s t) : Same (State.rung k q) s (queueError k t) := by
  have left : Unmoved t (queueError k t) := raise_unmoved _ _ _
  refine h.same ?_
  have queue : (queueError k t).queue k q = t.queue k q := congrArg (tget ({} : Queue) · (8 * k + q)) left.queues
  simp only [State.rung, queue, left.ram, left.dsp, left.cmds, left.nextCmd]

end

/-! ### Doorbells -/

section
variable {k q : Nat} {v : BitVec 32} {s : State}

theorem exec_doorbellWrite (opened : s.vfOpen k = true) (hq : q < 8) : exec (.doorbellWrite k q v) s = .next (writeDoorbell k q v s) :=
  if_pos (by simp [opened, hq])

theorem exec_cqDoorbellWrite (opened : s.vfOpen k = true) (hq : q < 8) : exec (.cqDoorbellWrite k q v) s = .next (writeCqDoorbell k q v s) :=
  if_pos (by simp [opened, hq])

variable (live : (s.queue k q).state ≠ .disabled) (live' : (s.queue k q).state ≠ .resetting)
include live live'

/-- A doorbell of a queue that lives is within its depth of both counts, or is refused. -/
theorem writeDoorbell_eq :
    writeDoorbell k q v s =
      if (v - (s.queue k q).db).toNat ≤ (s.queue k q).depth ∧ (v - (s.queue k q).sqHead).toNat ≤ (s.queue k q).depth then
        if v = (s.queue k q).db then s
        else s.setQueue k q { s.queue k q with db := v, cut := false, dbs := (s.queue k q).dbs ++ [(v, s.pw.now)] }
      else settleError k q (queueError k (s.setQueue k q { s.queue k q with dbErr := true })) := by
  unfold writeDoorbell
  simp only [live, live', decide_false, Bool.or_self, Bool.false_eq_true, if_false, Bool.and_eq_true, decide_eq_true_eq]
  rfl

theorem writeCqDoorbell_eq :
    writeCqDoorbell k q v s =
      if (v - (s.queue k q).cqDb).toNat ≤ ((s.queue k q).cqTail - (s.queue k q).cqDb).toNat then
        s.setQueue k q { s.queue k q with cqDb := v }
      else raiseHost k k s := by
  unfold writeCqDoorbell
  simp only [live, live', decide_false, Bool.or_self, Bool.false_eq_true, if_false]
  rfl

end

/-! ### Enabling a queue -/

/-- The checks of R72 for an enabled VF of a lease that is not quarantined. -/
theorem enableCheck_of_open {k : Nat} {x : Queue} {s : State} (enabled : k < s.link.numVfs) (free : (s.lease k).quarantined = false) :
    enableCheck k x s =
      if ¬(6 ≤ x.cfg.toNat % 32 ∧ x.cfg.toNat % 32 ≤ 16) then 0x02
      else if x.sqBase.toNat % 4096 ≠ 0 ∨ x.cqBase.toNat % 4096 ≠ 0 then 0x03
      else if s.nBench ≤ x.home then 0x04
      else if x.cfg.toNat / 256 % 8 = 0 then 0x05
      else 0 := by
  unfold enableCheck
  have depth : (x.cfg.toNat % 32 < 6 ∨ 16 < x.cfg.toNat % 32) ↔ ¬(6 ≤ x.cfg.toNat % 32 ∧ x.cfg.toNat % 32 ≤ 16) := by omega
  simp only [free, decide_eq_false (Nat.not_le.2 enabled), Bool.or_false, Bool.false_eq_true, if_false, Bool.or_eq_true, decide_eq_true_eq, depth]

section
variable {k q : Nat} {s : State} (opened : s.vfOpen k = true) (hq : q < 8) (off : (s.queue k q).state = .disabled)
include opened hq off

theorem exec_queueEnable :
    exec (.queueEnable k q) s = .next (
      if enableCheck k (s.queue k q) s ≠ 0 then s.setQueue k q { s.queue k q with cerr := enableCheck k (s.queue k q) s }
      else s.setQueue k q { sqBase := (s.queue k q).sqBase, cqBase := (s.queue k q).cqBase, cqRing := (s.queue k q).cqBase,
                            cfg := (s.queue k q).cfg, state := s.liveState k (s.queue k q).home, major := chosenMajor (s.queue k q) }) := by
  refine (if_pos (by simp [opened, hq]) : execQueueEnable k q s = _).trans (congrArg _ ?_)
  unfold enableQueue
  simp only [off, ne_eq, not_true_eq_false, if_false]

theorem exec_queueEnable_of_failed {e : Nat} (h : enableCheck k (s.queue k q) s = e) (he : e ≠ 0) :
    exec (.queueEnable k q) s = .next (s.setQueue k q { s.queue k q with cerr := e }) := by
  rw [exec_queueEnable opened hq off, h, if_pos he]

end

/-! ### Resetting a queue -/

/-- The commands that a reset keeps: those of other queues, and the executing ones of this, which write nothing any more. -/
def State.cmdsOfReset (s : State) (k q : Nat) : Tbl Cmd :=
  (s.cmds.filter fun e => e.2.lease ≠ k || e.2.queue ≠ q || e.2.executing).map fun e =>
    if e.2.lease = k && e.2.queue = q then (e.1, { e.2 with mute := true }) else e

theorem muted_of_mem_cmdsOfReset {k q : Nat} {s : State} {e : Nat × Cmd} (h : e ∈ s.cmdsOfReset k q) (lease : e.2.lease = k) (queue : e.2.queue = q) :
    e.2.mute = true ∧ 0 < e.2.owned + bit e.2.delivered := by
  obtain ⟨d, kept, rfl⟩ := List.mem_map.1 h
  by_cases own : (decide (d.2.lease = k) && decide (d.2.queue = q)) = true
  · have executing : d.2.executing = true := by
      have passed := (List.mem_filter.1 kept).2
      simp only [Bool.and_eq_true, decide_eq_true_eq] at own
      simpa [own.1, own.2] using passed
    simp only [if_pos own]
    refine ⟨trivial, ?_⟩
    unfold Cmd.executing at executing
    simp only [Bool.and_eq_true, Bool.or_eq_true, decide_eq_true_eq] at executing
    rcases executing.2 with begun | called
    · exact Nat.add_pos_left begun _
    · exact Nat.add_pos_right _ (by rw [show Cmd.delivered _ = true from called]; decide)
  · rw [if_neg own] at lease queue
    simp [lease, queue] at own

end Sys2Proof.Machine

namespace Sys2Proof.Proofs
open Sys2Proof Sys2Proof.Machine

/-- Settles O19: doorbells by their tests, ENABLE by its check, a reset by what it keeps. -/
theorem haulQueues : Obligations.HaulQueues := by
  refine ⟨fun k q v s opened hq => ?doorbells, fun k q v s hq => ?life⟩
  case doorbells =>
    intro x live live'
    have rings : exec (.doorbellWrite k q v) s = _ := (exec_doorbellWrite opened hq).trans (congrArg _ (writeDoorbell_eq live live'))
    have rings' : exec (.cqDoorbellWrite k q v) s = _ := (exec_cqDoorbellWrite opened hq).trans (congrArg _ (writeCqDoorbell_eq live live'))
    refine ⟨fun ne db head => ?taken, fun same head => ?again, fun past => ?refused, fun forward => ?cqTaken, fun past => ?cqRefused⟩
    case taken => rw [rings, if_pos ⟨db, head⟩, if_neg ne]
    case again =>
      have zero : (v - x.db).toNat ≤ x.depth := by rw [same, BitVec.sub_self]; exact Nat.zero_le _
      rw [rings, if_pos ⟨zero, head⟩, if_pos same]
    case refused =>
      rw [rings, if_neg (by rw [not_and_or, Nat.not_le, Nat.not_le]; exact past)]
      have left := settleError_rung (queueError_rung (Same.rfl (p := State.rung k q) (s := s.setQueue k q { x with dbErr := true })))
      simp only [Same, State.rung, State.queue_set_same, Prod.mk.injEq] at left
      obtain ⟨db, head, err, ram, dsp, -, -⟩ := left
      exact ⟨_, rfl, db, head, err, ram, dsp⟩
    case cqTaken => rw [rings', if_pos forward]
    case cqRefused => rw [rings', if_neg (Nat.not_le.2 past)]
  case life =>
    intro x
    refine ⟨fun opened off => ⟨?cfg, fun enabled free => ?enable, fun quarantined => ?quarantined⟩, fun opened on => ?reset, fun resetting ended => ?done⟩
    case cfg =>
      refine (if_pos (by simp [opened, hq]) : execHqQcfgWrite k q v s = _).trans (congrArg _ (if_neg ?_))
      exact not_not.2 off
    case enable =>
      intro d offer good
      have check : enableCheck k x s = _ := enableCheck_of_open enabled free
      have failed := fun {e : Nat} => exec_queueEnable_of_failed (e := e) opened hq off
      refine ⟨fun depth sq cq home offered => ?_, fun shallow => ?_, fun depth bases => ?_, fun depth sq cq home => ?_, fun depth sq cq home none => ?_⟩
      · have passed : enableCheck k x s = 0 := by
          rw [check, if_neg (not_not.2 depth), if_neg (by simp [sq, cq]), if_neg (Nat.not_le.2 home), if_neg offered]
        rw [exec_queueEnable opened hq off, if_neg (not_not.2 passed)]
        rfl
      · exact failed (check.trans (if_pos shallow)) (by decide)
      · exact failed (check.trans ((if_neg (not_not.2 depth)).trans (if_pos bases))) (by decide)
      · exact failed (by rw [check, if_neg (not_not.2 depth), if_neg (by simp [sq, cq]), if_pos home]) (by decide)
      · exact failed (by rw [check, if_neg (not_not.2 depth), if_neg (by simp [sq, cq]), if_neg (Nat.not_le.2 home), if_pos none]) (by decide)
    case quarantined =>
      refine exec_queueEnable_of_failed opened hq off (if_pos ?_) (by decide)
      rw [quarantined, Bool.or_true]
    case reset =>
      have resets : exec (.queueReset k q) s = .next (resetQueue k q s) := if_pos (by simp [opened, hq])
      exact ⟨_, resets.trans (congrArg _ (if_neg on)), congrArg Queue.state (State.queue_set_same ..), rfl, fun e he => muted_of_mem_cmdsOfReset he⟩
    case done =>
      have ready : ¬(decide (x.state ≠ .resetting) ||
          (s.queueCmds k q).any fun h => match s.cmd h with | some c => c.result.isNone | none => false) = true := by
        simp only [resetting, ne_eq, not_true_eq_false, decide_false, Bool.false_or, List.any_eq_true, not_exists, not_and]
        intro h hh running
        cases found : s.cmd h with
        | none => simp [found] at running
        | some c => exact ended h c hh found (by simpa [found] using running)
      refine ⟨_, (if_neg ready : execQueueResetDone k q s = _), State.queue_set_same .., fun e he => ?_, rfl⟩
      simpa using (List.mem_filter.1 he).2

end Sys2Proof.Proofs

/-! PROOFS. Fetching an entry and staging its command (R74-R85, R99). -/

namespace Sys2Proof.Machine
open Sys2Proof

/-! ### Fields of a byte list of a fixed length -/

theorem getElem?_fixLen (n : Nat) (b : Bytes) (i : Nat) : (fixLen n b)[i]? = if i < n then some (b[i]?.getD 0) else none := by
  unfold fixLen
  rw [List.getElem?_take]
  split
  next inside =>
    rw [List.getElem?_append]
    split
    next listed => simp [listed]
    next unlisted => rw [List.getElem?_replicate, if_pos (by omega), List.getElem?_eq_none (by omega)]; rfl
  · rfl

theorem slice_fixLen {n o m : Nat} (inside : o + m ≤ n) (b : Bytes) : slice (fixLen n b) o m = slice b o m := by
  refine List.ext_getElem? fun i => ?_
  unfold slice
  rw [getElem?_fixLen, getElem?_fixLen]
  split
  · rw [List.getElem?_drop, List.getElem?_drop, getElem?_fixLen, if_pos (by omega)]
    rfl
  · rfl
/-! ### A fetch that stops the queue -/

theorem settleError_state {k q : Nat} {s : State} (h : (s.queue k q).state = .error) : ((settleError k q s).queue k q).state = .error := by
  unfold settleError
  extract_lets x due live opened u
  split
  · exact h
  split
  rw [State.modQueue_eq, State.queue_set_same]

theorem stopFetch_stops (k q : Nat) (tag : BitVec 32) (status : Nat) (s : State) :
    ((stopFetch k q tag status s).queue k q).state = .error ∧ (stopFetch k q tag status s).cmds = s.cmds ∧
      (stopFetch k q tag status s).nextCmd = s.nextCmd := by
  unfold stopFetch
  extract_lets t
  have raised : Unmoved t ((if status = 0x0003 then raiseHost 65 k else queueError k) t) := by
    split
    · exact raise_unmoved _ _ _
    · exact raise_unmoved _ _ _
  have queue := congrArg (tget ({} : Queue) · (8 * k + q)) raised.queues
  have stopped : (t.queue k q).state = .error := congrArg Queue.state (State.queue_set_same ..)
  have left := settleError_rung (Same.rfl (p := State.rung k q) (s := (if status = 0x0003 then raiseHost 65 k else queueError k) t))
  simp only [Same, State.rung, Prod.mk.injEq] at left
  obtain ⟨-, -, -, -, -, cmds, next⟩ := left
  exact ⟨settleError_state ((congrArg Queue.state queue).trans stopped), cmds.trans raised.cmds, next.trans raised.nextCmd⟩

/-! ### Reads leave all but what the block puts out -/

theorem hostRead_eq (k addr n : Nat) (s : State) : ∃ o, hostRead k addr n s = { s with out := o } := by
  unfold hostRead
  split
  · exact ⟨_, rfl⟩
  · exact ⟨_, rfl⟩

theorem ringReads_eq (k : Nat) (x : Queue) (off len : Nat) (s : State) : ∃ o, ringReads k x off len s = { s with out := o } := by
  unfold ringReads
  extract_lets pos n
  obtain ⟨o, h⟩ := hostRead_eq k (x.sqBase.toNat + 16 * pos) (16 * n) s
  rw [h]
  obtain ⟨o, h⟩ := hostRead_eq k x.sqBase.toNat (16 * (len - n)) { s with out := o }
  exact ⟨o, h⟩

/-- All of the state but what it puts out. -/
def State.inside (s : State) : State := { s with out := {} }

theorem inputReads_eq (c : Cmd) (addr : Nat) (f : Fetch) (s : State) : ∃ o, inputReads c addr f s = { s with out := o } := by
  have read : ∀ k a n (t u : State), Same State.inside t u → Same State.inside t (hostRead k a n u) := fun k a n t u h =>
    h.trans (by obtain ⟨o, e⟩ := hostRead_eq k a n u; rw [e]; rfl)
  have all : Same State.inside s (inputReads c addr f s) := by
    unfold inputReads
    extract_lets l t
    refine Same.ite Same.rfl (Same.ite ?_ (read _ _ _ _ _ Same.rfl))
    have listed : Same State.inside s t := read _ _ _ _ _ Same.rfl
    exact Same.ite (Same.forEach (fun _ _ => read _ _ _ _ _) listed) listed
  exact ⟨(inputReads c addr f s).out, congrArg (fun t : State => { t with out := (inputReads c addr f s).out }) all⟩

/-! ### The end of a command -/

theorem endCmd_of_running {h st need : Nat} {out : Bytes} {c : Cmd} {s : State} (hc : s.cmd h = some c) (running : c.result = none) :
    endCmd h st need out s = (releaseSlots c.resv s).setCmd h { c with
      result := some (st, need), out := if st = 0 then out else [], doneAt := s.pw.now, resv := [], a := c.a.wiped, b := c.b.map Part.wiped } := by
  unfold endCmd endCmdAt
  rw [hc]
  exact if_neg (by simp [running])

/-- What an entry gives its command, and the command keeps. -/
def Cmd.entry (c : Cmd) := (c.lease, c.queue, c.opcode, c.tag, c.yref, c.len, c.fetchedAt, c.held)

/-- A command's refusal changes its outcome alone. -/
theorem refuseNow_keeps {h : Nat} {c : Cmd} {s : State} (hc : s.cmd h = some c) (running : c.result = none) :
    ∃ d, (refuseNow h c s).cmd h = some d ∧ d.entry = c.entry ∧ (refuseNow h c s).nextCmd = s.nextCmd ∧ (refuseNow h c s).queues = s.queues := by
  unfold refuseNow
  split
  · exact ⟨c, hc, rfl, rfl, rfl⟩
  next st need refused =>
  split
  · exact ⟨c, hc, rfl, rfl, rfl⟩
  extract_lets t
  have ended : t = _ := endCmd_of_running (st := st) (need := need) (out := []) hc running
  have raised : Unmoved t (if st = 0x0003 then raiseHost 65 c.lease t else t) := (raise_unmoved _ _ _).ite Unmoved.rfl
  have cmd : (if st = 0x0003 then raiseHost 65 c.lease t else t).cmd h = t.cmd h := congrArg (tfind · h) raised.cmds
  refine ⟨_, cmd.trans ((congrArg (State.cmd · h) ended).trans (State.cmd_set_same ..)), rfl, raised.nextCmd.trans (by rw [ended]; rfl), raised.queues.trans (by rw [ended]; rfl)⟩

/-! ### A command takes its blocks -/

theorem takeBlocks_takes {h : Nat} {c : Cmd} {s : State} (hc : s.cmd h = some c) (waits : c.held = false) :
    (takeBlocks h c s).1.cmd h = some (takeBlocks h c s).2 ∧ (takeBlocks h c s).2.entry = { c with held := (takeBlocks h c s).2.held }.entry ∧
      (takeBlocks h c s).2.result = c.result ∧ (takeBlocks h c s).1.nextCmd = s.nextCmd ∧
      ((takeBlocks h c s).1.queue c.lease c.queue).sqHead =
        if (takeBlocks h c s).2.held = true then (s.queue c.lease c.queue).sqHead + BitVec.ofNat 32 c.len else (s.queue c.lease c.queue).sqHead := by
  unfold takeBlocks
  split
  · refine ⟨State.cmd_set_same .., rfl, rfl, rfl, ?_⟩
    rw [if_pos rfl]
    exact congrArg Queue.sqHead (State.queue_set_same ..)
  · refine ⟨hc, rfl, rfl, rfl, ?_⟩
    rw [if_neg (by rw [waits]; decide)]

theorem takeBlocks_of_held {h : Nat} {c : Cmd} (holds : c.held = true) (s : State) : takeBlocks h c s = (s, c) := if_neg (by simp [holds])

/-! ### The entry of a command -/

theorem enterCmd_fst (c : Cmd) (s : State) : (enterCmd c s).1 = s.nextCmd := rfl

theorem enterCmd_snd (c : Cmd) (s : State) :
    (enterCmd c s).2.cmd s.nextCmd = some c ∧ (enterCmd c s).2.nextCmd = s.nextCmd + 1 ∧
      ((enterCmd c s).2.queue c.lease c.queue).sqHead = (s.queue c.lease c.queue).sqHead := by
  refine ⟨State.cmd_set_same .., rfl, ?_⟩
  exact Eq.trans (congrArg Queue.sqHead (State.queue_set_same s c.lease c.queue _)) rfl

end Sys2Proof.Machine

namespace Sys2Proof.Machine
open Sys2Proof

/-! ### What a fetched entry becomes -/

/-- The bytes that a fetch reads as its entry. -/
def entryBytes (f : Fetch) : Bytes := fixLen (16 * max 1 (fieldLE f.entry 2 1)) f.entry

section
variable {k q : Nat} {f : Fetch} {s : State}

theorem fetchEntry_of_bad (bad : f.entryDma ≠ .ok ∨ headerBad (s.queue k q) (entryBytes f) = true) :
    ((fetchEntry k q f s).queue k q).state = .error ∧ (fetchEntry k q f s).cmds = s.cmds ∧ (fetchEntry k q f s).nextCmd = s.nextCmd := by
  choose o read using ringReads_eq
  unfold fetchEntry
  simp only [read]
  split
  · exact stopFetch_stops ..
  next good =>
  refine (if_pos (bad.resolve_left good)) ▸ ?_
  exact stopFetch_stops ..

section
variable (dma : f.entryDma = .ok) (header : headerBad (s.queue k q) (entryBytes f) = false)
  (whole : fieldLE f.entry 2 1 ≤ diff (s.queue k q).db (s.queue k q).sqHead) (body : bodyBad (s.queue k q) (entryBytes f) = false)
include dma header whole body

/-- A good entry that one of the first checks refuses. -/
theorem fetchEntry_of_refused {st need : Nat}
    (refused : entryRefusal s (s.queue k q) k (fieldLE (entryBytes f) 0 2) (fieldLE f.entry 2 1)
      (newCmd s k q (s.queue k q) (entryBytes f) f).foot = some (st, need)) :
    ∃ t : State, t.queues = s.queues ∧ t.nextCmd = s.nextCmd ∧
      fetchEntry k q f s = endCmd s.nextCmd st need []
        (passHead k q (fieldLE f.entry 2 1) (enterCmd { newCmd s k q (s.queue k q) (entryBytes f) f with held := true } t).2) := by
  choose o read using ringReads_eq
  refine ⟨ringReads k (s.queue k q) 1 (fieldLE f.entry 2 1 - 1) (ringReads k (s.queue k q) 0 1 { s with link := { s.link with turn := 8 * k + q } }),
    by simp only [read], by simp only [read], ?_⟩
  unfold fetchEntry
  simp only [read]
  refine (if_neg (not_not.2 dma)).trans ((if_neg (Bool.eq_false_iff.1 header)).trans ((if_neg (Nat.not_lt.2 whole)).trans
    ((if_neg (Bool.eq_false_iff.1 body)).trans ?_)))
  split
  next st' need' e =>
    obtain ⟨rfl, rfl⟩ := Prod.mk.inj (Option.some.inj (e.symm.trans refused))
    rfl
  next e => exact nomatch e.symm.trans refused

/-- A good entry that no check of the fetch refuses enters with what its input says of it. -/
theorem fetchEntry_of_entered (passed : entryRefusal s (s.queue k q) k (fieldLE (entryBytes f) 0 2) (fieldLE f.entry 2 1)
      (newCmd s k q (s.queue k q) (entryBytes f) f).foot = none) :
    ∃ t : State, t.queues = s.queues ∧ t.nextCmd = s.nextCmd ∧
      ∃ c u, c = { newCmd s k q (s.queue k q) (entryBytes f) f with refuse := inputRefusal (newCmd s k q (s.queue k q) (entryBytes f) f) f } ∧
        u = (enterCmd c t).2 ∧ fetchEntry k q f s = refuseNow s.nextCmd (takeBlocks s.nextCmd c u).2 (takeBlocks s.nextCmd c u).1 := by
  choose o read using ringReads_eq
  choose o' input using inputReads_eq
  refine ⟨inputReads (newCmd s k q (s.queue k q) (entryBytes f) f) (if 2 ≤ fieldLE f.entry 2 1 then fieldLE (entryBytes f) 16 8 else 0) f
    (ringReads k (s.queue k q) 1 (fieldLE f.entry 2 1 - 1) (ringReads k (s.queue k q) 0 1 { s with link := { s.link with turn := 8 * k + q } })),
    by simp only [read, input], by simp only [read, input], _, _, rfl, rfl, ?_⟩
  unfold fetchEntry
  simp only [read, input]
  refine (if_neg (not_not.2 dma)).trans ((if_neg (Bool.eq_false_iff.1 header)).trans ((if_neg (Nat.not_lt.2 whole)).trans
    ((if_neg (Bool.eq_false_iff.1 body)).trans ?_)))
  split
  next st' need' e => exact nomatch e.symm.trans passed
  next e =>
    split
    next missing => exact nomatch missing.symm.trans (enterCmd_snd _ _).1
    next c found =>
      obtain rfl := Option.some.inj ((enterCmd_snd _ _).1.symm.trans found)
      rfl

end
end

/-! ### Staging -/

/-- A wake request of a bench that is OFF and passes leaves it in the FIFO. -/
theorem wakeReq_waits {n : Nat} {s : State} (present : n < s.nBench) (off : (s.bench n).state = .off) (good : s.pwr.fail.getLsbD n = false) :
    n ∈ (wakeReq n s).pwr.fifo := by
  unfold wakeReq
  rw [if_neg (by simp [good, off, present])]
  split
  · exact List.mem_append_right _ ((mem_insertUp n _ _).2 (Or.inl rfl))
  next known =>
    simpa [off] using known

theorem wakeReq_cmds (n : Nat) (s : State) : (wakeReq n s).cmds = s.cmds := wakeReq_same n (fun _ => rfl) (raise_unmoved _ _ _).cmds

/-- The command that staging leaves. -/
def stagedCmd (s : State) (c : Cmd) : Cmd :=
  { c with stagedAt := some s.pw.now, staging := s.pw.now - c.dbTick, wake := 0, a := { c.a with cls := s.classOf c },
           readyAt := if (s.bench (s.cmdHome c)).state = .ready || s.classOf c = .free then some s.pw.now else none }

section
variable {h : Nat} {c : Cmd} {s : State} (hc : s.cmd h = some c) (running : c.result = none) (waits : c.stagedAt = none) (power : s.mainPower = true)
  (holds : c.held = true) (good : c.refuse = none)
include hc running waits power holds good

theorem execCommandStaged_of_small {n : Nat} (here : s.linesHere c = true) (small : s.outSmall c = some n) :
    execCommandStaged h s = .next (endCmd h 0x0007 n [] s) := by
  simp [execCommandStaged, hc, running, waits, power, takeBlocks_of_held holds, holds, good, here, small]

theorem execCommandStaged_of_can (can : s.canStage h c = true) (fits : s.outSmall c = none) :
    ∃ b : Bench, b.state = (s.bench (s.cmdHome c)).state ∧
      execCommandStaged h s = .next (if (s.bench (s.cmdHome c)).state = .ready || s.classOf c = .free
        then (s.setBench (s.cmdHome c) b).setCmd h (stagedCmd s c)
        else wakeReq (s.cmdHome c) ((s.setBench (s.cmdHome c) b).setCmd h (stagedCmd s c))) := by
  refine ⟨{ s.bench (s.cmdHome c) with
    lines := (s.bench (s.cmdHome c)).lines.map fun l => if (s.cmdLines c).contains l.slot then { l with used := s.pw.now } else l }, rfl, ?_⟩
  unfold execCommandStaged
  simp only [hc]
  rw [if_neg (by simp [running, waits, power]), takeBlocks_of_held holds]
  refine (if_neg (by simp [holds])).trans ((if_neg (by simp [good])).trans ((if_neg (by simp [fits])).trans ((if_neg (by simp [can])).trans ?_)))
  exact (apply_ite Host.Outcome.next _ _ _).symm

end

end Sys2Proof.Machine

namespace Sys2Proof.Proofs
open Sys2Proof Sys2Proof.Machine

/-- Settles O20: a fetch ends in one of its three ways (`fetchEntry_of_bad`, `fetchEntry_of_refused`, `fetchEntry_of_entered`), and staging takes its
last branches for a command that holds its blocks. -/
theorem fetching : Obligations.Fetching := by
  refine ⟨fun k q f s can => ?fetch, fun h c s hc running waits power holds good => ⟨fun n lines small => ?small, fun can fits => ?staged⟩⟩
  case fetch =>
    intro x len e
    have fetches : exec (.entryFetch k q f) s = .next (fetchEntry k q f s) := if_pos can
    refine ⟨fun bad => ?_, fun dma header whole body passed => ?_, fun st need dma header whole body refused => ?_⟩
    · exact ⟨_, fetches, fetchEntry_of_bad bad⟩
    · obtain ⟨t, queues, next, c, u, hc, hu, made⟩ := fetchEntry_of_entered dma header whole body passed
      obtain ⟨found, next', head⟩ := enterCmd_snd c t
      rw [← hu, next] at found next'
      have waits : c.held = false := by rw [hc]; rfl
      obtain ⟨cmd, entry, result, next'', head'⟩ := takeBlocks_takes found waits
      obtain ⟨d, cmd', entry', next''', queues'⟩ := refuseNow_keeps cmd (result.trans (by rw [hc]; rfl))
      have lease : c.lease = k := by rw [hc]; rfl
      have queue : c.queue = q := by rw [hc]; rfl
      have length : c.len = len := by
        rw [hc]
        exact congrArg leNat (slice_fixLen (by omega) _)
      have keeps := entry'.trans entry
      simp only [Cmd.entry, Prod.mk.injEq] at keeps
      obtain ⟨lease', queue', opcode, tag, yref, length', tick, blocks⟩ := keeps
      refine ⟨_, d, fetches.trans (congrArg _ made), next'''.trans (next''.trans next'), cmd', lease'.trans lease, queue'.trans queue,
        opcode.trans (by rw [hc]; rfl), tag.trans (by rw [hc]; rfl), yref.trans (by rw [hc]; rfl), length'.trans length,
        tick.trans (by rw [hc]; rfl), ?_⟩
      have before : (u.queue k q).sqHead = x.sqHead := by
        rw [lease, queue] at head
        rw [hu, head]
        exact congrArg (fun l => (tget ({} : Queue) l (8 * k + q)).sqHead) queues
      rw [lease, queue, length, before, ← blocks] at head'
      exact (congrArg (fun l => (tget ({} : Queue) l (8 * k + q)).sqHead) queues').trans head'
    · obtain ⟨t, queues, next, made⟩ := fetchEntry_of_refused dma header whole body refused
      obtain ⟨found, next', head⟩ := enterCmd_snd { newCmd s k q x e f with held := true } t
      rw [next] at found next'
      have ended := endCmd_of_running (st := st) (need := need) (out := [])
        (s := passHead k q len (enterCmd { newCmd s k q x e f with held := true } t).2) found rfl
      refine ⟨_, _, fetches.trans (congrArg _ made), (congrArg State.nextCmd ended).trans next',
        (congrArg (State.cmd · s.nextCmd) ended).trans (State.cmd_set_same ..), rfl, rfl, rfl, rfl, ?_⟩
      refine (congrArg (fun t : State => (t.queue k q).sqHead) ended).trans ((congrArg Queue.sqHead (State.queue_set_same ..)).trans ?_)
      exact congrArg (· + BitVec.ofNat 32 len) (head.trans (congrArg (fun l => (tget ({} : Queue) l (8 * k + q)).sqHead) queues))
  case small =>
    have ended := endCmd_of_running (st := 0x0007) (need := n) (out := []) hc running
    exact ⟨_, _, execCommandStaged_of_small hc running waits power holds good lines small,
      (congrArg (State.cmd · h) ended).trans (State.cmd_set_same ..), rfl, (congrArg State.pwr ended).trans rfl, (congrArg State.ram ended).trans rfl⟩
  case staged =>
    obtain ⟨b, same, staged⟩ := execCommandStaged_of_can hc running waits power holds good can fits
    have cmd : ((s.setBench (s.cmdHome c) b).setCmd h (stagedCmd s c)).cmd h = some (stagedCmd s c) := State.cmd_set_same ..
    refine ⟨_, stagedCmd s c, staged, ?_, rfl, rfl, rfl, rfl, running, rfl, fun ready => ⟨?_, ?_⟩, fun off free present passes => ⟨?_, ?_⟩⟩
    · split
      · exact cmd
      · exact (congrArg (tfind · h) (wakeReq_cmds _ _)).trans cmd
    · exact if_pos (by simp [ready])
    · rw [if_pos (by simp [ready])]
      rfl
    · exact if_neg (by simp [off, free])
    · rw [if_neg (by simp [off, free])]
      exact wakeReq_waits present (by rw [State.bench_setCmd, State.bench_set_same, same, off]) passes

end Sys2Proof.Proofs

/-! PROOFS. What an event leaves as it was: all but its count and its record, and what a severity may latch, quarantine, lapse and clear. -/

namespace Sys2Proof.Machine
open Sys2Proof Sys2Proof.Claims

/-- All of the state that no event changes. -/
def State.calm (s : State) : State :=
  { s with
    flt := { s.flt with count := [], rec_ := none, queue := [], qlost := 0, pulseEnd := none, pulseFrom := 0, notify := none }
    benches := []
    leases := []
    engines := []
    jobs := []
    dig := []
    yard := { s.yard with freed := [] }
    vault := { s.vault with latch := false, cause := 0, unlockDone := false, latchSeq := 0, chalDue := false }
    cust := { s.cust with ceremony := none, bind := none, keyLoad := none, pausing := none, journal := [] }
    dic := { s.dic with gens := [] }
    gal := { s.gal with lease := 0, grant := 0, cert := [] } }

section
variable {s t : State}

theorem recordEvent_calm {e sev k : Nat} {inj : Bool} (h : Same State.calm s t) : Same State.calm s (recordEvent e sev k inj t) := by
  unfold recordEvent
  extract_lets g
  split <;> exact h

theorem queueEvent_calm {x : EvEntry} (h : Same State.calm s t) : Same State.calm s (queueEvent x t) := .ite h h

theorem eraseWedge_calm {q st : Nat} {p : Nat → Bool} (h : Same State.calm s t) : Same State.calm s (eraseWedge q st p t) := h

theorem pendBench_calm {n cause : Nat} (h : Same State.calm s t) : Same State.calm s (pendBench n cause t) := by
  unfold pendBench
  extract_lets b
  split
  · exact h
  split
  · exact h
  · exact .ite h h

theorem pendLease_calm {k : Nat} (h : Same State.calm s t) : Same State.calm s (pendLease k t) :=
  .ite h (.forN (fun _ _ h => .ite (eraseWedge_calm h) h) h)

theorem closeCeremony_calm {reason : Nat} (h : Same State.calm s t) : Same State.calm s (closeCeremony reason t) := by
  unfold closeCeremony
  split <;> exact h

theorem latchOnly_calm {cause : Nat} (h : Same State.calm s t) : Same State.calm s (latchOnly cause t) := by
  unfold latchOnly
  split <;> exact h

theorem lapseGallery_calm (h : Same State.calm s t) : Same State.calm s (lapseGallery t) := by
  unfold lapseGallery
  extract_lets u
  split <;> exact h

theorem endGrants_calm (h : Same State.calm s t) : Same State.calm s { t with leases := t.leases.map fun e => (e.1, e.2.endGrant) } := h

theorem setLatch_calm {cause : Nat} (h : Same State.calm s t) : Same State.calm s (setLatch cause t) := by
  unfold setLatch
  exact lapseGallery_calm (closeCeremony_calm (.forN (fun _ _ h => .ite (eraseWedge_calm h) h) (endGrants_calm (latchOnly_calm h))))

theorem raise0_calm {e k : Nat} {inj : Bool} (h : Same State.calm s t) : Same State.calm s (raise0 e k inj t) := by
  unfold raise0
  refine .ite h ?_
  extract_lets sev pin f t1 t2 t3 f' t4 t5 t6
  have h2 : Same State.calm s t2 := .ite (recordEvent_calm h) h
  have h3 : Same State.calm s t3 := queueEvent_calm h2
  have h4 : Same State.calm s t4 := .ite h3 h3
  have h5 : Same State.calm s t5 := .ite (pendBench_calm h4) h4
  have h6 : Same State.calm s t6 := .ite (pendLease_calm h5) h5
  exact .ite (setLatch_calm h6) h6

end

section
variable {s t : State} (h : Same State.calm s t)
include h

theorem calm_ident : t.ident = s.ident := (congrArg State.ident (show t.calm = s.calm from h) :)
theorem calm_pw : t.pw = s.pw := (congrArg State.pw (show t.calm = s.calm from h) :)
theorem calm_dsp : t.dsp = s.dsp := (congrArg State.dsp (show t.calm = s.calm from h) :)
theorem calm_cores : t.cores = s.cores := (congrArg State.cores (show t.calm = s.calm from h) :)
theorem calm_pwr : t.pwr = s.pwr := (congrArg State.pwr (show t.calm = s.calm from h) :)
theorem calm_queues : t.queues = s.queues := (congrArg State.queues (show t.calm = s.calm from h) :)
theorem calm_cmds : t.cmds = s.cmds := (congrArg State.cmds (show t.calm = s.calm from h) :)
theorem calm_nextCmd : t.nextCmd = s.nextCmd := (congrArg State.nextCmd (show t.calm = s.calm from h) :)
theorem calm_held : t.held = s.held := (congrArg State.held (show t.calm = s.calm from h) :)
theorem calm_rng : t.rng = s.rng := (congrArg State.rng (show t.calm = s.calm from h) :)
theorem calm_flg : t.flg = s.flg := (congrArg State.flg (show t.calm = s.calm from h) :)
theorem calm_ldg : t.ldg = s.ldg := (congrArg State.ldg (show t.calm = s.calm from h) :)
theorem calm_pfl : t.pfl = s.pfl := (congrArg State.pfl (show t.calm = s.calm from h) :)
theorem calm_crd : t.crd = s.crd := (congrArg State.crd (show t.calm = s.calm from h) :)
theorem calm_ctl : t.ctl = s.ctl := (congrArg State.ctl (show t.calm = s.calm from h) :)
theorem calm_tag : t.tag = s.tag := (congrArg State.tag (show t.calm = s.calm from h) :)
theorem calm_spdm : t.spdm = s.spdm := (congrArg State.spdm (show t.calm = s.calm from h) :)
theorem calm_lcs : t.lcs = s.lcs := (congrArg State.lcs (show t.calm = s.calm from h) :)
theorem calm_bus : t.bus = s.bus := (congrArg State.bus (show t.calm = s.calm from h) :)
theorem calm_link : t.link = s.link := (congrArg State.link (show t.calm = s.calm from h) :)
theorem calm_out : t.out = s.out := (congrArg State.out (show t.calm = s.calm from h) :)
theorem calm_ram : t.ram = s.ram := (congrArg State.ram (show t.calm = s.calm from h) :)
theorem calm_pending : t.pending = s.pending := (congrArg State.pending (show t.calm = s.calm from h) :)

end

/-- All of the state that no event changes, and the count of one event. -/
def State.still (e : Nat) (s : State) : State × BitVec 16 := (s.calm, tget 0 s.flt.count e)

theorem still_eq {e : Nat} {s t : State} : Same (State.still e) s t ↔ t.calm = s.calm ∧ tget 0 t.flt.count e = tget 0 s.flt.count e :=
  Prod.mk.injEq .. ▸ Iff.rfl

/-- An event raises no count but its own. -/
theorem raise0_still {e i k : Nat} {inj : Bool} {s t : State} (apart : i ≠ e) (h : Same (State.still e) s t) :
    Same (State.still e) s (raise0 i k inj t) := by
  refine h.trans (still_eq.2 ⟨raise0_calm .rfl, ?_⟩)
  rw [raise0_count]
  split
  · exact tget_tset_ne _ _ _ apart.symm
  · rfl

/-- Events that the clearing of digest contexts does not raise. -/
def FarEvent (e : Nat) : Prop := 0x31C ≤ e ∧ e ≠ 0x339

section
variable {β : Type} {p : State → β} {s t : State} (event : ∀ i k t, ¬ FarEvent i → Same p s t → Same p s (raise0 i k false t))
  (jobs : ∀ t x y, p { t with jobs := x, yard := { t.yard with freed := y } } = p t) (dig : ∀ t x, p { t with dig := x } = p t)

include jobs dig in
theorem clearCtx_same {x : Nat} {c : DigCtx} (h : Same p s t) : Same p s (clearCtx x c t) :=
  Same.foldl (fun u _ h => .ite (h.same (jobs u _ _)) h) _ (h.same (dig t _))

include event jobs dig

theorem compatOne_same {x : Nat} (h : Same p s t) : Same p s (compatOne x t) := by
  refine .ite h (event _ _ _ ?_ (clearCtx_same jobs dig h))
  unfold FarEvent localEvent
  split
  · omega
  · simp only [show ¬ 35 < 8 from by decide, if_false]
    split <;> omega

theorem lockdownClears_same {held : Bool} (h : Same p s t) : Same p s (lockdownClears held t) := by
  have raised : Same p s (if held then raise0 0x339 0xFF false t else t) := .ite (event _ _ _ (fun far => far.2 rfl) h) h
  exact .foldl (fun _ _ => compatOne_same event jobs dig) _ (.foldl (fun _ _ => clearCtx_same jobs dig) _ raised)

theorem compatAll_same {l : List Nat} (h : Same p s t) : Same p s (compatAll l t) := by
  have all : Same p s (l.foldl (fun t x => compatOne x t) t) := .foldl (fun _ _ => compatOne_same event jobs dig) l h
  exact .ite (lockdownClears_same event jobs dig all) all

theorem compatClear_same {x : Nat} (h : Same p s t) : Same p s (compatClear x t) := by
  have one : Same p s (compatAll [x] t) := compatAll_same event jobs dig h
  exact .ite h (.ite (compatAll_same event jobs dig one) one)

theorem clearContexts_same {q : Nat → Bool} (h : Same p s t) : Same p s (clearContexts q t) :=
  .foldl (fun _ _ => compatClear_same event jobs dig) _ (.foldl (fun _ _ => clearCtx_same jobs dig) _ h)

/-- What an event clears beside it. -/
theorem raiseInj_same {i k : Nat} {inj : Bool} (h : Same p s (raise0 i k inj t)) : Same p s (raiseInj i k inj t) := by
  have contexts : Same p s (if t.srcPresent i && t.pw.stage ≠ .off && 1 ≤ t.sevOf i && k < 64
      then (ctxsWhere (raise0 i k inj t) fun x c => c.compat && (raise0 i k inj t).ctxOwner x = k).foldl (fun t x => compatClear x t) (raise0 i k inj t)
      else raise0 i k inj t) := .ite (.foldl (fun _ _ => compatClear_same event jobs dig) _ h) h
  exact .ite (lockdownClears_same event jobs dig contexts) contexts

end

theorem raise0_still_of_far {e : Nat} (far : FarEvent e) {s : State} (i k : Nat) (t : State) (near : ¬ FarEvent i) (h : Same (State.still e) s t) :
    Same (State.still e) s (raise0 i k false t) := raise0_still (fun same => near (same ▸ far)) h

/-- What an event clears beside it raises none of the far events. -/
theorem raiseInj_after {e : Nat} (far : FarEvent e) (i k : Nat) (inj : Bool) (s : State) :
    Same (State.still e) (raise0 i k inj s) (raiseInj i k inj s) :=
  raiseInj_same (raise0_still_of_far far) (fun _ _ _ => rfl) (fun _ _ => rfl) .rfl

theorem farEvent_decode : FarEvent 0x330 := ⟨by decide, by decide⟩

/-- What an event leaves, whatever its number, lease and severity. -/
theorem raise_calm {e k : Nat} {s t : State} (h : Same State.calm s t) : Same State.calm s (raise e k t) :=
  (h.trans (raise0_calm .rfl)).trans (still_eq.1 (raiseInj_after farEvent_decode e k false t)).1

theorem clearContexts_calm {p : Nat → Bool} {s t : State} (h : Same State.calm s t) : Same State.calm s (clearContexts p t) :=
  h.trans (still_eq.1 (clearContexts_same (raise0_still_of_far farEvent_decode) (fun _ _ _ => rfl) (fun _ _ => rfl) .rfl)).1

/-- An event of a source that is there is counted once. -/
theorem raise_counted {e : Nat} (far : FarEvent e) {k : Nat} {s : State} (here : s.srcPresent e = true) (on : s.pw.stage ≠ .off) :
    Counted e s (raise e k s) := by
  refine (still_eq.1 (raiseInj_after far e k false s)).2.trans ?_
  rw [raise0_count, if_pos ⟨here, on⟩]
  exact tget_tset_same ..

end Sys2Proof.Machine

/-! PROOFS. A core's refused access while the block has no power. -/

namespace Sys2Proof.Proofs
open Sys2Proof Sys2Proof.Machine Sys2Proof.Claims

/-- A state whose block has no power, and whose core 0 belongs to lease 0 on a bench that is READY. -/
def darkCore : State :=
  { ({} : State) with
    pw := { ({} : State).pw with stage := .off }
    dsp := { ({} : State).dsp with core := [(0, 0)] }
    benches := [(0, { ({} : Bench) with state := .ready })] }

theorem darkCore_refuses : exec (.decodeAccess (.core 0) 0 true) darkCore = .next (refuseDecode darkCore) := rfl

theorem refuseDecode_darkCore : (refuseDecode darkCore).flt.count = [] := rfl

/-- Refutes O54: an event is counted with power alone, and a core on a READY bench is up whatever the block's power. In `darkCore` its access that does
not decode is answered DECODE, but event 48 is not counted. -/
theorem not_registerAccess : ¬ Obligations.RegisterAccess := by
  intro h
  obtain ⟨-, -, -, -, stray, -⟩ := h (.core 0) 0 0 0 0 0 true [] {} darkCore
  obtain ⟨t, answered, -, counted, -⟩ := stray (fun _ e => by cases e) (by decide) (by decide)
  obtain rfl := Host.Outcome.next.inj (darkCore_refuses.symm.trans answered)
  rw [Counted, refuseDecode_darkCore] at counted
  exact absurd counted (by decide)

end Sys2Proof.Proofs

/-! PROOFS. The event network: notification, acknowledgement and the event queue (R418-R432). -/

namespace Sys2Proof.Machine
open Sys2Proof

/-! ### An open record keeps the notification as it stands -/

/-- Whether a record is open, and the notification that waits. -/
def State.noted (s : State) : Bool × Option Nat := (s.flt.rec_.isSome, s.flt.notify)

section
variable {s t : State}

theorem recordEvent_noted {e sev k : Nat} {inj : Bool} (opened : t.flt.rec_ ≠ none) (h : Same State.noted s t) :
    Same State.noted s (recordEvent e sev k inj t) := by
  unfold recordEvent
  extract_lets g
  split
  next none => exact absurd none opened
  next r some => exact h.same (Prod.ext (by simp [State.noted, some]) rfl)

theorem queueEvent_noted {x : EvEntry} (h : Same State.noted s t) : Same State.noted s (queueEvent x t) := by
  unfold queueEvent
  split
  · exact h
  · exact h.same (by simp [State.noted])

theorem of_flt {u : State} (h : Same State.noted s t) (e : u.flt = t.flt) : Same State.noted s u := h.same (by simp [State.noted, e])

theorem raise0_noted {e k : Nat} {inj : Bool} (opened : t.flt.rec_ ≠ none) (h : Same State.noted s t) : Same State.noted s (raise0 e k inj t) := by
  unfold raise0
  refine .ite h ?_
  extract_lets sev pin f t1 t2 t3 f' t4 t5 t6
  have h2 : Same State.noted s t2 := .ite (recordEvent_noted opened h) h
  have h3 : Same State.noted s t3 := queueEvent_noted h2
  have h4 : Same State.noted s t4 := .ite h3 h3
  have h5 : Same State.noted s t5 := .ite (of_flt h4 (pendBench_flt ..)) h4
  have h6 : Same State.noted s t6 := .ite (of_flt h5 (pendLease_flt ..)) h5
  exact .ite (of_flt h6 (setLatch_flt ..)) h6

end

theorem opened_of_noted {s t : State} (opened : s.flt.rec_ ≠ none) (h : Same State.noted s t) : t.flt.rec_ ≠ none := by
  have same : t.flt.rec_.isSome = s.flt.rec_.isSome := congrArg Prod.fst (show t.noted = s.noted from h)
  rwa [← Option.isSome_iff_ne_none, same, Option.isSome_iff_ne_none]

theorem raise_noted {s t : State} {e k : Nat} (opened : s.flt.rec_ ≠ none) (h : Same State.noted s t) : Same State.noted s (raise e k t) :=
  raiseInj_same (fun _ _ _ _ h => raise0_noted (opened_of_noted opened h) h) (fun _ _ _ => rfl) (fun _ _ => rfl)
    (raise0_noted (opened_of_noted opened h) h)

/-! ### What a commit of the tag leaves -/

section
variable {β : Type} {p : State → β} {s t : State} (event : ∀ i k t, Same p s t → Same p s (raise i k t)) (tag : ∀ t x, p { t with tag := x } = p t)
include event tag

theorem startCommit_same {area why : Nat} {data : Bytes} (h : Same p s t) : Same p s (startCommit area data why t) :=
  .ite h (.ite (.ite (event _ _ _ (h.same (tag t _))) (h.same (tag t _))) (h.same (tag t _)))

theorem tryPending_same (h : Same p s t) : Same p s (tryPending t) := by
  unfold tryPending
  refine .ite h ?_
  split
  next d _ =>
    have started : Same p s (startCommit 4 d 1 t) := startCommit_same event tag h
    exact .ite (started.same (tag _ _)) (event _ _ _ started)
  next =>
    split
    next d _ =>
      have started : Same p s (startCommit 3 d 2 t) := startCommit_same event tag h
      exact .ite (started.same (tag _ _)) (event _ _ _ started)
    next => exact h

theorem buildService_same (h : Same p s t) : Same p s (buildService t) :=
  .ite (tryPending_same event tag (h.same (tag t _))) h

end

def State.untagged (s : State) : State := { s with tag := {} }

/-- All of the state that neither an event nor a commit of the tag changes. -/
def State.calmUntagged (s : State) : State := s.calm.untagged

theorem calmUntagged_of_calm {s t : State} (h : Same State.calm s t) : Same State.calmUntagged s t :=
  congrArg State.untagged (show t.calm = s.calm from h)

theorem buildService_calm (s : State) : Same State.calmUntagged s (buildService s) :=
  buildService_same (fun _ _ _ h => h.trans (calmUntagged_of_calm (raise_calm .rfl))) (fun _ _ => rfl) .rfl

theorem buildService_noted {s t : State} (opened : s.flt.rec_ ≠ none) (h : Same State.noted s t) : Same State.noted s (buildService t) :=
  buildService_same (fun _ _ _ => raise_noted opened) (fun _ _ => rfl) h

/-- What the notification of an open record finds beside the tag. -/
theorem buildService_leaves {s : State} (opened : s.flt.rec_ ≠ none) :
    (buildService s).out = s.out ∧ (buildService s).link = s.link ∧ (buildService s).flt.route = s.flt.route ∧ (buildService s).flt.notify = s.flt.notify := by
  have kept : (buildService s).calmUntagged = s.calmUntagged := buildService_calm s
  have noted : (buildService s).noted = s.noted := buildService_noted opened .rfl
  exact ⟨(congrArg State.out kept :), (congrArg State.link kept :), (congrArg (fun t : State => t.flt.route) kept :), (congrArg Prod.snd noted :)⟩

/-- The state whose open record is being notified. -/
def State.notifying (s : State) : State :=
  { s with flt := { s.flt with notify := none }, out := { s.out with ibi := s.flt.route.getLsbD 8 } }

theorem execFaultNotify_of_due {s : State} {t0 : Nat} (due : s.flt.notify = some t0) (later : t0 < s.pw.now) (opened : s.flt.rec_ ≠ none) :
    execFaultNotify s = .next (if s.flt.route.getLsbD 7 then sendMsix 0 (s.flt.route.toNat % 64) (buildService s.notifying) else buildService s.notifying) := by
  obtain ⟨-, -, route, -⟩ := buildService_leaves (s := s.notifying) opened
  rw [show s.flt.route = s.notifying.flt.route from rfl, ← route]
  unfold execFaultNotify
  rw [due]
  exact if_neg (by omega)

/-! ### The event queue -/

theorem takeEvent_of_nil {s : State} (none : s.flt.queue = []) : takeEvent s = (0, s) := by
  unfold takeEvent
  split
  · rfl
  next queued => exact nomatch none.symm.trans queued

theorem takeEvent_of_cons {s : State} {x : EvEntry} {rest : List EvEntry} (some : s.flt.queue = x :: rest) :
    takeEvent s = (x.word, { s with flt := { s.flt with queue := rest } }) := by
  unfold takeEvent
  split
  next none => exact nomatch some.symm.trans none
  next y r queued =>
    obtain ⟨rfl, rfl⟩ := List.cons.inj (some.symm.trans queued)
    rfl

/-- A read of FLT_Q answers the word taken. -/
def deliverEvent (p : Nat × State) : Res := .next { p.2 with out := { p.2.out with bus := .ok (leBytes 8 p.1) } }

theorem execFltQRead_of_runs {s : State} (runs : s.islandRuns = true) : exec .fltQRead s = deliverEvent (takeEvent s) := if_pos runs

theorem bumpGen_whole (i : Nat) (s : State) : tget 0 (bumpGen i 0 s).dic.gens (256 * i) = tget 0 s.dic.gens (256 * i) + 1 := by
  simp [bumpGen]

/-- The state that a drain of `m` entries leaves. -/
def State.drained (s : State) (m : Nat) : State :=
  { s with flt := { s.flt with
    queue := s.flt.queue.drop m
    evlog := (s.flt.evlog ++ s.flt.queue.take m).drop ((s.flt.evlog ++ s.flt.queue.take m).length - 1024) } }

theorem bumpGen_flt (i sub : Nat) (s : State) : (bumpGen i sub s).flt = s.flt := rfl

/-- The log keeps its newest entries. -/
theorem drained_evlog (s : State) (m : Nat) : (s.drained m).flt.evlog <:+ s.flt.evlog ++ s.flt.queue.take m ∧
    (s.drained m).flt.evlog.length = min 1024 (s.flt.evlog.length + min m s.flt.queue.length) := by
  dsimp only [State.drained]
  refine ⟨List.drop_suffix _ _, ?_⟩
  rw [List.length_drop, List.length_append, List.length_take]
  omega

theorem execEventQueueDrain_of_queued {s : State} (n : Nat) (runs : s.islandRuns = true) (queued : s.flt.queue ≠ []) :
    exec (.eventQueueDrain n) s = .next (bumpGen 0x6010 0 (s.drained (max n (if s.mainPower then 8 else 1)))) := if_neg (by simp [runs, queued])

end Sys2Proof.Machine

namespace Sys2Proof.Proofs
open Sys2Proof Sys2Proof.Machine

/-- Settles O50: a notification keeps its open record through the tag's commit (`buildService_noted`); the rest is what each command writes. -/
theorem faultEvents : Obligations.FaultEvents := by
  intro also n t0 s f vec masked sets
  refine ⟨fun due later opened => ?_, fun waits => ?_, fun pulse => ?_, fun none => ?_, fun runs => ⟨fun none => ?_, fun x some => ?_, ?_, ?_, ?_⟩,
    fun stops => ⟨if_neg (by simp [stops]), if_neg (by simp [stops])⟩⟩
  · obtain ⟨out, link, -, quiet⟩ := buildService_leaves (s := s.notifying) opened
    have pending : tget msixReset (buildService s.notifying).link.msix (64 * 0 + vec) = tget msixReset s.link.msix vec := by
      rw [link, Nat.mul_zero, Nat.zero_add]
      rfl
    have msix : (buildService s.notifying).out.msix = s.out.msix := (congrArg Out.msix out).trans rfl
    refine ⟨_, execFaultNotify_of_due due later opened, ?_, ?_, fun off => ?_, fun on open_ => ?_, fun on closed => ?_⟩
    · split
      · unfold sendMsix
        split <;> exact quiet
      · exact quiet
    · split
      · unfold sendMsix
        split <;> exact congrArg Out.ibi out
      · exact congrArg Out.ibi out
    · rw [if_neg (Bool.eq_false_iff.1 off)]
      exact ⟨msix, link⟩
    · rw [if_pos on, sendMsix, if_neg (by rw [pending]; exact Bool.eq_false_iff.1 open_)]
      exact ⟨congrArg (· ++ [(0, vec)]) msix, link⟩
    · rw [if_pos on, sendMsix, if_pos (by rw [pending]; exact closed)]
      refine ⟨msix, ?_⟩
      exact (congrArg (tget false · vec) (congrArg (fun i => tset false (buildService s.notifying).link.pba i true) (Nat.zero_add vec))).trans (tget_tset_same ..)
  · change execFaultNotify s = _
    unfold execFaultNotify
    rcases waits with none | ⟨x, waits, early⟩
    · rw [none]
    · rw [waits]
      exact if_pos early
  · change execFaultPulseEnd s = _
    unfold execFaultPulseEnd
    rw [pulse]
  · change execFaultPulseEnd s = _
    unfold execFaultPulseEnd
    rw [none]
  · refine (if_pos runs).trans (congrArg Host.Outcome.next ?_)
    unfold acknowledge
    split
    · rfl
    next opened => exact nomatch none.symm.trans opened
  · refine (if_pos runs).trans ?_
    unfold acknowledge
    split
    next none => exact nomatch some.symm.trans none
    next y opened =>
      obtain rfl := Option.some.inj (some.symm.trans opened)
      split <;> rfl
  · intro x rest some word
    exact (execFltQRead_of_runs runs).trans (congrArg deliverEvent (takeEvent_of_cons some))
  · intro none
    have empty : leBytes 8 0 = List.replicate 8 0 := by decide
    refine ⟨(execFltQRead_of_runs runs).trans ((congrArg deliverEvent (takeEvent_of_nil none)).trans ?_), if_pos (by simp [show s.flt.queue = [] from none])⟩
    rw [← empty]
    rfl
  · intro some
    obtain ⟨newest, length⟩ := drained_evlog s (max n (if s.mainPower then 8 else 1))
    refine ⟨_, max n (if s.mainPower then 8 else 1), execEventQueueDrain_of_queued n runs some, le_max_left .., fun main => ?_, ?_, rfl, ?_, ?_,
      bumpGen_whole 0x6010 _⟩
    · rw [if_pos main]
      exact le_max_right ..
    · split <;> omega
    · rwa [bumpGen_flt]
    · rwa [bumpGen_flt]

end Sys2Proof.Proofs

/-! PROOFS. The tamper sources, the vault domain and the staging log (R396-R416). -/

namespace Sys2Proof.Machine
open Sys2Proof

/-! ### Without grants and a gallery certificate -/

/-- Grants stay gone where the leases are changed without a grant. -/
theorem grant_map {f : Nat × Lease → Nat × Lease} (place : ∀ e, (f e).1 = e.1) (keeps : ∀ e, (f e).2.grant = none ∨ (f e).2.grant = e.2.grant)
    {l : Tbl Lease} {j : Nat} (h : (tget ({} : Lease) l j).grant = none) : (tget ({} : Lease) (l.map f) j).grant = none := by
  induction l with
  | nil => rfl
  | cons e r ih =>
    rw [List.map_cons, show f e = ((f e).1, (f e).2) from rfl, tget, place]
    rw [show e = (e.1, e.2) from rfl, tget] at h
    split at h
    next here =>
      rw [if_pos here]
      exact (keeps e).elim id (·.trans h)
    next other =>
      rw [if_neg other]
      exact ih h

theorem grant_map_none {f : Nat × Lease → Nat × Lease} (ends : ∀ e, (f e).2.grant = none) (l : Tbl Lease) (j : Nat) :
    (tget ({} : Lease) (l.map f) j).grant = none := by
  induction l with
  | nil => rfl
  | cons e r ih =>
    rw [List.map_cons, show f e = ((f e).1, (f e).2) from rfl, tget]
    split
    · exact ends e
    · exact ih

/-- No lease has a grant, and the gallery no certificate. -/
def State.bare (s : State) : Prop := (∀ j, (s.lease j).grant = none) ∧ s.gal.cert = []

theorem State.bare.of_same {s t : State} (h : s.bare) (leases : t.leases = s.leases) (gal : t.gal.cert = s.gal.cert) : t.bare := by
  refine ⟨fun j => ?_, gal.trans h.2⟩
  rw [State.lease, leases]
  exact h.1 j

section
variable {s : State} (h : s.bare)
include h

theorem recordEvent_bare (e sev k : Nat) (inj : Bool) : (recordEvent e sev k inj s).bare := by
  unfold recordEvent
  extract_lets g
  split <;> exact h.of_same rfl rfl

theorem queueEvent_bare (x : EvEntry) : (queueEvent x s).bare := by
  unfold queueEvent
  split <;> exact h.of_same rfl rfl

theorem pendBench_bare (n cause : Nat) : (pendBench n cause s).bare := by
  unfold pendBench
  extract_lets b
  split
  · exact h
  split
  · exact h.of_same rfl rfl
  · split <;> exact h.of_same rfl rfl

theorem setLease_bare {k : Nat} {l : Lease} (none : l.grant = .none) : (s.setLease k l).bare := by
  refine ⟨fun j => ?_, h.2⟩
  rw [State.setLease, State.lease, tget_tset]
  split
  · exact none
  · exact h.1 j

omit h in
theorem wedges_same {β : Type} {p : State → β} {k : Nat} {t : State} (erase : ∀ q u, p (eraseWedge q 0x000A (fun i => i = k) u) = p u) :
    p (forN 16 (fun n t => if t.wedgeHolds (5 * n + 3) k then eraseWedge (5 * n + 3) 0x000A (fun i => i = k) t else t) t) = p t :=
  Same.forN (fun _ u h => .ite (h.same (erase _ u)) h) .rfl

theorem pendLease_bare (k : Nat) : (pendLease k s).bare := by
  have pended : (s.setLease k { s.lease k with qPend := some s.pw.now }).bare := setLease_bare h (h.1 k)
  unfold pendLease
  extract_lets l
  split
  · exact h
  · exact pended.of_same (wedges_same (p := State.leases) (fun _ _ => rfl)) (wedges_same (p := fun t => t.gal.cert) (fun _ _ => rfl))

end

theorem closeCeremony_grants {s : State} (reason : Nat) (h : ∀ j, (s.lease j).grant = none) (j : Nat) : ((closeCeremony reason s).lease j).grant = none := by
  unfold closeCeremony
  split
  · exact h j
  · exact grant_map (fun e => by dsimp only; split <;> rfl) (fun e => .inr (by dsimp only; split <;> rfl)) (h j)

theorem bumpGen_leases (i sub : Nat) (s : State) : (bumpGen i sub s).leases = s.leases := rfl
theorem bumpGen_gal (i sub : Nat) (s : State) : (bumpGen i sub s).gal = s.gal := rfl

theorem lapseGallery_leaves (s : State) : (lapseGallery s).leases = s.leases ∧ (lapseGallery s).gal.cert = [] := by
  unfold lapseGallery
  extract_lets t
  split
  · exact ⟨rfl, rfl⟩
  · exact ⟨bumpGen_leases .., congrArg Gal.cert (bumpGen_gal ..)⟩

/-- The tamper latch ends every grant and the certificate. -/
theorem setLatch_bare (cause : Nat) (s : State) : (setLatch cause s).bare := by
  unfold setLatch
  extract_lets s1 s2 s3
  have ended : ∀ j, (s2.lease j).grant = none := by
    intro j
    exact grant_map_none (fun _ => rfl) s1.leases j
  have wedges : Same State.leases s2 s3 := .forN (fun _ _ h => .ite (h.same (by rfl)) h) .rfl
  have closed := closeCeremony_grants (s := s3) 2 (fun j => by rw [State.lease, show s3.leases = s2.leases from wedges]; exact ended j)
  obtain ⟨lapsed, cert⟩ := lapseGallery_leaves (closeCeremony 2 s3)
  refine ⟨fun j => ?_, cert⟩
  rw [State.lease, lapsed]
  exact closed j

/-- Once gone, grants and certificate stay gone through every event. -/
theorem raise0_bare {s : State} (h : s.bare) (e k : Nat) (inj : Bool) : (raise0 e k inj s).bare := by
  unfold raise0
  split
  · exact h
  extract_lets sev pin f t1 t2 t3 f' t4 t5 t6
  have h1 : t1.bare := h.of_same rfl rfl
  have h2 : t2.bare := by unfold t2; split; exacts [recordEvent_bare h1 .., h1]
  have h3 : t3.bare := queueEvent_bare h2 _
  have h4 : t4.bare := by unfold t4; split; exacts [h3.of_same rfl rfl, h3]
  have h5 : t5.bare := by unfold t5; split; exacts [pendBench_bare h4 .., h4]
  have h6 : t6.bare := by unfold t6; split; exacts [pendLease_bare h5 _, h5]
  split
  · exact setLatch_bare ..
  · exact h6

/-- An event of severity LOCKDOWN ends every grant and the certificate. -/
theorem raise_bare {e k : Nat} {s : State} (here : s.srcPresent e = true) (on : s.pw.stage ≠ .off) (lockdown : s.sevOf e = 3) : (raise e k s).bare := by
  have first : (raise0 e k false s).bare := by
    unfold raise0
    rw [if_neg (by simp [here, on])]
    extract_lets sev pin f t1 t2 t3 f' t4 t5 t6
    rw [if_pos lockdown]
    exact setLatch_bare ..
  have kept : Same State.bare (raise0 e k false s) (raise e k s) :=
    raiseInj_same (fun i k t _ same => propext ⟨fun _ => first, fun _ => raise0_bare ((Eq.mpr (show t.bare = _ from same)) first) i k false⟩)
      (fun t _ _ => rfl) (fun _ _ => rfl) .rfl
  exact Eq.mpr (show (raise e k s).bare = _ from kept) first

/-! ### The vault of a latched device -/

section
variable {s t : State}

theorem bumpGen_vault (i sub : Nat) (s : State) : (bumpGen i sub s).vault = s.vault := rfl

theorem journal_vault (x : CRec) (s : State) : (journal x s).vault = s.vault := by
  unfold journal
  extract_lets r
  exact bumpGen_vault ..

theorem closeCeremony_vault (reason : Nat) (s : State) : (closeCeremony reason s).vault = s.vault := by
  unfold closeCeremony
  split
  · rfl
  next c _ => exact journal_vault { seq := 0, time := 0, kind := 7, ref := c.number, record := c.record s.time64 reason } s

theorem lapseGallery_vault (s : State) : (lapseGallery s).vault = s.vault := by
  unfold lapseGallery
  extract_lets u
  split
  · rfl
  · exact bumpGen_vault ..

theorem setLatch_vault {cause : Nat} (latched : t.vault.latch = true) : (setLatch cause t).vault = t.vault := by
  unfold setLatch
  extract_lets s1 s2 s3
  have only : s1.vault = t.vault := congrArg State.vault (show latchOnly cause t = t from if_pos latched)
  have wedges : Same State.vault s2 s3 := .forN (fun _ _ h => .ite (h.same (by rfl)) h) .rfl
  exact (lapseGallery_vault _).trans ((closeCeremony_vault ..).trans ((show s3.vault = s1.vault from wedges).trans only))

theorem recordEvent_vault (e sev k : Nat) (inj : Bool) (s : State) : (recordEvent e sev k inj s).vault = s.vault := by
  unfold recordEvent
  extract_lets g
  split <;> rfl

theorem pendBench_vault (n cause : Nat) (s : State) : (pendBench n cause s).vault = s.vault := by
  unfold pendBench
  extract_lets b
  split
  · rfl
  split
  · rfl
  · split <;> rfl

theorem pendLease_vault (k : Nat) (s : State) : (pendLease k s).vault = s.vault :=
  Same.ite (p := State.vault) .rfl (wedges_same (t := s.setLease k { s.lease k with qPend := some s.pw.now }) (p := State.vault) fun _ _ => rfl)

theorem queueEvent_vault (x : EvEntry) (s : State) : (queueEvent x s).vault = s.vault := by
  unfold queueEvent
  split <;> rfl

/-- An event changes the vault domain by its latch alone. -/
theorem raise0_vault {e k : Nat} {inj : Bool} (h : s.sevOf e ≠ 3 ∨ s.vault.latch = true) : (raise0 e k inj s).vault = s.vault := by
  unfold raise0
  split
  · rfl
  extract_lets sev pin f t1 t2 t3 f' t4 t5 t6
  have h2 : t2.vault = s.vault := by unfold t2; split; exacts [recordEvent_vault .., rfl]
  have h3 : t3.vault = s.vault := (queueEvent_vault ..).trans h2
  have h4 : t4.vault = s.vault := by unfold t4; split; exacts [h3, h3]
  have h5 : t5.vault = s.vault := by unfold t5; split; exacts [(pendBench_vault ..).trans h4, h4]
  have h6 : t6.vault = s.vault := by unfold t6; split; exacts [(pendLease_vault ..).trans h5, h5]
  split
  next lockdown => exact (setLatch_vault (by rw [h6]; exact h.resolve_left (not_not.2 lockdown))).trans h6
  · exact h6

theorem raise_vault_of_latched {e k : Nat} (latched : s.vault.latch = true) : (raise e k s).vault = s.vault :=
  raiseInj_same (p := State.vault)
    (fun _ _ t _ (h : t.vault = s.vault) => (raise0_vault (.inr ((congrArg Vault.latch h).trans latched))).trans h)
    (fun _ _ _ => rfl) (fun _ _ => rfl) (raise0_vault (.inr latched))

/-- An event of no lease below LOCKDOWN leaves the vault domain. -/
theorem raise_vault_of_mild {e : Nat} (mild : s.sevOf e ≠ 3) : (raise e 0xFF s).vault = s.vault := by
  have alone : raise e 0xFF s = raise0 e 0xFF false s := by
    unfold raise raiseInj
    simp [mild]
  rw [alone]
  exact raise0_vault (.inl mild)

end

/-! ### A sample of a source -/

/-- A sample of a mesh moves its pattern on. -/
def State.meshed (s : State) (i : Nat) : State := { s with vault := if i < 2 then { s.vault with lfsr := Config.meshNext s.vault.lfsr } else s.vault }

theorem meshed_eq (s : State) (i : Nat) : ∃ l, s.meshed i = { s with vault := { s.vault with lfsr := l } } := by
  unfold State.meshed
  split
  · exact ⟨_, rfl⟩
  · exact ⟨_, rfl⟩

theorem meshed_switch (s : State) (i j : Nat) : (s.meshed i).vault.switch j = s.vault.switch j := by
  unfold State.meshed
  split <;> rfl
theorem meshed_sensor (s : State) (i j : Nat) : (s.meshed i).vault.sensor j = s.vault.sensor j := by
  unfold State.meshed
  split <;> rfl
theorem meshed_window (s : State) (i j : Nat) : (s.meshed i).vault.window j = s.vault.window j := by
  unfold State.meshed
  split <;> rfl

/-- A disturbed mesh answers another pattern. -/
theorem farEnd_ne (v : Bool) (p : BitVec 16) : farEnd v p ≠ p ↔ v = true := by
  cases v with
  | false => simp [farEnd]
  | true => simp [farEnd]

/-- What a source finds. -/
def State.finds (s : State) (i : Nat) (v : Bool) : Prop := if 2 ≤ i ∧ i ≤ 5 then v = (s.vault.switch (i - 2)).getLsbD 30 else v = true

theorem sampleSource_eq (i : Nat) (v : Bool) (s : State) :
    ∃ det : Bool, (det = true ↔ s.finds i v) ∧ sampleSource i v s = tamperSample i det (s.meshed i) := by
  unfold sampleSource State.finds State.meshed
  by_cases mesh : i < 2
  · simp only [if_pos mesh]
    exact ⟨_, by rw [if_neg (by omega), decide_eq_true_iff]; exact farEnd_ne v _, rfl⟩
  · simp only [if_neg mesh]
    by_cases switch : i ≤ 5
    · rw [if_pos switch, if_pos ⟨by omega, switch⟩]
      exact ⟨_, decide_eq_true_iff, rfl⟩
    · rw [if_neg switch, if_neg (by omega)]
      exact ⟨_, Iff.rfl, rfl⟩

/-- The sensor and the hits of its window at a detection. -/
def State.hits (s : State) (i : Nat) : List Nat :=
  s.pw.mono :: (s.vault.sensor i).hits.filter fun t => s.pw.mono ≤ t + (s.vault.window i).2 * msUnits

def State.withSensor (s : State) (i : Nat) (x : Sensor) : State := { s with vault := s.vault.setSensor i x }

theorem withSensor_same (s : State) (i : Nat) (x : Sensor) : (s.withSensor i x).vault.sensor i = x := tget_tset_same ..

section
variable {i : Nat} {s : State}

theorem tamperSample_of_quiet : tamperSample i false s =
    s.withSensor i { s.vault.sensor i with detecting := false, disarmed := false, hits := if (s.vault.sensor i).disarmed then [] else (s.vault.sensor i).hits } := rfl

theorem tamperSample_of_idle (idle : (s.vault.sensor i).disarmed = true ∨ s.armed i = false) : tamperSample i true s =
    s.withSensor i { s.vault.sensor i with detecting := true, count := satAdd (s.vault.sensor i).count 1 } :=
  if_pos (by simpa using idle)

theorem tamperSample_of_few (counted : ¬ ((s.vault.sensor i).disarmed = true ∨ s.armed i = false)) (few : (s.hits i).length < (s.vault.window i).1) :
    tamperSample i true s =
      s.withSensor i { s.vault.sensor i with detecting := true, count := satAdd (s.vault.sensor i).count 1, hits := s.hits i } :=
  (if_neg (by simpa using counted)).trans (if_pos few)

theorem tamperSample_of_alarm (counted : ¬ ((s.vault.sensor i).disarmed = true ∨ s.armed i = false)) (enough : ¬ (s.hits i).length < (s.vault.window i).1) :
    tamperSample i true s =
      tamperAlarm i (s.withSensor i { hits := [], disarmed := true, detecting := true, count := satAdd (s.vault.sensor i).count 1 }) :=
  (if_neg (by simpa using counted)).trans (if_neg enough)

end

theorem calm_sevOf {s t : State} (h : Same State.calm s t) (e : Nat) : t.sevOf e = s.sevOf e := by
  have sev : t.flt.sev = s.flt.sev := (congrArg (fun t : State => t.flt.sev) (show t.calm = s.calm from h) :)
  unfold State.sevOf
  rw [sev]

/-! ### An alarm -/

theorem stage_of_room {kind source resp : Nat} {data : BitVec 32} {latched : Bool} {s : State} (room : s.vault.staging.length < 64) :
    stage kind source resp data latched s = { s with vault := { s.vault with vseq := s.vault.vseq + 1, staging := s.vault.staging ++
      [{ vseq := s.vault.vseq, time := s.time64, kind := kind, source := source, resp := resp, saved := false, vault := s.inVault, data := data, latched := latched }] } } :=
  if_pos room

/-- The bedrock and the latch as an alarm's response leaves them. -/
def State.responded (s : State) (i r : Nat) : State :=
  let t := if r = 2 then s.modVault fun v =>
      { v with bedrock := none, clearedAt := if v.bedrock.isSome && s.pw.stage ≠ .off then some s.pw.now else v.clearedAt } else s
  if 1 ≤ r then latchOnly i t else t

/-- What a response changes of the vault domain. -/
structure Responded (i r : Nat) (v w : Vault) : Prop where
  rtc : w.rtc = v.rtc
  sensors : w.sensors = v.sensors
  staging : w.staging = v.staging
  vseq : w.vseq = v.vseq
  bedrock : w.bedrock = if r = 2 then none else v.bedrock
  latch : w.latch = (v.latch || decide (1 ≤ r))
  causeOf : 1 ≤ r → v.latch = false → w.cause = BitVec.ofNat 8 i
  cause : v.latch = true → w.cause = v.cause

theorem responded_eq (i r : Nat) (s : State) : ∃ w, s.responded i r = { s with vault := w } ∧ Responded i r s.vault w := by
  unfold State.responded latchOnly
  by_cases cleared : r = 2
  · subst cleared
    cases latch : s.vault.latch with
    | true => exact ⟨_, by simp [State.modVault, latch]; rfl, by constructor <;> simp [latch]⟩
    | false => exact ⟨_, by simp [State.modVault, latch]; rfl, by constructor <;> simp [latch]⟩
  · by_cases sets : 1 ≤ r
    · cases latch : s.vault.latch with
      | true => exact ⟨_, by simp [cleared, sets, latch]; rfl, by constructor <;> simp [latch, cleared]⟩
      | false => exact ⟨_, by simp [cleared, sets, latch]; rfl, by constructor <;> simp [latch, cleared, sets]⟩
    · exact ⟨_, by simp [cleared, sets]; rfl, by constructor <;> simp [cleared, sets]⟩

/-- The alarm's entry in the staging log. -/
def State.alarmed (s : State) (i : Nat) : State :=
  stage 1 i (s.responseOf i) 0 (!s.vault.latch && (1 ≤ s.responseOf i || (!s.inVault && s.sevOf (0x410 + i) = 3))) (s.responded i (s.responseOf i))

/-- The entry that an alarm stages. -/
structure AlarmEntry (s : State) (i : Nat) (y : Staged) : Prop where
  kind : y.kind = 1
  source : y.source = i
  resp : y.resp = s.responseOf i
  time : y.time = s.time64
  vseq : y.vseq = s.vault.vseq
  saved : y.saved = false

section
variable {i : Nat} {s : State} (room : s.vault.staging.length < 64)
include room

theorem alarmed_eq : ∃ (w : Vault) (y : Staged), Responded i (s.responseOf i) s.vault w ∧ AlarmEntry s i y ∧
    s.alarmed i = { s with vault := { w with vseq := w.vseq + 1, staging := s.vault.staging ++ [y] } } := by
  obtain ⟨w, eq, responded⟩ := responded_eq i (s.responseOf i) s
  let y : Staged :=
    { vseq := w.vseq, time := s.time64, kind := 1, source := i, resp := s.responseOf i, saved := false, vault := s.inVault,
      latched := !s.vault.latch && (1 ≤ s.responseOf i || (!s.inVault && s.sevOf (0x410 + i) = 3)) }
  refine ⟨w, y, responded, ⟨rfl, rfl, rfl, rfl, responded.vseq, rfl⟩, ?_⟩
  unfold State.alarmed
  have time : ({ s with vault := w } : State).time64 = s.time64 := by rw [State.time64, responded.rtc]; rfl
  rw [eq, stage_of_room (by rw [responded.staging]; exact room), responded.staging, time]
  rfl

/-- What a powered alarm leaves: its entry, and its response. -/
theorem tamperAlarm_leaves (on : s.inVault = false) : ∃ (w : Vault) (y : Staged),
    Responded i (s.responseOf i) s.vault w ∧ AlarmEntry s i y ∧ (tamperAlarm i s).vault.sensors = w.sensors ∧
      (tamperAlarm i s).vault.staging = s.vault.staging ++ [y] ∧ (tamperAlarm i s).vault.bedrock = w.bedrock ∧
      (w.latch = true → (tamperAlarm i s).vault.latch = true ∧ (tamperAlarm i s).vault.cause = w.cause) ∧
      (1 ≤ s.responseOf i → s.vault.latch = false → s.sevOf 0x42C = 3 → (tamperAlarm i s).bare) ∧
      (s.responseOf i = 0 → s.sevOf (0x410 + i) ≠ 3 → (tamperAlarm i s).vault.latch = s.vault.latch) := by
  obtain ⟨w, y, responded, entry, eq⟩ := alarmed_eq room (i := i)
  have done : tamperAlarm i s = if !s.vault.latch && 1 ≤ s.responseOf i then raiseTamper 28 (raiseTamper i (s.alarmed i)) else raiseTamper i (s.alarmed i) := by
    refine Eq.trans (b := if (s.alarmed i).inVault then s.alarmed i else
      if !s.vault.latch && 1 ≤ s.responseOf i then raiseTamper 28 (raiseTamper i (s.alarmed i)) else raiseTamper i (s.alarmed i)) rfl (if_neg ?_)
    rw [eq]
    exact Bool.eq_false_iff.1 on
  have one : Same State.calm (s.alarmed i) (raiseTamper i (s.alarmed i)) := raise_calm .rfl
  have calm : (tamperAlarm i s).calm = (s.alarmed i).calm := by
    rw [done]
    exact Same.ite (raise_calm one) one
  have sev : ∀ e, (s.alarmed i).sevOf e = s.sevOf e := fun e => by rw [eq]; rfl
  have sensors : (s.alarmed i).vault.sensors = w.sensors := by rw [eq]
  have staging : (s.alarmed i).vault.staging = s.vault.staging ++ [y] := by rw [eq]
  have bedrock : (s.alarmed i).vault.bedrock = w.bedrock := by rw [eq]
  have latch : (s.alarmed i).vault.latch = w.latch := by rw [eq]
  have cause : (s.alarmed i).vault.cause = w.cause := by rw [eq]
  refine ⟨w, y, responded, entry, (congrArg (fun t : State => t.vault.sensors) calm :).trans sensors,
    (congrArg (fun t : State => t.vault.staging) calm :).trans staging, (congrArg (fun t : State => t.vault.bedrock) calm :).trans bedrock,
    fun latched => ?_, fun some free lockdown => ?_, fun silent mild => ?_⟩
  · have first : (raiseTamper i (s.alarmed i)).vault = (s.alarmed i).vault := raise_vault_of_latched (latch.trans latched)
    have vault : (tamperAlarm i s).vault = (s.alarmed i).vault := by
      rw [done]
      split
      · exact (raise_vault_of_latched ((congrArg Vault.latch first).trans (latch.trans latched))).trans first
      · exact first
    rw [vault]
    exact ⟨latch.trans latched, cause⟩
  · rw [done, if_pos (by simp [some, free])]
    refine raise_bare (by simp [State.srcPresent, srcTable, tamperSev]) ?_ ?_
    · rw [calm_pw one, eq]
      simpa [State.inVault] using on
    · exact (calm_sevOf one 0x42C).trans ((sev 0x42C).trans lockdown)
  · rw [done, if_neg (by simp [silent])]
    have vault : (raiseTamper i (s.alarmed i)).vault = (s.alarmed i).vault := raise_vault_of_mild (by rw [sev]; exact mild)
    rw [vault, latch, responded.latch, silent]
    simp

end

/-! ### The staging log moves to the tamper log -/

theorem foldl_max {α : Type} (f : α → Nat) (l : List α) (a : Nat) : l.foldl (fun m e => max m (f e)) a = max a (l.foldl (fun m e => max m (f e)) 0) := by
  induction l generalizing a with
  | nil => simp
  | cons x r ih =>
    rw [List.foldl_cons, List.foldl_cons, ih (max a (f x)), ih (max 0 (f x))]
    omega

theorem le_foldl_max {α : Type} (f : α → Nat) {l : List α} {x : α} (h : x ∈ l) : f x ≤ l.foldl (fun m e => max m (f e)) 0 := by
  induction l with
  | nil => cases h
  | cons y r ih =>
    rw [List.foldl_cons, foldl_max]
    rcases List.mem_cons.1 h with rfl | h
    · omega
    · have := ih h
      omega

theorem foldl_max_lt {α : Type} (f : α → Nat) {l : List α} {n : Nat} (some : 0 < n) (h : ∀ x ∈ l, f x < n) : l.foldl (fun m e => max m (f e)) 0 < n := by
  induction l with
  | nil => exact some
  | cons y r ih =>
    rw [List.foldl_cons, foldl_max]
    have here := h y (List.mem_cons_self ..)
    have rest := ih fun x m => h x (List.mem_cons_of_mem _ m)
    omega

theorem topVseq_append_le (l : List TamperBody) (e : TamperBody) : topVseq (l ++ [e]) ≤ max (topVseq l) e.vseq := by
  unfold topVseq
  rw [List.reverse_append, List.reverse_singleton, List.singleton_append, List.takeWhile_cons]
  split
  · rw [List.foldl_cons, foldl_max]
    omega
  · exact Nat.zero_le _

/-- Entries in the order of their VSEQ stay as they are. -/
theorem insertVseq_sorted {l : List Staged} (h : l.Pairwise fun a b => a.vseq < b.vseq) : l.foldr insertVseq [] = l := by
  induction l with
  | nil => rfl
  | cons x r ih =>
    obtain ⟨first, rest⟩ := List.pairwise_cons.1 h
    rw [List.foldr_cons, ih rest]
    cases r with
    | nil => rfl
    | cons y r =>
      unfold insertVseq
      exact if_pos (Nat.le_of_lt (first y (List.mem_cons_self ..)))

/-- The tamper log with further entries. -/
def State.logging (s : State) (l : List TamperBody) : State := { s with vault := { s.vault with log := l } }

/-- The move of one entry. -/
def moveOne (x : Staged) (t : State) : State :=
  if x.vseq ≤ topVseq t.vault.log then tmpSaved (BitVec.ofNat 32 x.vseq) t else appendTamper x t

/-- The log body that an entry becomes. -/
def Moved (x : Staged) (seq : Nat) (b : TamperBody) : Prop := b.kind = x.kind ∧ b.vseq = x.vseq ∧ b.seq = seq ∧ b.commit = []

theorem moveOne_appends {x : Staged} {s : State} (newer : topVseq s.vault.log < x.vseq) (room : s.vault.log.length < 4032) :
    ∃ b, Moved x (s.vault.log.length + 1) b ∧ moveOne x s = s.logging (s.vault.log ++ [b]) := by
  have open_ : s.vault.closed x.kind = false := by
    simp [Vault.closed]
    omega
  unfold moveOne appendTamper
  rw [if_neg (by omega), if_neg (Bool.eq_false_iff.1 open_)]
  exact ⟨_, ⟨rfl, rfl, rfl, rfl⟩, rfl⟩

theorem move_appends {l : List Staged} {s : State} (newer : ∀ x ∈ l, topVseq s.vault.log < x.vseq) (sorted : l.Pairwise fun a b => a.vseq < b.vseq)
    (room : s.vault.log.length + l.length < 4033) :
    ∃ new : List TamperBody, new.length = l.length ∧ forEach l moveOne s = s.logging (s.vault.log ++ new) ∧
      ∀ j x, l[j]? = some x → ∃ b, new[j]? = some b ∧ Moved x (s.vault.log.length + j + 1) b := by
  induction l generalizing s with
  | nil => exact ⟨[], rfl, by rw [List.append_nil]; rfl, fun j x h => by simp at h⟩
  | cons y r ih =>
    obtain ⟨first, rest⟩ := List.pairwise_cons.1 sorted
    have newest := newer y (List.mem_cons_self ..)
    rw [List.length_cons] at room
    obtain ⟨b, moved, one⟩ := moveOne_appends newest (by omega)
    have later : ∀ x ∈ r, topVseq (s.logging (s.vault.log ++ [b])).vault.log < x.vseq := by
      intro x h
      have bound := topVseq_append_le s.vault.log b
      have after := first x h
      obtain ⟨-, vseq, -⟩ := moved
      change topVseq (s.vault.log ++ [b]) < x.vseq
      omega
    have length : (s.logging (s.vault.log ++ [b])).vault.log.length = s.vault.log.length + 1 := List.length_append
    obtain ⟨new, len, all, each⟩ := ih later rest (by omega)
    refine ⟨b :: new, by rw [List.length_cons, List.length_cons, len], ?_, fun j x h => ?_⟩
    · rw [forEach_cons, one, all]
      simp [State.logging]
    · cases j with
      | zero => exact ⟨b, rfl, by obtain rfl := Option.some.inj h; exact moved⟩
      | succ j =>
        obtain ⟨c, found, moved⟩ := each j x (by simpa using h)
        refine ⟨c, by simpa using found, ?_⟩
        rw [length] at moved
        rwa [show s.vault.log.length + (j + 1) + 1 = s.vault.log.length + 1 + j + 1 by omega]

section
variable {s : State} (lost : s.vault.vlost = false) (ovf : s.vault.ovf = 0)
include lost ovf

theorem moveStaging_of_saved (saved : ∀ e ∈ s.vault.staging, e.saved = true) : moveStaging s = s := by
  have none : (s.vault.staging.filter fun e => !e.saved && !e.dropped) = [] := List.filter_eq_nil_iff.2 fun e h => by simp [saved e h]
  exact if_pos (by simp [lost, ovf, none])

variable (committed : ∀ e ∈ s.vault.log, e.commit ≠ []) (fresh : ∀ e ∈ s.vault.staging, e.saved = false ∧ e.dropped = false)
  (sorted : s.vault.staging.Pairwise fun a b => a.vseq < b.vseq)
include committed fresh sorted

theorem moveStaging_of_fresh : moveStaging s =
    if (forEach s.vault.staging moveOne s).vault.ovf = 0 then forEach s.vault.staging moveOne s else moveOverflow (forEach s.vault.staging moveOne s) := by
  have all : (s.vault.staging.filter fun e => !e.saved && !e.dropped) = s.vault.staging := List.filter_eq_self.2 fun e h => by simp [fresh e h]
  have done : (s.vault.log.any fun e => decide (e.commit = [])) = false := by simpa using committed
  by_cases none : s.vault.staging = []
  · rw [none]
    exact (if_pos (by simp [lost, ovf, none])).trans (if_pos ovf).symm
  · refine (if_neg ?_).trans ?_
    · simp only [all, done, none]
      simp
    · simp only [lost, Bool.false_eq_true, if_false, all, insertVseq_sorted sorted]
      rfl

theorem moveStaging_appends (newer : ∀ e ∈ s.vault.staging, topVseq s.vault.log < e.vseq) (room : s.vault.log.length + s.vault.staging.length < 4033) :
    ∃ new : List TamperBody, new.length = s.vault.staging.length ∧ moveStaging s = s.logging (s.vault.log ++ new) ∧
      ∀ j x, s.vault.staging[j]? = some x → ∃ b, new[j]? = some b ∧ Moved x (s.vault.log.length + j + 1) b := by
  obtain ⟨new, len, all, each⟩ := move_appends newer sorted room
  refine ⟨new, len, ?_, each⟩
  rw [moveStaging_of_fresh lost ovf committed fresh sorted, all]
  exact if_pos ovf

end

/-! ### The commit of moved entries -/

/-- All but the tag, the events and the generations is left by what follows a commit. -/
theorem commitTamper_vault {s : State} (new : (s.vault.log.filter fun e => e.commit = []) ≠ []) :
    (commitTamper s).vault.staging = s.vault.staging.map (fun e =>
      if e.vseq ≤ (BitVec.ofNat 32 ((s.vault.log.filter fun e => e.commit = []).foldl (fun m e => max m e.vseq) 0)).toNat then { e with saved := true } else e) ∧
    (commitTamper s).vault.log = s.vault.log.map fun e => if e.commit = [] then { e with commit := tamperCommit e.seq e.body } else e := by
  unfold commitTamper
  extract_lets l has t u
  rw [if_neg new]
  have raised : Same State.calmUntagged u (if l.any fun e => e.seq = 3840 then raiseTamper 35 u else u) :=
    .ite (calmUntagged_of_calm (raise_calm .rfl)) .rfl
  have built : (buildService (if l.any fun e => e.seq = 3840 then raiseTamper 35 u else u)).calmUntagged = u.calmUntagged :=
    raised.trans (buildService_calm _)
  exact ⟨(congrArg (fun t : State => t.vault.staging) built :).trans rfl, (congrArg (fun t : State => t.vault.log) built :).trans rfl⟩

theorem tamperCommit_ne_nil (seq : Nat) (body : Bytes) : tamperCommit seq body ≠ [] := List.cons_ne_nil _ _

/-- After the commit, the moved entries are saved and every entry of the log has its commit. -/
theorem moved_commit {s : State} {new : List TamperBody} (committed : ∀ e ∈ s.vault.log, e.commit ≠ [])
    (each : ∀ j x, s.vault.staging[j]? = some x → ∃ b, new[j]? = some b ∧ Moved x (s.vault.log.length + j + 1) b)
    (len : new.length = s.vault.staging.length) (small : ∀ e ∈ s.vault.staging, e.vseq < 2 ^ 32) :
    (∀ e ∈ (commitTamper (s.logging (s.vault.log ++ new))).vault.staging, e.saved = true) ∧
      (commitTamper (s.logging (s.vault.log ++ new))).vault.log.map TamperBody.body = (s.vault.log ++ new).map TamperBody.body ∧
        ∀ e ∈ (commitTamper (s.logging (s.vault.log ++ new))).vault.log, e.commit ≠ [] := by
  have listed : ∀ e ∈ s.vault.staging, ∃ b ∈ (s.vault.log ++ new).filter (fun e => e.commit = []), b.vseq = e.vseq := by
    intro e h
    obtain ⟨j, found⟩ := List.getElem?_of_mem h
    obtain ⟨b, here, -, vseq, -, commit⟩ := each j e found
    exact ⟨b, List.mem_filter.2 ⟨List.mem_append_right _ (List.mem_of_getElem? here), decide_eq_true commit⟩, vseq⟩
  by_cases none : (s.vault.log ++ new).filter (fun e => e.commit = []) = []
  · have stays : commitTamper (s.logging (s.vault.log ++ new)) = s.logging (s.vault.log ++ new) := if_pos none
    rw [stays]
    refine ⟨fun e h => ?_, rfl, fun e h => by simpa using List.filter_eq_nil_iff.1 none e h⟩
    obtain ⟨b, h, -⟩ := listed e h
    rw [none] at h
    cases h
  · obtain ⟨staging, log⟩ := commitTamper_vault (s := s.logging (s.vault.log ++ new)) none
    rw [staging, log]
    refine ⟨fun e h => ?_, ?_, fun e h => ?_⟩
    · obtain ⟨x, listed', rfl⟩ := List.mem_map.1 h
      obtain ⟨b, inside, vseq⟩ := listed x listed'
      have below : ∀ b ∈ (s.vault.log ++ new).filter (fun e => e.commit = []), b.vseq < 2 ^ 32 := by
        intro b h
        obtain ⟨h, fresh⟩ := List.mem_filter.1 h
        rcases List.mem_append.1 h with old | h
        · exact absurd (of_decide_eq_true fresh) (committed b old)
        · obtain ⟨j, here⟩ := List.getElem?_of_mem h
          obtain ⟨inside, -⟩ := List.getElem?_eq_some_iff.1 here
          rw [len] at inside
          obtain ⟨c, there, -, vseq, -⟩ := each j _ (List.getElem?_eq_getElem inside)
          rw [Option.some.inj (here.symm.trans there), vseq]
          exact small _ (List.getElem_mem inside)
      have newest := le_foldl_max TamperBody.vseq inside
      have fits := foldl_max_lt TamperBody.vseq (by decide : 0 < 2 ^ 32) below
      rw [if_pos]
      change x.vseq ≤ (BitVec.ofNat 32 (((s.vault.log ++ new).filter fun e => e.commit = []).foldl (fun m e => max m e.vseq) 0)).toNat
      rw [BitVec.toNat_ofNat, Nat.mod_eq_of_lt fits, ← vseq]
      exact newest
    · rw [List.map_map]
      exact List.map_congr_left fun e _ => by simp only [Function.comp]; split <;> rfl
    · obtain ⟨x, -, rfl⟩ := List.mem_map.1 h
      split
      · exact tamperCommit_ne_nil x.seq x.body
      next done => exact done

theorem unlatch_of_done {s : State} (latched : s.vault.latch = true) (done : s.vault.unlockDone = true) : unlatch (wrote 0x60070004 s) =
    { wrote 0x60070004 s with vault := { s.vault with latch := false, cause := 0xFF, latchSeq := 0, unlockDone := false } } := by
  obtain ⟨b, wrote⟩ := wrote_eq 0x60070004 s
  rw [wrote]
  exact if_pos (by simp [latched, done])

theorem unlatch_of_not {s : State} (stays : s.vault.latch = false ∨ s.vault.unlockDone = false) : unlatch (wrote 0x60070004 s) = wrote 0x60070004 s := by
  obtain ⟨b, wrote⟩ := wrote_eq 0x60070004 s
  rw [wrote]
  exact if_neg (by rcases stays with h | h <;> simp [h])

end Sys2Proof.Machine

namespace Sys2Proof.Proofs
open Sys2Proof Sys2Proof.Machine

/-- Settles O48: a sample is one of four cases (`sampleSource_eq`, `tamperSample_of_*`, `tamperAlarm_leaves`); a move appends the staged entries in
order (`moveStaging_appends`), and their commit marks them saved (`commitTamper_vault`). -/
theorem tamperSources : Obligations.TamperSources := by
  intro i ms k v m w s x found hits v1 sets idle held quiet
  refine ⟨fun on stands runs => ?sample, fun scrapped on => ?scrapped, fun off => ?lost, fun on => if_pos on, fun runs calm saved => ?saved,
    fun busy => if_neg (by simp [busy]), fun runs calm free committed fresh sorted room => ?move, fun runs => ⟨?_, ?_, ?_, ?_, ?_, ?_⟩⟩
  case sample =>
    have done : exec (.tamperSample i v ms) s = .next (sampleSource i v s) := by
      refine Eq.trans (b := (if (if s.inVault then passTime (ms * msUnits) s else s).lcs.state = .scrapped ||
          !(if s.inVault then passTime (ms * msUnits) s else s).sourceRuns i then
          .next (if s.inVault then passTime (ms * msUnits) s else s) else
          .next (sampleSource i v (if s.inVault then passTime (ms * msUnits) s else s)))) rfl ?_
      rw [if_neg (Bool.eq_false_iff.1 on)]
      exact if_neg (by simp [stands, runs])
    obtain ⟨det, finds, sampled⟩ := sampleSource_eq i v s
    rw [done, sampled]
    have sensor : (s.meshed i).vault.sensor i = x := meshed_sensor ..
    have window : (s.meshed i).vault.window i = s.vault.window i := meshed_window ..
    have counts : (s.meshed i).hits i = hits := by rw [State.hits, sensor, window]; rfl
    refine ⟨fun absent => ?_, fun here waits => ?_, fun here alarm present room => ?_⟩
    · obtain rfl : det = false := Bool.eq_false_iff.2 fun h => absent (finds.1 h)
      rw [tamperSample_of_quiet, sensor]
      rfl
    · obtain rfl := finds.2 here
      by_cases off : idle
      · rw [tamperSample_of_idle (by rw [sensor]; exact off), sensor]
        have keeps : (x.disarmed || !s.armed i) = true := by simpa using off
        rw [keeps, if_pos rfl]
        rfl
      · have few := waits.resolve_left off
        have counted : (x.disarmed || !s.armed i) = false := by simpa [idle] using off
        rw [tamperSample_of_few (by rw [sensor]; exact off) (by rw [counts, window]; exact few), sensor, counts, counted]
        rfl
    · obtain rfl := finds.2 here
      obtain ⟨on', enough⟩ := not_or.1 alarm
      rw [tamperSample_of_alarm (by rw [sensor]; exact on') (by rw [counts, window]; exact enough), sensor]
      obtain ⟨l, mesh⟩ := meshed_eq s i
      rw [mesh]
      obtain ⟨w, y, responded, entry, sensors, staging, bedrock, latched, bare, mild⟩ := tamperAlarm_leaves (i := i)
        (s := ({ s with vault := { s.vault with lfsr := l } } : State).withSensor i
          { hits := [], disarmed := true, detecting := true, count := satAdd x.count 1 }) room on
      refine ⟨_, rfl, ?_, ⟨y, staging, entry.kind, entry.source, entry.resp, entry.time, entry.vseq, entry.saved⟩, fun erases => ?_, fun keeps => ?_,
        fun locks => ?_, fun locks free => ?_, fun locked => ?_, fun locks free lockdown => ?_, fun silent low => mild silent low⟩
      · exact (congrArg (tget ({} : Sensor) · i) (sensors.trans responded.sensors)).trans (withSensor_same ..)
      · exact bedrock.trans (responded.bedrock.trans (if_pos erases))
      · exact bedrock.trans (responded.bedrock.trans (if_neg keeps))
      · have sets : w.latch = true := by
          rw [responded.latch]
          exact Bool.or_eq_true_iff.2 (.inr (decide_eq_true locks))
        exact (latched sets).1
      · have sets : w.latch = true := by
          rw [responded.latch]
          exact Bool.or_eq_true_iff.2 (.inr (decide_eq_true locks))
        exact (latched sets).2.trans (responded.causeOf locks free)
      · have sets : w.latch = true := by
          rw [responded.latch]
          exact Bool.or_eq_true_iff.2 (.inl locked)
        exact (latched sets).2.trans (responded.cause locked)
      · exact bare locks free lockdown
  case scrapped =>
    refine Eq.trans (b := (if (if s.inVault then passTime (ms * msUnits) s else s).lcs.state = .scrapped ||
        !(if s.inVault then passTime (ms * msUnits) s else s).sourceRuns i then
        .next (if s.inVault then passTime (ms * msUnits) s else s) else
        .next (sampleSource i v (if s.inVault then passTime (ms * msUnits) s else s)))) rfl ?_
    rw [if_neg (Bool.eq_false_iff.1 on)]
    exact if_pos (by simp [scrapped])
  case lost =>
    refine ⟨_, if_neg (by simp [off]), rfl, rfl, rfl, rfl, fun locked => ?_, fun claimed field => ?_, rfl⟩
    · have : (decide (s.lcs.state = .claimed) || decide (s.lcs.state = .field)) = true := by simpa using locked
      exact ⟨this, if_pos this⟩
    · have : (decide (s.lcs.state = .claimed) || decide (s.lcs.state = .field)) = false := by simpa using And.intro claimed field
      exact ⟨this, if_neg (Bool.eq_false_iff.1 this)⟩
  case saved =>
    obtain ⟨lost, ovf⟩ := calm
    change (if s.islandRuns && !s.bankBusy 3 then Host.Outcome.next (moveStaging s) else .next s) = _
    rw [moveStaging_of_saved lost ovf saved, ite_self]
  case move =>
    obtain ⟨lost, ovf⟩ := calm
    obtain ⟨new, len, moved, each⟩ := moveStaging_appends lost ovf committed (fun e h => ⟨(fresh e h).1, (fresh e h).2.1⟩) sorted
      (fun e h => (fresh e h).2.2.1) room
    refine ⟨_, if_pos (by simp [runs, free]), ?_⟩
    rw [moved]
    refine ⟨by rw [← len]; exact List.length_append, List.prefix_append _ _, rfl, fun j e h => ?_, ?_⟩
    · obtain ⟨b, found, kind, vseq, seq, commit⟩ := each j e h
      refine ⟨b, ?_, kind, vseq, seq, commit⟩
      exact (List.getElem?_append_right (Nat.le_add_right ..)).trans (by rw [Nat.add_sub_cancel_left]; exact found)
    · exact moved_commit committed each len fun e h => (fresh e h).2.2.2
  · exact fun latched done => (if_pos runs).trans (congrArg Host.Outcome.next (unlatch_of_done latched done))
  · exact fun stays => (if_pos runs).trans (congrArg Host.Outcome.next (unlatch_of_not stays))
  · refine (if_pos runs).trans (congrArg Host.Outcome.next ?_)
    obtain ⟨b, wrote⟩ := wrote_eq 0x60070004 s
    rw [wrote]
    rfl
  · exact ⟨_, if_pos runs, fun j => List.getElem?_map, rfl⟩
  · intro slot master
    have done : exec (.tmpSlogRead m k) s = .next (slogRead m k s) := by
      rcases master with rfl | ⟨c, rfl⟩
      · exact if_pos (by simp [runs, slot])
      · exact if_pos (by simp [runs, slot])
    exact ⟨_, done, rfl, ⟨_, tfind_tput_same .., rfl, rfl⟩, rfl⟩
  · exact fun f => rfl

end Sys2Proof.Proofs

/-! PROOFS. How an entry of the dictionary answers an accepted request (R352-R358). -/

namespace Sys2Proof.Machine
open Sys2Proof Sys2Proof.Claims

/-- An entry sees of the dictionary what stood before the request, but for its binding, its endpoints and its count. -/
theorem counted_eq' (r : Req) (s : State) : ∃ b e n, s.counted r = { s with dic := { s.dic with smbus := b, eps := e, reqs := n } } := by
  unfold State.counted pickBus
  split
  · exact ⟨_, _, _, rfl⟩
  · exact ⟨s.dic.smbus, _, _, rfl⟩

/-- To HOST and the BMC only the entries of absent leases are hidden. -/
theorem visible_main {r : Req} {s : State} (main : r.ep ≤ 1) (own : ∀ k, subLease r.index = some k → k < s.nLease) : s.hidden r = false := by
  unfold State.hidden ownRole
  rcases Nat.le_one_iff_eq_zero_or_eq_one.1 main with role | role
  all_goals
    rw [role]
    cases e : subLease r.index with
    | none => rfl
    | some k => exact decide_eq_false (Nat.not_le.2 (own k e))

theorem visible_host {r : Req} {s : State} (host : r.ep = 1) (own : ∀ k, subLease r.index = some k → k < s.nLease) : s.hidden r = false :=
  visible_main (Nat.le_of_eq host) own

/-- An officer's action renews the ceremony alone; another role's changes nothing. -/
theorem officerAction_own (r : Req) (st : DStat) (s : State) : officerAction r true st s = s := if_neg (by simp)

/-- The role that an endpoint has of itself. -/
theorem allowed_host {s : State} {x : Rights} (host : x.host = true) : s.allowed 1 x = true := by
  unfold State.allowed ownRole
  simp [host]

theorem allowed_main {s : State} {ep : Nat} {x : Rights} (main : ep ≤ 1) (host : x.host = true) (bmc : x.bmc = true) : s.allowed ep x = true := by
  unfold State.allowed ownRole
  rcases Nat.le_one_iff_eq_zero_or_eq_one.1 main with role | role <;> simp [role, host, bmc]

theorem answers_respond {r : Req} {op : Nat} {st : DStat} {payload : Bytes} {s t : State} {p : State → Prop} {o : Res}
    (done : o = .next (respond (s.epVersion r.ep) r op st payload t)) (leaves : p (respond (s.epVersion r.ep) r op st payload t)) :
    Answers r op st payload s p o := ⟨_, done, rfl, leaves⟩

theorem respond_vault (v : Nat) (r : Req) (op : Nat) (st : DStat) (b : Bytes) (t : State) : (respond v r op st b t).vault = t.vault := rfl
theorem respond_pw (v : Nat) (r : Req) (op : Nat) (st : DStat) (b : Bytes) (t : State) : (respond v r op st b t).pw = t.pw := rfl

/-- What is answered beside an effect that leaves the dictionary's own counts and the messages aside. -/
theorem aside_respond {r : Req} {v op : Nat} {st : DStat} {payload : Bytes} {s t u : State} (h : Aside s t = u) :
    Aside s (respond v r op st payload t) = u := h

theorem aside_counted (r : Req) (s : State) : Aside s (s.counted r) = s := by
  obtain ⟨d, h⟩ := counted_eq r s
  rw [h]
  rfl

section
variable {r : Req} {rights : Rights} {len : Nat} {value : Bytes} {f : State → DStat × State} {s : State}

/-- A WRITE that reaches its entry. -/
theorem writeEntry_of_allowed (h : Accepted r 3 s) (visible : s.hidden r = false) (may : s.allowed r.ep rights = true) (length : value.length = len)
    (short : len ≤ 256) : writeEntry r rights len value f s = respond (s.epVersion r.ep) r 3 (f (s.counted r)).1 []
      (officerAction r (s.allowed r.ep { rights with officer := false }) (f (s.counted r)).1 (f (s.counted r)).2) := by
  rw [writeEntry, request_of_accepted h (by omega)]
  simp [visible, may, length]

/-- A WRITE of a role that may write the entry of itself is answered with what the entry says. -/
theorem answers_own {st : DStat} {t : State} {p : State → Prop} {o : Res} (done : o = .next (writeEntry r rights len value f s)) (h : Accepted r 3 s)
    (visible : s.hidden r = false) (own : s.allowed r.ep { rights with officer := false } = true) (length : value.length = len) (short : len ≤ 256)
    (effect : f (s.counted r) = (st, t)) (leaves : p (respond (s.epVersion r.ep) r 3 st [] t)) : Answers r 3 st [] s p o := by
  have may : s.allowed r.ep rights = true := by
    unfold State.allowed at own ⊢
    rw [Bool.or_eq_true]
    exact .inr (by simpa using own)
  refine answers_respond ?_ leaves
  rw [done, writeEntry_of_allowed h visible may length short, effect, own, officerAction_own]

/-- So for HOST. -/
theorem answers_host {st : DStat} {t : State} {p : State → Prop} {o : Res} (done : o = .next (writeEntry r rights len value f s)) (h : Accepted r 3 s)
    (host : r.ep = 1) (own : ∀ k, subLease r.index = some k → k < s.nLease) (may : rights.host = true) (length : value.length = len) (short : len ≤ 256)
    (effect : f (s.counted r) = (st, t)) (leaves : p (respond (s.epVersion r.ep) r 3 st [] t)) : Answers r 3 st [] s p o :=
  answers_own done h (visible_host host own) (by rw [host]; exact allowed_host may) length short effect leaves

/-- A WRITE without the right. -/
theorem writeEntry_of_refused (h : Accepted r 3 s) (visible : s.hidden r = false) (may : s.allowed r.ep rights = false) (short : value.length ≤ 256) :
    writeEntry r rights len value f s = respond (s.epVersion r.ep) r 3 .denied [] (s.counted r) := by
  rw [writeEntry, request_of_accepted h (by omega)]
  simp [visible, may]

/-- The END of an object that its session holds. -/
theorem endObject_of_session {refuse : State → State} (h : Accepted r 7 s) (visible : s.hidden r = false) (may : s.allowed r.ep rights = true)
    (held : (s.session r).isSome = true) :
    endObject r rights refuse f s = respond (s.epVersion r.ep) r 7 (f (setSession r.ep none (s.counted r))).1 []
      (f (setSession r.ep none (s.counted r))).2 := by
  have some : (s.session r).isNone = false := by rw [Option.isNone_eq_false_iff]; exact held
  rw [endObject, request_of_accepted h (by omega)]
  simp [visible, may, some]

/-- The END of an object is answered with what its entry says. -/
theorem answers_object {refuse : State → State} {st : DStat} {t : State} {p : State → Prop} {o : Res} (done : o = .next (endObject r rights refuse f s))
    (h : Accepted r 7 s) (visible : s.hidden r = false) (may : s.allowed r.ep rights = true) (held : (s.session r).isSome = true)
    (effect : f (setSession r.ep none (s.counted r)) = (st, t)) (leaves : p (respond (s.epVersion r.ep) r 7 st [] t)) : Answers r 7 st [] s p o := by
  refine answers_respond ?_ leaves
  rw [done, endObject_of_session h visible may held, effect]

/-- An entry sees an object's request as any other, with its session closed. -/
theorem setSession_counted_eq (r : Req) (s : State) : ∃ b e n, setSession r.ep none (s.counted r) = { s with dic := { s.dic with smbus := b, eps := e, reqs := n } } := by
  obtain ⟨b, e, n, h⟩ := counted_eq' r s
  rw [h]
  exact ⟨b, _, n, rfl⟩

end

end Sys2Proof.Machine

/-! PROOFS. The tamper entries and the unlock (R399, R408-R410, R414). -/

namespace Sys2Proof.Machine
open Sys2Proof Sys2Proof.Claims

/-! ### Two-bit fields -/

/-- A number with two bits of it replaced. -/
theorem field_replaced {hi n lo a b : Nat} (small : n < 4) (low : lo < 4 ^ a) :
    (hi * 4 ^ (a + 1) + n * 4 ^ a + lo) / 4 ^ b % 4 = if a = b then n else (hi * 4 ^ (a + 1) + lo) / 4 ^ b % 4 := by
  rcases Nat.lt_trichotomy a b with less | same | more
  · rw [if_neg (Nat.ne_of_lt less)]
    have power : 4 ^ b = 4 ^ (a + 1) * 4 ^ (b - (a + 1)) := by rw [← Nat.pow_add]; congr 1; omega
    have top : ∀ m < 4, (hi * 4 ^ (a + 1) + m * 4 ^ a + lo) / 4 ^ (a + 1) = hi := by
      intro m h
      have part : m * 4 ^ a + lo < 4 ^ (a + 1) := by
        rw [Nat.pow_succ]
        have := Nat.mul_le_mul_right (4 ^ a) (Nat.le_of_lt_succ h)
        omega
      rw [Nat.add_assoc, Nat.mul_comm, Nat.mul_add_div (Nat.pow_pos (by decide)), Nat.div_eq_of_lt part, Nat.add_zero]
    have zero := top 0 (by decide)
    rw [Nat.zero_mul, Nat.add_zero] at zero
    rw [power, ← Nat.div_div_eq_div_mul, ← Nat.div_div_eq_div_mul, top n small, zero]
  · subst same
    rw [if_pos rfl, Nat.pow_succ, show hi * (4 ^ a * 4) + n * 4 ^ a + lo = 4 ^ a * (hi * 4 + n) + lo by ring,
      Nat.mul_add_div (Nat.pow_pos (by decide)), Nat.div_eq_of_lt low]
    omega
  · rw [if_neg (Nat.ne_of_gt more)]
    have power : 4 ^ a = 4 ^ b * (4 * 4 ^ (a - b - 1)) := by rw [← Nat.pow_succ', ← Nat.pow_add]; congr 1; omega
    have parts : ∀ m, (hi * 4 ^ (a + 1) + m * 4 ^ a + lo) / 4 ^ b % 4 = lo / 4 ^ b % 4 := by
      intro m
      rw [Nat.pow_succ, power, show hi * (4 ^ b * (4 * 4 ^ (a - b - 1)) * 4) + m * (4 ^ b * (4 * 4 ^ (a - b - 1))) + lo =
        4 ^ b * (4 * (4 ^ (a - b - 1) * (hi * 4 + m))) + lo by ring, Nat.mul_add_div (Nat.pow_pos (by decide)), Nat.mul_add_mod]
    have zero := parts 0
    rw [Nat.zero_mul, Nat.add_zero] at zero
    rw [parts, zero]

theorem setField_field {v : BitVec 32} {a b n : Nat} (place : a < 16) (small : n < 4) :
    (setField v (2 * a) 2 n).toNat / 4 ^ b % 4 = if a = b then n else v.toNat / 4 ^ b % 4 := by
  have base : ∀ k, 2 ^ (2 * k) = 4 ^ k := fun k => by rw [Nat.pow_mul]
  have split : v.toNat = v.toNat / 4 ^ (a + 1) * 4 ^ (a + 1) + v.toNat / 4 ^ a % 4 * 4 ^ a + v.toNat % 4 ^ a := by
    have one := Nat.div_add_mod v.toNat (4 ^ a)
    have two := Nat.div_add_mod (v.toNat / 4 ^ a) 4
    rw [Nat.div_div_eq_div_mul, ← Nat.pow_succ] at two
    calc v.toNat = 4 ^ a * (v.toNat / 4 ^ a) + v.toNat % 4 ^ a := one.symm
      _ = 4 ^ a * (4 * (v.toNat / 4 ^ (a + 1)) + v.toNat / 4 ^ a % 4) + v.toNat % 4 ^ a := by rw [two]
      _ = _ := by rw [Nat.pow_succ]; ring
  have low : v.toNat % 4 ^ a < 4 ^ a := Nat.mod_lt _ (Nat.pow_pos (by decide))
  have whole : v.toNat / 4 ^ (a + 1) * 4 ^ (a + 1) + n * 4 ^ a + v.toNat % 4 ^ a < 2 ^ 32 := by
    have power : 2 ^ 32 = 4 ^ (a + 1) * 4 ^ (15 - a) := by rw [← Nat.pow_add, show a + 1 + (15 - a) = 16 by omega]; rfl
    have high : v.toNat / 4 ^ (a + 1) + 1 ≤ 4 ^ (15 - a) := Nat.div_lt_of_lt_mul (by rw [← power]; exact v.isLt)
    have top := Nat.mul_le_mul_left (4 ^ (a + 1)) high
    have part : n * 4 ^ a + v.toNat % 4 ^ a < 4 ^ (a + 1) := by
      rw [Nat.pow_succ]
      have := Nat.mul_le_mul_right (4 ^ a) (Nat.le_of_lt_succ small)
      omega
    rw [power]
    rw [Nat.mul_add, Nat.mul_one, Nat.mul_comm] at top
    omega
  have middle : v.toNat / 4 ^ a % 4 < 4 := Nat.mod_lt _ (by decide)
  have replaced : (setField v (2 * a) 2 n).toNat = v.toNat / 4 ^ (a + 1) * 4 ^ (a + 1) + n * 4 ^ a + v.toNat % 4 ^ a := by
    unfold setField
    rw [base, show 2 ^ 2 = 4 from rfl, BitVec.toNat_ofNat, show v.toNat - v.toNat / 4 ^ a % 4 * 4 ^ a + n * 4 ^ a =
      v.toNat / 4 ^ (a + 1) * 4 ^ (a + 1) + n * 4 ^ a + v.toNat % 4 ^ a by omega, Nat.mod_eq_of_lt whole]
  rw [replaced, field_replaced small low]
  split
  · rfl
  next other =>
    conv_rhs => rw [split, field_replaced middle low, if_neg other]

/-! ### The responses and windows of the entries -/

/-- The response stored for a source. -/
def Vault.stored (v : Vault) (j : Nat) : Nat := (v.stResp[j / 16]?.getD 0).toNat / 4 ^ (j % 16) % 4

/-- The vault domain with another response stored for a source. -/
def Vault.respond (v : Vault) (i n : Nat) : Vault :=
  { v with stResp := v.stResp.setIfInBounds (i / 16) (setField (v.stResp[i / 16]?.getD 0) (2 * (i % 16)) 2 n) }

theorem stored_respond {v : Vault} {i n : Nat} (source : i < 28) (small : n < 4) (j : Nat) :
    (v.respond i n).stored j = if j = i then n else v.stored j := by
  unfold Vault.stored Vault.respond
  dsimp only
  rw [Vector.getElem?_setIfInBounds]
  by_cases same : i / 16 = j / 16
  · rw [if_pos same, if_pos (by omega), Option.getD_some, setField_field (Nat.mod_lt _ (by decide)) small, same]
    by_cases here : i % 16 = j % 16
    · rw [if_pos here, if_pos (by omega)]
    · rw [if_neg here, if_neg (by omega)]
  · rw [if_neg same, if_neg (by rintro rfl; exact same rfl)]

/-- A changed window stands in its stored entry. -/
theorem changeWindow_leaves (s : State) (v : Vault) : (raiseTamper 34 { s with vault := v }).vault.sw = v.sw ∧
    (raiseTamper 34 { s with vault := v }).vault.vwin = v.vwin ∧
    (raiseTamper 34 { s with vault := v }).vault.stVwin = v.stVwin ∧ (raiseTamper 34 { s with vault := v }).vault.stSw = v.stSw := by
  have calm : (raiseTamper 34 { s with vault := v }).calm = ({ s with vault := v } : State).calm := raise_calm .rfl
  exact ⟨(congrArg (fun t : State => t.vault.sw) calm :), (congrArg (fun t : State => t.vault.vwin) calm :),
    (congrArg (fun t : State => t.vault.stVwin) calm :), (congrArg (fun t : State => t.vault.stSw) calm :)⟩

/-- A response's change is staged and raises its event. -/
theorem changeResponse_leaves {i n : Nat} {s : State} (room : s.vault.staging.length < 64) :
    (raiseTamper 34 (stageChange i n s)).vault.resp = s.vault.resp ∧ (raiseTamper 34 (stageChange i n s)).vault.stResp = s.vault.stResp ∧
      ∃ y : Staged, (raiseTamper 34 (stageChange i n s)).vault.staging = s.vault.staging ++ [y] ∧ y.kind = 6 ∧ y.data = BitVec.ofNat 32 (i + 256 * n) ∧
        y.time = s.time64 ∧ y.vseq = s.vault.vseq := by
  have staged : stageChange i n s = _ := stage_of_room room
  have calm : (raiseTamper 34 (stageChange i n s)).calm = (stageChange i n s).calm := raise_calm .rfl
  exact ⟨(congrArg (fun t : State => t.vault.resp) calm :).trans (congrArg (fun t : State => t.vault.resp) staged :),
    (congrArg (fun t : State => t.vault.stResp) calm :).trans (congrArg (fun t : State => t.vault.stResp) staged :),
    _, (congrArg (fun t : State => t.vault.staging) calm :).trans (congrArg (fun t : State => t.vault.staging) staged :), rfl, rfl, rfl, rfl⟩

section
variable {n : Nat} (some : n / 2 ^ 16 % 256 ≠ 0 ∧ n % 2 ^ 16 ≠ 0)
include some

theorem windowOk_switch_iff : windowOk true n = true ↔ n / 2 ^ 24 % 64 = 0 := by
  simp only [windowOk, some.1, some.2, ne_eq, not_false_eq_true, decide_true, Bool.true_and, if_true, decide_eq_true_eq]

theorem windowOk_vault_iff : windowOk false n = true ↔ n / 2 ^ 24 = 0 := by
  simp only [windowOk, some.1, some.2, ne_eq, not_false_eq_true, decide_true, Bool.true_and, Bool.false_eq_true, if_false, decide_eq_true_eq]

end

/-! ### Unlock requests -/


theorem refuseUnlock_leaves (c : Nat) (s : State) :
    (refuseUnlock c s).vault.unlockRefusal = c ∧ (s.vault.latch = true → (refuseUnlock c s).vault.latch = true) := by
  have calm : (refuseUnlock c s).calm = (s.modVault fun v => { v with unlockRefusal := c }).calm := raise_calm .rfl
  refine ⟨(congrArg (fun t : State => t.vault.unlockRefusal) calm :), fun latched => ?_⟩
  exact (congrArg Vault.latch (raise_vault_of_latched (s := s.modVault fun v => { v with unlockRefusal := c }) latched)).trans latched

/-- An unlock request that passes its checks stands before a latched device. -/
theorem latched_of_unlockRefusal {s : State} {d : Bytes} (good : s.unlockRefusal d = 0) : s.vault.latch = true := by
  unfold State.unlockRefusal at good
  split at good
  · cases good
  split at good
  · cases good
  split at good
  · cases good
  split at good
  · cases good
  next latched => simpa using latched

/-! ### The fresh sample of an unlock -/

/-- What decides whether a source runs, and its response. -/
def State.watch (s : State) := (s.pw, s.ident, s.lcs, s.vault.sw, s.vault.resp)

theorem sourceRuns_of_watch {s t : State} (h : Same State.watch s t) (i : Nat) : t.sourceRuns i = s.sourceRuns i := by
  simp only [Same, State.watch, Prod.mk.injEq] at h
  obtain ⟨pw, ident, -, sw, -⟩ := h
  simp [State.sourceRuns, State.inVault, Vault.switch, pw, ident, sw]

theorem responseOf_of_watch {s t : State} (h : Same State.watch s t) (i : Nat) : t.responseOf i = s.responseOf i := by
  simp only [Same, State.watch, Prod.mk.injEq] at h
  obtain ⟨-, -, lcs, -, resp⟩ := h
  simp [State.responseOf, Vault.response, lcs, resp]

/-- What a sample leaves: what is watched, and every sensor but its own. -/
def State.sampled (s : State) := (s.watch, s.vault.sensors)

theorem watch_of_calm {s t : State} (h : t.calm = s.calm) : t.sampled = s.sampled :=
  Prod.ext (Prod.ext (congrArg State.pw h :) (Prod.ext (congrArg State.ident h :) (Prod.ext (congrArg State.lcs h :)
    (Prod.ext (congrArg (fun t : State => t.vault.sw) h :) (congrArg (fun t : State => t.vault.resp) h :))))) (congrArg (fun t : State => t.vault.sensors) h :)

theorem stage_sampled (kind source resp : Nat) (data : BitVec 32) (latched : Bool) (s : State) : (stage kind source resp data latched s).sampled = s.sampled := by
  unfold stage
  extract_lets v x w low
  split
  · rfl
  split
  · rfl
  · rfl

theorem latchOnly_sampled (cause : Nat) (s : State) : (latchOnly cause s).sampled = s.sampled := by
  unfold latchOnly
  split <;> rfl

theorem tamperAlarm_sampled (i : Nat) (s : State) : (tamperAlarm i s).sampled = s.sampled := by
  unfold tamperAlarm
  extract_lets r free sets s1 s2 s3 s4
  have h1 : Same State.sampled s s1 := .ite .rfl .rfl
  have h2 : Same State.sampled s s2 := .ite (h1.trans (latchOnly_sampled ..)) h1
  have h3 : Same State.sampled s s3 := h2.trans (stage_sampled ..)
  have h4 : Same State.sampled s s4 := h3.trans (watch_of_calm (raise_calm .rfl))
  exact Same.ite h3 (Same.ite (h4.trans (watch_of_calm (raise_calm .rfl))) h4)

/-- A sample sets whether its source detects, and leaves what is watched and the other sensors. -/
theorem tamperSample_watch (i : Nat) (det : Bool) (s : State) : (tamperSample i det s).watch = s.watch ∧
    ((tamperSample i det s).vault.sensor i).detecting = det ∧ ∀ j, j ≠ i → (tamperSample i det s).vault.sensor j = s.vault.sensor j := by
  have one : ∀ x : Sensor, (s.withSensor i x).watch = s.watch ∧ ((s.withSensor i x).vault.sensor i) = x ∧
      ∀ j, j ≠ i → (s.withSensor i x).vault.sensor j = s.vault.sensor j :=
    fun x => ⟨rfl, withSensor_same .., fun j other => tget_tset_ne _ _ _ other⟩
  cases det with
  | false =>
    rw [tamperSample_of_quiet]
    obtain ⟨watch, here, there⟩ := one _
    exact ⟨watch, congrArg Sensor.detecting here, there⟩
  | true =>
    by_cases idle : (s.vault.sensor i).disarmed = true ∨ s.armed i = false
    · rw [tamperSample_of_idle idle]
      obtain ⟨watch, here, there⟩ := one _
      exact ⟨watch, congrArg Sensor.detecting here, there⟩
    by_cases few : (s.hits i).length < (s.vault.window i).1
    · rw [tamperSample_of_few idle few]
      obtain ⟨watch, here, there⟩ := one _
      exact ⟨watch, congrArg Sensor.detecting here, there⟩
    · rw [tamperSample_of_alarm idle few]
      obtain ⟨watch, here, there⟩ := one { hits := [], disarmed := true, detecting := true, count := satAdd (s.vault.sensor i).count 1 }
      have alarm := tamperAlarm_sampled i (s.withSensor i { hits := [], disarmed := true, detecting := true, count := satAdd (s.vault.sensor i).count 1 })
      have sensors := fun j => congrArg (tget ({} : Sensor) · j) (congrArg Prod.snd alarm)
      exact ⟨(congrArg Prod.fst alarm).trans watch, congrArg Sensor.detecting ((sensors i).trans here), fun j other => (sensors j).trans (there j other)⟩

theorem latchOnly_latched {cause : Nat} {s : State} (latched : s.vault.latch = true) : (latchOnly cause s).vault.latch = true := by
  unfold latchOnly
  rw [if_pos latched]
  exact latched

theorem stage_latch (kind source resp : Nat) (data : BitVec 32) (b : Bool) (s : State) : (stage kind source resp data b s).vault.latch = s.vault.latch := by
  unfold stage
  extract_lets v x w low
  split
  · rfl
  split
  · rfl
  · rfl

theorem raise_latched {e k : Nat} {s : State} (latched : s.vault.latch = true) : (raise e k s).vault.latch = true :=
  (congrArg Vault.latch (raise_vault_of_latched latched)).trans latched

theorem tamperSample_latched {i : Nat} {det : Bool} {s : State} (latched : s.vault.latch = true) : (tamperSample i det s).vault.latch = true := by
  have alarm : ∀ {u : State}, u.vault.latch = true → (tamperAlarm i u).vault.latch = true := by
    intro u latched
    unfold tamperAlarm
    extract_lets r free sets s1 s2 s3 s4
    have h1 : s1.vault.latch = true := by unfold s1; split <;> exact latched
    have h2 : s2.vault.latch = true := by unfold s2; split; exacts [latchOnly_latched h1, h1]
    have h3 : s3.vault.latch = true := (stage_latch ..).trans h2
    split
    · exact h3
    · have h4 : s4.vault.latch = true := raise_latched h3
      split
      · exact raise_latched h4
      · exact h4
  cases det with
  | false => exact latched
  | true =>
    by_cases idle : (s.vault.sensor i).disarmed = true ∨ s.armed i = false
    · rw [tamperSample_of_idle idle]
      exact latched
    by_cases few : (s.hits i).length < (s.vault.window i).1
    · rw [tamperSample_of_few idle few]
      exact latched
    · rw [tamperSample_of_alarm idle few]
      exact alarm latched

/-- The sources of a fresh sample up to the n-th: those that run detect as it says. -/
theorem freshSample_upto (fresh : List Nat) (s : State) (n : Nat) :
    Same State.watch s (forN n (fun i t => if t.sourceRuns i then tamperSample i (fresh.contains i) t else t) s) ∧
      (s.vault.latch = true → (forN n (fun i t => if t.sourceRuns i then tamperSample i (fresh.contains i) t else t) s).vault.latch = true) ∧
      ∀ j, ((forN n (fun i t => if t.sourceRuns i then tamperSample i (fresh.contains i) t else t) s).vault.sensor j).detecting =
        if j < n ∧ s.sourceRuns j = true then fresh.contains j else (s.vault.sensor j).detecting := by
  induction n with
  | zero => exact ⟨.rfl, id, fun j => (if_neg (fun h => Nat.not_lt_zero j h.1)).symm⟩
  | succ n ih =>
    obtain ⟨watch, latch, detecting⟩ := ih
    rw [forN_succ]
    generalize forN n (fun i t => if t.sourceRuns i then tamperSample i (fresh.contains i) t else t) s = t at watch latch detecting ⊢
    have runs : t.sourceRuns n = s.sourceRuns n := sourceRuns_of_watch watch n
    by_cases here : s.sourceRuns n = true
    · rw [if_pos (runs.trans here)]
      obtain ⟨same, det, others⟩ := tamperSample_watch n (fresh.contains n) t
      refine ⟨watch.trans same, fun latched => tamperSample_latched (latch latched), fun j => ?_⟩
      by_cases this : j = n
      · subst this
        rw [det, if_pos ⟨Nat.lt_succ_self _, here⟩]
      · rw [others j this, detecting]
        have : (j < n + 1 ∧ s.sourceRuns j = true) = (j < n ∧ s.sourceRuns j = true) := by rw [show (j < n + 1) = (j < n) from propext (by omega)]
        simp only [this]
    · rw [if_neg (by rw [runs]; exact here)]
      refine ⟨watch, latch, fun j => ?_⟩
      rw [detecting]
      by_cases this : j = n
      · subst this
        rw [if_neg (fun h => here h.2), if_neg (fun h => here h.2)]
      · have : (j < n + 1 ∧ s.sourceRuns j = true) = (j < n ∧ s.sourceRuns j = true) := by rw [show (j < n + 1) = (j < n) from propext (by omega)]
        simp only [this]

theorem freshSample_latched (fresh : List Nat) (s : State) : s.vault.latch = true → (freshSample fresh s).vault.latch = true := by
  unfold freshSample
  exact (freshSample_upto fresh s 28).2.1

theorem stillActive_freshSample (fresh : List Nat) (s : State) : (freshSample fresh s).stillActive = true ↔
    ∃ i < 28, s.responseOf i ≠ 0 ∧ (if s.sourceRuns i = true then fresh.contains i else (s.vault.sensor i).detecting) = true := by
  obtain ⟨upto, -, detecting⟩ := freshSample_upto fresh s 28
  have watch : Same State.watch s (freshSample fresh s) := upto
  have each : ∀ i < 28, ((freshSample fresh s).vault.sensor i).detecting = if s.sourceRuns i = true then fresh.contains i else (s.vault.sensor i).detecting := by
    intro i low
    refine (detecting i).trans ?_
    simp only [low, true_and]
  simp only [State.stillActive, List.any_eq_true, List.mem_range, Bool.and_eq_true, decide_eq_true_eq]
  constructor
  · rintro ⟨i, low, response, active⟩
    rw [responseOf_of_watch watch] at response
    exact ⟨i, low, response, (each i low) ▸ active⟩
  · rintro ⟨i, low, response, active⟩
    refine ⟨i, low, ?_, (each i low).trans active⟩
    rw [responseOf_of_watch watch]
    exact response

theorem freshSample_nil (s : State) : ∃ x, freshSample [] s = { s with vault := { s.vault with sensors := x } } := by
  have all : ∀ n, ∃ x, forN n (fun i t => if t.sourceRuns i then tamperSample i (([] : List Nat).contains i) t else t) s =
      { s with vault := { s.vault with sensors := x } } := by
    intro n
    induction n with
    | zero => exact ⟨_, rfl⟩
    | succ n ih =>
      obtain ⟨x, upto⟩ := ih
      rw [forN_succ, upto]
      split
      · exact ⟨_, rfl⟩
      · exact ⟨_, rfl⟩
  exact all 28

/-! ### The unlock itself -/

theorem buildService_vault {s : State} (latched : s.vault.latch = true) : (buildService s).vault = s.vault :=
  buildService_same (p := State.vault)
    (fun _ _ t (h : t.vault = s.vault) => (raise_vault_of_latched ((congrArg Vault.latch h).trans latched)).trans h) (fun _ _ => rfl) .rfl

theorem commitTamper_of_committed {s : State} (committed : ∀ e ∈ s.vault.log, e.commit ≠ []) : commitTamper s = s :=
  if_pos (List.filter_eq_nil_iff.2 fun e h => by simpa using committed e h)

/-- The commit of an UNLOCK body on a latched device. -/
theorem commitTamper_unlock {s : State} {b : TamperBody} (latched : s.vault.latch = true) (committed : ∀ e ∈ s.vault.log, e.commit ≠ [])
    (fresh : b.commit = []) (unlock : b.kind = 2) :
    (commitTamper (s.logging (s.vault.log ++ [b]))).vault.latch = true ∧ (commitTamper (s.logging (s.vault.log ++ [b]))).vault.unlockDone = true ∧
      (commitTamper (s.logging (s.vault.log ++ [b]))).vault.log = s.vault.log ++ [{ b with commit := tamperCommit b.seq b.body }] := by
  have new : (s.logging (s.vault.log ++ [b])).vault.log.filter (fun e => e.commit = []) = [b] := by
    have old : s.vault.log.filter (fun e => e.commit = []) = [] := List.filter_eq_nil_iff.2 fun e h => by simpa using committed e h
    exact (List.filter_append ..).trans (by rw [old]; simp [fresh])
  have kept : s.vault.log.map (fun e => if e.commit = [] then { e with commit := tamperCommit e.seq e.body } else e) = s.vault.log := by
    conv_rhs => rw [← List.map_id s.vault.log]
    exact List.map_congr_left fun e h => if_neg (committed e h)
  have log := (commitTamper_vault (s := s.logging (s.vault.log ++ [b])) (by rw [new]; exact List.cons_ne_nil _ _)).2
  have vault : ∃ u : State, u.vault.latch = true ∧ u.vault.unlockDone = true ∧ (commitTamper (s.logging (s.vault.log ++ [b]))).vault = u.vault := by
    unfold commitTamper
    extract_lets l has t u
    have some : has 2 = true := by
      change (List.filter _ _).any _ = true
      rw [new]
      simp [unlock]
    rw [if_neg (by rw [show l = [b] from new]; exact List.cons_ne_nil _ _)]
    have raised : (if l.any fun e => e.seq = 3840 then raiseTamper 35 u else u).vault = u.vault := by
      split
      · exact raise_vault_of_latched latched
      · rfl
    refine ⟨u, latched, ?_, (buildService_vault ((congrArg Vault.latch raised).trans latched)).trans raised⟩
    exact Bool.or_eq_true_iff.2 (.inr some)
  obtain ⟨u, latch, done, vault⟩ := vault
  refine ⟨(congrArg Vault.latch vault).trans latch, (congrArg Vault.unlockDone vault).trans done, log.trans ?_⟩
  refine (List.map_append ..).trans ?_
  rw [kept]
  simp [fresh]

/-- The old entries saved, the one new entry moves. -/
theorem moveStaging_one {s : State} {x : Staged} {old : List Staged} (lost : s.vault.vlost = false) (ovf : s.vault.ovf = 0)
    (committed : ∀ e ∈ s.vault.log, e.commit ≠ []) (staging : s.vault.staging = old ++ [x]) (saved : ∀ e ∈ old, e.saved = true)
    (fresh : x.saved = false ∧ x.dropped = false) (newer : topVseq s.vault.log < x.vseq) (open_ : s.vault.closed x.kind = false) :
    ∃ b, Moved x (s.vault.log.length + 1) b ∧ moveStaging s = s.logging (s.vault.log ++ [b]) := by
  have new : (s.vault.staging.filter fun e => !e.saved && !e.dropped) = [x] := by
    have none : (old.filter fun e => !e.saved && !e.dropped) = [] := List.filter_eq_nil_iff.2 fun e h => by simp [saved e h]
    rw [staging, List.filter_append, none]
    simp [fresh]
  have done : (s.vault.log.any fun e => decide (e.commit = [])) = false := by simpa using committed
  have one : ∃ b, Moved x (s.vault.log.length + 1) b ∧ moveOne x s = s.logging (s.vault.log ++ [b]) := by
    unfold moveOne appendTamper
    rw [if_neg (by omega), if_neg (Bool.eq_false_iff.1 open_)]
    exact ⟨_, ⟨rfl, rfl, rfl, rfl⟩, rfl⟩
  obtain ⟨b, moved, one⟩ := one
  have loop : forEach [x] moveOne s = s.logging (s.vault.log ++ [b]) := one
  have all : moveStaging s = if (forEach [x] moveOne s).vault.ovf = 0 then forEach [x] moveOne s else moveOverflow (forEach [x] moveOne s) := by
    refine (if_neg ?_).trans ?_
    · simp only [new, done]
      simp
    · simp only [lost, Bool.false_eq_true, if_false, new]
      rfl
  refine ⟨b, moved, ?_⟩
  rw [all, loop]
  exact if_pos ovf

/-! ### The reset after an unlock -/

theorem bumpChanged_same {β : Type} {p : State → β} (gens : ∀ t g, p { t with dic := { t.dic with gens := g } } = p t) (s t : State) :
    p (bumpChanged s t) = p t := by
  have one : ∀ i j u, Same p t u → Same p t (bumpGen i j u) := fun i j u h => h.same (gens u _)
  have all : Same p t (forEach (changedObjects s t) (fun o x => bumpGen o.1 o.2 x) t) := .forEach (fun o u h => one o.1 o.2 u h) .rfl
  exact Same.ite all (.forN (fun k u h => .ite (.ite h (one _ _ u h)) (one _ _ _ (.ite h (one _ _ u h)))) all)

theorem tget_filter_key {α : Type} (d : α) (t : Tbl α) {q : Nat → Bool} {i : Nat} (out : q i = false) : tget d (t.filter fun e => q e.1) i = d := by
  induction t with
  | nil => rfl
  | cons e t ih =>
    obtain ⟨k, v⟩ := e
    cases keep : q k with
    | false => exact (congrArg (tget d · i) (List.filter_cons_of_neg (by simp [keep]))).trans ih
    | true =>
      refine (congrArg (tget d · i) (List.filter_cons_of_pos (by simp [keep]))).trans ((if_neg ?_).trans ih)
      rintro rfl
      exact nomatch keep.symm.trans out

theorem deviceReset_leaves (s : State) : (deviceReset s).vault = s.vault.kept ∧ (deviceReset s).pw.stage = .wipe ∧ (deviceReset s).pw.mode = .guard := by
  have vault : (resetState .wipe .guard s).vault = s.vault.kept := bumpChanged_same (p := State.vault) (fun _ _ => rfl) _ _
  have pw : (resetState .wipe .guard s).pw = (resetFields .wipe .guard s).pw := bumpChanged_same (p := State.pw) (fun _ _ => rfl) _ _
  have flt : (resetState .wipe .guard s).flt = s.flt.kept := bumpChanged_same (p := State.flt) (fun _ _ => rfl) _ _
  unfold deviceReset
  extract_lets t
  split
  · exact ⟨vault, congrArg Pw.stage pw, congrArg Pw.mode pw⟩
  · have mild : t.sevOf 0x468 ≠ 3 := by
      have none : tget none t.flt.sev 0x468 = none := (congrArg (fun f : Flt => tget none f.sev 0x468) flt).trans (tget_filter_key none s.flt.sev rfl)
      unfold State.sevOf
      rw [none]
      decide
    have raised : (modeEvent .guard t).vault = t.vault := raise_vault_of_mild mild
    have calm : (modeEvent .guard t).pw = t.pw := calm_pw (raise_calm .rfl)
    exact ⟨raised.trans vault, congrArg Pw.stage (calm.trans pw), congrArg Pw.mode (calm.trans pw)⟩

/-- The move and the commit of an UNLOCK entry that alone waits in the staging log. -/
theorem commit_unlock {s : State} {x : Staged} {old : List Staged} (latched : s.vault.latch = true) (committed : ∀ e ∈ s.vault.log, e.commit ≠ [])
    (lost : s.vault.vlost = false) (ovf : s.vault.ovf = 0) (staging : s.vault.staging = old ++ [x]) (saved : ∀ e ∈ old, e.saved = true)
    (fresh : x.saved = false ∧ x.dropped = false) (unlock : x.kind = 2) (newer : topVseq s.vault.log < x.vseq) (short : s.vault.log.length < 4096) :
    (commitTamper (moveStaging (commitTamper s))).vault.latch = true ∧ (commitTamper (moveStaging (commitTamper s))).vault.unlockDone = true ∧
      ∃ b, (commitTamper (moveStaging (commitTamper s))).vault.log = s.vault.log ++ [b] ∧ b.kind = 2 ∧ b.seq = s.vault.log.length + 1 ∧ b.commit ≠ [] := by
  have opened : s.vault.closed x.kind = false := by
    unfold Vault.closed
    rw [unlock]
    simp only [Bool.or_eq_false_iff, decide_eq_false_iff_not]
    exact ⟨by omega, by simp⟩
  obtain ⟨b, ⟨kind, -, seq, none⟩, move⟩ := moveStaging_one lost ovf committed staging saved fresh newer opened
  obtain ⟨latch, done, log⟩ := commitTamper_unlock latched committed none (kind.trans unlock)
  rw [commitTamper_of_committed committed, move]
  exact ⟨latch, done, _, log, kind.trans unlock, seq, List.cons_ne_nil _ _⟩

theorem unlatch_of_latched {s : State} (latched : s.vault.latch = true) (done : s.vault.unlockDone = true) :
    unlatch s = s.modVault fun v => { v with latch := false, cause := 0xFF, latchSeq := 0, unlockDone := false } :=
  if_pos (by rw [latched, done]; rfl)

/-- The unlock of a latched device whose logs are in order: the UNLOCK entry, the latch, the reset. -/
theorem unlockNow_leaves {s : State} (method officers : Nat) (latched : s.vault.latch = true) (committed : ∀ e ∈ s.vault.log, e.commit ≠ [])
    (lost : s.vault.vlost = false) (ovf : s.vault.ovf = 0) (saved : ∀ e ∈ s.vault.staging, e.saved = true) (room : s.vault.staging.length < 64)
    (newer : topVseq s.vault.log < s.vault.vseq) (short : s.vault.log.length < 4096) :
    (unlockNow method officers s).vault.latch = false ∧ (unlockNow method officers s).vault.cause = 0xFF ∧
      (unlockNow method officers s).pw.stage = .wipe ∧ (unlockNow method officers s).pw.mode = .guard ∧
      ∃ b, (unlockNow method officers s).vault.log = s.vault.log ++ [b] ∧ b.kind = 2 ∧ b.seq = s.vault.log.length + 1 ∧ b.commit ≠ [] := by
  have raised : (raiseTamper 29 s).vault = s.vault := raise_vault_of_latched latched
  unfold unlockNow
  extract_lets t
  have staged : t.vault = { s.vault with vseq := s.vault.vseq + 1, staging := s.vault.staging ++
      [{ vseq := s.vault.vseq, time := (raiseTamper 29 s).time64, kind := 2, source := 0xFF, resp := 0, saved := false, vault := (raiseTamper 29 s).inVault, data := BitVec.ofNat 32 (method + 2 ^ 16 * officers), latched := false }] } := by
    refine (congrArg State.vault (stage_of_room (show (raiseTamper 29 s).vault.staging.length < 64 by rw [raised]; exact room))).trans ?_
    rw [raised]
  dsimp only at staged
  have log : t.vault.log = s.vault.log := (congrArg Vault.log staged :)
  have entry := commit_unlock (s := t) ((congrArg Vault.latch staged :).trans latched) (by rw [log]; exact committed) ((congrArg Vault.vlost staged :).trans lost)
    ((congrArg Vault.ovf staged :).trans ovf) (congrArg Vault.staging staged :) saved ⟨rfl, rfl⟩ rfl (by rw [log]; exact newer) (by rw [log]; exact short)
  rw [log] at entry
  obtain ⟨latch, done, b, logged, entry⟩ := entry
  generalize commitTamper (moveStaging (commitTamper t)) = u at latch done logged
  rw [unlatch_of_latched latch done]
  obtain ⟨vault, stage, mode⟩ := deviceReset_leaves (u.modVault fun v => { v with latch := false, cause := 0xFF, latchSeq := 0, unlockDone := false })
  exact ⟨congrArg Vault.latch vault, congrArg Vault.cause vault, stage, mode, b, (congrArg Vault.log vault).trans logged, entry⟩

theorem unlockRequest_of_refused {d : Bytes} {fresh : List Nat} {s : State} (bad : s.unlockRefusal d ≠ 0) :
    unlockRequest d fresh s = (.refused, refuseUnlock (s.unlockRefusal d) s) := if_neg bad

section
variable {d : Bytes} {fresh : List Nat} {s : State} (good : s.unlockRefusal d = 0)
include good

theorem unlockRequest_of_active (active : (freshSample fresh s).stillActive = true) :
    unlockRequest d fresh s = (.refused, refuseUnlock 0x0C (freshSample fresh s)) := by
  unfold unlockRequest unlockIfQuiet
  exact (if_pos good).trans (if_pos active)

theorem unlockRequest_of_quiet (quiet : ¬ (freshSample fresh s).stillActive = true) :
    unlockRequest d fresh s = (.ok, unlockNow (fieldLE d 6 1 + 1) 0 (freshSample fresh s)) := by
  unfold unlockRequest unlockIfQuiet
  exact (if_pos good).trans (if_neg quiet)

end

end Sys2Proof.Machine

namespace Sys2Proof.Proofs
open Sys2Proof Sys2Proof.Machine Sys2Proof.Claims

/-- Settles O49: a responses' and a window's write is the stored setting beside the registers; an unlock request is judged on its latched device,
sampled afresh, and its entry is committed before the latch is released and the device reset. -/
theorem tamperEntries : Obligations.TamperEntries := by
  intro r d fresh s n same mine stored
  have noLease : ∀ {i : Nat}, r.index = i → subLease i = none → ∀ k, subLease r.index = some k → k < s.nLease :=
    fun index none k own => nomatch (none.symm.trans (congrArg subLease index).symm).trans own
  refine ⟨?responses, ?denied, ?windows, ?waits, ?unlock, ?officers⟩
  case responses =>
    intro ⟨h, host, claimed⟩ index low high len
    have done : exec (.tamperResponseWrite r d) s = .next (writeEntry r _ 1 d _ s) := if_neg (by simp [index]; omega)
    have rights : s.tamperRights.host = true := by simp [State.tamperRights, claimed]
    refine ⟨fun few room => ?_, fun many => ?_⟩
    · refine answers_host done h host (noLease index (by decide)) rights len (by decide) (if_neg (Nat.not_lt.2 few)) ?_
      obtain ⟨b, e, c, seen⟩ := counted_eq' r s
      rw [seen]
      obtain ⟨resp, stored, y, staging, facts⟩ := changeResponse_leaves (i := r.sub - 1) (n := n)
        (s := { s with dic := { s.dic with smbus := b, eps := e, reqs := c }, vault := s.vault.respond (r.sub - 1) n }) room
      refine ⟨resp, fun j _ => ?_, y, staging, facts⟩
      refine Eq.trans ?_ (stored_respond (v := s.vault) (i := r.sub - 1) (n := n) (by omega) (by omega) j)
      exact congrArg (fun l : Vector (BitVec 32) 2 => (l[j / 16]?.getD 0).toNat / 4 ^ (j % 16) % 4) stored
    · exact answers_host done h host (noLease index (by decide)) rights len (by decide) (if_pos many) (aside_respond (aside_counted r s))
  case denied =>
    intro h host unclaimed officer index low high short
    have done : exec (.tamperResponseWrite r d) s = .next (writeEntry r _ 1 d _ s) := if_neg (by simp [index]; omega)
    have may : s.allowed r.ep s.tamperRights = false := by simp [State.allowed, ownRole, host, officer, State.tamperRights, unclaimed]
    refine answers_respond (done.trans (congrArg Host.Outcome.next (writeEntry_of_refused h (visible_host host (noLease index (by decide))) may short)))
      (aside_respond (aside_counted r s))
  case windows =>
    intro ⟨h, host, claimed⟩ len nw
    have rights : s.tamperRights.host = true := by simp [State.tamperRights, claimed]
    refine ⟨fun index low high some few => ?_, fun index sub some few => ?_, fun index sub bad => ?_⟩
    · have done : exec (.tamperWindowWrite r d) s = .next (writeEntry r _ 4 d _ s) := if_neg (by simp [index, low, high])
      have sw : (decide (r.index = 0x5002) && decide (1 ≤ r.sub) && decide (r.sub ≤ 4)) = true := by simp [index, low, high]
      refine answers_host done h host (noLease index (by decide)) rights len (by decide) (if_neg ?_) ?_
      · rw [sw, (windowOk_switch_iff some).2 few]
        decide
      · obtain ⟨b, e, c, seen⟩ := counted_eq' r s
        rw [seen, sw]
        obtain ⟨now, -, other, stored⟩ := changeWindow_leaves { s with dic := { s.dic with smbus := b, eps := e, reqs := c } }
          { s.vault with stSw := s.vault.stSw.setIfInBounds (r.sub - 1) (BitVec.ofNat 32 n) }
        refine ⟨now, other, fun j below => (congrArg (fun l : Vector (BitVec 32) 4 => l[j]?.getD 0) stored).trans ?_⟩
        dsimp only
        rw [Vector.getElem?_setIfInBounds]
        by_cases here : j = r.sub - 1
        · rw [if_pos here.symm, if_pos (by omega), if_pos here]
          rfl
        · rw [if_neg (Ne.symm here), if_neg here]
    · have done : exec (.tamperWindowWrite r d) s = .next (writeEntry r _ 4 d _ s) := if_neg (by simp [index, sub])
      have sw : (decide (r.index = 0x5002) && decide (1 ≤ r.sub) && decide (r.sub ≤ 4)) = false := by simp [index]
      refine answers_host done h host (noLease index (by decide)) rights len (by decide) (if_neg ?_) ?_
      · rw [sw, (windowOk_vault_iff some).2 few]
        decide
      · obtain ⟨b, e, c, seen⟩ := counted_eq' r s
        rw [seen, sw]
        obtain ⟨-, now, stored, other⟩ := changeWindow_leaves { s with dic := { s.dic with smbus := b, eps := e, reqs := c } }
          { s.vault with stVwin := BitVec.ofNat 32 n }
        exact ⟨now, stored, other⟩
    · have done : exec (.tamperWindowWrite r d) s = .next (writeEntry r _ 4 d _ s) := if_neg (by simp [index, sub])
      refine answers_host done h host (noLease index (by decide)) rights len (by decide) (if_pos ?_) (aside_respond (aside_counted r s))
      have sw : (decide (r.index = 0x5002) && decide (1 ≤ r.sub) && decide (r.sub ≤ 4)) = false := by simp [index]
      rw [sw]
      by_cases some : nw
      · have wide := bad.resolve_left (not_not.2 some)
        have not : windowOk false n = false := by
          rw [← Bool.not_eq_true, windowOk_vault_iff some]
          exact wide
        rw [show windowOk false (leNat d) = false from not]
        rfl
      · have not : windowOk false n = false := by
          unfold windowOk
          rw [← Bool.not_eq_true]
          simp only [Bool.and_eq_true, decide_eq_true_eq]
          exact fun both => some both.1
        rw [show windowOk false (leNat d) = false from not]
        rfl
  case waits => exact fun pass => if_pos (by simp [Option.isSome_iff_ne_none, pass])
  case unlock =>
    intro h role free index sub held code refused
    have visible : s.hidden r = false := visible_main role (noLease index (by decide))
    have may : s.allowed r.ep { host := true, bmc := true, officer := true } = true := allowed_main role rfl rfl
    have done : exec (.unlockRequest r d fresh) s = .next (endObject r _ _ _ s) := if_neg (by simp [index, sub, free])
    obtain ⟨b, e, c, seen⟩ := setSession_counted_eq r s
    refine ⟨fun bad => ?_, fun good active => ?_, fun good none quiet committed runs lost ovf saved room newer short => ?_⟩
    · refine answers_object done h visible may held (by rw [seen]; exact unlockRequest_of_refused bad) ?_
      exact refuseUnlock_leaves ..
    · obtain ⟨i, listed, low, runs, response⟩ := active
      have still : (freshSample fresh { s with dic := { s.dic with smbus := b, eps := e, reqs := c } }).stillActive = true :=
        (stillActive_freshSample fresh _).2 ⟨i, low, response, (if_pos runs).trans (List.contains_iff_mem.2 listed)⟩
      obtain ⟨code, latch⟩ := refuseUnlock_leaves 0x0C (freshSample fresh { s with dic := { s.dic with smbus := b, eps := e, reqs := c } })
      have latched := freshSample_latched fresh { s with dic := { s.dic with smbus := b, eps := e, reqs := c } }
      have effect := unlockRequest_of_active (s := { s with dic := { s.dic with smbus := b, eps := e, reqs := c } }) good still
      generalize refuseUnlock 0x0C (freshSample fresh { s with dic := { s.dic with smbus := b, eps := e, reqs := c } }) = t at code latch effect
      refine answers_object done h visible may held (by rw [seen]; exact effect) ?_
      exact ⟨code, fun before => latch (latched before)⟩
    · subst none
      obtain ⟨x, sampled⟩ := freshSample_nil { s with dic := { s.dic with smbus := b, eps := e, reqs := c } }
      have still : ¬ (freshSample [] { s with dic := { s.dic with smbus := b, eps := e, reqs := c } }).stillActive = true := by
        rw [stillActive_freshSample]
        rintro ⟨i, low, response, active⟩
        rcases quiet i low with runs | off | clear
        · rw [if_pos (show State.sourceRuns { s with dic := { s.dic with smbus := b, eps := e, reqs := c } } i = true from runs)] at active
          cases active
        · exact response off
        · split at active
          · cases active
          · exact nomatch clear.symm.trans active
      have effect := unlockRequest_of_quiet (s := { s with dic := { s.dic with smbus := b, eps := e, reqs := c } }) good still
      rw [sampled] at effect
      let u : State := { s with dic := { s.dic with smbus := b, eps := e, reqs := c }, vault := { s.vault with sensors := x } }
      have leaves := unlockNow_leaves (s := u) (fieldLE d 6 1 + 1) 0 (latched_of_unlockRefusal good) committed lost ovf saved room newer short
      change _ = (_, unlockNow (fieldLE d 6 1 + 1) 0 u) at effect
      generalize unlockNow (fieldLE d 6 1 + 1) 0 u = t at leaves effect
      exact answers_object done h visible may held (by rw [seen]; exact effect) leaves
  case officers =>
    intro h role index sub value
    subst value
    have done : exec (.officerUnlockStart r [1]) s = .next (writeEntry r _ 1 [1] _ s) := if_neg (by simp [index, sub])
    have visible : s.hidden r = false := visible_main role (noLease index (by decide))
    have own : s.allowed r.ep { host := true, bmc := true, officer := false } = true := allowed_main role rfl rfl
    have opens : (!(decide (s.lcs.state = .claimed) || decide (s.lcs.state = .field)) || decide (s.cust.m = 0) || decide (s.cust.n = 0)) = true ↔
        ¬ ((s.lcs.state = .claimed ∨ s.lcs.state = .field) ∧ s.cust.m ≠ 0 ∧ s.cust.n ≠ 0) := by
      simp only [Bool.or_eq_true, Bool.not_eq_true', Bool.or_eq_false_iff, decide_eq_false_iff_not, decide_eq_true_eq]
      tauto
    obtain ⟨b, e, c, seen⟩ := counted_eq' r s
    refine ⟨fun opened free => ?_, fun opened busy => ?_, fun closed => ?_⟩
    · refine answers_own done h visible own rfl (by decide) ((if_pos rfl).trans ((if_neg ?_).trans (if_neg ?_))) ?_
      · rw [seen]
        exact fun closed => opens.1 closed opened
      · rw [seen]
        exact Option.not_isSome_iff_eq_none.2 free
      · rw [seen]
        rfl
    · refine answers_own done h visible own rfl (by decide) ((if_pos rfl).trans ((if_neg ?_).trans (if_pos ?_))) (aside_respond (aside_counted r s))
      · rw [seen]
        exact fun closed => opens.1 closed opened
      · rw [seen]
        exact Option.isSome_iff_ne_none.2 busy
    · refine answers_own done h visible own rfl (by decide) ((if_pos rfl).trans (if_pos ?_)) (aside_respond (aside_counted r s))
      rw [seen]
      exact opens.2 closed

end Sys2Proof.Proofs

/-! PROOFS. The lease entries that HOST writes: range, quorum, scrub (R204-R207, R215, R219). -/

namespace Sys2Proof.Machine
open Sys2Proof Sys2Proof.Claims

/-! ### Equations of the entries -/

theorem execYardRangeWrite_of_lease {r : Req} {value : Bytes} {k : Nat} {s : State} (lease : subLease r.index = some k) (own : r.index % 0x40 = 0x03)
    (sub : r.sub = 1 ∨ r.sub = 2) :
    exec (.yardRangeWrite r value) s = .next (writeEntry r { host := true } 2 value (rangeWrite k r.sub value) s) := by
  change execYardRangeWrite r value s = _
  unfold execYardRangeWrite
  rw [lease]
  exact if_pos (by simpa [own] using sub)

theorem execQuorumWrite_of_lease {r : Req} {value : Bytes} {k : Nat} {s : State} (lease : subLease r.index = some k) (own : r.index % 0x40 = 0x10)
    (sub : r.sub = 1 ∨ r.sub = 2 ∨ 16 ≤ r.sub ∧ r.sub ≤ 31) :
    exec (.quorumWrite r value) s =
      .next (writeEntry r { host := true, officer := true } (if r.sub < 16 then 1 else 48) value (quorumSet r k value) s) := by
  change execQuorumWrite r value s = _
  unfold execQuorumWrite
  rw [lease]
  exact if_pos (by simpa [own, or_assoc] using sub)

theorem execLeaseScrub_of_lease {r : Req} {value : Bytes} {k : Nat} {s : State} (lease : subLease r.index = some k) (own : r.index % 0x40 = 0x13)
    (sub : r.sub = 1) :
    exec (.leaseScrub r value) s = .next (writeEntry r { host := true, officer := true } 1 value (scrubWrite r k value) s) := by
  change execLeaseScrub r value s = _
  unfold execLeaseScrub
  rw [lease]
  exact if_pos (by simp [own, sub])

/-! ### The scrub -/

/-- What the emptying of a lease's slots leaves. -/
def State.rooted (s : State) := (s.leases, s.ram, s.yard.slots, s.vault, s.ident)

theorem emptySlot_rooted (i : Nat) (s : State) : (emptySlot i s).rooted = s.rooted := by
  unfold emptySlot
  extract_lets t
  split
  · rfl
  · rfl

/-- The lease's next epoch. -/
def Lease.nextEpoch (l : Lease) : BitVec 16 := if l.epoch = 0xFFFF then 1 else l.epoch + 1

/-- The lease as a scrub leaves it. -/
def Lease.renewed (l : Lease) : Lease := { l.endGrant with epoch := l.nextEpoch }

/-- A scrub gives the lease its next epoch and no grant; its slots are emptied later. -/
theorem scrub_rooted (k : Nat) (s : State) :
    ∃ t : State, scrub k s = deriveRoot k t ∧ t.rooted = (s.setLease k (s.lease k).renewed).rooted := by
  unfold scrub
  extract_lets l wrap src u mine t
  refine ⟨_, rfl, ?_⟩
  have lease : u = s.setLease k (s.lease k).renewed := by
    unfold u Lease.renewed Lease.nextEpoch
    simp only [src, l, wrap]
  rw [← lease]
  unfold t
  split
  · exact Same.foldl (p := State.rooted) (fun v i h => h.same (emptySlot_rooted i v)) mine .rfl
  · refine Same.foldl (p := State.rooted) (fun v i h => ?_) mine .rfl
    split
    · exact h.same rfl
    · exact h

/-- The root that a lease then gets. -/
theorem deriveRoot_leaves (k : Nat) (s : State) :
    (deriveRoot k s).rooted = s.rooted ∧
      ∀ bed, s.vault.bedrock = some bed → (s.rootSlot k, { rootOf bed s.vault.bedGen k (s.lease k).epoch with created := s.frame }) ∈ (deriveRoot k s).yard.next := by
  unfold deriveRoot
  cases s.vault.bedrock with
  | none => exact ⟨rfl, nofun⟩
  | some b =>
    refine ⟨rfl, fun bed h => ?_⟩
    cases h
    exact List.mem_append_right _ (List.mem_singleton_self _)

theorem scrub_leaves (k : Nat) (s : State) :
    ((scrub k s).lease k).epoch = (s.lease k).nextEpoch ∧ ((scrub k s).lease k).grant = none ∧ (scrub k s).ram = s.ram ∧
      (scrub k s).yard.slots = s.yard.slots ∧ ∀ bed, s.vault.bedrock = some bed →
        ∃ f, (s.rootSlot k, { rootOf bed s.vault.bedGen k (s.lease k).nextEpoch with created := f }) ∈ (scrub k s).yard.next := by
  obtain ⟨t, scrubbed, before⟩ := scrub_rooted k s
  obtain ⟨after, root⟩ := deriveRoot_leaves k t
  rw [← scrubbed] at after root
  have lease : ∀ u : State, u.rooted = (s.setLease k (s.lease k).renewed).rooted →
      u.lease k = (s.lease k).renewed := by
    intro u h
    have leases : u.leases = tset {} s.leases k (s.lease k).renewed := congrArg Prod.fst h
    exact (congrArg (tget {} · k) leases).trans (tget_tset_same ..)
  have all := after.trans before
  refine ⟨congrArg Lease.epoch (lease _ all), congrArg Lease.grant (lease _ all), congrArg (·.2.1) all, congrArg (·.2.2.1) all, fun bed held => ?_⟩
  have vault : t.vault = s.vault := congrArg (·.2.2.2.1) before
  have ident : t.ident = s.ident := congrArg (·.2.2.2.2) before
  have slot : t.rootSlot k = s.rootSlot k := by
    unfold State.rootSlot State.nSlot
    rw [ident]
  have mem := root bed (by rw [vault]; exact held)
  rw [slot, vault, lease t before] at mem
  exact ⟨_, mem⟩

end Sys2Proof.Machine

namespace Sys2Proof.Proofs
open Sys2Proof Sys2Proof.Machine Sys2Proof.Claims

/-- Settles O32: each entry answers HOST with its check, and sets the one lease. -/
theorem leaseEntries : Obligations.LeaseEntries := by
  intro r k value s h host lease present l v own sets
  have mine : ∀ j, subLease r.index = some j → j < s.nLease := fun j named => Option.some.inj (lease.symm.trans named) ▸ present
  obtain ⟨b, e, c, seen⟩ := counted_eq' r s
  have free : s.holdsDual k = false →
      (((s.counted r).holdsDual k || decide (ownRole r.ep ≠ .host)) && !((s.counted r).isOfficer r.ep && (s.counted r).inScope k)) = false := by
    intro single
    rw [seen, host]
    simp [show State.holdsDual { s with dic := { s.dic with smbus := b, eps := e, reqs := c } } k = false from single, ownRole]
  have unnoted : ∀ t, s.holdsDual k = false → (if (s.counted r).isOfficer r.ep && ((s.counted r).holdsDual k || decide (ownRole r.ep ≠ .host)) then logOp 3 k 0 [] t else t) = t := by
    intro t single
    rw [seen, host]
    simp [show State.holdsDual { s with dic := { s.dic with smbus := b, eps := e, reqs := c } } k = false from single, ownRole]
  have aside : ∀ x x', x = x' → Aside s ((s.counted r).setLease k x) = s.setLease k x' := by
    rintro x _ rfl
    rw [seen]
    rfl
  have same : (s.counted r).lease k = l := by rw [seen]; rfl
  refine ⟨?base, ?count, ?overlap, fun quorum single => ⟨?m, ?n, ?cred⟩, ?dual, ?scrub, ?named⟩
  case base =>
    intro range sub length ok
    refine answers_host (execYardRangeWrite_of_lease lease range (.inl sub)) h host mine rfl length (by decide) (if_pos ?_) ?_
    · rw [sub, same, seen]
      exact ok
    · rw [sub]
      exact aside_respond (aside _ _ (by rw [same]; rfl))
  case count =>
    intro range sub length ok
    refine answers_host (execYardRangeWrite_of_lease lease range (.inr sub)) h host mine rfl length (by decide) (if_pos ?_) ?_
    · rw [sub, same, seen]
      exact ok
    · rw [sub]
      exact aside_respond (aside _ _ (by rw [same]; rfl))
  case overlap =>
    intro range sub length bad
    refine answers_host (execYardRangeWrite_of_lease lease range (.inr sub)) h host mine rfl length (by decide) (if_neg ?_)
      (aside_respond (aside_counted r s))
    rw [sub, same, seen]
    exact Bool.eq_false_iff.1 bad
  case m =>
    intro sub length low high
    have done := execQuorumWrite_of_lease (value := value) (s := s) lease quorum (.inl sub)
    rw [if_pos (by omega)] at done
    refine answers_host done h host mine rfl length (by decide) ((if_neg (Bool.eq_false_iff.1 (free single))).trans ((if_pos sub).trans
      ((if_pos ?_).trans (congrArg (Prod.mk _) (unnoted _ single))))) ?_
    · rw [same]
      simpa using ⟨low, high⟩
    · exact aside_respond (aside _ _ (by rw [same]))
  case n =>
    intro sub length low high above
    have done := execQuorumWrite_of_lease (value := value) (s := s) lease quorum (.inr (.inl sub))
    rw [if_pos (by omega)] at done
    refine answers_host done h host mine rfl length (by decide) ((if_neg (Bool.eq_false_iff.1 (free single))).trans ((if_neg (by omega)).trans ((if_pos sub).trans
      ((if_pos ?_).trans (congrArg (Prod.mk _) (unnoted _ single)))))) ?_
    · rw [same]
      simpa using ⟨⟨low, high⟩, above⟩
    · exact aside_respond (aside _ _ (by rw [same]))
  case cred =>
    intro low high length creds fits
    have done := execQuorumWrite_of_lease (value := value) (s := s) lease quorum (.inr (.inr ⟨low, high⟩))
    rw [if_neg (by omega)] at done
    have effect : quorumSet r k value (s.counted r) = (.ok, (s.counted r).setLease k { ((s.counted r).lease k).endGrant with creds := creds }) := by
      refine (if_neg (Bool.eq_false_iff.1 (free single))).trans ((if_neg (by omega)).trans ((if_neg (by omega)).trans ?_))
      rw [same]
      dsimp only
      rw [fits]
      exact congrArg (Prod.mk _) (unnoted _ single)
    exact answers_host done h host mine rfl length (by decide) effect (aside_respond (aside _ _ (by rw [same])))
  case dual =>
    intro quorum dual officer sub length
    have done := execQuorumWrite_of_lease (value := value) (s := s) lease quorum (.inl sub)
    rw [if_pos (by omega)] at done
    refine answers_host done h host mine rfl length (by decide) (if_pos ?_) (aside_respond (aside_counted r s))
    rw [seen, host]
    simp [show State.holdsDual { s with dic := { s.dic with smbus := b, eps := e, reqs := c } } k = true from dual,
      show State.isOfficer { s with dic := { s.dic with smbus := b, eps := e, reqs := c } } 1 = false from officer]
  case scrub =>
    intro scrubs sub one idle epoch
    subst one
    have effect : scrubWrite r k [1] (s.counted r) = (.ok, scrub k (s.counted r)) := by
      unfold scrubWrite
      extract_lets asHost
      have asked : asHost = true := by simp [asHost, host, ownRole]
      refine (if_neg (by simp [asked])).trans ((if_neg (by decide)).trans ((if_neg (by decide)).trans ((if_neg ?_).trans ?_)))
      · rw [seen]
        rcases idle with quarantined | unnamed
        · simp [show (State.lease { s with dic := { s.dic with smbus := b, eps := e, reqs := c } } k).quarantined = true from quarantined]
        · simp [show State.namesKey { s with dic := { s.dic with smbus := b, eps := e, reqs := c } } k = false from unnamed]
      · rw [if_pos (by simp [asked])]
    refine answers_host (execLeaseScrub_of_lease lease scrubs sub) h host mine rfl rfl (by decide) effect ?_
    have leaves := scrub_leaves k (s.counted r)
    rw [same] at leaves
    obtain ⟨renewed, none, ram, slots, root⟩ := leaves
    refine ⟨renewed, none, ram.trans (by rw [seen]), slots.trans (by rw [seen]), fun bed held => ?_⟩
    obtain ⟨f, mem⟩ := root bed (by rw [seen]; exact held)
    have slot : (s.counted r).rootSlot k = s.rootSlot k := by rw [seen]; rfl
    have gen : (s.counted r).vault.bedGen = s.vault.bedGen := by rw [seen]
    rw [slot, gen] at mem
    exact ⟨{ rootOf bed s.vault.bedGen k l.nextEpoch with created := f }, mem, rfl, rfl, rfl, rfl, rfl⟩
  case named =>
    intro scrubs sub one active named
    subst one
    have effect : scrubWrite r k [1] (s.counted r) = (.state, s.counted r) := by
      unfold scrubWrite
      extract_lets asHost
      have asked : asHost = true := by simp [asHost, host, ownRole]
      refine (if_neg (by simp [asked])).trans ((if_neg (by decide)).trans ((if_neg (by decide)).trans (if_pos ?_)))
      rw [same]
      rw [seen, show State.namesKey { s with dic := { s.dic with smbus := b, eps := e, reqs := c } } k = true from named, active]
      rfl
    exact answers_host (execLeaseScrub_of_lease lease scrubs sub) h host mine rfl rfl (by decide) effect (aside_respond (aside_counted r s))

end Sys2Proof.Proofs

/-! PROOFS. The entries that set the machine: plans, apply, RTC, release, quota, severities (R50-R54, R25, R26, R366, R367, R396, R444). -/

namespace Sys2Proof.Machine
open Sys2Proof Sys2Proof.Claims

/-! ### Plans -/

theorem tget_putBytes (t : Tbl Nat) (lo : Nat) (b : Bytes) (i : Nat) :
    tget 0xFF (putBytes t lo b) i = if lo ≤ i ∧ i < lo + b.length then (b.getD (i - lo) 0xFF).toNat else tget 0xFF t i := by
  have upto : ∀ n, tget 0xFF ((List.range n).foldl (fun t i => tset 0xFF t (lo + i) (b.getD i 0xFF).toNat) t) i =
      if lo ≤ i ∧ i < lo + n then (b.getD (i - lo) 0xFF).toNat else tget 0xFF t i := by
    intro n
    induction n with
    | zero => exact (if_neg (by omega)).symm
    | succ n ih =>
      rw [List.range_succ, List.foldl_append]
      refine (tget_tset ..).trans ?_
      rw [ih]
      by_cases here : i = lo + n
      · rw [if_pos here, if_pos (by omega), show i - lo = n by omega]
      · rw [if_neg here]
        exact if_congr (by omega) rfl rfl
  exact upto b.length

/-- With no spare bench every shadow takes its plan. -/
theorem overSpares_of_none {spare : Nat → Bool} (none : ∀ i, spare i = false) (old plan : Tbl Nat) : overSpares spare old plan = plan := by
  unfold overSpares
  extract_lets ok
  have all : ∀ e, ok e = true := fun e => by simp [ok, none]
  have kept : plan.filter ok = plan := List.filter_eq_self.2 fun e _ => all e
  have changed : (plan.filter fun e => !ok e) = [] := List.filter_eq_nil_iff.2 fun e _ => by simp [all]
  rw [kept, changed]
  rfl

theorem loadPlans_leaves {s : State} (none : ∀ n, (s.bench n).spare = false) :
    let d := (loadPlans s).dsp
    d.pend = true ∧ d.sltS = s.dsp.planSlt ∧ d.coreS = s.dsp.planCore ∧ d.pageS = s.dsp.planPage ∧ d.policyS = s.dsp.planPol ∧
      d.slt = s.dsp.slt ∧ d.core = s.dsp.core ∧ d.page = s.dsp.page ∧ d.policy = s.dsp.policy := by
  unfold loadPlans dspGo
  dsimp only
  rw [overSpares_of_none fun i => none _, overSpares_of_none fun i => none _, overSpares_of_none fun i => none _]
  split
  next pend => exact ⟨pend, rfl, rfl, rfl, rfl, rfl, rfl, rfl, rfl⟩
  · exact ⟨rfl, rfl, rfl, rfl, rfl, rfl, rfl, rfl, rfl⟩

/-! ### The RTC -/

theorem setRtc_leaves {v : BitVec 47} {s : State} (asked : s.vault.rtcSet = some v) (room : s.vault.staging.length < 64) :
    (setRtc s).vault.rtc = v ∧ (setRtc s).vault.rtcSet = none ∧ ∃ x, (setRtc s).vault.staging = s.vault.staging ++ [x] ∧ x.kind = 3 ∧
      x.time = s.time64 ∧ x.vseq = s.vault.vseq ∧ x.saved = false ∧ x.data = rtcChange s.vault.rtc.toNat v.toNat := by
  have eq : setRtc s = raiseTamper 33 ((stage 3 0xFF 0 (rtcChange s.vault.rtc.toNat v.toNat) false s).modVault fun w => { w with rtc := v, rtcSet := none }) := by
    unfold setRtc
    rw [asked]
  rw [eq, stage_of_room room]
  let x : Staged := { vseq := s.vault.vseq, time := s.time64, kind := 3, source := 0xFF, resp := 0, saved := false, vault := s.inVault,
                      data := rtcChange s.vault.rtc.toNat v.toNat, latched := false }
  generalize staged : State.modVault _ _ = t
  have calm : (raiseTamper 33 t).calm = t.calm := raise_calm .rfl
  refine ⟨(congrArg (fun t : State => t.vault.rtc) calm :).trans ?_, (congrArg (fun t : State => t.vault.rtcSet) calm :).trans ?_, x,
    (congrArg (fun t : State => t.vault.staging) calm :).trans ?_, rfl, rfl, rfl, rfl, rfl⟩
  · rw [← staged]; rfl
  · rw [← staged]; rfl
  · rw [← staged]; rfl

/-! ### Aborts and releases -/

theorem lease_of_leases {s t : State} (h : t.leases = s.leases) (k : Nat) : t.lease k = s.lease k := congrArg (tget ({} : Lease) · k) h

theorem modLease_lease (s : State) (k : Nat) (f : Lease → Lease) : (s.modLease k f).lease k = f (s.lease k) := tget_tset_same ..

theorem endCmd_leases (h st need : Nat) (out : Bytes) (s : State) : (endCmd h st need out s).leases = s.leases := by
  unfold endCmd endCmdAt
  split
  · rfl
  split
  · rfl
  · rfl

theorem abortCmd_leases (h : Nat) (s : State) : (abortCmd h s).leases = s.leases := by
  unfold abortCmd
  split
  · rfl
  extract_lets t c
  refine (endCmd_leases ..).trans ?_
  unfold t
  split
  · rfl
  · rfl

theorem abortCmd_other {h j : Nat} (other : j ≠ h) (s : State) : (abortCmd h s).cmd j = s.cmd j := by
  unfold abortCmd
  split
  · rfl
  extract_lets t c
  have before : t.cmd j = s.cmd j := by unfold t; split <;> rfl
  have set : ∀ u d, (State.setCmd u h d).cmd j = u.cmd j := fun u d => (tfind_tput ..).trans (if_neg other)
  unfold endCmd endCmdAt
  split
  · exact (set ..).trans before
  split
  · exact (set ..).trans before
  · exact (set ..).trans ((set ..).trans before)

/-- An abort ends the command of its handle that has not ended. -/
theorem abortCmd_self {h : Nat} {s : State} {c : Cmd} (named : s.cmd h = some c) :
    ∃ x, (abortCmd h s).cmd h = some x ∧ x.result = some (c.result.getD (0x0009, 0)) := by
  unfold abortCmd
  rw [named]
  dsimp only
  generalize (if c.held = true then s else passHead c.lease c.queue c.len s) = t
  generalize now : ({ c with held := true, a := { c.a with ticks := 0 }, b := c.b.map fun p => { p with ticks := 0 } } : Cmd) = d
  have result : c.result = d.result := by rw [← now]
  have set : (t.setCmd h d).cmd h = some d := tfind_tput_same ..
  unfold endCmd endCmdAt
  rw [set]
  dsimp only
  rw [result]
  split
  next ended =>
    obtain ⟨p, done⟩ := Option.isSome_iff_exists.1 ended
    exact ⟨d, set, by rw [done]; rfl⟩
  next running => exact ⟨_, tfind_tput_same .., by rw [Option.not_isSome_iff_eq_none.1 running]; rfl⟩

/-- A command that an abort has ended stays so through others. -/
theorem abortCmds_keep {h : Nat} (l : List Nat) {s : State} {c : Cmd} (named : s.cmd h = some c) (ended : c.result = some (0x0009, 0)) :
    ∃ x, (forEach l abortCmd s).cmd h = some x ∧ x.result = some (0x0009, 0) := by
  induction l generalizing s c with
  | nil => exact ⟨c, named, ended⟩
  | cons i l ih =>
    by_cases here : h = i
    · subst here
      obtain ⟨x, now, result⟩ := abortCmd_self named
      exact ih now (result.trans (by rw [ended]; rfl))
    · exact ih ((abortCmd_other here s).trans named) ended

/-- Aborts end each of their commands. -/
theorem abortCmds_end {h : Nat} {l : List Nat} (mem : h ∈ l) {s : State} {c : Cmd} (named : s.cmd h = some c) (running : c.result = none) :
    ∃ x, (forEach l abortCmd s).cmd h = some x ∧ x.result = some (0x0009, 0) := by
  induction l generalizing s c with
  | nil => cases mem
  | cons i l ih =>
    by_cases here : h = i
    · subst here
      obtain ⟨x, now, result⟩ := abortCmd_self named
      exact abortCmds_keep l now (result.trans (by rw [running]; rfl))
    · exact ih ((List.mem_cons.1 mem).resolve_left here) ((abortCmd_other here s).trans named) running

theorem mem_of_tfind {α : Type} {t : Tbl α} {i : Nat} {x : α} (h : tfind t i = some x) : (i, x) ∈ t := by
  induction t with
  | nil => cases h
  | cons e t ih =>
    obtain ⟨k, v⟩ := e
    unfold tfind at h
    split at h
    next here => rw [here, ← Option.some.inj h]; exact List.mem_cons_self
    · exact List.mem_cons_of_mem _ (ih h)

theorem mem_cmdsWhere {s : State} {p : Cmd → Bool} {h : Nat} {c : Cmd} (named : s.cmd h = some c) (holds : p c = true) : h ∈ s.cmdsWhere p :=
  List.mem_map.2 ⟨(h, c), List.mem_filter.2 ⟨mem_of_tfind named, holds⟩, rfl⟩

theorem forEach_leases {α : Type} (l : List α) {f : α → State → State} (each : ∀ x t, (f x t).leases = t.leases) (s : State) :
    (forEach l f s).leases = s.leases :=
  Same.forEach (p := State.leases) (fun x u h => h.same (each x u)) .rfl

theorem sendQev_leases (k : Nat) (s : State) : (sendQev k s).leases = s.leases := by
  unfold sendQev sendMsix
  split <;> rfl

theorem sendQev_cmds (k : Nat) (s : State) : (sendQev k s).cmds = s.cmds := by
  unfold sendQev sendMsix
  split <;> rfl

theorem dropHeld_leases (p : Held → Bool) (s : State) : (dropHeld p s).leases = s.leases :=
  Same.foldl (p := State.leases) (s := s) (f := fun t (x : Held) => t.ramClear x.lo x.hi) (fun _ _ h => h) (s.held.filter p) .rfl

theorem setCore_leases (c : Nat) (x : Core) (s : State) : (s.setCore c x).leases = s.leases := rfl

theorem setCore_cmds (c : Nat) (x : Core) (s : State) : (s.setCore c x).cmds = s.cmds := rfl

theorem stopped_leases (k : Nat) (p : Held → Bool) (queues : Tbl Queue) (cores : Tbl Core) (s : State) :
    (sendQev k (dropHeld p { s with queues := queues, cores := cores })).leases = s.leases :=
  (sendQev_leases ..).trans (dropHeld_leases ..)

/-- What a release leaves of a quarantined lease. -/
theorem releaseLease_of_quarantined {k : Nat} {s : State} (quarantined : ((quarantineLease k s).lease k).quarantined = true) :
    ∃ t, releaseLease k [1] s = (.ok, t) ∧
      t.lease k = { (quarantineLease k s).lease k with quarantined := false, released := true, coresDue := true } ∧
      t.cmds = (forEach ((quarantineLease k s).cmdsWhere fun c => c.lease = k && c.result.isNone) abortCmd (quarantineLease k s)).cmds := by
  unfold releaseLease onTrue
  extract_lets u
  rw [show (u.lease k).quarantined = true from quarantined]
  refine ⟨_, (if_neg (by decide)).trans (if_pos (by decide)), ?_, ?_⟩
  · have after : ∀ l v, (sendQev k (forEach l (fun c t => t.setCore c {}) v)).leases = v.leases :=
      fun l v => (sendQev_leases ..).trans (forEach_leases l (f := fun c t => t.setCore c {}) (fun c t => setCore_leases c {} t) v)
    have same : (forEach (u.cmdsWhere fun c => c.lease = k && c.result.isNone) abortCmd u).lease k = u.lease k :=
      lease_of_leases (forEach_leases _ abortCmd_leases u) k
    refine (lease_of_leases (after _ _) k).trans ((modLease_lease ..).trans ?_)
    rw [same]
  · have after : ∀ l v, (sendQev k (forEach l (fun c t => t.setCore c {}) v)).cmds = v.cmds :=
      fun l v => (sendQev_cmds ..).trans (Same.forEach (p := State.cmds) (s := v) (f := fun c t => t.setCore c {}) (fun c t h => h.same (setCore_cmds c {} t)) .rfl)
    exact after _ _

/-- A lease whose quarantine this tick brings is quarantined first. -/
theorem quarantineLease_of_due {k : Nat} {s : State} (due : (s.lease k).qPend ≠ none) :
    ((quarantineLease k s).lease k).quarantined = true ∧ ((quarantineLease k s).lease k).qPend = none := by
  unfold quarantineLease
  extract_lets l s1 s2 s3 queues cores
  rw [if_neg (by rw [Option.isNone_iff_eq_none]; exact due)]
  have leases : (sendQev k (dropHeld (fun x => x.lease = k) { s3 with queues := queues, cores := cores })).leases = s3.leases :=
    stopped_leases ..
  have lease : (sendQev k (dropHeld (fun x => x.lease = k) { s3 with queues := queues, cores := cores })).lease k =
      { (s2.lease k).endGrant with qPend := none, quarantined := true } :=
    (lease_of_leases leases k).trans (modLease_lease ..)
  rw [lease]
  exact ⟨rfl, rfl⟩

theorem quarantineLease_of_none {k : Nat} {s : State} (none : (s.lease k).qPend = none) : quarantineLease k s = s :=
  if_pos (by rw [none]; rfl)

/-! ### Severities -/

theorem nLease_le (s : State) : s.nLease ≤ 64 := by
  unfold State.nLease
  cases s.ident.variant <;> decide

theorem sourceOf_of_present {e index sub : Nat} (at_ : index = 0x6100 + e / 128) (low : sub = e % 128 + 1) (few : e < 1152) :
    sourceOf 0x6100 index sub = some e := by
  subst at_ low
  unfold sourceOf
  rw [if_pos (by simp; omega)]
  congr 1
  omega

/-- An unlocked severity outside the tamper group is stored, and acts later. -/
theorem severityEntry_of_free {e v : Nat} {s : State} (other : isTamper e = false) (few : v < 8) (above : srcFloor e ≤ v % 4) (unlocked : s.flt.lock = false) :
    ∃ t, severityEntry e v s = (.ok, t) ∧ t.flt.sevPend = s.flt.sevPend ++ [(e, BitVec.ofNat 2 v, decide (4 ≤ v))] ∧ t.flt.sev = s.flt.sev := by
  have bit : BitVec.ofNat 2 (v % 4) = BitVec.ofNat 2 v := BitVec.eq_of_toNat_eq (by simp only [BitVec.toNat_ofNat]; omega)
  have pin : decide (v / 4 % 2 = 1) = decide (4 ≤ v) := decide_eq_decide.2 (by omega)
  unfold severityEntry
  extract_lets sev pinned f t
  refine ⟨_, if_neg ?_, ?_⟩
  · simp only [Bool.or_eq_true, decide_eq_true_eq, sev]
    omega
  have stored : t.flt.lock = s.flt.lock ∧ t.flt.sevPend = s.flt.sevPend ∧ t.flt.sev = s.flt.sev := by
    unfold t
    rw [other]
    exact ⟨rfl, rfl, rfl⟩
  obtain ⟨lock, pend, levels⟩ := stored
  rw [if_pos (by rw [lock, unlocked]; simp)]
  refine ⟨?_, levels⟩
  rw [severityLater]
  dsimp only
  rw [pend, bit, ← pin]

theorem small_of_srcPresent {s : State} {e : Nat} (present : s.srcPresent e = true) : e < 1152 := by
  unfold State.srcPresent at present
  simp only [Bool.and_eq_true] at present
  by_contra big
  have none : srcTable e = none := by
    unfold srcTable
    simp only [show ¬ e < 0x300 by omega, show ¬ e < 0x380 by omega, show ¬ e < 0x3E0 by omega, show ¬ e < 0x400 by omega, show ¬ e < 0x410 by omega,
      show ¬ e < 0x438 by omega, show ¬ e < 0x450 by omega, show ¬ e < 0x468 by omega, show ¬ e < 0x480 by omega, if_false]
  rw [none] at present
  exact nomatch present.1.1.1

end Sys2Proof.Machine

namespace Sys2Proof.Proofs
open Sys2Proof Sys2Proof.Machine Sys2Proof.Claims

/-- Settles O45: each entry answers HOST with its check, and sets what it names. -/
theorem configurationEntries : Obligations.ConfigurationEntries := by
  intro r k e d s h host n p
  have noLease : ∀ {i : Nat}, r.index = i → subLease i = none → ∀ k, subLease r.index = some k → k < s.nLease :=
    fun index none k own => nomatch (none.symm.trans (congrArg subLease index).symm).trans own
  have ofLease : ∀ {i : Nat}, k < s.nLease → i < 0x40 → r.index = 0x4000 + 0x40 * k + i → subLease r.index = some k ∧ r.index % 0x40 = i := by
    intro i low small index
    have most := nLease_le s
    rw [index]
    refine ⟨(if_pos (by simp; omega)).trans (congrArg some (by omega)), by omega⟩
  have mine : ∀ {j : Nat}, subLease r.index = some j → j < s.nLease → ∀ i, subLease r.index = some i → i < s.nLease :=
    fun lease present i named => Option.some.inj (lease.symm.trans named) ▸ present
  obtain ⟨b, ep, c, seen⟩ := counted_eq' r s
  have low : ∀ x : Byte, (x.toNat = 0xFF ∨ x.toNat < s.nLease) → (s.counted r).entryOk x.toNat = true := by
    intro x ok
    rw [seen]
    exact (Bool.or_eq_true_iff ..).2 (ok.imp (decide_eq_true ·) (decide_eq_true ·))
  refine ⟨?policy, ?page, ?busy, ?apply, ?applying, ?rtc, ?rtcNow, ?rtcRange, ?release, ?quota, ?severity⟩
  case policy =>
    intro index sub length idle few
    have done : exec (.slotPlanWrite r d) s = .next (writeEntry r { host := true } 8 d (planWrite r.index (r.sub - 1) d) s) := by
      refine (if_neg (by simp [index])).trans ((if_neg (by simp [index])).trans (if_pos (by simp [index, sub])))
    refine answers_host done h host (noLease index (by decide)) rfl length (by decide)
      ((if_neg ?_).trans ((if_neg (by simp [index])).trans ((if_neg (by simp [index])).trans ((if_pos index).trans (if_pos ?_))))) ?_
    · rw [seen]; exact Bool.eq_false_iff.1 idle
    · rw [seen]; exact few
    · refine aside_respond ?_
      rw [seen]
      rfl
  case page =>
    intro index one few length idle ok none
    have bench : (1 ≤ r.sub && r.sub - 1 < s.nBench) = true := by simp; omega
    have done : exec (.slotPlanWrite r d) s = .next (writeEntry r { host := true } 56 d (planWrite r.index (r.sub - 1) d) s) :=
      (if_neg (by simp [index])).trans ((if_neg (by simp [index])).trans ((if_neg (by simp [index])).trans (if_pos (by rw [index]; exact bench))))
    refine answers_host done h host (noLease index (by decide)) rfl length (by decide)
      ((if_neg ?_).trans ((if_neg (by simp [index])).trans ((if_neg (by simp [index])).trans ((if_neg (by simp [index])).trans (if_pos ?_))))) ?_
    · rw [seen]; exact Bool.eq_false_iff.1 idle
    · rw [Bool.and_eq_true, List.all_eq_true]
      refine ⟨fun x mem => low x (ok x mem), ?_⟩
      have planCore : (s.counted r).dsp.planCore = [] := by rw [seen]; exact none
      rw [planCore]
      rfl
    · have dsp : (s.counted r).dsp = s.dsp := by rw [seen]
      rw [dsp]
      refine ⟨rfl, rfl, fun i => (tget_putBytes ..).trans ?_⟩
      rw [length]
      by_cases here : 64 * (r.sub - 1) ≤ i ∧ i < 64 * (r.sub - 1) + 56
      · rw [if_pos here, if_pos here, List.getD_eq_getElem _ _ (by omega), List.getD_eq_getElem _ _ (by omega)]
      · rw [if_neg here, if_neg here]
  case busy =>
    intro index sub length pend
    have done : exec (.slotPlanWrite r d) s = .next (writeEntry r { host := true } 8 d (planWrite r.index (r.sub - 1) d) s) :=
      (if_neg (by simp [index])).trans ((if_neg (by simp [index])).trans (if_pos (by simp [index, sub])))
    refine answers_host done h host (noLease index (by decide)) rfl length (by decide) (if_pos ?_) (aside_respond (aside_counted r s))
    rw [seen]
    exact pend
  case apply =>
    intro index sub one rpl idle spares
    subst one
    have done : exec (.dictApply r [1]) s = .next (writeEntry r _ 1 [1] _ s) := if_neg (by simp [index, sub])
    refine answers_host done h host (noLease index (by decide)) rfl rfl (by decide)
      ((if_neg ?_).trans ((if_pos rfl).trans (if_neg ?_))) ?_
    · rw [seen]; exact Bool.eq_false_iff.1 rpl
    · rw [seen]; exact Bool.eq_false_iff.1 idle
    · have leaves := loadPlans_leaves (s := s.counted r) (by rw [seen]; exact spares)
      have dsp : (s.counted r).dsp = s.dsp := by rw [seen]
      rw [dsp] at leaves
      exact ⟨rfl, leaves⟩
  case applying =>
    intro index sub one pend
    subst one
    have done : exec (.dictApply r [1]) s = .next (writeEntry r _ 1 [1] _ s) := if_neg (by simp [index, sub])
    have effect : ∀ t : State, t.dsp.applyPend = true → (if t.dsp.rplPend then (DStat.busy, t) else onTrue [1] (fun s =>
      if s.dsp.applyPend then (DStat.busy, s)
      else
        let late := s.dsp.pend && s.dsp.captured
        let t := loadPlans s
        (.ok, { t with dsp := { t.dsp with applyPend := true, applyLate := late } })) t) = (DStat.busy, t) := by
      intro t pend
      split
      · rfl
      · exact (if_pos rfl).trans (if_pos pend)
    exact answers_host done h host (noLease index (by decide)) rfl rfl (by decide) (effect _ (by rw [seen]; exact pend)) (aside_respond (aside_counted r s))
  case rtc =>
    intro index sub length claimed few
    have done : exec (.rtcWrite r d) s = .next (writeEntry r _ 8 d _ s) := if_neg (by simp [index, sub])
    refine answers_host done h host (noLease index (by decide)) (by simp [claimed]) length (by decide) (if_neg (by omega)) (aside_respond ?_)
    rw [seen]
    rfl
  case rtcNow => exact fun v asked room => setRtc_leaves asked room
  case rtcRange =>
    intro index sub length claimed many
    have done : exec (.rtcWrite r d) s = .next (writeEntry r _ 8 d _ s) := if_neg (by simp [index, sub])
    exact answers_host done h host (noLease index (by decide)) (by simp [claimed]) length (by decide) (if_pos many) (aside_respond (aside_counted r s))
  case release =>
    intro present index sub one
    subst one
    obtain ⟨lease, own⟩ := ofLease present (by decide) index
    have done : exec (.leaseRelease r [1]) s = .next (writeEntry r { host := true } 1 [1] (releaseLease k [1]) s) := by
      change execLeaseRelease r [1] s = _
      unfold execLeaseRelease
      rw [lease]
      exact if_neg (by simp [own, sub])
    have same : (s.counted r).lease k = s.lease k := by rw [seen]; rfl
    refine ⟨fun due => ?_, fun quarantined none => ?_, fun free none => ?_⟩
    · obtain ⟨quarantined, gone⟩ := quarantineLease_of_due (s := s.counted r) (k := k) (by rw [same]; exact due)
      obtain ⟨t, effect, released, -⟩ := releaseLease_of_quarantined quarantined
      refine answers_host done h host (mine lease present) rfl rfl (by decide) effect ?_
      have here : (respond (s.epVersion r.ep) r 3 .ok [] t).lease k = t.lease k := rfl
      rw [here, released]
      exact ⟨rfl, rfl, gone⟩
    · have still : quarantineLease k (s.counted r) = s.counted r := quarantineLease_of_none (by rw [same]; exact none)
      obtain ⟨t, effect, released, cmds⟩ := releaseLease_of_quarantined (s := s.counted r) (k := k) (by rw [still, same]; exact quarantined)
      rw [still] at released cmds
      refine answers_host done h host (mine lease present) rfl rfl (by decide) effect ⟨released.trans (by rw [same]), fun i x named owner running => ?_⟩
      have cmd : (s.counted r).cmd i = some x := by rw [seen]; exact named
      obtain ⟨y, now, ended⟩ := abortCmds_end (mem_cmdsWhere (p := fun c => c.lease = k && c.result.isNone) cmd (by simp [owner, running])) cmd running
      exact ⟨y, (congrArg (tfind · i) cmds).trans now, ended⟩
    · have still : quarantineLease k (s.counted r) = s.counted r := quarantineLease_of_none (by rw [same]; exact none)
      refine answers_host done h host (mine lease present) rfl rfl (by decide) ((if_pos ?_).trans (congrArg (Prod.mk _) still)) (aside_respond (aside_counted r s))
      rw [still, same, free]
      rfl
  case quota =>
    intro present index sub length
    obtain ⟨lease, own⟩ := ofLease present (by decide) index
    have done : exec (.stagingQuotaWrite r d) s = .next (writeEntry r { host := true } 2 d (quotaWrite k n) s) := by
      change execStagingQuotaWrite r d s = _
      unfold execStagingQuotaWrite
      rw [lease]
      exact if_neg (by simp [own, sub])
    have same : (s.counted r).lease k = s.lease k := by rw [seen]; rfl
    have sum : (s.counted r).quotaSum = s.quotaSum := by rw [seen]; rfl
    refine ⟨fun fits => ?_, fun beyond => ?_⟩
    · refine answers_host done h host (mine lease present) rfl length (by decide) (if_neg (by rw [sum, same]; omega)) ⟨?_, fun j other => ?_⟩
      · exact (modLease_lease (s.counted r) k fun l => { l with quota := n }).trans (by rw [same])
      · exact (tget_tset_ne _ _ _ other).trans (by rw [seen]; rfl)
    · exact answers_host done h host (mine lease present) rfl length (by decide) (if_pos (by rw [sum, same]; omega)) (aside_respond (aside_counted r s))
  case severity =>
    intro index sub present claimed length few other unlocked
    have done : exec (.severityWrite r d) s = .next (writeEntry r { host := s.lcs.state.beforeField, officer := s.lcs.state = .field } 1 d (severityEntry e n) s) := by
      change execSeverityWrite r d s = _
      unfold execSeverityWrite
      rw [sourceOf_of_present index sub (small_of_srcPresent present)]
      exact if_neg (by rw [present]; decide)
    have free : ∀ k, subLease r.index = some k → k < s.nLease := by
      intro k own
      unfold subLease at own
      rw [if_neg (by simp only [index, Bool.and_eq_true, decide_eq_true_eq]; omega)] at own
      cases own
    have host' : ({ host := s.lcs.state.beforeField, officer := s.lcs.state = .field } : Rights).host = true := by rw [claimed]; rfl
    refine ⟨fun above => ?_, fun below => ?_⟩
    · have flt : (s.counted r).flt = s.flt := by rw [seen]
      obtain ⟨t, effect, leaves⟩ := severityEntry_of_free (s := s.counted r) other few above (by rw [flt]; exact unlocked)
      rw [flt] at leaves
      exact answers_host done h host free host' length (by decide) effect leaves
    · exact answers_host done h host free host' length (by decide) (if_pos (by simp; omega)) (aside_respond (aside_counted r s))

end Sys2Proof.Proofs

/-! PROOFS. Grants: their collection, custodians, and end (R208-R214, R336). -/

namespace Sys2Proof.Machine
open Sys2Proof Sys2Proof.Claims

/-! ### The entries -/

theorem execGrantStart_of_lease {r : Req} {value : Bytes} {k : Nat} {s : State} (lease : subLease r.index = some k) (own : r.index % 0x40 = 0x11)
    (sub : r.sub = 4) : exec (.grantStart r value) s = .next (writeEntry r { host := true, lease := true } 1 value (grantStart k value) s) := by
  change execGrantStart r value s = _
  unfold execGrantStart
  rw [lease]
  exact if_pos (by simp [own, sub])

theorem execGrantRevoke_of_lease {r : Req} {value : Bytes} {k : Nat} {s : State} (lease : subLease r.index = some k) (own : r.index % 0x40 = 0x11)
    (sub : r.sub = 5) : exec (.grantRevoke r value) s = .next (writeEntry r { host := true, lease := true } 1 value (grantRevoke k value) s) := by
  change execGrantRevoke r value s = _
  unfold execGrantRevoke
  rw [lease]
  exact if_pos (by simp [own, sub])

/-- The collection that a request of a lease starts. -/
def State.grantAsked (s : State) (k : Nat) : Collect :=
  let l := s.lease k
  { purpose := 0, lease := k, counted := [], endFrame := s.frame + s.dic.window, scope := l.reqScope.toNat, uses := l.reqUses, frames := l.reqFrames }

/-- A start with a request in range, as far as the collection decides. -/
theorem grantStart_of_request {k : Nat} {s : State} (configured : (s.lease k).configured = true) (some : 1 ≤ (s.lease k).reqUses)
    (few : (s.lease k).reqUses ≤ 65535) (long : 1 ≤ (s.lease k).reqFrames) (short : (s.lease k).reqFrames ≤ 16777215) :
    grantStart k [1] s = if s.cust.collect.isSome then (.busy, s) else
      (.ok, { s with cust := { s.cust with collect := Option.some (s.grantAsked k) } }) := by
  unfold grantStart
  extract_lets l c
  refine (if_neg (by decide)).trans ((if_neg (by decide)).trans ((if_neg ?_).trans ((if_neg ?_).trans rfl)))
  · rw [show l.configured = true from configured]
    decide
  · simp only [Bool.or_eq_true, decide_eq_true_eq, l]
    omega

/-! ### Custodians -/

/-- The state with the session of the contact port authenticated. -/
def State.authenticated (s : State) (key : Bytes) : State := s.modSess 0 fun y => { y with verifyAt := none, authed := true, key := key }

section
variable {t0 : Nat} {shared : Bytes} {fresh : List Nat} {s : State} (asked : (s.sess 0).verifyAt = some t0) (pass : s.flg.pass = none)
  (upd : s.pfl.upd = none) (due : max t0 s.flg.idleAt + 40 ≤ s.pw.now) (running : s.running = true)
  (verified : Config.edVerify ((s.sess 0).cred.drop 16) (s.authMessage (s.sess 0)) (s.sess 0).sig = true)
  (agreed : Config.agree 2 (s.sess 0).ephPriv (s.sess 0).cardEph = some shared)
include asked pass upd due running verified agreed

/-- The verification of a custodian ends once the island's engines have had their 40 tk. -/
theorem custodianCounted_of_verified : exec (.custodianCounted 0 fresh) s = .next
    (let t := s.authenticated (fixLen 32 (Config.macRaw 8 32 shared (ascii "SVRL-CSES") (s.sess 0).chal))
     if t.cust.collect.isSome && ((s.sess 0).purpose, (s.sess 0).lease) = t.authPurpose then countCustodian (s.sess 0).cred fresh t else t) := by
  have done : s.islandDone t0 40 = true := by simp [State.islandDone, pass, upd, due]
  have finish : exec (.custodianCounted 0 fresh) s = .next (finishAuth 0 fresh s) := by
    change execCustodianCounted 0 fresh s = _
    unfold execCustodianCounted
    rw [asked]
    exact if_neg (by simp [running, done])
  rw [finish]
  unfold finishAuth
  dsimp only
  rw [verified, agreed]
  rfl

end

section
variable {c : Collect} {pos : Nat} {cred : Bytes} {fresh : List Nat} {s : State} (open_ : s.cust.collect = some c) (position : s.position cred = some pos)
  (new : pos ∉ c.counted)
include open_ position new

theorem countCustodian_of_new : countCustodian cred fresh s =
    if s.threshold c ≤ c.counted.length + 1 then formGrant { c with counted := c.counted ++ [pos] } fresh s
    else s.modCust fun u => { u with collect := some { c with counted := c.counted ++ [pos] } } := by
  unfold countCustodian
  rw [open_, position]
  refine (if_neg (by simpa using new)).trans ?_
  dsimp only
  rw [List.length_append]
  rfl

end

/-- The grant that the last custodian forms. -/
theorem formGrant_leaves {c : Collect} (grant : c.purpose = 0) (fresh : List Nat) (s : State) : (formGrant c fresh s).cust.collect = none ∧
    ((formGrant c fresh s).lease c.lease).grant = some { scope := c.scope, uses := c.uses, endFrame := s.frame + c.frames, fromTick := s.pw.now + 1 } := by
  unfold formGrant
  extract_lets t
  have calm : t.calm = (s.modCust fun u => { u with collect := none }).calm := raise_calm .rfl
  rw [if_pos grant]
  refine ⟨(congrArg (fun t : State => t.cust.collect) calm :), (congrArg Lease.grant (modLease_lease ..)).trans ?_⟩
  have frame : t.frame = s.frame := (congrArg (fun t : State => t.frame) calm :)
  have now : t.pw.now = s.pw.now := (congrArg (fun t : State => t.pw.now) calm :)
  rw [frame, now]

end Sys2Proof.Machine

namespace Sys2Proof.Proofs
open Sys2Proof Sys2Proof.Machine Sys2Proof.Claims

/-- Settles O33: the start and the revocation are entries; a verified custodian counts in the collection that stands, and the grant is formed last. -/
theorem grants : Obligations.Grants := by
  intro r k value fresh s l start x asked
  refine ⟨?start, ?custodian, ?window, ?ends, ?revoke⟩
  case start =>
    intro own sub one configured some few long short
    subst one
    have same : ∀ r, (Machine.State.counted s r).lease k = l := by
      intro r
      obtain ⟨b, e, c, seen⟩ := counted_eq' r s
      rw [seen]
      rfl
    have effect := grantStart_of_request (k := k) (s := s.counted r) (by rw [same]; exact configured) (by rw [same]; exact some) (by rw [same]; exact few)
      (by rw [same]; exact long) (by rw [same]; exact short)
    obtain ⟨b, e, c, seen⟩ := counted_eq' r s
    have mine : subLease r.index = Option.some k → k < s.nLease → ∀ j, subLease r.index = Option.some j → j < s.nLease :=
      fun lease present j named => Option.some.inj (lease.symm.trans named) ▸ present
    refine ⟨fun free h host lease present => ?_, fun busy h host lease present => ?_⟩
    · refine answers_host (execGrantStart_of_lease lease own sub) h host (mine lease present) rfl rfl (by decide) (effect.trans (if_neg ?_)) (aside_respond ?_)
      · rw [seen]
        exact Option.not_isSome_iff_eq_none.2 free
      · rw [seen]
        rfl
    · refine answers_host (execGrantStart_of_lease lease own sub) h host (mine lease present) rfl rfl (by decide) (effect.trans (if_pos ?_))
        (aside_respond (aside_counted r s))
      rw [seen]
      exact Option.isSome_iff_ne_none.2 busy
  case custodian =>
    intro t0 shared asked pass upd due running verified agreed key
    have counts := custodianCounted_of_verified (fresh := fresh) asked pass upd due running verified agreed
    change _ = Host.Outcome.next (if (s.authenticated key).cust.collect.isSome && (x.purpose, x.lease) = (s.authenticated key).authPurpose
      then countCustodian x.cred fresh (s.authenticated key) else s.authenticated key) at counts
    refine ⟨fun none => ?_, fun c pos open_ purpose position new => ?_⟩
    · have alone : (s.authenticated key).cust.collect.isSome = false := by
        rw [show (s.authenticated key).cust.collect = Option.none from none]
        rfl
      rw [alone] at counts
      exact ⟨_, counts, rfl, rfl, rfl⟩
    · have open' : (s.authenticated key).cust.collect = some c := open_
      have purpose' : (x.purpose, x.lease) = (s.authenticated key).authPurpose := purpose
      rw [if_pos (by rw [open', ← purpose']; simp), countCustodian_of_new open' (show (s.authenticated key).position x.cred = some pos from position) new] at counts
      refine ⟨fun few => ?_, fun grant last => ?_⟩
      · rw [if_neg (show ¬ (s.authenticated key).threshold c ≤ c.counted.length + 1 from Nat.not_le.2 few)] at counts
        exact ⟨_, counts, rfl, rfl⟩
      · rw [if_pos (show (s.authenticated key).threshold c ≤ c.counted.length + 1 from last)] at counts
        exact ⟨_, counts, formGrant_leaves (c := { c with counted := c.counted ++ [pos] }) grant fresh (s.authenticated key)⟩
  case window =>
    intro c open_ ends
    have done : exec .grantWindowExpiry s = .next (raiseCust 7 { s with cust := { s.cust with collect := none } }) := by
      change execGrantWindowExpiry s = _
      unfold execGrantWindowExpiry
      rw [open_]
      exact if_pos (decide_eq_true ends)
    have calm : (raiseCust 7 { s with cust := { s.cust with collect := none } }).calm = ({ s with cust := { s.cust with collect := none } } : State).calm := raise_calm .rfl
    exact ⟨_, done, (congrArg (fun t : State => t.cust.collect) calm :), (congrArg State.ram calm :)⟩
  case ends =>
    intro g held
    have done : exec (.grantExpiry k) s = if s.reachesFrame g.endFrame then .next (s.modLease k Lease.endGrant) else .next s := by
      change execGrantExpiry k s = _
      unfold execGrantExpiry
      rw [held]
    exact ⟨fun ends => done.trans (if_pos (decide_eq_true ends)), fun stands => done.trans (if_neg (by simpa [State.reachesFrame] using stands))⟩
  case revoke =>
    intro h host lease present own sub one
    subst one
    have mine : ∀ j, subLease r.index = some j → j < s.nLease := fun j named => Option.some.inj (lease.symm.trans named) ▸ present
    refine answers_host (execGrantRevoke_of_lease lease own sub) h host mine rfl rfl (by decide)
      ((if_neg (by decide)).trans (if_neg (by decide))) (aside_respond ?_)
    obtain ⟨b, e, c, seen⟩ := counted_eq' r s
    rw [seen]
    rfl

end Sys2Proof.Proofs

/-! PROOFS. A key that is written into the yard (R194, R198, R216); officers' ceremonies and key loading (R217-R222, R338). -/

namespace Sys2Proof.Machine
open Sys2Proof Sys2Proof.Claims

theorem yardNext_mem (i : Nat) (x : Slot) (s : State) : (i, x) ∈ (yardNext i x s).yard.next :=
  List.mem_append_right _ (List.mem_singleton_self _)

/-- What waits at a slot stands beside what comes for another. -/
theorem yardNext_keeps {i j : Nat} {x y : Slot} {s : State} (other : j ≠ i) (h : (i, y) ∈ s.yard.next) : (i, y) ∈ (yardNext j x s).yard.next :=
  List.mem_append_left _ (List.mem_filter.2 ⟨h, by simpa using other.symm⟩)

theorem storeKey_next (i : Nat) (x : Slot) (s : State) : (storeKey i x s).yard.next = s.yard.next :=
  Same.foldl (p := fun t : State => t.yard.next) (s := s) (f := fun t j =>
    storeLater (i + j + 1) (some { x.cont (j + 1) with value := slice x.value (96 * (j + 1)) 96 }) t) (fun _ _ h => h) _ (show Same (fun t : State => t.yard.next) s (storeLater i (some x) s) from rfl)

theorem yardNexts_keep {i : Nat} {y : Slot} (f : Nat → Slot) (l : List Nat) {s : State} (h : (i, y) ∈ s.yard.next) :
    (i, y) ∈ (l.foldl (fun t j => yardNext (i + j + 1) (f j) t) s).yard.next := by
  induction l generalizing s with
  | nil => exact h
  | cons j l ih => exact ih (yardNext_keeps (by omega) h)

/-- What a key that is written leaves at its target. -/
theorem writeUnder_next (k target parent : Nat) (p : Slot) (type len : Nat) (attr : BitVec 16) (value : Bytes) (pending yOdd : Bool) (s : State) :
    ∃ y, (target, y) ∈ (writeUnder k target parent p type len attr value pending yOdd s).2.yard.next ∧ y.type = type ∧ y.value = value ∧
      y.parent = parent ∧ y.gen = (s.slot target).gen + 1 ∧ y.pending = pending ∧ y.owner = if k = 64 then 0x40 else k := by
  unfold writeUnder
  extract_lets g a x run s1 s2 s3 w s4
  have m1 : (target, x) ∈ s1.yard.next := yardNext_mem ..
  have m2 : (target, x) ∈ s2.yard.next := yardNexts_keep _ _ m1
  have m3 : (target, x) ∈ s3.yard.next := by
    unfold s3
    split
    · rw [storeKey_next]
      exact m2
    · exact m2
  have m4 : (target, x) ∈ s4.yard.next := by
    unfold s4
    split
    · exact m3
    · exact m3
  exact ⟨x, m4, rfl, rfl, rfl, rfl, rfl, rfl⟩

/-- A key that is written waits at its target, with the next generation. -/
theorem writeUnder_keyAt (k target parent : Nat) (p : Slot) (type len : Nat) (attr : BitVec 16) (value : Bytes) (pending yOdd : Bool) (s : State) :
    KeyAt k target type value pending s (writeUnder k target parent p type len attr value pending yOdd s).2 ∧
      (writeUnder k target parent p type len attr value pending yOdd s).1 = mkRef target ((s.slot target).gen + 1) := by
  obtain ⟨y, waits, typed, valued, -, gen, checked, owned⟩ := writeUnder_next k target parent p type len attr value pending yOdd s
  exact ⟨⟨y, waits, typed, valued, gen, checked, owned⟩, rfl⟩

/-- Steps that change the yard alone change it alone together. -/
theorem foldl_yard {α : Type} {f : State → α → State} (each : ∀ t x, ∃ y, f t x = { t with yard := y }) (l : List α) (s : State) :
    ∃ y, l.foldl f s = { s with yard := y } := by
  induction l generalizing s with
  | nil => exact ⟨s.yard, rfl⟩
  | cons x l ih =>
    obtain ⟨y, one⟩ := each s x
    rw [List.foldl_cons, one]
    obtain ⟨z, rest⟩ := ih { s with yard := y }
    exact ⟨z, rest⟩

/-- Beside the yard a key that is written changes nothing. -/
theorem writeUnder_yard (k target parent : Nat) (p : Slot) (type len : Nat) (attr : BitVec 16) (value : Bytes) (pending yOdd : Bool) (s : State) :
    ∃ y, (writeUnder k target parent p type len attr value pending yOdd s).2 = { s with yard := y } := by
  unfold writeUnder
  extract_lets g a x run s1 s2 s3 w s4
  have h1 : ∃ y, s1 = { s with yard := y } := ⟨_, rfl⟩
  have h2 : ∃ y, s2 = { s with yard := y } := by
    obtain ⟨y, h1⟩ := h1
    unfold s2
    rw [h1]
    obtain ⟨z, h2⟩ := foldl_yard (f := fun t j => yardNext (target + j + 1) (x.cont (j + 1)) t) (fun _ _ => ⟨_, rfl⟩) (List.range (typeRun type - 1)) { s with yard := y }
    exact ⟨z, h2⟩
  have h3 : ∃ y, s3 = { s with yard := y } := by
    obtain ⟨y, h2⟩ := h2
    unfold s3
    rw [h2]
    split
    · obtain ⟨z, h3⟩ := foldl_yard (f := fun t j => storeLater (target + j + 1) (some { x.cont (j + 1) with value := slice x.value (96 * (j + 1)) 96 }) t)
        (fun _ _ => ⟨_, rfl⟩) (List.range (typeRun x.type - 1)) (storeLater target (some x) { s with yard := y })
      exact ⟨z, h3⟩
    · exact ⟨y, rfl⟩
  obtain ⟨y, h3⟩ := h3
  unfold s4 w
  rw [h3]
  split
  · exact ⟨_, rfl⟩
  · exact ⟨_, rfl⟩

theorem writeKey_keyAt (k target parent type len : Nat) (attr : BitVec 16) (value : Bytes) (pending yOdd : Bool) (s : State) :
    KeyAt k target type value pending s (writeKey k target parent type len attr value pending yOdd s).2 :=
  (writeUnder_keyAt ..).1

end Sys2Proof.Machine

/-! ### Ceremonies -/

namespace Sys2Proof.Machine
open Sys2Proof Sys2Proof.Claims

/-- An entry of no lease and no lease's own shows itself to every endpoint. -/
theorem visible_common {r : Req} {s : State} (none : subLease r.index = none) (other : r.index ≠ 0x9011) : s.hidden r = false := by
  unfold State.hidden
  rw [none]
  split
  · simp [other]
  · rfl
  · contradiction
  · contradiction

theorem allowed_officer {s : State} {ep : Nat} {x : Rights} (officer : s.isOfficer ep = true) (may : x.officer = true) : s.allowed ep x = true := by
  simp [State.allowed, officer, may]

/-- What the note of an officer's action leaves. -/
theorem officerAction_leaves (r : Req) (own : Bool) (st : DStat) (s : State) :
    ∃ c : Option Ceremony, (s.cust.ceremony = none → c = none) ∧ officerAction r own st s = { s with cust := { s.cust with ceremony := c } } := by
  unfold officerAction
  split
  · exact ⟨_, fun none => by rw [none]; rfl, rfl⟩
  · exact ⟨_, id, rfl⟩

/-- An officer's WRITE is answered with what its entry says, and its time is noted in the ceremony. -/
theorem answers_officer {r : Req} {rights : Rights} {len : Nat} {value : Bytes} {f : State → DStat × State} {st : DStat} {s t : State} {p : State → Prop}
    {o : Res} (done : o = .next (writeEntry r rights len value f s)) (h : Accepted r 3 s) (visible : s.hidden r = false) (officer : s.isOfficer r.ep = true)
    (may : rights.officer = true) (length : value.length = len) (short : len ≤ 256) (effect : f (s.counted r) = (st, t))
    (leaves : ∀ c, (t.cust.ceremony = none → c = none) → p (respond (s.epVersion r.ep) r 3 st [] { t with cust := { t.cust with ceremony := c } })) :
    Answers r 3 st [] s p o := by
  obtain ⟨c, none, noted⟩ := officerAction_leaves r (s.allowed r.ep { rights with officer := false }) st t
  refine answers_respond ?_ (leaves c none)
  rw [done, writeEntry_of_allowed h visible (allowed_officer officer may) length short, effect, noted]

section
variable {c : Ceremony} {s : State} (open_ : s.cust.ceremony = some c) (reason : Nat)
include open_

theorem closeCeremony_leaves : ∃ j : CRec, j.kind = 7 ∧ j.ref = c.number ∧ j.record = c.record s.time64 reason ∧
    (closeCeremony reason s).cust = { s.cust with journal := s.cust.journal ++ [j], ceremony := none, bind := none, keyLoad := none, pausing := none } ∧
      (closeCeremony reason s).ram = s.ram := by
  unfold closeCeremony
  rw [open_]
  exact ⟨{ seq := s.cust.newest + 1, time := s.time64, kind := 7, ref := c.number, record := c.record s.time64 reason }, rfl, rfl, rfl, rfl, rfl⟩

end

/-- A key loading that is not generated starts with a value of zeros. -/
theorem beginKeyLoad_leaves {q : KeyLoadReq} (given : q.gen = false) (s : State) : ∃ x : KeyLoad, x.lease = q.lease ∧ x.target = q.target ∧ x.type = q.type ∧
    x.c = q.c ∧ x.done = [] ∧ x.value = List.replicate (typeValue q.type q.len) 0 ∧ beginKeyLoad q s = s.modCust fun u => { u with keyLoad := some x } := by
  unfold beginKeyLoad
  rw [given]
  exact ⟨_, rfl, rfl, rfl, rfl, rfl, rfl, rfl⟩

/-- A key loading whose components are there ends with the key at its target. -/
theorem endKeyLoad_leaves {k : KeyLoad} {s : State} (fresh : s.orphan k.parent = false)
    (free : s.checkTarget k.lease k.target 1 k.parent (hasAttr k.attr aPERSIST) = 0) :
    (endKeyLoad k s).cust.keyLoad = none ∧ KeyAt k.lease k.target k.type k.value false s (endKeyLoad k s) := by
  let u : State := s.modCust fun v => { v with keyLoad := none }
  have ends : endKeyLoad k s = logOp 2 k.lease (writeKey k.lease k.target k.parent k.type k.len k.attr k.value false false u).1.toNat (checkValue k.type k.value)
      (writeKey k.lease k.target k.parent k.type k.len k.attr k.value false false u).2 := by
    refine if_neg ?_
    rw [show u.checkTarget k.lease k.target 1 k.parent (hasAttr k.attr aPERSIST) = 0 from free, show u.orphan k.parent = false from fresh]
    decide
  rw [ends]
  obtain ⟨y, yard⟩ := writeUnder_yard k.lease k.target k.parent (u.slot k.parent) k.type k.len k.attr k.value false false u
  exact ⟨congrArg (fun t : State => t.cust.keyLoad) yard, writeKey_keyAt (s := u) ..⟩

end Sys2Proof.Machine

namespace Sys2Proof.Proofs
open Sys2Proof Sys2Proof.Machine Sys2Proof.Claims

/-- Settles O34: the start is an entry; each end journals the ceremony's record and takes its binding and its key loading with it. -/
theorem ceremonies : Obligations.Ceremonies := by
  intro r ep value s asked
  refine ⟨?start, ?close, ?begins, ?complete⟩
  case start =>
    intro h main index sub length field some few free none scope
    have done : exec (.ceremonyStart r value) s = .next (writeEntry r { host := true, bmc := true } 8 value _ s) := if_neg (by simp [index, sub])
    have visible : s.hidden r = false := visible_common (by rw [index]; decide) (by omega)
    obtain ⟨b, e, c, seen⟩ := counted_eq' r s
    refine answers_own done h visible (allowed_main main rfl rfl) length (by decide) ((if_neg ?_).trans ((if_neg ?_).trans (if_neg ?_))) (aside_respond ?_)
    · rw [seen]
      simp [field, some, few]
    · rw [seen]
      simp [free, none]
    · rw [seen]
      exact Nat.not_le.2 scope
    · rw [seen]
      rfl
  case close =>
    intro c open_ closed
    have leaves : ∀ reason, closed reason (closeCeremony reason s) := by
      intro reason
      obtain ⟨j, kind, ref, record, cust, ram⟩ := closeCeremony_leaves open_ reason
      exact ⟨congrArg Cust.ceremony cust, congrArg Cust.bind cust, congrArg Cust.keyLoad cust, ram, j, congrArg Cust.journal cust, kind, ref, record⟩
    have timeout : exec .ceremonyTimeout s = if s.reachesFrame (c.lastFrame + 458752) then .next (closeCeremony 1 s) else .next s := by
      change execCeremonyTimeout s = _
      unfold execCeremonyTimeout
      rw [open_]
    refine ⟨fun h officer index sub one => ?_, fun ends => ⟨_, timeout.trans (if_pos (decide_eq_true ends)), leaves 1⟩,
      fun stands => timeout.trans (if_neg (by simpa [State.reachesFrame] using stands))⟩
    subst one
    have done : exec (.ceremonyClose r [1]) s = .next (writeEntry r { officer := true } 1 [1] _ s) := if_neg (by simp [index, sub])
    have visible : s.hidden r = false := visible_common (by rw [index]; decide) (by omega)
    obtain ⟨b, e, n, seen⟩ := counted_eq' r s
    obtain ⟨j, kind, ref, record, cust, ram⟩ := closeCeremony_leaves (s := s.counted r) (c := c) (by rw [seen]; exact open_) 0
    refine answers_officer done h visible officer rfl rfl (by decide) (if_pos rfl) fun x none => ?_
    have same : (s.counted r).cust = s.cust := by rw [seen]
    have time : (s.counted r).time64 = s.time64 := by rw [seen]; rfl
    rw [same] at cust
    rw [time] at record
    exact ⟨none (congrArg Cust.ceremony cust), congrArg Cust.bind cust, congrArg Cust.keyLoad cust, ram.trans (by rw [seen]), j, congrArg Cust.journal cust,
      kind, ref, record⟩
  case begins =>
    intro q running officer ok given
    obtain ⟨x, lease, target, type, c, done, zeros, begins⟩ := beginKeyLoad_leaves given s
    have runs : exec (.keyLoadingCeremony ep (some q)) s = .next (noteAction (beginKeyLoad q s)) := (if_neg (by simp [running, officer])).trans (if_pos ok)
    rw [begins] at runs
    exact ⟨_, runs, rfl, x, rfl, lease, target, type, c, done, zeros⟩
  case complete =>
    intro x running officer loading all fresh free
    have runs : exec (.keyLoadingCeremony ep none) s = .next (endKeyLoad x s) := by
      refine (if_neg (by simp [running, officer])).trans ?_
      rw [loading]
      exact if_pos all
    exact ⟨_, runs, endKeyLoad_leaves fresh free⟩

end Sys2Proof.Proofs

/-! PROOFS. The gate's registers and entries (R244, R257-R262, R267). -/

namespace Sys2Proof.Machine
open Sys2Proof Sys2Proof.Claims

section
variable {r : Req} {rights : Rights} {len : Nat} {value : Bytes} {f : State → DStat × State} {s t : State}

/-- The BMC's WRITE of an entry that it may write is answered with what the entry says. -/
theorem answers_bmc {st : DStat} {p : State → Prop} {o : Res} (done : o = .next (writeEntry r rights len value f s)) (h : Accepted r 3 s)
    (bmc : r.ep = 0) (none : subLease r.index = none) (may : rights.bmc = true) (length : value.length = len) (short : len ≤ 256)
    (effect : f (s.counted r) = (st, t)) (leaves : p (respond (s.epVersion r.ep) r 3 st [] t)) : Answers r 3 st [] s p o := by
  have visible : s.hidden r = false := visible_main (by omega) fun k own => nomatch none.symm.trans own
  have own : s.allowed r.ep { rights with officer := false } = true := by
    rw [bmc]
    simpa [State.allowed, ownRole] using may
  exact answers_own done h visible own length short effect leaves

end

/-- An operator releases a pass that waits for one: its record comes next. -/
theorem settle_of_recorded {p : Pass} {s : State} (recorded : s.recorded = true) (v reason : Nat) : (settle v reason p s).flg.state = .record ∧
    (settle v reason p s).flg.pass = some { p with verdict := v, reason := reason, time := s.time64, stepAt := s.pw.now + 1, step := .record } := by
  unfold settle
  extract_lets q t
  rw [if_pos (show t.recorded = true from recorded)]
  exact ⟨rfl, rfl⟩

/-- What entry 0x3001 does of its value 1. -/
def operatorEntry (s : State) : DStat × State :=
  match s.flg.pass with
  | some p => if p.step = .operator then (.ok, settle 0 0 { p with operator := true } s) else (.state, s)
  | none => (.state, s)

theorem execOperatorRelease_of_entry {r : Req} {value : Bytes} {s : State} (index : r.index = 0x3001) (sub : r.sub = 0) :
    exec (.operatorRelease r value) s = .next (writeEntry r { bmc := true, officer := true } 1 value (onTrue value operatorEntry) s) :=
  if_neg (by simp [index, sub])

theorem operatorEntry_of_waiting {p : Pass} {s : State} (pass : s.flg.pass = some p) (waits : p.step = .operator) :
    operatorEntry s = (.ok, settle 0 0 { p with operator := true } s) := by
  unfold operatorEntry
  rw [pass]
  exact if_pos waits

theorem operatorEntry_of_none {s : State} (none : s.flg.pass = none) : operatorEntry s = (.state, s) := by
  unfold operatorEntry
  rw [none]

/-- What entry 0x3022 does. -/
def ackEntry (v : Nat) (s : State) : DStat × State :=
  if v < s.ldg.ack || s.ldg.newest < v then (.range, s)
  else
    let s := s.modLdg fun l => { l with ack := v }
    (.ok, if s.ldg.wouldLose (s.ldg.newest + 1) then s else s.modLdg fun l => { l with full := false })

theorem execAckseqWrite_of_entry {r : Req} {value : Bytes} {s : State} (index : r.index = 0x3022) (sub : r.sub = 0) :
    exec (.ackseqWrite r value) s = .next (writeEntry r { bmc := true, officer := true } 4 value (ackEntry (leNat value)) s) :=
  if_neg (by simp [index, sub])

theorem ackEntry_of_within {v : Nat} {s : State} (low : s.ldg.ack ≤ v) (high : v ≤ s.ldg.newest) :
    ∃ t, ackEntry v s = (.ok, t) ∧ t.ldg.ack = v ∧ t.ldg.newest = s.ldg.newest ∧ t.flg = s.flg := by
  unfold ackEntry
  refine ⟨_, if_neg (by simp; omega), ?_⟩
  split
  · exact ⟨rfl, rfl, rfl⟩
  · exact ⟨rfl, rfl, rfl⟩

/-- A pass starts with the platform held. -/
theorem startPass_leaves (reboot forced : Bool) (s : State) :
    PlatformHeld (startPass reboot forced s) ∧ ∃ p, (startPass reboot forced s).flg.pass = some p ∧ p.forced = forced ∧ p.startAt = s.pw.now := by
  unfold startPass
  extract_lets p joined t
  have held : PlatformHeld t := ⟨rfl, rfl, rfl, rfl⟩
  split
  · exact ⟨held, p, rfl, rfl, rfl⟩
  unfold afterHold
  split
  · exact ⟨held, _, rfl, rfl, rfl⟩
  · exact ⟨held, _, rfl, rfl, rfl⟩

end Sys2Proof.Machine

namespace Sys2Proof.Proofs
open Sys2Proof Sys2Proof.Machine Sys2Proof.Claims

/-- Settles O38: each register and entry answers its port with its check, and the gate takes what it names. -/
theorem gateEntries : Obligations.GateEntries := by
  intro r value v s n
  refine ⟨fun runs free => ?_, fun runs pass held => ?_, fun runs may => ?_, fun runs passc blank tested => ?_, fun runs => if_pos runs, fun h bmc => ?_⟩
  · refine (if_pos runs).trans (congrArg Host.Outcome.next ((if_neg ?_).trans ?_))
    · rcases free with none | rel
      · simp [none]
      · simp [Option.isNone_iff_eq_none, rel]
    · unfold holdOnly
      dsimp only
      simp only [Flg.connected, Bool.and_eq_true, decide_eq_true_eq]
      rfl
  · refine (if_pos runs).trans (congrArg Host.Outcome.next (if_pos ?_))
    simp [held, Option.isSome_iff_ne_none, pass]
  · refine (if_pos runs).trans (congrArg Host.Outcome.next (if_pos ?_))
    simpa [or_assoc] using may
  · have raised : exec .flgRelease s = .next (raiseGate 17 s) := (if_pos runs).trans (congrArg Host.Outcome.next (if_neg (by simp [passc, blank, tested])))
    exact ⟨_, raised, calm_flg (raise_calm .rfl), calm_ldg (raise_calm .rfl)⟩
  obtain ⟨b, e, c, seen⟩ := counted_eq' r s
  have free : ∀ {i : Nat}, r.index = i → subLease i = none → subLease r.index = none := fun index none => (congrArg subLease index).trans none
  refine ⟨?operator, ?none, ?recovery, ?owner, ?ack, ?range, ?selector, ?denied⟩
  case operator =>
    intro p index sub one pass step recorded
    subst one
    obtain ⟨state, record⟩ := settle_of_recorded (p := { p with operator := true }) (s := s.counted r) (by rw [seen]; exact recorded) 0 0
    refine answers_bmc (execOperatorRelease_of_entry index sub) h bmc (free index (by decide)) rfl rfl (by decide)
      ((if_pos rfl).trans (operatorEntry_of_waiting (by rw [seen]; exact pass) step)) ⟨state, record.trans ?_⟩
    rw [seen]
    rfl
  case none =>
    intro index sub one pass
    subst one
    exact answers_bmc (execOperatorRelease_of_entry index sub) h bmc (free index (by decide)) rfl rfl (by decide)
      ((if_pos rfl).trans (operatorEntry_of_none (by rw [seen]; exact pass))) (aside_respond (aside_counted r s))
  case recovery =>
    intro index sub one held pass running latch
    subst one
    have done : exec (.recoveryRequest r [1]) s = .next (writeEntry r _ 1 [1] _ s) := if_neg (by simp [index, sub])
    obtain ⟨platform, p, started, forced, at_⟩ := startPass_leaves false true (s.counted r)
    refine answers_bmc done h bmc (free index (by decide)) rfl rfl (by decide) ((if_pos rfl).trans (if_pos ?_)) ⟨platform, p, started, forced, at_.trans (by rw [seen])⟩
    rw [seen]
    simp [held, pass, latch, show State.running { s with dic := { s.dic with smbus := b, eps := e, reqs := c } } = true from running]
  case owner =>
    intro index sub length few
    have done : exec (.portBOwnerWrite r value) s = .next (writeEntry r _ 1 value _ s) := if_neg (by simp [index, sub])
    refine answers_bmc done h bmc (free index (by decide)) rfl length (by decide) (if_neg (by omega)) (aside_respond ?_)
    rw [seen]
    rfl
  case ack =>
    intro index sub length low high
    have ldg : (s.counted r).ldg = s.ldg := by rw [seen]
    obtain ⟨u, takes, ack, newest, flg⟩ := ackEntry_of_within (v := n) (s := s.counted r) (by rw [ldg]; exact low) (by rw [ldg]; exact high)
    exact answers_bmc (execAckseqWrite_of_entry index sub) h bmc (free index (by decide)) rfl length (by decide) takes
      ⟨ack, newest.trans (by rw [ldg]), flg.trans (by rw [seen])⟩
  case range =>
    intro index sub length high
    refine answers_bmc (execAckseqWrite_of_entry index sub) h bmc (free index (by decide)) rfl length (by decide) (if_pos ?_)
      (aside_respond (aside_counted r s))
    rw [seen]
    exact Bool.or_eq_true_iff.2 (.inr (decide_eq_true high))
  case selector =>
    intro index sub length
    have done : exec (.recordSelectorWrite r value) s = .next (writeEntry r { bmc := true } 4 value _ s) :=
      (if_neg (by simp [index])).trans ((if_neg (by omega)).trans (if_pos sub))
    refine answers_bmc done h bmc (free index (by decide)) rfl length (by decide) rfl ?_
    have sel : (s.counted r).ldg.sel = s.ldg.sel := by rw [seen]
    rw [sub]
    refine ⟨?_, ?_, ?_⟩
    · exact Vector.getElem_setIfInBounds_self (by decide)
    · exact (Vector.getElem_setIfInBounds_ne (by decide) (by decide)).trans (by rw [sel])
    · exact (Vector.getElem_setIfInBounds_ne (by decide) (by decide)).trans (by rw [sel])
  case denied =>
    intro index sub length
    have done : exec (.recordSelectorWrite r value) s = .next (writeEntry r { host := true } 4 value _ s) :=
      (if_neg (by simp [index])).trans (if_pos sub)
    have visible : s.hidden r = false := visible_main (by omega) fun k own => nomatch (free index (by decide)).symm.trans own
    have may : s.allowed r.ep { host := true } = false := by simp [State.allowed, ownRole, bmc]
    exact answers_respond (done.trans (congrArg Host.Outcome.next (writeEntry_of_refused h visible may (by omega)))) (aside_respond (aside_counted r s))

end Sys2Proof.Proofs

/-! PROOFS. The package flash: sequences, operations, the swap pair, reads, the supply band (R446-R462). -/

namespace Sys2Proof.Machine
open Sys2Proof Sys2Proof.Claims

/-! ### Counts -/

theorem satAdd_one_ne_zero {n : Nat} (wide : 1 ≤ n) (a : BitVec n) : satAdd a 1 ≠ 0 := by
  have big : 2 ≤ 2 ^ n := Nat.le_self_pow (by omega) 2
  unfold satAdd
  intro zero
  have value := congrArg BitVec.toNat zero
  split at value
  · rw [BitVec.toNat_ofNat, Nat.mod_eq_of_lt (by assumption)] at value
    exact absurd value (by simp)
  · rw [BitVec.toNat_allOnes] at value
    simp at value
    omega

theorem srcPresent_flash {s : State} {i : Nat} (low : i < 14) : s.srcPresent (0x400 + i) = true := by
  have table : (srcTable (0x400 + i)).isSome = true := by
    unfold srcTable
    rw [if_neg (by omega), if_neg (by omega), if_neg (by omega), if_neg (by omega), if_pos (by omega)]
    rw [show 0x400 + i - 0x400 = i by omega]
    interval_cases i <;> rfl
  unfold State.srcPresent
  rw [table]
  simp
  omega

theorem srcPresent_decode {s : State} : s.srcPresent 0x330 = true := by
  unfold State.srcPresent
  have table : (srcTable 0x330).isSome = true := by decide
  rw [table]
  rfl

/-- A flash event of a powered device is counted. -/
theorem raiseFlash_counted {i : Nat} {s : State} (low : i < 14) (on : s.pw.stage ≠ .off) : Counted (0x400 + i) s (raiseFlash i s) :=
  raise_counted ⟨by omega, by omega⟩ (srcPresent_flash low) on

theorem stage_on_of_islandRuns {s : State} (runs : s.islandRuns = true) : s.pw.stage ≠ .off := by
  unfold State.islandRuns at runs
  simp only [Bool.and_eq_true, decide_eq_true_eq] at runs
  rw [runs.2]
  decide

/-! ### Refusals -/

theorem statusEvent_lt (st : Nat) : statusEvent st < 14 := by
  unfold statusEvent
  repeat' split
  all_goals decide

/-- A sequence that ends with a status: the flash stands but for its sequence, its status and its buffer. -/
theorem flashRefuse_stops {st : Nat} {s t : State} (on : t.pw.stage ≠ .off) (same : { t.pfl with buf := s.pfl.buf, seq := s.pfl.seq, res := s.pfl.res, err := s.pfl.err } = s.pfl) :
    FlashStops st (0x400 + statusEvent st) s (flashRefuse st t) ∧ (flashRefuse st t).pfl.buf = t.pfl.buf := by
  let u : State := (t.modPfl fun p => { p with seq := .idle }).modPfl fun p => { p with res := st, err := true }
  have pfl : (flashRefuse st t).pfl = u.pfl := calm_pfl (s := u) (raise_calm .rfl)
  have counted : Counted (0x400 + statusEvent st) u (flashRefuse st t) := raiseFlash_counted (s := u) (statusEvent_lt st) on
  refine ⟨⟨?_, congrArg Pfl.seq pfl, congrArg Pfl.res pfl, congrArg Pfl.err pfl, ?_⟩, (congrArg Pfl.buf pfl :)⟩
  · rw [pfl]
    exact same
  · rw [counted]
    exact satAdd_one_ne_zero (by decide) _

/-! ### A command's start -/

theorem not_busy {p : Pfl} (op : p.op = none) (swapping : p.swapping = none) : p.busy = false := by simp [Pfl.busy, op, swapping]

theorem busy_of_op {p : Pfl} (op : p.op ≠ none) : p.busy = true := by simp [Pfl.busy, Option.isSome_iff_ne_none, op]

/-- The offsets that a command takes. -/
def Aligned (code o : Nat) : Prop := (code = 0x10 ∧ o % 32 = 0) ∨ (code = 0x20 ∧ o % 4096 = 0) ∨ (code = 0x2F ∧ o = 0)

/-- The state that waits behind the running operation, and the one in which the command runs. -/
def State.flashQueued (s : State) (code o : Nat) (data : Bytes) : State :=
  (s.modPfl fun p => { p with seq := .idle }).modPfl fun p => { p with queued := some { code := code, addr := o, data := data, left := 0, startAt := 0 } }

def State.flashStarted (s : State) (code o : Nat) (data : Bytes) : State :=
  ((s.modPfl fun p => { p with seq := .idle }).useFree 1).modPfl fun p => { p with op := some (s.flashOp code o data (s.pw.now + 1)), carry := 0 }

/-- A command of a known code at an offset that it takes. -/
theorem flashStart_of_aligned {code o : Nat} (data : Bytes) (s : State) (aligned : Aligned code o) : flashStart code o data s =
    if s.flashProtected code o then flashRefuse 4 s else if s.ownBank code o then flashRefuse 5 s
    else if s.pfl.busy && s.pfl.queued.isSome then flashRefuse 6 s
    else if s.pfl.busy then s.flashQueued code o data else s.flashStarted code o data := by
  unfold flashStart
  extract_lets fits t
  have known : (!(code = 0x10 || code = 0x20 || code = 0x2F)) = false := by
    rcases aligned with ⟨rfl, -⟩ | ⟨rfl, -⟩ | ⟨rfl, -⟩ <;> rfl
  have fit : fits := by
    rcases aligned with ⟨rfl, at_⟩ | ⟨rfl, at_⟩ | ⟨rfl, at_⟩
    · simp [fits, at_]
    · simp [fits, at_]
    · simp [fits, at_]
  exact (if_neg (by rw [known]; decide)).trans (if_neg (by rw [decide_eq_true fit]; decide))

theorem flashStart_of_unaligned {o : Nat} (data : Bytes) (s : State) (off : o % 32 ≠ 0) : flashStart 0x10 o data s = flashRefuse 3 s := by
  unfold flashStart
  extract_lets fits t
  exact (if_neg (by decide)).trans (if_pos (by simp [fits, off]))

theorem flashStart_of_protected {code o : Nat} (data : Bytes) {s : State} (aligned : Aligned code o) (prot : s.flashProtected code o = true) :
    flashStart code o data s = flashRefuse 4 s := (flashStart_of_aligned data s aligned).trans (if_pos prot)

section
variable {code o : Nat} (data : Bytes) {s : State} (aligned : Aligned code o) (may : s.flashProtected code o = false ∧ s.ownBank code o = false)
include aligned may

theorem flashStart_of_queued (busy : s.pfl.op ≠ none) (room : s.pfl.queued = none) : flashStart code o data s = s.flashQueued code o data := by
  have runs := busy_of_op busy
  rw [flashStart_of_aligned data s aligned, may.1, may.2, runs, room]
  rfl

theorem flashStart_of_free (free : s.pfl.op = none ∧ s.pfl.swapping = none ∧ s.pfl.queued = none) :
    flashStart code o data s = s.flashStarted code o data := by
  have idle := not_busy free.1 free.2.1
  rw [flashStart_of_aligned data s aligned, may.1, may.2, idle]
  rfl

end

/-- The operation that starts. -/
theorem flashStarted_runs (code o : Nat) (data : Bytes) (s : State) (room : s.pfl.queued = none) :
    FlashRuns code o data (if code = 0x10 && !s.unitErased o then 32 else if code = 0x10 then 12000 else if code = 0x20 then 8000000 else 32000000)
      s (s.flashStarted code o data) :=
  ⟨rfl, room, rfl, _, rfl, rfl, rfl, rfl, rfl, rfl, rfl, rfl⟩

/-! ### Erase writes and the swap -/

theorem eraseSector_of_armed {o : Nat} {s : State} (runs : s.islandRuns = true) (armed : s.pfl.seq = .cmd 0x20) :
    exec (.eraseSector o) s = .next (flashStart 0x20 o [] s) := by
  refine (if_pos runs).trans (congrArg Host.Outcome.next ?_)
  unfold eraseWrite
  rw [armed]
  exact if_pos rfl

theorem eraseChip_of_armed {o : Nat} {s : State} (runs : s.islandRuns = true) (armed : s.pfl.seq = .cmd 0x2F) :
    exec (.eraseChip o) s = .next (flashStart 0x2F o [] s) := by
  refine (if_pos runs).trans (congrArg Host.Outcome.next ?_)
  unfold eraseWrite
  rw [armed]
  exact if_pos rfl

theorem pflSwapGo_of_idle {s : State} (runs : s.islandRuns = true) (idle : s.pfl.seq = .idle) : exec .pflSwapGo s = .next
    (if s.pfl.busy then flashRefuse 6 s else if s.pfl.swpend then s else raiseFlash 9 (s.modPfl fun p => { p with swapping := some 8012000 })) := by
  refine (if_pos runs).trans (congrArg Host.Outcome.next ?_)
  unfold flashSwap
  rw [if_pos idle]
  exact if_neg (by decide)

/-! ### Program data -/

/-- The buffer written up to word n. -/
theorem flashBuf_upto {w : Vector (BitVec 32) 8} {c a : Nat} {s : State} (armed : s.pfl.seq = .addr c a) {n : Nat} (below : n ≤ 7) :
    ∃ b : Vector (BitVec 32) 8, (∀ i, i < n → b[i]?.getD 0 = w[i]?.getD 0) ∧
      forN n (fun i t => flashBuf i (w[i]?.getD 0) t) s = s.modPfl fun p => { p with buf := b } := by
  induction n with
  | zero => exact ⟨s.pfl.buf, nofun, rfl⟩
  | succ n ih =>
    obtain ⟨b, words, upto⟩ := ih (by omega)
    refine ⟨b.setIfInBounds n (w[n]?.getD 0), fun i low => ?_, ?_⟩
    · rw [Vector.getElem?_setIfInBounds]
      by_cases here : n = i
      · subst here
        rw [if_pos rfl, if_pos (by omega)]
        rfl
      · rw [if_neg here]
        exact words i (by omega)
    · rw [forN_succ, upto]
      unfold flashBuf
      extract_lets t
      have seq : (s.modPfl fun p => { p with buf := b }).pfl.seq = .addr c a := armed
      rw [seq]
      exact if_neg (by omega)

theorem vector_ext_getD {b w : Vector (BitVec 32) 8} (h : ∀ i, i < 8 → b[i]?.getD 0 = w[i]?.getD 0) : b = w := by
  ext i low
  have same := h i low
  simp only [Vector.getElem?_eq_getElem low, Option.getD_some] at same
  rw [same]

/-- The last word of an armed command starts it. -/
theorem program_of_armed {w : Vector (BitVec 32) 8} {c a : Nat} {s : State} (runs : s.islandRuns = true) (armed : s.pfl.seq = .addr c a) :
    exec (.program w) s = .next (flashStart c a (w.toList.flatMap fun x => leBytes 4 x.toNat) (s.modPfl fun p => { p with buf := w })) := by
  obtain ⟨b, words, upto⟩ := flashBuf_upto (w := w) armed (Nat.le_refl 7)
  have all : b.setIfInBounds 7 (w[7]?.getD 0) = w := by
    refine vector_ext_getD fun i low => ?_
    rw [Vector.getElem?_setIfInBounds]
    by_cases here : 7 = i
    · subst here
      rfl
    · rw [if_neg here]
      exact words i (by omega)
  refine (if_pos runs).trans (congrArg Host.Outcome.next ?_)
  rw [forN_succ, upto]
  unfold flashBuf
  extract_lets t
  have seq : (s.modPfl fun p => { p with buf := b }).pfl.seq = .addr c a := armed
  have buf : t = s.modPfl fun p => { p with buf := w } := congrArg (fun v => s.modPfl fun p => { p with buf := v }) all
  rw [seq, buf]
  exact if_pos rfl

/-- An armed command at an offset that it does not take. -/
theorem program_of_unaligned {w : Vector (BitVec 32) 8} {o : Nat} {s : State} (runs : s.islandRuns = true) (armed : s.pfl.seq = .addr 0x10 o) (off : o % 32 ≠ 0) :
    ∃ t, exec (.program w) s = .next t ∧ FlashStops 3 0x400 s t := by
  let u : State := s.modPfl fun p => { p with buf := w }
  have starts := flashStart_of_unaligned (w.toList.flatMap fun x => leBytes 4 x.toNat) u off
  have stops := flashRefuse_stops (st := 3) (s := s) (t := u) (stage_on_of_islandRuns runs) rfl
  exact ⟨_, (program_of_armed runs armed).trans (congrArg Host.Outcome.next starts), stops.1⟩

theorem flashRefuse_pw (st : Nat) (t : State) : (flashRefuse st t).pw = t.pw :=
  calm_pw (s := (t.modPfl fun p => { p with seq := .idle }).modPfl fun p => { p with res := st, err := true }) (raise_calm .rfl)

theorem flashBuf_of_idle {t : State} (i : Nat) (v : BitVec 32) (idle : t.pfl.seq = .idle) :
    flashBuf i v t = flashRefuse 1 (t.modPfl fun p => { p with buf := p.buf.setIfInBounds i v }) := by
  unfold flashBuf
  rw [idle]

/-- Program data without an armed command: each word is taken, and ends with KEY. -/
theorem flashBuf_refused {w : Vector (BitVec 32) 8} {s : State} (on : s.pw.stage ≠ .off) (idle : s.pfl.seq = .idle) {n : Nat} (below : n ≤ 8) :
    let t := forN n (fun i t => flashBuf i (w[i]?.getD 0) t) s
    ({ t.pfl with buf := s.pfl.buf, seq := s.pfl.seq, res := s.pfl.res, err := s.pfl.err } = s.pfl ∧ t.pfl.seq = .idle ∧ t.pw = s.pw) ∧
      (n ≠ 0 → FlashStops 1 0x400 s t) ∧ ∀ i, i < n → t.pfl.buf[i]?.getD 0 = w[i]?.getD 0 := by
  induction n with
  | zero => exact ⟨⟨rfl, idle, rfl⟩, fun some => absurd rfl some, nofun⟩
  | succ n ih =>
    obtain ⟨⟨same, seq, pw⟩, -, before⟩ := ih (by omega)
    rw [forN_succ]
    generalize forN n (fun i t => flashBuf i (w[i]?.getD 0) t) s = t at same seq pw before ⊢
    rw [flashBuf_of_idle _ _ seq]
    obtain ⟨stops, buf⟩ := flashRefuse_stops (st := 1) (s := s) (t := t.modPfl fun p => { p with buf := p.buf.setIfInBounds n (w[n]?.getD 0) })
      (by rw [show (t.modPfl fun p => { p with buf := p.buf.setIfInBounds n (w[n]?.getD 0) }).pw = s.pw from pw]; exact on) same
    obtain ⟨left, seq, -, -, -⟩ := id stops
    refine ⟨⟨left, seq, (flashRefuse_pw ..).trans pw⟩, fun _ => stops, fun i low => ?_⟩
    rw [buf]
    refine (congrArg (Option.getD · 0) Vector.getElem?_setIfInBounds).trans ?_
    by_cases here : n = i
    · subst here
      rw [if_pos rfl, if_pos (by omega)]
      rfl
    · rw [if_neg here]
      exact before i (by omega)

theorem program_of_idle {w : Vector (BitVec 32) 8} {s : State} (runs : s.islandRuns = true) (idle : s.pfl.seq = .idle) :
    ∃ t, exec (.program w) s = .next t ∧ FlashStops 1 0x400 s t ∧ t.pfl.buf = w := by
  obtain ⟨-, stops, words⟩ := flashBuf_refused (w := w) (stage_on_of_islandRuns runs) idle (Nat.le_refl 8)
  exact ⟨_, if_pos runs, stops (by decide), vector_ext_getD words⟩

/-! ### The end of an operation -/

/-- What a store leaves in the die as it loses a record. -/
theorem leave_die (l : List Piece) (p : Pfl) : ∃ d w, p.leave l = { p with die := d, written := w } := by
  induction l generalizing p with
  | nil => exact ⟨_, _, rfl⟩
  | cons e l ih =>
    have bytes : ∀ (l : List Nat) (p : Pfl), ∃ d w, l.foldl (fun p i =>
        { p with die := tset 0xFF p.die (e.1 + i) (e.2.getD i 0), written := tset false p.written ((e.1 + i) / 32) true }) p = { p with die := d, written := w } := by
      intro l
      induction l with
      | nil => exact fun p => ⟨_, _, rfl⟩
      | cons i l ih =>
        intro p
        obtain ⟨d, w, rest⟩ := ih { p with die := tset 0xFF p.die (e.1 + i) (e.2.getD i 0), written := tset false p.written ((e.1 + i) / 32) true }
        exact ⟨d, w, rest⟩
    obtain ⟨d, w, one⟩ := bytes (List.range e.2.length) p
    obtain ⟨d', w', rest⟩ := ih { p with die := d, written := w }
    refine ⟨d', w', ?_⟩
    unfold Pfl.leave at rest ⊢
    rw [List.foldl_cons, one, rest]

theorem tget_tclear {α : Type} (d : α) (t : Tbl α) (a b i : Nat) : tget d (tclear t a b) i = if a ≤ i ∧ i < b then d else tget d t i := by
  induction t with
  | nil => exact (ite_self d).symm
  | cons e t ih =>
    obtain ⟨k, v⟩ := e
    unfold tclear at ih ⊢
    by_cases out : k < a ∨ b ≤ k
    · rw [List.filter_cons_of_pos (by simpa using out)]
      unfold tget
      rw [ih]
      by_cases here : i = k
      · rw [if_pos here, if_pos here, if_neg (by omega)]
      · rw [if_neg here, if_neg here]
    · rw [List.filter_cons_of_neg (by simpa using out), ih]
      by_cases inside : a ≤ i ∧ i < b
      · rw [if_pos inside, if_pos inside]
      · rw [if_neg inside, if_neg inside]
        exact (if_neg (by rintro rfl; omega)).symm

theorem byte_erase (a b i : Nat) (p : Pfl) : (p.erase a b).byte i = if a ≤ i ∧ i < b then 0xFF else p.byte i := tget_tclear ..

theorem byte_program (a : Nat) (data : Bytes) (p : Pfl) (i : Nat) :
    (p.program a data).byte i = if a ≤ i ∧ i < a + 32 then data.getD (i - a) 0 else p.byte i := by
  have upto : ∀ n, tget 0xFF ((List.range n).foldl (fun d i => tset 0xFF d (a + i) (data.getD i 0)) p.die) i =
      if a ≤ i ∧ i < a + n then data.getD (i - a) 0 else tget 0xFF p.die i := by
    intro n
    induction n with
    | zero => exact (if_neg (by omega)).symm
    | succ n ih =>
      rw [List.range_succ, List.foldl_append]
      refine (tget_tset ..).trans ?_
      rw [ih]
      by_cases here : i = a + n
      · rw [if_pos here, if_pos (by omega), show i - a = n by omega]
      · rw [if_neg here]
        exact if_congr (by omega) rfl rfl
  exact upto 32

theorem touches_append {a b : Nat} {l m : List Piece} (h : touches a b (l ++ m) = false) : touches a b l = false ∧ touches a b m = false := by
  unfold touches at h ⊢
  rw [List.any_append] at h
  exact Bool.or_eq_false_iff.1 h

theorem touches_flatMap {α : Type} {a b : Nat} {l : List α} {f : α → List Piece} (h : touches a b (l.flatMap f) = false) : ∀ x ∈ l, touches a b (f x) = false := by
  intro x mem
  unfold touches at h ⊢
  rw [List.any_eq_false] at h ⊢
  exact fun e at_ => h e (List.mem_flatMap.2 ⟨x, mem, at_⟩)

theorem map_zipIdx_fst {α : Type} (f : α × Nat → α) (l : List α) (h : ∀ e ∈ l.zipIdx, f e = e.1) : l.zipIdx.map f = l := by
  rw [List.map_congr_left h, ← List.unzip_fst]
  simp

/-- An erasure that meets no record leaves the stores. -/
theorem dropStores_of_clear {a b : Nat} {s : State} (clear : touches a b s.stores = false) : dropStores a b s = s := by
  unfold State.stores at clear
  obtain ⟨clear, other⟩ := touches_append clear
  obtain ⟨clear, manifest⟩ := touches_append clear
  obtain ⟨clear, journal⟩ := touches_append clear
  obtain ⟨clear, log⟩ := touches_append clear
  obtain ⟨clear, leases⟩ := touches_append clear
  obtain ⟨slots, store⟩ := touches_append clear
  have slots : (s.ldg.slots.filter fun (e : Nat × LSlot) => !touches a b (e.2.pieces e.1)) = s.ldg.slots :=
    List.filter_eq_self.2 fun e mem => by rw [touches_flatMap slots e mem]; rfl
  have store : (s.yard.store.zipIdx.map fun (e : StoreRec × Nat) =>
      if touches a b (e.1.pieces s.yard.side e.2) then { e.1 with key := none, body := [], commit := [], dead := true } else e.1) = s.yard.store :=
    map_zipIdx_fst _ _ fun e mem => if_neg (Bool.eq_false_iff.1 (touches_flatMap store e mem))
  have journal : (s.cust.journal.zipIdx.map fun (e : CRec × Nat) =>
      if touches a b (e.1.pieces s.cust.side e.2) then { e.1 with kind := 0, commit := [] } else e.1) = s.cust.journal :=
    map_zipIdx_fst _ _ fun e mem => if_neg (Bool.eq_false_iff.1 (touches_flatMap journal e mem))
  have log : (s.vault.log.filter fun e => !touches a b e.pieces) = s.vault.log :=
    List.filter_eq_self.2 fun e mem => by rw [touches_flatMap log e mem]; rfl
  unfold dropStores
  extract_lets l gone
  have leases : (s.leases.map fun (e : Nat × Lease) =>
      (e.1, { e.2 with image := gone (programCopy e.1 e.2.copy e.2.image) e.2.image, body := gone (e.2.otherCopy e.1) e.2.body,
                       old := gone (e.2.otherCopy e.1) e.2.old })) = s.leases := by
    conv_rhs => rw [← List.map_id s.leases]
    refine List.map_congr_left fun e mem => ?_
    obtain ⟨copy, other⟩ := touches_append (touches_flatMap leases e mem)
    simp only [gone, copy, other]
    rfl
  rw [slots, store, journal, log, leases]
  simp only [gone, l, manifest, other]
  rfl

/-- Erased bytes read as such; beside the dice and the stores the flash stands. -/
theorem eraseRange_pfl (a b : Nat) (s : State) : ∃ d w, (eraseRange a b s).pfl = ({ s.pfl with die := d, written := w } : Pfl).erase a b ∧
    (touches a b s.stores = false → d = s.pfl.die) := by
  unfold eraseRange
  extract_lets t
  by_cases clear : touches a b s.stores = false
  · have same : t = s := dropStores_of_clear clear
    rw [same]
    have none : (s.stores.filter fun e => !s.stores.contains e) = [] := List.filter_eq_nil_iff.2 fun e mem => by simp [mem]
    refine ⟨s.pfl.die, s.pfl.written, ?_, fun _ => rfl⟩
    rw [none]
    rfl
  · obtain ⟨d, w, left⟩ := leave_die (s.stores.filter fun e => !t.stores.contains e) s.pfl
    exact ⟨d, w, congrArg (Pfl.erase a b) left, fun h => absurd h clear⟩

theorem startQueued_of_none {s : State} (none : s.pfl.queued = none) : startQueued s = s := by
  unfold startQueued
  rw [none]

theorem startOwn_of_none {s : State} (none : s.pfl.updTodo = []) (at_ : Nat) : startOwn at_ s = s := by
  unfold startOwn
  rw [none]

/-- What waits behind an operation waits as it ends. -/
theorem apply_waits (x : FlashOp) (s : State) : (x.apply s).pfl.queued = s.pfl.queued ∧ (x.apply s).pfl.updTodo = s.pfl.updTodo := by
  unfold FlashOp.apply
  split
  · exact ⟨rfl, rfl⟩
  split
  · exact ⟨rfl, rfl⟩
  · obtain ⟨d, w, pfl, -⟩ := eraseRange_pfl x.phys (x.phys + 4096) s
    exact ⟨(congrArg Pfl.queued pfl :), (congrArg Pfl.updTodo pfl :)⟩

/-- The state after operation x, with its status. -/
def State.ended (s : State) (x : FlashOp) : State :=
  if x.notErased then flashEnd 7 ((x.apply s).modPfl fun p => { p with op := none })
  else ((x.apply s).modPfl fun p => { p with op := none }).modPfl fun p => { p with res := 0 }

theorem flashEnd_pfl (st : Nat) (s : State) : (flashEnd st s).pfl = { s.pfl with res := st, err := true } :=
  calm_pfl (s := s.modPfl fun p => { p with res := st, err := true }) (raise_calm .rfl)

theorem ended_waits (x : FlashOp) (s : State) : (s.ended x).pfl.queued = s.pfl.queued ∧ (s.ended x).pfl.updTodo = s.pfl.updTodo := by
  obtain ⟨queued, later⟩ := apply_waits x s
  unfold State.ended
  split
  · rw [flashEnd_pfl]
    exact ⟨queued, later⟩
  · exact ⟨queued, later⟩

section
variable {x : FlashOp} {s : State} (op : s.pfl.op = some x)
include op

theorem flashOpEnd_of_running (running : 0 < x.left ∨ s.pw.now ≤ x.startAt) : exec .flashOpEnd s = .next s := by
  change execFlashOpEnd s = _
  unfold execFlashOpEnd
  rw [op]
  exact if_pos (by simpa using running)

variable (due : x.left = 0) (began : x.startAt < s.pw.now) (queue : s.pfl.queued = none) (todo : s.pfl.updTodo = []) (host : x.own = false)
include due began queue todo host

/-- The end of an operation with nothing behind it. -/
theorem flashOpEnd_of_due : exec .flashOpEnd s = .next (s.ended x) := by
  obtain ⟨queued, later⟩ := ended_waits x s
  change execFlashOpEnd s = _
  unfold execFlashOpEnd
  rw [op]
  refine (if_neg (by simp [due]; omega)).trans (congrArg Host.Outcome.next ?_)
  rw [host]
  change startOwn s.pw.now (startQueued (s.ended x)) = s.ended x
  rw [startQueued_of_none (queued.trans queue), startOwn_of_none (later.trans todo)]

/-- One that failed leaves the die. -/
theorem flashOpEnd_of_failed (failed : x.notErased = true) :
    ∃ t, exec .flashOpEnd s = .next t ∧ t.pfl.op = none ∧ t.pfl.die = s.pfl.die ∧ t.pfl.res = 7 ∧ t.pfl.err = true := by
  have left : x.apply s = s := if_pos (by rw [failed]; rfl)
  refine ⟨_, (flashOpEnd_of_due op due began queue todo host).trans (congrArg Host.Outcome.next (if_pos failed)), ?_⟩
  rw [left, flashEnd_pfl]
  exact ⟨rfl, rfl, rfl, rfl⟩

theorem flashOpEnd_of_good (good : x.notErased = false) :
    ∃ t, exec .flashOpEnd s = .next t ∧ t.pfl.op = none ∧ t.pfl.res = 0 ∧ t.pfl.die = (x.apply s).pfl.die :=
  ⟨_, (flashOpEnd_of_due op due began queue todo host).trans (congrArg Host.Outcome.next (if_neg (by rw [good]; decide))), rfl, rfl, rfl⟩

end

theorem dropLinesIn_byte (o n : Nat) (p : Pfl) (a : Nat) : (dropLinesIn o n p).byte a = p.byte a := rfl

theorem apply_program {x : FlashOp} {s : State} (good : x.notErased = false) (program : x.code = 0x10) (a : Nat) :
    (x.apply s).pfl.byte a = if x.phys ≤ a ∧ a < x.phys + 32 then x.data.getD (a - x.phys) 0 else s.pfl.byte a := by
  have effect : x.apply s = s.modPfl fun p => dropLinesIn x.addr 32 (p.program x.phys x.data) := (if_neg (by simp [good, program])).trans (if_pos program)
  rw [effect]
  exact (dropLinesIn_byte x.addr 32 (s.pfl.program x.phys x.data) a).trans (byte_program x.phys x.data s.pfl a)

theorem erased_byte (a b : Nat) (s : State) : (∀ i, a ≤ i → i < b → (eraseRange a b s).pfl.byte i = 0xFF) ∧
    (touches a b s.stores = false → ∀ i, i < a ∨ b ≤ i → (eraseRange a b s).pfl.byte i = s.pfl.byte i) := by
  obtain ⟨d, w, pfl, clear⟩ := eraseRange_pfl a b s
  rw [pfl]
  refine ⟨fun i low high => (byte_erase ..).trans (if_pos ⟨low, high⟩), fun none i out => (byte_erase ..).trans ((if_neg (by omega)).trans ?_)⟩
  exact congrArg (tget 0xFF · i) (clear none)

theorem apply_erase {x : FlashOp} {s : State} (good : x.notErased = false) (erase : x.code = 0x20) :
    (∀ a, x.phys ≤ a → a < x.phys + 4096 → (x.apply s).pfl.byte a = 0xFF) ∧
      (touches x.phys (x.phys + 4096) s.stores = false → ∀ a, a < x.phys ∨ x.phys + 4096 ≤ a → (x.apply s).pfl.byte a = s.pfl.byte a) := by
  have effect : x.apply s = (eraseRange x.phys (x.phys + 4096) s).modPfl (dropLinesIn x.addr 4096) :=
    (if_neg (by simp [good, erase])).trans (if_neg (by omega))
  rw [effect]
  exact erased_byte x.phys (x.phys + 4096) s

theorem erasedBank_byte (t : State) (a : Nat) (low : 0x3000000 ≤ a) (high : a < 0x4000000) :
    (forEach [3] (fun b t => (eraseRange (b * 0x1000000) ((b + 1) * 0x1000000) t).modPfl (dropLinesIn (b * 0x1000000) 0x1000000)) t).pfl.byte a = 0xFF :=
  (dropLinesIn_byte (3 * 0x1000000) 0x1000000 (eraseRange (3 * 0x1000000) ((3 + 1) * 0x1000000) t).pfl a).trans
    ((erased_byte (3 * 0x1000000) ((3 + 1) * 0x1000000) t).1 a (by omega) (by omega))

/-- The last bank of a chip erase goes with its last cycles. -/
theorem flashTick_bank {x : FlashOp} {s : State} (op : s.pfl.op = some x) (chip : x.code = 0x2F) (began : x.startAt ≤ s.pw.now) (left : x.left = 512)
    (power : s.mainPower = true) (a : Nat) (low : 0x3000000 ≤ a) (high : a < 0x4000000) : (flashTick s).pfl.byte a = 0xFF := by
  unfold flashTick
  extract_lets cc p runs carry t banks
  have cycles : cc = 512 := if_pos power
  have running : runs x := began
  have same : p.op = some x := op
  rw [same]
  refine (congrArg (fun t : State => t.pfl.byte a) (if_neg (by rw [decide_eq_true running, chip]; decide))).trans ?_
  have last : ((List.range 4).filter fun b => decide (banks x.left ≤ b) && decide (b < banks (x.left - cc))) = [3] := by
    rw [left, cycles]
    unfold banks
    decide
  rw [last]
  exact erasedBank_byte t a low high

/-! ### The swap pair -/

theorem swapOf_of_ahead {x y : BitVec 16} (ahead : (x - y).toNat < 2 ^ 15) : swapOf (some x) (some y) = x := if_pos ahead

theorem swapOf_of_behind {x y : BitVec 16} (behind : ¬ (x - y).toNat < 2 ^ 15) : swapOf (some x) (some y) = y := if_neg behind

theorem bumpPair_pair (p : Pfl) : ∃ a b, p.bumpPair = { p with pairA := a, pairB := b } := by
  unfold Pfl.bumpPair
  extract_lets n overA
  split
  · exact ⟨_, _, rfl⟩
  · exact ⟨_, _, rfl⟩

/-- The pair's counter rises, in whichever copy is the older. -/
theorem bumpPair_swapOf {p : Pfl} (apart : ∀ x y, p.pairA = some x → p.pairB = some y → x - y ≠ 0x8000) :
    swapOf p.bumpPair.pairA p.bumpPair.pairB = swapOf p.pairA p.pairB + 1 := by
  have next : ∀ v : BitVec 16, swapOf (some (v + 1)) (some v) = v + 1 := fun v => swapOf_of_ahead (by bv_omega)
  have last : ∀ v : BitVec 16, swapOf (some v) (some (v + 1)) = v + 1 := fun v => swapOf_of_behind (by bv_omega)
  unfold Pfl.bumpPair
  rcases hA : p.pairA with _ | x <;> rcases hB : p.pairB with _ | y
  · rw [if_pos rfl]
    rfl
  · rw [if_pos rfl]
    exact next y
  · rw [if_neg Bool.false_ne_true]
    exact last x
  · have far := apart x y hA hB
    by_cases older : (y - x).toNat < 2 ^ 15
    · rw [if_pos (decide_eq_true older)]
      have newest : swapOf (some x) (some y) = y := by
        by_cases same : (x - y).toNat < 2 ^ 15
        · rw [swapOf_of_ahead same]
          bv_omega
        · exact swapOf_of_behind same
      rw [newest]
      exact next y
    · rw [if_neg (by simpa using older)]
      rw [swapOf_of_ahead (x := x) (y := y) (by bv_omega)]
      exact last x

theorem swapPairWriteEnd_of_alone {s : State} (done : s.pfl.swapping = some 0) (queue : s.pfl.queued = none) (todo : s.pfl.updTodo = []) :
    exec .swapPairWriteEnd s = .next (s.modPfl fun p => { p.bumpPair with swapping := none, swpend := true }) := by
  have waits : s.pfl.bumpPair.queued = s.pfl.queued ∧ s.pfl.bumpPair.updTodo = s.pfl.updTodo := by
    obtain ⟨a, b, pair⟩ := bumpPair_pair s.pfl
    rw [pair]
    exact ⟨rfl, rfl⟩
  change execSwapPairWriteEnd s = _
  unfold execSwapPairWriteEnd
  rw [done]
  refine (if_neg (by decide)).trans (congrArg Host.Outcome.next ?_)
  rw [startQueued_of_none (waits.1.trans queue), startOwn_of_none (waits.2.trans todo)]

/-! ### Reads -/

theorem dieByte_lines (s : State) (l : Tbl Nat) (e : Tbl LineEcc) (o : Nat) : (s.modPfl fun p => { p with lines := l, ecc := e }).dieByte o = s.dieByte o := rfl

/-- Bytes that the die gives are delivered. -/
theorem flashBytes_of_known {o n : Nat} {s : State} (known : ∀ i, i < n → (s.dieByte (s.pfl.phys (o + i))).isSome = true) :
    flashBytes o n s = ((List.range n).map fun i => (s.dieByte (s.pfl.phys (o + i))).getD 0, s) := by
  unfold flashBytes
  extract_lets b
  have bytes : b = (List.range n).map fun i => (s.dieByte (s.pfl.phys (o + i))).getD 0 := by
    refine List.map_congr_left fun i mem => ?_
    obtain ⟨v, here⟩ := Option.isSome_iff_exists.1 (known i (List.mem_range.1 mem))
    rw [here]
    rfl
  rw [bytes]
  refine congrArg (Prod.mk _) (if_neg ?_)
  rw [List.any_eq_true]
  rintro ⟨i, mem, none⟩
  have some := known i (List.mem_range.1 mem)
  rw [Option.isNone_iff_eq_none] at none
  rw [none] at some
  cases some

/-- A read of a bank that is not busy leaves its line in the reader's buffer. -/
theorem flashRead_of_known {c o n : Nat} {fetch : Bool} {s : State} (free : s.bankBusy (o / 0x1000000) = false)
    (known : ∀ i, i < n → (s.dieByte (s.pfl.phys (o + i))).isSome = true) : ∃ l e,
    flashRead c o n fetch .clean s = (.ok ((List.range n).map fun i => (s.dieByte (s.pfl.phys (o + i))).getD 0), s.modPfl fun p => { p with lines := l, ecc := e }) ∧
      tget 0 l c = o / 32 + 1 := by
  unfold flashRead
  rw [if_neg (Bool.eq_false_iff.1 free)]
  extract_lets fresh u
  have lines : ∃ l e, u = (s.modPfl fun p => { p with lines := l, ecc := e }) ∧ tget 0 l c = o / 32 + 1 := by
    unfold u
    by_cases new : fresh
    · rw [if_pos new]
      exact ⟨_, _, rfl, (tget_tput ..).trans (if_pos rfl)⟩
    · rw [if_neg new]
      exact ⟨s.pfl.lines, s.pfl.ecc, rfl, not_not.1 new⟩
  obtain ⟨l, e, eq, line⟩ := lines
  refine ⟨l, e, ?_, line⟩
  rw [eq, flashBytes_of_known (s := s.modPfl fun p => { p with lines := l, ecc := e }) known]
  rfl

theorem flashRead_of_island {c o n : Nat} {fetch : Bool} {s : State} (runs : s.islandRuns = true) (inside : o + n ≤ flashSize) (line : o / 32 = (o + n - 1) / 32) :
    exec (.flashRead (.island c) o n fetch .clean) s =
      .next { (flashRead c o n fetch .clean s).2 with out := { (flashRead c o n fetch .clean s).2.out with bus := (flashRead c o n fetch .clean s).1 } } :=
  if_neg (by simp [runs, line]; omega)

end Sys2Proof.Machine

namespace Sys2Proof.Proofs
open Sys2Proof Sys2Proof.Machine Sys2Proof.Claims

/-- Settles O53: each write moves the sequence, starts, queues or ends an operation; what an end leaves in the die is read byte by byte. -/
theorem packageFlash : Obligations.PackageFlash := by
  intro off o c n v w fetch high m s p bytes seq free may
  have on : s.islandRuns = true → s.pw.stage ≠ .off := stage_on_of_islandRuns
  refine ⟨fun runs => ⟨?key0, ?key1, ?cmd, ?addr, ?stray, ?word, ?program, ?queues, ?unaligned, ?sector, ?guarded, ?chip, ?unscrapped, ?swap⟩,
    fun x op => ⟨?waits, ?bank, ?ends⟩, ?pair, fun runs inside line => ⟨?reads, ?busy, ?decode⟩, ?still, ?band⟩
  case key0 =>
    intro at_ key idle
    subst at_
    refine (if_pos (by rw [runs]; rfl)).trans (congrArg Host.Outcome.next ?_)
    unfold flashSequence
    rw [show s.pfl.seq = .idle from idle]
    exact if_pos key
  case key1 =>
    intro at_ key idle
    subst at_
    refine (if_pos (by rw [runs]; rfl)).trans (congrArg Host.Outcome.next ?_)
    unfold flashSequence
    rw [show s.pfl.seq = .key0 from idle]
    exact if_pos key
  case cmd =>
    intro at_ idle
    subst at_
    refine (if_pos (by rw [runs]; rfl)).trans (congrArg Host.Outcome.next ?_)
    unfold flashSequence
    rw [show s.pfl.seq = .key1 from idle]
    rfl
  case addr =>
    intro at_ armed
    subst at_
    refine (if_pos (by rw [runs]; rfl)).trans (congrArg Host.Outcome.next ?_)
    unfold flashSequence
    rw [show s.pfl.seq = .cmd 0x10 from armed]
    exact if_pos rfl
  case stray =>
    intro at_ idle
    have refused : exec (.pflSequenceWrite off v) s = .next (flashRefuse 1 s) := by
      refine (if_pos (by rw [runs]; simp; omega)).trans (congrArg Host.Outcome.next ?_)
      unfold flashSequence
      rw [show s.pfl.seq = .idle from idle]
      rcases at_ with rfl | rfl | rfl | ⟨rfl, other⟩
      · rfl
      · rfl
      · rfl
      · exact if_neg other
    exact ⟨_, refused, (flashRefuse_stops (st := 1) (on runs) rfl).1⟩
  case word => exact program_of_idle runs
  case program =>
    intro armed at_ ok free
    let u : State := s.modPfl fun p => { p with buf := w }
    have starts := flashStart_of_free (s := u) bytes (.inl ⟨rfl, at_⟩) ok free
    refine ⟨_, (program_of_armed runs armed).trans (congrArg Host.Outcome.next starts), rfl, ?_⟩
    have left : (if s.unitErased o then 12000 else 32) = if (0x10 : Nat) = 0x10 && !u.unitErased o then 32 else if (0x10 : Nat) = 0x10 then 12000
        else if (0x10 : Nat) = 0x20 then 8000000 else 32000000 := by
      rw [show u.unitErased o = s.unitErased o from rfl]
      cases s.unitErased o <;> rfl
    rw [left]
    exact flashStarted_runs 0x10 o bytes u free.2.2
  case queues =>
    intro armed at_ ok busy room
    have starts := flashStart_of_queued (s := s.modPfl fun p => { p with buf := w }) bytes (.inl ⟨rfl, at_⟩) ok busy room
    exact ⟨_, (program_of_armed runs armed).trans (congrArg Host.Outcome.next starts), rfl, rfl⟩
  case unaligned =>
    intro armed off
    exact program_of_unaligned runs armed off
  case sector =>
    intro armed at_ ok free
    exact ⟨_, (eraseSector_of_armed runs armed).trans (congrArg Host.Outcome.next (flashStart_of_free [] (.inr (.inl ⟨rfl, at_⟩)) ok free)),
      flashStarted_runs 0x20 o [] s free.2.2⟩
  case guarded =>
    intro armed at_ prot
    exact ⟨_, (eraseSector_of_armed runs armed).trans (congrArg Host.Outcome.next (flashStart_of_protected [] (.inr (.inl ⟨rfl, at_⟩)) prot)),
      (flashRefuse_stops (st := 4) (on runs) rfl).1⟩
  case chip =>
    intro armed zero scrapped own free
    subst zero
    have ok : s.flashProtected 0x2F 0 = false ∧ s.ownBank 0x2F 0 = false := ⟨(if_pos rfl).trans (by simp [scrapped]), own⟩
    exact ⟨_, (eraseChip_of_armed runs armed).trans (congrArg Host.Outcome.next (flashStart_of_free [] (.inr (.inr ⟨rfl, rfl⟩)) ok free)),
      flashStarted_runs 0x2F 0 [] s free.2.2⟩
  case unscrapped =>
    intro armed zero stays
    subst zero
    have prot : s.flashProtected 0x2F 0 = true := (if_pos rfl).trans (decide_eq_true stays)
    exact ⟨_, (eraseChip_of_armed runs armed).trans (congrArg Host.Outcome.next (flashStart_of_protected [] (.inr (.inr ⟨rfl, rfl⟩)) prot)),
      (flashRefuse_stops (st := 4) (on runs) rfl).1⟩
  case swap =>
    intro idle
    have go := pflSwapGo_of_idle runs idle
    refine ⟨fun free pend => ?_, fun free pend => ?_, fun busy => ?_⟩
    · have quiet := not_busy free.1 free.2.1
      rw [if_neg (by rw [quiet]; decide), if_neg (by rw [show s.pfl.swpend = false from pend]; decide)] at go
      refine ⟨_, go, calm_pfl (s := s.modPfl fun p => { p with swapping := some 8012000 }) (raise_calm .rfl), ?_⟩
      exact raiseFlash_counted (i := 9) (s := s.modPfl fun p => { p with swapping := some 8012000 }) (by decide) (on runs)
    · have quiet := not_busy free.1 free.2.1
      rw [if_neg (by rw [quiet]; decide), if_pos pend] at go
      exact go
    · rw [if_pos (busy_of_op busy)] at go
      exact ⟨_, go, (flashRefuse_stops (st := 6) (on runs) rfl).1⟩
  case waits => exact flashOpEnd_of_running op
  case bank => exact fun chip began left power a low high => flashTick_bank op chip began left power a low high
  case ends =>
    intro due began queue todo host
    refine ⟨flashOpEnd_of_failed op due began queue todo host, fun good => ?_⟩
    obtain ⟨t, done, none, ok, die⟩ := flashOpEnd_of_good op due began queue todo host good
    have byte : ∀ a, t.pfl.byte a = (x.apply s).pfl.byte a := fun a => congrArg (tget 0xFF · a) die
    refine ⟨t, done, none, ok, fun program a => (byte a).trans (apply_program good program a), fun erase => ?_, fun chip => die.trans ?_⟩
    · obtain ⟨inside, outside⟩ := apply_erase (s := s) good erase
      exact ⟨fun a low high => (byte a).trans (inside a low high), fun clear a out => (byte a).trans (outside clear a out)⟩
    · have left : x.apply s = s := if_pos (by simp [chip])
      rw [left]
  case pair =>
    intro done queue todo apart
    obtain ⟨a, b, pair⟩ := bumpPair_pair s.pfl
    exact ⟨_, swapPairWriteEnd_of_alone done queue todo, rfl, rfl, (congrArg Pfl.active pair :), bumpPair_swapOf apart⟩
  case reads =>
    intro free known
    obtain ⟨l, e, read, held⟩ := flashRead_of_known (c := c) (fetch := fetch) free known
    have done := flashRead_of_island (c := c) (fetch := fetch) runs inside line
    rw [read] at done
    exact ⟨_, done, rfl, rfl, held⟩
  case busy =>
    intro busy
    have read : flashRead c o n fetch .clean s = (.bankBusy, raiseFlash 4 s) := if_pos busy
    have done := flashRead_of_island (c := c) (fetch := fetch) runs inside line
    rw [read] at done
    exact ⟨_, done, rfl, raiseFlash_counted (i := 4) (by decide) (on runs)⟩
  case decode =>
    intro other
    have done : exec (.flashRead m o n fetch .clean) s = .next (raiseIsland 48 { s with out := { s.out with bus := .decode } }) := by
      refine (if_neg (by simp [runs, line]; omega)).trans ?_
      split
      next j => exact absurd rfl (other j)
      · rfl
    have out : (raiseIsland 48 { s with out := { s.out with bus := .decode } }).out = { s.out with bus := .decode } :=
      calm_out (s := { s with out := { s.out with bus := .decode } }) (raise_calm .rfl)
    exact ⟨_, done, congrArg Out.bus out, raise_counted (s := { s with out := { s.out with bus := .decode } }) farEvent_decode srcPresent_decode (on runs)⟩
  case still => exact fun still => if_pos (by simpa using still)
  case band =>
    intro running new
    have point : pointMin (State.flashPoint { s with pw := { s.pw with vflHigh := high } }) = if high then 3 else 5 := by
      unfold State.flashPoint
      rw [if_neg (by simp [running])]
      cases high <;> rfl
    have done : exec (.vflBandChange high) s = .next (clampWs { s with pw := { s.pw with vflHigh := high } }) := if_neg (by simp [running, new])
    unfold clampWs at done
    rw [point] at done
    refine ⟨fun slow => ?_, fun fast => done.trans (congrArg Host.Outcome.next (if_neg (Nat.not_lt.2 fast)))⟩
    let u : State := { s with pw := { s.pw with vflHigh := high }, pfl := { s.pfl with clamped := true } }
    have raised : (raiseFlash 8 u).calm = u.calm := raise_calm .rfl
    exact ⟨_, done.trans (congrArg Host.Outcome.next (if_pos slow)), congrArg Pw.vflHigh (calm_pw raised), calm_pfl raised,
      raiseFlash_counted (i := 8) (s := u) (by decide) (by rw [show u.pw.stage = .running from running]; decide)⟩

end Sys2Proof.Proofs

/-! PROOFS. The gallery: its certificate, the leases' consent, the TAP, injection (R387-R395, R432). -/

namespace Sys2Proof.Machine
open Sys2Proof Sys2Proof.Claims

/-! ### Events below LOCKDOWN -/

/-- An event of no lease below LOCKDOWN clears nothing beside it. -/
theorem raise_of_mild {e : Nat} {s : State} (mild : s.sevOf e ≠ 3) : raise e 0xFF s = raise0 e 0xFF false s := by
  unfold raise raiseInj
  simp [mild]

section
variable {β : Type} {p : State → β} (flt : ∀ t f, p { t with flt := f } = p t) (benches : ∀ t b, p { t with benches := b } = p t)
  (leases : ∀ t l, p { t with leases := l } = p t) (wedges : ∀ t x j, p { t with engines := x, jobs := j } = p t)
include wedges

theorem eraseWedge_same (q st : Nat) (f : Nat → Bool) (s : State) : p (eraseWedge q st f s) = p s := wedges s _ _

include benches in
theorem pendBench_same (n cause : Nat) (s : State) : p (pendBench n cause s) = p s := by
  unfold pendBench
  extract_lets b
  split
  · rfl
  split
  · exact (eraseWedge_same wedges ..).trans (benches s _)
  split
  · exact benches s _
  · rfl

include leases in
theorem pendLease_same (k : Nat) (s : State) : p (pendLease k s) = p s := by
  unfold pendLease
  extract_lets l
  split
  · rfl
  · exact (wedges_same (p := p) fun q u => eraseWedge_same wedges ..).trans (leases s _)

include flt benches leases in
/-- What a mild event leaves, beside the event network, the benches, the leases and the wedges. -/
theorem raise0_same_of_mild {e k : Nat} {inj : Bool} {s : State} (mild : s.sevOf e ≠ 3) : p (raise0 e k inj s) = p s := by
  unfold raise0
  split
  · rfl
  extract_lets sev pin f t1 t2 t3 f' t4 t5 t6
  have h1 : p t1 = p s := flt s _
  have h2 : p t2 = p s := by
    unfold t2 recordEvent
    split
    · dsimp only
      split
      · exact (flt t1 _).trans h1
      · exact (flt t1 _).trans h1
    · exact h1
  have h3 : p t3 = p s := by
    unfold t3 queueEvent
    split
    · exact (flt t2 _).trans h2
    · exact (flt t2 _).trans h2
  have h4 : p t4 = p s := by unfold t4; split; exacts [(flt t3 _).trans h3, h3]
  have h5 : p t5 = p s := by unfold t5; split; exacts [(pendBench_same benches wedges ..).trans h4, h4]
  have h6 : p t6 = p s := by unfold t6; split; exacts [(pendLease_same leases wedges ..).trans h5, h5]
  exact (congrArg p (if_neg mild)).trans h6

include flt benches leases in
theorem raise_same_of_mild {e : Nat} {s : State} (mild : s.sevOf e ≠ 3) : p (raise e 0xFF s) = p s := by
  rw [raise_of_mild mild]
  exact raise0_same_of_mild flt benches leases wedges mild

end

theorem raise_gal_of_mild {e : Nat} {s : State} (mild : s.sevOf e ≠ 3) : (raise e 0xFF s).gal = s.gal :=
  raise_same_of_mild (p := State.gal) (fun _ _ => rfl) (fun _ _ => rfl) (fun _ _ => rfl) (fun _ _ _ => rfl) mild

/-! ### The record of an injected event -/

/-- The open record names an injected event. -/
def State.injected (s : State) : Bool := s.flt.rec_.any (·.inj)

theorem recordEvent_injected {e sev k : Nat} {inj : Bool} {s : State} (h : s.injected = true ∨ inj = true) : (recordEvent e sev k inj s).injected = true := by
  unfold State.injected at h
  unfold recordEvent
  extract_lets g
  cases held : s.flt.rec_ with
  | none =>
    rw [held] at h
    exact h.resolve_left (by decide)
  | some r =>
    rw [held] at h
    have both : (r.inj || inj) = true := (Bool.or_eq_true_iff ..).2 h
    dsimp only
    split
    · exact both
    · exact both

theorem queueEvent_injected (x : EvEntry) (s : State) : (queueEvent x s).injected = s.injected := by
  unfold queueEvent State.injected
  split
  · rfl
  · cases s.flt.rec_ <;> rfl

/-- An event keeps the mark of an injected one, and an injected event that is recorded sets it. -/
theorem raise0_injected {e k : Nat} {inj : Bool} {s : State}
    (h : s.injected = true ∨ inj = true ∧ s.srcPresent e = true ∧ s.pw.stage ≠ .off ∧ 1 ≤ s.sevOf e) : (raise0 e k inj s).injected = true := by
  unfold raise0
  split
  next off =>
    refine h.resolve_right ?_
    rintro ⟨-, here, on, -⟩
    simp [here, on] at off
  extract_lets sev pin f t1 t2 t3 f' t4 t5 t6
  have h1 : t1.injected = s.injected := rfl
  have h2 : t2.injected = true := by
    unfold t2
    split
    next some =>
      refine recordEvent_injected (h.imp (h1.trans ·) And.left)
    next none => exact h1.trans (h.resolve_right fun recorded => none recorded.2.2.2)
  have h3 : t3.injected = true := (queueEvent_injected ..).trans h2
  have h4 : t4.injected = true := by unfold t4; split; exacts [h3, h3]
  have h5 : t5.injected = true := by unfold t5; split; exacts [(pendBench_same (p := State.injected) (fun _ _ => rfl) (fun _ _ _ => rfl) ..).trans h4, h4]
  have h6 : t6.injected = true := by unfold t6; split; exacts [(pendLease_same (p := State.injected) (fun _ _ => rfl) (fun _ _ _ => rfl) ..).trans h5, h5]
  split
  · unfold State.injected
    rw [setLatch_flt]
    exact h6
  · exact h6

/-- An injected event of a source that is there is recorded as such. -/
theorem raiseInj_injected {e k : Nat} {s : State} (here : s.srcPresent e = true) (on : s.pw.stage ≠ .off) (some : 1 ≤ s.sevOf e) :
    (raiseInj e k true s).injected = true := by
  have first : (raise0 e k true s).injected = true := raise0_injected (.inr ⟨rfl, here, on, some⟩)
  have after : Same State.injected (raise0 e k true s) (raiseInj e k true s) :=
    raiseInj_same (p := State.injected) (fun _ _ t _ h => (raise0_injected (s := t) (.inl (Eq.trans h first))).trans first.symm) (fun _ _ _ => rfl)
      (fun _ _ => rfl) .rfl
  exact Eq.trans after first

/-! ### The certificate -/

theorem bumpGen_lcs (i sub : Nat) (s : State) : (bumpGen i sub s).lcs = s.lcs := rfl

/-- The rights' end: the grant, its lease and its certificate are gone. -/
def Gal.lapsed (g : Gal) : Gal := { g with grant := 0, lease := 0, cert := [] }

theorem lapseGallery_gal (s : State) : (lapseGallery s).gal = s.gal.lapsed := by
  unfold lapseGallery
  dsimp only
  split
  · rfl
  · exact bumpGen_gal ..

theorem lapseNow_gal {s : State} (mild : s.sevOf 0x339 ≠ 3) : (lapseNow s).gal = s.gal.lapsed := by
  unfold lapseNow
  split
  · exact lapseGallery_gal s
  · have same : (lapseGallery s).sevOf 0x339 = s.sevOf 0x339 := by
      unfold State.sevOf
      rw [lapseGallery_flt]
    exact (raise_gal_of_mild (e := 0x339) (by rw [same]; exact mild)).trans (lapseGallery_gal s)

section
variable {ep : Nat} {d : Bytes} {s : State} (some : d ≠ [])
include some

/-- A certificate that passes its checks replaces the one before and is journalled. -/
theorem galleryCert_of_good (good : s.certRefusal ep d = 0) (mild : s.sevOf 0x339 ≠ 3) : ∃ t, galleryCert ep d s = (.ok, t) ∧
    t.gal = { s.gal with cert := d, grant := BitVec.ofNat 32 (fieldLE d 44 4), lease := BitVec.ofNat 8 (fieldLE d 7 1) } ∧
      ∃ x : LRec, x.kind = .cert ∧ x.digest = sha384 d ∧ x.counter = s.lcs.count ∧ t.lcs = { s.lcs with journal := s.lcs.journal ++ [x] } := by
  let r : LRec := { kind := .cert, from_ := s.lcs.state.code, to_ := s.lcs.state.code, counter := s.lcs.count, digest := sha384 d, lnonce := [] }
  let u : State := (s.modLcs fun l => { l with journal := l.journal ++ [r] }).modGal fun g =>
    { g with cert := d, grant := BitVec.ofNat 32 (fieldLE d 44 4), lease := BitVec.ofNat 8 (fieldLE d 7 1) }
  have gal : (raiseIsland 57 u).gal = u.gal := raise_gal_of_mild (s := u) mild
  have lcs : (raiseIsland 57 u).lcs = u.lcs := calm_lcs (raise_calm .rfl)
  have done : galleryCert ep d s = (.ok, bumpGen 0x9010 1 (bumpGen 0x9021 0 (raiseIsland 57 u))) :=
    (if_neg some).trans (if_neg (not_not.2 good))
  exact ⟨_, done, (bumpGen_gal ..).trans ((bumpGen_gal ..).trans gal), r, rfl, rfl, rfl, (bumpGen_lcs ..).trans ((bumpGen_lcs ..).trans lcs)⟩

theorem galleryCert_of_bad (bad : s.certRefusal ep d ≠ 0) (mild : s.sevOf 0x336 ≠ 3) : ∃ t, galleryCert ep d s = (.refused, t) ∧
    t.gal = { s.gal with refusal := s.certRefusal ep d } ∧ t.lcs = s.lcs :=
  ⟨_, (if_neg some).trans (if_pos bad), raise_gal_of_mild (e := 0x336) (s := s.modGal fun g => { g with refusal := s.certRefusal ep d }) mild,
    calm_lcs (s := s.modGal fun g => { g with refusal := s.certRefusal ep d }) (raise_calm .rfl)⟩

end

/-! ### The TAP -/

theorem srcPresent_debug {s : State} : s.srcPresent 0x33A = true := by
  unfold State.srcPresent
  have table : (srcTable 0x33A).isSome = true := by decide
  rw [table]
  rfl

theorem stage_on_of_powered {s : State} (on : s.powered = true) : s.pw.stage ≠ .off := by
  unfold State.powered at on
  simp only [Bool.and_eq_true, decide_eq_true_eq] at on
  exact on.2

/-- What the TAP is turned away with is shifted out, moves nothing, and is counted. -/
theorem tapEvent_leaves {s : State} (on : s.powered = true) (b : Bytes) : (raiseIsland 58 (tapOut b s)).cores = s.cores ∧
    (raiseIsland 58 (tapOut b s)).ram = s.ram ∧ (raiseIsland 58 (tapOut b s)).out.tap = b ∧ (raiseIsland 58 (tapOut b s)).pfl = s.pfl ∧
      Counted 0x33A s (raiseIsland 58 (tapOut b s)) :=
  ⟨calm_cores (s := tapOut b s) (raise_calm .rfl), calm_ram (s := tapOut b s) (raise_calm .rfl),
    congrArg Out.tap (calm_out (s := tapOut b s) (raise_calm .rfl)), calm_pfl (s := tapOut b s) (raise_calm .rfl),
    raise_counted (s := tapOut b s) ⟨by decide, by decide⟩ srcPresent_debug (stage_on_of_powered on)⟩

/-- The TAP turns an instruction away. -/
def TurnedAway (o : TapOp) (s : State) : Prop :=
  ∃ t, exec (.tapInstruction o) s = .next t ∧ t.cores = s.cores ∧ t.ram = s.ram ∧ t.out.tap = [] ∧ Counted 0x33A s t

section
variable {s : State} (on : s.powered = true) (alive : s.lcs.state ≠ .scrapped)
include on alive

theorem tap_idcode : exec (.tapInstruction .idcode) s = .next (tapOut Config.idcode s) := if_neg (by simp [on, alive])

theorem tap_bypass : exec (.tapInstruction .bypass) s = .next (tapOut [] s) := if_neg (by simp [on, alive])

theorem tap_rights : exec (.tapInstruction .rights) s = .next (underRight (s.galRights ≠ 0) (tapOut (leBytes 4 s.galRights.toNat)) s) :=
  if_neg (by simp [on, alive])

theorem tap_halt (c : Nat) : exec (.tapInstruction (.halt c)) s =
    .next (underRight (s.mayHalt c) (fun s => s.modCore c fun x => { stopLong x with halted := true, stepOne := false }) s) := if_neg (by simp [on, alive])

theorem tap_resume (c : Nat) : exec (.tapInstruction (.resume c)) s =
    .next (underRight (s.mayHalt c) (fun s => s.modCore c fun x => { x with halted := false, stepOne := false }) s) := if_neg (by simp [on, alive])

theorem tap_step (c : Nat) : exec (.tapInstruction (.step c)) s =
    .next (underRight (s.mayHalt c) (fun s => s.modCore c fun x => { x with stepOne := x.halted }) s) := if_neg (by simp [on, alive])

theorem tap_readCore (c i : Nat) : exec (.tapInstruction (.readCore c i)) s = .next (underRight (s.mayHalt c) (tapOut ((s.core c).readReg i)) s) :=
  if_neg (by simp [on, alive])

theorem tap_writeCore (c i v : Nat) : exec (.tapInstruction (.writeCore c i v)) s =
    .next (underRight (s.mayHalt c) (fun s => s.modCore c fun x => x.writeReg i v) s) := if_neg (by simp [on, alive])

theorem tap_readMemory (a n : Nat) : exec (.tapInstruction (.readMemory a n)) s = .next (underRight (s.mayRead a n) (tapMemory a n) s) :=
  if_neg (by simp [on, alive])

theorem tap_readRegister (a n : Nat) : exec (.tapInstruction (.readRegister a n)) s =
    .next (underRight (s.galRights.getLsbD 7) (fun s => let (b, s) := tapRegs a n s; tapOut b s) s) := if_neg (by simp [on, alive])

theorem tap_readFlash {a n : Nat} (inside : a + n ≤ flashSize) : exec (.tapInstruction (.readFlash a n)) s =
    .next (underRight (s.galRights.getLsbD 11) (tapFlash a n) s) := (if_neg (by simp [on, alive])).trans (if_neg (Nat.not_lt.2 inside))

theorem tap_other (i n : Nat) : exec (.tapInstruction (.other i n)) s = .next (underRight (s.galRights.getLsbD i) (tapOther i n) s) :=
  if_neg (by simp [on, alive])

omit alive in
/-- Without its right. -/
theorem turnedAway_of_not {o : TapOp} {ok : Bool} {f : State → State} (done : exec (.tapInstruction o) s = .next (underRight ok f s)) (not : ok = false) :
    TurnedAway o s := by
  obtain ⟨cores, ram, tap, -, counted⟩ := tapEvent_leaves on []
  exact ⟨_, done.trans (congrArg Host.Outcome.next (if_neg (Bool.eq_false_iff.1 not))), cores, ram, tap, counted⟩

end

theorem underRight_of_right {o : TapOp} {ok : Bool} {f : State → State} {s : State} (done : exec (.tapInstruction o) s = .next (underRight ok f s)) (right : ok = true) :
    exec (.tapInstruction o) s = .next (f s) := done.trans (congrArg Host.Outcome.next (if_pos right))

/-! ### Consent -/

/-- What entry 0x9011 does. -/
def consentEntry (r : Req) (value : Bytes) (s : State) : DStat × Bytes × State :=
  let k := r.sub - 1
  let own := ownRole r.ep = .lease k
  let other := match ownRole r.ep with | .lease _ => !own | _ => false
  if s.nLease ≤ k || other then (.noEntry, [], s)
  else if !own then (.denied, [], s)
  else if value.length ≠ 1 then (.type, [], s)
  else if 2 ≤ leNat value then (.range, [], s)
  else (.ok, [], s.modLease k fun l => { l with consent := leNat value = 1 })

theorem galleryConsent_of_entry {r : Req} {value : Bytes} {s : State} (index : r.index = 0x9011) (low : 1 ≤ r.sub) (high : r.sub ≤ 64) :
    exec (.galleryConsentWrite r value) s = .next (request r 0x03 (consentEntry r value) s value.length) := if_neg (by simp [index]; omega)

theorem ownRole_lease (k : Nat) : ownRole (k + 2) = .lease k := by simp [ownRole]

section
variable {r : Req} {value : Bytes} {s : State} {k : Nat} (sub : r.sub = k + 1)
include sub

/-- A lease gives its own consent. -/
theorem consentEntry_of_own (present : k < s.nLease) (own : r.ep = k + 2) (length : value.length = 1) (low : leNat value < 2) :
    consentEntry r value s = (.ok, [], s.modLease k fun l => { l with consent := leNat value = 1 }) := by
  have role : ownRole r.ep = .lease k := by rw [own]; exact ownRole_lease k
  unfold consentEntry
  rw [sub, role]
  refine (if_neg ?_).trans ((if_neg ?_).trans ((if_neg ?_).trans (if_neg ?_)))
  · simp; omega
  · simp
  · simp [length]
  · omega

theorem consentEntry_of_main (present : k < s.nLease) (main : r.ep ≤ 1) : consentEntry r value s = (.denied, [], s) := by
  have role : ownRole r.ep = .bmc ∨ ownRole r.ep = .host := by
    unfold ownRole
    split
    · exact .inl rfl
    · exact .inr (if_pos (by omega))
  unfold consentEntry
  rw [sub]
  rcases role with role | role <;> rw [role] <;> exact (if_neg (by simp; omega)).trans (if_pos rfl)

theorem consentEntry_of_other (some : 2 ≤ r.ep) (other : r.ep ≠ k + 2) : consentEntry r value s = (.noEntry, [], s) := by
  have role : ownRole r.ep = .lease (r.ep - 2) := (if_neg (by omega)).trans (if_neg (by omega))
  unfold consentEntry
  rw [sub, role]
  exact if_pos (by simp; omega)

end

theorem fixLen_of_length {n : Nat} {b : Bytes} (length : b.length = n) : fixLen n b = b := by
  rw [fixLen, ← length]
  exact List.take_left

end Sys2Proof.Machine

namespace Sys2Proof.Proofs
open Sys2Proof Sys2Proof.Machine Sys2Proof.Claims

/-- Settles O47: a certificate replaces, lapses or is refused; a TAP instruction is its row or is turned away; an injected event is recorded as such. -/
theorem gallery : Obligations.Gallery := by
  intro r d k c i v a n g e s same lapsed
  refine ⟨fun h held index sub => ?cert, fun runs some mild due => ?lapse, fun stands => ?stands, fun h index sub present => ?consent,
    fun runs => if_pos runs, fun dead o => if_pos ?_, fun on alive mild => ?tap, fun runs here => ?inject⟩
  case cert =>
    intro code
    have none : subLease r.index = none := (congrArg subLease index).trans (by decide)
    have visible : s.hidden r = false := visible_common none (by omega)
    have any : ∀ {ep : Nat}, s.allowed ep anyRole = true := by
      intro ep
      unfold State.allowed ownRole
      rcases ep with _ | _ | ep <;> simp [anyRole]
    obtain ⟨b, e, c, seen⟩ := setSession_counted_eq r s
    have done : ∀ d, exec (.galleryCertWrite r d) s = .next (endObject r anyRole id (galleryCert r.ep d) s) := fun d => if_neg (by simp [index, sub])
    refine ⟨fun some good mild => ?_, fun main pass => ?_, fun some bad mild => ?_, fun main mild => ?_⟩
    · obtain ⟨t, effect, leaves⟩ := galleryCert_of_good (ep := r.ep) (s := setSession r.ep .none (s.counted r)) some (by rw [seen]; exact good) (by rw [seen]; exact mild)
      rw [seen] at leaves
      exact answers_object (done d) h visible any held effect leaves
    · refine (if_neg (by simp [main])).trans (if_pos ?_)
      simp [State.lcsBusy, Option.isSome_iff_ne_none, pass]
    · obtain ⟨t, effect, leaves⟩ := galleryCert_of_bad (ep := r.ep) (s := setSession r.ep .none (s.counted r)) some (by rw [seen]; exact bad) (by rw [seen]; exact mild)
      rw [seen] at leaves
      exact answers_object (done d) h visible any held effect leaves
    · have gal := lapseNow_gal (s := setSession r.ep .none (s.counted r)) (by rw [seen]; exact mild)
      refine answers_object (done []) h visible any held ((if_pos rfl).trans (if_pos (by simp [main]))) (gal.trans ?_)
      rw [seen]
      rfl
  case lapse =>
    refine ⟨_, if_pos (by simp [some, due, runs]), lapseNow_gal mild⟩
  case stands => exact if_neg (by simp; omega)
  case consent =>
    have few : r.sub - 1 = k := by omega
    have done : ∀ st t, consentEntry r d (s.counted r) = (st, [], t) → d.length ≤ 256 →
        exec (.galleryConsentWrite r d) s = .next (respond (s.epVersion r.ep) r 3 st [] t) := by
      intro st t effect short
      have most := nLease_le s
      rw [galleryConsent_of_entry index (by omega) (by omega), request_of_accepted h short, effect]
    obtain ⟨b, e, c, seen⟩ := counted_eq' r s
    have leases : (s.counted r).nLease = s.nLease := by rw [seen]; rfl
    refine ⟨fun ep length low => ?_, fun main short => ?_, fun some other short => ?_⟩
    · refine answers_respond (done _ _ (consentEntry_of_own sub (by rw [leases]; exact present) ep length low) (by omega)) (aside_respond ?_)
      rw [seen]
      rfl
    · exact answers_respond (done _ _ (consentEntry_of_main sub (by rw [leases]; exact present) main) short) (aside_respond (aside_counted r s))
    · exact answers_respond (done _ _ (consentEntry_of_other sub some other) short) (aside_respond (aside_counted r s))
  case tap =>
    intro shifts turned becomes
    refine ⟨tap_idcode on alive, tap_bypass on alive, fun some => underRight_of_right (tap_rights on alive) (decide_eq_true some),
      fun none => turnedAway_of_not on (tap_rights on alive) (by simp [none]), fun not => ⟨?_, ?_, ?_, ?_, ?_⟩, fun may => ⟨?_, ?_, ?_, ?_, fun low => ?_⟩,
      fun may free => ?_, fun x may held => ?_, fun not => turnedAway_of_not on (tap_readMemory on alive a n) not, fun b u right reads => ?_,
      fun not => turnedAway_of_not on (tap_readRegister on alive a n) not, fun inside right hidden => ?_,
      fun inside not => turnedAway_of_not on (tap_readFlash on alive inside) not, fun right => ?_, fun not => turnedAway_of_not on (tap_other on alive i n) not⟩
    · exact turnedAway_of_not on (tap_halt on alive c) not
    · exact turnedAway_of_not on (tap_resume on alive c) not
    · exact turnedAway_of_not on (tap_step on alive c) not
    · exact turnedAway_of_not on (tap_readCore on alive c i) not
    · exact turnedAway_of_not on (tap_writeCore on alive c i v) not
    · exact underRight_of_right (tap_halt on alive c) may
    · exact underRight_of_right (tap_resume on alive c) may
    · exact underRight_of_right (tap_step on alive c) may
    · exact underRight_of_right (tap_readCore on alive c i) may
    · exact (underRight_of_right (tap_writeCore on alive c i v) may).trans (congrArg (fun x => Host.Outcome.next (s.setCore c x)) (if_pos low))
    · refine (underRight_of_right (tap_readMemory on alive a n) may).trans (congrArg Host.Outcome.next ?_)
      unfold tapMemory
      rw [free]
      rfl
    · refine ⟨_, underRight_of_right (tap_readMemory on alive a n) may, ?_⟩
      unfold tapMemory
      rw [held]
      exact congrArg Out.tap (calm_out (s := tapOut [] s) (raise_calm .rfl))
    · refine (underRight_of_right (tap_readRegister on alive a 1) right).trans (congrArg Host.Outcome.next ?_)
      unfold tapRegs
      rw [reads]
      rfl
    · have hides : tapFlash a n s = raiseIsland 58 (tapOut (List.replicate n 0) s) := if_pos hidden
      obtain ⟨-, -, tap, pfl, counted⟩ := tapEvent_leaves on (List.replicate n 0)
      exact ⟨_, (underRight_of_right (tap_readFlash on alive inside) right).trans (congrArg Host.Outcome.next hides), tap, pfl, counted⟩
    · refine (underRight_of_right (tap_other on alive 10 12) right).trans (congrArg Host.Outcome.next ((if_pos rfl).trans ?_))
      exact congrArg (tapOut · s) (fixLen_of_length (by simp [State.dispatchTrace, leBytes]))
  case inject =>
    have on := stage_on_of_islandRuns runs
    have done : ∀ e, exec (.fltInjGo e) s = .next (inject e.toNat s) := fun e => if_pos runs
    refine ⟨fun right some => ⟨_, done e, ?_⟩, fun right none => ⟨_, done e, ?_⟩, fun not other mild => ⟨_, done e, ?_⟩⟩
    · have injected := raiseInj_injected (k := if 0x380 ≤ e.toNat && e.toNat < 0x3C0 then e.toNat - 0x380 else 0xFF) here on some
      rw [inject, right]
      obtain ⟨x, held, inj⟩ := Option.any_eq_true .. |>.1 injected
      exact ⟨x, held, inj⟩
    · have alone : inject e.toNat s = raise0 e.toNat (if 0x380 ≤ e.toNat && e.toNat < 0x3C0 then e.toNat - 0x380 else 0xFF) true s := by
        rw [inject, right]
        unfold raiseInj
        simp [none]
      rw [alone, Counted, raise0_count, if_pos ⟨here, on⟩]
      exact tget_tset_same ..
    · have event : inject e.toNat s = raise 0x33A 0xFF s := if_pos (by rw [not]; rfl)
      rw [event]
      refine ⟨raise_counted ⟨by decide, by decide⟩ srcPresent_debug on, ?_⟩
      have apart : e.toNat ≠ 0x33A := fun same => other (BitVec.eq_of_toNat_eq same)
      rw [raise_of_mild mild, raise0_count, if_pos ⟨srcPresent_debug, on⟩]
      exact tget_tset_ne _ _ _ apart
  · simpa using dead

end Sys2Proof.Proofs

/-! PROOFS. The host link: resets of functions, SR-IOV, BAR offsets, the link itself (R60, R90-R97). -/

namespace Sys2Proof.Machine
open Sys2Proof Sys2Proof.Claims

/-! ### The reset of a function -/

/-- What the reset of a function leaves. -/
def State.linked (s : State) := (s.link, s.ram, s.pw, s.out)

theorem dropSession_leaves (e : Nat) (s : State) : (dropSession e s).linked = s.linked ∧ (dropSession e s).queues = s.queues := by
  unfold dropSession
  extract_lets t
  split
  · exact ⟨rfl, rfl⟩
  · exact ⟨rfl, rfl⟩

theorem discardEp_leaves (e : Nat) (s : State) :
    ((discardEp e s).ep e).ver = none ∧ (discardEp e s).linked = s.linked ∧ (discardEp e s).queues = s.queues := by
  obtain ⟨linked, queues⟩ := dropSession_leaves e s
  exact ⟨congrArg Ep.ver (tget_tset_same ..), linked, queues⟩

theorem resetQueue_linked (k q : Nat) (s : State) : (resetQueue k q s).linked = s.linked := by
  unfold resetQueue
  extract_lets x
  split
  · rfl
  · rfl

/-- A reset leaves the other queues. -/
theorem resetQueue_state (k q j : Nat) (s : State) : ((resetQueue k q s).queue k j).state =
    if j = q ∧ (s.queue k q).state ≠ .disabled then .resetting else (s.queue k j).state := by
  unfold resetQueue
  extract_lets x keep cmds
  by_cases off : (s.queue k q).state = .disabled
  · rw [if_pos off, if_neg (fun h => h.2 off)]
  · rw [if_neg off]
    refine (congrArg Queue.state (tget_tset ..)).trans ?_
    by_cases here : j = q
    · rw [if_pos (by omega), if_pos ⟨here, off⟩]
    · rw [if_neg (by omega), if_neg (fun h => here h.1)]
      rfl

theorem resetQueues_state (k n : Nat) (s : State) (j : Nat) : ((forN n (fun q t => resetQueue k q t) s).queue k j).state =
    if j < n ∧ (s.queue k j).state ≠ .disabled then .resetting else (s.queue k j).state := by
  induction n with
  | zero => exact (if_neg (fun h => Nat.not_lt_zero _ h.1)).symm
  | succ n ih =>
    rw [forN_succ, resetQueue_state]
    by_cases here : j = n
    · subst here
      rw [ih, if_neg (fun h : j < j ∧ _ => Nat.lt_irrefl _ h.1)]
      by_cases on : (s.queue k j).state = .disabled
      · rw [if_neg (fun h => h.2 on), if_neg (fun h => h.2 on)]
      · rw [if_pos ⟨rfl, on⟩, if_pos ⟨Nat.lt_succ_self j, on⟩]
    · rw [if_neg (fun h => here h.1), ih]
      exact if_congr (by simp only [show (j < n) = (j < n + 1) from propext (by omega)]) rfl rfl

/-- The reset of a VF resets its queues and forgets its endpoint's version. -/
theorem flrVf_leaves (k : Nat) (s : State) : ((flrVf k s).ep (k + 2)).ver = none ∧ (flrVf k s).linked = s.linked ∧
    ∀ q < 8, ((flrVf k s).queue k q).state = if (s.queue k q).state = .disabled then .disabled else .resetting := by
  obtain ⟨ver, linked, queues⟩ := discardEp_leaves (k + 2) (forN 8 (fun q t => resetQueue k q t) s)
  have before : Same State.linked s (forN 8 (fun q t => resetQueue k q t) s) := .forN (fun q u h => h.same (resetQueue_linked k q u)) .rfl
  refine ⟨ver, linked.trans before, fun q low => ?_⟩
  have state := resetQueues_state k 8 s q
  refine (congrArg (fun t : Tbl Queue => (tget {} t (8 * k + q)).state) queues).trans (state.trans ?_)
  by_cases off : (s.queue k q).state = .disabled
  · rw [if_neg (fun h => h.2 off), if_pos off, off]
  · rw [if_pos ⟨low, off⟩, if_neg off]

/-- The reset of the PF disables every VF and clears the link's keys. -/
theorem flrPf_leaves (s : State) : (flrPf s).link = { s.link with numVfs := 0 } ∧ (flrPf s).spdm.ide = none ∧ ((flrPf s).ep 1).ver = none ∧
    (flrPf s).pw = s.pw := by
  let t := forN s.link.numVfs flrVf s
  have before : Same State.linked s t := .forN (fun k u h => h.same (flrVf_leaves k u).2.1) .rfl
  obtain ⟨ver, linked, -⟩ := discardEp_leaves 1 t
  have same := linked.trans before
  exact ⟨congrArg (fun l : Link => { l with numVfs := 0 }) (congrArg Prod.fst same), rfl, ver, congrArg (·.2.2.1) same⟩

end Sys2Proof.Machine

namespace Sys2Proof.Proofs
open Sys2Proof Sys2Proof.Machine Sys2Proof.Claims

/-- Settles O22: the resets of functions are `flrVf` and `flrPf` beside their event; each link change leaves its fields beside its event. -/
theorem hostLink : Obligations.HostLink := by
  intro k n off rate width s
  refine ⟨fun open_ => ?vf, fun runs up => ⟨?pf, ?vfs, fun present undef => ⟨?read, ?write⟩⟩, fun power => ⟨fun low high lanes => ?up, fun bad => ?bad, ?down, fun perst => ?perst,
    fun up low high => ?poison⟩⟩
  case vf =>
    have done : exec (.vfFlr k) s = .next (raiseHost 66 k (flrVf k s)) := if_pos open_
    obtain ⟨ver, -, queues⟩ := flrVf_leaves k s
    generalize flrVf k s = t at done ver queues
    have calm : (raiseHost 66 k t).calm = t.calm := raise_calm .rfl
    have eps : (raiseHost 66 k t).dic.eps = t.dic.eps := (congrArg (fun t : State => t.dic.eps) calm :)
    have same : (raiseHost 66 k t).queues = t.queues := calm_queues calm
    exact ⟨_, done, (congrArg (fun e => (tget ({} : Ep) e (k + 2)).ver) eps).trans ver,
      fun q low => (congrArg (fun t => (tget ({} : Queue) t (8 * k + q)).state) same).trans (queues q low)⟩
  case pf =>
    have calm : (raiseHost 67 0xFF (flrPf s)).calm = (flrPf s).calm := raise_calm .rfl
    obtain ⟨link, ide, ver, -⟩ := flrPf_leaves s
    have same : (raiseHost 67 0xFF (flrPf s)).link = { s.link with numVfs := 0 } := (calm_link calm).trans link
    refine ⟨_, if_pos (by simp [runs, up]), congrArg Link.numVfs same, (congrArg (fun t : State => t.spdm.ide) calm :).trans ide,
      (congrArg (fun t : State => (t.ep 1).ver) calm :).trans ver, (congrArg Link.up same).trans up⟩
  case vfs =>
    have after : ∀ m, Same State.linked s (forN s.link.numVfs (fun k t => if m ≤ k then flrVf k t else t) s) :=
      fun m => .forN (fun k u h => .ite (h.same (flrVf_leaves k u).2.1) h) .rfl
    refine ⟨_, if_neg (by simp [runs, up]), ?_, ?_, ?_⟩
    · by_cases few : n ≤ s.nLease
      · exact (if_neg (Nat.not_lt.2 few)).trans (if_pos few).symm
      · exact (if_pos (Nat.not_le.1 few)).trans (if_neg few).symm
    · exact (congrArg (fun p => p.1.up) (after _)).trans up
    · exact congrArg (·.2.1) (after _)
  case read =>
    have calm : (barDecode k false s).calm = ({ s with out := { s.out with bus := .ok (List.replicate 8 0) } } : State).calm := raise_calm .rfl
    exact ⟨_, if_pos (by simp [runs, up, present, undef]), (congrArg (fun t : State => t.out.bus) calm :), (congrArg State.queues calm :), (congrArg State.ram calm :)⟩
  case write =>
    have calm : (barDecode k true s).calm = ({ s with out := { s.out with bus := .ok [] } } : State).calm := raise_calm .rfl
    exact ⟨_, if_pos (by simp [runs, up, present, undef]), (congrArg (fun t : State => t.out.bus) calm :), (congrArg State.queues calm :), (congrArg State.ram calm :)⟩
  case up =>
    have rates : linkRates.contains rate = true := by
      interval_cases rate <;> rfl
    have widths : linkWidths.contains width = true := by
      rcases lanes with rfl | rfl | rfl | rfl <;> rfl
    let t : State := { s with link := { s.link with up := true, rate := rate, width := width }, pw := { s.pw with perst := true } }
    have done : exec (.pcieLinkChange true ⟨rate, width⟩) s = .next (if rate = 5 && width = 8 then t else raiseHost 69 0xFF t) :=
      (if_neg (by rw [power, rates, widths]; decide)).trans (if_pos rfl)
    have calm : (if rate = 5 && width = 8 then t else raiseHost 69 0xFF t).calm = t.calm := by
      split
      · rfl
      · exact raise_calm .rfl
    refine ⟨_, done, ?_⟩
    rw [calm_link calm, calm_pw calm]
    exact ⟨rfl, rfl, rfl, rfl, rfl⟩
  case bad =>
    refine if_pos ?_
    have other : linkRates.contains rate = false ∨ linkWidths.contains width = false := by
      rcases bad with zero | high | lanes
      · exact .inl (by simp [linkRates, zero])
      · exact .inl (by simp [linkRates]; omega)
      · exact .inr (by simpa [linkWidths] using lanes)
    rcases other with h | h
    · rw [h]
      simp
    · rw [h]
      simp
  case down =>
    let t : State := { s with link := { s.link with up := false, rate := 0, width := 0 } }
    have done : exec (.pcieLinkChange false ⟨rate, width⟩) s = .next (if s.link.up then raiseHost 68 0xFF t else t) :=
      (if_neg (by simp [power])).trans (if_neg (by decide))
    have calm : (if s.link.up then raiseHost 68 0xFF t else t).calm = t.calm := by
      split
      · exact raise_calm .rfl
      · rfl
    refine ⟨_, done, ?_⟩
    rw [calm_link calm, calm_pw calm]
    exact ⟨rfl, rfl, rfl, rfl⟩
  case perst =>
    let u : State := { s with pw := { s.pw with perst := false }, link := { s.link with up := false, rate := 0, width := 0 } }
    have done : exec .pciePerst s = .next (if s.link.up then raiseHost 68 0xFF (flrPf u) else flrPf u) := if_neg (by simp [power, perst])
    have calm : (if s.link.up then raiseHost 68 0xFF (flrPf u) else flrPf u).calm = (flrPf u).calm := by
      split
      · exact raise_calm .rfl
      · rfl
    obtain ⟨link, ide, -, pw⟩ := flrPf_leaves u
    refine ⟨_, done, ?_⟩
    rw [calm_link calm, calm_pw calm, calm_spdm calm, link, pw]
    exact ⟨rfl, rfl, rfl, ide⟩
  case poison => exact if_pos (by simp [power, up, low, high])

end Sys2Proof.Proofs

/-! PROOFS. Lease programs: load, verification, copy, key, SVN (R290-R296). -/

namespace Sys2Proof.Machine
open Sys2Proof Sys2Proof.Claims

/-! ### What an event leaves of a lease -/

theorem tget_map_same {α γ : Type} {d : α} {q : α → γ} {f : Nat × α → Nat × α} (place : ∀ e, (f e).1 = e.1) (keeps : ∀ e, q (f e).2 = q e.2) (l : Tbl α) (j : Nat) :
    q (tget d (l.map f) j) = q (tget d l j) := by
  induction l with
  | nil => rfl
  | cons e l ih =>
    obtain ⟨i, x⟩ := e
    have first : ∀ (r : Tbl α), tget d (f (i, x) :: r) j = if j = i then (f (i, x)).2 else tget d r j := fun r => by
      rw [show f (i, x) = (i, (f (i, x)).2) from Prod.ext (place _) rfl]
      rfl
    rw [List.map_cons, first]
    by_cases here : j = i
    · rw [if_pos here]
      exact (keeps _).trans (congrArg q (if_pos here).symm)
    · rw [if_neg here, ih]
      exact congrArg q (if_neg here).symm

theorem journal_leases (x : CRec) (s : State) : (journal x s).leases = s.leases := by
  unfold journal
  extract_lets r
  exact bumpGen_leases ..

/-- The end of a ceremony marks the leases that it paused. -/
theorem closeCeremony_map (reason : Nat) (s : State) : ∃ f : Nat × Lease → Nat × Lease, (closeCeremony reason s).leases = s.leases.map f ∧ (∀ e, (f e).1 = e.1) ∧
    ∀ e, (f e).2 = e.2 ∨ (f e).2 = { e.2 with resumeAtFrame := true } := by
  unfold closeCeremony
  split
  · exact ⟨id, (List.map_id _).symm, fun _ => rfl, fun _ => .inl rfl⟩
  next c _ =>
    refine ⟨_, congrArg _ (journal_leases { seq := 0, time := 0, kind := 7, ref := c.number, record := c.record s.time64 reason } s), fun e => ?_, fun e => ?_⟩
    · dsimp only; split <;> rfl
    · dsimp only
      split
      · exact .inr rfl
      · exact .inl rfl

section
variable {γ : Type} {q : Lease → γ} (pends : ∀ l x, q { l with qPend := x } = q l) (grants : ∀ l g e, q { l with grant := g, ending := e } = q l)
  (resumes : ∀ l, q { l with resumeAtFrame := true } = q l)

include pends in
theorem pendLease_lease (k j : Nat) (s : State) : q ((pendLease k s).lease j) = q (s.lease j) := by
  unfold pendLease
  extract_lets l
  split
  · rfl
  · have leases := wedges_same (p := State.leases) (k := k) (t := s.setLease k { l with qPend := some s.pw.now }) fun _ _ => rfl
    refine (congrArg q (lease_of_leases leases j)).trans ?_
    rw [State.setLease, State.lease, tget_tset]
    split
    next here =>
      subst here
      exact pends _ _
    · rfl

include grants resumes in
theorem setLatch_lease (cause j : Nat) (s : State) : q ((setLatch cause s).lease j) = q (s.lease j) := by
  unfold setLatch
  extract_lets s1 s2 s3
  have first : s1.leases = s.leases := by
    unfold s1 latchOnly
    split <;> rfl
  have ends : q (s2.lease j) = q (s.lease j) :=
    (tget_map_same (f := fun (e : Nat × Lease) => (e.1, e.2.endGrant)) (fun _ => rfl) (fun e => grants e.2 _ _) s1.leases j).trans (congrArg (fun l => q (tget {} l j)) first)
  have wedges : Same State.leases s2 s3 := .forN (fun _ _ h => .ite (h.same (by rfl)) h) .rfl
  have closes : q ((closeCeremony 2 s3).lease j) = q (s3.lease j) := by
    obtain ⟨f, leases, place, resume⟩ := closeCeremony_map 2 s3
    refine (congrArg (fun l => q (tget {} l j)) leases).trans (tget_map_same place (fun e => ?_) s3.leases j)
    rcases resume e with same | resumed
    · rw [same]
    · rw [resumed]
      exact resumes _
  exact (congrArg q (lease_of_leases (lapseGallery_leaves _).1 j)).trans (closes.trans ((congrArg q (lease_of_leases wedges j)).trans ends))

include pends grants resumes in
theorem raise0_lease (e k j : Nat) (inj : Bool) (s : State) : q ((raise0 e k inj s).lease j) = q (s.lease j) := by
  unfold raise0
  split
  · rfl
  extract_lets sev pin f t1 t2 t3 f' t4 t5 t6
  have h2 : t2.leases = s.leases := by unfold t2 recordEvent; split; exacts [by dsimp only; split <;> rfl, rfl]
  have h3 : t3.leases = s.leases := by unfold t3 queueEvent; split; exacts [h2, h2]
  have h4 : t4.leases = s.leases := by unfold t4; split; exacts [h3, h3]
  have h5 : t5.leases = s.leases := by
    unfold t5
    split
    · exact (pendBench_same (p := State.leases) (fun _ _ => rfl) (fun _ _ _ => rfl) ..).trans h4
    · exact h4
  have h6 : q (t6.lease j) = q (s.lease j) := by
    unfold t6
    split
    · exact (pendLease_lease pends ..).trans (congrArg q (lease_of_leases h5 j))
    · exact congrArg q (lease_of_leases h5 j)
  split
  · exact (setLatch_lease grants resumes ..).trans h6
  · exact h6

include pends grants resumes in
/-- What an event leaves of a lease, beside its quarantine, its grant and its pause. -/
theorem raise_lease (e k j : Nat) (s : State) : q ((raise e k s).lease j) = q (s.lease j) :=
  raiseInj_same (p := fun s => q (s.lease j)) (fun _ _ _ _ h => Eq.trans (raise0_lease pends grants resumes ..) h) (fun _ _ _ => rfl) (fun _ _ => rfl)
    (raise0_lease pends grants resumes ..)

end

/-! ### Programs -/

theorem refuseProgram_leaves (k code : Nat) (s : State) : ((refuseProgram k code s).lease k).progRefusal = code ∧
    ((refuseProgram k code s).lease k).verifying = (s.lease k).verifying ∧ ((refuseProgram k code s).lease k).body = (s.lease k).body := by
  let t : State := s.modLease k fun l => { l with progRefusal := code }
  have kept := raise_lease (q := fun l => (l.progRefusal, l.verifying, l.body)) (fun _ _ => rfl) (fun _ _ _ => rfl) (fun _ => rfl) 0x333 k k t
  have set : t.lease k = { s.lease k with progRefusal := code } := modLease_lease ..
  rw [set] at kept
  exact ⟨congrArg Prod.fst kept, congrArg (·.2.1) kept, congrArg (·.2.2) kept⟩

theorem unloadProgram_lease (k : Nat) (s : State) : (unloadProgram k s).lease k =
    (if (s.lease k).image = [] then s.lease k else { s.lease k with image := [], old := [], progPend := true }) ∧
      (∀ j, j ≠ k → (unloadProgram k s).lease j = s.lease j) ∧ ∃ g l, unloadProgram k s = { s with dic := g, leases := l } := by
  unfold unloadProgram
  split
  · exact ⟨rfl, fun _ _ => rfl, s.dic, s.leases, rfl⟩
  · exact ⟨modLease_lease s k fun l => { l with image := [], old := [], progPend := true }, fun j other => tget_tset_ne _ _ _ other, _, _, rfl⟩

section
variable {k : Nat} {d : Bytes} {s : State}

theorem programLoad_of_busy (busy : (s.lease k).verifying ≠ none ∨ (s.lease k).body ≠ []) : programLoad k d s = (.refused, refuseProgram k 1 s) :=
  if_pos (by simpa [Option.isSome_iff_ne_none] using busy)

theorem programVerifyDone_of_verified {t0 : Nat} (verifying : (s.lease k).verifying = some (d, t0)) (runs : s.running = true)
    (island : s.islandDone t0 41 = true) (good : s.imageCheck (s.lease k) d = 0) :
    execProgramVerifyDone k true s = .next (s.setLease k { s.lease k with verifying := none, body := d, old := [] }) := by
  unfold execProgramVerifyDone
  dsimp only
  rw [verifying]
  exact (if_neg (by simp [runs, island])).trans ((if_neg (not_not.2 good)).trans (if_neg (by decide)))

/-- The state once an image's check has settled, before the image is stored. -/
def State.settle (s : State) (k : Nat) : State :=
  s.setLease k { s.lease k with verifying := none, body := [], progState := (s.lease k).settled }

theorem bumpGen_settle_leaseIs (k i : Nat) (f : Lease → Lease) (s : State) :
    LeaseIs k (f { s.lease k with verifying := none, body := [], progState := (s.lease k).settled }) s (bumpGen i 0 ((s.settle k).modLease k f)) := by
  refine ⟨?_, fun j other => ?_, rfl⟩
  · refine (lease_of_leases (bumpGen_leases ..) k).trans ((modLease_lease ..).trans (congrArg f ?_))
    exact tget_tset_same ..
  · exact (lease_of_leases (bumpGen_leases ..) j).trans ((tget_tset_ne _ _ _ other).trans (tget_tset_ne _ _ _ other))

theorem programVerifyDone_of_body (done : (s.lease k).verifying = none) (runs : s.running = true) (some : (s.lease k).body ≠ []) :
    execProgramVerifyDone k true s = .next (bumpGen (0x4020 + 0x40 * k) 0 ((s.settle k).modLease k fun x =>
      { x with image := (s.lease k).body, old := (s.lease k).image, copy := 1 - (s.lease k).copy, progPend := true })) := by
  unfold execProgramVerifyDone State.settle
  dsimp only
  rw [done]
  exact (if_neg (by simp [runs, some])).trans (if_neg (by decide))

variable (free : (s.lease k).verifying = none) (none : (s.lease k).body = []) (some : d ≠ [])
include free none some

theorem programLoad_of_free : programLoad k d s =
    if !(s.lcs.state = .claimed || s.lcs.state = .field) then (.refused, refuseProgram k 2 s) else if !programOk d then (.refused, refuseProgram k 3 s)
    else if !(s.lease k).keyOk d then (.refused, refuseProgram k 4 s)
    else (.pending, s.setLease k { s.lease k with progState := .verifying, verifying := Option.some (d, s.pw.now) }) :=
  (if_neg (by simp [free, none])).trans (if_neg some)

end

theorem dspGo_leaves (s : State) : (dspGo s).dsp.pend = true ∧ (dspGo s).dsp.fresh = s.dsp.fresh ∧ (dspGo s).leases = s.leases ∧ (dspGo s).ram = s.ram := by
  unfold dspGo
  split
  next pend => exact ⟨pend, rfl, rfl, rfl⟩
  · exact ⟨rfl, rfl, rfl, rfl⟩

theorem copyProgram_leaves (n k : Nat) (image : Bytes) (s : State) : (copyProgram n k image s).leases = s.leases ∧ (copyProgram n k image s).dsp = s.dsp := by
  unfold copyProgram
  split
  · exact ⟨rfl, rfl⟩
  · exact ⟨rfl, rfl⟩

/-- The benches on which lease `k` holds a core. -/
def State.coreBenches (s : State) (k : Nat) : List Nat :=
  (List.range s.nBench).filter fun n => s.dsp.core.any fun (e : Nat × Nat) => e.1 / 4 = n && e.2 = k

/-- The state with lease `k`'s program in the page of each of its benches, before the swap is asked for. -/
def State.programCopied (s : State) (k : Nat) : State :=
  let t := (forEach (s.coreBenches k) (fun n t => copyProgram n k (s.lease k).image t) s).modLease k fun l => { l with copied := l.image, progPend := false }
  { t with dsp := { t.dsp with fresh := t.dsp.fresh ++ [k] } }

theorem programPageCopy_of_due {k : Nat} {s : State} (pend : (s.lease k).progPend = true) (runs : s.running = true) (fresh : k ∉ s.dsp.fresh)
    (swap : s.dsp.pend = false ∨ s.dsp.captured = false) : execProgramPageCopy k s = .next (dspGo (s.programCopied k)) :=
  if_neg (by rcases swap with swap | swap <;> simp [pend, runs, fresh, swap])

theorem programCopied_leaves (s : State) (k : Nat) : (s.programCopied k).dsp.fresh = s.dsp.fresh ++ [k] ∧
    (s.programCopied k).lease k = { s.lease k with copied := (s.lease k).image, progPend := false } ∧
    (∀ j, j ≠ k → (s.programCopied k).lease j = s.lease j) ∧
    (s.programCopied k).ram = ((s.coreBenches k).foldl (fun u n => copyProgram n k (s.lease k).image u) s).ram := by
  have leases : (forEach (s.coreBenches k) (fun n t => copyProgram n k (s.lease k).image t) s).leases = s.leases :=
    forEach_leases _ (fun n t => (copyProgram_leaves n k _ t).1) s
  have dsp : Same State.dsp s (forEach (s.coreBenches k) (fun n t => copyProgram n k (s.lease k).image t) s) :=
    .forEach (fun n t h => h.same (copyProgram_leaves n k _ t).2) .rfl
  refine ⟨congrArg (fun x : Dsp => x.fresh ++ [k]) dsp, ?_, fun j other => (tget_tset_ne _ _ _ other).trans (lease_of_leases leases j), rfl⟩
  let f : Lease → Lease := fun l => { l with copied := l.image, progPend := false }
  exact (modLease_lease _ k f).trans (congrArg f (lease_of_leases leases k))

theorem unloadProgram_key_leaseIs (k : Nat) (value : Bytes) (s : State) :
    LeaseIs k (if (s.lease k).image = [] then { s.lease k with progEd := value } else { s.lease k with progEd := value, image := [], old := [], progPend := true }) s
      (unloadProgram k (s.modLease k fun l => { l with progEd := value })) := by
  obtain ⟨unloaded, others, g, ls, frame⟩ := unloadProgram_lease k (s.modLease k fun l => { l with progEd := value })
  rw [modLease_lease] at unloaded
  refine ⟨unloaded, fun j other => (others j other).trans (tget_tset_ne _ _ _ other), ?_⟩
  rw [frame]
  rfl

theorem leaseIs_of_aside {k : Nat} {x : Lease} {s u t : State} (h : LeaseIs k x u t) (aside : Aside s u = s) (leases : u.leases = s.leases) : LeaseIs k x s t := by
  obtain ⟨mine, others, frame⟩ := h
  refine ⟨mine, fun j other => (others j other).trans (lease_of_leases leases j), ?_⟩
  exact (congrArg (fun v : State => { v with dic := s.dic, out := s.out, leases := s.leases }) frame).trans
    ((congrArg (fun v : State => { v with leases := s.leases }) aside).trans rfl)

end Sys2Proof.Machine

namespace Sys2Proof.Proofs
open Sys2Proof Sys2Proof.Machine Sys2Proof.Claims

/-- Settles O35: a load is judged in its order and waits for its verification; the settled image is copied with the next swap. -/
theorem programs : Obligations.Programs := by
  intro r k d value s present l at_
  have most := nLease_le s
  have lease : ∀ {i : Nat}, i < 0x40 → r.index = 0x4000 + 0x40 * k + i → subLease r.index = some k ∧ r.index % 0x40 = i := by
    intro i small index
    rw [index]
    exact ⟨(if_pos (by simp; omega)).trans (congrArg some (by omega)), by omega⟩
  have mine : subLease r.index = some k → ∀ i, subLease r.index = some i → i < s.nLease :=
    fun lease i named => Option.some.inj (lease.symm.trans named) ▸ present
  obtain ⟨b, e, c, seen⟩ := setSession_counted_eq r s
  have same : (setSession r.ep none (s.counted r)).lease k = l := by rw [seen]; rfl
  have loads : ∀ {st : DStat} {t : State} {p : State → Prop}, Accepted r 7 s → (s.session r).isSome = true → r.ep = 1 → at_ → r.sub = 0 →
      programLoad k d (setSession r.ep none (s.counted r)) = (st, t) → p (respond (s.epVersion r.ep) r 7 st [] t) →
        Answers r 7 st [] s p (exec (.programLoad r d) s) := by
    intro st t p h held host index sub effect leaves
    obtain ⟨named, own⟩ := lease (by decide) index
    have may : s.allowed r.ep { host := true, lease := true } = true := by rw [host]; exact allowed_host rfl
    have done : exec (.programLoad r d) s = .next (endObject r { host := true, lease := true } id (programLoad k d) s) := by
      change execProgramLoad r d s = _
      unfold execProgramLoad
      rw [named]
      exact if_neg (by simp [own, sub])
    exact answers_object done h (visible_main (by omega) (mine named)) may held effect leaves
  refine ⟨fun h held host index sub free none => ?load, fun h held host index sub busy => ?loading, fun t0 verifying runs pass upd due good => ?verified,
    fun done body some runs => ?settled, fun pend runs fresh swap => ?copy, fun h host index sub length => ?key, fun h host index sub length => ?svn⟩
  case load =>
    have effect := fun some => programLoad_of_free (k := k) (d := d) (s := setSession r.ep .none (s.counted r)) (by rw [same]; exact free) (by rw [same]; exact none) some
    rw [same, show (setSession r.ep .none (s.counted r)).lcs = s.lcs by rw [seen]] at effect
    refine ⟨fun state ok key some => ?_, fun blank some => ?_, fun field some bad => ?_⟩
    · have may : (decide (s.lcs.state = .claimed) || decide (s.lcs.state = .field)) = true := by simpa using state
      refine loads h held host index sub ((effect some).trans ((if_neg (by rw [may]; decide)).trans ((if_neg (by rw [ok]; decide)).trans (if_neg (by rw [key]; decide))))) ?_
      refine aside_respond ?_
      rw [seen]
      rfl
    · exact loads h held host index sub ((effect some).trans (if_pos (by simp [blank]))) (refuseProgram_leaves ..).1
    · exact loads h held host index sub ((effect some).trans ((if_neg (by simp [field])).trans (if_pos (by simp [bad])))) (refuseProgram_leaves ..).1
  case loading =>
    have leaves := refuseProgram_leaves k 1 (setSession r.ep .none (s.counted r))
    rw [same] at leaves
    exact loads h held host index sub (programLoad_of_busy (by rw [same]; exact busy)) leaves
  case verified =>
    have island : s.islandDone t0 41 = true := by simp [State.islandDone, pass, upd, due]
    exact programVerifyDone_of_verified verifying runs island good
  case settled =>
    have leaves := bumpGen_settle_leaseIs k (0x4020 + 0x40 * k) (fun x => { x with image := l.body, old := l.image, copy := 1 - l.copy, progPend := true }) s
    refine ⟨_, programVerifyDone_of_body done runs (by rw [body]; exact some), ?_⟩
    rw [← body, show l.verifying = none from done]
    exact leaves
  case copy =>
    obtain ⟨asked, copied, others, ram⟩ := programCopied_leaves s k
    obtain ⟨pending, list, leases, memory⟩ := dspGo_leaves (s.programCopied k)
    exact ⟨_, programPageCopy_of_due pend runs fresh swap, pending, list.trans asked, (lease_of_leases leases k).trans copied,
      fun j other => (lease_of_leases leases j).trans (others j other), memory.trans ram⟩
  case key =>
    obtain ⟨named, own⟩ := lease (by decide) index
    obtain ⟨b, e, c, seen⟩ := counted_eq' r s
    have done : exec (.programKeyWrite r value) s = .next (writeEntry r { host := true } 32 value (fun s =>
        if r.sub = 2 && !isZero (value.drop 32) then (.range, s)
        else (.ok, unloadProgram k (s.modLease k fun l => if r.sub = 1 then { l with progEd := value } else { l with progMl := value }))) s) := by
      change execProgramKeyWrite r value s = _
      unfold execProgramKeyWrite
      rw [named]
      exact (if_neg (by simp [own, sub])).trans (by rw [if_pos sub])
    have here : (s.counted r).lease k = l := by rw [seen]; rfl
    have leaves := unloadProgram_key_leaseIs k value (s.counted r)
    rw [here] at leaves
    exact answers_host done h host (mine named) rfl length (by decide) ((if_neg (by simp [sub])).trans (by simp only [if_pos sub]))
      (leaseIs_of_aside leaves (aside_counted r s) (by rw [seen]))
  case svn =>
    obtain ⟨named, own⟩ := lease (by decide) index
    have done : exec (.programMinsvnWrite r value) s = .next (writeEntry r { host := true } 4 value (fun s =>
        if leNat value < (s.lease k).minSvn then (.range, s) else (.ok, s.modLease k fun l => { l with minSvn := leNat value })) s) := by
      change execProgramMinsvnWrite r value s = _
      unfold execProgramMinsvnWrite
      rw [named]
      exact if_neg (by simp [own, sub])
    obtain ⟨b, e, c, seen⟩ := counted_eq' r s
    have same : (s.counted r).lease k = l := by rw [seen]; rfl
    refine ⟨fun rises => ?_, fun falls => ?_⟩
    · refine answers_host done h host (mine named) rfl length (by decide) (if_neg (by rw [same]; exact Nat.not_lt.2 rises)) (aside_respond ?_)
      rw [seen]
      rfl
    · exact answers_host done h host (mine named) rfl length (by decide) (if_pos (by rw [same]; exact falls)) (aside_respond (aside_counted r s))

end Sys2Proof.Proofs

/-! PROOFS. The life cycle (R374-R393). -/

namespace Sys2Proof.Machine
open Sys2Proof Sys2Proof.Claims

/-! ### Island firmware's draws -/

theorem takeSegs_length {n : Nat} {l : List Seg} (h : n ≤ (l.map Seg.len).sum) : (takeSegs n l).1.length = n := by
  induction l generalizing n with
  | nil => exact (Nat.le_zero.1 h).symm
  | cons x r ih =>
    unfold takeSegs
    split
    · simp
    · simp only [List.map_cons, List.sum_cons] at h
      simp only [List.length_append, List.length_map, List.length_range]
      rw [ih (by omega)]
      omega

theorem drawIsland_length (n : Nat) (s : State) : (drawIsland n s).1.length = n := by
  unfold drawIsland
  split
  next r drawn =>
    unfold draw at drawn
    dsimp only at drawn
    split at drawn
    next room =>
      rw [← Option.some.inj drawn]
      exact takeSegs_length room
    · exact nomatch drawn
  · simp [State.freeBytes]

theorem drawIsland_lcs (n : Nat) (s : State) : (drawIsland n s).2.lcs = s.lcs := by
  unfold drawIsland
  split
  next r drawn =>
    unfold draw at drawn
    dsimp only at drawn
    split at drawn
    next => rw [← Option.some.inj drawn]; rfl
    · exact nomatch drawn
  · rfl

/-! ### The end of lease work -/

theorem endCmd_lcs {s t : State} {h st need : Nat} {out : Bytes} (same : Same State.lcs s t) : Same State.lcs s (endCmd h st need out t) := by
  unfold endCmd endCmdAt
  split
  · exact same
  · split
    · exact same
    · exact same

theorem stopJob_lcs {s t : State} {q k status : Nat} (same : Same State.lcs s t) : Same State.lcs s (stopJob q k status t) := by
  unfold stopJob
  split
  · exact same
  · exact same

theorem dropHeld_lcs {s t : State} {p : Held → Bool} (same : Same State.lcs s t) : Same State.lcs s (dropHeld p t) := by
  unfold dropHeld
  extract_lets u
  have cleared : Same State.lcs s u := .foldl (f := fun t (x : Held) => t.ramClear x.lo x.hi) (fun _ _ h => h.same rfl) _ same
  exact cleared.same rfl

theorem stopLeaseWork_lcs (s : State) : (stopLeaseWork s).lcs = s.lcs := by
  unfold stopLeaseWork
  extract_lets src t u v
  have commands : Same State.lcs s u := by
    unfold u stopCommands
    exact .forEach (fun _ _ h => endCmd_lcs h) (.same .rfl rfl)
  have jobs : Same State.lcs s v := by
    refine .foldl (fun w e h => ?_) _ commands
    split
    · exact stopJob_lcs h
    · exact h
  exact dropHeld_lcs jobs

theorem closeCeremony_lcs (reason : Nat) (s : State) : (closeCeremony reason s).lcs = s.lcs := calm_lcs (closeCeremony_calm .rfl)

/-! ### The state that the fuses read -/

/-- Both fuses of the pair of state code `c`. -/
def LcsSt.both (l : LcsSt) (c : Nat) : Bool := l.pairs.getLsbD (2 * c - 2) && l.pairs.getLsbD (2 * c - 1)

/-- The pair of a transition's target is blown. -/
def LcsSt.blow (l : LcsSt) (to_ : Lcs) : LcsSt := { l with pairs := l.pairs ||| BitVec.ofNat 12 (3 * 4 ^ (to_.code - 1)) }

theorem both_blow (l : LcsSt) (to_ : Lcs) (blank : to_ ≠ .blank) (c : Nat) (low : 1 ≤ c) (high : c ≤ 6) :
    (l.blow to_).both c = (l.both c || c == to_.code) := by
  have pair : ∀ c < 7, ∀ d < 7, 1 ≤ c → 1 ≤ d → ((BitVec.ofNat 12 (3 * 4 ^ (d - 1))).getLsbD (2 * c - 2) = (c == d)) ∧
      ((BitVec.ofNat 12 (3 * 4 ^ (d - 1))).getLsbD (2 * c - 1) = (c == d)) := by decide
  have code : 1 ≤ to_.code ∧ to_.code < 7 := by cases to_ <;> simp_all [Lcs.code]
  obtain ⟨even, odd⟩ := pair c (by omega) to_.code code.2 low code.1
  unfold LcsSt.both LcsSt.blow
  rw [BitVec.getLsbD_or, BitVec.getLsbD_or, even, odd]
  cases c == to_.code <;> simp

/-- The state that pairs 1 to 6 read. -/
def readPairs (b1 b2 b3 b4 b5 b6 : Bool) : Lcs :=
  if b6 then .scrapped else if b5 then .ret else if b4 then .field else if b3 then .claimed else if b2 then .sealed_ else if b1 then .tested else .blank

theorem fused_eq (l : LcsSt) : l.fused = readPairs (l.both 1) (l.both 2) (l.both 3) (l.both 4) (l.both 5) (l.both 6) := by
  unfold LcsSt.fused
  change ((([6, 5, 4, 3, 2, 1] : List Nat).find? l.both).bind Lcs.ofCode).getD .blank = _
  simp only [List.find?_cons, List.find?_nil]
  unfold readPairs
  cases l.both 6
  · cases l.both 5
    · cases l.both 4
      · cases l.both 3
        · cases l.both 2
          · cases l.both 1 <;> rfl
          · rfl
        · rfl
      · rfl
    · rfl
  · rfl

/-- A pair above all that are blown is what the pairs read. -/
theorem readPairs_succ (to_ : Lcs) : ∀ b1 b2 b3 b4 b5 b6 : Bool, to_ ∈ (readPairs b1 b2 b3 b4 b5 b6).next →
    readPairs (b1 || 1 == to_.code) (b2 || 2 == to_.code) (b3 || 3 == to_.code) (b4 || 4 == to_.code) (b5 || 5 == to_.code) (b6 || 6 == to_.code) = to_ := by
  cases to_ <;> decide

/-- A transition to a successor of the state that the fuses read is what they read then. -/
theorem fused_blow {l : LcsSt} {to_ : Lcs} (succ : to_ ∈ l.fused.next) : (l.blow to_).fused = to_ := by
  have blank : to_ ≠ .blank := by
    rintro rfl
    revert succ
    cases l.fused <;> decide
  have blow := both_blow l to_ blank
  rw [fused_eq] at succ ⊢
  rw [blow 1 (by decide) (by decide), blow 2 (by decide) (by decide), blow 3 (by decide) (by decide), blow 4 (by decide) (by decide),
    blow 5 (by decide) (by decide), blow 6 (by decide) (by decide)]
  exact readPairs_succ _ _ _ _ _ _ _ succ

/-! ### What a reset leaves -/

/-- The parts of the state beside the vault, the leases and the power stage that a reset takes over. -/
structure Carried where
  lcs : LcsSt
  store : List StoreRec
  die : Tbl (BitVec 8)
  journal : List CRec

def State.carried (s : State) : Carried := { lcs := s.lcs, store := s.yard.store, die := s.pfl.die, journal := s.cust.journal }

def Carried.kept (c : Carried) : Carried := { lcs := c.lcs.kept, store := c.store, die := c.die, journal := c.journal.filter fun r => r.commit ≠ [] }

theorem sevOf_resetState (s : State) : (resetState .wipe .guard s).sevOf 0x468 ≠ 3 := by
  have flt : (resetState .wipe .guard s).flt = s.flt.kept := bumpChanged_same (p := State.flt) (fun _ _ => rfl) _ _
  have none : tget none (resetState .wipe .guard s).flt.sev 0x468 = none :=
    (congrArg (fun f : Flt => tget none f.sev 0x468) flt).trans (tget_filter_key none s.flt.sev rfl)
  unfold State.sevOf
  rw [none]
  decide

theorem deviceReset_carried (s : State) : (deviceReset s).carried = s.carried.kept := by
  have reset : (resetState .wipe .guard s).carried = (resetFields .wipe .guard s).carried := by
    unfold resetState State.carried
    rw [bumpChanged_same (p := State.lcs) (fun _ _ => rfl), bumpChanged_same (p := State.yard) (fun _ _ => rfl),
      bumpChanged_same (p := State.pfl) (fun _ _ => rfl), bumpChanged_same (p := State.cust) (fun _ _ => rfl)]
  unfold deviceReset
  extract_lets t
  split
  · exact reset
  · exact (raise_same_of_mild (p := State.carried) (fun _ _ => rfl) (fun _ _ => rfl) (fun _ _ => rfl) (fun _ _ _ => rfl) (sevOf_resetState s)).trans reset

theorem deviceReset_image (s : State) (k : Nat) : ((deviceReset s).lease k).image = (s.lease k).image := by
  have reset : ((resetState .wipe .guard s).lease k).image = (s.lease k).image :=
    (congrArg Lease.image (lease_of_leases (bumpChanged_same (p := State.leases) (fun _ _ => rfl) _ _) k)).trans
      (tget_map_same (f := fun (e : Nat × Lease) => (e.1, e.2.kept)) (q := Lease.image) (fun _ => rfl) (fun _ => rfl) s.leases k)
  unfold deviceReset
  extract_lets t
  split
  · exact reset
  · exact (raise_lease (q := Lease.image) (fun _ _ => rfl) (fun _ _ _ => rfl) (fun _ => rfl) 0x468 0xFF k t).trans reset

/-! ### A transition -/

/-- What the step of a transition leaves of the life cycle's record. -/
def LcsSt.record (l : LcsSt) : Lcs × BitVec 12 × Nat × List LRec := (l.state, l.pairs, l.count, l.journal)

theorem performStep_record (to_ : Lcs) (n : Bytes) (c : Option Claim) (s : State) : (performStep to_ n c s).lcs.record = s.lcs.record := by
  cases to_ with
  | blank => rfl
  | tested =>
    exact (congrArg LcsSt.record (drawIsland_lcs 32 s) :)
  | sealed_ => rfl
  | claimed => cases c <;> rfl
  | field => rfl
  | ret => rfl
  | scrapped => rfl

/-- The counter bank after a GO with COUNT `n`. -/
def LcsSt.counted (l : LcsSt) (n : Nat) : Nat := if n ≠ 0 ∧ l.count < n ∧ l.count < 64 then l.count + 1 else l.count

theorem lcsGo_of_intent {to_ : Lcs} {r : LRec} {n : Nat} {s : State} (succ : to_ ∈ s.lcs.state.next) (intent : s.lcs.intent = some r) (target : r.to_ = to_.code) :
    lcsGo to_.code n s = s.modLcs fun l => { l.blow to_ with count := l.counted n } := by
  have code : Lcs.ofCode to_.code = some to_ := by cases to_ <;> rfl
  have good : (match Lcs.ofCode to_.code, s.lcs.intent with
      | some t, some r => s.lcs.state.next.contains t && decide (r.to_ = to_.code)
      | _, _ => false) = true := by
    rw [code, intent]
    simp [succ, target]
  unfold lcsGo
  refine (if_neg ?_).trans ?_
  · rw [Bool.not_eq_true']
    exact fun bad => nomatch good.symm.trans bad
  · unfold LcsSt.counted LcsSt.blow State.modLcs
    simp [and_assoc]

theorem intent_of_last {l : LcsSt} {old : List LRec} {r : LRec} (journal : l.journal = old ++ [r]) (kind : r.kind = .intent) : l.intent = some r := by
  unfold LcsSt.intent
  rw [journal, List.filter_append]
  simp [kind]

/-- The life cycle once a transition's fuses are blown and it is DONE. -/
def LcsSt.done (l : LcsSt) (to_ : Lcs) (r : LRec) : LcsSt :=
  { l.blow to_ with count := l.counted r.counter, journal := if to_ = .scrapped then [] else l.journal ++ [{ r with kind := .done }] }

/-- The state on which a transition's step works: lease work and the ceremony have ended. -/
def State.quiet (s : State) : State := closeCeremony 0 (stopLeaseWork s)

theorem quiet_lcs (s : State) : s.quiet.lcs = s.lcs := (closeCeremony_lcs ..).trans (stopLeaseWork_lcs s)

/-- The state in which the step of a transition has been taken, its fuses blown and its DONE journalled. -/
def State.stepped (s : State) (to_ : Lcs) (r : LRec) : State := (performStep to_ r.lnonce r.claim s).modLcs fun l => l.done to_ r

theorem completeTransition_eq {to_ : Lcs} {r : LRec} (target : r.to_ = to_.code) (s : State) : completeTransition r s =
    deviceReset (lapseGallery (bumpChanged s.quiet ((lcsGo to_.code r.counter (performStep to_ r.lnonce r.claim s.quiet)).modLcs fun l =>
      { l with journal := if to_ = .scrapped then [] else l.journal ++ [{ r with kind := .done }] }))) := by
  have code : Lcs.ofCode r.to_ = some to_ := by rw [target]; cases to_ <;> rfl
  unfold completeTransition State.quiet
  rw [code, ← target]

theorem completeTransition_of_intent {to_ : Lcs} {r : LRec} {old : List LRec} {s : State} (target : r.to_ = to_.code) (succ : to_ ∈ s.lcs.state.next)
    (journal : s.lcs.journal = old ++ [r]) (kind : r.kind = .intent) :
    completeTransition r s = deviceReset (lapseGallery (bumpChanged s.quiet (s.quiet.stepped to_ r))) := by
  have record := performStep_record to_ r.lnonce r.claim s.quiet
  rw [quiet_lcs] at record
  rw [completeTransition_eq target]
  unfold State.stepped
  generalize performStep to_ r.lnonce r.claim s.quiet = x at record ⊢
  have state : x.lcs.state = s.lcs.state := congrArg Prod.fst record
  have list : x.lcs.journal = s.lcs.journal := congrArg (·.2.2.2) record
  rw [lcsGo_of_intent (by rw [state]; exact succ) (intent_of_last (list.trans journal) kind) target]
  rfl

theorem lapse_bump (s t : State) : (lapseGallery (bumpChanged s t)).vault = t.vault ∧ (lapseGallery (bumpChanged s t)).carried = t.carried ∧
    (lapseGallery (bumpChanged s t)).leases = t.leases := by
  have bump : (bumpChanged s t).carried = t.carried := by
    unfold State.carried
    rw [bumpChanged_same (p := State.lcs) (fun _ _ => rfl), bumpChanged_same (p := State.yard) (fun _ _ => rfl),
      bumpChanged_same (p := State.pfl) (fun _ _ => rfl), bumpChanged_same (p := State.cust) (fun _ _ => rfl)]
  have lapse : ∀ u, (lapseGallery u).carried = u.carried := by
    intro u
    unfold lapseGallery
    dsimp only
    split <;> rfl
  exact ⟨(lapseGallery_vault _).trans (bumpChanged_same (p := State.vault) (fun _ _ => rfl) s t), (lapse _).trans bump,
    (lapseGallery_leaves _).1.trans (bumpChanged_same (p := State.leases) (fun _ _ => rfl) s t)⟩

/-- The INTENT of a transition. -/
def State.intentOf (s : State) (to_ : Lcs) (counter : Nat) (request lnonce : Bytes) : LRec :=
  { kind := .intent, from_ := s.lcs.state.code, to_ := to_.code, counter := counter, digest := sha384 request, lnonce := lnonce,
    request := if to_ = .claimed then request else [] }

/-- The state of a transition's step, its INTENT journalled. -/
def LcsSt.intended (l : LcsSt) (to_ : Lcs) (r : LRec) : LcsSt := { l with pend := some to_, journal := l.journal ++ [r] }

theorem transition_eq (to_ : Lcs) (counter : Nat) (request : Bytes) (s : State) : ∃ n v, (to_.makesLnonce = true → n.length = 32) ∧
    (to_.makesLnonce = false → n = []) ∧ v.lcs = s.lcs.intended to_ (s.intentOf to_ counter request n) ∧
    transition to_ counter request s = completeTransition (s.intentOf to_ counter request n) v := by
  cases makes : to_.makesLnonce with
  | false =>
    refine ⟨[], raiseIsland 55 (s.modLcs fun l => l.intended to_ (s.intentOf to_ counter request [])), fun h => (nomatch h), fun _ => rfl,
      calm_lcs (s := s.modLcs fun l => l.intended to_ (s.intentOf to_ counter request [])) (raise_calm .rfl), ?_⟩
    unfold transition
    rw [makes]
    rfl
  | true =>
    let d := drawIsland 32 s
    have lcs : d.2.lcs = s.lcs := drawIsland_lcs 32 s
    refine ⟨d.1, raiseIsland 55 (d.2.modLcs fun l => l.intended to_ (s.intentOf to_ counter request d.1)), fun _ => drawIsland_length 32 s, fun h => (nomatch h),
      (calm_lcs (s := d.2.modLcs fun l => l.intended to_ (s.intentOf to_ counter request d.1)) (raise_calm .rfl)).trans
        (congrArg (fun l => l.intended to_ (s.intentOf to_ counter request d.1)) lcs), ?_⟩
    unfold transition State.intentOf
    rw [makes, ← lcs]
    rfl

/-- What a transition to a successor leaves: that of its step, through the reset. -/
theorem transition_leaves {to_ : Lcs} {s : State} (succ : to_ ∈ s.lcs.state.next) (counter : Nat) (request : Bytes) : ∃ (n : Bytes) (u : State),
    (to_.makesLnonce = true → n.length = 32) ∧ (to_.makesLnonce = false → n = []) ∧ u.lcs = s.lcs.intended to_ (s.intentOf to_ counter request n) ∧
    let t := transition to_ counter request s
    let v := u.stepped to_ (s.intentOf to_ counter request n)
    t.pw.stage = .wipe ∧ t.pw.mode = .guard ∧ t.vault = v.vault.kept ∧ t.carried = v.carried.kept ∧ ∀ k, (t.lease k).image = (v.lease k).image := by
  obtain ⟨n, v, drawn, none, lcs, done⟩ := transition_eq to_ counter request s
  have quiet : v.quiet.lcs = s.lcs.intended to_ (s.intentOf to_ counter request n) := (quiet_lcs v).trans lcs
  refine ⟨n, v.quiet, drawn, none, quiet, ?_⟩
  dsimp only
  rw [done, completeTransition_of_intent (to_ := to_) (old := s.lcs.journal) rfl (by rw [lcs]; exact succ) (by rw [lcs]; rfl) rfl]
  obtain ⟨vault, carried, leases⟩ := lapse_bump v.quiet (v.quiet.stepped to_ (s.intentOf to_ counter request n))
  obtain ⟨vault', stage, mode⟩ := deviceReset_leaves (lapseGallery (bumpChanged v.quiet (v.quiet.stepped to_ (s.intentOf to_ counter request n))))
  exact ⟨stage, mode, vault'.trans (congrArg Vault.kept vault), (deviceReset_carried _).trans (congrArg Carried.kept carried),
    fun k => (deviceReset_image _ k).trans (congrArg Lease.image (lease_of_leases leases k))⟩

theorem done_fused {l : LcsSt} {to_ : Lcs} {r : LRec} (succ : to_ ∈ l.fused.next) : (l.done to_ r).fused = to_ :=
  Eq.trans (by rfl) (fused_blow succ)

section
variable {to_ : Lcs} {n : Bytes} {counter : Nat} {request : Bytes} {s u t : State} (succ : to_ ∈ s.lcs.state.next) (fused : s.lcs.fused = s.lcs.state)
  (lcs : u.lcs = s.lcs.intended to_ (s.intentOf to_ counter request n))
  (carried : t.carried = (u.stepped to_ (s.intentOf to_ counter request n)).carried.kept)

include carried in
/-- The life cycle after a transition: that of its step, its fuses, its DONE and the reset. -/
theorem transition_lcs : t.lcs = ((performStep to_ n (s.intentOf to_ counter request n).claim u).lcs.done to_ (s.intentOf to_ counter request n)).kept :=
  congrArg Carried.lcs carried

include lcs in
theorem transition_record : (performStep to_ n (s.intentOf to_ counter request n).claim u).lcs.record =
    (s.lcs.intended to_ (s.intentOf to_ counter request n)).record :=
  (performStep_record ..).trans (congrArg LcsSt.record lcs)

include succ fused lcs carried in
theorem transition_state : t.lcs.state = to_ := by
  rw [transition_lcs carried]
  refine done_fused ?_
  have pairs : (performStep to_ n (s.intentOf to_ counter request n).claim u).lcs.pairs = s.lcs.pairs := congrArg (·.2.1) (transition_record lcs)
  have read : (performStep to_ n (s.intentOf to_ counter request n).claim u).lcs.fused = s.lcs.fused := by
    unfold LcsSt.fused
    rw [pairs]
  rw [read, fused]
  exact succ

include lcs carried in
theorem transition_count : t.lcs.count = s.lcs.counted counter := by
  rw [transition_lcs carried]
  have count : (performStep to_ n (s.intentOf to_ counter request n).claim u).lcs.count = s.lcs.count := congrArg (·.2.2.1) (transition_record lcs)
  change LcsSt.counted _ counter = _
  unfold LcsSt.counted
  rw [count]

include lcs carried in
theorem transition_journalled (stays : to_ ≠ .scrapped) : Journalled to_.code counter request s t := by
  refine ⟨s.intentOf to_ counter request n, rfl, rfl, rfl, rfl, rfl, ?_⟩
  rw [transition_lcs carried]
  have list : (performStep to_ n (s.intentOf to_ counter request n).claim u).lcs.journal = s.lcs.journal ++ [s.intentOf to_ counter request n] :=
    congrArg (·.2.2.2) (transition_record lcs)
  refine (if_neg stays).trans ?_
  rw [list, List.append_assoc]
  rfl

end

/-! ### Requests and tokens -/

/-- What a token's transition leaves. -/
theorem transition_token {to_ : Lcs} {token : Bytes} {s : State} (succ : to_ ∈ s.lcs.state.next) (fused : s.lcs.fused = s.lcs.state) (stays : to_ ≠ .scrapped)
    (counter : Nat) : Entered to_ (transition to_ counter token s) ∧ (transition to_ counter token s).lcs.count = s.lcs.counted counter ∧
      Journalled to_.code counter token s (transition to_ counter token s) := by
  obtain ⟨n, u, -, -, lcs, stage, mode, -, carried, -⟩ := transition_leaves succ counter token
  exact ⟨⟨transition_state succ fused lcs carried, stage, mode⟩, transition_count lcs carried, transition_journalled lcs carried stays⟩

theorem transition_tested {counter : Nat} {token : Bytes} {s : State} (succ : .tested ∈ s.lcs.state.next) :
    ∃ b : Bytes, b.length = 32 ∧ (transition .tested counter token s).lcs.uds = some b ∧ (transition .tested counter token s).lcs.udsCheck = sha3 b := by
  obtain ⟨n, u, -, -, -, -, -, -, carried, -⟩ := transition_leaves succ counter token
  have lcs := transition_lcs carried
  exact ⟨(drawIsland 32 u).1, drawIsland_length 32 u, congrArg LcsSt.uds lcs, congrArg LcsSt.udsCheck lcs⟩

theorem transition_sealed {counter : Nat} {token : Bytes} {s : State} (succ : .sealed_ ∈ s.lcs.state.next) :
    (transition .sealed_ counter token s).lcs.lnonce.length = 32 ∧
      ∀ o, 0x3F80000 ≤ o → o < 0x4000000 → tget 0xFF (transition .sealed_ counter token s).pfl.die o = 0xFF := by
  obtain ⟨n, u, drawn, -, -, -, -, -, carried, -⟩ := transition_leaves succ counter token
  generalize transition .sealed_ counter token s = t at carried
  have lnonce : t.lcs.lnonce = n := congrArg LcsSt.lnonce (transition_lcs carried)
  have die : t.pfl.die = (eraseVendor u).pfl.die := congrArg Carried.die carried
  refine ⟨(congrArg List.length lnonce).trans (drawn rfl), fun o low high => ?_⟩
  rw [die]
  unfold eraseVendor
  have erase := byte_erase 0x3F80000 0x4000000 o u.pfl
  rw [if_pos ⟨low, high⟩] at erase
  unfold Pfl.byte at erase
  exact erase

/-- The claim that a request carries is installed (R380). -/
theorem transition_claimed {counter : Nat} {d : Bytes} {s : State} (succ : .claimed ∈ s.lcs.state.next) (some : d ≠ []) :
    ∃ l n, n.length = 32 ∧ (transition .claimed counter d s).lcs = (({ installClaim (claimOf d) l with lnonce := n }).done .claimed (s.intentOf .claimed counter d n)).kept := by
  obtain ⟨n, u, drawn, -, -, -, -, -, carried, -⟩ := transition_leaves succ counter d
  refine ⟨u.lcs, n, drawn rfl, (transition_lcs carried).trans ?_⟩
  have claim : (s.intentOf .claimed counter d n).claim = Option.some (claimOf d) := if_neg some
  rw [claim]
  rfl

theorem tget_map_image (l : Tbl Lease) (k : Nat) :
    (tget ({} : Lease) (l.map fun (e : Nat × Lease) => (e.1, { e.2 with image := [], body := [], old := [] })) k).image = [] := by
  induction l with
  | nil => rfl
  | cons e l ih =>
    rw [List.map_cons, tget]
    split
    · rfl
    · exact ih

theorem transition_ret {counter : Nat} {d : Bytes} {s : State} (succ : .ret ∈ s.lcs.state.next) :
    (transition .ret counter d s).vault.bedrock = none ∧ (transition .ret counter d s).yard.store = [] ∧ (transition .ret counter d s).lcs.lnonce = [] ∧
      ∀ k, ((transition .ret counter d s).lease k).image = [] := by
  obtain ⟨n, u, -, -, -, -, -, vault, carried, image⟩ := transition_leaves succ counter d
  generalize transition .ret counter d s = t at vault carried image ⊢
  refine ⟨congrArg Vault.bedrock vault, congrArg Carried.store carried, congrArg (fun c : Carried => c.lcs.lnonce) carried, fun k => (image k).trans ?_⟩
  exact tget_map_image u.leases k

theorem transition_scrapped {counter : Nat} {d : Bytes} {s : State} (succ : .scrapped ∈ s.lcs.state.next) :
    (transition .scrapped counter d s).lcs.uds = s.lcs.uds.map (fun u => List.replicate u.length 0xFF) ∧ (transition .scrapped counter d s).lcs.lnonce = [] ∧
      (transition .scrapped counter d s).lcs.journal = [] ∧ (transition .scrapped counter d s).vault.log = [] ∧
      (transition .scrapped counter d s).yard.store = [] ∧ (transition .scrapped counter d s).cust.journal = [] ∧
      ∀ o, tget 0xFF (transition .scrapped counter d s).pfl.die o = 0xFF := by
  obtain ⟨n, u, -, -, lcs, -, -, vault, carried, -⟩ := transition_leaves succ counter d
  generalize transition .scrapped counter d s = t at vault carried ⊢
  have uds : t.lcs.uds = u.lcs.uds.map (fun u => List.replicate u.length 0xFF) := congrArg (fun c : Carried => c.lcs.uds) carried
  have die : t.pfl.die = [] := congrArg Carried.die carried
  refine ⟨uds.trans (by rw [lcs]; rfl), congrArg (fun c : Carried => c.lcs.lnonce) carried, congrArg (fun c : Carried => c.lcs.journal) carried,
    congrArg Vault.log vault, congrArg Carried.store carried, congrArg Carried.journal carried, fun o => ?_⟩
  rw [die]
  rfl

theorem refuseLcs_lcs (code : Nat) (s : State) : (refuseLcs code s).lcs = { s.lcs with refusal := code } :=
  calm_lcs (s := s.modLcs fun l => { l with refusal := code }) (raise_calm .rfl)

theorem journalled_congr {a c : Nat} {q : Bytes} {s u t : State} (state : u.lcs.state = s.lcs.state) (journal : u.lcs.journal = s.lcs.journal)
    (h : Journalled a c q u t) : Journalled a c q s t := by
  unfold Journalled at h ⊢
  rw [state, journal] at h
  exact h

section
variable {r : Req} {token : Bytes} {s : State}

theorem counted_lcs : (s.counted r).lcs = s.lcs := by
  obtain ⟨b, e, c, seen⟩ := counted_eq' r s
  rw [seen]

theorem counted_tokenRefusal : (s.counted r).tokenRefusal r.sub token = s.tokenRefusal r.sub token := by
  obtain ⟨b, e, c, seen⟩ := counted_eq' r s
  rw [seen]
  rfl

/-- The effect of a token. -/
def tokenEffect (sub : Nat) (token : Bytes) (s : State) : DStat × State :=
  let code := s.tokenRefusal sub token
  if code ≠ 0 then (.refused, refuseLcs code (s.modLcs fun l => { l with badTokens := l.badTokens + bit (code = 0x0B) }))
  else (.ok, transition (if sub = 1 then .tested else .sealed_) 0 token s)

variable (h : Accepted r 3 s) (main : r.ep ≤ 1) (index : r.index = 0x9002) (length : token.length = 32) (sub : r.sub = 1 ∨ r.sub = 2)
include h main index length sub

theorem answers_token {st : DStat} {t : State} {p : State → Prop} (room : s.tokenRefusal r.sub token = 0 → 32 ≤ (s.exp 16).qbytes)
    (effect : tokenEffect r.sub token (s.counted r) = (st, t)) (leaves : p (respond (s.epVersion r.ep) r 3 st [] t)) :
    Answers r 3 st [] s p (exec (.tokenWrite r token) s) := by
  have done : exec (.tokenWrite r token) s = .next (writeEntry r { host := true, bmc := true } 32 token (tokenEffect r.sub token) s) := by
    change execTokenWrite r token s = _
    unfold execTokenWrite
    refine if_neg ?_
    have enough : s.tokenRefusal r.sub token = 0 → s.islandHas 32 = true := fun good => decide_eq_true (room good)
    have entry : (r.sub = 1 || r.sub = 2) = true := by simpa using sub
    by_cases good : s.tokenRefusal r.sub token = 0
    · rw [entry, enough good]
      simp [index]
    · rw [entry]
      simp [index, good]
  exact answers_own done h (visible_main main (by rw [index]; exact fun k named => nomatch named)) (allowed_main main rfl rfl) length (by decide) effect leaves

theorem answers_token_good {p : State → Prop} (good : s.tokenRefusal r.sub token = 0) (room : 32 ≤ (s.exp 16).qbytes)
    (leaves : p (respond (s.epVersion r.ep) r 3 .ok [] (transition (if r.sub = 1 then .tested else .sealed_) 0 token (s.counted r)))) :
    Answers r 3 .ok [] s p (exec (.tokenWrite r token) s) :=
  answers_token h main index length sub (fun _ => room) (if_neg (not_not.2 (counted_tokenRefusal.trans good))) leaves

theorem answers_token_bad {code bad : Nat} (refused : s.tokenRefusal r.sub token = code) (wrong : code ≠ 0) (count : bad = s.lcs.badTokens + bit (code = 0x0B)) :
    Answers r 3 .refused [] s (fun t => t.lcs = { s.lcs with badTokens := bad, refusal := code }) (exec (.tokenWrite r token) s) := by
  refine answers_token h main index length sub (fun good => absurd (refused.symm.trans good) wrong)
    (if_pos (by rw [counted_tokenRefusal, refused]; exact wrong)) ?_
  refine (refuseLcs_lcs ..).trans ?_
  rw [counted_tokenRefusal, refused, count]
  exact congrArg (fun l : LcsSt => { l with badTokens := l.badTokens + bit (code = 0x0B), refusal := code }) counted_lcs

end

/-! ### Requests -/

section
variable {r : Req} {d : Bytes} {s : State}

theorem setSession_lcs : (setSession r.ep none (s.counted r)).lcs = s.lcs := by
  obtain ⟨b, e, c, seen⟩ := setSession_counted_eq r s
  rw [seen]

theorem setSession_requestRefusal : (setSession r.ep none (s.counted r)).requestRefusal r.ep d = s.requestRefusal r.ep d := by
  obtain ⟨b, e, c, seen⟩ := setSession_counted_eq r s
  rw [seen]
  rfl

theorem allowed_any {ep : Nat} : s.allowed ep anyRole = true := by
  have role : ownRole ep = .bmc ∨ ownRole ep = .host ∨ ownRole ep = .lease (ep - 2) := by
    unfold ownRole
    split
    · exact .inl rfl
    · split
      · exact .inr (.inl rfl)
      · exact .inr (.inr rfl)
  unfold State.allowed anyRole
  rcases role with role | role | role
  · simp [role]
  · simp [role]
  · simp [role]

theorem answers_lifecycle {st : DStat} {t : State} {p : State → Prop} (h : Accepted r 7 s) (held : (s.session r).isSome = true) (index : r.index = 0x9001)
    (sub : r.sub = 1) (effect : lifecycleRequest r.ep d (setSession r.ep none (s.counted r)) = (st, t)) (leaves : p (respond (s.epVersion r.ep) r 7 st [] t)) :
    Answers r 7 st [] s p (exec (.lifecycleRequest r d) s) := by
  have done : exec (.lifecycleRequest r d) s = .next (endObject r anyRole id (lifecycleRequest r.ep d) s) := by
    change execLifecycleRequest r d s = _
    unfold execLifecycleRequest
    exact if_neg (by simp [index, sub])
  exact answers_object done h (visible_common (by rw [index]; rfl) (by rw [index]; decide)) allowed_any held effect leaves

end

section
variable {v : Verify} {s : State} (verify : s.lcs.verify = some v) (runs : s.running = true) (island : s.islandDone v.at_ 41 = true)
include verify runs island

theorem lifecycleVerifyDone_of_unsigned (bad : s.requestSigned v.data = false) :
    execLifecycleVerifyDone s = .next (refuseLcs 0x07 (s.modLcs fun l => { l with verify := none })) := by
  unfold execLifecycleVerifyDone
  rw [verify]
  exact (if_neg (by simp [runs, island])).trans (if_pos (by rw [bad]; rfl))

theorem lifecycleVerifyDone_of_signed {to_ : Lcs} (good : s.requestSigned v.data = true) (code : Lcs.ofCode (fieldLE v.data 7 1) = some to_)
    (room : to_ = .sealed_ ∨ to_ = .claimed → 32 ≤ (s.exp 16).qbytes) :
    execLifecycleVerifyDone s = .next (transition to_ (fieldLE v.data 12 4) v.data (s.modLcs fun l => { l with verify := none })) := by
  unfold execLifecycleVerifyDone
  rw [verify]
  refine (if_neg (by simp [runs, island])).trans ((if_neg (by simp [good])).trans ?_)
  rw [code]
  refine congrArg Host.Outcome.next (if_neg ?_)
  have enough : to_.makesLnonce = true → s.islandHas 32 = true := fun makes => decide_eq_true (room (by simpa [Lcs.makesLnonce] using makes))
  cases makes : to_.makesLnonce with
  | false => exact Bool.false_ne_true
  | true =>
    rw [enough makes]
    decide

end

theorem ofCode_code {c : Nat} {to_ : Lcs} (h : Lcs.ofCode c = some to_) : c = to_.code := by
  unfold Lcs.ofCode at h
  split at h
  all_goals cases h
  all_goals rfl

theorem lcsGo_of_stranger {c n : Nat} {s : State} (none : (∀ t, Lcs.ofCode c = some t → t ∉ s.lcs.state.next) ∨ s.lcs.intent = none) :
    lcsGo c n s = raiseIsland 60 s := by
  have bad : (match Lcs.ofCode c, s.lcs.intent with
      | some t, some r => s.lcs.state.next.contains t && decide (r.to_ = c)
      | _, _ => false) = false := by
    split
    next t r code intent =>
      rcases none with none | none
      · simp [none t code]
      · exact nomatch none.symm.trans intent
    · rfl
  unfold lcsGo
  refine if_pos ?_
  rw [Bool.not_eq_true']
  exact bad

theorem srcPresent_lcs (s : State) : s.srcPresent 0x33C = true := by
  unfold State.srcPresent
  have table : (srcTable 0x33C).isSome = true := by decide
  rw [table]
  rfl

end Sys2Proof.Machine

namespace Sys2Proof.Proofs
open Sys2Proof Sys2Proof.Machine Sys2Proof.Claims

/-- Settles O46: a transition is its step, its fuses and its DONE through the reset, for the tokens and for the requests alike. -/
theorem lifeCycle : Obligations.LifeCycle := by
  intro r token d to_ v b n s l same wrote clear
  refine ⟨fun open_ sub state fused good => ?tested, fun open_ sub state fused good => ?sealed, fun open_ wrong => ?wrong, fun idle closed sub => ?closed,
    fun h held index sub => ?request, fun verify runs pass upd due => ?verified, fun runs => ?go, fun h held host index sub => ?identity⟩
  case tested =>
    intro h main index length room
    obtain ⟨idle, few, latch⟩ := open_
    have good : s.tokenRefusal r.sub token = 0 := by
      unfold State.tokenRefusal
      rw [sub]
      simp [idle, show ¬ 8 ≤ s.lcs.badTokens from Nat.not_le.2 few, latch, show s.lcs.state = .blank from state, show sha3 token = s.lcs.token1 from good]
    have succ : .tested ∈ (s.counted r).lcs.state.next := by rw [counted_lcs, show s.lcs.state = .blank from state]; decide
    have read : (s.counted r).lcs.fused = (s.counted r).lcs.state := by rw [counted_lcs]; exact fused.trans state.symm
    obtain ⟨entered, count, journal⟩ := transition_token (token := token) succ read (by decide) 0
    refine answers_token_good h main index length (.inl sub) good (room rfl) ?_
    rw [if_pos sub]
    have made := transition_tested (counter := 0) (token := token) succ
    generalize transition .tested 0 token (s.counted r) = t at entered count journal made ⊢
    exact ⟨entered, count.trans (by rw [counted_lcs]; rfl), journalled_congr (congrArg LcsSt.state counted_lcs) (congrArg LcsSt.journal counted_lcs) journal, made⟩
  case sealed =>
    intro h main index length room
    obtain ⟨idle, few, latch⟩ := open_
    have good : s.tokenRefusal r.sub token = 0 := by
      unfold State.tokenRefusal
      rw [sub]
      simp [idle, show ¬ 8 ≤ s.lcs.badTokens from Nat.not_le.2 few, latch, show s.lcs.state = .tested from state, show sha3 token = s.lcs.token2 from good]
    have succ : .sealed_ ∈ (s.counted r).lcs.state.next := by rw [counted_lcs, show s.lcs.state = .tested from state]; decide
    have read : (s.counted r).lcs.fused = (s.counted r).lcs.state := by rw [counted_lcs]; exact fused.trans state.symm
    obtain ⟨entered, count, journal⟩ := transition_token (token := token) succ read (by decide) 0
    obtain ⟨lnonce, erased⟩ := transition_sealed (counter := 0) (token := token) succ
    refine answers_token_good h main index length (.inr sub) good (room rfl) ?_
    rw [if_neg (by rw [sub]; decide)]
    generalize transition .sealed_ 0 token (s.counted r) = t at entered count journal lnonce erased ⊢
    exact ⟨entered, count.trans (by rw [counted_lcs]; rfl), journalled_congr (congrArg LcsSt.state counted_lcs) (congrArg LcsSt.journal counted_lcs) journal, lnonce, erased⟩
  case wrong =>
    intro h main index length room
    obtain ⟨idle, few, latch⟩ := open_
    have bad : s.tokenRefusal r.sub token = 0x0B := by
      have gates : ¬ 8 ≤ s.lcs.badTokens := Nat.not_le.2 few
      unfold State.tokenRefusal
      rcases wrong with ⟨sub, wrong⟩ | ⟨sub, wrong⟩
      · rw [sub]
        by_cases state : s.lcs.state = .blank
        · simp [idle, gates, latch, state, show sha3 token ≠ s.lcs.token1 from wrong.resolve_left (not_not.2 state)]
        · simp [idle, gates, latch, state]
      · rw [sub]
        by_cases state : s.lcs.state = .tested
        · simp [idle, gates, latch, state, show sha3 token ≠ s.lcs.token2 from wrong.resolve_left (not_not.2 state)]
        · simp [idle, gates, latch, state]
    exact answers_token_bad h main index length (wrong.imp And.left And.left) bad (by decide) rfl
  case closed =>
    intro h main index length room
    have shut : s.tokenRefusal r.sub token = 0x05 := by
      unfold State.tokenRefusal
      have shut : (decide (8 ≤ s.lcs.badTokens) || s.vault.latch) = true := by simpa using closed
      rw [idle, shut]
      rfl
    exact answers_token_bad h main index length sub shut (by decide) rfl
  case request =>
    refine ⟨fun good => ?_, fun bad => ?_⟩
    · obtain ⟨b, e, c, seen⟩ := setSession_counted_eq r s
      refine answers_lifecycle h held index sub (if_neg (not_not.2 (setSession_requestRefusal.trans good))) (aside_respond ?_)
      rw [seen]
      rfl
    · refine answers_lifecycle h held index sub (if_pos (by rw [setSession_requestRefusal]; exact bad)) ?_
      refine (refuseLcs_lcs ..).trans ?_
      rw [setSession_requestRefusal, setSession_lcs]
  case verified =>
    have island : s.islandDone v.at_ 41 = true := by simp [State.islandDone, pass, upd, due]
    refine ⟨fun bad => ⟨_, lifecycleVerifyDone_of_unsigned verify runs island bad, refuseLcs_lcs ..⟩, fun good code succ fused room => ?_⟩
    have done := lifecycleVerifyDone_of_signed verify runs island good code room
    have succ : to_ ∈ (s.modLcs fun l => { l with verify := none }).lcs.state.next := succ
    obtain ⟨n, u, -, -, lcs, stage, mode, -, carried, -⟩ := transition_leaves succ (fieldLE v.data 12 4) v.data
    have some : to_ = .claimed → v.data ≠ [] := by
      rintro rfl none
      rw [none] at code
      exact nomatch code
    have claimed := fun target : to_ = .claimed => transition_claimed (counter := fieldLE v.data 12 4) (d := v.data) (target ▸ succ) (some target)
    have ret := fun target : to_ = .ret => transition_ret (counter := fieldLE v.data 12 4) (d := v.data) (target ▸ succ)
    have scrapped := fun target : to_ = .scrapped => transition_scrapped (counter := fieldLE v.data 12 4) (d := v.data) (target ▸ succ)
    refine ⟨_, done, ?_⟩
    have state := transition_state succ fused lcs carried
    have count := transition_count lcs carried
    have after := transition_lcs carried
    have journal := transition_journalled lcs carried
    refine ⟨⟨state, stage, mode⟩, congrArg LcsSt.verify after, congrArg LcsSt.pend after, fun next few => count.trans ?_, fun full => count.trans ?_, fun stays =>
      journalled_congr (u := s.modLcs fun l => { l with verify := none }) rfl rfl (journal stays), fun target => ?_, fun target => ?_, fun target => ?_⟩
    · exact (if_pos ⟨by omega, by rw [next]; exact Nat.lt_succ_self _, few⟩).trans next.symm
    · exact (if_neg fun ⟨_, _, few⟩ => Nat.lt_irrefl 64 (lt_of_eq_of_lt full.symm few)).trans full
    · subst target
      obtain ⟨m, n, length, after⟩ := claimed rfl
      rw [after]
      exact ⟨rfl, rfl, rfl, rfl, rfl, length, rfl, rfl⟩
    · subst target
      exact ret rfl
    · subst target
      exact scrapped rfl
  case go =>
    refine ⟨fun x code succ intent target => ?_, fun none => ?_⟩
    · have named : b.toNat = to_.code := ofCode_code code
      refine (if_pos runs).trans (congrArg Host.Outcome.next ?_)
      rw [named]
      have count : s.lcs.counted n.toNat = if n ≠ 0 ∧ l.count < n.toNat ∧ l.count < 64 then l.count + 1 else l.count := by
        unfold LcsSt.counted
        exact if_congr (and_congr (not_congr (by rw [← BitVec.toNat_inj]; rfl)) Iff.rfl) rfl rfl
      rw [← count]
      exact lcsGo_of_intent succ intent (target.trans named)
    · refine ⟨raiseIsland 60 s, (if_pos runs).trans (congrArg Host.Outcome.next (lcsGo_of_stranger none)), calm_lcs (raise_calm .rfl),
        raise_counted ⟨by decide, by decide⟩ (srcPresent_lcs s) (stage_on_of_islandRuns runs)⟩
  case identity =>
    obtain ⟨b, e, c, seen⟩ := setSession_counted_eq r s
    have effect : ∀ {st : DStat} {t : State} {p : State → Prop}, identityWrite r.sub d (setSession r.ep none (s.counted r)) = (st, t) →
        p (respond (s.epVersion r.ep) r 7 st [] t) → Answers r 7 st [] s p (exec (.identityRecordWrite r d) s) := by
      intro st t p effect leaves
      have done : exec (.identityRecordWrite r d) s = .next (endObject r { host := true } id (identityWrite r.sub d) s) := by
        change execIdentityRecordWrite r d s = _
        unfold execIdentityRecordWrite
        exact if_neg (by rcases sub with sub | sub | sub <;> simp [index, sub])
      exact answers_object done h (visible_common (by rw [index]; rfl) (by rw [index]; decide)) (by rw [host]; exact allowed_host rfl) held effect leaves
    refine ⟨fun state none => ?_, fun closed => ?_⟩
    · refine effect (if_neg (by simpa [setSession_lcs] using ⟨state, none⟩)) ⟨?_, ?_, fun j other => ?_⟩
      all_goals rw [seen]
      · exact tget_tset_same ..
      · rfl
      · exact tget_tset_ne _ _ _ other
    · refine effect (if_pos (by simpa [setSession_lcs] using closed)) (aside_respond ?_)
      rw [seen]
      rfl

end Sys2Proof.Proofs

/-! PROOFS. The operations of the dictionary (R352-R366). -/

namespace Sys2Proof.Machine
open Sys2Proof Sys2Proof.Claims

/-! ### What a request sees -/

section
variable (r : Req) (s : State)

theorem counted_at (e : Nat) : ((s.counted r).ep e).ver = (s.ep e).ver ∧ ((s.counted r).ep e).sess = (s.ep e).sess := by
  have bus : ∀ u : State, u.dic.eps = s.dic.eps → ((countReq (outstanding r u)).ep e).ver = (s.ep e).ver ∧
      ((countReq (outstanding r u)).ep e).sess = (s.ep e).sess := by
    intro u eps
    have same : u.ep e = s.ep e := congrArg (fun l : Tbl Ep => tget ({} : Ep) l e) eps
    rw [← same]
    have tags : (countReq (outstanding r u)).ep e = if e = r.ep then { u.ep r.ep with tags := (u.ep r.ep).tags ++ [r.tag] } else u.ep e := tget_tset ..
    rw [tags]
    split
    next here => subst here; exact ⟨rfl, rfl⟩
    · exact ⟨rfl, rfl⟩
  refine bus _ ?_
  unfold pickBus
  split <;> rfl

theorem entry_of_dic (dic : Dic) (window : dic.window = s.dic.window) (ver : ∀ e, (({ s with dic := dic } : State).ep e).ver = (s.ep e).ver) (ep index sub : Nat) :
    ({ s with dic := dic } : State).entry ep index sub = s.entry ep index sub := by
  unfold State.entry
  split
  · unfold State.identEntry
    rw [ver]
  split
  · unfold State.configEntry
    rw [window]
    rfl
  split
  · rfl
  split
  · rfl
  split
  · rfl
  split
  · rfl
  split
  · rfl
  split
  · rfl
  · rfl

theorem counted_find (q : Req) : (s.counted r).find q = s.find q := by
  obtain ⟨b, e, n, seen⟩ := counted_eq' r s
  have entry : ∀ ep index sub, (s.counted r).entry ep index sub = s.entry ep index sub := by
    have ver := fun e => (counted_at r s e).1
    intro ep index sub
    rw [seen] at ver ⊢
    exact entry_of_dic s { s.dic with smbus := b, eps := e, reqs := n } rfl ver ep index sub
  have hidden : (s.counted r).hidden q = s.hidden q := by rw [seen]; rfl
  unfold State.find
  rw [hidden, entry]

theorem counted_aside : Aside s (s.counted r) = s := aside_counted r s

end

theorem answers_request {r : Req} {op n : Nat} {st : DStat} {payload : Bytes} {f : State → DStat × Bytes × State} {s t : State} {p : State → Prop} {o : Res}
    (done : o = .next (request r op f s n)) (h : Accepted r op s) (short : n ≤ 256) (effect : f (s.counted r) = (st, payload, t))
    (leaves : p (respond (s.epVersion r.ep) r op st payload t)) : Answers r op st payload s p o := by
  refine answers_respond ?_ leaves
  rw [done, request_of_accepted h short, effect]

theorem counted_enumIndex (r q : Req) (i : Nat) (s : State) : (s.counted r).enumIndex q i = s.enumIndex q i := by
  unfold State.enumIndex
  simp only [counted_find, counted_allowed]

/-- The rights of the six roles, as INFO answers them. -/
def Entry.rightsBytes (e : Entry) : Bytes :=
  [rightsByte e.read.host e.write.host, rightsByte e.read.lease e.write.lease, rightsByte e.read.bmc e.write.bmc,
   rightsByte e.read.officer e.write.officer, rightsByte e.read.others e.write.others, rightsByte e.read.others e.write.others]

/-! ### Sessions -/

section
variable {α : Type} {d v : α} {i : Nat}

theorem any_tput {p : α → Bool} (fresh : p v = false) {t : Tbl α} (old : p (tget d t i) = false) : (tput t i v).any (fun e => p e.2) = t.any fun e => p e.2 := by
  induction t with
  | nil => simp [tput, fresh]
  | cons e t ih =>
    obtain ⟨k, u⟩ := e
    unfold tput
    split
    · simp [fresh]
    split
    next here =>
      have old : p u = false := (congrArg p (if_pos here)).symm.trans old
      simp [fresh, old]
    next other =>
      simp only [List.any_cons]
      rw [ih ((congrArg p (if_neg other)).symm.trans old)]

theorem sum_tput {f : α → Nat} (fresh : f v = 0) {t : Tbl α} (old : f (tget d t i) = 0) :
    ((tput t i v).map fun e => f e.2).sum = (t.map fun e => f e.2).sum := by
  induction t with
  | nil => simp [tput, fresh]
  | cons e t ih =>
    obtain ⟨k, u⟩ := e
    unfold tput
    split
    · simp [fresh]
    split
    next here =>
      have old : f u = 0 := (congrArg f (if_pos here)).symm.trans old
      simp [fresh, old]
    next other =>
      simp only [List.map_cons, List.sum_cons]
      rw [ih ((congrArg f (if_neg other)).symm.trans old)]

end

/-- The session of an endpoint is open on the entry. -/
def Ep.holds (index sub : Nat) (x : Ep) : Bool := match x.sess with | some x => x.index = index && x.sub = sub | none => false

/-- The bytes that an endpoint's session takes of the stage. -/
def Ep.staged (x : Ep) : Nat := match x.sess with | some x => if x.index = 0x9030 then 0 else x.total | none => 0

theorem segOpen_eq (s : State) (index sub : Nat) : s.segOpen index sub = s.dic.eps.any fun e => e.2.holds index sub := rfl

theorem segFree_eq (s : State) : s.segFree = 131072 - (s.dic.eps.map fun e => e.2.staged).sum := rfl

section
variable {r : Req} {s : State}

theorem counted_eps : (s.counted r).dic.eps = tput s.dic.eps r.ep { s.ep r.ep with tags := (s.ep r.ep).tags ++ [r.tag] } := by
  have some : ({ s.ep r.ep with tags := (s.ep r.ep).tags ++ [r.tag] } : Ep) ≠ {} := fun none => absurd (congrArg Ep.tags none) (by simp)
  unfold State.counted pickBus
  split
  · exact if_neg some
  · exact if_neg some

theorem counted_segOpen (closed : (s.ep r.ep).sess = none) (index sub : Nat) : (s.counted r).segOpen index sub = s.segOpen index sub := by
  rw [segOpen_eq, segOpen_eq, counted_eps]
  exact any_tput (d := ({} : Ep)) (p := Ep.holds index sub) (by simp [Ep.holds, closed]) (by unfold Ep.holds; rw [show (tget {} s.dic.eps r.ep).sess = none from closed])

theorem counted_segFree (closed : (s.ep r.ep).sess = none) : (s.counted r).segFree = s.segFree := by
  rw [segFree_eq, segFree_eq, counted_eps]
  refine congrArg (131072 - ·) (sum_tput (d := ({} : Ep)) (f := Ep.staged) (by simp [Ep.staged, closed]) ?_)
  unfold Ep.staged
  rw [show (tget {} s.dic.eps r.ep).sess = none from closed]

/-- A request of up to 1,024 bytes of a later major version. -/
theorem request_of_accepted_long {op n : Nat} {f : State → DStat × Bytes × State} (h : Accepted r op s) (room : n ≤ 1024)
    (short : ∀ m, (s.ep r.ep).ver = some (1, m) → n ≤ 256) :
    request r op f s n = respond (s.epVersion r.ep) r op (f (s.counted r)).1 (f (s.counted r)).2.1 (f (s.counted r)).2.2 := by
  by_cases fits : n ≤ 256
  · exact request_of_accepted h fits
  · obtain ⟨hopen, hop, hbus, ⟨major, minor, hv, hmajor, hone, henum, htwo⟩, hst, hlen, hrom, huds, hu⟩ := h
    have later : major ≠ 1 := by
      rintro rfl
      exact fits (short minor hv)
    obtain ⟨few, tag⟩ := htwo later
    have rom : s.romAnswers op r.index = true := by
      unfold State.romAnswers
      split
      · exact absurd ‹_› hrom
      · exact absurd ‹_› huds
      · rfl
    refine request_of_checks ?_ hv ?_ ?_ rom (.inl hu)
    · have bus : r.ep ≠ 0 ∨ s.dic.smbus.getD r.smbus = r.smbus := by tauto
      simp [State.takes, hopen, bus, room]
    · simpa [malformed, hop, hst, hlen, hmajor, later] using henum
    · simp [Ep.crowded, later, tag, few]

theorem answers_request_long {op n : Nat} {st : DStat} {payload : Bytes} {f : State → DStat × Bytes × State} {t : State} {p : State → Prop} {o : Res}
    (done : o = .next (request r op f s n)) (h : Accepted r op s) (room : n ≤ 1024) (short : ∀ m, (s.ep r.ep).ver = some (1, m) → n ≤ 256)
    (effect : f (s.counted r) = (st, payload, t)) (leaves : p (respond (s.epVersion r.ep) r op st payload t)) : Answers r op st payload s p o := by
  refine answers_respond ?_ leaves
  rw [done, request_of_accepted_long h room short, effect]

theorem setSession_leaves (e : Nat) (x : Option Session) (u : State) : ((setSession e x u).ep e).sess = x ∧ ((setSession e x u).ep e).ver = (u.ep e).ver := by
  have here : (setSession e x u).ep e = { u.ep e with sess := x } := tget_tset_same ..
  exact ⟨congrArg Ep.sess here, (congrArg Ep.ver here :)⟩

theorem aside_setSession {u : State} {e : Nat} {x : Option Session} (h : Aside s u = s) : Aside s (setSession e x u) = s := h

/-- What stands beside a session that an operation opens, moves or ends. -/
theorem setSession_stands (x : Option Session) (v : Nat) (op : Nat) (st : DStat) (b : Bytes) :
    let t := respond v r op st b (setSession r.ep x (s.counted r))
    (t.ep r.ep).sess = x ∧ (t.ep r.ep).ver = (s.ep r.ep).ver ∧ Aside s t = s := by
  obtain ⟨session, ver⟩ := setSession_leaves r.ep x (s.counted r)
  exact ⟨session, ver.trans (counted_at r s r.ep).1, aside_respond (aside_setSession (aside_counted r s))⟩

theorem segWriteEnd_of_free {d : List Nat} {stored : Bool} (pass : s.flg.pass = none ∨ r.index ≠ 0x5011) :
    exec (.segWriteEnd r d stored) s = .next (request r 7 (onSession r fun x s =>
      if r.index = 0x9030 then
        let (st, t) := updateEnd r stored s
        (st, [], if st = .busy then t else setSession r.ep none t)
      else
        let t := setSession r.ep none s
        if x.data.length ≠ x.total then (.noSession, [], t)
        else
          let (st, t) := applyObject r x.data d stored t
          (st, [], t)) s) :=
  if_neg (by rcases pass with pass | pass <;> simp [State.heldByPass, pass])

theorem sub_of_plan {y : Entry} (plan : r.index = 0x2010) (found : s.find r = some y) : 1 ≤ r.sub := by
  unfold State.find at found
  split at found
  · exact nomatch found
  rw [plan] at found
  by_contra none
  have zero : r.sub = 0 := by omega
  rw [zero] at found
  exact nomatch found

/-- An object of entry 0x2010 that is whole becomes the stored plan of its bench. -/
theorem applyPlan {d : Bytes} {fresh : List Nat} {stored : Bool} (plan : r.index = 0x2010) (size : d.length = 1280)
    (bytes : ∀ b ∈ d, b.toNat = 0xFF ∨ b.toNat < s.nLease) (free : s.dsp.rplPend = false) :
    applyObject r d fresh stored s = (.ok, bumpGen 0x2010 (r.sub - 1 + 1) { s with dsp := { s.dsp with planSlt := putBytes s.dsp.planSlt (1280 * (r.sub - 1)) d } }) := by
  have some : d ≠ [] := by
    rintro rfl
    exact nomatch size
  have ok : (decide (d.length = 1280) && d.all fun x => s.entryOk x.toNat) = true := by
    rw [Bool.and_eq_true, decide_eq_true_eq, List.all_eq_true]
    refine ⟨size, fun b mem => ?_⟩
    simpa [State.entryOk] using bytes b mem
  have planned : planWrite 0x2010 (r.sub - 1) d s =
      (.ok, bumpGen 0x2010 (r.sub - 1 + 1) { s with dsp := { s.dsp with planSlt := putBytes s.dsp.planSlt (1280 * (r.sub - 1)) d } }) := by
    unfold planWrite
    dsimp only
    exact (if_neg (by simp [free])).trans ((if_pos rfl).trans (if_pos ok))
  unfold applyObject
  dsimp only
  rw [plan]
  simp only [some, planned]
  rfl

theorem session_of_some {x : Session} (held : s.session r = some x) : (s.ep r.ep).sess = some x ∧ x.index = r.index := by
  obtain ⟨inside, same⟩ := Option.filter_eq_some_iff.1 held
  simp only [Bool.and_eq_true, decide_eq_true_eq] at same
  exact ⟨inside, same.1⟩

theorem onSession_of_open {f : Session → State → DStat × Bytes × State} {x : Session} {y : Entry} (held : s.session r = some x) (found : s.find r = some y)
    (may : s.allowed r.ep y.write = true) (domain : y.type.isDomain = true) : onSession r f (s.counted r) = f x (s.counted r) := by
  unfold onSession
  rw [counted_find, found]
  refine (if_neg (by simp [may])).trans ((if_neg (by simp [domain])).trans ?_)
  rw [counted_session, held]

end

/-! ### Plain entries, and entries with a row of their own -/

section
variable {r : Req} {s : State}

theorem find_of_visible (visible : s.hidden r = false) : s.find r = s.entry r.ep r.index r.sub := if_neg (by simp [visible])

/-- A WRITE of an entry that has a row of its own is that row. -/
theorem write_of_row {d : Bytes} {x : Entry} (found : s.find r = some x) (some : x.write ≠ {}) (value : x.type.isDomain = false)
    (row : plainWrite r.index r.sub 0 s = none) : execWrite r d s = entryRow r d s := by
  unfold execWrite
  extract_lets plain
  have own : plain = false := by
    unfold plain
    rw [found]
    simp [some, value, row]
  rw [own]
  rfl

/-- A WRITE of a plain entry by a role of its own. -/
theorem answers_write {d : Bytes} {x : Entry} {st : DStat} {t : State} {p : State → Prop} (h : Accepted r 3 s) (found : s.find r = some x)
    (own : s.allowed r.ep { x.write with officer := false } = true) (value : x.type.isDomain = false) (length : d.length = x.type.len) (short : d.length ≤ 256)
    (row : (plainWrite r.index r.sub 0 s).isSome = true) (effect : plainWrite r.index r.sub (leNat d) (s.counted r) = some (st, t))
    (leaves : p (respond (s.epVersion r.ep) r 3 st [] t)) : Answers r 3 st [] s p (exec (.write r d) s) := by
  have done : exec (.write r d) s = .next (request r 0x03 (fun s =>
      match s.find r with
      | none => (.noEntry, [], s)
      | some e =>
        if !s.allowed r.ep e.write then (.denied, [], s)
        else if e.type.isDomain || d.length ≠ e.type.len then (.type, [], s)
        else
          match plainWrite r.index r.sub (leNat d) s with
          | some (st, t) => (st, [], officerAction r (s.allowed r.ep { e.write with officer := false }) st t)
          | none => (.denied, [], s)) s d.length) := by
    change execWrite r d s = _
    unfold execWrite
    extract_lets plain
    have plain_ : plain = true := by
      unfold plain
      rw [found]
      simp [row]
    rw [plain_]
    rfl
  have may : s.allowed r.ep x.write = true := by
    unfold State.allowed at own ⊢
    rw [Bool.or_eq_true]
    exact .inr (by simpa using own)
  refine answers_request done h short ?_ leaves
  rw [counted_find, found]
  refine (if_neg (by simp [may])).trans ((if_neg (by simp [value, length])).trans ?_)
  rw [effect]
  refine congrArg (fun t => (st, ([] : Bytes), t)) ?_
  rw [counted_allowed, own, officerAction_own]

end

/-! ### HELLO -/

/-- The state in which HELLO chooses a version: its endpoint's own is forgotten. -/
def State.greeted (s : State) (r : Req) : State := outstanding r (discardEp r.ep (countReq (pickBus r s)))

/-- The answer of the version that HELLO chooses. -/
def State.choose (s : State) (r : Req) (a b : Nat) : State :=
  respond (16 * a + b) r 0x01 .ok [BitVec.ofNat 8 (16 * a + b), 0x10, 0x21] (s.setEp r.ep { s.ep r.ep with ver := some (a, b) })

theorem setEp_ep (e : Nat) (x : Ep) (u : State) : (u.setEp e x).ep e = x := tget_tset_same ..

theorem dropSession_sess (e : Nat) (s : State) : ((dropSession e s).ep e).sess = none := by
  unfold dropSession
  extract_lets t
  have closed : (t.ep e).sess = none := (setSession_leaves e none s).1
  split
  · exact closed
  · exact closed

theorem discardEp_sess (e : Nat) (s : State) : ((discardEp e s).ep e).sess = none := by
  have same : (discardEp e s).ep e = { (dropSession e s).ep e with ver := none, tags := [] } := tget_tset_same ..
  rw [same]
  exact dropSession_sess e s

theorem discardEp_frame {e : Nat} {s : State} (drop : dropSession e s = setSession e none s) : Aside s (discardEp e s) = { s with cust := (discardEp e s).cust } := by
  unfold discardEp
  rw [drop]
  rfl

/-- An endpoint that takes no part in a ceremony, and has no update open, is forgotten with nothing else. -/
theorem discardEp_aside {e : Nat} {s : State} (unbound : s.cust.bind ≠ some e) (collect : ∀ x, s.cust.collect = some x → x.purpose = 1 → x.endpoint ≠ e)
    (sess : ∀ x, (s.ep e).sess = some x → x.index ≠ 0x9030) : Aside s (discardEp e s) = s := by
  have collected : s.cust.collect.map (fun x => { x with unbound := x.unbound || (x.purpose = 1 && x.endpoint = e) }) = s.cust.collect := by
    cases held : s.cust.collect with
    | none => rfl
    | some x =>
      have apart : (decide (x.purpose = 1) && decide (x.endpoint = e)) = false := by simpa using collect x held
      simp [apart]
  have kept : ¬ (s.ep e).sess.any (fun x => decide (x.index = 0x9030)) = true := by
    cases held : (s.ep e).sess with
    | none => exact Bool.false_ne_true
    | some x => simpa using sess x held
  have drop : dropSession e s = setSession e none s := if_neg kept
  have cust : (discardEp e s).cust = s.cust := by
    have bind : (if s.cust.bind = some e then none else s.cust.bind) = s.cust.bind := if_neg unbound
    unfold discardEp
    rw [drop]
    exact (congrArg₂ (fun b c => { s.cust with bind := b, collect := c }) bind collected :)
  rw [discardEp_frame drop, cust]

/-- The state in which an endpoint has a new number. -/
def State.renumbered (s : State) (e eid : Nat) : State := (discardEp e s).setEp e { (discardEp e s).ep e with eid := eid % 256 }

theorem renumbered_leaves {e eid : Nat} {s : State} (discard : Aside s (discardEp e s) = s) : ((s.renumbered e eid).ep e).ver = none ∧
    ((s.renumbered e eid).ep e).sess = none ∧ ((s.renumbered e eid).ep e).eid = eid % 256 ∧ Aside s (s.renumbered e eid) = s := by
  have here : (s.renumbered e eid).ep e = { (discardEp e s).ep e with eid := eid % 256 } := setEp_ep ..
  have ver := (discardEp_leaves e s).1
  have closed := discardEp_sess e s
  have aside : Aside s (s.renumbered e eid) = Aside s (discardEp e s) := rfl
  rw [here]
  exact ⟨ver, closed, rfl, aside.trans discard⟩

section
variable {r : Req} {offers : Bytes} {s : State}

theorem hello_of_formed (opened : s.epOpen r.ep = true) (bus : r.ep = 0 → s.dic.smbus.getD r.smbus = r.smbus) (op : r.badOp = none) (status : r.status = 0)
    (length : r.lenOk = true) (ver : r.ver = 0) (free : s.epVersion r.ep = 0 ∨ (s.ep r.ep).crowded r (s.epVersion r.ep / 16) = false) (few : offers.length < 256) :
    execHello r offers s = .next (if (offers.any fun b => b.toNat / 16 = 2) = true then (s.greeted r).choose r 2 1
      else if (offers.any fun b => b.toNat / 16 = 1) = true then (s.greeted r).choose r 1 0
      else respond 0 r 0x01 .noCommonVersion [0x10, 0x21] (s.greeted r)) := by
  have takes : s.takes r (offers.length + 1) = true := by
    have bus : r.ep ≠ 0 ∨ s.dic.smbus.getD r.smbus = r.smbus := by tauto
    simp [State.takes, opened, bus]
    omega
  have version : (pickBus r s).epVersion r.ep = s.epVersion r.ep := by
    unfold State.epVersion
    rw [pickBus_ep]
  unfold execHello
  refine (if_neg (by simp [takes])).trans ?_
  dsimp only
  rw [version, pickBus_ep]
  refine (if_neg ?_).trans ((if_neg ?_).trans rfl)
  · simp [op, status, length, ver]
    omega
  · rcases free with free | free
    · simp [free]
    · simp [free]

theorem greeted_ep : ((s.greeted r).ep r.ep).ver = none ∧ ((s.greeted r).ep r.ep).sess = none := by
  have same : (s.greeted r).ep r.ep = { (discardEp r.ep (countReq (pickBus r s))).ep r.ep with
      tags := ((discardEp r.ep (countReq (pickBus r s))).ep r.ep).tags ++ [r.tag] } := tget_tset_same ..
  rw [same]
  exact ⟨(discardEp_leaves ..).1, discardEp_sess ..⟩

theorem choose_leaves (a b : Nat) (closed : (s.ep r.ep).sess = none) : ((s.choose r a b).ep r.ep).ver = some (a, b) ∧ ((s.choose r a b).ep r.ep).sess = none := by
  have same := setEp_ep r.ep { s.ep r.ep with ver := some (a, b) } s
  exact ⟨congrArg Ep.ver same, (congrArg Ep.sess same).trans closed⟩

end

end Sys2Proof.Machine

namespace Sys2Proof.Proofs
open Sys2Proof Sys2Proof.Machine Sys2Proof.Claims

/-- Settles O44: an operation finds the entry as it stands, and what it answers is its row of the table. -/
theorem dictionaryOperations : Obligations.DictionaryOperations := by
  intro r off len gen total first count ep eid d offers s e g same sess
  refine ⟨fun opened bus op status length ver free few => ?hello, fun closed => ?closed, fun h => ?read, fun h x found => ?info, fun h low high => ?enum,
    fun index sub => ?owner, fun index sub => ?ack, fun h host index sub length low high => ?window, fun h main index sub value => ?low,
    fun h x found may domain short other => ?segRead, fun h x found may domain other none => ?start, fun x y held found may domain other => ?session,
    fun x held other due => ?timeout, fun opened unbound collect sess => ?endpoint, fun opened => ?mctp⟩
  case hello =>
    have done := hello_of_formed opened bus op status length ver free few
    obtain ⟨none, closed⟩ := greeted_ep (r := r) (s := s)
    refine ⟨fun two => ?_, fun noTwo one => ?_, fun neither => ?_⟩
    · obtain ⟨ver, sess⟩ := choose_leaves (r := r) (s := s.greeted r) 2 1 closed
      exact ⟨_, done.trans (congrArg Host.Outcome.next (if_pos (by simpa using two))), ver, sess, rfl⟩
    · obtain ⟨ver, sess⟩ := choose_leaves (r := r) (s := s.greeted r) 1 0 closed
      exact ⟨_, done.trans (congrArg Host.Outcome.next ((if_neg (by simpa using noTwo)).trans (if_pos (by simpa using one)))), ver, sess, rfl⟩
    · exact ⟨_, done.trans (congrArg Host.Outcome.next ((if_neg (by simpa using fun b mem => (neither b mem).1)).trans
        (if_neg (by simpa using fun b mem => (neither b mem).2)))), none⟩
  case closed =>
    have none : ∀ n, s.takes r n = false := fun n => by simp [State.takes, closed]
    exact ⟨congrArg Host.Outcome.next (if_pos (by rw [none]; rfl)), if_pos (by rw [none]; rfl)⟩
  case read =>
    refine ⟨fun none => ?_, fun x found => ⟨fun denied => ?_, fun may domain => ?_, fun may plain => ?_⟩⟩
    all_goals refine answers_request (t := s.counted r) rfl h (by decide) ?_ (aside_respond (aside_counted r s))
    all_goals rw [counted_find]
    · rw [show s.find r = .none from none]
    · rw [show s.find r = some x from found]
      exact if_pos (by simp [denied])
    · rw [show s.find r = some x from found]
      exact (if_neg (by simp [may])).trans (if_pos domain)
    · rw [show s.find r = some x from found]
      exact (if_neg (by simp [may])).trans (if_neg (by simp [plain]))
  case info =>
    refine ⟨x.rightsBytes, rfl, answers_request (t := s.counted r) rfl h (by decide) ?_ (aside_respond (aside_counted r s))⟩
    rw [counted_find, show s.find r = some x from found]
    exact Prod.ext rfl (Prod.ext (by simp [Entry.rightsBytes]) rfl)
  case enum =>
    refine ⟨((List.range count).flatMap fun i => s.enumIndex r (first + i)).take 1024, List.length_take_le .., List.take_prefix .., ?_⟩
    refine answers_request (t := s.counted r) rfl h (by decide) ((if_neg (by simp; omega)).trans ?_) (aside_respond (aside_counted r s))
    simp only [counted_enumIndex]
  case owner =>
    have entry : s.find r = some { type := .u8, read := rHB, write := { bmc := true }, value := leBytes 1 s.flg.owner } := by
      rw [find_of_visible (visible_common (by rw [index]; rfl) (by rw [index]; decide)), index, sub]
      rfl
    refine (write_of_row entry (fun none => nomatch (congrArg Rights.bmc none : true = false)) rfl ?_).trans ?_
    · rw [index, sub]
      rfl
    · unfold entryRow
      rw [index]
      rfl
  case ack =>
    have entry : s.find r = some { type := .u32, read := rHBO, write := rBO, value := leBytes 4 s.ldg.ack, keep := .persistent } := by
      rw [find_of_visible (visible_common (by rw [index]; rfl) (by rw [index]; decide)), index, sub]
      rfl
    refine (write_of_row entry (fun none => nomatch (congrArg Rights.bmc none : true = false)) rfl ?_).trans ?_
    · rw [index, sub]
      rfl
    · unfold entryRow
      rw [index]
      rfl
  case window =>
    have entry : s.find r = some { type := .u32, read := rHO, write := rHO, value := leBytes 4 s.dic.window, keep := .persistent } := by
      rw [find_of_visible (visible_common (by rw [index]; rfl) (by rw [index]; decide)), index, sub]
      rfl
    obtain ⟨b, e, n, seen⟩ := counted_eq' r s
    have range : (decide (1 ≤ leNat d) && decide (leNat d ≤ 16777215)) = true := by simp [low, high]
    refine answers_write (st := .ok) (t := { s.counted r with dic := { (s.counted r).dic with window := leNat d } }) h entry
      (by rw [host]; exact allowed_host rfl) rfl length (by omega) ?_ ?_ ⟨rfl, ?_⟩
    · rw [index]
      rfl
    · rw [index]
      exact if_pos range
    · rw [seen]
      rfl
  case low =>
    have entry : s.find r = some { type := .bool, read := rHB, write := rHB, value := leBytes 1 (bit s.flt.low) } := by
      rw [find_of_visible (visible_common (by rw [index]; rfl) (by rw [index]; decide)), index, sub]
      rfl
    obtain ⟨b, e, n, seen⟩ := counted_eq' r s
    refine answers_write (st := .ok) (t := { s.counted r with flt := { (s.counted r).flt with low := true } }) h entry
      (allowed_main main rfl rfl) rfl (by rw [value]; rfl) (by rw [value]; decide) ?_ ?_ (aside_respond ?_)
    · rw [index]
      rfl
    · rw [index, value]
      rfl
    · rw [seen]
      rfl
  case segRead =>
    have effect : ∀ {st : DStat} {b : Bytes}, (if (decide (gen ≠ 0xFFFFFFFF) && decide (gen ≠ g)) = true
          then (DStat.changed, leBytes 4 x.value.length ++ leBytes 4 g)
          else (.ok, leBytes 4 x.value.length ++ leBytes 4 g ++ (x.value.drop off).take len)) = (st, b) →
        Answers r 4 st b s same (exec (.segRead r off len gen) s) := by
      intro st b effect
      have gens : tget 0 (s.counted r).dic.gens (256 * r.index + r.sub) = tget 0 s.dic.gens (256 * r.index + r.sub) := by
        obtain ⟨b, e, c, seen⟩ := counted_eq' r s
        rw [seen]
      have room : ¬ (if ((s.counted r).ep r.ep).ver = some (1, 0) then 248 else 1016) < len := by split <;> omega
      refine answers_request (t := s.counted r) rfl h (by decide) ?_ (aside_respond (aside_counted r s))
      rw [counted_find, show s.find r = some x from found]
      refine (if_neg (by simp [may])).trans ((if_neg (by simp [domain])).trans ((if_neg room).trans ((if_neg (by simp [other])).trans ?_)))
      have object : (s.counted r).object r x = x.value := if_neg other
      dsimp only
      rw [object, gens]
      split
      next changed =>
        exact congrArg (fun p : DStat × Bytes => (p.1, p.2, s.counted r)) ((if_pos changed).symm.trans effect)
      next same =>
        exact congrArg (fun p : DStat × Bytes => (p.1, p.2, s.counted r)) ((if_neg same).symm.trans effect)
    refine ⟨fun fresh => effect (if_neg (by simp; tauto)), fun some stale => effect (if_pos (by simp [some, stale]))⟩
  case start =>
    have effect := counted_segOpen (r := r) (s := s) none r.index r.sub
    have free := counted_segFree (r := r) (s := s) none
    have frame : (s.counted r).frame = s.frame := by
      obtain ⟨b, e, c, seen⟩ := counted_eq' r s
      rw [seen]
      rfl
    refine ⟨fun shut small room => ?_, fun busy => ?_⟩
    · refine answers_request (t := setSession r.ep (some { index := r.index, sub := r.sub, total := total, frame := s.frame }) (s.counted r)) rfl h (by decide) ?_ (setSession_stands ..)
      rw [counted_find, show s.find r = some x from found]
      dsimp only
      rw [effect, free, frame, (counted_at r s r.ep).2, none]
      exact (if_neg (by simp [may])).trans ((if_neg (by simp [domain])).trans ((if_neg (by simp [shut])).trans ((if_neg other).trans
        ((if_neg (Nat.not_lt.2 small)).trans (if_neg (Nat.not_lt.2 room))))))
    · refine answers_request (t := s.counted r) rfl h (by decide) ?_ (aside_respond (aside_counted r s))
      rw [counted_find, show s.find r = some x from found]
      dsimp only
      rw [effect]
      exact (if_neg (by simp [may])).trans ((if_neg (by simp [domain])).trans (if_pos (by simp [busy])))
  case session =>
    intro short
    have opened := fun f => onSession_of_open (f := f) held found may domain
    have frame : (s.counted r).frame = s.frame := by
      obtain ⟨b, e, c, seen⟩ := counted_eq' r s
      rw [seen]
      rfl
    refine ⟨fun h small here fits => ?_, fun h small gap => ?_, fun h pass part => ?_, fun pass unlock => ?_, fun h whole plan size bytes free => ?_, fun h => ?_⟩
    · obtain ⟨room, first⟩ := small
      refine answers_request_long (t := setSession r.ep (some { x with data := x.data ++ d, frame := s.frame }) (s.counted r)) rfl h (by omega)
        (fun m ver => Nat.add_le_add_right (first m ver) 4) ((opened _).trans ?_) (setSession_stands ..)
      rw [frame]
      exact (if_neg (by simp [here])).trans ((if_neg other).trans (if_neg (Nat.not_lt.2 fits)))
    · obtain ⟨room, first⟩ := small
      exact answers_request_long (t := s.counted r) rfl h (by omega) (fun m ver => Nat.add_le_add_right (first m ver) 4)
        ((opened _).trans (if_pos (by simp [gap, other]))) (aside_respond (aside_counted r s))
    · have done := segWriteEnd_of_free (d := []) (stored := true) pass
      exact answers_request done h (by decide) ((opened _).trans ((if_neg other).trans (if_pos part))) (setSession_stands ..)
    · exact if_pos (by simp [State.heldByPass, unlock, Option.isSome_iff_ne_none, pass])
    · have done := segWriteEnd_of_free (r := r) (s := s) (d := []) (stored := true) (.inr (by rw [plan]; decide))
      have bench := sub_of_plan plan found
      have session := setSession_stands (r := r) (s := s) .none (s.epVersion r.ep) 7 .ok []
      obtain ⟨c, e, n, seen⟩ := setSession_counted_eq r s
      have effect := applyPlan (r := r) (s := setSession r.ep .none (s.counted r)) (fresh := []) (stored := true) plan size
        (fun b mem => by rw [seen]; exact bytes b mem) (by rw [seen]; exact free)
      have dsp : (setSession r.ep .none (s.counted r)).dsp = s.dsp := by rw [seen]
      rw [dsp] at effect
      refine answers_request done h (by decide) ((opened _).trans ((if_neg other).trans ((if_neg (not_not.2 whole)).trans
        (congrArg (fun p : DStat × State => (p.1, ([] : Bytes), p.2)) effect)))) ⟨session.1, rfl, rfl, fun i small => ?_⟩
      have inside : i < x.data.length := by omega
      have byte := tget_putBytes s.dsp.planSlt (1280 * (r.sub - 1)) x.data (1280 * (r.sub - 1) + i)
      rw [if_pos ⟨by omega, by omega⟩, Nat.add_sub_cancel_left, List.getD_eq_getElem _ _ inside] at byte
      rw [List.getD_eq_getElem _ _ inside]
      exact byte
    · have kept : ¬ ((s.counted r).ep r.ep).sess.any (fun x => decide (x.index = 0x9030)) = true := by
        rw [(counted_at r s r.ep).2]
        obtain ⟨inside, same⟩ := session_of_some held
        simp [inside, same, show r.index ≠ 0x9030 from other]
      exact answers_request (t := setSession r.ep .none (s.counted r)) rfl h (by decide) ((opened _).trans (congrArg (fun t => (DStat.ok, ([] : Bytes), t)) (if_neg kept)))
        (setSession_stands ..)
  case timeout =>
    have drop : dropSession ep s = setSession ep none s := if_neg (by simp [held, other])
    have due : s.reachesFrame (x.frame + 15259) = true := decide_eq_true due
    refine ⟨setSession ep none s, ?_, (setSession_leaves ..).1, rfl⟩
    change execSegSessionTimeout ep s = _
    unfold execSegSessionTimeout
    rw [held]
    exact (if_pos due).trans (by rw [drop])
  case endpoint =>
    have discard := discardEp_aside unbound collect sess
    obtain ⟨ver, closed, number, aside⟩ := renumbered_leaves (eid := eid) discard
    exact ⟨_, if_neg (by simp [opened]), ver, closed, number, rfl, aside⟩
  case mctp =>
    refine ⟨if_pos opened, if_pos opened, fun host => ?_, fun lease => ?_, if_pos opened⟩
    · subst host
      exact if_pos opened
    · refine (if_pos opened).trans ?_
      rw [show messageTypes ep = [0x00, 0x7E] from (if_neg (by omega)).trans (if_neg (by omega))]
      rfl

end Sys2Proof.Proofs

/-! PROOFS. The key yard: loads, fills, checks, the sweeper and the store (R193-R229). -/

namespace Sys2Proof.Machine
open Sys2Proof Sys2Proof.Claims

/-! ### Keys that are written, slots that are emptied -/

/-- What stands of the yard, and of memory, beside keys that come at the end of the tick. -/
def State.slotted (s : State) := (s.yard.slots, s.yard.ports, s.ram)

theorem writeUnder_slotted (k target parent : Nat) (p : Slot) (type len : Nat) (attr : BitVec 16) (value : Bytes) (pending yOdd : Bool) (s : State) :
    (writeUnder k target parent p type len attr value pending yOdd s).2.slotted = s.slotted := by
  unfold writeUnder
  extract_lets g a x run s1 s2 s3 w s4
  have h2 : Same State.slotted s s2 :=
    .foldl (f := fun t j => yardNext (target + j + 1) (x.cont (j + 1)) t) (fun _ _ h => h.same rfl) _ (show Same State.slotted s s1 from rfl)
  have h3 : Same State.slotted s s3 := by
    unfold s3 storeKey
    split
    · exact .foldl (f := fun t j => storeLater (target + j + 1) (some { x.cont (j + 1) with value := slice x.value (96 * (j + 1)) 96 }) t)
        (fun _ _ h => h.same rfl) _ (h2.same rfl)
    · exact h2
  unfold s4 w
  split
  · exact h3
  · exact h3

theorem writeKey_slotted (k target parent type len : Nat) (attr : BitVec 16) (value : Bytes) (pending yOdd : Bool) (s : State) :
    (writeKey k target parent type len attr value pending yOdd s).2.slotted = s.slotted := writeUnder_slotted ..

theorem zeroed_ramClear (lo hi : Nat) (s : State) : Zeroed lo hi s (s.ramClear lo hi) := fun a => tget_tclear 0 s.ram lo hi a

/-! ### Loads -/

section
variable {k : Nat} {s : State}

/-- A port once its load has ended. -/
def LoadPort.ended (p : LoadPort) (st : Nat) (ref : BitVec 32) : LoadPort := { p with state := 2, status := st, ref := ref }

theorem yardLoadDone_of_bad {st : Nat} (busy : (s.port k).state = 1) (status : loadStatus s k (s.port k) = st) (bad : st ≠ 0) :
    execYardLoadDone k s = .next ((s.ramClear ((s.port k).src.toNat % 2 ^ 32) ((s.port k).src.toNat % 2 ^ 32 +
      typePriv ((s.port k).ctl.toNat / 2 ^ 48 % 256) ((s.port k).src.toNat / 2 ^ 56))).setPort k ((s.port k).ended st 0)) := by
  unfold execYardLoadDone
  dsimp only
  rw [status]
  exact (if_neg (not_not.2 busy)).trans (if_neg bad)

/-- The owner for whom port `k` loads. -/
def State.loadsFor (s : State) (k : Nat) : Nat := if k = 64 then (if (s.port k).own = 0x40 then 64 else (s.port k).own) else k

/-- The key of a load, written, with its source cleared, and the ceremony's account of it. -/
def State.loaded (s : State) (k : Nat) : State :=
  let p := s.port k
  let c := p.ctl.toNat
  let type := c / 2 ^ 48 % 256
  let len := p.src.toNat / 2 ^ 56
  let addr := p.src.toNat % 2 ^ 32
  let v := s.ramRead addr (typePriv type len)
  let w := writeKey (s.loadsFor k) (c % 2 ^ 16) (c / 2 ^ 16 % 2 ^ 16) type len (BitVec.ofNat 16 (c / 2 ^ 32)) v (isCurve type || isRsa type) false
    (s.ramClear addr (addr + typePriv type len))
  if k = 64 && s.inScope (s.loadsFor k) then logOp 1 (s.loadsFor k) w.1.toNat (checkValue type v) w.2 else w.2

theorem yardLoadDone_of_good (busy : (s.port k).state = 1) (good : loadStatus s k (s.port k) = 0) :
    execYardLoadDone k s = .next ((s.loaded k).setPort k ((s.port k).ended 0 (mkRef ((s.port k).ctl.toNat % 2 ^ 16) ((s.slot ((s.port k).ctl.toNat % 2 ^ 16)).gen + 1)))) := by
  unfold execYardLoadDone
  dsimp only
  rw [good]
  refine (if_neg (not_not.2 busy)).trans ((if_pos rfl).trans ?_)
  unfold State.loaded
  dsimp only
  have ref := (writeUnder_keyAt (s.loadsFor k) ((s.port k).ctl.toNat % 2 ^ 16) ((s.port k).ctl.toNat / 2 ^ 16 % 2 ^ 16)
    (s.slot ((s.port k).ctl.toNat / 2 ^ 16 % 2 ^ 16)) ((s.port k).ctl.toNat / 2 ^ 48 % 256) ((s.port k).src.toNat / 2 ^ 56) (BitVec.ofNat 16 ((s.port k).ctl.toNat / 2 ^ 32))
    (s.ramRead ((s.port k).src.toNat % 2 ^ 32) (typePriv ((s.port k).ctl.toNat / 2 ^ 48 % 256) ((s.port k).src.toNat / 2 ^ 56)))
    (isCurve ((s.port k).ctl.toNat / 2 ^ 48 % 256) || isRsa ((s.port k).ctl.toNat / 2 ^ 48 % 256)) false
    (s.ramClear ((s.port k).src.toNat % 2 ^ 32) ((s.port k).src.toNat % 2 ^ 32 + typePriv ((s.port k).ctl.toNat / 2 ^ 48 % 256) ((s.port k).src.toNat / 2 ^ 56)))).2
  unfold LoadPort.ended
  exact congrArg (fun r => Host.Outcome.next ((s.loaded k).setPort k { s.port k with state := 2, status := 0, ref := r })) ref

theorem loaded_leaves : let p := s.port k
    let c := p.ctl.toNat
    let type := c / 2 ^ 48 % 256
    let addr := p.src.toNat % 2 ^ 32
    let size := typePriv type (p.src.toNat / 2 ^ 56)
    Zeroed addr (addr + size) s (s.loaded k) ∧ KeyAt (s.loadsFor k) (c % 2 ^ 16) type (s.ramRead addr size) (isCurve type || isRsa type) s (s.loaded k) ∧
      (s.loaded k).yard.slots = s.yard.slots := by
  intro p c type addr size
  have key := writeKey_keyAt (s.loadsFor k) (c % 2 ^ 16) (c / 2 ^ 16 % 2 ^ 16) type (p.src.toNat / 2 ^ 56) (BitVec.ofNat 16 (c / 2 ^ 32)) (s.ramRead addr size)
    (isCurve type || isRsa type) false (s.ramClear addr (addr + size))
  have stands := writeKey_slotted (s.loadsFor k) (c % 2 ^ 16) (c / 2 ^ 16 % 2 ^ 16) type (p.src.toNat / 2 ^ 56) (BitVec.ofNat 16 (c / 2 ^ 32)) (s.ramRead addr size)
    (isCurve type || isRsa type) false (s.ramClear addr (addr + size))
  unfold State.loaded
  dsimp only
  generalize writeKey (s.loadsFor k) _ _ _ _ _ _ _ _ _ = w at key stands ⊢
  have slots : w.2.yard.slots = s.yard.slots := congrArg Prod.fst stands
  have ram : w.2.ram = (s.ramClear addr (addr + size)).ram := congrArg (·.2.2) stands
  have zeroed : Zeroed addr (addr + size) s w.2 := fun a => (congrArg (Memory.get · a) ram).trans (zeroed_ramClear addr (addr + size) s a)
  split
  · exact ⟨zeroed, key, slots⟩
  · exact ⟨zeroed, key, slots⟩

end

/-! ### Checks of pending slots -/

section
variable {i : Nat} {s : State}

theorem pendingCheck_of_due (runs : s.running = true) (pass : s.flg.pass = none) (check : s.yard.checks = [{ slot := i, unwrap := false }])
    (pending : (s.slot i).pending = true) : execPendingCheck i s = .next { s with yard := { s.yard with
      checks := [{ slot := i, unwrap := false, endAt := some (s.pw.now + checkTicks (s.slot i).type) }] } } := by
  unfold execPendingCheck
  rw [check]
  refine (if_neg (by simp [runs, pass, pending])).trans ?_
  simp

theorem hasAttr_storeLater (c : Bool) (y : Option Slot) (t : State) : (if c then storeLater i y t else t).yard.next = t.yard.next ∧
    (if c then storeLater i y t else t).yard.slots = t.yard.slots ∧ (if c then storeLater i y t else t).ram = t.ram := by
  cases c
  · exact ⟨rfl, rfl, rfl⟩
  · exact ⟨rfl, rfl, rfl⟩

/-- The public value of a curve key is what its check leaves. -/
theorem pendingClear_of_curve {c : PendCheck} {e : Nat} (found : s.yard.checks.find? (fun c => c.slot = i) = some c) (due : c.endAt = some e)
    (end_ : e ≤ s.pw.now) (pass : s.flg.pass = none) (pending : (s.slot i).pending = true) (curve : isRsa (s.slot i).type = false) (plain : c.unwrap = false) :
    ∃ y : Slot, y = { s.slot i with
        pending := false, value := curveValue (curveOf (s.slot i).type) (s.slot i).priv (pubOf (curveOf (s.slot i).type) (s.slot i).priv),
        yOdd := yIsOdd (curveOf (s.slot i).type) (pubOf (curveOf (s.slot i).type) (s.slot i).priv) } ∧
      let t := yardNext i y { s with yard := { s.yard with checks := s.yard.checks.filter fun c => c.slot ≠ i } }
      execPendingClear i s = .next (if hasAttr (s.slot i).attr aPERSIST then storeLater i (some y) t else t) := by
  refine ⟨_, rfl, ?_⟩
  unfold execPendingClear
  rw [found]
  dsimp only
  rw [due]
  dsimp only
  rw [curve, plain]
  exact (if_neg (by simp [pass, Nat.not_lt.2 end_])).trans ((if_neg (by rw [pending]; decide)).trans ((if_pos (by simp)).trans rfl))

end

/-! ### The sweeper -/

theorem emptySlot_next (j : Nat) (s : State) : (emptySlot j s).yard.next = (s.yard.next.filter fun e => e.1 ≠ j) ++ [(j, emptied (s.slot j))] := by
  unfold emptySlot
  extract_lets t
  split
  · rfl
  · rfl

theorem emptySlots_rooted (l : List Nat) (s : State) : (l.foldl (fun t i => emptySlot i t) s).rooted = s.rooted :=
  Same.foldl (p := State.rooted) (f := fun t i => emptySlot i t) (fun t i h => (emptySlot_rooted i t).trans h) l .rfl

/-- What comes for a slot that is emptied, among others, is its empty slot. -/
theorem emptySlots_next {i : Nat} {x : Slot} {l : List Nat} {s : State} (here : s.slot i = x) (h : i ∈ l ∨ (i, emptied x) ∈ s.yard.next) :
    (i, emptied x) ∈ (l.foldl (fun t i => emptySlot i t) s).yard.next := by
  induction l generalizing s with
  | nil => exact h.resolve_left (List.not_mem_nil)
  | cons j l ih =>
    have slots : (emptySlot j s).yard.slots = s.yard.slots := congrArg (·.2.2.1) (emptySlot_rooted j s)
    refine ih ((congrArg (fun l : Tbl Slot => tget ({} : Slot) l i) slots).trans here) ?_
    by_cases same : i = j
    · subst same
      exact .inr (by rw [emptySlot_next, here]; simp)
    · rcases h with mem | mem
      · exact .inl ((List.mem_cons.1 mem).resolve_left same)
      · exact .inr (by rw [emptySlot_next]; simp [mem, same])

/-- The orphans of a frame's slots. -/
def State.swept (s : State) : List Nat :=
  (s.yard.slots.filter fun e =>
    s.yard.pos ≤ e.1 && e.1 < s.yard.pos + 4096 && e.2.type ≠ 0 && s.orphan e.1 && !s.yard.next.any fun x => x.1 = e.1).map Prod.fst

theorem mem_swept {i : Nat} {s : State} (low : s.yard.pos ≤ i) (high : i < s.yard.pos + 4096) (free : ∀ e ∈ s.yard.next, e.1 ≠ i)
    (orphan : s.orphan i = true) : i ∈ s.swept := by
  have type : (s.slot i).type ≠ 0 := by
    unfold State.orphan at orphan
    rw [Bool.and_eq_true, decide_eq_true_eq] at orphan
    exact orphan.1
  have listed : ∀ l : Tbl Slot, (tget {} l i).type ≠ 0 → ∃ e ∈ l, e.1 = i ∧ e.2.type ≠ 0 := by
    intro l
    induction l with
    | nil => exact fun some => absurd rfl some
    | cons e l ih =>
      intro some
      rw [tget] at some
      split at some
      next here => exact ⟨e, List.mem_cons_self, here.symm, some⟩
      · obtain ⟨x, mem, place, type⟩ := ih some
        exact ⟨x, List.mem_cons_of_mem _ mem, place, type⟩
  obtain ⟨e, mem, place, some⟩ := listed s.yard.slots type
  refine List.mem_map.2 ⟨e, List.mem_filter.2 ⟨mem, ?_⟩, place⟩
  rw [place]
  simpa [low, high, some, orphan] using free

theorem sweeperFrame_of_due {s : State} (on : s.mainPower = true) (last : s.ftick = 255) (fresh : s.yard.swept ≠ some s.frame) :
    ∃ (n : BitVec 32) (m : BitVec 16), execSweeperFrame s = .next (let t := s.swept.foldl (fun t i => emptySlot i t) s
      { t with yard := { t.yard with pos := (s.yard.pos + 4096) % s.nSlot, swept := some s.frame, orph := n, passes := m } }) :=
  ⟨_, _, if_neg (by rw [on, last]; simpa using fresh)⟩

/-! ### The store -/

theorem header_length (x : Slot) : x.header.length = 32 := by simp [Slot.header, leBytes]

theorem fixLen_length (n : Nat) (b : Bytes) : (fixLen n b).length = n := by simp [fixLen]

theorem storeBody_head (root : Bytes) (i : Nat) (now : Slot) (k : Option Slot) (iv : Bytes) :
    (storeBody root i now k iv).length = 192 ∧ (storeBody root i now k iv).take 32 = (k.getD now).header := by
  have head : ∀ (x : Slot) (b : Bytes), (fixLen 192 (x.header ++ b)).take 32 = x.header := by
    intro x b
    unfold fixLen
    rw [List.take_take, List.append_assoc, List.take_append_of_le_length (by rw [header_length]; decide), List.take_of_length_le (by rw [header_length]; decide)]
  cases k with
  | none =>
    have short := head now []
    rw [List.append_nil] at short
    exact ⟨fixLen_length .., short⟩
  | some x =>
    unfold storeBody
    dsimp only
    simp only [List.append_assoc]
    exact ⟨fixLen_length .., head x _⟩

/-- The record of slot `i`'s change, under the root of its owner. -/
def State.storeRec (s : State) (i : Nat) (k : Option Slot) (root : Bytes) : StoreRec :=
  { seq := s.yard.storeSeq + 1, slot := i, key := k, bedGen := s.vault.bedGen, body := storeBody root i (s.slot i) k (s.freeBytes 12), commit := [] }

section
variable {s : State} (runs : s.running = true)
include runs

theorem persistRecordAppend_of_list {i : Nat} {k : Option Slot} {rest : List (Nat × Option Slot)} (room : s.yard.half < 16384)
    (done : ∀ r, s.yard.store.getLast? = some r → r.commit ≠ [] ∨ r.dead = true) (list : s.yard.toStore = (i, k) :: rest) :
    ∃ root, execPersistRecordAppend s = .next ({ s with yard := { s.yard with
      toStore := rest, storeSeq := s.yard.storeSeq + 1, half := s.yard.half + 1, store := s.yard.store ++ [s.storeRec i k root] } }.useFree 12) := by
  have none : (s.yard.store.getLast?.filter fun r => !r.committed && !r.dead) = none := by
    rw [Option.filter_eq_none_iff]
    intro r last
    rcases done r last with commit | dead
    · simp [StoreRec.committed, commit]
    · simp [dead]
  refine ⟨if (k.map Slot.owner).getD 0xFF < 64 then (s.slot (s.rootSlot ((k.map Slot.owner).getD 0xFF))).value else [], ?_⟩
  unfold execPersistRecordAppend
  dsimp only
  rw [none, list]
  exact (if_neg (by simp [runs])).trans (if_neg (Nat.not_le.2 room))

theorem persistRecordAppend_of_body {r : StoreRec} (last : s.yard.store.getLast? = some r) (none : r.commit = []) (live : r.dead = false) :
    execPersistRecordAppend s = .next ((r.durable s).foldl (makeDurable ((r.key.map Slot.gen).getD 0)) { s with yard := { s.yard with
      store := s.yard.store.dropLast ++ [{ r with commit := storeCommit r.seq r.body }] } }) := by
  have open_ : (s.yard.store.getLast?.filter fun r => !r.committed && !r.dead) = some r := by
    rw [last]
    simp [StoreRec.committed, none, live]
  unfold execPersistRecordAppend
  dsimp only
  rw [open_]
  exact if_neg (by simp [runs])

theorem yardStoreCompaction_of_full (full : 16384 ≤ s.yard.half) (done : ∀ r, s.yard.store.getLast? = some r → r.commit ≠ [] ∨ r.dead = true) :
    execYardStoreCompaction s = .next { s with yard := { s.yard with store := liveRecs s.yard.store, half := (liveRecs s.yard.store).length, side := 1 - s.yard.side } } := by
  refine if_neg ?_
  have closed : (s.yard.store.getLast?.any fun r => !r.committed && !r.dead) = false := by
    cases last : s.yard.store.getLast? with
    | none => rfl
    | some r =>
      rcases done r last with commit | dead
      · simp [StoreRec.committed, commit]
      · simp [dead]
  simp [runs, closed, Nat.not_lt.2 full]

end

theorem makeDurable_leaves (g : BitVec 16) (l : List Nat) (s : State) :
    (l.foldl (makeDurable g) s).yard.store = s.yard.store ∧ (l.foldl (makeDurable g) s).yard.toStore = s.yard.toStore := by
  have stands : Same (fun s : State => (s.yard.store, s.yard.toStore)) s (l.foldl (makeDurable g) s) := by
    refine .foldl (fun t i h => ?_) l .rfl
    unfold makeDurable
    dsimp only
    split
    · exact h
    · exact h
  exact ⟨congrArg Prod.fst stands, congrArg Prod.snd stands⟩

/-- The record of a key of one slot makes that slot durable. -/
theorem makeDurable_one {r : StoreRec} {y : Slot} {s : State} (key : r.key = some y) (last : y.type ≠ 0x2F) (one : isRsa y.type = false)
    (some : (s.slot r.slot).type ≠ 0) (gen : (s.slot r.slot).gen = y.gen) (store : List StoreRec) :
    ((r.durable s).foldl (makeDurable ((r.key.map Slot.gen).getD 0)) { s with yard := { s.yard with store := store } }).slot r.slot =
      { s.slot r.slot with durable := true } := by
  have run : typeRun y.type = 1 := by
    simp only [isRsa, decide_eq_false_iff_not, not_or] at one
    simp [typeRun, one]
  have single : r.durable s = [r.slot] := by
    unfold StoreRec.durable
    rw [key]
    exact (if_pos last).trans (if_pos run)
  rw [single, key]
  have here : ({ s with yard := { s.yard with store := store } } : State).slot r.slot = s.slot r.slot := rfl
  refine (congrArg (State.slot · r.slot) (if_pos ?_)).trans (tget_tset_same ..)
  simp [here, gen, some]

theorem mem_liveRecs {l : List StoreRec} {r : StoreRec} : r ∈ liveRecs l ↔ r ∈ l ∧ r.commit ≠ [] ∧ r.key ≠ none ∧
    ∀ q ∈ l, q.commit ≠ [] → q.slot = r.slot → q.seq ≤ r.seq := by
  simp [liveRecs, StoreRec.committed, Option.isSome_iff_ne_none, and_assoc]

end Sys2Proof.Machine

namespace Sys2Proof.Proofs
open Sys2Proof Sys2Proof.Machine Sys2Proof.Claims

/-- Settles O31: a load leaves its key at its target, and the yard's own work goes on record by record. -/
theorem keyYard : Obligations.KeyYard := by
  refine ⟨fun k n ctl s => ?_, fun n i s => ?_⟩
  · intro p c own type addr size
    refine ⟨fun runs go idle => ?_, fun runs none => ?_, fun busy status => ?_, fun st busy status bad => ?_⟩
    · exact (if_pos runs).trans (congrArg Host.Outcome.next ((if_neg (Nat.not_lt.2 go)).trans (if_neg idle)))
    · exact (if_pos runs).trans (congrArg Host.Outcome.next (if_pos none))
    · obtain ⟨zeroed, key, slots⟩ := loaded_leaves (k := k) (s := s)
      exact ⟨_, yardLoadDone_of_good busy status, zeroed, key, slots, tget_tset_same ..⟩
    · exact ⟨_, yardLoadDone_of_bad busy status bad, zeroed_ramClear addr (addr + size) s, tget_tset_same .., rfl, rfl⟩
  · intro b x
    refine ⟨fun here absent wanted idle few => ?fill, fun runs pass check pending => ?check, fun c e found due end_ pass pending curve plain => ?clear,
      fun on last fresh => ?sweep, fun k rest runs room done list => ?append, fun r runs last none live => ?commit, fun runs full done => ?compact⟩
    case fill =>
      exact (if_neg (by simp [b, here, absent, wanted, idle])).trans (if_pos few)
    case check => exact ⟨_, pendingCheck_of_due runs pass check pending, rfl, rfl⟩
    case clear =>
      obtain ⟨y, form, done⟩ := pendingClear_of_curve found due end_ pass pending curve plain
      obtain ⟨next, slots, ram⟩ := hasAttr_storeLater (i := i) (hasAttr (s.slot i).attr aPERSIST) (some y)
        (yardNext i y { s with yard := { s.yard with checks := s.yard.checks.filter fun c => c.slot ≠ i } })
      refine ⟨_, done, slots, ram, y, ?_, ?_⟩
      · rw [next]
        exact yardNext_mem ..
      · rw [form]
        exact ⟨rfl, rfl, rfl, rfl⟩
    case sweep =>
      obtain ⟨n, m, done⟩ := sweeperFrame_of_due on last fresh
      have rooted := emptySlots_rooted s.swept s
      refine ⟨_, done, rfl, rfl, congrArg (·.2.2.1) rooted, congrArg (·.2.1) rooted, fun low high free orphan => ⟨emptied x, ?_, ?_⟩⟩
      · exact emptySlots_next rfl (.inl (mem_swept low high free orphan))
      · unfold emptied
        split
        · exact ⟨rfl, rfl, rfl⟩
        · exact ⟨rfl, rfl, rfl⟩
    case append =>
      obtain ⟨root, appended⟩ := persistRecordAppend_of_list runs room done list
      obtain ⟨length, head⟩ := storeBody_head root i (s.slot i) k (s.freeBytes 12)
      exact ⟨_, _, appended, rfl, rfl, rfl, rfl, length, head, rfl⟩
    case commit =>
      intro commit
      have committed := persistRecordAppend_of_body runs last none live
      obtain ⟨store, list⟩ := makeDurable_leaves ((r.key.map Slot.gen).getD 0) (r.durable s) { s with yard := { s.yard with
        store := s.yard.store.dropLast ++ [{ r with commit := storeCommit r.seq r.body }] } }
      refine ⟨_, committed, store, list, fun y slot key last one some gen => ?_⟩
      subst slot
      exact makeDurable_one key last one some gen _
    case compact =>
      exact ⟨_, yardStoreCompaction_of_full runs full done, rfl, rfl, fun r => mem_liveRecs⟩

end Sys2Proof.Proofs

/-! PROOFS. Job ports and record clears (R128, R139, R145, R158, R177, R182, R187). -/

namespace Sys2Proof.Machine
open Sys2Proof Sys2Proof.Claims

/-! ### What an event leaves of engines, jobs and contexts -/

section
variable {β : Type} {s t : State} (g : Tbl DigCtx → Tbl Engine → Tbl Job → β)

/-- What is read of the contexts, the engines and the jobs. -/
def State.work (s : State) : β := g s.dig s.engines s.jobs

variable {g} (erase : ∀ n st f u, (eraseWedge (5 * n + 3) st f u).work g = u.work g)
include erase

theorem eraseWedge_work {n st : Nat} {f : Nat → Bool} (h : Same (State.work g) s t) : Same (State.work g) s (eraseWedge (5 * n + 3) st f t) := h.same (erase ..)

theorem pendBench_work {n cause : Nat} (h : Same (State.work g) s t) : Same (State.work g) s (pendBench n cause t) := by
  unfold pendBench
  extract_lets b
  split
  · exact h
  split
  · exact eraseWedge_work erase (h.same (by rfl))
  · exact .ite (h.same (by rfl)) h

theorem pendLease_work {k : Nat} (h : Same (State.work g) s t) : Same (State.work g) s (pendLease k t) :=
  .ite h (.forN (fun _ _ h => .ite (eraseWedge_work erase h) h) (h.same (by rfl)))

theorem setLatch_work {cause : Nat} (h : Same (State.work g) s t) : Same (State.work g) s (setLatch cause t) := by
  unfold setLatch
  extract_lets t1 t2 t3
  have h1 : Same (State.work g) s t1 := by
    unfold t1 latchOnly
    split
    · exact h
    · exact h.same (by rfl)
  have h3 : Same (State.work g) s t3 := .forN (fun _ _ h => .ite (eraseWedge_work erase h) h) (h1.same (by rfl))
  clear_value t3
  have h4 : Same (State.work g) s (closeCeremony 2 t3) := by
    unfold closeCeremony
    split
    · exact h3
    · exact h3.same (by rfl)
  generalize closeCeremony 2 t3 = w at h4 ⊢
  unfold lapseGallery
  extract_lets u
  split
  · exact h4.same (by rfl)
  · exact h4.same (by rfl)

theorem raise0_work {e k : Nat} {inj : Bool} (h : Same (State.work g) s t) : Same (State.work g) s (raise0 e k inj t) := by
  unfold raise0
  refine .ite h ?_
  extract_lets sev pin f t1 t2 t3 f' t4 t5 t6
  have h1 : Same (State.work g) s t1 := h.same (by rfl)
  have h2 : Same (State.work g) s t2 := by
    unfold t2 recordEvent
    split
    · dsimp only
      split
      · exact h1.same (by rfl)
      · exact h1.same (by rfl)
    · exact h1
  have h3 : Same (State.work g) s t3 := by
    unfold t3 queueEvent
    split
    · exact h2.same (by rfl)
    · exact h2.same (by rfl)
  have h4 : Same (State.work g) s t4 := .ite (h3.same (by rfl)) h3
  have h5 : Same (State.work g) s t5 := .ite (pendBench_work erase h4) h4
  have h6 : Same (State.work g) s t6 := .ite (pendLease_work erase h5) h5
  exact .ite (setLatch_work erase h6) h6

end

/-! ### What the clears of an event keep -/

/-- A context that is neither OPEN nor DONE. -/
def DigCtx.dead (c : DigCtx) : Prop := c.state ≠ .open_ ∧ c.state ≠ .done

section
variable {I : State → Prop} {t : State} (event : ∀ i k t, I t → I (raise0 i k false t)) (ctx : ∀ x c t, c.dead → I t → I (clearCtx x c t))

include ctx in
theorem foldl_clearCtx_keeps {c : DigCtx} (dead : c.dead) (l : List Nat) (h : I t) : I (l.foldl (fun t x => clearCtx x c t) t) :=
  List.foldlRecOn l _ h fun u hu x _ => ctx x c u dead hu

include event ctx

theorem compatOne_keeps {x : Nat} (h : I t) : I (compatOne x t) := by
  unfold compatOne
  extract_lets c
  split
  · exact h
  · exact event _ _ _ (ctx _ _ _ ⟨by decide, by decide⟩ h)

theorem lockdownClears_keeps {held : Bool} (h : I t) : I (lockdownClears held t) := by
  unfold lockdownClears
  extract_lets u v
  have hu : I u := by
    unfold u
    split
    · exact event _ _ _ h
    · exact h
  exact List.foldlRecOn _ _ (foldl_clearCtx_keeps ctx ⟨by decide, by decide⟩ _ hu) fun w hw x _ => compatOne_keeps event ctx hw

theorem compatAll_keeps {l : List Nat} (h : I t) : I (compatAll l t) := by
  unfold compatAll
  extract_lets u
  have hu : I u := List.foldlRecOn _ _ h fun w hw x _ => compatOne_keeps event ctx hw
  split
  · exact lockdownClears_keeps event ctx hu
  · exact hu

theorem compatClear_keeps {x : Nat} (h : I t) : I (compatClear x t) := by
  unfold compatClear
  extract_lets k u
  split
  · exact h
  · split
    · exact compatAll_keeps event ctx (compatAll_keeps event ctx h)
    · exact compatAll_keeps event ctx h

theorem clearContexts_keeps {p : Nat → Bool} (h : I t) : I (clearContexts p t) := by
  unfold clearContexts
  exact List.foldlRecOn _ _ (foldl_clearCtx_keeps ctx ⟨by decide, by decide⟩ _ h) fun w hw x _ => compatClear_keeps event ctx hw

theorem raise_keeps {i k : Nat} (h : I t) : I (raise i k t) := by
  unfold raise raiseInj
  extract_lets present sev held u v
  have hu : I u := event _ _ _ h
  have hv : I v := by
    unfold v
    split
    · exact List.foldlRecOn _ _ hu fun w hw x _ => compatClear_keeps event ctx hw
    · exact hu
  split
  · exact lockdownClears_keeps event ctx hv
  · exact hv

end

/-! ### GO -/

/-- What a port shows of its job, and when it may run. -/
def Job.shown (j : Job) : JState × Nat × Nat × Nat × Nat × BitVec 64 × Nat × Bool :=
  (j.state, j.status, j.count, j.idx, j.step, j.fc, j.eligibleAt, j.needsRng)

theorem setJob_shown {q k : Nat} {x : Job} {s : State} (same : x.shown = (s.job q k).shown) (i j : Nat) : ((s.setJob q k x).job i j).shown = (s.job i j).shown := by
  have read : (s.setJob q k x).job i j = if 65 * i + j = 65 * q + k then x else s.job i j := tget_tset ..
  rw [read]
  split
  next here =>
    rw [same]
    exact congrArg (fun n => (tget ({} : Job) s.jobs n).shown) here.symm
  · rfl

theorem endJob_shown (q k st i j : Nat) (s : State) : ((endJob q k st s).job i j).shown = (s.job i j).shown :=
  setJob_shown (s := releaseSlots (s.job q k).resv s) (by rfl) i j

theorem clearCtx_shown (x : Nat) (c : DigCtx) (i j : Nat) (s : State) : ((clearCtx x c s).job i j).shown = (s.job i j).shown := by
  unfold clearCtx
  extract_lets q stop
  have each : ∀ u k, ((stop u k).job i j).shown = (u.job i j).shown := fun u k => by
    unfold stop
    dsimp only
    split
    · exact endJob_shown ..
    · rfl
  exact (each _ _).trans (each _ _)

theorem raise0_shown (e l : Nat) (inj : Bool) (i j : Nat) (s : State) : ((raise0 e l inj s).job i j).shown = (s.job i j).shown := by
  refine raise0_work (g := fun _ _ jobs => (tget ({} : Job) jobs (65 * i + j)).shown) (fun q st f u => ?_) .rfl
  refine tget_map_same (q := Job.shown) (fun e => ?_) (fun e => ?_) u.jobs (65 * i + j)
  all_goals
    dsimp only
    split <;> rfl

theorem raise_shown (e l i j : Nat) (s : State) : ((raise e l s).job i j).shown = (s.job i j).shown :=
  raise_keeps (I := fun t => (t.job i j).shown = (s.job i j).shown) (fun _ _ _ h => (raise0_shown ..).trans h) (fun _ _ _ _ h => (clearCtx_shown ..).trans h) rfl

section
variable {q k count : Nat} {s : State}

/-- A job as GO finds it, its counts at 0. -/
def Job.fresh (j : Job) (count : Nat) : Job :=
  { j with fc := 0, n := 0, tk := 0, step := 0, idx := 0, count := count, left := none, found := none, granted := false, late := [], made := [], undo := [] }

/-- The job of a port that GO ends at once. -/
def State.doneAt (s : State) (q k count st : Nat) : State :=
  jobEvent q k st (s.setJob q k { (s.job q k).fresh count with state := .done, status := st, ending := some st })

theorem jobEvent_shown (st i j : Nat) (s : State) : ((jobEvent q k st s).job i j).shown = (s.job i j).shown := by
  unfold jobEvent engineEvent
  split
  · exact raise_shown ..
  split
  · exact raise_shown ..
  split
  · exact raise_shown ..
  split
  · exact raise_shown ..
  · rfl

theorem doneAt_job (count st : Nat) : ((s.doneAt q k count st).job q k).state = .done ∧ ((s.doneAt q k count st).job q k).status = st := by
  have shown : ((s.doneAt q k count st).job q k).shown = Job.shown { (s.job q k).fresh count with state := .done, status := st, ending := some st } :=
    (jobEvent_shown ..).trans (congrArg Job.shown (tget_tset_same ..))
  exact ⟨congrArg Prod.fst shown, congrArg (·.2.1) shown⟩

/-- The names of a list's requests, and whether one draws. -/
def State.needs (s : State) (q k count : Nat) : List (List Nat × Bool) :=
  (List.range count).map fun i => requestNeeds (q % 5) (s.ramRead ((s.job q k).jaddr.toNat + (portKind (q % 5)).size * i) (portKind (q % 5)).size)

variable (some : 1 ≤ count) (idle : (s.job q k).state = .idle ∨ (s.job q k).state = .done)
include some idle

theorem submitJob_of_off (off : (s.engine q).jobs = false) : submitJob q k count s = s.doneAt q k count 0x05 :=
  (if_neg (by omega)).trans ((if_neg (by rcases idle with idle | idle <;> simp [idle])).trans (if_pos (by simp [off])))

variable (on : (s.engine q).jobs = true) (few : count ≤ (portKind (q % 5)).most)
include on few

theorem submitJob_of_unaligned (off : (s.job q k).jaddr.toNat % (portKind (q % 5)).align ≠ 0) : submitJob q k count s = s.doneAt q k count 0x01 :=
  (if_neg (by omega)).trans ((if_neg (by rcases idle with idle | idle <;> simp [idle])).trans ((if_neg (by simp [on])).trans
    ((if_neg (Nat.not_lt.2 few)).trans (if_pos (by simp [off])))))

theorem submitJob_of_list (aligned : (s.job q k).jaddr.toNat % (portKind (q % 5)).align = 0)
    (pages : s.inPages (q / 5) k (s.job q k).jaddr.toNat ((portKind (q % 5)).size * count) = true)
    (lines : ((((s.needs q k count).flatMap Prod.fst).map (BitVec.ofNat 32)).flatMap fun r => s.namedSlots k r).eraseDups.length ≤ 16) :
    ∃ refs named, submitJob q k count s = (let t := s.setJob q k { (s.job q k).fresh count with
      state := .wait, status := 0, ending := none, eligibleAt := s.pw.now + 1, needsRng := (s.needs q k count).any Prod.snd, refs := refs, named := named }
      if q / 5 < 16 then wakeReq (q / 5) t else t) :=
  ⟨_, _, (if_neg (by omega)).trans ((if_neg (by rcases idle with idle | idle <;> simp [idle])).trans ((if_neg (by simp [on])).trans
    ((if_neg (Nat.not_lt.2 few)).trans ((if_neg (by simp [aligned, pages])).trans (if_neg (Nat.not_lt.2 lines))))))⟩

end

theorem wakeReq_leaves (n i j : Nat) (s : State) : ((wakeReq n s).job i j).shown = (s.job i j).shown ∧ (wakeReq n s).ram = s.ram ∧ (wakeReq n s).dsp = s.dsp := by
  unfold wakeReq
  extract_lets b
  split
  · exact ⟨raise_shown .., calm_ram (raise_calm .rfl), calm_dsp (raise_calm .rfl)⟩
  split
  · exact ⟨rfl, rfl, rfl⟩
  · exact ⟨rfl, rfl, rfl⟩

theorem goFrom_of_lease {c e k count : Nat} {s : State} (lease : s.portLease c = some k) : goFrom c e count s = .next (submitJob (5 * coreBench c + e) k count s) := by
  unfold goFrom
  rw [lease]

/-! ### CLR -/

section
variable {q k : Nat} {s : State}

theorem requestClear_leaves (runs : s.islandRuns = true) (addr : Nat) : { requestClear q k (wrote addr s) with engines := s.engines, bus := s.bus } = s ∧
    (∀ i, i ≠ q → (requestClear q k (wrote addr s)).engine i = s.engine i) ∧ (requestClear q k (wrote addr s)).engine q =
      { s.engine q with clr := if (s.engine q).clr.contains k then (s.engine q).clr else (s.engine q).clr ++ [k] } := by
  have bus : ∃ b, wrote addr s = { s with bus := b } := by
    unfold wrote
    split
    · exact ⟨s.bus, rfl⟩
    · exact ⟨_, rfl⟩
  obtain ⟨b, bus⟩ := bus
  have done : requestClear q k (wrote addr s) = ({ s with bus := b } : State).modEngine q fun e =>
      { e with clr := if e.clr.contains k then e.clr else e.clr ++ [k] } := by
    rw [bus]
    exact if_pos runs
  rw [done]
  exact ⟨rfl, fun i other => tget_tset_ne _ _ _ other, tget_tset_same ..⟩

/-! ### Records that are cleared -/

/-- A part's command record, as CLR of its engine leaves it. -/
def Part.clearedOf (q : Nat) (p : Part) : Part := if p.eng = some q && 0 < p.ticks then p.cleared else p

/-- The state once both records of lease `k` on engine `q` are cleared. -/
def State.recordsCleared (s : State) (q k : Nat) : State :=
  let t := clearRecord q k (stopJob q k 0x0A s)
  { t with cmds := t.cmds.map fun e => if e.2.lease = k && e.2.result.isNone then (e.1, { e.2 with a := e.2.a.clearedOf q, b := e.2.b.map (Part.clearedOf q) }) else e }

theorem stopJob_leaves (st : Nat) : (stopJob q k st s).engines = s.engines ∧ (stopJob q k st s).dig = s.dig ∧ (stopJob q k st s).yard.slots = s.yard.slots ∧
    (stopJob q k st s).ram = s.ram ∧ (stopJob q k st s).cmds = s.cmds ∧ (∀ i, i ≠ 65 * q + k → tget {} (stopJob q k st s).jobs i = tget {} s.jobs i) ∧
    ((s.job q k).live = true → ((stopJob q k st s).job q k).ending = some st) ∧
    ¬ (((stopJob q k st s).job q k).state = .run ∧ ((stopJob q k st s).job q k).ending = none) := by
  unfold stopJob
  split
  next live =>
    have here : (endJob q k st s).job q k =
      { s.job q k with ending := some st, granted := false, budget := 0, left := none, found := none, drawn := [], key := none, resv := [] } := tget_tset_same ..
    refine ⟨rfl, rfl, rfl, rfl, rfl, fun i other => tget_tset_ne _ _ _ other, fun _ => ?_, fun ⟨_, open_⟩ => ?_⟩
    · rw [here]
    · rw [here] at open_
      exact nomatch open_
  next dead =>
    refine ⟨rfl, rfl, rfl, rfl, rfl, fun _ _ => rfl, fun live => absurd live dead, fun ⟨run, open_⟩ => dead ?_⟩
    simp [Job.live, run, open_]

theorem recordsCleared_leaves : (s.recordsCleared q k).engines = s.engines ∧ (s.recordsCleared q k).dig = s.dig ∧
    (s.recordsCleared q k).yard.slots = s.yard.slots ∧ (s.recordsCleared q k).ram = s.ram ∧ OtherJobs q k s (s.recordsCleared q k) := by
  obtain ⟨engines, dig, slots, ram, -, others, -, -⟩ := stopJob_leaves (q := q) (k := k) (s := s) 0x0A
  exact ⟨engines, dig, slots, ram, fun i other => (tget_tset_ne _ _ _ other).trans (others i other)⟩

theorem recordsCleared_job : let j := (s.recordsCleared q k).job q k
    j.cells = [] ∧ j.polys = [] ∧ j.drawn = [] ∧ j.key = none ∧ ((s.job q k).live = true → j.ending = some 0x0A) ∧ ¬ (j.state = .run ∧ j.ending = none) := by
  intro j
  obtain ⟨-, -, -, -, -, -, ends, settled⟩ := stopJob_leaves (q := q) (k := k) (s := s) 0x0A
  have here : j = { (stopJob q k 0x0A s).job q k with cells := [], polys := [], out := [], drawn := [], key := none } := tget_tset_same ..
  rw [here]
  exact ⟨rfl, rfl, rfl, rfl, ends, settled⟩

theorem tfind_map {α : Type} {f : Nat × α → Nat × α} (place : ∀ e, (f e).1 = e.1) {l : Tbl α} {i : Nat} {x : α} (found : tfind l i = some x) :
    tfind (l.map f) i = some (f (i, x)).2 := by
  induction l with
  | nil => exact nomatch found
  | cons e l ih =>
    obtain ⟨n, y⟩ := e
    have first : ∀ r : Tbl α, tfind (f (n, y) :: r) i = if i = n then some (f (n, y)).2 else tfind r i := fun r => by
      rw [show f (n, y) = (n, (f (n, y)).2) from Prod.ext (place _) rfl]
      rfl
    rw [List.map_cons, first]
    rw [tfind] at found
    split
    next here =>
      rw [if_pos here] at found
      rw [Option.some.inj found, here]
    next other =>
      rw [if_neg other] at found
      exact ih found

theorem recordsCleared_cmd {h : Nat} {c : Cmd} (found : s.cmd h = some c) (lease : c.lease = k) (open_ : c.result = none) (engine : c.a.eng = some q)
    (ticks : 0 < c.a.ticks) : ∃ d, (s.recordsCleared q k).cmd h = some d ∧ d.a = c.a.cleared := by
  obtain ⟨-, -, -, -, cmds, -, -, -⟩ := stopJob_leaves (q := q) (k := k) (s := s) 0x0A
  let f : Nat × Cmd → Nat × Cmd := fun e =>
    if e.2.lease = k && e.2.result.isNone then (e.1, { e.2 with a := e.2.a.clearedOf q, b := e.2.b.map (Part.clearedOf q) }) else e
  have mapped : (s.recordsCleared q k).cmds = s.cmds.map f := congrArg (List.map f) cmds
  have place : ∀ e, (f e).1 = e.1 := fun e => by
    unfold f
    split <;> rfl
  have hit : f (h, c) = (h, { c with a := c.a.clearedOf q, b := c.b.map (Part.clearedOf q) }) := if_pos (by simp [lease, open_])
  refine ⟨(f (h, c)).2, ?_, ?_⟩
  · unfold State.cmd
    rw [mapped]
    exact tfind_map place found
  · rw [hit]
    exact if_pos (by simp [engine, ticks])

/-- The record of a lease's clears once one is done. -/
def Engine.cleared (e : Engine) (k : Nat) : Engine := { e with clr := e.clr.filter (· ≠ k) }

theorem clearNow_of_wedge (wedge : q % 5 = 3) : clearNow q k s = ((dropHeld (fun x => x.bench = q / 5 && x.lease = k && x.hi ≤ stagingBase) (s.recordsCleared q k)).modEngine q
    fun e => { e with kerase := satAdd e.kerase 1 }).modEngine q (·.cleared k) := by
  unfold clearNow State.recordsCleared
  simp only [wedge]
  rfl

theorem clearNow_of_digest (digest : q % 5 = 4) : clearNow q k s =
    (clearContexts (fun x => x / 8 = q / 5 && (s.recordsCleared q k).ctxOwner x = k) (s.recordsCleared q k)).modEngine q (·.cleared k) := by
  unfold clearNow State.recordsCleared
  simp only [digest]
  rfl

theorem clearNow_of_other (wedge : q % 5 ≠ 3) (digest : q % 5 ≠ 4) : clearNow q k s = (s.recordsCleared q k).modEngine q (·.cleared k) := by
  unfold clearNow State.recordsCleared
  simp only [wedge, digest]
  rfl

end

/-! ### Contexts that are cleared -/

/-- The context at place `x`. -/
def State.context (s : State) (x : Nat) : DigCtx := tget {} s.dig x

section
variable {x : Nat}

theorem raise0_dig (e k : Nat) (inj : Bool) (s : State) : (raise0 e k inj s).dig = s.dig :=
  raise0_work (g := fun dig _ _ => dig) (fun _ _ _ _ => rfl) .rfl

theorem clearCtx_dig (y : Nat) (c : DigCtx) (s : State) : (clearCtx y c s).dig = tset {} s.dig y c := by
  unfold clearCtx
  extract_lets q stop
  have each : ∀ u k, (stop u k).dig = u.dig := fun u k => by
    unfold stop
    dsimp only
    split <;> rfl
  exact (each _ _).trans (each _ _)

theorem clearCtx_read (y : Nat) (c : DigCtx) (s : State) : (clearCtx y c s).context x = if x = y then c else s.context x := by
  unfold State.context
  rw [clearCtx_dig]
  exact tget_tset ..

/-- A context that is cleared, or that an event's clears may take. -/
def State.passive (s : State) (x : Nat) : Prop := (s.context x).dead ∨ (s.context x).compat = true

theorem raise0_passive {I : DigCtx → Prop} (i k : Nat) (t : State) (h : I (t.context x)) : I ((raise0 i k false t).context x) := by
  unfold State.context
  rw [raise0_dig]
  exact h

theorem clearCtx_dead (y : Nat) (c : DigCtx) (t : State) (dead : c.dead) (h : (t.context x).dead) : ((clearCtx y c t).context x).dead := by
  rw [clearCtx_read]
  split
  · exact dead
  · exact h

theorem clearCtx_passive (y : Nat) (c : DigCtx) (t : State) (dead : c.dead) (h : t.passive x) : (clearCtx y c t).passive x := by
  unfold State.passive
  rw [clearCtx_read]
  split
  · exact .inl dead
  · exact h

theorem mem_ctxsWhere {p : Nat → DigCtx → Bool} {s : State} (live : ¬ (s.context x).dead) (h : p x (s.context x) = true) : x ∈ ctxsWhere s p := by
  have listed : ∀ l : Tbl DigCtx, ¬ (tget {} l x).dead → (x, tget {} l x) ∈ l := by
    intro l
    induction l with
    | nil => exact fun live => absurd (show DigCtx.dead {} from ⟨by decide, by decide⟩) live
    | cons e l ih =>
      intro live
      rw [tget] at live ⊢
      split
      next here => rw [here]; exact List.mem_cons_self
      next other =>
        rw [if_neg other] at live
        exact List.mem_cons_of_mem _ (ih live)
  have state : (decide ((s.context x).state = .open_) || decide ((s.context x).state = .done)) = true := by
    unfold DigCtx.dead at live
    simpa using (by tauto : (s.context x).state = .open_ ∨ (s.context x).state = .done)
  exact List.mem_map.2 ⟨(x, s.context x), List.mem_filter.2 ⟨listed _ live, by simp only [h, state]; rfl⟩, rfl⟩

/-- The clear of a context of the compatible kind leaves it dead. -/
theorem compatClear_dead {s : State} (h : s.passive x) : ((compatClear x s).context x).dead := by
  have keeps := fun (l : List Nat) (t : State) (h : (t.context x).dead) =>
    compatAll_keeps (I := fun t => (t.context x).dead) (l := l) (fun i k t h => raise0_passive (I := DigCtx.dead) i k t h) clearCtx_dead h
  have first : ((compatOne x s).context x).dead := by
    unfold compatOne
    extract_lets c
    split
    next dead =>
      rcases h with h | compat
      · exact h
      · have compat : c.compat = true := compat
        change c.dead
        simpa [compat, DigCtx.dead] using dead
    · exact raise0_passive (I := DigCtx.dead) _ _ _ (by rw [clearCtx_read, if_pos rfl]; exact ⟨by decide, by decide⟩)
  have one : ((compatAll [x] s).context x).dead := by
    unfold compatAll
    extract_lets t
    split
    · exact lockdownClears_keeps (I := fun t => (t.context x).dead) (fun i k t h => raise0_passive (I := DigCtx.dead) i k t h) clearCtx_dead first
    · exact first
  unfold compatClear
  extract_lets k t
  split
  next gone =>
    by_contra live
    have compat := h.resolve_left live
    have listed := mem_ctxsWhere (p := fun _ c => c.compat) live compat
    simp [listed] at gone
  · split
    · exact keeps _ _ one
    · exact one

theorem foldl_reaches {α : Type} {J I : State → Prop} {f : State → α → State} {x : α} (keeps : ∀ t y, J t → J (f t y)) (stays : ∀ t y, I t → I (f t y))
    (makes : ∀ t, J t → I (f t x)) {l : List α} (mem : x ∈ l) {t : State} (h : J t) : I (l.foldl f t) := by
  induction l generalizing t with
  | nil => exact nomatch mem
  | cons y l ih =>
    by_cases here : x = y
    · subst here
      exact List.foldlRecOn l f (makes t h) fun u hu z _ => stays u z hu
    · exact ih ((List.mem_cons.1 mem).resolve_left here) (keeps t y h)

theorem clearContexts_dead {p : Nat → Bool} {s : State} (hit : p x = true) : ((clearContexts p s).context x).dead := by
  have dies := fun i k t (h : (t.context x).dead) => raise0_passive (I := DigCtx.dead) i k t h
  have pass : ∀ i k t, State.passive t x → State.passive (raise0 i k false t) x :=
    fun i k t h => raise0_passive (I := fun c => c.dead ∨ c.compat = true) i k t h
  unfold clearContexts
  extract_lets compat native u
  by_cases dead : (s.context x).dead
  · have du : (u.context x).dead := foldl_clearCtx_keeps (I := fun t => (t.context x).dead) clearCtx_dead ⟨by decide, by decide⟩ native dead
    exact List.foldlRecOn (motive := fun t : State => (t.context x).dead) _ _ du fun t h y _ => compatClear_keeps (I := fun t => (t.context x).dead) dies clearCtx_dead h
  cases kind : (s.context x).compat with
  | false =>
    have du : (u.context x).dead := foldl_reaches (I := fun t => (t.context x).dead) (J := fun _ => True) (f := fun t y => clearCtx y {} t) (fun _ _ _ => trivial)
      (fun t y h => clearCtx_dead y {} t ⟨by decide, by decide⟩ h)
      (fun t _ => by rw [clearCtx_read, if_pos rfl]; exact ⟨by decide, by decide⟩) (mem_ctxsWhere dead (by simp [hit, kind])) trivial
    exact List.foldlRecOn (motive := fun t : State => (t.context x).dead) _ _ du fun t h y _ => compatClear_keeps (I := fun t => (t.context x).dead) dies clearCtx_dead h
  | true =>
    have pu : u.passive x := foldl_clearCtx_keeps (I := fun t => t.passive x) clearCtx_passive ⟨by decide, by decide⟩ native (.inr kind)
    exact foldl_reaches (I := fun t => (t.context x).dead) (J := fun t => t.passive x) (f := fun t y => compatClear y t) (fun t y h => compatClear_keeps pass clearCtx_passive h)
      (fun t y h => compatClear_keeps (I := fun t => (t.context x).dead) dies clearCtx_dead h) (fun t h => compatClear_dead h)
      (mem_ctxsWhere dead (by simp [hit, kind])) pu

end

/-! ### What the clears of contexts leave of the engine and its job -/

theorem tget_map_at {α : Type} {d : α} {f : Nat × α → Nat × α} {i : Nat} (place : ∀ e, (f e).1 = e.1) (here : ∀ x, f (i, x) = (i, x)) (l : Tbl α) :
    tget d (l.map f) i = tget d l i := by
  induction l with
  | nil => rfl
  | cons e l ih =>
    obtain ⟨n, x⟩ := e
    have first : ∀ r : Tbl α, tget d (f (n, x) :: r) i = if i = n then (f (n, x)).2 else tget d r i := fun r => by
      rw [show f (n, x) = (n, (f (n, x)).2) from Prod.ext (place _) rfl]
      rfl
    rw [List.map_cons, first, ih]
    by_cases same : i = n
    · subst same
      rw [here]
      rfl
    · rw [if_neg same]
      exact (if_neg same).symm

section
variable {q k : Nat}

theorem raise0_clr (e l : Nat) (s : State) : ((raise0 e l false s).engine q).clr = (s.engine q).clr := by
  refine raise0_work (g := fun _ engines _ => (tget ({} : Engine) engines q).clr) (fun n st f u => ?_) .rfl
  have read : tget ({} : Engine) (eraseWedge (5 * n + 3) st f u).engines q = if q = 5 * n + 3 then _ else u.engine q := tget_tset ..
  change (tget ({} : Engine) (eraseWedge (5 * n + 3) st f u).engines q).clr = _
  rw [read]
  split
  next here => rw [here]; rfl
  · rfl

theorem clearCtx_engines (y : Nat) (c : DigCtx) (s : State) : (clearCtx y c s).engines = s.engines := by
  unfold clearCtx
  extract_lets q stop
  have each : ∀ u k, (stop u k).engines = u.engines := fun u k => by
    unfold stop
    dsimp only
    split <;> rfl
  exact (each _ _).trans (each _ _)

theorem raise0_digestJob (digest : q % 5 = 4) (small : k < 65) (e l : Nat) (s : State) : (raise0 e l false s).job q k = s.job q k := by
  refine raise0_work (g := fun _ _ jobs => tget ({} : Job) jobs (65 * q + k)) (fun n st f u => ?_) .rfl
  refine tget_map_at (f := fun e : Nat × Job => if e.1 / 65 = 5 * n + 3 && f (e.1 % 65) then
    (e.1, e.2.erased (st % 256) ((u.engine (5 * n + 3)).run = .job (e.1 % 65))) else e) (fun e => ?_) (fun x => if_neg ?_) u.jobs
  · split <;> rfl
  · simp only [Bool.and_eq_true, decide_eq_true_eq]
    omega

/-- A job that does not run on, at the place of a digest engine's, stands through the clear of a context. -/
theorem clearCtx_job {j : Job} (settled : ¬ (j.state = .run ∧ j.ending = none)) (y : Nat) (c : DigCtx) {s : State} (h : s.job q k = j) : (clearCtx y c s).job q k = j := by
  unfold clearCtx
  extract_lets p stop
  have each : ∀ u l, State.job u q k = j → (stop u l).job q k = j := fun u l h => by
    unfold stop
    dsimp only
    split
    next ends =>
      refine (tget_tset_ne _ _ _ fun same => ?_).trans h
      have same : u.job p l = j := (congrArg (tget ({} : Job) u.jobs) same.symm).trans h
      rw [same] at ends
      simp only [Bool.and_eq_true, decide_eq_true_eq, Option.isNone_iff_eq_none] at ends
      exact settled ⟨ends.1.1.2, ends.2⟩
    · exact h
  exact each _ _ (each _ _ h)

theorem dropHeld_frame (p : Held → Bool) (s : State) : ∃ ram held, dropHeld p s = { s with ram := ram, held := held } := by
  have clear : ∀ l : List Held, ∀ u : State, ∃ ram, l.foldl (fun t x => t.ramClear x.lo x.hi) u = { u with ram := ram } := by
    intro l
    induction l with
    | nil => exact fun u => ⟨u.ram, rfl⟩
    | cons x l ih => exact fun u => ih (u.ramClear x.lo x.hi)
  obtain ⟨ram, cleared⟩ := clear (s.held.filter p) s
  unfold dropHeld
  rw [cleared]
  exact ⟨ram, _, rfl⟩

end

end Sys2Proof.Machine

namespace Sys2Proof.Proofs
open Sys2Proof Sys2Proof.Machine Sys2Proof.Claims

/-- Settles O27: a list waits or is DONE at once, and a lease's records are cleared once none of its quanta runs. -/
theorem engineJobs : Obligations.EngineJobs := by
  refine ⟨fun core e count k s lease small => ?_, fun q k s small => ?_⟩
  · intro go size most q j known cut idle
    have place : q % 5 = e ∧ q / 5 = coreBench core := by omega
    have kind : portKind (q % 5) = ⟨size, size, most⟩ := by
      rw [place.1]
      unfold portKind size most
      split
      · rfl
      · split
        · subst e; rfl
        · split <;> rfl
    have submit : go e = .next (submitJob q k count s) := by
      have odd : ∀ o, (core < 64 ∨ o = 0) → o < 2 → execCutJctlGo core o count s = .next (submitJob (5 * coreBench core + o) k count s) := by
        intro o bench low
        unfold execCutJctlGo
        split
        · rw [Nat.mod_eq_of_lt low]
          exact goFrom_of_lease lease
        next island =>
          rw [bench.resolve_left island]
          exact goFrom_of_lease lease
      obtain rfl | rfl | rfl | rfl | rfl : e = 0 ∨ e = 1 ∨ e = 2 ∨ e = 3 ∨ e = 4 := by omega
      · exact odd 0 (.inr rfl) (by decide)
      · exact odd 1 (.inl (by by_contra island; exact cut (Nat.le_of_not_lt island) rfl)) (by decide)
      · exact goFrom_of_lease lease
      · exact goFrom_of_lease lease
      · exact goFrom_of_lease lease
    rw [submit]
    refine ⟨fun none => congrArg Host.Outcome.next (if_pos none), fun some off => ?_, fun some few on off => ?_, fun some few on aligned pages => ?_⟩
    · rw [submitJob_of_off some idle off]
      exact ⟨_, rfl, doneAt_job count 0x05⟩
    · rw [submitJob_of_unaligned some idle on (by rw [kind]; exact few) (by rw [kind]; exact off)]
      exact ⟨_, rfl, doneAt_job count 0x01⟩
    · intro needs lines
      have list : s.needs q k count = needs := by
        unfold State.needs
        rw [kind, place.1]
      obtain ⟨refs, named, done⟩ := submitJob_of_list (s := s) (q := q) (k := k) some idle on (by rw [kind]; exact few) (by rw [kind]; exact aligned)
        (by rw [kind, place.2]; exact pages) (by rw [list, List.flatMap_map, List.flatMap_assoc]; exact lines)
      let t := s.setJob q k { (s.job q k).fresh count with
        state := .wait, status := 0, ending := none, eligibleAt := s.pw.now + 1, needsRng := needs.any Prod.snd, refs := refs, named := named }
      let u := if q / 5 < 16 then wakeReq (q / 5) t else t
      have leaves : (u.job q k).shown = (t.job q k).shown ∧ u.ram = t.ram ∧ u.dsp = t.dsp := by
        unfold u
        split
        · exact wakeReq_leaves ..
        · exact ⟨rfl, rfl, rfl⟩
      obtain ⟨shown, ram, dsp⟩ := leaves
      have here : t.job q k = _ := tget_tset_same ..
      rw [here] at shown
      rw [done, list]
      exact ⟨u, rfl, congrArg Prod.fst shown, congrArg (·.2.2.1) shown, congrArg (·.2.2.2.1) shown, congrArg (·.2.2.2.2.1) shown, congrArg (·.2.2.2.2.2.1) shown,
        congrArg (·.2.2.2.2.2.2.1) shown, congrArg (·.2.2.2.2.2.2.2) shown, ram, dsp⟩
  · refine ⟨fun runs => ?noted, fun clear busy => ?busy, fun clear free => ?clear⟩
    case noted =>
      intro noted
      have note : noted (.next (requestClear q k (wrote (engineCtl q) s))) := ⟨_, rfl, requestClear_leaves runs (engineCtl q)⟩
      refine ⟨fun cutter => ?_, fun splitter => ?_, fun wedge => ?_, fun digest => ?_⟩
      · rw [show exec (.cutCtlClr q k) s = _ from if_pos (by simp [cutter, small])]
        exact note
      · rw [show exec (.splCtlClr q k) s = _ from if_pos (by simp [splitter, small])]
        exact note
      · rw [show exec (.wdgCtlClr q k) s = _ from if_pos (by simp [wedge, small])]
        exact note
      · rw [show exec (.digCtlClr q k) s = _ from if_pos (by simp [digest, small])]
        exact note
    case busy =>
      change Host.Outcome.next (((s.engine q).clr.filter fun k => !s.leaseOn q k).foldl (fun t k => clearNow q k t) s) = _
      rw [clear]
      simp [busy]
    case clear =>
      have done : exec (.engineRecordClear q) s = .next (clearNow q k s) := by
        change Host.Outcome.next (((s.engine q).clr.filter fun k => !s.leaseOn q k).foldl (fun t k => clearNow q k t) s) = _
        rw [clear]
        simp [free]
      obtain ⟨engines, dig, slots, ram, others⟩ := recordsCleared_leaves (q := q) (k := k) (s := s)
      obtain ⟨cells, polys, drawn, key, ends, settled⟩ := recordsCleared_job (q := q) (k := k) (s := s)
      have cmds := fun h c => recordsCleared_cmd (q := q) (k := k) (s := s) (h := h) (c := c)
      have engine : (s.recordsCleared q k).engine q = s.engine q := congrArg (fun l : Tbl Engine => tget ({} : Engine) l q) engines
      refine ⟨_, done, ?_⟩
      by_cases wedge : q % 5 = 3
      · rw [clearNow_of_wedge wedge]
        generalize s.recordsCleared q k = t at engines dig slots ram others cells polys drawn key ends cmds engine
        obtain ⟨ram', held, drop⟩ := dropHeld_frame (fun x => x.bench = q / 5 && x.lease = k && x.hi ≤ stagingBase) t
        rw [drop]
        have counted : (({ t with ram := ram', held := held } : State).modEngine q fun e => { e with kerase := satAdd e.kerase 1 }).engine q =
          { t.engine q with kerase := satAdd (t.engine q).kerase 1 } := tget_tset_same ..
        have here : ((({ t with ram := ram', held := held } : State).modEngine q fun e => { e with kerase := satAdd e.kerase 1 }).modEngine q (·.cleared k)).engine q =
          Engine.cleared _ k := tget_tset_same ..
        rw [counted, engine] at here
        refine ⟨?_, cells, polys, drawn, key, ends, slots, cmds, fun _ => ?_, fun other => absurd wedge other, fun _ => others, fun is => by omega⟩
        · rw [here]
          simp [Engine.cleared, clear]
        · rw [here]
          rfl
      by_cases digest : q % 5 = 4
      · rw [clearNow_of_digest digest]
        have owner : ∀ x, (s.recordsCleared q k).ctxOwner x = s.ctxOwner x := fun x => by
          unfold State.ctxOwner State.engine
          rw [engines]
        have dead := fun x => clearContexts_dead (x := x) (p := fun x => x / 8 = q / 5 && (s.recordsCleared q k).ctxOwner x = k) (s := s.recordsCleared q k)
        simp only [owner] at dead ⊢
        generalize s.recordsCleared q k = t at engines dig slots ram others cells polys drawn key ends settled cmds engine dead ⊢
        have calm : Same State.calm t (clearContexts (fun x => x / 8 = q / 5 && s.ctxOwner x = k) t) := clearContexts_calm .rfl
        have job : (clearContexts (fun x => x / 8 = q / 5 && s.ctxOwner x = k) t).job q k = t.job q k :=
          clearContexts_keeps (I := fun u => u.job q k = t.job q k) (fun i l u h => (raise0_digestJob digest (by omega) i l u).trans h)
            (fun x c u _ h => clearCtx_job settled x c h) rfl
        have clr : ((clearContexts (fun x => x / 8 = q / 5 && s.ctxOwner x = k) t).engine q).clr = (t.engine q).clr :=
          clearContexts_keeps (I := fun u => (u.engine q).clr = (t.engine q).clr) (fun i l u h => (raise0_clr i l u).trans h)
            (fun x c u _ h => (congrArg (fun l : Tbl Engine => (tget ({} : Engine) l q).clr) (clearCtx_engines x c u)).trans h) rfl
        have cmds' := calm_cmds calm
        have ram' := calm_ram calm
        have slots' : (clearContexts (fun x => x / 8 = q / 5 && s.ctxOwner x = k) t).yard.slots = t.yard.slots :=
          (congrArg (fun u : State => u.yard.slots) (show _ = _ from calm) :)
        generalize clearContexts (fun x => x / 8 = q / 5 && s.ctxOwner x = k) t = u at dead job clr cmds' ram' slots' ⊢
        have here : (u.modEngine q (·.cleared k)).engine q = (u.engine q).cleared k := tget_tset_same ..
        have job' : (u.modEngine q (·.cleared k)).job q k = t.job q k := job
        rw [job', here]
        refine ⟨?_, cells, polys, drawn, key, ends, slots'.trans slots, fun h c found lease open_ eng ticks => ?_, fun is => absurd is wedge, fun _ => ram'.trans ram,
          fun other => absurd digest other, fun _ x place own => dead x (by simp [place, own])⟩
        · rw [Engine.cleared, clr, engine, clear]
          simp
        · obtain ⟨d, found, same⟩ := cmds h c found lease open_ eng ticks
          exact ⟨d, (congrArg (tfind · h) cmds').trans found, same⟩
      · rw [clearNow_of_other wedge digest]
        generalize s.recordsCleared q k = t at engines dig slots ram others cells polys drawn key ends cmds engine
        have here : (t.modEngine q (·.cleared k)).engine q = (t.engine q).cleared k := tget_tset_same ..
        refine ⟨?_, cells, polys, drawn, key, ends, slots, cmds, fun is => absurd is wedge, fun _ => ram, fun _ => others, fun is => absurd is digest⟩
        rw [here, engine]
        simp [Engine.cleared, clear]

end Sys2Proof.Proofs

/-! PROOFS. The boot ROM and the start of island firmware (R429, R380, R382, R385). -/

namespace Sys2Proof.Machine
open Sys2Proof Sys2Proof.Claims

/-! ### What the quiet steps of a start leave -/

/-- The parts of the state that a start sets or reads, which neither an event nor the upkeep of the stores changes. -/
structure Firm where
  lock : Bool
  shown : Vector (BitVec 32) 2 × Vector (BitVec 32) 4 × BitVec 32
  stored : Vector (BitVec 32) 2 × Vector (BitVec 32) 4 × BitVec 32
  bedrock : Option Bytes
  bedGen : BitVec 16
  fltLock : Bool
  route : BitVec 9
  stRoute : BitVec 9
  pwr : Pwr
  dsp : Dsp
  lcs : LcsSt
  flg : Flg
  svn : Nat
  version : BitVec 32
  fwDigest : Bytes
  stage : Stage
  pwrok : Bool
  drawn : Bool
  spare : Nat → Bool

def State.firm (s : State) : Firm :=
  { lock := s.vault.lock, shown := (s.vault.resp, s.vault.sw, s.vault.vwin), stored := (s.vault.stResp, s.vault.stSw, s.vault.stVwin),
    bedrock := s.vault.bedrock, bedGen := s.vault.bedGen, fltLock := s.flt.lock, route := s.flt.route, stRoute := s.flt.stRoute, pwr := s.pwr,
    dsp := s.dsp, lcs := s.lcs, flg := s.flg, svn := s.pfl.svn, version := s.ident.fwVersion, fwDigest := s.ident.fwDigest, stage := s.pw.stage, pwrok := s.pw.pwrok,
    drawn := (s.exp 16).ready, spare := fun n => (s.bench n).spare }

/-- From `s` to `t` those parts stand, and a latch that is set stays set. -/
structure Onward (s t : State) : Prop where
  firm : t.firm = s.firm
  latch : s.vault.latch = true → t.vault.latch = true

namespace Onward
variable {s t u : State}

protected theorem rfl : Onward s s := ⟨.refl _, id⟩

theorem trans (h : Onward s t) (h' : Onward t u) : Onward s u := ⟨h'.firm.trans h.firm, h'.latch ∘ h.latch⟩

/-- A step that changes none of those parts, nor the latch. -/
theorem step (h : Onward s t) (firm : u.firm = t.firm) (latch : u.vault.latch = t.vault.latch) : Onward s u :=
  ⟨firm.trans h.firm, fun l => latch.trans (h.latch l)⟩

theorem ite {c : Prop} [Decidable c] (ht : Onward s t) (hu : Onward s u) : Onward s (if c then t else u) := by
  split
  · exact ht
  · exact hu

theorem foldl {α : Type} {f : State → α → State} (each : ∀ t x, Onward t (f t x)) (l : List α) (h : Onward s t) : Onward s (l.foldl f t) :=
  List.foldlRecOn (motive := fun t : State => Onward s t) l f h fun u hu x _ => hu.trans (each u x)

theorem forN {n : Nat} {f : Nat → State → State} (each : ∀ i t, Onward t (f i t)) (h : Onward s t) : Onward s (Machine.forN n f t) :=
  .foldl (fun t i => each i t) _ h

/-- A latch clear in the end was clear before. -/
theorem unlatched (h : Onward s t) (clear : t.vault.latch = false) : s.vault.latch = false :=
  Bool.eq_false_iff.2 fun set => Bool.eq_false_iff.1 clear (h.latch set)

end Onward

/-! ### Events and the tag's commits -/

theorem setBench_spare (s : State) (n : Nat) (b : Bench) (same : b.spare = (s.bench n).spare) (m : Nat) : ((s.setBench n b).bench m).spare = (s.bench m).spare := by
  by_cases at_ : m = n
  · subst at_
    exact (congrArg Bench.spare (tget_tset_same ..)).trans same
  · exact congrArg Bench.spare (tget_tset_ne _ _ _ at_)

theorem pendBench_spare (n cause : Nat) (s : State) (m : Nat) : ((pendBench n cause s).bench m).spare = (s.bench m).spare := by
  unfold pendBench
  extract_lets b
  split
  · rfl
  split
  · exact setBench_spare s n _ (by rfl) m
  split
  · exact setBench_spare s n _ (by rfl) m
  · rfl

theorem bench_of_benches {s t : State} (h : t.benches = s.benches) (n : Nat) : t.bench n = s.bench n := congrArg (fun l => tget ({} : Bench) l n) h

theorem setLatch_benches (cause : Nat) (s : State) : (setLatch cause s).benches = s.benches := by
  unfold setLatch
  extract_lets s1 s2 s3
  have only : s1.benches = s.benches := by unfold s1 latchOnly; split <;> rfl
  have wedges : Same State.benches s2 s3 := .forN (fun _ _ h => .ite (h.same (by rfl)) h) .rfl
  have closed : ∀ u : State, (closeCeremony 2 u).benches = u.benches := fun u => by unfold closeCeremony; split <;> rfl
  have lapsed : ∀ u, (lapseGallery u).benches = u.benches := fun u => by unfold lapseGallery; extract_lets; split <;> rfl
  exact (lapsed _).trans ((closed _).trans ((show s3.benches = s2.benches from wedges).trans only))

theorem raise0_spare (e k m : Nat) (inj : Bool) (s : State) : ((raise0 e k inj s).bench m).spare = (s.bench m).spare := by
  unfold raise0
  split
  · rfl
  extract_lets sev pin f t1 t2 t3 f' t4 t5 t6
  have h2 : t2.benches = s.benches := by unfold t2 recordEvent; split; exacts [by dsimp only; split <;> rfl, rfl]
  have h3 : t3.benches = s.benches := by unfold t3 queueEvent; split; exacts [h2, h2]
  have h4 : t4.benches = s.benches := by unfold t4; split; exacts [h3, h3]
  have h5 : (t5.bench m).spare = (s.bench m).spare := by
    unfold t5
    split
    · exact (pendBench_spare ..).trans (congrArg Bench.spare (bench_of_benches h4 m))
    · exact congrArg Bench.spare (bench_of_benches h4 m)
  have h6 : (t6.bench m).spare = (s.bench m).spare := by
    unfold t6
    split
    · exact (congrArg Bench.spare (bench_of_benches (pendLease_same (p := State.benches) (fun _ _ => rfl) (fun _ _ _ => rfl) ..) m)).trans h5
    · exact h5
  split
  · exact (congrArg Bench.spare (bench_of_benches (setLatch_benches ..) m)).trans h6
  · exact h6

theorem raise_spare (e k m : Nat) (s : State) : ((raise e k s).bench m).spare = (s.bench m).spare :=
  raiseInj_same (p := fun s => (s.bench m).spare) (fun _ _ _ _ h => Eq.trans (raise0_spare ..) h) (fun _ _ _ => rfl) (fun _ _ => rfl) (raise0_spare ..)

/-- The firm parts are those of the state without what an event changes, and the spares. -/
theorem firm_calm (s : State) : s.firm = { s.calm.firm with spare := fun n => (s.bench n).spare } := rfl

theorem raise_onward (e k : Nat) (s : State) : Onward s (raise e k s) := by
  refine ⟨?_, fun latched => (congrArg Vault.latch (raise_vault_of_latched latched)).trans latched⟩
  have calm : (raise e k s).calm = s.calm := raise_calm .rfl
  rw [firm_calm, firm_calm s, calm]
  exact congrArg (fun f => { s.calm.firm with spare := f }) (funext fun n => raise_spare e k n s)

theorem startCommit_onward (area why : Nat) (data : Bytes) (s : State) : Onward s (startCommit area data why s) := by
  unfold startCommit
  refine .ite .rfl (.ite (.ite ?_ ?_) ?_)
  · exact (Onward.rfl.step (by rfl) (by rfl)).trans (raise_onward ..)
  · exact Onward.rfl.step (by rfl) (by rfl)
  · exact Onward.rfl.step (by rfl) (by rfl)

theorem tryPending_onward (s : State) : Onward s (tryPending s) := by
  unfold tryPending
  refine .ite .rfl ?_
  split
  · exact .ite ((startCommit_onward ..).step (by rfl) (by rfl)) ((startCommit_onward ..).trans (raise_onward ..))
  · split
    · exact .ite ((startCommit_onward ..).step (by rfl) (by rfl)) ((startCommit_onward ..).trans (raise_onward ..))
    · exact .rfl

theorem buildService_onward (s : State) : Onward s (buildService s) :=
  .ite ((Onward.rfl.step (by rfl) (by rfl)).trans (tryPending_onward _)) .rfl

theorem draw_onward {e n : Nat} {s : State} {r : Bytes × State} (drawn : draw e n s = some r) : Onward s r.2 := by
  unfold draw at drawn
  dsimp only at drawn
  split at drawn
  · have t := Option.some.inj drawn
    subst t
    have ready : ((s.setExp e { s.exp e with queue := (takeSegs n (s.exp e).queue).2 }).exp 16).ready = (s.exp 16).ready := by
      by_cases at_ : 16 = e
      · subst at_
        exact (congrArg Exp.ready (tget_tset_same ({} : Exp) s.rng.exps 16 { s.exp 16 with queue := (takeSegs n (s.exp 16).queue).2 }) :)
      · exact congrArg Exp.ready (tget_tset_ne _ _ _ at_)
    exact Onward.rfl.step (congrArg (fun b => { s.firm with drawn := b }) ready) (by rfl)
  · exact nomatch drawn

theorem drawIsland_onward (n : Nat) (s : State) : Onward s (drawIsland n s).2 := by
  unfold drawIsland
  split
  next drawn => exact draw_onward drawn
  · exact Onward.rfl.step (by rfl) (by rfl)

theorem drawDue_onward (s : State) : Onward s (drawDue s) := by
  unfold drawDue
  extract_lets t
  have first : Onward s t := by
    unfold t
    split
    · split
      next drawn => exact (draw_onward drawn).step (by rfl) (by rfl)
      · exact .rfl
    · exact .rfl
  split
  · split
    next drawn => exact (first.trans (draw_onward drawn)).step (by rfl) (by rfl)
    · exact first
  · exact first

/-! ### The stores -/

theorem seedHistory_onward (s : State) : Onward s (seedHistory s) := .ite .rfl (Onward.rfl.step (by rfl) (by rfl))

theorem tmpSaved_onward (v : BitVec 32) (s : State) : Onward s (tmpSaved v s) := Onward.rfl.step (by rfl) (by rfl)

theorem appendTamper_onward (x : Staged) (s : State) : Onward s (appendTamper x s) :=
  .ite ((Onward.rfl.step (by rfl) (by rfl)).trans (raise_onward ..)) (Onward.rfl.step (by rfl) (by rfl))

theorem moveLoss_onward (s : State) : Onward s (moveLoss s) := by
  unfold moveLoss
  extract_lets latched
  split
  · exact Onward.rfl.step (by rfl) (by rfl)
  · exact (appendTamper_onward ..).step (by rfl) (by rfl)

theorem moveOverflow_onward (s : State) : Onward s (moveOverflow s) :=
  .ite ((appendTamper_onward ..).step (by rfl) (by rfl)) ((appendTamper_onward ..).trans (raise_onward ..))

theorem moveStaging_onward (s : State) : Onward s (moveStaging s) := by
  unfold moveStaging
  extract_lets new t u
  refine .ite .rfl ?_
  have lost : Onward s t := .ite ((moveLoss_onward s).trans (raise_onward ..)) .rfl
  have moved : Onward s u := .foldl (fun w x => .ite (tmpSaved_onward ..) (appendTamper_onward ..)) _ lost
  exact .ite moved (moved.trans (moveOverflow_onward _))

theorem commitTamper_onward (s : State) : Onward s (commitTamper s) := by
  unfold commitTamper
  extract_lets new has t u
  have noted : Onward s u := Onward.rfl.step (by rfl) (by rfl)
  exact .ite .rfl (Onward.trans (.ite (noted.trans (raise_onward ..)) noted) (buildService_onward _))

theorem scanLedger_onward (s : State) : Onward s (scanLedger s) :=
  .forN (fun _ t => raise_onward ..) (Onward.rfl.step (by rfl) (by rfl))

theorem deriveRoot_onward (k : Nat) (s : State) : Onward s (deriveRoot k s) := by
  unfold deriveRoot
  split
  · exact .rfl
  · exact Onward.rfl.step (by rfl) (by rfl)

/-- Lines that a yard drops leave which benches are spares. -/
theorem dropLines_onward (i : Nat) (s : State) : Onward s (dropLines i s) := by
  have spare : (fun n => ((dropLines i s).bench n).spare) = fun n => (s.bench n).spare :=
    funext fun n => tget_map_same (f := fun (e : Nat × Bench) => (e.1, { e.2 with lines := e.2.lines.filter fun l => l.slot ≠ i }))
      (q := Bench.spare) (fun _ => rfl) (fun _ => rfl) s.benches n
  exact Onward.rfl.step (congrArg (fun f => { s.firm with spare := f }) spare) (by rfl)

theorem commitYard_onward (s : State) : Onward s (commitYard s) := by
  let fill : State → Nat × Slot → State := fun t e => dropLines e.1 { t with yard := { t.yard with slots := tset {} t.yard.slots e.1 e.2 } }
  have written : Onward s (s.yard.next.foldl fill s) := .foldl (fun u e => (Onward.rfl.step (by rfl) (by rfl)).trans (dropLines_onward ..)) _ .rfl
  exact written.step (by rfl) (by rfl)

theorem restoreSlot_onward (r : StoreRec) (s : State) : Onward s (restoreSlot s r) := by
  unfold restoreSlot
  split
  · exact .rfl
  · exact Onward.rfl.step (by rfl) (by rfl)

theorem restoreStore_onward (s : State) : Onward s (restoreStore s) := by
  unfold restoreStore
  extract_lets live done good kept y t bad
  have restored : Onward s t := .foldl (fun u r => restoreSlot_onward r u) _ (Onward.rfl.step (by rfl) (by rfl))
  have dropped : ∀ l : List StoreRec, Onward s (l.foldl (fun t r => storeLater r.slot none (dropChecks [r.slot]
      { t with yard := { t.yard with slots := tclear t.yard.slots r.slot (r.slot + 1) } })) t) :=
    fun l => .foldl (fun _ _ => Onward.rfl.step (by rfl) (by rfl)) l restored
  exact .ite (Onward.rfl.step (by rfl) (by rfl)) ((dropped bad).step (by rfl) (by rfl))

theorem outcome_onward (kind q : Nat) (s : State) : Onward s (outcome kind q s) := by
  unfold outcome
  split
  · exact .rfl
  · exact Onward.rfl.step (by rfl) (by rfl)

theorem scanJournal_onward (s : State) : Onward s (scanJournal s) :=
  .foldl (fun _ _ => (outcome_onward ..).trans (raise_onward ..)) _ .rfl

theorem startProgram_onward (k : Nat) (s : State) : Onward s (startProgram k s) := by
  unfold startProgram
  extract_lets l code
  exact .ite .rfl (.ite ((Onward.rfl.step (by rfl) (by rfl)).trans (raise_onward ..)) (Onward.rfl.step (by rfl) (by rfl)))

/-! ### The boot ROM -/

/-- The firm parts beside the life cycle. -/
def State.wired (s : State) : Firm := { s.firm with lcs := {} }

theorem Onward.wired {s t u : State} (h : Onward t u) (same : Same State.wired s t) : Same State.wired s u :=
  same.trans (show u.wired = t.wired from congrArg (fun f : Firm => { f with lcs := {} }) h.firm)

theorem faultCheck_wired {q : Nat} {s t : State} (h : Same State.wired s t) : Same State.wired s (faultCheck q t) := by
  unfold faultCheck
  extract_lets u
  have event : Same State.wired s u := (raise_onward ..).wired h
  exact .ite (event.same (by rfl)) (.ite (event.same (by rfl)) event)

theorem islandCutter_wired {good : Bool} {sig : Bytes} {s t : State} (h : Same State.wired s t) : Same State.wired s (islandCutter good sig t).2 := by
  unfold islandCutter
  split
  · exact h
  · exact faultCheck_wired h

theorem signOutcome_wired {q k : Nat} {bad : Bool} {xi ctx msg rnd : Bytes} {s t : State} (h : Same State.wired s t) :
    Same State.wired s (signOutcome q k bad xi ctx msg rnd t).2.2 := by
  unfold signOutcome
  extract_lets u sig
  have counted : Same State.wired s u := h.same (by rfl)
  split
  · exact (raise_onward ..).wired (counted.same (by rfl))
  · split
    · exact counted
    · exact faultCheck_wired counted

theorem islandMl_wired {xi msg rnd : Bytes} {s t : State} (h : Same State.wired s t) : Same State.wired s (islandMl xi msg rnd t).2 := by
  have signed := signOutcome_wired (q := 82) (k := 0xFF) (bad := false) (xi := xi) (ctx := []) (msg := msg) (rnd := rnd) h
  unfold islandMl
  generalize signOutcome 82 0xFF false xi [] msg rnd t = r at signed ⊢
  split
  · exact signed
  · exact signed

theorem dualWith_wired {seed : Nat → Bytes} {msg rnd : Bytes} {s t : State} (h : Same State.wired s t) : Same State.wired s (dualWith seed msg rnd t).2 :=
  islandMl_wired (islandCutter_wired h)

theorem certifyLayer_wired {layer : Nat} {seed : Nat → Bytes} {s t : State} (h : Same State.wired s t) : Same State.wired s (certifyLayer layer seed t) := by
  unfold certifyLayer
  extract_lets body old
  refine .ite h ?_
  have signed := dualWith_wired (seed := t.deviceSeed) (msg := body) (rnd := List.replicate 32 0)
    (h.same (u := addRom (dualTicks t.deviceSeed body (List.replicate 32 0)) t) (by rfl))
  generalize dualWith t.deviceSeed body (List.replicate 32 0) (addRom (dualTicks t.deviceSeed body (List.replicate 32 0)) t) = r at signed ⊢
  split
  · exact Same.same signed (by rfl)
  · exact signed

theorem certifyAlias_wired {alg : Nat} {s t : State} (h : Same State.wired s t) : Same State.wired s (certifyAlias alg t) := by
  unfold certifyAlias
  split
  extract_lets pub tbs i
  refine .ite h ?_
  split
  next sig good ticks _ =>
    have signed := islandCutter_wired (good := good) (sig := sig) (h.same (u := addRom ticks t) (by rfl))
    generalize islandCutter good sig (addRom ticks t) = r at signed ⊢
    split
    · exact Same.same signed (by rfl)
    · exact signed

theorem deriveIdentity_wired (s : State) : Same State.wired s (deriveIdentity s) := by
  unfold deriveIdentity
  extract_lets t
  have signed : Same State.wired s t := certifyAlias_wired (certifyAlias_wired (certifyLayer_wired .rfl))
  exact .ite .rfl (.ite signed (certifyLayer_wired signed))

/-! ### The stores of a start -/

/-- The stores taken, and the tamper entries that are stored shown and locked. -/
def State.entered (s : State) : State :=
  let s := pickManifest (s.modVault fun v => { v with log := v.log.filter fun e => e.commit ≠ [], staging := v.staging.map fun x => { x with dropped := false } })
  wrote 0x60070004 (s.modVault fun v => { v with resp := v.stResp, sw := v.stSw, vwin := v.stVwin, lock := true })

theorem wrote_firm (a : Nat) (s : State) : (wrote a s).firm = s.firm ∧ (wrote a s).vault = s.vault := by
  unfold wrote
  split
  · exact ⟨rfl, rfl⟩
  · exact ⟨rfl, rfl⟩

theorem entered_firm (s : State) : s.entered.firm = { s.firm with lock := true, shown := s.firm.stored } := (wrote_firm ..).1

theorem startStores_onward (s : State) : Onward s.entered (startStores s) :=
  ((seedHistory_onward _).trans ((moveStaging_onward _).trans (commitTamper_onward _))).trans (scanLedger_onward _)

theorem startStores_firm (s : State) : (startStores s).firm = { s.firm with lock := true, shown := s.firm.stored } :=
  (startStores_onward s).firm.trans (entered_firm s)

/-- A start without main power takes the stores and runs. -/
theorem auxStart_of_due {s : State} (due : s.islandDue = true) (aux : s.pw.pwrok = false) :
    auxStart s = startStores { s with pw := { s.pw with stage := .running } } :=
  if_pos (by rw [due, aux]; rfl)

theorem auxStart_firm (s : State) : (auxStart s).firm = s.firm ∨ (s.pw.pwrok = false ∧
    (auxStart s).firm = { s.firm with lock := true, shown := s.firm.stored, stage := .running }) := by
  unfold auxStart
  split
  next due =>
    have aux : s.pw.pwrok = false := by
      rw [Bool.and_eq_true, Bool.not_eq_true'] at due
      exact due.2
    exact .inr ⟨aux, startStores_firm { s with pw := { s.pw with stage := .running } }⟩
  · exact .inl rfl

theorem auxStart_of_stage {s : State} (other : s.pw.stage ≠ .island) : auxStart s = s := by
  refine if_neg ?_
  unfold State.islandDue
  simp [other]

/-! ### A start with main power -/

theorem makeBedrock_onward (s : State) :
    let t := makeBedrock s
    t.firm = { s.firm with bedrock := t.vault.bedrock, bedGen := t.vault.bedGen } ∧ t.vault.latch = s.vault.latch := by
  unfold makeBedrock
  split
  · exact ⟨rfl, rfl⟩
  · have drawn := drawIsland_onward 32 s
    have vault : (drawIsland 32 s).2.vault = s.vault := by
      unfold drawIsland
      split
      next r h =>
        unfold draw at h
        dsimp only at h
        split at h
        · rw [← Option.some.inj h]
          rfl
        · exact nomatch h
      · rfl
    exact ⟨congrArg (fun f : Firm => { f with bedrock := some (drawIsland 32 s).1, bedGen := (drawIsland 32 s).2.vault.bedGen + 1 }) drawn.firm,
      (congrArg Vault.latch vault :)⟩

theorem makeBedrock_makes {s : State} (none : s.vault.bedrock = none) (unlatched : s.vault.latch = false) (state : s.lcs.state = .claimed ∨ s.lcs.state = .field)
    (ready : (s.exp 16).ready = true) :
    (makeBedrock s).vault.bedGen = s.vault.bedGen + 1 ∧ ∃ u : Bytes, u.length = 32 ∧ (makeBedrock s).vault.bedrock = some u := by
  have made : makeBedrock s = scrubStore ((drawIsland 32 s).2.modVault fun v => { v with bedrock := some (drawIsland 32 s).1, bedGen := v.bedGen + 1 }) :=
    if_neg (by simpa [none, unlatched, ready, Decidable.or_iff_not_imp_left] using state)
  rw [made]
  refine ⟨?_, (drawIsland 32 s).1, drawIsland_length 32 s, rfl⟩
  have gen : (drawIsland 32 s).2.vault.bedGen = s.vault.bedGen := congrArg Firm.bedGen (drawIsland_onward 32 s).firm
  exact congrArg (· + 1) gen

/-- The stores of a start with main power: roots, keys, records of cards and programs. -/
def State.restored (s : State) : State :=
  let s := scanJournal (restoreStore (commitYard (forN s.nLease deriveRoot s)))
  forN s.nLease startProgram s

theorem restored_onward (s : State) : Onward s s.restored :=
  .forN startProgram_onward ((((Onward.rfl.forN deriveRoot_onward).trans (commitYard_onward _)).trans (restoreStore_onward _)).trans (scanJournal_onward _))

theorem loadEntries_firm (s : State) :
    (loadEntries s).firm = { s.firm with fltLock := true, route := s.flt.stRoute, pwr := { s.pwr with idle := s.pwr.stIdle } } ∧
      (loadEntries s).vault = s.vault := wrote_firm ..

/-- A swap asked for changes the dispatcher alone. -/
theorem dspGo_eq (s : State) : ∃ d, dspGo s = { s with dsp := d } ∧ d.pend = true ∧ d.policyS = s.dsp.policyS := by
  unfold dspGo
  split
  next pend => exact ⟨s.dsp, rfl, pend, rfl⟩
  · exact ⟨_, rfl, rfl, rfl⟩

theorem dspGo_firm {s t : State} {d : Dsp} (set : t = { s with dsp := d }) : (dspGo t).firm = { s.firm with dsp := (dspGo t).dsp } ∧
    (dspGo t).vault = s.vault ∧ (dspGo t).dsp.pend = true ∧ (dspGo t).dsp.policyS = d.policyS := by
  subst set
  obtain ⟨e, eq, pend, policy⟩ := dspGo_eq { s with dsp := d }
  rw [eq]
  exact ⟨rfl, rfl, pend, policy⟩

theorem loadPlans_firm (s : State) : (loadPlans s).firm = { s.firm with dsp := (loadPlans s).dsp } ∧ (loadPlans s).vault = s.vault ∧
    (loadPlans s).dsp.pend = true ∧ (loadPlans s).dsp.policyS = s.dsp.planPol := dspGo_firm rfl

/-- A pass begun changes the gate and its ledger alone. -/
theorem startPass_eq (reboot forced : Bool) (s : State) : ∃ g l, startPass reboot forced s = { s with flg := g, ldg := l } := by
  unfold startPass
  extract_lets p joined t
  have begun : ∃ g l, t = { s with flg := g, ldg := l } := ⟨_, _, rfl⟩
  clear_value t p
  obtain ⟨g, l, rfl⟩ := begun
  unfold afterHold
  split
  · exact ⟨_, _, rfl⟩
  split
  · exact ⟨_, _, rfl⟩
  · exact ⟨_, _, rfl⟩

theorem startPass_firm (reboot forced : Bool) (s : State) : (startPass reboot forced s).firm = { s.firm with flg := (startPass reboot forced s).flg } ∧
    (startPass reboot forced s).vault = s.vault := by
  obtain ⟨g, l, eq⟩ := startPass_eq reboot forced s
  rw [eq]
  exact ⟨rfl, rfl⟩

theorem modFlg_firm (f : Flg → Flg) (s : State) : (s.modFlg f).firm = { s.firm with flg := (s.modFlg f).flg } := rfl

/-- The first pass of a start, which the keys or the latch may hold. -/
theorem firstPass_firm (ok : Bool) (s : State) : (firstPass ok s).firm = { s.firm with flg := (firstPass ok s).flg } ∧ (firstPass ok s).vault = s.vault := by
  unfold firstPass
  split
  · exact ⟨rfl, rfl⟩
  split
  · exact ⟨rfl, rfl⟩
  · obtain ⟨firm, vault⟩ := startPass_firm false false s
    generalize startPass false false s = t at firm vault ⊢
    refine ⟨(modFlg_firm _ t).trans ?_, vault⟩
    rw [firm]

theorem firstPass_starts {s : State} (unlatched : s.vault.latch = false) : (firstPass true s).flg.plt = false ∧ (firstPass true s).flg.pass.isSome = true := by
  obtain ⟨⟨plt, -⟩, p, pass, -⟩ := startPass_leaves false false s
  unfold firstPass
  rw [unlatched]
  refine ⟨plt, ?_⟩
  change Option.isSome (Option.map _ (startPass false false s).flg.pass) = true
  rw [pass]
  rfl

/-! ### The boot ROM's starts -/

theorem runImage_firm (img : Image) (s : State) : (runImage img s).firm = { s.firm with version := img.version, fwDigest := img.digest, svn := img.svn } := rfl

section
variable {s : State} (due : (s.pw.stage = .wipe ∧ s.pw.wipeEnd ≤ s.pw.now) ∨ s.pw.stage = .rom) (powered : s.powered = true)
include due powered

/-- The end of the wipe, or the ROM's wait, is a boot. -/
theorem execResetWipeEnd_of_due (live : s.lcs.state ≠ .scrapped) : execResetWipeEnd s = .next (auxStart (bootRom s)) := by
  refine if_neg ?_
  rw [powered]
  rcases due with ⟨stage, ended⟩ | stage
  · simp [stage, ended]
  · simp [stage, live]

theorem boot_of_image {img : Image} (live : s.lcs.state ≠ .scrapped) (idle : s.pfl.busy = false) (good : s.image s.pfl.active.toNat = some img) :
    ∃ t, execResetWipeEnd s = .next t ∧ t.ident.fwVersion = img.version ∧ t.ident.fwDigest = img.digest ∧ t.pfl.svn = img.svn ∧
      ((∀ u, s.lcs.uds = some u → sha3 u = s.lcs.udsCheck) → t.pw.stage = .island ∨ (s.pw.pwrok = false ∧ t.pw.stage = .running)) ∧
      (∀ u, s.lcs.uds = some u → sha3 u ≠ s.lcs.udsCheck → t.pw.stage = .udsFailed ∧ t.lcs.failed = true) := by
  let run := runImage img s
  let bad : Bool := match s.lcs.uds with | some u => sha3 u ≠ s.lcs.udsCheck | none => false
  let failed : State := { run.modLcs fun l => { l with failed := true } with pw := { run.pw with stage := .udsFailed } }
  let ident := deriveIdentity run
  let island : State := { ident with pw := { ident.pw with stage := .island } }
  have boots : bootRom s = if bad then failed else island := by
    unfold bootRom
    extract_lets a at_
    rw [if_neg (by simp [live, idle]), show s.image a = some img from good]
    rfl
  rw [execResetWipeEnd_of_due due powered live, boots]
  refine ⟨_, rfl, ?_⟩
  have wired : ident.wired = run.wired := deriveIdentity_wired run
  have here : ident.firm.version = img.version ∧ ident.firm.fwDigest = img.digest ∧ ident.firm.svn = img.svn ∧ ident.firm.pwrok = s.pw.pwrok :=
    ⟨(congrArg Firm.version wired :), (congrArg Firm.fwDigest wired :), (congrArg Firm.svn wired :), (congrArg Firm.pwrok wired :)⟩
  clear_value ident
  obtain ⟨version, digest, svn, pwrok⟩ := here
  cases check : bad with
  | true =>
    rw [if_pos rfl, auxStart_of_stage (s := failed) (nofun : Stage.udsFailed ≠ Stage.island)]
    refine ⟨rfl, rfl, rfl, fun ok => ?_, fun u _ _ => ⟨rfl, rfl⟩⟩
    unfold bad at check
    cases uds : s.lcs.uds with
    | none => rw [uds] at check; exact nomatch check
    | some u => rw [uds] at check; exact absurd (ok u uds) (of_decide_eq_true check)
  | false =>
    rw [if_neg Bool.false_ne_true]
    have sound : ∀ u, s.lcs.uds = some u → ¬ sha3 u ≠ s.lcs.udsCheck := by
      intro u uds
      unfold bad at check
      rw [uds] at check
      exact of_decide_eq_false check
    have firm : island.firm = { ident.firm with stage := .island } := rfl
    clear_value island
    rcases auxStart_firm island with same | ⟨aux, same⟩
    · rw [firm] at same
      exact ⟨(congrArg Firm.version same).trans version, (congrArg Firm.fwDigest same).trans digest, (congrArg Firm.svn same).trans svn,
        fun _ => .inl (congrArg Firm.stage same :), fun u uds bad => absurd bad (sound u uds)⟩
    · have aux' : s.pw.pwrok = false := pwrok.symm.trans ((congrArg Firm.pwrok firm).symm.trans aux)
      rw [firm] at same
      exact ⟨(congrArg Firm.version same).trans version, (congrArg Firm.fwDigest same).trans digest, (congrArg Firm.svn same).trans svn,
        fun _ => .inr ⟨aux', (congrArg Firm.stage same :)⟩, fun u uds bad => absurd bad (sound u uds)⟩

end

theorem stage_on_of_up {s : State} (powered : s.powered = true) : s.pw.stage ≠ .off := by
  unfold State.powered at powered
  simp only [Bool.and_eq_true, decide_eq_true_eq] at powered
  exact powered.2

/-- The ROM on its two cores, with no image to start. -/
def State.romCores (s : State) : State := (s.modCore 64 fun x => { x with state := .run }).modCore 65 fun x => { x with state := .run }

theorem image_romCores (s : State) (k : Nat) : s.romCores.image k = s.image k := by
  have pfl : s.romCores.pfl = s.pfl := rfl
  have die : ∀ lo n, s.romCores.dieBytes lo n = s.dieBytes lo n := fun _ _ => rfl
  have unit : ∀ d, s.romCores.imageUnit d = s.imageUnit d := fun _ => rfl
  have signed : ∀ d, s.romCores.imageSigned d = s.imageSigned d := fun _ => rfl
  unfold State.image
  simp only [pfl, die, unit, signed]

/-- The stage of the start. -/
def State.at_ (s : State) (stage : Stage) : State := { s with pw := { s.pw with stage := stage } }

section
variable {s : State} (live : s.lcs.state ≠ .scrapped) (idle : s.pfl.busy = false) (bad : s.image s.pfl.active.toNat = none)
include live idle bad

theorem bootRom_of_spoiled (twin : s.image (1 - s.pfl.active.toNat) = none) : bootRom s = (raiseFlash 11 s.romCores).at_ .romRecovery := by
  unfold bootRom
  extract_lets a at_
  rw [if_neg (by simp [live, idle])]
  split
  next i good => exact nomatch bad.symm.trans (show s.image s.pfl.active.toNat = some i from good)
  split
  next i good => exact nomatch twin.symm.trans ((image_romCores s _).symm.trans good)
  next => exact congrArg (fun u : State => (raiseFlash 11 u).at_ .romRecovery) (show _ = s.romCores from rfl)

variable (twin : s.image (1 - s.pfl.active.toNat) ≠ none)
include twin

theorem bootRom_of_twin : bootRom s = if s.pfl.swpend then romReset (raiseFlash 10 s.romCores)
    else (raiseFlash 9 (s.romCores.modPfl fun p => { p with swapping := some 8012000 })).at_ .rom := by
  unfold bootRom
  extract_lets a at_
  rw [if_neg (by simp [live, idle])]
  split
  next i good => exact nomatch bad.symm.trans (show s.image s.pfl.active.toNat = some i from good)
  split
  next i good =>
    split
    next swapped =>
      refine Eq.trans ?_ (if_pos (show s.pfl.swpend = true from swapped)).symm
      exact congrArg (fun u : State => romReset (raiseFlash 10 u)) (show _ = s.romCores from rfl)
    next unswapped =>
      refine Eq.trans ?_ (if_neg (show ¬ s.pfl.swpend = true from unswapped)).symm
      exact congrArg (fun u : State => (raiseFlash 9 (u.modPfl fun p => { p with swapping := some 8012000 })).at_ .rom) (show _ = s.romCores from rfl)
  next spoiled => exact absurd ((image_romCores s _).symm.trans spoiled) twin

end

theorem deviceReset_wipeEnd (s : State) : (deviceReset s).pw.wipeEnd = s.pw.now + 1536 := by
  have pw : (resetState .wipe .guard s).pw = (resetFields .wipe .guard s).pw := bumpChanged_same (p := State.pw) (fun _ _ => rfl) _ _
  unfold deviceReset
  extract_lets t
  split
  · exact congrArg Pw.wipeEnd pw
  · have raised : Same State.calm t (raisePower 0 t) := raise_calm .rfl
    exact (congrArg (fun u : State => u.pw.wipeEnd) raised).trans (congrArg Pw.wipeEnd pw)

section
variable {s : State} (due : (s.pw.stage = .wipe ∧ s.pw.wipeEnd ≤ s.pw.now) ∨ s.pw.stage = .rom) (powered : s.powered = true)
  (live : s.lcs.state ≠ .scrapped) (idle : s.pfl.busy = false) (bad : s.image s.pfl.active.toNat = none)
include due powered live idle bad

theorem boot_of_spoiled (twin : s.image (1 - s.pfl.active.toNat) = none) :
    ∃ t, execResetWipeEnd s = .next t ∧ t.pw.stage = .romRecovery ∧ Counted 0x40B s t := by
  rw [execResetWipeEnd_of_due due powered live, bootRom_of_spoiled live idle bad twin, auxStart_of_stage (nofun : Stage.romRecovery ≠ Stage.island)]
  exact ⟨_, rfl, rfl, raiseFlash_counted (s := s.romCores) (by decide) (stage_on_of_up (s := s.romCores) powered)⟩

variable (twin : s.image (1 - s.pfl.active.toNat) ≠ none)
include twin

theorem boot_of_twin (unswapped : s.pfl.swpend = false) : ∃ t, execResetWipeEnd s = .next t ∧ t.pw.stage = .rom ∧
    t.pfl = { s.pfl with swapping := some 8012000 } ∧ Counted 0x409 s t := by
  rw [execResetWipeEnd_of_due due powered live, bootRom_of_twin live idle bad twin, if_neg (Bool.eq_false_iff.1 unswapped),
    auxStart_of_stage (nofun : Stage.rom ≠ Stage.island)]
  let u := s.romCores.modPfl fun p => { p with swapping := some 8012000 }
  have raised : Same State.calm u (raiseFlash 9 u) := raise_calm .rfl
  exact ⟨_, rfl, rfl, (congrArg State.pfl raised :), raiseFlash_counted (s := u) (by decide) (stage_on_of_up (s := u) powered)⟩

theorem boot_of_swapped (swapped : s.pfl.swpend = true) (main : s.pw.pwrok = true) : ∃ t, execResetWipeEnd s = .next t ∧ t.pw.stage = .wipe ∧
    t.pw.mode = .guard ∧ t.pw.wipeEnd = s.pw.now + 1536 := by
  have raised : (raiseFlash 10 s.romCores).calm = s.romCores.calm := raise_calm .rfl
  have pw : (raiseFlash 10 s.romCores).pw = s.pw := (congrArg State.pw raised :)
  rw [execResetWipeEnd_of_due due powered live, bootRom_of_twin live idle bad twin, if_pos swapped]
  generalize raiseFlash 10 s.romCores = u at pw
  have reset : romReset u = deviceReset u := if_pos (by rw [pw]; exact main)
  obtain ⟨-, stage, mode⟩ := deviceReset_leaves u
  rw [reset, auxStart_of_stage (by rw [stage]; exact nofun)]
  exact ⟨_, rfl, stage, mode, (deviceReset_wipeEnd u).trans (by rw [pw])⟩

end

/-! ### A transition that was cut off -/

theorem completeTransition_of_cut {to_ : Lcs} {r : LRec} {s : State} (target : r.to_ = to_.code) (succ : to_ ∈ s.lcs.state.next)
    (intent : s.lcs.intent = some r) : completeTransition r s = deviceReset (lapseGallery (bumpChanged s.quiet (s.quiet.stepped to_ r))) := by
  have record := performStep_record to_ r.lnonce r.claim s.quiet
  rw [quiet_lcs] at record
  rw [completeTransition_eq target]
  unfold State.stepped
  generalize performStep to_ r.lnonce r.claim s.quiet = x at record ⊢
  have state : x.lcs.state = s.lcs.state := congrArg Prod.fst record
  have list : x.lcs.journal = s.lcs.journal := congrArg (·.2.2.2) record
  have intent' : x.lcs.intent = some r := by
    unfold LcsSt.intent
    rw [list]
    exact intent
  rw [lcsGo_of_intent (by rw [state]; exact succ) intent' target]
  rfl

theorem completeTransition_enters {to_ : Lcs} {r : LRec} {s : State} (target : r.to_ = to_.code) (succ : to_ ∈ s.lcs.state.next)
    (intent : s.lcs.intent = some r) (fused : s.lcs.fused = s.lcs.state) : Entered to_ (completeTransition r s) := by
  rw [completeTransition_of_cut target succ intent]
  let v := s.quiet.stepped to_ r
  obtain ⟨-, carried, -⟩ := lapse_bump s.quiet v
  obtain ⟨-, stage, mode⟩ := deviceReset_leaves (lapseGallery (bumpChanged s.quiet v))
  refine ⟨?_, stage, mode⟩
  have lcs : (deviceReset (lapseGallery (bumpChanged s.quiet v))).lcs = v.lcs.kept :=
    (congrArg Carried.lcs ((deviceReset_carried _).trans (congrArg Carried.kept carried)) :)
  rw [lcs]
  refine done_fused ?_
  have record := performStep_record to_ r.lnonce r.claim s.quiet
  rw [quiet_lcs] at record
  have pairs : (performStep to_ r.lnonce r.claim s.quiet).lcs.pairs = s.lcs.pairs := congrArg (·.2.1) record
  have read : (performStep to_ r.lnonce r.claim s.quiet).lcs.fused = s.lcs.fused := by
    unfold LcsSt.fused
    rw [pairs]
  rw [read, fused]
  exact succ

/-! ### The start of island firmware -/

/-- A start that runs, with what has been committed shown by the tag. -/
def State.runs (s : State) (grown : Bool) : State :=
  let t : State := { s with pw := { s.pw with stage := .running } }
  if grown then buildService t else t

/-- What a start with main power loads, in the state after the stores. -/
def State.planned (s : State) : State := drawChallenges (loadPlans (loadEntries s))

theorem drawChallenges_onward (s : State) : Onward s (drawChallenges s) :=
  (Onward.rfl.step (by rfl) (by rfl)).trans (drawDue_onward _)

/-- What the loading leaves: the entries, the plans and a swap asked for. -/
theorem planned_leaves (s : State) (grown : Bool) : ∃ u,
    Onward u (s.planned.runs grown) ∧ u.vault = s.vault ∧ u.dsp = (loadPlans (loadEntries s)).dsp ∧
      u.firm = { s.firm with fltLock := true, route := s.flt.stRoute, pwr := { s.pwr with idle := s.pwr.stIdle }, stage := .running, dsp := u.dsp } := by
  obtain ⟨entries, vault⟩ := loadEntries_firm s
  obtain ⟨plans, vault', -, -⟩ := loadPlans_firm (loadEntries s)
  have step := drawChallenges_onward (loadPlans (loadEntries s))
  unfold State.planned
  generalize loadPlans (loadEntries s) = p at plans vault' step ⊢
  generalize drawChallenges p = t at step
  let u : State := { p with pw := { p.pw with stage := .running } }
  have drawn : Onward u { t with pw := { t.pw with stage := .running } } :=
    ⟨congrArg (fun f : Firm => { f with stage := .running }) step.firm, step.latch⟩
  refine ⟨u, .ite (drawn.trans (buildService_onward _)) drawn, vault'.trans vault, rfl, ?_⟩
  have firm : u.firm = { p.firm with stage := .running } := rfl
  rw [firm, plans, entries]

section
variable (s : State)

/-- The state in which a start with main power takes the stores. -/
def State.opened : State := startStores (s.modVault fun v => { v with clearedAt := none })

/-- The keys' alarm of a start, and the bedrock it makes. -/
def State.rooting : State := makeBedrock (if s.opened.lcs.matchesFuses then s.opened else raiseIsland 59 s.opened)

/-- The log that a start finds committed. -/
def State.logged : Nat := (s.vault.log.filter fun e => e.commit ≠ []).length

theorem islandStart_of_intent {r : LRec} (intent : s.opened.lcs.intent = some r) : islandStart s = completeTransition r (raiseIsland 56 s.opened) := by
  unfold islandStart
  extract_lets old t
  have opened : t = s.opened := rfl
  clear_value t
  subst opened
  rw [intent]

theorem islandStart_of_none (none : s.opened.lcs.intent = none) :
    ∃ grown, islandStart s = firstPass s.opened.lcs.matchesFuses (s.rooting.restored.planned.runs grown) := by
  unfold islandStart
  extract_lets old t ok alarmed rooted stored scanned programs planned pw u
  have opened : t = s.opened := rfl
  clear_value t
  subst opened
  rw [none]
  have rooting : rooted = s.rooting := rfl
  have restored : programs = rooted.restored := rfl
  have loaded : planned = programs.planned := rfl
  have all : planned = s.rooting.restored.planned := loaded.trans (congrArg State.planned (restored.trans (congrArg State.restored rooting)))
  clear_value planned
  by_cases same : u.vault.log.length = old
  · exact ⟨false, congrArg (firstPass ok) ((if_pos same).trans (congrArg (fun t : State => t.runs false) all))⟩
  · exact ⟨true, congrArg (firstPass ok) ((if_neg same).trans (congrArg (fun t : State => t.runs true) all))⟩

theorem opened_firm : s.opened.firm = { s.firm with lock := true, shown := s.firm.stored } :=
  (startStores_onward _).firm.trans (entered_firm _)

theorem rooting_leaves :
    s.rooting.firm = { s.firm with lock := true, shown := s.firm.stored, bedrock := s.rooting.vault.bedrock, bedGen := s.rooting.vault.bedGen } ∧
      (s.vault.bedrock = none → s.lcs.state = .claimed ∨ s.lcs.state = .field → (s.exp 16).ready = true → s.rooting.vault.latch = false →
        s.rooting.vault.bedGen = s.vault.bedGen + 1 ∧ ∃ u : Bytes, u.length = 32 ∧ s.rooting.vault.bedrock = some u) := by
  have rooting : s.rooting = makeBedrock (if s.opened.lcs.matchesFuses then s.opened else raiseIsland 59 s.opened) := rfl
  have opened := opened_firm s
  rw [rooting]
  generalize s.opened = o at opened ⊢
  have onward : Onward o (if o.lcs.matchesFuses then o else raiseIsland 59 o) := .ite .rfl (raise_onward ..)
  generalize (if o.lcs.matchesFuses then o else raiseIsland 59 o) = t at onward ⊢
  have firm : t.firm = { s.firm with lock := true, shown := s.firm.stored } := onward.firm.trans opened
  obtain ⟨made, latch⟩ := makeBedrock_onward t
  refine ⟨by rw [made, firm], fun none state ready clear => ?_⟩
  have lcs : t.lcs = s.lcs := (congrArg Firm.lcs firm :)
  have gen : t.vault.bedGen = s.vault.bedGen := (congrArg Firm.bedGen firm :)
  obtain ⟨bed, u, len, some⟩ := makeBedrock_makes (s := t) ((congrArg Firm.bedrock firm :).trans none) (latch.symm.trans clear)
    (by rw [lcs]; exact state) ((congrArg Firm.drawn firm :).trans ready)
  exact ⟨bed.trans (congrArg (· + 1) gen), u, len, some⟩

end

/-! ### The obligation -/

section
variable {s : State}

theorem execIslandStart_of_idle (idle : ¬(s.pw.stage = .island ∧ s.pw.romUntil ≤ s.pw.now) ∨ s.powered = false) : execIslandStart s = .next s := by
  refine if_pos ?_
  rcases idle with other | off
  · have due : s.islandDue = false := by
      unfold State.islandDue
      simpa using other
    rw [due]
    simp
  · rw [off]
    rfl

variable (due : s.pw.stage = .island ∧ s.pw.romUntil ≤ s.pw.now)
include due

theorem islandDue_of : s.islandDue = true := by
  unfold State.islandDue
  simp [due]

theorem islandStart_aux (powered : s.powered = true) (aux : s.pw.pwrok = false) : ∃ t, execIslandStart s = .next t ∧ t.pw.stage = .running ∧
    t.vault.lock = true ∧ t.vault.resp = s.vault.stResp ∧ t.vault.sw = s.vault.stSw ∧ t.vault.vwin = s.vault.stVwin := by
  have runs : execIslandStart s = .next (auxStart s) := by
    unfold execIslandStart State.mainPower
    simp [powered, islandDue_of due, aux]
  rw [runs, auxStart_of_due (islandDue_of due) aux]
  have firm := startStores_firm { s with pw := { s.pw with stage := .running } }
  generalize startStores { s with pw := { s.pw with stage := .running } } = t at firm ⊢
  exact ⟨_, rfl, (congrArg Firm.stage firm :), (congrArg Firm.lock firm :), (congrArg (fun f : Firm => f.shown.1) firm :),
    (congrArg (fun f : Firm => f.shown.2.1) firm :), (congrArg (fun f : Firm => f.shown.2.2) firm :)⟩

theorem execIslandStart_of_main (main : s.mainPower = true) (ready : ∀ r, s.lcs.intent = some r → r.to_ = 1 → 32 ≤ (s.exp 16).qbytes) :
    execIslandStart s = .next (islandStart s) := by
  have powered : s.powered = true := by
    unfold State.mainPower at main
    unfold State.powered
    simp only [Bool.and_eq_true] at main
    simp [main, due]
  unfold execIslandStart
  generalize islandStart s = t
  refine (if_neg ?_).trans (if_pos main)
  rw [powered, islandDue_of due]
  cases intent : s.lcs.intent with
  | none => simp
  | some r =>
    by_cases tested : r.to_ = 1
    · have has : s.islandHas 32 = true := decide_eq_true (ready r intent tested)
      simp [has]
    · simp [Lcs.code, tested]

end

theorem lcs_of_firm {s : State} {l : LcsSt} (h : s.firm.lcs = l) : s.lcs = l := h

theorem opened_lcs (s : State) : s.opened.lcs = s.lcs := lcs_of_firm (congrArg Firm.lcs (opened_firm s))

/-- A transition that was cut off is finished by the start. -/
theorem islandStart_enters {s : State} {to_ : Lcs} {r : LRec} (intent : s.lcs.intent = some r) (code : Lcs.ofCode r.to_ = some to_)
    (succ : to_ ∈ s.lcs.state.next) (fused : s.lcs.fused = s.lcs.state) : Entered to_ (islandStart s) := by
  rw [islandStart_of_intent s (by rw [opened_lcs]; exact intent)]
  have opened := opened_lcs s
  generalize s.opened = o at opened ⊢
  have raised : Onward o (raiseIsland 56 o) := raise_onward ..
  generalize raiseIsland 56 o = t at raised ⊢
  have lcs : t.lcs = s.lcs := (lcs_of_firm (congrArg Firm.lcs raised.firm)).trans opened
  exact completeTransition_enters (ofCode_code code) (by rw [lcs]; exact succ) (by rw [lcs]; exact intent) (by rw [lcs]; exact fused)

/-- What a start with main power and no transition leaves. -/
structure Started (s t : State) : Prop where
  stage : t.pw.stage = .running
  fltLock : t.flt.lock = true
  lock : t.vault.lock = true
  resp : t.vault.resp = s.vault.stResp
  route : t.flt.route = s.flt.stRoute
  idle : t.pwr.idle = s.pwr.stIdle
  plans : (∀ n, (s.bench n).spare = false) → t.dsp.sltS = s.dsp.planSlt ∧ t.dsp.coreS = s.dsp.planCore ∧ t.dsp.pageS = s.dsp.planPage
  policy : t.dsp.policyS = s.dsp.planPol
  pend : t.dsp.pend = true
  passes : s.lcs.matchesFuses = true → t.vault.latch = false → t.flg.plt = false ∧ t.flg.pass.isSome = true
  holds : s.lcs.matchesFuses = false → t.flg.state = .held ∧ t.flg.reason = 2 ∧ t.flg.pass = s.flg.pass
  makes : s.vault.bedrock = none → s.lcs.state = .claimed ∨ s.lcs.state = .field → (s.exp 16).ready = true → t.vault.latch = false →
    t.vault.bedGen = s.vault.bedGen + 1 ∧ ∃ u : Bytes, u.length = 32 ∧ t.vault.bedrock = some u

theorem dsp_of_firm {s : State} (d : Dsp) (h : s.firm.dsp = d) : s.dsp = d := h

theorem islandStart_started {s : State} (none : s.lcs.intent = none) : Started s (islandStart s) := by
  obtain ⟨grown, eq⟩ := islandStart_of_none s (by rw [opened_lcs]; exact none)
  obtain ⟨rooted, makes⟩ := rooting_leaves s
  have restored := restored_onward s.rooting
  rw [eq, opened_lcs]
  generalize s.rooting = m at rooted makes restored ⊢
  generalize m.restored = x at restored ⊢
  obtain ⟨u, onward, vault, dsp, firm⟩ := planned_leaves x grown
  obtain ⟨-, -, pend, policy⟩ := loadPlans_firm (loadEntries x)
  generalize x.planned.runs grown = y at onward ⊢
  obtain ⟨passed, same⟩ := firstPass_firm s.lcs.matchesFuses y
  have first : x.firm = { s.firm with lock := true, shown := s.firm.stored, bedrock := m.vault.bedrock, bedGen := m.vault.bedGen } := restored.firm.trans rooted
  have entered := (loadEntries_firm x).1
  have spares : (∀ n, (s.bench n).spare = false) → ∀ n, ((loadEntries x).bench n).spare = false := by
    intro none n
    have spare : (loadEntries x).firm.spare = s.firm.spare := by rw [entered, first]
    exact (congrFun spare n).trans (none n)
  have plans := fun none => loadPlans_leaves (spares none)
  have before : (loadEntries x).dsp = s.dsp := dsp_of_firm _ (by rw [entered, first]; rfl)
  have stored : x.flt.stRoute = s.flt.stRoute ∧ x.pwr = s.pwr := ⟨(congrArg Firm.stRoute first :), (congrArg Firm.pwr first :)⟩
  have last : (firstPass s.lcs.matchesFuses y).firm = { u.firm with flg := (firstPass s.lcs.matchesFuses y).flg } := by rw [passed, onward.firm]
  have gate : y.flg = s.flg := (congrArg Firm.flg (onward.firm.trans (firm.trans (by rw [first]))) :)
  rw [before] at plans policy
  generalize loadPlans (loadEntries x) = z at *
  have unlatched : (firstPass s.lcs.matchesFuses y).vault.latch = false → y.vault.latch = false ∧ m.vault.latch = false := by
    intro clear
    rw [same] at clear
    refine ⟨clear, restored.unlatched ?_⟩
    rw [← vault]
    exact onward.unlatched clear
  have starts : s.lcs.matchesFuses = true → (firstPass s.lcs.matchesFuses y).vault.latch = false →
      (firstPass s.lcs.matchesFuses y).flg.plt = false ∧ (firstPass s.lcs.matchesFuses y).flg.pass.isSome = true := by
    intro ok clear
    rw [ok] at clear ⊢
    exact firstPass_starts (unlatched (by rw [ok]; exact clear)).1
  have held : s.lcs.matchesFuses = false → (firstPass s.lcs.matchesFuses y).flg = { s.flg with state := .held, reason := 0x02 } := by
    intro bad
    rw [bad, ← gate]
    rfl
  rw [firm, first] at last
  generalize firstPass s.lcs.matchesFuses y = t at *
  have tables : t.dsp = z.dsp := (congrArg Firm.dsp last).trans dsp
  exact {
    stage := (congrArg Firm.stage last :)
    fltLock := (congrArg Firm.fltLock last :)
    lock := (congrArg Firm.lock last :)
    resp := (congrArg (fun f : Firm => f.shown.1) last :)
    route := (congrArg Firm.route last).trans stored.1
    idle := (congrArg (fun f : Firm => f.pwr.idle) last).trans (congrArg Pwr.stIdle stored.2)
    plans := fun none => by
      obtain ⟨-, slt, core, page, -⟩ := plans none
      rw [tables]
      exact ⟨slt, core, page⟩
    policy := by rw [tables]; exact policy
    pend := by rw [tables]; exact pend
    passes := starts
    holds := fun bad => by rw [held bad]; exact ⟨rfl, rfl, rfl⟩
    makes := fun none state ready clear => by
      obtain ⟨gen, u, len, some⟩ := makes none state ready (unlatched clear).2
      exact ⟨(congrArg Firm.bedGen last).trans gen, u, len, (congrArg Firm.bedrock last).trans some⟩ }

end Sys2Proof.Machine

namespace Sys2Proof.Proofs
open Sys2Proof Sys2Proof.Machine Sys2Proof.Claims

/-- Settles O52: what a start keeps through its stores and alarms, the boot ROM's cases, and the loading that follows. -/
theorem starts : Obligations.Starts := by
  intro to_ x s
  dsimp only
  refine ⟨fun idle => if_pos ?_, fun due powered live => ⟨fun busy => ?_, fun i idle good => boot_of_image due powered live idle good,
    fun idle bad twin => ⟨boot_of_twin due powered live idle bad twin, boot_of_swapped due powered live idle bad twin⟩,
    boot_of_spoiled due powered live⟩, fun wipe ended powered scrapped => ?_, execIslandStart_of_idle, islandStart_aux,
    fun due main intent code ready succ fused => ?_, fun due main none => ?_⟩
  · rcases idle with off | ⟨wipe, rom⟩
    · rw [off]
      rfl
    · have early : ¬(s.pw.stage = .wipe ∧ s.pw.wipeEnd ≤ s.pw.now) := fun ⟨h, h'⟩ => wipe.elim (absurd h) (fun late => absurd h' (by omega))
      have other : ¬(s.pw.stage = .rom ∧ s.lcs.state ≠ .scrapped) := fun ⟨h, h'⟩ => rom.elim (absurd h) h'
      simp only [← Bool.decide_and, early, other]
      simp
  · have boots : bootRom s = s.at_ .rom := if_pos (by simp [busy])
    refine (execResetWipeEnd_of_due due powered live).trans ?_
    rw [boots, auxStart_of_stage (nofun : Stage.rom ≠ Stage.island)]
    rfl
  · have boots : bootRom s = s.at_ .rom := if_pos (by simp [scrapped])
    have runs : execResetWipeEnd s = .next (auxStart (bootRom s)) := if_neg (by simp [powered, wipe, ended])
    refine runs.trans ?_
    rw [boots, auxStart_of_stage (nofun : Stage.rom ≠ Stage.island)]
    rfl
  · refine ⟨islandStart s, execIslandStart_of_main due main fun r found => ?_, islandStart_enters intent code succ fused⟩
    cases found.symm.trans intent
    exact ready
  · obtain ⟨stage, fltLock, lock, resp, route, idle, plans, policy, pend, passes, holds, makes⟩ := islandStart_started none
    exact ⟨islandStart s, execIslandStart_of_main due main (fun r found => nomatch found.symm.trans none), stage, fltLock, lock, resp, route, idle, plans, policy,
      pend, passes, holds, makes⟩

end Sys2Proof.Proofs

/-! PROOFS. The steps of a gate pass, its record and the release (R252-R266). -/

namespace Sys2Proof.Machine
open Sys2Proof Sys2Proof.Claims

/-! ### What the gate's events leave -/

/-- The gate, its ledger, memory and the time. -/
def State.gated (s : State) : Flg × Ldg × Tbl (BitVec 8) × Nat × BitVec 47 := (s.flg, s.ldg, s.ram, s.pw.now, s.vault.rtc)

theorem raise_gated (e k : Nat) (s : State) : (raise e k s).gated = s.gated := by
  have calm : (raise e k s).calm = s.calm := raise_calm .rfl
  exact (congrArg State.gated calm :)

theorem raiseGate_gated (i : Nat) (s : State) : (raiseGate i s).gated = s.gated := raise_gated ..

theorem raiseGate_leaves (i : Nat) (s : State) : (raiseGate i s).flg = s.flg ∧ (raiseGate i s).ldg = s.ldg ∧ (raiseGate i s).ram = s.ram := by
  have gated := raiseGate_gated i s
  exact ⟨congrArg (·.1) gated, congrArg (·.2.1) gated, congrArg (·.2.2.1) gated⟩

theorem gated_ite {c : Prop} [Decidable c] {s t u : State} (ht : t.gated = s.gated) (hu : u.gated = s.gated) : (if c then t else u).gated = s.gated := by
  split
  · exact ht
  · exact hu

/-! ### A pass starts -/

/-- The platform is held, and a pass of a reboot or of none starts with the BMC's port still connected or not. -/
theorem startPass_starts (s : State) :
    let t := startPass true false s
    let joined := s.flg.bmcb = true ∧ s.flg.owner = 1
    ∃ q, PlatformHeld t ∧ t.flg.pass = some q ∧ q.reboot = true ∧ q.startAt = s.pw.now ∧ q.results = [] ∧
      q.manifest = (if s.lcs.state = .ret then [] else s.ldg.manifest) ∧ (joined → q.step = .hold ∧ t.flg.state = .holding ∧ t.flg.bmcb = true) ∧
      (¬ joined → q.step = (if q.manifest = [] then .discover else .verify) ∧ q.stepAt = s.pw.now + 1 ∧ t.flg.bmcb = false) := by
  have connected : s.flg.connected = true ↔ s.flg.bmcb = true ∧ s.flg.owner = 1 := by simp [Flg.connected]
  dsimp only
  rw [← connected]
  unfold startPass
  extract_lets p joined t
  have held : PlatformHeld t := ⟨rfl, rfl, rfl, rfl⟩
  have here : joined = s.flg.connected := rfl
  rw [← here]
  cases on : joined with
  | true => exact ⟨p, held, rfl, rfl, rfl, rfl, rfl, fun _ => ⟨rfl, rfl, on⟩, fun no => absurd rfl no⟩
  | false =>
    unfold afterHold toDiscover
    by_cases none : p.manifest = []
    · simp only [Bool.false_eq_true, if_false, if_pos none]
      exact ⟨{ p with step := .discover, stepAt := s.pw.now + 1 }, held, rfl, rfl, rfl, rfl, rfl, nofun, fun _ => ⟨(if_pos none).symm, rfl, on⟩⟩
    · simp only [Bool.false_eq_true, if_false, if_neg none]
      exact ⟨{ p with step := .verify, stepAt := s.pw.now + 1 }, held, rfl, rfl, rfl, rfl, rfl, nofun, fun _ => ⟨(if_neg none).symm, rfl, on⟩⟩

section
variable {s : State} (runs : s.running = true) (up : s.flg.plt = true) (none : s.flg.pass = none)
include runs up none

theorem execHostRebootRequest_of_free : execHostRebootRequest s = .next (requestPass true s) := if_neg (by simp [runs, up, none])

omit runs up none in
theorem requestPass_of_update (busy : s.pfl.upd ≠ Option.none) : requestPass true s = { s with flg := { s.flg with passDue := some true } } :=
  if_pos (Option.isSome_iff_ne_none.2 busy)

omit up in
/-- The state of a request for a pass that does not wait. -/
theorem requestPass_of_free (free : s.pfl.upd = Option.none) : requestPass true s =
    let t := s.modFlg fun g => { g with passDue := Option.none }
    if s.vault.latch then holdOnly .held t else startPass true false t := by
  unfold requestPass
  rw [free]
  refine (if_neg nofun).trans (if_neg ?_)
  rw [show State.running (s.modFlg fun g => { g with passDue := Option.none }) = true from runs,
    show (s.modFlg fun g => { g with passDue := Option.none }).flg.pass = Option.none from none]
  decide

theorem hostReboot_starts (free : s.pfl.upd = Option.none) (unlatched : s.vault.latch = false) : ∃ t q, execHostRebootRequest s = .next t ∧
    PlatformHeld t ∧ t.flg.pass = some q ∧ q.reboot = true ∧ q.startAt = s.pw.now ∧ q.results = [] ∧
      q.manifest = (if s.lcs.state = .ret then [] else s.ldg.manifest) ∧
      (s.flg.bmcb = true ∧ s.flg.owner = 1 → q.step = .hold ∧ t.flg.state = .holding ∧ t.flg.bmcb = true) ∧
      (¬ (s.flg.bmcb = true ∧ s.flg.owner = 1) → q.step = (if q.manifest = [] then .discover else .verify) ∧ q.stepAt = s.pw.now + 1 ∧ t.flg.bmcb = false) := by
  obtain ⟨q, starts⟩ := startPass_starts (s.modFlg fun g => { g with passDue := Option.none })
  rw [execHostRebootRequest_of_free runs up none, requestPass_of_free runs none free, unlatched]
  exact ⟨_, q, rfl, starts⟩

theorem hostReboot_holds (free : s.pfl.upd = Option.none) (latched : s.vault.latch = true) : ∃ t, execHostRebootRequest s = .next t ∧ PlatformHeld t ∧
    t.flg.state = .held ∧ t.flg.pass = Option.none ∧ (s.flg.bmcb = true ∧ s.flg.owner = 1 → t.flg.holdAt = some s.pw.now) := by
  rw [execHostRebootRequest_of_free runs up none, requestPass_of_free runs none free, latched]
  refine ⟨_, rfl, ⟨rfl, rfl, rfl, rfl⟩, rfl, none, fun joined => ?_⟩
  have connected : s.flg.connected = true := by simp [Flg.connected, joined]
  exact if_pos connected

end

/-! ### The steps of a pass -/

theorem execBmcPortDisconnect_of_none {csHigh : Bool} {t0 : Nat} {s : State} (none : s.flg.pass = none) (held : s.flg.holdAt = some t0)
    (gone : csHigh = true ∨ t0 + 401 ≤ s.pw.now) : ∃ t, execBmcPortDisconnect csHigh s = .next t ∧ t.flg = { s.flg with bmcb := false, holdAt := .none } := by
  have runs : execBmcPortDisconnect csHigh s = .next (raiseGate 9 (s.modFlg fun g => { g with bmcb := false, holdAt := .none })) := by
    unfold execBmcPortDisconnect
    extract_lets g
    rw [none, held]
    exact if_pos (by simpa using gone)
  exact ⟨_, runs, (raiseGate_leaves 9 _).1⟩

section
variable {s : State} {p : Pass} (pass : s.flg.pass = some p)
include pass

theorem execBmcPortDisconnect_of_pass {csHigh : Bool} (step : p.step = .hold) (gone : csHigh = true ∨ p.startAt + 401 ≤ s.pw.now) :
    ∃ t, execBmcPortDisconnect csHigh s = .next t ∧ t.flg.bmcb = false ∧
      t.flg.pass = some { p with step := if p.manifest = [] then .discover else .verify, stepAt := s.pw.now } := by
  unfold execBmcPortDisconnect
  extract_lets g
  rw [pass]
  refine ⟨_, if_neg (by rcases gone with h | h <;> simp [step, h]), ?_⟩
  obtain ⟨flg, -, -⟩ := raiseGate_leaves 9 ((afterHold s.pw.now p s).modFlg fun g => { g with bmcb := false, holdAt := none })
  refine ⟨congrArg Flg.bmcb flg, (congrArg Flg.pass flg).trans ?_⟩
  unfold afterHold toDiscover
  by_cases empty : p.manifest = []
  · rw [if_pos empty, if_pos empty]
    rfl
  · rw [if_neg empty, if_neg empty]
    rfl

theorem execManifestReverify_of_due {readOk : Bool} (step : p.step = .verify) (due : p.stepAt + 41 ≤ s.pw.now) :
    PassIs { p with step := .discover, stepAt := s.pw.now, manBad := !(readOk && s.manifestSig p.manifest), manifest := if readOk then p.manifest else [] } s
      (execManifestReverify readOk s) := by
  let q : Pass := { p with manBad := !(readOk && s.manifestSig p.manifest), manifest := if readOk then p.manifest else [] }
  have runs : execManifestReverify readOk s =
      .next (if readOk && s.manifestSig p.manifest then toDiscover s.pw.now q s else raiseGate 2 (toDiscover s.pw.now q s)) := by
    unfold execManifestReverify
    rw [pass]
    exact if_neg (by simp [step, due])
  have gated := gated_ite (c := (readOk && s.manifestSig p.manifest) = true) (s := toDiscover s.pw.now q s) rfl (raiseGate_gated 2 _)
  exact ⟨_, runs, congrArg (·.1.pass) gated, congrArg (·.1.plt) gated, congrArg (·.1.asel) gated, congrArg (·.2.1) gated, congrArg (·.2.2.1) gated⟩

theorem execPortDiscovery_of_due {a b : Sfdp} (step : p.step = .discover) (due : p.stepAt + 40 ≤ s.pw.now) (some_ : p.manifest ≠ []) (regions : nreg p.manifest ≠ 0) :
    ∃ t, execPortDiscovery a b s = .next t ∧ t.flg.portA = choosePort (fieldLE p.manifest 49 1) a ∧ t.flg.portB = choosePort (fieldLE p.manifest 49 1) b ∧
      t.flg.discTk = min 4096 (s.pw.now - p.stepAt) ∧ t.flg.state = .measure ∧
      t.flg.pass = some { p with step := .measure, stepAt := p.stepAt + min 4096 (s.pw.now - p.stepAt), discTk := min 4096 (s.pw.now - p.stepAt) } := by
  unfold execPortDiscovery
  rw [pass]
  dsimp only
  rw [if_neg (by simp [step, due]), if_neg some_, if_neg (by simp [some_, regions])]
  let t := s.modFlg fun g => { g with portA := choosePort (fieldLE p.manifest 49 1) a, portB := choosePort (fieldLE p.manifest 49 1) b,
                                      discTk := min 4096 (s.pw.now - p.stepAt), measTk := 0, state := .measure }
  have first : (if a.present then t else raiseGate 0 t).gated = t.gated := gated_ite rfl (raiseGate_gated 0 _)
  have both : (if b.present then (if a.present then t else raiseGate 0 t) else raiseGate 1 (if a.present then t else raiseGate 0 t)).gated = t.gated :=
    gated_ite first ((raiseGate_gated 1 _).trans first)
  exact ⟨_, rfl, congrArg (·.1.portA) both, congrArg (·.1.portB) both, congrArg (·.1.discTk) both, congrArg (·.1.state) both, rfl⟩

end

/-! ### Verdicts -/

/-- What a verdict in a state with records leaves. -/
structure Settled (verdict : Nat) (p : Pass) (s t : State) : Prop where
  state : t.flg.state = .record
  pass : t.flg.pass = some { p with verdict := verdict, reason := 0, time := s.time64, stepAt := s.pw.now + 1, step := .record }
  ldg : t.ldg = s.ldg
  last : ∃ l, t.flg.last = some l ∧ l.verdict = verdict ∧ l.results = p.results

theorem settle_settled {v : Nat} {p : Pass} {s : State} (recorded : s.recorded = true) : Settled v p s (settle v 0 p s) := by
  unfold settle
  extract_lets q t
  rw [if_pos (show t.recorded = true from recorded)]
  exact ⟨rfl, rfl, rfl, q, rfl, rfl, rfl⟩

theorem notRet_of_recorded {s : State} (recorded : s.recorded = true) : s.lcs.state ≠ .ret := by
  intro ret
  unfold State.recorded at recorded
  rw [ret] at recorded
  exact absurd recorded (by decide)

/-- A pass in which no region fails and which no one holds has verdict 0. -/
theorem gateVerdict_of_good {p : Pass} {s : State} (recorded : s.recorded = true) (good : p.manBad = false) (some_ : p.manifest ≠ []) (forced : p.forced = false)
    (policy : fieldLE p.manifest 48 1 ≠ 3) (regions : nreg p.manifest ≠ 0) (none : firstFailure p.results = none) : gateVerdict p s = settle 0 0 p s := by
  unfold gateVerdict
  rw [if_neg (notRet_of_recorded recorded), if_neg (by simp [good]), if_neg some_]
  simp only [forced, regions, Bool.false_eq_true, if_false, decide_false, Bool.false_and, none, if_neg policy]

theorem firstFailure_append {l : List RegRes} {r : RegRes} (none : firstFailure (l ++ [r]) = .none) : failReason r.result = .none := by
  unfold firstFailure at none
  rw [List.findSome?_append, Option.or_eq_none_iff] at none
  simpa using none.2

section
variable {s : State} {p : Pass} (pass : s.flg.pass = some p)

/-- The pass once the region has been measured. -/
def Pass.measured (p : Pass) (g : Flg) (x : RegData) : Pass :=
  let n := g.regionTicks (region p.manifest p.results.length)
  { p with stepAt := p.stepAt + n, measTk := p.measTk + n, results := p.results ++ [g.measure p.manifest p.results.length x] }

include pass

theorem execRegionMeasure_of_due {x : RegData} (step : p.step = .measure) (due : p.stepAt + s.flg.regionTicks (region p.manifest p.results.length) ≤ s.pw.now) :
    let q := p.measured s.flg x
    let t := s.modFlg fun g => { g with measTk := q.measTk }
    let u := if (failReason (s.flg.measure p.manifest p.results.length x).result).isSome then raiseGate 4 t else t
    execRegionMeasure x s = .next (if p.results.length + 1 = nreg p.manifest then gateVerdict q u else u.setPass q) := by
  unfold execRegionMeasure
  rw [pass]
  exact if_neg (by simp [step, due])

theorem regionMeasure_goes {x : RegData} (step : p.step = .measure) (due : p.stepAt + s.flg.regionTicks (region p.manifest p.results.length) ≤ s.pw.now)
    (more : p.results.length + 1 ≠ nreg p.manifest) : PassIs (p.measured s.flg x) s (execRegionMeasure x s) := by
  let t := s.modFlg fun g => { g with measTk := (p.measured s.flg x).measTk }
  have gated : (if (failReason (s.flg.measure p.manifest p.results.length x).result).isSome then raiseGate 4 t else t).gated = t.gated :=
    gated_ite (raiseGate_gated ..) rfl
  rw [execRegionMeasure_of_due pass step due, if_neg more]
  exact ⟨_, rfl, rfl, congrArg (·.1.plt) gated, congrArg (·.1.asel) gated, congrArg (·.2.1) gated, congrArg (·.2.2.1) gated⟩

theorem regionMeasure_ends {x : RegData} (step : p.step = .measure) (due : p.stepAt + s.flg.regionTicks (region p.manifest p.results.length) ≤ s.pw.now)
    (last : p.results.length + 1 = nreg p.manifest) (recorded : s.recorded = true) (good : p.manBad = false) (some_ : p.manifest ≠ []) (forced : p.forced = false)
    (policy : fieldLE p.manifest 48 1 ≠ 3) (none : firstFailure (p.measured s.flg x).results = .none) :
    ∃ t, execRegionMeasure x s = .next t ∧ Settled 0 (p.measured s.flg x) s t := by
  have sound : failReason (s.flg.measure p.manifest p.results.length x).result = .none := firstFailure_append none
  rw [execRegionMeasure_of_due pass step due, if_pos last, sound]
  let t := s.modFlg fun g => { g with measTk := (p.measured s.flg x).measTk }
  have verdict : gateVerdict (p.measured s.flg x) t = settle 0 0 (p.measured s.flg x) t :=
    gateVerdict_of_good (p := p.measured s.flg x) (s := t) recorded good some_ forced policy (show nreg p.manifest ≠ 0 by omega) none
  obtain ⟨state, passed, ldg, settled⟩ := settle_settled (v := 0) (p := p.measured s.flg x) (s := t) recorded
  exact ⟨_, congrArg Host.Outcome.next verdict, state, passed, ldg, settled⟩

end

/-! ### Recovery -/

/-- A failing region that has been restored is marked so. -/
def remark (bad : List Nat) (again : List RegRes) : List RegRes :=
  (List.range again.length).filterMap fun i => (again[i]?).map fun r => if bad.contains i && r.result = 1 then { r with result := 5 } else r

theorem filterMap_range {α β : Type} (f : Nat → α → β) (l : List α) : (List.range l.length).filterMap (fun i => (l[i]?).map (f i)) = l.mapIdx f := by
  induction l using List.reverseRecOn with
  | nil => rfl
  | append_singleton l a ih =>
    have init : (List.range l.length).filterMap (fun i => ((l ++ [a])[i]?).map (f i)) = (List.range l.length).filterMap (fun i => (l[i]?).map (f i)) :=
      List.filterMap_congr fun i low => by rw [List.getElem?_append_left (List.mem_range.1 low)]
    rw [List.length_append, List.length_singleton, List.range_succ, List.filterMap_append, init, ih, List.mapIdx_append]
    simp

theorem remark_eq (bad : List Nat) (again : List RegRes) :
    remark bad again = again.mapIdx fun i r => if bad.contains i && r.result = 1 then { r with result := 5 } else r := filterMap_range ..

theorem remark_digest (bad : List Nat) (again : List RegRes) : (remark bad again).map RegRes.digest = again.map RegRes.digest := by
  rw [remark_eq]
  refine List.ext_getElem? fun i => ?_
  rw [List.getElem?_map, List.getElem?_map, List.getElem?_mapIdx]
  cases again[i]? with
  | none => rfl
  | some r =>
    simp only [Option.map_some]
    split <;> rfl

theorem remark_good {bad : List Nat} {again : List RegRes} (good : ∀ y ∈ again, failReason y.result = none) : firstFailure (remark bad again) = none := by
  unfold firstFailure
  rw [List.findSome?_eq_none_iff, remark_eq]
  intro r member
  obtain ⟨i, low, rfl⟩ := List.mem_mapIdx.1 member
  split
  · rfl
  · exact good _ (List.getElem_mem low)

theorem execGateRecovery_of_good {s : State} {p : Pass} {backups regions : List RegData} (pass : s.flg.pass = some p) (step : p.step = .recover) (recorded : s.recorded = true)
    (due : p.stepAt + s.flg.checkTicks p + s.flg.againTicks p ≤ s.pw.now) (each : backups.length = (failing p.results).length)
    (copies : ∀ i ∈ failing p.results, fieldLE (region p.manifest i) 2 1 ≠ 0)
    (backed : ∀ e ∈ (failing p.results).zip backups, s.flg.backupGood p.manifest e.1 e.2 = true)
    (good : ∀ y ∈ (List.range (nreg p.manifest)).map fun i => s.flg.measure p.manifest i (regions.getD i { desc := [], data := [] }), failReason y.result = none) :
    let again := (List.range (nreg p.manifest)).map fun i => s.flg.measure p.manifest i (regions.getD i { desc := [], data := [] })
    ∃ q t : _, Pass.results q = remark (failing p.results) again ∧ execGateRecovery backups regions s = .next t ∧ Settled 1 q s t := by
  intro again
  have stuck : (failing p.results).find? (fun i => fieldLE (region p.manifest i) 2 1 = 0) = none := List.find?_eq_none.2 fun i bad => by simpa using copies i bad
  have zip : (failing p.results).zip (backups ++ List.replicate (failing p.results).length { desc := [], data := [] }) = (failing p.results).zip backups := by
    have plain := List.zip_append (r₁ := []) (r₂ := List.replicate (failing p.results).length ({ desc := [], data := [] } : RegData)) each.symm
    rwa [List.append_nil, List.zip_nil_left, List.append_nil] at plain
  have all : ((failing p.results).zip backups).all (fun (e : Nat × RegData) => s.flg.backupGood p.manifest e.1 e.2) = true := List.all_eq_true.2 backed
  let q : Pass := { p with recTk := s.pw.now - p.stepAt, results := remark (failing p.results) again }
  let t : State := { s with pw := { s.pw with recovery := false } }
  have runs : execGateRecovery backups regions s = .next (settle 1 0 q t) := by
    unfold execGateRecovery
    rw [pass]
    dsimp only
    rw [stuck, zip, all]
    rw [if_neg (by simp [step]; omega)]
    have none : (firstFailure (remark (failing p.results) again)).isNone = true := by rw [remark_good good]; rfl
    exact (if_neg (by decide)).trans (if_pos none)
  obtain ⟨state, passed, ldg, settled⟩ := settle_settled (v := 1) (p := q) (s := t) recorded
  exact ⟨q, _, rfl, runs, state, passed, ldg, settled⟩

/-! ### The record of a pass -/

theorem drawIsland_gated (n : Nat) (s : State) : (drawIsland n s).2.gated = s.gated := by
  unfold drawIsland
  split
  next r drawn =>
    unfold draw at drawn
    dsimp only at drawn
    split at drawn
    · rw [← Option.some.inj drawn]
      rfl
    · exact nomatch drawn
  · rfl

/-- Both halves of a dual signature that are released. -/
theorem dualWith_of_good {seed : Nat → Bytes} {body rnd : Bytes} {s : State}
    (ed : Config.edVerify (pubOf 1 (seed 0)) body (edSign (seed 0) body) = true)
    (attempts : Config.mldsaAttemptsRaw (seed 2) [] body rnd ≤ 256)
    (ml : Config.mldsaVerify (mldsaPub (seed 2)) [] body (mldsaSig (seed 2) [] body rnd) = true) :
    ∃ t, dualWith seed body rnd s = (some (edSign (seed 0) body ++ mldsaSig (seed 2) [] body rnd), t) ∧ t.gated = s.gated := by
  let t := s.modEngine 82 fun e => { e with sigs := satAdd e.sigs 1, atts := satAdd e.atts (attemptsOf (seed 2) [] body rnd) }
  have signed : signOutcome 82 0xFF false (seed 2) [] body rnd s = (0, mldsaSig (seed 2) [] body rnd, t) := by
    unfold signOutcome
    have within : limitReached (seed 2) [] body rnd = false := decide_eq_false (by omega)
    rw [within]
    exact (if_neg Bool.false_ne_true).trans (if_pos (by rw [ml]; rfl))
  refine ⟨t, ?_, rfl⟩
  unfold dualWith islandEd islandMl islandCutter
  rw [if_pos ed]
  dsimp only
  rw [signed]
  rfl

section
variable {s : State} {p : Pass} (pass : s.flg.pass = some p)
include pass

theorem execLedgerRecordWrite_of_dry {first second : Bool} (step : p.step = .record) (dry : (s.exp 16).qbytes < 32) :
    execLedgerRecordWrite first second s = .next { s with flg := { s.flg with reason := 0x0B } } := by
  have has : s.islandHas 32 = false := decide_eq_false (by omega)
  unfold execLedgerRecordWrite
  rw [pass]
  dsimp only
  rw [if_neg (by rw [step]; decide), if_neg (by simp [step])]
  exact if_pos (by rw [has]; rfl)

/-- A record whose signature is ready is programmed. -/
theorem execLedgerRecordWrite_of_ready {first second : Bool} (step : p.step = .record) (keeps : s.ldg.wouldLose (s.ldg.newest + 1) = false)
    (has : 32 ≤ (s.exp 16).qbytes) :
    let body := s.recordBody p (s.ldg.newest + 1) s.ldg.lost
    let rnd := (drawIsland 32 s).1
    p.stepAt + dualTicks s.ledgerSeed body rnd < s.pw.now →
    Config.edVerify (pubOf 1 (s.ledgerSeed 0)) body (edSign (s.ledgerSeed 0) body) = true →
    Config.mldsaAttemptsRaw (s.ledgerSeed 2) [] body rnd ≤ 256 →
    Config.mldsaVerify (mldsaPub (s.ledgerSeed 2)) [] body (mldsaSig (s.ledgerSeed 2) [] body rnd) = true →
    ∃ t, t.gated = s.gated ∧ execLedgerRecordWrite first second s =
      .next (programRecord p first second (body ++ (edSign (s.ledgerSeed 0) body ++ mldsaSig (s.ledgerSeed 2) [] body rnd)) t) := by
  intro body rnd due ed attempts ml
  obtain ⟨t, signed, gated⟩ := dualWith_of_good (s := (drawIsland 32 s).2) ed attempts ml
  refine ⟨t, gated.trans (drawIsland_gated 32 s), ?_⟩
  have late : ¬ s.pw.now ≤ p.stepAt + dualTicks s.ledgerSeed (s.recordBody p (s.ldg.newest + 1) (s.ldg.lost + bit false)) (drawIsland 32 s).1 := Nat.not_le.2 due
  unfold execLedgerRecordWrite
  rw [pass]
  dsimp only
  rw [if_neg (by rw [step]; decide), if_neg (by simp [step]), if_neg (by simp [show s.islandHas 32 = true from decide_eq_true has]),
    keeps, if_neg (by simp), if_neg late]
  rw [show dualWith s.ledgerSeed (s.recordBody p (s.ldg.newest + 1) (s.ldg.lost + bit false)) (drawIsland 32 s).1 (drawIsland 32 s).2 = _ from signed]
  rfl

theorem recordWrite_programs {first second : Bool} (step : p.step = .record) (keeps : s.ldg.wouldLose (s.ldg.newest + 1) = false)
    (has : 32 ≤ (s.exp 16).qbytes) :
    let body := s.recordBody p (s.ldg.newest + 1) s.ldg.lost
    let rnd := (drawIsland 32 s).1
    let ed := edSign (s.ledgerSeed 0) body
    let ml := mldsaSig (s.ledgerSeed 2) [] body rnd
    p.stepAt + dualTicks s.ledgerSeed body rnd < s.pw.now →
    Config.edVerify (pubOf 1 (s.ledgerSeed 0)) body ed = true → Config.mldsaAttemptsRaw (s.ledgerSeed 2) [] body rnd ≤ 256 →
    Config.mldsaVerify (mldsaPub (s.ledgerSeed 2)) [] body ml = true → first = true ∨ second = true →
    ∃ t, execLedgerRecordWrite first second s = .next t ∧
      tfind t.ldg.slots (slotOf (s.ldg.newest + 1)) = some { record := body ++ (ed ++ ml), commit := [] } ∧
      t.flg.pass = some { p with step := .commit, stepAt := s.pw.now } ∧ t.ldg.newest = s.ldg.newest ∧ t.ldg.passc = s.ldg.passc ∧ t.ram = s.ram := by
  intro body rnd ed ml due good attempts good' done
  obtain ⟨t, gated, runs⟩ := execLedgerRecordWrite_of_ready (first := first) (second := second) pass step keeps has due good attempts good'
  have now : t.pw.now = s.pw.now := congrArg (·.2.2.2.1) gated
  have ldg : t.ldg = s.ldg := congrArg (·.2.1) gated
  have programmed : programRecord p first second (body ++ (ed ++ ml)) t = (t.modLdg fun l => { l with full := false, slots := tput l.slots (slotOf (t.ldg.newest + 1)) { record := body ++ (ed ++ ml) } }).setPass
      { p with step := .commit, stepAt := t.pw.now } := if_pos (by simpa using done)
  refine ⟨_, runs.trans (congrArg Host.Outcome.next programmed), ?_, by rw [← now]; rfl, (congrArg Ldg.newest ldg :), (congrArg Ldg.passc ldg :), congrArg (·.2.2.1) gated⟩
  rw [← ldg]
  exact tfind_tput_same ..

theorem recordWrite_fails (step : p.step = .record) (keeps : s.ldg.wouldLose (s.ldg.newest + 1) = false) (has : 32 ≤ (s.exp 16).qbytes) :
    let body := s.recordBody p (s.ldg.newest + 1) s.ldg.lost
    let rnd := (drawIsland 32 s).1
    p.stepAt + dualTicks s.ledgerSeed body rnd < s.pw.now →
    Config.edVerify (pubOf 1 (s.ledgerSeed 0)) body (edSign (s.ledgerSeed 0) body) = true →
    Config.mldsaAttemptsRaw (s.ledgerSeed 2) [] body rnd ≤ 256 →
    Config.mldsaVerify (mldsaPub (s.ledgerSeed 2)) [] body (mldsaSig (s.ledgerSeed 2) [] body rnd) = true →
    ∃ t, execLedgerRecordWrite false false s = .next t ∧ t.flg.state = .held ∧ t.flg.pass = none ∧ t.flg.reason = 0x0E ∧
      t.ldg.priorFail = true ∧ t.ldg.newest = s.ldg.newest ∧ t.ldg.passc = s.ldg.passc := by
  intro body rnd due good attempts good'
  obtain ⟨t, gated, runs⟩ := execLedgerRecordWrite_of_ready (first := false) (second := false) pass step keeps has due good attempts good'
  have ldg : t.ldg = s.ldg := congrArg (·.2.1) gated
  let u := ((t.modLdg fun l => { l with full := false, slots := tput l.slots (slotOf (t.ldg.newest + 1)) {
    record := body ++ (edSign (s.ledgerSeed 0) body ++ mldsaSig (s.ledgerSeed 2) [] body rnd) } }).modFlg fun g => {
      g with last := some { p with verdict := 2 } }).modLdg fun l => { l with priorFail := true }
  have failed : programRecord p false false (body ++ (edSign (s.ledgerSeed 0) body ++ mldsaSig (s.ledgerSeed 2) [] body rnd)) t =
      raiseGate 11 (holdHost { p with verdict := 2, reason := 0x0E } u) := by
    unfold programRecord
    exact if_neg (by decide)
  have ended : (raiseGate 11 (holdHost { p with verdict := 2, reason := 0x0E } u)).gated = (endPass { p with verdict := 2, reason := 0x0E } .held u).gated :=
    (raiseGate_gated 11 _).trans (raiseGate_gated 7 _)
  refine ⟨_, runs.trans (congrArg Host.Outcome.next failed), ?_⟩
  exact ⟨congrArg (·.1.state) ended, congrArg (·.1.pass) ended, congrArg (·.1.reason) ended, congrArg (·.2.1.priorFail) ended,
    (congrArg (·.2.1.newest) ended).trans (congrArg Ldg.newest ldg :), (congrArg (·.2.1.passc) ended).trans (congrArg Ldg.passc ldg :)⟩

end

/-! ### The commit of a record -/

/-- The ledger once record `seq` is committed, the slot after it being erased unless the ring holds it. -/
def Ldg.committed (seq : Nat) (record : Bytes) (l : Ldg) : Ldg :=
  let l := { l with passc := true, sumDue := true, newest := seq, lost := fieldLE record 12 4, priorFail := false,
                    slots := tput l.slots (slotOf seq) { record := record, commit := commitOf seq record } }
  if l.ring = 1 && l.wouldLose (seq + 1) then l else { l with slots := tdel l.slots (slotOf (seq + 1)) }

theorem committed_leaves (seq : Nat) (l : Ldg) (record : Bytes) :
    let t := l.committed seq record
    t.newest = seq ∧ t.passc = true ∧ t.priorFail = false ∧ t.lost = fieldLE record 12 4 ∧
      tfind t.slots (slotOf seq) = some { record := record, commit := commitOf seq record } ∧
      (l.ring ≠ 1 ∨ l.wouldLose (seq + 1) = false → tfind t.slots (seq % 4096) = none) := by
  have next : slotOf (seq + 1) = seq % 4096 := by unfold slotOf; omega
  have apart : slotOf seq ≠ seq % 4096 := by unfold slotOf; omega
  let m : Ldg := { l with passc := true, sumDue := true, newest := seq, lost := fieldLE record 12 4, priorFail := false,
                          slots := tput l.slots (slotOf seq) { record := record, commit := commitOf seq record } }
  have eq : l.committed seq record = if l.ring = 1 && l.wouldLose (seq + 1) then m else { m with slots := tdel m.slots (slotOf (seq + 1)) } := rfl
  have put : tfind m.slots (slotOf seq) = some { record := record, commit := commitOf seq record } := tfind_tput_same ..
  dsimp only
  rw [eq]
  split
  next held =>
    refine ⟨rfl, rfl, rfl, rfl, put, fun free => absurd held ?_⟩
    rcases free with ring | free
    · simp [ring]
    · simp [free]
  next =>
    refine ⟨rfl, rfl, rfl, rfl, ?_, fun _ => ?_⟩
    · exact (tfind_tdel ..).trans ((if_neg (by rw [next]; exact apart)).trans put)
    · exact (tfind_tdel ..).trans (if_pos next.symm)

theorem commitRecord_gated (p : Pass) (record : Bytes) (s : State) : ∃ t, commitRecord p record s = afterRecord p t ∧
    t.gated = ((s.modLdg fun l => l.committed (s.ldg.newest + 1) record).modFlg fun g => { g with seq := s.ldg.newest + 1, reason := p.reason }).gated := by
  unfold commitRecord
  extract_lets seq lose t u v w x
  refine ⟨x, rfl, ?_⟩
  have programmed : t = s.modLdg fun l => l.committed (s.ldg.newest + 1) record := rfl
  rw [← programmed]
  change x.gated = u.gated
  clear_value t
  have noted : ∀ n (f : Nat → State → State), (∀ i y, (f i y).gated = y.gated) → ∀ y, (forN n f y).gated = y.gated := fun n f each y =>
    Same.forN (p := State.gated) (fun i _ h => Eq.trans (each i _) h) .rfl
  have selected : v.gated = u.gated := by
    refine (noted _ _ (fun i y => ?_) _).trans (raiseGate_gated ..)
    exact gated_ite (s := y) rfl rfl
  have lost : w.gated = u.gated := gated_ite (s := u) ((raiseGate_gated ..).trans selected) selected
  exact gated_ite (s := u) ((raiseGate_gated ..).trans lost) lost

theorem execLedgerRecordWrite_of_commit {first second : Bool} {s : State} {p : Pass} {y : LSlot} (pass : s.flg.pass = some p) (step : p.step = .commit)
    (found : tfind s.ldg.slots (slotOf (s.ldg.newest + 1)) = some y) : execLedgerRecordWrite first second s = .next (commitRecord p y.record s) := by
  unfold execLedgerRecordWrite
  rw [pass]
  dsimp only
  rw [if_pos step, found]

theorem afterRecord_gated (p : Pass) (s : State) : (p.verdict = 2 → (afterRecord p s).gated = (endPass p .held s).gated) ∧
    (p.verdict ≠ 2 → (afterRecord p s).gated = (beginRelease (s.setPass { p with step := .release, stepAt := s.pw.now })).gated) := by
  unfold afterRecord
  refine ⟨fun bad => ?_, fun good => ?_⟩
  · rw [if_pos bad]
    exact raiseGate_gated 7 _
  · rw [if_neg good]

theorem afterRecord_leaves (p : Pass) (s : State) : (afterRecord p s).ldg = s.ldg ∧ (afterRecord p s).flg.seq = s.flg.seq ∧
    (p.verdict = 2 → (afterRecord p s).flg.state = .held ∧ (afterRecord p s).flg.pass = none) ∧
    (p.verdict ≠ 2 → (afterRecord p s).flg.state = .releasing ∧ (afterRecord p s).flg.relAt = some s.pw.now) := by
  obtain ⟨bad, good⟩ := afterRecord_gated p s
  by_cases v : p.verdict = 2
  · exact ⟨congrArg (·.2.1) (bad v), congrArg (·.1.seq) (bad v), fun _ => ⟨congrArg (·.1.state) (bad v), congrArg (·.1.pass) (bad v)⟩, fun h => absurd v h⟩
  · exact ⟨congrArg (·.2.1) (good v), congrArg (·.1.seq) (good v), fun h => absurd h v, fun _ => ⟨congrArg (·.1.state) (good v), congrArg (·.1.relAt) (good v)⟩⟩

/-! ### The release -/

theorem execReleaseSequence_selects {s : State} {t0 : Nat} (rel : s.flg.relAt = some t0) (sel : s.flg.selAt = none) (main : s.mainPower = true) (due : t0 + 20 ≤ s.pw.now) :
    execReleaseSequence s = .next { s with flg := { s.flg with asel := true, selAt := some s.pw.now } } := by
  unfold execReleaseSequence
  split
  next none => exact nomatch none.symm.trans rel
  next t rel' _ =>
    cases rel'.symm.trans rel
    exact if_neg (by simp [main, due])
  next h => exact nomatch h.symm.trans sel

theorem execReleaseSequence_releases {s : State} {t0 t1 : Nat} (rel : s.flg.relAt = some t0) (sel : s.flg.selAt = some t1) (main : s.mainPower = true) (due : t1 + 4 ≤ s.pw.now) :
    ∃ t, execReleaseSequence s = .next t ∧ t.flg.asel = true ∧ t.flg.plt = true ∧ t.flg.relAt = none ∧ t.flg.selAt = none ∧ t.flg.state = .released ∧
      t.flg.pass = none ∧ t.ldg = s.ldg := by
  let u := s.modFlg fun g => { g with asel := true, plt := true, relAt := none, selAt := none, state := .released }
  have runs : execReleaseSequence s = match s.flg.pass with | some p => .next (raiseGate 8 (endPass p .released u)) | none => .next (raiseGate 8 u) := by
    unfold execReleaseSequence
    rw [rel, sel]
    exact if_neg (by simp [main, due])
  rw [runs]
  cases pass : s.flg.pass with
  | none =>
    have gated := raiseGate_gated 8 u
    exact ⟨_, rfl, congrArg (·.1.asel) gated, congrArg (·.1.plt) gated, congrArg (·.1.relAt) gated, congrArg (·.1.selAt) gated, congrArg (·.1.state) gated,
      (congrArg (·.1.pass) gated).trans pass, congrArg (·.2.1) gated⟩
  | some p =>
    have gated := raiseGate_gated 8 (endPass p .released u)
    exact ⟨_, rfl, congrArg (·.1.asel) gated, congrArg (·.1.plt) gated, congrArg (·.1.relAt) gated, congrArg (·.1.selAt) gated, congrArg (·.1.state) gated,
      congrArg (·.1.pass) gated, congrArg (·.2.1) gated⟩

theorem recordWrite_commits {first second : Bool} {s : State} {p : Pass} {y : LSlot} (pass : s.flg.pass = some p) (step : p.step = .commit)
    (found : tfind s.ldg.slots (slotOf (s.ldg.newest + 1)) = some y) :
    let seq := s.ldg.newest + 1
    ∃ t, execLedgerRecordWrite first second s = .next t ∧ t.ldg.newest = seq ∧ t.ldg.passc = true ∧ t.ldg.priorFail = false ∧
      t.ldg.lost = fieldLE y.record 12 4 ∧ t.flg.seq = seq ∧
      tfind t.ldg.slots (slotOf seq) = some { record := y.record, commit := commitOf seq y.record } ∧
      (s.ldg.ring ≠ 1 ∨ s.ldg.wouldLose (seq + 1) = false → tfind t.ldg.slots (seq % 4096) = none) ∧
      (p.verdict = 2 → t.flg.state = .held ∧ t.flg.pass = none) ∧ (p.verdict ≠ 2 → t.flg.state = .releasing ∧ t.flg.relAt = some s.pw.now) := by
  intro seq
  obtain ⟨t, commits, gated⟩ := commitRecord_gated p y.record s
  obtain ⟨ldg, flgSeq, bad, good⟩ := afterRecord_leaves p t
  have committed : (afterRecord p t).ldg = s.ldg.committed seq y.record := ldg.trans (congrArg (·.2.1) gated)
  have now : t.pw.now = s.pw.now := congrArg (·.2.2.2.1) gated
  rw [execLedgerRecordWrite_of_commit pass step found, commits]
  refine ⟨_, rfl, ?_⟩
  rw [committed, now.symm]
  obtain ⟨newest, passc, fail, lost, put, erased⟩ := committed_leaves seq s.ldg y.record
  exact ⟨newest, passc, fail, lost, flgSeq.trans (congrArg (·.1.seq) gated), put, erased, bad, good⟩

end Sys2Proof.Machine

namespace Sys2Proof.Proofs
open Sys2Proof Sys2Proof.Machine Sys2Proof.Claims

/-- Settles O37: each step of a pass by its own equation, then the record's programming, its commit and the release. -/
theorem gatePass : Obligations.GatePass := by
  refine ⟨fun p csHigh readOk a b x backups regions s => ?_, fun p first second s => ?_⟩
  · dsimp only
    refine ⟨hostReboot_starts, fun runs up none busy => ?_, hostReboot_holds, fun t0 none held gone => execBmcPortDisconnect_of_none none held gone,
      fun pass => ⟨fun step gone => execBmcPortDisconnect_of_pass pass step gone, fun step due => execManifestReverify_of_due pass step due,
        fun step due some_ regions => execPortDiscovery_of_due pass step due some_ regions, fun step due => ⟨fun more => regionMeasure_goes pass step due more,
          fun last recorded good some_ forced policy none => ?_⟩, fun step recorded due each copies backed good => ?_⟩⟩
    · exact (execHostRebootRequest_of_free runs up none).trans (congrArg Host.Outcome.next (requestPass_of_update busy))
    · obtain ⟨t, runs, state, passed, ldg, last⟩ := regionMeasure_ends pass step due last recorded good some_ forced policy none
      exact ⟨t, _, runs, state, passed, rfl, rfl, rfl, rfl, rfl, rfl, ldg, last⟩
    · obtain ⟨q, t, marked, runs, state, passed, ldg, last⟩ := execGateRecovery_of_good pass step recorded due each copies backed good
      exact ⟨q, by rw [marked]; exact remark_digest .., t, _, runs, state, passed, rfl, rfl, rfl, rfl, rfl, rfl, ldg, last⟩
  · dsimp only
    refine ⟨fun pass => ⟨fun ⟨step, keeps, has, due⟩ ⟨ed, attempts, ml⟩ done => recordWrite_programs pass step keeps has due ed attempts ml done,
      fun ⟨step, keeps, has, due⟩ ⟨ed, attempts, ml⟩ => recordWrite_fails pass step keeps has due ed attempts ml,
      execLedgerRecordWrite_of_dry pass, fun y step found => recordWrite_commits pass step found⟩,
      fun t0 rel sel main due => execReleaseSequence_selects rel sel main due, fun t0 t1 rel sel main due => execReleaseSequence_releases rel sel main due⟩

end Sys2Proof.Proofs

/-! PROOFS. The contact port (R325-R330). -/

namespace Sys2Proof.Machine
open Sys2Proof Sys2Proof.Claims

/-! ### What events and the loss of a card leave -/

/-- Memory, the tables, both ports and the clock. -/
def State.portal (s : State) : Crd × Tbl (BitVec 8) × Dsp × Ctl × BitVec 47 := (s.crd, s.ram, s.dsp, s.ctl, s.vault.rtc)

theorem raise_portal (e k : Nat) (s : State) : (raise e k s).portal = s.portal := by
  have calm : (raise e k s).calm = s.calm := raise_calm .rfl
  exact (congrArg State.portal calm :)

theorem raiseCust_portal (i : Nat) (s : State) : (raiseCust i s).portal = s.portal := raise_portal ..

theorem outcome_portal (kind q : Nat) (s : State) : (outcome kind q s).portal = s.portal := by
  unfold outcome
  split
  · rfl
  · rfl

/-- A card lost on the contact port changes its session alone. -/
theorem loseCard_portal (lastSent : Bool) (s : State) : (loseCard 0 lastSent s).portal = (s.modCrd fun c => { c with sess := {} }).portal := by
  unfold loseCard
  extract_lets x t
  have kept : t.portal = s.portal := by
    unfold t
    split
    · split
      · exact (raiseCust_portal ..).trans (outcome_portal ..)
      · exact outcome_portal ..
    · rfl
  exact congrArg (fun y : Crd × Tbl (BitVec 8) × Dsp × Ctl × BitVec 47 => ({ y.1 with sess := {} }, y.2)) kept

/-- A port deactivated. -/
def Crd.dark (c : Crd) (now : Nat) : Crd :=
  { c with sess := {}, st := .off, cls := 0, proto := false, fi := 0, di := 1, offAt := if c.st = .off then c.offAt else now + offTicks }

theorem deactivate_portal (lastSent : Bool) (s : State) : (deactivate lastSent s).portal = (s.modCrd fun c => c.dark s.pw.now).portal :=
  congrArg (fun y : Crd × Tbl (BitVec 8) × Dsp × Ctl × BitVec 47 => ({ y.1 with
    st := CrdState.off, cls := 0, proto := false, fi := 0, di := 1, offAt := if y.1.st = CrdState.off then y.1.offAt else s.pw.now + offTicks }, y.2))
    (loseCard_portal lastSent s)

theorem deactivate_off (lastSent : Bool) (s : State) : CardOff s.crd.res (deactivate lastSent s).crd := by
  have crd : (deactivate lastSent s).crd = s.crd.dark s.pw.now := congrArg (·.1) (deactivate_portal lastSent s)
  rw [crd]
  exact ⟨rfl, rfl, rfl, rfl, rfl⟩

theorem refuseCard_portal (res : Nat) (s : State) : (refuseCard res s).portal = (s.modCrd fun c => { c.dark s.pw.now with res := res }).portal := by
  have off := deactivate_portal false s
  refine (raiseCust_portal ..).trans ?_
  exact congrArg (fun y : Crd × Tbl (BitVec 8) × Dsp × Ctl × BitVec 47 => ({ y.1 with res := res }, y.2)) off

/-- What a refused card leaves. -/
theorem refuseCard_is {s u : State} (res : Nat) (same : u.portal.2 = s.portal.2) : PortIs (CardOff res) s (.next (refuseCard res u)) := by
  have portal := refuseCard_portal res u
  have rest : (refuseCard res u).portal.2 = s.portal.2 := (congrArg (·.2) portal).trans same
  refine ⟨_, rfl, ?_, congrArg (·.1) rest, congrArg (·.2.1) rest, congrArg (·.2.2.1) rest, congrArg (·.2.2.2) rest⟩
  rw [show (refuseCard res u).crd = { u.crd.dark u.pw.now with res := res } from congrArg (·.1) portal]
  exact ⟨rfl, rfl, rfl, rfl, rfl⟩

theorem breakExchange_off (res : Nat) (lastSent : Bool) (s : State) : CardOff res (breakExchange 0 res lastSent s).crd := by
  unfold breakExchange
  extract_lets step t u
  have first : t.portal = (setRes 0 res s).portal := raiseCust_portal ..
  have both : u.portal = (setRes 0 res s).portal := by
    unfold u
    split
    · exact (raiseCust_portal ..).trans first
    · exact first
  have here : u.crd.res = res := congrArg (·.1.res) both
  have off := deactivate_off lastSent u
  rw [here] at off
  exact off

/-! ### The custodians' part of the state without a ceremony -/

/-- Without a ceremony an event leaves the custodians' part as it was. -/
theorem raise0_cust {e k : Nat} {inj : Bool} {s : State} (none : s.cust.ceremony = none) : (raise0 e k inj s).cust = s.cust := by
  unfold raise0
  split
  · rfl
  extract_lets sev pin f t1 t2 t3 f' t4 t5 t6
  have h2 : t2.cust = s.cust := by unfold t2 recordEvent; split; exacts [by dsimp only; split <;> rfl, rfl]
  have h3 : t3.cust = s.cust := by unfold t3 queueEvent; split; exacts [h2, h2]
  have h4 : t4.cust = s.cust := by unfold t4; split; exacts [h3, h3]
  have h5 : t5.cust = s.cust := by
    unfold t5
    split
    · exact (pendBench_same (p := State.cust) (fun _ _ => rfl) (fun _ _ _ => rfl) ..).trans h4
    · exact h4
  have h6 : t6.cust = s.cust := by
    unfold t6
    split
    · exact (pendLease_same (p := State.cust) (fun _ _ => rfl) (fun _ _ _ => rfl) ..).trans h5
    · exact h5
  clear_value t6
  split
  · unfold setLatch
    extract_lets s1 s2 s3
    have only : s1.cust = t6.cust := by unfold s1 latchOnly; split <;> rfl
    have wedges : s3.cust = s1.cust := Same.forN (p := State.cust) (t := s2) (fun _ _ h => .ite (h.same (by rfl)) h) (by rfl)
    have here : s3.cust = s.cust := wedges.trans (only.trans h6)
    clear_value s3
    have closed : closeCeremony 2 s3 = s3 := by unfold closeCeremony; rw [show s3.cust.ceremony = .none by rw [here]; exact none]
    rw [closed]
    unfold lapseGallery
    extract_lets u
    split
    · exact here
    · exact here
  · exact h6

theorem raise_cust {e k : Nat} {s : State} (none : s.cust.ceremony = none) : (raise e k s).cust = s.cust :=
  raiseInj_same (p := State.cust) (fun _ _ _ _ h => Eq.trans (raise0_cust (by rw [show State.cust _ = s.cust from h]; exact none)) h) (fun _ _ _ => rfl)
    (fun _ _ => rfl) (raise0_cust none)

/-! ### Activation -/

/-- A port that activates its card in class `k`. -/
def Crd.lit (c : Crd) (k now : Nat) : Crd := { c with st := .atr, cls := k, proto := false, fi := 0, di := 1, sess := {}, rstAt := now + rstTicks }

theorem activate_of_class {k c : Nat} {s : State} (class_ : nextClass s.crd.classes k = some c) : activate k s = s.modCrd fun x => x.lit c s.pw.now := by
  unfold activate
  rw [class_]
  rfl

theorem activate_of_none {k : Nat} {s : State} (none : nextClass s.crd.classes k = none) : activate k s = refuseCard 5 s := by
  unfold activate
  rw [none]

theorem activates_lit (c : Crd) (k now : Nat) : Activates k (c.lit k now) := ⟨rfl, rfl, rfl, rfl⟩

/-- What an activation leaves. -/
theorem activate_is {s u : State} {j k : Nat} (class_ : nextClass u.crd.classes j = some k) (same : u.portal.2 = s.portal.2) {q : Crd → Prop}
    (lit : q (u.crd.lit k u.pw.now)) : PortIs q s (.next (activate j u)) := by
  rw [activate_of_class class_]
  exact ⟨_, rfl, lit, congrArg (·.1) same, congrArg (·.2.1) same, congrArg (·.2.2.1) same, congrArg (·.2.2.2) same⟩

theorem classes_of_nextClass {c : BitVec 3} {j k : Nat} (class_ : nextClass c j = some k) : c ≠ 0 := by
  rintro rfl
  induction j with
  | zero => exact nomatch class_
  | succ j ih => exact ih (by simpa [nextClass] using class_)

section
variable {s : State} (runs : s.islandRuns = true) (absent : s.crd.present = false) (live : s.lcs.state ≠ .scrapped)
include runs absent live

theorem execCardInserted_of_absent : execCardInserted s =
    let t := raiseCust 0 (s.modCrd fun c => { c with present := true, warm := false, cold := false })
    .next (if t.crd.classes = 0 || t.cardNeed then activate 3 t else t) := if_neg (by simp [runs, absent, live])

theorem cardInserted_activates {k : Nat} (collect : s.cust.collect ≠ none) (class_ : nextClass s.crd.classes 3 = some k) :
    PortIs (fun d => d.present = true ∧ Activates k d) s (execCardInserted s) := by
  have portal := raiseCust_portal 0 (s.modCrd fun c => { c with present := true, warm := false, cold := false })
  have calm : (raiseCust 0 (s.modCrd fun c => { c with present := true, warm := false, cold := false })).calm =
    (s.modCrd fun c => { c with present := true, warm := false, cold := false }).calm := raise_calm .rfl
  rw [execCardInserted_of_absent runs absent live]
  dsimp only
  generalize raiseCust 0 (s.modCrd fun c => { c with present := true, warm := false, cold := false }) = t at portal calm ⊢
  have crd : t.crd = { s.crd with present := true, warm := false, cold := false } := congrArg (·.1) portal
  have need : t.cardNeed = true := by
    have same : t.cust.collect = s.cust.collect := (congrArg (fun u : State => u.cust.collect) calm :)
    have some_ : t.cust.collect.isSome = true := by rw [same]; exact Option.isSome_iff_ne_none.2 collect
    unfold State.cardNeed
    rw [some_]
    rfl
  rw [need, if_pos (by simp)]
  refine activate_is (by rw [crd]; exact class_) (congrArg (·.2) portal) ⟨?_, activates_lit ..⟩
  rw [crd]
  rfl

theorem cardInserted_waits (need : s.cardNeed = false) (classes : s.crd.classes ≠ 0) :
    PortIs (fun d => d = { s.crd with present := true, warm := false, cold := false }) s (execCardInserted s) := by
  have portal := raiseCust_portal 0 (s.modCrd fun c => { c with present := true, warm := false, cold := false })
  have ceremony : s.cust.ceremony = none := by
    unfold State.cardNeed at need
    simp only [Bool.or_eq_false_iff] at need
    simpa using need.1.2
  have cust : (raiseCust 0 (s.modCrd fun c => { c with present := true, warm := false, cold := false })).cust = s.cust :=
    raise_cust (s := s.modCrd fun c => { c with present := true, warm := false, cold := false }) ceremony
  rw [execCardInserted_of_absent runs absent live]
  dsimp only
  generalize raiseCust 0 (s.modCrd fun c => { c with present := true, warm := false, cold := false }) = t at portal cust ⊢
  have crd : t.crd = { s.crd with present := true, warm := false, cold := false } := congrArg (·.1) portal
  have none : t.cardNeed = false := by
    unfold State.cardNeed at need ⊢
    rw [cust]
    exact need
  rw [none, if_neg (by rw [crd]; simpa using classes)]
  exact ⟨_, rfl, crd, congrArg (·.2.1) portal, congrArg (·.2.2.1) portal, congrArg (·.2.2.2.1) portal, congrArg (·.2.2.2.2) portal⟩

end

/-! ### Activation and deactivation by CRD_CTL -/

theorem wrote_portal (a : Nat) (s : State) : (wrote a s).portal = s.portal := by
  unfold wrote
  split
  · rfl
  · rfl

theorem crdAct_is {s : State} (runs : s.running = true) (present : s.crd.present = true) (off : s.crd.st = .off) :
    (∀ k, nextClass s.crd.classes 3 = some k → PortIs (Activates k) s (execCrdAct s)) ∧
      (nextClass s.crd.classes 3 = none → PortIs (CardOff 5) s (execCrdAct s)) := by
  have portal := wrote_portal 0x600B0000 s
  have running : (wrote 0x600B0000 s).running = true := by
    unfold wrote
    split
    · exact runs
    · exact runs
  unfold execCrdAct
  generalize wrote 0x600B0000 s = t at portal running
  have crd : t.crd = s.crd := congrArg (·.1) portal
  have acts : crdAct t = activate 3 (t.modCrd fun c => { c with warm := false, cold := false }) := if_pos (by simp [running, crd, present, off])
  rw [acts]
  refine ⟨fun k class_ => activate_is ?_ (congrArg (·.2) portal) (activates_lit ..), fun none => ?_⟩
  · exact (congrArg (fun c : Crd => nextClass c.classes 3) crd).trans class_
  · have refused := activate_of_none (s := t.modCrd fun c => { c with warm := false, cold := false })
      ((congrArg (fun c : Crd => nextClass c.classes 3) crd).trans none)
    rw [refused]
    exact refuseCard_is 5 (congrArg (·.2) portal)

theorem crdDeact_off {lastSent : Bool} {s : State} (on : s.crd.st ≠ .off) : ∃ t, execCrdDeact lastSent s = .next t ∧ CardOff s.crd.res t.crd := by
  have crd : (wrote 0x600B0000 s).crd = s.crd := congrArg (·.1) (wrote_portal 0x600B0000 s)
  unfold execCrdDeact
  generalize wrote 0x600B0000 s = t at crd
  have off := deactivate_off lastSent t
  rw [crd] at off
  exact ⟨_, congrArg Host.Outcome.next (if_neg (by rw [crd]; exact on)), off⟩

theorem crdDeact_of_off {lastSent : Bool} {s : State} (off : s.crd.st = .off) : execCrdDeact lastSent s = .next (wrote 0x600B0000 s) := by
  have crd : (wrote 0x600B0000 s).crd = s.crd := congrArg (·.1) (wrote_portal 0x600B0000 s)
  exact congrArg Host.Outcome.next (if_pos (by rw [crd]; exact off))

/-! ### The answer to reset -/

/-- A card whose ATR is taken. -/
def Crd.answered (c : Crd) (g : List AtrGroup) : Crd :=
  { c with proto := offersT1 g, crc := crcOf g, ifsc := ifscOf g, ifsd := 32, ifsTry := 0, ns := 0, nr := 0 }

theorem cardUp_of_t0 {s : State} (t0 : s.crd.proto = false) : cardUp s = s.modCrd fun c => { c with st := .ready, res := 0 } :=
  if_neg (by show ¬ s.crd.proto = true; rw [t0]; decide)

theorem cardUp_of_t1 {s : State} (t1 : s.crd.proto = true) : cardUp s = sendIfs 1 (s.modCrd fun c => { c with st := .ready, res := 0 }) :=
  if_pos (show s.crd.proto = true from t1)

theorem cardUp_crd (s : State) :
    (cardUp s).crd = { s.crd with st := .ready, res := 0, ifsd := if s.crd.proto then 254 else s.crd.ifsd, ifsTry := if s.crd.proto then 1 else s.crd.ifsTry } := by
  cases t1 : s.crd.proto with
  | false => rw [cardUp_of_t0 t1]; rfl
  | true => rw [cardUp_of_t1 t1]; rfl

section
variable {g : List AtrGroup} {s : State} (st : s.crd.st = .atr)
include st

theorem execAtrReceived_of_atr {atr : Bytes} (parsed : parseAtr atr = some g) : execAtrReceived atr false s = .next (takeAtr g s) := by
  unfold execAtrReceived
  rw [if_neg (not_not.2 st)]
  simp only [Bool.false_eq_true, if_false, parsed]

omit st in
theorem takeAtr_of_plain (class_ : classTa g = none) (ta2 : ((g.drop 1).head?.bind fun x => x.ta) = none) (cold : s.crd.cold = false) : takeAtr g s =
    let t := s.modCrd fun c => c.answered g
    match ppsChoice (g.head?.bind fun x => x.ta) false with
    | none => cardUp t
    | some p => sendCard 0 (ppsRequest (offersT1 g) p) (t.modCrd fun c => { c with st := .pps, pps := p }) := by
  unfold takeAtr
  rw [class_, ta2]
  simp only [Bool.false_eq_true, if_false, Option.isSome_none]
  rw [show (s.modCrd fun c => { c with proto := offersT1 g, crc := crcOf g, ifsc := ifscOf g, ifsd := 32, ifsTry := 0, ns := 0, nr := 0 }).crd.cold = false
    from cold]
  rfl

theorem execAtrReceived_of_bad {atr : Bytes} (bad : parseAtr atr = none) : execAtrReceived atr false s =
    if s.crd.warm then .next (refuseCard 0 s) else .next (s.modCrd fun c => { c with warm := true, rstAt := s.pw.now + rstTicks }) := by
  unfold execAtrReceived
  rw [if_neg (not_not.2 st)]
  simp only [Bool.false_eq_true, if_false, bad]

theorem execAtrTimeout_of_first (first : s.crd.cold = false) :
    execAtrTimeout s = .next (activate (s.crd.cls - 1) (s.modCrd fun c => { c with warm := false })) :=
  (if_neg (not_not.2 st)).trans (if_neg (Bool.eq_false_iff.1 first))

end

/-! ### PPS -/

theorem failPps_of_cold {s : State} (cold : s.crd.cold = true) : failPps s = refuseCard 6 s := if_pos cold

/-- A failed PPS that has not had its cold reset has it. -/
theorem failPps_is {s : State} {k : Nat} (first : s.crd.cold = false) (class_ : nextClass s.crd.classes s.crd.cls = some k) :
    PortIs (fun d => Activates k d ∧ d.res = 6 ∧ d.cold = true) s (.next (failPps s)) := by
  have off := deactivate_portal false s
  have retried : failPps s = activate s.crd.cls ((setRes 0 6 (deactivate false s)).modCrd fun c => { c with cold := true, warm := false }) :=
    if_neg (Bool.eq_false_iff.1 first)
  rw [retried]
  generalize deactivate false s = t at off
  have crd : t.crd = s.crd.dark s.pw.now := congrArg (·.1) off
  refine activate_is ?_ (congrArg (·.2) off) ⟨activates_lit .., rfl, rfl⟩
  exact (congrArg (fun c : Crd => nextClass c.classes s.crd.cls) crd).trans class_

/-! ### Time-outs -/

theorem block_of_lrc {c : Crd} (lrc : c.crc = false) (pcb : Nat) (inf : Bytes) : c.block pcb inf =
    [0x00, BitVec.ofNat 8 pcb, BitVec.ofNat 8 inf.length] ++ inf ++ [([0x00, BitVec.ofNat 8 pcb, BitVec.ofNat 8 inf.length] ++ inf).foldl (· ^^^ ·) 0] := by
  unfold Crd.block
  rw [lrc]
  rfl

theorem exchanging_iff (s : State) : s.exchanging 0 = true ↔ s.crd.st = .exchange := by
  unfold State.exchanging
  simp

section
variable {lastSent : Bool} {s : State}

theorem execT1BwtTimeout_of_ifs (st : s.crd.st = .ready) (proto : s.crd.proto = true) (try_ : s.crd.ifsTry ≠ 0) : execT1BwtTimeout lastSent s =
    .next (if s.crd.ifsTry = 1 then sendIfs 2 s else s.modCrd fun c => { c with ifsTry := 0, ifsd := 32 }) :=
  if_pos (by simp [st, proto, try_])

/-- A further try of an exchange sends `b`. -/
def State.retry (s : State) (b : Bytes) : State := sendCard 0 b (s.modSess 0 fun x => { x with tries := x.tries + 1, wtx := 1 })

theorem execT1BwtTimeout_of_exchange (st : s.crd.st = .exchange) (proto : s.crd.proto = true) : execT1BwtTimeout lastSent s =
    if 3 ≤ s.crd.sess.tries then .next (breakExchange 0 4 lastSent s)
    else if s.crd.sess.tries < 2 then .next (s.retry (s.crd.block (0x82 + 16 * s.crd.nr) []))
    else .next ((s.modCrd fun c => { c with ns := 0, nr := 0 }).retry (s.crd.block 0xC0 [])) := by
  have exchanging := (exchanging_iff s).2 st
  unfold execT1BwtTimeout
  extract_lets c next
  refine (if_neg ?_).trans (if_neg ?_)
  · simp [show c.st = .exchange from st]
  · simp [exchanging, show c.proto = true from proto]

theorem bwt_retries (st : s.crd.st = .exchange) (proto : s.crd.proto = true) (more : s.crd.sess.tries < 3) :
    let c := s.crd
    ∃ t, execT1BwtTimeout lastSent s = .next t ∧
      t.crd = { (if c.sess.tries < 2 then c else { c with ns := 0, nr := 0 }) with sess := { c.sess with tries := c.sess.tries + 1, wtx := 1 } } ∧
      t.out.card = (if c.sess.tries < 2 then c.block (0x82 + 16 * c.nr) [] else c.block 0xC0 []) ∧
      (c.crc = false → 2 ≤ c.sess.tries → t.out.card = [0x00, 0xC0, 0x00, 0xC0]) := by
  dsimp only
  rw [execT1BwtTimeout_of_exchange st proto, if_neg (by omega)]
  by_cases early : s.crd.sess.tries < 2
  · rw [if_pos early, if_pos early, if_pos early]
    exact ⟨_, rfl, rfl, rfl, fun _ late => absurd early (by omega)⟩
  · rw [if_neg early, if_neg early, if_neg early]
    refine ⟨_, rfl, rfl, rfl, fun lrc _ => ?_⟩
    exact (block_of_lrc lrc ..).trans (by decide)

end

end Sys2Proof.Machine

namespace Sys2Proof.Proofs
open Sys2Proof Sys2Proof.Machine Sys2Proof.Claims

/-- Settles O40: activation, deactivation and refusal by what each leaves of the port, then the answers and the time-outs case by case. -/
theorem contactPort : Obligations.ContactPort := by
  intro k atr resp lastSent s
  dsimp only
  refine ⟨fun runs absent live collect class_ => cardInserted_activates runs absent live collect class_, cardInserted_waits, fun idle => ?_, fun busy => ?_, fun runs present off => ?_, crdDeact_off, crdDeact_of_off,
    fun st => ⟨fun g parsed class_ ta2 cold => ⟨fun v pps => ?_, fun none => ?_⟩, fun bad warm => ?_, fun bad warm => ?_, fun cold class_ => ?_, fun cold none => ?_⟩,
    fun st => ⟨fun same => ?_, fun other cold class_ => ?_, fun cold => ?_, fun cold class_ => ?_⟩, fun st proto => ⟨fun one => ?_, fun two => ?_⟩,
    fun st => ⟨fun proto => ?_, fun proto => ?_, fun proto more => bwt_retries st proto more, fun proto last => ?_⟩⟩
  · exact ⟨_, congrArg Host.Outcome.next (congrArg (fun t : State => t.modCrd fun c => { c with present := false }) (if_neg (Bool.eq_false_iff.1 idle))),
      deactivate_off false s, rfl⟩
  · exact ⟨_, congrArg Host.Outcome.next (congrArg (fun t : State => t.modCrd fun c => { c with present := false }) (if_pos busy)),
      breakExchange_off 1 lastSent s, rfl⟩
  · obtain ⟨acts, refuses⟩ := crdAct_is runs present off
    exact ⟨acts k, refuses⟩
  · refine ⟨_, (execAtrReceived_of_atr st parsed).trans (congrArg Host.Outcome.next (takeAtr_of_plain class_ ta2 cold)), ?_⟩
    rw [pps]
    exact ⟨rfl, rfl, rfl, rfl⟩
  · refine ⟨_, (execAtrReceived_of_atr st parsed).trans (congrArg Host.Outcome.next (takeAtr_of_plain class_ ta2 cold)), ?_⟩
    rw [none]
    refine ⟨cardUp_crd _, fun t1 crc => ?_⟩
    change (cardUp (s.modCrd fun c => c.answered g)).out.card = _
    rw [cardUp_of_t1 (show offersT1 g = true from t1)]
    change Crd.block _ 0xC1 [0xFE] = _
    exact (block_of_lrc (show crcOf g = false from crc) ..).trans (by decide)
  · exact (execAtrReceived_of_bad st bad).trans (if_neg (Bool.eq_false_iff.1 warm))
  · have refused : exec (.atrReceived atr false) s = .next (refuseCard 0 s) := (execAtrReceived_of_bad st bad).trans (if_pos warm)
    rw [refused]
    exact refuseCard_is 0 rfl
  · have tries : exec .atrTimeout s = .next (activate (s.crd.cls - 1) (s.modCrd fun c => { c with warm := false })) := execAtrTimeout_of_first st cold
    rw [tries]
    exact activate_is (u := s.modCrd fun c => { c with warm := false }) class_ rfl (activates_lit ..)
  · have tries : exec .atrTimeout s = .next (activate (s.crd.cls - 1) (s.modCrd fun c => { c with warm := false })) := execAtrTimeout_of_first st cold
    rw [tries, activate_of_none (s := s.modCrd fun c => { c with warm := false }) none]
    exact refuseCard_is 5 rfl
  · refine ⟨_, (if_neg (not_not.2 st)).trans (if_pos same), (cardUp_crd _).trans rfl⟩
  · have fails : exec (.ppsResponse resp) s = .next (failPps s) := (if_neg (not_not.2 st)).trans (if_neg other)
    rw [fails]
    exact failPps_is cold class_
  · have fails : exec .ppsTimeout s = .next (failPps s) := if_pos st
    rw [fails, failPps_of_cold cold]
    exact refuseCard_is 6 rfl
  · have fails : exec .ppsTimeout s = .next (failPps s) := if_pos st
    rw [fails]
    exact failPps_is cold class_
  · have sends : exec (.t1BwtTimeout lastSent) s = .next (sendIfs 2 s) :=
      (execT1BwtTimeout_of_ifs st proto (by omega)).trans (congrArg Host.Outcome.next (if_pos one))
    exact ⟨_, sends, rfl, rfl⟩
  · exact (execT1BwtTimeout_of_ifs st proto (by omega)).trans (congrArg Host.Outcome.next (if_neg (by omega)))
  · have breaks : exec (.wwtTimeout lastSent) s = .next (breakExchange 0 3 lastSent s) := if_pos (by rw [(exchanging_iff s).2 st, proto]; rfl)
    exact ⟨_, breaks, breakExchange_off 3 lastSent s⟩
  · have breaks : exec (.apduExchangeTimeout lastSent) s = .next (breakExchange 0 3 lastSent s) := if_pos (by rw [(exchanging_iff s).2 st, proto]; rfl)
    exact ⟨_, breaks, breakExchange_off 3 lastSent s⟩
  · have breaks : exec (.t1BwtTimeout lastSent) s = .next (breakExchange 0 4 lastSent s) := (execT1BwtTimeout_of_exchange st proto).trans (if_pos last)
    exact ⟨_, breaks, breakExchange_off 4 lastSent s⟩

end Sys2Proof.Proofs

/-! PROOFS. Exchanges with a custodian card (R321-R324, R328-R333). -/

namespace Sys2Proof.Machine
open Sys2Proof Sys2Proof.Claims

/-! ### A port and its session -/

/-- RES of a port. -/
def State.portRes (s : State) (p : Nat) : Nat := if p = 0 then s.crd.res else s.ctl.res

section
variable (p : Nat) (s : State)

@[simp] theorem sess_modSess (f : Sess → Sess) : (s.modSess p f).sess p = f (s.sess p) := by
  unfold State.modSess State.sess
  split <;> rfl

@[simp] theorem exchanging_modSess (f : Sess → Sess) : (s.modSess p f).exchanging p = s.exchanging p := by
  unfold State.modSess State.exchanging
  split <;> rfl

@[simp] theorem portRes_modSess (f : Sess → Sess) : (s.modSess p f).portRes p = s.portRes p := by
  unfold State.modSess State.portRes
  split <;> rfl

@[simp] theorem cust_modSess (f : Sess → Sess) : (s.modSess p f).cust = s.cust := by
  unfold State.modSess
  split <;> rfl

@[simp] theorem leases_modSess (f : Sess → Sess) : (s.modSess p f).leases = s.leases := by
  unfold State.modSess
  split <;> rfl

@[simp] theorem sess_setExchange (on : Bool) : (setExchange p on s).sess p = s.sess p := by
  unfold setExchange State.sess
  split <;> rfl

@[simp] theorem exchanging_setExchange (on : Bool) : (setExchange p on s).exchanging p = on := by
  unfold setExchange State.exchanging
  split <;> cases on <;> rfl

@[simp] theorem cust_setExchange (on : Bool) : (setExchange p on s).cust = s.cust := by
  unfold setExchange
  split <;> rfl

@[simp] theorem leases_setExchange (on : Bool) : (setExchange p on s).leases = s.leases := by
  unfold setExchange
  split <;> rfl

@[simp] theorem sess_setRes (v : Nat) : (setRes p v s).sess p = s.sess p := by
  unfold setRes State.sess
  split <;> rfl

@[simp] theorem exchanging_setRes (v : Nat) : (setRes p v s).exchanging p = s.exchanging p := by
  unfold setRes State.exchanging
  split <;> rfl

@[simp] theorem portRes_setRes (v : Nat) : (setRes p v s).portRes p = v := by
  unfold setRes State.portRes
  split <;> rfl

@[simp] theorem cust_setRes (v : Nat) : (setRes p v s).cust = s.cust := by
  unfold setRes
  split <;> rfl

@[simp] theorem leases_setRes (v : Nat) : (setRes p v s).leases = s.leases := by
  unfold setRes
  split <;> rfl

end

/-! ### What goes out -/

/-- What a port's framing reads. -/
def Crd.wire (c : Crd) : Crd := { c with sess := {}, st := .off }

theorem framed_congr {s t : State} (wire : t.crd.wire = s.crd.wire) (p : Nat) (b : Bytes) : t.framed p b = s.framed p b := by
  have proto : t.crd.proto = s.crd.proto := (congrArg Crd.proto wire :)
  have chain : t.crd.chain b = s.crd.chain b := (congrArg (fun c : Crd => c.chain b) wire :)
  unfold State.framed
  rw [proto, chain]

theorem wire_modSess (p : Nat) (f : Sess → Sess) (s : State) : (s.modSess p f).crd.wire = s.crd.wire := by
  unfold State.modSess
  split <;> rfl

theorem wire_setExchange (p : Nat) (on : Bool) (s : State) : (setExchange p on s).crd.wire = s.crd.wire := by
  unfold setExchange
  split <;> rfl

/-- The session as a command goes out, and as it ends. -/
def Sess.sends (x : Sess) (c : CardCmd) : Sess := { x with busy := c, tries := 0, resent := false, got := [], wtx := 1 }
def Sess.ends (x : Sess) : Sess := { x with busy := .none, more := none, tries := 0, resent := false, got := [], wtx := 1 }

theorem sendApdu_leaves (p : Nat) (b : Bytes) (s : State) : (if p = 0 then (sendApdu p b s).out.card else (sendApdu p b s).out.reader) = s.framed p b ∧
    (sendApdu p b s).sess p = s.sess p ∧ (sendApdu p b s).exchanging p = s.exchanging p ∧ (sendApdu p b s).cust = s.cust := by
  unfold sendApdu sendCard State.sess State.exchanging
  by_cases zero : p = 0
  · subst zero
    dsimp only
    simp only [if_true]
    split
    · exact ⟨rfl, rfl, rfl, rfl⟩
    · exact ⟨rfl, rfl, rfl, rfl⟩
  · simp only [if_neg zero, decide_eq_false zero, Bool.false_and, Bool.false_eq_true, if_false, and_self]

/-- What a draw of the island leaves. -/
theorem drawIsland_keeps {β : Type} {q : State → β} (rng : ∀ t r, q { t with rng := r } = q t) (pw : ∀ t w, q { t with pw := w } = q t) (n : Nat) (s : State) :
    q (drawIsland n s).2 = q s := by
  unfold drawIsland
  split
  next r drawn =>
    unfold draw at drawn
    dsimp only at drawn
    split at drawn
    · rw [← Option.some.inj drawn]
      exact rng s _
    · exact nomatch drawn
  · exact pw s _

/-- The preparation of an AUTH with its purpose and lease. -/
def authPrepare (p purpose lease : Nat) (s : State) : Bytes × State :=
  let (chal, s) := drawIsland 32 s
  let (eph, s) := drawIsland 32 s
  let s := s.modSess p fun x => { x with purpose := purpose, lease := lease, chal := chal, ephPriv := eph, authed := false, key := [], bodies := 0 }
  (apduHeader 0x12 purpose ++ [64] ++ chal ++ fixLen 32 (Config.pubOfRaw 2 eph) ++ s.leOf p 0x60, s)

theorem leOf_congr {s t : State} (wire : t.crd.wire = s.crd.wire) (p le : Nat) : t.leOf p le = s.leOf p le := by
  have proto : t.crd.proto = s.crd.proto := (congrArg Crd.proto wire :)
  unfold State.leOf
  rw [proto]

theorem leOf_eq (s : State) (p le : Nat) : s.leOf p le = if p = 0 ∧ s.crd.proto = false then [] else [BitVec.ofNat 8 le] := by
  unfold State.leOf
  simp

theorem authPrepare_wire (p purpose lease : Nat) (s : State) : (authPrepare p purpose lease s).2.crd.wire = s.crd.wire := by
  have drawn : ∀ u : State, (drawIsland 32 u).2.crd = u.crd := drawIsland_keeps (q := State.crd) (fun _ _ => rfl) (fun _ _ => rfl) 32
  exact (wire_modSess ..).trans (congrArg Crd.wire ((drawn _).trans (drawn s)))

/-- The preparation of a WRITE_OBJ: its PREPARED record comes first. -/
def writePrepare (p obj : Nat) (plain : Bytes) (lease number : Nat) (s : State) : Bytes × State :=
  let x := s.sess p
  let s := journal { seq := 0, time := 0, kind := 1, obj := obj, port := p, lease := lease, card := x.cred.take 16, check := objCheck plain, ref := number } s
  let seq := (s.cust.journal.getLast?.map CRec.seq).getD 0
  let body := x.protect (apduHeader 0x22 obj) plain
  let s := s.modSess p fun y => { y with prepared := seq, bodies := y.bodies + 1 }
  (apduHeader 0x22 obj ++ leBytes 1 body.length ++ body, s)

/-- The PREPARED record of a write, before its commit. -/
def State.preparing (s : State) (p obj : Nat) (plain : Bytes) (lease number : Nat) : CRec :=
  { seq := s.cust.newest + 1, time := s.time64, kind := 1, obj := obj, port := p, lease := lease, card := (s.sess p).cred.take 16, check := objCheck plain, ref := number }

theorem committed_fields (r : CRec) : r.committed.seq = r.seq ∧ r.committed.kind = r.kind ∧ r.committed.obj = r.obj ∧ r.committed.lease = r.lease ∧
    r.committed.ref = r.ref ∧ r.committed.card = r.card ∧ r.committed.check = r.check := by
  unfold CRec.committed
  split
  · exact ⟨rfl, rfl, rfl, rfl, rfl, rfl, rfl⟩
  · exact ⟨rfl, rfl, rfl, rfl, rfl, rfl, rfl⟩

section
variable {p : Nat} {s : State} (runs : s.running = true) (ready : s.cardReady p = true)
include runs ready

omit runs in
theorem idle_of_ready : s.exchanging p = false := by
  unfold State.cardReady at ready
  unfold State.exchanging
  split
  next zero =>
    rw [if_pos zero, decide_eq_true_eq] at ready
    rw [ready]
    rfl
  next one =>
    rw [if_neg one, decide_eq_true_eq] at ready
    rw [ready]
    rfl

/-- A command on a ready port whose preparation leaves the framing goes out as it was prepared. -/
theorem cardCommand_sends {c : CardCmd} {prepare : State → Bytes × State} {again : Bytes} (wire : (prepare s).2.crd.wire = s.crd.wire) :
    ∃ t, cardCommand p c true prepare again none s = t ∧ (if p = 0 then t.out.card else t.out.reader) = s.framed p (prepare s).1 ∧
      t.sess p = ((prepare s).2.sess p).sends c ∧ t.exchanging p = true ∧ t.cust = (prepare s).2.cust := by
  have idle := idle_of_ready ready
  let u := setExchange p true ((prepare s).2.modSess p fun x => x.sends c)
  have goes : cardCommand p c true prepare again none s = sendApdu p (prepare s).1 u := by
    unfold cardCommand
    rw [if_neg (Bool.eq_false_iff.1 idle), if_neg (by simp [runs, ready])]
    rfl
  obtain ⟨out, sess, exchanging, cust⟩ := sendApdu_leaves p (prepare s).1 u
  refine ⟨_, goes, out.trans (framed_congr ?_ p _), sess.trans (by simp [u]), exchanging.trans (by simp [u]), cust.trans (by simp [u])⟩
  exact (wire_setExchange ..).trans ((wire_modSess ..).trans wire)

/-- A command that prepares its bytes alone. -/
theorem cardCommand_plain {c : CardCmd} {b again : Bytes} {ok : Bool} (may : ok = true) :
    Sends s p c b (fun _ => True) (.next (cardCommand p c ok (fun s => (b, s)) again none s)) := by
  subst may
  obtain ⟨t, goes, out, sess, exchanging, -⟩ := cardCommand_sends runs ready (c := c) (prepare := fun s => (b, s)) (again := again) rfl
  exact ⟨t, congrArg Host.Outcome.next goes, out, congrArg Sess.busy sess, exchanging, trivial⟩

/-- The draws, purpose and keys of an AUTH. -/
theorem execAuth_sends (has : 64 ≤ (s.exp 16).qbytes) (selected : (s.sess p).selected = true) (cred : (s.sess p).cred ≠ []) (free : (s.sess p).verifyAt = none) :
    let purpose := (s.sessPurpose p).1
    let chal := (drawIsland 32 s).1
    let eph := (drawIsland 32 (drawIsland 32 s).2).1
    Sends s p .auth ([0x80, 0x12, BitVec.ofNat 8 purpose, 0x00, 64] ++ chal ++ fixLen 32 (Config.pubOfRaw 2 eph) ++
        (if p = 0 ∧ s.crd.proto = false then [] else [0x60]))
      (fun t => (t.sess p).purpose = purpose ∧ (t.sess p).lease = (s.sessPurpose p).2 ∧ (t.sess p).chal = chal ∧ (t.sess p).ephPriv = eph ∧
        (t.sess p).authed = false) (execAuth p none s) := by
  intro purpose chal eph
  have idle := idle_of_ready ready
  have may : (s.islandHas 64 && (s.sess p).selected && (s.sess p).cred ≠ [] && (s.sess p).verifyAt.isNone) = true := by
    rw [show s.islandHas 64 = true from decide_eq_true has]
    simp [selected, cred, free]
  have goes : execAuth p none s = .next (cardCommand p .auth true (authPrepare p purpose (s.sessPurpose p).2) (apduHeader 0x12 purpose) none s) := by
    rw [← may]
    unfold execAuth
    rw [if_neg (Bool.eq_false_iff.1 idle)]
    rfl
  have wire := authPrepare_wire p purpose (s.sessPurpose p).2 s
  obtain ⟨t, sent, out, sess, exchanging, -⟩ := cardCommand_sends runs ready (c := .auth) (again := apduHeader 0x12 purpose) wire
  have le : (authPrepare p purpose (s.sessPurpose p).2 s).2.leOf p 0x60 = if p = 0 ∧ s.crd.proto = false then [] else [0x60] :=
    (leOf_congr wire p 0x60).trans (leOf_eq s p 0x60)
  have prepared : (authPrepare p purpose (s.sessPurpose p).2 s).2.sess p =
      { (drawIsland 32 (drawIsland 32 s).2).2.sess p with purpose := purpose, lease := (s.sessPurpose p).2, chal := chal, ephPriv := eph, authed := false, key := [], bodies := 0 } :=
    sess_modSess ..
  rw [prepared] at sess
  refine ⟨t, goes.trans (congrArg Host.Outcome.next sent), out.trans (congrArg (s.framed p) ?_), congrArg Sess.busy sess, exchanging, congrArg Sess.purpose sess,
    congrArg Sess.lease sess, congrArg Sess.chal sess, congrArg Sess.ephPriv sess, congrArg Sess.authed sess⟩
  rw [← le]
  rfl

theorem execReadObj_sends (may : s.mayMove p = true) : Sends s p (.readObj 0x20) [0x80, 0x20, 0x20, 0x00, 0x00] (fun _ => True) (execReadObj p 0x20 none s) :=
  cardCommand_plain runs ready (by rw [may]; rfl)

theorem execWriteObj_sends {obj : Nat} {plain : Bytes} {lease number : Nat} (may : s.mayMove p = true) (object : s.objectOf p obj = some (plain, lease, number)) :
    let x := s.sess p
    ∃ b, Sends s p (.writeObj obj) ([0x80, 0x22, BitVec.ofNat 8 obj, 0x00] ++ leBytes 1 (x.protect [0x80, 0x22, BitVec.ofNat 8 obj, 0x00] plain).length ++
        x.protect [0x80, 0x22, BitVec.ofNat 8 obj, 0x00] plain)
      (fun t => (t.sess p).bodies = x.bodies + 1 ∧ t.cust.journal = s.cust.journal ++ [b] ∧ (t.sess p).prepared = b.seq ∧ b.kind = 1 ∧ b.obj = obj ∧
        b.lease = lease ∧ b.ref = number ∧ b.card = x.cred.take 16 ∧ b.check = (sha256 plain).take 8) (execWriteObj p obj none s) := by
  intro x
  have goes : execWriteObj p obj none s = .next (cardCommand p (.writeObj obj) true (writePrepare p obj plain lease number) (apduHeader 0x22 obj) none s) := by
    unfold execWriteObj
    rw [object, may]
    rfl
  let b := (s.preparing p obj plain lease number).committed
  obtain ⟨seq, kind, obj', lease', ref, card, check⟩ := committed_fields (s.preparing p obj plain lease number)
  obtain ⟨t, sent, out, sess, exchanging, cust⟩ := cardCommand_sends runs ready (c := .writeObj obj) (prepare := writePrepare p obj plain lease number) (again := apduHeader 0x22 obj) (wire_modSess ..)
  have logged : (writePrepare p obj plain lease number s).2.cust.journal = s.cust.journal ++ [b] := congrArg Cust.journal (cust_modSess p _ _)
  have prepared : (writePrepare p obj plain lease number s).2.sess p =
      { x with prepared := ((s.cust.journal ++ [b]).getLast?.map CRec.seq).getD 0, bodies := x.bodies + 1 } := sess_modSess ..
  rw [List.getLast?_concat] at prepared
  rw [prepared] at sess
  exact ⟨b, t, goes.trans (congrArg Host.Outcome.next sent), out, congrArg Sess.busy sess, exchanging, congrArg Sess.bodies sess,
    (congrArg Cust.journal cust).trans logged, congrArg Sess.prepared sess, kind, obj', lease', ref, card, check⟩

/-- A SEND of the port's buffer. -/
theorem sendRaw_sends (low : 4 ≤ (if p = 0 then s.crd.tx else s.ctl.tx).toNat) (high : (if p = 0 then s.crd.tx else s.ctl.tx).toNat ≤ 261) :
    Sends s p .raw (s.rawApdu p) (fun _ => True) (.next (sendRaw p none s)) :=
  cardCommand_plain runs ready (by simp [low, high])

end

/-! ### The end of an exchange -/

/-- The contact port's count of the card's blocks after an answer. -/
def State.received (s : State) (p n : Nat) : State :=
  if p = 0 && s.crd.proto then s.modCrd fun c => { c with nr := (c.nr + ceilDiv n c.ifsd) % 2 } else s

/-- The port once the exchange has ended. -/
def State.closing (s : State) (p : Nat) : State := setRes p 0 (setExchange p false (s.modSess p Sess.ends))

theorem received_leaves (s : State) (p n : Nat) : (s.received p n).sess p = s.sess p ∧ (s.received p n).cust = s.cust ∧ (s.received p n).leases = s.leases := by
  by_cases t1 : (p = 0 && s.crd.proto) = true
  · have counted : s.received p n = s.modCrd fun c => { c with nr := (c.nr + ceilDiv n c.ifsd) % 2 } := if_pos t1
    rw [counted]
    unfold State.sess
    exact ⟨by split <;> rfl, rfl, rfl⟩
  · have same : s.received p n = s := if_neg t1
    rw [same]
    exact ⟨rfl, rfl, rfl⟩

/-- What an exchange that has ended leaves. -/
structure Closed (p : Nat) (s t : State) : Prop where
  sess : t.sess p = (s.sess p).ends
  idle : t.exchanging p = false
  res : t.portRes p = 0
  cust : t.cust = s.cust
  leases : t.leases = s.leases

theorem closing_closed (s : State) (p n : Nat) : Closed p s ((s.received p n).closing p) := by
  obtain ⟨sess, cust, leases⟩ := received_leaves s p n
  unfold State.closing
  exact ⟨by simp [sess], by simp, by simp, by simp [cust], by simp [leases]⟩

/-- An exchange that ends with a change of the session. -/
theorem Closed.ends {p : Nat} {s t : State} (h : Closed p s t) (f : Sess → Sess) {q : State → Prop} (kept : q (t.modSess p f)) :
    Ends p (f (s.sess p).ends) q (.next (t.modSess p f)) :=
  ⟨_, rfl, by rw [sess_modSess, h.sess], (exchanging_modSess ..).trans h.idle, (portRes_modSess ..).trans h.res, kept⟩

section
variable {p : Nat} {data : Bytes} {s : State} (busy : s.exchanging p = true) (more : (s.sess p).more = none) (got : (s.sess p).got = [])
include busy more got

/-- An answer with status 0x9000 ends the command that is under way. -/
theorem cardCommand_ends {c : CardCmd} (under : (s.sess p).busy = c) (ok : Bool) (prepare : State → Bytes × State) (again : Bytes) :
    cardCommand p c ok prepare again (some (CardAnswer.status data 0x9000)) s = finishCmd p data 0x9000 (s.received p (data.length + 2)) := by
  unfold cardCommand
  rw [if_pos busy, if_pos (by simp [under, more])]
  unfold takeAnswer
  dsimp only
  rw [if_neg (by simp), if_neg (by simp), got]
  rfl

end

/-! What each command's end does once its exchange has ended. -/
section
variable {p : Nat} {data : Bytes} {s : State}

theorem finishCmd_of_select (under : (s.sess p).busy = .select) (empty : data.length = 0) :
    finishCmd p data 0x9000 s = (s.closing p).modSess p fun y => { y with selected := true } := by
  unfold finishCmd
  dsimp only
  rw [under]
  exact if_pos (by simp [empty])

theorem finishCmd_of_getCred (under : (s.sess p).busy = .getCred) (len : data.length = 48) : finishCmd p data 0x9000 s = takeCred p data (s.closing p) := by
  unfold finishCmd
  dsimp only
  rw [under]
  exact if_pos (by simp [len])

theorem finishCmd_of_auth (under : (s.sess p).busy = .auth) (len : data.length = 96) : finishCmd p data 0x9000 s =
    (s.closing p).modSess p fun y => { y with cardEph := data.take 32, sig := data.drop 32, verifyAt := some (s.closing p).pw.now } := by
  unfold finishCmd
  dsimp only
  rw [under]
  exact if_pos (by simp [len])

theorem finishCmd_of_record {plain : Bytes} (under : (s.sess p).busy = .readObj 0x20) (sound : (s.sess p).unprotect (apduHeader 0x20 0x20) data = some plain)
    (len : plain.length = 192) : finishCmd p data 0x9000 s = (s.closing p).modSess p fun y => { y with bodies := y.bodies + 1 } := by
  unfold finishCmd
  dsimp only
  rw [under]
  dsimp only
  rw [if_neg (by simp), sound]
  exact (if_pos rfl).trans (if_pos len)

theorem finishCmd_of_write (under : (s.sess p).busy = .writeObj 0x20) (empty : data.length = 0) :
    finishCmd p data 0x9000 s = outcome 2 (s.sess p).prepared (s.closing p) := by
  unfold finishCmd
  dsimp only
  rw [under]
  dsimp only
  rw [if_pos (by simp [empty])]
  split
  · rfl
  · rfl

theorem finishCmd_of_check {obj : Nat} (under : (s.sess p).busy = .checkObj obj) (len : data.length = 8) :
    finishCmd p data 0x9000 s = resolve p obj true data (s.closing p) := by
  unfold finishCmd
  dsimp only
  rw [under]
  exact congrArg (fun good => resolve p obj good data (s.closing p)) (by simp [len])

/-- The bytes of a buffer from its start. -/
def fill (b : Bytes) (buf : Tbl Byte) : Tbl Byte := (List.range b.length).foldl (fun t i => tset 0 t i (b.getD i 0)) buf

theorem finishCmd_of_raw (under : (s.sess p).busy = .raw) : finishCmd p data 0x9000 s =
    let b := data ++ beBytes 2 0x9000
    if p = 0 then (s.closing p).modCrd fun c => { c with buf := fill b c.buf, rx := BitVec.ofNat 12 b.length }
    else (s.closing p).modCtl fun c => { c with buf := fill b c.buf, rx := BitVec.ofNat 12 b.length } := by
  unfold finishCmd
  dsimp only
  rw [under]
  rfl

end

theorem tget_fill (b : Bytes) (buf : Tbl Byte) (i : Nat) : tget 0 (fill b buf) i = if i < b.length then b.getD i 0 else tget 0 buf i := by
  have upto : ∀ n, tget 0 ((List.range n).foldl (fun t i => tset 0 t i (b.getD i 0)) buf) i = if i < n then b.getD i 0 else tget 0 buf i := by
    intro n
    induction n with
    | zero => rfl
    | succ n ih =>
      rw [List.range_succ, List.foldl_append, List.foldl_cons, List.foldl_nil]
      by_cases here : i = n
      · subst here
        rw [tget_tset_same, if_pos (Nat.lt_succ_self _)]
      · rw [tget_tset_ne _ _ _ here, ih]
        have same : i < n + 1 ↔ i < n := by omega
        simp only [same]
  exact upto b.length

/-! ### Credentials and records -/

theorem position_congr {s t : State} (cust : t.cust = s.cust) (leases : t.leases = s.leases) : t.quorum = s.quorum ∧ (∀ c, t.position c = s.position c) ∧
    ∀ i, t.hasCounted i = s.hasCounted i := by
  have lease : ∀ k, t.lease k = s.lease k := lease_of_leases leases
  have quorum : t.quorum = s.quorum := by
    unfold State.quorum
    rw [cust]
    simp only [lease]
  refine ⟨quorum, fun c => ?_, fun i => ?_⟩
  · unfold State.position
    rw [quorum]
  · unfold State.hasCounted
    rw [cust]

theorem takeCred_of_new {p pos : Nat} {cred : Bytes} {s : State} (found : s.position cred = some pos) (new : s.hasCounted pos = false) :
    takeCred p cred s = s.modSess p fun x => { x with cred := s.quorum.getD pos [] } := by
  unfold takeCred
  extract_lets card open_
  rw [found]
  exact if_neg (by simp [new])

/-- A record that follows PREPARED record q. -/
theorem outcome_of_found {kind q : Nat} {b : CRec} {s : State} (found : s.cust.journal.find? (fun r => r.seq = q && r.kind = 1) = some b) (other : kind ≠ 1) :
    ∃ d, outcome kind q s = bumpGen 0x8020 0 { s with cust := { s.cust with journal := s.cust.journal ++ [d] } } ∧ d.kind = kind ∧ d.ref = q ∧ d.obj = b.obj := by
  unfold outcome
  rw [found]
  refine ⟨{ b with kind := kind, ref := q, seq := s.cust.newest + 1, time := s.time64, commit := [] }, ?_, rfl, rfl, rfl⟩
  unfold journal
  dsimp only
  rw [if_neg other]

/-- A CHECK_OBJ whose value matches, without a ceremony. -/
theorem resolve_of_match {p obj : Nat} {data : Bytes} {r : CRec} {s : State} (found : s.unconfirmed ((s.sess p).cred.take 16) obj = some r) (same : data = r.check)
    (none : s.cust.ceremony = none) : resolve p obj true data s = raiseCust 9 (outcome 5 r.ref s) := by
  have cust : (raiseCust 9 (outcome 5 r.ref s)).cust = (outcome 5 r.ref s).cust := by
    refine raise_cust ?_
    unfold outcome
    split
    · exact none
    · exact none
  have ceremony : (raiseCust 9 (outcome 5 r.ref s)).cust.ceremony = Option.none := by
    rw [cust]
    unfold outcome
    split
    · exact none
    · exact none
  unfold resolve
  rw [found]
  dsimp only
  rw [if_pos (by simp [same]), ceremony]
  refine if_neg ?_
  split
  · simp
  · simp

/-! ### The ends of the commands -/

section
variable {p : Nat} {data : Bytes} {s : State} (busy : s.exchanging p = true) (more : (s.sess p).more = none) (got : (s.sess p).got = [])
include busy more got

theorem select_ends (under : (s.sess p).busy = .select) (empty : data = []) :
    Ends p { (s.sess p).ends with selected := true } (fun t => t.cust = s.cust) (execCardSelect p (some (CardAnswer.status data 0x9000)) s) := by
  obtain ⟨sess, -, -⟩ := received_leaves s p (data.length + 2)
  have closed := closing_closed s p (data.length + 2)
  unfold execCardSelect
  rw [cardCommand_ends busy more got under, finishCmd_of_select (by rw [sess]; exact under) (by rw [empty]; rfl)]
  exact closed.ends _ ((cust_modSess ..).trans closed.cust)

theorem getCred_ends {pos : Nat} (under : (s.sess p).busy = .getCred) (len : data.length = 48) (found : s.position data = some pos) (new : s.hasCounted pos = false) :
    Ends p { (s.sess p).ends with cred := s.quorum.getD pos [] } (fun t => t.cust = s.cust) (execGetCred p (some (CardAnswer.status data 0x9000)) s) := by
  obtain ⟨sess, -, -⟩ := received_leaves s p (data.length + 2)
  have closed := closing_closed s p (data.length + 2)
  obtain ⟨quorum, position, counted⟩ := position_congr closed.cust closed.leases
  unfold execGetCred
  rw [cardCommand_ends busy more got under, finishCmd_of_getCred (by rw [sess]; exact under) len,
    takeCred_of_new ((position data).trans found) ((counted pos).trans new), quorum]
  exact closed.ends _ ((cust_modSess ..).trans closed.cust)

omit busy more got in
theorem closing_now (n : Nat) : ((s.received p n).closing p).pw = s.pw := by
  have modSess : ∀ (f : Sess → Sess) (u : State), (u.modSess p f).pw = u.pw := fun f u => by unfold State.modSess; split <;> rfl
  have setExchange_ : ∀ (on : Bool) (u : State), (setExchange p on u).pw = u.pw := fun on u => by unfold setExchange; split <;> rfl
  have setRes_ : ∀ (v : Nat) (u : State), (setRes p v u).pw = u.pw := fun v u => by unfold setRes; split <;> rfl
  have received : (s.received p n).pw = s.pw := by unfold State.received; split <;> rfl
  exact (setRes_ ..).trans ((setExchange_ ..).trans ((modSess ..).trans received))

theorem auth_ends (under : (s.sess p).busy = .auth) (len : data.length = 96) :
    Ends p { (s.sess p).ends with cardEph := data.take 32, sig := data.drop 32, verifyAt := some s.pw.now } (fun t => t.cust = s.cust)
      (execAuth p (some (CardAnswer.status data 0x9000)) s) := by
  obtain ⟨sess, -, -⟩ := received_leaves s p (data.length + 2)
  have closed := closing_closed s p (data.length + 2)
  have pw := closing_now (p := p) (s := s) (data.length + 2)
  unfold execAuth
  rw [if_pos busy]
  dsimp only
  rw [cardCommand_ends busy more got under, finishCmd_of_auth (by rw [sess]; exact under) len, pw]
  exact closed.ends _ ((cust_modSess ..).trans closed.cust)

theorem readObj_ends {plain : Bytes} (under : (s.sess p).busy = .readObj 0x20) (sound : (s.sess p).unprotect [0x80, 0x20, 0x20, 0x00] data = some plain)
    (len : plain.length = 192) : Ends p { (s.sess p).ends with bodies := (s.sess p).bodies + 1 } (fun t => t.cust = s.cust)
      (execReadObj p 0x20 (some (CardAnswer.status data 0x9000)) s) := by
  obtain ⟨sess, -, -⟩ := received_leaves s p (data.length + 2)
  have closed := closing_closed s p (data.length + 2)
  unfold execReadObj
  dsimp only
  rw [cardCommand_ends busy more got under, finishCmd_of_record (by rw [sess]; exact under) (by rw [sess]; exact sound) len]
  exact closed.ends (fun y => { y with bodies := y.bodies + 1 }) ((cust_modSess ..).trans closed.cust)

theorem writeObj_ends {b : CRec} (under : (s.sess p).busy = .writeObj 0x20) (empty : data = [])
    (found : s.cust.journal.find? (fun r => r.seq = (s.sess p).prepared && r.kind = 1) = some b) :
    Ends p (s.sess p).ends (fun t => ∃ d, t.cust.journal = s.cust.journal ++ [d] ∧ d.kind = 2 ∧ d.ref = (s.sess p).prepared ∧ d.obj = b.obj)
      (execWriteObj p 0x20 (some (CardAnswer.status data 0x9000)) s) := by
  obtain ⟨sess, -, -⟩ := received_leaves s p (data.length + 2)
  have closed := closing_closed s p (data.length + 2)
  obtain ⟨d, logged, kind, ref, obj⟩ := outcome_of_found (kind := 2) (q := (s.sess p).prepared) (s := (s.received p (data.length + 2)).closing p)
    (by rw [closed.cust]; exact found) (by decide)
  unfold execWriteObj
  dsimp only
  rw [cardCommand_ends busy more got under, finishCmd_of_write (by rw [sess]; exact under) (by rw [empty]; rfl), sess, logged]
  refine ⟨_, rfl, closed.sess, closed.idle, closed.res, d, ?_, kind, ref, obj⟩
  exact congrArg (fun c : Cust => c.journal ++ [d]) closed.cust

theorem checkObj_ends {obj : Nat} {r : CRec} (under : (s.sess p).busy = .checkObj obj) (entry : s.unconfirmed ((s.sess p).cred.take 16) obj = some r)
    (none : s.cust.ceremony = .none) (len : data.length = 8) (same : data = r.check)
    (prepared : s.cust.journal.find? (fun b => b.seq = r.ref && b.kind = 1) ≠ .none) :
    ∃ t d, execCheckObj p obj (some (CardAnswer.status data 0x9000)) s = .next t ∧ t.cust.journal = s.cust.journal ++ [d] ∧ d.kind = 5 ∧ d.ref = r.ref ∧
      t.sess p = (s.sess p).ends := by
  obtain ⟨b, prepared⟩ := Option.ne_none_iff_exists'.1 prepared
  obtain ⟨sess, -, -⟩ := received_leaves s p (data.length + 2)
  have closed := closing_closed s p (data.length + 2)
  have entry' : ((s.received p (data.length + 2)).closing p).unconfirmed ((((s.received p (data.length + 2)).closing p).sess p).cred.take 16) obj = some r := by
    unfold State.unconfirmed
    rw [closed.cust, closed.sess]
    exact entry
  have none' : ((s.received p (data.length + 2)).closing p).cust.ceremony = .none := by rw [closed.cust]; exact none
  obtain ⟨d, logged, kind, ref, -⟩ := outcome_of_found (kind := 5) (q := r.ref) (s := (s.received p (data.length + 2)).closing p)
    (by rw [closed.cust]; exact prepared) (by decide)
  unfold execCheckObj
  rw [cardCommand_ends busy more got under, finishCmd_of_check (by rw [sess]; exact under) len, resolve_of_match entry' same none', logged]
  generalize (s.received p (data.length + 2)).closing p = u at closed none' ⊢
  let v := bumpGen 0x8020 0 { u with cust := { u.cust with journal := u.cust.journal ++ [d] } }
  have cust : (raiseCust 9 v).cust = v.cust := raise_cust none'
  have portal : (raiseCust 9 v).portal = v.portal := raiseCust_portal 9 v
  refine ⟨_, d, rfl, ?_, kind, ref, ?_⟩
  · exact (congrArg Cust.journal cust).trans (congrArg (fun c : Cust => c.journal ++ [d]) closed.cust)
  · have kept : (raiseCust 9 v).sess p = v.sess p :=
      (congrArg (fun y : Crd × Tbl (BitVec 8) × Dsp × Ctl × BitVec 47 => if p = 0 then y.1.sess else y.2.2.2.1.sess) portal :)
    exact kept.trans closed.sess

end

/-! ### The buffers -/

theorem answer_bytes (data : Bytes) : (data ++ beBytes 2 0x9000 = data ++ [0x90, 0x00]) ∧ (data ++ beBytes 2 0x9000).length = data.length + 2 := by
  have sw : beBytes 2 0x9000 = [0x90, 0x00] := by decide
  rw [sw, List.length_append]
  exact ⟨rfl, rfl⟩

/-- A buffer and its length once an answer has been put into it. -/
theorem filled (data : Bytes) (buf : Tbl Byte) :
    (BitVec.ofNat 12 (data ++ beBytes 2 0x9000).length).toNat = (data.length + 2) % 4096 ∧
      ∀ i < data.length + 2, tget 0 (fill (data ++ beBytes 2 0x9000) buf) i = (data ++ [0x90, 0x00]).getD i 0 := by
  obtain ⟨bytes, len⟩ := answer_bytes data
  refine ⟨by rw [len]; rfl, fun i low => ?_⟩
  rw [tget_fill, len, if_pos low, bytes]

theorem crdSend_ends {data : Bytes} {s : State} (busy : s.exchanging 0 = true) (more : (s.sess 0).more = none) (got : (s.sess 0).got = []) (under : (s.sess 0).busy = .raw) :
    ∃ t, execCrdSend (some (CardAnswer.status data 0x9000)) s = .next t ∧ t.crd.st = .ready ∧ t.crd.rx.toNat = (data.length + 2) % 4096 ∧
      ∀ i < data.length + 2, tget 0 t.crd.buf i = (data ++ [0x90, 0x00]).getD i 0 := by
  obtain ⟨b, eq⟩ := wrote_eq 0x600B0000 s
  unfold execCrdSend sendRaw
  rw [eq]
  let u : State := { s with bus := b }
  obtain ⟨sess, -, -⟩ := received_leaves u 0 (data.length + 2)
  have ends := cardCommand_ends (p := 0) (data := data) (s := u) busy more got under
  dsimp only
  rw [ends, finishCmd_of_raw (by rw [sess]; exact under)]
  obtain ⟨rx, bytes⟩ := filled data ((u.received 0 (data.length + 2)).closing 0).crd.buf
  exact ⟨_, rfl, rfl, rx, bytes⟩

theorem ctlSend_ends {data : Bytes} {s : State} (busy : s.exchanging 1 = true) (more : (s.sess 1).more = none) (got : (s.sess 1).got = []) (under : (s.sess 1).busy = .raw) :
    ∃ t, execCtlSend (some (CardAnswer.status data 0x9000)) s = .next t ∧ t.ctl.st = .ready ∧ t.ctl.rx.toNat = (data.length + 2) % 4096 ∧
      ∀ i < data.length + 2, tget 0 t.ctl.buf i = (data ++ [0x90, 0x00]).getD i 0 := by
  obtain ⟨b, eq⟩ := wrote_eq 0x600C0000 s
  unfold execCtlSend sendRaw
  rw [eq]
  let u : State := { s with bus := b }
  obtain ⟨sess, -, -⟩ := received_leaves u 1 (data.length + 2)
  have ends := cardCommand_ends (p := 1) (data := data) (s := u) busy more got under
  dsimp only
  rw [ends, finishCmd_of_raw (by rw [sess]; exact under)]
  obtain ⟨rx, bytes⟩ := filled data ((u.received 1 (data.length + 2)).closing 1).ctl.buf
  exact ⟨_, rfl, rfl, rx, bytes⟩

end Sys2Proof.Machine

namespace Sys2Proof.Proofs
open Sys2Proof Sys2Proof.Machine Sys2Proof.Claims

/-- Settles O41: a command goes out as its preparation says, and its answer ends it with what is its own. -/
theorem cardExchanges : Obligations.CardExchanges := by
  intro p obj n data plain s low
  dsimp only
  refine ⟨fun runs ready => ⟨cardCommand_plain runs ready rfl, fun selected => cardCommand_plain runs ready selected, fun selected cred free has =>
      execAuth_sends runs ready has selected cred free, execReadObj_sends runs ready, fun may lease number object => execWriteObj_sends runs ready may object,
      fun authed => cardCommand_plain runs ready authed, fun zero least most => ?_, fun one least most => ?_⟩,
    fun busy more => ?_, fun busy more got => ⟨select_ends busy more got, fun pos under len found new _ => getCred_ends busy more got under len found new,
      auth_ends busy more got, readObj_ends busy more got, fun b under empty found => writeObj_ends busy more got under empty found,
      fun r under entry none len same prepared => checkObj_ends busy more got under entry none len same prepared, fun zero => ?_, fun one => ?_⟩⟩
  · subst zero
    obtain ⟨b, eq⟩ := wrote_eq 0x600B0000 s
    obtain ⟨t, goes, out, rest⟩ := sendRaw_sends (p := 0) (s := { s with bus := b }) runs ready least most
    refine ⟨t, (congrArg (fun u => Host.Outcome.next (sendRaw 0 none u)) eq).trans goes, out.trans (congrArg (s.framed 0) ?_), rest⟩
    unfold State.rawApdu
    simp [and_assoc]
  · subst one
    obtain ⟨b, eq⟩ := wrote_eq 0x600C0000 s
    obtain ⟨t, goes, out, rest⟩ := sendRaw_sends (p := 1) (s := { s with bus := b }) runs ready least most
    exact ⟨t, (congrArg (fun u => Host.Outcome.next (sendRaw 1 none u)) eq).trans goes, out, rest⟩
  · refine ⟨sendCard 0 [0x00, 0xC0, 0x00, 0x00, BitVec.ofNat 8 n] s, ?_, rfl, rfl⟩
    change execGetResponse none s = _
    unfold execGetResponse
    rw [more]
    exact if_neg (by simp [busy])
  · subst zero
    exact crdSend_ends busy more got
  · subst one
    exact ctlSend_ends busy more got

end Sys2Proof.Proofs

/-! PROOFS. The contactless reader (R335-R337). -/

namespace Sys2Proof.Machine
open Sys2Proof Sys2Proof.Claims

/-! ### The reader's part of the state -/

/-- What a reader's command leaves beside its port: memory, the tables and the contact port. -/
def State.reading (s : State) : Ctl × Tbl (BitVec 8) × Dsp × Crd := (s.ctl, s.ram, s.dsp, s.crd)

theorem reading_of_portal {s t : State} (h : t.portal = s.portal) : t.reading = s.reading :=
  (congrArg (fun y : Crd × Tbl (BitVec 8) × Dsp × Ctl × BitVec 47 => (y.2.2.2.1, y.2.1, y.2.2.1, y.1)) h :)

/-- The reader's port is `d` and the rest as before. -/
def ReadsAs (d : Ctl) (s t : State) : Prop := t.reading = (d, s.ram, s.dsp, s.crd)

theorem ReadsAs.parts {d : Ctl} {s t : State} (h : ReadsAs d s t) : t.ctl = d ∧ t.ram = s.ram ∧ t.dsp = s.dsp ∧ t.crd = s.crd :=
  ⟨congrArg (·.1) h, congrArg (·.2.1) h, congrArg (·.2.2.1) h, congrArg (·.2.2.2) h⟩

theorem reads_to {d : Ctl} {s : State} {o : Res} (h : ∃ t, o = .next t ∧ ReadsAs d s t) :
    ∃ t, o = .next t ∧ t.ctl = d ∧ t.ram = s.ram ∧ t.dsp = s.dsp ∧ t.crd = s.crd := by
  obtain ⟨t, goes, reads⟩ := h
  exact ⟨t, goes, reads.parts⟩

/-- An event after a reader's command. -/
theorem ReadsAs.raised {d : Ctl} {s t : State} (h : ReadsAs d s t) (i : Nat) : ReadsAs d s (raiseCust i t) := (reading_of_portal (raiseCust_portal i t)).trans h

/-- The port with the field off. -/
def Ctl.dark (c : Ctl) : Ctl :=
  { c with st := if c.lpcd then .lpcd else .off, card := false, rate := 0, ref := none, wupas := 0, reqas := 0, cards := 0, level := 1, bits := [], uid := [],
           sess := {} }

theorem fieldOff_reads (lastSent : Bool) (s : State) : ReadsAs s.ctl.dark s (fieldOff lastSent s) := by
  have lost : (loseCard 1 lastSent s).reading = ({ s.ctl with sess := {} }, s.ram, s.dsp, s.crd) := by
    unfold loseCard
    extract_lets x t
    have kept : t.reading = s.reading := by
      refine reading_of_portal ?_
      unfold t
      split
      · split
        · exact (raiseCust_portal ..).trans (outcome_portal ..)
        · exact outcome_portal ..
      · rfl
    exact congrArg (fun y : Ctl × Tbl (BitVec 8) × Dsp × Crd => ({ y.1 with sess := {} }, y.2)) kept
  unfold fieldOff ReadsAs
  generalize loseCard 1 lastSent s = t at lost
  obtain ⟨ctl, ram, dsp, crd⟩ := ReadsAs.parts (s := s) lost
  change (_, t.ram, t.dsp, t.crd) = _
  rw [ram, dsp, crd]
  refine congrArg (fun d => (d, s.ram, s.dsp, s.crd)) ?_
  change { t.ctl with st := if t.ctl.lpcd then CtlState.lpcd else CtlState.off, card := false, rate := 0, ref := none, wupas := 0, reqas := 0, cards := 0,
                      level := 1, bits := [], uid := [] } = s.ctl.dark
  rw [ctl]
  rfl

/-! ### Detection and polling -/

section
variable {s : State} (runs : s.running = true)
include runs

theorem readerRow_of {st : CtlState} (here : s.ctl.st = st) (f : State → State) : readerRow st f s = .next (f s) := if_pos (by simp [runs, here])

theorem lpcdPing_refers {amp : Nat} (st : s.ctl.st = .lpcd) (none : s.ctl.ref = none) : ∃ t, execLpcdPing amp s = .next t ∧
    ReadsAs { s.ctl with lastPing := amp, ref := some amp } s t := by
  refine ⟨_, readerRow_of runs st _, congrArg (fun c => (c, s.ram, s.dsp, s.crd)) ?_⟩
  dsimp only [State.modCtl]
  rw [none]

theorem lpcdPing_compares {amp r : Nat} (st : s.ctl.st = .lpcd) (ref : s.ctl.ref = some r) : ∃ t, execLpcdPing amp s = .next t ∧
    ReadsAs (if s.ctl.thresh.toNat * r ≤ 1024 * ((amp - r) + (r - amp)) then { s.ctl with lastPing := amp, st := .poll, wupas := 0, reqas := 0, cards := 0 }
      else { s.ctl with lastPing := amp }) s t := by
  refine ⟨_, readerRow_of runs st _, congrArg (fun c => (c, s.ram, s.dsp, s.crd)) ?_⟩
  dsimp only [State.modCtl]
  rw [ref]

theorem wupa_answered (poll : s.ctl.st = .poll) (first : s.ctl.cards = 0) : ∃ t, execWupa true s = .next t ∧
    ReadsAs { s.ctl with wupas := s.ctl.wupas + 1, st := .anticoll, level := 1, bits := [], uid := [], reqas := 0 } s t := by
  refine ⟨_, (readerRow_of runs poll _).trans (congrArg Host.Outcome.next ((if_neg (by simp [first])).trans (if_pos rfl))), ?_⟩
  exact ReadsAs.raised (by rfl) 11

theorem wupa_silent (poll : s.ctl.st = .poll) (first : s.ctl.cards = 0) (more : s.ctl.wupas + 1 < 3) : ∃ t, execWupa false s = .next t ∧
    ReadsAs { s.ctl with wupas := s.ctl.wupas + 1 } s t :=
  ⟨_, (readerRow_of runs poll _).trans (congrArg Host.Outcome.next ((if_neg (by simp [first])).trans ((if_neg (by decide)).trans (if_pos more)))), rfl⟩

theorem wupa_last (poll : s.ctl.st = .poll) (first : s.ctl.cards = 0) (last : 3 ≤ s.ctl.wupas + 1) : ∃ t, execWupa false s = .next t ∧
    ReadsAs { s.ctl.dark with ref := some s.ctl.lastPing } s t := by
  let u := sendCard 1 [0x52] (s.modCtl fun c => { c with wupas := c.wupas + 1 })
  have off := fieldOff_reads false u
  refine ⟨_, (readerRow_of runs poll _).trans (congrArg Host.Outcome.next ((if_neg (by simp [first])).trans ((if_neg (by decide)).trans (if_neg (Nat.not_lt.2 last))))), ?_⟩
  refine ReadsAs.raised ?_ 12
  exact congrArg (fun y : Ctl × Tbl (BitVec 8) × Dsp × Crd => ({ y.1 with ref := some s.ctl.lastPing }, y.2)) off

theorem reqa_answered (poll : s.ctl.st = .poll) (later : s.ctl.cards ≠ 0) : ∃ t, execReqa true s = .next t ∧
    ReadsAs { s.ctl with st := .anticoll, level := 1, bits := [], uid := [], reqas := 0 } s t :=
  ⟨_, (readerRow_of runs poll _).trans (congrArg Host.Outcome.next ((if_neg later).trans (if_pos rfl))), rfl⟩

theorem reqa_silent (poll : s.ctl.st = .poll) (later : s.ctl.cards ≠ 0) (more : s.ctl.reqas + 1 < 3) : ∃ t, execReqa false s = .next t ∧
    ReadsAs { s.ctl with reqas := s.ctl.reqas + 1 } s t :=
  ⟨_, (readerRow_of runs poll _).trans (congrArg Host.Outcome.next ((if_neg later).trans ((if_neg (by decide)).trans (if_pos more)))), rfl⟩

theorem reqa_last (poll : s.ctl.st = .poll) (later : s.ctl.cards ≠ 0) (last : 3 ≤ s.ctl.reqas + 1) : ∃ t, execReqa false s = .next t ∧
    ReadsAs s.ctl.dark s t :=
  ⟨_, (readerRow_of runs poll _).trans (congrArg Host.Outcome.next ((if_neg later).trans ((if_neg (by decide)).trans (if_neg (Nat.not_lt.2 last))))),
    fieldOff_reads false (sendCard 1 [0x26] (s.modCtl fun c => { c with reqas := c.reqas + 1 }))⟩

end

/-! ### Anticollision and selection -/

section
variable {s : State} (runs : s.running = true) (st : s.ctl.st = .anticoll)
include runs st

theorem anticollision_collides {answer : List Bool} {k : Nat} (none : s.ctl.card = false) (short : s.ctl.bits.length < 40) (least : s.ctl.bits.length ≤ k)
    (most : k ≤ (s.ctl.bits ++ answer).length) (early : k < 32) : ∃ t, execAnticollision answer (some k) s = .next t ∧
      ReadsAs { s.ctl with bits := (s.ctl.bits ++ answer).take k ++ [true] } s t := by
  refine ⟨_, (readerRow_of runs st _).trans (congrArg Host.Outcome.next ((if_neg (by simp [none, short])).trans ((if_neg (by omega)).trans (if_neg ?_)))), rfl⟩
  simp only [Bool.or_eq_true, decide_eq_true_eq]
  omega

theorem anticollision_fills {answer : List Bool} (none : s.ctl.card = false) (short : s.ctl.bits.length < 40) (full : (s.ctl.bits ++ answer).length = 40)
    (bcc : (bitsToBytes (s.ctl.bits ++ answer)).foldl (· ^^^ ·) 0 = 0) : ∃ t, execAnticollision answer .none s = .next t ∧
      ReadsAs { s.ctl with bits := s.ctl.bits ++ answer } s t :=
  ⟨_, (readerRow_of runs st _).trans (congrArg Host.Outcome.next ((if_neg (by simp [none, short])).trans (if_pos (by rw [full, bcc]; rfl)))), rfl⟩

theorem readerSelect_selects {sak : Byte} (none : s.ctl.card = false) (full : s.ctl.bits.length = 40) (done : sak.getLsbD 2 = false) :
    ∃ t, execReaderSelect sak s = .next t ∧
      ReadsAs { s.ctl with card := true, uid := s.ctl.uid ++ (bitsToBytes s.ctl.bits).take 4, rate := 0, sess := {} } s t :=
  ⟨_, (readerRow_of runs st _).trans (congrArg Host.Outcome.next ((if_neg (by simp [none, full])).trans (if_neg (Bool.eq_false_iff.1 done)))), rfl⟩

theorem readerSelect_cascades {sak : Byte} (none : s.ctl.card = false) (full : s.ctl.bits.length = 40) (more : sak.getLsbD 2 = true) (level : s.ctl.level < 3) :
    ∃ t, execReaderSelect sak s = .next t ∧
      ReadsAs { s.ctl with level := s.ctl.level + 1, bits := [], uid := s.ctl.uid ++ slice (bitsToBytes s.ctl.bits) 1 3 } s t :=
  ⟨_, (readerRow_of runs st _).trans (congrArg Host.Outcome.next ((if_neg (by simp [none, full])).trans ((if_pos more).trans (if_neg (Nat.not_le.2 level))))), rfl⟩

theorem rats_readies {ta1 : Byte} {fwi : Nat} (card : s.ctl.card = true) (fits : fwi ≤ 14) : ∃ t, execRats ta1 fwi s = .next t ∧
    ReadsAs { s.ctl with st := .ready, rate := bestRate ta1 } s t :=
  ⟨_, (readerRow_of runs st _).trans (congrArg Host.Outcome.next ((if_neg (by simp [card])).trans (if_neg (Nat.not_lt.2 fits)))), rfl⟩

end

/-! ### Halt, OFF and detection -/

/-- The port that has halted its card. -/
def Ctl.halted (c : Ctl) : Ctl := { c with st := .poll, card := false, rate := 0, reqas := 0, cards := c.cards + 1, bits := [], uid := [], sess := {} }

section
variable {s : State} (runs : s.running = true)
include runs

theorem haltCard_goes (card : s.ctl.card = true) (idle : s.ctl.st ≠ .exchange) (more : s.ctl.cards + 1 < 16) : ReadsAs s.ctl.halted s (haltCard s) := by
  unfold haltCard
  rw [if_neg (by simp [runs, card, idle])]
  exact congrArg State.reading (if_pos more)

theorem haltCard_ends (card : s.ctl.card = true) (idle : s.ctl.st ≠ .exchange) (last : s.ctl.cards + 1 = 16) : ReadsAs { s.ctl.dark with res := 7 } s (haltCard s) := by
  let u := (sendCard 1 ([0x50, 0x00] ++ crcA [0x50, 0x00]) s).modCtl Ctl.halted
  have off := fieldOff_reads false u
  have halts : haltCard s = raiseCust 13 (setRes 1 7 (fieldOff false u)) := by
    unfold haltCard
    rw [if_neg (by simp [runs, card, idle])]
    exact if_neg (by show ¬ s.ctl.cards + 1 < 16; omega)
  rw [halts]
  refine ReadsAs.raised ?_ 13
  exact congrArg (fun y : Ctl × Tbl (BitVec 8) × Dsp × Crd => ({ y.1 with res := 7 }, y.2)) off

end

end Sys2Proof.Machine

namespace Sys2Proof.Proofs
open Sys2Proof Sys2Proof.Machine Sys2Proof.Claims

/-- Settles O42: each command of the running reader leaves the port that the state's row gives. -/
theorem cardReader : Obligations.CardReader := by
  intro amp k answer sak ta1 fwi lastSent s runs
  dsimp only
  obtain ⟨b, wrote_⟩ := wrote_eq 0x600C0000 s
  refine ⟨fun st none => reads_to (lpcdPing_refers runs st none), fun st r ref => reads_to (lpcdPing_compares runs st ref),
    fun poll first => ⟨reads_to (wupa_answered runs poll first), fun more => reads_to (wupa_silent runs poll first more), fun last _ => reads_to (wupa_last runs poll first last)⟩,
    fun poll later => ⟨reads_to (reqa_answered runs poll later), fun more => reads_to (reqa_silent runs poll later more), fun last _ => reads_to (reqa_last runs poll later last)⟩,
    fun st none => ⟨fun short least most early => reads_to (anticollision_collides runs st none short least most early),
      fun short full bcc => reads_to (anticollision_fills runs st none short full bcc), fun full done => reads_to (readerSelect_selects runs st none full done),
      fun full more level => reads_to (readerSelect_cascades runs st none full more level)⟩,
    fun st card fits => reads_to (rats_readies runs st card fits),
    fun card idle more => ⟨reads_to ⟨_, rfl, haltCard_goes runs card idle more⟩, reads_to ⟨_, congrArg (fun u => Host.Outcome.next (haltCard u)) wrote_, ?_⟩⟩,
    fun card idle last => reads_to ⟨_, rfl, haltCard_ends runs card idle last⟩, fun dark => ?_, fun on other => ?_, fun st => reads_to ?_, fun st => reads_to ?_⟩
  · exact haltCard_goes (s := { s with bus := b }) runs card idle more
  · refine congrArg Host.Outcome.next (if_pos ?_)
    rw [wrote_]
    simpa using dark
  · have off := fieldOff_reads lastSent { s with bus := b }
    refine ⟨_, congrArg Host.Outcome.next ((congrArg (ctlOff lastSent) wrote_).trans (if_neg ?_)), off.parts.1, off.parts.2.1⟩
    simp [on, other]
  · refine ⟨_, (if_pos runs).trans (congrArg (fun u => Host.Outcome.next (lpcdEnable true u)) wrote_), ?_⟩
    exact congrArg (fun c => (c, s.ram, s.dsp, s.crd)) (if_pos st)
  · refine ⟨_, (if_pos runs).trans (congrArg (fun u => Host.Outcome.next (lpcdEnable false u)) wrote_), ?_⟩
    exact congrArg (fun c => (c, s.ram, s.dsp, s.crd)) (if_pos st)

end Sys2Proof.Proofs

/-! PROOFS. The tag (R338-R345). -/

namespace Sys2Proof.Machine
open Sys2Proof Sys2Proof.Claims

/-! ### Copies and areas -/

/-- The copy that is served of two. -/
def serve (x y : TagCopy) : Option Nat :=
  if x.valid && y.valid then some (if y.seq.toNat < x.seq.toNat then 0 else 1) else if x.valid then some 0 else if y.valid then some 1 else none

/-- What an area of two copies reads as. -/
def readOf (x y : TagCopy) : Bytes := match serve x y with | some c => (if c = 0 then x else y).data | none => []

theorem serve_le {x y : TagCopy} {c : Nat} (h : serve x y = some c) : c = 0 ∨ c = 1 := by
  unfold serve at h
  split at h
  · cases h; split; exacts [.inl rfl, .inr rfl]
  split at h
  · cases h; exact .inl rfl
  split at h
  · cases h; exact .inr rfl
  · exact nomatch h

section
variable (g : Tag) (a : Nat)

theorem servedOf_eq : g.servedOf a = serve (g.copy a 0) (g.copy a 1) := rfl

theorem area_eq : g.area a = readOf (g.copy a 0) (g.copy a 1) := by
  unfold Tag.area readOf
  rw [servedOf_eq]
  cases h : serve (g.copy a 0) (g.copy a 1) with
  | none => rfl
  | some c => rcases serve_le h with rfl | rfl <;> rfl

theorem target_eq : g.target a = if serve (g.copy a 0) (g.copy a 1) = some 0 then 1 else 0 := by
  unfold Tag.target
  rw [servedOf_eq]
  split
  next h => rw [if_pos h]
  next h => rw [if_neg h]

theorem target_le : g.target a = 0 ∨ g.target a = 1 := by
  rw [target_eq]
  split
  · exact .inr rfl
  · exact .inl rfl

theorem copy_setCopy (b c d : Nat) (x : TagCopy) : (g.setCopy b c x).copy a d = if 2 * a + d = 2 * b + c then x else g.copy a d := by
  by_cases h : 2 * a + d = 2 * b + c
  · rw [if_pos h]
    exact (congrArg (tget {} (tset {} g.copies (2 * b + c) x)) h).trans (tget_tset_same ..)
  · rw [if_neg h]
    exact tget_tset_ne _ _ _ h

variable {g a}

theorem area_setCopy_other {b c : Nat} {x : TagCopy} (other : a ≠ b) (low : c = 0 ∨ c = 1) : (g.setCopy b c x).area a = g.area a := by
  rw [area_eq, area_eq, copy_setCopy, copy_setCopy, if_neg (by omega), if_neg (by omega)]

theorem area_setCopy_target {x : TagCopy} : (g.setCopy a (g.target a) x).area a =
    if serve (g.copy a 0) (g.copy a 1) = some 0 then readOf (g.copy a 0) x else readOf x (g.copy a 1) := by
  rw [area_eq, copy_setCopy, copy_setCopy, target_eq]
  split
  · rw [if_neg (by omega), if_pos rfl]
  · rw [if_pos rfl, if_neg (by omega)]

omit g a in
/-- The copy that is not served may lose its validity and keep its SEQ. -/
theorem readOf_weaker_second {x0 x1 y : TagCopy} (first : serve x0 x1 = some 0) (weaker : y.valid = true → x1.valid = true) (seq : y.seq = x1.seq) :
    readOf x0 y = readOf x0 x1 := by
  have same : serve x0 y = some 0 := by
    unfold serve at first ⊢
    cases v0 : x0.valid with
    | false => rw [v0] at first; cases v1 : x1.valid <;> simp [v1] at first
    | true =>
      cases v : y.valid with
      | false => rfl
      | true => rw [v0, weaker v] at first; rw [seq]; exact first
  unfold readOf
  rw [first, same]
  rfl

omit g a in
theorem readOf_weaker_first {x0 x1 y : TagCopy} (other : serve x0 x1 ≠ some 0) (weaker : y.valid = true → x0.valid = true) (seq : y.seq = x0.seq) :
    readOf y x1 = readOf x0 x1 := by
  have same : serve y x1 = serve x0 x1 := by
    unfold serve at other ⊢
    cases v1 : x1.valid with
    | false =>
      cases v0 : x0.valid with
      | true => rw [v0, v1] at other; exact absurd rfl other
      | false =>
        have v : y.valid = false := Bool.eq_false_iff.2 fun h => Bool.eq_false_iff.1 v0 (weaker h)
        rw [v]
        rfl
    | true =>
      cases v : y.valid with
      | true => rw [weaker v, seq]
      | false =>
        cases v0 : x0.valid with
        | false => rfl
        | true =>
          rw [v0, v1] at other
          by_cases less : x1.seq.toNat < x0.seq.toNat
          · exact absurd (by rw [if_pos (by rfl), if_pos less]) other
          · rw [if_neg less]
            rfl
  have second : ∀ c, serve x0 x1 = some c → c = 1 := fun c h => (serve_le h).resolve_left fun zero => other (by rw [h, zero])
  unfold readOf
  rw [same]
  cases h : serve x0 x1 with
  | none => rfl
  | some c => rw [second c h]; rfl

theorem area_of_weaker {y : TagCopy} (weaker : y.valid = true → (g.copy a (g.target a)).valid = true) (seq : y.seq = (g.copy a (g.target a)).seq) :
    (g.setCopy a (g.target a) y).area a = g.area a := by
  rw [area_setCopy_target, area_eq]
  by_cases first : serve (g.copy a 0) (g.copy a 1) = some 0
  · have target : g.target a = 1 := (target_eq g a).trans (if_pos first)
    rw [target] at weaker seq
    exact (if_pos first).trans (readOf_weaker_second first weaker seq)
  · have target : g.target a = 0 := (target_eq g a).trans (if_neg first)
    rw [target] at weaker seq
    exact (if_neg first).trans (readOf_weaker_first first weaker seq)

theorem cut_weaker (x : TagCopy) (data : Bytes) (n : Nat) : ((x.cut data n).valid = true → x.valid = true) ∧ (x.cut data n).seq = x.seq := by
  unfold TagCopy.cut
  extract_lets b d
  split
  · exact ⟨id, rfl⟩
  · exact ⟨nofun, rfl⟩

/-- A wired commit that stops leaves every area as it was. -/
theorem area_of_cut (b n : Nat) (data : Bytes) : (g.setCopy b (g.target b) ((g.copy b (g.target b)).cut data n)).area a = g.area a := by
  by_cases here : a = b
  · subst here
    exact area_of_weaker (cut_weaker ..).1 (cut_weaker ..).2
  · exact area_setCopy_other here (target_le g b)

/-- A whole commit is served from then on, and no other area changes. -/
theorem install_areas {b : Nat} {data : Bytes} (fresh : (g.copy b 0).seq.toNat < 2 ^ 32 - 1 ∧ (g.copy b 1).seq.toNat < 2 ^ 32 - 1) :
    (g.install b (g.target b) data).area b = data ∧ ∀ a, a ≠ b → (g.install b (g.target b) data).area a = g.area a := by
  refine ⟨?_, fun a other => area_setCopy_other other (target_le g b)⟩
  obtain ⟨f0, f1⟩ := fresh
  unfold Tag.install
  extract_lets seq
  have fits : (BitVec.ofNat 32 seq).toNat = seq := by
    rw [BitVec.toNat_ofNat]
    exact Nat.mod_eq_of_lt (by omega)
  rw [area_setCopy_target]
  unfold readOf
  split
  · unfold serve
    cases v : (g.copy b 0).valid with
    | false => rfl
    | true =>
      rw [if_pos (by rfl), if_neg (by rw [fits]; omega)]
      rfl
  · unfold serve
    cases v : (g.copy b 1).valid with
    | false => rfl
    | true =>
      rw [if_pos (by rfl), if_pos (by rw [fits]; omega)]
      rfl

end

/-! ### Events of the tag -/

theorem raise_tag {e k : Nat} (s : State) : (raise e k s).tag = s.tag := (congrArg State.tag (raise_calm .rfl :) :)
theorem raise_out {e k : Nat} (s : State) : (raise e k s).out = s.out := (congrArg State.out (raise_calm .rfl :) :)

theorem raiseTag_tag (i : Nat) (s : State) : (raiseTag i s).tag = s.tag := by
  unfold raiseTag
  split
  · exact raise_tag s
  · rfl

theorem raiseTag_out (i : Nat) (s : State) : (raiseTag i s).out = s.out := by
  unfold raiseTag
  split
  · exact raise_out s
  · rfl

/-! ### The field -/

section
variable {s : State}

theorem tagMute_of_quiet (quiet : s.readerField = false ∧ s.lcs.state ≠ .scrapped) : s.tagMute = false := by
  simp [State.tagMute, quiet.1, quiet.2]

theorem tagMute_of_loud (loud : ¬(s.readerField = false ∧ s.lcs.state ≠ .scrapped)) : s.tagMute = true := by
  unfold State.tagMute
  cases on : s.readerField with
  | true => rfl
  | false =>
    have scrapped : s.lcs.state = .scrapped := Decidable.byContradiction fun other => loud ⟨on, other⟩
    simp [scrapped]

theorem fieldOn_of_mute (mute : s.tagMute = true) : execTagFieldOn s = .next s := if_pos (by simp [mute])

theorem selection_of_mute (mute : s.tagMute = true) : execTagSelection s = .next s := if_pos (by simp [mute])

theorem fieldOn_of_off (off : s.tag.st = .off) (answers : s.tagMute = false) :
    execTagFieldOn s = .next (raiseTag 14 (s.modTag fun t => { t with st := .idle })) := if_neg (by simp [off, answers])

/-- The state in which a wake leaves the tag, before the commit under way stops. -/
def State.woken (s : State) : State := { (s.modTag fun t => { t with st := .ready }) with out := { s.out with tag := leBytes 2 0x0044 } }

/-- What a wake makes of the commit under way. -/
def Tag.stopped (t : Tag) (c : TagCommit) (x : TagCopy) : Tag :=
  let t := { (if c.why = 4 then t else t.setCopy c.area c.copy x) with commit := none, wres := 1 }
  if c.why = 1 && t.sumPend.isNone then { t with sumPend := some c.data }
  else if c.why = 2 && t.svcPend.isNone then { t with svcPend := some c.data } else t

theorem wake_of_idle {wupa : Bool} {rows : Nat} (waits : s.tag.st = .idle ∨ (wupa = true ∧ s.tag.st = .halt)) (answers : s.tagMute = false)
    (none : s.tag.commit = .none) : execTagWake wupa rows s = .next s.woken := by
  have may : ¬(!(s.tag.st = .idle || (wupa && s.tag.st = .halt)) || s.tagMute) = true := by
    rcases waits with idle | ⟨rfl, halt⟩ <;> simp [*]
  refine (if_neg may).trans ?_
  dsimp only
  split
  · rfl
  next c other => exact nomatch none.symm.trans other

theorem wake_of_commit {wupa : Bool} {rows : Nat} {c : TagCommit} (waits : s.tag.st = .idle ∨ (wupa = true ∧ s.tag.st = .halt))
    (answers : s.tagMute = false) (commit : s.tag.commit = some c) : execTagWake wupa rows s = .next (raiseTag 17 (s.woken.modTag fun t =>
      t.stopped c ((s.tag.copy c.area c.copy).cut c.data (min (64 * rows) c.data.length)))) := by
  have may : ¬(!(s.tag.st = .idle || (wupa && s.tag.st = .halt)) || s.tagMute) = true := by
    rcases waits with idle | ⟨rfl, halt⟩ <;> simp [*]
  refine (if_neg may).trans ?_
  dsimp only
  split
  next other => exact nomatch commit.symm.trans other
  next d other =>
    cases commit.symm.trans other
    rfl

theorem stopped_leaves (t : Tag) (c : TagCommit) (x : TagCopy) : (t.stopped c x).commit = none ∧ (t.stopped c x).wres = 1 ∧
    (t.stopped c x).st = t.st ∧ (t.stopped c x).copies = (if c.why = 4 then t else t.setCopy c.area c.copy x).copies := by
  have st : (if c.why = 4 then t else t.setCopy c.area c.copy x).st = t.st := by split <;> rfl
  unfold Tag.stopped
  extract_lets u
  split
  · exact ⟨rfl, rfl, st, rfl⟩
  split
  · exact ⟨rfl, rfl, st, rfl⟩
  · exact ⟨rfl, rfl, st, rfl⟩

theorem area_congr {g h : Tag} (same : g.copies = h.copies) (a : Nat) : g.area a = h.area a := by
  have copy : ∀ c, g.copy a c = h.copy a c := fun c => congrArg (fun l : Tbl TagCopy => tget {} l (2 * a + c)) same
  rw [area_eq, area_eq, copy, copy]

theorem selection_of_ready (ready : s.tag.st = .ready) (answers : s.tagMute = false) : execTagSelection s = .next
    { (s.modTag fun t => { t with
        st := .active, served := [0, 1, 2, 3, 4].filterMap fun a => (s.tag.servedOf a).map fun c => (a, c) }) with
      out := { s.out with tag := s.selectionAnswers } } := if_neg (by simp [ready, answers])

/-- A list of seven is its elements. -/
theorem eq_of_length_seven {b : Bytes} (length : b.length = 7) :
    b = [b.getD 0 0, b.getD 1 0, b.getD 2 0, b.getD 3 0, b.getD 4 0, b.getD 5 0, b.getD 6 0] := by
  match b, length with
  | [_, _, _, _, _, _, _], _ => rfl

theorem selectionAnswers_eq (s : State) : let u := fun i => (fixLen 7 s.ident.tagUid).getD i 0
    s.selectionAnswers = [0x88, u 0, u 1, u 2, 0x88 ^^^ u 0 ^^^ u 1 ^^^ u 2, 0x04, u 3, u 4, u 5, u 6, u 3 ^^^ u 4 ^^^ u 5 ^^^ u 6, 0x20,
      0x05, 0x78, 0x77, 0x80, 0x02] := by
  intro u
  unfold State.selectionAnswers
  extract_lets level uid
  rw [show uid = [u 0, u 1, u 2, u 3, u 4, u 5, u 6] from eq_of_length_seven (fixLen_length ..)]
  simp [level]

/-- What is served of an area is found in the table that the selection makes. -/
theorem tfind_served (f : Nat → Option Nat) (a : Nat) (l : List Nat) :
    tfind (l.filterMap fun b => (f b).map fun c => (b, c)) a = if a ∈ l then f a else none := by
  induction l with
  | nil => rfl
  | cons b l ih =>
    by_cases here : a = b
    · subst here
      cases h : f a with
      | none => simpa [h] using ih
      | some c => simp [h, tfind]
    · cases h : f b with
      | none => simpa [h, here] using ih
      | some c => simpa [h, tfind, here] using ih

theorem fieldArea_eq {g : Tag} {a : Nat} (served : tfind g.served a = g.servedOf a) : g.fieldArea a = g.area a := by
  unfold Tag.fieldArea Tag.area
  rw [served]

end

/-! ### The application -/

section
variable {s : State}

/-- The application is selected in a session, and the tag answers. -/
def State.tagLive (s : State) : Prop := s.tag.st = .active ∧ s.tag.app = true ∧ s.readerField = false ∧ s.lcs.state ≠ .scrapped

theorem tagApdu_of_live (live : s.tagLive) (f : State → State) : tagApdu f s = .next (f s) := by
  obtain ⟨active, app, quiet⟩ := live
  exact if_pos (by simp [active, app, tagMute_of_quiet quiet])

theorem select_of_active (active : s.tag.st = .active) (answers : s.tagMute = false) :
    execTagSelect s = .next (tagAnswer [] 0x9000 (s.modTag fun t => { t with app := true })) := if_pos (by simp [active, answers])

theorem tagRead_without_right (live : s.tagLive) {off len : Nat} (locked : s.tag.svcOk = false) :
    execTagRead 3 off len s = .next (tagAnswer [] (noRight s.tag.svcPw) s) := by
  refine (tagApdu_of_live live _).trans (congrArg _ ?_)
  dsimp only
  rw [if_neg (by decide), if_pos (by simp [locked])]

theorem tagRead_within (live : s.tagLive) {area off len : Nat} (low : 1 ≤ area) (high : area ≤ 4) (may : area = 3 → s.tag.svcOk = true)
    (within : 32 * off < (s.tag.fieldArea area).length) : execTagRead area off len s =
      .next (tagAnswer (((s.tag.fieldArea area).drop (32 * off)).take (if len = 0 then 256 else len)) 0x9000 s) := by
  refine (tagApdu_of_live live _).trans (congrArg _ ?_)
  dsimp only
  rw [if_neg (by simp; omega), if_neg (by simpa using may), if_neg (by simp; omega)]

/-! ### Passwords -/

section
variable {p2 : Nat} {pw : Bytes} {cut : Bool} (live : s.tagLive) (function : p2 = 1 ∨ p2 = 2) (length : pw.length = 8)
include live function length

theorem tagVerify_of_none_left (left : s.tag.left p2 = 0) :
    execTagVerify p2 ⟨pw, cut⟩ s = .next (raiseTag 16 (tagAnswer [] 0x6983 s)) := by
  refine (tagApdu_of_live live _).trans (congrArg _ ?_)
  dsimp only
  rw [if_neg (by simp; omega), if_neg (by simp [length]), if_pos left]

theorem tagVerify_of_cut (left : s.tag.left p2 ≠ 0) : execTagVerify p2 ⟨pw, true⟩ s =
    .next (s.modTag fun t => (t.setLeft p2 (s.tag.left p2 - 1)).leave .off) := by
  refine (tagApdu_of_live live _).trans (congrArg _ ?_)
  dsimp only
  rw [if_neg (by simp; omega), if_neg (by simp [length]), if_neg left]
  rfl

theorem tagVerify_of_match (left : s.tag.left p2 ≠ 0) (good : slice (s.tag.area 0) (16 * (p2 - 1)) 16 = s.verifier pw) :
    execTagVerify p2 ⟨pw, false⟩ s = .next (tagAnswer [] 0x9000 (s.modTag fun t =>
      let t := t.setLeft p2 8
      if p2 = 1 then { t with noteOk := true } else { t with svcOk := true })) := by
  refine (tagApdu_of_live live _).trans (congrArg _ ?_)
  dsimp only
  rw [if_neg (by simp; omega), if_neg (by simp [length]), if_neg left, if_neg nofun, if_pos good]

theorem tagVerify_of_mismatch (left : s.tag.left p2 ≠ 0) (bad : slice (s.tag.area 0) (16 * (p2 - 1)) 16 ≠ s.verifier pw) :
    execTagVerify p2 ⟨pw, false⟩ s = .next (raiseTag 15 (tagAnswer [] (0x63C0 + (s.tag.left p2 - 1))
      (s.modTag fun t => t.setLeft p2 (s.tag.left p2 - 1)))) := by
  refine (tagApdu_of_live live _).trans (congrArg _ ?_)
  dsimp only
  rw [if_neg (by simp; omega), if_neg (by simp [length]), if_neg left, if_neg nofun, if_neg bad]

end

/-! ### The note -/

/-- `b` with `d` put over it from `o`. -/
def overlay (b : Bytes) (o : Nat) (d : Bytes) : Bytes := b.take o ++ d ++ b.drop (o + d.length)

theorem overlay_length {b d : Bytes} {o : Nat} (within : o + d.length ≤ b.length) : (overlay b o d).length = b.length := by
  simp [overlay]
  omega

theorem overlay_getElem? {b d : Bytes} {o : Nat} (within : o + d.length ≤ b.length) (i : Nat) :
    (overlay b o d)[i]? = if o ≤ i ∧ i < o + d.length then d[i - o]? else b[i]? := by
  unfold overlay
  have front : (b.take o).length = o := by simp; omega
  rw [List.append_assoc]
  by_cases low : i < o
  · rw [List.getElem?_append_left (by omega), List.getElem?_take_of_lt low, if_neg (by omega)]
  · rw [List.getElem?_append_right (by omega), front]
    by_cases mid : i < o + d.length
    · rw [List.getElem?_append_left (by omega), if_pos (by omega)]
    · rw [List.getElem?_append_right (by omega), List.getElem?_drop, if_neg (by omega)]
      congr 1
      omega

theorem noteWrite_within (live : s.tagLive) {off : Nat} {data : Bytes} (may : s.tag.noteOk = true) (low : 32 * off < 512) (short : data.length ≤ 224)
    (within : 32 * off + data.length ≤ 512) : execNoteWrite off data s =
      .next (tagAnswer [] 0x9000 (s.modTag fun t => { t with stage := overlay (fixLen 512 s.tag.stage) (32 * off) data })) := by
  refine (tagApdu_of_live live _).trans (congrArg _ ?_)
  dsimp only
  rw [if_neg (by simp [may]), if_neg (by omega), if_neg (by simp; omega)]
  rfl

theorem noteCommit_within (live : s.tagLive) {len : Nat} (may : s.tag.noteOk = true) (short : len ≤ 512) : execNoteCommit len s =
    .next (raiseTag 18 (tagAnswer [] 0x9000 (s.modTag fun t => t.install 2 (t.target 2) (fixLen len t.stage)))) := by
  refine (tagApdu_of_live live _).trans (congrArg _ ?_)
  rw [if_neg (by simp [may]), if_neg (by omega)]

theorem getD_fixLen {n i : Nat} (b : Bytes) (below : i < n) : (fixLen n b).getD i 0 = b.getD i 0 := by
  rw [List.getD_eq_getElem?_getD, List.getD_eq_getElem?_getD, getElem?_fixLen, if_pos below]
  rfl

/-! ### The wired side -/

theorem startCommit_of_free {area why : Nat} {data : Bytes} (free : s.tag.commit = none) (quiet : s.tag.fieldBusy = false) :
    startCommit area data why s =
      s.modTag fun t => { t with wres := 2, commit := some { area := area, copy := t.target area, data := data, at_ := s.pw.now, why := why } } :=
  (if_neg (by simp [free])).trans (if_neg (by simp [quiet]))

theorem startCommit_of_busy {area why : Nat} {data : Bytes} (free : s.tag.commit = none) (busy : s.tag.fieldBusy = true) :
    startCommit area data why s = raiseTag 17 (s.modTag fun t => { t with wres := 1 }) :=
  (if_neg (by simp [free])).trans (if_pos busy)

theorem fieldBusy_iff {g : Tag} : g.fieldBusy = true ↔ g.st = .ready ∨ g.st = .active := by simp [Tag.fieldBusy]

theorem fieldBusy_of_not {g : Tag} (quiet : ¬(g.st = .ready ∨ g.st = .active)) : g.fieldBusy = false :=
  Bool.eq_false_iff.2 fun busy => quiet (fieldBusy_iff.1 busy)

theorem tagWcmtGo_of_fit {area len : Nat} (runs : s.islandRuns = true) (free : s.tag.commit = none) (low : area ≤ 4) (fits : len ≤ tagSize area) :
    execTagWcmtGo area len s = .next (startCommit area ((List.range len).map fun i => tget 0 s.tag.wbuf i) 0 s) := by
  refine (if_pos runs).trans (congrArg _ (if_neg ?_))
  simp [free]
  omega

theorem tryPending_of_none (sum : s.tag.sumPend = none) (svc : s.tag.svcPend = none) : tryPending s = s := by
  unfold tryPending
  rw [sum, svc]
  split <;> rfl

theorem tryPending_of_summary {d : Bytes} (free : s.tag.commit = none) (waits : s.tag.sumPend = some d) (quiet : s.tag.fieldBusy = false) :
    tryPending s = s.modTag fun t =>
      { t with wres := 2, sumPend := none, commit := some { area := 4, copy := t.target 4, data := d, at_ := s.pw.now, why := 1 } } := by
  unfold tryPending
  rw [if_neg (by simp [free]), waits]
  dsimp only
  rw [startCommit_of_free free quiet]
  exact if_pos rfl

theorem tagCommitDone_of_commit {c : TagCommit} (commit : s.tag.commit = some c) (sum : s.tag.sumPend = none) (svc : s.tag.svcPend = none) :
    execTagCommitDone s = .next (s.modTag fun t =>
      { (if c.why = 4 then t.setLeft c.area 8 else t.install c.area c.copy c.data) with commit := none, wres := 0 }) := by
  unfold execTagCommitDone
  rw [commit]
  refine congrArg _ (tryPending_of_none ?_ ?_)
  · dsimp only [State.modTag]
    split
    · exact (by unfold Tag.setLeft; split <;> rfl : (s.tag.setLeft c.area 8).sumPend = s.tag.sumPend).trans sum
    · exact sum
  · dsimp only [State.modTag]
    split
    · exact (by unfold Tag.setLeft; split <;> rfl : (s.tag.setLeft c.area 8).svcPend = s.tag.svcPend).trans svc
    · exact svc

end

/-! ### Entries -/

/-- A field that is put whole over an area is read back. -/
theorem slice_overlay_same {b d : Bytes} {o : Nat} (within : o + d.length ≤ b.length) : slice (overlay b o d) o d.length = d := by
  refine List.ext_getElem? fun i => ?_
  unfold slice
  rw [getElem?_fixLen, List.getElem?_drop, overlay_getElem? within]
  by_cases low : i < d.length
  · rw [if_pos low, if_pos (by omega), Nat.add_sub_cancel_left, List.getElem?_eq_getElem low]
    rfl
  · rw [if_neg low, List.getElem?_eq_none (by omega)]

/-- A field beside it reads as before. -/
theorem slice_overlay_other {b d : Bytes} {o k n : Nat} (within : o + d.length ≤ b.length) (apart : k + n ≤ o ∨ o + d.length ≤ k) :
    slice (overlay b o d) k n = slice b k n := by
  refine List.ext_getElem? fun i => ?_
  unfold slice
  rw [getElem?_fixLen, getElem?_fixLen]
  by_cases low : i < n
  · rw [if_pos low, if_pos low, List.getElem?_drop, List.getElem?_drop, overlay_getElem? within, if_neg (by omega)]
  · rw [if_neg low, if_neg low]

theorem verifier_length (s : State) (pw : Bytes) : (s.verifier pw).length = 16 := by
  simp [State.verifier, sha256, fixLen_length]

/-- What entry 0x8010 does. -/
def passwordEntry (sub : Nat) (value : Bytes) (s : State) : DStat × State :=
  if s.tag.commit.isSome then (.busy, s)
  else
    let c := fixLen 512 (s.tag.area 0)
    let o := 16 * (sub - 1)
    let t := startCommit 0 (c.take o ++ s.verifier value ++ c.drop (o + 16)) 3 s
    (if t.tag.commit.isSome then .ok else .busy, t)

theorem execTagPasswordWrite_of_entry {r : Req} {value : Bytes} {s : State} (index : r.index = 0x8010) (sub : r.sub = 1 ∨ r.sub = 2) :
    exec (.tagPasswordWrite r value) s = .next (writeEntry r { officer := true } 8 value (passwordEntry r.sub value) s) :=
  if_neg (by rcases sub with sub | sub <;> simp [index, sub])

theorem passwordEntry_of_free {sub : Nat} {value : Bytes} {s : State} (free : s.tag.commit = none) (quiet : s.tag.fieldBusy = false) :
    passwordEntry sub value s = (.ok, s.modTag fun t => { t with
      wres := 2, commit := some { area := 0, copy := t.target 0, data := overlay (fixLen 512 (s.tag.area 0)) (16 * (sub - 1)) (s.verifier value), at_ := s.pw.now, why := 3 } }) := by
  unfold passwordEntry
  rw [if_neg (by simp [free])]
  dsimp only
  rw [startCommit_of_free free quiet, overlay, verifier_length]
  exact congrArg (Prod.mk · _) (if_pos rfl)

/-- What entry 0x8011 does. -/
def attemptsEntry (sub : Nat) (value : Bytes) (s : State) : DStat × State :=
  if 2 ≤ leNat value then (.range, s)
  else if leNat value = 0 then (.ok, s)
  else if s.tag.commit.isSome then (.busy, s)
  else
    let t := startCommit sub [] 4 s
    (if t.tag.commit.isSome then .ok else .busy, t)

theorem execAttemptsReset_of_entry {r : Req} {value : Bytes} {s : State} (index : r.index = 0x8011) (sub : r.sub = 1 ∨ r.sub = 2) :
    exec (.attemptsReset r value) s = .next (writeEntry r { officer := true } 1 value (attemptsEntry r.sub value) s) :=
  if_neg (by rcases sub with sub | sub <;> simp [index, sub])

theorem attemptsEntry_of_free {sub : Nat} {s : State} (free : s.tag.commit = none) (quiet : s.tag.fieldBusy = false) :
    attemptsEntry sub [1] s = (.ok, s.modTag fun t =>
      { t with wres := 2, commit := some { area := sub, copy := t.target sub, data := [], at_ := s.pw.now, why := 4 } }) := by
  unfold attemptsEntry
  rw [if_neg (by decide), if_neg (by decide), if_neg (by simp [free])]
  dsimp only
  rw [startCommit_of_free free quiet]
  exact congrArg (Prod.mk · _) (if_pos rfl)

theorem execOfficerQuorumWrite_of_m {r : Req} {value : Bytes} {s : State} (index : r.index = 0x8000) (sub : r.sub = 1) :
    exec (.officerQuorumWrite r value) s = .next (writeEntry r { host := s.lcs.state = .claimed, officer := true } 1 value (officerQuorum r value) s) := by
  refine (if_neg (by simp [index, sub])).trans ?_
  rw [if_pos (by omega)]

theorem officerQuorum_of_m {r : Req} {value : Bytes} {s : State} (sub : r.sub = 1) (host : s.isOfficer r.ep = false) (low : 1 ≤ leNat value)
    (high : leNat value ≤ s.cust.n) : officerQuorum r value s = (.ok, { s with cust := { s.cust with m := leNat value } }) := by
  unfold officerQuorum
  dsimp only
  rw [if_pos sub, if_pos (by simp [low, high])]
  exact congrArg (Prod.mk DStat.ok) (if_neg (by simpa [State.isOfficer] using host))

end Sys2Proof.Machine

namespace Sys2Proof.Proofs
open Sys2Proof Sys2Proof.Machine Sys2Proof.Claims

/-- Settles O43. A wired commit writes the copy that is not served, so that a stop of it leaves what each area reads; a whole one has the higher SEQ. -/
theorem tagStore : Obligations.TagStore := by
  unfold Obligations.TagStore
  intro wupa rows area off len p2 data r s g quiet u gone live tells busy fresh left others
  have quiets : ¬busy → g.fieldBusy = false := fieldBusy_of_not
  refine ⟨fun loud => ⟨fieldOn_of_mute (tagMute_of_loud loud), selection_of_mute (tagMute_of_loud loud)⟩,
    fun off' quiet' => ⟨_, fieldOn_of_off off' (tagMute_of_quiet quiet'), raiseTag_tag ..⟩, rfl, fun active => if_pos active, ?wake, ?selection,
    fun active quiet' => ⟨_, select_of_active active (tagMute_of_quiet quiet'), rfl, rfl⟩, ?noRight, ?read, ?verify, ?spent, ?noteWrite, ?noteCommit,
    ?go, ?done, ?retry, ?password, ?attempts, ?quorum, ?field⟩
  case wake =>
    intro waits quiet'
    rcases Option.eq_none_or_eq_some g.commit with commit | ⟨c, commit⟩
    · exact ⟨_, wake_of_idle waits (tagMute_of_quiet quiet') commit, rfl, commit, fun _ => ⟨rfl, rfl⟩, fun c some => nomatch commit.symm.trans some⟩
    · have runs := wake_of_commit (rows := rows) waits (tagMute_of_quiet quiet') commit
      obtain ⟨free, busy', st, copies⟩ := stopped_leaves s.woken.tag c ((s.tag.copy c.area c.copy).cut c.data (min (64 * rows) c.data.length))
      refine ⟨_, runs, ?_, ?_, fun none' => absurd (commit.symm.trans none') nofun, fun d same target => ?_⟩
      · rw [raiseTag_tag]; exact st
      · rw [raiseTag_tag]; exact free
      · cases commit.symm.trans same
        rw [raiseTag_tag]
        refine ⟨busy', fun a => (area_congr copies a).trans ?_⟩
        split
        · exact area_congr rfl a
        · rw [target]
          exact (area_congr rfl a).trans (area_of_cut (g := g) c.area _ c.data)
  case selection =>
    intro ready quiet'
    refine ⟨_, selection_of_ready ready (tagMute_of_quiet quiet'), rfl, ?_, rfl, fun a low => ?_⟩
    · exact selectionAnswers_eq s
    · refine (fieldArea_eq ?_).trans (area_congr rfl a)
      exact (tfind_served s.tag.servedOf a _).trans (if_pos (by simp; omega))
  case noRight =>
    rintro live' - - rfl locked
    exact ⟨_, tagRead_without_right live' locked, rfl, rfl⟩
  case read =>
    intro live' low high may within
    exact ⟨_, tagRead_within live' low high may within, rfl, rfl⟩
  case verify =>
    intro live' function length some
    refine ⟨fun good => ⟨_, tagVerify_of_match live' function length some good, rfl, ?_⟩, fun bad => ?_, ?_⟩
    · rcases function with rfl | rfl <;> rfl
    · exact ⟨_, tagVerify_of_mismatch live' function length some bad, congrArg Out.tag (raiseTag_out ..), raiseTag_tag ..⟩
    · exact tagVerify_of_cut live' function length some
  case spent =>
    intro live' function length none cut
    exact ⟨_, tagVerify_of_none_left live' function length none, congrArg Out.tag (raiseTag_out ..), raiseTag_tag ..⟩
  case noteWrite =>
    intro live' may low short within
    have fits : 32 * off + data.length ≤ (fixLen 512 g.stage).length := by rw [fixLen_length]; exact within
    refine ⟨_, noteWrite_within live' may low short within, rfl, rfl, (overlay_length fits).trans (fixLen_length ..), fun i below => ?_⟩
    refine (List.getD_eq_getElem?_getD ..).trans ?_
    refine (congrArg (Option.getD · 0) (overlay_getElem? fits i)).trans ?_
    split
    · exact (List.getD_eq_getElem?_getD ..).symm
    · exact (List.getD_eq_getElem?_getD ..).symm.trans (getD_fixLen _ below)
  case noteCommit =>
    intro live' may short fresh'
    refine ⟨_, noteCommit_within live' may short, congrArg Out.tag (raiseTag_out ..), ?_, fun b other => ?_⟩
    · rw [raiseTag_tag]; exact (install_areas fresh').1
    · rw [raiseTag_tag]; exact (install_areas fresh').2 b other
  case go =>
    intro runs free low fits
    refine ⟨fun idle => ?_, fun busy' => ?_⟩
    · rw [show exec (.tagWcmtGo area len) s = _ from tagWcmtGo_of_fit runs free low fits, startCommit_of_free free (quiets idle)]
      rfl
    · exact ⟨_, (tagWcmtGo_of_fit runs free low fits).trans (congrArg _ (startCommit_of_busy free (fieldBusy_iff.2 busy'))), raiseTag_tag ..⟩
  case done =>
    intro c commit sum svc
    have runs := tagCommitDone_of_commit commit sum svc
    refine ⟨fun other target fresh' => ?_, fun attempts => runs.trans (congrArg _ ?_)⟩
    · obtain ⟨whole, rest⟩ := install_areas (g := g) (data := c.data) fresh'
      refine ⟨{ s with tag := { g.install c.area c.copy c.data with commit := none, wres := 0 } }, runs.trans (congrArg _ ?_), ?_, fun b away => ?_, rfl, rfl,
        rfl⟩
      · unfold State.modTag
        dsimp only
        rw [if_neg other]
      · rw [target]
        exact (area_congr rfl _).trans whole
      · rw [target]
        exact (area_congr rfl _).trans (rest b away)
    · unfold State.modTag
      dsimp only
      rw [if_pos attempts]
      rfl
  case retry =>
    intro d runs boundary free waits idle
    refine (if_pos (by simp [runs, boundary])).trans (congrArg _ ?_)
    exact tryPending_of_summary free waits (quiets idle)
  case password =>
    intro h officer index sub function length free idle
    rw [← sub] at function ⊢
    have visible : s.hidden r = false := visible_common (by rw [index]; decide) (by omega)
    obtain ⟨b, e, n, seen⟩ := counted_eq' r s
    have tag : (s.counted r).tag = g := by rw [seen]
    have effect := passwordEntry_of_free (sub := r.sub) (value := data) (s := s.counted r) (by rw [tag]; exact free) (by rw [tag]; exact quiets idle)
    have verifier : (s.counted r).verifier data = s.verifier data := by rw [seen]; rfl
    rw [tag, verifier] at effect
    refine answers_officer (execTagPasswordWrite_of_entry index function) h visible officer rfl length (by decide) effect fun c none => ?_
    have long : 16 * (r.sub - 1) + (s.verifier data).length ≤ (fixLen 512 (g.area 0)).length := by
      rw [verifier_length, fixLen_length]
      omega
    refine ⟨_, rfl, rfl, congrArg (Tag.target · 0) tag, ?_, ?_⟩
    · have same := slice_overlay_same long
      rw [verifier_length] at same
      exact same
    · refine (slice_overlay_other long ?_).trans (slice_fixLen (by omega) _)
      rw [verifier_length]
      omega
  case attempts =>
    intro h officer index sub function one free idle
    rw [← sub] at function ⊢
    subst one
    have visible : s.hidden r = false := visible_common (by rw [index]; decide) (by omega)
    obtain ⟨b, e, n, seen⟩ := counted_eq' r s
    have tag : (s.counted r).tag = g := by rw [seen]
    have now : (s.counted r).pw.now = s.pw.now := by rw [seen]
    have effect := attemptsEntry_of_free (sub := r.sub) (s := s.counted r) (by rw [tag]; exact free) (by rw [tag]; exact quiets idle)
    refine answers_officer (execAttemptsReset_of_entry index function) h visible officer rfl rfl (by decide) effect fun c none => ?_
    refine (?_ : ({ (s.counted r).tag with wres := 2, commit := _ } : Tag) = _)
    rw [tag, now]
  case quorum =>
    intro h host plain claimed index sub length low high
    have visible : s.hidden r = false := visible_common (by rw [index]; decide) (by omega)
    obtain ⟨b, e, n, seen⟩ := counted_eq' r s
    have effect := officerQuorum_of_m (value := data) (s := s.counted r) sub (by rw [seen, host]; exact plain) low (by rw [seen]; exact high)
    refine answers_host (execOfficerQuorumWrite_of_m index sub) h host (by rw [index]; exact nofun) (by simp [claimed]) length (by decide) effect
      (aside_respond ?_)
    rw [seen]
    rfl
  case field =>
    intro h host plain field index sub short
    have visible : s.hidden r = false := visible_common (by rw [index]; decide) (by omega)
    have refused : s.allowed r.ep { host := s.lcs.state = .claimed, officer := true } = false := by
      rw [host]
      simp [State.allowed, ownRole, plain, field]
    exact answers_respond ((execOfficerQuorumWrite_of_m index sub).trans (congrArg _ (writeEntry_of_refused h visible refused short)))
      (aside_respond (aside_counted r s))

end Sys2Proof.Proofs

/-! PROOFS. The SPDM responder (R269, R369-R371, R387). -/

namespace Sys2Proof.Machine
open Sys2Proof Sys2Proof.Claims

/-! ### What the island's signatures leave -/

theorem faultCheck_calm {q : Nat} {s t : State} (h : Same State.calm s t) : Same State.calm s (faultCheck q t) := by
  unfold faultCheck
  extract_lets u
  have event : Same State.calm s u := raise_calm h
  exact .ite (event.same (by rfl)) (.ite (event.same (by rfl)) event)

theorem islandCutter_calm {good : Bool} {sig : Bytes} {s t : State} (h : Same State.calm s t) : Same State.calm s (islandCutter good sig t).2 := by
  unfold islandCutter
  split
  · exact h
  · exact faultCheck_calm h

theorem signOutcome_calm {q k : Nat} {bad : Bool} {xi ctx msg rnd : Bytes} {s t : State} (h : Same State.calm s t) :
    Same State.calm s (signOutcome q k bad xi ctx msg rnd t).2.2 := by
  unfold signOutcome
  extract_lets u sig
  have counted : Same State.calm s u := h.same (by rfl)
  split
  · exact raise_calm (counted.same (by rfl))
  · split
    · exact counted
    · exact faultCheck_calm counted

theorem islandMl_calm {xi msg rnd : Bytes} {s t : State} (h : Same State.calm s t) : Same State.calm s (islandMl xi msg rnd t).2 := by
  have signed := signOutcome_calm (q := 82) (k := 0xFF) (bad := false) (xi := xi) (ctx := []) (msg := msg) (rnd := rnd) h
  unfold islandMl
  generalize signOutcome 82 0xFF false xi [] msg rnd t = r at signed ⊢
  split
  · exact signed
  · exact signed

/-- An ML-DSA-65 signature within its attempts that verifies is released. -/
theorem islandMl_of_good {xi msg rnd : Bytes} (attempts : Config.mldsaAttemptsRaw xi [] msg rnd ≤ 256)
    (good : Config.mldsaVerify (mldsaPub xi) [] msg (mldsaSig xi [] msg rnd) = true) (s : State) : (islandMl xi msg rnd s).1 = some (mldsaSig xi [] msg rnd) := by
  have within : limitReached xi [] msg rnd = false := decide_eq_false (by omega)
  have signed : signOutcome 82 0xFF false xi [] msg rnd s =
      (0, mldsaSig xi [] msg rnd, s.modEngine 82 fun e => { e with sigs := satAdd e.sigs 1, atts := satAdd e.atts (attemptsOf xi [] msg rnd) }) := by
    unfold signOutcome
    rw [within]
    exact (if_neg Bool.false_ne_true).trans (if_pos (by rw [good]; rfl))
  unfold islandMl
  rw [signed]
  rfl

/-! ### Connections and responses -/

section
variable (c : Nat) (x : SConn) (s : State)

theorem conn_congr {s t : State} (same : s.spdm.conns = t.spdm.conns) (c : Nat) : s.conn c = t.conn c :=
  congrArg (fun l : Tbl SConn => tget ({} : SConn) l c) same

theorem conn_setConn : (s.setConn c x).conn c = x := tget_tset_same ..

variable {c s}

theorem not_signing (idle : ∀ m, s.spdm.signing = some m → m.conn ≠ c) : (s.spdm.signing.any fun m => m.conn = c) = false := by
  cases h : s.spdm.signing with
  | none => rfl
  | some m => exact decide_eq_false (idle m h)

/-- A request that needs phase `n` of its connection is served. -/
theorem spdmAt_of_phase {n : Nat} {f : SConn → State → State} (open_ : s.spdmOpen c = true) (idle : ∀ m, s.spdm.signing = some m → m.conn ≠ c)
    (free : s.pfl.upd = none) (phase : n ≤ (s.conn c).phase) : spdmAt c n f s = .next (f (s.conn c) s) := by
  have waits := not_signing idle
  refine (if_neg (by simp [open_, waits])).trans ((if_neg (by simp [free])).trans (if_neg (by omega)))

theorem spdmAt_of_early {n : Nat} {f : SConn → State → State} (open_ : s.spdmOpen c = true) (idle : ∀ m, s.spdm.signing = some m → m.conn ≠ c)
    (free : s.pfl.upd = none) (phase : (s.conn c).phase < n) : spdmAt c n f s = .next (spdmError c eUnexpected s) := by
  have waits := not_signing idle
  refine (if_neg (by simp [open_, waits])).trans ((if_neg (by simp [free])).trans (if_pos phase))

theorem spdmAt_of_update {n : Nat} {f : SConn → State → State} (open_ : s.spdmOpen c = true) (idle : ∀ m, s.spdm.signing = some m → m.conn ≠ c)
    (update : s.pfl.upd ≠ none) : spdmAt c n f s = .next (spdmError c eBusy s) := by
  have waits := not_signing idle
  refine (if_neg (by simp [open_, waits])).trans (if_pos (Option.isSome_iff_ne_none.2 update))

theorem spdmSend_of_short {ver code p1 p2 : Nat} {b : Bytes} (short : b.length ≤ 8188) (s : State) : spdmSend ver code p1 p2 b s =
    { s with out := { s.out with spdm := leBytes 1 ver ++ leBytes 1 code ++ leBytes 1 p1 ++ leBytes 1 p2 ++ b } } := by
  unfold spdmSend
  rw [if_neg (by simp [spdmMax]; omega)]

theorem spdmError_out (c code : Nat) (s : State) :
    (spdmError c code s).out.spdm = leBytes 1 (max 0x10 (s.conn c).ver) ++ leBytes 1 0x7F ++ leBytes 1 code ++ leBytes 1 0 ++ [] := rfl

/-- A response sent. -/
theorem responds_of_send {ver code p1 p2 : Nat} {b : Bytes} {t : State} {o : Res} {p : State → Prop} (done : o = .next (spdmSend ver code p1 p2 b t))
    (short : b.length ≤ 8188) (leaves : ∀ out, p { t with out := out }) : Responds ver code p1 p2 b p o := by
  rw [spdmSend_of_short short] at done
  exact ⟨_, done, rfl, leaves _⟩

theorem responds_of_error {code : Nat} {o : Res} (done : o = .next (spdmError c code s)) :
    Responds (max 0x10 (s.conn c).ver) 0x7F code 0 [] (fun t => { t with out := s.out } = s) o :=
  responds_of_send done (by decide) fun _ => rfl

end

/-! ### Negotiation and certificates -/

section
variable {s : State} {c : Nat} (open_ : s.spdmOpen c = true) (idle : ∀ m, s.spdm.signing = some m → m.conn ≠ c)
include open_ idle

theorem spdmGetDigests_of_update (update : s.pfl.upd ≠ none) : execSpdmGetDigests c s = .next (spdmError c eBusy s) :=
  spdmAt_of_update open_ idle update

theorem spdmGetCapabilities_of_early (free : s.pfl.upd = none) (early : (s.conn c).phase = 0) (ver : Nat) :
    execSpdmGetCapabilities c ver s = .next (spdmError c eUnexpected s) :=
  spdmAt_of_early open_ idle free (by omega)

variable (free : s.pfl.upd = none)
include free

theorem spdmGetVersion_is : execSpdmGetVersion c s = .next (spdmSend 0x10 0x04 0 0 [0, 2, 0x00, 0x12, 0x00, 0x13] (s.setConn c { phase := 1 })) :=
  spdmAt_of_phase open_ idle free (Nat.zero_le _)

theorem spdmGetCapabilities_of_version {ver : Nat} (phase : 1 ≤ (s.conn c).phase) (known : ver = 0x12 ∨ ver = 0x13) : ∃ t,
    execSpdmGetCapabilities c ver s = .next (spdmSend ver 0x61 0 0 ([0, 20, 0, 0] ++ leBytes 4 spdmFlags ++ leBytes 4 4096 ++ leBytes 4 8192) t) ∧
      t.conn c = { s.conn c with phase := 2, ver := ver } ∧ { t with spdm := s.spdm } = s :=
  ⟨_, (spdmAt_of_phase open_ idle free phase).trans (congrArg _ (if_neg (by rcases known with rfl | rfl <;> decide))), 
    (conn_congr (t := s.setConn c { s.conn c with phase := 2, ver := ver }) rfl c).trans (conn_setConn ..), rfl⟩

theorem spdmNegotiate_of_offer {ed p384 meas dhe aead : Bool} (phase : 2 ≤ (s.conn c).phase) (offered : ed = true ∨ p384 = true) :
    let y : SConn := { s.conn c with phase := 3, asym := if ed then 1 else 2, meas := meas, keys := dhe && aead }
    execSpdmNegotiateAlgorithms c ed p384 ⟨true, meas, dhe, aead⟩ s = .next (spdmSend (s.conn c).ver 0x63 2 0 (algorithmsBody y dhe aead) (s.setConn c y)) :=
  (spdmAt_of_phase open_ idle free phase).trans (congrArg _ (if_neg (by rcases offered with rfl | rfl <;> simp)))

theorem spdmNegotiate_without_digest {ed p384 meas dhe aead : Bool} (phase : 2 ≤ (s.conn c).phase) :
    execSpdmNegotiateAlgorithms c ed p384 ⟨false, meas, dhe, aead⟩ s = .next (spdmError c eInvalid s) :=
  (spdmAt_of_phase open_ idle free phase).trans (congrArg _ (if_pos rfl))

omit open_ idle free in
theorem algorithmsBody_eq (y : SConn) (dhe aead : Bool) : algorithmsBody y dhe aead = [44, 0] ++ (if y.meas then [1, 0, 4, 0, 0, 0] else [0, 0, 0, 0, 0, 0]) ++
    leBytes 4 (if y.asym = 1 then 0x400 else 0x80) ++ leBytes 4 2 ++ List.replicate 16 0 ++ [2, 0x20, if dhe then 0x10 else 0, 0] ++
    [3, 0x20, if aead then 2 else 0, 0] := by
  unfold algorithmsBody
  cases y.meas <;> cases dhe <;> cases aead <;> simp [leBytes]

variable (phase : (s.conn c).phase = 3)
include phase

theorem spdmGetDigests_is : execSpdmGetDigests c s = .next (spdmSend (s.conn c).ver 0x01 0 1 (sha384 (s.chain (s.conn c))) s) :=
  spdmAt_of_phase open_ idle free (by omega)

theorem spdmGetCertificate_within {off len : Nat} (within : off < (s.chain (s.conn c)).length) : execSpdmGetCertificate c 0 off len s =
    let b := ((s.chain (s.conn c)).drop off).take (min len 4088)
    .next (spdmSend (s.conn c).ver 0x02 0 0 (leBytes 2 b.length ++ leBytes 2 ((s.chain (s.conn c)).length - off - b.length) ++ b) s) :=
  (spdmAt_of_phase open_ idle free (by omega)).trans (congrArg _ (if_neg (by simp; omega)))

theorem spdmKeyExchange_unsupported (not : c = 2 ∨ (s.conn c).keys = false) (exch transcript : Bytes) (failed : Bool) :
    execSpdmKeyExchange c exch transcript failed s = .next (spdmError c eUnsupported s) :=
  (spdmAt_of_phase open_ idle free (by omega)).trans (congrArg _ (if_pos (by rcases not with not | not <;> simp [not])))

theorem spdmKeyExchange_full (carries : c ≠ 2) (keys : (s.conn c).keys = true) (full : 4 ≤ s.spdm.sessions.length) (exch transcript : Bytes)
    (failed : Bool) : execSpdmKeyExchange c exch transcript failed s = .next (spdmError c eBusy s) :=
  (spdmAt_of_phase open_ idle free (by omega)).trans (congrArg _ ((if_neg (by simp [carries, keys])).trans (if_pos full)))

theorem spdmGetMeasurements_of_pass (pass : s.flg.pass ≠ none) (i : Nat) (sign : Bool) (transcript : Bytes) (failed : Bool) :
    execSpdmGetMeasurements c i sign none transcript failed s = .next (spdmError c eBusy s) :=
  (spdmAt_of_phase open_ idle free (by omega)).trans (congrArg _ ((if_neg (by simp [State.sessionOk])).trans (if_pos (Option.isSome_iff_ne_none.2 pass))))

theorem spdmGetMeasurements_of_none_agreed (pass : s.flg.pass = none) (meas : (s.conn c).meas = false) (i : Nat) (sign : Bool) (transcript : Bytes)
    (failed : Bool) : execSpdmGetMeasurements c i sign none transcript failed s = .next (spdmError c eUnsupported s) :=
  (spdmAt_of_phase open_ idle free (by omega)).trans
    (congrArg _ ((if_neg (by simp [State.sessionOk])).trans ((if_neg (by simp [pass])).trans (if_pos (by simp [meas])))))

theorem spdmVendor_of_half {h : Bytes × Bytes} (half : (s.conn c).half = some h) :
    execSpdmVendorDefinedRequest c none [1] s = .next (spdmSend (s.conn c).ver 0x7E 0 0 ([1] ++ h.1 ++ h.2) s) := by
  refine (if_neg (by simp [spdmTooLong, spdmMax])).trans ((spdmAt_of_phase open_ idle free (by omega)).trans (congrArg _ ?_))
  dsimp only
  rw [if_neg (by decide), half]

end

/-! ### A signed response starts -/

/-- The state but for the randomness drawn. -/
def State.undrawn (s : State) : State := { s with rng := {}, pw := { s.pw with free := 0 } }

theorem drawIsland_undrawn (n : Nat) (s : State) : (drawIsland n s).2.undrawn = s.undrawn := by
  unfold drawIsland
  split
  next r drawn =>
    unfold draw at drawn
    dsimp only at drawn
    split at drawn
    · rw [← Option.some.inj drawn]
      rfl
    · exact nomatch drawn
  · rfl

/-- Of a signed response: where it goes, what is signed, when it ends, and the classical half. -/
def SigningOf (c code p1 : Nat) (sess : Option Nat) (session : Option SSess) (failed : Bool) (transcript body : Bytes) (s : State) (m : Signing) : Prop :=
  m.conn = c ∧ m.code = code ∧ m.p1 = p1 ∧ m.sess = sess ∧ m.session = session ∧ m.body = body ∧ m.msg = transcript ++ body ∧ m.xi = s.aliasSeed 2 ∧
    m.due = s.pw.now + max (if (s.conn c).asym = 1 then 64 else 120) (mlTicks m.xi m.msg m.rnd) ∧
    ((s.conn c).asym = 1 → m.sig = edSign (s.aliasSeed 0) m.msg ∧ m.good = (Config.edVerify (pubOf 1 (s.aliasSeed 0)) m.msg m.sig && !failed))

theorem spdmSigned_starts (c code p1 : Nat) (sess : Option Nat) (session : Option SSess) (failed : Bool) (transcript body : Bytes) {s u : State}
    (same : u.undrawn = s.undrawn) :
    ∃ m, (spdmSigned c code p1 sess session failed transcript body u).spdm = { s.spdm with signing := some m } ∧
      (spdmSigned c code p1 sess session failed transcript body u).out.spdm = [] ∧ SigningOf c code p1 sess session failed transcript body s m := by
  unfold spdmSigned
  have first := (drawIsland_undrawn 32 u).trans same
  generalize drawIsland 32 u = d1 at first
  obtain ⟨rnd, v⟩ := d1
  have second := (drawIsland_undrawn 48 v).trans first
  dsimp only
  generalize drawIsland 48 v = d2 at second
  obtain ⟨hedge, w⟩ := d2
  dsimp only at second ⊢
  have spdm : w.spdm = s.spdm := (congrArg State.spdm second :)
  have conn : w.conn c = s.conn c := (congrArg (State.conn · c) second :)
  have seed : ∀ k, w.aliasSeed k = s.aliasSeed k := fun k => (congrArg (State.aliasSeed · k) second :)
  have now : w.pw.now = s.pw.now := (congrArg (fun t : State => t.pw.now) second :)
  rw [spdm, conn, seed, seed, seed, now]
  refine ⟨_, rfl, rfl, rfl, rfl, rfl, rfl, rfl, rfl, rfl, rfl, ?_, fun ed => ?_⟩
  · congr 2
  · simp [ed]

section
variable {s : State} {c : Nat} (open_ : s.spdmOpen c = true) (running : s.running = true) (pass : s.flg.pass = none) (idle : s.spdm.signing = none)
  (random : 256 ≤ (s.exp 16).qbytes)
include open_ running pass idle random

theorem spdmSigns_of : s.spdmSigns c = true := by
  simp [State.spdmSigns, State.islandHas, open_, running, pass, idle, random]

theorem spdmChallenge_starts (free : s.pfl.upd = none) (phase : (s.conn c).phase = 3) (transcript : Bytes) (failed : Bool) :
    ∃ u, u.undrawn = s.undrawn ∧ execSpdmChallenge c 0 transcript failed s =
      .next (spdmSigned c 0x03 0 none none failed transcript (sha384 (s.chain (s.conn c)) ++ (drawIsland 32 s).1) u) := by
  have signs : s.spdmSigns c = true := spdmSigns_of open_ running pass idle random
  have drawn := drawIsland_undrawn 32 s
  have chain : (drawIsland 32 s).2.chain (s.conn c) = s.chain (s.conn c) := (congrArg (State.chain · (s.conn c)) drawn :)
  refine ⟨(drawIsland 32 s).2, drawn, ?_⟩
  unfold execSpdmChallenge
  refine (spdmAt_of_phase open_ (by simp [idle]) free (by omega)).trans (congrArg _ ?_)
  rw [if_neg (by decide), if_neg (by simp [signs]), ← chain]

theorem spdmMeasurements_start {i : Nat} {v : Nat × Bytes} (free : s.pfl.upd = none) (phase : (s.conn c).phase = 3) (meas : (s.conn c).meas = true)
    (value : s.measurement i = some v) (one : i ≠ 0 ∧ i ≠ 0xFF) (transcript : Bytes) (failed : Bool) :
    ∃ u, u.undrawn = s.undrawn ∧ execSpdmGetMeasurements c i true none transcript failed s =
      .next (spdmSigned c 0x60 0 none none failed transcript
        (leBytes 1 1 ++ leBytes 3 (measBlock i v).length ++ measBlock i v ++ (drawIsland 32 s).1) u) := by
  have signs : s.spdmSigns c = true := spdmSigns_of open_ running pass idle random
  refine ⟨(drawIsland 32 s).2, drawIsland_undrawn 32 s, ?_⟩
  unfold execSpdmGetMeasurements
  refine (spdmAt_of_phase open_ (by simp [idle]) free (by omega)).trans (congrArg _ ?_)
  simp [State.sessionOk, pass, meas, one, value, signs]

theorem spdmKeyExchange_starts (free : s.pfl.upd = none) (phase : (s.conn c).phase = 3) (carries : c ≠ 2) (keys : (s.conn c).keys = true)
    (room : s.spdm.sessions.length < 4) (exch transcript : Bytes) (failed : Bool) :
    ∃ u e body, u.undrawn = s.undrawn ∧ e.id = s.spdm.nextId ∧ e.conn = c ∧ e.est = false ∧
      execSpdmKeyExchange c exch transcript failed s = .next (spdmSigned c 0x64 0 none (some e) failed transcript body u) := by
  have signs : s.spdmSigns c = true := spdmSigns_of open_ running pass idle random
  have drawn := (drawIsland_undrawn 32 (drawIsland 48 s).2).trans (drawIsland_undrawn 48 s)
  refine ⟨_, { id := s.spdm.nextId, conn := c, est := false, secret := Config.sessionKey ((drawIsland 48 s).1 ++ exch) },
    leBytes 2 s.spdm.nextId ++ (drawIsland 32 (drawIsland 48 s).2).1 ++ pubOf 4 (drawIsland 48 s).1, drawn, rfl, rfl, rfl, ?_⟩
  unfold execSpdmKeyExchange
  refine (spdmAt_of_phase open_ (by simp [idle]) free (by omega)).trans (congrArg _ ?_)
  rw [if_neg (by simp [carries, keys]), if_neg (by omega), if_neg (by simp [signs])]
  dsimp only
  rw [show (drawIsland 32 (drawIsland 48 s).2).2.spdm = s.spdm from (congrArg State.spdm drawn :)]

end

/-- GET_MEASUREMENTS of one index, unsigned. -/
theorem spdmMeasurements_plain {s : State} {c i : Nat} {v : Nat × Bytes} (open_ : s.spdmOpen c = true) (idle : ∀ m, s.spdm.signing = some m → m.conn ≠ c)
    (free : s.pfl.upd = none) (phase : (s.conn c).phase = 3) (pass : s.flg.pass = none) (meas : (s.conn c).meas = true)
    (value : s.measurement i = some v) (one : i ≠ 0 ∧ i ≠ 0xFF) (transcript : Bytes) (failed : Bool) :
    execSpdmGetMeasurements c i false none transcript failed s =
      .next (spdmSend (s.conn c).ver 0x60 0 0 (leBytes 1 1 ++ leBytes 3 (measBlock i v).length ++ measBlock i v) s) := by
  unfold execSpdmGetMeasurements
  refine (spdmAt_of_phase open_ idle free (by omega)).trans (congrArg _ ?_)
  simp [State.sessionOk, pass, meas, one, value]

/-! ### A signed response ends -/

section
variable {s : State} {m : Signing}

/-- The state in which the halves of a signed response end. -/
def State.unsigned (s : State) : State := { s with spdm := { s.spdm with signing := none } }

theorem signingTick_of_due (signing : s.spdm.signing = some m) (open_ : s.spdmOpen m.conn = true) (running : s.running = true) (pass : s.flg.pass = none)
    (due : m.due ≤ s.pw.now) : signingTick s = releaseSigned m s := by
  unfold signingTick
  rw [signing]
  exact (if_neg (by simp [open_, running])).trans ((if_neg (by simp [pass])).trans (if_pos due))

/-- The state after both halves of a signed response. -/
def State.halved (s : State) (m : Signing) : State := (islandMl m.xi m.msg m.rnd (islandCutter m.good m.sig s.unsigned).2).2

theorem halved_spdm : (s.halved m).spdm = { s.spdm with signing := none } :=
  (congrArg State.spdm (islandMl_calm (islandCutter_calm .rfl) :) :)

theorem releaseSigned_of_failed {a b : Option Bytes} (first : (islandCutter m.good m.sig s.unsigned).1 = a)
    (second : (islandMl m.xi m.msg m.rnd (islandCutter m.good m.sig s.unsigned).2).1 = b) (bad : a = none ∨ b = none) :
    releaseSigned m s = spdmError m.conn eUnspecified (s.halved m) := by
  unfold releaseSigned State.halved
  dsimp only
  rw [← State.unsigned, first, second]
  rcases bad with rfl | rfl
  · rfl
  · cases a <;> rfl

/-- The sessions and the next identity after a response that opens a session or none. -/
def State.joined (s : State) (session : Option SSess) : State :=
  match session with
  | some e => { s with spdm := { s.spdm with nextId := e.id + 1, sessions := s.spdm.sessions ++ [e] } }
  | none => s

theorem joined_spdm (s : State) (session : Option SSess) : (s.joined session).spdm.signing = s.spdm.signing ∧ (s.joined session).spdm.conns = s.spdm.conns ∧
    ∀ e, session = some e → (s.joined session).spdm.sessions = s.spdm.sessions ++ [e] ∧ (s.joined session).spdm.nextId = e.id + 1 := by
  cases session with
  | none => exact ⟨rfl, rfl, nofun⟩
  | some e => exact ⟨rfl, rfl, fun e' same => by cases same; exact ⟨rfl, rfl⟩⟩

theorem keepHalf_spdm (c : Nat) (sess : Option Nat) (half : Bytes × Bytes) (s : State) : (keepHalf c sess half s).spdm.signing = s.spdm.signing ∧
    (keepHalf c sess half s).spdm.nextId = s.spdm.nextId ∧ ((keepHalf c sess half s).conn c).ver = (s.conn c).ver ∧
    (sess = none → (keepHalf c sess half s).spdm.sessions = s.spdm.sessions ∧ ((keepHalf c sess half s).conn c).half = some half) := by
  cases sess with
  | none =>
    have kept : (keepHalf c none half s).conn c = { s.conn c with half := some half } := conn_setConn ..
    rw [kept]
    exact ⟨rfl, rfl, rfl, fun _ => ⟨rfl, rfl⟩⟩
  | some i => exact ⟨rfl, rfl, rfl, nofun⟩

theorem releaseSigned_of_good {sig ml : Bytes} (first : (islandCutter m.good m.sig s.unsigned).1 = some sig)
    (second : (islandMl m.xi m.msg m.rnd (islandCutter m.good m.sig s.unsigned).2).1 = some ml) :
    releaseSigned m s =
      let t := keepHalf m.conn m.sess (sha384 m.msg, ml) ((s.halved m).joined m.session)
      spdmSend (t.conn m.conn).ver m.code m.p1 0 (m.body ++ sig) t := by
  unfold releaseSigned State.halved
  dsimp only
  rw [← State.unsigned, first, second]
  cases m.session with
  | none => rfl
  | some e => rfl

end

/-! ### Sessions -/

section
variable {s : State} {c i : Nat} {e : SSess}

/-- The sessions of a state. -/
theorem spdmSession_map {f : SSess → SSess} (id : ∀ x, (f x).id = x.id) (found : s.spdmSession i = some e) :
    (setSessions (·.map f) s).spdmSession i = some (f e) := by
  have same : ((fun x : SSess => decide (x.id = i)) ∘ f) = fun x => decide (x.id = i) := by
    funext x
    simp [id]
  refine (List.find?_map ..).trans ?_
  rw [same]
  exact congrArg (Option.map f) found

theorem spdmSession_put {y : SSess} (same : y.id = i) (found : s.spdmSession i = some e) :
    (setSessions (·.map fun x => if x.id = i then y else x) s).spdmSession i = some y := by
  have id : ∀ x : SSess, (if x.id = i then y else x).id = x.id := by
    intro x
    split
    next h => rw [same, h]
    · rfl
  rw [spdmSession_map id found, if_pos (by simpa using List.find?_some found)]

theorem spdmSession_removed : (setSessions (·.filter fun x => x.id ≠ i) s).spdmSession i = none := by
  refine List.find?_eq_none.2 fun x mem => ?_
  simpa using (List.mem_filter.1 mem).2

theorem id_of_spdmSession (found : s.spdmSession i = some e) : e.id = i := by
  simpa using List.find?_some found

theorem inSession_of_open {est : Bool} {f : SSess → State → State} (open_ : s.spdmOpen c = true) (idle : ∀ m, s.spdm.signing = some m → m.conn ≠ c)
    (free : s.pfl.upd = none) (phase : (s.conn c).phase = 3) (carries : c ≠ 2) (found : s.spdmSession i = some e) (mine : e.conn = c) (state : e.est = est) :
    inSession c i est f s = .next (f e s) := by
  refine (if_neg carries).trans ((spdmAt_of_phase open_ idle free (by omega)).trans (congrArg _ ?_))
  rw [found]
  exact if_pos (by simp [mine, state])

end

end Sys2Proof.Machine

namespace Sys2Proof.Proofs
open Sys2Proof Sys2Proof.Machine Sys2Proof.Claims

/-- Settles O39. -/
theorem spdmResponder : Obligations.SpdmResponder := by
  unfold Obligations.SpdmResponder
  intro c ver off len i tag ed p384 meas dhe aead sign failed exch transcript s open_ idle
  refine ⟨fun update => ⟨_, spdmGetDigests_of_update open_ idle update, rfl⟩, fun free => ?_⟩
  intro x ready signs stays conn chain starts
  have start : ∀ {code p1 sess session body o p}, (∃ u : State, u.undrawn = s.undrawn ∧
      o = .next (spdmSigned c code p1 sess session failed transcript body u)) →
      (∀ m, SigningOf c code p1 sess session failed transcript body s m → p m) → starts code p o := by
    rintro code p1 sess session body o p ⟨u, same, done⟩ leaves
    obtain ⟨m, spdm, out, signing⟩ := spdmSigned_starts c code p1 sess session failed transcript body same
    have sat := leaves m signing
    obtain ⟨conn', code', p1', sess', session', body', msg, xi, due, half⟩ := signing
    rw [msg] at due half
    refine ⟨_, m, done, (congrArg Spdm.signing spdm :), (congrArg Spdm.conns spdm :),
      (congrArg Spdm.sessions spdm :), out, conn', code', xi, ?_, ?_, ?_, sat⟩
    · rw [msg, body']
    · rw [msg]; exact due
    · rw [msg]; exact half
  refine ⟨?version, ?capabilities, fun early => responds_of_error (spdmGetCapabilities_of_early open_ idle free early ver), ?algorithms,
    fun phase => responds_of_error (spdmNegotiate_without_digest open_ idle free phase), ?digests, ?certificate, ?challenge, ?measurements,
    fun phase pass agreed => responds_of_error (spdmGetMeasurements_of_none_agreed open_ idle free phase pass agreed i sign transcript failed), ?measured,
    fun phase pass => responds_of_error (spdmGetMeasurements_of_pass open_ idle free phase pass i sign transcript failed), ?exchange, ?tick,
    fun phase not => responds_of_error (spdmKeyExchange_unsupported open_ idle free phase not exch transcript failed),
    fun phase carries keys full => responds_of_error (spdmKeyExchange_full open_ idle free phase carries keys full exch transcript failed), ?session, ?vendor⟩
  case version => exact responds_of_send (spdmGetVersion_is open_ idle free) (by decide) fun out => ⟨conn_setConn .., rfl⟩
  case capabilities =>
    intro phase known
    obtain ⟨t, done, conn', rest⟩ := spdmGetCapabilities_of_version open_ idle free (ver := ver) (le_of_eq phase.symm) known
    exact responds_of_send done (by decide) fun out => ⟨conn', (congrArg (fun u : State => { u with out := s.out }) rest :)⟩
  case algorithms =>
    intro phase offered y
    have done := spdmNegotiate_of_offer open_ idle free (meas := meas) (dhe := dhe) (aead := aead) phase offered
    have body : algorithmsBody y dhe aead = _ := algorithmsBody_eq y dhe aead
    have alg : (if y.asym = 1 then 0x400 else 0x80) = if ed then 0x400 else 0x80 := by cases ed <;> rfl
    rw [alg] at body
    dsimp only at done
    rw [body] at done
    refine responds_of_send done ?_ fun out => ⟨conn_setConn c _ s, rfl⟩
    cases meas <;> simp [leBytes]
  case digests =>
    intro phase
    exact responds_of_send (spdmGetDigests_is open_ idle free phase) (by rw [sha384, fixLen_length]; decide) fun _ => rfl
  case certificate =>
    intro phase within b
    refine responds_of_send (spdmGetCertificate_within open_ idle free phase within) ?_ fun _ => rfl
    have part : b.length ≤ 4088 := by simp [b]
    simp [leBytes]
    omega
  case challenge =>
    rintro phase ⟨running, pass, waits, random⟩
    refine start (spdmChallenge_starts open_ running pass waits random free phase transcript failed) fun m signing => ?_
    obtain ⟨-, -, p1, sess, session, body, -⟩ := signing
    exact ⟨p1, sess, session, body⟩
  case measurements =>
    intro phase pass may v value low high rec_ short
    refine responds_of_send (spdmMeasurements_plain open_ idle free phase pass may value ⟨low, high⟩ transcript failed) ?_ fun _ => rfl
    simp [leBytes]
    omega
  case measured =>
    rintro phase ⟨running, pass, waits, random⟩ agreed v value low high rec_
    refine start (spdmMeasurements_start open_ running pass waits random free phase agreed value ⟨low, high⟩ transcript failed) fun m signing => ?_
    obtain ⟨-, -, -, -, session, body, -⟩ := signing
    exact ⟨session, body⟩
  case exchange =>
    rintro phase ⟨running, pass, waits, random⟩ carries keys room
    obtain ⟨u, e, body, same, id, conn', est, done⟩ := spdmKeyExchange_starts open_ running pass waits random free phase carries keys room exch transcript failed
    refine start ⟨u, same, done⟩ fun m signing => ?_
    obtain ⟨-, -, -, -, session, -⟩ := signing
    exact ⟨e, session, id, conn', est⟩
  case tick =>
    intro m signing open' running pass due short t ml
    have ends : t = releaseSigned m s := signingTick_of_due signing open' running pass due
    have conns : (s.halved m).conn m.conn = s.conn m.conn :=
      conn_congr (congrArg Spdm.conns halved_spdm :) m.conn
    have none : (s.halved m).spdm.signing = .none := (congrArg Spdm.signing halved_spdm :)
    rw [ends]
    refine ⟨?free, fun good attempts verifies => ?good, fun bad => ?bad⟩
    case free =>
      cases first : (islandCutter m.good m.sig s.unsigned).1 with
      | none => rw [releaseSigned_of_failed first rfl (.inl rfl)]; exact none
      | some sig =>
        cases second : (islandMl m.xi m.msg m.rnd (islandCutter m.good m.sig s.unsigned).2).1 with
        | none => rw [releaseSigned_of_failed first second (.inr rfl)]; exact none
        | some ml =>
          rw [releaseSigned_of_good first second]
          exact (keepHalf_spdm ..).1.trans ((joined_spdm ..).1.trans none)
    case good =>
      have first : (islandCutter m.good m.sig s.unsigned).1 = some m.sig := by rw [good]; rfl
      have second : (islandMl m.xi m.msg m.rnd (islandCutter m.good m.sig s.unsigned).2).1 = some ml := islandMl_of_good attempts verifies _
      rw [releaseSigned_of_good first second]
      dsimp only
      obtain ⟨-, next, ver, kept⟩ := keepHalf_spdm m.conn m.sess (sha384 m.msg, ml) ((s.halved m).joined m.session)
      obtain ⟨-, conns', opened⟩ := joined_spdm (s.halved m) m.session
      have ver' : ((keepHalf m.conn m.sess (sha384 m.msg, ml) ((s.halved m).joined m.session)).conn m.conn).ver = (s.conn m.conn).ver :=
        ver.trans (congrArg SConn.ver ((conn_congr conns' m.conn).trans conns))
      rw [spdmSend_of_short (by simp; omega), ver']
      refine ⟨rfl, fun e session plain => ?_, fun plain => (kept plain).2⟩
      obtain ⟨sessions, nextId⟩ := opened e session
      exact ⟨((kept plain).1.trans sessions).trans (congrArg (· ++ [e]) (congrArg Spdm.sessions halved_spdm :)), next.trans nextId⟩
    case bad =>
      have first : (islandCutter m.good m.sig s.unsigned).1 = .none := by rw [bad]; rfl
      rw [releaseSigned_of_failed first rfl (.inl rfl)]
      refine ⟨?_, (congrArg Spdm.sessions halved_spdm :)⟩
      rw [spdmError_out, conns]
      rfl
  case session =>
    intro phase carries e found mine
    have id := id_of_spdmSession found
    have served : ∀ {est f}, e.est = est → inSession c i est f s = .next (f e s) := inSession_of_open open_ idle free phase carries found mine
    refine ⟨fun new => ?finish, fun new => ⟨_, served new, spdmSession_removed⟩, fun up => responds_of_send (b := []) (served up) (by decide) fun _ => rfl, fun up => ?update,
      fun up => ?ends, fun up dev short => ?ide⟩
    case finish => exact responds_of_send (b := []) (served new) (by decide) fun _ => spdmSession_put (y := { e with est := true }) id found
    case update =>
      exact responds_of_send (b := []) (served up) (by decide) fun _ => spdmSession_put (y := { e with secret := Config.sessionKey e.secret }) id found
    case ends => exact responds_of_send (b := []) (served up) (by decide) fun _ => ⟨spdmSession_removed, rfl⟩
    case ide =>
      subst dev
      have fits : spdmTooLong 0 (11 + exch.length) = false := by
        have fits : ¬ 8192 < 11 + exch.length := by omega
        simp [spdmTooLong, spdmMax, fits]
      exact responds_of_send (b := []) ((if_neg (by rw [fits]; decide)).trans (served up)) (by decide) fun _ => ⟨rfl, rfl⟩
  case vendor =>
    intro phase h half short
    exact responds_of_send (spdmVendor_of_half open_ idle free phase half) (by simp; omega) fun _ => rfl

end Sys2Proof.Proofs

/-! PROOFS. The current request of a job, and how it ends (R131, R132, R161). -/

namespace Sys2Proof.Machine
open Sys2Proof Sys2Proof.Claims

section
variable {q k size : Nat} {j : Job} {b : Bytes} {s : State}

/-- A job that runs has its current request. -/
theorem current_of_runs (runs : Runs q k size j b s) {is : Bytes → Bool} (row : is b = true) : s.current q k size is = some (j, b) := by
  obtain ⟨-, job, granted, state, ending, more, budget, read, -, erased⟩ := runs
  unfold State.current
  dsimp only
  rw [job, read, erased, granted, state, ending, row]
  exact if_pos (by simp [more, budget])

theorem firsts_of_runs (runs : Runs q k size j b s) : runFirsts q s = s := by
  obtain ⟨-, -, -, -, -, -, -, -, due, -⟩ := runs
  exact runFirsts_nil q due

theorem ending_of_runs (runs : Runs q k size j b s) : j.ending = none := by
  obtain ⟨-, -, -, -, ending, -⟩ := runs
  exact ending

/-! ### The end of a request -/

/-- The state but for its jobs and the target slots let go. -/
def State.unjobbed (s : State) : State := { s with jobs := [], yard := { s.yard with freed := [] } }

/-- What a request's end leaves of its job. -/
def Job.worked (j : Job) : Job :=
  { j with step := 0, idx := 0, left := none, found := none, ending := none, granted := false, budget := 0, drawn := [], key := none, resv := [], made := [] }

theorem onlyJob_of_unjobbed {t : State} (same : t.unjobbed = s.unjobbed) : OnlyJob s t ∧ t.ram = s.ram := by
  have ram : t.ram = s.ram := (congrArg State.ram same :)
  refine ⟨?_, ram⟩
  unfold OnlyJob
  have rest := congrArg (fun x : State => { x with jobs := s.jobs, yard := { x.yard with freed := s.yard.freed } }) same
  rw [← ram]
  exact rest

theorem tget_setJob {i : Nat} (other : i ≠ 65 * q + k) (x : Job) (s : State) : tget ({} : Job) (s.setJob q k x).jobs i = tget ({} : Job) s.jobs i :=
  tget_tset_ne _ _ _ other

theorem endJob_job (st : Nat) (s : State) : (endJob q k st s).job q k =
    { s.job q k with ending := some st, granted := false, budget := 0, left := none, found := none, drawn := [], key := none, resv := [] } :=
  State.job_set_same ..

theorem endJob_unjobbed (st : Nat) (s : State) : (endJob q k st s).unjobbed = s.unjobbed := rfl

theorem endJob_others {i : Nat} (other : i ≠ 65 * q + k) (st : Nat) (s : State) : tget ({} : Job) (endJob q k st s).jobs i = tget ({} : Job) s.jobs i :=
  tget_tset_ne _ _ _ other

/-- The job after the end of a request that is not its last. -/
def Job.next (j : Job) : Job :=
  { j with step := j.idx, idx := j.idx + 1, left := none, found := none, drawn := [], key := none, resv := [], made := j.made ++ j.resv }

/-- The state that `nextRequest` leaves before the job may end. -/
def State.nexted (s : State) (q k : Nat) (j : Job) : State := (releaseSlots j.resv s).setJob q k j.next

theorem nexted_unjobbed (j : Job) (s : State) : (s.nexted q k j).unjobbed = s.unjobbed := rfl

theorem nexted_others {i : Nat} (other : i ≠ 65 * q + k) (j : Job) (s : State) :
    tget ({} : Job) (s.nexted q k j).jobs i = tget ({} : Job) s.jobs i := tget_tset_ne _ _ _ other

theorem nextRequest_eq (q k : Nat) (j : Job) (s : State) :
    nextRequest q k j s = if j.idx + 1 = j.count then endJob q k 0 (s.nexted q k j) else s.nexted q k j := rfl

/-- A request of a job that has ended well. -/
theorem requestDone_of_next {j' : Job} {u : State} {p : State → Prop} (others : OtherJobs q k s u) (idx : j'.idx = j.idx) (count : j'.count = j.count)
    (ending : j'.ending = none) (leaves : ∀ t : State, t.unjobbed = u.unjobbed → (t.job q k).worked = j'.worked → p t) :
    RequestDone q k j s p (.next (nextRequest q k j' u)) := by
  have job : (u.nexted q k j').job q k = j'.next := State.job_set_same ..
  have rest := nexted_unjobbed (q := q) (k := k) j' u
  have away : OtherJobs q k s (u.nexted q k j') := fun i other => (nexted_others other j' u).trans (others i other)
  rw [nextRequest_eq, idx, count]
  generalize u.nexted q k j' = v at job rest away
  split
  next last =>
    have ended := endJob_job (q := q) (k := k) 0 v
    rw [job] at ended
    refine ⟨_, rfl, fun i other => (endJob_others other 0 v).trans (away i other), ?_, ?_, ?_, ?_, leaves _ ((endJob_unjobbed 0 v).trans rest) ?_⟩
    · rw [ended]; exact idx
    · rw [ended]; exact congrArg (· + 1) idx
    · rw [ended]
    · rw [ended, if_pos last]
    · rw [ended]; rfl
  next more =>
    refine ⟨_, rfl, away, ?_, ?_, ?_, ?_, leaves _ rest ?_⟩
    · rw [job]; exact idx
    · rw [job]; exact congrArg (· + 1) idx
    · rw [job]; rfl
    · rw [job, if_neg more]; exact ending
    · rw [job]; rfl

theorem jobEnds_of_fail (st : Nat) (u : State) : JobEnds q k st (.next (failJob q k st u)) := by
  have ended := endJob_job (q := q) (k := k) st (jobEvent q k st u)
  refine ⟨_, rfl, ?_, ?_⟩
  · unfold failJob; rw [ended]
  · unfold failJob; rw [ended]

theorem jobEnds_of_stop (st : Nat) (j : Job) (u : State) : JobEnds q k st (.next (stopRequest q k st j u)) := jobEnds_of_fail st _

/-! ### Requests of whole job ticks -/

variable {is : Bytes → Bool} {start : Job → Bytes → State → Except Nat (Nat × Job) × State} {each : Nat → Job → Bytes → State → Job × State}
  {fin : Job → Bytes → State → Nat × Job × State}

/-- What a tick of a request with `l` ticks left does. -/
def wholeTick (q k : Nat) (each : Nat → Job → Bytes → State → Job × State) (fin : Job → Bytes → State → Nat × Job × State) (l : Nat) (j : Job) (b : Bytes)
    (s : State) : State :=
  let r := each (j.total + 1 - l) { j with budget := 0, left := some (l - 1) } b s
  if 1 < l then r.2.setJob q k r.1
  else
    let f := fin r.1 b r.2
    if f.1 = 0 then nextRequest q k f.2.1 f.2.2 else stopRequest q k f.1 f.2.1 f.2.2

theorem wholeTicks_of_left {l : Nat} (runs : Runs q k size j b s) (row : is b = true) (left : j.left = some l) :
    wholeTicks q k size is start each fin s = wholeTick q k each fin l j b s := by
  unfold wholeTicks
  dsimp only
  rw [firsts_of_runs runs, current_of_runs runs row]
  refine (if_neg (by simp [left])).trans ?_
  rw [left]
  rfl

theorem wholeTicks_of_start {n : Nat} {j' : Job} {u : State} (runs : Runs q k size j b s) (row : is b = true) (none : j.left = none)
    (full : j.budget = 3584) (begun : start j b s = (.ok (n, j'), u)) :
    wholeTicks q k size is start each fin s = wholeTick q k each fin n { j' with total := n } b u := by
  unfold wholeTicks
  dsimp only
  rw [firsts_of_runs runs, current_of_runs runs row]
  refine (if_neg (by simp [full, budgetFc])).trans ?_
  rw [none]
  dsimp only
  rw [begun]
  rfl

theorem wholeTicks_of_refused {st : Nat} {u : State} (runs : Runs q k size j b s) (row : is b = true) (none : j.left = none)
    (full : j.budget = 3584) (refused : start j b s = (.error st, u)) : wholeTicks q k size is start each fin s = stopRequest q k st j u := by
  unfold wholeTicks
  dsimp only
  rw [firsts_of_runs runs, current_of_runs runs row]
  refine (if_neg (by simp [full, budgetFc])).trans ?_
  rw [none]
  dsimp only
  rw [refused]

section
variable {j₁ j₂ : Job} {u v : State}

/-- The last tick of a request that ends well. -/
theorem wholeTick_of_last (works : each (j.total + 1 - 1) { j with budget := 0, left := some 0 } b s = (j₁, u)) (ends : fin j₁ b u = (0, j₂, v)) :
    wholeTick q k each fin 1 j b s = nextRequest q k j₂ v := by
  unfold wholeTick
  dsimp only
  rw [works, if_neg (by decide : ¬ 1 < 1), ends]
  exact if_pos rfl

/-- The last tick of a request that ends its job. -/
theorem wholeTick_of_failed {st : Nat} (works : each (j.total + 1 - 1) { j with budget := 0, left := some 0 } b s = (j₁, u))
    (fails : fin j₁ b u = (st, j₂, v)) (bad : st ≠ 0) : wholeTick q k each fin 1 j b s = stopRequest q k st j₂ v := by
  unfold wholeTick
  dsimp only
  rw [works, if_neg (by decide : ¬ 1 < 1), fails]
  exact if_neg bad

/-- A tick of a request that has more. -/
theorem wholeTick_of_more {l : Nat} (more : 1 < l) (works : each (j.total + 1 - l) { j with budget := 0, left := some (l - 1) } b s = (j₁, u)) :
    wholeTick q k each fin l j b s = u.setJob q k j₁ := by
  unfold wholeTick
  dsimp only
  rw [works, if_pos more]

end

end

end Sys2Proof.Machine

/-! PROOFS. Digest requests, the owners of contexts, and held ranges (R174, R182-R192). -/

namespace Sys2Proof.Machine
open Sys2Proof Sys2Proof.Claims

section
variable {n k : Nat} {j : Job} {b : Bytes} {s : State}

/-- What a request on a context leaves: memory, the dispatcher, and every other context. -/
def KeepsBut (x : Nat) (s t : State) : Prop := t.ram = s.ram ∧ t.dsp = s.dsp ∧ ∀ i, i ≠ x → tget ({} : DigCtx) t.dig i = tget ({} : DigCtx) s.dig i

theorem keepsBut_setCtx (i : Nat) (c : DigCtx) (s : State) : KeepsBut (8 * n + i) s (s.setCtx n i c) :=
  ⟨rfl, rfl, fun _ other => tget_tset_ne _ _ _ other⟩

theorem KeepsBut.trans {x : Nat} {t u : State} (h : KeepsBut x s t) (h' : KeepsBut x t u) : KeepsBut x s u :=
by
  obtain ⟨ram, dsp, dig⟩ := h
  obtain ⟨ram', dsp', dig'⟩ := h'
  exact ⟨ram'.trans ram, dsp'.trans dsp, fun i other => (dig' i other).trans (dig i other)⟩

/-- A request on a context that ends well leaves it as its last tick did. -/
theorem contextDone {j' : Job} {i : Nat} {c : DigCtx} {u : State} {p : State → Prop} (stands : u.jobs = s.jobs)
    (set : u.ctx n i = c) (keeps : KeepsBut (8 * n + i) s u) (idx : j'.idx = j.idx)
    (count : j'.count = j.count) (ending : j'.ending = none) (leaves : ∀ t, KeepsBut (8 * n + i) s t → t.ctx n i = c → p t) :
    RequestDone (5 * n + 4) k j s p (.next (nextRequest (5 * n + 4) k j' u)) := by
  refine requestDone_of_next (fun x _ => by rw [stands]) idx count ending fun t same _ => ?_
  have dig : t.dig = u.dig := (congrArg State.dig same :)
  obtain ⟨ram, dsp, others⟩ := keeps
  refine leaves t ⟨(congrArg State.ram same :).trans ram, (congrArg State.dsp same :).trans dsp, fun x other => ?_⟩ ?_
  · rw [dig]; exact others x other
  · exact (congrArg (fun l : Tbl DigCtx => tget ({} : DigCtx) l (8 * n + i)) dig).trans set

/-- The requests that a row of contexts takes: its own code, and those that no row names. -/
def rowTakes (op : Nat) (b : Bytes) : Bool := fieldLE b 0 1 = op || fieldLE b 0 1 = 0 || 4 < fieldLE b 0 1

theorem rowTakes_of_op {op : Nat} (is : fieldLE b 0 1 = op) : rowTakes op b = true := by simp [rowTakes, is]

section
variable {op : Nat} {used : List (Nat × Nat)} {ok : CtxState → Bool} {start : Job → DigCtx → Bytes → State → Except Nat (Nat × Job) × State}
  {each : Nat → Job → Bytes → State → Job × State} {fin : Job → DigCtx → Bytes → State → Nat × State}

/-- The checks before the first tick of a request on a context. -/
def digStart (op n k : Nat) (used : List (Nat × Nat)) (ok : CtxState → Bool) (start : Job → DigCtx → Bytes → State → Except Nat (Nat × Job) × State)
    (j : Job) (b : Bytes) (s : State) : Except Nat (Nat × Job) × State :=
  let i := fieldLE b 1 1
  if fieldLE b 0 1 ≠ op || 7 < i || !onlyFields b 32 ([(0, 2)] ++ used) then (.error 0x02, s)
  else if k < 64 && s.ctxOwner (8 * n + i) ≠ k then (.error 0x02, s)
  else if !ok (s.ctx n i).state then (.error 0x51, s)
  else start { j with ctx := some i } (s.ctx n i) b s

/-- The last tick of a request on a context. -/
def digFin (n : Nat) (fin : Job → DigCtx → Bytes → State → Nat × State) (j : Job) (b : Bytes) (s : State) : Nat × Job × State :=
  let r := fin j (s.ctx n (fieldLE b 1 1)) b s
  (r.1, { j with out := [] }, r.2)

theorem digRow_eq : digRow op n k used ok start each fin s =
    wholeTicks (5 * n + 4) k 32 (rowTakes op) (digStart op n k used ok start) each (digFin n fin) s := rfl

variable (runs : Runs (5 * n + 4) k 32 j b s) (is : fieldLE b 0 1 = op)
include runs is

theorem digRow_of_left {l : Nat} (left : j.left = some l) :
    digRow op n k used ok start each fin s = wholeTick (5 * n + 4) k each (digFin n fin) l j b s :=
  digRow_eq.trans (wholeTicks_of_left runs (rowTakes_of_op is) left)

variable (none : j.left = .none) (full : j.budget = 3584)
  (mine : fieldLE b 1 1 ≤ 7 ∧ (k < 64 → s.ctxOwner (8 * n + fieldLE b 1 1) = k)) (fields : onlyFields b 32 ([(0, 2)] ++ used) = true)

omit runs in
include mine fields in
theorem digStart_eq : digStart op n k used ok start j b s =
    if !ok (s.ctx n (fieldLE b 1 1)).state then (.error 0x51, s) else start { j with ctx := some (fieldLE b 1 1) } (s.ctx n (fieldLE b 1 1)) b s := by
  unfold digStart
  dsimp only
  rw [if_neg (by rw [fields]; simp [is, mine.1]), if_neg (by simpa using mine.2)]

include none full mine fields

theorem digRow_of_state (state : ok (s.ctx n (fieldLE b 1 1)).state = false) :
    digRow op n k used ok start each fin s = stopRequest (5 * n + 4) k 0x51 j s :=
  digRow_eq.trans (wholeTicks_of_refused runs (rowTakes_of_op is) none full ((digStart_eq is mine fields).trans (if_pos (by simp [state]))))

theorem digRow_of_start (state : ok (s.ctx n (fieldLE b 1 1)).state = true) {m : Nat} {j' : Job} {u : State}
    (begun : start { j with ctx := some (fieldLE b 1 1) } (s.ctx n (fieldLE b 1 1)) b s = (.ok (m, j'), u)) :
    digRow op n k used ok start each fin s = wholeTick (5 * n + 4) k each (digFin n fin) m { j' with total := m } b u :=
  digRow_eq.trans (wholeTicks_of_start runs (rowTakes_of_op is) none full
    ((digStart_eq is mine fields).trans ((if_neg (by simp [state])).trans begun)))

end

/-! ### The rows -/

/-- The job of a request of one tick on its context, in that tick. -/
def Job.onCtx (j : Job) (i : Nat) : Job := { j with ctx := some i, total := 1, budget := 0, left := some 0 }

section
variable (runs : Runs (5 * n + 4) k 32 j b s) (none : j.left = .none) (full : j.budget = 3584)
  (mine : fieldLE b 1 1 ≤ 7 ∧ (k < 64 → s.ctxOwner (8 * n + fieldLE b 1 1) = k))
include runs none full mine

omit runs none full mine in
theorem openCtx_fields {d : DigCtx} (given : openCtx b = some d) (plain : d.keyed = false) :
    d = { state := .open_, alg := fieldLE b 2 1, outLen := d.outLen, compat := decide (fieldLE b 3 1 = 1), decl := BitVec.ofNat 32 (fieldLE b 8 4) } := by
  unfold openCtx at given
  extract_lets alg flags keyed out inLen outOk at given
  have is := Option.some.inj (Option.ite_none_left_eq_some.1 given).2
  rw [← is] at plain ⊢
  rw [show decide keyed = false from plain]

theorem digOpen_of_plain (is : fieldLE b 0 1 = 1) (fields : onlyFields b 32 [(0, 2), (2, 11), (16, 8)] = true)
    (free : (s.ctx n (fieldLE b 1 1)).state = .free) {d : DigCtx} (given : openCtx b = some d) (plain : d.keyed = false) (long : d.decl ≠ 0)
    (custom : fieldLE b 20 4 = 0) : execDigOpen n k s =
      .next (nextRequest (5 * n + 4) k { j.onCtx (fieldLE b 1 1) with key := .none, out := [] } (s.setCtx n (fieldLE b 1 1) d)) := by
  have whole : { d with key := [], custom := [], hide := false } = d := by rw [openCtx_fields given plain]
  unfold execDigOpen
  rw [digRow_of_start runs is none full mine fields (by simp [free]) (m := 1) (u := s)
    (j' := { j with ctx := some (fieldLE b 1 1), key := .none, out := s.ramRead (fieldLE b 16 4) (fieldLE b 20 4) })]
  · refine congrArg _ (wholeTick_of_last rfl ?_)
    unfold digFin
    dsimp only
    rw [given]
    dsimp only
    rw [if_neg long, plain, custom]
    rw [plain] at whole
    exact congrArg (fun c => (0, _, s.setCtx n (fieldLE b 1 1) c)) (Eq.trans (by rfl) whole)
  · dsimp only
    rw [given]
    dsimp only
    rw [if_neg (by simp [State.covered, custom]), plain]
    rw [if_neg (by simp), if_neg long]
    rfl

theorem digClose_is (is : fieldLE b 0 1 = 4) (fields : onlyFields b 32 [(0, 2)] = true) : execDigClose n k s =
    .next (nextRequest (5 * n + 4) k { j.onCtx (fieldLE b 1 1) with out := [] } (s.setCtx n (fieldLE b 1 1) {})) := by
  unfold execDigClose
  rw [digRow_of_start runs is none full mine fields rfl rfl, wholeTick_of_last rfl rfl]
  rfl

theorem digCmp_of_undone (is : fieldLE b 0 1 = 3) (fields : onlyFields b 32 [(0, 2), (13, 1), (16, 4)] = true)
    (state : (s.ctx n (fieldLE b 1 1)).state ≠ .done) : execDigCmp n k s = .next (stopRequest (5 * n + 4) k 0x51 j s) := by
  unfold execDigCmp
  dsimp only
  rw [digRow_of_state runs is none full mine fields (by simp [state])]

theorem digCmp_of_equal (is : fieldLE b 0 1 = 3) (fields : onlyFields b 32 [(0, 2), (13, 1), (16, 4)] = true)
    (state : (s.ctx n (fieldLE b 1 1)).state = .done) (low : (if (s.ctx n (fieldLE b 1 1)).keyed then 16 else 1) ≤ fieldLE b 13 1)
    (high : fieldLE b 13 1 ≤ (s.ctx n (fieldLE b 1 1)).outLen) (pages : s.inPages n k (fieldLE b 16 4) (fieldLE b 13 1) = true)
    (equal : (s.ctx n (fieldLE b 1 1)).result.take (fieldLE b 13 1) = s.ramRead (fieldLE b 16 4) (fieldLE b 13 1)) : execDigCmp n k s =
      .next (nextRequest (5 * n + 4) k { j.onCtx (fieldLE b 1 1) with out := [] }
        (s.setCtx n (fieldLE b 1 1) { s.ctx n (fieldLE b 1 1) with eq := true, cmpv := true })) := by
  have bench : (5 * n + 4) / 5 = n := by omega
  unfold execDigCmp
  dsimp only
  rw [digRow_of_start runs is none full mine fields (by simp [state]) (m := 1) (j' := { j with ctx := some (fieldLE b 1 1) }) (u := s)]
  · refine congrArg _ (wholeTick_of_last rfl ?_)
    unfold digFin
    dsimp only
    rw [if_pos equal]
    exact congrArg (fun e => (0, _, s.setCtx n (fieldLE b 1 1) { s.ctx n (fieldLE b 1 1) with eq := e, cmpv := true })) (decide_eq_true equal)
  · rw [if_neg (by simp; omega), if_neg (by simp [State.covered, bench, pages])]

end

/-- The job of the last tick of a FEED. -/
def Job.fed (j : Job) (m : Nat) : Job := { j with budget := 0, left := some 0, feed := j.feed - m, out := [] }

theorem digFeed_of_last (runs : Runs (5 * n + 4) k 32 j b s) (is : fieldLE b 0 1 = 2) (left : j.left = some 1) (more : j.feed ≠ 0) :
    let c := s.ctx n (fieldLE b 1 1)
    let m := min j.feed (algK c.alg)
    let c' : DigCtx := { c with fed := c.fed + BitVec.ofNat 32 m, data := c.data ++ s.ramRead (fieldLE b 16 4 + j.out.length) m }
    ∃ u, u.jobs = s.jobs ∧ KeepsBut (8 * n + fieldLE b 1 1) s u ∧ u.ctx n (fieldLE b 1 1) = (if c'.fed = c'.decl then c'.finalise else c') ∧
      execDigFeed n k s = .next (nextRequest (5 * n + 4) k (j.fed m) u) := by
  intro c m c'
  have absorbed : m ≠ 0 := by
    have capacity : 0 < algK c.alg := by
      unfold algK
      split_ifs <;> decide
    exact Nat.ne_of_gt (by omega)
  unfold execDigFeed
  dsimp only
  rw [digRow_of_left runs is left]
  have works : ∀ v, v = s.setCtx n (fieldLE b 1 1) c' → v.jobs = s.jobs ∧ KeepsBut (8 * n + fieldLE b 1 1) s v ∧ v.ctx n (fieldLE b 1 1) = c' := by
    rintro v rfl
    exact ⟨rfl, keepsBut_setCtx .., State.ctx_set_same ..⟩
  generalize set : s.setCtx n (fieldLE b 1 1) c' = v at works
  obtain ⟨jobs, keeps, here⟩ := works v rfl
  have ends : ∀ u, u = (if c'.fed = c'.decl then v.setCtx n (fieldLE b 1 1) c'.finalise else v) → u.jobs = s.jobs ∧ KeepsBut (8 * n + fieldLE b 1 1) s u ∧
      u.ctx n (fieldLE b 1 1) = (if c'.fed = c'.decl then c'.finalise else c') := by
    rintro u rfl
    split
    · exact ⟨jobs, keeps.trans (keepsBut_setCtx ..), State.ctx_set_same ..⟩
    · exact ⟨jobs, keeps, here⟩
  obtain ⟨jobs', keeps', ctx'⟩ := ends _ rfl
  refine ⟨_, jobs', keeps', ctx', congrArg _ (wholeTick_of_last (if_neg absorbed) ?_)⟩
  rw [← set] at here ⊢
  unfold digFin
  dsimp only
  rw [here]
  rfl

end

/-! ### Owners of contexts -/

section
variable {n : Nat} {s : State}

/-- The owner byte of a context of a digest engine. -/
def State.ownByte (s : State) (n i : Nat) : Nat := tget 0xFF (s.engine (5 * n + 4)).own i

theorem ctxOwner_eq {i : Nat} (low : i < 8) : s.ctxOwner (8 * n + i) = s.ownByte n i := by
  unfold State.ctxOwner State.ownByte
  rw [show (8 * n + i) / 8 = n by omega, show (8 * n + i) % 8 = i by omega]

/-- What a change of the owner of context `i` leaves and does. -/
def Changed (n i v : Nat) (s t : State) : Prop :=
  t.ram = s.ram ∧ t.out = s.out ∧ (∀ j, t.ownByte n j = if j = i then v else s.ownByte n j) ∧
    ∀ j < 8, t.ctx n j = if j = i ∧ v ≠ s.ownByte n i then {} else s.ctx n j

/-- The state in which the former owner's job on context `i` has ended. -/
def State.evicted (s : State) (q k i : Nat) : State :=
  if k < 64 && (s.job q k).state = .run && (s.job q k).ctx = some i && (s.job q k).ending.isNone then endJob q k 0x52 s else s

theorem evicted_leaves (q k i : Nat) (s : State) :
    (s.evicted q k i).ram = s.ram ∧ (s.evicted q k i).out = s.out ∧ (s.evicted q k i).engines = s.engines ∧ (s.evicted q k i).dig = s.dig := by
  unfold State.evicted
  split
  · exact ⟨rfl, rfl, rfl, rfl⟩
  · exact ⟨rfl, rfl, rfl, rfl⟩

theorem changeOwner_changed {i v : Nat} (low : i < 8) : Changed n i v s (changeOwner n i v s) := by
  unfold changeOwner
  dsimp only
  rw [ctxOwner_eq low]
  split
  next same =>
    refine ⟨rfl, rfl, fun j => ?_, fun j _ => (if_neg fun other => other.2 same.symm).symm⟩
    split
    next here => rw [here, same]
    · rfl
  next other =>
    have ended := evicted_leaves (5 * n + 4) (s.ownByte n i) i s
    rw [← State.evicted]
    generalize s.evicted (5 * n + 4) (s.ownByte n i) i = u at ended ⊢
    obtain ⟨ram, out, engines, dig⟩ := ended
    refine ⟨ram, out, fun j => ?_, fun j _ => ?_⟩
    · unfold State.ownByte
      rw [State.modEngine_eq, State.engine_set_same, State.engine_setCtx]
      split
      next here => rw [here]; exact tget_tset_same ..
      next away => exact (tget_tset_ne _ _ _ away).trans (congrArg (fun e : Tbl Engine => tget 0xFF (tget ({} : Engine) e (5 * n + 4)).own j) engines)
    · rw [State.modEngine_eq, State.ctx_setEngine]
      by_cases here : j = i
      · subst here
        rw [if_pos ⟨rfl, fun same => other same.symm⟩]
        exact State.ctx_set_same ..
      · rw [if_neg fun both => here both.1]
        have away : 8 * n + j ≠ 8 * n + i := by omega
        refine (tget_tset_ne ({} : DigCtx) u.dig {} away :).trans ?_
        exact congrArg (fun d : Tbl DigCtx => tget ({} : DigCtx) d (8 * n + j)) dig

theorem foldl_changeOwner (byte : Nat → Nat) (l : List Nat) (low : ∀ i ∈ l, i < 8) (once : l.Nodup) (s : State) :
    let t := l.foldl (fun t i => changeOwner n i (byte i) t) s
    t.ram = s.ram ∧ t.out = s.out ∧ (∀ j, t.ownByte n j = if j ∈ l then byte j else s.ownByte n j) ∧
      ∀ j < 8, t.ctx n j = if j ∈ l ∧ byte j ≠ s.ownByte n j then {} else s.ctx n j := by
  induction l generalizing s with
  | nil => exact ⟨rfl, rfl, fun _ => rfl, fun _ _ => (if_neg fun h => nomatch h.1).symm⟩
  | cons i l ih =>
    obtain ⟨apart, once⟩ := List.nodup_cons.1 once
    obtain ⟨ram, out, own, ctx⟩ := changeOwner_changed (n := n) (s := s) (v := byte i) (low i (.head _))
    obtain ⟨ram', out', own', ctx'⟩ := ih (fun x mem => low x (.tail _ mem)) once (changeOwner n i (byte i) s)
    refine ⟨ram'.trans ram, out'.trans out, fun j => ?_, fun j small => ?_⟩
    · refine (own' j).trans ?_
      rw [own]
      by_cases here : j = i
      · subst here
        simp [apart]
      · simp [here]
    · refine (ctx' j small).trans ?_
      rw [own, ctx j small]
      by_cases here : j = i
      · subst here
        simp [apart]
      · simp [here]

end

end Sys2Proof.Machine

namespace Sys2Proof.Proofs
open Sys2Proof Sys2Proof.Machine Sys2Proof.Claims

/-- Settles O30. -/
theorem digestEngines : Obligations.DigestEngines := by
  unfold Obligations.DigestEngines
  refine ⟨?_, ?_⟩
  · intro n k j b s runs q i c mine len addr keeps
    have ending := ending_of_runs runs
    refine ⟨?_, ?_, ?_, ?_, ?_⟩
    · intro is none full mine' fields free d given plain long custom
      have done := digOpen_of_plain runs none full mine' is fields free given plain long custom
      rw [show exec (.digOpen n k) s = execDigOpen n k s from rfl, done]
      refine contextDone rfl (State.ctx_set_same ..) (keepsBut_setCtx ..) rfl rfl ending fun t kept ctx => ⟨kept, ctx.trans (openCtx_fields given plain)⟩
    · intro is left more m d fed out
      obtain ⟨u, jobs, keeps', ctx, done⟩ := digFeed_of_last runs is left more
      rw [show exec (.digFeed n k) s = execDigFeed n k s from rfl, done]
      refine contextDone jobs ctx keeps' rfl rfl ending fun t kept ctx => ⟨kept, fun open_ => ctx.trans (if_neg open_), fun closed => ctx.trans (if_pos closed)⟩
    · intro is none full mine' fields state low high pages equal
      have done := digCmp_of_equal runs none full mine' is fields state low high pages equal
      rw [show exec (.digCmp n k) s = execDigCmp n k s from rfl, done]
      refine contextDone rfl (State.ctx_set_same ..) (keepsBut_setCtx ..) rfl rfl ending fun t kept ctx => ⟨kept, ctx⟩
    · intro is none full mine' fields state
      rw [show exec (.digCmp n k) s = execDigCmp n k s from rfl, digCmp_of_undone runs none full mine' is fields state]
      exact jobEnds_of_stop ..
    · intro is none full mine' fields
      rw [show exec (.digClose n k) s = execDigClose n k s from rfl, digClose_is runs none full mine' is fields]
      refine contextDone rfl (State.ctx_set_same ..) (keepsBut_setCtx ..) rfl rfl ending fun t kept ctx => ⟨kept, ctx⟩
  · intro n v m addr write s q byte
    have runs : s.islandRuns = true → n < s.nBench ∨ n = 16 → exec (.digOwnWrite n v) s = .next (digOwn n v s) := by
      intro island there
      have low : s.nBench ≤ 16 := by
        unfold State.nBench
        cases s.ident.variant <;> decide
      exact if_pos (by simp [island, there]; omega)
    refine ⟨fun island there free good => ?_, fun island there free ⟨i, low, given, absent⟩ => ?_, fun x held => ?_⟩
    · have taken : digOwn n v s = (List.range 8).foldl (fun t i => changeOwner n i (byte i) t) { s with out := { s.out with bus := .ok [] } } :=
        (if_neg (Bool.eq_false_iff.1 free)).trans (if_pos (List.all_eq_true.2 fun i mem => by simpa using good i (List.mem_range.1 mem)))
      obtain ⟨ram, out, own, ctx⟩ := foldl_changeOwner (n := n) byte (List.range 8) (fun _ mem => List.mem_range.1 mem) List.nodup_range
        { s with out := { s.out with bus := .ok [] } }
      rw [← taken] at ram out own ctx
      refine ⟨_, runs island there, congrArg Out.bus out, ram, fun i low => ⟨(own i).trans (if_pos (List.mem_range.2 low)), (ctx i low).trans ?_⟩⟩
      rw [ctxOwner_eq low]
      by_cases same : byte i = s.ownByte n i
      · rw [if_pos same, if_neg fun other => other.2 same]
        rfl
      · rw [if_neg same, if_pos ⟨List.mem_range.2 low, same⟩]
    · have refused : digOwn n v s = raiseIsland 48 { s with out := { s.out with bus := .range } } := by
        refine (if_neg (Bool.eq_false_iff.1 free)).trans (if_neg fun all => ?_)
        have ok : byte i = 0xFF ∨ byte i < s.nLease := by simpa using List.all_eq_true.1 all i (List.mem_range.2 low)
        omega
      have calm : (raiseIsland 48 { s with out := { s.out with bus := .range } }).calm = _ := raise_calm .rfl
      refine ⟨_, runs island there, ?_, ?_⟩
      · rw [refused]; exact (congrArg (fun t : State => t.out.bus) calm :)
      · rw [refused]; exact (congrArg State.ram calm :)
    · have done : exec (.heldRangeAccess m addr write) s =
          .next (engineEvent (5 * x.bench + 3) 5 x.lease { s with out := { s.out with bus := if write then .ok [] else .held } }) := by
        change execHeldRangeAccess m addr write s = _
        unfold execHeldRangeAccess
        rw [held]
      have calm : (engineEvent (5 * x.bench + 3) 5 x.lease { s with out := { s.out with bus := if write then .ok [] else .held } }).calm = _ := raise_calm .rfl
      exact ⟨_, done, (congrArg State.ram calm :), (congrArg State.held calm :), (congrArg (fun t : State => t.out.bus) calm :)⟩

end Sys2Proof.Proofs

/-! PROOFS. The last tick of a command (R96-R101), and the commands that compute an output or need no engine (R106-R118). -/

namespace Sys2Proof.Machine
open Sys2Proof Sys2Proof.Claims

/-! ### The end of a command -/

/-- The state but for its commands and the target slots let go. -/
def State.uncommanded (s : State) : State := { s with cmds := [], yard := { s.yard with freed := [] } }

theorem quietFor_of_calm {s t : State} (same : t.uncommanded.calm = s.uncommanded.calm) : QuietFor s t :=
  ⟨(congrArg State.ram same :), (congrArg State.dsp same :), (congrArg State.queues same :), (congrArg (fun u : State => u.yard.slots) same :),
    (congrArg State.cores same :)⟩

theorem quietFor_of_uncommanded {s t : State} (same : t.uncommanded = s.uncommanded) : QuietFor s t := quietFor_of_calm (congrArg State.calm same)

section
variable {h : Nat} {c : Cmd} {u : State} {p : State → Prop}

/-- What ends a command makes of it. -/
def Cmd.ended (c : Cmd) (status need at_ : Nat) (out : Bytes) : Cmd :=
  { c with result := some (status, need), out := if status = 0 then out else [], doneAt := at_, resv := [], a := c.a.wiped, b := c.b.map Part.wiped }

theorem endCmdAt_of_open (cmd : u.cmd h = some c) (open_ : c.result = none) (at_ status need : Nat) (out : Bytes) :
    endCmdAt at_ h status need out u = (releaseSlots c.resv u).setCmd h (c.ended status need at_ out) := by
  unfold endCmdAt
  rw [cmd]
  exact if_neg (by simp [open_])

theorem endsWith_of_endCmdAt (cmd : u.cmd h = some c) (open_ : c.result = none) {at_ status : Nat} {out : Bytes}
    (leaves : ∀ t : State, t.uncommanded = u.uncommanded → p t) :
    EndsWith h status (if status = 0 then out else []) at_ p (.next (endCmdAt at_ h status 0 out u)) := by
  rw [endCmdAt_of_open cmd open_]
  exact ⟨_, _, rfl, State.cmd_set_same .., rfl, rfl, rfl, leaves _ rfl⟩

theorem endsWith_of_endPart (cmd : u.cmd h = some c) (single : c.b = none) (open_ : c.result = none) {st : Nat} {out : Bytes}
    (leaves : ∀ t : State, t.uncommanded = u.uncommanded → p t) :
    EndsWith h st (if st = 0 then out else []) c.a.lastAt p (.next (endPart h false st out u)) := by
  obtain ⟨d, x, y, ends, result, output, at_, only⟩ := endPart_ends (st := st) (out := out) cmd single open_
  exact ⟨_, d, rfl, ends, result, output, at_, leaves _ (by rw [only]; rfl)⟩

/-! ### The last tick of a part -/

variable {s : State} {op : Nat} {f : Cmd → Part → State → Nat × Bytes × State} (ripe : Ripe h c s) (is : c.opcode = op)
include ripe is

theorem finish_of_Ripe (bad : Bool) : finish op h false bad f s = if bad then endPart h false 0x0131 [] (faultCheck (c.a.eng.getD 0) s)
    else endPart h false (f c c.a s).1 (f c c.a s).2.1 (f c c.a s).2.2 := by
  obtain ⟨cmd, -, open_, going, some, full, due, erased⟩ := ripe
  have engine : s.partEngine h false = c.a.eng.getD 84 := by
    unfold State.partEngine
    rw [cmd]
    rfl
  exact finish_of_ripe cmd (by simp [Cmd.ripe, Cmd.part, is, open_, going, some, full]) due (by rw [engine]; exact erased)

/-- A command of one part ends with what its last tick gives. -/
theorem endsWith_of_finish {st : Nat} {out : Bytes} (gives : f c c.a s = (st, out, u)) (cmds : u.cmds = s.cmds)
    (leaves : ∀ t : State, t.uncommanded = u.uncommanded → p t) :
    EndsWith h st (if st = 0 then out else []) c.a.lastAt p (.next (finish op h false false f s)) := by
  rw [finish_of_Ripe ripe is false, gives]
  obtain ⟨cmd, single, open_, -⟩ := ripe
  exact endsWith_of_endPart ((congrArg (tfind · h) cmds).trans cmd) single open_ leaves

/-- A command of one part that gives an output. -/
theorem endsWith_output {out : Bytes} (gives : f c c.a s = (0, out, s)) :
    EndsWith h 0 out c.a.lastAt (QuietFor s) (.next (finish op h false false f s)) :=
  endsWith_of_finish ripe is gives rfl fun _ => quietFor_of_uncommanded

/-- One whose last tick fails, at most with an event. -/
theorem endsWith_status {st : Nat} (gives : f c c.a s = (st, [], u)) (calm : u.calm = s.calm) :
    EndsWith h st [] c.a.lastAt (QuietFor s) (.next (finish op h false false f s)) := by
  have ends := endsWith_of_finish (p := QuietFor s) ripe is gives (congrArg State.cmds calm :)
    fun t same => quietFor_of_calm ((congrArg State.calm same).trans (congrArg State.uncommanded calm :))
  rwa [ite_self] at ends

/-- One whose fault check fails. -/
theorem endsWith_fault : EndsWith h 0x0131 [] c.a.lastAt (QuietFor s) (.next (finish op h false true f s)) := by
  rw [finish_of_Ripe ripe is true]
  obtain ⟨cmd, single, open_, -⟩ := ripe
  have calm : (faultCheck (c.a.eng.getD 0) s).calm = s.calm := faultCheck_calm .rfl
  have cmds : (faultCheck (c.a.eng.getD 0) s).cmds = s.cmds := (congrArg State.cmds calm :)
  exact endsWith_of_endPart ((congrArg (tfind · h) cmds).trans cmd) single open_
    fun t same => quietFor_of_calm ((congrArg State.calm same).trans (congrArg State.uncommanded calm :))

end

/-! ### Private operations -/

section
variable {h : Nat} {c : Cmd} {p : Part} {s u : State}

theorem fEcdsaSign_of_some {out : Bytes} (signs : ecdsaSign (curveOf p.keyType) (p.val.take (if curveOf p.keyType = 3 then 32 else 48)) c.input
    (p.drawn.take (if curveOf p.keyType = 3 then 32 else 48)) = some out) : fEcdsaSign c p s = (0, out, s) := by
  unfold fEcdsaSign
  dsimp only
  rw [signs]

theorem fEcdsaSign_of_none (fails : ecdsaSign (curveOf p.keyType) (p.val.take (if curveOf p.keyType = 3 then 32 else 48)) c.input
    (p.drawn.take (if curveOf p.keyType = 3 then 32 else 48)) = none) : fEcdsaSign c p s = (0x0131, [], faultCheck (p.eng.getD 0) s) := by
  unfold fEcdsaSign
  dsimp only
  rw [fails]

theorem fRsaPriv_of_some {out : Bytes} (gives : rsaPrivate p.keyType p.val c.input p.drawn = some out) : fRsaPriv c p s = (0, out, s) := by
  unfold fRsaPriv
  rw [gives]

theorem fRsaPriv_of_none (fails : rsaPrivate p.keyType p.val c.input p.drawn = none) : fRsaPriv c p s = (0x0131, [], faultCheck (p.eng.getD 0) s) := by
  unfold fRsaPriv
  rw [fails]

theorem fRsaPub_of_slot (slot : c.yref ≠ 0) :
    fRsaPub c p s = (0, beBytes (rsaLen p.keyType) (powMod (beNat c.input) 65537 (rsaKey p.keyType p.val).n), s) := by
  unfold fRsaPub
  dsimp only
  rw [if_neg slot, if_neg slot, if_neg slot]

theorem fRsaPub_of_inline (inline : c.yref = 0) : let k := rsaLen (0x1F + c.p0)
    fRsaPub c p s = (0, beBytes k (powMod (beNat (slice c.input k k)) 65537 (beNat (slice c.input 0 k))), s) := by
  unfold fRsaPub
  dsimp only
  rw [if_pos inline, if_pos inline, if_pos inline]

end

/-! ### Commands without an engine -/

section
variable {h op : Nat} {c : Cmd} {s u : State} {f : Cmd → State → Bytes × State}

theorem finishFree_of_due (due : FreeDue op h c s u) : finishFree op h f s = endCmd h 0 0 (f c u).1 (f c u).2 := by
  obtain ⟨cmd, is, open_, free, ⟨t, staged, past⟩, runs, live, firsts, l, ok⟩ := due
  unfold finishFree
  rw [runFirsts_nil _ firsts]
  dsimp only
  rw [cmd]
  dsimp only
  rw [staged]
  refine (if_neg (by simp [is, open_, free, past, runs, live])).trans ?_
  rw [ok]
  exact if_neg (fun bad => bad rfl)

/-- A command without an engine ends in the tick that it is due in. -/
theorem endsWith_of_free {p : State → Prop} {out : Bytes} {v : State} (due : FreeDue op h c s u) (cmd : u.cmd h = some c) (gives : f c u = (out, v))
    (cmds : v.cmds = u.cmds) (now : v.pw.now = u.pw.now) (leaves : ∀ t : State, t.uncommanded = v.uncommanded → p t) :
    EndsWith h 0 out u.pw.now p (.next (finishFree op h f s)) := by
  rw [finishFree_of_due due, gives]
  obtain ⟨-, -, open_, -⟩ := due
  rw [← now]
  exact endsWith_of_endCmdAt (status := 0) (out := out) ((congrArg (tfind · h) cmds).trans cmd) open_ leaves

/-- What an invalidation leaves of the commands and the clock. -/
theorem invalidate_cmds (i : Nat) (s : State) : (invalidate i s).cmds = s.cmds ∧ (invalidate i s).pw = s.pw := by
  have empty : ∀ j t, (emptySlot j t).cmds = t.cmds ∧ (emptySlot j t).pw = t.pw := by
    intro j t
    unfold emptySlot
    extract_lets v
    split
    · exact ⟨rfl, rfl⟩
    · exact ⟨rfl, rfl⟩
  have kept : Same (fun t : State => (t.cmds, t.pw)) s (invalidate i s) :=
    Same.foldl (f := fun t j => emptySlot j t) (fun t j h => (Prod.ext (empty j t).1 (empty j t).2 : _).trans h) _ .rfl
  exact ⟨congrArg Prod.fst kept, congrArg Prod.snd kept⟩

/-- The slots of a key that is made invalid come empty. -/
theorem invalidate_empties {i j : Nat} {s : State} (listed : j < typeRun (s.slot i).type)
    (mine : j = 0 ∨ ((s.slot (i + j)).type = 0x2F ∧ (s.slot (i + j)).run = j ∧ (s.slot (i + j)).gen = (s.slot i).gen)) :
    (i + j, emptied (s.slot (i + j))) ∈ (invalidate i s).yard.next := by
  unfold invalidate
  extract_lets x mine'
  refine emptySlots_next rfl (.inl (List.mem_filter.2 ⟨List.mem_map.2 ⟨j, List.mem_range.2 listed, rfl⟩, ?_⟩))
  rcases mine with rfl | ⟨type, run, gen⟩
  · simp [mine']
  · simp [mine', type, run, gen, x]

theorem typeRun_pos (t : Nat) : 0 < typeRun t := by
  unfold typeRun
  split_ifs <;> decide

/-- A part that has no ticks yet is not over. -/
theorem finish_of_idle {g : Cmd → Part → State → Nat × Bytes × State} {bad : Bool} (cmd : s.cmd h = some c) (idle : c.a.total = 0)
    (firsts : s.dsp.due = []) : finish op h false bad g s = s := by
  unfold finish
  rw [runFirsts_nil _ firsts]
  dsimp only
  rw [cmd]
  exact if_pos (by simp [Cmd.ripe, Cmd.part, idle])

end

end Sys2Proof.Machine

namespace Sys2Proof.Proofs
open Sys2Proof Sys2Proof.Machine Sys2Proof.Claims

/-- Settles O26. -/
theorem catalogueOutputs : Obligations.CatalogueOutputs := by
  unfold Obligations.CatalogueOutputs
  refine ⟨fun h c s ripe => ?_, fun h c s u => ?_⟩
  · intro key quiet len aad text gcm tag
    refine ⟨fun is => endsWith_output ripe is rfl, fun is => endsWith_output ripe is rfl, fun is => endsWith_output ripe is rfl, fun is => endsWith_output ripe is rfl,
      fun is => endsWith_output ripe is rfl, fun is => endsWith_output ripe is rfl, fun is => endsWith_output ripe is rfl, fun is => endsWith_output ripe is rfl,
      fun is => endsWith_output ripe is rfl, fun is => endsWith_output ripe is rfl, ?ecdsa, ?pub, ?pubInline, ?priv⟩
    case ecdsa =>
      intro is l n half k r z
      have signs : ecdsaSign (curveOf c.a.keyType) (key.take l) c.input (c.a.drawn.take l) =
          if (r = 0 || z = 0) = true then none else some (beBytes l r ++ beBytes l z) := rfl
      refine ⟨fun some some' => endsWith_output ripe is (fEcdsaSign_of_some (signs.trans (if_neg (by simp [some, some'])))), fun zero => ?_⟩
      exact endsWith_status ripe is (fEcdsaSign_of_none (signs.trans (if_pos (by simpa using zero)))) (faultCheck_calm .rfl)
    case pub => exact fun is slot => endsWith_output ripe is (fRsaPub_of_slot slot)
    case pubInline => exact fun is inline => endsWith_output ripe is (fRsaPub_of_inline inline)
    case priv =>
      intro is k y good
      have private_ : rsaPrivate c.a.keyType key c.input c.a.drawn =
          if (Nat.gcd (beNat (c.a.drawn.take (rsaLen c.a.keyType)) % k.n) k.n = 1 && powMod y 65537 k.n = beNat c.input) = true
          then some (beBytes (rsaLen c.a.keyType) y) else none := rfl
      refine ⟨fun ok => endsWith_output ripe is (fRsaPriv_of_some (private_.trans (if_pos (by rw [Bool.and_eq_true, decide_eq_true_eq, decide_eq_true_eq]; exact ok)))), fun bad => ?_, endsWith_fault ripe is⟩
      exact endsWith_status ripe is (fRsaPriv_of_none (private_.trans (if_neg (by rw [Bool.and_eq_true, decide_eq_true_eq, decide_eq_true_eq]; exact bad)))) (faultCheck_calm .rfl)
  · refine ⟨fun due cmd => endsWith_of_free due cmd rfl rfl rfl fun _ => quietFor_of_uncommanded, ?inval,
      fun due cmd => endsWith_of_free due cmd rfl rfl rfl fun _ => quietFor_of_uncommanded, ?pub, ?call⟩
    case inval =>
      intro due cmd i gone
      obtain ⟨cmds, pw⟩ := invalidate_cmds i u
      refine endsWith_of_free due cmd rfl cmds (congrArg Pw.now pw) fun t same => ?_
      have next : t.yard.next = (invalidate i u).yard.next := (congrArg (fun v : State => v.yard.next) same :)
      rw [next]
      refine ⟨(congrArg (fun v : State => v.yard.slots) same :).trans (congrArg (·.2.2.1) (emptySlots_rooted _ u)), ?_, fun j _ low type run gen => ?_⟩
      · exact invalidate_empties (j := 0) (typeRun_pos _) (.inl rfl)
      · exact invalidate_empties low (.inr ⟨type, run, gen⟩)
    case pub =>
      intro due cmd idle
      have waits : finish 0x0604 h false (false && s.pubChecked h) fKeyPub s = s := by
        obtain ⟨cmd', -, -, -, -, -, -, firsts, -⟩ := due
        exact finish_of_idle cmd' idle firsts
      change EndsWith _ _ _ _ _ (.next (finishFree 0x0604 h _ (finish 0x0604 h false (false && s.pubChecked h) fKeyPub s)))
      rw [waits]
      exact endsWith_of_free due cmd rfl rfl rfl fun _ => quietFor_of_uncommanded
    case call =>
      intro l cmd due new ok
      have looked : exec (.prgCall h) s = if (if (u.lease c.lease).inForce = [] then 0x0132 else 0) ≠ 0
          then .next (endCmd h (if (u.lease c.lease).inForce = [] then 0x0132 else 0) 0 [] (u.setCmd h { c with a := { c.a with ticks := 1 } }))
          else .next (u.setCmd h { c with admitted := true }) := by
        change execPrgCall h s = _
        unfold execPrgCall
        rw [cmd]
        refine (if_neg (by simp [due, new])).trans ?_
        rw [ok]
        rfl
      have open_ : c.result = none := by
        simp only [State.callDue, State.eligible, Bool.and_eq_true, Option.isNone_iff_eq_none] at due
        tauto
      refine ⟨fun loaded => looked.trans ?_, fun empty => ?_⟩
      · rw [if_neg loaded]
        rfl
      · rw [if_pos empty, if_pos (by decide)] at looked
        have ended := endCmdAt_of_open (u := u.setCmd h { c with a := { c.a with ticks := 1 } }) (State.cmd_set_same ..) open_ u.pw.now 0x0132 0 []
        refine ⟨_, _, looked.trans (congrArg Host.Outcome.next ended), State.cmd_set_same .., rfl, ?_⟩
        unfold Cmd.owned Cmd.ended
        cases c.b <;> rfl

end Sys2Proof.Proofs

/-! PROOFS. Commands that verify (R107, R108, R113). -/

namespace Sys2Proof.Machine
open Sys2Proof Sys2Proof.Claims

section
variable {h op : Nat} {c : Cmd} {s : State} {f : Cmd → Part → State → Nat × Bytes × State} (ripe : Ripe h c s) (is : c.opcode = op)
include ripe is

/-- A command that compares ends with OK, or with its failure status. -/
theorem endsWith_compared {good : Prop} [Decidable good] {q k bad : Nat} (gives : f c c.a s = compared q k bad good s) :
    EndsWith h (if good then 0 else bad) [] c.a.lastAt (QuietFor s) (.next (finish op h false false f s)) := by
  unfold compared at gives
  by_cases ok : good
  · rw [if_pos (decide_eq_true ok)] at gives
    rw [if_pos ok]
    exact endsWith_status ripe is gives rfl
  · rw [if_neg (by simpa using ok)] at gives
    rw [if_neg ok]
    exact endsWith_status ripe is gives (raise_calm .rfl)

/-- A command that verifies a signature ends with its verdict. -/
theorem endsWith_verdict {good : Bool} (gives : f c c.a s = verdict good s) :
    EndsWith h (if good then 0 else 0x0100) [] c.a.lastAt (QuietFor s) (.next (finish op h false false f s)) :=
  endsWith_status ripe is gives rfl

end

theorem splitKey_eq (c : Cmd) (len : Nat) (pub : Bytes) :
    splitKey c len pub = (if c.yref = 0 then slice c.input 0 len else pub, if c.yref = 0 then c.input.drop len else c.input) := by
  unfold splitKey
  split <;> rfl

/-! ### GCM_DEC -/

/-- What is cleared stays cleared. -/
theorem ramClears_zero (l : List Held) (s : State) (a : Nat) (h : Memory.get s.ram a = 0 ∨ ∃ x ∈ l, x.lo ≤ a ∧ a < x.hi) :
    Memory.get (l.foldl (fun t x => t.ramClear x.lo x.hi) s).ram a = 0 := by
  induction l generalizing s with
  | nil => exact h.resolve_right fun ⟨_, mem, _⟩ => nomatch mem
  | cons x l ih =>
    refine ih _ ?_
    have cleared := zeroed_ramClear x.lo x.hi s a
    by_cases inside : x.lo ≤ a ∧ a < x.hi
    · exact .inl (cleared.trans (if_pos inside))
    · rw [if_neg inside] at cleared
      rcases h with zero | ⟨y, mem, range⟩
      · exact .inl (cleared.trans zero)
      · rcases List.mem_cons.1 mem with rfl | mem
        · exact absurd range inside
        · exact .inr ⟨y, mem, range⟩

theorem dropHeld_zero {p : Held → Bool} {s : State} {x : Held} (mem : x ∈ s.held) (mine : p x = true) {a : Nat} (range : x.lo ≤ a ∧ a < x.hi) :
    Memory.get (dropHeld p s).ram a = 0 := ramClears_zero _ _ _ (.inr ⟨x, List.mem_filter.2 ⟨mem, mine⟩, range⟩)

theorem dropHeld_held (p : Held → Bool) (s : State) : ∀ x ∈ (dropHeld p s).held, p x = false := by
  intro x mem
  simpa using (List.mem_filter.1 mem).2

/-- The held ranges of a lease on a bench. -/
def heldFor (n k : Nat) (x : Held) : Bool := x.bench = n && x.lease = k

section
variable {c : Cmd} {p : Part} {s : State}

theorem fGcmDec_of_good (good : gcmTag p.val (c.u3.take 12) (c.input.take c.aad) (slice c.input c.aad c.plain) = slice c.input (c.aad + c.plain) 16) :
    fGcmDec c p s = (0, gcmText p.val (c.u3.take 12) (slice c.input c.aad c.plain),
      { s with held := s.held.filter fun x => !heldFor (p.eng.getD 0 / 5) c.lease x }) := if_pos good

theorem fGcmDec_of_bad (bad : gcmTag p.val (c.u3.take 12) (c.input.take c.aad) (slice c.input c.aad c.plain) ≠ slice c.input (c.aad + c.plain) 16) :
    fGcmDec c p s = (0x0102, [], engineEvent (p.eng.getD 0) 4 c.lease (dropHeld (heldFor (p.eng.getD 0 / 5) c.lease) s)) :=
  if_neg bad

end

end Sys2Proof.Machine

namespace Sys2Proof.Proofs
open Sys2Proof Sys2Proof.Machine Sys2Proof.Claims

/-- Settles O23. -/
theorem catalogueChecks : Obligations.CatalogueChecks := by
  unfold Obligations.CatalogueChecks
  intro h c s ripe key pub quiet len
  refine ⟨fun is => endsWith_compared ripe is rfl, fun is => endsWith_compared ripe is rfl, ?gcm, fun is => ?ed, fun is => ?ecdsa, fun is => ?mldsa⟩
  case gcm =>
    intro is iv ct mine
    have marks : ∀ x, heldFor (c.a.eng.getD 0 / 5) c.lease x = true ↔ mine x := fun x => by simp [heldFor, mine]
    refine ⟨fun good => ?_, fun bad => ?_⟩
    · refine endsWith_of_finish ripe is (fGcmDec_of_good good) rfl fun t same => ?_
      have held : t.held = s.held.filter fun x => !heldFor (c.a.eng.getD 0 / 5) c.lease x := (congrArg State.held same :)
      refine ⟨(congrArg State.ram same :), fun x mem own => ?_⟩
      rw [held] at mem
      have other := (List.mem_filter.1 mem).2
      rw [(marks x).2 own] at other
      exact nomatch other
    · obtain ⟨ram, held, dropped⟩ := dropHeld_frame (heldFor (c.a.eng.getD 0 / 5) c.lease) s
      have calm : (engineEvent (c.a.eng.getD 0) 4 c.lease (dropHeld (heldFor (c.a.eng.getD 0 / 5) c.lease) s)).calm = _ := raise_calm .rfl
      refine endsWith_of_finish ripe is (fGcmDec_of_bad bad) ((congrArg State.cmds calm :).trans (by rw [dropped]; rfl)) fun t same => ?_
      have ends : t.uncommanded.calm = (dropHeld (heldFor (c.a.eng.getD 0 / 5) c.lease) s).uncommanded.calm :=
        (congrArg State.calm same).trans (congrArg State.uncommanded calm :)
      refine ⟨fun x mem own => ?_, fun x mem own a low high => ?_⟩
      · have left := dropHeld_held (heldFor (c.a.eng.getD 0 / 5) c.lease) s x ((congrArg (x ∈ State.held ·) ends :).mp mem)
        rw [(marks x).2 own] at left
        exact nomatch left
      · exact (congrArg (fun u : State => Memory.get u.ram a) ends :).trans (dropHeld_zero mem ((marks x).2 own) ⟨low, high⟩)
  case ed =>
    refine endsWith_verdict ripe is ?_
    unfold fEdVerify
    rw [splitKey_eq]
  case ecdsa =>
    intro curve l pk rest
    refine endsWith_verdict ripe is ?_
    unfold fEcdsaVerify
    dsimp only
    rw [splitKey_eq]
  case mldsa =>
    intro pk rest m
    refine endsWith_verdict ripe is ?_
    unfold fMldsaVerify
    rw [splitKey_eq]
    rfl

end Sys2Proof.Proofs

/-! PROOFS. Commands that make keys (R109, R111, R116, R202, R216). -/

namespace Sys2Proof.Machine
open Sys2Proof Sys2Proof.Claims

section
variable (c : Cmd) (p : Part) (type len : Nat) (value : Bytes) (pending yOdd : Bool) (s : State)

/-- A new key of a command is a key written under some parent. -/
theorem newKey_writes : ∃ parent ps attr, newKey c p type len value pending yOdd s =
    (leBytes 4 (writeUnder c.lease c.target parent ps type len attr value pending yOdd s).1.toNat,
      (writeUnder c.lease c.target parent ps type len attr value pending yOdd s).2) := ⟨_, _, _, rfl⟩

theorem newKey_leaves : (newKey c p type len value pending yOdd s).1 = targetRef c s ∧
    KeyAt c.lease c.target type value pending s (newKey c p type len value pending yOdd s).2 ∧
    ∃ y, y.slots = s.yard.slots ∧ (newKey c p type len value pending yOdd s).2 = { s with yard := y } := by
  obtain ⟨parent, ps, attr, is⟩ := newKey_writes c p type len value pending yOdd s
  obtain ⟨key, ref⟩ := writeUnder_keyAt c.lease c.target parent ps type len attr value pending yOdd s
  obtain ⟨y, only⟩ := writeUnder_yard c.lease c.target parent ps type len attr value pending yOdd s
  have slots := congrArg Prod.fst (writeUnder_slotted c.lease c.target parent ps type len attr value pending yOdd s)
  rw [is]
  refine ⟨?_, key, y, ?_, only⟩
  · rw [ref]
    rfl
  · rw [only] at slots
    exact slots

end

section
variable {h op : Nat} {c : Cmd} {s u : State} {f : Cmd → Part → State → Nat × Bytes × State} (ripe : Ripe h c s) (is : c.opcode = op)
include ripe is

/-- What a command of one part leaves of its new key, where the marks of the yard's checks may differ. -/
theorem endsWith_key {type : Nat} {value out : Bytes} {pending : Bool} {y : Yard} (gives : f c c.a s = (0, out, u)) (only : u = { s with yard := y })
    (slots : y.slots = s.yard.slots) (key : KeyAt c.lease c.target type value pending s u) :
    EndsWith h 0 out c.a.lastAt (NewKey c type value s) (.next (finish op h false false f s)) := by
  refine endsWith_of_finish ripe is gives (by rw [only]) fun t same => ?_
  obtain ⟨x, next, type', value', gen, -, owner⟩ := key
  have yard : t.yard.next = u.yard.next := (congrArg (fun v : State => v.yard.next) same :)
  rw [only] at same
  refine ⟨⟨(congrArg State.ram same :), (congrArg State.dsp same :), (congrArg State.queues same :), (congrArg (fun v : State => v.yard.slots) same :).trans slots,
    (congrArg State.cores same :)⟩, x, ?_, type', value', gen, owner⟩
  rw [yard]
  exact next

/-- A command of one part that outputs the reference to its new key, and more. -/
theorem endsWith_newKey {type len : Nat} {value tail : Bytes} {pending yOdd : Bool}
    (gives : f c c.a s = (0, (newKey c c.a type len value pending yOdd s).1 ++ tail, (newKey c c.a type len value pending yOdd s).2)) :
    EndsWith h 0 (targetRef c s ++ tail) c.a.lastAt (NewKey c type value s) (.next (finish op h false false f s)) := by
  obtain ⟨ref, key, y, slots, only⟩ := newKey_leaves c c.a type len value pending yOdd s
  rw [ref] at gives
  exact endsWith_key ripe is gives only slots key

/-- One that outputs the reference alone. -/
theorem endsWith_newKey_alone {type len : Nat} {value : Bytes} {pending yOdd : Bool}
    (gives : f c c.a s = (0, (newKey c c.a type len value pending yOdd s).1, (newKey c c.a type len value pending yOdd s).2)) :
    EndsWith h 0 (targetRef c s) c.a.lastAt (NewKey c type value s) (.next (finish op h false false f s)) := by
  have ends := endsWith_newKey (tail := []) ripe is (by rw [List.append_nil]; exact gives)
  rwa [List.append_nil] at ends

end

section
variable {c : Cmd} {p : Part} {s : State}

theorem fAgree_of_none (fails : Config.agree (curveOf p.keyType) ((p.key.map Slot.priv).getD []) c.input = none) : fAgree c p s = (0x0121, [], s) := by
  unfold fAgree
  dsimp only
  rw [fails]

theorem fAgree_of_some {v : Bytes} (gives : Config.agree (curveOf p.keyType) ((p.key.map Slot.priv).getD []) c.input = some v) :
    let l := if curveOf p.keyType = 4 then 48 else 32
    fAgree c p s = (0, (newKey c p 0x04 l (fixLen l v) false false s).1, (newKey c p 0x04 l (fixLen l v) false false s).2) := by
  unfold fAgree
  dsimp only
  rw [gives]

theorem fKeyUnwrap_of_bad (bad : blobHeaderOk c.input = false ∨ unwrapBlob p.val c.input = none) : fKeyUnwrap c p s = (0x0103, [], s) := by
  unfold fKeyUnwrap
  split
  · rfl
  next ok =>
    rw [bad.resolve_left (by simpa using ok)]

theorem fKeyUnwrap_of_good {v : Bytes} (header : blobHeaderOk c.input = true) (value : unwrapBlob p.val c.input = some v) : ∃ pending, fKeyUnwrap c p s =
    (0, (newKey c p (blobType c.input) (blobLen c.input) v pending (fieldLE c.input 7 1 = 1) s).1,
      if pending then markUnwrap c.target (newKey c p (blobType c.input) (blobLen c.input) v pending (fieldLE c.input 7 1 = 1) s).2
      else (newKey c p (blobType c.input) (blobLen c.input) v pending (fieldLE c.input 7 1 = 1) s).2) := by
  unfold fKeyUnwrap
  rw [header, value]
  exact ⟨_, rfl⟩

end

end Sys2Proof.Machine

namespace Sys2Proof.Proofs
open Sys2Proof Sys2Proof.Machine Sys2Proof.Claims

/-- Settles O24. -/
theorem catalogueKeys : Obligations.CatalogueKeys := by
  unfold Obligations.CatalogueKeys
  intro h c s ripe key quiet drawn ref
  refine ⟨fun is => endsWith_newKey_alone ripe is (len := if c.p0 = 3 then c.p1 else 0) (pending := false) (yOdd := false) rfl,
    fun is => endsWith_newKey_alone ripe is (len := if 3 ≤ c.p0 then c.p1 else 0) (pending := false) (yOdd := false) rfl,
    fun is => endsWith_newKey ripe is (len := 0) (pending := false) (yOdd := false) rfl,
    fun is => endsWith_newKey ripe is (len := 0) (pending := false) (yOdd := false) rfl, ?encaps,
    fun is => endsWith_newKey_alone ripe is (len := 32) (pending := false) (yOdd := false) rfl, ?keygen, ?agree, ?unwrap⟩
  case encaps =>
    intro is ek
    refine ⟨fun ok => endsWith_newKey ripe is (len := 32) (pending := false) (yOdd := false) (if_neg (show ¬(!Config.mlkemEkOk ek) = true by rw [ok]; decide)), fun bad =>
       endsWith_status ripe is (if_pos (show (!Config.mlkemEkOk ek) = true by rw [bad]; rfl)) rfl⟩
  case keygen =>
    intro is priv
    exact endsWith_newKey ripe is (len := 0) (pending := false) (yOdd := yIsOdd c.p0 (pubOf c.p0 priv)) rfl
  case agree =>
    rintro curve l peer rfl rfl agreed
    refine ⟨fun is => ⟨fun v some => endsWith_newKey_alone ripe is (fAgree_of_some (agreed.symm.trans some)),
      fun none => endsWith_status ripe is (fAgree_of_none (agreed.symm.trans none)) rfl⟩, fun is =>
      ⟨fun v some => endsWith_newKey_alone ripe is (fAgree_of_some (agreed.symm.trans some)),
      fun none => endsWith_status ripe is (fAgree_of_none (agreed.symm.trans none)) rfl⟩⟩
  case unwrap =>
    intro is
    refine ⟨fun v header value => ?_, fun bad => endsWith_status ripe is (fKeyUnwrap_of_bad bad) rfl⟩
    obtain ⟨pending, gives⟩ := fKeyUnwrap_of_good (s := s) header value
    obtain ⟨ref', new, y, slots, only⟩ := newKey_leaves c c.a (blobType c.input) (blobLen c.input) v pending (fieldLE c.input 7 1 = 1) s
    rw [ref'] at gives
    cases pending with
    | false => exact endsWith_key ripe is gives only slots new
    | true =>
      refine endsWith_key (y := { y with checks := y.checks.map fun x => if x.slot = c.target then { x with unwrap := true } else x }) ripe is gives ?_ slots new
      rw [if_pos rfl, only]
      rfl

end Sys2Proof.Proofs

/-! PROOFS. Signing, wrapping, public keys, and the hybrids of two parts (R101, R111-R116, R151). -/

namespace Sys2Proof.Machine
open Sys2Proof Sys2Proof.Claims

/-! ### What an event leaves of a splitter's counts -/

/-- The counts of signings and of signings without acceptance, by engine. -/
def State.tallies (s : State) (q : Nat) : BitVec 32 × BitVec 16 := ((s.engine q).sigs, (s.engine q).limit)

section
variable {s t : State}

theorem modEngine_tallies {q : Nat} {f : Engine → Engine} (kept : ∀ e, (f e).sigs = e.sigs ∧ (f e).limit = e.limit) (u : State) :
    Same State.tallies u (u.modEngine q f) := by
  refine funext fun i => ?_
  unfold State.tallies
  rw [State.modEngine_eq, State.engine_set]
  split
  next here => rw [here, (kept _).1, (kept _).2]
  · rfl

theorem eraseWedge_tallies {q st : Nat} {f : Nat → Bool} (h : Same State.tallies s t) : Same State.tallies s (eraseWedge q st f t) := by
  unfold eraseWedge
  extract_lets hit ran u
  have kept : Same State.tallies t u := modEngine_tallies (f := fun e => { e with
    kerase := satAdd e.kerase 1, erased := if hit e then some st else e.erased }) (fun _ => ⟨rfl, rfl⟩) t
  exact (h.trans kept).same (by rfl)

theorem pendBench_tallies {n cause : Nat} (h : Same State.tallies s t) : Same State.tallies s (pendBench n cause t) := by
  unfold pendBench
  extract_lets b
  split
  · exact h
  split
  · exact eraseWedge_tallies (h.same (by rfl))
  split
  · exact h.same (by rfl)
  · exact h

theorem pendLease_tallies {k : Nat} (h : Same State.tallies s t) : Same State.tallies s (pendLease k t) := by
  unfold pendLease
  extract_lets l
  split
  · exact h
  · exact .forN (fun n u kept => .ite (eraseWedge_tallies kept) kept) (h.same (by rfl))

theorem setLatch_tallies {cause : Nat} (h : Same State.tallies s t) : Same State.tallies s (setLatch cause t) := by
  unfold setLatch
  extract_lets s1 s2 s3
  have latched : Same State.tallies s s1 := .ite h (h.same (by rfl))
  have wedges : Same State.tallies s s3 := .forN (fun n u kept => .ite (eraseWedge_tallies kept) kept) (latched.same (by rfl))
  clear_value s3
  have closed : Same State.tallies s (closeCeremony 2 s3) := by
    unfold closeCeremony
    split
    · exact wedges
    · exact wedges.same (by rfl)
  generalize closeCeremony 2 s3 = v at closed ⊢
  unfold lapseGallery
  extract_lets u
  exact .ite (closed.same (by rfl)) (closed.same (by rfl))

theorem raise0_tallies {e k : Nat} {inj : Bool} (h : Same State.tallies s t) : Same State.tallies s (raise0 e k inj t) := by
  unfold raise0
  split
  · exact h
  extract_lets sev pin f t1 t2 t3 f' t4 t5 t6
  have h1 : Same State.tallies s t1 := h.same (by rfl)
  have h2 : Same State.tallies s t2 := .ite (by unfold recordEvent; split <;> exact h1.same (by rfl)) h1
  have h3 : Same State.tallies s t3 := .ite (h2.same (by rfl)) (h2.same (by rfl))
  have h4 : Same State.tallies s t4 := .ite (h3.same (by rfl)) h3
  have h5 : Same State.tallies s t5 := .ite (pendBench_tallies h4) h4
  have h6 : Same State.tallies s t6 := .ite (pendLease_tallies h5) h5
  exact .ite (setLatch_tallies h6) h6

theorem raise_tallies {e k : Nat} (h : Same State.tallies s t) : Same State.tallies s (raise e k t) :=
  raiseInj_same (fun _ _ _ _ kept => raise0_tallies kept) (fun _ _ _ => rfl) (fun _ _ => rfl) (raise0_tallies h)

theorem faultCheck_tallies {q : Nat} (h : Same State.tallies s t) : Same State.tallies s (faultCheck q t) := by
  unfold faultCheck
  extract_lets u
  have event : Same State.tallies s u := raise_tallies h
  exact .ite (event.trans (modEngine_tallies (f := fun e => { e with fchk := satAdd e.fchk 1 }) (fun _ => ⟨rfl, rfl⟩) u))
    (.ite (event.trans (modEngine_tallies (f := fun e => { e with fchk := BitVec.ofNat 32 (satNat 0xFFFF (e.fchk.toNat + 1)) }) (fun _ => ⟨rfl, rfl⟩) u)) event)

end

/-! ### A signing of the splitter -/

section
variable {q k : Nat} {bad : Bool} {xi ctx msg rnd : Bytes} {s : State}

/-- The state in which a signing has been counted. -/
def State.signed (s : State) (q : Nat) (n : Nat) : State := s.modEngine q fun e => { e with sigs := satAdd e.sigs 1, atts := satAdd e.atts n }

theorem signed_tallies (n : Nat) : (s.signed q n).tallies q = (satAdd (s.engine q).sigs 1, (s.engine q).limit) := by
  unfold State.signed State.tallies
  rw [State.modEngine_eq, State.engine_set_same]

theorem signOutcome_of_limit (many : 256 < Config.mldsaAttemptsRaw xi ctx msg rnd) : ∃ u, signOutcome q k bad xi ctx msg rnd s = (0x0123, [], u) ∧
    u.calm = s.calm ∧ u.tallies q = (satAdd (s.engine q).sigs 1, satAdd (s.engine q).limit 1) := by
  have limit : limitReached xi ctx msg rnd = true := decide_eq_true many
  have counted : ((s.signed q (attemptsOf xi ctx msg rnd)).modEngine q fun e => { e with limit := satAdd e.limit 1 }).tallies q =
      (satAdd (s.engine q).sigs 1, satAdd (s.engine q).limit 1) := by
    unfold State.signed State.tallies
    rw [State.modEngine_eq, State.engine_set_same, State.modEngine_eq, State.engine_set_same]
  refine ⟨_, if_pos limit, raise_calm (.same .rfl (by rfl)), ?_⟩
  exact (congrFun (raise_tallies .rfl : Same State.tallies _ _) q).trans counted

theorem signOutcome_of_released (few : Config.mldsaAttemptsRaw xi ctx msg rnd ≤ 256)
    (good : Config.mldsaVerify (mldsaPub xi) ctx msg (mldsaSig xi ctx msg rnd) = true) :
    signOutcome q k false xi ctx msg rnd s = (0, mldsaSig xi ctx msg rnd, s.signed q (attemptsOf xi ctx msg rnd)) := by
  have limit : ¬limitReached xi ctx msg rnd = true := by simp [limitReached, few]
  exact (if_neg limit).trans (if_pos (by rw [good]; rfl))

theorem signOutcome_of_fault (few : Config.mldsaAttemptsRaw xi ctx msg rnd ≤ 256)
    (fault : bad = true ∨ Config.mldsaVerify (mldsaPub xi) ctx msg (mldsaSig xi ctx msg rnd) = false) :
    ∃ u, signOutcome q k bad xi ctx msg rnd s = (0x0131, [], u) ∧ u.calm = s.calm ∧ u.tallies q = (satAdd (s.engine q).sigs 1, (s.engine q).limit) := by
  have limit : ¬limitReached xi ctx msg rnd = true := by simp [limitReached, few]
  refine ⟨_, (if_neg limit).trans (if_neg ?_), faultCheck_calm (.same .rfl (by rfl)), (congrFun (faultCheck_tallies .rfl : Same State.tallies _ _) q).trans (signed_tallies _)⟩
  rcases fault with rfl | fault
  · simp
  · rw [fault]
    simp

end

/-- A command that has ended has nothing left to do without its engine. -/
theorem finishFree_of_ended {op h : Nat} {f : Cmd → State → Bytes × State} {t : State} {d : Cmd} (cmd : t.cmd h = some d) (ended : d.result.isSome = true)
    (firsts : t.dsp.due = []) : finishFree op h f t = t := by
  unfold finishFree
  rw [runFirsts_nil _ firsts]
  dsimp only
  rw [cmd]
  exact if_pos (by simp [ended])

/-! ### Commands of two parts -/

section
variable {h : Nat} {c : Cmd} {s u : State}

/-- A command after the end of a part. -/
def Cmd.partEnded (c : Cmd) (b : Bool) (st : Nat) (out : Bytes) : Cmd :=
  c.setPart b { c.part b with status := some st, out := out, endAt := some (c.part b).lastAt }.wiped

theorem endPart_of_cmd (cmd : u.cmd h = some c) (b : Bool) (st : Nat) (out : Bytes) :
    endPart h b st out u = settleParts h (u.setCmd h (c.partEnded b st out)) := by
  unfold endPart
  rw [cmd]
  rfl

/-- A part that has ended, of a command of two parts. -/
def Part.settled (p : Part) (st : Nat) (out : Bytes) : Part := { p with status := some st, out := out, endAt := some p.lastAt }.wiped

theorem endPart_first {p : Part} {st : Nat} {out : Bytes} (cmd : u.cmd h = some c) (two : c.b = some p) (going : p.status = none) :
    endPart h false st out u = u.setCmd h { c with a := c.a.settled st out } := by
  rw [endPart_of_cmd cmd]
  unfold settleParts
  rw [State.cmd_set_same]
  dsimp only [Cmd.partEnded, Cmd.setPart]
  rw [if_neg (by decide), two]
  dsimp only [Option.map]
  rw [going]
  rfl

theorem endPart_second {p : Part} {st a : Nat} {out : Bytes} (cmd : u.cmd h = some c) (two : c.b = some p) (first : c.a.status = some a) :
    endPart h true st out u = endCmdAt c.lastTick h (joinStatus { c with b := some (p.settled st out) }) 0 (c.a.out ++ out)
      (u.setCmd h { c with b := some (p.settled st out) }) := by
  have part : c.partEnded true st out = { c with b := some (p.settled st out) } := by
    unfold Cmd.partEnded Cmd.setPart Cmd.part
    rw [two]
    rfl
  have last : ({ c with b := some (p.settled st out) } : Cmd).lastTick = c.lastTick := by
    unfold Cmd.lastTick
    rw [two]
    rfl
  rw [endPart_of_cmd cmd, part]
  unfold settleParts
  rw [State.cmd_set_same]
  dsimp only [Option.map]
  rw [first, last]
  rfl

/-- A hybrid verification is OK where both are. -/
theorem joinStatus_of_verdicts (is : c.opcode = 0x0501) (p : Part) (ed ml : Bool) :
    joinStatus { c with a := c.a.settled (if ed then 0 else 0x0100) [], b := some (p.settled (if ml then 0 else 0x0100) []) } =
      if ed = true ∧ ml = true then 0 else 0x0100 := by
  cases ed <;> cases ml <;> simp [joinStatus, is, Part.settled, Part.wiped]

variable {p : Part} {op : Nat} {f g : Cmd → Part → State → Nat × Bytes × State} (cmd : s.cmd h = some c) (is : c.opcode = op) (two : c.b = some p)
  (open_ : c.result = none) (goingA : c.a.status = none) (goingB : p.status = none) (fullA : c.a.total ≠ 0 ∧ c.a.total ≤ c.a.ticks)
  (fullB : p.total ≠ 0 ∧ p.total ≤ p.ticks) (firsts : s.dsp.due = []) (keyA : (s.engine (c.a.eng.getD 84)).erased = none)
  (keyB : (s.engine (p.eng.getD 84)).erased = none)
include cmd is two open_ goingA goingB fullA fullB firsts keyA keyB

/-- A command whose two parts are in their last ticks ends with both outcomes. -/
theorem endsWith_of_parts {a st : Nat} {outA outB : Bytes} {q : State → Prop} (gives : f c c.a s = (a, outA, s))
    (gives' : g { c with a := c.a.settled a outA } p (s.setCmd h { c with a := c.a.settled a outA }) = (st, outB, u))
    (cmds : u.cmds = (s.setCmd h { c with a := c.a.settled a outA }).cmds) (leaves : ∀ t : State, t.uncommanded = u.uncommanded → q t) :
    let d : Cmd := { c with a := c.a.settled a outA, b := some (p.settled st outB) }
    EndsWith h (joinStatus d) (if joinStatus d = 0 then outA ++ outB else []) c.lastTick q (.next (finish op h true false g (finish op h false false f s))) := by
  intro d
  have engine : s.partEngine h false = c.a.eng.getD 84 := by
    unfold State.partEngine
    rw [cmd]
    rfl
  have one : finish op h false false f s = s.setCmd h { c with a := c.a.settled a outA } := by
    rw [finish_of_ripe cmd (by simp [Cmd.ripe, Cmd.part, is, open_, goingA, fullA]) firsts (by rw [engine]; exact keyA), if_neg Bool.false_ne_true]
    rw [show c.part false = c.a from rfl, gives]
    exact endPart_first cmd two goingB
  rw [one]
  have cmd' : (s.setCmd h { c with a := c.a.settled a outA }).cmd h = some { c with a := c.a.settled a outA } := State.cmd_set_same ..
  have engine' : (s.setCmd h { c with a := c.a.settled a outA }).partEngine h true = p.eng.getD 84 := by
    unfold State.partEngine
    rw [cmd']
    dsimp only [Cmd.part]
    rw [two]
    rfl
  have part : ({ c with a := c.a.settled a outA } : Cmd).part true = p := by
    unfold Cmd.part
    rw [if_pos rfl, two]
    rfl
  rw [finish_of_ripe cmd' (by unfold Cmd.ripe; rw [part]; simp [is, open_, goingB, fullB, two]) firsts (by rw [engine']; exact keyB), if_neg Bool.false_ne_true,
    part, gives']
  rw [endPart_second ((congrArg (tfind · h) cmds).trans cmd') two rfl]
  exact endsWith_of_endCmdAt (c := d) (u := u.setCmd h d) (at_ := c.lastTick) (State.cmd_set_same ..) open_ fun t same => leaves t same

end

end Sys2Proof.Machine

namespace Sys2Proof.Proofs
open Sys2Proof Sys2Proof.Machine Sys2Proof.Claims

/-- Settles O25. -/
theorem catalogueSigning : Obligations.CatalogueSigning := by
  unfold Obligations.CatalogueSigning
  intro h c s
  refine ⟨?sign, fun ripe is => endsWith_output ripe is rfl, ?pub, fun ripe => ⟨fun is => endsWith_fault ripe is, fun is => endsWith_fault ripe is,
    fun is => endsWith_fault ripe is, fun is => endsWith_fault ripe is, fun is => endsWith_fault ripe is⟩, ?two⟩
  case sign =>
    intro ripe is q sig counted
    have counts : ∀ {u t : State} {n : BitVec 16}, u.calm = s.calm → u.tallies q = (satAdd (s.engine q).sigs 1, n) → t.uncommanded = u.uncommanded →
        (t.engine q).limit = n ∧ counted t := by
      intro u t n calm tally same
      have ends : t.uncommanded.calm = s.uncommanded.calm := (congrArg State.calm same).trans (congrArg State.uncommanded calm :)
      have here : t.tallies q = u.tallies q := (congrArg (State.tallies · q) same :)
      rw [tally] at here
      exact ⟨congrArg Prod.snd here, congrArg Prod.fst here, (congrArg State.ram ends :), (congrArg (fun v : State => v.yard.slots) ends :)⟩
    have fault : ∀ bad : Bool, Config.mldsaAttemptsRaw c.a.val c.ctxOf c.msgOf c.a.drawn ≤ 256 →
        (bad = true ∨ Config.mldsaVerify (fixLen 1952 (Config.mldsaPubRaw c.a.val)) c.ctxOf c.msgOf sig = false) →
        EndsWith h 0x0131 [] c.a.lastAt counted (exec (.mldsaSign h bad) s) := by
      intro bad few fault
      obtain ⟨u, gives, calm, tally⟩ := signOutcome_of_fault (q := q) (k := c.lease) (s := s) few fault
      exact endsWith_of_finish ripe is gives (congrArg State.cmds calm :) fun t same => (counts calm tally same).2
    refine ⟨fun many bad => ?_, fun few => ⟨fun good => ?_, fun bad => fault false few (.inr bad), fault true few (.inl rfl)⟩⟩
    · obtain ⟨u, gives, calm, tally⟩ := signOutcome_of_limit (q := q) (k := c.lease) (bad := bad) (s := s) many
      exact endsWith_of_finish ripe is gives (congrArg State.cmds calm :) fun t same => counts calm tally same
    · exact endsWith_of_finish ripe is (signOutcome_of_released few good) rfl fun t same =>
        (counts (u := s.signed q (attemptsOf c.a.val c.ctxOf c.msgOf c.a.drawn)) (by rfl) (signed_tallies _) same).2
  case pub =>
    intro ripe is _
    have firsts : s.dsp.due = [] := by
      obtain ⟨-, -, -, -, -, -, due, -⟩ := ripe
      exact due
    have reports : ∀ {bad : Bool} {st : Nat} {out : Bytes}, EndsWith h st out c.a.lastAt (QuietFor s) (.next (finish 0x0604 h false (bad && s.pubChecked h) fKeyPub s)) →
        EndsWith h st out c.a.lastAt (QuietFor s) (exec (.keyPub h bad) s) := by
      rintro bad st out ⟨t, d, ends, cmd, result, output, at_, quiet⟩
      have firsts' : t.dsp.due = [] := (congrArg Dsp.due quiet.2.1).trans firsts
      refine ⟨t, d, congrArg Host.Outcome.next ?_, cmd, result, output, at_, quiet⟩
      rw [Host.Outcome.next.inj ends]
      exact finishFree_of_ended cmd (by rw [result]; rfl) firsts'
    have checked : s.pubChecked h = isCurve c.a.keyType := by
      obtain ⟨cmd, -⟩ := ripe
      unfold State.pubChecked
      rw [cmd]
    refine ⟨reports (endsWith_output ripe is rfl), reports ?_⟩
    rw [Bool.true_and, checked]
    cases isCurve c.a.keyType with
    | true => exact endsWith_fault ripe is
    | false => exact endsWith_output ripe is rfl
  case two =>
    intro p cmd two open_ goingA goingB someA fullA someB fullB firsts keyA keyB
    refine ⟨?_, ?_⟩
    · intro is sig ends
      let s' := s.setCmd h { c with a := c.a.settled 0 (edSign (c.a.val.take 32) c.msgOf) }
      have signs : ∀ {st : Nat} {out : Bytes} {u : State}, signOutcome (p.eng.getD 0) c.lease false p.val c.ctxOf c.msgOf p.drawn s' = (st, out, u) → u.calm = s'.calm →
          ends st (if st = 0 then edSign (c.a.val.take 32) c.msgOf ++ out else []) := by
        intro st out u gives calm
        have join : joinStatus { c with a := c.a.settled 0 (edSign (c.a.val.take 32) c.msgOf), b := some (p.settled st out) } = st := by
          simp [joinStatus, Part.settled, Part.wiped, is]
        have done := endsWith_of_parts (f := fHybSignA) (g := fMldsaSign false) (q := fun t => t.ram = s.ram ∧ t.yard.slots = s.yard.slots) cmd is two open_
          goingA goingB ⟨someA, fullA⟩ ⟨someB, fullB⟩ firsts keyA keyB rfl gives (congrArg State.cmds calm :) fun t same => ?_
        · dsimp only at done
          rw [join] at done
          exact done
        · have same' : t.uncommanded.calm = s.uncommanded.calm := (congrArg State.calm same).trans ((congrArg State.uncommanded calm :) : _)
          exact ⟨(congrArg State.ram same' :), (congrArg (fun v : State => v.yard.slots) same' :)⟩
      refine ⟨fun many => ?_, fun few => ⟨fun good => ?_, fun bad => ?_⟩⟩
      · obtain ⟨u, gives, calm, -⟩ := signOutcome_of_limit (q := p.eng.getD 0) (k := c.lease) (bad := false) (s := s') many
        exact signs gives calm
      · exact signs (signOutcome_of_released few good) (by rfl)
      · obtain ⟨u, gives, calm, -⟩ := signOutcome_of_fault (q := p.eng.getD 0) (k := c.lease) (bad := false) (s := s') few (.inr bad)
        exact signs gives calm
    · intro is o1 o2 ed ml m
      have keyEd : (if c.yref = 0 then slice c.input 0 o1 else (c.a.key.map Slot.pub).getD []) = ed := by
        unfold ed o1
        split
        · rfl
        · rfl
      have keyMl : (if c.opa = 0 then slice c.input o1 (o2 - o1) else mldsaPub p.val) = ml := by
        unfold ml o2
        split
        next inline => rw [Nat.add_sub_cancel_left]
        · rfl
      have first : fHybVerifyA c c.a s = verdict (Config.edVerify ed (m.drop c.p0) (slice c.input o2 64)) s := by
        rw [← keyEd]
        rfl
      have second : ∀ (a : Part) (u : State), fHybVerifyB { c with a := a } p u =
          verdict (Config.mldsaVerify ml (m.take c.p0) (m.drop c.p0) (slice c.input (o2 + 64) 3309)) u := by
        intro a u
        rw [← keyMl]
        rfl
      have done := endsWith_of_parts (f := fHybVerifyA) (g := fHybVerifyB) (q := QuietFor s) cmd is two open_ goingA goingB ⟨someA, fullA⟩ ⟨someB, fullB⟩ firsts
        keyA keyB first (second _ _) rfl fun t same => quietFor_of_uncommanded (same.trans (by rfl))
      have join := joinStatus_of_verdicts (c := c) is p (Config.edVerify ed (m.drop c.p0) (slice c.input o2 64))
        (Config.mldsaVerify ml (m.take c.p0) (m.drop c.p0) (slice c.input (o2 + 64) 3309))
      dsimp only at done
      rw [join, List.append_nil, ite_self] at done
      exact done

end Sys2Proof.Proofs

/-! PROOFS. Modular arithmetic of the cutter: powers and inverses (R133, R135). -/

namespace Sys2Proof.Machine
open Sys2Proof Sys2Proof.Claims

/-! ### Powers -/

theorem powModF_eq (f : Nat) : ∀ a e m : Nat, e < 2 ^ f → powModF f a e m = a ^ e % m := by
  induction f with
  | zero =>
    intro a e m small
    have zero : e = 0 := by simpa using small
    rw [zero]
    exact congrArg (· % m) (pow_zero a).symm
  | succ f ih =>
    intro a e m small
    have half := ih (a * a % m) (e / 2) m (by rw [pow_succ] at small; omega)
    have square : (a * a % m) ^ (e / 2) % m = a ^ (2 * (e / 2)) % m := by rw [← Nat.pow_mod, ← pow_two, ← pow_mul]
    unfold powModF
    dsimp only
    rw [half, square]
    split
    next odd =>
      rw [Nat.mul_mod_mod, mul_comm, ← pow_succ]
      congr 2
      omega
    next even =>
      congr 2
      omega

theorem powMod_eq (a e m : Nat) : powMod a e m = a ^ e % m := by
  unfold powMod
  rw [powModF_eq _ _ _ _ Nat.lt_log2_self, ← Nat.pow_mod]

/-! ### Inverses -/

/-- Euclid's algorithm has ended once the fuel is twice the bits of its second number. -/
theorem euclid_gcd (n : Nat) : ∀ (f r t : Nat) (c d : Int), t < 2 ^ n → 2 * n + 1 ≤ f → (euclid f r t c d).1 = Nat.gcd r t := by
  induction n with
  | zero =>
    intro f r t c d small fuel
    obtain ⟨f, rfl⟩ : ∃ g, f = g + 1 := ⟨f - 1, by omega⟩
    have zero : t = 0 := by simpa using small
    rw [zero, Nat.gcd_zero_right]
    rfl
  | succ n ih =>
    intro f r t c d small fuel
    obtain ⟨f, rfl⟩ : ∃ g, f = g + 2 := ⟨f - 2, by omega⟩
    rw [Nat.gcd_comm, Nat.gcd_rec t r]
    unfold euclid
    split
    next zero => rw [zero]; simp
    next some =>
      unfold euclid
      split
      next zero => rw [zero]; simp
      next more =>
        have below : r % t < t := Nat.mod_lt _ (Nat.pos_of_ne_zero some)
        have half : t % (r % t) < 2 ^ n := by
          have less := Nat.mod_lt t (Nat.pos_of_ne_zero more)
          have parts := Nat.mod_add_div t (r % t)
          have once : 1 ≤ t / (r % t) := (Nat.one_le_div_iff (Nat.pos_of_ne_zero more)).mpr below.le
          have least : r % t ≤ r % t * (t / (r % t)) := Nat.le_mul_of_pos_right _ once
          rw [pow_succ] at small
          omega
        rw [ih f _ _ _ _ half (by omega), Nat.gcd_comm, ← Nat.gcd_rec]

/-- The coefficient that Euclid's algorithm keeps: times `a`, it is the remainder modulo `m`. -/
theorem euclid_coefficient {a m : Int} (f : Nat) : ∀ (r t : Nat) (c d : Int), m ∣ c * a - r → m ∣ d * a - t →
    m ∣ (euclid f r t c d).2 * a - (euclid f r t c d).1 := by
  induction f with
  | zero => intro r t c d first second; exact first
  | succ f ih =>
    intro r t c d first second
    unfold euclid
    split
    · exact first
    · refine ih t (r % t) d _ second ?_
      have parts : (r : Int) = (r % t : Nat) + t * (r / t : Nat) := by exact_mod_cast (Nat.mod_add_div r t).symm
      have sum := dvd_sub first (Dvd.dvd.mul_left second ((r / t : Nat) : Int))
      have same : c * a - r - ((r / t : Nat) : Int) * (d * a - t) = (c - (r / t : Nat) * d) * a - (r % t : Nat) := by
        rw [parts]
        push_cast
        ring_nf
      rwa [same] at sum

theorem modInv_gcd (a m : Nat) : (euclid (2 * (m.log2 + 2)) (a % m) m 1 0).1 = Nat.gcd a m := by
  rw [euclid_gcd (m.log2 + 1) _ _ _ _ _ Nat.lt_log2_self (by omega), ← Nat.gcd_rec, Nat.gcd_comm]

theorem modInv_of_common {a m : Nat} (common : Nat.gcd a m ≠ 1) : modInv a m = none := by
  unfold modInv
  dsimp only
  rw [modInv_gcd]
  exact if_neg common

theorem modInv_of_coprime {a m : Nat} (pos : 0 < m) (prime : Nat.gcd a m = 1) : ∃ v, modInv a m = some v ∧ v < m ∧ a * v % m = 1 % m := by
  have one := (modInv_gcd a m).trans prime
  have keeps := euclid_coefficient (a := (a : Int)) (m := (m : Int)) (2 * (m.log2 + 2)) (a % m) m 1 0
    (by rw [one_mul, Int.natCast_mod]; exact Int.dvd_self_sub_emod) (by simp)
  rw [one] at keeps
  generalize found : (euclid (2 * (m.log2 + 2)) (a % m) m 1 0).2 = c at keeps
  have ne : (m : Int) ≠ 0 := by exact_mod_cast pos.ne'
  have nonneg := Int.emod_nonneg c ne
  refine ⟨(c % (m : Int)).toNat, ?_, ?_, ?_⟩
  · unfold modInv
    dsimp only
    rw [one, found]
    rfl
  · have below := Int.emod_lt_of_pos c (by exact_mod_cast pos : (0 : Int) < m)
    omega
  · zify
    rw [Int.toNat_of_nonneg nonneg, mul_comm, Int.mul_emod, Int.emod_emod_of_dvd _ (dvd_refl _), ← Int.mul_emod]
    exact Int.ModEq.symm (Int.modEq_iff_dvd.mpr (by simpa using keeps))

/-! ### The Montgomery factor -/

theorem coprime_of_odd {m : Nat} (odd : m % 2 = 1) (n : Nat) : Nat.gcd (2 ^ n) m = 1 :=
  Nat.Coprime.pow_left n ((Nat.coprime_two_left).mpr (Nat.odd_iff.mpr odd))

theorem rInv_inverse {m : Nat} (odd : m % 2 = 1) (w : Nat) : 2 ^ (64 * w) * rInv w m % m = 1 % m := by
  have pos : 0 < m := by omega
  have prime : Nat.gcd (2 ^ (64 * w) % m) m = 1 := by rw [← Nat.gcd_rec, Nat.gcd_comm]; exact coprime_of_odd odd _
  obtain ⟨v, found, -, inverse⟩ := modInv_of_coprime pos prime
  have value : rInv w m = v := by unfold rInv; rw [found]; rfl
  rw [value, ← Nat.mod_mul_mod]
  exact inverse

/-- What the factor undoes. -/
theorem mul_rInv_mul {m : Nat} (odd : m % 2 = 1) (x w : Nat) : x * rInv w m * 2 ^ (64 * w) % m = x % m := by
  rw [mul_assoc, mul_comm (rInv w m), Nat.mul_mod, rInv_inverse odd w, ← Nat.mul_mod, mul_one]

end Sys2Proof.Machine

/-! PROOFS. Cutter records: the current step, and how it ends (R124-R137). -/

namespace Sys2Proof.Machine
open Sys2Proof Sys2Proof.Claims

/-- A request that leaves a cell, and changes nothing but its job. -/
def LeavesCell (q k n : Nat) (d : Nat) (c : Cell) (j : Job) (s : State) (o : Host.Outcome State Fault Refusal) : Prop :=
  RequestDone q k j s (fun t => OnlyJob s t ∧ t.ram = s.ram ∧ CellIs q k n d c j t) o

section
variable {q k l : Nat} {j : Job} {b : Bytes} {s : State}

/-! ### The current step -/

theorem cutRow_of_runs {op : Nat} (f : Job → Step16 → State → State) (cutter : q % 5 ≤ 1) (runs : Runs q k 16 j b s) (good : (stepOf b).bad = false)
    (row : (stepOf b).op = op) : cutRow op q k f s = f j (stepOf b) s := by
  unfold cutRow
  dsimp only
  have is : (fieldLE b 0 1 = op || !cutOps.contains (fieldLE b 0 1)) = true := by
    have same : fieldLE b 0 1 = op := row
    simp [same]
  rw [if_neg (by omega), firsts_of_runs runs, current_of_runs runs is]
  dsimp only
  rw [good]
  exact if_neg Bool.false_ne_true

/-- A short step that fits. -/
theorem shortStep_of_fits {op : Nat} {fc : State → Step16 → Nat} (f : Job → Step16 → State → StepRes) (cutter : q % 5 ≤ 1) (runs : Runs q k 16 j b s)
    (good : (stepOf b).bad = false) (row : (stepOf b).op = op) (fits : fc s (stepOf b) ≤ j.budget) :
    shortStep op q k fc f s = applyStep q k (j.spend (fc s (stepOf b))) (stepOf b) (f (j.spend (fc s (stepOf b))) (stepOf b) s) := by
  unfold shortStep
  rw [cutRow_of_runs _ cutter runs good row]
  exact if_neg (by omega)

section
variable (left : j.left = some l) {op : Nat} {start : Step16 → Nat × Nat} (f : Job → Step16 → State → StepRes) (cutter : q % 5 ≤ 1)
  (runs : Runs q k 16 j b s) (good : (stepOf b).bad = false) (row : (stepOf b).op = op)
include left cutter runs good row

/-- The state of a long step that takes the whole budget. -/
def State.longMore (s : State) (q k l : Nat) (j : Job) : State :=
  s.setJob q k { j with budget := 0, fc := j.fc + BitVec.ofNat 64 j.budget, left := some (l - j.budget) }

theorem longStep_of_more (more : j.budget < l) : longStep op q k start f s = s.longMore q k l j := by
  unfold longStep
  rw [cutRow_of_runs _ cutter runs good row]
  dsimp only
  rw [left]
  dsimp only
  rw [left, Option.getD_some, min_eq_right more.le]
  refine (if_pos more).trans ?_
  unfold State.longMore Job.spend
  rw [Nat.sub_self]

theorem longStep_of_fits (fits : l ≤ j.budget) :
    longStep op q k start f s = applyStep q k (j.spend l) (stepOf b) (f (j.spend l) (stepOf b) s) := by
  unfold longStep
  rw [cutRow_of_runs _ cutter runs good row]
  dsimp only
  rw [left]
  dsimp only
  rw [left, Option.getD_some, min_eq_left fits]
  exact if_neg (lt_irrefl l)

end

/-! ### How a step ends -/

theorem jobEnds_of_failed (j : Job) (x : Step16) (st : Nat) (u : State) : JobEnds q k st (.next (applyStep q k j x (.fail st u))) := jobEnds_of_stop ..

theorem cell_setCell (j : Job) (d : Nat) (c : Cell) : (j.setCell d c).cell d = c := tget_tset_same ..

theorem cell_setCell_other {d i : Nat} (other : i ≠ d) (j : Job) (c : Cell) : (j.setCell d c).cell i = j.cell i := tget_tset_ne _ _ _ other

theorem cellIs_of_worked {n d : Nat} {c : Cell} {t : State} (worked : (t.job q k).worked = ((j.spend n).setCell d c).worked) : CellIs q k n d c j t := by
  have cells (i : Nat) : (t.job q k).cell i = ((j.spend n).setCell d c).cell i :=
    congrArg (fun l => tget ({} : Cell) l i) (congrArg Job.cells worked :)
  exact ⟨(congrArg Job.fc worked :), (cells d).trans (cell_setCell ..), fun i other => (cells i).trans (cell_setCell_other other ..)⟩

/-- A step that leaves a cell, beside which it changed no job. -/
theorem requestDone_of_cell {n : Nat} {x : Step16} {c : Cell} {u : State} {p : State → Prop} (runs : Runs q k 16 j b s) (jobs : u.jobs = s.jobs)
    (leaves : ∀ t : State, t.unjobbed = u.unjobbed → CellIs q k n x.d c j t → p t) :
    RequestDone q k j s p (.next (applyStep q k (j.spend n) x (.cell c u))) :=
  requestDone_of_next (j' := (j.spend n).setCell x.d c) (fun i _ => by rw [jobs]) rfl rfl (show j.ending = none from ending_of_runs runs)
    fun t same worked => leaves t same (cellIs_of_worked worked)

theorem leavesCell_of_cell {n : Nat} {x : Step16} {c : Cell} (runs : Runs q k 16 j b s) :
    LeavesCell q k n x.d c j s (.next (applyStep q k (j.spend n) x (.cell c s))) :=
  requestDone_of_cell runs rfl fun _ same cell => ⟨(onlyJob_of_unjobbed same).1, (onlyJob_of_unjobbed same).2, cell⟩

section
variable {op : Nat} {fc : State → Step16 → Nat} {f : Job → Step16 → State → StepRes} (cutter : q % 5 ≤ 1) (runs : Runs q k 16 j b s)
  (good : (stepOf b).bad = false) (row : (stepOf b).op = op) (fits : fc s (stepOf b) ≤ j.budget)
include cutter runs good row fits

/-- A short step that leaves a cell. -/
theorem leavesCell_of_shortStep {c : Cell} (result : f (j.spend (fc s (stepOf b))) (stepOf b) s = .cell c s) :
    LeavesCell q k (fc s (stepOf b)) (stepOf b).d c j s (.next (shortStep op q k fc f s)) := by
  rw [shortStep_of_fits f cutter runs good row fits, result]
  exact leavesCell_of_cell runs

/-- A short step that ends its job. -/
theorem jobEnds_of_shortStep {st : Nat} {u : State} (result : f (j.spend (fc s (stepOf b))) (stepOf b) s = .fail st u) :
    JobEnds q k st (.next (shortStep op q k fc f s)) := by
  rw [shortStep_of_fits f cutter runs good row fits, result]
  exact jobEnds_of_failed ..

end

section
variable {op : Nat} {start : Step16 → Nat × Nat} {f : Job → Step16 → State → StepRes} (left : j.left = some l) (cutter : q % 5 ≤ 1)
  (runs : Runs q k 16 j b s) (good : (stepOf b).bad = false) (row : (stepOf b).op = op) (fits : l ≤ j.budget)
include left cutter runs good row fits

/-- A long step that ends and leaves a cell. -/
theorem leavesCell_of_longStep {c : Cell} (result : f (j.spend l) (stepOf b) s = .cell c s) :
    LeavesCell q k l (stepOf b).d c j s (.next (longStep op q k start f s)) := by
  rw [longStep_of_fits left f cutter runs good row fits, result]
  exact leavesCell_of_cell runs

/-- A long step that ends its job. -/
theorem jobEnds_of_longStep {st : Nat} {u : State} (result : f (j.spend l) (stepOf b) s = .fail st u) :
    JobEnds q k st (.next (longStep op q k start f s)) := by
  rw [longStep_of_fits left f cutter runs good row fits, result]
  exact jobEnds_of_failed ..

end

/-- Bytes that a job writes. -/
theorem wrote_of_ramWrite {a : Nat} {v : Bytes} {t : State} (same : t.ram = (s.ramWrite a v).ram) : Wrote a v s t := by
  intro x
  rw [same]
  split
  next inside =>
    obtain ⟨i, rfl⟩ : ∃ i, x = a + i := ⟨x - a, by omega⟩
    have small : i < v.length := by omega
    rw [Nat.add_sub_cancel_left, List.getD_eq_getElem _ _ small]
    exact Memory.get_write_inside s.ram a i v small
  next outside => exact Memory.get_write_outside s.ram a x v (by omega)

/-- A request that wrote bytes to memory, beside its job. -/
theorem onlyJob_of_written {a : Nat} {v : Bytes} {t : State} (same : t.unjobbed = (s.ramWrite a v).unjobbed) : OnlyJob s t ∧ Wrote a v s t := by
  refine ⟨?_, wrote_of_ramWrite (congrArg State.ram same :)⟩
  unfold OnlyJob
  exact (congrArg (fun x : State => { x with jobs := s.jobs, yard := { x.yard with freed := s.yard.freed }, ram := s.ram }) same :)

theorem Step16.bits_zero (x : Step16) (n : Nat) : x.bits 0 n = x.param % 2 ^ n := by
  unfold Step16.bits
  rw [pow_zero, Nat.div_one]

end

end Sys2Proof.Machine

/-! PROOFS. Cutter records that are short steps (R124-R137). -/

namespace Sys2Proof.Machine
open Sys2Proof Sys2Proof.Claims

section
variable {q k : Nat} {j : Job} {b : Bytes} {s : State} (cutter : q % 5 ≤ 1) (runs : Runs q k 16 j b s) (good : (stepOf b).bad = false)
include cutter runs good

/-! ### LOAD, STORE -/

/-- The bytes that a LOAD or a STORE names lie in the job's pages, at a limb. -/
def Reached (q k : Nat) (x : Step16) (s : State) : Prop := x.param % 2 ^ 32 % 8 = 0 ∧ s.inPages (q / 5) k (x.param % 2 ^ 32) (8 * x.w) = true

omit cutter runs good in
theorem reached_iff (x : Step16) : Reached q k x s ↔ ¬ (x.bits 0 32 % 8 ≠ 0 || !s.inPages (q / 5) k (x.bits 0 32) (8 * x.w)) = true := by
  unfold Reached
  rw [x.bits_zero]
  simp

theorem cutLoad_reached (row : (stepOf b).op = 0x01) (fits : 8 + (stepOf b).w ≤ j.budget) (reached : Reached q k (stepOf b) s) :
    LeavesCell q k (8 + (stepOf b).w) (stepOf b).d
      { val := leNat (s.ramRead ((stepOf b).param % 2 ^ 32) (8 * (stepOf b).w)), limbs := (stepOf b).w } j s (exec (.cutLoad q k) s) := by
  rw [← Step16.bits_zero]
  exact leavesCell_of_shortStep (fc := fun _ x => 8 + x.w) cutter runs good row fits (if_neg ((reached_iff _).mp reached))

theorem cutLoad_outside (row : (stepOf b).op = 0x01) (fits : 8 + (stepOf b).w ≤ j.budget) (outside : ¬ Reached q k (stepOf b) s) :
    JobEnds q k 0x01 (exec (.cutLoad q k) s) :=
  jobEnds_of_shortStep (fc := fun _ x => 8 + x.w) cutter runs good row fits (if_pos (not_not.mp (mt (reached_iff _).mpr outside)))

theorem cutStore_reached (row : (stepOf b).op = 0x02) (fits : 8 + (stepOf b).w ≤ j.budget) (reached : Reached q k (stepOf b) s)
    (shown : (j.cell (stepOf b).a).secret = false) :
    RequestDone q k j s (fun t => OnlyJob s t ∧
      Wrote ((stepOf b).param % 2 ^ 32) (leBytes (8 * (stepOf b).w) (j.limbs (stepOf b).a (stepOf b).w)) s t ∧
      ∀ i, (t.job q k).cell i = j.cell i) (exec (.cutStore q k) s) := by
  show RequestDone _ _ _ _ _ (execCutStore q k s)
  unfold execCutStore
  rw [shortStep_of_fits _ cutter runs good row fits]
  dsimp only
  have plain : ¬ ((j.spend (8 + (stepOf b).w)).cell (stepOf b).a).secret = true := by
    rw [show ((j.spend (8 + (stepOf b).w)).cell (stepOf b).a).secret = false from shown]
    exact Bool.false_ne_true
  rw [if_neg plain, if_neg ((reached_iff _).mp reached), Step16.bits_zero]
  refine requestDone_of_next (fun i _ => rfl) rfl rfl (show j.ending = none from ending_of_runs runs) fun t same worked => ?_
  obtain ⟨only, wrote⟩ := onlyJob_of_written same
  exact ⟨only, wrote, fun i => congrArg (fun l => tget ({} : Cell) l i) (congrArg Job.cells worked :)⟩

theorem cutStore_secret (row : (stepOf b).op = 0x02) (fits : 8 + (stepOf b).w ≤ j.budget) (hidden : (j.cell (stepOf b).a).secret = true) :
    JobEnds q k 0x04 (exec (.cutStore q k) s) :=
  jobEnds_of_shortStep (fc := fun _ x => 8 + x.w) cutter runs good row fits (if_pos hidden)

end

/-! ### Sums, differences and products modulo an odd number -/

/-- The second source of a modular step: 1 where it names none. -/
def Step16.second (x : Step16) (j : Job) : Nat := if x.b = 0xFF then 1 else j.limbs x.b x.w

/-- A modular step's result is secret as its sources are. -/
def Step16.modSecret (x : Step16) (j : Job) : Bool :=
  (j.cell x.a).secret || (x.b ≠ 0xFF && (j.cell x.b).secret) || (j.cell x.m).secret

/-- The result of a modular step on values below an odd modulus. -/
def LeavesNumber (q k : Nat) (j : Job) (x : Step16) (s : State) (p : Nat → Prop) (n : Nat) (o : Host.Outcome State Fault Refusal) : Prop :=
  n ≤ j.budget → j.limbs x.m x.w % 2 = 1 → j.limbs x.a x.w < j.limbs x.m x.w → x.second j < j.limbs x.m x.w →
    ∃ r, r < j.limbs x.m x.w ∧ p r ∧ LeavesCell q k n x.d { val := r, limbs := x.w, secret := x.modSecret j } j s o

theorem tagOf_second (j : Job) (x : Step16) : j.tagOf (if x.b = 0xFF then [x.a, x.m] else [x.a, x.b, x.m]) = x.modSecret j := by
  unfold Job.tagOf Step16.modSecret
  split
  next one => simp [one]
  next two => simp [two, Bool.or_assoc]

theorem modStep_of_numbers {j : Job} {x : Step16} (f : Nat → Nat → Nat → Nat) (s : State) (odd : j.limbs x.m x.w % 2 = 1)
    (first : j.limbs x.a x.w < j.limbs x.m x.w) (second : x.second j < j.limbs x.m x.w) :
    modStep j x f s =
      .cell { val := f (j.limbs x.a x.w) (x.second j) (j.limbs x.m x.w), limbs := x.w, secret := x.modSecret j } s := by
  rw [← tagOf_second]
  unfold Step16.second at second ⊢
  refine if_neg ?_
  simp only [Bool.or_eq_true, decide_eq_true_eq]
  omega

theorem modStep_of_operand {j : Job} {x : Step16} (f : Nat → Nat → Nat → Nat) (s : State)
    (bad : j.limbs x.m x.w % 2 = 0 ∨ j.limbs x.m x.w ≤ j.limbs x.a x.w ∨ j.limbs x.m x.w ≤ x.second j) : modStep j x f s = .fail 0x03 s := by
  unfold Step16.second at bad
  refine if_pos ?_
  simpa only [Bool.or_eq_true, decide_eq_true_eq, or_assoc] using bad

section
variable {q k : Nat} {j : Job} {b : Bytes} {s : State} (cutter : q % 5 ≤ 1) (runs : Runs q k 16 j b s) (good : (stepOf b).bad = false)
include cutter runs good

theorem leavesNumber_of_modStep {op : Nat} {fc : State → Step16 → Nat} {f : Step16 → Nat → Nat → Nat → Nat} {p : Nat → Prop} (row : (stepOf b).op = op)
    (right : let x := stepOf b
      let m := j.limbs x.m x.w
      let a := j.limbs x.a x.w
      m % 2 = 1 → a < m → x.second j < m → f x a (x.second j) m < m ∧ p (f x a (x.second j) m)) :
    LeavesNumber q k j (stepOf b) s p (fc s (stepOf b)) (.next (shortStep op q k fc (fun j x s => modStep j x (f x) s) s)) := by
  intro fits odd first second
  obtain ⟨below, value⟩ := right odd first second
  exact ⟨_, below, value, leavesCell_of_shortStep cutter runs good row fits (modStep_of_numbers (j := j.spend _) _ s odd first second)⟩

theorem madd_number (row : (stepOf b).op = 0x08) : LeavesNumber q k j (stepOf b) s
    (fun r => r = (j.limbs (stepOf b).a (stepOf b).w + (stepOf b).second j) % j.limbs (stepOf b).m (stepOf b).w)
    (maddFc (stepOf b).w) (exec (.madd q k) s) :=
  leavesNumber_of_modStep (fc := fun _ x => maddFc x.w) (f := fun _ a v m => (a + v) % m) cutter runs good row
    fun odd _ _ => ⟨Nat.mod_lt _ (by omega), rfl⟩

theorem msub_number (row : (stepOf b).op = 0x09) : LeavesNumber q k j (stepOf b) s
    (fun r => (r + (stepOf b).second j) % j.limbs (stepOf b).m (stepOf b).w = j.limbs (stepOf b).a (stepOf b).w)
    (maddFc (stepOf b).w) (exec (.msub q k) s) :=
  leavesNumber_of_modStep (fc := fun _ x => maddFc x.w) (f := fun _ a v m => (a + m - v) % m) cutter runs good row
    fun odd first second => ⟨Nat.mod_lt _ (by omega), by
      rw [Nat.mod_add_mod, Nat.sub_add_cancel (by omega), Nat.add_mod_right, Nat.mod_eq_of_lt first]⟩

theorem mmul_number (row : (stepOf b).op = 0x0A) : LeavesNumber q k j (stepOf b) s
    (fun r => r * 2 ^ (64 * (stepOf b).w) % j.limbs (stepOf b).m (stepOf b).w =
      j.limbs (stepOf b).a (stepOf b).w * (stepOf b).second j % j.limbs (stepOf b).m (stepOf b).w)
    (mmulFc (stepOf b).w) (exec (.mmul q k) s) :=
  leavesNumber_of_modStep (fc := fun _ x => mmulFc x.w) (f := fun x a v m => a * v % m * rInv x.w m % m) cutter runs good row
    fun odd _ _ => ⟨Nat.mod_lt _ (by omega), by rw [Nat.mod_mul_mod, mul_rInv_mul odd, Nat.mod_mod]⟩

theorem madd_operand (row : (stepOf b).op = 0x08) (fits : maddFc (stepOf b).w ≤ j.budget)
    (bad : j.limbs (stepOf b).m (stepOf b).w % 2 = 0 ∨ j.limbs (stepOf b).m (stepOf b).w ≤ j.limbs (stepOf b).a (stepOf b).w ∨
      j.limbs (stepOf b).m (stepOf b).w ≤ (stepOf b).second j) : JobEnds q k 0x03 (exec (.madd q k) s) :=
  jobEnds_of_shortStep (fc := fun _ x => maddFc x.w) cutter runs good row fits (modStep_of_operand (j := j.spend _) _ s bad)

/-! ### Points -/

/-- The bench cycles of PADD and of RELEASE_PT. -/
def paddFc (curve : Nat) : Nat := if curve = 4 then 160 else 96
def releasePtFc (curve : Nat) : Nat := if curve = 4 then 512 else 256

theorem cutPadd_sum (row : (stepOf b).op = 0x11) (fits : paddFc (stepOf b).curve ≤ j.budget) :
    let x := stepOf b
    let w := pointLimbs x.curve
    LeavesCell q k (paddFc x.curve) x.d
      { val := Config.pointAdd x.curve (j.limbs x.a w) (j.limbs x.b w) % 2 ^ (64 * w), limbs := w,
        secret := (j.cell x.a).secret || (j.cell x.b).secret } j s (exec (.cutPadd q k) s) := by
  intro x w
  have tag : ((j.cell x.a).secret || (j.cell x.b).secret) = (j.spend (paddFc x.curve)).tagOf [x.a, x.b] := by
    unfold Job.tagOf
    simp [Job.cell, Job.spend]
  rw [tag]
  exact leavesCell_of_shortStep (fc := fun _ x => paddFc x.curve) cutter runs good row fits rfl

section
variable (row : (stepOf b).op = 0x19) (fits : releasePtFc (stepOf b).curve ≤ j.budget)
include row fits

theorem releasePt_identity (identity : j.limbs (stepOf b).a (pointLimbs (stepOf b).curve) = identityOf (stepOf b).curve) :
    JobEnds q k 0x03 (exec (.releasePt q k) s) :=
  jobEnds_of_shortStep (fc := fun _ x => releasePtFc x.curve) cutter runs good row fits (if_pos identity)

variable (other : j.limbs (stepOf b).a (pointLimbs (stepOf b).curve) ≠ identityOf (stepOf b).curve)
include other

theorem releasePt_good (on : Config.pointOk (stepOf b).curve (j.limbs (stepOf b).a (pointLimbs (stepOf b).curve)) = true) :
    LeavesCell q k (releasePtFc (stepOf b).curve) (stepOf b).d
      { val := j.limbs (stepOf b).a (pointLimbs (stepOf b).curve), limbs := pointLimbs (stepOf b).curve } j s (exec (.releasePt q k) s) :=
  leavesCell_of_shortStep (fc := fun _ x => releasePtFc x.curve) cutter runs good row fits ((if_neg other).trans (if_pos on))

theorem releasePt_off (off : Config.pointOk (stepOf b).curve (j.limbs (stepOf b).a (pointLimbs (stepOf b).curve)) = false) :
    JobEnds q k 0x31 (exec (.releasePt q k) s) :=
  jobEnds_of_shortStep (fc := fun _ x => releasePtFc x.curve) cutter runs good row fits
    ((if_neg other).trans (if_neg (Bool.not_eq_true _ ▸ off)))

end

end

end Sys2Proof.Machine

/-! PROOFS. Cutter records that reach the key yard: YLOAD, YSTORE (R126, R130). -/

namespace Sys2Proof.Machine
open Sys2Proof Sys2Proof.Claims

section
variable {q k : Nat} {j : Job} {b : Bytes} {s : State} (cutter : q % 5 ≤ 1) (runs : Runs q k 16 j b s) (good : (stepOf b).bad = false)

/-! ### YLOAD -/

/-- The reference that a YLOAD names, and what the check of it answers. -/
def Step16.ref (x : Step16) : BitVec 32 := BitVec.ofNat 32 (x.param % 2 ^ 32)
def Step16.yloadCheck (x : Step16) (k : Nat) (s : State) : Nat :=
  s.checkRef k x.ref [0x10, 0x11, 0x12, 0x13, 0x20, 0x21, 0x22] (x.param / 2 ^ 40 % 2 ^ 8)

theorem Step16.ref_eq (x : Step16) : BitVec.ofNat 32 (x.bits 0 32) = x.ref := congrArg (BitVec.ofNat 32) (x.bits_zero 32)

/-- A use that is counted changes the lease alone. -/
theorem countUse_leases (k : Nat) (r : BitVec 32) (s : State) : ∃ l, countUse k r s = { s with leases := l } := by
  unfold countUse
  dsimp only
  split
  · exact ⟨_, rfl⟩
  · exact ⟨s.leases, rfl⟩

include cutter runs good

section
variable (row : (stepOf b).op = 0x03) (fits : yloadFc k s (stepOf b) ≤ j.budget)
include row fits

theorem yload_refused (refused : (stepOf b).yloadCheck k s ≠ 0) : JobEnds q k (jobStatus ((stepOf b).yloadCheck k s)) (exec (.yload q k) s) := by
  unfold Step16.yloadCheck at refused ⊢
  rw [← Step16.ref_eq] at refused ⊢
  exact jobEnds_of_shortStep (fc := yloadFc k) cutter runs good row fits (if_pos refused)

theorem yload_component {secret : Bool} {val : Nat} (passes : (stepOf b).yloadCheck k s = 0)
    (part : component (s.slot (refSlot (stepOf b).ref)) ((stepOf b).param / 2 ^ 32 % 2 ^ 8) = some ((stepOf b).w, secret, val)) :
    RequestDone q k j s (fun t => t.ram = s.ram ∧ t.dsp = s.dsp ∧
      CellIs q k (yloadFc k s (stepOf b)) (stepOf b).d { val := val % 2 ^ (64 * (stepOf b).w), limbs := (stepOf b).w, secret := secret } j t)
      (exec (.yload q k) s) := by
  show RequestDone _ _ _ _ _ (execYload q k s)
  unfold execYload
  rw [shortStep_of_fits _ cutter runs good row fits]
  dsimp only
  have passes : s.checkRef k (stepOf b).ref [0x10, 0x11, 0x12, 0x13, 0x20, 0x21, 0x22] ((stepOf b).bits 40 8) = 0 := passes
  obtain ⟨l, counted⟩ := countUse_leases k (stepOf b).ref s
  rw [Step16.ref_eq, if_neg (not_not.mpr passes), counted]
  have found : component (({ s with leases := l } : State).slot (refSlot (stepOf b).ref)) ((stepOf b).bits 32 8) = some ((stepOf b).w, secret, val) := part
  rw [found]
  dsimp only
  rw [if_neg (not_not.mpr rfl)]
  exact requestDone_of_cell runs rfl fun t same cell => ⟨(congrArg State.ram same :), (congrArg State.dsp same :), cell⟩

end

/-! ### YSTORE -/

/-- What a YSTORE names, and what it needs of its parent and of its target (R130). -/
def Step16.attr (x : Step16) : BitVec 16 := BitVec.ofNat 16 (x.param / 2 ^ 32 % 2 ^ 16)
def Step16.parent (x : Step16) : Nat := x.param / 2 ^ 48 % 2 ^ 16
def Step16.type (x : Step16) : Nat := x.param / 2 ^ 16 % 2 ^ 8

/-- The state in which a step has written its key. -/
def Step16.stored (x : Step16) (k : Nat) (val : Bytes) (s : State) : State :=
  (writeKey k (x.param % 2 ^ 16) x.parent x.type (if x.type = 0x03 ∨ x.type = 0x04 then 8 * x.w else 0) x.attr val (isCurve x.type) false s).2

/-- A YSTORE that passes its checks, and the value that it stores. -/
def Step16.Stores (x : Step16) (k : Nat) (j : Job) (val : Bytes) (s : State) : Prop :=
  s.presentsEmpty k x.parent = false ∧ (s.slot x.parent).pending = false ∧ (s.slot x.parent).type ≠ 0x2F ∧
    hasAttr (s.slot x.parent).attr aDERIVE = true ∧ attrOk x.type x.attr = true ∧ (hasAttr x.attr aPERSIST = true → s.persistLine 6 x.parent = true) ∧
    s.checkTarget k (x.param % 2 ^ 16) 1 x.parent (hasAttr x.attr aPERSIST) = 0 ∧ storedValue x.type x.w (j.limbs x.a x.w) = some val

omit cutter runs good in
theorem ystore_of_stores {x : Step16} {val : Bytes} (stores : x.Stores k j val s) :
    ystore k j x s = .done { j with made := x.param % 2 ^ 16 :: j.made } (x.stored k val s) := by
  obtain ⟨shown, checked, head, derives, attr, lines, target, value⟩ := stores
  have stays : (hasAttr x.attr aPERSIST && !s.persistLine 6 x.parent) = false := by
    cases persist : hasAttr x.attr aPERSIST
    · rfl
    · rw [lines persist]; rfl
  unfold ystore
  rw [x.bits_zero]
  refine (if_neg ?_).trans ((if_neg head).trans ((if_neg ?_).trans ?_))
  · rw [show s.presentsEmpty k (x.bits 48 16) = false from shown, show (s.slot (x.bits 48 16)).pending = false from checked]
    exact Bool.false_ne_true
  · rw [show hasAttr (s.slot (x.bits 48 16)).attr aDERIVE = true from derives]
    exact Bool.false_ne_true
  · rw [show storedValue (x.bits 16 8) x.w (j.limbs x.a x.w) = some val from value]
    refine (if_neg ?_).trans (if_neg (not_not.mpr target))
    rw [show attrOk (x.bits 16 8) (BitVec.ofNat 16 (x.bits 32 16)) = true from attr]
    exact (Bool.eq_false_iff.mp stays :)

/-- The key that a YSTORE leaves for the end of the tick. -/
theorem ystore_key {val : Bytes} (row : (stepOf b).op = 0x04) (fits : 32 + (stepOf b).w ≤ j.budget) (stores : (stepOf b).Stores k j val s) :
    RequestDone q k j s (fun t => t.ram = s.ram ∧ t.dsp = s.dsp ∧ t.yard.slots = s.yard.slots ∧
      ∃ y, ((stepOf b).param % 2 ^ 16, y) ∈ t.yard.next ∧ y.type = (stepOf b).type ∧ y.value = val ∧ y.parent = (stepOf b).parent ∧
        y.gen = (s.slot ((stepOf b).param % 2 ^ 16)).gen + 1) (exec (.ystore q k) s) := by
  show RequestDone _ _ _ _ _ (execYstore q k s)
  unfold execYstore
  rw [shortStep_of_fits _ cutter runs good row fits, ystore_of_stores (j := j.spend _) (val := val) stores]
  obtain ⟨y, yard⟩ : ∃ y, (stepOf b).stored k val s = { s with yard := y } := writeUnder_yard ..
  obtain ⟨z, waits, typed, valued, under, gen, -, -⟩ : ∃ z, ((stepOf b).param % 2 ^ 16, z) ∈ ((stepOf b).stored k val s).yard.next ∧ _ := writeUnder_next ..
  have slots : ((stepOf b).stored k val s).slotted = s.slotted := writeUnder_slotted ..
  rw [yard] at waits slots ⊢
  refine requestDone_of_next (fun i _ => rfl) rfl rfl (show j.ending = none from ending_of_runs runs) fun t same worked => ?_
  have next : t.yard.next = y.next := (congrArg (fun x : State => x.yard.next) same :)
  have kept : t.yard.slots = y.slots := (congrArg (fun x : State => x.yard.slots) same :)
  rw [← next] at waits
  exact ⟨(congrArg State.ram same :), (congrArg State.dsp same :), kept.trans (congrArg Prod.fst slots :), z, waits, typed, valued, under, gen⟩

end

end Sys2Proof.Machine

/-! PROOFS. Cutter records that are long steps (R131-R137). -/

namespace Sys2Proof.Machine
open Sys2Proof Sys2Proof.Claims

/-! ### What the Montgomery factor gives -/

theorem rInv_mul {m : Nat} (odd : m % 2 = 1) (x w : Nat) : x * 2 ^ (64 * w) % m * rInv w m % m = x % m := by
  rw [Nat.mod_mul_mod, mul_assoc, Nat.mul_mod, rInv_inverse odd w, ← Nat.mul_mod, mul_one]

/-- A value times the square of the Montgomery radix is the value once the factor has been applied twice. -/
theorem rInv_square {m a : Nat} (odd : m % 2 = 1) (small : a < m) (w : Nat) :
    a * (2 ^ (128 * w) % m) % m * rInv w m % m * rInv w m % m = a := by
  have square : a * (2 ^ (128 * w) % m) % m = a * 2 ^ (64 * w) * 2 ^ (64 * w) % m := by
    rw [Nat.mul_mod_mod, mul_assoc, ← pow_add, ← add_mul]
  rw [square, rInv_mul odd, rInv_mul odd, Nat.mod_eq_of_lt small]

/-- A power in Montgomery form. -/
theorem powMod_montgomery {m a base : Nat} (odd : m % 2 = 1) {w : Nat} (form : base * 2 ^ (64 * w) % m = a) (e : Nat) :
    powMod (a * rInv w m % m) e m * (2 ^ (64 * w) % m) % m = base ^ e * 2 ^ (64 * w) % m := by
  rw [← form, rInv_mul odd, powMod_eq, ← Nat.pow_mod, ← Nat.mul_mod]

/-! ### MEXP -/

/-- The exponent of a MEXP, with its blind, and whether its result is secret. -/
def Step16.exponent (x : Step16) (j : Job) : Nat :=
  if x.param / 2 ^ 24 % 2 = 1 then (j.cell x.b).val + leNat j.drawn * (j.cell (x.param / 2 ^ 16 % 2 ^ 8)).val else (j.cell x.b).val
def Step16.expSecret (x : Step16) (j : Job) : Bool :=
  (j.cell x.a).secret || (j.cell x.b).secret || (j.cell x.m).secret ||
    (decide (x.param / 2 ^ 24 % 2 = 1) && (j.cell (x.param / 2 ^ 16 % 2 ^ 8)).secret)

/-- The value of a MEXP. -/
def Step16.power (x : Step16) (j : Job) : Nat :=
  let m := j.limbs x.m x.w
  if x.param % 2 ^ 13 = 0 then 2 ^ (64 * x.w) % m
  else powMod (j.limbs x.a x.w * rInv x.w m % m) (x.exponent j) m * (2 ^ (64 * x.w) % m) % m

theorem tagOf_exp (j : Job) (x : Step16) :
    j.tagOf ([x.a, x.b, x.m] ++ if x.bits 24 1 = 1 then [x.bits 16 8] else []) = x.expSecret j := by
  unfold Job.tagOf Step16.expSecret Step16.bits
  rw [pow_one]
  split
  next blind => rw [decide_eq_true blind]; simp [Bool.or_assoc]
  next plain => rw [decide_eq_false plain]; simp [Bool.or_assoc]

theorem mexp_of_power {j : Job} {x : Step16} (s : State) (odd : j.limbs x.m x.w % 2 = 1) (small : j.limbs x.a x.w < j.limbs x.m x.w)
    (short : (j.cell x.b).val < 2 ^ (x.param % 2 ^ 13)) : mexp j x s = .cell { val := x.power j, limbs := x.w, secret := x.expSecret j } s := by
  rw [← tagOf_exp]
  unfold mexp
  dsimp only
  rw [x.bits_zero]
  refine if_neg ?_
  simp only [Bool.or_eq_true, decide_eq_true_eq]
  omega

theorem power_lt {j : Job} {x : Step16} (odd : j.limbs x.m x.w % 2 = 1) : x.power j < j.limbs x.m x.w := by
  have pos : 0 < j.limbs x.m x.w := by omega
  unfold Step16.power
  dsimp only
  split
  · exact Nat.mod_lt _ pos
  · exact Nat.mod_lt _ pos

theorem power_eq {j : Job} {x : Step16} (odd : j.limbs x.m x.w % 2 = 1) {base : Nat}
    (form : base * 2 ^ (64 * x.w) % j.limbs x.m x.w = j.limbs x.a x.w) :
    x.power j = if x.param % 2 ^ 13 = 0 then 2 ^ (64 * x.w) % j.limbs x.m x.w else base ^ x.exponent j * 2 ^ (64 * x.w) % j.limbs x.m x.w := by
  unfold Step16.power
  dsimp only
  rw [powMod_montgomery odd form]

/-! ### PMUL -/

/-- The base point of a PMUL, and whether its result is secret. -/
def Step16.base (x : Step16) (j : Job) : Nat := if x.param % 2 = 1 then Config.pointBase x.curve else j.limbs x.b (pointLimbs x.curve)
def Step16.mulSecret (x : Step16) (j : Job) : Bool := (j.cell x.a).secret || (!decide (x.param % 2 = 1) && (j.cell x.b).secret)

theorem Step16.bits_fixed (x : Step16) : x.bits 0 1 = x.param % 2 := (x.bits_zero 1).trans (by rw [pow_one])

theorem tagOf_mul (j : Job) (x : Step16) : j.tagOf (if x.bits 0 1 = 1 then [x.a] else [x.a, x.b]) = x.mulSecret j := by
  unfold Job.tagOf Step16.mulSecret
  rw [x.bits_fixed]
  split
  next fixed => simp [fixed]
  next given => simp [given]

/-- The point of a PMUL: the identity for a scalar of 0 (R133). -/
def Step16.product (x : Step16) (j : Job) (v : Nat) : Nat :=
  (if j.limbs x.a (scalarLimbs x.curve) ≠ 0 then v else if x.curve = 1 then 2 ^ 256 else Config.identityPoint x.curve) % 2 ^ (64 * pointLimbs x.curve)

theorem product_eq (j : Job) (x : Step16) (v : Nat) :
    (if j.limbs x.a (scalarLimbs x.curve) = 0 then identityOf x.curve else v % 2 ^ (64 * pointLimbs x.curve)) = x.product j v := by
  unfold Step16.product identityOf
  by_cases zero : j.limbs x.a (scalarLimbs x.curve) = 0
  · rw [if_pos zero, if_neg (not_not.mpr zero)]
  · rw [if_neg zero, if_pos zero]

section
variable {q k l : Nat} {j : Job} {b : Bytes} {s : State} (left : j.left = some l) (cutter : q % 5 ≤ 1) (runs : Runs q k 16 j b s)
  (good : (stepOf b).bad = false)

/-! ### NATIVE, after its start -/

/-- The catalogue command of a NATIVE step, and its part. -/
def Step16.native (x : Step16) (k : Nat) (j : Job) : Cmd :=
  nativeCmd k (x.param / 2 ^ 32 % 2 ^ 16) (BitVec.ofNat 32 (x.bits 0 32)) (j.bytesFrom x.a (x.param / 2 ^ 48 % 2 ^ 16))
def Job.part (j : Job) (q : Nat) : Part := { cls := .cutter, eng := some q, key := j.key, drawn := j.drawn }

theorem part_val (j : Job) (q : Nat) : (j.part q).val = (j.key.getD {}).value := by
  unfold Part.val Job.part
  cases j.key with
  | none => rfl
  | some y => rfl

theorem part_keyType (j : Job) (q : Nat) : (j.part q).keyType = (j.key.getD {}).type := by
  unfold Part.keyType Job.part
  cases j.key with
  | none => rfl
  | some y => rfl

/-- The last bench cycles of a NATIVE step: what its start has found, a failed fault check, or the row's own result. -/
def nativeEnd (q k : Nat) (bad : Bool) (j : Job) (x : Step16) (s : State) : State :=
  match j.found with
  | some st => applyStep q k j x (.fail st s)
  | none =>
    let r := nativeOp (x.native k j).opcode (x.native k j) (j.part q) s
    if bad then applyStep q k j x (.fail 0x31 s)
    else if r.1 = 0x0131 then stopRequest q k 0x31 (j.setCell x.d {}) r.2.2
    else if r.1 ≠ 0 then applyStep q k j x (.fail (jobStatus r.1) r.2.2)
    else applyStep q k j x (.cell { val := leNat r.2.1, limbs := ceilDiv r.2.1.length 8 } r.2.2)

include left cutter runs good

section
variable (row : (stepOf b).op = 0x1F)
include row

theorem cutNative_more (bad : Bool) (more : j.budget < l) : exec (.cutNative q k bad) s = .next (s.longMore q k l j) := by
  show execCutNative q k bad s = _
  unfold execCutNative
  rw [cutRow_of_runs _ cutter runs good row]
  dsimp only
  rw [left]
  dsimp only
  rw [left, Option.getD_some, min_eq_right more.le, if_pos more]
  unfold State.longMore Job.spend
  rw [Nat.sub_self]

variable (fits : l ≤ j.budget)
include fits

theorem cutNative_of_fits (bad : Bool) : execCutNative q k bad s = .next (nativeEnd q k bad (j.spend l) (stepOf b) s) := by
  unfold execCutNative
  rw [cutRow_of_runs _ cutter runs good row]
  dsimp only
  rw [left]
  dsimp only
  rw [left, Option.getD_some, min_eq_left fits, if_neg (lt_irrefl l)]
  rfl

theorem cutNative_found {st : Nat} (found : j.found = some st) : JobEnds q k st (exec (.cutNative q k false) s) := by
  show JobEnds _ _ _ (execCutNative q k false s)
  rw [cutNative_of_fits left cutter runs good row fits]
  unfold nativeEnd
  rw [show (j.spend l).found = some st from found]
  exact jobEnds_of_failed ..

variable (found : j.found = none)
include found

theorem cutNative_bad : JobEnds q k 0x31 (exec (.cutNative q k true) s) := by
  show JobEnds _ _ _ (execCutNative q k true s)
  rw [cutNative_of_fits left cutter runs good row fits]
  unfold nativeEnd
  rw [show (j.spend l).found = none from found]
  exact jobEnds_of_failed ..

/-- The row's result, in the cell that the step names. -/
theorem cutNative_result {out : Bytes} (gives : nativeOp ((stepOf b).native k j).opcode ((stepOf b).native k j) (j.part q) s = (0, out, s)) :
    LeavesCell q k l (stepOf b).d { val := leNat out, limbs := ceilDiv out.length 8 } j s (exec (.cutNative q k false) s) := by
  show LeavesCell _ _ _ _ _ _ _ (execCutNative q k false s)
  rw [cutNative_of_fits left cutter runs good row fits]
  have result : nativeOp ((stepOf b).native k (j.spend l)).opcode ((stepOf b).native k (j.spend l)) ((j.spend l).part q) s = (0, out, s) := gives
  unfold nativeEnd
  rw [show (j.spend l).found = none from found]
  dsimp only
  rw [result]
  exact leavesCell_of_cell runs

/-- A row whose own check fails. -/
theorem cutNative_fault {out : Bytes} {u : State}
    (fails : nativeOp ((stepOf b).native k j).opcode ((stepOf b).native k j) (j.part q) s = (0x0131, out, u)) :
    JobEnds q k 0x31 (exec (.cutNative q k false) s) := by
  show JobEnds _ _ _ (execCutNative q k false s)
  rw [cutNative_of_fits left cutter runs good row fits]
  have result : nativeOp ((stepOf b).native k (j.spend l)).opcode ((stepOf b).native k (j.spend l)) ((j.spend l).part q) s = (0x0131, out, u) := fails
  unfold nativeEnd
  rw [show (j.spend l).found = none from found]
  dsimp only
  rw [result]
  exact jobEnds_of_stop ..

end

end

end Sys2Proof.Machine

/-! PROOFS. The results of the cutter's long steps, and O28. -/

namespace Sys2Proof.Machine
open Sys2Proof Sys2Proof.Claims

section
variable {q k l : Nat} {j : Job} {b : Bytes} {s : State} (left : j.left = some l) (cutter : q % 5 ≤ 1) (runs : Runs q k 16 j b s)
  (good : (stepOf b).bad = false)
include left cutter runs good

/-- A long step takes the whole budget while that is below what is left. -/
theorem longRows_more (more : j.budget < l) : ∀ r ∈ [(0x0B, exec (.mprep q k) s), (0x0C, exec (.minv q k) s), (0x0D, exec (.mexp q k) s),
    (0x10, exec (.pmul q k) s), (0x18, exec (.releasePub q k) s), (0x1F, exec (.cutNative q k false) s)], r.1 = (stepOf b).op →
    r.2 = .next (s.longMore q k l j) := by
  have long (op : Nat) (start : Step16 → Nat × Nat) (f : Job → Step16 → State → StepRes) (row : (stepOf b).op = op) :
      (.next (longStep op q k start f s) : Host.Outcome State Fault Refusal) = .next (s.longMore q k l j) :=
    congrArg _ (longStep_of_more left f cutter runs good row more)
  simp only [List.forall_mem_cons]
  exact ⟨fun row => long 0x0B _ _ row.symm, fun row => long 0x0C _ _ row.symm, fun row => long 0x0D _ _ row.symm,
    fun row => long 0x10 _ _ row.symm, fun row => long 0x18 _ _ row.symm,
    fun row => cutNative_more left cutter runs good row.symm false more, fun _ none => absurd none (by simp)⟩

variable (fits : l ≤ j.budget)
include fits

theorem mprep_square (row : (stepOf b).op = 0x0B) (odd : j.limbs (stepOf b).m (stepOf b).w % 2 = 1) :
    LeavesCell q k l (stepOf b).d
      { val := 2 ^ (128 * (stepOf b).w) % j.limbs (stepOf b).m (stepOf b).w, limbs := (stepOf b).w, secret := (j.cell (stepOf b).m).secret } j s (exec (.mprep q k) s) := by
  have tag : (j.cell (stepOf b).m).secret = (j.spend l).tagOf [(stepOf b).m] := (Bool.or_false _).symm
  rw [tag]
  exact leavesCell_of_longStep left cutter runs good row fits
    (if_neg (show ¬ j.limbs (stepOf b).m (stepOf b).w % 2 = 0 from by omega))

omit left cutter runs good fits in
theorem operands_good {m a : Nat} (odd : m % 2 = 1) (small : a < m) : ¬ (decide (m % 2 = 0) || decide (m ≤ a)) = true := by
  simp only [Bool.or_eq_true, decide_eq_true_eq]
  omega

section
variable (row : (stepOf b).op = 0x0C) (odd : j.limbs (stepOf b).m (stepOf b).w % 2 = 1)
  (small : j.limbs (stepOf b).a (stepOf b).w < j.limbs (stepOf b).m (stepOf b).w)
include row odd small

theorem minv_inverse {v : Nat} (inverse : modInv (j.limbs (stepOf b).a (stepOf b).w) (j.limbs (stepOf b).m (stepOf b).w) = some v) :
    LeavesCell q k l (stepOf b).d { val := v, limbs := (stepOf b).w, secret := (j.cell (stepOf b).a).secret || (j.cell (stepOf b).m).secret } j s
      (exec (.minv q k) s) := by
  have tag : ((j.cell (stepOf b).a).secret || (j.cell (stepOf b).m).secret) = (j.spend l).tagOf [(stepOf b).a, (stepOf b).m] :=
    congrArg ((j.cell (stepOf b).a).secret || ·) (Bool.or_false _).symm
  rw [tag]
  refine leavesCell_of_longStep left cutter runs good row fits ((if_neg (operands_good odd small)).trans ?_)
  rw [show modInv ((j.spend l).limbs (stepOf b).a (stepOf b).w) ((j.spend l).limbs (stepOf b).m (stepOf b).w) = some v from inverse]

theorem minv_common (common : modInv (j.limbs (stepOf b).a (stepOf b).w) (j.limbs (stepOf b).m (stepOf b).w) = none) :
    JobEnds q k 0x03 (exec (.minv q k) s) := by
  refine jobEnds_of_longStep (u := s) left cutter runs good row fits ((if_neg (operands_good odd small)).trans ?_)
  rw [show modInv ((j.spend l).limbs (stepOf b).a (stepOf b).w) ((j.spend l).limbs (stepOf b).m (stepOf b).w) = none from common]

end

theorem mexp_power (row : (stepOf b).op = 0x0D) (odd : j.limbs (stepOf b).m (stepOf b).w % 2 = 1)
    (small : j.limbs (stepOf b).a (stepOf b).w < j.limbs (stepOf b).m (stepOf b).w)
    (short : (j.cell (stepOf b).b).val < 2 ^ ((stepOf b).param % 2 ^ 13)) :
    LeavesCell q k l (stepOf b).d { val := (stepOf b).power j, limbs := (stepOf b).w, secret := (stepOf b).expSecret j } j s (exec (.mexp q k) s) :=
  leavesCell_of_longStep left cutter runs good row fits (mexp_of_power (j := j.spend l) s odd small short)

section
variable (row : (stepOf b).op = 0x10)
include row

theorem pmul_point {v : Nat}
    (gives : Config.pointMul (stepOf b).curve (j.limbs (stepOf b).a (scalarLimbs (stepOf b).curve)) ((stepOf b).base j) = some v) :
    LeavesCell q k l (stepOf b).d { val := (stepOf b).product j v, limbs := pointLimbs (stepOf b).curve, secret := (stepOf b).mulSecret j } j s
      (exec (.pmul q k) s) := by
  rw [← product_eq, ← tagOf_mul]
  refine leavesCell_of_longStep left cutter runs good row fits ?_
  unfold Step16.base at gives
  rw [← Step16.bits_fixed] at gives
  dsimp only
  rw [show Config.pointMul (stepOf b).curve ((j.spend l).limbs (stepOf b).a (scalarLimbs (stepOf b).curve))
    (if (stepOf b).bits 0 1 = 1 then Config.pointBase (stepOf b).curve else (j.spend l).limbs (stepOf b).b (pointLimbs (stepOf b).curve)) = some v from gives]
  rfl

theorem pmul_operand (gives : Config.pointMul (stepOf b).curve (j.limbs (stepOf b).a (scalarLimbs (stepOf b).curve)) ((stepOf b).base j) = none) :
    JobEnds q k 0x03 (exec (.pmul q k) s) := by
  refine jobEnds_of_longStep (u := s) left cutter runs good row fits ?_
  unfold Step16.base at gives
  rw [← Step16.bits_fixed] at gives
  dsimp only
  rw [show Config.pointMul (stepOf b).curve ((j.spend l).limbs (stepOf b).a (scalarLimbs (stepOf b).curve))
    (if (stepOf b).bits 0 1 = 1 then Config.pointBase (stepOf b).curve else (j.spend l).limbs (stepOf b).b (pointLimbs (stepOf b).curve)) = none from gives]

end

/-! ### RELEASE_PUB -/

section
variable (row : (stepOf b).op = 0x18) (odd : j.limbs (stepOf b).m (stepOf b).w % 2 = 1)
  (small : j.limbs (stepOf b).a (stepOf b).w < j.limbs (stepOf b).m (stepOf b).w)
  (compared : j.limbs (stepOf b).b (stepOf b).w < j.limbs (stepOf b).m (stepOf b).w)
  (square : j.limbs ((stepOf b).param % 2 ^ 8) (stepOf b).w = 2 ^ (128 * (stepOf b).w) % j.limbs (stepOf b).m (stepOf b).w)

omit left cutter runs good fits in
include odd small square in
/-- What RELEASE_PUB compares is A^65537 modulo M. -/
theorem release_power : powMod (j.limbs (stepOf b).a (stepOf b).w * j.limbs ((stepOf b).bits 0 8) (stepOf b).w % j.limbs (stepOf b).m (stepOf b).w *
      rInv (stepOf b).w (j.limbs (stepOf b).m (stepOf b).w) % j.limbs (stepOf b).m (stepOf b).w *
      rInv (stepOf b).w (j.limbs (stepOf b).m (stepOf b).w) % j.limbs (stepOf b).m (stepOf b).w) 65537 (j.limbs (stepOf b).m (stepOf b).w) =
    j.limbs (stepOf b).a (stepOf b).w ^ 65537 % j.limbs (stepOf b).m (stepOf b).w := by
  rw [Step16.bits_zero, square, rInv_square odd small, powMod_eq]

omit left cutter runs good fits in
include odd small compared square in
theorem release_operands : ¬ (decide (j.limbs (stepOf b).m (stepOf b).w % 2 = 0) || decide (j.limbs (stepOf b).m (stepOf b).w ≤ j.limbs (stepOf b).a (stepOf b).w) ||
    decide (j.limbs (stepOf b).m (stepOf b).w ≤ j.limbs (stepOf b).b (stepOf b).w) ||
    decide (j.limbs (stepOf b).m (stepOf b).w ≤ j.limbs ((stepOf b).bits 0 8) (stepOf b).w)) = true := by
  have below : j.limbs ((stepOf b).bits 0 8) (stepOf b).w < j.limbs (stepOf b).m (stepOf b).w := by
    rw [Step16.bits_zero, square]
    exact Nat.mod_lt _ (by omega)
  simp only [Bool.or_eq_true, decide_eq_true_eq]
  omega

include row odd small compared square

theorem releasePub_good (checks : j.limbs (stepOf b).a (stepOf b).w ^ 65537 % j.limbs (stepOf b).m (stepOf b).w = j.limbs (stepOf b).b (stepOf b).w) :
    LeavesCell q k l (stepOf b).d { val := j.limbs (stepOf b).a (stepOf b).w, limbs := (stepOf b).w } j s (exec (.releasePub q k) s) :=
  leavesCell_of_longStep left cutter runs good row fits ((if_neg (release_operands odd small compared square)).trans
    (if_pos ((release_power odd small square).trans checks)))

theorem releasePub_bad (differs : j.limbs (stepOf b).a (stepOf b).w ^ 65537 % j.limbs (stepOf b).m (stepOf b).w ≠ j.limbs (stepOf b).b (stepOf b).w) :
    JobEnds q k 0x31 (exec (.releasePub q k) s) :=
  jobEnds_of_longStep (u := s) left cutter runs good row fits ((if_neg (release_operands odd small compared square)).trans
    (if_neg fun same => differs ((release_power (j := j) odd small square).symm.trans same)))

end

/-! ### NATIVE -/

section
variable (row : (stepOf b).op = 0x1F) (found : j.found = none)
include row found

theorem cutNative_edSign (opcode : (stepOf b).param / 2 ^ 32 % 2 ^ 16 = 0x0310) :
    LeavesCell q k l (stepOf b).d
      { val := leNat (edSign ((j.key.getD {}).value.take 32) (j.bytesFrom (stepOf b).a ((stepOf b).param / 2 ^ 48 % 2 ^ 16))), limbs := 8 } j s
      (exec (.cutNative q k false) s) := by
  have gives : nativeOp ((stepOf b).native k j).opcode ((stepOf b).native k j) (j.part q) s =
      (0, edSign ((j.part q).val.take 32) ((stepOf b).native k j).input, s) :=
    congrArg (fun n => nativeOp n ((stepOf b).native k j) (j.part q) s) opcode
  have ends := cutNative_result left cutter runs good row fits found gives
  have length : ceilDiv (edSign ((j.part q).val.take 32) ((stepOf b).native k j).input).length 8 = 8 :=
    congrArg (ceilDiv · 8) (fixLen_length 64 _)
  rw [length, part_val] at ends
  exact ends

section
variable (opcode : (stepOf b).param / 2 ^ 32 % 2 ^ 16 = 0x0312)
include opcode

/-- The length of a part of a signature on the curve of a NATIVE key. -/
def signLen (type : Nat) : Nat := if curveOf type = 3 then 32 else 48

omit left cutter runs good fits row found in
theorem nativeOp_sign : nativeOp ((stepOf b).native k j).opcode ((stepOf b).native k j) (j.part q) s =
    fEcdsaSign ((stepOf b).native k j) (j.part q) s := congrArg (fun n => nativeOp n ((stepOf b).native k j) (j.part q) s) opcode

theorem cutNative_sign {sig : Bytes}
    (signs : ecdsaSign (curveOf (j.key.getD {}).type) ((j.key.getD {}).value.take (signLen (j.key.getD {}).type))
      (j.bytesFrom (stepOf b).a ((stepOf b).param / 2 ^ 48 % 2 ^ 16)) (j.drawn.take (signLen (j.key.getD {}).type)) = some sig) :
    LeavesCell q k l (stepOf b).d { val := leNat sig, limbs := ceilDiv sig.length 8 } j s (exec (.cutNative q k false) s) := by
  rw [← part_val j q, ← part_keyType j q] at signs
  exact cutNative_result left cutter runs good row fits found ((nativeOp_sign opcode).trans (fEcdsaSign_of_some signs))

theorem cutNative_unsigned
    (fails : ecdsaSign (curveOf (j.key.getD {}).type) ((j.key.getD {}).value.take (signLen (j.key.getD {}).type))
      (j.bytesFrom (stepOf b).a ((stepOf b).param / 2 ^ 48 % 2 ^ 16)) (j.drawn.take (signLen (j.key.getD {}).type)) = none) :
    JobEnds q k 0x31 (exec (.cutNative q k false) s) := by
  rw [← part_val j q, ← part_keyType j q] at fails
  exact cutNative_fault left cutter runs good row fits found ((nativeOp_sign opcode).trans (fEcdsaSign_of_none fails))

end

section
variable (opcode : (stepOf b).param / 2 ^ 32 % 2 ^ 16 = 0x0300)
include opcode

omit left cutter runs good fits row found in
theorem nativeOp_rsa : nativeOp ((stepOf b).native k j).opcode ((stepOf b).native k j) (j.part q) s =
    fRsaPriv ((stepOf b).native k j) (j.part q) s := congrArg (fun n => nativeOp n ((stepOf b).native k j) (j.part q) s) opcode

theorem cutNative_rsa {y : Bytes} (gives : rsaPrivate (j.key.getD {}).type (j.key.getD {}).value
      (j.bytesFrom (stepOf b).a ((stepOf b).param / 2 ^ 48 % 2 ^ 16)) j.drawn = some y) :
    LeavesCell q k l (stepOf b).d { val := leNat y, limbs := ceilDiv y.length 8 } j s (exec (.cutNative q k false) s) := by
  rw [← part_val j q, ← part_keyType j q] at gives
  exact cutNative_result left cutter runs good row fits found ((nativeOp_rsa opcode).trans (fRsaPriv_of_some gives))

theorem cutNative_unblinded (fails : rsaPrivate (j.key.getD {}).type (j.key.getD {}).value
      (j.bytesFrom (stepOf b).a ((stepOf b).param / 2 ^ 48 % 2 ^ 16)) j.drawn = none) : JobEnds q k 0x31 (exec (.cutNative q k false) s) := by
  rw [← part_val j q, ← part_keyType j q] at fails
  exact cutNative_fault left cutter runs good row fits found ((nativeOp_rsa opcode).trans (fRsaPriv_of_none fails))

end

end

end

end Sys2Proof.Machine

namespace Sys2Proof.Proofs
open Sys2Proof Sys2Proof.Machine Sys2Proof.Claims

/-- Settles O28: a step that fits runs on the job's cells and leaves its result in D; a long one first takes its bench cycles, job tick by job tick. -/
theorem cutterRecords : Obligations.CutterRecords := by
  unfold Obligations.CutterRecords
  constructor
  · intro q k j b s cutter runs good x addr reached m a v sec num wp identity
    refine ⟨cutLoad_reached cutter runs good, cutLoad_outside cutter runs good, cutStore_reached cutter runs good, cutStore_secret cutter runs good,
      madd_number cutter runs good, msub_number cutter runs good, mmul_number cutter runs good, madd_operand cutter runs good,
      cutPadd_sum cutter runs good, releasePt_good cutter runs good, releasePt_off cutter runs good, releasePt_identity cutter runs good, ?_, ?_⟩
    · intro row fits
      exact ⟨yload_refused cutter runs good row fits, fun passes secret val part => yload_component cutter runs good row fits passes part⟩
    · intro row fits target type attr parent shown checked head derives allowed lines free val value
      exact ystore_key cutter runs good row fits ⟨shown, checked, head, derives, allowed, lines, free, value⟩
  · intro q k l j b s cutter runs good left x rows m a ends fixed p key type input
    refine ⟨fun r row op more => longRows_more left cutter runs good more r row op, fun fits => ⟨mprep_square left cutter runs good fits, ?_, ?_, ?_, ?_, ?_, ?_,
      fun row st found => cutNative_found left cutter runs good row fits found⟩⟩
    · intro row odd small prime
      obtain ⟨v, inverse, below, value⟩ := modInv_of_coprime (by omega : 0 < m) prime
      exact ⟨v, below, value, minv_inverse left cutter runs good fits row odd small inverse⟩
    · intro row odd small common
      exact minv_common left cutter runs good fits row odd small (modInv_of_common common)
    · intro row odd small e blind order c short
      exact ⟨x.power j, power_lt odd, fun base form => power_eq odd form, mexp_power left cutter runs good fits row odd small short⟩
    · intro row
      exact ⟨fun v gives => pmul_point left cutter runs good fits row gives, pmul_operand left cutter runs good fits row⟩
    · intro row odd small compared square
      exact ⟨releasePub_good left cutter runs good fits row odd small compared square, releasePub_bad left cutter runs good fits row odd small compared square⟩
    · intro row found
      exact ⟨cutNative_edSign left cutter runs good fits row found,
        fun opcode => ⟨fun sig => cutNative_sign left cutter runs good fits row found opcode, cutNative_unsigned left cutter runs good fits row found opcode⟩,
        fun opcode => ⟨fun y => cutNative_rsa left cutter runs good fits row found opcode, cutNative_unblinded left cutter runs good fits row found opcode⟩,
        cutNative_bad left cutter runs good row fits found⟩

end Sys2Proof.Proofs

/-! PROOFS. Splitter requests on polynomials (R146, R157-R161). -/

namespace Sys2Proof.Machine
open Sys2Proof Sys2Proof.Claims

/-! ### Polynomials of 256 coefficients -/

theorem poly_setPoly {p : List Nat} (j : Job) (i : Nat) (full : p.length = 256) : (j.setPoly i p).poly i = p := by
  unfold Job.poly Job.setPoly
  rw [tget_tset_same, List.take_append_of_le_length full.ge, List.take_of_length_le full.le]

theorem poly_setPoly_other {i k : Nat} (other : k ≠ i) (j : Job) (p : List Nat) : (j.setPoly i p).poly k = j.poly k := by
  unfold Job.poly Job.setPoly
  rw [tget_tset_ne _ _ _ other]

theorem length_padded (n : Nat) (p : List Nat) : ((p ++ List.replicate n 0).take n).length = n := by
  rw [List.length_take, List.length_append, List.length_replicate]
  omega

theorem poly_length (j : Job) (i : Nat) : (j.poly i).length = 256 := length_padded 256 _

theorem fixPoly_length (m : Nat) (p : List Nat) : (fixPoly m p).length = 256 := length_padded 256 _

theorem fixPoly_of_full {p : List Nat} (m : Nat) (full : p.length = 256) : fixPoly m p = p.map (· % m) := by
  have length : (p.map (· % m)).length = 256 := by rw [List.length_map, full]
  unfold fixPoly
  rw [List.take_append_of_le_length length.ge, List.take_of_length_le length.le]

/-- A polynomial that is computed coefficient by coefficient. -/
theorem fixPoly_zipWith {m : Nat} {a b : List Nat} (f : Nat → Nat → Nat) (first : a.length = 256) (second : b.length = 256) :
    fixPoly m (List.zipWith f a b) = (List.range 256).map fun i => f (a.getD i 0) (b.getD i 0) % m := by
  have full : (List.zipWith f a b).length = 256 := by rw [List.length_zipWith, first, second, min_self]
  rw [fixPoly_of_full m full]
  refine List.ext_getElem (by rw [List.length_map, List.length_map, full, List.length_range]) fun i inside _ => ?_
  rw [List.length_map, full] at inside
  rw [List.getElem_map, List.getElem_zipWith, List.getElem_map, List.getElem_range, List.getD_eq_getElem, List.getD_eq_getElem]

theorem slice_read (m : Memory) {a o k n : Nat} (inside : o + k ≤ n) : slice (m.read a n) o k = m.read (a + o) k := by
  refine List.ext_getElem? fun i => ?_
  unfold slice Memory.read
  rw [getElem?_fixLen]
  split
  next small =>
    rw [List.getElem?_drop, List.getElem?_map, List.getElem?_map, List.getElem?_range (by omega), List.getElem?_range small]
    exact congrArg (fun x => some (m.get x)) (Nat.add_assoc a o i).symm
  next large => rw [List.getElem?_eq_none (by simpa using large)]

/-- A polynomial in memory. -/
theorem polyOf_read (s : State) (a : Nat) : polyOf (s.ramRead a 1024) = (List.range 256).map fun i => leNat (s.ramRead (a + 4 * i) 4) := by
  refine List.map_congr_left fun i h => ?_
  have small : i < 256 := List.mem_range.mp h
  exact congrArg leNat (slice_read s.ram (by omega))

/-! ### The current request -/

section
variable {q k : Nat} {j : Job} {b : Bytes} {s : State} (splitter : q % 5 = 2) (runs : Runs q k 32 j b s) (good : (splReq b).bad = false)
  {op : Nat} {f : Job → SplReq → State → Nat × Job × State} (row : (splReq b).op = op) (fits : polyFc (splReq b) ≤ j.budget)
include splitter runs good row fits

theorem polyRow_of_fits {j' : Job} {u : State} {st : Nat} (known : splOps.contains op = true)
    (gives : f (j.spend (polyFc (splReq b))) (splReq b) s = (st, j', u)) :
    polyRow op q k f s = if st = 0 then nextRequest q k j' u else stopRequest q k st j' u := by
  have is : (fieldLE b 0 1 = op || !splOps.contains (fieldLE b 0 1)) = true := by
    have same : fieldLE b 0 1 = op := row
    simp [same]
  unfold polyRow
  dsimp only
  rw [if_neg (not_not.mpr splitter), firsts_of_runs runs, current_of_runs runs is]
  dsimp only
  rw [row, known, good, if_neg (by simp : ¬ (!true || false) = true), if_neg (by omega), gives]

/-- A polynomial request that leaves the polynomial PD, and changes nothing but its job. -/
def LeavesPoly (q k : Nat) (j : Job) (x : SplReq) (s : State) (p : List Nat) (o : Host.Outcome State Fault Refusal) : Prop :=
  RequestDone q k j s (fun t => OnlyJob s t ∧ t.ram = s.ram ∧ (t.job q k).fc = j.fc + BitVec.ofNat 64 (polyFc x) ∧ (t.job q k).poly x.pd = p ∧
    ∀ i, i ≠ x.pd → (t.job q k).poly i = j.poly i) o

theorem leavesPoly_of_row {p : List Nat} (known : splOps.contains op = true) (full : p.length = 256)
    (gives : f (j.spend (polyFc (splReq b))) (splReq b) s = (0, (j.spend (polyFc (splReq b))).setPoly (splReq b).pd p, s)) :
    LeavesPoly q k j (splReq b) s p (.next (polyRow op q k f s)) := by
  rw [polyRow_of_fits splitter runs good row fits known gives, if_pos rfl]
  refine requestDone_of_next (fun _ _ => rfl) rfl rfl (show j.ending = none from ending_of_runs runs) fun t same worked => ?_
  have polys (i : Nat) : (t.job q k).poly i = ((j.spend (polyFc (splReq b))).setPoly (splReq b).pd p).poly i :=
    congrArg (fun l => (tget [] l i ++ List.replicate 256 0).take 256) (congrArg Job.polys worked :)
  exact ⟨(onlyJob_of_unjobbed same).1, (onlyJob_of_unjobbed same).2, (congrArg Job.fc worked :), (polys _).trans (poly_setPoly _ _ full),
    fun i other => (polys i).trans (poly_setPoly_other other _ _)⟩

theorem jobEnds_of_row {st : Nat} {j' : Job} {u : State} (known : splOps.contains op = true) (bad : st ≠ 0)
    (gives : f (j.spend (polyFc (splReq b))) (splReq b) s = (st, j', u)) : JobEnds q k st (.next (polyRow op q k f s)) := by
  rw [polyRow_of_fits splitter runs good row fits known gives, if_neg bad]
  exact jobEnds_of_stop ..

theorem leavesPoly_of_calc {g : Nat → List Nat → List Nat → List Nat} (known : splOps.contains op = true) :
    LeavesPoly q k j (splReq b) s (fixPoly (modOf (splReq b).q) (g (modOf (splReq b).q) (j.poly (splReq b).pa) (j.poly (splReq b).pb)))
      (.next (polyCalc op q k g s)) :=
  leavesPoly_of_row splitter runs good row fits known (fixPoly_length ..) rfl

end

section
variable {q k : Nat} {j : Job} {b : Bytes} {s : State} (splitter : q % 5 = 2) (runs : Runs q k 32 j b s) (good : (splReq b).bad = false)
  (fits : polyFc (splReq b) ≤ j.budget)

theorem covered_of_pages {a n : Nat} (inside : s.inPages (q / 5) k a n = true) : s.covered q k a n = true := by
  unfold State.covered
  rw [inside, Bool.or_true]

theorem reach_good {a n : Nat} (aligned : a % 16 = 0) (inside : s.inPages (q / 5) k a n = true) :
    ¬ (a % 16 ≠ 0 || !s.covered q k a n) = true := by
  rw [covered_of_pages inside, aligned]
  simp

include splitter runs good fits

section
variable (row : (splReq b).op = 1)
include row

section
variable (aligned : (splReq b).inp % 16 = 0) (inside : s.inPages (q / 5) k (splReq b).inp 1024 = true)
include aligned inside

theorem pload_poly (below : ∀ i < 256, leNat (s.ramRead ((splReq b).inp + 4 * i) 4) < modOf (splReq b).q) :
    LeavesPoly q k j (splReq b) s ((List.range 256).map fun i => leNat (s.ramRead ((splReq b).inp + 4 * i) 4)) (exec (.pload q k) s) := by
  rw [← polyOf_read]
  refine leavesPoly_of_row splitter runs good row fits rfl (by simp [polyOf]) ((if_neg (reach_good aligned inside)).trans (if_pos ?_))
  rw [polyOf_read, List.all_eq_true]
  intro x h
  obtain ⟨i, small, rfl⟩ := List.mem_map.mp h
  exact decide_eq_true (below i (List.mem_range.mp small))

theorem pload_above (above : ∃ i < 256, modOf (splReq b).q ≤ leNat (s.ramRead ((splReq b).inp + 4 * i) 4)) : JobEnds q k 0x03 (exec (.pload q k) s) := by
  refine jobEnds_of_row splitter runs good row fits rfl (by decide) ((if_neg (reach_good aligned inside)).trans (if_neg ?_))
  obtain ⟨i, small, high⟩ := above
  rw [polyOf_read, List.all_eq_true]
  intro all
  have low := of_decide_eq_true (all _ (List.mem_map_of_mem (List.mem_range.mpr small)))
  omega

end

theorem pload_unaligned (odd : (splReq b).inp % 16 ≠ 0) : JobEnds q k 0x01 (exec (.pload q k) s) :=
  jobEnds_of_row splitter runs good row fits rfl (by decide) (if_pos (by simp [odd]))

end

theorem pstore_written (row : (splReq b).op = 2) (aligned : (splReq b).out % 16 = 0) (inside : s.inPages (q / 5) k (splReq b).out 1024 = true) :
    RequestDone q k j s (fun t => OnlyJob s t ∧ Wrote (splReq b).out ((j.poly (splReq b).pa).flatMap (leBytes 4)) s t) (exec (.pstore q k) s) := by
  show RequestDone _ _ _ _ _ (execPstore q k s)
  unfold execPstore
  rw [polyRow_of_fits splitter runs good row fits rfl (if_neg (reach_good aligned inside)), if_pos rfl]
  exact requestDone_of_next (fun _ _ => rfl) rfl rfl (show j.ending = none from ending_of_runs runs) fun t same _ => onlyJob_of_written same

/-! ### Requests that only compute -/

theorem pmult_dsa (row : (splReq b).op = 5) (dsa : (splReq b).q = 1) : LeavesPoly q k j (splReq b) s
    ((List.range 256).map fun i => (j.poly (splReq b).pa).getD i 0 * (j.poly (splReq b).pb).getD i 0 % modOf (splReq b).q) (exec (.pmult q k) s) := by
  have m : modOf (splReq b).q = 8380417 := if_pos dsa
  have done := leavesPoly_of_calc (g := fun m a b => if m = 8380417 then List.zipWith (· * ·) a b else Config.pmulNttRaw m a b) splitter runs good row fits rfl
  beta_reduce at done
  rw [if_pos m, fixPoly_zipWith _ (poly_length ..) (poly_length ..)] at done
  exact done

theorem pmult_kem (row : (splReq b).op = 5) (kem : (splReq b).q = 2) : LeavesPoly q k j (splReq b) s
    (fixPoly (modOf (splReq b).q) (Config.pmulNttRaw (modOf (splReq b).q) (j.poly (splReq b).pa) (j.poly (splReq b).pb))) (exec (.pmult q k) s) := by
  have m : modOf (splReq b).q ≠ 8380417 := by rw [kem]; decide
  have done := leavesPoly_of_calc (g := fun m a b => if m = 8380417 then List.zipWith (· * ·) a b else Config.pmulNttRaw m a b) splitter runs good row fits rfl
  beta_reduce at done
  rw [if_neg m] at done
  exact done

theorem splPadd_sum (row : (splReq b).op = 6) : LeavesPoly q k j (splReq b) s
    ((List.range 256).map fun i => ((j.poly (splReq b).pa).getD i 0 + (j.poly (splReq b).pb).getD i 0) % modOf (splReq b).q) (exec (.splPadd q k) s) := by
  have done := leavesPoly_of_calc (g := fun _ a b => List.zipWith (· + ·) a b) splitter runs good row fits rfl
  beta_reduce at done
  rw [fixPoly_zipWith _ (poly_length ..) (poly_length ..)] at done
  exact done

/-- A difference modulo m, whose sum with the subtrahend is the minuend. -/
theorem psub_difference (row : (splReq b).op = 7) : ∃ p : List Nat, p.length = 256 ∧
    (∀ i < 256, p.getD i 0 < modOf (splReq b).q ∧
      (p.getD i 0 + (j.poly (splReq b).pb).getD i 0) % modOf (splReq b).q = (j.poly (splReq b).pa).getD i 0 % modOf (splReq b).q) ∧
    LeavesPoly q k j (splReq b) s p (exec (.psub q k) s) := by
  have done := leavesPoly_of_calc (g := fun m a b => List.zipWith (fun x y => x % m + m - y % m) a b) splitter runs good row fits rfl
  beta_reduce at done
  rw [fixPoly_zipWith _ (poly_length ..) (poly_length ..)] at done
  refine ⟨_, by simp, fun i small => ?_, done⟩
  have pos : 0 < modOf (splReq b).q := by unfold modOf; split <;> decide
  rw [List.getD_eq_getElem _ _ (by simpa using small), List.getElem_map, List.getElem_range]
  generalize (j.poly (splReq b).pa).getD i 0 = x
  generalize (j.poly (splReq b).pb).getD i 0 = y
  refine ⟨Nat.mod_lt _ pos, ?_⟩
  have least := (Nat.mod_lt y pos).le
  rw [Nat.mod_add_mod, ← Nat.add_mod_mod _ y, Nat.sub_add_cancel (by omega), Nat.add_mod_right, Nat.mod_mod]

end

end Sys2Proof.Machine

/-! PROOFS. NATIVE requests of the splitter (R157-R161). -/

namespace Sys2Proof.Machine
open Sys2Proof Sys2Proof.Claims

/-! ### The fields of the catalogue command -/

theorem slice_append_mid {o n : Nat} {a m : Bytes} (r : Bytes) (before : a.length = o) (length : m.length = n) : slice (a ++ m ++ r) o n = m := by
  unfold slice
  subst before length
  rw [List.append_assoc, List.drop_left]
  unfold fixLen
  rw [List.append_assoc, List.take_left]

theorem slice_length (b : Bytes) (o n : Nat) : (slice b o n).length = n := fixLen_length ..

section
variable {q k l : Nat} {j : Job} {b : Bytes} {s : State}

/-- The catalogue command of a NATIVE request with the input that its start has read, and its part. -/
def splInput (k : Nat) (b : Bytes) (j : Job) (s : State) : Cmd := { splCmd k b s with input := j.out, inLen := j.out.length }
def Job.splPart (j : Job) (q : Nat) : Part := { cls := .splitter, eng := some q, key := j.key, drawn := j.drawn }

theorem splInput_target : (splInput k b j s).target = fieldLE b 12 2 := by
  have u3 : (splInput k b j s).u3 = leBytes 4 0 ++ slice b 12 2 ++ (leBytes 6 0 ++ slice b 5 1 ++ [0] ++ slice b 14 2) := by
    show leBytes 4 0 ++ slice b 12 2 ++ leBytes 6 0 ++ slice b 5 1 ++ [0] ++ slice b 14 2 = _
    simp only [List.append_assoc]
  unfold Cmd.target
  rw [u3]
  exact congrArg leNat (slice_append_mid _ rfl (slice_length ..))

theorem splInput_p0 : (splInput k b j s).p0 = fieldLE b 5 1 := by
  have u3 : (splInput k b j s).u3 = leBytes 4 0 ++ slice b 12 2 ++ leBytes 6 0 ++ slice b 5 1 ++ ([0] ++ slice b 14 2) := by
    show leBytes 4 0 ++ slice b 12 2 ++ leBytes 6 0 ++ slice b 5 1 ++ [0] ++ slice b 14 2 = _
    simp only [List.append_assoc]
  unfold Cmd.p0
  rw [u3]
  exact congrArg leNat (slice_append_mid _ (by rw [List.length_append, List.length_append, slice_length]; rfl) (slice_length ..))

theorem splPart_val : (j.splPart q).val = (j.key.getD {}).value := by
  unfold Part.val Job.splPart
  cases j.key with
  | none => rfl
  | some y => rfl

/-! ### A job tick -/

theorem splEach_eq (t : Nat) (j : Job) (b : Bytes) (s : State) :
    splEach t j b s = ({ j with n := if fieldLE b 6 2 = 0x0401 then attemptsDone t ((j.total - 28) / 8) else j.n }, s) := by
  unfold splEach
  split
  · rfl
  · rfl

/-- A request under way keeps its count of attempts. -/
theorem resetAttempts_of_left (job : (s.job q k).left = some l) : resetAttempts q k s = s := by
  unfold resetAttempts
  split
  next => rfl
  next j' b' found =>
    unfold State.current at found
    dsimp only at found
    split at found
    next =>
      injection found with found
      injection found with found
      rw [← found, job]
      exact if_neg (by simp)
    next => cases found

section
variable (splitter : q % 5 = 2) (runs : Runs q k 32 j b s) (row : fieldLE b 0 1 = 0x1F)
include splitter runs row

theorem splNative_of_left (left : j.left = some l) (bad : Bool) :
    execSplNative q k bad s = .next (wholeTick q k splEach (splFin q k bad) l j b s) := by
  have job : s.job q k = j := by obtain ⟨-, job, -⟩ := runs; exact job
  unfold execSplNative
  rw [if_neg (not_not.mpr splitter), resetAttempts_of_left (l := l) (by rw [job, left]), wholeTicks_of_left runs (by simp [row]) left]

/-- A request with more job ticks left spends one. -/
theorem splNative_more (left : j.left = some l) (more : 1 < l) (bad : Bool) :
    exec (.splNative q k bad) s = .next (s.setJob q k { j with
      budget := 0, left := some (l - 1), n := if fieldLE b 6 2 = 0x0401 then attemptsDone (j.total + 1 - l) ((j.total - 28) / 8) else j.n }) :=
  (splNative_of_left splitter runs row left bad).trans (congrArg _ (wholeTick_of_more more (splEach_eq ..)))

variable (left : j.left = some 1) {bad : Bool} {st : Nat} {out : Bytes} {u : State}
  (gives : splOp bad (fieldLE b 6 2) (splInput k b j s) (j.splPart q) s = (st, out, u))
include left gives

/-- The last tick of a request whose row ends well: what it gives is handed on. -/
theorem splNative_done {p : State → Prop} (ok : st = 0) (jobs : u.jobs = s.jobs)
    (leaves : ∀ t : State, t.unjobbed = u.unjobbed → (t.job q k).late = [(fieldLE b 24 4, out)] → p t) :
    RequestDone q k j s p (exec (.splNative q k bad) s) := by
  show RequestDone _ _ _ _ _ (execSplNative q k bad s)
  subst ok
  rw [splNative_of_left splitter runs row left bad]
  have ends : ∀ n, splFin q k bad { j with budget := 0, left := some (1 - 1), n := n } b s =
      (0, { j with budget := 0, left := some (1 - 1), n := n, out := [], late := [(fieldLE b 24 4, out)] }, u) := by
    intro n
    have result : splOp bad (splInput k b j s).opcode (splInput k b j s) (j.splPart q) s = (0, out, u) := gives
    unfold splFin
    dsimp only
    unfold splInput Job.splPart at result
    rw [result]
    rfl
  rw [wholeTick_of_last (splEach_eq ..) (ends _)]
  exact requestDone_of_next (fun i _ => by rw [jobs]) rfl rfl (show j.ending = none from ending_of_runs runs)
    fun t same worked => leaves t same (congrArg Job.late worked :)

/-- The last tick of a request whose row ends with another status. -/
theorem splNative_fails (other : st ≠ 0) (bad' : jobStatus st ≠ 0) : JobEnds q k (jobStatus st) (exec (.splNative q k bad) s) := by
  show JobEnds _ _ _ (execSplNative q k bad s)
  rw [splNative_of_left splitter runs row left bad]
  have ends : ∀ n, splFin q k bad { j with budget := 0, left := some (1 - 1), n := n } b s =
      (jobStatus st, { j with budget := 0, left := some (1 - 1), n := n, out := [] }, u) := by
    intro n
    have result : splOp bad (splInput k b j s).opcode (splInput k b j s) (j.splPart q) s = (st, out, u) := gives
    unfold splFin
    dsimp only
    unfold splInput Job.splPart at result
    rw [result]
    exact if_neg other
  rw [wholeTick_of_failed (splEach_eq ..) (ends _) bad']
  exact jobEnds_of_stop ..

end

end

end Sys2Proof.Machine

/-! PROOFS. The rows of the splitter's NATIVE requests (R157, R160). -/

namespace Sys2Proof.Machine
open Sys2Proof Sys2Proof.Claims

/-- What a NATIVE request hands on, beside which memory and the slots stand. -/
def HandsOn (q k o : Nat) (v : Bytes) (s t : State) : Prop := t.ram = s.ram ∧ t.yard.slots = s.yard.slots ∧ (t.job q k).late = [(o, v)]

theorem leNat_lt (b : Bytes) : leNat b < 256 ^ b.length := by
  induction b with
  | nil => exact Nat.one_pos
  | cons x r ih =>
    have byte := x.isLt
    unfold leNat
    rw [List.length_cons, pow_succ]
    omega

theorem fieldLE_lt (b : Bytes) (o n : Nat) : fieldLE b o n < 256 ^ n := by
  have small := leNat_lt (slice b o n)
  rwa [slice_length] at small

section
variable {q k : Nat} {j : Job} {b : Bytes} {s : State} (splitter : q % 5 = 2) (runs : Runs q k 32 j b s) (row : fieldLE b 0 1 = 0x1F)

/-- The reference of a request is 0 where its field is. -/
theorem splInput_yref : (splInput k b j s).yref = 0 ↔ fieldLE b 8 4 = 0 := by
  have small : fieldLE b 8 4 < 2 ^ 32 := fieldLE_lt b 8 4
  show BitVec.ofNat 32 (fieldLE b 8 4) = 0 ↔ _
  constructor
  · intro zero
    have value := congrArg BitVec.toNat zero
    rw [BitVec.toNat_ofNat, Nat.mod_eq_of_lt small] at value
    exact value
  · intro zero
    rw [zero]
    rfl

include splitter runs row

/-! ### ML-DSA signing and verification -/

section
variable (left : j.left = some 1) (sign : fieldLE b 6 2 = 0x0401)
include left sign

/-- The parts of a signing request: the context, and the message. -/
def signCtx (j : Job) (b : Bytes) : Bytes := j.out.take (fieldLE b 5 1)
def signMsg (j : Job) (b : Bytes) : Bytes := j.out.drop (fieldLE b 5 1)

omit splitter runs row left in
theorem splOp_sign (bad : Bool) : splOp bad (fieldLE b 6 2) (splInput k b j s) (j.splPart q) s =
    signOutcome q k bad (j.key.getD {}).value (signCtx j b) (signMsg j b) j.drawn s := by
  rw [sign]
  show signOutcome q k bad (j.splPart q).val (j.out.take (splInput k b j s).p0) (j.out.drop (splInput k b j s).p0) j.drawn s = _
  rw [splInput_p0, splPart_val]
  rfl

theorem splSign_limit (many : 256 < Config.mldsaAttemptsRaw (j.key.getD {}).value (signCtx j b) (signMsg j b) j.drawn) (bad : Bool) :
    JobEnds q k 0x23 (exec (.splNative q k bad) s) := by
  obtain ⟨u, outcome, -, -⟩ := signOutcome_of_limit (q := q) (k := k) (bad := bad) (s := s) many
  exact splNative_fails splitter runs row left ((splOp_sign sign bad).trans outcome) (by decide) (by decide)

variable (few : Config.mldsaAttemptsRaw (j.key.getD {}).value (signCtx j b) (signMsg j b) j.drawn ≤ 256)
include few

theorem splSign_released
    (good : Config.mldsaVerify (mldsaPub (j.key.getD {}).value) (signCtx j b) (signMsg j b) (mldsaSig (j.key.getD {}).value (signCtx j b) (signMsg j b) j.drawn) = true) :
    RequestDone q k j s (HandsOn q k (fieldLE b 24 4) (mldsaSig (j.key.getD {}).value (signCtx j b) (signMsg j b) j.drawn) s)
      (exec (.splNative q k false) s) :=
  splNative_done splitter runs row left ((splOp_sign sign false).trans (signOutcome_of_released few good)) rfl rfl
    fun _ same late => ⟨(congrArg State.ram same :), (congrArg (fun x : State => x.yard.slots) same :), late⟩

theorem splSign_fault {bad : Bool} (fault : bad = true ∨
      Config.mldsaVerify (mldsaPub (j.key.getD {}).value) (signCtx j b) (signMsg j b) (mldsaSig (j.key.getD {}).value (signCtx j b) (signMsg j b) j.drawn) = false) :
    JobEnds q k 0x31 (exec (.splNative q k bad) s) := by
  obtain ⟨u, outcome, -, -⟩ := signOutcome_of_fault (q := q) (k := k) (s := s) few fault
  exact splNative_fails splitter runs row left ((splOp_sign sign bad).trans outcome) (by decide) (by decide)

end

section
variable (left : j.left = some 1) (verify : fieldLE b 6 2 = 0x0402)
include left verify

/-- The public key of a verification, and its signature, context and message. -/
def verifyKey (j : Job) (b : Bytes) : Bytes := if fieldLE b 8 4 = 0 then slice j.out 0 1952 else mldsaPub (j.key.getD {}).value
def verifyRest (j : Job) (b : Bytes) : Bytes := if fieldLE b 8 4 = 0 then j.out.drop 1952 else j.out
def verifies (j : Job) (b : Bytes) : Bool :=
  Config.mldsaVerify (verifyKey j b) (((verifyRest j b).drop 3309).take (fieldLE b 5 1)) (((verifyRest j b).drop 3309).drop (fieldLE b 5 1))
    (slice (verifyRest j b) 0 3309)

omit splitter runs row left in
theorem splOp_verify : splOp false (fieldLE b 6 2) (splInput k b j s) (j.splPart q) s = (if verifies j b then 0 else 0x0100, [], s) := by
  have parts : splitKey (splInput k b j s) 1952 (mldsaPub (j.splPart q).val) = (verifyKey j b, verifyRest j b) := by
    rw [splitKey_eq, splPart_val]
    unfold verifyKey verifyRest
    simp only [splInput_yref]
    rfl
  rw [verify]
  show fMldsaVerify (splInput k b j s) (j.splPart q) s = _
  unfold fMldsaVerify
  rw [parts, splInput_p0]
  rfl

theorem splVerify_good (good : verifies j b = true) : RequestDone q k j s (HandsOn q k (fieldLE b 24 4) [] s) (exec (.splNative q k false) s) :=
  splNative_done splitter runs row left (splOp_verify verify) (if_pos good) rfl
    fun _ same late => ⟨(congrArg State.ram same :), (congrArg (fun x : State => x.yard.slots) same :), late⟩

theorem splVerify_bad (wrong : verifies j b = false) : JobEnds q k 0x40 (exec (.splNative q k false) s) := by
  have gives := splOp_verify (q := q) (k := k) (j := j) (s := s) verify
  rw [if_neg (by rw [wrong]; exact Bool.false_ne_true)] at gives
  exact splNative_fails splitter runs row left gives (by decide) (by decide)

end

/-! ### Keys -/

/-- A NATIVE request that makes a key: its reference is handed on, with what the row gives beside it. -/
def MakesKey (q k : Nat) (j : Job) (b : Bytes) (s : State) (type : Nat) (value tail : Bytes) : Prop :=
  RequestDone q k j s (fun t =>
    HandsOn q k (fieldLE b 24 4) (leBytes 4 (mkRef (fieldLE b 12 2) ((s.slot (fieldLE b 12 2)).gen + 1)).toNat ++ tail) s t ∧
      ∃ y, (fieldLE b 12 2, y) ∈ t.yard.next ∧ y.type = type ∧ y.value = value) (exec (.splNative q k false) s)

/-- A row that makes a key. -/
theorem splNative_key {type len : Nat} {value tail : Bytes} (left : j.left = some 1)
    (gives : splOp false (fieldLE b 6 2) (splInput k b j s) (j.splPart q) s =
      (0, (newKey (splInput k b j s) (j.splPart q) type len value false false s).1 ++ tail,
        (newKey (splInput k b j s) (j.splPart q) type len value false false s).2)) : MakesKey q k j b s type value tail := by
  obtain ⟨ref, ⟨y, waits, typed, valued, -, -, -⟩, z, slots, only⟩ := newKey_leaves (splInput k b j s) (j.splPart q) type len value false false s
  rw [ref] at gives
  rw [splInput_target] at waits
  have target : targetRef (splInput k b j s) s = leBytes 4 (mkRef (fieldLE b 12 2) ((s.slot (fieldLE b 12 2)).gen + 1)).toNat := by
    unfold targetRef
    rw [splInput_target]
  rw [target] at gives
  rw [only] at gives waits
  refine splNative_done splitter runs row left gives rfl rfl fun t same late => ?_
  have next : t.yard.next = z.next := (congrArg (fun x : State => x.yard.next) same :)
  have kept : t.yard.slots = z.slots := (congrArg (fun x : State => x.yard.slots) same :)
  rw [← next] at waits
  exact ⟨⟨(congrArg State.ram same :), kept.trans slots, late⟩, y, waits, typed, valued⟩

variable (left : j.left = some 1)
include left

theorem splKeygen_dsa (is : fieldLE b 6 2 = 0x0400) : MakesKey q k j b s 0x30 j.drawn (mldsaPub j.drawn) :=
  splNative_key (len := 0) splitter runs row left (by rw [is]; rfl)

theorem splKeygen_kem (is : fieldLE b 6 2 = 0x0410) : MakesKey q k j b s 0x31 j.drawn (mlkemPub j.drawn) :=
  splNative_key (len := 0) splitter runs row left (by rw [is]; rfl)

theorem splDecaps (is : fieldLE b 6 2 = 0x0412) : MakesKey q k j b s 0x04 (fixLen 32 (Config.mlkemDecKeyRaw (j.key.getD {}).value j.out)) [] := by
  refine splNative_key (len := 32) splitter runs row left ?_
  rw [is, ← splPart_val (q := q), List.append_nil]
  rfl

/-- The encapsulation key of a request. -/
def encapsKey (j : Job) (b : Bytes) : Bytes := if fieldLE b 8 4 = 0 then j.out else mlkemPub (j.key.getD {}).value

omit splitter runs row left in
theorem splInput_encapsKey : (if (splInput k b j s).yref = 0 then (splInput k b j s).input else mlkemPub (j.splPart q).val) = encapsKey j b := by
  unfold encapsKey
  rw [splPart_val]
  simp only [splInput_yref]
  rfl

theorem splEncaps_good (is : fieldLE b 6 2 = 0x0411) (good : Config.mlkemEkOk (encapsKey j b) = true) :
    MakesKey q k j b s 0x04 (fixLen 32 (Config.mlkemEncKeyRaw (encapsKey j b) j.drawn)) (fixLen 1088 (Config.mlkemEncCtRaw (encapsKey j b) j.drawn)) := by
  refine splNative_key (len := 32) splitter runs row left ?_
  rw [is]
  show fMlkemEncaps (splInput k b j s) (j.splPart q) s = _
  unfold fMlkemEncaps
  rw [splInput_encapsKey]
  exact if_neg (by rw [good]; exact Bool.false_ne_true)

theorem splEncaps_bad (is : fieldLE b 6 2 = 0x0411) (bad : Config.mlkemEkOk (encapsKey j b) = false) : JobEnds q k 0x03 (exec (.splNative q k false) s) := by
  have gives : splOp false (fieldLE b 6 2) (splInput k b j s) (j.splPart q) s = (0x0121, [], s) := by
    rw [is]
    show fMlkemEncaps (splInput k b j s) (j.splPart q) s = _
    unfold fMlkemEncaps
    rw [splInput_encapsKey]
    exact if_pos (by rw [bad]; rfl)
  exact splNative_fails splitter runs row left gives (by decide) (by decide)

end

end Sys2Proof.Machine

/-! PROOFS. Wedge requests, tick by tick (R172, R188). -/

namespace Sys2Proof.Machine
open Sys2Proof Sys2Proof.Claims

/-! ### The fields of a request -/

/-- The mode of a request, the length of its data, and its AAD's. -/
def wdgMode (b : Bytes) : Nat := fieldLE b 0 2
def wdgData (b : Bytes) : Nat := fieldLE b 20 4 - (if wdgMode b = 0x0205 then 16 else if wdgMode b = 0x0207 then fieldLE b 3 1 else 0)
def wdgAad (b : Bytes) : Nat := if 0x0203 ≤ wdgMode b ∧ wdgMode b ≤ 0x0205 then fieldLE b 8 4 else 0

/-- The catalogue command of a request on the bytes that it has taken. -/
def wdgInput (k : Nat) (b x : Bytes) (n : Nat) (s : State) : Cmd := { wdgCmd k b s with input := x, inLen := n }
def Job.wdgPart (j : Job) (q : Nat) : Part := { cls := .wedge, eng := some q, key := j.key, drawn := j.drawn }

theorem slice_take {n m : Nat} (short : m ≤ n) (b : Bytes) (o : Nat) : (slice b o n).take m = slice b o m := by
  refine List.ext_getElem? fun i => ?_
  unfold slice
  rw [List.getElem?_take, getElem?_fixLen, getElem?_fixLen]
  split
  · rw [if_pos (by omega)]
  · rfl

section
variable {q k l : Nat} {j : Job} {b x : Bytes} {n : Nat} {s : State}

theorem wdgInput_block (mode : wdgMode b ≤ 0x0202) : (wdgInput k b x n s).u3 = slice b 32 16 := if_pos mode

theorem wdgInput_gcm (low : 0x0203 ≤ wdgMode b) (high : wdgMode b ≤ 0x0205) : (wdgInput k b x n s).u3 = slice b 32 12 ++ slice b 8 4 :=
  (if_neg (by show ¬ wdgMode b ≤ 0x0202; omega)).trans (if_pos high)

theorem wdgInput_iv (low : 0x0203 ≤ wdgMode b) (high : wdgMode b ≤ 0x0205) : (wdgInput k b x n s).u3.take 12 = (slice b 32 16).take 12 := by
  rw [wdgInput_gcm low high, List.take_left' (slice_length ..), slice_take (by decide)]

theorem wdgInput_aad (low : 0x0203 ≤ wdgMode b) (high : wdgMode b ≤ 0x0205) : (wdgInput k b x n s).aad = wdgAad b := by
  unfold Cmd.aad wdgAad
  rw [wdgInput_gcm low high, if_pos ⟨low, high⟩, ← List.append_nil (slice b 32 12 ++ slice b 8 4)]
  exact congrArg leNat (slice_append_mid _ (slice_length ..) (slice_length ..))

/-- The length of a MAC to compare is a byte of the request. -/
theorem wdgInput_mac (mode : wdgMode b = 0x0207) : (wdgInput k b x n s).opc = fieldLE b 3 1 := by
  have u3 : (wdgInput k b x n s).u3 = leBytes 8 0 ++ slice b 3 1 ++ leBytes 7 0 :=
    (if_neg (by show ¬ wdgMode b ≤ 0x0202; omega)).trans ((if_neg (by show ¬ wdgMode b ≤ 0x0205; omega)).trans (if_pos mode))
  obtain ⟨y, byte⟩ := List.length_eq_one_iff.mp (slice_length b 3 1)
  unfold Cmd.opc fieldLE
  rw [u3, byte]
  show y.toNat + 256 * (0 + 256 * (0 + 256 * (0 + 256 * 0))) = y.toNat + 256 * 0
  omega

theorem wdgCmd_dataLen : (wdgCmd k b s).dataLen = wdgData b := by
  have length : (wdgCmd k b s).inLen = fieldLE b 20 4 := by
    show (s.ramRead (fieldLE b 16 4) (fieldLE b 20 4)).length = _
    simp [State.ramRead, Memory.read]
  unfold Cmd.dataLen wdgData
  rw [length]
  refine congrArg (fieldLE b 20 4 - ·) (ite_congr rfl (fun _ => rfl) fun _ => ite_congr rfl (fun mode => ?_) fun _ => rfl)
  exact wdgInput_mac (s := s) (x := (wdgCmd k b s).input) (n := (wdgCmd k b s).inLen) mode

theorem wdgPart_val : (j.wdgPart q).val = (j.key.getD {}).value := by
  unfold Part.val Job.wdgPart
  cases j.key with
  | none => rfl
  | some y => rfl

/-! ### What the modes give -/

/-- What a request gives of the bytes that it has taken is its mode's function of them. -/
theorem wdgText_eq (key drawn : Bytes) : wdgText (wdgInput k b x n s) key drawn = wedgeText (wdgMode b) key (slice b 32 16) drawn (wdgAad b) x := by
  refine ite_congr rfl (fun mode => ?_) fun _ => ite_congr rfl (fun mode => ?_) fun _ => ite_congr rfl (fun mode => ?_) fun _ =>
    ite_congr rfl (fun mode => ?_) fun _ => ite_congr rfl (fun mode => ?_) fun _ => rfl
  · have mode : wdgMode b = 0x0200 := mode
    rw [wdgInput_block (by omega)]
    rfl
  · have mode : wdgMode b = 0x0201 := mode
    rw [wdgInput_block (by omega)]
    rfl
  · have mode : wdgMode b = 0x0202 := mode
    rw [wdgInput_block (by omega)]
    rfl
  · have mode : wdgMode b = 0x0203 ∨ wdgMode b = 0x0205 := mode
    rw [wdgInput_iv (by omega) (by omega), wdgInput_aad (by omega) (by omega)]
    rfl
  · have mode : wdgMode b = 0x0204 := mode
    rw [wdgInput_aad (by omega) (by omega)]
    rfl

/-- A mode that compares nothing gives its function of the whole input. -/
theorem wdgOp_gives (mode : wdgMode b ∈ [0x0200, 0x0201, 0x0202, 0x0203, 0x0204, 0x0206, 0x0700]) :
    wdgOp (wdgMode b) (wdgInput k b x n s) (j.wdgPart q) s =
      (0, wedgeOut (wdgMode b) (j.key.getD {}).value (slice b 32 16) j.drawn (wdgAad b) x, s) := by
  rw [← wdgPart_val (q := q)]
  simp only [List.mem_cons, List.not_mem_nil, or_false] at mode
  rcases mode with is | is | is | is | is | is | is
  · have u3 := wdgInput_block (k := k) (x := x) (n := n) (s := s) (by omega : wdgMode b ≤ 0x0202)
    rw [is, ← u3]
    exact congrArg (fun v => (0, v, s)) (List.append_nil _).symm
  · have u3 := wdgInput_block (k := k) (x := x) (n := n) (s := s) (by omega : wdgMode b ≤ 0x0202)
    rw [is, ← u3]
    exact congrArg (fun v => (0, v, s)) (List.append_nil _).symm
  · have u3 := wdgInput_block (k := k) (x := x) (n := n) (s := s) (by omega : wdgMode b ≤ 0x0202)
    rw [is, ← u3]
    exact congrArg (fun v => (0, v, s)) (List.append_nil _).symm
  · have iv := wdgInput_iv (k := k) (x := x) (n := n) (s := s) (by omega : 0x0203 ≤ wdgMode b) (by omega)
    have aad := wdgInput_aad (k := k) (x := x) (n := n) (s := s) (by omega : 0x0203 ≤ wdgMode b) (by omega)
    unfold wedgeOut wedgeText
    rw [is, ← iv, ← aad]
    rfl
  · have aad := wdgInput_aad (k := k) (x := x) (n := n) (s := s) (by omega : 0x0203 ≤ wdgMode b) (by omega)
    unfold wedgeOut wedgeText
    rw [is, ← aad]
    exact congrArg (fun v => (0, v, s)) (List.append_assoc ..).symm
  · rw [is]
    rfl
  · rw [is]
    rfl

/-! ### A job tick -/

/-- A job tick in which a request takes its next 6,144 bytes (R172). -/
abbrev WdgTakes (t : Nat) (b : Bytes) : Prop := firstData (wdgMode b) ≤ t ∧ 6144 * (t - firstData (wdgMode b)) < wdgData b

/-- What a request has taken after a job tick, and what that gives. -/
def wdgTaken (t : Nat) (j : Job) (b : Bytes) (s : State) : Bytes :=
  if WdgTakes t b then j.out ++ s.ramRead (fieldLE b 16 4 + 6144 * (t - firstData (wdgMode b))) (min 6144 (wdgData b - 6144 * (t - firstData (wdgMode b))))
  else j.out
def wdgGiven (t : Nat) (j : Job) (b : Bytes) (s : State) : Bytes :=
  wedgeText (wdgMode b) (j.key.getD {}).value (slice b 32 16) j.drawn (wdgAad b) (wdgTaken t j b s)
def wdgWrote (t : Nat) (j : Job) (b : Bytes) (s : State) : Nat := if WdgTakes t b then (wdgGiven t j b s).length else j.wrote
def wdgLate (t : Nat) (j : Job) (b : Bytes) (s : State) : List (Nat × Bytes) :=
  if WdgTakes t b then j.late ++ [(fieldLE b 24 4 + j.wrote, (wdgGiven t j b s).drop j.wrote)] else j.late

/-- The job after a tick of a wedge request. -/
def Job.wedged (j : Job) (t : Nat) (b : Bytes) (s : State) : Job :=
  { j with out := wdgTaken t j b s, wrote := wdgWrote t j b s, late := wdgLate t j b s }

/-- A tick takes its bytes, hands on what they give, and at most marks the output of a GCM decryption as held. -/
theorem wdgEach_eq (t : Nat) : ∃ h, wdgEach q k t j b s = (j.wedged t b s, { s with held := h }) ∧ (wdgMode b ≠ 0x0205 → h = s.held) := by
  have mode : (wdgCmd k b s).opcode = wdgMode b := rfl
  unfold wdgEach
  dsimp only
  rw [wdgCmd_dataLen, mode]
  by_cases takes : WdgTakes t b
  · have runs : ¬ (decide (t < firstData (wdgMode b)) || decide (wdgData b ≤ 6144 * (t - firstData (wdgMode b)))) = true := by
      simp only [Bool.or_eq_true, decide_eq_true_eq]
      omega
    have taken : wdgTaken t j b s = j.out ++ s.ramRead (fieldLE b 16 4 + 6144 * (t - firstData (wdgMode b)))
        (min 6144 (wdgData b - 6144 * (t - firstData (wdgMode b)))) := if_pos takes
    have given : wdgText { wdgCmd k b s with input := wdgTaken t j b s, inLen := (wdgTaken t j b s).length } ((j.key.map Slot.value).getD []) j.drawn =
        wdgGiven t j b s := by
      unfold wdgGiven
      rw [← wdgPart_val (q := q)]
      exact wdgText_eq ..
    dsimp only at given
    rw [mode] at given
    have after : j.wedged t b s = { j with
        out := wdgTaken t j b s, wrote := (wdgGiven t j b s).length, late := j.late ++ [(fieldLE b 24 4 + j.wrote, (wdgGiven t j b s).drop j.wrote)] } := by
      unfold Job.wedged wdgWrote wdgLate
      rw [if_pos takes, if_pos takes]
    rw [if_neg runs, ← taken, given, after]
    split
    next held =>
      refine ⟨_, rfl, fun mode => absurd ?_ mode⟩
      simp only [Bool.and_eq_true, decide_eq_true_eq] at held
      obtain ⟨⟨dec, -⟩, -⟩ := held
      exact dec
    next => exact ⟨s.held, rfl, fun _ => rfl⟩
  · have waits : (decide (t < firstData (wdgMode b)) || decide (wdgData b ≤ 6144 * (t - firstData (wdgMode b)))) = true := by
      simp only [Bool.or_eq_true, decide_eq_true_eq]
      omega
    refine ⟨s.held, (if_pos waits).trans ?_, fun _ => rfl⟩
    unfold Job.wedged wdgTaken wdgWrote wdgLate
    rw [if_neg takes, if_neg takes, if_neg takes]

end

end Sys2Proof.Machine

/-! PROOFS. The last tick of a wedge request (R172, R174, R188), and O29. -/

namespace Sys2Proof.Machine
open Sys2Proof Sys2Proof.Claims

section
variable {q k : Nat} {j : Job} {b : Bytes} {s : State}

/-- The whole input of a request once its last tick has taken its bytes, and what it hands on at its end. -/
def wdgAll (j : Job) (b : Bytes) (s : State) : Bytes :=
  wdgTaken j.total j b s ++ s.ramRead (fieldLE b 16 4 + (wdgTaken j.total j b s).length) (fieldLE b 20 4 - (wdgTaken j.total j b s).length)
def wdgRest (j : Job) (b out : Bytes) (s : State) : Nat × Bytes := (fieldLE b 24 4 + wdgWrote j.total j b s, out.drop (wdgWrote j.total j b s))

/-- The command of the last tick. -/
abbrev wdgLast (k : Nat) (j : Job) (b : Bytes) (s : State) : Cmd := wdgInput k b (wdgAll j b s) (fieldLE b 20 4) s

/-- The job in its last tick. -/
def Job.lastTick (j : Job) (b : Bytes) (s : State) : Job := { j with budget := 0, left := some (1 - 1) }.wedged (j.total + 1 - 1) b s

/-- How a request ends, from what its mode has given. -/
def Job.wdgEnd (j : Job) (b : Bytes) (c : Cmd) (r : Nat × Bytes × State) : Nat × Job × State :=
  if r.1 ≠ 0 then (jobStatus r.1, { j with out := [], wrote := 0 }, r.2.2)
  else (0, { j with
    out := [], wrote := 0, late := j.late ++ [(fieldLE b 24 4 + j.wrote, r.2.1.drop j.wrote)] ++
      (if fieldLE b 2 1 = 1 then [(j.jaddr.toNat + 64 * j.idx + 32, chainBlock c r.2.1)] else []) }, r.2.2)

theorem wdgFin_eq (j : Job) (b : Bytes) (s : State) :
    let c := wdgInput k b (j.out ++ s.ramRead (fieldLE b 16 4 + j.out.length) (fieldLE b 20 4 - j.out.length)) (fieldLE b 20 4) s
    wdgFin q k j b s = j.wdgEnd b c (wdgOp (wdgMode b) c (j.wdgPart q) s) := rfl

variable (wedge : q % 5 = 3) (runs : Runs q k 64 j b s)
include wedge runs

theorem wdgRequest_of_left {l : Nat} (left : j.left = some l) :
    execWdgRequest q k s = .next (wholeTick q k (wdgEach q k) (wdgFin q k) l j b s) := by
  unfold execWdgRequest
  rw [if_neg (not_not.mpr wedge), wholeTicks_of_left runs rfl left]

/-- A request with more job ticks left spends one (R172). -/
theorem wdgRequest_more {l : Nat} (left : j.left = some l) (more : 1 < l) :
    ∃ t, exec (.wdgRequest q k) s = .next t ∧ OtherJobs q k s t ∧ { t with jobs := s.jobs, held := s.held } = s ∧
      t.job q k = { j with budget := 0, left := some (l - 1) }.wedged (j.total + 1 - l) b s := by
  obtain ⟨h, works, -⟩ := wdgEach_eq (q := q) (k := k) (j := { j with budget := 0, left := some (l - 1) }) (b := b) (s := s) (j.total + 1 - l)
  exact ⟨_, (wdgRequest_of_left wedge runs left).trans (congrArg _ (wholeTick_of_more more works)), fun i other => tget_setJob other .., rfl,
    State.job_set_same ..⟩

section
variable (left : j.left = some 1) {h : List Held} (works : wdgEach q k (j.total + 1 - 1) { j with budget := 0, left := some (1 - 1) } b s =
    (j.lastTick b s, { s with held := h }))
  {st : Nat} {out : Bytes} {u : State} (gives : wdgOp (wdgMode b) (wdgLast k j b s) (j.wdgPart q) { s with held := h } = (st, out, u))
include left works gives

/-- The last tick of a request whose mode ends well. -/
theorem wdgRequest_done {p : State → Prop} (ok : st = 0) (jobs : u.jobs = s.jobs)
    (leaves : ∀ t : State, t.unjobbed = u.unjobbed →
      (t.job q k).late = wdgLate j.total j b s ++ [wdgRest j b out s] ++
        (if fieldLE b 2 1 = 1 then [(j.jaddr.toNat + 64 * j.idx + 32, chainBlock (wdgLast k j b s) out)] else []) → p t) :
    RequestDone q k j s p (exec (.wdgRequest q k) s) := by
  show RequestDone _ _ _ _ _ (execWdgRequest q k s)
  subst ok
  have ends : wdgFin q k (j.lastTick b s) b { s with held := h } = (j.lastTick b s).wdgEnd b (wdgLast k j b s) (0, out, u) :=
    (wdgFin_eq ..).trans (congrArg ((j.lastTick b s).wdgEnd b (wdgLast k j b s)) gives)
  rw [wdgRequest_of_left wedge runs left, wholeTick_of_last works ends]
  exact requestDone_of_next (fun i _ => by rw [jobs]) rfl rfl (show j.ending = none from ending_of_runs runs)
    fun t same worked => leaves t same (congrArg Job.late worked :)

/-- The last tick of a request whose mode ends with another status. -/
theorem wdgRequest_fails (other : st ≠ 0) (bad : jobStatus st ≠ 0) : JobEnds q k (jobStatus st) (exec (.wdgRequest q k) s) := by
  show JobEnds _ _ _ (execWdgRequest q k s)
  have ends : wdgFin q k (j.lastTick b s) b { s with held := h } = (jobStatus st, { j.lastTick b s with out := [], wrote := 0 }, u) :=
    (wdgFin_eq ..).trans ((congrArg ((j.lastTick b s).wdgEnd b (wdgLast k j b s)) gives).trans (if_pos other))
  rw [wdgRequest_of_left wedge runs left, wholeTick_of_failed works ends bad]
  exact jobEnds_of_stop ..

end

/-! ### The modes -/

variable (left : j.left = some 1)
include left

/-- What a mode that compares nothing hands on. -/
def wdgOutput (j : Job) (b : Bytes) (s : State) : Bytes :=
  wedgeOut (wdgMode b) (j.key.getD {}).value (slice b 32 16) j.drawn (wdgAad b) (wdgAll j b s)

/-- The last tick of a request that compares nothing. -/
theorem wdgRequest_output (mode : wdgMode b ∈ [0x0200, 0x0201, 0x0202, 0x0203, 0x0204, 0x0206, 0x0700]) :
    RequestDone q k j s (fun t => OnlyJob s t ∧ t.ram = s.ram ∧ (t.job q k).late = wdgLate j.total j b s ++ [wdgRest j b (wdgOutput j b s) s] ++
      (if fieldLE b 2 1 = 1 then [(j.jaddr.toNat + 64 * j.idx + 32, chainBlock (wdgLast k j b s) (wdgOutput j b s))] else []))
      (exec (.wdgRequest q k) s) := by
  obtain ⟨h, works, plain⟩ := wdgEach_eq (q := q) (k := k) (j := { j with budget := 0, left := some (1 - 1) }) (b := b) (s := s) (j.total + 1 - 1)
  have other : wdgMode b ≠ 0x0205 := by
    intro dec
    rw [dec] at mode
    exact absurd mode (by decide)
  obtain rfl := plain other
  exact wdgRequest_done wedge runs left works (wdgOp_gives mode) rfl rfl
    fun t same late => ⟨(onlyJob_of_unjobbed same).1, (onlyJob_of_unjobbed same).2, late⟩

omit wedge runs left in
/-- The block that CHAIN writes back: the last one of the ciphertext, or the counter after the data (R188). -/
theorem chainBlock_eq (mode : wdgMode b ∈ [0x0200, 0x0201, 0x0202]) (some : 0 < fieldLE b 20 4) (out : Bytes) : chainBlock (wdgLast k j b s) out =
    if wdgMode b = 0x0200 then slice out (fieldLE b 20 4 - 16) 16
    else if wdgMode b = 0x0201 then slice (wdgAll j b s) (fieldLE b 20 4 - 16) 16
    else (slice b 32 16).take 12 ++ beBytes 4 (beNat (slice (slice b 32 16) 12 4) + ceilDiv (fieldLE b 20 4) 16) := by
  have low : wdgMode b ≤ 0x0202 := by
    simp only [List.mem_cons, List.not_mem_nil, or_false] at mode
    omega
  rw [← wdgInput_block (k := k) (x := wdgAll j b s) (n := fieldLE b 20 4) (s := s) low]
  exact if_neg (show ¬ fieldLE b 20 4 = 0 from by omega)

/-- Without CHAIN a request hands on the rest of its output. -/
theorem wdgRequest_plain (mode : wdgMode b ∈ [0x0200, 0x0201, 0x0202, 0x0203, 0x0204, 0x0206, 0x0700]) (flag : fieldLE b 2 1 = 0) :
    RequestDone q k j s (fun t => OnlyJob s t ∧ t.ram = s.ram ∧ (t.job q k).late = wdgLate j.total j b s ++ [wdgRest j b (wdgOutput j b s) s])
      (exec (.wdgRequest q k) s) := by
  have done := wdgRequest_output wedge runs left mode
  rw [if_neg (by omega), List.append_nil] at done
  exact done

/-- With CHAIN it hands on the next block too. -/
theorem wdgRequest_chained (mode : wdgMode b ∈ [0x0200, 0x0201, 0x0202]) (flag : fieldLE b 2 1 = 1) (some : 0 < fieldLE b 20 4) :
    RequestDone q k j s (fun t => OnlyJob s t ∧ t.ram = s.ram ∧ (t.job q k).late = wdgLate j.total j b s ++
      [wdgRest j b (wdgOutput j b s) s, (j.jaddr.toNat + 64 * j.idx + 32,
        if wdgMode b = 0x0200 then slice (wdgOutput j b s) (fieldLE b 20 4 - 16) 16
        else if wdgMode b = 0x0201 then slice (wdgAll j b s) (fieldLE b 20 4 - 16) 16
        else (slice b 32 16).take 12 ++ beBytes 4 (beNat (slice (slice b 32 16) 12 4) + ceilDiv (fieldLE b 20 4) 16))]) (exec (.wdgRequest q k) s) := by
  have known : wdgMode b ∈ [0x0200, 0x0201, 0x0202, 0x0203, 0x0204, 0x0206, 0x0700] := by
    simp only [List.mem_cons, List.not_mem_nil, or_false] at mode ⊢
    omega
  have done := wdgRequest_output wedge runs left known
  rw [if_pos flag, chainBlock_eq mode some, List.append_assoc] at done
  exact done

omit wedge runs left in
theorem plain_of_listed (listed : wdgMode b ∈ wdgOps) (notDec : wdgMode b ≠ 0x0205) (notMac : wdgMode b ≠ 0x0207) :
    wdgMode b ∈ [0x0200, 0x0201, 0x0202, 0x0203, 0x0204, 0x0206, 0x0700] := by
  unfold wdgOps at listed
  simp only [List.mem_cons, List.not_mem_nil, or_false] at listed ⊢
  omega

omit wedge runs left in
theorem chained_of_listed (listed : wdgMode b ∈ wdgOps) (low : wdgMode b ≤ 0x0202) : wdgMode b ∈ [0x0200, 0x0201, 0x0202] := by
  unfold wdgOps at listed
  simp only [List.mem_cons, List.not_mem_nil, or_false] at listed ⊢
  omega

section
variable (dec : wdgMode b = 0x0205)
include dec

omit wedge runs left in
theorem wdgOp_dec (c : Cmd) (p : Part) (s : State) : wdgOp (wdgMode b) c p s = fGcmDec c p s := by
  rw [dec]
  rfl

/-- The ciphertext of a GCM decryption, and the tag that it carries. -/
def wdgCipher (j : Job) (b : Bytes) (s : State) : Bytes := slice (wdgAll j b s) (wdgAad b) (fieldLE b 20 4 - wdgAad b - 16)
def wdgTag (j : Job) (b : Bytes) (s : State) : Bytes :=
  gcmTag (j.key.getD {}).value ((slice b 32 16).take 12) ((wdgAll j b s).take (wdgAad b)) (wdgCipher j b s)

omit wedge runs left in
/-- The tag is compared with the last bytes of the input. -/
theorem wdgTag_compared (long : wdgAad b + 16 ≤ fieldLE b 20 4) :
    (gcmTag (j.wdgPart q).val ((wdgLast k j b s).u3.take 12) ((wdgLast k j b s).input.take (wdgLast k j b s).aad)
      (slice (wdgLast k j b s).input (wdgLast k j b s).aad (wdgLast k j b s).plain) =
        slice (wdgLast k j b s).input ((wdgLast k j b s).aad + (wdgLast k j b s).plain) 16) ↔
      wdgTag j b s = slice (wdgAll j b s) (fieldLE b 20 4 - 16) 16 := by
  have aad : (wdgLast k j b s).aad = wdgAad b := wdgInput_aad (by omega) (by omega)
  have plain : (wdgLast k j b s).plain = fieldLE b 20 4 - wdgAad b - 16 := by
    unfold Cmd.plain
    rw [aad]
    rfl
  have last : wdgAad b + (fieldLE b 20 4 - wdgAad b - 16) = fieldLE b 20 4 - 16 := by omega
  rw [plain, aad, last, wdgPart_val, wdgInput_iv (by omega) (by omega)]
  rfl

theorem wdgRequest_decrypted (flag : fieldLE b 2 1 = 0) (long : wdgAad b + 16 ≤ fieldLE b 20 4)
    (good : wdgTag j b s = slice (wdgAll j b s) (fieldLE b 20 4 - 16) 16) :
    RequestDone q k j s (fun t => t.ram = s.ram ∧ (∀ x ∈ t.held, ¬(x.bench = q / 5 ∧ x.lease = k)) ∧
      (t.job q k).late = wdgLate j.total j b s ++
        [wdgRest j b (gcmText (j.key.getD {}).value ((slice b 32 16).take 12) (wdgCipher j b s)) s]) (exec (.wdgRequest q k) s) := by
  obtain ⟨h, works, -⟩ := wdgEach_eq (q := q) (k := k) (j := { j with budget := 0, left := some (1 - 1) }) (b := b) (s := s) (j.total + 1 - 1)
  have gives := (wdgOp_dec dec (wdgLast k j b s) (j.wdgPart q) { s with held := h }).trans (fGcmDec_of_good ((wdgTag_compared dec long).mpr good))
  refine wdgRequest_done wedge runs left works gives rfl rfl fun t same late => ?_
  have text : gcmText (j.wdgPart q).val ((wdgLast k j b s).u3.take 12) (slice (wdgLast k j b s).input (wdgLast k j b s).aad (wdgLast k j b s).plain) =
      gcmText (j.key.getD {}).value ((slice b 32 16).take 12) (wdgCipher j b s) := by
    have aad : (wdgLast k j b s).aad = wdgAad b := wdgInput_aad (by omega) (by omega)
    unfold Cmd.plain
    rw [aad, wdgPart_val, wdgInput_iv (by omega) (by omega)]
    rfl
  rw [text, if_neg (by omega), List.append_nil] at late
  have held : t.held = h.filter fun x => !heldFor (q / 5) k x := (congrArg State.held same :)
  refine ⟨(congrArg State.ram same :), fun x listed mine => ?_, late⟩
  rw [held, List.mem_filter] at listed
  obtain ⟨-, kept⟩ := listed
  simp [heldFor, mine] at kept

theorem wdgRequest_forged (long : wdgAad b + 16 ≤ fieldLE b 20 4) (bad : wdgTag j b s ≠ slice (wdgAll j b s) (fieldLE b 20 4 - 16) 16) :
    JobEnds q k 0x42 (exec (.wdgRequest q k) s) := by
  obtain ⟨h, works, -⟩ := wdgEach_eq (q := q) (k := k) (j := { j with budget := 0, left := some (1 - 1) }) (b := b) (s := s) (j.total + 1 - 1)
  have gives := (wdgOp_dec dec (wdgLast k j b s) (j.wdgPart q) { s with held := h }).trans (fGcmDec_of_bad (mt (wdgTag_compared dec long).mp bad))
  exact wdgRequest_fails wedge runs left works gives (by decide) (by decide)

end

section
variable (mac : wdgMode b = 0x0207)
include mac

/-- A CMAC of the data, cut to the length that the request gives. -/
def wdgMac (j : Job) (b : Bytes) (s : State) : Bytes := (cmac (j.key.getD {}).value ((wdgAll j b s).take (wdgData b))).take (fieldLE b 3 1)

omit wedge runs left in
theorem wdgOp_mac (s u : State) : wdgOp (wdgMode b) (wdgLast k j b s) (j.wdgPart q) u =
    compared q k 0x0101 (wdgMac j b s = slice (wdgAll j b s) (wdgData b) (fieldLE b 3 1)) u := by
  have opc : (wdgLast k j b s).opc = fieldLE b 3 1 := wdgInput_mac mac
  have data : fieldLE b 20 4 - fieldLE b 3 1 = wdgData b := by
    unfold wdgData
    rw [if_neg (by omega), if_pos mac]
  rw [mac]
  show fCmacVerify (wdgLast k j b s) (j.wdgPart q) u = _
  unfold fCmacVerify wdgMac
  rw [opc, wdgPart_val, ← data]
  rfl

theorem wdgRequest_verified (good : wdgMac j b s = slice (wdgAll j b s) (wdgData b) (fieldLE b 3 1)) :
    RequestDone q k j s (fun t => OnlyJob s t ∧ t.ram = s.ram) (exec (.wdgRequest q k) s) := by
  obtain ⟨h, works, plain⟩ := wdgEach_eq (q := q) (k := k) (j := { j with budget := 0, left := some (1 - 1) }) (b := b) (s := s) (j.total + 1 - 1)
  obtain rfl := plain (by omega)
  exact wdgRequest_done wedge runs left works ((wdgOp_mac mac s s).trans (if_pos (decide_eq_true good))) rfl rfl fun t same _ => onlyJob_of_unjobbed same

theorem wdgRequest_mismatch (bad : wdgMac j b s ≠ slice (wdgAll j b s) (wdgData b) (fieldLE b 3 1)) : JobEnds q k 0x41 (exec (.wdgRequest q k) s) := by
  obtain ⟨h, works, plain⟩ := wdgEach_eq (q := q) (k := k) (j := { j with budget := 0, left := some (1 - 1) }) (b := b) (s := s) (j.total + 1 - 1)
  obtain rfl := plain (by omega)
  exact wdgRequest_fails wedge runs left works ((wdgOp_mac mac s s).trans (if_neg (by simpa using bad))) (by decide) (by decide)

end

end

end Sys2Proof.Machine

namespace Sys2Proof.Proofs
open Sys2Proof Sys2Proof.Machine Sys2Proof.Claims

/-- Settles O29: polynomial requests run within the budget, NATIVE and wedge requests over whole job ticks, whose last hands their output on. -/
theorem splitterAndWedge : Obligations.SplitterAndWedge := by
  unfold Obligations.SplitterAndWedge
  constructor
  · intro q k j b s splitter runs good fits x m coef' coef got
    refine ⟨fun row aligned inside => ⟨pload_poly splitter runs good fits row aligned inside, pload_above splitter runs good fits row aligned inside⟩,
      pload_unaligned splitter runs good fits, pstore_written splitter runs good fits, fun row => ?_, fun row => ?_, pmult_dsa splitter runs good fits,
      pmult_kem splitter runs good fits, splPadd_sum splitter runs good fits, psub_difference splitter runs good fits⟩
    · exact leavesPoly_of_calc splitter runs good row fits rfl
    · exact leavesPoly_of_calc splitter runs good row fits rfl
  · intro q k l j b s left key o
    constructor
    · intro splitter runs row op ctx msg sig good target hands made
      refine ⟨fun more bad => splNative_more splitter runs row left more bad, ?_, ?_, ?_, ?_, ?_, ?_, ?_⟩
      · rintro rfl sign few
        exact ⟨splSign_released splitter runs row left sign few, fun wrong => splSign_fault splitter runs row left sign few (.inr wrong),
          splSign_fault splitter runs row left sign few (.inl rfl)⟩
      · rintro rfl sign many bad
        exact splSign_limit splitter runs row left sign many bad
      · rintro rfl verify n pk rest good
        exact ⟨splVerify_good splitter runs row left verify, splVerify_bad splitter runs row left verify⟩
      · rintro rfl is
        exact splKeygen_dsa splitter runs row left is
      · rintro rfl is
        exact splKeygen_kem splitter runs row left is
      · rintro rfl is ek
        exact ⟨splEncaps_good splitter runs row left is, splEncaps_bad splitter runs row left is⟩
      · rintro rfl is
        exact splDecaps splitter runs row left is
    · intro wedge runs mode block aad inp n macLen first off dlen takes taken text late w all out next listed
      refine ⟨wdgRequest_more wedge runs left, ?_, ?_, ?_, ?_⟩
      · rintro rfl notDec notMac flag
        exact wdgRequest_plain wedge runs left (plain_of_listed listed notDec notMac) flag
      · rintro rfl low flag some
        exact wdgRequest_chained wedge runs left (chained_of_listed listed low) flag some
      · rintro rfl dec flag ct good long
        exact ⟨wdgRequest_decrypted wedge runs left dec flag long, wdgRequest_forged wedge runs left dec long⟩
      · rintro rfl mac flag good
        exact ⟨wdgRequest_verified wedge runs left mac, wdgRequest_mismatch wedge runs left mac⟩

end Sys2Proof.Proofs
